-- ==== Sys2Proof/Word.lean ====
section
/-! DEFINITION. The word types of the SX1650 model: what the manual reads and writes as bits. -/

namespace Sys2Proof

/-- A register image: every register of R344 is 32 bits wide. -/
abbrev Word := BitVec 32

/-- One byte of a block, a cell or a frame (R192, R102). -/
abbrev Byte := BitVec 8

/-- A block sequence (R205): 24 bits, compared modulo 2^24. -/
abbrev Seq24 := BitVec 24

/-- A queue sequence (R231): 16 bits, compared modulo 2^16. -/
abbrev Seq16 := BitVec 16

/-- A byte address on the register interfaces (R344): ADDR[23:0]. -/
abbrev Addr := BitVec 24

end Sys2Proof
end

