-- ==== Sys2Proof/Syntax.lean ====
section
/-! DEFINITION. The commands of the SX1650 (one constructor of `Instr` for each row of the operation table) and the
operand types they carry. An operand is what the sender of the command supplies: an address and a value, the fields of a
received cell or block, or what the part's own analogue circuits measured at that instant. -/

namespace Sys2Proof

/-- The line modes of R70 (MODE_REQ codes): six standard modes and five Locon modes. -/
inductive LineMode where
  | t100 | t1000 | t2500 | t5000 | t10g | t25g | l50a | l25s | l10x | ldmt | lchirp
  deriving DecidableEq, Repr

/-- The three interfaces that each have a guard of their own (R358). -/
inductive Iface where
  | spi | monitor | keeper
  deriving DecidableEq, Repr

/-- The access ways of address bits [15:14] (R349). -/
inductive Way where
  | plain | setBits | clearBits | toggle
  deriving DecidableEq, Repr

/-- The six PLLs of R45. -/
inductive Pll where
  | core | host | reach (r : Fin 4)
  deriving DecidableEq, Repr

/-- The clock multiplexers of R48. -/
inductive Mux where
  | core | spine (r : Fin 4) | host
  deriving DecidableEq, Repr

/-- Custody classes (R212). -/
inductive Custody where
  | none | hop | through
  deriving DecidableEq, Repr

/-- The three ways an SPI transaction is ignored (R346). -/
inductive SpiError where
  | badCrc | badClockCount | unknownCommand
  deriving DecidableEq, Repr

/-- The Camtia extended next page (R74): its OUI, and the field of the unformatted next page that follows it. -/
structure ExtPage where
  oui   : BitVec 24
  field : Word
  deriving DecidableEq, Repr

/-- What Clause 98 has brought from the partner (R64, R73, R74, R299): the standard modes of its base page in the order of
STD_MASK, whether it advertises EEE, its extended next page if it sent one, and the clause's master/slave resolution for
this end or its configuration fault. -/
structure AnPages where
  std     : BitVec 6
  eee     : Bool
  ext     : Option ExtPage
  master  : Bool
  msFault : Bool
  deriving DecidableEq, Repr

/-- A page sent in Clause 98 (R73, R74): the base page with the modes it advertises, its EEE bit and MS_CFG; the message
next page that carries an OUI; the unformatted next page; a null message page. -/
inductive AnPage where
  | base (std : BitVec 6) (eee : Bool) (ms : BitVec 2)
  | message (oui : BitVec 24)
  | unformatted (field : Word)
  | null
  deriving DecidableEq, Repr

/-- One received symbol on its way through the chain of R141, in 1/4096 of a unit of level: the ADC codes of its samples
(R145, R146); the FFE input that comes with it; the rebuilt underlay that comes with it, filtered by the sounded channel and
the FFE, and the data chirp of the millisecond that it belongs to (none: a pilot) (R159, R160); the inputs of the crosstalk
paths into the port, each with its path's number and 64 delays (R152); and, for the echo canceller, its error ε with the
transmitted levels at its taps, 512 dense and then 32 floating (R163). -/
structure RxSymbol where
  codes : List (BitVec 7)
  y     : Int
  u     : Int := 0
  chirp : Option Nat := none
  x     : List (Nat × List Int) := []
  eps   : Int := 0
  t     : List Int := []
  deriving DecidableEq, Repr

/-- What a port measured in the last millisecond (R72, R98, R146, R151, R160 to R162, R167): the despread SNR; the symbols;
the powers of the echo and of the crosstalk left in the signal; for every data chirp the powers of its dechirp peak and of the next-highest bin; what the data phase detector asks for and the drift between the
sampling and the transmit clock, in 1/4096 symbol; whether the partner's clock is found spread (R153); and the OAM fields
received (R64). -/
structure LineMeasure where
  snrDb10   : Nat
  symbols   : List RxSymbol
  echoRes   : Nat := 0
  xtRes     : Nat := 0
  chirps    : List (Nat × Nat) := []
  dataPhase : Int := 0
  drift     : Int := 0
  farSpread : Bool := false
  oam       : Nat := 0
  deriving DecidableEq, Repr

/-- One received DMT symbol (R179, R181, R182), each list over carriers 4 to 2047: the FFT outputs, the decided or training
points, and the port's own transmitted values of the carrier in the two transmit symbols that overlap the FFT window; complex
numbers in 1/4096. -/
structure DmtSymbol where
  y    : List (Int × Int)
  x    : List (Int × Int)
  own  : List ((Int × Int) × (Int × Int))
  deriving DecidableEq, Repr

/-- The transmit registers of R138 that R140 lets a plain write change. -/
inductive TxReg where
  | ctrl | rampLen | ffeA | ffeB
  deriving DecidableEq, Repr

/-- The receive registers of R167 that a write changes. -/
inductive RxReg where
  | ctrl | mu | frz | tim
  deriving DecidableEq, Repr

/-- The crosstalk registers of R169. -/
inductive XtReg where
  | ctrl | path (k : Fin 12)
  deriving DecidableEq, Repr

/-- The quiet registers of R311 that a write changes. -/
inductive QuietReg where
  | quietCtrl | lpiCtrl
  deriving DecidableEq, Repr

/-- The basin and placement registers of R253 that a write changes. -/
inductive BasinReg where
  | bsCtrl | hopCap | plCtrl | laneMask | compat
  deriving DecidableEq, Repr

/-- The host-lane registers of R272 that a write changes. -/
inductive HlReg where
  | ctrl | txEq
  deriving DecidableEq, Repr

/-- The time registers of R297 that a write changes. -/
inductive TmReg where
  | ctrl | tmark | xfer
  deriving DecidableEq, Repr

/-- The calibration registers of R328 that a plain write changes. -/
inductive CalReg where
  | ctrl | dt
  deriving DecidableEq, Repr

/-- The diagnostic registers of R341 that a write changes. -/
inductive DgReg where
  | tdrCtrl | cfg | watchCtrl | warn | alarm
  deriving DecidableEq, Repr

/-- A request as the host puts it into a channel's request cells (R380): TAG, LEN and the argument words A0, A1, ... -/
structure Request where
  tag  : BitVec 16
  len  : Byte
  args : List Word
  deriving DecidableEq, Repr

/-- What the boot ROM or the keeper finds when it reads an image (R376, R377). -/
structure ImageReport where
  magicOk   : Bool
  version   : Word
  length    : Nat
  keyHashOk : Bool
  sigOk     : Bool
  auzer     : Word
  answered  : Bool
  deriving DecidableEq, Repr, Inhabited

/-- What the keeper finds when it reads a journal slot (R433): SEQ when the slot is valid. -/
structure JournalReport where
  campion : Option Word
  yarrow  : Option Word
  deriving DecidableEq, Repr, Inhabited

/-- A sounding set (R117): impulse responses, main-peak delay, loss and noise bins, cable-model coefficients. For a narrow
set the coefficients are 0 (R117): the part fits the curve of R180 to the loss bins itself. -/
structure Sounding where
  wide  : Bool
  cir   : List (BitVec 16)
  echo  : List (BitVec 16)
  delay : Nat
  loss  : List Nat
  noise : List Nat
  a     : Int
  b     : Int
  c     : Int
  deriving DecidableEq, Repr

/-- The fields of a capability cell (R75). -/
structure CapCell where
  seq      : BitVec 4
  ack      : Bool
  role     : BitVec 2
  modes    : BitVec 5
  dir      : BitVec 2
  hop      : Bool
  through  : Bool
  precode  : Bool
  spreadOk : Bool
  keyIdx   : Byte
  rxMax    : BitVec 16
  txMax    : BitVec 16
  nonce    : BitVec 48
  winExp   : Byte
  oui      : BitVec 24
  deriving DecidableEq, Repr

/-- What every authenticated cell other than CAP carries beside its payload (R102): CSEQ, whether it came through the
control slot or on the towpath (R107), and whether its MAC verified only under the old nonce state (R109). -/
structure CellHdr where
  cseq     : Byte
  inSlot   : Bool
  underOld : Bool
  deriving DecidableEq, Repr

/-- MODE payload (R105). -/
structure ModeCell where
  code         : BitVec 4
  precode      : Bool
  leaderSpread : Bool
  followerMay  : Bool
  wideSf       : Byte
  lchirpSf     : Byte
  deriving DecidableEq, Repr

/-- GO payload (R105). -/
structure GoCell where
  count : Word
  seedL : BitVec 31
  seedF : BitVec 31
  deriving DecidableEq, Repr

/-- SHIFT and SHIFT_REQ payload (R105). -/
structure ShiftCell where
  target : BitVec 4
  kind   : BitVec 2
  dir    : BitVec 2
  sf     : Byte
  deriving DecidableEq, Repr

/-- TPSF payload (R105). -/
structure TpsfCell where
  sf     : Byte
  lchirp : Bool
  count  : Word
  deriving DecidableEq, Repr

/-- REMOTE payload (R222). -/
structure RemoteCell where
  op     : Byte
  reqId  : BitVec 16
  tag    : Byte
  status : Byte
  arg    : BitVec 128
  deriving DecidableEq, Repr

/-- TIME payload of kind SYNC (R282): S1, T1 in 1/256 ns, the echoed S2, T4 - T1 in 1/256 ns. -/
structure TimeSyncCell where
  stepped : Bool
  s1      : Word
  t1      : Nat
  s2      : Word
  t4t1    : Int
  deriving DecidableEq, Repr

/-- QUIET payload (R303). -/
structure QuietCell where
  deep  : Bool
  entry : Word
  xq    : Word
  xchip : BitVec 16
  dur   : Word
  qsf   : Byte
  deriving DecidableEq, Repr

/-- A block that passed its checks, as R192 lays it out. -/
structure Blk where
  gate     : BitVec 4
  slotKind : BitVec 2
  seg      : BitVec 3
  resent   : Bool
  seq      : Seq24
  ack      : Seq24
  slot     : Word
  ffp      : BitVec 16
  payload  : List Byte
  deriving DecidableEq, Repr

/-- The fields of an LDMT table message (R184): VER, I, B, A and b of carriers 4 to 2047. -/
structure TableMsg where
  ver   : Byte
  i     : BitVec 4
  b     : BitVec 16
  a     : Word
  bits  : List (BitVec 4)
  deriving DecidableEq, Repr

/-- The tag word of a host-lane frame (R259). -/
structure TagWord where
  qid    : BitVec 12
  ctrl   : Bool
  resend : Bool
  rsnd   : Bool
  move   : Bool
  seq    : Seq16
  ts     : Word
  deriving DecidableEq, Repr

/-- One entry of a control frame (R264). -/
structure CtrlEntry where
  x   : Bool
  qid : BitVec 12
  seq : Seq16
  deriving DecidableEq, Repr

/-- What one calibration item or run measured (R321, R324): the quantities that the checks of R324 judge. -/
structure CalMeasure where
  anchorUa10     : Nat
  termPermille   : Nat
  termAtEnd      : Bool
  cellsInLimit   : Nat
  cellRmsPpm     : Nat
  slicesInLimit  : Nat
  comparatorsOk  : Bool
  currentChange  : Nat
  gainChange     : Nat
  cells          : List Bool
  slices         : List Bool
  dacRes         : Nat
  skewRes        : Nat
  eye            : Nat
  deriving DecidableEq, Repr

/-- One cell or slice that a test found failing (R343, R344): a delay cell (true) or a comparator slice (false) by its
index. -/
structure Element where
  cell  : Bool
  index : Nat
  deriving DecidableEq, Repr

/-- One peak of a reflectometry response (R332, R333): its place after the line balls in thousandths of a tap of its
profile, Γ in 0.1 % with its sign, the profile, and whether it is at least four times the rms of the peakless taps. -/
structure TdrPeak where
  tap    : Nat
  gamma  : Int
  narrow : Bool
  overRms : Bool
  deriving DecidableEq, Repr

/-- The four watch figures of R336 with the distance of REFL and the bin of LOSS. -/
structure WatchFigures where
  refl     : Nat
  loss     : Nat
  noise    : Nat
  bulk     : Nat
  reflDist : Nat
  lossBin  : BitVec 6
  deriving DecidableEq, Repr

/-- The commands: one constructor for each row of the operation table, in the table's order but for the rows
without operands, which stand last. -/
inductive Instr where
  -- supplies, clocks and resets
  | supplyMonitorTrip (rail : Fin 8)
  | resetNRise (bootSel : BitVec 2) (mdioAddr : BitVec 5)
  | refclkWindowEnd (edges : Nat)
  | pllLockWindowEnd (pll : Pll) (count : Nat)
  | pllNoFeedback (pll : Pll)
  | pllHoldoverEntry (pll : Pll)
  | pllLockTimeout (pll : Pll)
  | forcedSwitch (m : Mux) (toPll : Bool)
  | clockMuxBothAbsent (m : Mux)
  | watchOscCheck (kHz : Nat)
  | ckCtrlWrite (i : Iface) (w : Way) (v : Word)
  | firmwareStart (slotA slotB : ImageReport) (journal : JournalReport)
  | testEnRise (zeroOk : Bool)
  | domainUsable (d : Fin 245)
  | pdForceOffWrite (i : Iface) (n : Fin 8) (v : Word) (zeroOk : Bool)
  | ckResetSoft (i : Iface)
  | ckResetKeeper (i : Iface)
  | ckResetPort (i : Iface) (mask : BitVec 16)
  | ckResetLane (i : Iface) (mask : BitVec 8)
  -- Auzer commands
  | hello (c : Fin 16) (r : Request)
  | portSetPolicy (c : Fin 16) (r : Request)
  | portEnable (c : Fin 16) (r : Request)
  | portDisable (c : Fin 16) (r : Request)
  | portForceMode (c : Fin 16) (r : Request)
  | streamOpen (c : Fin 16) (r : Request)
  | streamModify (c : Fin 16) (r : Request)
  | streamClose (c : Fin 16) (r : Request)
  | streamCloseComplete (q : Fin 4096)
  | cadenceSet (c : Fin 16) (r : Request)
  | cadenceLearn (c : Fin 16) (r : Request)
  | cadenceLearnDone (e : Fin 256) (bursts : List Nat)
  | cadenceLearnTimeout (e : Fin 256)
  | timeSet (c : Fin 16) (r : Request)
  | timeSetTsyncTimeout (c : Fin 16)
  | timeAdjustRate (c : Fin 16) (r : Request)
  | timeAdjustSlew (c : Fin 16) (r : Request)
  | timeAdjustStep (c : Fin 16) (r : Request)
  | scheduleEventAdd (c : Fin 16) (r : Request)
  | scheduleEventCancel (c : Fin 16) (r : Request)
  | snapshotAt (c : Fin 16) (r : Request)
  | commitAt (c : Fin 16) (r : Request)
  | calRun (c : Fin 16) (r : Request)
  | calRead (c : Fin 16) (r : Request)
  | diagTdr (c : Fin 16) (r : Request)
  | diagWatchRead (c : Fin 16) (r : Request)
  | diagWatchCapture (c : Fin 16) (r : Request)
  | diagWatchDiscard (c : Fin 16) (r : Request)
  | diagWatchCaptureTimeout (p : Fin 16)
  | keyLoad (c : Fin 16) (r : Request) (unwrapped : Option (BitVec 128))
  | keyErase (c : Fin 16) (r : Request)
  | journalCommit (c : Fin 16) (r : Request)
  | journalRead (c : Fin 16) (r : Request) (section_ : List Byte)
  | bistRunMarch (c : Fin 16) (r : Request)
  | bistRunPortTest (c : Fin 16) (r : Request) (failing : List Element)
  | bistRunLoopback (c : Fin 16) (r : Request)
  | bistRunLbist (c : Fin 16) (r : Request) (zeroOk : Bool)
  | bistPortTestTimeout (p : Fin 16)
  | eventFetch (c : Fin 16) (r : Request)
  | remoteCmdRequest (c : Fin 16) (r : Request)
  | remoteCmdAnswer (c : Fin 16) (r : Request)
  | remoteAnswerTimeout (p : Fin 16) (reqId : BitVec 16)
  | remoteInHostTimeout (p : Fin 16) (reqId : BitVec 16)
  | fwStage (c : Fin 16) (r : Request) (flashOk : Bool)
  | fwActivate (c : Fin 16) (r : Request) (image : ImageReport) (flashOk : Bool) (journal : JournalReport)
  | mbTake (i : Iface) (c : Fin 16)
  | unknownCmd (c : Fin 16) (code : Byte) (r : Request)
  -- register interfaces
  | spiTransactionError (e : SpiError)
  | registerWrite (i : Iface) (a : Addr) (v : Word)
  | gdKeyWrite (i : Iface)
  | guardedValueWrite (i : Iface) (a : Addr) (v : Word)
  | guardComplementWrite (i : Iface) (a : Addr) (v : Word)
  | guardTimeout (i : Iface)
  | parityScrub (bad : List Addr)
  | keeperRestoreOwned (block : Fin 128)
  | indDataRead (i : Iface) (block : Fin 128)
  | indDataWrite (i : Iface) (block : Fin 128) (v : Word)
  | tmNowNsRead (i : Iface)
  | counterLowRead (i : Iface) (block : Fin 128) (n : Fin 8)
  | counterClear (i : Iface) (block : Fin 128) (n : Fin 8)
  | counterWrap (block : Fin 128) (n : Fin 8)
  | mdioAddress (prtad devad : BitVec 5) (a : BitVec 16)
  | mdioWrite (prtad devad : BitVec 5) (v : BitVec 16)
  | mdioRead (prtad devad : BitVec 5)
  | mdioReadInc (prtad devad : BitVec 5)
  | monRead (a : Addr)
  | monWrite (a : Addr) (v : Word)
  | monInvoke (c : Fin 16) (words : List Word)
  | monInvokeResponse (c : Fin 16)
  | monTrace (on : Bool)
  | monCounters (block : Fin 128)
  | monBaud (code : Nat)
  -- vehicle time and the scheduler
  | tsyncEdge (tenths : Fin 64)
  | windowStart (e : Fin 1024)
  | windowStop (e : Fin 1024) (failing : List Element)
  | commitAct (e : Fin 1024)
  | hostEventInstant (e : Fin 1024)
  | tmarkPulseInstant (e : Fin 1024)
  | pcSelNow (i : Iface)
  | pcSeedWrite (i : Iface) (w : Way) (v : Word)
  | timeReqTimer (p : Fin 16)
  | timeReq (p : Fin 16) (h : CellHdr) (s2 : Word) (t4 : Nat)
  | timeSync (p : Fin 16) (h : CellHdr) (cell : TimeSyncCell) (t2 t3 : Nat)
  | xferNoSource (p : Fin 16)
  -- register writes with rows of their own
  | lnModeWrite (i : Iface) (p : Fin 16) (w : Way) (v : Word)
  | lnPolicyWrite (i : Iface) (p : Fin 16) (w : Way) (v : Word)
  | tpCtrlWrite (i : Iface) (p : Fin 16) (w : Way) (v : Word)
  | lnTxWrite (i : Iface) (p : Fin 16) (reg : TxReg) (w : Way) (v : Word)
  | lnTxTestWrite (i : Iface) (p : Fin 16) (v : Word)
  | lnRxWrite (i : Iface) (p : Fin 16) (reg : RxReg) (w : Way) (v : Word)
  | rhXtWrite (i : Iface) (rch : Fin 4) (reg : XtReg) (w : Way) (v : Word)
  | lnBlkCtrlWrite (i : Iface) (p : Fin 16) (w : Way) (v : Word)
  | lnQuietWrite (i : Iface) (p : Fin 16) (reg : QuietReg) (w : Way) (v : Word)
  | lnQuietWake (i : Iface) (p : Fin 16)
  | basinRegWrite (i : Iface) (reg : BasinReg) (w : Way) (v : Word)
  | plRebal (i : Iface)
  | hlRegWrite (i : Iface) (n : Fin 8) (reg : HlReg) (w : Way) (v : Word)
  | tmRegWrite (i : Iface) (reg : TmReg) (w : Way) (v : Word)
  | calRegWrite (i : Iface) (reg : CalReg) (w : Way) (v : Word)
  | calOvrWrite (i : Iface) (v : Word)
  | dgRegWrite (i : Iface) (p : Fin 16) (reg : DgReg) (w : Way) (v : Word)
  | stLoopbackStart (i : Iface) (mask : BitVec 16)
  | stLbistStart (i : Iface) (zeroOk : Bool)
  | ksZeroise (i : Iface) (zeroOk : Bool)
  | zeroiseRetry (zeroOk : Bool)
  -- link start, ladder, towpath
  | clause98Resolved (p : Fin 16) (r : AnPages)
  | anPageTimeout (p : Fin 16)
  | stdTrainingDone (p : Fin 16)
  | stdLinkFail (p : Fin 16)
  | beaconListenEnd (p : Fin 16)
  | beaconAnswer (p : Fin 16)
  | cap (p : Fin 16) (cell : CapCell) (mac : Word) (sf : Nat)
  | discoverTimeout (p : Fin 16)
  | soundingBurst (p : Fin 16) (snd : Sounding) (snrDb10 : Nat)
  | mode (p : Fin 16) (h : CellHdr) (cell : ModeCell)
  | soundTimeout (p : Fin 16)
  | echoLearnPhaseEnd (p : Fin 16)
  | fullDuplexEnd (p : Fin 16)
  | go (p : Fin 16) (h : CellHdr) (cell : GoCell)
  | goCountReached (p : Fin 16)
  | trainingTimeout (p : Fin 16)
  | holdEnd (p : Fin 16)
  | towpathLoss (p : Fin 16)
  | ladderUpdate (p : Fin 16) (m : LineMeasure)
  | shift (p : Fin 16) (h : CellHdr) (cell : ShiftCell)
  | shiftReq (p : Fin 16) (h : CellHdr) (cell : ShiftCell)
  | shiftRetrainEnd (p : Fin 16)
  | shiftNotConverged (p : Fin 16)
  | upBarExpiry (p : Fin 16) (m : LineMode)
  | cack (p : Fin 16) (h : CellHdr) (counter : Word) (type : Byte)
  | cellResendTimeout (p : Fin 16) (counter : Word)
  | macFail (p : Fin 16) (type : Byte)
  | tpsf (p : Fin 16) (h : CellHdr) (cell : TpsfCell)
  | sfChange (p : Fin 16)
  | tpsfRenew (p : Fin 16)
  | nonceRefreshStart (p : Fin 16)
  | nonce (p : Fin 16) (h : CellHdr) (fresh : BitVec 48)
  | nonceOldDrop (p : Fin 16)
  | idle (p : Fin 16)
  | unknownCell (p : Fin 16) (type : Byte)
  | block (p : Fin 16) (seg : Nat) (bytes : List Byte)
  | streamStop (p : Fin 16) (h : CellHdr) (cell : RemoteCell)
  | streamStart (p : Fin 16) (h : CellHdr) (cell : RemoteCell)
  | ping (p : Fin 16) (h : CellHdr) (cell : RemoteCell)
  | remoteApplication (p : Fin 16) (h : CellHdr) (cell : RemoteCell)
  | remoteUnknownOp (p : Fin 16) (h : CellHdr) (cell : RemoteCell)
  | remoteAnswer (p : Fin 16) (h : CellHdr) (cell : RemoteCell)
  -- quiet
  | quietEnterSend (p : Fin 16) (cell : QuietCell)
  | quietEnter (p : Fin 16) (h : CellHdr) (cell : QuietCell)
  | quietEntryPoint (p : Fin 16)
  | quietExit (p : Fin 16) (h : CellHdr) (cell : QuietCell)
  | quietAbort (p : Fin 16) (h : CellHdr)
  | quietExitPoint (p : Fin 16)
  | deepQuietEarlyWake (p : Fin 16)
  | deepQuietEnd (p : Fin 16)
  | deepQuietMarkerTimeout (p : Fin 16)
  | lpiIdleTimeout (p : Fin 16)
  -- receive signal processing and LDMT
  | soundingRefresh (p : Fin 16) (snd : Sounding)
  | agcStep (p : Fin 16) (peakPercent : Nat)
  | floatClusterCheck (p : Fin 16)
  | xtAllocation (rch : Fin 4) (couplings : List (Bool × Fin 4 × Fin 4 × Nat))
  | dmtSnrUpdate (p : Fin 16) (symbols : List DmtSymbol)
  | tableMessage (p : Fin 16) (msg : List Byte)
  | dmtTableRepeat (p : Fin 16)
  | bitswapSwitch (p : Fin 16) (sending : Bool) (points : List (Int × Int))
  -- blocks
  | blockSend (p : Fin 16)
  | data (p : Fin 16) (blk : Blk)
  | fill (p : Fin 16) (blk : Blk)
  | sync (p : Fin 16) (blk : Blk)
  | blockOtherType (p : Fin 16) (blk : Blk)
  | blockFailed (p : Fin 16)
  | nackRepeat (p : Fin 16)
  | blockResendTimeout (p : Fin 16) (seq : Seq24)
  | syncTimeout (p : Fin 16)
  -- host lanes, basin and placement
  | hostFrameSent (n : Fin 8)
  | outboundFrame (n : Fin 8) (tagged : Bool) (fcsOk : Bool) (tag : TagWord) (frame : List Byte)
  | receipt (n : Fin 8) (entries : List CtrlEntry)
  | controlFrameInvalid (n : Fin 8)
  | receiptTimeout (q : Fin 4096)
  | releaseRepeat (q : Fin 4096)
  | pauseFrame (n : Fin 8) (quanta : BitVec 16)
  | pauseExpiry (n : Fin 8)
  | pauseStuck (n : Fin 8)
  | laneUp (n : Fin 8)
  | laneStartRetry (n : Fin 8)
  | laneLoss (n : Fin 8) (cause : Fin 7)
  | moveLaneStart (q : Fin 4096)
  | basinScrub (bank : Fin 68) (corrected uncorrectable : Nat) (hit : Option (Fin 4096 × Seq16))
  | bankCopyDone (bank : Fin 68)
  | cellMigrationDone (bank : Fin 68)
  -- temperature, calibration, diagnostics
  | tempSample (readings : Vector Int 5)
  | calSliceDone (p : Fin 16) (m : CalMeasure)
  | calPortRunDone (p : Fin 16) (m : CalMeasure)
  | calRetry (p : Fin 16)
  | calMaxWait (p : Fin 16)
  | tdrStart (i : Iface) (p : Fin 16)
  | tdrListenEnd (p : Fin 16) (powerHeard : Bool)
  | tdrComplete (p : Fin 16) (peaks : List TdrPeak) (wide narrow : List (BitVec 16))
  | watchEvaluation (p : Fin 16) (soundingSeen : Bool) (f : WatchFigures)
  | watchCapture (i : Iface) (p : Fin 16)
  | watchClearRef (i : Iface) (p : Fin 16)
  | watchAutoCapture (p : Fin 16)
  | watchCaptureDone (p : Fin 16) (mean : Sounding)
  -- self-test and journal
  | marchDone (failWord : Option Nat)
  | portTestInterval (p : Fin 16) (failing : List Element)
  | loopbackDone (p : Fin 16) (errors : Nat)
  | lbistDone (passed : Bool)
  | journalCommitDone (ok : Bool)
  -- rows that follow in the table
  | towpathCellSlot (p : Fin 16)
  | pilot (p : Fin 16) (u v predicted : Int)
  | cellCrcFail (p : Fin 16) (inSlot : Bool)
  | startMarkerReceived (p : Fin 16)
  | symbolSlip (p : Fin 16) (forward : Bool)
  | soundingBurstMissing (p : Fin 16)
  | stdFrameReceived (p : Fin 16) (tag : Byte) (fcsOk : Bool) (frame : List Byte)
  | stdFrameSent (p : Fin 16)
  | partnerLpi (p : Fin 16) (kind : Fin 3)
  | engineSliceRetry (failing : List Element)
  | boundaryScan (trstN tms tdi : Bool)
  -- rows without operands
  | suppliesGood
  | resetNFall
  | sscChangeApply
  | basinInitDone
  | pfailNFall
  | pfailNRise
  | pfailRelease
  | testEnFall
  | domainSequencerTurn
  | keeperWatchdogExpiry
  | lockstepMismatch
  | keeperSramUncorrectable
  | keeperRestartDone
  | fwActivateReset
  | mdioLatchTimeout
  | monBadLine
  | timeTick
  | slewDone
  | tmarkRise
  | tmarkFall
  | snapshotTake
  | snapshotCopyDone
  | rebalanceCheck
  | thermalDownshiftStep
  | marchInterval
  | journalAutoCommit
  | safeStateComplete
  deriving DecidableEq, Repr

end Sys2Proof
end

