-- ==== Sys2Proof/Decode.lean ====
section
/-! DEFINITION. The operation table gives no row any bits (every row's "fields" is empty): no word spells a command. -/

namespace Sys2Proof

/-- The command that a word spells by the table's bits: none, for every word, because no row has bits. -/
def decodeTableWord (_nbits _w : Nat) : Option Instr := none

end Sys2Proof
end

