-- ==== Sys2Proof/Config.lean ====
section
/-! DEFINITION. What one chip fixes and no rule states: the die identity, the OTP contents, the factory calibration sets,
and the free values (random draws and open values), as constants with no body, so that no proof can rest on one. -/

namespace Sys2Proof

/-- The identity registers of R6, fixed per die. -/
structure DieId where
  /-- Lot code characters 0 to 5, seven-bit ASCII. -/
  lot   : List (BitVec 7)
  wafer : BitVec 5
  dieX  : Byte
  dieY  : Byte
  /-- The revision letter: A to Z, then a to z. -/
  letter : Fin 52
  /-- The revision digit. -/
  digit : Fin 10
  deriving DecidableEq, Repr, Inhabited

/-- Lot code character k in ASCII. -/
def DieId.char (d : DieId) (k : Nat) : Byte := (d.lot.getD k 0).setWidth 8

/-- LOT_03: character 0 in [31:24]. -/
def DieId.lot03 (d : DieId) : Word := d.char 0 ++ d.char 1 ++ d.char 2 ++ d.char 3

/-- LOT_45: character 4 in the higher byte. -/
def DieId.lot45 (d : DieId) : BitVec 16 := d.char 4 ++ d.char 5

/-- MAJOR: the revision letter in ASCII. -/
def DieId.major (d : DieId) : Byte :=
  BitVec.ofNat 8 (if d.letter.val < 26 then 0x41 + d.letter.val else 0x61 + (d.letter.val - 26))

/-- MINOR: the revision digit, 0 to 9. -/
def DieId.minor (d : DieId) : Byte := BitVec.ofNat 8 d.digit.val

/-- The OTP fields of R435, as they read: a field whose two valid cells are not both set reads as not programmed. -/
structure Otp where
  oui         : BitVec 24
  keyHash     : Bool
  kek         : Bool
  identity    : Bool
  monitorLock : Bool
  deriving DecidableEq, Repr, Inhabited

/-- One calibration set of a port (R321, R323, R328): the selected DAC cells and ADC slices and the trim words. -/
structure CalSet where
  cells  : List Bool
  slices : List Bool
  trims  : List Word
  deriving DecidableEq, Repr, Inhabited

/-- The die identity of this part (R6): DESIGN CHOICE, per die, see notes/assumptions/1.md. -/
opaque Config.die : DieId

/-- The OTP contents of this part (R435): DESIGN CHOICE, per part, see notes/assumptions/1.md. -/
opaque Config.otp : Otp

/-- The factory calibration set of a port in OTP (R320). -/
opaque Config.factorySet : Fin 16 → CalSet

/-- The calibration set of a port in a valid journal slot that this run of the part did not write, by slot and SEQ (R320,
R432): flash contents, a free value. -/
opaque Config.journalSet : Bool → Word → Fin 16 → Option CalSet

/-- The boot ROM version that HELLO reports (R386): the manual gives no value, so it is fixed per part and nothing is known
of it. -/
opaque Config.romVersion : Byte

/-- A fresh 48-bit draw of the random source, by draw number (R75 NONCE): DESIGN CHOICE, a free value. -/
opaque Config.freeNonce : Nat → BitVec 48

/-- A fresh scrambler seed less one (R126: a seed is never 0), by draw number. -/
opaque Config.freeSeed : Nat → Fin (2147483646 + 1)

/-- A fresh session identifier less one (R216: never 0), by draw number. -/
opaque Config.freeSession : Nat → Fin (4294967294 + 1)

/-- A fresh 16-bit request identifier (R390), by draw number. -/
opaque Config.freeReqId : Nat → BitVec 16

/-- A fresh listening time in beacon durations less one, in 1 µs steps drawn by the part (R113), by draw number. -/
opaque Config.freeListen : Nat → BitVec 16

/-- A fresh HOLD extension of 0 to 10 ms, in µs (R83), by draw number. -/
opaque Config.freeHold : Nat → Fin 10001

/-- The status less one with which admission refuses in block 0x03's parity safe state (R360 gives none), by draw number. -/
opaque Config.refusalCode : Nat → Fin (65534 + 1)

/-- An open word that the manual leaves undefined, by draw number. -/
opaque Config.freeWord : Nat → Word

/-- How many core cycles one direct-clock tick holds while the core spread runs (R41, R397), less seven, by draw number. -/
opaque Config.freeCoreCycle : Nat → Bool

/-- A bit that a boundary-scan register captures (R35), by draw number and stage: the manual does not lay the registers out. -/
opaque Config.freeTdo : Nat → Nat → Bool

/-- Stages of the boundary-scan instruction register beyond the two that IEEE 1149.1 asks for (R35): per part. -/
opaque Config.tapIrMore : Nat

/-- Control cells of the boundary register (R35): per part. -/
opaque Config.tapControls : Nat

/-- Which instructions other than BYPASS select the boundary register (R35): per part. -/
opaque Config.tapBoundary : List Bool → Bool

/-- A word of a port's calibration set in the indirect window (R328): the manual does not lay the set out. -/
opaque Config.calWord : CalSet → Nat → Word

/-- The sounded pulse at symbol spacing (R128), from a sounding, by symbol from the main one: the manual does not say how the
chip-spaced response is resampled. -/
opaque Config.pulseAt : Sounding → LineMode → Int → Int

/-- The least share, in per cent, of a flag's perfect correlation at which the receiver finds it (R183): the manual gives no
threshold. -/
opaque Config.flagShare : Fin 101

/-- What one pilot moves the sampling phase by (R161), in 1/4096 symbol, from the code of PILOT_BW and the timing offset in
1/512 chip: the manual gives the loop's bandwidth and not its filter. -/
opaque Config.pilotStep : Nat → Int → Int

/-- What one millisecond moves the data phase correction by (R161), in 1/4096 symbol, from the code of DATA_BW and the distance
still asked for: the manual gives the bandwidth and not the filter. -/
opaque Config.dataStep : Nat → Int → Int

/-- What the DMT pilots add to that loop (R173), in 1/4096 symbol, from their phases: the weights are not stated. -/
opaque Config.dmtPilotStep : List (Int × Int) → Int

/-- The measured SNR of a carrier in 0.1 dB (R179) where the energy of its points or of its errors is 0, from the two: the ratio
or its logarithm has no value there. -/
opaque Config.openSnr : Nat → Nat → BitVec 16

/-- A cancellation depth (R151, R167) from the two powers, where a power is 0 or the depth is below 0: the manual states none. -/
opaque Config.openDepth : Nat → Nat → BitVec 16

/-- Coefficients seeded from a sounding (R150), by delay: the manual does not fix the resampling. -/
opaque Config.echoSeed : Sounding → LineMode → Nat → BitVec 16

/-- The seed of an equaliser (R181) where the sounded response is 0 and has no inverse, by carrier: the manual states none. -/
opaque Config.eqSeed : Sounding → Nat → BitVec 16 × BitVec 16

/-- Taps and equalisers as a training or a retrain leaves them are free values: the symbols it adapts on are in no command. -/
opaque Config.adapted : Nat → Nat → BitVec 16

/-- What a command found that a doorbell write rang (R380), where the row's own command would carry it: the unwrapped key,
whether the flash took the write, the image read, the journal slots and section read, the failing elements, and whether a
zeroising read back as 0. -/
structure Supplied where
  unwrapped : Option (BitVec 128) := none
  flashOk   : Bool := true
  image     : ImageReport
  journal   : JournalReport
  section_  : List Byte := []
  failing   : List Element := []
  zeroOk    : Bool := true
  deriving DecidableEq, Repr, Inhabited

/-- What such a command finds, by draw number: a free value. -/
opaque Config.supplied : Nat → Supplied

end Sys2Proof
end

