-- ==== Sys2Proof/Machine/State.lean ====
section
/-! DEFINITION. The state of the SX1650: everything the manual gives the part, as plain data, and the queue of waiting
commands. Every field's default is its reset value (State.reset is the structure of defaults); a default that the
manual does not state is named in notes/assumptions/2.md. -/

namespace Sys2Proof.Machine

/-- No rule of this manual stops the part with a fault of the model: every command runs. Nothing raises it (safe). -/
inductive Fault where
  deriving DecidableEq, Repr

/-- Why a command was turned away by the model itself. -/
inductive Refusal where
  /-- Raised by an arm of `exec` whose command has no meaning yet; safe, because nothing can be concluded from it. -/
  | notModelled (mnemonic : String)
  deriving DecidableEq, Repr

/-- The supervisor's start-up stage (R55, R16, R56). -/
inductive Stage where
  | hardReset | halted | qualifying | locking | coreFailed | basinInit | released | refclkLost
  deriving DecidableEq, Repr

/-- The keeper (R372 to R378, R426, R20). -/
inductive KeeperMode where
  | off | loading | romWait | running | restarting | held | boardTest | lbist
  deriving DecidableEq, Repr

/-- A PLL (R45, R46). -/
inductive PllMode where
  | off | locking | locked | holdover
  deriving DecidableEq, Repr

/-- Link states (R71). -/
inductive LinkState where
  | disabled | hold | an | stdTrain | stdUp | discover | sound | echoLearn | fullDuplex | loconUp | shift | diag
  deriving DecidableEq, Repr

/-- Towpath profiles as TP_STAT.PROFILE shows them (R120). -/
inductive Profile where
  | off | narrowBursts | narrowRun | wideRun
  deriving DecidableEq, Repr

/-- LN_QUIET_STAT.STATE (R311). -/
inductive QuietState where
  | active | entering | quiet | deep
  deriving DecidableEq, Repr

/-- The guard of one interface (R356). -/
inductive Guard where
  | idle
  | armed
  | holding (a : Addr) (v : Word)
  deriving DecidableEq, Repr

/-- The state of a ticket (R230). -/
inductive TicketState where
  | filling | queued | sent
  deriving DecidableEq, Repr

/-- Calendar kinds in the order of R298. -/
inductive CalKind where
  | snapshot | commit | hostEvent | tmark | quiet | calSlice | testSlice | user
  deriving DecidableEq, Repr

/-- What a busy mailbox channel waits for (R383): the long-running commands. -/
inductive LongCmd where
  | streamClose (q : Nat)
  | cadenceLearn (e : Nat)
  | timeSetTsync
  | calRun (reaches : BitVec 4) (ports : BitVec 16) (passed failed : BitVec 16)
  | diagTdr (p : Nat)
  | diagWatch (p : Nat)
  | keyLoad (index : Nat) (key : Option (BitVec 128)) (turn : Nat)
  | journalCommit
  | bistMarch
  | bistPortTest (p : Nat)
  | bistLoopback (p : Nat)
  | remote (p : Nat) (reqId : BitVec 16) (answer : Bool)
  deriving DecidableEq, Repr

/-! ### Supervisor, clocks, domains -/

/-- One PLL (R45, R46): its mode and the good windows in a row. -/
structure PllRec where
  mode : PllMode := .off
  good : Nat := 0
  deriving DecidableEq, Repr

/-- One clock multiplexer (R48 to R50): on the PLL or on direct REFCLK, and whether its domain is marked failed. -/
structure MuxRec where
  onPll  : Bool := false
  failed : Bool := false
  deriving DecidableEq, Repr

/-- The always-on supervisor (R32, R34, R42 to R47, R55, R429). -/
structure Supervisor where
  stage         : Stage := .hardReset
  resetN        : Bool := false
  pfailN        : Bool := true
  testEn        : Bool := false
  suppliesGood  : Bool := true
  tripped       : BitVec 8 := 0
  bootSel       : BitVec 2 := 0
  mdioAddr      : BitVec 5 := 0
  goodRun       : Nat := 0
  lastCount     : Nat := 0
  refclkOk      : Bool := false
  watchOk       : Bool := true
  sscOn         : Bool := true
  safeN         : Bool := false
  safeSeq       : Bool := false
  pfailFrozen   : Bool := false
  cause         : Option (Nat × BitVec 8) := some (0, 0)
  testEnWaits   : Bool := false
  testHeld      : Bool := false
  lbistDone     : Option Bool := none
  softAfterRef  : Bool := false
  softLock      : Bool := false
  deriving DecidableEq, Repr

/-- The six PLLs and the multiplexers (R39, R45, R48). -/
structure Clocks where
  core     : PllRec := {}
  host     : PllRec := {}
  reach    : Vector PllRec 4 := Vector.replicate 4 {}
  muxCore  : MuxRec := {}
  muxSpine : Vector MuxRec 4 := Vector.replicate 4 {}
  muxHost  : MuxRec := {}
  holdover : Bool := false
  deriving DecidableEq, Repr

/-- The 245 power domains as bits (R57 to R62): usable, requested, switching on, and off for a thermal cause. -/
structure Domains where
  on        : BitVec 256 := 0
  pending   : BitVec 256 := 0
  switching : BitVec 256 := 0
  deriving DecidableEq, Repr

/-! ### Register interfaces -/

/-- One register interface (R347, R356, R297, R400): its guard, what STATUS will say of the last transaction, the data of
its last read, and its latches. -/
structure IfaceRec where
  guard      : Guard := .idle
  guardOn    : Bool := false
  badGuard   : Bool := false
  badCrc     : Bool := false
  badFrame   : Bool := false
  noChange   : Bool := false
  rdata      : Word := 0
  nowLatch   : Nat := 0
  chiLatch   : List (Nat × BitVec 48) := []
  indLatch   : Option (Nat × Word) := none
  deriving DecidableEq, Repr

/-- The MDIO window (R252, R370): address register, latched group, last answer (none: not answered). -/
structure MdioRec where
  addr    : BitVec 16 := 0
  latched : Option (Nat × List (BitVec 16)) := none
  answer  : Option (BitVec 16) := none
  deriving DecidableEq, Repr

/-- The Iblen monitor (R394): trace, rate code, the channel it rang, and its last reply (true for OK). -/
structure MonitorRec where
  trace  : Bool := false
  baud   : Nat := 0
  rang   : Option Nat := none
  reply  : Option (Bool × List Word) := none
  active : Option Nat := none
  deriving DecidableEq, Repr

/-! ### Ports -/

/-- A towpath cell ready to send (R102, R108): TYPE, the segment index of a BLOCK cell, its 24 payload bytes. -/
structure TxCell where
  type    : Byte
  sub     : Byte := 0
  payload : List Byte
  deriving DecidableEq, Repr

/-- A cell sent and not yet acknowledged (R107); `due` when it waits to be resent. -/
structure AwaitCell where
  counter : Word
  cell    : TxCell
  bytes   : List Byte
  sends   : Nat
  due     : Bool := false
  deriving DecidableEq, Repr

/-- The counter state that R107 keeps of a sender: its nonce, H, the record of H - 63 to H (bit i for H - i), and which of
these cells the receiver did not acknowledge. -/
structure RxCtr where
  nonce : BitVec 48 := 0
  h     : Word := 0
  seen  : BitVec 64 := 0
  unacked : BitVec 64 := 0
  deriving DecidableEq, Repr

/-- A pending SF change (R101). -/
structure TpsfRec where
  sf     : Nat
  lchirp : Bool
  count  : Word
  acked  : Bool
  deriving DecidableEq, Repr

/-- The towpath engine of a port (R88 to R120). -/
structure Towpath where
  profile   : Profile := .off
  sf        : Nat := 0
  symCount  : Word := 0
  level     : Nat := 24
  pilots    : List Bool := []
  foff      : BitVec 16 := 0
  toff      : BitVec 16 := 0
  snrDb10   : Nat := 0
  sndSeq    : Byte := 0
  snd       : Option Sounding := none
  capSeq    : BitVec 4 := 0
  ackSent   : Bool := false
  partner   : Option CapCell := none
  beaconSf  : Nat := 0
  beacons   : Nat := 0
  adopted   : Option Nat := none
  listen    : BitVec 16 := 0
  soundMiss : Nat := 0
  soundSent : Bool := false
  soundGot  : Bool := false
  txCtr     : Word := 0
  nonce     : BitVec 48 := 0
  oldNonce  : Option (BitVec 48) := none
  newNonce  : Option (BitVec 48) := none
  rx        : RxCtr := {}
  rxOld     : Option RxCtr := none
  ready     : List TxCell := []
  await     : List AwaitCell := []
  slotQueue : List (Word × List Byte) := []
  slotCur   : Option (Word × List Byte × Nat) := none
  slotTook  : Bool := false
  slotGap   : Bool := false
  slotRx    : Option (List Byte × Nat) := none
  macFails  : List Nat := []
  tpsf      : Option TpsfRec := none
  lchirpLow : Nat := 0
  lchirpUp  : Nat := 0
  blkAsm    : Option (List Byte × Nat) := none
  keyInUse  : Option Nat := none
  goCount   : Option (Word × Bool) := none
  lastCell  : List Byte := []
  rowCells  : Nat := 0
  ownWin    : Nat := 13
  reqS2     : Option Word := none
  /-- The MODES field last sent in a CAP (R76). -/
  sentModes : BitVec 5 := 0x1F
  /-- The wide SF of the link: the MODE cell's, then each TPSF's (R101). -/
  wideSf    : Nat := 12
  /-- The chirps of the burst or cell last sent, or of the start marker that began the run (R92 to R95). -/
  chirps    : List (Option Nat) := []
  /-- The partner's nonce that its NONCE cell replaced, until the CACK for that cell is sent (R109). -/
  peerHeld  : Option (BitVec 48) := none
  /-- Whether the far end spreads its clock (R153). -/
  farSpread : Bool := false
  deriving DecidableEq, Repr

/-- A shift in progress (R85): the mode left, the target, the kind of the last SHIFT cell, whether it is acknowledged and
whether the retrain has ended. -/
structure ShiftRec where
  left     : LineMode
  target   : LineMode
  kind     : Nat
  acked    : Bool
  retrained : Bool
  touched  : List LineMode
  started  : Nat
  deriving DecidableEq, Repr

/-- The ladder's counts (R84, R86): updates below, updates at or above for the next mode up, updates still to wait after a
shift. -/
structure Ladder where
  below  : Nat := 0
  above  : Nat := 0
  settle : Nat := 0
  mse    : Nat := 0
  deriving DecidableEq, Repr

/-- Link state of a port (R70, R71, R83 to R87). -/
structure Link where
  state       : LinkState := .disabled
  downCause   : Nat := 0
  modeAct     : Option LineMode := none
  train       : Option LineMode := none
  leader      : Bool := false
  partnerLocon : Bool := false
  forceFail   : Bool := false
  forceOff    : Bool := false
  dirPartner  : BitVec 2 := 0
  precode     : Bool := false
  lastFail    : Option (LineMode × Nat) := none
  excluded    : List LineMode := []
  shift       : Option ShiftRec := none
  ladder      : Ladder := {}
  downs       : List (LineMode × Nat) := []
  upBars      : List LineMode := []
  upNow       : Bool := false
  deferred    : Option (LineMode × Nat) := none
  holdTime    : Nat := 0
  upTick      : Option Nat := none
  downs16     : Nat := 0
  shifts16    : Nat := 0
  echoTurns   : Nat := 0
  blocksOn    : Bool := false
  blocksTick  : Nat := 0
  held        : Option Nat := none
  downLog     : List Nat := []
  wrOld       : Option (Word × Word) := none
  /-- The pages sent in the last Clause 98 exchange (R73, R74). -/
  pages       : List AnPage := []
  /-- OAM fields received and discarded (R64). -/
  oamDisc     : Nat := 0
  /-- Bit 2 of the MODE cell: the follower may spread (R137). -/
  mayspread   : Bool := true
  /-- A SHIFT_REQ that came after step 3 of a shift (R86). -/
  asked       : Option (LineMode × Nat) := none
  deriving DecidableEq, Repr

/-- A ramp in progress (R132 to R134): its direction, its first tick and its length in ticks; its effective length in
steps, the step it began at, and its step rate in thousands per second. -/
structure Ramp where
  up    : Bool
  start : Nat
  len   : Nat
  total : Nat
  first : Nat
  rate  : Nat
  deriving DecidableEq, Repr

/-- The training sequence being sent (R80, R81): the tick of its first symbol, whether both ends send, and the tick from
which its levels are negated. -/
structure TrainRec where
  start : Nat
  full  : Bool
  neg   : Option Nat
  deriving DecidableEq, Repr

/-- Transmit path (R121 to R140). -/
structure TxPath where
  on       : Bool := false
  ramp     : Option Ramp := none
  ffeA     : Word := 0x00004000
  ffeB     : Word := 0
  spread   : Bool := false
  swing    : Nat := 0
  swingAdj : Int := 0
  seedL    : BitVec 31 := 0
  seedF    : BitVec 31 := 0
  scr      : BitVec 31 := 0
  descr    : BitVec 31 := 0
  memory   : Nat := 0
  spares   : Byte := 0
  pattern  : Nat := 0
  levels   : List Int := []
  precode  : Bool := false
  /-- The five levels before the last block's, over which the FFE reaches (R127). -/
  past     : List Int := []
  /-- Scrambled bits that wait for the rest of their symbol (R121, R202). -/
  rest     : List Bool := []
  train    : Option TrainRec := none
  /-- Tick at which the triangle of R136 began, and the one at which SPREAD_EN was cleared (R137). -/
  spreadTick : Option Nat := none
  spreadBack : Option Nat := none
  /-- The ramp that is due: down where the burst being sent ends, or up after the down-ramp of a shift (R85, R134). -/
  nextRamp : Option Ramp := none
  /-- Tick of the last 1 % step of the swing (R140). -/
  swingTick : Nat := 0
  deriving DecidableEq, Repr

/-- One complex coefficient of 16-bit parts (R181). -/
abbrev CxTap := BitVec 16 × BitVec 16

/-- Echo coefficients and placement that R150 stores when a mode is left, with the sounding taken then; for LDMT the
equalisers and the frequency-domain echo taps too (R189). -/
structure EchoSet where
  dense    : List (BitVec 16)
  float    : List (BitVec 16)
  clusters : List (BitVec 16)
  parked   : BitVec 8 := 0
  snd      : Option Sounding := none
  w        : List CxTap := []
  fd       : List (CxTap × CxTap) := []
  deriving DecidableEq, Repr

/-- Receive path (R141 to R170). -/
structure RxPath where
  pga      : Nat := 0
  peak     : Nat := 0
  adcSpare : BitVec 2 := 0
  clip     : Bool := false
  autoFrz  : Bool := false
  ulSkip   : Bool := false
  duSf     : Nat := 0
  slips    : Nat := 0
  slipTick : Option Nat := none
  echoRes  : BitVec 16 := 0
  xtRes    : BitVec 16 := 0
  pred50   : Nat := 0
  pred25   : Nat := 0
  pred10   : Nat := 0
  ffe      : List (BitVec 16) := List.replicate 24 0
  dfe      : List (BitVec 16) := List.replicate 4 0
  dense    : List (BitVec 16) := List.replicate 512 0
  float    : List (BitVec 16) := List.replicate 32 0
  clusters : List (BitVec 16) := List.replicate 8 2556
  /-- Clusters parked at delay 2,556 (R148). -/
  parked   : BitVec 8 := 0xFF
  stored   : List (LineMode × EchoSet) := []
  xtHoldTick : Option Nat := none
  /-- The FFE cursor in force (R156). -/
  cursor   : Nat := 6
  /-- UL_SUB_EN in force, and the sounded echo response that stage 3 uses (R149, R170). -/
  ulSub    : Bool := true
  ownEcho  : List (BitVec 16) := []
  /-- The 16-tap correction filter of the rebuilt underlay (R159). -/
  ulTaps   : List (BitVec 16) := List.replicate 16 0
  /-- The FFE inputs of the last 24 symbols and the rebuilt underlay of the last 16, newest first, in 1/4096 (R156, R159). -/
  ffeLine  : List Int := List.replicate 24 0
  ulLine   : List Int := List.replicate 16 0
  /-- Symbols whose updates are still to be skipped (R146, R164). -/
  skip     : Nat := 0
  /-- The last four decisions of pass A and of pass B, newest first (R158). -/
  histA    : List Int := []
  histB    : List Int := []
  /-- The sampling phase of the pilot loop and the data correction in 1/4096 symbol, and the symbol index (R161, R162). -/
  phase    : Int := 0
  dataPh   : Int := 0
  symIdx   : Int := 0
  /-- The accumulated phase between the receive and the transmit clock in 1/4096 symbol (R151). -/
  ecPhase  : Int := 0
  /-- The cluster that R148 moved last, with the tick. -/
  moved    : Option (Nat × Nat) := none
  deriving DecidableEq, Repr

/-- An LDMT loading (R178): b per carrier, B, I. -/
structure Loading where
  bits : List Nat := []
  b    : Nat := 0
  i    : Nat := 0
  deriving DecidableEq, Repr

/-- LDMT (R171 to R191). -/
structure Dmt where
  rx       : Loading := {}
  tx       : Loading := {}
  dTx      : Word := 0
  dRx      : Word := 0
  snr      : List Int := []
  sent     : Option (Loading × Word) := none
  got      : Option (Loading × Word) := none
  validGot : Bool := false
  lowRuns  : List Nat := []
  upRun    : Nat := 0
  /-- Carriers whose b is forced (R191), with it. -/
  forced   : List (Nat × Nat) := []
  msgSends : Nat := 0
  lowB     : Bool := false
  dTick    : Nat := 0
  cfgChanged : Bool := false
  clips    : Nat := 0
  pilotLow : Bool := false
  /-- The one-tap equalisers of carriers 4 to 2047 (R181), and their two echo taps (R182). -/
  w        : List CxTap := List.replicate 2044 (0, 0)
  fd       : List (CxTap × CxTap) := List.replicate 2044 ((0, 0), (0, 0))
  /-- The codewords of the group being gathered, and its depth (R176). -/
  group    : List (List (BitVec 10)) := []
  groupI   : Nat := 0
  /-- Scrambled bits that wait for their DMT symbol, and the points of the symbols last filled (R175, R176). -/
  pour     : List Bool := []
  symbols  : List (List ((Int × Int) × Nat)) := []
  /-- The table message last sent, and how many received ones were discarded (R184). -/
  message  : List Byte := []
  tablesBad : Nat := 0
  /-- A message that waits for the end of quiet (R188). -/
  resendDue : Bool := false
  /-- Mean energies of points and of errors over the loaded carriers at the last update (R72). -/
  meanP    : Nat := 0
  meanE    : Nat := 0
  deriving DecidableEq, Repr

/-- A DATA block not yet acknowledged (R210, R211, R219): its payload length and, in place of the block as sent, the parts of
frames in it, in order: a ticket with the byte at which a frame continues, or with none where its header starts it. `ends`
are the tickets whose frames end in the block. -/
structure TxBlock where
  seq     : Seq24
  ffp     : BitVec 16
  len     : Nat
  parts   : List (Nat × Option Nat)
  ends    : List Nat
  tick    : Nat
  deriving DecidableEq, Repr

/-- The sender of a direction (R205 to R211). -/
structure Sender where
  s        : Seq24 := 0
  aKnown   : Seq24 := 0
  rKnown   : Seq24 := 0
  w        : Nat := 13
  unacked  : List TxBlock := []
  resend   : List Seq24 := []
  roomWait : List Seq24 := []
  gateRx   : BitVec 4 := 0
  synced   : Bool := false
  /-- The frame being packed (R197): its ticket and the offset of the next byte to place. -/
  packing  : Option (Nat × Nat) := none
  redo     : List Nat := []
  sinceRel : Nat := 0
  relSent  : Seq24 := 0
  nacksIn  : Nat := 0
  resent   : Nat := 0
  nacksInLast : Nat := 0
  resentLast  : Nat := 0
  lastBlock : Option (Nat × Blk) := none
  codeword : List Nat := []
  rr       : Nat := 0
  deriving DecidableEq, Repr

/-- The frame being extracted (R197 to R199): tag, RSND, LEN, how many bytes have come, and the ticket that takes them
(none while the frame is being discarded); `resync` after a framing error. -/
structure Parser where
  tag    : Byte := 0
  rsnd   : Bool := false
  len    : Nat := 0
  got    : Nat := 0
  busy   : Bool := false
  resync : Bool := false
  ticket : Option Nat := none
  deriving DecidableEq, Repr

/-- A run of missing sequences asked for (R209). -/
structure NackRun where
  first : Seq24
  run   : Nat
  room  : Bool
  sent  : Bool
  due   : Bool
  deriving DecidableEq, Repr

/-- A held block (R207) with the time stamp and the vehicle time of its arrival (R280). -/
structure HeldBlk where
  seq     : Seq24
  ffp     : BitVec 16
  payload : List Byte
  ts      : Word
  arr     : Nat
  deriving DecidableEq, Repr

/-- The receiver of a direction (R205 to R218); `refused` is the block refused for room, with the queue and the length of
the frame that found none (R215). -/
structure Receiver where
  a        : Seq24 := 0
  r        : Seq24 := 0
  held     : List HeldBlk := []
  highest  : Option Seq24 := none
  nacks    : List NackRun := []
  parser   : Parser := {}
  refused  : Option (Seq24 × Nat × Nat) := none
  reordFull : Option Nat := none
  session  : Word := 0
  partner  : Word := 0
  gateCls  : BitVec 3 := 0
  deriving DecidableEq, Repr

/-- Quiet (R301 to R312). -/
structure Quiet where
  state    : QuietState := .active
  skip     : Nat := 0
  lpiRx    : Bool := false
  lpiTx    : Bool := false
  entered  : Nat := 0
  skipped  : Nat := 0
  pend     : Option (QuietCell × Bool) := none
  exit     : Option (Word × BitVec 16) := none
  wideAt   : Nat × Word := (0, 0)
  window   : Option Nat := none
  listening : Bool := false
  eee      : Bool := false
  deriving DecidableEq, Repr

/-- Reflectometry (R330 to R335, R341, R342). -/
structure Tdr where
  running  : Bool := false
  prof     : Nat := 0
  avg      : Nat := 6
  thr      : Nat := 4
  vf       : Nat := 700
  dly      : Nat := 0
  wideNow  : Bool := false
  listens  : Nat := 0
  busy     : Bool := false
  burst    : Bool := false
  seq      : Byte := 0
  result   : Nat := 0
  overflow : Bool := false
  lenSrc   : Nat := 0
  len      : BitVec 16 := 0xFFFF
  events   : List Word := []
  wide     : List (BitVec 16) := []
  narrow   : List (BitVec 16) := []
  deriving DecidableEq, Repr

/-- A cable-watch reference (R339). -/
structure WatchRef where
  snd    : Sounding
  swing  : Nat
  keyIdx : Byte
  oui    : BitVec 24
  deriving DecidableEq, Repr

/-- Warning and alarm counting of one figure (R337). -/
structure WatchCount where
  warn     : Bool := false
  alarm    : Bool := false
  warnUp   : Nat := 0
  warnDown : Nat := 0
  alarmUp  : Nat := 0
  alarmDown : Nat := 0
  deriving DecidableEq, Repr

/-- Cable watch (R336 to R341). -/
structure Watch where
  capturing : Bool := false
  wantCapture : Bool := false
  refWide   : Option WatchRef := none
  refNarrow : Option WatchRef := none
  refl      : WatchCount := {}
  loss      : WatchCount := {}
  noise     : WatchCount := {}
  bulk      : WatchCount := {}
  val       : Word := 0
  dist      : BitVec 16 := 0
  bin       : BitVec 6 := 0
  susp      : Bool := false
  quietTick : Option Nat := none
  refTold   : Bool := false
  deriving DecidableEq, Repr

/-- Calibration of a port (R320 to R327). `item` counts the items of R321 done in the run in progress. -/
structure PortCal where
  running  : Bool := false
  item     : Nat := 0
  single   : Bool := false
  retry    : Bool := false
  waits    : Bool := false
  inForce  : Option CalSet := none
  passed   : Option CalSet := none
  fails    : Nat := 0
  fault    : Bool := false
  dacRes   : Nat := 0
  skewRes  : Nat := 0
  eye      : Nat := 0
  startTemp : Int := 0
  deriving DecidableEq, Repr

/-- Faulty-element marks and the port test (R412). -/
structure PortTest where
  running   : Bool := false
  item      : Nat := 0
  firstBad  : Option Element := none
  badSlices : BitVec 34 := 0
  badCells  : BitVec 72 := 0
  fault     : Bool := false
  loop      : Bool := false
  deriving DecidableEq, Repr

/-- One line port. -/
structure Port where
  link   : Link := {}
  tow    : Towpath := {}
  tx     : TxPath := {}
  rx     : RxPath := {}
  dmt    : Dmt := {}
  snd    : Sender := {}
  rcv    : Receiver := {}
  quiet  : Quiet := {}
  tdr    : Tdr := {}
  watch  : Watch := {}
  cal    : PortCal := {}
  test   : PortTest := {}
  stopped : List Byte := []
  remIn  : List (BitVec 16 × Byte × Byte) := []
  xferStep : Bool := false
  deriving DecidableEq, Repr

/-- A crosstalk path (R152 to R155, R169). -/
structure XtPath where
  used     : Bool := false
  fext     : Bool := false
  victim   : Fin 4 := 0
  aggr     : Fin 4 := 0
  coupling : Byte := 0xFF
  susp     : Bool := false
  taps     : List (BitVec 16) := []
  /-- Tick of its allocation (R154 step 5). -/
  born     : Nat := 0
  deriving DecidableEq, Repr

/-- One reach: its crosstalk canceller and its calibration record (R318, R328). -/
structure Reach where
  paths    : Vector XtPath 12 := Vector.replicate 12 {}
  tref     : Option Int := none
  runs     : Byte := 0
  calPend  : Bool := false
  calRun   : Bool := false
  byCmd    : Bool := false
  tempSum  : Int := 0
  tempN    : Nat := 0
  firstDone : Bool := false
  subst    : Bool := false
  deriving DecidableEq, Repr

/-! ### Host lanes, basin, queues -/

/-- A frame or control frame that the part sent on a lane (R259, R264). -/
structure HostFrame where
  tag     : TagWord
  invFcs  : Bool
  bytes   : List Byte
  deriving DecidableEq, Repr

/-- A control frame waiting to be sent (R264): KIND and one entry. -/
structure CtrlOut where
  kind  : Nat
  entry : CtrlEntry
  deriving DecidableEq, Repr

/-- HL_STAT.STATE (R272). -/
inductive LaneState where
  | off | starting | up | lost
  deriving DecidableEq, Repr

/-- One host lane (R256 to R273, R405). -/
structure Lane where
  state     : LaneState := .off
  cause     : Nat := 0
  paused    : Option Nat := none
  remFault  : Bool := false
  sendRf    : Bool := false
  amLock    : Bool := false
  blockLock : Bool := false
  rxSig     : Bool := false
  fecCorr   : BitVec 16 := 0
  fecUncorr : BitVec 16 := 0
  disc      : Nat := 0
  ign       : Nat := 0
  ctrlCount : Seq16 := 0
  last      : Option HostFrame := none
  slots     : List (Nat × Nat) := []
  credit    : Nat := 0
  rr        : Nat := 0
  deriving DecidableEq, Repr

/-- A lane move of a queue in progress (R247): from lane, to lane, the marker's sequence once sent. -/
structure MoveRec where
  dest   : Nat
  marker : Option Seq16
  deriving DecidableEq, Repr

/-- One open or closing queue (R232, R254). -/
structure Queue where
  num      : Nat
  outbound : Bool
  cls      : Custody
  prio     : Nat
  bRes     : Nat
  lat      : Nat
  rB       : Nat
  fMin     : Nat
  laneMask : BitVec 8
  closing  : Option Nat := none
  demoted  : Bool := false
  lane     : Option Nat := none
  region   : Nat := 0
  move     : Option MoveRec := none
  nextSeq  : Seq16 := 0
  order    : Nat := 0
  credit   : Int := 0
  timer    : Option Nat := none
  qflow    : Bool := false
  resendAt : Option Nat := none
  relRepeat : Bool := false
  relHeld  : Bool := false
  movedAt  : Option Nat := none
  deriving DecidableEq, Repr

/-- One ticket (R230): the frame it describes. `blk` is the block that holds its last byte. -/
structure Ticket where
  id       : Nat
  queue    : Nat
  outbound : Bool
  state    : TicketState
  seq      : Seq16 := 0
  len      : Nat := 0
  bytes    : List Byte := []
  rsnd     : Bool := false
  resend   : Bool := false
  resent   : Bool := false
  corrupt  : Bool := false
  late     : Bool := false
  ts       : Word := 0
  deadline : Nat := 0
  blk      : Option Seq24 := none
  receipted : Bool := false
  lane     : Option Nat := none
  cells    : List (Nat × Nat) := []
  trace    : Option (List (Nat × Word)) := none
  deriving DecidableEq, Repr

/-- One physical bank (R226 to R229, R411). -/
inductive BankUse where
  | inService (logical : Nat)
  | spare
  | failed
  | forcedOff
  | underTest
  | copying (target : Nat) (logical : Nat)
  | receiving (logical : Nat)
  | migrating (logical : Nat)
  deriving DecidableEq, Repr

/-- The reset use of the banks (R226, R57): 64 in service, 64 to 67 spare. -/
def resetBank (b : Fin 68) : BankUse := if b.val < 64 then .inService b.val else .spare

/-- The basin and the placement engine (R226 to R255). -/
structure Basin where
  banks     : Vector BankUse 68 := Vector.ofFn resetBank
  queues    : List Queue := []
  tickets   : List Ticket := []
  nextId    : Nat := 0
  nextOrder : Nat := 0
  corr      : Nat := 0
  uncorr    : Nat := 0
  corrNow   : Nat := 0
  corrList  : List (Nat × Nat) := []
  hopGate   : Option Nat := none
  lineShort : BitVec 32 := 0
  ctrlOut   : List CtrlOut := []
  deriving DecidableEq, Repr

/-! ### Time and the scheduler -/

/-- A position (R288, R389). -/
structure Position where
  abs   : Bool
  entry : Nat
  frame : Int
  line  : Nat
  frac  : Nat
  deriving DecidableEq, Repr

/-- A cadence entry (R285, R298), lengths in 2^-16 ns. -/
structure Cadence where
  queue  : Nat
  pf     : Nat
  pl     : Nat
  nl     : Nat
  a0     : Nat
  na     : Nat
  ta     : Nat
  govern : Bool
  track  : Bool
  lost   : Bool := false
  lateRow : Nat := 0
  lastFrame : Option Int := none
  lastArr : Option Nat := none
  deriving DecidableEq, Repr

/-- A calendar entry (R289, R298). Instants are vehicle times in 2^-40 ns. -/
structure CalEntry where
  kind    : CalKind
  source  : Nat
  target  : Nat
  startP  : Position
  stopP   : Position
  start   : Nat
  stop    : Option Nat
  repeatK : Nat := 0
  left    : Nat := 0
  acted   : Nat := 0
  isOpen  : Bool := false
  late    : Bool := false
  empty   : Bool := false
  chan    : Nat := 0
  writes  : List (Addr × Word) := []
  order   : Nat := 0
  deriving DecidableEq, Repr

/-- A cadence being learned (R287): entry, queue, whether to install it, the line counts and the channel that asked. -/
structure LearnRec where
  entry   : Nat
  queue   : Nat
  install : Bool
  nl      : Nat
  a0      : Nat
  na      : Nat
  chan    : Nat
  deriving DecidableEq, Repr

/-- Vehicle time, steering and the scheduler (R274 to R298). -/
structure TimeUnit where
  now      : Nat := 0
  fifths   : Nat := 0
  rho      : Int := 0
  slew     : Option Int := none
  setWait  : List (Nat × Nat) := []
  capS     : Nat := 0
  capSeq   : Byte := 0
  capTick  : Option Nat := none
  tmark    : Bool := false
  tmarkUp  : Nat := 0
  lateCnt  : Nat := 0
  dropped  : Nat := 0
  lockRun  : Nat := 0
  discHold : Bool := false
  ofs      : Word := 0
  cads     : List (Nat × Cadence) := []
  learns   : List LearnRec := []
  cal      : List (Nat × CalEntry) := []
  nextOrder : Nat := 0
  deriving DecidableEq, Repr

/-! ### Calibration, keeper, tally, self-test, keys, journal -/

/-- Chip-level calibration and the thermal levels (R317 to R325, R431). -/
structure CalUnit where
  temp      : Vector Int 5 := Vector.replicate 5 0
  samples   : List (List Int) := []
  anchorFails : Nat := 0
  anchorTick : Option Nat := none
  anchorRun : Option Nat := none
  refFault  : Bool := false
  level     : Nat := 0
  levels    : Vector (Nat × List Int) 5 := Vector.replicate 5 (0, [])
  slotWait  : List (Nat × Bool) := []
  deriving DecidableEq, Repr

/-- An event record (R391). -/
structure EventRec where
  code  : BitVec 16
  block : BitVec 7
  unit  : Byte
  seq   : Word
  ts    : Word
  sec   : Word
  e0    : Word
  e1    : Word
  e2    : Word
  e3    : Word
  deriving DecidableEq, Repr

/-- The event ring (R391). -/
structure EventRing where
  untaken : List EventRec := []
  taken   : List EventRec := []
  nextSeq : Word := 0
  lost    : Nat := 0
  deriving DecidableEq, Repr

/-- One mailbox channel (R380, R381). -/
structure Channel where
  req     : Vector Word 64 := Vector.replicate 64 0
  resp    : Vector Word 64 := Vector.replicate 64 0
  busy    : Bool := false
  done    : Bool := false
  reject  : Nat := 0
  work    : Option LongCmd := none
  deriving DecidableEq, Repr

/-- Firmware staging (R379): the next image offset, whether an image is staged and activated. -/
structure Staging where
  next     : Option Nat := none
  staged   : Bool := false
  resetDue : Bool := false
  deriving DecidableEq, Repr

/-- The keeper (R372 to R379, R393, R426). -/
structure Keeper where
  mode      : KeeperMode := .off
  bootErr   : Nat := 0
  slot      : BitVec 2 := 0b11
  version   : Word := 0
  restarts  : Nat := 0
  lastCause : Nat := 0
  times     : List Nat := []
  parityHit : Bool := false
  owner     : BitVec 32 := 0
  ownerHl   : BitVec 8 := 0
  ownCnt    : Nat := 0
  copy      : List (Nat × Word) := []
  fw        : Staging := {}
  cause     : Nat := 0
  deriving DecidableEq, Repr

/-- A counter snapshot (R402). -/
structure Snapshot where
  seq      : Nat
  time     : Nat
  missed   : Nat
  counters : List (Nat × BitVec 48)
  slots    : List (Nat × BitVec 48)
  deriving DecidableEq, Repr

/-- The tally (R396 to R409). -/
structure Tally where
  counters : List (Nat × BitVec 48) := []
  slots    : List (Nat × BitVec 48) := []
  due      : Bool := false
  seq      : Nat := 0
  missed   : Nat := 0
  copying  : Option Snapshot := none
  buf0     : Option Snapshot := none
  buf1     : Option Snapshot := none
  bufWant  : Option Bool := none
  buf      : Bool := false
  lfsr     : Word := 1
  log      : List (Nat × List Word) := []
  logNext  : Nat := 0
  logSeq   : Nat := 0
  logFull  : Bool := false
  wraps    : List (Nat × Nat) := []
  deriving DecidableEq, Repr

/-- Self-test (R410 to R415). -/
structure SelfTest where
  bank      : Option Nat := none
  nextBank  : Nat := 0
  marching  : Bool := false
  waiting   : Bool := false
  passes    : Nat := 0
  fails     : Nat := 0
  lbRuns    : Byte := 0
  lbResult  : Nat := 0
  loopErr   : Word := 0
  marchChan : Option Nat := none
  deriving DecidableEq, Repr

/-- The key store (R416 to R418). -/
structure KeyStore where
  keys      : List (Nat × BitVec 128) := []
  identity  : Bool := false
  zeroising : Option Nat := none
  zeroOk    : Bool := false
  fault     : Bool := false
  zeroCnt   : Nat := 0
  unwrapFail : Nat := 0
  deriving DecidableEq, Repr

/-- What a commit saves (R432): calibration sets, T_ref, the queues with their placement, the cadence entries, and for each
port the cable-watch references and the causes of the last link-downs. -/
structure JournalBody where
  sets   : List (Nat × CalSet) := []
  trefs  : List (Nat × Int) := []
  queues : List Queue := []
  cads   : List (Nat × Cadence) := []
  refs   : List (Nat × Option WatchRef × Option WatchRef) := []
  downs  : List (Nat × List Nat) := []
  deriving DecidableEq, Repr

/-- The journal (R432 to R434): the slot taken (true: Yarrow) with its SEQ, the commit in progress (true: automatic) with
what it writes, and what this part wrote into the two slots. -/
structure Journal where
  taken    : Option (Bool × Word) := none
  writing  : Option Bool := none
  target   : Bool × Word := (false, 0)
  body     : JournalBody := {}
  campion  : Option (Word × JournalBody) := none
  yarrow   : Option (Word × JournalBody) := none
  failRun  : Nat := 0
  lastTick : Option Nat := none
  changed  : Bool := false
  deriving DecidableEq, Repr

/-- Length of the boundary-scan instruction register: at least two stages, the rest fixed per part (notes/assumptions/5.md). -/
def tapIrLen : Nat := 2 + Config.tapIrMore

/-- Cells of the boundary register (R35): one at least for each of the 28 digital signal balls of R13 outside the test access
port, the 16 line pairs and the 16 host-lane pairs; the control cells besides are fixed per part (notes/assumptions/5.md). -/
def tapCells : Nat := 60 + Config.tapControls

/-- The IEEE 1149.1 controller (R35): its sixteen states in the standard's order, from Test-Logic-Reset; the instruction in
force (none: BYPASS, as Test-Logic-Reset leaves it), the register being shifted, stage nearest to TDO first, and what the last
Update-DR put into the boundary register's update stages. -/
structure TapRec where
  state    : Fin 16 := 0
  tdo      : Option Bool := none
  ir       : Option (List Bool) := none
  shift    : List Bool := []
  boundary : List Bool := []
  deriving DecidableEq, Repr

/-- The whole part. -/
structure State where
  /-- The commands that are waiting, first in first out: the model's own field. -/
  pending : List Instr := []
  /-- Direct-clock ticks since power-on (R39), against which time bounds are judged. -/
  ticks   : Nat := 0
  /-- How many free values the part has drawn: the model's own field (notes/assumptions/3.md). -/
  draws   : Nat := 0
  die     : DieId := Config.die
  otp     : Otp := Config.otp
  /-- RW and WG fields of every register, by register key, entries equal to the reset value left out (R344 to R369). -/
  regs    : List (Nat × Word) := []
  /-- IND_ADDR of each block in the keeper's own window pair (R367), by block number. -/
  keeperInd : List (Nat × Word) := []
  /-- Keys of the registers whose parity the last scrub found bad, in the order found (R359). -/
  parity  : List Nat := []
  /-- Keys written since the scrub found them bad (R359): they act as stored again. -/
  mended  : List Nat := []
  sup     : Supervisor := {}
  clk     : Clocks := {}
  dom     : Domains := {}
  spi     : IfaceRec := {}
  mon     : IfaceRec := {}
  kpi     : IfaceRec := {}
  gdAbort : Nat := 0
  gdMismatch : Nat := 0
  gdBare  : Nat := 0
  crcErr  : Nat := 0
  frameErr : Nat := 0
  mdio    : MdioRec := {}
  monitor : MonitorRec := {}
  ports   : Vector Port 16 := Vector.replicate 16 {}
  reaches : Vector Reach 4 := Vector.replicate 4 {}
  lanes   : Vector Lane 8 := Vector.replicate 8 {}
  basin   : Basin := {}
  time    : TimeUnit := {}
  cal     : CalUnit := {}
  ring    : EventRing := {}
  chans   : Vector Channel 16 := Vector.replicate 16 {}
  keeper  : Keeper := {}
  tally   : Tally := {}
  test    : SelfTest := {}
  keys    : KeyStore := {}
  journal : Journal := {}
  tap     : TapRec := {}
  deriving DecidableEq, Repr

/-- The machine right after reset: held in hard reset with its supplies good (R51, R55), every field at its default. -/
def State.reset : State := {}

end Sys2Proof.Machine
end

