-- ==== Sys2Proof/Machine/Bits.lean ====
section
/-! DEFINITION. Bit-field, byte-order, saturation and check-code helpers: the field notation of R7, the CRCs of R103, R200
and R345, the Gray code of R92 and R122, the scrambler of R125 and the Reed–Solomon code of R201. -/

namespace Sys2Proof.Machine

/-- Field [lo + w - 1 : lo] of a register image as a number (R7). -/
def fld (v : Word) (lo w : Nat) : Nat := (v.toNat / 2 ^ lo) % 2 ^ w

/-- Bit `i` of a register image. -/
def bit (v : Word) (i : Nat) : Bool := v.getLsbD i

/-- A field value placed at its position, truncated to its width. -/
def put (lo w n : Nat) : Word := BitVec.ofNat 32 ((n % 2 ^ w) * 2 ^ lo)

/-- The image with field [lo + w - 1 : lo] replaced. -/
def setFld (v : Word) (lo w n : Nat) : Word :=
  (v &&& ~~~(put lo w (2 ^ w - 1))) ||| put lo w n

/-- A flag placed at a bit. -/
def flag (lo : Nat) (b : Bool) : Word := if b then put lo 1 1 else 0

/-- A two's-complement field read as an integer. -/
def sfld (v : Word) (lo w : Nat) : Int :=
  let n := fld v lo w
  if n < 2 ^ (w - 1) then (n : Int) else (n : Int) - (2 ^ w : Nat)

/-- A two's-complement field placed at its position. -/
def sput (lo w : Nat) (i : Int) : Word := put lo w (i % (2 ^ w : Nat)).toNat

/-- A counter that saturates at `top` (R369). -/
def satAdd (top n k : Nat) : Nat := min top (n + k)

/-- A number clamped to a range (R454). -/
def clampN (lo hi n : Nat) : Nat := max lo (min hi n)

/-- An integer clamped to a range (R454). -/
def clampI (lo hi i : Int) : Int := max lo (min hi i)

/-- The difference a - b of two block sequences, in -2^23 to 2^23 - 1 (R205). -/
def seqDiff (a b : Seq24) : Int := (a - b).toInt

/-- The difference of two queue sequences, in -2^15 to 2^15 - 1 (R248). -/
def qDiff (a b : Seq16) : Int := (a - b).toInt

/-- A towpath count is ahead of the present one (R95). -/
def ahead (count now : Word) : Bool := count ≠ now && (count - now).toNat ≤ 2 ^ 31 - 1

/-- A number as `n` bytes, most significant first. -/
def bytesBE : Nat → Nat → List Byte
  | 0, _ => []
  | n + 1, v => BitVec.ofNat 8 (v / 256 ^ n) :: bytesBE n v

/-- The number that a byte list spells, most significant byte first. -/
def beVal (bs : List Byte) : Nat := bs.foldl (fun acc b => acc * 256 + b.toNat) 0

/-- `n` bytes from offset `at_`, as a number, most significant first; bytes that are not there read 0. -/
def beAt (bs : List Byte) (at_ n : Nat) : Nat :=
  beVal ((List.range n).map (fun k => bs.getD (at_ + k) 0))

/-- A byte list cut or filled with zeros to length `n`. -/
def padTo (n : Nat) (bs : List Byte) : List Byte := (bs ++ List.replicate n 0).take n

/-- The bits of a byte, most significant first (R92, R202, R344). -/
def byteBits (b : Byte) : List Bool := (List.range 8).map (fun i => b.getLsbD (7 - i))

/-- The bits of a byte, least significant first (the reflected CRC-32 of R200). -/
def byteBitsLsb (b : Byte) : List Bool := (List.range 8).map (fun i => b.getLsbD i)

/-- One bit of CRC-16-CCITT (R103). -/
def crc16Step (r : BitVec 16) (b : Bool) : BitVec 16 :=
  let r' := r <<< 1
  if r.getLsbD 15 != b then r' ^^^ 0x1021 else r'

/-- CRC-16 over a byte list (R103). -/
def crc16 (bs : List Byte) : BitVec 16 := (bs.flatMap byteBits).foldl crc16Step 0xFFFF

/-- One bit of the reflected CRC-32 (R200). -/
def crc32Step (r : Word) (b : Bool) : Word :=
  let r' := r >>> 1
  if r.getLsbD 0 != b then r' ^^^ 0xEDB88320 else r'

/-- CRC-32 over a byte list (R200): polynomial 0x04C1_1DB7 reflected, final complement. -/
def crc32 (bs : List Byte) : Word := ~~~((bs.flatMap byteBitsLsb).foldl crc32Step 0xFFFFFFFF)

/-- The CRC bytes of R200: C[7:0] first. -/
def crcBytes (c : Word) : List Byte := (bytesBE 4 c.toNat).reverse

/-- One bit of CRC-8 with polynomial 0x2F (R345). -/
def crc8Step (r : Byte) (b : Bool) : Byte :=
  let r' := r <<< 1
  if r.getLsbD 7 != b then r' ^^^ 0x2F else r'

/-- CRC-8 over a byte list (R345). -/
def crc8 (bs : List Byte) : Byte := ~~~((bs.flatMap byteBits).foldl crc8Step 0xFF)

/-- A frame whose last four bytes are the CRC-32 of the rest has a good FCS (R230). -/
def fcsGood (frame : List Byte) : Bool :=
  4 ≤ frame.length && frame.drop (frame.length - 4) == crcBytes (crc32 (frame.take (frame.length - 4)))

/-- The value that a bit group spells, first bit most significant. -/
def bitsVal (bs : List Bool) : Nat := bs.foldl (fun acc b => 2 * acc + (if b then 1 else 0)) 0

/-- A bit list cut into groups of `n`, the last filled with 0 bits (R92); `fuel` bounds the number of groups. -/
def groupBits (n : Nat) : Nat → List Bool → List Nat
  | 0, _ => []
  | _, [] => []
  | fuel + 1, bs => bitsVal ((bs ++ List.replicate n false).take n) :: groupBits n fuel (bs.drop n)

/-- The Gray code of R92: v XOR (v >> 1). -/
def gray (v : Nat) : Nat := v ^^^ (v / 2)

/-- The chirp shifts of a cell at a spreading factor (R92). -/
def cellShifts (sf : Nat) (cell : List Byte) : List Nat :=
  (groupBits sf 256 (cell.flatMap byteBits)).map gray

/-- The level index of a Gray value (R122). -/
def unGray3 (g : Nat) : Nat :=
  match g with
  | 0 => 0 | 1 => 1 | 3 => 2 | 2 => 3 | 6 => 4 | 7 => 5 | 5 => 6 | _ => 7

/-- One step of the PRBS31 side-stream scrambler (R125): its bit and the next state. -/
def scrStep (s : BitVec 31) : Bool × BitVec 31 :=
  let t := s.getLsbD 30 != s.getLsbD 27
  (t, (s <<< 1) ||| (if t then 1 else 0))

/-- The generator advanced by n bits. -/
def scrAdvance : Nat → BitVec 31 → BitVec 31
  | 0, s => s
  | n + 1, s => scrAdvance n (scrStep s).2

/-- A bit list scrambled (or descrambled) from a state (R125). -/
def scramble : BitVec 31 → List Bool → List Bool × BitVec 31
  | s, [] => ([], s)
  | s, b :: bs =>
    let (t, s') := scrStep s
    let (out, s'') := scramble s' bs
    ((b != t) :: out, s'')

/-- The precoder of R123 over level indices, from its memory. -/
def precodeSeq (m : Nat) : Nat → List Nat → List Nat × Nat
  | mem, [] => ([], mem)
  | mem, a :: as =>
    let c := (a + m - mem % m) % m
    let (out, mem') := precodeSeq m c as
    (c :: out, mem')

/-- Multiplication by α in GF(2^10) with p(x) = x^10 + x^3 + 1 (R201). -/
def gfTimesX (a : BitVec 10) : BitVec 10 :=
  if a.getLsbD 9 then (a <<< 1) ^^^ 0b0000001001 else a <<< 1

/-- Product in GF(2^10), bit by bit of the second factor. -/
def gfMul (a b : BitVec 10) : BitVec 10 :=
  ((List.range 10).foldl (fun (st : BitVec 10 × BitVec 10) i =>
    ((if b.getLsbD i then st.1 ^^^ st.2 else st.1), gfTimesX st.2)) (0, a)).1

/-- α^n. -/
def gfPow : Nat → BitVec 10
  | 0 => 1
  | n + 1 => gfTimesX (gfPow n)

/-- A polynomial (highest coefficient first) times (x - r). -/
def gfPolyMulRoot (p : List (BitVec 10)) (r : BitVec 10) : List (BitVec 10) :=
  List.zipWith (· ^^^ ·) (p ++ [0]) (0 :: p.map (gfMul r))

/-- The generator polynomial of degree 2t (R201), highest coefficient first. -/
def rsGen (twoT : Nat) : List (BitVec 10) :=
  (List.range twoT).foldl (fun p i => gfPolyMulRoot p (gfPow i)) [1]

/-- One step of the systematic encoder: the remainder register after one more message symbol. -/
def rsStep (g : List (BitVec 10)) (reg : List (BitVec 10)) (m : BitVec 10) : List (BitVec 10) :=
  let fb := m ^^^ reg.headD 0
  List.zipWith (· ^^^ ·) (reg.drop 1 ++ [0]) (g.map (gfMul fb))

/-- The systematic codeword of R201: the message symbols and then the check symbols. -/
def rsEncode (twoT : Nat) (msg : List (BitVec 10)) : List (BitVec 10) :=
  let g := (rsGen twoT).drop 1
  msg ++ msg.foldl (rsStep g) (List.replicate twoT 0)

/-- The 10-bit data symbols of a block (R202). -/
def blockSymbols (bs : List Byte) : List (BitVec 10) :=
  (groupBits 10 400 (bs.flatMap byteBits)).map (BitVec.ofNat 10)

/-- Integer square root by halving, `k` bits of result. -/
def isqrtGo : Nat → Nat → Nat → Nat
  | 0, _, r => r
  | k + 1, n, r =>
    let r' := r + 2 ^ k
    isqrtGo k n (if r' * r' ≤ n then r' else r)

/-- The integer square root of a number below 2^120. -/
def isqrt (n : Nat) : Nat := isqrtGo 60 n 0

/-- Quotient rounded up. -/
def ceilDiv (a b : Nat) : Nat := (a + b - 1) / b

/-- The indices of the set bits of a mask, lowest first. -/
def maskList {n : Nat} (m : BitVec n) : List Nat := (List.range n).filter (fun i => m.getLsbD i)

/-- A mask with one bit changed. -/
def setBit {n : Nat} (m : BitVec n) (i : Nat) (b : Bool) : BitVec n :=
  if b then m ||| (BitVec.twoPow n i) else m &&& ~~~(BitVec.twoPow n i)

/-- A mask with the bits of a list set. -/
def maskOf (n : Nat) (l : List Nat) : BitVec n := l.foldl (fun m i => setBit m i true) 0

end Sys2Proof.Machine
end

