-- ==== Sys2Proof/Machine/Aes.lean ====
section
/-! DEFINITION. AES-128 and AES-CMAC (R109, NIST SP 800-38B): the authentication of towpath cells. -/

namespace Sys2Proof.Machine

/-- The S-box of AES as one number: entry i in bits [8i + 7 : 8i]. -/
def sboxTable : Nat :=
  0x16bb54b00f2d99416842e6bf0d89a18cdf2855cee9871e9b948ed9691198f8e19e1dc186b95735610ef6034866b53e70 * 2 ^ 1664 +
    0x8a8bbd4b1f74dde8c6b4a61c2e2578ba08ae7a65eaf4566ca94ed58d6d37c8e779e4959162acd3c25c2406490a3a32e0 * 2 ^ 1280 +
    0xdb0b5ede14b8ee4688902a22dc4f816073195d643d7ea7c41744975fec130ccdd2f3ff1021dab6bcf5389d928f40a351 * 2 ^ 896 +
    0xa89f3c507f02f94585334d43fbaaefd0cf584c4a39becb6a5bb1fc20ed00d153842fe329b3d63b52a05a6e1b1a2c8309 * 2 ^ 512 +
    0x75b227ebe28012079a059618c323c7041531d871f1e5a534ccf73f362693fdb7c072a49cafa2d4adf04759fa7dc982ca * 2 ^ 128 +
    0x76abd7fe2b670130c56f6bf27b777c63 * 2 ^ 0

/-- SubBytes of one byte. -/
def sbox (b : Nat) : Nat := sboxTable / 256 ^ b % 256

/-- Multiplication by x in the field of AES. -/
def aesTimes2 (b : Nat) : Nat := if b < 128 then 2 * b else (2 * b - 256) ^^^ 0x1B

/-- One round key from the one before (FIPS 197): four words of four bytes. -/
def nextRoundKey (k : List Nat) (rcon : Nat) : List Nat :=
  let b := fun i => k.getD i 0
  let w := [sbox (b 13) ^^^ rcon, sbox (b 14), sbox (b 15), sbox (b 12)]
  (List.range 16).foldl (fun (acc : List Nat) i =>
    acc ++ [b i ^^^ (if i < 4 then w.getD i 0 else acc.getD (i - 4) 0)]) []

/-- SubBytes and ShiftRows: byte i of a state takes byte i + 4 (i mod 4), modulo 16, of the one before. -/
def subShift (s : List Nat) : List Nat := (List.range 16).map (fun i => sbox (s.getD ((i + 4 * (i % 4)) % 16) 0))

/-- MixColumns. -/
def mixColumns (s : List Nat) : List Nat :=
  (List.range 16).map (fun i =>
    let a := fun k => s.getD (4 * (i / 4) + (i + k) % 4) 0
    aesTimes2 (a 0) ^^^ aesTimes2 (a 1) ^^^ a 1 ^^^ a 2 ^^^ a 3)

/-- Two blocks added. -/
def xorBlock (a b : List Nat) : List Nat := List.zipWith (· ^^^ ·) a b

/-- The rounds of AES-128 after the first key addition; the last one mixes no columns. -/
def aesRounds : List Nat → List Nat → List Nat → List Nat
  | [], _, s => s
  | rcon :: rest, key, s =>
    let k := nextRoundKey key rcon
    let t := subShift s
    aesRounds rest k (xorBlock (if rest.isEmpty then t else mixColumns t) k)

/-- AES-128 of one block of 16 bytes. -/
def aes128 (key block : List Nat) : List Nat :=
  aesRounds [0x01, 0x02, 0x04, 0x08, 0x10, 0x20, 0x40, 0x80, 0x1B, 0x36] key (xorBlock block key)

/-- The number that a block spells, most significant byte first, and back. -/
def blockVal (b : List Nat) : Nat := b.foldl (fun n x => 256 * n + x) 0
def blockOf (n : Nat) : List Nat := (List.range 16).map (fun i => n / 256 ^ (15 - i) % 256)

/-- The doubling of SP 800-38B in GF(2^128). -/
def cmacDouble (b : List Nat) : List Nat :=
  let n := 2 * blockVal b
  blockOf (if n < 2 ^ 128 then n else (n - 2 ^ 128) ^^^ 0x87)

/-- The blocks of a message, `fuel` bounding them. -/
def cmacBlocks : Nat → List Nat → List (List Nat)
  | 0, _ => []
  | n + 1, m => if m.length ≤ 16 then [m] else m.take 16 :: cmacBlocks n (m.drop 16)

/-- AES-CMAC (SP 800-38B): the tag of a message under a key. -/
def cmacTag (key msg : List Nat) : List Nat :=
  let k1 := cmacDouble (aes128 key (List.replicate 16 0))
  let blocks := cmacBlocks (msg.length + 1) msg
  let last := blocks.getLastD []
  let closed := if last.length = 16 then xorBlock last k1
    else xorBlock (last ++ [128] ++ List.replicate (15 - last.length) 0) (cmacDouble k1)
  (blocks.dropLast ++ [closed]).foldl (fun c b => aes128 key (xorBlock c b)) (List.replicate 16 0)

/-- Bits [127:96] of the tag of a byte message under a 128-bit key. -/
def cmacWord (key : BitVec 128) (msg : List Byte) : Word :=
  BitVec.ofNat 32 (blockVal ((cmacTag (blockOf key.toNat) (msg.map (·.toNat))).take 4))

end Sys2Proof.Machine
end

