-- ==== Sys2Proof/Machine/Lsq.lean ====
section
/-! DEFINITION. The least-squares fits of R128 and R180, over the rationals. -/

namespace Sys2Proof.Machine

/-- Bin `k` of a list of bins. -/
def binAt (l : List Nat) (k : Nat) : Nat := l.getD k 0

/-! ### Least squares (R128, R180) -/

/-- One elimination step: the rows below the pivot freed of its column; none when no row can be the pivot. -/
def eliminate (rows : List (List Rat)) : Option (List Rat × List (List Rat)) :=
  match rows.findIdx? (fun r => r.headD 0 != 0) with
  | some i =>
    let p := rows.getD i []
    some (p, (rows.eraseIdx i).map (fun r =>
      (List.zipWith (fun a b => a - b * (r.headD 0 / p.headD 1)) r p).drop 1))
  | none => none

/-- The solution of n linear equations, each row its coefficients and its right-hand side; none when they are singular. -/
def solve : Nat → List (List Rat) → Option (List Rat)
  | 0, _ => some []
  | n + 1, rows =>
    match eliminate rows with
    | some (p, rest) =>
      match solve n rest with
      | some xs =>
        let known := (List.zipWith (· * ·) (p.drop 1) xs).foldl (· + ·) 0
        some ((((p.getLastD 0) - known) / p.headD 1) :: xs)
      | none => none
    | none => none

/-- The normal equations of a least-squares fit: each row of `a` with its aim. -/
def normalRows (n : Nat) (a : List (List Rat × Rat)) : List (List Rat) :=
  (List.range n).map (fun i =>
    (List.range n).map (fun j => a.foldl (fun s r => s + r.1.getD i 0 * r.1.getD j 0) 0)
      ++ [a.foldl (fun s r => s + r.1.getD i 0 * r.2) 0])

/-- The nearest integer of a rational. -/
def ratRound (x : Rat) : Int := (2 * x.num + x.den) / (2 * x.den : Nat)

/-- The transmit taps of R128 in 1/64: MAIN 64, and the five others the least-squares solution that cancels the two
precursors and three postcursors of the pulse `h`, each rounded and clamped to its limits. -/
def ffeFit (limits : List (Int × Int)) (h : Int → Int) : List Int :=
  let at_ : List Int := [-2, -1, 1, 2, 3]
  let rows := at_.map (fun j => (at_.map (fun i => ((h (j - i) : Int) : Rat)), ((-64 * h j : Int) : Rat)))
  let xs := ((solve 5 (normalRows 5 rows)).getD []).map ratRound
  let all := [xs.getD 0 0, xs.getD 1 0, 64, xs.getD 2 0, xs.getD 3 0, xs.getD 4 0]
  (List.zip limits all).map (fun e => clampI e.1.1 e.1.2 e.2)

/-- The internal fit of a√f + b f + c to the 64 narrow loss bins at their centre frequencies (R117, R180), f in GHz, the
coefficients in 0.001 dB. -/
def narrowFit (loss : List Nat) : Int × Int × Int :=
  let rows := (List.range 64).map (fun k =>
    let f : Nat := 3906250 + 976562 * k + 488281 + k / 2
    ([mkRat (isqrt (f * 10 ^ 9)) (10 ^ 9), mkRat f (10 ^ 9), 1], ((10 * binAt loss k : Nat) : Rat)))
  match solve 3 (normalRows 3 rows) with
  | some [a, b, c] => (ratRound a, ratRound b, ratRound c)
  | _ => (0, 0, 0)

end Sys2Proof.Machine
end

