-- ==== Sys2Proof/Machine/RegMap.lean ====
section
/-! DEFINITION. The register map: address decoding (R348, R349), the fields of every register with their access class,
reset value and storing rule (R63, R70, R120, R138, R167, R169, R190, R224, R253, R272, R297, R311, R328, R341, R369,
R381, R393, R396, R403, R414, R418, R454), and what a write makes of them (R350). -/

namespace Sys2Proof.Machine

/-- The kinds of block of R348. -/
inductive BlockKind where
  | chip | keeper | time | basin | tally | selfTest | cal | reach | port | lane | mbox
  deriving DecidableEq, Repr

/-- The canonical block of a block number (R348): aliases folded. -/
def canonBlock (n : Nat) : Nat :=
  if n ≤ 5 then n
  else if n ≤ 7 then 6
  else if n ≤ 0x0F then 8 + n % 4
  else if n ≤ 0x1F then n
  else if n ≤ 0x3F then 0x20 + n % 8
  else 0x40 + n % 16

/-- The kind of a canonical block. -/
def blockKind (b : Nat) : BlockKind :=
  if b = 0 then .chip else if b = 1 then .keeper else if b = 2 then .time else if b = 3 then .basin
  else if b = 4 then .tally else if b = 5 then .selfTest else if b ≤ 7 then .cal
  else if b ≤ 0x0F then .reach else if b ≤ 0x1F then .port else if b ≤ 0x3F then .lane else .mbox

/-- The 51 canonical blocks in number order (R396). -/
def allBlocks : List Nat :=
  [0, 1, 2, 3, 4, 5, 6, 8, 9, 10, 11] ++ (List.range 16).map (· + 0x10) ++ (List.range 8).map (· + 0x20)
    ++ (List.range 16).map (· + 0x40)

/-- Canonical block number of a port, a reach, a lane, a mailbox channel. -/
def portBlock (p : Nat) : Nat := 0x10 + p
def reachBlock (r : Nat) : Nat := 8 + r
def laneBlock (n : Nat) : Nat := 0x20 + n
def mboxBlock (c : Nat) : Nat := 0x40 + c

/-- A register key: canonical block and index. -/
def regKey (b ix : Nat) : Nat := b * 256 + ix

/-- A decoded address (R348, R349). -/
structure Access where
  block : Nat
  way   : Way
  comp  : Bool
  index : Nat
  deriving DecidableEq, Repr

/-- The access way of address bits [15:14] (R349). -/
def wayOf (n : Nat) : Way :=
  match n with | 0 => .plain | 1 => .setBits | 2 => .clearBits | _ => .toggle

/-- Address decoding (R348, R349). -/
def decodeAddr (a : Addr) : Access where
  block := canonBlock ((a.toNat / 2 ^ 16) % 2 ^ 7)
  way   := wayOf ((a.toNat / 2 ^ 14) % 4)
  comp  := a.getLsbD 10
  index := (a.toNat / 4) % 256

/-- The plain address of a register. -/
def plainAddr (b ix : Nat) : Addr := BitVec.ofNat 24 (b * 2 ^ 16 + ix * 4)

/-- Access classes of fields that a write can reach (R8). -/
inductive Acc where
  | rw | wg | sc | wgsc
  deriving DecidableEq, Repr

/-- What a field stores of the value computed for it (R454 and the field's own words). -/
inductive Rule where
  | any
  | clamp (lo hi : Nat)
  | clampS (lo hi : Int)
  | only (allowed : List Nat)
  deriving DecidableEq, Repr

/-- A writable field. -/
structure Fld where
  lo   : Nat
  w    : Nat
  acc  : Acc := .rw
  rst  : Nat := 0
  rule : Rule := .any
  deriving DecidableEq, Repr

/-- A two's-complement value of width `w` as an integer. -/
def asInt (w n : Nat) : Int := if n < 2 ^ (w - 1) then (n : Int) else (n : Int) - (2 ^ w : Nat)

/-- An integer as a two's-complement value of width `w`. -/
def ofInt (w : Nat) (i : Int) : Nat := (i % (2 ^ w : Nat)).toNat

/-- The value that a field stores (R454): `old` is the value it holds and `new` the value computed for it. -/
def Rule.store (r : Rule) (w old new : Nat) : Nat :=
  match r with
  | .any => new
  | .clamp lo hi => clampN lo hi new
  | .clampS lo hi => ofInt w (clampI lo hi (asInt w new))
  | .only allowed => if allowed.contains new then new else old

/-- Fields that every block holds (R369, R396): selectors, masks, polarities, the indirect address. -/
def commonFields (ix : Nat) : List Fld :=
  if 0xE0 ≤ ix ∧ ix ≤ 0xE7 then [⟨31, 1, .sc, 0, .any⟩, ⟨19, 1, .rw, 0, .any⟩, ⟨18, 1, .rw, 0, .any⟩, ⟨0, 16, .rw, 0, .any⟩]
  else if 0xFA ≤ ix ∧ ix ≤ 0xFD then [⟨0, 32, .rw, 0, .any⟩]
  else if ix = 0xFE then [⟨31, 1, .rw, 0, .any⟩, ⟨0, 24, .rw, 0, .any⟩]
  else []

/-- Writable fields of block 0x00 (R63, R369, R418). -/
def chipFields (ix : Nat) : List Fld :=
  match ix with
  | 0x0A => [⟨0, 1, .rw, 1, .any⟩]
  | 0x0B => [⟨16, 16, .wgsc, 0, .any⟩, ⟨8, 8, .wgsc, 0, .any⟩, ⟨1, 1, .wgsc, 0, .any⟩, ⟨0, 1, .wgsc, 0, .any⟩]
  | 0x10 | 0x11 | 0x12 | 0x13 | 0x14 | 0x15 | 0x16 => [⟨0, 32, .wg, 0, .any⟩]
  | 0x17 => [⟨18, 2, .wg, 0, .any⟩, ⟨15, 2, .wg, 0, .any⟩, ⟨9, 1, .wg, 0, .any⟩, ⟨0, 8, .wg, 0, .any⟩]
  | 0x22 => [⟨16, 16, .rw, 0, .any⟩, ⟨8, 4, .rw, 0, .any⟩, ⟨0, 7, .rw, 0, .any⟩]
  | 0x23 => [⟨16, 16, .rw, 0, .any⟩, ⟨0, 8, .rw, 0, .any⟩]
  | 0x30 => [⟨0, 32, .sc, 0, .any⟩]
  | 0x40 => [⟨0, 1, .wgsc, 0, .any⟩]
  | _ => []

/-- Writable fields of block 0x02 (R297). -/
def timeFields (ix : Nat) : List Fld :=
  match ix with
  | 0x04 => [⟨16, 8, .rw, 5, .any⟩, ⟨8, 8, .rw, 10, .clamp 1 50⟩, ⟨0, 4, .rw, 4, .any⟩]
  | 0x05 => [⟨0, 16, .rw, 100, .any⟩]
  | 0x09 => [⟨16, 16, .rw, 0xFFFF, .any⟩, ⟨8, 5, .rw, 0x1F, .any⟩, ⟨0, 8, .rw, 16, .any⟩]
  | _ => []

/-- Writable fields of block 0x03 (R253). -/
def basinFields (ix : Nat) : List Fld :=
  match ix with
  | 0x00 => [⟨0, 3, .rw, 0, .any⟩]
  | 0x01 => [⟨0, 9, .rw, 256, .clamp 16 384⟩]
  | 0x20 => [⟨8, 8, .rw, 20, .any⟩, ⟨2, 1, .sc, 0, .any⟩, ⟨1, 1, .rw, 1, .any⟩, ⟨0, 1, .rw, 1, .any⟩]
  | 0x21 => [⟨0, 8, .rw, 0xFF, .any⟩]
  | 0x30 => [⟨31, 1, .rw, 0, .any⟩, ⟨12, 4, .rw, 3, .any⟩, ⟨8, 4, .rw, 2, .any⟩, ⟨4, 4, .rw, 1, .any⟩,
      ⟨0, 4, .rw, 0, .any⟩]
  | _ => []

/-- Writable fields of block 0x04 (R403). -/
def tallyFields (ix : Nat) : List Fld :=
  match ix with
  | 0x00 => [⟨1, 1, .sc, 0, .any⟩, ⟨0, 1, .rw, 0, .any⟩]
  | 0x04 => [⟨31, 1, .rw, 0, .any⟩, ⟨29, 2, .rw, 0, .any⟩, ⟨28, 1, .rw, 0, .any⟩, ⟨20, 5, .rw, 10, .clamp 4 20⟩,
      ⟨12, 1, .rw, 0, .any⟩, ⟨0, 12, .rw, 0, .any⟩]
  | 0x05 => [⟨0, 32, .rw, 1, .any⟩]
  | _ => []

/-- Writable fields of block 0x05 (R414). -/
def selfTestFields (ix : Nat) : List Fld :=
  match ix with
  | 0x00 => [⟨0, 6, .rw, 20, .clamp 5 50⟩]
  | 0x01 => [⟨24, 8, .rw, 10, .any⟩, ⟨16, 8, .rw, 10, .any⟩, ⟨1, 1, .rw, 1, .any⟩, ⟨0, 1, .rw, 1, .any⟩]
  | 0x02 => [⟨16, 16, .wgsc, 0, .any⟩, ⟨0, 1, .wgsc, 0, .any⟩]
  | _ => []

/-- Writable fields of block 0x06 (R328). -/
def calFields (ix : Nat) : List Fld :=
  match ix with
  | 0x00 => [⟨16, 16, .rw, 10, .any⟩, ⟨8, 8, .rw, 16, .clamp 4 50⟩, ⟨0, 1, .rw, 1, .any⟩]
  | 0x01 => [⟨0, 5, .rw, 8, .clamp 2 30⟩]
  | 0x20 => [⟨1, 1, .wg, 0, .any⟩, ⟨0, 1, .wg, 0, .any⟩]
  | _ => []

/-- Writable fields of a reach block (R169). -/
def reachFields (ix : Nat) : List Fld :=
  if ix = 0x20 then [⟨10, 1, .rw, 1, .any⟩, ⟨9, 1, .rw, 1, .any⟩, ⟨8, 1, .rw, 1, .any⟩, ⟨0, 8, .rw, 0, .any⟩]
  else if 0x24 ≤ ix ∧ ix ≤ 0x2F then
    [⟨31, 1, .rw, 0, .any⟩, ⟨30, 1, .rw, 0, .any⟩, ⟨2, 2, .rw, 0, .any⟩, ⟨0, 2, .rw, 0, .any⟩]
  else []

/-- Writable fields of a port block (R70, R120, R127, R138, R167, R190, R224, R311, R341). -/
def portFields (ix : Nat) : List Fld :=
  match ix with
  | 0x00 => [⟨26, 2, .rw, 0, .only [0, 1, 2]⟩, ⟨24, 2, .rw, 1, .any⟩, ⟨16, 6, .rw, 0x3F, .any⟩,
      ⟨8, 5, .rw, 0x1F, .any⟩, ⟨5, 1, .rw, 1, .any⟩, ⟨4, 1, .rw, 1, .any⟩, ⟨2, 1, .rw, 0, .any⟩,
      ⟨0, 2, .rw, 0, .only [0, 1, 2]⟩]
  | 0x01 => [⟨8, 1, .rw, 0, .any⟩, ⟨0, 4, .rw, 0, .any⟩]
  | 0x04 => [⟨0, 24, .rw, 0, .any⟩]
  | 0x05 => [⟨28, 4, .rw, 0, .any⟩, ⟨16, 12, .rw, 200, .any⟩, ⟨0, 8, .rw, 8, .any⟩]
  | 0x10 => [⟨8, 5, .rw, 0, .clampS (-10) 10⟩, ⟨3, 1, .rw, 1, .any⟩, ⟨2, 1, .rw, 0, .any⟩, ⟨1, 1, .rw, 1, .any⟩]
  | 0x11 => [⟨0, 11, .rw, 256, .clamp 16 1024⟩]
  | 0x12 => [⟨24, 8, .rw, 0, .clampS (-8) 8⟩, ⟨16, 8, .rw, 0, .clampS (-20) 20⟩, ⟨8, 8, .rw, 64, .clampS 24 64⟩,
      ⟨0, 8, .rw, 0, .clampS (-24) 24⟩]
  | 0x13 => [⟨8, 8, .rw, 0, .clampS (-12) 12⟩, ⟨0, 8, .rw, 0, .clampS (-8) 8⟩]
  | 0x17 => [⟨8, 1, .wg, 0, .any⟩, ⟨4, 4, .wg, 0, .any⟩, ⟨0, 3, .wg, 0, .any⟩]
  | 0x20 => [⟨24, 8, .rw, 0xFF, .any⟩, ⟨20, 4, .rw, 9, .any⟩, ⟨16, 4, .rw, 7, .any⟩,
      ⟨12, 4, .rw, 12, .only [11, 12]⟩, ⟨0, 6, .rw, 30, .clamp 24 40⟩]
  | 0x30 => [⟨24, 5, .rw, 6, .clamp 2 12⟩, ⟨20, 4, .rw, 0, .any⟩, ⟨14, 6, .rw, 12, .clamp 0 48⟩,
      ⟨8, 1, .rw, 1, .any⟩, ⟨4, 1, .rw, 1, .any⟩, ⟨3, 1, .rw, 1, .any⟩, ⟨2, 1, .rw, 1, .any⟩]
  | 0x31 => [⟨24, 5, .rw, 18, .clamp 8 22⟩, ⟨16, 5, .rw, 18, .clamp 8 22⟩, ⟨8, 5, .rw, 14, .clamp 6 20⟩,
      ⟨0, 5, .rw, 13, .clamp 6 20⟩]
  | 0x32 => [⟨0, 8, .rw, 0, .any⟩]
  | 0x33 => [⟨24, 4, .rw, 3, .any⟩, ⟨16, 4, .rw, 4, .any⟩]
  | 0x40 => [⟨16, 5, .rw, 12, .clamp 6 20⟩, ⟨12, 1, .rw, 1, .any⟩, ⟨8, 4, .rw, 10, .any⟩, ⟨0, 5, .rw, 6, .any⟩]
  | 0x50 => [⟨24, 4, .rw, 0, .any⟩, ⟨16, 4, .rw, 4, .any⟩, ⟨8, 8, .rw, 16, .any⟩, ⟨0, 5, .rw, 13, .clamp 10 23⟩]
  | 0x60 => [⟨16, 8, .rw, 5, .any⟩, ⟨8, 1, .rw, 0, .any⟩, ⟨1, 1, .sc, 0, .any⟩, ⟨0, 1, .rw, 1, .any⟩]
  | 0x63 => [⟨8, 8, .rw, 20, .any⟩, ⟨0, 1, .rw, 1, .any⟩]
  | 0x70 => [⟨16, 8, .rw, 4, .clamp 2 100⟩, ⟨8, 4, .rw, 6, .clamp 4 8⟩, ⟨1, 2, .rw, 0, .any⟩, ⟨0, 1, .sc, 0, .any⟩]
  | 0x71 => [⟨16, 10, .rw, 700, .clamp 500 990⟩, ⟨0, 12, .rw, 0, .any⟩]
  | 0x74 => [⟨3, 1, .sc, 0, .any⟩, ⟨2, 1, .sc, 0, .any⟩, ⟨1, 1, .rw, 1, .any⟩, ⟨0, 1, .rw, 1, .any⟩]
  | 0x75 => [⟨24, 8, .rw, 6, .any⟩, ⟨16, 8, .rw, 10, .any⟩, ⟨8, 8, .rw, 12, .any⟩, ⟨0, 8, .rw, 15, .any⟩]
  | 0x76 => [⟨0, 32, .rw, 0x101E181E, .any⟩]
  | _ => []

/-- Writable fields of a host-lane block (R272). -/
def laneFields (ix : Nat) : List Fld :=
  match ix with
  | 0x00 => [⟨8, 1, .rw, 1, .any⟩, ⟨4, 1, .rw, 0, .any⟩, ⟨1, 1, .rw, 0, .any⟩, ⟨0, 1, .rw, 0, .any⟩]
  | 0x01 => [⟨24, 6, .rw, 0, .clampS (-4) 4⟩, ⟨16, 6, .rw, 0, .clampS (-8) 8⟩, ⟨8, 6, .rw, 0, .clampS (-20) 0⟩,
      ⟨0, 6, .rw, 0, .clampS (-16) 0⟩]
  | _ => []

/-- Writable fields of a mailbox block (R381). -/
def mboxFields (ix : Nat) : List Fld :=
  match ix with
  | 0x80 => [⟨1, 1, .sc, 0, .any⟩, ⟨0, 1, .sc, 0, .any⟩]
  | _ => []

/-- The writable fields of a register. -/
def fieldsOf (k : BlockKind) (ix : Nat) : List Fld :=
  if 0xE0 ≤ ix then commonFields ix
  else match k with
    | .chip => chipFields ix
    | .keeper => []
    | .time => timeFields ix
    | .basin => basinFields ix
    | .tally => tallyFields ix
    | .selfTest => selfTestFields ix
    | .cal => calFields ix
    | .reach => reachFields ix
    | .port => portFields ix
    | .lane => laneFields ix
    | .mbox => mboxFields ix

/-- The writable fields of a register key. -/
def keyFields (key : Nat) : List Fld := fieldsOf (blockKind (key / 256)) (key % 256)

/-- Whether a register index is in use (R351, R368). -/
def usedIndex (k : BlockKind) (ix : Nat) : Bool :=
  decide (0xE0 ≤ ix) ||
  match k with
  | .chip => decide (ix ≤ 0x07) || decide (0x08 ≤ ix ∧ ix ≤ 0x0B) || decide (0x10 ≤ ix ∧ ix ≤ 0x1F)
      || decide (0x20 ≤ ix ∧ ix ≤ 0x26) || decide (0x30 ≤ ix ∧ ix ≤ 0x32) || decide (0x40 ≤ ix ∧ ix ≤ 0x44)
  | .keeper => decide (ix ≤ 0x02) || decide (0x04 ≤ ix ∧ ix ≤ 0x07)
  | .time => decide (ix ≤ 0x0C)
  | .basin => decide (ix ≤ 0x07) || decide (0x20 ≤ ix ∧ ix ≤ 0x22) || decide (0x30 ≤ ix ∧ ix ≤ 0x31)
  | .tally => decide (ix ≤ 0x06)
  | .selfTest => decide (ix ≤ 0x06)
  | .cal => decide (ix ≤ 0x02) || decide (0x04 ≤ ix ∧ ix ≤ 0x0C) || decide (0x10 ≤ ix ∧ ix ≤ 0x20)
  | .reach => decide (ix = 0x20) || decide (0x24 ≤ ix ∧ ix ≤ 0x2F)
  | .port => decide (ix ≤ 0x05) || decide (0x10 ≤ ix ∧ ix ≤ 0x17) || decide (0x20 ≤ ix ∧ ix ≤ 0x22)
      || decide (0x30 ≤ ix ∧ ix ≤ 0x37) || decide (0x40 ≤ ix ∧ ix ≤ 0x43) || decide (0x50 ≤ ix ∧ ix ≤ 0x57)
      || decide (0x60 ≤ ix ∧ ix ≤ 0x63) || decide (0x70 ≤ ix ∧ ix ≤ 0x7B)
  | .lane => decide (ix ≤ 0x04)
  | .mbox => decide (ix ≤ 0x3F) || decide (0x40 ≤ ix ∧ ix ≤ 0x7F) || decide (0x80 ≤ ix ∧ ix ≤ 0x81)

/-- Whether a field is a guarded one (R355). -/
def Acc.guarded (a : Acc) : Bool := a == .wg || a == .wgsc

/-- Whether a field acts by itself and reads 0 (R350). -/
def Acc.selfClearing (a : Acc) : Bool := a == .sc || a == .wgsc

/-- Whether a register holds a guarded field. -/
def hasGuarded (fs : List Fld) : Bool := fs.any (fun f => f.acc.guarded)

/-- Whether a register stores a field and so carries parity (R359). -/
def hasStored (fs : List Fld) : Bool := fs.any (fun f => f.acc == .rw || f.acc == .wg)

/-- The reset value of a field list. -/
def fieldsReset (fs : List Fld) : Word := fs.foldl (fun v f => v ||| put f.lo f.w f.rst) 0

/-- The value computed for a field by an access way (R350). -/
def wayValue (way : Way) (w old data : Nat) : Nat :=
  match way with
  | .plain => data
  | .setBits => old ||| data
  | .clearBits => old &&& ((2 ^ w - 1) ^^^ data)
  | .toggle => old ^^^ data

/-- One stored field after a write: an RW field always, a WG field only as the accepted half of a guarded write. -/
def writeField (guarded : Bool) (way : Way) (data : Word) (v : Word) (f : Fld) : Word :=
  if f.acc == .rw || (guarded && f.acc == .wg) then
    let old := fld v f.lo f.w
    setFld v f.lo f.w (f.rule.store f.w old (wayValue way f.w old (fld data f.lo f.w)))
  else v

/-- The stored image of a register after a write (R350, R356). -/
def writeFields (fs : List Fld) (guarded : Bool) (way : Way) (old data : Word) : Word :=
  fs.foldl (writeField guarded way data) old

/-- The self-clearing bits that a write makes act (R350): plain and set writes; guarded ones only in a guarded write. -/
def actedBits (fs : List Fld) (guarded : Bool) (way : Way) (data : Word) : Word :=
  match way with
  | .clearBits | .toggle => 0
  | _ => fs.foldl (fun v f =>
      if f.acc == .sc || (guarded && f.acc == .wgsc) then v ||| put f.lo f.w (fld data f.lo f.w) else v) 0

/-! ### Sparse tables in canonical form: keys strictly rising, no entry equal to what an unlisted key reads as. -/

/-- What a key reads as. -/
def tabGet {α : Type} (d : α) : List (Nat × α) → Nat → α
  | [], _ => d
  | (k, v) :: t, n => if n = k then v else tabGet d t n

/-- A table without a key. -/
def tabDel {α : Type} (t : List (Nat × α)) (n : Nat) : List (Nat × α) := t.filter (fun e => e.1 != n)

/-- A table with an entry put at its place, replacing any entry of the same key. -/
def tabIns {α : Type} : List (Nat × α) → Nat → α → List (Nat × α)
  | [], n, v => [(n, v)]
  | (k, w) :: t, n, v =>
    if n < k then (n, v) :: (k, w) :: t
    else if n = k then (n, v) :: t
    else (k, w) :: tabIns t n v

/-- A table with a key set: writing what an unlisted key reads as removes the entry. -/
def tabPut {α : Type} [DecidableEq α] (d : α) (t : List (Nat × α)) (n : Nat) (v : α) : List (Nat × α) :=
  if v = d then tabDel t n else tabIns t n v

/-- Keys strictly rising. -/
def keysRise {α : Type} (t : List (Nat × α)) : Prop := (t.map Prod.fst).Pairwise (· < ·)

/-! ### The stored registers -/

/-- The reset value of a register (R63 and the other register tables); `LN_OUI` takes its own from OTP (R70). -/
def rstWord (otp : Otp) (key : Nat) : Word :=
  if blockKind (key / 256) = .port ∧ key % 256 = 0x04 then otp.oui.setWidth 32 else fieldsReset (keyFields key)

/-- The stored image of a register. -/
def State.reg (s : State) (key : Nat) : Word := tabGet (rstWord s.otp key) s.regs key

/-- Sets the stored image of a register, in canonical form; a write mends a bad parity (R359). -/
def State.setReg (s : State) (key : Nat) (v : Word) : State :=
  { s with regs := tabPut (rstWord s.otp key) s.regs key v
           mended := if s.parity.contains key && !s.mended.contains key then s.mended ++ [key] else s.mended }

/-- Whether the last scrub found this register's parity bad and no write has mended it (R359). -/
def State.badParity (s : State) (key : Nat) : Bool := s.parity.contains key && !s.mended.contains key

/-- The value at which a register acts (R360): its stored value, or, with bad parity, its reset value in blocks 0x00, 0x02
and 0x03 and for a counter selector; IRQ_EN and IRQ_LMASK of block 0x00 act as all ones then. -/
def State.act (s : State) (key : Nat) : Word :=
  if s.badParity key then
    let b := key / 256
    let ix := key % 256
    if 0xE0 ≤ ix ∧ ix ≤ 0xE7 then rstWord s.otp key
    else if b = 0 ∧ (ix = 0x22 ∨ ix = 0x23 ∨ ix = 0xFA ∨ ix = 0xFB) then 0xFFFFFFFF
    else if b = 0 ∧ 0x10 ≤ ix ∧ ix ≤ 0x17 then s.reg key
    else if b = 0 ∨ b = 2 ∨ b = 3 then rstWord s.otp key
    else s.reg key
  else s.reg key

/-- Field of a register as it acts. -/
def State.fldOf (s : State) (key lo w : Nat) : Nat := fld (s.act key) lo w

/-- A register of a port as it acts. -/
def State.portReg (s : State) (p ix : Nat) : Word := s.act (regKey (portBlock p) ix)

/-- A register of a lane as it acts. -/
def State.laneReg (s : State) (n ix : Nat) : Word := s.act (regKey (laneBlock n) ix)

/-- Whether a block is in its parity safe state (R359, R360). -/
def State.safeBlock (s : State) (b : Nat) : Bool := s.parity.any (fun k => k / 256 == b)

end Sys2Proof.Machine
end

