-- ==== Sys2Proof/Machine/Ops.lean ====
section
/-! DEFINITION. The named operations over the state that every meaning uses: access to a port, a reach, a lane, a queue
and a ticket, fresh draws, vehicle time as a stamp, the tally's event counting (R397 to R401) and the event ring (R391). -/

namespace Sys2Proof.Machine

/-! ### Access to the numbered parts -/

/-- Port p. -/
def State.port (s : State) (p : Fin 16) : Port := s.ports.get p

/-- Port p replaced. -/
def State.setPort (s : State) (p : Fin 16) (x : Port) : State := { s with ports := s.ports.set p.val x p.isLt }

/-- Port p changed. -/
def State.modPort (s : State) (p : Fin 16) (f : Port → Port) : State := s.setPort p (f (s.port p))

/-- Reach r. -/
def State.reach (s : State) (r : Fin 4) : Reach := s.reaches.get r

/-- Reach r changed. -/
def State.modReach (s : State) (r : Fin 4) (f : Reach → Reach) : State :=
  { s with reaches := s.reaches.set r.val (f (s.reach r)) r.isLt }

/-- Host lane n. -/
def State.lane (s : State) (n : Fin 8) : Lane := s.lanes.get n

/-- Host lane n changed. -/
def State.modLane (s : State) (n : Fin 8) (f : Lane → Lane) : State :=
  { s with lanes := s.lanes.set n.val (f (s.lane n)) n.isLt }

/-- Mailbox channel c. -/
def State.chan (s : State) (c : Fin 16) : Channel := s.chans.get c

/-- Mailbox channel c changed. -/
def State.modChan (s : State) (c : Fin 16) (f : Channel → Channel) : State :=
  { s with chans := s.chans.set c.val (f (s.chan c)) c.isLt }

/-- One register interface. -/
def State.iface (s : State) (i : Iface) : IfaceRec :=
  match i with | .spi => s.spi | .monitor => s.mon | .keeper => s.kpi

/-- One register interface changed. -/
def State.modIface (s : State) (i : Iface) (f : IfaceRec → IfaceRec) : State :=
  match i with
  | .spi => { s with spi := f s.spi }
  | .monitor => { s with mon := f s.mon }
  | .keeper => { s with kpi := f s.kpi }

/-- The reach of a port (R3): ports 4r to 4r + 3. -/
def reachOf (p : Fin 16) : Fin 4 := ⟨p.val / 4, by omega⟩

/-- The ports in number order. -/
def allPorts : List (Fin 16) := List.finRange 16

/-- The host lanes in number order. -/
def allLanes : List (Fin 8) := List.finRange 8

/-- The reaches in number order. -/
def allReaches : List (Fin 4) := List.finRange 4

/-- The ports of a reach. -/
def portsOf (r : Fin 4) : List (Fin 16) := allPorts.filter (fun p => reachOf p == r)

/-- A number taken modulo the number of ports. -/
def portNo (n : Nat) : Fin 16 := Fin.ofNat 16 n

/-- The same change made to every port of a list. -/
def State.forPorts (s : State) (l : List (Fin 16)) (f : Fin 16 → State → State) : State := l.foldl (fun t p => f p t) s

/-- An open or closing queue by number (R232). -/
def State.queue? (s : State) (q : Nat) : Option Queue := s.basin.queues.find? (fun x => x.num == q)

/-- A queue changed. -/
def State.modQueue (s : State) (q : Nat) (f : Queue → Queue) : State :=
  { s with basin := { s.basin with queues := s.basin.queues.map (fun x => if x.num == q then f x else x) } }

/-- Tickets changed. -/
def State.modTickets (s : State) (f : List Ticket → List Ticket) : State :=
  { s with basin := { s.basin with tickets := f s.basin.tickets } }

/-- A ticket changed. -/
def State.modTicket (s : State) (id : Nat) (f : Ticket → Ticket) : State :=
  s.modTickets (List.map (fun x => if x.id == id then f x else x))

/-- A ticket by number. -/
def State.ticket? (s : State) (id : Nat) : Option Ticket := s.basin.tickets.find? (fun x => x.id == id)

/-! ### Draws and stamps -/

/-- The next draw number, taken. -/
def State.draw (s : State) : Nat × State := (s.draws, { s with draws := s.draws + 1 })

/-- Ticks of the direct clock in one microsecond, rounded down (156.25 of them). -/
def usTicks (us : Nat) : Nat := us * 15625 / 100

/-- Ticks of the direct clock in a number of milliseconds. -/
def msTicks (ms : Nat) : Nat := ms * 156250

/-- Ticks of the direct clock in a number of seconds. -/
def secTicks (sec : Nat) : Nat := sec * 156250000

/-- 2^40, the number of vehicle-time units in one nanosecond (R274, R275). -/
def subNs : Nat := 2 ^ 40

/-- Whole nanoseconds of a vehicle time. -/
def nsOf (t : Nat) : Nat := t / subNs

/-- The seconds of a vehicle time. -/
def secOf (t : Nat) : Nat := nsOf t / 10 ^ 9 % 2 ^ 48

/-- The nanoseconds within the second of a vehicle time. -/
def nsInSec (t : Nat) : Nat := nsOf t % 10 ^ 9

/-- The 16-bit fraction of a nanosecond of a vehicle time (R274). -/
def fracOf (t : Nat) : Nat := t % subNs / 2 ^ 24

/-- The vehicle time of given seconds, nanoseconds and fraction. -/
def vehicleTime (sec ns frac : Nat) : Nat := (sec * 10 ^ 9 + ns) * subNs + frac * 2 ^ 24

/-- The time stamp of R259: low 32 bits of vehicle time in nanoseconds. -/
def tsOf (t : Nat) : Word := BitVec.ofNat 32 (nsOf t)

/-! ### The tally's counters (R396 to R401) -/

/-- The selector of counter i of a block, as it acts. -/
def State.csel (s : State) (b i : Nat) : Word := s.act (regKey b (0xE0 + i))

/-- Whether counter i receives the carries of counter i - 1 (R399): chains never join more than two counters. -/
def State.receives (s : State) (b : Nat) : Nat → Bool
  | 0 => false
  | i + 1 => bit (s.csel b i) 19 && !s.receives b i && decide (i + 1 < 8)

/-- Whether counter i hands its carries on (R399). -/
def State.chains (s : State) (b i : Nat) : Bool := s.receives b (i + 1)

/-- The key of counter i of a block in the table of counters. -/
def ctrKey (b i : Nat) : Nat := b * 8 + i

/-- A counter's value. -/
def Tally.counter (t : Tally) (b i : Nat) : BitVec 48 := tabGet 0 t.counters (ctrKey b i)

/-- A counter set. -/
def Tally.setCounter (t : Tally) (b i : Nat) (v : BitVec 48) : Tally :=
  { t with counters := tabPut 0 t.counters (ctrKey b i) v }

/-- Adds to counter i (R399, R401): a carry goes into the next counter when chained; an unchained counter that passes
2^48 - 1 wraps and its wrap waits to be reported. -/
def Tally.add (t : Tally) (chained : Bool) (b i n : Nat) : Tally :=
  let v := (t.counter b i).toNat + n
  let t' := t.setCounter b i (BitVec.ofNat 48 v)
  if v < 2 ^ 48 then t'
  else if chained then t'.setCounter b (i + 1) (t'.counter b (i + 1) + BitVec.ofNat 48 (v / 2 ^ 48))
  else { t' with wraps := t'.wraps ++ [(b, i)] }

/-- One counter's part in `n` occurrences of an event code in one core cycle (R397): edge mode adds the number of
occurrences, level mode adds 1. -/
def State.countOne (s : State) (b code n : Nat) (t : Tally) (i : Nat) : Tally :=
  let c := s.csel b i
  if fld c 0 16 = code ∧ s.receives b i = false then
    t.add (s.chains b i) b i (if bit c 18 then 1 else n)
  else t

/-- `n` occurrences of event code `code` in block `b`. -/
def State.countCode (s : State) (b code n : Nat) : State :=
  if n = 0 then s else { s with tally := (List.range 8).foldl (s.countOne b code n) s.tally }

/-- `n` occurrences of the block-specific event `k` (R398). -/
def State.count (s : State) (b k n : Nat) : State := s.countCode b (0x200 + k) n

/-! ### The event ring (R391) -/

/-- An event record of the present instant. -/
def State.record (s : State) (code block unit : Nat) (e0 e1 e2 e3 : Word) : EventRec where
  code  := BitVec.ofNat 16 code
  block := BitVec.ofNat 7 block
  unit  := BitVec.ofNat 8 unit
  seq   := s.ring.nextSeq
  ts    := tsOf s.time.now
  sec   := BitVec.ofNat 32 (secOf s.time.now)
  e0 := e0
  e1 := e1
  e2 := e2
  e3 := e3

/-- A record put into the ring: stored while fewer than 256 records are untaken, else counted as lost; lost records
advance the record sequence too. -/
def EventRing.push (r : EventRing) (e : EventRec) : EventRing :=
  if r.untaken.length < 256 then { r with untaken := r.untaken ++ [e], nextSeq := r.nextSeq + 1 }
  else { r with lost := r.lost + 1, nextSeq := r.nextSeq + 1 }

/-- Raises an event (R391): into the ring, and into the tally as stored or lost (R398, chip common 5 and 6). -/
def State.raise (s : State) (code block unit : Nat) (e0 : Word := 0) (e1 : Word := 0) (e2 : Word := 0)
    (e3 : Word := 0) : State :=
  let stored := decide (s.ring.untaken.length < 256)
  let s' := { s with ring := s.ring.push (s.record code block unit e0 e1 e2 e3) }
  s'.count 0 (if stored then 5 else 6) 1

/-- A word from a number. -/
def wd (n : Nat) : Word := BitVec.ofNat 32 n

/-- A word from an integer, two's complement. -/
def wdI (i : Int) : Word := BitVec.ofInt 32 i

/-- An integer saturated to a signed width. -/
def satI (w : Nat) (i : Int) : Int := clampI (-(2 ^ (w - 1) : Nat)) ((2 ^ (w - 1) : Nat) - 1) i

/-- Whether an event of a code is among the untaken records: for statements. -/
def EventRing.has (r : EventRing) (code unit : Nat) : Bool :=
  r.untaken.any (fun e => e.code == BitVec.ofNat 16 code && e.unit == BitVec.ofNat 8 unit)

end Sys2Proof.Machine
end

