-- ==== Sys2Proof/Machine/Modes.lean ====
section
/-! DEFINITION. Line modes: codes (R70), families, rates and block sizes (R67, R192), domains (R69), policy and mask
fields (R70), the common set and the role (R76, R77), predicted figures (R166, R180), thresholds (R84) and choices (R79,
R84, R455). -/

namespace Sys2Proof.Machine

/-! ### Mode tables -/

/-- MODE_REQ and MODE_ACT codes (R70). -/
def modeCode : LineMode → Nat
  | .t100 => 1 | .t1000 => 2 | .t2500 => 3 | .t5000 => 4 | .t10g => 5 | .t25g => 6
  | .l50a => 8 | .l25s => 9 | .l10x => 10 | .ldmt => 11 | .lchirp => 12

/-- The mode of a code; other codes name none (R70). -/
def modeOf (n : Nat) : Option LineMode :=
  match n with
  | 1 => some .t100 | 2 => some .t1000 | 3 => some .t2500 | 4 => some .t5000 | 5 => some .t10g | 6 => some .t25g
  | 8 => some .l50a | 9 => some .l25s | 10 => some .l10x | 11 => some .ldmt | 12 => some .lchirp
  | _ => none

/-- The Locon modes in the ladder's order, highest first (R84). -/
def ladderModes : List LineMode := [.l50a, .l25s, .l10x, .ldmt, .lchirp]

/-- A Locon mode (R67). -/
def isLocon (m : LineMode) : Bool := decide (8 ≤ modeCode m)

/-- A PAM Locon mode. -/
def isPam : LineMode → Bool
  | .l50a | .l25s | .l10x => true
  | _ => false

/-- A rung's number from the top of the ladder (R84). -/
def rung (m : LineMode) : Nat := modeCode m - 8

/-- PAM order of a PAM mode (R67). -/
def pamOrder : LineMode → Nat
  | .l10x => 8
  | _ => 4

/-- Whether this end sends in the L50A forward direction: FWD_DIR 1 is outbound (R70). -/
def fwdOut (pol : Word) : Bool := bit pol 2

/-- Block length of a mode in bytes (R192). -/
def blockLen : LineMode → Nat
  | .l10x | .ldmt => 420
  | _ => 460

/-- Payload bytes of a block of a mode (R192). -/
def payLen (m : LineMode) : Nat := blockLen m - 18

/-- BSIZE of a mode in a SYNC payload (R217). -/
def bsizeCode (m : LineMode) : Nat := if blockLen m = 460 then 0 else 1

/-- Bits per second of a PAM Locon mode's line in one direction (R67): `fwd` is the L50A forward direction. -/
def lineRate (m : LineMode) (fwd : Bool) : Nat :=
  match m with
  | .l50a => if fwd then 56250000000 else 2812500000
  | .l25s => 28125000000
  | .l10x => 12656250000
  | _ => 0

/-- LDMT payload in tenths of a bit per second for B loaded bits (R178). -/
def dmtPay10 (b : Nat) : Nat := b * 8921438

/-- LDMT coded bits per second for B loaded bits, in tenths (R174, R214). -/
def dmtRaw10 (b : Nat) : Nat := b * 11096316

/-- Towpath cells per 1,000 s of a narrow SF (R96): 62.5 M / 2^SF symbols, 15 of 16 for data, ceil(256 / SF) per cell. -/
def narrowCells1000 (sf : Nat) : Nat := 62500000 * 1000 * 15 / (2 ^ sf * 16 * ceilDiv 256 sf)

/-- Data symbols of one cell at a spreading factor (R96). -/
def cellSymbols (sf : Nat) : Nat := ceilDiv 256 sf

/-- Length of a towpath symbol in ps (R90): 2^SF chips of the profile. -/
def symbolPs (wide : Bool) (sf : Nat) : Nat := if wide then 2 ^ sf * 2000 / 3 else 2 ^ sf * 16000

/-- Length of a cell in ps, pilots included (R96). -/
def cellPs (wide : Bool) (sf : Nat) : Nat := cellSymbols sf * 16 * symbolPs wide sf / 15

/-- Steps per second of a ramp, in thousands (R132, R130): symbols, LDMT samples or chips. -/
def stepRate (m : Option LineMode) (narrow fwd : Bool) : Nat :=
  if narrow then 62500
  else match m with
    | some .t100 => 66667 | some .t1000 => 750000 | some .t2500 => 1406250 | some .t5000 => 2812500
    | some .t10g => 5625000 | some .t25g => 14062500
    | some .l50a => if fwd then 28125000 else 1406250
    | some .l25s => 14062500 | some .l10x => 4218750 | some .ldmt => 5000000
    | some .lchirp => 62500
    | none => 62500

/-- Nominal swing in 10 mV units (R130): the clause's nominal level of a standard mode stands in no register table, so it
reads as 1.0 V (notes/assumptions/2.md). -/
def nominalSwing (m : Option LineMode) (narrow sound fwd : Bool) : Nat :=
  if sound then 80
  else if narrow then 100
  else match m with
    | some .l50a => if fwd then 100 else 80
    | some .l10x => 120
    | some .ldmt => 120
    | _ => 100

/-! ### Policy fields (R70) -/

def policyOf (pol : Word) : Nat := fld pol 0 2
def roleOf (pol : Word) : Nat := fld pol 26 2
def msCfgOf (pol : Word) : Nat := fld pol 24 2
def upEn (pol : Word) : Bool := bit pol 5
def downEn (pol : Word) : Bool := bit pol 4

/-- Whether a mode is allowed by STD_MASK or LOCON_MASK (R70). -/
def allowedBy (pol : Word) (m : LineMode) : Bool :=
  if isLocon m then bit pol (modeCode m) else bit pol (15 + modeCode m)

/-- LN_POLICY and LN_MODE of a port. -/
def State.policy (s : State) (p : Fin 16) : Word := s.portReg p 0
def State.lnMode (s : State) (p : Fin 16) : Word := s.portReg p 1

/-- ENABLE of a port. -/
def State.enabled (s : State) (p : Fin 16) : Bool := bit (s.lnMode p) 8

/-- The mode that MODE_REQ names (R70); other codes act as 0. -/
def State.reqMode (s : State) (p : Fin 16) : Option LineMode := modeOf (fld (s.lnMode p) 0 4)

/-- REQ_INVALID (R70, R87): MODE_REQ names a mode excluded by a mask. -/
def State.reqInvalid (s : State) (p : Fin 16) : Bool :=
  match s.reqMode p with
  | some m => !allowedBy (s.policy p) m
  | none => false

/-- The forced mode in effect: MODE_REQ unless a mask excludes it (R87). -/
def State.forced (s : State) (p : Fin 16) : Option LineMode :=
  match s.reqMode p with
  | some m => if allowedBy (s.policy p) m then some m else none
  | none => none

/-- The part's own L50A_DIR code (R75): 10 when FWD_DIR is 0 and 01 when it is 1. -/
def ownDir (pol : Word) : Nat := if fwdOut pol then 1 else 2

/-- THR_ADJ of LN_LADDER as tenths of a dB (R84): 5 for each step. -/
def thrAdj (ladder : Word) : Int := 5 * sfld ladder 28 4

/-- KEY_IDX as it acts (R120): 64 to 254 act as 0xFF. -/
def keyIdxAct (tp : Word) : Option Nat := let k := fld tp 24 8; if k < 64 then some k else none

/-- QSF as it acts (R120). -/
def qsfAct (tp : Word) : Nat := let q := fld tp 20 4; if 7 ≤ q ∧ q ≤ 12 then q else 9

/-- LSF_MIN as it acts (R120). -/
def lsfMinAct (tp : Word) : Nat := let q := fld tp 16 4; if 7 ≤ q ∧ q ≤ 12 then q else 7

/-! ### The common set and the role (R76, R77) -/

/-- L50A_DIR codes that conflict (R76). -/
def dirConflict (own partner : Nat) : Bool :=
  (own == 1 && partner == 1) || (own == 2 && partner == 2) || own == 3 || partner == 3

/-- RX_MAX and TX_MAX, which the part always sends (R75). -/
def ownMax : Nat := 497

/-- Whether L50A stays in the common set after step 2 of R76. -/
def l50aStays (own partner rxMax txMax : Nat) : Bool :=
  !dirConflict own partner &&
  (if own == 2 then decide (497 ≤ ownMax ∧ 497 ≤ txMax)
   else if own == 1 then decide (497 ≤ rxMax ∧ 497 ≤ ownMax)
   else decide (497 ≤ rxMax ∧ 497 ≤ txMax))

/-- The common set of R76, highest mode first. -/
def commonSet (pol : Word) (c : CapCell) (dirPartner : Nat) : List LineMode :=
  let lo := min c.rxMax.toNat c.txMax.toNat
  ladderModes.filter (fun m =>
    allowedBy pol m && c.modes.getLsbD (rung m) &&
    match m with
    | .l50a => l50aStays (ownDir pol) dirPartner c.rxMax.toNat c.txMax.toNat
    | .l25s => decide (249 ≤ lo)
    | .l10x => decide (102 ≤ lo)
    | _ => true)

/-- What the roles resolve to (R77). -/
inductive RoleResult where
  | leader | follower | conflict | tie
  deriving DecidableEq, Repr

/-- Role resolution (R77): a received 11 reads as 00; the larger nonce leads between two either. -/
def resolveRole (own partner : Nat) (nOwn nPartner : BitVec 48) : RoleResult :=
  let a := if own = 3 then 0 else own
  let b := if partner = 3 then 0 else partner
  if a = 0 ∧ b = 0 then
    if nPartner.toNat < nOwn.toNat then .leader else if nOwn = nPartner then .tie else .follower
  else if a = b then .conflict
  else if a = 1 ∨ (a = 0 ∧ b = 2) then .leader
  else .follower

/-! ### Predicted figures (R166) -/

/-- floor((r - √q) / d) for a ≥ 0 and floor((r + √q) / d) for a negative root sign. -/
def floorRoot (r : Int) (neg : Bool) (q : Nat) (d : Nat) : Int :=
  let f := isqrt q
  if neg then (r + f) / (d : Int) else (r - (if f * f = q then f else f + 1 : Nat)) / (d : Int)

/-- The sum of the first 64 bins, and of the top eight. -/
def binSum (l : List Nat) : Nat := (l.take 64).foldl (· + ·) 0
def topSum (l : List Nat) : Nat := ((l.take 64).drop 56).foldl (· + ·) 0

/-- The predicted figure of a PAM mode from a wide sounding (R166), in 0.1 dB, saturated to 0 to 600. The sum runs in
0.001 dB over a common denominator `d`; the square-root term of IL_mean is `√q / d`. -/
def predicted (m : LineMode) (precoded : Bool) (x : Sounding) : Nat :=
  let n0 : Int := binAt x.noise 0
  let sm : Int := binSum x.noise
  let t8 : Int := topSum x.noise
  let pre : Int := if precoded then 3010 else 0
  let (d, r, q) : Nat × Int × Nat :=
    match m with
    | .l50a => (1440, 8 * (8 * n0 + 3 * sm + 200 * t8) + 1440 * (-3010 - 6000 + pre - x.c) - 10125 * x.b,
        (3600 * x.a.natAbs) ^ 2)
    | .l25s => (2880, 16 * (16 * n0 + 6 * sm + 175 * t8) + 2880 * (0 - 5000 + pre - x.c) - 10125 * x.b,
        25920000 * x.a.natAbs ^ 2)
    | _ => (3456, 32 * (32 * n0 + 12 * sm + 35 * t8) + 3456 * (5690 - 4000 + pre - x.c) - 3645 * x.b,
        11197440 * x.a.natAbs ^ 2)
  (clampI 0 600 (floorRoot (r + 50 * d) (decide (x.a < 0)) q (100 * d))).toNat

/-! ### Bit loading (R177, R178) and the predicted LDMT payload (R180) -/

/-- T(b) in 0.01 dB (R177). -/
def tThr : Nat → Nat
  | 1 => 700 | 2 => 1177 | 3 => 1595 | 4 => 1876 | 5 => 2241 | 6 => 2499 | 7 => 2854 | 8 => 3107 | 9 => 3458
  | 10 => 3710 | _ => 0

/-- A pilot carrier (R173): 64 + 128m. -/
def isPilot (i : Nat) : Bool := decide (i % 128 = 64)

/-- The used carriers (R171). -/
def carriers : List Nat := (List.range 2044).map (· + 4)

/-- MAX_BITS as it acts (R190). -/
def maxBitsAct (ctrl : Word) : Nat := clampN 1 10 (fld ctrl 8 4)

/-- M in 0.01 dB (R177, R190): 31 acts as 30. -/
def marginAct (ctrl : Word) : Nat := 50 * min 30 (fld ctrl 0 5)

/-- The largest b up to `mb` for which `ok b` holds (R178 step 1). -/
def largestB (ok : Nat → Bool) : Nat → Nat
  | 0 => 0
  | mb + 1 => if ok (mb + 1) then mb + 1 else largestB ok mb

/-- I and B of a raw sum of bits after the cap and the rounding of R178 steps 2 to 4. -/
def roundLoading (bRaw : Nat) : Nat × Nat :=
  let r := min bRaw 13450
  let i := max 1 (ceilDiv r 1000)
  (i, r / (10 * i) * (10 * i))

/-- The carrier with the least margin among those loaded, ties to the lower index: position and margin. -/
def leastMargin (marg : Nat) : List (Int × Nat) → Nat → Option (Nat × Int) → Option (Nat × Int)
  | [], _, best => best
  | (snr, b) :: t, k, best =>
    let m := snr - (tThr b : Int) - (marg : Int)
    let best' := if b = 0 then best else
      match best with
      | some (_, w) => if m < w then some (k, m) else best
      | none => some (k, m)
    leastMargin marg t (k + 1) best'

/-- One bit taken from the carrier with the least margin (R178 step 2). -/
def dropBit (marg : Nat) (l : List (Int × Nat)) : List (Int × Nat) :=
  match leastMargin marg l 0 none with
  | some (k, _) => l.modify k (fun e => (e.1, e.2 - 1))
  | none => l

/-- `n` bits taken in turn. -/
def dropBits (marg : Nat) : Nat → List (Int × Nat) → List (Int × Nat)
  | 0, l => l
  | n + 1, l => dropBits marg n (dropBit marg l)

/-- Steps 2 to 4 of R178 from the carriers' SNR in 0.01 dB and first bits. -/
def finishLoading (mg : Nat) (start : List (Int × Nat)) : Loading :=
  let raw := (start.map (·.2)).foldl (· + ·) 0
  let (i, b) := roundLoading raw
  { bits := (dropBits mg (raw - b) start).map (·.2), b := b, i := i }

/-- The loading of R178 from the SNR of carriers 4 to 2047 in 0.01 dB. -/
def computeLoading (ctrl : Word) (snr : List Int) : Loading :=
  let mb := maxBitsAct ctrl
  let mg := marginAct ctrl
  finishLoading mg (carriers.map (fun i =>
    let x := snr.getD (i - 4) 0
    (x, if isPilot i then 0 else largestB (fun b => decide ((tThr b : Int) + mg ≤ x)) mb)))

/-- Whether an estimated SNR of carrier i reaches `thr` 0.01 dB (R180): `il` and the root term are over 4,096. -/
def snrMeets (thr noise : Nat) (a b c : Int) (extra : Nat) (i : Nat) : Bool :=
  let r : Int := 4096 * (10 * (noise : Int) - c - 6000 - (extra : Int) - 10 * (thr : Int)) - 5 * (i : Int) * b
  let q := a.natAbs ^ 2 * 5 * i * 4096
  if a < 0 then decide (0 ≤ r) || decide (r.natAbs ^ 2 ≤ q) else decide (0 ≤ r) && decide (q ≤ r.natAbs ^ 2)

/-- Estimated bits of carrier i (R180); `fit` is the internal fit of a narrow sounding. -/
def estBits (ctrl : Word) (x : Sounding) (fit : Int × Int × Int) (i : Nat) : Nat :=
  if isPilot i then 0 else
  let mb := maxBitsAct ctrl
  let mg := marginAct ctrl
  let top8 := topSum x.noise
  if x.wide then
    if i < 1280 then
      let n := if i < 52 then binAt x.noise 0 else binAt x.noise ((5 * i - 256) / 96)
      largestB (fun b => snrMeets (tThr b + mg) n x.a x.b x.c 0 i) mb
    else largestB (fun b => snrMeets (8 * (tThr b + mg)) top8 (8 * x.a) (8 * x.b) (8 * x.c + 42000) 0 i) mb
  else if i ≤ 54 then
    let k := 5 * i / 4 - 4
    largestB (fun b => decide (tThr b + mg + binAt x.loss k + 600 ≤ binAt x.noise k)) mb
  else largestB (fun b => snrMeets (8 * (tThr b + mg)) top8 (8 * fit.1) (8 * fit.2.1) (8 * fit.2.2 + 42000) 24000 i) mb

/-- B of the predicted loading (R180). -/
def predictedB (ctrl : Word) (x : Sounding) : Nat :=
  let fit := if x.wide then (0, 0, 0) else narrowFit x.loss
  (roundLoading ((carriers.map (estBits ctrl x fit)).foldl (· + ·) 0)).2

/-- A B that carries at least 1.0 Gb/s (R79, R84). -/
def bEntry (b : Nat) : Bool := decide (10 ^ 10 ≤ dmtPay10 b)

/-- A B that is used at all (R178): at least 290. -/
def bUsable (b : Nat) : Bool := decide (290 ≤ b)

/-! ### Thresholds and choices (R79, R84, R455) -/

/-- The threshold of R84 below which DN_DWELL updates downshift, in 0.1 dB. -/
def dwellThr : LineMode → Int
  | .l50a => 170 | .l25s => 160 | .l10x => 200 | _ => 0

/-- The threshold of R84 below which one update downshifts. -/
def fastThr : LineMode → Int
  | .l50a => 110 | .l25s => 100 | .l10x => 140 | _ => 0

/-- The entry and upshift threshold of R84. -/
def entryThr : LineMode → Int
  | .l50a => 200 | .l25s => 190 | .l10x => 230 | _ => 0

/-- Decode thresholds of R98 in 0.1 dB. -/
def decodeThr : Nat → Nat
  | 7 => 125 | 8 => 130 | 9 => 135 | 10 => 140 | 11 => 144 | _ => 148

/-- Predicted despread SNR at another SF, in 0.0001 dB (R118): the measured figure plus 10 log10 of the chip ratio. -/
def snrAt (snrDb10 now sf : Nat) : Int := (snrDb10 : Int) * 1000 + 30103 * ((sf : Int) - now)

/-- The SF that the leader selects for LCHIRP (R118): the lowest from LSF_MIN that has 3 dB over its threshold, else 12. -/
def selectSf (lo snrDb10 now : Nat) : Nat :=
  match (List.range (13 - lo)).find? (fun k => decide (((decodeThr (lo + k) + 30 : Nat) : Int) * 1000 ≤ snrAt snrDb10 now (lo + k))) with
  | some k => lo + k
  | none => 12

/-- Whether the mode would run with precoding (R124). -/
def State.wouldPrecode (s : State) (p : Fin 16) (m : LineMode) : Bool :=
  match m with
  | .l10x => true
  | .l50a | .l25s => bit (s.portReg p 0x10) 1 && (match (s.port p).tow.partner with | some c => c.precode | none => false)
  | _ => false

/-- The predicted figure of a mode at a port from its sounding in force (0 before the first sounding, R167). R166 states no
bins for a narrow set: with one in force the figure is 0, a DESIGN CHOICE (notes/assumptions/58.md). -/
def State.predFig (s : State) (p : Fin 16) (m : LineMode) : Nat :=
  match (s.port p).tow.snd with
  | some x => if x.wide then predicted m (s.wouldPrecode p m) x else 0
  | none => 0

/-- B of the predicted LDMT loading at a port. -/
def State.predB (s : State) (p : Fin 16) : Nat :=
  match (s.port p).tow.snd with
  | some x => predictedB (s.portReg p 0x40) x
  | none => 0

/-- Whether a mode meets its entry threshold (R84). -/
def State.meetsEntry (s : State) (p : Fin 16) (m : LineMode) : Bool :=
  if isPam m then decide (entryThr m + thrAdj (s.portReg p 5) ≤ (s.predFig p m : Int))
  else if m == .ldmt then bEntry (s.predB p) else true

/-- Whether a mode meets its downshift threshold (R84, R85). -/
def State.meetsDown (s : State) (p : Fin 16) (m : LineMode) : Bool :=
  if isPam m then decide (dwellThr m + thrAdj (s.portReg p 5) ≤ (s.predFig p m : Int))
  else if m == .ldmt then bUsable (s.predB p) else true

/-- The common set in force at a port (R76): of the modes its own CAP offered, the present LOCON_MASK and the partner's, with
the partner's latest DIR code. -/
def State.common (s : State) (p : Fin 16) : List LineMode :=
  match (s.port p).tow.partner with
  | some c => (commonSet (s.policy p) c (s.port p).link.dirPartner.toNat).filter (fun m =>
      (s.port p).tow.sentModes.getLsbD (rung m))
  | none => []

/-- The modes of the common set that R83 does not exclude. -/
def State.choosable (s : State) (p : Fin 16) : List LineMode :=
  (s.common p).filter (fun m => !(s.port p).link.excluded.contains m)

/-- The leader's choice of R79 among a list, highest first: the highest PAM mode that meets its entry threshold, else
LDMT, else LCHIRP, else the lowest (R455). -/
def State.chooseFrom (s : State) (p : Fin 16) (l : List LineMode) : Option LineMode :=
  match l.find? (fun m => isPam m && s.meetsEntry p m) with
  | some m => some m
  | none =>
    if l.contains .ldmt && s.meetsEntry p .ldmt then some .ldmt
    else if l.contains .lchirp then some .lchirp
    else l.getLast?

/-- The choice of R79, and whether FORCE_FAIL is set: a forced Locon mode in the set replaces the choice. -/
def State.choose (s : State) (p : Fin 16) : Option LineMode × Bool :=
  let l := s.choosable p
  match s.forced p with
  | some m =>
    if isLocon m then if l.contains m then (some m, false) else (s.chooseFrom p l, true)
    else (s.chooseFrom p l, false)
  | none => (s.chooseFrom p l, false)

/-- The modes of a list below a mode on the ladder. -/
def below (l : List LineMode) (m : LineMode) : List LineMode := l.filter (fun x => decide (rung m < rung x))

/-- The target of a downshift from mode `m` (R84, R455): the highest lower mode that meets its entry threshold, else the
highest that meets its downshift threshold, else LCHIRP or the lowest of the set; the lowest mode itself retrains. -/
def State.downTarget (s : State) (p : Fin 16) (m : LineMode) : LineMode :=
  let l := below (s.common p) m
  match l.find? (fun x => x != .lchirp && s.meetsEntry p x) with
  | some x => x
  | none =>
    match l.find? (fun x => x != .lchirp && s.meetsDown p x) with
    | some x => x
    | none => l.getLast?.getD m

/-- The next mode up of the common set (R84). -/
def State.upTarget (s : State) (p : Fin 16) (m : LineMode) : Option LineMode :=
  ((s.common p).filter (fun x => decide (rung x < rung m))).getLast?

/-! ### Line payload, reservations and the gate's skid (R67, R214, R237, R241) -/

/-- Coded bits of a block (R201): 400 symbols of 10 bits. -/
def codedBits : Nat := 4000

/-- Whether the block stream of a direction runs the L50A forward rate: the forward direction is outbound with FWD_DIR 1. -/
def isForward (pol : Word) (out : Bool) : Bool := out == fwdOut pol

/-- Blocks per 1,000 s of a mode in one direction: `b` is the LDMT loading of that direction and `sf` the LCHIRP SF. -/
def blockRate1000 (m : LineMode) (fwd : Bool) (b sf : Nat) : Nat :=
  match m with
  | .ldmt => dmtRaw10 b * 100 / codedBits
  | .lchirp => narrowCells1000 sf / 20
  | _ => lineRate m fwd * 1000 / codedBits

/-- Payload in thousandths of a bit per second of a mode in one direction (R67, R68, R119). -/
def payload1000 (m : LineMode) (fwd : Bool) (b sf : Nat) : Nat :=
  match m with
  | .t100 => 10 ^ 11 | .t1000 => 10 ^ 12 | .t2500 => 25 * 10 ^ 11 | .t5000 => 5 * 10 ^ 12 | .t10g => 10 ^ 13
  | .t25g => 25 * 10 ^ 12
  | .ldmt => dmtPay10 b * 100
  | m => blockRate1000 m fwd b sf * payLen m * 8

/-- The loading of a port's direction. -/
def Port.loadB (x : Port) (out : Bool) : Nat := if out then x.dmt.tx.b else x.dmt.rx.b

/-- The mode whose payload a port has (R237 condition 8): in a shift the mode left until the new one sends its blocks. -/
def Port.payMode (x : Port) : Option LineMode :=
  match x.link.state, x.link.shift with
  | .loconUp, _ | .stdUp, _ => x.link.modeAct
  | .shift, some sh => if sh.acked && x.link.blocksOn then some sh.target else x.link.modeAct
  | _, _ => none

/-- The payload in force of a port and direction, while its link is up (R237 condition 8). -/
def State.payInForce (s : State) (p : Fin 16) (out : Bool) : Option Nat :=
  let x := s.port p
  match x.payMode with
  | some m =>
    some (payload1000 m (isForward (s.policy p) out) (x.loadB out) (max 7 x.tow.sf))
  | none => none

/-- The highest mode that the policy allows (R237 condition 8): the highest Locon mode of LOCON_MASK or the highest
standard mode of STD_MASK, whichever has the larger forward payload; a Locon-only policy takes no standard mode. -/
def highestMode (pol : Word) : Option LineMode :=
  let lo := ladderModes.find? (allowedBy pol)
  let st := if policyOf pol = 1 then none else [LineMode.t25g, .t10g, .t5000, .t2500, .t1000, .t100].find? (allowedBy pol)
  match lo, st with
  | some a, some b => if payload1000 a true 13440 7 < payload1000 b true 13440 7 then some b else some a
  | some a, none => some a
  | none, x => x

/-- The line payload that admission counts with (R237 condition 8), in thousandths of a bit per second. -/
def State.linePay (s : State) (p : Fin 16) (out : Bool) : Nat :=
  match s.payInForce p out with
  | some n => n
  | none =>
    match highestMode (s.policy p) with
    | some m => payload1000 m (isForward (s.policy p) out) 13440 7
    | none => 0

/-- The sum of B_res over a port and direction, in Mb/s: a demoted stream reserves nothing (R237, R239). -/
def State.lineSum (s : State) (p : Fin 16) (out : Bool) : Nat :=
  ((s.basin.queues.filter (fun q => q.num / 256 == p.val && q.outbound == out && !q.demoted)).map (·.bRes)).foldl (· + ·) 0

/-- Whether a sum of reservations in Mb/s exceeds 98 % of a payload. -/
def over98 (mbps pay : Nat) : Bool := decide (98 * pay < mbps * 10 ^ 9 * 100)

/-- LINE_SHORT of a port and direction (R241). -/
def State.isShort (s : State) (p : Fin 16) (out : Bool) : Bool :=
  match s.payInForce p out with
  | some n => over98 (s.lineSum p out) n
  | none => false

/-- One direction's LINE_SHORT brought in line; a rise raises an event (R241). -/
def State.lineOne (s : State) (p : Fin 16) (out : Bool) : State :=
  let i := 2 * p.val + (if out then 1 else 0)
  let short := s.isShort p out
  let s1 := { s with basin := { s.basin with lineShort := setBit s.basin.lineShort i short } }
  if short && !s.basin.lineShort.getLsbD i then s1.raise 0x0022 3 p.val (if out then 1 else 0) else s1

/-- Both directions of a port. -/
def State.lineSync (s : State) (p : Fin 16) : State := (s.lineOne p false).lineOne p true

/-- K of R214 from the block rates per 1,000 s of the gated direction and of the gate's own direction. -/
def skidK (gated own : Nat) : Nat :=
  if own = 0 then 0 else ceilDiv (2 * gated * 10 ^ 9 + 2 * gated * own) (own * 10 ^ 9)

/-- The largest skid of R214 of a mode in bytes, over both directions, at the highest rates (R237 condition 3). -/
def modeSkid : LineMode → Nat
  | .l50a => 30498 | .l25s => 7514 | .l10x => 3618 | .ldmt => 4020 | .lchirp => 1326 | _ => 0

/-- The largest skid among the Locon modes a policy allows. -/
def maxSkid (pol : Word) : Nat := ((ladderModes.filter (allowedBy pol)).map modeSkid).foldl max 0

/-- The skid in force for inbound frames of a port (R214): none while no Locon mode runs. -/
def State.skid (s : State) (p : Fin 16) : Option Nat :=
  let x := s.port p
  match x.payMode with
  | some m =>
    if !isLocon m then none else
    let pol := s.policy p
    let sf := max 7 x.tow.sf
    some (skidK (blockRate1000 m (isForward pol false) (x.loadB false) sf)
      (blockRate1000 m (isForward pol true) (x.loadB true) sf) * payLen m)
  | none => none

end Sys2Proof.Machine
end

