-- ==== Sys2Proof/Machine/Power.lean ====
section
/-! DEFINITION. The 245 power domains (R57 to R62, R69, R301): which domains the present state asks for, what each depends
on, and the one operation that brings requests and present domains in line. -/

namespace Sys2Proof.Machine

/-! ### Domain numbers (R57) -/

def portDomain (p : Fin 16) (k : Nat) : Nat := 9 * p.val + k
def reachDomain (r : Fin 4) (j : Nat) : Nat := 144 + 3 * r.val + j
def bankDomain (b : Nat) : Nat := 156 + b
def laneDomain (n : Fin 8) : Nat := 224 + n.val

/-- The domains that a domain depends on directly (R58). R58 does not name the crosstalk cancellers (144 + 3r + 2) and the
keeper's domains: DESIGN CHOICE (notes/assumptions/58.md), a canceller depends on its reach's clock spine and the keeper's
domains, like the line PLLs, on nothing. -/
def domainDeps (d : Nat) : List Nat :=
  if d < 144 then [144 + 3 * (d / 36) + 1]
  else if d < 156 then (if (d - 144) % 3 = 1 then [d - 1] else if (d - 144) % 3 = 2 then [d - 1] else [])
  else if d < 224 then [232]
  else if d < 232 then [233]
  else if 236 ≤ d ∧ d ≤ 243 then [232]
  else []

/-- Port domains of a mode (R69). -/
def modeDomains : LineMode → List Nat
  | .l50a | .l25s | .l10x => [0, 1, 2, 3, 4, 6, 7, 8]
  | .ldmt => [0, 1, 2, 5, 6, 7, 8]
  | .lchirp => [0, 1, 6, 7, 8]
  | _ => [0, 1, 2, 3, 4, 7, 8]

/-- Port domains of a mode in quiet or deep quiet (R301). -/
def quietDomains (m : LineMode) (deep : Bool) : List Nat :=
  if deep then [7, 8] else [0, 1, 6, 7, 8, if m == .ldmt then 5 else 4]

/-- Port domains that the mode or phase of a link needs, whatever its quiet or LPI state has switched off meanwhile (R62,
R69). Training towards LDMT is in the rows "training" and "LDMT" at once and needs both (DEDUCED, notes/assumptions/58.md). An
enabled port in HOLD, for which R69 has no row, needs none (DESIGN CHOICE, notes/assumptions/58.md). -/
def Port.needs (x : Port) : List Nat :=
  match x.link.state with
  | .disabled | .hold => []
  | .an | .stdTrain | .stdUp => [0, 1, 2, 3, 4, 7, 8]
  | .discover => [0, 1, 6]
  | .sound => [0, 1, 2, 3, 4, 6, 7, 8]
  | .echoLearn | .fullDuplex =>
    match x.link.train with
    | some .ldmt => [0, 1, 2, 3, 4, 5, 6, 7, 8]
    | _ => [0, 1, 2, 3, 4, 6, 7, 8]
  | .loconUp =>
    match x.link.modeAct with
    | some m => modeDomains m
    | none => []
  | .shift =>
    match x.link.shift with
    | some sh => (sh.touched.flatMap modeDomains).eraseDups
    | none => []
  | .diag => if x.tdr.wideNow then [0, 1, 2, 6] else [0, 1, 6]

/-- Port domains of a link phase (R69, R300, R301): what it needs, less what quiet, deep quiet or LPI has switched off. -/
def Port.domains (x : Port) : List Nat :=
  match x.link.state with
  | .stdUp => if x.quiet.lpiRx then [0, 1, 4, 7, 8] else x.needs
  | .loconUp =>
    match x.link.modeAct with
    | some m =>
      match x.quiet.state with
      | .quiet => quietDomains m false
      | .deep => quietDomains m true
      | _ => x.needs
    | none => []
  | _ => x.needs

/-- A port whose pattern generator or loopback runs while it is disabled needs its transmit path (R139, R413). -/
def testDomains (x : Port) : List Nat :=
  if x.test.loop then [0, 1, 2] else if x.tx.pattern ≠ 0 then [0] else []

/-- Domains of a port that its phase asks for. -/
def State.portWant (s : State) (p : Fin 16) : List Nat :=
  let x := s.port p
  let ks := if x.link.state == .disabled then testDomains x else x.domains
  ks.map (portDomain p)

/-- Domains of a port that its mode or phase needs (R62). -/
def State.portNeeds (s : State) (p : Fin 16) : List Nat := (s.port p).needs.map (portDomain p)

/-- A bank whose contents are still being copied or moved away keeps its power until that is done (R228, R229). -/
def State.bankBusy (s : State) (d : Nat) : Bool :=
  decide (156 ≤ d) && decide (d < 224) && (match s.basin.banks.toList.getD (d - 156) .spare with
    | .copying _ _ | .migrating _ => true
    | _ => false)

/-- A forced-off domain that keeps its power for now: a bank whose contents leave it, and the key store until its zeroising
is verified (R61, R417). -/
def State.offWaits (s : State) (d : Nat) : Bool := s.bankBusy d || (decide (d = 243) && s.keys.zeroising.isSome)

/-- Whether a domain is forced off by its register or by thermal level 3 (R61, R431). -/
def State.forcedOff (s : State) (d : Nat) : Bool :=
  (bit (s.reg (regKey 0 (0x10 + d / 32))) (d % 32) && !s.offWaits d) || (decide (d < 144) && decide (3 ≤ s.cal.level))

/-- Whether a port domain cannot be on because it, or the clock spine that it depends on, is forced off (R58, R62). -/
def State.gone (s : State) (d : Nat) : Bool := s.forcedOff d || s.forcedOff (145 + 3 * (d / 36))

/-- The domains of the PLLs that are not switched off (R45, R46, R56, R60). -/
def Clocks.domains (c : Clocks) : List Nat :=
  (if c.core.mode == .off then [] else [232]) ++ (if c.host.mode == .off then [] else [233])
    ++ (allReaches.filter (fun r => (c.reach.get r).mode != .off)).map (fun r => reachDomain r 0)

/-- Everything past the PLLs that a running part asks for (R57, R69). -/
def State.wantRunning (s : State) : List Nat :=
    [234, 235, 236, 237, 238, 239, 240, 241, 242, 243]
      ++ allReaches.map (fun r => reachDomain r 1)
      ++ (allReaches.filter (fun r => (portsOf r).any (fun p => s.enabled p))).map (fun r => reachDomain r 2)
      ++ (List.range 68).map bankDomain
      ++ (allLanes.filter (fun n => bit (s.laneReg n.val 0) 0)).map laneDomain
      ++ allPorts.flatMap s.portWant

/-- Everything the present state asks to be on, before force-off and dependencies (R57, R69): the management interfaces
answer from step 1 of R55 on (R56); after a REFCLK loss everything keeps its power and its clock until the safe-state
sequence is complete (R47). -/
def State.wantList (s : State) : List Nat :=
  match s.sup.stage with
  | .hardReset => []
  | .halted => [244]
  | .qualifying | .locking | .coreFailed => 244 :: s.clk.domains
  | .basinInit | .released => 244 :: s.clk.domains ++ s.wantRunning
  | .refclkLost => 244 :: s.clk.domains ++ (if s.sup.safeSeq then s.wantRunning else [])

/-- The mask of wanted domains after force-off. -/
def State.wantMask (s : State) : BitVec 256 := maskOf 256 (s.wantList.filter (fun d => !s.forcedOff d))

/-- One round of R58: a domain stays only while everything it depends on stays. -/
def depRound (m : BitVec 256) : BitVec 256 :=
  maskOf 256 ((maskList m).filter (fun d => (domainDeps d).all (fun e => m.getLsbD e)))

/-- Dependencies are at most three deep (port domain, spine, line PLL). -/
def depClose (m : BitVec 256) : BitVec 256 := depRound (depRound (depRound m))

/-- Brings the domains in line with the state (R58, R60): what is not wanted goes off at once, with its dependants, and
what is wanted and neither on nor switching is requested. -/
def State.syncDomains (s : State) : State :=
  let want := depClose s.wantMask
  let on := s.dom.on &&& want
  let sw := s.dom.switching &&& want
  { s with dom := { on := on, switching := sw, pending := want &&& ~~~on &&& ~~~sw } }

/-- The first eight requests whose dependencies are on, in domain-number order (R60). -/
def State.turnList (s : State) : List Nat :=
  ((maskList s.dom.pending).filter (fun d => (domainDeps d).all (fun e => s.dom.on.getLsbD e))).take 8

end Sys2Proof.Machine
end

