-- ==== Sys2Proof/Machine/Wave.lean ====
section
/-! DEFINITION. Signals in fixed point: the ramp gain (R132), the chirp waveform, its markers and runs (R88 to R97), the
training sequence (R80), the transmit FFE and the DAC (R121, R127 to R131, R136), the DMT symbol (R171 to R176, R183) and
the least-squares fits of R128 and R180. Roundings that no rule states are a DESIGN CHOICE (notes/assumptions/59.md). -/

namespace Sys2Proof.Machine

/-! ### Cosines and levels in fixed point -/

/-- π in 2^-48. -/
def piFix : Int := 884279719003555

/-- The cosine of an angle of at most a quarter turn, angle and result in 2^-48: 14 terms of its series. -/
def cosQuarter (th : Int) : Int :=
  let x2 := th * th / 2 ^ 48
  ((List.range 14).foldl (fun (st : Int × Int) k =>
    let t := -(st.2 * x2 / 2 ^ 48) / ((2 * k + 1) * (2 * k + 2) : Nat)
    (st.1 + t, t)) (2 ^ 48, 2 ^ 48)).1

/-- The cosine of `num / den` turns in 2^-48. -/
def cosTurn (num den : Nat) : Int :=
  let r := num % den
  let h := min r (den - r)
  if 4 * h ≤ den then cosQuarter (2 * piFix * h / den) else -cosQuarter (piFix * (den - 2 * h : Nat) / den)

/-- The sine of `num / den` turns in 2^-48. -/
def sinTurn (num den : Nat) : Int := cosTurn (4 * num + 3 * den) (4 * den)

/-- A quotient rounded to the nearest integer, halves upwards. -/
def roundDiv (a : Int) (b : Nat) : Int := (2 * a + b) / (2 * b : Nat)

/-- Ten to the power -db / 20 in 2^-40. -/
def dbAmp (db : Nat) : Nat := 2 ^ 40 * (10 ^ 15) ^ db / 1122018454301963 ^ db

/-- The largest k with 10^k ≤ a / b, near an estimate. -/
def log10Near (a b : Nat) (k0 : Int) : Int :=
  let ok := fun (k : Int) => if 0 ≤ k then decide (10 ^ k.toNat * b ≤ a) else decide (b ≤ a * 10 ^ (-k).toNat)
  (List.range 9).foldl (fun best i => let k := k0 - 4 + (i : Int); if ok k then k else best) (k0 - 5)

/-- floor(n log10(num / den)) for positive numbers. -/
def floorLog (n num den : Nat) : Int :=
  let a := num ^ n
  let b := den ^ n
  log10Near a b (((Nat.log2 a : Int) - (Nat.log2 b : Int)) * 30103 / 100000)

/-- round(100 log10(num / den)), saturated to 0 to 600 (R72): nothing below is 600, nothing above 0. -/
def tenthDb (num den : Nat) : Nat :=
  if den = 0 then 600 else if num = 0 then 0 else (clampI 0 600 ((floorLog 200 num den + 1) / 2)).toNat

/-- A cancellation depth in 0.1 dB (R151), rounded. -/
def depthDb (num den : Nat) : BitVec 16 :=
  if num = 0 ∨ den = 0 ∨ num < den then Config.openDepth num den
  else BitVec.ofInt 16 (min 65535 ((floorLog 200 num den + 1) / 2))

/-! ### The ramp gain (R132) -/

/-- The gain at step n of an effective length l, in 2^-49. -/
def rampGain (up : Bool) (l n : Nat) : Nat :=
  let c := cosTurn (n + 1) (2 * (l + 1))
  (if up then 2 ^ 48 - c else 2 ^ 48 + c).toNat

/-! ### Chirps (R90 to R97) -/

/-- One towpath symbol (R90): an up-chirp with its shift, or a down-chirp. -/
abbrev Chirp := Option Nat

/-- What a start marker begins (R94). -/
inductive Burst where
  | beacon | run | sounding
  deriving DecidableEq, Repr

/-- The two sync shifts of a marker. -/
def syncShifts (b : Burst) (sf : Nat) : List Nat :=
  let n := 2 ^ sf
  match b with
  | .beacon => [n / 8, 3 * n / 8]
  | .run => [n / 4, 3 * n / 4]
  | .sounding => [n / 2, n / 2]

/-- The twelve symbols of a start marker (R94). -/
def startMarker (b : Burst) (sf : Nat) : List Chirp :=
  List.replicate 8 (some 0) ++ (syncShifts b sf).map some ++ [none, none]

/-- Data shifts of a burst with a pilot after every fifteenth but the last (R95). -/
def withPilots : Nat → List Nat → List Chirp
  | _, [] => []
  | _, [k] => [some k]
  | n, k :: ks => if n % 15 = 14 then some k :: none :: withPilots (n + 1) ks else some k :: withPilots (n + 1) ks

/-- A beacon burst (R111), and a wide sounding burst (R115). -/
def beaconChirps (sf : Nat) (cell : List Byte) : List Chirp := startMarker .beacon sf ++ withPilots 0 (cellShifts sf cell)
def soundingChirps : List Chirp := startMarker .sounding 12 ++ List.replicate 16 (some 0)

/-- Data shifts of a continuous run from a symbol count on (R95): the symbol with s mod 16 = 15 is a pilot. -/
def runChirps : Nat → List Nat → List Chirp
  | _, [] => []
  | c, k :: ks => if c % 16 = 15 then none :: some k :: runChirps (c + 2) ks else some k :: runChirps (c + 1) ks

/-- 1 over the part of the chip rate that f_lo is (R88): 24 for the wide profile, 16 for the narrow one. -/
def profileQ (wide : Bool) : Nat := if wide then 24 else 16

/-- The phase of symbol j of a burst or run, counted from the first of its marker, `a / d` chips after its start, in turns
over 2 q N d² (R90): continuous, and 0 at the first chip of the marker. -/
def chirpPhase (wide : Bool) (sf j : Nat) (c : Chirp) (a d : Nat) : Nat :=
  let q := profileQ wide
  let n := 2 ^ sf
  let base := j * n * (2 * n * d ^ 2)
  match c with
  | some k => base + (2 * n * d * a + 2 * q * k * d * a + q * a ^ 2 - 2 * n * q * d * (a - (n - k) * d))
  | none => base + (2 * n * d * a * (1 + q) - q * a ^ 2)

/-- The signal of R90 over its amplitude, in 2^-48. -/
def chirpSample (wide : Bool) (sf j : Nat) (c : Chirp) (a d : Nat) : Int :=
  cosTurn (chirpPhase wide sf j c a d) (2 * profileQ wide * 2 ^ sf * d ^ 2)

/-- Timing offset of a pilot pair, in 1/512 chip, and frequency offset times T, in 1/512 bin (R96): u and v in 1/256 bin. -/
def pilotTau (u v : Int) : Int := v - u
def pilotFreq (u v : Int) : Int := u + v

/-- TP_TRACK.TOFF: the timing offset in 1/64 chip, rounded down. -/
def toffOf (u v : Int) : BitVec 16 := BitVec.ofInt 16 (clampI (-32768) 32767 (pilotTau u v / 8))

/-- TP_TRACK.FOFF: the clock offset ε = Δf / f_c in 1/16 ppm (R96, R120), rounded down; f_c is 812.5 MHz or 35.15625 MHz. -/
def foffOf (wide : Bool) (sf : Nat) (u v : Int) : BitVec 16 :=
  let x := pilotFreq u v * 16000000
  BitVec.ofInt 16 (clampI (-32768) 32767 (if wide then x * 24 / (512 * 13 * 2 ^ sf : Nat) else x * 16 / (512 * 9 * 2 ^ sf : Nat)))

/-- The Gray code of R92 undone. -/
def unGray (k : Nat) : Nat := (List.range 12).foldl (fun v i => v ^^^ (k >>> (i + 1))) k

/-- The decision of a data symbol (R97): its peak, and the pilot pair, in 1/256 bin. -/
def decideShift (sf : Nat) (peak u v : Int) : Nat :=
  (roundDiv (2 * peak - pilotFreq u v + pilotTau u v) 512 % ((2 ^ sf : Nat) : Int)).toNat

/-- The 32 bytes that the shifts of a cell spell (R92, R97). -/
def cellOfShifts (sf : Nat) (ks : List Nat) : List Byte :=
  let bits := ks.flatMap (fun k => (List.range sf).map (fun i => (unGray k).testBit (sf - 1 - i)))
  (groupBits 8 32 (bits.take 256)).map (BitVec.ofNat 8)

/-! ### The training sequence (R80) -/

/-- The bits of the PRBS31 generator from a state. -/
def prbsBits : Nat → BitVec 31 → List Bool
  | 0, _ => []
  | n + 1, s => let (t, s') := scrStep s; t :: prbsBits n s'

/-- The seed of an end (R80). -/
def trainSeed (leader : Bool) : BitVec 31 := if leader then 0x0F0F0F0F else 0x70707070

/-- Bits per symbol of a PAM mode. -/
def symbolBits (m : LineMode) : Nat := if pamOrder m = 8 then 3 else 2

/-- Bits of a Gray value of a PAM mode and the level index (R121, R122). -/
def levelIndex (m : LineMode) (g : Nat) : Nat := if pamOrder m = 8 then unGray3 g else unGray3 g % 4

/-- Levels 2c - (M - 1) (R121). -/
def levelOf (m : LineMode) (c : Nat) : Int := 2 * (c : Int) - ((pamOrder m : Int) - 1)

/-- The training symbol at which precoding begins in FULL_DUPLEX (R80, R123). -/
def precodeFrom : Nat := 65536

/-- The level indices of the first n training symbols of a phase (R80, R123): precoded from symbol 65,536 in the full-duplex
phase of a mode that uses precoding, the memory 0 there. -/
def trainIndices (m : LineMode) (leader precoded : Bool) (n : Nat) : List Nat :=
  let a := (groupBits (symbolBits m) n (prbsBits (symbolBits m * n) (trainSeed leader))).map (levelIndex m)
  if precoded then a.take precodeFrom ++ (precodeSeq (pamOrder m) 0 (a.drop precodeFrom)).1 else a

/-- The levels of the first n training symbols, every level negated from symbol `neg` on (R81, R122): the level of index
M - 1 - c. -/
def trainLevels (m : LineMode) (leader precoded : Bool) (neg : Option Nat) (n : Nat) : List Int :=
  (List.zip (List.range n) (trainIndices m leader precoded n)).map (fun e =>
    levelOf m (if neg.any (fun k => decide (k ≤ e.1)) then pamOrder m - 1 - e.2 else e.2))

/-! ### Transmit FFE, DAC, swing, spread (R121 steps 6 to 9, R127 to R131, R136) -/

/-- The six taps of two register images. -/
def ffeTaps (a b : Word) : List Int :=
  [sfld a 24 8, sfld a 16 8, sfld a 8 8, sfld a 0 8, sfld b 8 8, sfld b 0 8]

/-- Sum of magnitudes of the taps in use (R128). -/
def tapSum (a b : Word) : Nat := (ffeTaps a b).foldl (fun n c => n + c.natAbs) 0

/-- The filter output at symbol n over `max 64 Σ|c|` (R127, R128): Σ c_i x(n - i), i from -2 to 3; `at_` gives the levels. -/
def ffeOut (a b : Word) (at_ : Int → Int) (n : Int) : Int :=
  (List.zip (List.range 6) (ffeTaps a b)).foldl (fun acc e => acc + e.2 * at_ (n + 2 - (e.1 : Int))) 0

/-- The highest level of a mode. -/
def topLevel (m : LineMode) : Nat := pamOrder m - 1

/-- The main part of the DAC code (R129): ±480 codes at the full swing, after the ramp gain in 2^-49. -/
def mainCode (m : LineMode) (a b : Word) (y : Int) (gain : Nat) : Int :=
  roundDiv (480 * y * gain) (topLevel m * max 64 (tapSum a b) * 2 ^ 49)

/-- The underlay's part of the DAC code (R121 step 8, R129): a level of `db` below the main swing, a chirp in 2^-48. -/
def underlayCode (db : Nat) (chirp : Int) (gain : Nat) : Int := roundDiv (480 * dbAmp db * chirp * gain) (2 ^ (40 + 48 + 49))

/-- The DAC code (R129): 512 is zero differential output; 1,024 codes. -/
def dacCode (main underlay : Int) : Nat := (clampI 0 1023 (512 + main + underlay)).toNat

/-- The symbol that a DAC sample belongs to (R131): each return symbol is held for 4 samples. -/
def symbolOfSample (m : LineMode) (fwd : Bool) (i : Nat) : Nat := if m == .l50a && !fwd then i / 4 else i

/-- Test patterns (R138): n symbols of PRBS31 as PAM-4 from a generator state, which R138 leaves open; the square wave, 8
symbols at each level, a DESIGN CHOICE (notes/assumptions/59.md); and the sweep over the codes of the DAC. -/
def prbsLevels (g : BitVec 31) (n : Nat) : List Int :=
  (groupBits 2 n (prbsBits (2 * n) g)).map (fun v => levelOf .l25s (levelIndex .l25s v))
def squareLevel (n : Nat) : Int := if n % 16 < 8 then 3 else -3
def sweepCode (n : Nat) : Nat := n % 1024

/-- DAC samples per second, in thousands (R130, R131). -/
def dacRate (m : LineMode) (fwd : Bool) : Nat :=
  match m with
  | .l50a => if fwd then 28125000 else 5625000
  | .lchirp => 1406250
  | m => stepRate (some m) false fwd

/-- The swing in µV (R130): the nominal one in 10 mV units, SWING_ADJ in per cent. -/
def swingUv (nominal : Nat) (adj : Int) : Int := (nominal : Int) * 100 * (100 + adj)

/-- A slope of the triangle of R136 in ticks, 64 ms, and its depth in 1/1000 ppm. -/
def spreadHalf : Nat := 10000000
def spreadDepth : Nat := 1000000

/-- The line down-spread at a phase of the triangle in ticks (R136), in 1/1000 ppm below nominal. -/
def spreadAt (phase : Nat) : Nat :=
  let r := phase % (2 * spreadHalf)
  spreadDepth * (if r ≤ spreadHalf then r else 2 * spreadHalf - r) / spreadHalf

/-! ### The DMT symbol (R171 to R176, R183) -/

/-- Bits of the in-phase and the quadrature axis of a b-bit constellation (R175). -/
def axisBits (b : Nat) : Nat × Nat := (b - b / 2, b / 2)

/-- The Gray value of R122 undone for any width. -/
def axisLevel (bs : List Bool) : Int :=
  if bs.isEmpty then 0 else 2 * (unGray (bitsVal bs) : Int) - (2 ^ bs.length - 1 : Nat)

/-- The point of a label before the division by √E (R175): b = 1 lies on the in-phase axis. -/
def labelPoint (bs : List Bool) : Int × Int :=
  let (ni, _) := axisBits bs.length
  (axisLevel (bs.take ni), axisLevel (bs.drop ni))

/-- E of a b-bit constellation (R175). -/
def meanEnergy (b : Nat) : Nat := let (ni, nq) := axisBits b; ((4 ^ ni - 1) + (4 ^ nq - 1)) / 3

/-- What a used carrier sends: the point before its scaling, and E. -/
abbrev DmtPoint := (Int × Int) × Nat

/-- The pilot (R173): (1 + j)/√2. -/
def pilotPoint : DmtPoint := ((1, 1), 2)

/-- A carrier that sends nothing. -/
def noPoint : DmtPoint := ((0, 0), 1)

/-- The points of carriers from index i on and what is left of the stream (R175): pilots and carriers without bits take
none. -/
def fillCarriers : Nat → List Nat → List Bool → List DmtPoint × List Bool
  | _, [], bs => ([], bs)
  | i, b :: l, bs =>
    if isPilot i then
      let (ps, r) := fillCarriers (i + 1) l bs
      (pilotPoint :: ps, r)
    else if b = 0 then
      let (ps, r) := fillCarriers (i + 1) l bs
      (noPoint :: ps, r)
    else
      let (ps, r) := fillCarriers (i + 1) l (bs.drop b)
      ((labelPoint (bs.take b), meanEnergy b) :: ps, r)

/-- The DMT symbols that a stream fills at a loading, and the bits that wait for the next one (R176); `fuel` bounds them. -/
def pourSymbols (g : Loading) : Nat → List Bool → List (List DmtPoint) × List Bool
  | 0, bs => ([], bs)
  | n + 1, bs =>
    if g.b = 0 ∨ bs.length < g.b then ([], bs)
    else
      let (ps, r) := fillCarriers 4 g.bits bs
      let (qs, r') := pourSymbols g n r
      (ps :: qs, r')

/-- RS symbols of a group of I codewords in the order of R176: symbol j of codeword m takes position j I + m. -/
def interleave (group : List (List (BitVec 10))) : List (BitVec 10) :=
  (List.range 400).flatMap (fun j => group.map (fun w => w.getD j 0))

/-- Two bits on every used non-pilot carrier. -/
def fourQam : List Nat := carriers.map (fun i => if isPilot i then 0 else 2)

/-- The LDMT training pattern of `n` symbols (R185): 2 PRBS31 bits on each used non-pilot carrier, in carrier order and
continuously across symbols. -/
def dmtTraining (leader : Bool) (n : Nat) : List (List DmtPoint) :=
  (pourSymbols { bits := fourQam, b := 4056, i := 1 } n (prbsBits (4056 * n) (trainSeed leader))).1

/-- A point negated; a pilot is never negated (R173). -/
def negPoint (i : Nat) (x : DmtPoint) : DmtPoint := if isPilot i then x else ((-x.1.1, -x.1.2), x.2)

/-- Flag A and flag B (R183): the training pattern restarted at the symbol, and its negative. -/
def flagA (leader : Bool) : List DmtPoint := (dmtTraining leader 1).headD []
def flagB (leader : Bool) : List DmtPoint := List.zipWith negPoint carriers (flagA leader)

/-- The correlation of received points with a symbol over the non-pilot carriers, and its value for a perfect reception
(R183). -/
def correlation (ref : List DmtPoint) (rx : List (Int × Int)) : Int :=
  (List.zip carriers (List.zip ref rx)).foldl (fun acc e =>
    if isPilot e.1 then acc else acc + e.2.1.1.1 * e.2.2.1 + e.2.1.1.2 * e.2.2.2) 0

/-- The bits of a table message on a table symbol's carriers (R184): one bit on carriers 4 to 259 but pilots 64 and 192. -/
def tableLoading : Loading := { bits := (List.range 2044).map (fun k => if k < 256 ∧ !isPilot (k + 4) then 1 else 0), b := 254, i := 1 }

/-- The 34 symbols of a table message (R184): flag A, then 33 table symbols, not scrambled. -/
def tableSymbols (leader : Bool) (msg : List Byte) : List (List DmtPoint) :=
  let bits := msg.flatMap byteBits
  flagA leader :: (pourSymbols tableLoading 33 ((bits ++ List.replicate 254 false).take (33 * 254))).1

/-- Ten to the power x / 20,000 as a fraction, for a loss x in 0.001 dB. -/
def lossAmp (x : Int) : Nat × Nat :=
  let up := 1122018454301963 ^ (x.natAbs / 1000) * 1000115135882277 ^ (x.natAbs % 1000)
  let dn := (10 ^ 15) ^ (x.natAbs / 1000 + x.natAbs % 1000)
  if 0 ≤ x then (up, dn) else (dn, up)

/-- The cable-model loss at carrier i in 0.001 dB, rounded down. -/
def carrierLoss (x : Sounding) (i : Nat) : Int :=
  let root : Int := isqrt (x.a.natAbs ^ 2 * 5 * i / 4096)
  (if x.a < 0 then -root else root) + x.b * 5 * i / 4096 + x.c

/-- Tap k of a response lies this many sixteenths of a chip after the transmission: it starts 64 taps before the main peak
(R117). -/
def tapDelay (x : Sounding) (k : Nat) : Int := (x.delay : Int) + 16 * ((k : Int) - 64)

/-- Turns of carrier i over a delay in sixteenths of a chip, over 98,304: f T is 5 i / 6,144 per chip. -/
def carrierTurn (i : Nat) (d : Int) : Nat := ((5 * (i : Int) * d) % 98304).toNat

/-- The sounded channel response at carrier i, real and imaginary part in 2^-48 of a tap unit (R181). -/
def channelAt (x : Sounding) (i : Nat) : Int × Int :=
  (List.zip (List.range x.cir.length) x.cir).foldl (fun (acc : Int × Int) e =>
    let n := carrierTurn i (tapDelay x e.1)
    (acc.1 + e.2.toInt * cosTurn n 98304, acc.2 - e.2.toInt * sinTurn n 98304)) (0, 0)

/-- A rational rounded and saturated to a coefficient. -/
def coefOf (num : Int) (den : Nat) : BitVec 16 := BitVec.ofInt 16 (clampI (-32768) 32767 (roundDiv num den))

/-- The seed of W(i) in 1/4096 (R181): the inverse of the sounded response, full scale ±1.0, inside the sounding band; outside
it the cable model's magnitude and the main-peak delay's phase. A response of 0 has no inverse. -/
def eqSeed (x : Sounding) (i : Nat) : BitVec 16 × BitVec 16 :=
  if 52 ≤ i ∧ i ≤ 1280 then
    let h := channelAt x i
    let m := (h.1 ^ 2 + h.2 ^ 2).toNat
    if m = 0 then Config.eqSeed x i else (coefOf (h.1 * 2 ^ 75) m, coefOf (-h.2 * 2 ^ 75) m)
  else
    let (u, d) := lossAmp (carrierLoss x i)
    let n := carrierTurn i x.delay
    (coefOf (cosTurn n 98304 * 4096 * u) (2 ^ 48 * d), coefOf (sinTurn n 98304 * 4096 * u) (2 ^ 48 * d))

/-- The seeds of carriers 4 to 2047. -/
def eqSeeds (x : Sounding) : List (BitVec 16 × BitVec 16) := carriers.map (eqSeed x)

/-- A complex number in 2^-24. -/
abbrev Cx := Int × Int

def cxAdd (a b : Cx) : Cx := (a.1 + b.1, a.2 + b.2)
def cxSub (a b : Cx) : Cx := (a.1 - b.1, a.2 - b.2)
def cxMul (a b : Cx) : Cx := ((a.1 * b.1 - a.2 * b.2) / 2 ^ 24, (a.1 * b.2 + a.2 * b.1) / 2 ^ 24)

/-- e^(2πj k/n) in 2^-24. -/
def cxUnit (k n : Nat) : Cx := (roundDiv (cosTurn k n) (2 ^ 24), roundDiv (sinTurn k n) (2 ^ 24))

/-- The elements of even and of odd index. -/
def evens : List Cx → List Cx
  | [] => []
  | [a] => [a]
  | a :: _ :: l => a :: evens l
def odds : List Cx → List Cx
  | [] => []
  | [_] => []
  | _ :: b :: l => b :: odds l

/-- The sum Σ X(i) e^(2πj i n / 2^k) of an inverse FFT over 2^k points (R171 step 1). -/
def ifft : Nat → List Cx → List Cx
  | 0, l => l
  | k + 1, l =>
    let e := ifft k (evens l)
    let o := List.zipWith (fun i x => cxMul (cxUnit i (2 ^ (k + 1))) x) (List.range (2 ^ k)) (ifft k (odds l))
    List.zipWith cxAdd e o ++ List.zipWith cxSub e o

/-- 1/√E in 2^-24. -/
def invRoot (e : Nat) : Int := (isqrt (2 ^ 48 / max 1 e) : Nat)

/-- The transmit vector of R171: carriers 0 to 3 and 2048 carry 0, and X(4,096 - i) = conj(X(i)). -/
def dmtVector (ps : List DmtPoint) : List Cx :=
  let half := List.replicate 4 (0, 0) ++ ps.map (fun (x : DmtPoint) => (x.1.1 * invRoot x.2, x.1.2 * invRoot x.2))
  half ++ [(0, 0)] ++ (half.drop 1).reverse.map (fun x => (x.1, -x.2))

/-- The output in µV (R172): 2,044 carriers of unit energy give 0.14 V rms. Each carrier and its conjugate give an rms of √2
of their amplitude, so the amplitude of one is 0.14 V / √4088. -/
def dmtVolts (ps : List DmtPoint) : List Int :=
  (ifft 12 (dmtVector ps)).map (fun x => roundDiv (x.1 * 140000 * 2 ^ 20) (2 ^ 24 * isqrt (4088 * 2 ^ 40)))

/-- The 4,506 samples of a symbol: the last 410 of the 4,096 are prepended (R171). -/
def withPrefix (l : List Int) : List Int := l.drop (4096 - 410) ++ l

/-- Samples of a symbol beyond ±0.6 V (R172). -/
def clippedCount (l : List Int) : Nat := (l.filter (fun v => decide (600000 < v.natAbs))).length

/-- The main part of the DAC code of a DMT sample in µV: clipped at ±0.6 V, which is ±480 codes. -/
def dmtCode (uv : Int) (gain : Nat) : Int := roundDiv (clampI (-600000) 600000 uv * 480 * gain) (600000 * 2 ^ 49)

end Sys2Proof.Machine
end

