-- ==== Sys2Proof/Machine/Cells.lean ====
section
/-! DEFINITION. Towpath cells: layout (R75, R102 to R105, R222, R282, R303), MAC and CRC (R103, R109), the sending order
(R107, R108), the symbol count (R95, R96) and the acceptance rules of R107. -/

namespace Sys2Proof.Machine

/-! ### Sub-records of a port -/

def State.modLink (s : State) (p : Fin 16) (f : Link → Link) : State :=
  s.modPort p (fun x => { x with link := f x.link })
def State.modTow (s : State) (p : Fin 16) (f : Towpath → Towpath) : State :=
  s.modPort p (fun x => { x with tow := f x.tow })
def State.modTx (s : State) (p : Fin 16) (f : TxPath → TxPath) : State :=
  s.modPort p (fun x => { x with tx := f x.tx })
def State.modRx (s : State) (p : Fin 16) (f : RxPath → RxPath) : State :=
  s.modPort p (fun x => { x with rx := f x.rx })
def State.modDmt (s : State) (p : Fin 16) (f : Dmt → Dmt) : State :=
  s.modPort p (fun x => { x with dmt := f x.dmt })
def State.modSnd (s : State) (p : Fin 16) (f : Sender → Sender) : State :=
  s.modPort p (fun x => { x with snd := f x.snd })
def State.modRcv (s : State) (p : Fin 16) (f : Receiver → Receiver) : State :=
  s.modPort p (fun x => { x with rcv := f x.rcv })
def State.modQuiet (s : State) (p : Fin 16) (f : Quiet → Quiet) : State :=
  s.modPort p (fun x => { x with quiet := f x.quiet })

/-! ### Types and classes (R104, R108, R221) -/

/-- Authenticated types (R104). -/
def cellAuth (t : Byte) : Bool := decide (1 ≤ t.toNat ∧ t.toNat ≤ 0x0B)

/-- Types that ask for acknowledgement (R104): the authenticated ones except CAP and CACK. -/
def cellWantsAck (t : Byte) : Bool := cellAuth t && t != 1 && t != 6

/-- Types that also travel in the control slot (R221). -/
def cellInSlot (t : Byte) : Bool := [4, 5, 6, 7, 9, 10, 11].contains t.toNat

/-- The priority class of a type (R108). -/
def cellClass (t : Byte) : Nat :=
  match t.toNat with
  | 4 | 5 => 1
  | 6 => 2
  | 2 | 3 | 10 | 11 => 3
  | 7 => 4
  | 8 | 9 => 5
  | 0x10 => 6
  | _ => 7

/-! ### Payloads -/

/-- The 24-byte payload of a CAP cell (R75). -/
def capPayload (c : CapCell) : List Byte :=
  let b1 := (if c.ack then 128 else 0) + c.role.toNat * 32 + c.modes.toNat
  let b2 := c.dir.toNat * 64 + (if c.hop then 32 else 0) + (if c.through then 16 else 0) + (if c.precode then 8 else 0)
    + (if c.spreadOk then 4 else 0)
  padTo 24 ([BitVec.ofNat 8 (16 + c.seq.toNat), BitVec.ofNat 8 b1, BitVec.ofNat 8 b2, c.keyIdx]
    ++ bytesBE 2 c.rxMax.toNat ++ bytesBE 2 c.txMax.toNat ++ bytesBE 6 c.nonce.toNat ++ [c.winExp, 0]
    ++ bytesBE 3 c.oui.toNat)

/-- MODE payload (R105). -/
def modePayload (c : ModeCell) : List Byte :=
  padTo 24 [BitVec.ofNat 8 c.code.toNat,
    BitVec.ofNat 8 ((if c.precode then 1 else 0) + (if c.leaderSpread then 2 else 0) + (if c.followerMay then 4 else 0)),
    c.wideSf, c.lchirpSf]

/-- GO payload (R105). -/
def goPayload (count : Word) (seedL seedF : BitVec 31) : List Byte :=
  padTo 24 (bytesBE 4 count.toNat ++ bytesBE 4 seedL.toNat ++ bytesBE 4 seedF.toNat)

/-- SHIFT and SHIFT_REQ payload (R105). -/
def shiftPayload (target kind dir sf : Nat) : List Byte :=
  padTo 24 [BitVec.ofNat 8 target, BitVec.ofNat 8 kind, BitVec.ofNat 8 dir, BitVec.ofNat 8 sf]

/-- CACK payload (R105). -/
def cackPayload (counter : Word) (type : Byte) : List Byte := padTo 24 (bytesBE 4 counter.toNat ++ [type])

/-- TPSF payload (R105). -/
def tpsfPayload (sf : Nat) (lchirp : Bool) (count : Word) : List Byte :=
  padTo 24 ([BitVec.ofNat 8 sf, if lchirp then 1 else 0] ++ bytesBE 4 count.toNat)

/-- NONCE payload (R105). -/
def noncePayload (n : BitVec 48) : List Byte := padTo 24 (bytesBE 6 n.toNat)

/-- REMOTE payload (R222). -/
def remotePayload (op : Byte) (answer : Bool) (reqId : BitVec 16) (tag status : Byte) (arg : BitVec 128) : List Byte :=
  padTo 24 ([op, if answer then 1 else 0] ++ bytesBE 2 reqId.toNat ++ [tag, status, 0, 0] ++ bytesBE 16 arg.toNat)

/-- QUIET payload (R303). -/
def quietPayload (kind : Nat) (c : QuietCell) : List Byte :=
  padTo 24 ([BitVec.ofNat 8 (kind * 16 + if c.deep then 1 else 0)] ++ bytesBE 4 c.entry.toNat ++ bytesBE 4 c.xq.toNat
    ++ bytesBE 2 c.xchip.toNat ++ bytesBE 4 c.dur.toNat ++ [c.qsf])

/-! ### Layout, CRC and MAC (R102, R103, R109) -/

/-- The pairing key in use on a port, while its store holds it. -/
def State.linkKey (s : State) (p : Fin 16) : Option (BitVec 128) :=
  match (s.port p).tow.keyInUse with
  | some k => (s.keys.keys.find? (fun e => e.1 == k)).map (·.2)
  | none => none

/-- The MAC field of a cell (R109): bits [127:96] of the tag over both nonces, the counter and bytes 0 to 25. -/
def macOf (key : Option (BitVec 128)) (own partner : BitVec 48) (counter : Word) (head : List Byte) : Word :=
  match key with
  | some k => cmacWord k (bytesBE 6 own.toNat ++ bytesBE 6 partner.toNat ++ bytesBE 4 counter.toNat ++ head)
  | none => 0

/-- A whole cell (R102). -/
def cellBytes (key : Option (BitVec 128)) (own partner : BitVec 48) (counter : Word) (c : TxCell) : List Byte :=
  let sub := if cellAuth c.type then BitVec.ofNat 8 counter.toNat else c.sub
  let head := c.type :: sub :: padTo 24 c.payload
  let mac := if cellAuth c.type then macOf key own partner counter head else 0
  let body := head ++ bytesBE 4 mac.toNat
  body ++ bytesBE 2 (crc16 body).toNat

/-- Whether a 32-byte cell passes its CRC (R103). -/
def cellCrcOk (b : List Byte) : Bool := b.length == 32 && decide (beAt b 30 2 = (crc16 (b.take 30)).toNat)

/-! ### The symbol count (R95, R96) -/

/-- The count after `l` more data symbols: the symbol with s mod 16 = 15 is a pilot. -/
def advanceCount (s : Word) (l : Nat) : Word :=
  let r := s.toNat % 16
  let d := r + l - 1
  (s - BitVec.ofNat 32 r) + BitVec.ofNat 32 (d + d / 15 + 1)

/-- Data symbols per cell of the run in progress. -/
def Towpath.perCell (t : Towpath) : Nat := cellSymbols (max 7 t.sf)

/-- The target of the underlay level (R89, R99, R100): 24 dB in training, else UNDERLAY_LVL; held in quiet. -/
def State.levelTarget (s : State) (p : Fin 16) : Nat :=
  match (s.port p).link.state with
  | .echoLearn | .fullDuplex => 24
  | _ => if (s.port p).quiet.state == .active then fld (s.portReg p 0x20) 0 6 else (s.port p).tow.level

/-- The level after `n` group boundaries: 1 dB at each (R100). -/
def stepLevel (level target n : Nat) : Nat :=
  if level < target then min target (level + n) else max target (level - n)

/-! ### Sending (R107, R108) -/

/-- A cell made ready to send. -/
def State.queueCell (s : State) (p : Fin 16) (type : Nat) (payload : List Byte) : State :=
  s.modTow p (fun t => { t with ready := t.ready ++ [{ type := BitVec.ofNat 8 type, payload := payload }] })

/-- Whether blocks flow on a port (R221): a mode with blocks is running and not in quiet. -/
def Port.blocksFlow (x : Port) : Bool :=
  x.link.blocksOn && x.quiet.state == .active

/-- Whether the port runs LCHIRP, where the slot carries no cells (R221). -/
def Port.inLchirp (x : Port) : Bool :=
  match x.link.shift with
  | some sh => if sh.acked then sh.target == .lchirp else x.link.modeAct == some .lchirp
  | none => x.link.modeAct == some .lchirp

/-- What the cell slot can be given to: a cell ready for its first send, or one due for a resend. -/
inductive SlotPick where
  | fresh (i : Nat) (c : TxCell)
  | again (a : AwaitCell)
  | idle
  deriving DecidableEq, Repr

/-- The sending limit of R107: the next counter lies less than 64 above the lowest one still awaited. -/
def Towpath.mayCount (t : Towpath) : Bool :=
  t.await.all (fun a => decide ((t.txCtr + 1 - a.counter).toNat < 64))

/-- Whether a ready cell may be sent now. -/
def Towpath.maySend (t : Towpath) (c : TxCell) : Bool := !cellAuth c.type || c.type == 1 || t.mayCount

/-- The best of a list of ready cells by class, first come first among equals. -/
def bestFresh (t : Towpath) : List TxCell → Nat → Option (Nat × TxCell) → Option (Nat × TxCell)
  | [], _, b => b
  | c :: cs, i, b =>
    let b' := if t.maySend c then
        match b with
        | some (_, x) => if cellClass c.type < cellClass x.type then some (i, c) else b
        | none => some (i, c)
      else b
    bestFresh t cs (i + 1) b'

/-- The pick of R108: highest class first, a resend ahead of a first send of its class. In LCHIRP with a block waiting at
most three cells of classes 1 to 5 go in a row before one BLOCK cell. -/
def Towpath.pick (t : Towpath) (lchirp : Bool) : SlotPick :=
  let blockFirst := lchirp && decide (3 ≤ t.rowCells) && t.ready.any (fun c => c.type == 0x10)
  if blockFirst then
    match t.ready.findIdx? (fun c => c.type == 0x10) with
    | some i => .fresh i (t.ready.getD i { type := 0x10, payload := [] })
    | none => .idle
  else
    let f := bestFresh t t.ready 0 none
    let a := (t.await.filter (·.due)).foldl (fun (b : Option AwaitCell) x =>
      match b with
      | some y => if cellClass x.cell.type < cellClass y.cell.type then some x else b
      | none => some x) none
    match a, f with
    | some x, some (i, c) => if cellClass c.type < cellClass x.cell.type then .fresh i c else .again x
    | some x, none => .again x
    | none, some (i, c) => .fresh i c
    | none, none => .idle

/-- The nonce that stands for the partner in the MAC of what this end sends (R109): the old one until the CACK of the
partner's NONCE has been sent. -/
def Towpath.peerNonce (t : Towpath) : BitVec 48 := t.peerHeld.getD t.rx.nonce

/-- Whether a cell is the CACK of a NONCE. -/
def isNonceAck (c : TxCell) : Bool := c.type == 6 && c.payload.getD 4 0 == 0x0B

/-- A cell put on the wire (R92, R95, R108): its chirps follow, the count moves on, the level steps at each group boundary,
and a copy goes to the slot. In LCHIRP the cells of classes 1 to 5 in a row are counted; BLOCK and IDLE end a row. -/
def Towpath.onWire (t : Towpath) (bytes : List Byte) (counter : Word) (type : Byte) (slot lchirp : Bool) (target : Nat) :
    Towpath :=
  let c' := advanceCount t.symCount t.perCell
  let groups := (c' - t.symCount).toNat / 16 + (if c'.toNat % 16 < t.symCount.toNat % 16 then 1 else 0)
  { t with
    symCount := c'
    level := stepLevel t.level target groups
    lastCell := bytes
    chirps := runChirps t.symCount.toNat (cellShifts (max 7 t.sf) bytes)
    rowCells := if lchirp && decide (cellClass type ≤ 5) then t.rowCells + 1 else 0
    slotQueue := if slot && cellInSlot type then t.slotQueue ++ [(counter, bytes)] else t.slotQueue }

/-- The first pilot after a symbol count (R95). -/
def pilotAfter (c : Word) : Word := c + 1 + BitVec.ofNat 32 (15 - (c.toNat + 1) % 16)

/-- The last pilot before a symbol count. -/
def pilotBefore (c : Word) : Word := c - 1 - BitVec.ofNat 32 (c.toNat % 16)

/-- GO and TPSF name a count 64 symbols after the cell that carries it (R101, R106), an early EXIT one 8 symbols after it
(R308), a TIME REQ the next pilot (R283): it is fixed as the cell is sent. -/
def fixCount (t : Towpath) (c : TxCell) : TxCell :=
  let last := advanceCount t.symCount t.perCell - 1
  if c.type == 3 then
    { c with payload := bytesBE 4 (last + 64).toNat ++ (padTo 24 c.payload).drop 4 }
  else if c.type == 10 then
    let n := last + 64
    let g := n + BitVec.ofNat 32 ((16 - n.toNat % 16) % 16)
    { c with payload := (padTo 24 c.payload).take 2 ++ bytesBE 4 g.toNat ++ (padTo 24 c.payload).drop 6 }
  else if c.type == 9 && beAt c.payload 0 1 / 16 == 1 && beAt c.payload 5 4 == 0 then
    { c with payload := (padTo 24 c.payload).take 5 ++ bytesBE 4 (last + 8).toNat ++ (padTo 24 c.payload).drop 9 }
  else if c.type == 8 && beAt c.payload 0 1 / 16 == 0 then
    { c with payload := (padTo 24 c.payload).take 16 ++ bytesBE 4 (pilotAfter last).toNat ++ (padTo 24 c.payload).drop 20 }
  else c

/-- A first send (R107, R109): an authenticated cell takes the counter advanced by 1, CAP carries 0. -/
def State.sendFresh (s : State) (p : Fin 16) (i : Nat) (c0 : TxCell) : State :=
  let x := s.port p
  let t := x.tow
  let c := fixCount t c0
  let ctr := if cellAuth c.type && c.type != 1 then t.txCtr + 1 else t.txCtr
  let cc : Word := if c.type == 1 then 0 else ctr
  let bytes := cellBytes (s.linkKey p) t.nonce t.peerNonce cc c
  let t1 := { t with
    ready := t.ready.eraseIdx i
    txCtr := ctr
    await := if cellWantsAck c.type then t.await ++ [({ counter := cc, cell := c, bytes := bytes, sends := 1 } : AwaitCell)] else t.await
    reqS2 := if c.type == 8 && beAt c.payload 0 1 / 16 == 0 then some (BitVec.ofNat 32 (beAt c.payload 16 4)) else t.reqS2
    goCount := if c.type == 3 then some (BitVec.ofNat 32 (beAt c.payload 0 4), false) else t.goCount
    peerHeld := if isNonceAck c then none else t.peerHeld
    tpsf := if c.type == 10 then t.tpsf.map (fun (r : TpsfRec) => { r with count := BitVec.ofNat 32 (beAt c.payload 2 4) }) else t.tpsf }
  s.modTow p (fun _ => t1.onWire bytes cc c.type (x.blocksFlow && !x.inLchirp) x.inLchirp (s.levelTarget p))

/-- A resend, bit for bit and with the same counter (R107). -/
def State.sendAgain (s : State) (p : Fin 16) (a : AwaitCell) : State :=
  let x := s.port p
  let t := { x.tow with await := x.tow.await.map (fun (e : AwaitCell) =>
    if e.counter = a.counter ∧ e.due then { e with sends := e.sends + 1, due := false } else e) }
  s.modTow p (fun _ => t.onWire a.bytes a.counter a.cell.type (x.blocksFlow && !x.inLchirp) x.inLchirp (s.levelTarget p))

/-- The next cell slot of a continuous run (R96, R108): the pick is sent, or IDLE. -/
def State.cellSlot (s : State) (p : Fin 16) : State :=
  let x := s.port p
  match x.tow.pick x.inLchirp with
  | .fresh i c => s.sendFresh p i c
  | .again a => s.sendAgain p a
  | .idle => s.modTow p (fun t => t.onWire (cellBytes none 0 0 0 { type := 0, payload := [] }) 0 0 false x.inLchirp (s.levelTarget p))

/-- A CACK for one accepted cell (R104, R105). -/
def State.ackCell (s : State) (p : Fin 16) (counter : Word) (type : Nat) : State :=
  s.queueCell p 6 (cackPayload counter (BitVec.ofNat 8 type))

/-! ### Acceptance (R107) -/

/-- How an authenticated cell whose MAC verified is taken. -/
inductive Taken where
  | acts | duplicate | late
  deriving DecidableEq, Repr

/-- The distance v - H of the full counter whose low byte is CSEQ, in -128 to 127 (R107). -/
def ctrDelta (h : Word) (cseq : Byte) : Int := (cseq - BitVec.ofNat 8 h.toNat).toInt

/-- Handling by the reconstructed counter (R107): the new record and how the cell is taken. -/
def RxCtr.take (r : RxCtr) (cseq : Byte) : Taken × RxCtr × Word :=
  let d := ctrDelta r.h cseq
  let v := r.h + BitVec.ofInt 32 d
  if 0 < d then
    (.acts, { r with h := v, seen := (r.seen <<< d.toNat) ||| 1, unacked := r.unacked <<< d.toNat }, v)
  else if -63 ≤ d then
    let i := d.natAbs
    if r.seen.getLsbD i then (.duplicate, r, v)
    else (.acts, { r with seen := setBit r.seen i true }, v)
  else (.late, r, v)

/-- One authenticated cell accepted or not (R107, R109): the counter state that verified it moves on; a duplicate is
counted; the tally counts accepted cells (port 9), duplicates (port 12). The result says how the cell is taken. -/
def State.takeCell (s : State) (p : Fin 16) (h : CellHdr) : Taken × Word × State :=
  let t := (s.port p).tow
  match h.underOld, t.rxOld with
  | true, some old =>
    let (k, r, v) := old.take h.cseq
    let s1 := s.modTow p (fun t => { t with rxOld := some r })
    (k, v, s1.count (portBlock p.val) (if k == .acts then 9 else 12) 1)
  | _, _ =>
    let (k, r, v) := t.rx.take h.cseq
    let s1 := s.modTow p (fun t => { t with rx := r })
    (k, v, s1.count (portBlock p.val) (if k == .acts then 9 else 12) 1)

/-- The receive record that a cell's header points at. -/
def State.modRecord (s : State) (p : Fin 16) (h : CellHdr) (f : RxCtr → RxCtr) : State :=
  s.modTow p (fun t =>
    match h.underOld, t.rxOld with
    | true, some old => { t with rxOld := some (f old) }
    | _, _ => { t with rx := f t.rx })

/-- A cell that was recorded and not acknowledged. -/
def RxCtr.declined (r : RxCtr) (v : Word) : Bool := r.unacked.getLsbD (r.h - v).toNat
def RxCtr.decline (r : RxCtr) (v : Word) : RxCtr := { r with unacked := setBit r.unacked (r.h - v).toNat true }

/-- The receive record of a cell's header. -/
def State.rxRecord (s : State) (p : Fin 16) (h : CellHdr) : RxCtr :=
  let t := (s.port p).tow
  match h.underOld, t.rxOld with
  | true, some old => old
  | _, _ => t.rx

/-- A duplicate is acknowledged again (R107), if the first copy was. -/
def State.ackAgain (s : State) (p : Fin 16) (h : CellHdr) (v : Word) (type : Nat) : State :=
  if (s.rxRecord p h).declined v then s else s.ackCell p v type

/-- Runs `act` on a cell that acts and acknowledges it; acknowledges a duplicate again; discards a late copy (R107). -/
def State.withCell (s : State) (p : Fin 16) (h : CellHdr) (type : Nat) (act : State → State) : State :=
  let (k, v, s1) := s.takeCell p h
  match k with
  | .acts => act (s1.ackCell p v type)
  | .duplicate => s1.ackAgain p h v type
  | .late => s1

/-- As `withCell`, for a cell that the receiver may decline: `ok` says whether it acts and is acknowledged. A declined cell
is recorded (R107), and its later copies are duplicates that nothing acknowledges. -/
def State.withCellIf (s : State) (p : Fin 16) (h : CellHdr) (type : Nat) (ok : Bool) (act : State → State) : State :=
  let (k, v, s1) := s.takeCell p h
  match k with
  | .acts => if ok then act (s1.ackCell p v type) else s1.modRecord p h (fun r => r.decline v)
  | .duplicate => s1.ackAgain p h v type
  | .late => s1

end Sys2Proof.Machine
end

