-- ==== Sys2Proof/Machine/Link.lean ====
section
/-! DEFINITION. The link operations of a port: ramps (R132 to R135), crosstalk paths (R152 to R155), entering each link
state (R73, R81, R83), going down (R83), coming up, seeding and starting blocks (R81, R126, R143, R150), shifts (R85 to
R87) and the automatic gains and taps (R128, R144, R148). -/

namespace Sys2Proof.Machine

/-! ### Test patterns (R138, R139) -/

/-- PATTERN as it acts (R138, R139): 5 to 7 act as 0, and 4 needs a forced standard mode. -/
def State.patternAct (s : State) (p : Fin 16) : Nat :=
  let n := fld (s.portReg p 0x17) 0 3
  if n = 4 then (match s.reqMode p with | some m => if isLocon m then 0 else 4 | none => 0)
  else if 5 ≤ n then 0 else n

/-- The mode whose baud a pattern runs at (R139): that of the forced Locon MODE_REQ, else L25S; pattern 4 runs at its standard
mode's. -/
def State.patternMode (s : State) (p : Fin 16) : LineMode :=
  match s.reqMode p with
  | some m => if isLocon m || (s.port p).tx.pattern == 4 then m else .l25s
  | none => .l25s

/-! ### Ramps (R132 to R134) -/

/-- The towpath alone is sending on a narrow profile. -/
def Port.narrow (x : Port) : Bool := x.tow.profile == .narrowBursts || x.tow.profile == .narrowRun

/-- The mode whose main signal the transmitter sends: in a shift the target's from step 4 on. -/
def Port.txMode (x : Port) : Option LineMode :=
  match x.link.shift with
  | some sh => some (if sh.acked then sh.target else sh.left)
  | none => match x.link.modeAct with | some m => some m | none => x.link.train

/-- The step rate of a ramp in thousands per second (R132, R139). -/
def State.txRate (s : State) (p : Fin 16) : Nat :=
  let x := s.port p
  stepRate (if x.tx.pattern ≠ 0 then some (s.patternMode p) else x.txMode) x.narrow (fwdOut (s.policy p))

/-- Ticks that a number of steps of a rate last, rounded up. -/
def stepTicks (steps rate : Nat) : Nat := ceilDiv (steps * 156250) rate

/-- Effective length of a ramp in steps (R133): at most one microsecond and never below 16 steps. -/
def State.rampSteps (s : State) (p : Fin 16) (short : Bool) : Nat :=
  if short then 16 else max 16 (min (fld (s.portReg p 0x11) 0 11) (s.txRate p / 1000))

/-- A ramp that begins at a tick (R132, R133). -/
def State.rampAt (s : State) (p : Fin 16) (up short : Bool) (tick : Nat) : Ramp :=
  let l := s.rampSteps p short
  { up := up, start := tick, len := stepTicks l (s.txRate p), total := l, first := 0, rate := s.txRate p }

/-- The step that a ramp has reached. -/
def Ramp.step (r : Ramp) (now : Nat) : Nat := min (r.total - 1) (r.first + (now - r.start) * r.rate / 156250)

/-- A ramp turned round at step n: it goes on in the new direction from step L - 1 - n (R134). -/
def Ramp.turn (r : Ramp) (now : Nat) : Ramp :=
  let f := r.total - 1 - r.step now
  { r with up := !r.up, start := now, first := f, len := stepTicks (r.total - f) r.rate }

/-- The ramp gain of the main signal in 2^-49 (R132). -/
def TxPath.gain (t : TxPath) (now : Nat) : Nat :=
  match t.ramp with
  | some r => rampGain r.up r.total (r.step now)
  | none => if t.on then 2 ^ 49 else 0

/-- A ramp asked for (R134): one that runs in the same direction goes on, one in the other turns round where it stands, and
none is needed where the gain is there already; `r0` is the one that would begin. -/
def TxPath.ramped (t : TxPath) (up : Bool) (now : Nat) (r0 : Ramp) : TxPath :=
  match t.ramp with
  | some r => if r.up = up then { t with nextRamp := none } else { t with on := true, ramp := some (r.turn now), nextRamp := none }
  | none => if t.on = up then { t with nextRamp := none } else { t with on := true, ramp := some r0, nextRamp := none }

/-- Starts a ramp of the transmitter (R134). -/
def State.ramp (s : State) (p : Fin 16) (up short : Bool) : State :=
  s.modTx p (fun t => t.ramped up s.ticks (s.rampAt p up short s.ticks))

/-- Transmission starts, stops, or stops with L = 16. -/
def State.txStart (s : State) (p : Fin 16) : State := s.ramp p true false
def State.txStop (s : State) (p : Fin 16) : State := s.ramp p false false
def State.txStopShort (s : State) (p : Fin 16) : State := s.ramp p false true

/-- A burst that begins now and whose last symbol ends after `ps` picoseconds: it ramps up, and down at its end (R134). -/
def State.txBurst (s : State) (p : Fin 16) (ps : Nat) : State :=
  (s.txStart p).modTx p (fun t => { t with nextRamp := some (s.rampAt p false false (s.ticks + ceilDiv ps 6400)) })

/-- Transmission that goes on in a new mode (R85 steps 3 and 6): a down-ramp that runs is followed by the up-ramp. -/
def State.txResume (s : State) (p : Fin 16) : State :=
  match (s.port p).tx.ramp with
  | some r =>
    if r.up then s.txStart p
    else s.modTx p (fun t => { t with nextRamp := some (s.rampAt p true false (r.start + r.len)) })
  | none => s.txStart p

/-- Everything that is sent ramps down (R83, R134): in quiet that is the narrow run, the main signal being off. -/
def State.silence (s : State) (p : Fin 16) (short : Bool) : State :=
  if (s.port p).quiet.state == .quiet && !(s.port p).tx.on then
    s.modTx p (fun t => { t with on := true, ramp := some (s.rampAt p false short s.ticks) })
  else s.ramp p false short

/-- A driver stopped without a ramp, as on hard reset (R135). -/
def TxPath.cut (t : TxPath) : TxPath := { t with on := false, ramp := none, nextRamp := none }

/-! ### Swing and down-spread (R130, R136, R137, R140) -/

/-- The SWING_ADJ that acts on a mode (R130): in a standard mode only with STD_OVR. -/
def State.swingWanted (s : State) (p : Fin 16) : Int :=
  let adj := sfld (s.portReg p 0x10) 8 5
  match (s.port p).txMode with
  | some m => if isLocon m || bit (s.portReg p 0x17) 8 then adj else 0
  | none => adj

/-- The swing of what is about to be sent: the nominal one, with its adjustment at once. -/
def State.setSwing (s : State) (p : Fin 16) (nominal : Nat) : State :=
  s.modTx p (fun t => { t with swing := nominal, swingAdj := s.swingWanted p, swingTick := s.ticks })

/-- One step of 1 % for every 65,536 symbols (R140) of what is being sent. -/
def TxPath.swingStep (t : TxPath) (now rate : Nat) (want : Int) : TxPath :=
  if t.swingAdj = want ∨ t.on = false then t
  else if stepTicks 65536 rate ≤ now - t.swingTick then
    { t with swingAdj := if t.swingAdj < want then t.swingAdj + 1 else t.swingAdj - 1, swingTick := now }
  else t

/-- The down-spread of the transmit clock at a tick, in 1/1000 ppm (R136, R137): after SPREAD_EN is cleared it returns to
nominal at the same slope. -/
def TxPath.spreadNow (t : TxPath) (now : Nat) : Nat :=
  match t.spreadTick with
  | none => 0
  | some a =>
    match t.spreadBack with
    | none => spreadAt (now - a)
    | some b => spreadAt (b - a) - spreadDepth * (now - b) / spreadHalf

/-- Whether the transmit clock is spread (R138). -/
def TxPath.spreading (t : TxPath) (now : Nat) : Bool :=
  t.spreadTick.isSome && (t.spreadBack.isNone || decide (0 < t.spreadNow now))

/-! ### Crosstalk paths (R152, R153, R155) -/

/-- Thousandths of a baud of the mode in one direction. -/
def baudOf (m : LineMode) (fwd : Bool) : Nat := stepRate (some m) false fwd

/-- A port up in a PAM Locon mode or in a standard mode (R153 condition 1). -/
def Port.upPam (x : Port) (locon : Bool) : Bool :=
  match x.link.state, x.link.modeAct with
  | .loconUp, some m => isPam m
  | .stdUp, some _ => !locon
  | _, _ => false

/-- Harness group of a port of a reach (R152). -/
def groupOf (ctrl : Word) (i : Fin 4) : Nat := fld ctrl (2 * i.val) 2

/-- Port number of a port of a reach. -/
def portIn (r i : Fin 4) : Fin 16 := ⟨4 * r.val + i.val, by omega⟩

/-- Whether a path may be active (R153, R360). -/
def State.pathActive (s : State) (r : Fin 4) (k : XtPath) : Bool :=
  let v := s.port (portIn r k.victim)
  let a := s.port (portIn r k.aggr)
  let ctrl := s.act (regKey (reachBlock r.val) 0x20)
  let vOut := fwdOut (s.policy (portIn r k.victim))
  let aOut := fwdOut (s.policy (portIn r k.aggr))
  k.used && k.victim != k.aggr && groupOf ctrl k.victim != 0 && groupOf ctrl k.victim == groupOf ctrl k.aggr
    && !s.safeBlock (reachBlock r.val)
    && (if k.fext then bit ctrl 9 else bit ctrl 10)
    && v.upPam k.fext && a.upPam k.fext
    && (match v.link.modeAct, a.link.modeAct with
        | some mv, some ma => baudOf mv (!vOut) == baudOf ma (if k.fext then !aOut else aOut)
        | _, _ => false)
    && v.link.leader && a.link.leader && !v.tx.spreading s.ticks && !a.tx.spreading s.ticks
    && !v.tow.farSpread && !a.tow.farSpread
    && a.quiet.state == .active

/-- One path brought in line with R153: a path that stops being active is suspended with an event and a count, and its
victim's fast downshift is held off for 2 ms (R155). -/
def State.xtOne (s : State) (r : Fin 4) (i : Fin 12) : State :=
  let k := (s.reach r).paths.get i
  let susp := k.used && !s.pathActive r k
  if susp = k.susp then s
  else
    let s1 := s.modReach r (fun x => { x with paths := x.paths.set i.val { k with susp := susp } i.isLt })
    if susp then
      ((s1.modRx (portIn r k.victim) (fun x => { x with xtHoldTick := some s.ticks })).raise 0x0015
        (reachBlock r.val) r.val (wd i.val)).count (reachBlock r.val) 0 1
    else s1

/-- Every path of a reach brought in line. -/
def State.xtSync (s : State) (r : Fin 4) : State := (List.finRange 12).foldl (fun t i => t.xtOne r i) s

/-- The link state of a port changed, with the crosstalk paths of its reach. -/
def State.goLink (s : State) (p : Fin 16) (f : Link → Link) : State := (s.modLink p f).xtSync (reachOf p)

/-! ### Blockers (R62, R360, R423 row 16, R428, R431) -/

/-- Whether a reach's line clock runs (R45, R50). -/
def State.reachClock (s : State) (r : Fin 4) : Bool :=
  (s.clk.reach.get r).mode == .locked && !(s.clk.muxSpine.get r).failed

/-- Why a port may not start: the down cause that stands while the reason holds. -/
def State.blocker (s : State) (p : Fin 16) : Option Nat :=
  if s.safeBlock (portBlock p.val) then some 12
  else if s.sup.pfailFrozen then some 8
  else if 3 ≤ s.cal.level then some 11
  else if !s.reachClock (reachOf p) then some 14
  else
    match (s.port p).link.held with
    | some d => if s.gone d then some 11 else none
    | none => none

/-! ### Going down (R83) -/

/-- A port that had reached STD_UP or LOCON_UP. -/
def LinkState.reached : LinkState → Bool
  | .stdUp | .loconUp | .shift => true
  | _ => false

/-- The training states, in which a write of R87 abandons the start. -/
def LinkState.training : LinkState → Bool
  | .an | .stdTrain | .discover | .sound | .echoLearn | .fullDuplex => true
  | _ => false

/-- What a link that goes down leaves of the link record; the pages sent and the OAM count stay. -/
def Link.fallen (l : Link) (to_ : LinkState) (cause : Nat) : Link :=
  { l with
    state := to_, downCause := cause, modeAct := none, train := none, leader := false, partnerLocon := false
    forceFail := false, forceOff := false, asked := none, mayspread := true, shift := none, ladder := {}, downs := [], upBars := [], upNow := false, deferred := none
    upTick := none, wrOld := none, downs16 := satAdd 0xFFFF l.downs16 1, downLog := (cause :: l.downLog).take 16, echoTurns := 0, blocksOn := false
    excluded := if l.state.reached || to_ == .disabled then [] else l.excluded
    lastFail := if l.state.reached || to_ == .disabled then none else l.lastFail }

/-- What a link that goes down leaves of the towpath: the soundings, the pairing and the times of MAC failures stay. -/
def Towpath.fallen (t : Towpath) : Towpath :=
  { t with
    profile := .off, sf := 0, pilots := [], ready := [], await := [], slotQueue := [], slotCur := none, slotTook := false, slotGap := false
    slotRx := none, tpsf := none, blkAsm := none, goCount := none, adopted := none, rxOld := none
    newNonce := none, oldNonce := none, soundSent := false, soundGot := false, soundMiss := 0, lchirpLow := 0
    lchirpUp := 0, rowCells := 0, reqS2 := none, chirps := [], peerHeld := none, farSpread := false }

/-- A port whose link goes down (R83): the transmitter ramps down, the record is cleared, LINK_DOWN is raised, and the
link-down record waits for the journal (R434). -/
def State.fall (s : State) (p : Fin 16) (to_ : LinkState) (cause : Nat) (short : Bool) : State :=
  let s1 := s.silence p short
  let s2 := s1.modPort p (fun x => { x with
    tow := x.tow.fallen
    tx := { x.tx with precode := false, spread := false, spreadTick := none, spreadBack := none, train := none }
    rx := { x.rx with stored := [], xtHoldTick := none, autoFrz := false, clip := false, ulSkip := false, xtRes := 0, moved := none }
    dmt := { x.dmt with rx := {}, tx := {}, sent := none, got := none, validGot := false, lowRuns := [], upRun := 0,
                        msgSends := 0, lowB := false, pilotLow := false, group := [], pour := [], symbols := [], resendDue := false }
    snd := { x.snd with synced := false }
    quiet := { x.quiet with state := .active, pend := none, exit := none, window := none, lpiRx := false,
                            lpiTx := false, eee := false, listening := false }
    watch := { x.watch with capturing := false, wantCapture := false } })
  let s3 := s2.goLink p (fun l => l.fallen to_ cause)
  let s4 := { s3 with journal := { s3.journal with changed := true } }
  (s4.raise 0x0011 (portBlock p.val) p.val (wd cause)).lineSync p

/-- Link down into HOLD with a cause (R83, R110): HOLD lasts 1 s for cause 5, else 10 ms and a drawn 0 to 10 ms. -/
def State.linkDown (s : State) (p : Fin 16) (cause : Nat) : State :=
  let s1 := s.fall p .hold cause false
  if cause = 5 then s1.modLink p (fun l => { l with holdTime := 1000000 })
  else
    let (d, s2) := s1.draw
    s2.modLink p (fun l => { l with holdTime := 10000 + (Config.freeHold d).val })

/-- As `linkDown`, and only for a port that is not already down for good: DISABLED ports are left alone. -/
def State.takeDown (s : State) (p : Fin 16) (cause : Nat) : State :=
  match (s.port p).link.state with
  | .disabled => s
  | .diag => s
  | _ => s.linkDown p cause

/-- A port held down by a blocker: HOLD with its cause until the blocker ends. -/
def State.holdDown (s : State) (p : Fin 16) (cause : Nat) (short : Bool) : State :=
  match (s.port p).link.state with
  | .disabled | .diag => s
  | .hold => s.modLink p (fun l => { l with downCause := cause })
  | _ => s.fall p .hold cause short

/-- DISABLED after ENABLE is cleared (R83): cause 1, exclusions cleared. -/
def State.disable (s : State) (p : Fin 16) : State :=
  match (s.port p).link.state with
  | .disabled | .diag => s
  | _ => s.fall p .disabled 1 false

/-! ### Starting (R66, R73, R74, R83) -/

/-- The standard modes that the base page advertises (R66, R73): a forced one alone, else STD_MASK. -/
def State.anModes (s : State) (p : Fin 16) : BitVec 6 :=
  match s.forced p with
  | some m => if isLocon m then BitVec.ofNat 6 (fld (s.policy p) 16 6) else BitVec.ofNat 6 (2 ^ (modeCode m - 1))
  | none => BitVec.ofNat 6 (fld (s.policy p) 16 6)

/-- The field of the unformatted next page (R74): LOCON_MASK, the direction code, ROLE and the version 0b001. -/
def extField (pol : Word) : Word := put 0 5 (fld pol 8 5) ||| put 5 2 (ownDir pol) ||| put 7 2 (roleOf pol) ||| put 9 3 1

/-- LN_OUI.OUI. -/
def State.oui (s : State) (p : Fin 16) : BitVec 24 := BitVec.ofNat 24 (fld (s.portReg p 4) 0 24)

/-- Whether the port follows its base page with the extended next page (R66, R73). -/
def State.sendsExt (s : State) (p : Fin 16) : Bool :=
  decide (fld (s.policy p) 8 5 ≠ 0) && (match s.forced p with | some m => isLocon m | none => true)

/-- The pages that a port sends in Clause 98 (R66, R73, R74, R299). -/
def State.anPages (s : State) (p : Fin 16) : List AnPage :=
  AnPage.base (s.anModes p) (bit (s.portReg p 0x63) 0) (BitVec.ofNat 2 (msCfgOf (s.policy p)))
    :: (if s.sendsExt p then [AnPage.message (s.oui p), AnPage.unformatted (extField (s.policy p))] else [])

/-- Transmit settings of a standard mode or of Clause 98 (R128, R130): never spread, precoded as the clause says. -/
def State.stdSettings (s : State) (p : Fin 16) (taps : Word × Word) : State :=
  (s.modTx p (fun t => { t with
    precode := false, spread := false, spreadTick := none, spreadBack := none, train := none, ffeA := taps.1, ffeB := taps.2 })).setSwing p
    (nominalSwing none false false false)

/-- AN: Clause 98 runs. -/
def State.enterAn (s : State) (p : Fin 16) : State :=
  let s1 := s.goLink p (fun l => { l with state := .an, train := none, leader := false, pages := s.anPages p })
  (s1.stdSettings p (0x00004000, 0)).txStart p

/-- The beacon SF of R112 for the k-th beacon of a policy. -/
def beaconSf (policy k : Nat) : Nat :=
  match policy with
  | 1 => min 12 (7 + k / 4)
  | 2 => 12
  | _ => if k < 4 then 7 else if k < 8 then 8 else 9

/-- Symbols of a beacon burst at an SF (R111): the marker, the cell, and a pilot after each 15th data symbol but the
last of the burst. -/
def beaconSymbols (sf : Nat) : Nat := 12 + cellSymbols sf + (cellSymbols sf - 1) / 15

/-- Duration of a beacon in ps, and in µs rounded up. -/
def beaconPs (sf : Nat) : Nat := beaconSymbols sf * symbolPs false sf
def beaconUs (sf : Nat) : Nat := ceilDiv (beaconPs sf) 1000000

/-- The part's own CAP fields (R75, R78, R124, R137). -/
def State.ownCap (s : State) (p : Fin 16) : CapCell :=
  let t := (s.port p).tow
  let pol := s.policy p
  { seq := t.capSeq, ack := t.partner.isSome, role := BitVec.ofNat 2 (roleOf pol), modes := BitVec.ofNat 5 (fld pol 8 5)
    dir := BitVec.ofNat 2 (ownDir pol), hop := true, through := true, precode := bit (s.portReg p 0x10) 1
    spreadOk := true
    keyIdx := match t.keyInUse with | some k => BitVec.ofNat 8 k | none => 0xFF
    rxMax := 497, txMax := 497, nonce := t.nonce, winExp := BitVec.ofNat 8 t.ownWin
    oui := s.oui p }

/-- A beacon sent (R75, R89, R111, R113, R130): one CAP cell at the SF of the sequence, or at the SF adopted, in a burst of
1.0 V; the end then listens for a drawn time, or for three durations after an answer. -/
def State.sendBeacon (s : State) (p : Fin 16) (answer : Bool) : State :=
  let t := (s.port p).tow
  let sf := match t.adopted with | some a => a | none => if t.beaconSf = 12 then 12 else beaconSf (policyOf (s.policy p)) t.beacons
  let cell : TxCell := { type := 1, payload := capPayload (s.ownCap p) }
  let bytes := cellBytes (s.linkKey p) t.nonce t.peerNonce 0 cell
  let (d, s1) := s.draw
  let us := beaconUs sf
  let listen := if answer then 3 * us else us + (Config.freeListen d).toNat % (2 * us + 1)
  let s2 := s1.modTow p (fun t => { t with
    sf := sf, lastCell := bytes, chirps := beaconChirps sf bytes, sentModes := (s.ownCap p).modes, capSeq := t.capSeq + 1
    ackSent := t.ackSent || t.partner.isSome, beacons := t.beacons + 1, listen := BitVec.ofNat 16 listen })
  (s2.setSwing p 100).txBurst p (beaconPs sf)

/-- DISCOVER (R75, R78, R107, R109, R112, R225): a fresh nonce, the cell counter and its record at 0, the pairing index
and the window exponent taken from the registers, and the first beacon. `long` is the SF12 search of R73. -/
def State.enterDiscover (s : State) (p : Fin 16) (long : Bool) : State :=
  let (d, s1) := s.draw
  let key := keyIdxAct (s.portReg p 0x20)
  let win := fld (s.portReg p 0x50) 0 5
  let s2 := (s1.txStop p).modTow p (fun t => { t.fallen with
    profile := .narrowBursts, nonce := Config.freeNonce d, capSeq := 0, ackSent := false, partner := none
    beaconSf := if long then 12 else 7, beacons := 0, txCtr := 0, rx := {}, keyInUse := key, ownWin := win })
  (s2.goLink p (fun l => { l with state := .discover, train := none, leader := false, dirPartner := 0 })).sendBeacon p false

/-! ### Automatic settings of a mode (R128, R144, R148, R150, R181) -/

/-- A fresh sounding set in place (R116, R166): SND_SEQ moves on and the three predictions with it. -/
def State.newSounding (s : State) (p : Fin 16) (x : Sounding) : State :=
  let s1 := s.modTow p (fun t => { t with snd := some x, sndSeq := t.sndSeq + 1 })
  s1.modRx p (fun r => { r with
    pred50 := s1.predFig p .l50a, pred25 := s1.predFig p .l25s, pred10 := s1.predFig p .l10x })

/-- The Nyquist frequency of a mode in GHz, as a fraction (R144, R166, R171). -/
def nyquist : LineMode → Nat × Nat
  | .l50a => (225, 16) | .l25s => (225, 32) | .l10x => (135, 64) | _ => (5, 2)

/-- Whether `a √q` reaches `r`. -/
def rootGe (a : Int) (q : Nat) (r : Int) : Bool :=
  if 0 ≤ a then decide (r ≤ 0) || decide (r ^ 2 ≤ a ^ 2 * q) else decide (r ≤ 0) && decide (a ^ 2 * q ≤ r ^ 2)

/-- min(12, round(IL(F_N) / 4)) in dB, and 0 for a loss below 0 (R144): the steps k whose k - 1/2 the cable model in 0.001 dB
reaches. -/
def peakFor (m : LineMode) (x : Sounding) : Nat :=
  let (num, den) := nyquist m
  ((List.range 12).filter (fun (k : Nat) =>
    rootGe x.a (num * den) ((den : Int) * (4000 * ((k : Int) + 1) - 2000 - x.c) - num * x.b))).length

/-- Signed limits of the six transmit taps (R127). -/
def tapLimits : List (Int × Int) := [(-8, 8), (-20, 20), (24, 64), (-24, 24), (-12, 12), (-8, 8)]

/-- Six taps as the two register images of R138. -/
def ffeWords (taps : List Int) : Word × Word :=
  let t := fun i => taps.getD i 0
  (sput 24 8 (t 0) ||| sput 16 8 (t 1) ||| sput 8 8 (t 2) ||| sput 0 8 (t 3), sput 8 8 (t 4) ||| sput 0 8 (t 5))

/-- The taps of a mode entry (R128): automatic ones fitted to the sounding, within their limits; manual ones from the
registers; MAIN 64 alone in a standard mode unless STD_OVR is set. -/
def State.txTaps (s : State) (p : Fin 16) (m : LineMode) : Word × Word :=
  let manual := (s.portReg p 0x12, s.portReg p 0x13)
  if isLocon m then
    if bit (s.portReg p 0x10) 3 then
      match (s.port p).tow.snd with
      | some x => if isPam m then ffeWords (ffeFit tapLimits (Config.pulseAt x m)) else (0x00004000, 0)
      | none => (0x00004000, 0)
    else manual
  else if bit (s.portReg p 0x17) 8 then manual else (0x00004000, 0)

/-- STD_TRAIN in a mode and a Clause 98 role. -/
def State.enterStd (s : State) (p : Fin 16) (m : LineMode) (isMaster : Bool) : State :=
  let s1 := s.goLink p (fun l => { l with state := .stdTrain, train := some m, leader := isMaster })
  (s1.stdSettings p (s1.txTaps p m)).txStart p

/-- The first state of the port's policy (R66, R73, R87). -/
def State.firstState (s : State) (p : Fin 16) : State :=
  let pol := s.policy p
  match s.forced p with
  | some .t100 => s.enterStd p .t100 (decide (msCfgOf pol % 2 = 1))
  | some .t1000 => s.enterStd p .t1000 (decide (msCfgOf pol % 2 = 1))
  | some m => if isLocon m && policyOf pol == 1 then s.enterDiscover p false else s.enterAn p
  | none => if policyOf pol = 1 then s.enterDiscover p false else s.enterAn p

/-- A link start (R82, R83, R139, R360): a port that is not enabled or sends a test pattern stays in DISABLED; one in its
parity safe state too, with cause 12; a blocked one goes to HOLD with the cause; any other enters its first state. -/
def State.startPort (s : State) (p : Fin 16) : State :=
  if !s.enabled p || s.patternAct p ≠ 0 then s
  else
    match s.blocker p with
    | some 12 => s.goLink p (fun l => { l with state := .disabled, downCause := 12 })
    | some c => s.goLink p (fun l => { l with state := .hold, downCause := c })
    | none => s.firstState p

/-- A start abandoned or a link taken down and begun again at the first step of the policy (R87). -/
def State.restartPort (s : State) (p : Fin 16) : State :=
  ((s.txStop p).modTow p Towpath.fallen).startPort p

/-- Delay of one canceller step of a mode in femtoseconds (R147). -/
def stepFs : LineMode → Nat
  | .l50a => 35556 | .l25s => 71111 | .l10x => 237037 | _ => 200000

/-- Sounded echo energy of the 4-delay window at `w` (R148): a delay takes the echo tap whose chip holds it. R117 places the
echo response 64 taps before its main peak; that the main peak stands for delay 0 is a DESIGN CHOICE
(notes/assumptions/58.md). -/
def windowEnergy (m : LineMode) (echo : List (BitVec 16)) (w : Nat) : Nat :=
  (List.range 4).foldl (fun acc k =>
    let tap := 64 + (w + k) * stepFs m / 666667
    acc + (echo.getD tap 0).toInt.natAbs ^ 2) 0

/-- The energy of the echo main peak over one tap. -/
def peakEnergy (echo : List (BitVec 16)) : Nat := echo.foldl (fun m v => max m (v.toInt.natAbs ^ 2)) 0

/-- Whether a window's energy lies within 60 dB of the echo main peak (R148). -/
def windowUsed (echo : List (BitVec 16)) (e : Nat) : Bool := decide (peakEnergy echo ≤ e * 1000000) && decide (0 < e)

/-- Placement of the floating clusters (R148): strongest window first, no overlap, none more than 60 dB below the main
peak. Between windows of equal energy the lower start wins, a DESIGN CHOICE (notes/assumptions/58.md). -/
def placeClusters (m : LineMode) (echo : List (BitVec 16)) : List Nat :=
  let ws := (List.range 2045).map (fun k => (512 + k, windowEnergy m echo (512 + k)))
  let step := fun (acc : List Nat) (_ : Nat) =>
    let free := ws.filter (fun (w, e) => windowUsed echo e && acc.all (fun v => decide (v + 4 ≤ w ∨ w + 4 ≤ v)))
    match free.foldl (fun (b : Option (Nat × Nat)) x => match b with
        | some y => if y.2 < x.2 then some x else b
        | none => some x) none with
    | some (w, _) => acc ++ [w]
    | none => acc
  (List.range 8).foldl step []

/-- The starts of a placement, unused clusters parked at 2,556 (R148), and the mask of the parked ones. -/
def clusterStarts (l : List Nat) : List (BitVec 16) := ((l ++ List.replicate 8 2556).take 8).map (BitVec.ofNat 16)
def parkedMask (l : List Nat) : BitVec 8 := maskOf 8 ((List.range 8).filter (fun i => decide (l.length ≤ i)))

/-- Dense taps seeded from a sounding, and floating ones at a placement; a parked cluster has zero coefficients (R148, R150). -/
def denseSeeds (x : Sounding) (m : LineMode) : List (BitVec 16) := (List.range 512).map (Config.echoSeed x m)
def floatSeeds (x : Sounding) (m : LineMode) (cl : List (BitVec 16)) (parked : BitVec 8) : List (BitVec 16) :=
  (List.range 32).map (fun i =>
    if parked.getLsbD (i / 4) then 0 else Config.echoSeed x m ((cl.getD (i / 4) 2556).toNat + i % 4))

/-- A whole number as a 16-bit coefficient, saturated. -/
def sat16 (v : Int) : BitVec 16 := BitVec.ofInt 16 (clampI (-32768) 32767 v)

/-- Coefficients corrected by the difference of two soundings' seeds (R150). -/
def corrected (l then_ now : List (BitVec 16)) : List (BitVec 16) :=
  (List.zip l (List.zip then_ now)).map (fun e => sat16 (e.1.toInt + (e.2.2.toInt - e.2.1.toInt)))

/-- One-tap equalisers corrected likewise. -/
def correctedW (l then_ now : List CxTap) : List CxTap :=
  List.zip (corrected (l.map (·.1)) (then_.map (·.1)) (now.map (·.1))) (corrected (l.map (·.2)) (then_.map (·.2)) (now.map (·.2)))

/-- The stored set as step 5 of R85 loads it: corrected by the sounding now in force, where both are wide or both narrow. -/
def EchoSet.loaded (e : EchoSet) (m : LineMode) (now : Option Sounding) : EchoSet :=
  match e.snd, now with
  | some a, some b =>
    { e with
      dense := corrected e.dense (denseSeeds a m) (denseSeeds b m)
      float := corrected e.float (floatSeeds a m e.clusters e.parked) (floatSeeds b m e.clusters e.parked)
      w := correctedW e.w (eqSeeds a) (eqSeeds b) }
  | _, _ => e

/-- A set seeded as at link start (R150, R181): the sounded echo, and the inverse of the sounded channel. The
frequency-domain echo taps start at 0, a DESIGN CHOICE (notes/assumptions/60.md). -/
def seededSet (m : LineMode) (x : Sounding) (auto : Bool) (r : RxPath) : EchoSet :=
  let l := placeClusters m x.echo
  let cl := if auto then clusterStarts l else r.clusters
  let parked := if auto then parkedMask l else r.parked
  { dense := denseSeeds x m, float := floatSeeds x m cl parked, clusters := cl, parked := parked, snd := some x
    w := eqSeeds x, fd := List.replicate 2044 ((0, 0), (0, 0)) }

/-- The set that a training or a shift loads: in a shift the stored one of the mode, else seeds; with no sounding what is
there. -/
def Port.enterSet (x : Port) (m : LineMode) (auto shift : Bool) : EchoSet :=
  match (if shift then (x.rx.stored.find? (fun e => e.1 == m)).map (·.2) else none), x.tow.snd with
  | some e, now => e.loaded m now
  | none, some sn => seededSet m sn auto x.rx
  | none, none => ⟨x.rx.dense, x.rx.float, x.rx.clusters, x.rx.parked, none, x.dmt.w, x.dmt.fd⟩

/-- Receive settings of a training or a shift (R143, R144 step 1, R148, R150, R156, R181): peaking, gain of a manual AGC,
D_U, the cursor, and the coefficients loaded. R144 states no peaking for a narrow sounding, which has no cable model: the
peaking in use stays, a DESIGN CHOICE (notes/assumptions/58.md). -/
def State.rxEnter (s : State) (p : Fin 16) (m : LineMode) (shift : Bool) : State :=
  let ctrl := s.portReg p 0x30
  let x := s.port p
  let peak := if bit ctrl 8 then (match x.tow.snd with | some sn => if sn.wide then peakFor m sn else x.rx.peak | none => x.rx.peak)
    else min 12 (fld ctrl 20 4)
  let pga := if bit ctrl 8 then x.rx.pga else fld ctrl 14 6
  let e := x.enterSet m (bit ctrl 4) shift
  (s.modRx p (fun r => { r with
    peak := peak, pga := pga, duSf := x.tow.sf, cursor := fld ctrl 24 5, dense := e.dense, float := e.float, clusters := e.clusters
    parked := e.parked, histA := [], histB := [], moved := none })).modDmt p
      (fun d => if m == .ldmt then { d with w := e.w, fd := e.fd } else d)

/-- The set stored when a mode is left (R150, R189). -/
def Port.storeSet (x : Port) (m : LineMode) : Port :=
  if isPam m || m == .ldmt then
    { x with rx := { x.rx with stored :=
        (m, ⟨x.rx.dense, x.rx.float, x.rx.clusters, x.rx.parked, x.tow.snd, x.dmt.w, x.dmt.fd⟩)
          :: x.rx.stored.filter (fun e => e.1 != m) } }
  else x

/-! ### SOUND (R115) -/

/-- Length of a sounding burst in ps: 28 wide symbols at SF12. -/
def soundingPs : Nat := 28 * symbolPs true 12

/-- The swing of a sounding burst in 10 mV units (R89, R130). -/
def burstSwing : Nat := 80

/-- A sounding burst sent (R115). -/
def State.sendSounding (s : State) (p : Fin 16) : State :=
  let s1 := s.modTow p (fun t => { t with chirps := soundingChirps, soundSent := true })
  (s1.setSwing p burstSwing).txBurst p soundingPs

/-- The narrow run of SOUND and of LCHIRP begins with its start marker (R94, R95, R115, R118). -/
def State.narrowRun (s : State) (p : Fin 16) (sf : Nat) : State :=
  let s1 := s.modTow p (fun t => { t with profile := .narrowRun, sf := sf, symCount := 0, chirps := startMarker .run sf })
  (s1.setSwing p 100).txResume p

/-- In SOUND the narrow run follows the end's own burst (R115). -/
def State.runDue (s : State) (p : Fin 16) : State :=
  if (s.port p).link.state == .sound && (s.port p).tow.soundSent && (s.port p).tx.swing == burstSwing then
    s.narrowRun p (s.port p).tow.sf
  else s

/-- SOUND (R115): the leader sends its burst; the SF is the one adopted in DISCOVER. -/
def State.enterSound (s : State) (p : Fin 16) (leader : Bool) : State :=
  let t := (s.port p).tow
  let w := match t.partner with | some c => min t.ownWin c.winExp.toNat | none => t.ownWin
  let s1 := s.modTow p (fun t => { t with
    profile := .narrowRun, sf := t.adopted.getD t.sf, symCount := 0, soundSent := false, soundGot := false, soundMiss := 0 })
  let s2 := s1.modSnd p (fun x => { x with w := clampN 10 23 w })
  let s3 := s2.goLink p (fun l => { l with state := .sound, leader := leader })
  if leader then s3.sendSounding p else s3

/-- The spread of this end at a mode entry (R137): the leader announces, the follower is permitted. -/
def State.ownSpread (s : State) (p : Fin 16) (leader followerMay : Bool) : Bool :=
  bit (s.portReg p 0x10) 2 &&
    (if leader then (match (s.port p).tow.partner with | some c => c.spreadOk | none => false) else followerMay)

/-- What the leader's PRECODE bit is made of (R124): its own PRECODE_REQ and the partner's CAP PRECODE. -/
def State.bothPrecode (s : State) (p : Fin 16) : Bool :=
  bit (s.portReg p 0x10) 1 && (match (s.port p).tow.partner with | some c => c.precode | none => false)

/-- The MODE cell of the leader's choice (R79, R105, R118, R124, R137). -/
def State.modeCell (s : State) (p : Fin 16) (m : LineMode) : ModeCell :=
  let t := (s.port p).tow
  { code := BitVec.ofNat 4 (modeCode m)
    precode := s.bothPrecode p
    leaderSpread := s.ownSpread p true true
    followerMay := true
    wideSf := BitVec.ofNat 8 (fld (s.portReg p 0x20) 12 4)
    lchirpSf := if m == .lchirp then BitVec.ofNat 8 (selectSf (lsfMinAct (s.portReg p 0x20)) t.snrDb10 t.sf) else 0 }

/-- Whether precoding is active in a direction of a mode (R124): `fwd` is the L50A forward direction. -/
def precodeAct (m : LineMode) (cellBit fwd : Bool) : Bool :=
  match m with
  | .l10x => true
  | .l25s => cellBit
  | .l50a => cellBit && fwd
  | _ => false

/-! ### Training, blocks, up (R80, R81, R83, R126, R217) -/

/-- Whether the received direction of a port is precoded. -/
def State.rxPrecoded (s : State) (p : Fin 16) : Bool :=
  match (s.port p).txMode with
  | some m => precodeAct m (s.port p).link.precode (!fwdOut (s.policy p))
  | none => false

/-- The range of a DFE tap in 1/4096 of the cursor (R157): ±0.6 for d1, ±0.25 for the others. -/
def dfeLimit (i : Nat) : Int := if i = 0 then 2457 else 1024
def dfeClamp (i : Nat) (v : Int) : BitVec 16 := BitVec.ofInt 16 (clampI (-dfeLimit i) (dfeLimit i) v)

/-- Coefficients as a training leaves them (R157, R163, R164): free values within their limits, but for the blocks that
LN_RX_FRZ freezes, for d1 where precoding is active, and for parked clusters (R148). -/
def RxPath.adapt (r : RxPath) (frz : Word) (pre : Bool) (d : Nat) : RxPath :=
  let held := fun (i : Nat) => bit frz 0 || bit frz i
  { r with
    ffe := if held 1 then r.ffe else (List.range 24).map (Config.adapted d)
    dfe := if held 2 then r.dfe else (List.range 4).map (fun i =>
      if i = 0 && pre then r.dfe.getD 0 0 else dfeClamp i (Config.adapted d (24 + i)).toInt)
    dense := if held 3 then r.dense else (List.range 512).map (fun i => Config.adapted d (28 + i))
    float := if held 3 then r.float else (List.range 32).map (fun i => if r.parked.getLsbD (i / 4) then 0 else Config.adapted d (540 + i))
    ulTaps := if held 7 then r.ulTaps else (List.range 16).map (fun i => Config.adapted d (1400 + i)) }

/-- The paths of a reach into one of its ports after a training. -/
def adaptPaths (v : Nat) (frz : Word) (d : Nat) (k : XtPath) : XtPath :=
  if k.used && !k.susp && k.victim.val == v && !(bit frz 0 || bit frz 5) then
    { k with taps := (List.range 64).map (fun i => Config.adapted d (572 + 64 * k.aggr.val + i)) }
  else k

/-- The equalisers and frequency-domain echo taps of LDMT after a training, but for those that are frozen (R181, R182). -/
def Dmt.adapt (x : Dmt) (frz : Word) (d : Nat) : Dmt :=
  let held := fun (i : Nat) => bit frz 0 || bit frz i
  let c := fun (i : Nat) => (Config.adapted d (2 * i), Config.adapted d (2 * i + 1))
  { x with
    w := if held 1 then x.w else (List.range 2044).map (fun i => c (800 + i))
    fd := if held 3 then x.fd else (List.range 2044).map (fun i => (c (3000 + 2 * i), c (3001 + 2 * i))) }

/-- A port's receiver has trained for a mode. -/
def State.adaptRx (s : State) (p : Fin 16) (m : LineMode) : State :=
  let (d, s1) := s.draw
  let frz := s.portReg p 0x32
  let pre := s.rxPrecoded p
  ((s1.modRx p (fun r => r.adapt frz pre d)).modDmt p (fun x => if m == .ldmt then x.adapt frz d else x)).modReach (reachOf p)
    (fun x => { x with paths := x.paths.map (adaptPaths (p.val % 4) frz d) })

/-- The training sequence begins at this end (R80). -/
def State.trainStart (s : State) (p : Fin 16) (full : Bool) : State :=
  s.modTx p (fun t => { t with train := some ⟨s.ticks, full, none⟩ })

/-- Ticks that the 256 negated training symbols last (R81). -/
def negTicks (m : LineMode) (fwd : Bool) : Nat := stepTicks (if m == .ldmt then 256 * 4506 else 256) (stepRate (some m) false fwd)

/-- Blocks begin at a tick (R81, R123, R126, R136, R207, R217): the seeds are loaded, the precoder memory is 0, SYNC is sent
until one is received, the triangle of the down-spread starts and the line settings of the mode act. A link that never
exchanged a GO cell has no seed for a scrambler; it then takes the seed that the port last held, a DESIGN CHOICE
(notes/assumptions/58.md). -/
def State.beginBlocks (s : State) (p : Fin 16) (m : LineMode) (at_ : Nat) : State :=
  let l := (s.port p).link
  ((if m == .lchirp then s else s.adaptRx p m).modPort p (fun x => { x with
    link := { x.link with blocksOn := true, blocksTick := at_ }
    tx := { x.tx with
      memory := 0, rest := [], past := []
      scr := if m == .lchirp then x.tx.scr else if l.leader then x.tx.seedL else x.tx.seedF
      descr := if m == .lchirp then x.tx.descr else if l.leader then x.tx.seedF else x.tx.seedL
      spreadTick := if x.tx.spread then some at_ else none, spreadBack := none }
    snd := { x.snd with synced := false }
    rcv := { x.rcv with highest := none }
    rx := { x.rx with duSf := x.tow.sf }
    dmt := { x.dmt with dTx := 0, dRx := 0, dTick := at_, clips := 0, lowB := false, lowRuns := [], upRun := 0, group := [], groupI := 0
                        pour := [], symbols := []
                        rx := if m == .ldmt then (match x.dmt.sent with | some (g, _) => g | none => x.dmt.rx) else {}
                        tx := if m == .ldmt then (match x.dmt.got with | some (g, _) => g | none => x.dmt.tx) else {}
                        sent := if m == .ldmt then none else x.dmt.sent
                        got := if m == .ldmt then none else x.dmt.got } })).lineSync p

/-- A link up (R83): MODE_ACT set, LINK_UP raised, slips counted afresh, the failures of the mode no longer in a row. -/
def State.linkUp (s : State) (p : Fin 16) (m : LineMode) (st : LinkState) : State :=
  let s1 := s.modPort p (fun x => { x with
    tx := { x.tx with train := none }
    rx := { x.rx with slips := 0 }
    watch := { x.watch with quietTick := some s.ticks } })
  let s2 := s1.goLink p (fun l => { l with
    state := st, modeAct := some m, train := none, lastFail := none, upTick := some s.ticks, ladder := {} })
  (s2.raise 0x0010 (portBlock p.val) p.val (wd (modeCode m))).lineSync p

/-- Transmit settings of a Locon mode (R124, R128, R130, R137): they act from its first symbol. -/
def State.modeSettings (s : State) (p : Fin 16) (m : LineMode) (bit_ spread : Bool) : State :=
  let taps := s.txTaps p m
  let fwd := fwdOut (s.policy p)
  (s.modTx p (fun t => { t with
    precode := precodeAct m bit_ fwd, spread := spread, spreadTick := none, spreadBack := none, train := none
    ffeA := taps.1, ffeB := taps.2 })).setSwing p (nominalSwing (some m) (m == .lchirp) false fwd)

/-- The wide run begins with its start marker (R94, R95). -/
def Towpath.wide (t : Towpath) (sf : Nat) : Towpath :=
  { t with profile := .wideRun, sf := sf, symCount := 0, chirps := startMarker .run sf }

/-- Training in an announced mode (R80, R81, R83, R89, R101, R118, R137): LCHIRP is up at once on its narrow run; every other
mode enters ECHO_LEARN on the wide underlay at the training level, the leader sending first. -/
def State.enterTraining (s : State) (p : Fin 16) (m : LineMode) (c : ModeCell) : State :=
  let l := (s.port p).link
  let sf := clampN 11 12 c.wideSf.toNat
  let s1 := (s.modLink p (fun l => { l with
    precode := c.precode, mayspread := c.followerMay, train := some m, echoTurns := 0 })).modTow p
      (fun t => { t with wideSf := sf, farSpread := !l.leader && c.leaderSpread })
  let s2 := s1.modeSettings p m c.precode (s.ownSpread p l.leader c.followerMay)
  if m == .lchirp then
    let s3 := (s2.txStop p).modTow p (fun t => { t with sf := clampN 7 12 c.lchirpSf.toNat })
    ((s3.linkUp p m .loconUp).narrowRun p (clampN 7 12 c.lchirpSf.toNat)).beginBlocks p m s.ticks
  else
    let s3 := (s2.txStop p).modTow p (fun t => { t.wide sf with level := 24 })
    let s4 := (s3.rxEnter p m false).goLink p (fun l => { l with state := .echoLearn })
    let s5 := s4.modDmt p (fun d => { d with sent := none, got := none, validGot := false, forced := [] })
    if l.leader then (s5.trainStart p false).txResume p else s5

/-- A training that failed (R83): cause 7; three failures of one mode in a row exclude it. -/
def State.trainFailed (s : State) (p : Fin 16) : State :=
  let l := (s.port p).link
  let s1 := match l.state, l.train with
    | .echoLearn, some m | .fullDuplex, some m =>
      let n := match l.lastFail with | some (x, k) => if x == m then k + 1 else 1 | none => 1
      s.modLink p (fun l => { l with
        lastFail := some (m, n)
        excluded := if 3 ≤ n && !l.excluded.contains m then l.excluded ++ [m] else l.excluded })
    | _, _ => s
  s1.linkDown p 7

/-- The seeds of a GO cell (R126): a received seed of 0 is used as 1. -/
def seedOf (v : BitVec 31) : BitVec 31 := if v = 0 then 1 else v

/-- The leader's GO (R81, R106, R126): both seeds drawn, never 0; COUNT is fixed as the cell is sent. -/
def State.queueGo (s : State) (p : Fin 16) : State :=
  let (d1, s1) := s.draw
  let (d2, s2) := s1.draw
  let a := BitVec.ofNat 31 ((Config.freeSeed d1).val + 1)
  let b := BitVec.ofNat 31 ((Config.freeSeed d2).val + 1)
  let s3 := s2.modTx p (fun t => { t with seedL := seedOf a, seedF := seedOf b })
  let s4 := s3.modTow p (fun t => { t with await := t.await.filter (fun e => e.cell.type != 3), goCount := none })
  s4.queueCell p 3 (goPayload 0 a b)

/-! ### Shifts (R85 to R87, R455) -/

/-- The bound of R86: three downshifts out of one mode within 60 s. -/
def downsOf (l : Link) (m : LineMode) (now : Nat) : Nat :=
  ((l.downs.filter (fun e => decide (now < e.2 + secTicks 60))).filter (fun e => e.1 == m)).length

/-- Whether a shift from mode `m` is a downshift out of it that R86 counts: not a retrain of the same mode, and not the
repeat of a downshift that runs. -/
def Link.countsDown (l : Link) (m target : LineMode) (kind : Nat) : Bool :=
  decide (kind = 0) && m != target && (match l.shift with | some sh => decide (sh.kind = 1) | none => true)

/-- The record of a shift that begins, or that goes on to another target. -/
def Link.shiftTo (l : Link) (m target : LineMode) (kind now : Nat) : ShiftRec :=
  match l.shift with
  | some sh => { sh with target := target, kind := kind, acked := false, retrained := false
                         touched := if sh.touched.contains target then sh.touched else sh.touched ++ [target] }
  | none => { left := m, target := target, kind := kind, acked := false, retrained := false
              touched := if m == target then [m] else [m, target], started := now }

/-- The shift begins at an end (R85): the leader at the trigger, the follower with its CACK. SHIFTING and STATE follow and
the set of the mode left is stored (R150, R189); a shift that had already left a mode sends no more blocks. -/
def State.shiftBegin (s : State) (p : Fin 16) (target : LineMode) (kind : Nat) (sf : Nat) : State :=
  let l := (s.port p).link
  match l.modeAct with
  | none => s
  | some m =>
    let s1 := s.modPort p (fun x => { (if l.shift.isNone then x.storeSet m else x) with
      dmt := { x.dmt with sent := none, msgSends := 0, lowB := false, resendDue := false }
      cal := if x.cal.running then { x.cal with item := 0 } else x.cal
      watch := { x.watch with quietTick := some s.ticks } })
    let s2 := s1.modTow p (fun t => { t with tpsf := none })
    let s3 := if target == .lchirp then s2.modTow p (fun t => { t with lchirpLow := 0, lchirpUp := 0, adopted := some (clampN 7 12 sf) }) else s2
    s3.goLink p (fun l => { l with
      state := .shift, shift := some (l.shiftTo m target kind s.ticks), train := some target
      blocksOn := l.blocksOn && (match l.shift with | some sh => !sh.acked | none => true)
      downs := if l.countsDown m target kind then (m, s.ticks) :: l.downs else l.downs
      upBars := if l.countsDown m target kind && decide (2 ≤ downsOf l m s.ticks) && !l.upBars.contains m
        then l.upBars ++ [m] else l.upBars })

/-- LCHIRP SF that the leader names (R105, R118). -/
def State.lchirpSfFor (s : State) (p : Fin 16) : Nat :=
  let t := (s.port p).tow
  selectSf (lsfMinAct (s.portReg p 0x20)) t.snrDb10 t.sf

/-- The leader's shift (R85 steps 1 and 2): the shift begins and a SHIFT cell is queued. -/
def State.leadShift (s : State) (p : Fin 16) (target : LineMode) (kind : Nat) : State :=
  let sf := if target == .lchirp then s.lchirpSfFor p else 0
  let s1 := s.shiftBegin p target kind sf
  s1.queueCell p 4 (shiftPayload (modeCode target) kind (ownDir (s.policy p)) sf)

/-- The follower asks for a shift (R84, R86). -/
def State.askShift (s : State) (p : Fin 16) (target : LineMode) (kind : Nat) : State :=
  s.queueCell p 5 (shiftPayload (modeCode target) kind (ownDir (s.policy p)) 0)

/-- Early exit from quiet (R308): the leader sends EXIT; its XQ of 0 is replaced, as the cell is sent, by a count 8 symbols
after the cell's last. -/
def State.earlyExit (s : State) (p : Fin 16) : State :=
  if (s.port p).quiet.state == .quiet && (s.port p).link.leader then
    s.queueCell p 9 (quietPayload 1 { deep := false, entry := 0, xq := 0, xchip := 0, dur := 0, qsf := BitVec.ofNat 8 (s.port p).tow.sf })
  else s

/-- A window that is not acted on (R302): counted, reported, its cause kept; a pending entry is given up. -/
def State.skipWindow (s : State) (p : Fin 16) (cause : Nat) : State :=
  (s.modQuiet p (fun q => { q with pend := none, window := none, skip := cause, skipped := satAdd 0xFFFF q.skipped 1 })).raise
    0x0019 (portBlock p.val) p.val (wd cause)

/-- A shift trigger at either end (R84, R86, R302, R310): ignored while SHIFTING; in quiet it waits for the exit; with an
ENTER sent and E not reached the window is aborted with cause 5; the leader shifts, the follower asks. -/
def State.trigger (s : State) (p : Fin 16) (target : LineMode) (kind : Nat) : State :=
  let x := s.port p
  match x.link.state with
  | .loconUp =>
    match x.quiet.state with
    | .quiet =>
      if x.link.leader then (s.modLink p (fun l => { l with deferred := some (target, kind) })).earlyExit p
      else s.askShift p target kind
    | .deep | .entering => s.modLink p (fun l => { l with deferred := some (target, kind) })
    | .active =>
      let s1 := match x.quiet.pend with
        | some (c, _) => (if x.link.leader then s.queueCell p 9 (quietPayload 2 c) else s).skipWindow p 5
        | none => s
      if x.link.leader then s1.leadShift p target kind else s1.askShift p target kind
  | _ => s

/-- The PRECODE bit of a shift (R124, R140): the leader's own condition, at the follower the last MODE cell's. -/
def State.shiftPrecode (s : State) (p : Fin 16) : Bool :=
  if (s.port p).link.leader then s.bothPrecode p else (s.port p).link.precode

/-- Main signals down, dividers changed and seeds loaded (R85 steps 3 to 6): the new mode's settings act, and the retrain
runs, or the narrow runs begin for LCHIRP. From a narrow run the wide one starts anew at the link's wide SF. -/
def State.shiftProceed (s : State) (p : Fin 16) : State :=
  let l := (s.port p).link
  match l.shift with
  | none => s
  | some sh =>
    let m := sh.target
    let pre := s.shiftPrecode p
    let s1 := (s.txStop p).modPort p (fun x => { x with
      link := { x.link with shift := some { sh with acked := true }, blocksOn := false, precode := pre }
      snd := { x.snd with synced := false } })
    let s2 := s1.modeSettings p m pre (s.ownSpread p l.leader l.mayspread)
    if m == .lchirp then s2.narrowRun p ((s.port p).tow.adopted.getD 12)
    else
      let s3 := s2.modTow p (fun t => if t.profile == .narrowRun then t.wide t.wideSf else { t with profile := .wideRun })
      let s4 := ((s3.rxEnter p m true).trainStart p true).txResume p
      if m == .ldmt then s4.modDmt p (fun d => { d with sent := none, got := none, validGot := false }) else s4

/-- FORCE_FAIL after a shift: it falls once the forced mode runs (R70). -/
def State.stillFails (s : State) (p : Fin 16) (m : LineMode) : Bool :=
  (s.port p).link.forceFail && s.forced p != some m

/-- A shift that has ended (R85, R392): the new mode in use, SHIFT raised, DG_HIST counted; triggers wait 2 ms before
counting updates. -/
def State.shiftDone (s : State) (p : Fin 16) : State :=
  let l := (s.port p).link
  match l.shift with
  | none => s
  | some sh =>
    let s1 := s.modPort p (fun x => { x with
      tx := { x.tx with train := none }
      watch := { x.watch with quietTick := some s.ticks } })
    let s2 := s1.goLink p (fun l => { l with
      state := .loconUp, modeAct := some sh.target, train := none, shift := none, forceFail := s.stillFails p sh.target
      shifts16 := satAdd 0xFFFF l.shifts16 1
      ladder := { l.ladder with below := 0, above := 0, settle := 2 }
      upNow := l.upNow && sh.target != .l50a })
    (s2.raise 0x0012 (portBlock p.val) p.val
      (wd (modeCode sh.left + 256 * modeCode sh.target + 65536 * sh.kind))).lineSync p

/-- A shift that has not converged (R85, R87, R455): the leader repeats to the next rung below the failed target. A forced
upshift goes back to the mode left with FORCE_FAIL, a forced retrain takes the link down with cause 10. With no rung below
the link goes down, cause 8 from LCHIRP, else 7. -/
def State.shiftFailed (s : State) (p : Fin 16) : State :=
  let l := (s.port p).link
  match l.shift with
  | none => s
  | some sh =>
    let s1 := if sh.kind = 2 then s.modLink p (fun l => { l with forceFail := true }) else s
    if sh.target == .lchirp then s.linkDown p 8
    else if sh.kind = 2 && sh.left == sh.target then s.linkDown p 10
    else if sh.kind = 2 && decide (rung sh.target < rung sh.left) then
      if l.leader then s1.leadShift p sh.left 0 else s1
    else
      match below (s.common p) sh.target with
      | [] => s.linkDown p 7
      | m :: _ => if l.leader then s1.leadShift p m (if sh.kind = 1 then 0 else sh.kind) else s1

end Sys2Proof.Machine
end

