-- ==== Sys2Proof/Machine/Basin.lean ====
section
/-! DEFINITION. The basin and the placement engine: banks and cells (R226 to R229), tickets (R230, R231), reservations and
admission (R235 to R237, R244), demotion and re-admission (R238 to R240), placement and moves (R243 to R247), the gates
that depend on room (R214, R250), release and receipt points, and the tag log (R407 to R409). -/

namespace Sys2Proof.Machine

/-! ### Small tools -/

/-- Insertion of an element into a list ordered by `le`, after its equals. -/
def insertBy {α : Type} (le : α → α → Bool) (a : α) : List α → List α
  | [] => [a]
  | b :: t => if le b a then b :: insertBy le a t else a :: b :: t

/-- A list ordered by `le`, stable. -/
def sortBy {α : Type} (le : α → α → Bool) (l : List α) : List α := l.foldl (fun acc a => insertBy le a acc) []

/-- The first element of a list that no later one beats. -/
def bestBy {α : Type} (better : α → α → Bool) : List α → Option α
  | [] => none
  | a :: t => some (t.foldl (fun b x => if better x b then x else b) a)

/-- Port of a queue number (R2). -/
def queuePort (q : Nat) : Fin 16 := portNo (q / 256)

/-! ### Banks and cells (R226, R227) -/

/-- The logical number that a physical bank serves. -/
def BankUse.logical : BankUse → Option Nat
  | .inService l => some l
  | .copying _ l => some l
  | .migrating l => some l
  | _ => none

/-- Whether new cells may be taken from a bank. -/
def BankUse.takes : BankUse → Bool
  | .inService _ | .copying _ _ => true
  | _ => false

/-- The banks as a list, in physical order. -/
def Basin.bankList (b : Basin) : List BankUse := b.banks.toList

/-- Logical banks in service (`BS_STAT.BANKS`). -/
def Basin.inService (b : Basin) : Nat := (b.bankList.filter (fun u => u.logical.isSome)).length

/-- Spare banks left. -/
def Basin.spares (b : Basin) : Nat := (b.bankList.filter (fun u => u == .spare)).length

/-- Physical bank of a logical bank. -/
def Basin.physOf (b : Basin) (l : Nat) : Option Nat := b.bankList.findIdx? (fun u => u.logical == some l)

/-- Cells that tickets hold in a logical bank. -/
def Basin.usedIn (b : Basin) (l : Nat) : Nat :=
  (b.tickets.flatMap (fun t => (t.cells.filter (fun c => c.1 == l)).map (·.2))).foldl (· + ·) 0

/-- Cells that tickets hold. -/
def Basin.ticketCells (b : Basin) : Nat := (b.tickets.flatMap (fun t => t.cells.map (·.2))).foldl (· + ·) 0

/-- Cells of the reorder stores: two for each held block (R207). -/
def State.reorderCells (s : State) : Nat := (allPorts.map (fun p => 2 * (s.port p).rcv.held.length)).foldl (· + ·) 0

/-- Free cells (`BS_CELLS.FREE`). -/
def State.freeCells (s : State) : Nat := 2048 * s.basin.inService - (s.basin.ticketCells + s.reorderCells)

/-- Free tickets (`BS_TICKETS.FREE`). -/
def State.freeTickets (s : State) : Nat := 65536 - s.basin.tickets.length

/-- Free cells of each logical bank that takes new cells, as (bank, free). -/
def Basin.frees (b : Basin) : List (Nat × Nat) :=
  (b.bankList.filterMap (fun u => if u.takes then u.logical else none)).map (fun l => (l, 2048 - b.usedIn l))

/-- Free cells of a region (R227). -/
def regionFree (fr : List (Nat × Nat)) (g : Nat) : Nat :=
  ((fr.filter (fun e => e.1 / 8 == g)).map (·.2)).foldl (· + ·) 0

/-- One cell taken: the home region while it has room, else the region with the most free cells; within a region the
lowest-numbered bank with room. -/
def takeCellOne (home : Nat) (fr : List (Nat × Nat)) : Option (Nat × List (Nat × Nat)) :=
  let g := if 0 < regionFree fr home then home
    else ((List.range 8).foldl (fun (b : Nat) g => if regionFree fr b < regionFree fr g then g else b) 0)
  match (fr.filter (fun e => e.1 / 8 == g && decide (0 < e.2))).foldl
      (fun (b : Option Nat) e => match b with | some x => some (min x e.1) | none => some e.1) none with
  | some l => some (l, fr.map (fun e => if e.1 == l then (e.1, e.2 - 1) else e))
  | none => none

/-- `n` cells taken, as banks. -/
def takeCells (home : Nat) : Nat → List (Nat × Nat) → List Nat
  | 0, _ => []
  | n + 1, fr =>
    match takeCellOne home fr with
    | some (l, fr') => l :: takeCells home n fr'
    | none => []

/-- A list of banks as counts. -/
def countBanks (l : List Nat) : List (Nat × Nat) := l.eraseDups.map (fun b => (b, l.count b))

/-- Cells of a frame of a length (R226). -/
def cellsOf (len : Nat) : Nat := ceilDiv len 256

/-! ### Reservations (R235, R236, R239) -/

/-- A stream's own reservation: tickets, cells and bytes. -/
def Queue.ownResv (q : Queue) : Nat × Nat × Nat :=
  let t := ceilDiv q.rB q.fMin
  (t, ceilDiv q.rB 256 + t, q.rB)

/-- Whether condition 3 of R237 gives the stream a floor: inbound hop or through on a port that allows a Locon mode. -/
def State.hasFloor (s : State) (q : Queue) : Bool :=
  !q.outbound && q.cls != .none && decide (0 < maxSkid (s.policy (queuePort q.num)))

/-- The floor that a demoted stream keeps (R239). -/
def State.floorResv (s : State) (q : Queue) : Nat × Nat × Nat :=
  if s.hasFloor q then
    let rb := 2 * maxSkid (s.policy (queuePort q.num))
    let t := ceilDiv rb q.fMin
    (t, ceilDiv rb 256 + t, rb)
  else (16, 16, 16 * 256)

/-- The reservation in force: tickets, cells, bytes. -/
def State.resv (s : State) (q : Queue) : Nat × Nat × Nat := if q.demoted then s.floorResv q else q.ownResv

/-- Basin bandwidth of a stream in Mb/s (R235). -/
def Queue.bw (q : Queue) : Rat := if q.demoted then 0 else 2 * q.bRes * (1 + 48 / (q.fMin : Rat))

/-- REORD as it acts: below 4 acts as 4 (R224). -/
def State.reord (s : State) (p : Fin 16) : Nat := max 4 (fld (s.portReg p 0x50) 8 8)

/-- Cells set aside by the part: the reorder store of every enabled port whose policy allows a Locon mode, and the margin
(R236); MARGIN_BANKS 5 to 7 act as 4. -/
def State.ownCells (s : State) : Nat :=
  ((allPorts.filter (fun p => s.enabled p && decide (0 < maxSkid (s.policy p)))).map (fun p => 32 * s.reord p)).foldl (· + ·) 0
    + 2048 * min 4 (s.fldOf (regKey 3 0x00) 0 3)

/-- Cells that admission may give out (R236). -/
def State.usableCells (s : State) : Nat := 2048 * s.basin.inService - s.ownCells

/-- Basin bandwidth that admission may give out, in Mb/s (R236): 90 % of 128 bit at 1.24375 GHz for each bank. -/
def State.usableBw (s : State) : Rat := (9 / 10) * 159200 * s.basin.inService

/-- Sums over streams: tickets, cells, hop cells. -/
def State.sumTickets (s : State) (l : List Queue) : Nat := (l.map (fun q => (s.resv q).1)).foldl (· + ·) 0
def State.sumCells (s : State) (l : List Queue) : Nat := (l.map (fun q => (s.resv q).2.1)).foldl (· + ·) 0
def State.sumHop (s : State) (l : List Queue) : Nat :=
  256 * s.sumCells (l.filter (fun q => !q.outbound && q.cls == .hop))
def sumBw (l : List Queue) : Rat := (l.map Queue.bw).foldl (· + ·) 0

/-! ### Room of a queue -/

/-- Tickets of a queue. -/
def State.ticketsOf (s : State) (q : Nat) : List Ticket := s.basin.tickets.filter (fun t => t.queue == q)

/-- Bytes, cells that a queue holds. -/
def State.heldBytes (s : State) (q : Nat) : Nat := ((s.ticketsOf q).map (·.len)).foldl (· + ·) 0
def State.heldCells (s : State) (q : Nat) : Nat := ((s.ticketsOf q).flatMap (fun t => t.cells.map (·.2))).foldl (· + ·) 0

/-- Free reservation of a queue in bytes. -/
def State.freeResv (s : State) (q : Queue) : Nat := (s.resv q).2.2 - s.heldBytes q.num

/-- Room for a frame (R231, R232, R239, R436): within the reservation, below the ticket count of R231, and with a free
ticket and free cells in the part. -/
def State.hasRoom (s : State) (q : Queue) (len : Nat) : Bool :=
  let r := s.resv q
  decide (s.heldBytes q.num + len ≤ r.2.2) && decide ((s.ticketsOf q.num).length < 32767)
    && (!q.demoted || (decide ((s.ticketsOf q.num).length < r.1) && decide (s.heldCells q.num + cellsOf len ≤ r.2.1)))
    && decide (0 < s.freeTickets) && decide (cellsOf len ≤ s.freeCells)

/-- Lowest sequence not yet released (R254 word 7). -/
def State.lowSeq (s : State) (q : Queue) : Seq16 :=
  match (s.ticketsOf q.num).find? (fun t => t.state != .filling) with
  | some t => t.seq
  | none => q.nextSeq

/-! ### Lanes (R235, R243, R258) -/

/-- TAG_FORM and NRZ of a lane. -/
def State.laneForm (s : State) (n : Fin 8) : Bool := bit (s.laneReg n.val 0) 4
def State.laneNrz (s : State) (n : Fin 8) : Bool := bit (s.laneReg n.val 0) 1

/-- O_h (R235). -/
def State.overhead (s : State) (n : Fin 8) : Nat := if s.laneForm n then 20 else 30

/-- Ceiling of a lane in Mb/s (R258). -/
def State.ceiling (s : State) (n : Fin 8) : Rat := if s.laneNrz n then 49200 else 98390

/-- B_host of a stream with a given overhead (R235): none for a demoted stream (R239). -/
def Queue.bHost (q : Queue) (oh : Nat) : Rat :=
  if q.demoted then 0 else (q.bRes * (q.fMin + oh) : Nat) / (q.fMin : Rat)

/-- The EtherType-form host bandwidth by which streams are ordered (R243). -/
def Queue.etherBw (q : Queue) : Rat := (q.bRes * (q.fMin + 30) : Nat) / (q.fMin : Rat)

/-- The usable lanes: up and in PL_LANE_MASK (R243). -/
def State.usableLanes (s : State) : List (Fin 8) :=
  allLanes.filter (fun n => (s.lane n).state == .up && (s.fldOf (regKey 3 0x21) 0 8).testBit n.val)

/-- The lane that a stream is placed on, a move counted at its target. -/
def Queue.placed (q : Queue) : Option Nat := match q.move with | some m => some m.dest | none => q.lane

/-- Reserved B_host of a lane in one direction. -/
def State.load (s : State) (qs : List Queue) (n : Fin 8) (out : Bool) : Rat :=
  ((qs.filter (fun q => q.placed == some n.val && q.outbound == out)).map (fun q => q.bHost (s.overhead n))).foldl (· + ·) 0

/-- A lane permitted by a stream's own mask. -/
def Queue.permits (q : Queue) (n : Fin 8) : Bool := q.laneMask.getLsbD n.val

/-- The lane of R243 for one stream on a placement: the permitted lane with the most room left, the lower number among
equals; a demoted stream needs no room (R239). -/
def State.placeOne (s : State) (qs : List Queue) (lanes : List (Fin 8)) (q : Queue) : Option (Fin 8) :=
  let cand := (lanes.filter q.permits).map (fun n => (n, s.ceiling n - s.load qs n q.outbound - q.bHost (s.overhead n)))
  (bestBy (fun (a b : Fin 8 × Rat) => decide (b.2 < a.2)) (cand.filter (fun e => q.demoted || decide (0 ≤ e.2)))).map (·.1)

/-- The order of R243. -/
def placeOrder (a b : Queue) : Bool := decide (b.etherBw < a.etherBw) || (a.etherBw == b.etherBw && decide (a.num ≤ b.num))

/-- Streams placed in turn on a placement: their lanes, or none where one does not fit. -/
def State.placeAll (s : State) (lanes : List (Fin 8)) : List Queue → List Queue → Option (List (Nat × Fin 8))
  | _, [] => some []
  | qs, q :: rest =>
    match s.placeOne qs lanes q with
    | some n =>
      (s.placeAll lanes (qs.filter (fun x => x.num != q.num) ++ [{ q with lane := some n.val, move := none }]) rest).map
        (fun l => (q.num, n) :: l)
    | none => none

/-- The protection check of R244 on a placement. -/
def State.protects (s : State) (qs : List Queue) : Bool :=
  let lanes := s.usableLanes
  lanes.all (fun n =>
    let on := qs.filter (fun q => q.placed == some n.val && !q.demoted)
    let rest := qs.filter (fun q => !(q.placed == some n.val && !q.demoted))
    on.isEmpty || (s.placeAll (lanes.filter (· != n)) rest (sortBy placeOrder on)).isSome)

/-- `PL_STAT.PROT_SHORT` (R245, R253): a lane is lost, or protection cannot be met with the lanes up. -/
def State.protShort (s : State) : Bool :=
  allLanes.any (fun n => (s.lane n).state == .lost) || !s.protects s.basin.queues

/-! ### Control frames to the host (R264 to R268) -/

/-- A control entry queued; a RELEASE of the same queue still waiting is replaced (R266). -/
def State.pushCtrl (s : State) (kind : Nat) (x : Bool) (q : Nat) (seq : Seq16) : State :=
  let e : CtrlOut := ⟨kind, ⟨x, BitVec.ofNat 12 q, seq⟩⟩
  let old := if kind = 2 then s.basin.ctrlOut.filter (fun c => !(c.kind == 2 && c.entry.qid == BitVec.ofNat 12 q))
    else s.basin.ctrlOut
  { s with basin := { s.basin with ctrlOut := old ++ [e] } }

/-- PLACE for an outbound queue (R266). -/
def State.announce (s : State) (q : Queue) (n : Nat) : State :=
  if q.outbound then s.pushCtrl 6 false q.num (BitVec.ofNat 16 n) else s

/-- The release point of an outbound queue (R230): hop frames at QUEUED, through frames when freed. -/
def State.releasePoint (s : State) (q : Queue) : Seq16 := if q.cls == .hop then q.nextSeq else s.lowSeq q

/-- A release notice, withheld while PFAIL_N holds the part frozen (R428 step 3). -/
def State.sendRelease (s : State) (q : Nat) : State :=
  match s.queue? q with
  | none => s
  | some x =>
    if x.cls == .none || !x.outbound then s
    else if s.sup.pfailFrozen then s.modQueue q (fun y => { y with relHeld := true })
    else (s.pushCtrl 2 false q (s.releasePoint x)).modQueue q (fun y => { y with relRepeat := true, relHeld := false })

/-- RESEND_FROM, at most one for each queue in 10 µs (R266). -/
def State.resendFrom (s : State) (q : Nat) : State :=
  match s.queue? q with
  | none => s
  | some x =>
    let due := match x.resendAt with | some t => decide (t + usTicks 10 ≤ s.ticks) | none => true
    if due then (s.pushCtrl 5 false q x.nextSeq).modQueue q (fun y => { y with resendAt := some s.ticks }) else s

/-- QFLOW of an outbound queue brought in line with its free reservation (R268). -/
def State.qflowSync (s : State) (q : Nat) : State :=
  match s.queue? q with
  | none => s
  | some x =>
    if !x.outbound then s
    else
      let tx := min 65536 (x.rB / 2)
      let free := s.freeResv x
      if !x.qflow && decide (free < tx) then (s.pushCtrl 4 true q 0).modQueue q (fun y => { y with qflow := true })
      else if x.qflow && decide (2 * tx ≤ free) then (s.pushCtrl 4 false q 0).modQueue q (fun y => { y with qflow := false })
      else s

/-! ### Gates (R214, R250) -/

/-- The gate bit of a class (R195). -/
def gateBit : Custody → Nat
  | .none => 0 | .hop => 1 | .through => 2

/-- Streams of a class open inbound on a port. -/
def State.gateStreams (s : State) (p : Fin 16) (c : Custody) : List Queue :=
  s.basin.queues.filter (fun q => !q.outbound && q.cls == c && q.num / 256 == p.val && q.closing.isNone)

/-- Whether a stream asks for its class to be closed, and whether it allows it to reopen (R214, R231, R239). -/
def State.wantsShut (s : State) (skid : Nat) (q : Queue) : Bool :=
  decide (32767 ≤ (s.ticketsOf q.num).length) ||
  (if q.demoted && q.cls != .none then decide ((s.resv q).2.2 ≤ s.heldBytes q.num) else decide (s.freeResv q < skid))
def State.letsOpen (s : State) (skid : Nat) (q : Queue) : Bool :=
  decide ((s.ticketsOf q.num).length < 32767) &&
  (if q.demoted && q.cls != .none then decide (s.heldBytes q.num < (s.resv q).2.2) else decide (2 * skid ≤ s.freeResv q))

/-- One class gate of a port (R214). -/
def State.gateOne (s : State) (p : Fin 16) (skid : Nat) (c : Custody) : State :=
  let l := s.gateStreams p c
  let i := gateBit c
  if l.any (s.wantsShut skid) then s.modRcv p (fun r => { r with gateCls := setBit r.gateCls i true })
  else if l.all (s.letsOpen skid) then s.modRcv p (fun r => { r with gateCls := setBit r.gateCls i false })
  else s

/-- The class gates of a port. -/
def State.gateSync (s : State) (p : Fin 16) : State :=
  match s.skid p with
  | some k => ((s.gateOne p k .none).gateOne p k .hop).gateOne p k .through
  | none => s

/-- Bytes of cells held by inbound hop frames that the line has acknowledged (R250). -/
def State.hopHeld (s : State) : Nat :=
  256 * ((s.basin.tickets.filter (fun t => !t.outbound && t.state != .filling &&
    (match s.queue? t.queue with | some q => q.cls == .hop | none => false))).flatMap (fun t => t.cells.map (·.2))).foldl (· + ·) 0

/-- BS_HOP_CAP in bytes. -/
def State.hopCap (s : State) : Nat := s.fldOf (regKey 3 0x01) 0 9 * 65536

/-- The hop gate of R250: closes when the held amount and twice the largest skid reach the cap, reopens 1 MiB lower. -/
def State.hopSync (s : State) : State :=
  let held := s.hopHeld
  match s.basin.hopGate with
  | none => if s.hopCap ≤ held + 2 * 30498 then { s with basin := { s.basin with hopGate := some held } } else s
  | some at_ => if held + 2 ^ 20 ≤ at_ then { s with basin := { s.basin with hopGate := none } } else s

/-- Everything that follows a change of what a queue holds: its port's gates, the hop cap, QFLOW. -/
def State.flowSync (s : State) (q : Nat) : State := ((s.gateSync (queuePort q)).hopSync).qflowSync q

/-! ### The tag log (R407 to R409) -/

/-- `PC_TAG` as it acts. -/
def State.pcTag (s : State) : Word := s.act (regKey 4 0x04)

/-- The LFSR of R407: x^32 + x^22 + x^2 + x + 1, one step. -/
def lfsrStep (v : Word) : Word :=
  let t := v.getLsbD 31 != (v.getLsbD 21 != (v.getLsbD 1 != v.getLsbD 0))
  (v <<< 1) ||| (if t then 1 else 0)

/-- Whether a frame passes the DIR and QF filters. -/
def tagFilter (pc : Word) (q : Nat) (out : Bool) : Bool :=
  let d := fld pc 29 2
  (d == 0 || d == 3 || (d == 1 && !out) || (d == 2 && out)) && (!bit pc 12 || fld pc 0 12 == q)

/-- Frames tagged and in flight. -/
def State.tagged (s : State) : Nat := (s.basin.tickets.filter (fun t => t.trace.isSome)).length

/-- The selection made when a ticket is issued (R407): the trace that the ticket starts with. -/
def State.tagPick (s : State) (q : Nat) (out : Bool) : Option (List (Nat × Word)) × State :=
  let pc := s.pcTag
  if bit pc 31 && tagFilter pc q out then
    let l := lfsrStep s.tally.lfsr
    let s1 := { s with tally := { s.tally with lfsr := l } }
    if fld l 0 (clampN 4 20 (fld pc 20 5)) = 0 then
      if s.tally.logFull then (none, s1)
      else if s.tagged < 16 then (some [(1, tsOf s.time.now)], s1.count 4 1 1)
      else (none, s1.count 4 2 1)
    else (none, s1)
  else (none, s)

/-- A stage reached by a ticket (R408): the first sending counts. -/
def Ticket.stage (t : Ticket) (k : Nat) (now : Word) : Ticket :=
  { t with trace := t.trace.map (fun (l : List (Nat × Word)) => if l.any (fun e => e.1 == k) then l else l ++ [(k, now)]) }

/-- A stage of one ticket. -/
def State.stage (s : State) (id k : Nat) : State := s.modTicket id (fun t => t.stage k (tsOf s.time.now))

/-- The words of a log entry (R409). -/
def logWords (n : Nat) (t : Ticket) (tr : List (Nat × Word)) (discarded : Bool) : List Word :=
  let w1 := put 20 12 t.queue ||| flag 19 t.outbound ||| flag 18 discarded ||| flag 17 t.resent ||| flag 16 t.late
    ||| put 0 16 t.seq.toNat
  let at_ := fun k => match tr.find? (fun e => e.1 == k) with | some e => e.2 | none => 0
  let valid := (List.range 8).foldl (fun (v : Word) i => v ||| flag i (tr.any (fun e => e.1 == i + 1))) 0
  [wd n, w1, valid] ++ (List.range 8).map (fun i => at_ (i + 1)) ++ List.replicate 5 0

/-- The entry of a freed ticket written into the log (R409). -/
def State.logTicket (s : State) (t : Ticket) (discarded : Bool) : State :=
  match (t.stage 8 (tsOf s.time.now)).trace with
  | none => s
  | some tr =>
    if s.tally.logFull then s
    else
      let n := s.tally.logNext
      let s1 := { s with tally := { s.tally with
        log := tabIns s.tally.log n (logWords s.tally.logSeq t tr discarded)
        logNext := (n + 1) % 1024, logSeq := s.tally.logSeq + 1 } }
      let s2 := s1.count 4 3 1
      if bit s.pcTag 28 && decide (1024 ≤ s2.tally.log.length) then
        ({ s2 with tally := { s2.tally with logFull := true } }).raise 0x0052 4 0 1024
      else s2

/-! ### Tickets (R230) -/

/-- A ticket issued in FILLING with its cells (R227, R230); the caller has checked that there is room. -/
def State.issue (s : State) (q : Queue) (len : Nat) (rsnd : Bool) : Nat × State :=
  let (tr, s1) := s.tagPick q.num q.outbound
  let id := s1.basin.nextId
  let t : Ticket := {
    id := id, queue := q.num, outbound := q.outbound, state := .filling, len := len, rsnd := rsnd
    ts := tsOf s1.time.now, deadline := s1.ticks + usTicks q.lat, trace := tr
    cells := countBanks (takeCells q.region (cellsOf len) s1.basin.frees) }
  let s2 := { s1 with basin := { s1.basin with tickets := s1.basin.tickets ++ [t], nextId := id + 1 } }
  (id, (s2.count 3 0 1).count 3 7 (cellsOf len))

/-- A ticket freed, by release or by discard (R230, R409). -/
def State.freeTicket (s : State) (id : Nat) (discarded : Bool) : State :=
  match s.ticket? id with
  | none => s
  | some t =>
    let s1 := s.modTickets (fun l => l.filter (fun x => x.id != id))
    ((s1.logTicket t discarded).count 3 1 1).flowSync t.queue

/-- Tickets freed one after another. -/
def State.freeAll (s : State) (ids : List Nat) (discarded : Bool) : State := ids.foldl (fun t i => t.freeTicket i discarded) s

/-- An inbound ticket whose last byte is written (R230): QUEUED with the next queue sequence. -/
def State.queueTicket (s : State) (id : Nat) : State :=
  match s.ticket? id with
  | none => s
  | some t =>
    match s.queue? t.queue with
    | none => s.freeTicket id true
    | some q =>
      let s1 := s.modTicket id (fun t => { t.stage 2 (tsOf s.time.now) with state := .queued, seq := q.nextSeq })
      (s1.modQueue q.num (fun q => { q with nextSeq := q.nextSeq + 1 })).flowSync q.num

/-! ### Moves (R246, R247) -/

/-- Whether a stream may move outside lane loss: at most once in 1 s. -/
def Queue.mayMove (q : Queue) (now : Nat) : Bool :=
  q.move.isNone && (match q.movedAt with | some t => decide (t + secTicks 1 ≤ now) | none => true)

/-- A move of a queue to a lane: an outbound queue is announced at once; an inbound one waits for its marker (R247). -/
def State.startMove (s : State) (q : Nat) (n : Fin 8) : State :=
  match s.queue? q with
  | none => s
  | some x =>
    if x.placed = some n.val then s
    else if x.outbound || x.lane.isNone then
      (s.modQueue q (fun y => { y with lane := some n.val, movedAt := some s.ticks })).announce x n.val
    else if x.lane = some n.val then s.modQueue q (fun y => { y with move := none, movedAt := some s.ticks })
    else s.modQueue q (fun y => { y with move := some ⟨n.val, x.move.bind (·.marker)⟩, movedAt := some s.ticks })

/-- A queue put on a lane at once, with its unreceipted frames to be resent (R245, R249). -/
def State.restartOn (s : State) (q : Nat) (n : Option (Fin 8)) : State :=
  match s.queue? q with
  | none => s
  | some x =>
    let s1 := s.modQueue q (fun y => { y with lane := n.map (fun n => n.val), move := none, movedAt := some s.ticks })
    let s2 := if x.cls == .none then s1 else s1.modTickets (List.map (fun (t : Ticket) =>
      if t.queue = q ∧ t.outbound = false ∧ t.state = .sent then { t with resend := true } else t))
    match n with | some n => s2.announce x n.val | none => s2

/-- A move that has ended: the queue runs on its new lane. -/
def State.endMove (s : State) (q : Nat) : State :=
  s.modQueue q (fun y => match y.move with | some m => { y with lane := some m.dest, move := none } | none => y)

/-! ### Admission (R237) -/

/-- Admission statuses of R385. -/
def admStatus (cond : Nat) : Nat := 0x100 + cond

/-- Conditions 4 to 8 of R237 for a stream beside the others. -/
def State.admitSums (s : State) (q : Queue) (others : List Queue) : Option Nat :=
  let own := q.ownResv
  if 32767 < own.1 ∨ 65536 < s.sumTickets others + own.1 then some (admStatus 4)
  else if s.usableCells < s.sumCells others + own.2.1 then some (admStatus 5)
  else if q.outbound = false ∧ q.cls = .hop ∧ s.hopCap < s.sumHop others + 256 * own.2.1 then some (admStatus 6)
  else if s.usableBw < sumBw others + q.bw then some (admStatus 7)
  else
    let line := ((others.filter (fun x => x.num / 256 == q.num / 256 && x.outbound == q.outbound && !x.demoted)).map
      (·.bRes)).foldl (· + ·) 0 + q.bRes
    if over98 line (s.linePay (queuePort q.num) q.outbound) then some (admStatus 8) else none

/-- What admission puts in force (R237 condition 9): the stream's lane, and the one move that makes room. -/
structure Plan where
  lane : Fin 8
  move : Option (Nat × Fin 8) := none
  deriving DecidableEq, Repr

/-- The placement of condition 9: where the stream stands while it still fits there (R246), else R243 on the present
placement, else the first single move that makes room, smallest stream first and lowest lane first. -/
def State.planFor (s : State) (q : Queue) (others : List Queue) : Option Plan :=
  let lanes := s.usableLanes
  let stay := lanes.find? (fun n => q.placed == some n.val && q.permits n &&
    decide (s.load others n q.outbound + q.bHost (s.overhead n) ≤ s.ceiling n))
  match stay with
  | some n => some { lane := n }
  | none =>
    match s.placeOne others lanes q with
    | some n => some { lane := n }
    | none =>
      let cand := (sortBy (fun a b => placeOrder b a) (others.filter (fun x => x.mayMove s.ticks && !x.demoted && x.closing.isNone))).flatMap
        (fun x => ((lanes.filter (fun n => x.permits n && x.placed != some n.val)).map (fun n => (x, n))))
      cand.findSome? (fun (x, n) =>
        let rest := others.filter (fun y => y.num != x.num)
        if s.load rest n x.outbound + x.bHost (s.overhead n) ≤ s.ceiling n then
          (s.placeOne (rest ++ [{ x with lane := some n.val, move := none }]) lanes q).map (fun m => { lane := m, move := some (x.num, n) })
        else none)

/-- The placement that a plan leads to. -/
def planned (q : Queue) (others : List Queue) (pl : Plan) : List Queue :=
  (others.map (fun x => match pl.move with
    | some (k, n) => if x.num = k then { x with lane := some n.val, move := none } else x
    | none => x)) ++ [{ q with lane := some pl.lane.val, move := none }]

/-- Conditions 4 to 10 (R237). -/
def State.admitted (s : State) (q : Queue) (others : List Queue) : Except Nat Plan :=
  match s.admitSums q others with
  | some e => .error e
  | none =>
    match s.planFor q others with
    | none => .error (admStatus 9)
    | some pl =>
      if s.fldOf (regKey 3 0x20) 0 1 = 1 ∧ s.protects (planned q others pl) = false then .error (admStatus 10) else .ok pl

/-- Condition 2: every attribute within R232. -/
def State.attrsOk (s : State) (q : Queue) : Bool :=
  decide (1 ≤ q.bRes ∧ q.bRes ≤ 49700 ∧ 25 ≤ q.lat ∧ q.lat ≤ 1000000 ∧ q.rB ≤ 33554432 ∧ 64 ≤ q.fMin ∧ q.fMin ≤ 9600)
    && decide (q.laneMask.toNat &&& s.fldOf (regKey 3 0x21) 0 8 ≠ 0)

/-- Condition 3. -/
def State.skidOk (s : State) (q : Queue) : Bool :=
  !s.hasFloor q || decide (2 * maxSkid (s.policy (queuePort q.num)) ≤ q.rB)

/-- The home region with the least reserved basin bandwidth, the lowest among equals (R243). -/
def homeRegion (qs : List Queue) : Nat :=
  let bw := fun g => sumBw (qs.filter (fun q => q.region == g))
  (List.range 8).foldl (fun b g => if bw g < bw b then g else b) 0

/-- A plan carried out. -/
def State.applyPlan (s : State) (q : Nat) (pl : Plan) : State :=
  let s1 := match pl.move with | some (k, n) => s.startMove k n | none => s
  s1.startMove q pl.lane

/-- The other queues. -/
def State.others (s : State) (q : Nat) : List Queue := s.basin.queues.filter (fun x => x.num != q)

/-! ### Demotion and re-admission (R238 to R240) -/

/-- The order of R238: priority, then class, then the stream opened most recently. -/
def demoteBefore (a b : Queue) : Bool :=
  if a.prio ≠ b.prio then decide (a.prio < b.prio)
  else if gateBit a.cls ≠ gateBit b.cls then decide (gateBit a.cls < gateBit b.cls)
  else decide (b.order < a.order)

/-- The next stream to demote. -/
def State.nextDemote (s : State) : Option Queue :=
  bestBy demoteBefore (s.basin.queues.filter (fun q => !q.demoted && q.closing.isNone))

/-- A stream demoted (R239): the event names it and the resource that ran short. -/
def State.demote (s : State) (q status : Nat) : State :=
  let s1 := s.modQueue q (fun x => { x with demoted := true })
  ((s1.raise 0x0020 3 0 (wd q) (wd status)).count 3 6 1).flowSync q

/-- Which sum no longer fits, if any (R238). -/
def State.sumShort (s : State) : Option Nat :=
  if s.usableCells < s.sumCells s.basin.queues then some (admStatus 5)
  else if s.usableBw < sumBw s.basin.queues then some (admStatus 7)
  else none

/-- Streams demoted one at a time until the sums fit. -/
def State.shrink : Nat → State → State
  | 0, s => s
  | n + 1, s =>
    match s.sumShort, s.nextDemote with
    | some e, some q => State.shrink n (s.demote q.num e)
    | _, _ => s

/-- Demotion until every sum fits. -/
def State.shrinkAll (s : State) : State := s.shrink s.basin.queues.length

/-- Streams to be re-placed (their lane is gone): placed by R243, with demotions by R238 until they fit. A demoted stream
goes to any permitted lane; one with no permitted lane left stays without a lane. -/
def State.replaceStreams : Nat → State → List Nat → (State → Nat → Option (Fin 8) → State) → State
  | 0, s, _, _ => s
  | n + 1, s, nums, go =>
    let todo := sortBy placeOrder (s.basin.queues.filter (fun q => nums.contains q.num))
    let rest := s.basin.queues.filter (fun q => !nums.contains q.num)
    let lanes := s.usableLanes
    let live := todo.filter (fun q => !q.demoted)
    match s.placeAll lanes rest live with
    | some l =>
      let s1 := l.foldl (fun t e => go t e.1 (some e.2)) s
      (todo.filter (fun q => q.demoted)).foldl (fun t q => go t q.num (t.placeOne (t.others q.num) t.usableLanes q)) s1
    | none =>
      match s.nextDemote with
      | some q => State.replaceStreams n (s.demote q.num (admStatus 9)) nums go
      | none => s

/-- Re-placement of a list of streams. -/
def State.replaceAll (s : State) (nums : List Nat) (go : State → Nat → Option (Fin 8) → State) : State :=
  s.replaceStreams (s.basin.queues.length + 1) nums go

/-- Demoted streams in the reverse of the order of R238, re-admitted until one fails (R240). -/
def State.restoreGo : Nat → State → State
  | 0, s => s
  | n + 1, s =>
    match bestBy (fun a b => demoteBefore b a) (s.basin.queues.filter (fun q => q.demoted && q.closing.isNone)) with
    | none => s
    | some q =>
      let whole := { q with demoted := false }
      match s.admitted whole (s.others q.num) with
      | .error _ => s
      | .ok pl =>
        let s1 := (s.modQueue q.num (fun x => { x with demoted := false })).applyPlan q.num pl
        State.restoreGo n ((s1.raise 0x0021 3 0 (wd q.num)).flowSync q.num)

/-- Re-admission (R240). -/
def State.restore (s : State) : State := s.restoreGo s.basin.queues.length

/-! ### Rebalancing (R246) -/

/-- The highest load over lanes in one direction. -/
def State.highest (s : State) (qs : List Queue) (out : Bool) : Rat :=
  (s.usableLanes.map (fun n => s.load qs n out)).foldl max 0

/-- The move of one check in one direction: the smallest stream, from a lane above the mean by more than 10 % of its
ceiling, whose move lowers the highest load. -/
def State.rebalanceMove (s : State) (out : Bool) : Option (Nat × Fin 8) :=
  let lanes := s.usableLanes
  let qs := s.basin.queues
  let mean := (lanes.map (fun n => s.load qs n out)).foldl (· + ·) 0 / (lanes.length : Rat)
  let high := lanes.filter (fun n => decide (mean + s.ceiling n / 10 < s.load qs n out))
  let cand := sortBy (fun a b => placeOrder b a) (qs.filter (fun q => q.outbound == out && !q.demoted && q.mayMove s.ticks
    && high.any (fun n => q.placed == some n.val)))
  cand.findSome? (fun q =>
    let rest := qs.filter (fun x => x.num != q.num)
    match s.placeOne rest (lanes.filter (fun n => q.placed != some n.val)) q with
    | some n =>
      if s.highest (rest ++ [{ q with lane := some n.val, move := none }]) out < s.highest qs out then some (q.num, n) else none
    | none => none)

/-- One rebalancing check: at most one move; none in the block's parity safe state (R360). -/
def State.rebalance (s : State) : State :=
  if s.safeBlock 3 then s else
  match s.rebalanceMove false with
  | some (q, n) => s.startMove q n
  | none =>
    match s.rebalanceMove true with
    | some (q, n) => s.startMove q n
    | none => s

/-! ### Bank repair (R228, R229) -/

/-- The use of a physical bank. -/
def State.bank (s : State) (b : Fin 68) : BankUse := s.basin.banks.get b

/-- The use of a physical bank changed. -/
def State.setBank (s : State) (b : Fin 68) (u : BankUse) : State :=
  { s with basin := { s.basin with banks := s.basin.banks.set b.val u b.isLt } }

/-- The lowest-numbered spare. -/
def State.lowestSpare (s : State) : Option (Fin 68) := (List.finRange 68).find? (fun b => s.bank b == .spare)

/-- `BS_STAT.REPAIR`: a copy or a cell migration runs. -/
def State.repairing (s : State) : Bool :=
  s.basin.bankList.any (fun u => match u with | .copying _ _ | .migrating _ => true | _ => false)

/-- A rotation's copy that a repair abandons (R411): the receiving spare returns and the bank under copy stays. -/
def State.dropRotation (s : State) : State :=
  match s.test.bank with
  | some t =>
    let s0 := (List.finRange 68).foldl (fun (x : State) b =>
      match x.bank b with
      | .copying tg l => if b.val = t then
          (List.finRange 68).foldl (fun (y : State) c => if c.val = tg then y.setBank c .spare else y) (x.setBank b (.inService l))
        else x
      | _ => x) s
    if s.test.marching then s else { s0 with test := { s0.test with bank := none } }
  | none => s

/-- A failing bank (R228, R229): copied into the lowest spare, or retired when there is none. -/
def State.repairBank (s : State) (b : Fin 68) : State :=
  match s.bank b with
  | .inService l =>
    let s1 := s.dropRotation
    match s1.lowestSpare with
    | some t => (s1.setBank b (.copying t.val l)).setBank t (.receiving l)
    | none => (s1.setBank b (.migrating l)).raise 0x0024 3 0 (wd l) 1
  | .copying _ l =>
    if s.test.bank = some b.val ∧ s.test.marching = false then
      let s1 := s.dropRotation
      match s1.lowestSpare with
      | some t => (s1.setBank b (.copying t.val l)).setBank t (.receiving l)
      | none => (s1.setBank b (.migrating l)).raise 0x0024 3 0 (wd l) 1
    else s
  | _ => s

end Sys2Proof.Machine
end

