-- ==== Sys2Proof/Machine/Lanes.lean ====
section
/-! DEFINITION. Host lanes: tag words and frames (R259 to R263), control frames (R264 to R266), lane service (R242), receipts
(R265), pause (R267), lane start, loss and return (R245, R269 to R271), and the release mark R of a port (R212). -/

namespace Sys2Proof.Machine

/-! ### Frames on a lane -/

/-- The eight tag bytes (R259). -/
def tagBytes (t : TagWord) : List Byte :=
  bytesBE 8 (t.qid.toNat * 2 ^ 52 + (if t.ctrl then 2 ^ 51 else 0) + (if t.resend then 2 ^ 50 else 0)
    + (if t.rsnd then 2 ^ 49 else 0) + (if t.move then 2 ^ 48 else 0) + t.seq.toNat * 2 ^ 32 + t.ts.toNat)

/-- The FCS of some bytes, inverted where R263 asks for it. -/
def fcsOf (bs : List Byte) (inv : Bool) : List Byte := crcBytes (if inv then ~~~(crc32 bs) else crc32 bs)

/-- The octets of a frame from destination address to FCS as a lane carries them (R261 to R263): with the EtherType
insertion and a recomputed FCS in form 0, unchanged in form 1. -/
def wireFrame (form : Bool) (tag : TagWord) (frame : List Byte) (inv : Bool) : List Byte :=
  let body := frame.take (frame.length - 4)
  if form then if inv then body ++ fcsOf body true else frame
  else
    let b := body.take 12 ++ [0x88, 0xB5] ++ tagBytes tag ++ body.drop 12
    b ++ fcsOf b inv

/-- The eight entry words of a control frame's body (R264). -/
def entryBytes (e : CtrlEntry) : List Byte :=
  bytesBE 4 ((if e.x then 2 ^ 31 else 0) + e.qid.toNat * 2 ^ 16 + e.seq.toNat)

/-- A control frame as a lane carries it (R264): at least 64 octets overall. -/
def ctrlFrame (form : Bool) (tag : TagWord) (kind : Nat) (es : List CtrlEntry) : List Byte :=
  let addr : List Byte := [0x02, 0x43, 0x4D, 0x00, 0x16, 0x50, 0x02, 0x43, 0x4D, 0x00, 0x16, 0x51]
  let body := [BitVec.ofNat 8 kind, BitVec.ofNat 8 es.length, 0, 0] ++ es.flatMap entryBytes
  let b := addr ++ [0x88, 0xB5] ++ (if form then [] else tagBytes tag) ++ body
  let b' := b ++ List.replicate (60 - b.length) 0
  b' ++ fcsOf b' false

/-- The slot classes that a frame occupies, in octets (R261, R262, R405): `data` when its octets retire. -/
def frameSlots (form data : Bool) (len : Nat) : List (Nat × Nat) :=
  if data then if form then [(1, 9), (0, len), (1, 11)] else [(1, 8), (0, 12), (1, 10), (0, len - 12), (1, 11)]
  else [(1, (if form then 9 else 8) + len + 11)]

/-! ### The release mark R (R205, R212) -/

/-- Through-custody tickets of a port that still want their receipt, with the block of their last byte. -/
def State.throughBlocks (s : State) (p : Fin 16) : List Seq24 :=
  s.basin.tickets.filterMap (fun t =>
    if !t.outbound && t.queue / 256 == p.val && t.state != .filling &&
        (match s.queue? t.queue with | some q => q.cls == .through | none => false) then t.blk else none)

/-- R brought in line (R212), unless it is frozen (R428 step 3). -/
def State.relSync (s : State) (p : Fin 16) : State :=
  if s.sup.pfailFrozen then s
  else
    let l := s.throughBlocks p
    s.modRcv p (fun r => { r with
      r := match bestBy (fun x y => decide (seqDiff x r.a < seqDiff y r.a)) l with | some b => b | none => r.a })

/-! ### Lane service (R242) -/

/-- Queues that a lane serves. -/
def State.served (s : State) (n : Fin 8) : List Queue :=
  s.basin.queues.filter (fun q => !q.outbound && q.lane == some n.val)

/-- The first frame of a queue that waits for its first sending. -/
def State.headOf (s : State) (q : Queue) : Option Ticket :=
  if q.move.isSome || decide (32767 ≤ (s.ticketsOf q.num).length && (s.ticketsOf q.num).any (fun t => t.state == .sent)) then none
  else (s.ticketsOf q.num).find? (fun t => t.state == .queued)

/-- What lane service sends next. -/
inductive Service where
  | ctrl (kind : Nat)
  | resend (id : Nat)
  | marker (q : Nat)
  | admitted (id : Nat)
  | excess (id : Nat)
  | idle
  deriving DecidableEq, Repr

/-- The order of the admitted class: higher priority, then earlier deadline. -/
def admittedBefore (a b : Queue × Ticket) : Bool :=
  if a.1.prio ≠ b.1.prio then decide (b.1.prio < a.1.prio) else decide (a.2.deadline < b.2.deadline)

/-- The order of the excess class: higher priority, then round-robin after queue `rr`. -/
def excessBefore (rr : Nat) (a b : Queue × Ticket) : Bool :=
  if a.1.prio ≠ b.1.prio then decide (b.1.prio < a.1.prio)
  else decide ((a.1.num + 4096 - rr - 1) % 4096 < (b.1.num + 4096 - rr - 1) % 4096)

/-- The pick among first sendings by classes 2 and 3 of R242. -/
def pickHead (heads : List (Queue × Ticket)) (rr : Nat) : Option (Bool × Nat × Nat) :=
  match bestBy admittedBefore (heads.filter (fun e => !e.1.demoted && decide (0 < e.1.credit))) with
  | some (q, t) => some (true, q.num, t.id)
  | none => (bestBy (excessBefore rr) heads).map (fun e => (false, e.1.num, e.2.id))

/-- The choice of R242 for a lane: control frames, resent frames and move markers, then admitted queues with credit, then
excess. -/
def State.pickService (s : State) (n : Fin 8) : Service :=
  match s.basin.ctrlOut with
  | c :: _ => .ctrl c.kind
  | [] =>
    let qs := s.served n
    match (s.basin.tickets.find? (fun t => t.resend && qs.any (fun q => q.num == t.queue))) with
    | some t => .resend t.id
    | none =>
      match qs.find? (fun q => match q.move with | some m => m.marker.isNone | none => false) with
      | some q => .marker q.num
      | none =>
        let heads := qs.filterMap (fun q => (s.headOf q).map (fun t => (q, t)))
        match pickHead heads (s.lane n).rr with
        | some (true, _, id) => .admitted id
        | some (false, _, id) => .excess id
        | none => .idle

/-- A frame put on a lane. -/
def State.laneSend (s : State) (n : Fin 8) (f : HostFrame) (data : Bool) (len : Nat) : State :=
  s.modLane n (fun l => { l with last := some f, slots := l.slots ++ frameSlots (s.laneForm n) data len })

/-- A control frame sent: every waiting entry of its kind, 64 at most, and the lane's control-frame count (R259, R264). -/
def State.sendCtrl (s : State) (n : Fin 8) (kind : Nat) : State :=
  let es := (s.basin.ctrlOut.filter (fun c => c.kind == kind)).take 64
  let left := s.basin.ctrlOut.filter (fun c => !es.contains c)
  let tag : TagWord := { qid := 0, ctrl := true, resend := false, rsnd := false, move := false, seq := (s.lane n).ctrlCount, ts := tsOf s.time.now }
  let bytes := ctrlFrame (s.laneForm n) tag kind (es.map (·.entry))
  let s1 := { s with basin := { s.basin with ctrlOut := left } }
  ((s1.laneSend n ⟨tag, false, bytes⟩ false bytes.length).modLane n (fun l => { l with ctrlCount := l.ctrlCount + 1 })).count
    (laneBlock n.val) 0 1

/-- A move marker sent (R247 step 3, R264): it carries the sequence of the queue's next frame. -/
def State.sendMarker (s : State) (n : Fin 8) (q : Nat) : State :=
  match s.queue? q with
  | none => s
  | some x =>
    let seq := match (s.ticketsOf q).find? (fun t => t.state == .queued) with | some t => t.seq | none => x.nextSeq
    let tag : TagWord := { qid := BitVec.ofNat 12 q, ctrl := true, resend := false, rsnd := false, move := true, seq := seq, ts := tsOf s.time.now }
    let bytes := ctrlFrame (s.laneForm n) tag 3 [⟨false, BitVec.ofNat 12 q, seq⟩]
    let s1 := s.modQueue q (fun y => { y with move := y.move.map (fun (m : MoveRec) => { m with marker := some seq }) })
    ((s1.laneSend n ⟨tag, false, bytes⟩ false bytes.length).count (laneBlock n.val) 0 1).count (laneBlock n.val) 8 1

/-- A data frame sent (R230, R242, R259, R263, R427): counted late past its deadline; a corrupt one goes with an inverted
FCS and its ticket is freed; class none is freed, hop and through wait for their receipt. -/
def State.sendData (s : State) (n : Fin 8) (id : Nat) (credit : Bool) : State :=
  match s.ticket? id with
  | none => s
  | some t =>
    match s.queue? t.queue with
    | none => s
    | some q =>
      let tag : TagWord := { qid := BitVec.ofNat 12 t.queue, ctrl := false, resend := t.resend, rsnd := t.rsnd, move := false, seq := t.seq, ts := t.ts }
      let bytes := wireFrame (s.laneForm n) tag t.bytes t.corrupt
      let now := tsOf s.time.now
      let late := decide (t.deadline < s.ticks)
      let s1 := s.laneSend n ⟨tag, t.corrupt, bytes⟩ (!t.resend && !t.corrupt) t.len
      let s2 := (((s1.count (laneBlock n.val) 0 1).count (laneBlock n.val) 7 (if t.resend then 1 else 0)).count (laneBlock n.val) 9
        (if t.corrupt then 1 else 0)).count 3 3 (if late && !t.late then 1 else 0)
      let s3 := s2.modTicket id (fun x => { ((x.stage 4 now).stage 5 now).stage 6 now with
        state := .sent, resend := false, resent := t.resent || t.resend, late := t.late || late })
      let s4 := s3.modQueue q.num (fun y => { y with
        credit := if credit then y.credit - (t.len * 80000 : Nat) else y.credit
        timer := if q.cls == .none || t.corrupt then y.timer else match y.timer with | some k => some k | none => some s.ticks })
      let s5 := s4.modLane n (fun l => { l with rr := if credit || t.resend then l.rr else q.num })
      if t.corrupt then
        ((s5.raise 0x0063 3 0 (wd t.queue) (wd t.seq.toNat)).freeTicket id false).relSync (queuePort t.queue)
      else if q.cls == .none then s5.freeTicket id false
      else s5

/-- The next frame of a lane (R242): nothing while the lane is not up or is paused (R267). -/
def State.serveLane (s : State) (n : Fin 8) : State :=
  let l := s.lane n
  if l.state ≠ .up ∨ l.paused.isSome then s
  else
    match s.pickService n with
    | .ctrl k => s.sendCtrl n k
    | .resend id => s.sendData n id false
    | .marker q => s.sendMarker n q
    | .admitted id => s.sendData n id true
    | .excess id => s.sendData n id false
    | .idle => s

/-! ### Receipts (R247, R249, R265) -/

/-- An entry ignored and counted. -/
def State.ignoreReceipt (s : State) (n : Fin 8) : State :=
  (s.modLane n (fun l => { l with ign := satAdd 0xFFFF l.ign 1 })).count (laneBlock n.val) 6 1

/-- A receipt that covers a pending marker completes the move. -/
def coversMarker (q : Queue) (r : Seq16) : Bool :=
  match q.move with
  | some m => match m.marker with | some k => decide (0 ≤ qDiff r k) | none => false
  | none => false

/-- One RECEIPT entry (R265). -/
def State.receiptOne (s : State) (n : Fin 8) (e : CtrlEntry) : State :=
  match s.queue? e.qid.toNat with
  | none => s.ignoreReceipt n
  | some q =>
    if q.outbound then s.ignoreReceipt n
    else if q.cls == .none then
      if coversMarker q e.seq then s.endMove q.num else s.ignoreReceipt n
    else
      let low := s.lowSeq q
      let d := qDiff e.seq low
      if 0 ≤ d ∧ d ≤ qDiff q.nextSeq low then
        let ids := ((s.ticketsOf q.num).filter (fun t => t.state != .filling && decide (qDiff t.seq e.seq < 0))).map (·.id)
        let s1 := (ids.foldl (fun t i => t.stage i 7) s).freeAll ids false
        let s2 := if coversMarker q e.seq then s1.endMove q.num else s1
        let left := (s2.ticketsOf q.num).any (fun t => t.state == .sent)
        (s2.modQueue q.num (fun y => { y with timer := if left then (if ids.isEmpty then y.timer else some s.ticks) else none })).relSync
          (queuePort q.num)
      else s.ignoreReceipt n

/-- No receipt in time (R249): every sent and unreceipted frame is sent again, lowest first. -/
def State.receiptTimeout (s : State) (q : Nat) : State :=
  match s.queue? q with
  | none => s
  | some x =>
    if x.outbound || x.cls == .none || x.timer.isNone then s
    else
      (s.modTickets (List.map (fun (t : Ticket) => if t.queue = q ∧ t.state = .sent then { t with resend := true } else t))).modQueue q
        (fun y => { y with timer := some s.ticks })

/-! ### Outbound frames from the host (R230, R248, R261, R266, R268) -/

/-- A host frame discarded and counted (R230, R261, R264). -/
def State.discardHost (s : State) (n : Fin 8) : State :=
  ((s.modLane n (fun l => { l with disc := satAdd 0xFFFF l.disc 1 })).count (laneBlock n.val) 5 1).count 3 2 1

/-- The entries of a control frame's body, if it is well formed (R264). -/
def parseCtrl (body : List Byte) : Option (Nat × List CtrlEntry) :=
  let k := beAt body 0 1
  let n := beAt body 1 1
  if 1 ≤ k ∧ k ≤ 6 ∧ 1 ≤ n ∧ n ≤ 64 ∧ 4 + 4 * n ≤ body.length then
    some (k, (List.range n).map (fun i =>
      let v := beAt body (4 + 4 * i) 4
      ⟨decide (2 ^ 31 ≤ v), BitVec.ofNat 12 (v / 2 ^ 16), BitVec.ofNat 16 v⟩))
  else none

/-- A host frame for an open outbound queue by its sequence (R248): d = 0 is taken where there is room. -/
def State.takeOutbound (s : State) (n : Fin 8) (q : Queue) (seq : Seq16) (frame : List Byte) : State :=
  let d := qDiff seq q.nextSeq
  if d < 0 then (s.discardHost n).sendRelease q.num
  else if 0 < d then (s.discardHost n).resendFrom q.num
  else if !s.hasRoom q frame.length then (s.discardHost n).resendFrom q.num
  else
    let (id, s1) := s.issue q frame.length false
    let now := tsOf s.time.now
    let s2 := s1.modTicket id (fun t => { t.stage 2 now with state := .queued, seq := seq, bytes := frame, lane := some n.val })
    let s3 := s2.modQueue q.num (fun y => { y with nextSeq := y.nextSeq + 1, resendAt := none })
    let s4 := s3.flowSync q.num
    if q.cls == .hop then (s4.stage id 7).sendRelease q.num else s4

/-! ### Lane state (R245, R267, R269 to R271) -/

/-- A lane that begins to start (R269 step 2). -/
def Lane.restart (l : Lane) (st : LaneState) : Lane :=
  { l with state := st, paused := none, remFault := false, amLock := false, blockLock := false, rxSig := false }

/-- A stream whose move aimed at a lost lane: the move is replaced by a new placement (R247). -/
def State.retarget (s : State) (q : Nat) (n : Option (Fin 8)) : State :=
  s.modQueue q (fun y => { y with move := match n with
    | some m => if y.lane = some m.val then none else some ⟨m.val, none⟩
    | none => none })

/-- A lane declared lost (R270, R271): cause and event, remote fault sent, and its streams re-placed and resent. -/
def State.loseLane (s : State) (n : Fin 8) (cause : Nat) : State :=
  let l := s.lane n
  let next : LaneState := if bit (s.laneReg n.val 0) 0 then .lost else .off
  if l.state ≠ .up then
    s.modLane n (fun l => l.restart (if bit (s.laneReg n.val 0) 0 then (if l.state == .off then .starting else l.state) else .off))
  else
    let s1 := (s.modLane n (fun l => { l.restart next with cause := cause, sendRf := true })).raise 0x0023 (laneBlock n.val) n.val (wd cause)
    let done := s1.basin.queues.filter (fun q => q.lane == some n.val && q.move.isSome)
    let s2 := done.foldl (fun t q => match q.move with
      | some m => t.restartOn q.num (some (Fin.ofNat 8 m.dest)) | none => t) s1
    let nums := (s2.basin.queues.filter (fun q => q.lane == some n.val)).map (·.num)
    let s3 := s2.replaceAll nums State.restartOn
    let aimed := (s3.basin.queues.filter (fun q => match q.move with | some m => m.dest == n.val | none => false)).map (·.num)
    s3.replaceAll aimed State.retarget

/-- A lane that has come up (R240, R269): usable to placement, and demoted streams are re-admitted. -/
def State.raiseLane (s : State) (n : Fin 8) : State :=
  (s.modLane n (fun l => { l with state := .up, remFault := false, amLock := true, blockLock := true, rxSig := true,
                                  sendRf := false, fecUncorr := 0, paused := none })).restore

/-- Whether a lane may come up: enabled and starting, its domain usable, the host PLL locked and the host lanes not marked failed (R50, R269). -/
def State.laneReady (s : State) (n : Fin 8) : Bool :=
  bit (s.laneReg n.val 0) 0 && ((s.lane n).state == .starting || (s.lane n).state == .lost)
    && s.dom.on.getLsbD (laneDomain n) && s.clk.host.mode == .locked && !s.clk.muxHost.failed && !s.safeBlock (laneBlock n.val)

end Sys2Proof.Machine
end

