-- ==== Sys2Proof/Machine/Cadence.lean ====
section
/-! DEFINITION. Cadence entries and positions (R285 to R288): frame and line instants, tracking of arrivals, governance. -/

namespace Sys2Proof.Machine

/-- Vehicle time in units of 2^-16 ns, the unit of cadence entries. -/
def t16 (t : Nat) : Nat := t / 2 ^ 24

/-- A cadence entry in use. -/
def TimeUnit.cad? (t : TimeUnit) (c : Nat) : Option Cadence := (t.cads.find? (fun e => e.1 == c)).map (·.2)

/-- A cadence entry written, in number order. -/
def State.putCad (s : State) (c : Nat) (x : Cadence) : State := { s with time := { s.time with cads := tabIns s.time.cads c x } }

/-- A cadence entry freed. -/
def State.freeCad (s : State) (c : Nat) : State := { s with time := { s.time with cads := tabDel s.time.cads c } }

/-- The limits of R285. -/
def Cadence.ok (c : Cadence) : Bool :=
  decide (10 ^ 6 * 65536 ≤ c.pf ∧ c.pf ≤ 10 ^ 9 * 65536 ∧ 1000 * 65536 ≤ c.pl ∧ c.nl * c.pl ≤ c.pf ∧ 2 ≤ c.nl ∧ c.nl ≤ 8192
    ∧ c.a0 + c.na ≤ c.nl ∧ 1 ≤ c.na ∧ c.queue < 4096)

/-- The governing entry of a port (R285). -/
def State.governor (s : State) (p : Fin 16) : Option (Nat × Cadence) :=
  s.time.cads.find? (fun e => e.2.govern && e.2.queue / 256 == p.val)

/-- Governance taken by an entry: any other entry of the same port loses it (R285). -/
def State.takeGovern (s : State) (c : Nat) : State :=
  match s.time.cad? c with
  | some x =>
    if x.govern then
      { s with time := { s.time with cads := s.time.cads.map (fun (e : Nat × Cadence) =>
          if e.1 ≠ c ∧ e.2.queue / 256 = x.queue / 256 then (e.1, { e.2 with govern := false }) else e) } }
    else s
  | none => s

/-- Start of video frame n in 2^-16 ns (R285). -/
def Cadence.frameStart (c : Cadence) (n : Int) : Int := (c.ta : Int) + n * c.pf

/-- The video frame that contains a time. -/
def Cadence.frameAt (c : Cadence) (t : Nat) : Int := ((t : Int) - c.ta) / (c.pf : Int)

/-- The instant of a position in 2^-40 ns (R288): an absolute position holds nanoseconds and seconds [31:0] in `line` and
`frac`, with seconds [47:32] of the present time; `frame` holds n_0 + f otherwise. -/
def TimeUnit.instant (t : TimeUnit) (p : Position) : Nat :=
  if p.abs then vehicleTime (secOf t.now / 2 ^ 32 * 2 ^ 32 + p.frac) p.line 0
  else
    match t.cad? p.entry with
    | some c => ((c.frameStart p.frame + p.line * c.pl) * 2 ^ 24 + (p.frac * c.pl * 2 ^ 8 : Nat)).toNat
    | none => 0

/-- A calendar entry that hangs on cadence entry c with its instants computed anew: its start until it opens, its stop. -/
def TimeUnit.reanchorEntry (t : TimeUnit) (c : Nat) (e : CalEntry) : CalEntry :=
  { e with
    start := if !e.startP.abs && e.startP.entry == c && !e.isOpen then t.instant e.startP else e.start
    stop := if !e.stopP.abs && e.stopP.entry == c then e.stop.map (fun _ => t.instant e.stopP) else e.stop }

/-- The instants of the calendar entries that hang on a cadence entry, recomputed until they act (R288). -/
def State.reanchor (s : State) (c : Nat) : State :=
  { s with time := { s.time with cal := s.time.cal.map (fun (e : Nat × CalEntry) => (e.1, s.time.reanchorEntry c e.2)) } }

/-- Tracking of one arrival (R286): after a gap of 8 lines it is taken as the start of an active interval; T_A moves by a
sixteenth of the error, by at most a quarter line and once in a video frame; four frames in a row beyond two lines set
LOST. -/
def trackOne (c : Cadence) (arr : Nat) : Cadence × Bool :=
  let gap := match c.lastArr with | some t => decide (t + 8 * c.pl ≤ arr) | none => false
  let c1 := { c with lastArr := some arr }
  if !gap then (c1, false)
  else
    let rel : Int := (arr : Int) - c.ta - c.a0 * c.pl
    let n := (2 * rel + c.pf) / (2 * (c.pf : Int))
    let err := rel - n * c.pf
    if c.lastFrame = some n then (c1, false)
    else
      let step := clampI (-(c.pl / 4 : Nat)) (c.pl / 4 : Nat) (err / 16)
      let late := if (2 * c.pl : Nat) < err.natAbs then c.lateRow + 1 else 0
      ({ c1 with ta := ((c.ta : Int) + step).toNat, lastFrame := some n, lateRow := late, lost := decide (4 ≤ late) },
        decide (4 ≤ late) && !c.lost)

/-- One cadence entry's part in an arrival. -/
def State.trackEntry (s : State) (q arr : Nat) (e : Nat × Cadence) : State :=
  if e.2.track && e.2.queue == q then
    let (c, lost) := trackOne e.2 arr
    let s1 := (s.putCad e.1 c).reanchor e.1
    if lost then s1.raise 0x0032 2 0 (wd e.1) else s1
  else s

/-- An arrival of a queue's frame at a vehicle time (R286). -/
def State.cadArrive (s : State) (q : Nat) (arr : Nat) : State :=
  s.time.cads.foldl (fun t e => t.trackEntry q (t16 arr) e) s

end Sys2Proof.Machine
end

