-- ==== Sys2Proof/Machine/Retry.lean ====
section
/-! DEFINITION. Blocks on the line: layout (R192 to R198), packing (R197, R198, R206, R214), the control slot (R220, R221),
acknowledgement and retry (R205 to R211), extraction (R199, R207, R215), sessions (R216 to R219). -/

namespace Sys2Proof.Machine

/-! ### The mode that carries blocks, the window, the gate sent -/

/-- The mode whose blocks a port exchanges; in a shift, the mode being left until SHIFT is acknowledged (R85). -/
def Port.blockMode (x : Port) : Option LineMode :=
  match x.link.state with
  | .loconUp => x.link.modeAct
  | .shift => match x.link.shift with | some sh => if sh.acked then some sh.target else x.link.modeAct | none => none
  | .fullDuplex => x.link.train
  | _ => none

/-- Whether blocks pass at a port: begun and not in quiet. -/
def Port.blocksRun (x : Port) : Bool := x.link.blocksOn && x.quiet.state == .active

/-- Payload bytes of a block of the running mode. -/
def Port.blkPay (x : Port) : Nat := match x.blockMode with | some m => payLen m | none => 442

/-- The reorder limit in blocks (R207). -/
def State.reordBlocks (s : State) (p : Fin 16) : Nat := s.reord p * 16

/-- HOLD for room: a refused block's frame still finds no room (R215). -/
def State.holdRoom (s : State) (p : Fin 16) : Bool :=
  match (s.port p).rcv.refused with
  | some (_, q, len) => match s.queue? q with | some x => !s.hasRoom x len | none => false
  | none => false

/-- HOLD from GATE_FORCE or PFAIL_N, under which no block is held either (R215). -/
def State.holdHard (s : State) (p : Fin 16) : Bool := s.sup.pfailFrozen || bit (s.portReg p 0x50) 27

/-- The gate sent in every block (R195, R214, R215, R224, R250). -/
def State.gateTx (s : State) (p : Fin 16) : BitVec 4 :=
  (s.port p).rcv.gateCls.setWidth 4 ||| (if s.basin.hopGate.isSome then 2 else 0)
    ||| (if s.holdRoom p || s.sup.pfailFrozen then 8 else 0) ||| BitVec.ofNat 4 (fld (s.portReg p 0x50) 24 4)

/-- A partner's gate bit. -/
def Sender.gated (x : Sender) (c : Custody) : Bool := x.gateRx.getLsbD (gateBit c)
def Sender.held (x : Sender) : Bool := x.gateRx.getLsbD 3

/-- Both conditions of R206 for a new DATA block. -/
def Sender.mayData (x : Sender) : Bool :=
  decide ((x.s - x.aKnown).toNat < 2 ^ x.w) && decide ((x.s - x.rKnown).toNat < 2 ^ 23)

/-! ### Packing (R197, R198, R214, R242) -/

/-- First frames of the outbound queues of a port that may be placed in a new DATA block. -/
def State.packHeads (s : State) (p : Fin 16) : List (Queue × Ticket) :=
  let x := s.port p
  (s.basin.queues.filter (fun q => q.outbound && q.num / 256 == p.val && !x.snd.gated q.cls
    && !x.stopped.contains (BitVec.ofNat 8 q.num))).filterMap (fun q =>
      ((s.ticketsOf q.num).find? (fun t => t.state == .queued && !t.corrupt)).map (fun t => (q, t)))

/-- The next frame to pack: one whose blocks are being re-cut (R219), else by the order of R242. -/
def State.nextPack (s : State) (p : Fin 16) : Option (Nat × Bool × Bool) :=
  match (s.port p).snd.redo with
  | id :: _ => some (id, false, true)
  | [] => (pickHead (s.packHeads p) (s.port p).snd.rr).map (fun e => (e.2.2, e.1, false))

/-- The three bytes before a frame (R197). -/
def Ticket.header (t : Ticket) : List Byte :=
  [BitVec.ofNat 8 t.queue, BitVec.ofNat 8 ((if t.rsnd then 128 else 0) + t.len / 256 % 64), BitVec.ofNat 8 t.len]

/-- The bytes that a part of a block begins with: they run to the end of their frame. -/
def State.partBytes (s : State) (e : Nat × Option Nat) : List Byte :=
  match s.ticket? e.1, e.2 with
  | some t, some off => t.bytes.drop off
  | some t, none => t.header ++ t.bytes
  | none, _ => []

/-- The payload of a block, built from the frames in the basin (R197, R198, R211): its last part is cut at its end, and what
no frame fills is 0. -/
def State.payload (s : State) (len : Nat) (parts : List (Nat × Option Nat)) : List Byte := padTo len (parts.flatMap s.partBytes)

/-- A frame chosen for packing: its state SENT and its stages 3 and 4 (R197, R230, R408). -/
def State.beginPack (s : State) (p : Fin 16) (t : Ticket) (credit redo : Bool) : State :=
  let now := tsOf s.time.now
  let s1 := s.modTicket t.id (fun x => { (x.stage 3 now).stage 4 now with state := .sent, blk := none })
  let s2 := s1.modQueue t.queue (fun y => { y with credit := if credit then y.credit - (t.len * 80000 : Nat) else y.credit })
  s2.modSnd p (fun x => { x with redo := x.redo.filter (· != t.id), rr := if credit || redo then x.rr else t.queue })

/-- The bytes of a frame placed from an offset at a position of a block: how far they reach, and whether the frame ends. -/
def State.place (s : State) (p : Fin 16) (id off : Nat) (seq : Seq24) (pos len : Nat) : State × Nat × Bool :=
  let left := (match s.ticket? id with | some t => t.bytes.length | none => 0) - off
  if left ≤ len - pos then
    (((s.modSnd p (fun x => { x with packing := none })).modTicket id (fun t => { t with blk := some seq })).count
      (portBlock p.val) 8 1, pos + left, true)
  else (s.modSnd p (fun x => { x with packing := some (id, off + (len - pos)) }), len, false)

/-- What a new DATA block holds: FFP if a header starts in it, its parts, and the tickets whose frames end in it. -/
structure Pack where
  ffp   : Option Nat := none
  parts : List (Nat × Option Nat) := []
  ends  : List Nat := []
  deriving DecidableEq, Repr

/-- A part added. -/
def Pack.add (k : Pack) (ffp : Option Nat) (part : Nat × Option Nat) (fin : Bool) : Pack :=
  ⟨ffp, k.parts ++ [part], if fin then k.ends ++ [part.1] else k.ends⟩

/-- The parts of a new DATA block from a position on: the frame in progress, then headers and frames, then a fill header
(R198). -/
def State.packGo (p : Fin 16) (len : Nat) (seq : Seq24) : Nat → State → Nat → Pack → State × Pack
  | 0, s, _, k => (s, k)
  | n + 1, s, pos, k =>
    match (s.port p).snd.packing with
    | some (id, off) =>
      if len ≤ pos then (s, k)
      else
        let (s1, pos1, fin) := s.place p id off seq pos len
        State.packGo p len seq n s1 pos1 (k.add k.ffp (id, some off) fin)
    | none =>
      if len < pos + 3 then (s, k)
      else
        let here := some (k.ffp.getD pos)
        match s.nextPack p with
        | none => (s, { k with ffp := here })
        | some (id, credit, redo) =>
          match s.ticket? id with
          | none => State.packGo p len seq n (s.modSnd p (fun x => { x with redo := x.redo.filter (· != id) })) pos k
          | some t =>
            let (s1, pos1, fin) := (s.beginPack p t credit redo).place p id 0 seq (pos + 3) len
            State.packGo p len seq n s1 pos1 (k.add here (id, none) fin)

/-- Corrupt outbound frames are not packed: their sequence counts as sent, and a through frame's release is notified
(R427). -/
def State.dropCorrupt (s : State) (p : Fin 16) : State :=
  let bad := s.basin.tickets.filter (fun t => t.outbound && t.corrupt && t.state == .queued && t.queue / 256 == p.val)
  bad.foldl (fun st t =>
    ((st.raise 0x0063 3 0 (wd t.queue ||| flag 16 true) (wd t.seq.toNat)).freeTicket t.id true).sendRelease t.queue) s

/-! ### The control slot (R196, R220, R221) -/

/-- What a slot carries: its kind, SEG and the four bytes. -/
structure SlotItem where
  kind : BitVec 2 := 0
  seg  : BitVec 3 := 0
  word : Word := 0
  deriving DecidableEq, Repr

/-- A NACK item (R196). -/
def nackItem (k : NackRun) : SlotItem :=
  { kind := 1, word := wd (k.first.toNat * 256 + (if k.room then 128 else 0) + (k.run - 1)) }

/-- A NACK run marked as sent. -/
def Receiver.nackSent (r : Receiver) (k : NackRun) : Receiver :=
  { r with nacks := r.nacks.map (fun (x : NackRun) => if x.first = k.first then { x with sent := true, due := false } else x) }

/-- Whether RELEASE is due: R has changed, or 32 blocks have passed (R220). -/
def Port.relDue (x : Port) : Bool := x.rcv.r != x.snd.relSent || decide (32 ≤ x.snd.sinceRel)

/-- A NACK sent in the slot. -/
def State.slotNack (s : State) (p : Fin 16) (k : NackRun) : SlotItem × State :=
  (nackItem k, (s.modRcv p (fun r => r.nackSent k)).count (portBlock p.val) 4 1)

/-- A RELEASE sent in the slot. -/
def State.slotRelease (s : State) (p : Fin 16) : SlotItem × State :=
  let r := (s.port p).rcv.r
  ({ kind := 3, word := wd (r.toNat * 256) }, s.modSnd p (fun x => { x with relSent := r, sinceRel := 0 }))

/-- A cell segment sent in the slot; after the eighth one slot is left to RELEASE or a repeated NACK. -/
def State.slotSeg (s : State) (p : Fin 16) (ctr : Word) (bytes : List Byte) (k : Nat) : SlotItem × State :=
  ({ kind := 2, seg := BitVec.ofNat 3 k, word := wd (beAt bytes (4 * k) 4) },
    s.modTow p (fun t => { t with slotCur := if k = 7 then none else some (ctr, bytes, k + 1), slotTook := false, slotGap := decide (k = 7) }))

/-- The slot of a block (R220). -/
def State.fillSlot (s : State) (p : Fin 16) : SlotItem × State :=
  let x := s.port p
  let fresh := x.rcv.nacks.find? (fun k => !k.sent)
  let again := x.rcv.nacks.find? (fun k => k.sent && k.due)
  match x.tow.slotCur with
  | some (ctr, bytes, k) =>
    if x.tow.slotTook then s.slotSeg p ctr bytes k
    else
      match fresh with
      | some n => let (i, s1) := s.slotNack p n; (i, s1.modTow p (fun t => { t with slotTook := true }))
      | none =>
        if x.relDue then let (i, s1) := s.slotRelease p; (i, s1.modTow p (fun t => { t with slotTook := true }))
        else s.slotSeg p ctr bytes k
  | none =>
    let s0 := s.modTow p (fun t => { t with slotGap := false })
    match fresh with
    | some n => s.slotNack p n
    | none =>
      if x.tow.slotGap && x.relDue then s0.slotRelease p
      else
        match x.tow.slotGap, again with
        | true, some n => s0.slotNack p n
        | _, _ =>
          match x.tow.slotQueue with
          | (ctr, bytes) :: rest =>
            if x.inLchirp then
              let s1 := s0.modTow p (fun t => { t with slotQueue := [] })
              if x.relDue then s1.slotRelease p else match again with | some n => s1.slotNack p n | none => ({}, s1)
            else (s0.modTow p (fun t => { t with slotQueue := rest })).slotSeg p ctr bytes 0
          | [] => if x.relDue then s0.slotRelease p else match again with | some n => s0.slotNack p n | none => ({}, s0)

/-! ### Sending a block (R192 to R194, R201, R202, R119, R121 to R125) -/

/-- The bytes of a block (R192), CRC-32 last (R200). -/
def blockBytes (type : Nat) (b : Blk) : List Byte :=
  let body := [BitVec.ofNat 8 (type * 16 + b.gate.toNat),
      BitVec.ofNat 8 (b.slotKind.toNat * 64 + b.seg.toNat * 8 + (if b.resent then 4 else 0))]
    ++ bytesBE 3 b.seq.toNat ++ bytesBE 3 b.ack.toNat ++ bytesBE 4 b.slot.toNat ++ bytesBE 2 b.ffp.toNat ++ b.payload
  body ++ crcBytes (crc32 body)

/-- Check symbols of the code of a mode (R201). -/
def checkSymbols (m : LineMode) : Nat := if blockLen m = 460 then 32 else 64

/-- Bits of a codeword, first symbol first and bit 9 first (R202). -/
def codeBits (w : List (BitVec 10)) : List Bool := w.flatMap (fun v => (List.range 10).map (fun i => v.getLsbD (9 - i)))

/-- A codeword on a PAM line (R121 to R125, R202, R203): the bits follow the last block's without a gap. -/
def State.pamLine (s : State) (p : Fin 16) (m : LineMode) (word : List (BitVec 10)) : State :=
  s.modTx p (fun t =>
    let (bits, scr) := scramble t.scr (codeBits word)
    let all := t.rest ++ bits
    let n := all.length / symbolBits m
    let idx := (groupBits (symbolBits m) n all).map (levelIndex m)
    let (cs, mem) := if t.precode then precodeSeq (pamOrder m) t.memory idx else (idx, t.memory)
    let line := t.past ++ t.levels
    { t with scr := scr, memory := mem, levels := cs.map (levelOf m), past := line.drop (line.length - 5), rest := all.drop (symbolBits m * n) })

/-- A codeword in LDMT (R172, R175, R176): with the last of its group it is interleaved, scrambled and poured into symbols;
a group keeps the depth it began with. -/
def State.dmtLine (s : State) (p : Fin 16) (word : List (BitVec 10)) : State :=
  let d := (s.port p).dmt
  let depth := if d.group.isEmpty then max 1 d.tx.i else d.groupI
  let group := d.group ++ [word]
  if group.length < depth then s.modDmt p (fun y => { y with group := group, groupI := depth })
  else
    let (bits, scr) := scramble (s.port p).tx.scr (codeBits (interleave group))
    let (syms, rest) := pourSymbols d.tx (d.pour.length + bits.length) (d.pour ++ bits)
    let clips := (syms.map (fun ps => clippedCount (withPrefix (dmtVolts ps)))).foldl (· + ·) 0
    (s.modTx p (fun t => { t with scr := scr })).modDmt p (fun y =>
      { y with group := [], groupI := 0, pour := rest, symbols := syms, clips := satAdd 0xFFFF y.clips clips })

/-- The transmit path's part in a block; LCHIRP cuts the block into 20 BLOCK cells instead (R119). -/
def State.lineBlock (s : State) (p : Fin 16) (m : LineMode) (bytes : List Byte) : State :=
  if m == .lchirp then
    s.modTow p (fun t => { t with ready := t.ready ++ (List.range 20).map (fun i =>
      ({ type := 0x10, sub := BitVec.ofNat 8 i, payload := padTo 24 ((bytes.drop (24 * i)).take 24) } : TxCell)) })
  else
    let word := rsEncode (checkSymbols m) (blockSymbols bytes)
    let s1 := s.modSnd p (fun x => { x with codeword := word.map (·.toNat) })
    if isPam m then s1.pamLine p m word else s1.dmtLine p word

/-- A block built at the moment it starts (R194) and sent. -/
def State.emitBlock (s : State) (p : Fin 16) (m : LineMode) (type : Nat) (seq : Seq24) (ffp : BitVec 16) (payload : List Byte)
    (resent : Bool) : State :=
  let (item, s1) := s.fillSlot p
  let b : Blk := {
    gate := s1.gateTx p, slotKind := item.kind, seg := item.seg, resent := resent, seq := seq, ack := (s1.port p).rcv.a
    slot := item.word, ffp := ffp, payload := payload }
  let s2 := s1.modSnd p (fun x => { x with lastBlock := some (type, b), sinceRel := x.sinceRel + (if item.kind = 3 then 0 else 1) })
  s2.lineBlock p m (blockBytes type b)

/-- The SYNC payload (R217). -/
def State.syncPayload (s : State) (p : Fin 16) (m : LineMode) : List Byte :=
  let x := s.port p
  padTo (payLen m) (bytesBE 4 x.rcv.session.toNat ++ bytesBE 4 x.rcv.partner.toNat ++ bytesBE 3 x.rcv.a.toNat
    ++ bytesBE 3 x.rcv.r.toNat ++ bytesBE 3 x.snd.s.toNat ++ [BitVec.ofNat 8 (bsizeCode m)])

/-- A new DATA block (R206, R197). -/
def State.sendNew (s : State) (p : Fin 16) (m : LineMode) : State :=
  let seq := (s.port p).snd.s
  let (s1, k) := State.packGo p (payLen m) seq (payLen m + 2) s 0 {}
  let f := match k.ffp with | some n => BitVec.ofNat 16 n | none => 0xFFFF
  let s2 := s1.modSnd p (fun x => { x with
    s := seq + 1, unacked := x.unacked ++ [⟨seq, f, payLen m, k.parts, k.ends, s.ticks⟩] })
  s2.emitBlock p m 1 seq f (s2.payload (payLen m) k.parts) false

/-- A resend of a DATA block, rebuilt from its frames (R194, R210, R211). -/
def State.sendResend (s : State) (p : Fin 16) (m : LineMode) (b : TxBlock) : State :=
  let s1 := s.modSnd p (fun x => { x with
    resend := x.resend.filter (· != b.seq), resent := satAdd 0xFFFF x.resent 1
    unacked := x.unacked.map (fun (u : TxBlock) => if u.seq = b.seq then { u with tick := s.ticks } else u) })
  let s2 := s1.modTickets (List.map (fun (t : Ticket) => if b.ends.contains t.id then { t with resent := true } else t))
  (s2.count (portBlock p.val) 3 1).emitBlock p m 1 b.seq b.ffp (s.payload b.len b.parts) true

/-- The block of one block period (R193, R206, R210, R215, R217). -/
def State.sendBlock (s0 : State) (p : Fin 16) : State :=
  let x := s0.port p
  match x.blockMode with
  | none => s0
  | some m =>
    if m == .lchirp && x.tow.ready.any (fun c => c.type == 0x10) then s0
    else
      let s := s0.dropCorrupt p
      let x := s.port p
      let fill := s.emitBlock p m 2 x.snd.s 0xFFFF (List.replicate (payLen m) 0) false
      if !x.snd.synced then s.emitBlock p m 3 x.snd.s 0xFFFF (s.syncPayload p m) false
      else if x.snd.held then fill
      else
        match x.snd.resend.findSome? (fun q => x.snd.unacked.find? (fun b => b.seq == q)) with
        | some b => s.sendResend p m b
        | none =>
          if x.snd.mayData && (x.snd.packing.isSome || (s.nextPack p).isSome) then s.sendNew p m else fill

/-! ### Acknowledgement at the sender (R206, R208, R210, R212) -/

/-- A protocol error counted (R206). -/
def State.protoErr (s : State) (p : Fin 16) : State := s.count (portBlock p.val) 15 1

/-- Outbound tickets of a port whose last byte lies in a block below a sequence. -/
def State.sentBelow (s : State) (p : Fin 16) (a : Seq24) : List Ticket :=
  s.basin.tickets.filter (fun t => t.outbound && t.queue / 256 == p.val && t.state == .sent &&
    (match t.blk with | some b => decide (seqDiff b a < 0) | none => false))

/-- Whether a ticket's queue is of class through. -/
def State.isThrough (s : State) (t : Ticket) : Bool := match s.queue? t.queue with | some q => q.cls == .through | none => false

/-- A received ACK (R206, R212): none and hop frames whose block A passes are released. -/
def State.ackTo (s : State) (p : Fin 16) (a : Seq24) : State :=
  let x := (s.port p).snd
  if seqDiff a x.aKnown < 0 ∨ seqDiff x.s x.aKnown < seqDiff a x.aKnown then s.protoErr p
  else
    let s1 := s.modSnd p (fun x => { x with
      aKnown := a, unacked := x.unacked.filter (fun b => decide (0 ≤ seqDiff b.seq a))
      resend := x.resend.filter (fun q => decide (0 ≤ seqDiff q a)), roomWait := x.roomWait.filter (fun q => decide (0 ≤ seqDiff q a)) })
    let passed := s1.sentBelow p a
    let s2 := passed.foldl (fun st t => st.stage t.id 5) s1
    s2.freeAll ((passed.filter (fun t => !s.isThrough t)).map (·.id)) false

/-- A received release mark (R206, R212): through frames whose block R passes are released and notified. -/
def State.relTo (s : State) (p : Fin 16) (r : Seq24) : State :=
  let x := (s.port p).snd
  if seqDiff r x.rKnown < 0 ∨ seqDiff x.aKnown x.rKnown < seqDiff r x.rKnown then s.protoErr p
  else
    let s1 := s.modSnd p (fun x => { x with rKnown := r })
    let passed := (s1.sentBelow p r).filter s.isThrough
    let s2 := passed.foldl (fun st t => (st.stage t.id 6).stage t.id 7) s1
    (passed.map (·.queue)).eraseDups.foldl State.sendRelease (s2.freeAll (passed.map (·.id)) false)

/-- Sequences to resend, in increasing order and without repeats. -/
def orderSeqs (a : Seq24) (l : List Seq24) : List Seq24 := sortBy (fun x y => decide (seqDiff x a ≤ seqDiff y a)) l.eraseDups

/-- A received NACK (R210): those asked for with ROOM wait until the partner's HOLD has cleared. -/
def State.nackTo (s : State) (p : Fin 16) (first : Seq24) (run : Nat) (room : Bool) : State :=
  s.modSnd p (fun x =>
    let want := ((List.range run).map (fun i => first + BitVec.ofNat 24 i)).filter (fun q => x.unacked.any (fun b => b.seq == q))
    let x1 := { x with nacksIn := satAdd 0xFFFF x.nacksIn run }
    if room && x.held then { x1 with roomWait := orderSeqs x.aKnown (x.roomWait ++ want) }
    else { x1 with resend := orderSeqs x.aKnown (x.resend ++ want) })

/-! ### Missing sequences (R209) -/

/-- The missing sequences, lowest first; a block refused for room is missing too (R215). -/
def State.missing (s : State) (p : Fin 16) : List Seq24 :=
  let r := (s.port p).rcv
  let top := match r.highest with | some h => (seqDiff h r.a).toNat | none => 0
  let l := ((List.range (min top (s.reordBlocks p))).map (fun i => r.a + BitVec.ofNat 24 i)).filter (fun q => !r.held.any (fun b => b.seq == q))
  match r.refused with
  | some (q, _, _) => if l.contains q || decide (seqDiff q r.a < 0) then l else orderSeqs r.a (q :: l)
  | none => l

/-- What is known of a missing sequence: whether its run was sent and is due again. -/
def nackFlags (old : List NackRun) (q : Seq24) : Bool × Bool :=
  match old.find? (fun k => decide ((q - k.first).toNat < k.run)) with
  | some k => (k.sent, k.due)
  | none => (false, false)

/-- Runs of at most 128 consecutive sequences with the same flags. -/
def groupRuns (room : Seq24 → Bool) (old : List NackRun) (l : List Seq24) : List NackRun :=
  l.foldl (fun acc q =>
    let (sent, due) := nackFlags old q
    match acc.getLast? with
    | some k =>
      if k.first + BitVec.ofNat 24 k.run = q ∧ k.run < 128 ∧ k.room = room q ∧ k.sent = sent ∧ k.due = due then
        acc.dropLast ++ [{ k with run := k.run + 1 }]
      else acc ++ [⟨q, 1, room q, sent, due⟩]
    | none => [⟨q, 1, room q, sent, due⟩]) []

/-- The NACK runs brought in line with what is missing. -/
def State.nackSync (s : State) (p : Fin 16) : State :=
  let refused := (s.port p).rcv.refused.map (·.1)
  let l := s.missing p
  s.modRcv p (fun r => { r with nacks := groupRuns (fun q => refused == some q) r.nacks l })

/-! ### Extraction (R197 to R199, R207, R215) -/

/-- How the walk of one block ends. -/
inductive Walk where
  | done (s : State)
  | refuse (q len : Nat)

/-- A frame whose last byte has come (R230): QUEUED with a good FCS, else discarded and counted. -/
def State.endFrame (s : State) (p : Fin 16) (b : HeldBlk) : State :=
  let pr := (s.port p).rcv.parser
  let s1 := (s.modRcv p (fun r => { r with parser := { r.parser with busy := false, ticket := none } })).count (portBlock p.val) 7 1
  match pr.ticket with
  | none => s1
  | some id =>
    match s1.ticket? id with
    | none => s1
    | some t =>
      if fcsGood t.bytes then ((s1.modTicket id (fun x => { x with blk := some b.seq })).queueTicket id).stage id 3
      else (s1.freeTicket id true).count 3 2 1

/-- Bytes of the frame in progress. -/
def State.frameBytes (s : State) (p : Fin 16) (bs : List Byte) : State :=
  let s1 := match (s.port p).rcv.parser.ticket with
    | some id => s.modTicket id (fun t => { t with bytes := t.bytes ++ bs })
    | none => s
  s1.modRcv p (fun r => { r with parser := { r.parser with got := r.parser.got + bs.length } })

/-- A frame that starts (R197, R212, R280): with no open queue, or class none without room, its bytes are discarded; hop or
through without room refuses the block. -/
def State.startFrame (s : State) (p : Fin 16) (b : HeldBlk) (tag : Byte) (rsnd : Bool) (len : Nat) : Walk :=
  let num := p.val * 256 + tag.toNat
  let begin_ := fun (t : State) (id : Option Nat) =>
    t.modRcv p (fun r => { r with parser := ⟨tag, rsnd, len, 0, true, false, id⟩ })
  match s.queue? num with
  | none => .done ((begin_ s none).count 3 2 1)
  | some q =>
    if q.outbound || q.closing.isSome then .done ((begin_ s none).count 3 2 1)
    else if s.hasRoom q len then
      let (id, s1) := s.issue q len rsnd
      let s2 := s1.modTicket id (fun t => { t with ts := b.ts, trace := t.trace.map (fun _ => [(1, b.ts)]) })
      .done ((begin_ s2 (some id)).cadArrive num b.arr)
    else if q.cls == .none then .done (((begin_ s none).count 3 2 1).count (portBlock p.val) 16 1)
    else .refuse num len

/-- A framing error (R199): the frame in progress is discarded, the error counted and reported. -/
def State.framingError (s : State) (p : Fin 16) (seq : Seq24) : State :=
  let s1 := match (s.port p).rcv.parser.ticket with | some id => s.freeTicket id true | none => s
  let s2 := s1.modRcv p (fun r => { r with parser := { resync := true } })
  (s2.count (portBlock p.val) 6 1).raise 0x0017 (portBlock p.val) p.val (wd seq.toNat)

/-- Whether an FFP names a legal offset (R198). -/
def ffpLegal (len : Nat) (ffp : BitVec 16) : Bool := ffp != 0xFFFF && decide (ffp.toNat < 512 ∧ ffp.toNat + 3 ≤ len)

/-- The walk of one block from a position (R197 to R199). `check` asks that the first header reached lies at FFP; `mayRedo`
allows one resumption at FFP after an error. -/
def State.walk (p : Fin 16) (b : HeldBlk) : Nat → State → Nat → Bool → Bool → Walk
  | 0, s, _, _, _ => .done s
  | n + 1, s, pos, check, mayRedo =>
    let len := b.payload.length
    let pr := (s.port p).rcv.parser
    let fail := fun (_ : Unit) =>
      let s1 := s.framingError p b.seq
      if mayRedo && ffpLegal len b.ffp && decide (pos < b.ffp.toNat) then
        State.walk p b n (s1.modRcv p (fun r => { r with parser := {} })) b.ffp.toNat false false
      else .done s1
    if len ≤ pos then if check && b.ffp != 0xFFFF then fail () else .done s
    else if pr.busy then
      let k := min (pr.len - pr.got) (len - pos)
      let s1 := s.frameBytes p ((b.payload.drop pos).take k)
      let s2 := if pr.got + k = pr.len then s1.endFrame p b else s1
      State.walk p b n s2 (pos + k) check mayRedo
    else if len < pos + 3 then State.walk p b n s len check mayRedo
    else if check && b.ffp.toNat ≠ pos then fail ()
    else
      let l := beAt b.payload (pos + 1) 2 % 2 ^ 14
      let tag := b.payload.getD pos 0
      let rsnd := (b.payload.getD (pos + 1) 0).getLsbD 7
      if l = 0 then .done s
      else if l < 64 ∨ 9600 < l then fail ()
      else
        match s.startFrame p b tag rsnd l with
        | .refuse q k => .refuse q k
        | .done s1 => State.walk p b n s1 (pos + 3) false mayRedo

/-- One block extracted (R199): after an earlier error the walk resumes at a legal FFP; an illegal one is an error too. -/
def State.extract (s : State) (p : Fin 16) (b : HeldBlk) : Walk :=
  let fuel := 2 * b.payload.length + 4
  if (s.port p).rcv.parser.resync then
    if ffpLegal b.payload.length b.ffp then
      State.walk p b fuel (s.modRcv p (fun r => { r with parser := {} })) b.ffp.toNat false false
    else .done (if b.ffp == 0xFFFF then s else s.framingError p b.seq)
  else if b.ffp != 0xFFFF && !ffpLegal b.payload.length b.ffp then .done (s.framingError p b.seq)
  else State.walk p b fuel s 0 true true

/-- A advances over every contiguous held block whose frames find room (R207, R215); `fuel` bounds the number. -/
def State.advance (p : Fin 16) : Nat → State → State
  | 0, s => s
  | n + 1, s =>
    let r := (s.port p).rcv
    match r.held.find? (fun b => b.seq == r.a) with
    | none => s
    | some b =>
      let rest := r.held.filter (fun x => x.seq != r.a)
      match s.extract p b with
      | .done s1 =>
        State.advance p n (s1.modRcv p (fun x => { x with
          held := rest, a := r.a + 1, refused := if x.refused.map (·.1) = some r.a then none else x.refused }))
      | .refuse q len => s.modRcv p (fun x => { x with held := rest, refused := some (r.a, q, len) })

/-- Everything that follows a change of A. -/
def State.rcvSync (s : State) (p : Fin 16) : State := (((s.relSync p).nackSync p).gateSync p).hopSync

/-- A DATA block of a settled session (R207, R209, R215). -/
def State.takeData (s : State) (p : Fin 16) (b : Blk) : State :=
  let r := (s.port p).rcv
  let top := match r.highest with | some h => if seqDiff h b.seq < 0 then b.seq else h | none => b.seq
  let s1 := s.modRcv p (fun x => { x with highest := some top })
  if s.holdHard p then s1
  else
    let d := seqDiff b.seq r.a
    if d < 0 ∨ r.held.any (fun x => x.seq == b.seq) then (s1.count (portBlock p.val) 5 1).nackSync p
    else if d < (min (2 ^ (s.port p).snd.w) (s.reordBlocks p) : Nat) then
      let h : HeldBlk := ⟨b.seq, b.ffp, b.payload, tsOf s.time.now, s.time.now⟩
      let s2 := (s1.modRcv p (fun x => { x with held := x.held ++ [h] })).count (portBlock p.val) 0 1
      let s3 := if s2.holdRoom p && b.seq != r.a then s2 else State.advance p (r.held.length + 1) s2
      s3.rcvSync p
    else (s1.modRcv p (fun x => { x with reordFull := some s.ticks })).nackSync p

/-- A FILL block's SEQ (R209). -/
def State.takeFill (s : State) (p : Fin 16) (b : Blk) : State :=
  let r := (s.port p).rcv
  let top := match r.highest with | some h => if seqDiff h b.seq < 0 then b.seq else h | none => b.seq
  (s.modRcv p (fun x => { x with highest := some top })).nackSync p

/-! ### Fields common to every block (R193, R195, R217, R221) -/

/-- A cell segment received in the slot (R221): the whole cell after segment 7. -/
def Towpath.takeSeg (t : Towpath) (seg : Nat) (word : Word) : Towpath × Option (List Byte) :=
  let bs := bytesBE 4 word.toNat
  if seg = 0 then ({ t with slotRx := some (bs, 1) }, none)
  else
    match t.slotRx with
    | some (acc, k) =>
      if k = seg then
        if seg = 7 then ({ t with slotRx := none }, some (acc ++ bs)) else ({ t with slotRx := some (acc ++ bs, k + 1) }, none)
      else ({ t with slotRx := none }, none)
    | none => (t, none)

/-- The GATE field (R195, R210): when the partner's HOLD clears, blocks it refused for room are resent. -/
def Sender.takeGate (x : Sender) (g : BitVec 4) : Sender :=
  if x.held && !g.getLsbD 3 then
    { x with gateRx := g, resend := orderSeqs x.aKnown (x.resend ++ x.roomWait), roomWait := [] }
  else { x with gateRx := g }

/-- The receiver's generator over the 4,000 bits of one block (R125, R202); LCHIRP blocks are not scrambled so. -/
def State.descrBlock (s : State) (p : Fin 16) : State :=
  if (s.port p).blockMode == some .lchirp then s else s.modTx p (fun t => { t with descr := scrAdvance 4000 t.descr })

/-- GATE and slot cells always; ACK, NACK and RELEASE once the session is settled (R217). The second result is a cell that
the slot has completed. -/
def State.blockHead (s : State) (p : Fin 16) (b : Blk) : State × Option (List Byte) :=
  let s1 := (s.descrBlock p).modSnd p (fun x => x.takeGate b.gate)
  let isSeg := b.slotKind == 2 && !(s.port p).inLchirp
  let (tow, cell) := if isSeg then (s1.port p).tow.takeSeg b.seg.toNat b.slot else ((s1.port p).tow, none)
  let s2 := if isSeg then s1.modTow p (fun _ => tow) else s1
  if !(s2.port p).snd.synced then (s2, cell)
  else
    let s3 := s2.ackTo p b.ack
    let s4 :=
      if b.slotKind = 1 then s3.nackTo p (BitVec.ofNat 24 (b.slot.toNat / 256)) (b.slot.toNat % 128 + 1) (b.slot.getLsbD 7)
      else if b.slotKind = 3 then s3.relTo p (BitVec.ofNat 24 (b.slot.toNat / 256))
      else s3
    (s4, cell)

/-- A failed block (R203, R219): its fields are not used. -/
def State.failBlock (s : State) (p : Fin 16) : State := (s.descrBlock p).count (portBlock p.val) 1 1

/-! ### Sessions (R216 to R219) -/

/-- The receiver's part of a new session: held blocks and any partial frame discarded, A and R 0. -/
def State.freshReceiver (s : State) (p : Fin 16) (partner : Word) : State :=
  let s1 := match (s.port p).rcv.parser.ticket with | some id => s.freeTicket id true | none => s
  let s2 := s1.modTickets (List.map (fun (t : Ticket) => if !t.outbound && t.queue / 256 == p.val then { t with blk := none } else t))
  s2.modRcv p (fun r => { r with
    a := 0, r := 0, held := [], highest := none, nacks := [], parser := {}, refused := none, partner := partner })

/-- The sender's part of a new session (R218): class-none frames sent are released and counted, hop and through frames sent
wait again with RSND set. -/
def State.freshSender (s : State) (p : Fin 16) : State :=
  let sent := s.basin.tickets.filter (fun t => t.outbound && t.queue / 256 == p.val && t.state == .sent)
  let isNone := fun (t : Ticket) => match s.queue? t.queue with | some q => q.cls == .none | none => true
  let drop := (sent.filter isNone).map (·.id)
  let back := (sent.filter (fun t => !isNone t)).map (·.id)
  let s1 := (s.freeAll drop true).count 3 2 drop.length
  let s2 := s1.modTickets (List.map (fun (t : Ticket) =>
    if back.contains t.id then { t with state := .queued, rsnd := true, blk := none } else t))
  s2.modSnd p (fun x => { x with
    s := 0, aKnown := 0, rKnown := 0, unacked := [], resend := [], roomWait := [], packing := none, redo := [], relSent := 0, sinceRel := 0 })

/-- The re-cut of R219: the byte stream is packed again from the first byte of block A_known, the frames being re-cut before
those that an earlier re-cut has not reached yet. -/
def Sender.recut (x : Sender) : Sender :=
  match x.unacked with
  | [] => x
  | b :: _ =>
    let ids := (x.unacked.flatMap (·.ends) ++ (x.packing.map (·.1)).toList ++ x.redo).eraseDups
    let at_ := match b.parts with | (id, some off) :: _ => some (id, off) | _ => none
    { x with
      s := x.aKnown, unacked := [], resend := [], roomWait := [], packing := at_
      redo := ids.filter (fun i => at_.map (·.1) != some i) }

/-- Tickets that a re-cut sends again lie in no block until their last byte is packed anew. -/
def State.recutBlocks (s : State) (p : Fin 16) : State :=
  let x := (s.port p).snd
  let ids := x.unacked.flatMap (·.ends)
  (s.modTickets (List.map (fun (t : Ticket) => if ids.contains t.id then { t with blk := none } else t))).modSnd p Sender.recut

/-- A resumed session (R218, R219): A_known and R_known from the partner, everything unacknowledged resent; a new block size
re-cuts the stream and discards the held blocks. -/
def State.resume (s : State) (p : Fin 16) (m : LineMode) (rxA rxR : Seq24) : State :=
  let s1 := (s.ackTo p rxA).relTo p rxR
  let s2 := if (s1.port p).snd.unacked.any (fun b => b.len ≠ payLen m) then s1.recutBlocks p
    else s1.modSnd p (fun y => { y with resend := y.unacked.map (·.seq), roomWait := [] })
  s2.modRcv p (fun r => { r with highest := none, nacks := [], held := r.held.filter (fun b => b.payload.length = payLen m) })

/-- The session decision of R218 from a valid SYNC. -/
def State.settleSession (s : State) (p : Fin 16) (m : LineMode) (b : Blk) : State :=
  let sess := BitVec.ofNat 32 (beAt b.payload 0 4)
  let peer := BitVec.ofNat 32 (beAt b.payload 4 4)
  let r := (s.port p).rcv
  let s1 :=
    if peer = r.session ∧ r.partner = sess then
      s.resume p m (BitVec.ofNat 24 (beAt b.payload 8 3)) (BitVec.ofNat 24 (beAt b.payload 11 3))
    else
      ((s.freshReceiver p sess).freshSender p).raise 0x0018 (portBlock p.val) p.val r.session sess
  s1.modSnd p (fun x => { x with synced := true })

/-- Whether a SYNC is valid (R217): a session that is not 0 and the block size of the mode. -/
def syncValid (m : LineMode) (b : Blk) : Bool :=
  decide (beAt b.payload 0 4 ≠ 0) && decide (beAt b.payload 17 1 = bsizeCode m)

/-- A SYNC block (R82, R85, R217, R218): the first valid one settles the session and is the first block accepted. -/
def State.takeSync (s : State) (p : Fin 16) (b : Blk) : State × Option (List Byte) :=
  match (s.port p).blockMode with
  | none => (s, none)
  | some m =>
    if (s.port p).snd.synced || !syncValid m b then s.blockHead p b
    else
      let (s1, cell) := (s.settleSession p m b).blockHead p b
      let s2 :=
        match (s1.port p).link.state with
        | .fullDuplex => s1.linkUp p m .loconUp
        | .shift => if (s1.port p).link.shift.any (fun (r : ShiftRec) => r.acked) then s1.shiftDone p else s1
        | _ => s1
      (s2.rcvSync p, cell)

/-- No valid SYNC in time (R85, R217): a shift has not converged; LCHIRP goes down with cause 8. -/
def State.syncLate (s : State) (p : Fin 16) : State :=
  let x := s.port p
  if !x.link.blocksOn || x.snd.synced then s
  else
    match x.link.state with
    | .shift => s.shiftFailed p
    | .loconUp => if x.inLchirp then s.linkDown p 8 else s
    | .fullDuplex => s.trainFailed p
    | _ => s

end Sys2Proof.Machine
end

