-- ==== Sys2Proof/Machine/Mailbox.lean ====
section
/-! DEFINITION. Mailbox channels: request and response cells (R380), answers (R381, R382, R385), and the release of the
channel that waits for something. -/

namespace Sys2Proof.Machine

/-- Status codes of R385 that commands share. -/
def stOk : Nat := 0x0000
def stUnknown : Nat := 0x0001
def stBadLen : Nat := 0x0002
def stRestarted : Nat := 0x0003
def stBadArg : Nat := 0x0004
def stObjBusy : Nat := 0x0005
def stNoFirmware : Nat := 0x0006
def stTimeout : Nat := 0x0007

/-- The response cells of an answer (R380): header and result words from cell 1 on. -/
def respCells (code tag status detail : Nat) (words : List Word) : Vector Word 64 :=
  let len := 1 + ceilDiv words.length 4
  let hdr : List Word := [wd (tag * 65536 + len * 256 + code), wd (detail * 65536 + status), 0, 0]
  Vector.ofFn (fun i => (hdr ++ words).getD i.val 0)

/-- A channel answered (R382): its code and tag echoed, DONE set, BUSY cleared. -/
def Channel.answered (ch : Channel) (status detail : Nat) (words : List Word) : Channel :=
  let w0 := ch.req.get 0
  { ch with resp := respCells (fld w0 0 8) (fld w0 16 16) status detail words, busy := false, done := true, work := none }

/-- A channel answered and counted (R398: keeper event 0, mailbox event 2). -/
def State.answer (s : State) (c : Fin 16) (status : Nat) (words : List Word) (detail : Nat := 0xFFFF) : State :=
  ((s.modChan c (fun ch => ch.answered status detail words)).count 1 0 1).count (mboxBlock c.val) 2 (if status = 0 then 0 else 1)

/-- The channels in number order. -/
def allChans : List (Fin 16) := List.finRange 16

/-- The busy channel whose long-running command satisfies a test. -/
def State.waiting (s : State) (f : LongCmd → Bool) : Option (Fin 16) :=
  allChans.find? (fun c => (s.chan c).busy && (match (s.chan c).work with | some w => f w | none => false))

/-- The waiting channel answered, if there is one. -/
def State.answerWait (s : State) (f : LongCmd → Bool) (status : Nat) (words : List Word) (detail : Nat := 0xFFFF) : State :=
  match s.waiting f with
  | some c => s.answer c status words detail
  | none => s

/-- The wait of a REMOTE_CMD (R390). -/
def isRemote (p : Fin 16) (req : BitVec 16) (answer : Bool) : LongCmd → Bool
  | .remote q r a => q == p.val && r == req && a == answer
  | _ => false

end Sys2Proof.Machine
end

