-- ==== Sys2Proof/Machine/RxChain.lean ====
section
/-! DEFINITION. The receive chain symbol by symbol (R141, R142, R146, R147, R149, R151, R152, R156 to R165): FFE, the two
passes with their DFE and slicer, underlay and FEXT subtraction, the LMS laws with their skips and freezes, and the figures
of one millisecond. Units and roundings that no rule states are a DESIGN CHOICE (notes/assumptions/60.md). -/

namespace Sys2Proof.Machine

/-! ### Slicer, decision feedback, filters (R156 to R159) -/

/-- Sum of products of two lists. -/
def dot (a b : List Int) : Int := (List.zipWith (· * ·) a b).foldl (· + ·) 0

/-- Coefficients as whole numbers. -/
def ints (l : List (BitVec 16)) : List Int := l.map BitVec.toInt

/-- Levels of the slicer of a mode (R157): M, 2M - 1 sum levels with precoding; PAM-3 has three. -/
def slicerLevels (m : LineMode) (pre : Bool) : Nat :=
  let n := match m with | .t100 | .t1000 => 3 | m => pamOrder m
  if pre then 2 * n - 1 else n

/-- The ideal level, -(n - 1) to n - 1 in steps of 2, nearest to a slicer input in 1/4096. -/
def decideLevel (n : Nat) (z : Int) : Int :=
  let top : Int := (n : Int) - 1
  2 * clampI 0 top (roundDiv (z + 4096 * top) 8192) - top

/-- The index a(n) of a decided sum level (R123, R157). -/
def sumIndex (m : LineMode) (level : Int) : Nat :=
  let n : Int := pamOrder m
  (((level + 2 * (n - 1)) / 2) % n).toNat

/-- The mean square P of the ideal slicer levels (R72, R165), as a fraction. -/
def slicerPower (m : LineMode) (pre : Bool) : Nat × Nat :=
  match m with
  | .t100 | .t1000 => (8, 3)
  | m => if pamOrder m = 8 then (if pre then 42 else 21, 1) else (if pre then 10 else 5, 1)

/-- What the DFE takes off (R157): d1 is not used with precoding. -/
def dfeOut (d : List (BitVec 16)) (pre : Bool) (hist : List Int) : Int :=
  if pre then dot ((ints d).drop 1) (hist.drop 1) else dot (ints d) hist

/-- The decision of a data chirp is subtracted when its peak is 6 dB above the next-highest bin (R160): a power ratio of
10^0.6. -/
def chirpSure (c : Nat × Nat) : Bool := decide (1000 * c.2 ^ 5 ≤ c.1 ^ 5)

/-- Whether the data chirps of a port are ready within D_U (R143). -/
def Port.chirpsReady (x : Port) : Bool := decide (x.tow.sf ≤ x.rx.duSf)

/-- The rebuilt underlay that pass B takes for a symbol (R143, R159, R160): pilots always, data chirps when they are sure and
ready. -/
def Port.rebuilt (x : Port) (chirps : List (Nat × Nat)) (y : RxSymbol) : Int :=
  match y.chirp with
  | none => y.u
  | some i => if x.chirpsReady && chirpSure (chirps.getD i (0, 0)) then y.u else 0

/-- A sample filtered by a response of full scale ±1.0, newest input first. -/
def filtered (h : List (BitVec 16)) (l : List Int) : Int := roundDiv (dot (ints h) l) 32768

/-- The port's own underlay echo at stage 3 (R149): its transmitted underlay samples through the sounded echo response in
force. -/
def RxPath.ownUnderlay (r : RxPath) (sent : List Int) : Int := filtered r.ownEcho sent

/-- A rebuilt chirp as pass B meets it (R159): the waveform of R90 through the sounded channel and the FFE; `wave k` is the
chirp k chips ago in 1/4096. -/
def RxPath.rebuild (r : RxPath) (x : Sounding) (wave : Nat → Int) : Int :=
  let after := fun (k : Nat) => filtered x.cir ((List.range x.cir.length).map (fun j => wave (k + j)))
  roundDiv (dot (ints r.ffe) ((List.range 24).map after)) 4096

/-- Crosstalk of one path into a symbol. -/
def xtOut (k : XtPath) (l : List Int) : Int := filtered k.taps l

/-- FEXT into a symbol (R152): the active FEXT paths. -/
def fextOut (paths : Vector XtPath 12) (y : RxSymbol) : Int :=
  (y.x.map (fun e =>
    let k := paths.get (Fin.ofNat 12 e.1)
    if k.used && !k.susp && k.fext then xtOut k e.2 else 0)).foldl (· + ·) 0

/-! ### One symbol -/

/-- One symbol after pass B: what the LMS laws need of it, with the pass B error in 1/4096. -/
structure RxTaken where
  sym  : RxSymbol
  line : List Int
  ul   : List Int
  hist : List Int
  e    : Int
  deriving DecidableEq, Repr

/-- What the chain runs with: its mode, whether the received direction is precoded, the chirps of the millisecond, the
crosstalk paths of the reach and the port. -/
structure RxSetup where
  mode   : LineMode
  pre    : Bool
  chirps : List (Nat × Nat)
  paths  : Vector XtPath 12
  port   : Port
  deriving DecidableEq, Repr

/-- One symbol through FFE, pass A and pass B (R141, R142, R156 to R160); a standard mode has no pass A, underlay or FEXT, and LDMT no slicer here. -/
def rxSymbol (c : RxSetup) (r : RxPath) (y : RxSymbol) : RxTaken × RxPath :=
  let locon := isLocon c.mode
  let n := slicerLevels c.mode c.pre
  let line := (y.y :: r.ffeLine).take 24
  let ul := ((if locon then c.port.rebuilt c.chirps y else 0) :: r.ulLine).take 16
  let f := roundDiv (dot (ints r.ffe) line) 4096
  let a := decideLevel n (f - dfeOut r.dfe c.pre r.histA)
  let off := if locon then (if r.ulSub then roundDiv (dot (ints r.ulTaps) ul) 4096 else 0) + fextOut c.paths y else 0
  let z := f - off - dfeOut r.dfe c.pre r.histB
  let b := decideLevel n z
  ({ sym := y, line := line, ul := ul, hist := r.histB
     e := if c.mode == .ldmt then 0 else z - 4096 * b },
    { r with ffeLine := line, ulLine := ul, histA := if locon then (a :: r.histA).take 4 else r.histA, histB := (b :: r.histB).take 4 })

/-- A list of symbols. -/
def rxSymbols (c : RxSetup) : RxPath → List RxSymbol → List RxTaken × RxPath
  | r, [] => ([], r)
  | r, y :: l =>
    let (t, r1) := rxSymbol c r y
    let (ts, r2) := rxSymbols c r1 l
    (t :: ts, r2)

/-! ### Skips (R146, R164) -/

/-- A clipped sample among a symbol's codes (R146). -/
def clippedCodes (y : RxSymbol) : Nat := (y.codes.filter (fun c => c == 0 || c == 127)).length

/-- An impulse (R164): |e| above 2, one level spacing. -/
def impulse (e : Int) : Bool := decide (2 * 4096 < e.natAbs)

/-- Symbols still skipped after each one (R164): 64 from the one after an impulse on. The result pairs every symbol with
whether it is skipped. -/
def impulseSkips : Nat → List RxTaken → List (RxTaken × Bool) × Nat
  | n, [] => ([], n)
  | n, t :: l =>
    let (r, k) := impulseSkips (if impulse t.e then 64 else n - 1) l
    ((t, decide (0 < n)) :: r, k)

/-- Whether a clipped sample lies within 32 symbols of place i (R146: the 64 symbols around it). -/
def clipNear (l : List RxTaken) (i : Nat) : Bool := ((l.drop (i - 32)).take (if i < 32 then i + 33 else 65)).any (fun t => decide (0 < clippedCodes t.sym))

/-- The symbols whose updates are not skipped. -/
def liveSymbols (skip : Nat) (l : List RxTaken) : List RxTaken :=
  (((List.zip (List.range l.length) (impulseSkips skip l).1)).filter (fun e => !e.2.2 && !clipNear l e.1)).map (·.2.1)

/-! ### The LMS laws (R163) -/

/-- Σ over symbols of an error times tap k's input. -/
def lmsSum (l : List RxTaken) (err : RxTaken → Int) (inp : RxTaken → List Int) (k : Nat) : Int :=
  l.foldl (fun acc t => acc + err t * (inp t).getD k 0) 0

/-- The exponent in force (R163): s - 4, not below the least, while the block acquires. -/
def lmsExp (least s : Nat) (acquires : Bool) : Nat := if acquires then max least (s - 4) else s

/-- A coefficient moved by a sum over 2^sh. -/
def lmsMove (c : BitVec 16) (sum : Int) (sh : Nat) : BitVec 16 := sat16 (c.toInt + roundDiv sum (2 ^ sh))

/-- Which blocks adapt and how fast: freeze test, exponents of FFE, DFE and echo; whether the echo canceller and the
equalisers learn, and the cluster that acquires. -/
structure LmsSetup where
  frozen : Nat → Bool
  ffe    : Nat
  dfe    : Nat
  ec     : Nat
  ecAcq  : Nat
  echo   : Bool
  eq     : Bool
  pam    : Bool
  pre    : Bool
  moved  : Option Nat

/-- FFE, DFE, echo and underlay correction after a millisecond (R157, R163, R164): the FFE and the underlay correction move
against e times their input, the DFE and the echo canceller with it. -/
def RxPath.lms (r : RxPath) (c : LmsSetup) (l : List RxTaken) : RxPath :=
  let idx := fun (cs : List (BitVec 16)) => List.zip (List.range cs.length) cs
  { r with
    ffe := if c.frozen 1 || !c.eq || !c.pam then r.ffe
      else (idx r.ffe).map (fun e => lmsMove e.2 (-lmsSum l (·.e) (·.line) e.1) (12 + c.ffe))
    dfe := if c.frozen 2 || !c.eq || !c.pam then r.dfe
      else (idx r.dfe).map (fun e => if e.1 = 0 && c.pre then e.2
        else dfeClamp e.1 (lmsMove e.2 (lmsSum l (·.e) (·.hist) e.1) c.dfe).toInt)
    dense := if c.frozen 3 || !c.echo then r.dense
      else (idx r.dense).map (fun e => lmsMove e.2 (lmsSum l (·.sym.eps) (·.sym.t) e.1) (9 + c.ec))
    float := if c.frozen 3 || !c.echo then r.float
      else (idx r.float).map (fun e => if r.parked.getLsbD (e.1 / 4) then 0
        else lmsMove e.2 (lmsSum l (·.sym.eps) (·.sym.t) (512 + e.1)) (9 + (if c.moved == some (e.1 / 4) then c.ecAcq else c.ec)))
    ulTaps := if c.frozen 7 || !c.eq || !c.pam then r.ulTaps
      else (idx r.ulTaps).map (fun e => lmsMove e.2 (-lmsSum l (·.e) (·.ul) e.1) (12 + 16)) }

/-- The inputs of path `n` that come with a symbol. -/
def pathInput (n : Nat) (t : RxTaken) : List Int := ((t.sym.x.find? (fun e => e.1 == n)).map (·.2)).getD []

/-- A crosstalk path into port `v` after a millisecond (R153, R154, R163): a suspended or frozen one holds its coefficients. -/
def lmsPath (v : Nat) (held : Bool) (s now : Nat) (l : List RxTaken) (n : Nat) (k : XtPath) : XtPath :=
  if k.used && !k.susp && k.victim.val == v && !held then
    let sh := 9 + lmsExp 8 s (decide (now ≤ k.born + msTicks 2))
    { k with taps := (List.range 64).map (fun i => lmsMove (k.taps.getD i 0) (lmsSum l (·.sym.eps) (pathInput n) i) sh) }
  else k

/-! ### Figures (R72, R151, R165) -/

/-- The echo estimate that comes with a symbol (R147). -/
def echoEstimate (r : RxPath) (y : RxSymbol) : Int := filtered (r.dense ++ r.float) y.t

/-- Cubic interpolation between the second and the third of four values (R151), `mu` in 1/4096. -/
def cubic (mu a b c d : Int) : Int :=
  roundDiv (-a * mu * (mu - 4096) * (mu - 8192) + 3 * b * (mu + 4096) * (mu - 4096) * (mu - 8192)
    - 3 * c * (mu + 4096) * mu * (mu - 8192) + d * (mu + 4096) * mu * (mu - 4096)) (6 * 4096 ^ 3)

/-- A sequence of estimates through the interpolator. -/
def interpolated (mu : Int) : List Int → List Int
  | a :: b :: c :: d :: l => cubic mu a b c d :: interpolated mu (b :: c :: d :: l)
  | _ => []

/-- Sum of squares. -/
def power (l : List Int) : Nat := l.foldl (fun n v => n + v.natAbs ^ 2) 0

/-- Whether the receive clock of a port is not its transmit clock (R151). -/
def Port.twoClocks (x : Port) : Bool := x.tow.farSpread && x.link.leader || x.txMode == some .l50a

/-- Power of the echo estimate over the millisecond (R151). -/
def Port.echoPower (x : Port) (l : List RxTaken) : Nat :=
  let est := l.map (fun t => echoEstimate x.rx t.sym)
  power (if x.twoClocks then interpolated (x.rx.ecPhase % 4096) est else est)

/-- Power of the crosstalk estimate over the active paths into a port (R167). -/
def xtPower (paths : Vector XtPath 12) (l : List RxTaken) : Nat :=
  power (l.map (fun t => (t.sym.x.map (fun e =>
    let k := paths.get (Fin.ofNat 12 e.1)
    if k.used && !k.susp then xtOut k e.2 else 0)).foldl (· + ·) 0))

/-- The link-quality figure of a millisecond at the pass B slicer (R72, R165): none without a symbol. -/
def pamFigure (m : LineMode) (pre : Bool) (l : List RxTaken) : Option Nat :=
  let (pn, pd) := slicerPower m pre
  if l.isEmpty then none else some (tenthDb (pn * l.length * 4096 ^ 2) (pd * power (l.map (·.e))))

/-! ### One millisecond of a port -/

/-- The mode in which the main chain of a port runs (R142): none in LCHIRP, DISCOVER, SOUND, quiet and with the link down. -/
def Port.chainMode (x : Port) : Option LineMode :=
  match x.link.state, x.quiet.state with
  | .stdTrain, _ | .stdUp, _ | .echoLearn, _ | .fullDuplex, _ | .loconUp, .active | .shift, .active =>
    match x.txMode with
    | some m => if m == .lchirp then none else some m
    | none => none
  | _, _ => none

/-- Whether the receiver acquires (R163). -/
def Port.acquires (x : Port) : Bool :=
  match x.link.state, x.link.shift with
  | .echoLearn, _ | .fullDuplex, _ => true
  | .shift, some sh => sh.acked && !sh.retrained
  | _, _ => false

/-- A freeze bit of LN_RX_FRZ as it acts: ALL acts as bits 1 to 7 (R167). -/
def State.frozen (s : State) (p : Fin 16) (i : Nat) : Bool := bit (s.portReg p 0x32) 0 || bit (s.portReg p 0x32) i

/-- The LMS setting of a port (R148, R150, R163): in ECHO_LEARN the end that sends learns its echo, the silent one its
equalisers. -/
def State.lmsSetup (s : State) (p : Fin 16) (m : LineMode) : LmsSetup :=
  let x := s.port p
  let mu := s.portReg p 0x31
  let acq := x.acquires
  let learn := x.link.state == .echoLearn
  let ec := max 8 (fld mu 24 5)
  { frozen := s.frozen p, ffe := lmsExp 6 (max 6 (fld mu 8 5)) acq, dfe := lmsExp 6 (max 6 (fld mu 0 5)) acq, ec := lmsExp 8 ec acq
    ecAcq := lmsExp 8 ec true, echo := !learn || x.tx.train.isSome, eq := !learn || x.tx.train.isNone, pam := m != .ldmt
    pre := s.rxPrecoded p
    moved := match x.rx.moved with | some (i, t) => if s.ticks ≤ t + msTicks 1 then some i else none | none => none }

/-- The data phase correction (R161, R162, R167, R170): it moves at the bandwidth of DATA_BW towards what the detector asks
for, within ±0.375 symbol, unless PD_DATA_EN or the freeze holds it. -/
def State.dataPhase (s : State) (p : Fin 16) (asked : Int) : Int :=
  let now := (s.port p).rx.dataPh
  if !bit (s.portReg p 0x30) 2 || s.frozen p 6 then now
  else clampI (-1536) 1536 (now + Config.dataStep (min 6 (fld (s.portReg p 0x33) 16 4)) (asked - now))

/-- Whether an active crosstalk path leads into a port. -/
def State.xtInto (s : State) (p : Fin 16) : Bool :=
  (s.reach (reachOf p)).paths.toList.any (fun (k : XtPath) => k.used && !k.susp && k.victim.val == p.val % 4)

/-- What the chain of a port makes of a millisecond in a mode (R146, R151, R160 to R165): the symbols taken, coefficients and
figures brought up to date. -/
def State.chainRun (s : State) (p : Fin 16) (m : LineMode) (q : LineMeasure) : List RxTaken × State :=
  let x := s.port p
  let paths := (s.reach (reachOf p)).paths
  let c : RxSetup := ⟨m, s.rxPrecoded p, q.chirps, paths, x⟩
  let (l, r0) := rxSymbols c x.rx q.symbols
  let samples := (q.symbols.map (fun y => y.codes.length)).foldl (· + ·) 0
  let clips := (q.symbols.map clippedCodes).foldl (· + ·) 0
  let live := liveSymbols x.rx.skip l
  let locon := isLocon m
  let r1 := { r0 with
    skip := if m == LineMode.ldmt then x.rx.skip else (impulseSkips x.rx.skip l).2
    clip := decide (samples < clips * 100000)
    autoFrz := if m == LineMode.ldmt then x.rx.autoFrz else l.any (fun t => impulse t.e)
    ulSkip := locon && decide (q.chirps ≠ []) && (!x.chirpsReady || q.chirps.any (fun e => !chirpSure e))
    echoRes := depthDb (x.echoPower l) q.echoRes
    xtRes := if s.xtInto p then depthDb (xtPower paths l) q.xtRes else 0
    dataPh := s.dataPhase p q.dataPhase
    ecPhase := if x.twoClocks then x.rx.ecPhase + q.drift else x.rx.ecPhase }
  let s1 := (s.modRx p (fun _ => r1.lms (s.lmsSetup p m) live)).modReach (reachOf p) (fun y => { y with
    paths := Vector.ofFn (fun k => lmsPath (p.val % 4) (s.frozen p 5) (max 8 (fld (s.portReg p 0x31) 16 5)) s.ticks live k.val (y.paths.get k)) })
  (l, s1.count (portBlock p.val) 14 clips)

/-- One millisecond of a port's receiver: with the main chain off nothing adapts and its figures stay. The result is the
link-quality figure where the chain gives one. -/
def State.measure (s : State) (p : Fin 16) (q : LineMeasure) : Option Nat × State :=
  let x := s.port p
  let s0 := s.modTow p (fun t => { t with farSpread := if x.link.leader then q.farSpread else t.farSpread })
  match x.chainMode with
  | none => (none, s0)
  | some m =>
    let (l, s1) := s0.chainRun p m q
    let fig := if m == .ldmt then (if x.dmt.meanP = 0 then none else some (tenthDb x.dmt.meanP x.dmt.meanE))
      else pamFigure m (s.rxPrecoded p) l
    (fig, (s1.modLink p (fun k => { k with oamDisc := k.oamDisc + (if m == .t1000 then q.oam else 0) })).xtSync (reachOf p))

end Sys2Proof.Machine
end

