-- ==== Sys2Proof/Machine/LinkOps.lean ====
section
/-! DEFINITION. What each event of link start, the ladder and the towpath does (R66 to R87, R101 to R120, R455): the effect
that the commands of those rules share with one another. -/

namespace Sys2Proof.Machine

/-! ### AN and standard modes (R66, R73, R83) -/

/-- The OUI of the extended next page that a port sent, if it sent one. -/
def Link.sentOui (l : Link) : Option (BitVec 24) :=
  l.pages.findSome? (fun g => match g with | .message o => some o | _ => none)

/-- The modes and the EEE bit of the base page that a port sent. -/
def Link.sentBase (l : Link) : BitVec 6 × Bool :=
  (l.pages.findSome? (fun g => match g with | .base m e _ => some (m, e) | _ => none)).getD (0, false)

/-- The highest standard mode of a set in the order of STD_MASK. -/
def highestStd (m : BitVec 6) : Option LineMode :=
  [LineMode.t25g, .t10g, .t5000, .t2500, .t1000, .t100].find? (fun x => m.getLsbD (modeCode x - 1))

/-- Clause 98 resolves a standard mode (R64, R73, R83): cause 2 for a configuration fault or without a common mode. -/
def State.anStandard (s : State) (p : Fin 16) (r : AnPages) : State :=
  let (own, eee) := (s.port p).link.sentBase
  match (if r.msFault then none else highestStd (own &&& r.std)) with
  | some m => (s.enterStd p m r.master).modQuiet p (fun q => { q with eee := r.eee && eee && m != .t100 })
  | none => s.linkDown p 2

/-- Clause 98 has brought the partner's pages (R64, R73, R74, R83): extended next pages with equal OUI lead to DISCOVER; one
with another OUI is answered with null message pages and otherwise ignored. -/
def State.anResolved (s : State) (p : Fin 16) (r : AnPages) : State :=
  if (s.port p).link.state ≠ .an then s
  else
    match r.ext with
    | none => s.anStandard p r
    | some e =>
      if e.oui ≠ s.oui p then
        (s.modLink p (fun l => { l with pages := l.pages ++ [.null, .null] })).anStandard p r
      else
        let s1 := s.modLink p (fun l => { l with partnerLocon := true })
        if (s.port p).link.sentOui = some e.oui then s1.enterDiscover p false else s1.anStandard p r

/-- 300 ms without a Clause 98 page under long-reach search (R65, R73): a port that allows no Locon mode stays. -/
def State.anTimeout (s : State) (p : Fin 16) : State :=
  if (s.port p).link.state = .an ∧ policyOf (s.policy p) = 2 ∧ s.sendsExt p = true then s.enterDiscover p true else s

/-- Standard training done (R83). -/
def State.stdTrained (s : State) (p : Fin 16) : State :=
  match (s.port p).link.state, (s.port p).link.train with
  | .stdTrain, some m => s.linkUp p m .stdUp
  | _, _ => s

/-- Standard link fail (R83). -/
def State.stdFailed (s : State) (p : Fin 16) : State :=
  if (s.port p).link.state = .stdUp then s.linkDown p 9 else s

/-! ### DISCOVER (R75 to R78, R111 to R114) -/

/-- The listening time ends and nothing arrived (R113). -/
def State.listenEnd (s : State) (p : Fin 16) : State :=
  if (s.port p).link.state = .discover then s.sendBeacon p false else s

/-- The MAC that a capability cell must carry (R109): counter 0, and this end's nonce once the sender holds a valid CAP. -/
def State.capMac (s : State) (p : Fin 16) (c : CapCell) : Word :=
  macOf (s.linkKey p) c.nonce (if c.ack then (s.port p).tow.nonce else 0) 0 (1 :: 0 :: capPayload c)

/-- Whether a capability cell passes pairing and CMAC (R78, R109, R417). -/
def State.capAuth (s : State) (p : Fin 16) (c : CapCell) (mac : Word) : Bool :=
  match (s.port p).tow.keyInUse with
  | none => c.keyIdx == 0xFF
  | some k => c.keyIdx == BitVec.ofNat 8 k && (s.linkKey p).isSome && mac == s.capMac p c

/-- SOUND once the end holds a valid cell with ACK (R79, R114). -/
def State.soundIfAcked (s : State) (p : Fin 16) : State :=
  match (s.port p).tow.partner with
  | some c => if c.ack then s.enterSound p (s.port p).link.leader else s
  | none => s

/-- The answering beacon (R113). A follower that left for SOUND with its partner's ACK still answers the beacon that brought
it, until it has sent a cell with ACK itself. -/
def State.answerBeacon (s : State) (p : Fin 16) : State :=
  let x := s.port p
  if x.tow.partner.isSome ∧ (x.link.state = .discover ∨ (x.link.state = .sound ∧ x.link.leader = false ∧ x.tow.ackSent = false)) then
    s.sendBeacon p true
  else s

/-- A capability cell (R75 to R78): the first failing check of R78's order ends DISCOVER; equal nonces are redrawn; a valid
cell is held and its SF adopted. R70 has the OUI matched in capability cells and does not say what follows a mismatch: the
cell is ignored and DISCOVER goes on, a DESIGN CHOICE (notes/assumptions/58.md). -/
def State.takeCap (s : State) (p : Fin 16) (c : CapCell) (mac : Word) (sf : Nat) : State :=
  if (s.port p).link.state ≠ .discover ∨ c.oui ≠ s.oui p then s
  else if !s.capAuth p c mac then s.linkDown p 5
  else if (commonSet (s.policy p) c c.dir.toNat).isEmpty then s.linkDown p 4
  else
    match resolveRole (roleOf (s.policy p)) c.role.toNat (s.port p).tow.nonce c.nonce with
    | .conflict => s.linkDown p 6
    | .tie =>
      let (d, s1) := s.draw
      s1.modTow p (fun t => { t with nonce := Config.freeNonce d })
    | r =>
      let s1 := s.modTow p (fun t => { t with
        partner := some c, adopted := some (clampN 7 12 sf), rx := { t.rx with nonce := c.nonce } })
      let s2 := s1.modLink p (fun l => { l with leader := decide (r = .leader), partnerLocon := true, dirPartner := c.dir })
      (s2.count (portBlock p.val) 9 1).soundIfAcked p

/-- The DISCOVER timeout of a policy (R83): none under Locon-only; long-reach search returns to Clause 98. -/
def State.discoverLate (s : State) (p : Fin 16) : State :=
  if (s.port p).link.state = .discover then
    match policyOf (s.policy p) with
    | 1 => s
    | 2 => (s.modTow p Towpath.fallen).enterAn p
    | _ => s.linkDown p 3
  else s

/-! ### SOUND (R79, R83, R115) -/

/-- The leader's choice announced (R79): a MODE cell, or HOLD with cause 7 when every mode is excluded. -/
def State.announceMode (s : State) (p : Fin 16) : State :=
  match s.choose p with
  | (some m, force) =>
    (s.modLink p (fun l => { l with train := some m, forceFail := force, forceOff := force })).queueCell p 2 (modePayload (s.modeCell p m))
  | (none, _) => (s.linkDown p 7).modLink p (fun l => { l with excluded := [], lastFail := none })

/-- A sounding burst received (R79, R114, R115): measured; the leader then begins its narrow run and announces its choice, the
follower sends its own burst. In DISCOVER the partner's marker stands for its ACK. -/
def State.takeBurst (s : State) (p : Fin 16) (x : Sounding) (snr : Nat) : State :=
  let t := (s.port p).tow
  let s0 := if (s.port p).link.state = .discover ∧ t.ackSent ∧ t.partner.isSome then s.enterSound p (s.port p).link.leader else s
  if (s0.port p).link.state ≠ .sound then s0
  else
    let s1 := (s0.newSounding p x).modTow p (fun t => { t with soundGot := true, snrDb10 := min 600 snr })
    if (s1.port p).link.leader then (if (s1.port p).link.train.isNone then (s1.runDue p).announceMode p else s1)
    else s1.sendSounding p

/-- A sounding burst missing (R115): it repeats once; a second miss expires the SOUND timeout. -/
def State.burstMissing (s : State) (p : Fin 16) : State :=
  if (s.port p).link.state ≠ .sound then s
  else if (s.port p).tow.soundMiss = 0 then
    let s1 := s.modTow p (fun t => { t with soundMiss := 1 })
    if (s.port p).link.leader then s1.sendSounding p else s1
  else s.linkDown p 7

/-- The SOUND timeout (R83). -/
def State.soundLate (s : State) (p : Fin 16) : State :=
  if (s.port p).link.state = .sound then s.linkDown p 7 else s

/-! ### Training (R81, R83, R106) -/

/-- One end's ECHO_LEARN time is over (R81): the follower's turn, then FULL_DUPLEX. -/
def State.echoTurn (s : State) (p : Fin 16) : State :=
  let l := (s.port p).link
  if l.state ≠ .echoLearn then s
  else if l.echoTurns = 0 then
    let s1 := s.modLink p (fun l => { l with echoTurns := 1 })
    if l.leader then (s1.txStop p).modTx p (fun t => { t with train := none }) else (s1.trainStart p false).txResume p
  else
    (((s.txStop p).goLink p (fun l => { l with state := .fullDuplex, echoTurns := 2 })).trainStart p true).txResume p

/-- Whether LDMT tables have been exchanged, where the mode needs them. -/
def Port.tablesReady (x : Port) (m : LineMode) : Bool := m != .ldmt || (x.dmt.validGot && x.dmt.sent.isSome)

/-- FULL_DUPLEX has lasted its time (R81, R185): the leader ends it with a GO, in LDMT once the tables are there. -/
def State.duplexEnd (s : State) (p : Fin 16) : State :=
  let x := s.port p
  match x.link.state, x.link.train with
  | .fullDuplex, some m =>
    if !x.link.leader || x.link.blocksOn then s
    else if x.tablesReady m then s.queueGo p
    else s.modLink p (fun l => { l with echoTurns := 3 })
  | _, _ => s

/-- Whether a follower takes a GO (R106): its COUNT lies ahead and its mode's tables are there. -/
def State.goOk (s : State) (p : Fin 16) (c : GoCell) : Bool :=
  let x := s.port p
  match x.link.state, x.link.train with
  | .fullDuplex, some m => !x.link.leader && ahead c.count x.tow.symCount && x.tablesReady m
  | .shift, some m =>
    !x.link.leader && m == .ldmt && (match x.link.shift with | some sh => sh.acked && !sh.retrained | none => false)
      && ahead c.count x.tow.symCount && x.tablesReady m
  | _, _ => false

/-- A GO cell at the follower (R105, R106, R126). -/
def State.takeGo (s : State) (p : Fin 16) (h : CellHdr) (c : GoCell) : State :=
  s.withCellIf p h 3 (s.goOk p c) (fun t =>
    (t.modTow p (fun w => { w with goCount := some (c.count, true) })).modTx p (fun x => { x with
      seedL := seedOf c.seedL, seedF := seedOf c.seedF }))

/-- The retrain of a shift ends with its negated symbols, and the first block follows (R85 step 6). -/
def State.retrained (s : State) (p : Fin 16) : State :=
  match (s.port p).link.shift with
  | some sh => (s.modLink p (fun l => { l with shift := some { sh with retrained := true } })).beginBlocks p sh.target s.ticks
  | none => s

/-- The next 256 training symbols are negated (R81). -/
def State.negate (s : State) (p : Fin 16) : State :=
  s.modTx p (fun t => { t with train := t.train.map (fun (r : TrainRec) => { r with neg := some s.ticks }) })

/-- Whether the negated symbols have begun. -/
def TxPath.negated (t : TxPath) : Bool := match t.train with | some r => r.neg.isSome | none => false

/-- The count of the GO is reached (R81, R106, R186): the negated symbols begin and blocks follow the last of them, in a
shift into LDMT at SHIFT_RETRAIN_END; a leader without its CACK sends a new GO. -/
def State.goReached (s : State) (p : Fin 16) : State :=
  let x := s.port p
  match x.link.state, x.tow.goCount, x.link.train with
  | .fullDuplex, some (_, acked), some m =>
    if x.link.blocksOn then s
    else if acked then (s.negate p).beginBlocks p m (s.ticks + negTicks m (fwdOut (s.policy p))) else s.queueGo p
  | .shift, some (_, acked), some .ldmt =>
    if x.tx.negated || (match x.link.shift with | some sh => sh.retrained | none => true) then s
    else if acked then s.negate p else s.queueGo p
  | _, _, _ => s

/-- A phase timeout in training (R83). -/
def State.trainLate (s : State) (p : Fin 16) : State :=
  match (s.port p).link.state with
  | .echoLearn | .fullDuplex => s.trainFailed p
  | .stdTrain => s.linkDown p 7
  | _ => s

/-- HOLD is over (R83): a blocked port stays. -/
def State.holdOver (s : State) (p : Fin 16) : State :=
  if (s.port p).link.state = .hold ∧ (s.blocker p).isNone then s.startPort p else s

/-- No valid towpath cell or pilot for 4 ms (R83). In deep quiet there is no towpath. -/
def State.towpathLost (s : State) (p : Fin 16) : State :=
  match (s.port p).link.state with
  | .loconUp | .shift => if (s.port p).quiet.state = .deep then s else s.linkDown p 8
  | _ => s

/-! ### The towpath's SF (R101, R118) -/

/-- An SF change begun by the leader (R101): a TPSF cell, whose count is fixed as it is sent. -/
def State.startTpsf (s : State) (p : Fin 16) (sf : Nat) (lchirp : Bool) : State :=
  (s.modTow p (fun t => { t with tpsf := some ⟨sf, lchirp, 0, false⟩ })).queueCell p 10 (tpsfPayload sf lchirp 0)

/-- The wide SF brought in line with the leader's TP_CTRL.SF (R101), outside shifts and quiet. -/
def State.sfSync (s : State) (p : Fin 16) : State :=
  let x := s.port p
  let want := fld (s.portReg p 0x20) 12 4
  if x.link.leader && x.link.state != .shift && x.tow.profile == .wideRun && x.tow.tpsf.isNone && x.tow.sf != want then
    s.startTpsf p want false
  else s

/-- A TPSF cell at the follower. -/
def State.takeTpsf (s : State) (p : Fin 16) (h : CellHdr) (c : TpsfCell) : State :=
  s.withCellIf p h 10 (!(s.port p).link.leader) (fun t =>
    t.modTow p (fun w => { w with tpsf := some ⟨c.sf.toNat, c.lchirp, c.count, true⟩ }))

/-- The count of a TPSF is reached (R101, R143): the new SF, the count going on; the delay line keeps its length until the
next shift. A write of TP_CTRL.SF made meanwhile acts now. -/
def State.sfReached (s : State) (p : Fin 16) : State :=
  match (s.port p).tow.tpsf with
  | some r =>
    if r.acked then
      ((s.modTow p (fun t => { t with
        sf := r.sf, wideSf := if r.lchirp then t.wideSf else r.sf, symCount := r.count, tpsf := none, lchirpLow := 0
        lchirpUp := 0 })).lineSync p).sfSync p
    else s
  | none => s

/-- No CACK 16 symbols before the count (R101): the leader keeps the old SF and sends a new TPSF. -/
def State.tpsfAgain (s : State) (p : Fin 16) : State :=
  match (s.port p).tow.tpsf with
  | some r =>
    if r.acked || !(s.port p).link.leader then s
    else (s.modTow p (fun t => { t with await := t.await.filter (fun e => e.cell.type != 10) })).startTpsf p r.sf r.lchirp
  | none => s

/-- LCHIRP's SF adaptation at one update of the leader (R118): 2,000 updates with 6 dB to spare at the next lower SF, or 100
updates with less than 1 dB at the present one. -/
def State.adaptSf (s : State) (p : Fin 16) : State :=
  let t := (s.port p).tow
  if !(s.port p).link.leader || t.tpsf.isSome then s
  else
    let lo := lsfMinAct (s.portReg p 0x20)
    let good := decide (lo < t.sf) && decide (((decodeThr (t.sf - 1) + 60 : Nat) : Int) * 1000 ≤ snrAt t.snrDb10 t.sf (t.sf - 1))
    let bad := decide (snrAt t.snrDb10 t.sf t.sf < ((decodeThr t.sf + 10 : Nat) : Int) * 1000)
    let up := if good then t.lchirpUp + 1 else 0
    let low := if bad then t.lchirpLow + 1 else 0
    let s1 := s.modTow p (fun t => { t with lchirpUp := up, lchirpLow := low })
    if 2000 ≤ up then s1.startTpsf p (t.sf - 1) true
    else if 100 ≤ low ∧ t.sf < 12 then s1.startTpsf p (max (t.sf + 1) (selectSf lo t.snrDb10 t.sf)) true
    else s1

/-! ### The ladder (R72, R84 to R87, R155) -/

/-- UP_DWELL and DN_DWELL in updates (R70). -/
def upDwell (ladder : Word) : Nat := 10 * max 10 (fld ladder 16 12)
def dnDwell (ladder : Word) : Nat := max 1 (fld ladder 0 8)

/-- Whether an upshift into a mode is refused: a hold-off of R86, or L50A at thermal level 1 (R431). -/
def State.upRefused (s : State) (p : Fin 16) (m : LineMode) : Bool :=
  (s.port p).link.upBars.contains m || (m == .l50a && decide (1 ≤ s.cal.level))

/-- A forced Locon mode in effect at a running link (R79, R87). -/
def State.holdsForced (s : State) (p : Fin 16) : Bool :=
  match s.forced p with
  | some m => isLocon m && !(s.port p).link.forceOff
  | none => false

/-- Whether an update asks for a downshift: the dwell's new count and the fast threshold, which R155 holds off for 2 ms. -/
def State.downWanted (s : State) (p : Fin 16) (m : LineMode) (mse : Nat) : Nat × Bool :=
  let x := s.port p
  let lad := s.portReg p 5
  let low := if isPam m then decide ((mse : Int) < dwellThr m + thrAdj lad)
    else m == .ldmt && (x.dmt.lowB || !(bUsable x.dmt.rx.b && bUsable x.dmt.tx.b))
  let n := if low then x.link.ladder.below + 1 else 0
  let heldOff := match x.rx.xtHoldTick with | some t => decide (s.ticks < t + msTicks 2) | none => false
  let fast := isPam m && decide ((mse : Int) < fastThr m + thrAdj lad) && !heldOff
  (n, decide (dnDwell lad ≤ n) || fast)

/-- One 1 ms update of a running Locon link (R84, R86, R87). -/
def State.ladderStep (s : State) (p : Fin 16) (m : LineMode) (mse : Nat) : State :=
  let l := (s.port p).link
  let pol := s.policy p
  let (below, down) := s.downWanted p m mse
  let forced := s.holdsForced p
  if 0 < l.ladder.settle then s.modLink p (fun l => { l with ladder := { l.ladder with settle := l.ladder.settle - 1 } })
  else if down && forced then
    (s.modLink p (fun l => { l with forceFail := true, ladder := { l.ladder with below := 0, above := 0 } })).trigger p m 2
  else if down && downEn pol then
    (s.modLink p (fun l => { l with ladder := { l.ladder with below := 0, above := 0 } })).trigger p (s.downTarget p m) 0
  else
    let next := s.upTarget p m
    let now := l.upNow && next == some .l50a && l.leader
    match (if forced && !now then none else next) with
    | none => s.modLink p (fun l => { l with ladder := { l.ladder with below := below, above := 0 } })
    | some u =>
      let above := if s.meetsEntry p u then l.ladder.above + 1 else 0
      let s1 := s.modLink p (fun l => { l with ladder := { l.ladder with below := below, above := above } })
      if (now || (decide (upDwell (s.portReg p 5) ≤ above) && upEn pol)) && !s.upRefused p u then
        (s1.modLink p (fun l => { l with ladder := { l.ladder with above := 0 } })).trigger p u 1
      else s1

/-- A SHIFT_REQ acted on as the leader's own trigger (R84, R86, R87): the target must stand in the common set, with step 2 of
R76 applied again; an upshift needs UP_EN and no hold-off, a downshift DOWN_EN. -/
def State.reqTrigger (s : State) (p : Fin 16) (m : LineMode) (kind : Nat) : State :=
  let pol := s.policy p
  if (s.common p).contains m && (if kind = 1 then upEn pol && !s.upRefused p m else if kind = 0 then downEn pol else true) then
    s.trigger p m kind
  else s

/-- A SHIFT_REQ that came too late for the shift in progress (R86): a trigger once the 2 ms after the shift are over. -/
def State.runAsked (s : State) (p : Fin 16) : State :=
  let l := (s.port p).link
  match l.asked with
  | some (m, k) =>
    if l.state == .loconUp && decide (l.ladder.settle = 0) then (s.modLink p (fun l => { l with asked := none })).reqTrigger p m k else s
  | none => s

/-- The update of 1 ms (R72, R84, R86, R98, R118): the receiver's figures, then the ladder; in LCHIRP the SF too. A figure
that no symbol gives keeps its last value. -/
def State.update1ms (s0 : State) (p : Fin 16) (q : LineMeasure) : State :=
  let snr := min 600 q.snrDb10
  let (fig, s) := s0.measure p q
  let x := s.port p
  let s1 := if x.tow.profile == .narrowRun || x.tow.profile == .wideRun then s.modTow p (fun t => { t with snrDb10 := snr }) else s
  match x.link.state, x.link.modeAct with
  | .loconUp, some m =>
    if x.quiet.state == .quiet || x.quiet.state == .deep then s1
    else
      let v := if m == .lchirp then snr else fig.getD x.link.ladder.mse
      let s2 := s1.modLink p (fun l => { l with ladder := { l.ladder with mse := v } })
      let s3 := (s2.ladderStep p m v).runAsked p
      if m == .lchirp && (s3.port p).link.state == .loconUp then s3.adaptSf p else s3
  | .stdUp, some _ => s1.modLink p (fun l => { l with ladder := { l.ladder with mse := fig.getD l.ladder.mse } })
  | _, _ => s1

/-! ### Shifts (R85 to R87, R105) -/

/-- A pending quiet entry given up because a shift begins (R310). -/
def State.dropPend (s : State) (p : Fin 16) : State :=
  if (s.port p).quiet.pend.isSome then s.skipWindow p 5 else s

/-- A SHIFT cell at the follower (R85): acknowledged, and the shift runs from there. -/
def State.takeShift (s : State) (p : Fin 16) (h : CellHdr) (c : ShiftCell) : State :=
  let x := s.port p
  let up := x.link.state == .loconUp || x.link.state == .shift
  match modeOf c.target.toNat with
  | some m =>
    s.withCellIf p h 4 (up && !x.link.leader && isLocon m) (fun t =>
      let t1 := (t.dropPend p).modLink p (fun l => { l with dirPartner := c.dir })
      (t1.shiftBegin p m c.kind.toNat c.sf.toNat).shiftProceed p)
  | none => s

/-- A SHIFT_REQ that reaches the leader during its shift (R86): a downshift aborts an upshift, and before step 3 the lower
target wins; any other is handled after the shift. -/
def State.reqInShift (s : State) (p : Fin 16) (sh : ShiftRec) (m : LineMode) (kind : Nat) : State :=
  if !(s.common p).contains m then s
  else if (sh.kind = 1 ∧ kind = 0) ∨ (sh.acked = false ∧ rung sh.target < rung m) then s.leadShift p m kind
  else if sh.acked then s.modLink p (fun l => { l with asked := some (m, kind) })
  else s

/-- A SHIFT_REQ at the leader (R84, R86, R87): a trigger as its own; kind 3 only announces the direction. -/
def State.takeShiftReq (s : State) (p : Fin 16) (h : CellHdr) (c : ShiftCell) : State :=
  let x := s.port p
  let up := x.link.state == .loconUp || x.link.state == .shift
  match modeOf c.target.toNat with
  | some m =>
    s.withCellIf p h 5 (up && x.link.leader && isLocon m) (fun t =>
      let turned := x.link.dirPartner != c.dir && x.link.modeAct == some .l50a
      let t1 := t.modLink p (fun l => { l with dirPartner := c.dir, upNow := l.upNow || turned })
      if c.kind = 3 then t1
      else
        match x.link.shift with
        | none => if turned && c.kind = 0 then t1.trigger p m 0 else t1.reqTrigger p m c.kind.toNat
        | some sh => t1.reqInShift p sh m c.kind.toNat)
  | none => s

/-- The full-duplex retrain has ended with its negated symbols (R85 step 6): the first block follows. In a shift into LDMT a
GO has brought them about (R186). -/
def State.retrainEnd (s : State) (p : Fin 16) : State :=
  let x := s.port p
  match x.link.state, x.link.shift with
  | .shift, some sh =>
    if sh.acked && !sh.retrained && sh.target != .lchirp && (sh.target != .ldmt || (x.tx.negated && x.tablesReady .ldmt)) then
      s.retrained p
    else s
  | _, _ => s

/-- 780 µs after the trigger with step 6 not ended (R85). -/
def State.notConverged (s : State) (p : Fin 16) : State :=
  match (s.port p).link.state, (s.port p).link.shift with
  | .shift, some sh => if sh.retrained then s else s.shiftFailed p
  | _, _ => s

/-- Ten minutes after the hold-off of a mode (R86). -/
def State.barOver (s : State) (p : Fin 16) (m : LineMode) : State :=
  s.modLink p (fun l => { l with upBars := l.upBars.filter (· != m) })

/-! ### Writes while the link runs (R87) -/

/-- A running link shifted to the highest lower allowed mode, or taken down with cause 15. -/
def State.excludeMode (s : State) (p : Fin 16) (m : LineMode) : State :=
  match below (s.common p) m with
  | t :: _ => s.trigger p t 0
  | [] => s.linkDown p 15

/-- A changed MODE_REQ at a running link (R87). -/
def State.reqChanged (s : State) (p : Fin 16) : State :=
  let l := (s.port p).link
  let s1 := s.modLink p (fun l => { l with forceFail := false, forceOff := false })
  match s.reqMode p, l.modeAct with
  | none, _ => s1
  | some m, some a =>
    if s.reqInvalid p then s
    else if m == a then s1
    else if isLocon m && isLocon a then
      if (s.common p).contains m then s1.trigger p m 2 else s.modLink p (fun l => { l with forceFail := true, forceOff := true })
    else s.linkDown p 15
  | _, none => s

/-- A changed policy register at a running link (R87). -/
def State.polChanged (s : State) (p : Fin 16) (old : Word) : State :=
  let l := (s.port p).link
  let new := s.policy p
  match l.modeAct with
  | none => s
  | some a =>
    if !allowedBy new a then (if isLocon a then s.excludeMode p a else s.linkDown p 15)
    else if isLocon a && fwdOut old != fwdOut new then
      if a == .l50a then
        match below (s.common p) a with
        | t :: _ => (s.modLink p (fun l => { l with upNow := true })).trigger p t 0
        | [] => s
      else if l.leader then s
      else s.queueCell p 5 (shiftPayload (modeCode a) 3 (ownDir new) 0)
    else s

/-- What writes to LN_MODE and LN_POLICY do to a port that stays enabled, from the values before them (R87). -/
def State.writesAct (s : State) (p : Fin 16) (oldPol oldMode : Word) : State :=
  let l := (s.port p).link
  let reqNew := fld oldMode 0 4 ≠ fld (s.lnMode p) 0 4
  if oldPol = s.policy p ∧ !reqNew then s
  else if l.state.training then s.restartPort p
  else
    match l.state with
    | .shift => s.modLink p (fun l => { l with wrOld := some (l.wrOld.getD (oldPol, oldMode)) })
    | .loconUp | .stdUp =>
      let s1 := if reqNew then s.reqChanged p else s
      match (s1.port p).link.state with
      | .loconUp | .stdUp => s1.polChanged p oldPol
      | _ => s1
    | _ => s

/-- Writes that waited for a shift to end (R87, R101). -/
def State.afterShift (s : State) (p : Fin 16) : State :=
  match (s.port p).link.state, (s.port p).link.wrOld with
  | .loconUp, some (pol, mode) => ((s.modLink p (fun l => { l with wrOld := none })).writesAct p pol mode).sfSync p
  | .loconUp, none => s.sfSync p
  | _, _ => s

/-! ### Cells in general (R96, R104, R107 to R110) -/

/-- Whether a port hears towpath cells. -/
def Port.hears (x : Port) : Bool := x.tow.profile == .narrowRun || x.tow.profile == .wideRun

/-- What acts at a wide-towpath symbol boundary (R149, R170): UL_SUB_EN, and the echo response of the latest sounding. -/
def State.wideBoundary (s : State) (p : Fin 16) : State :=
  let x := s.port p
  if x.tow.profile == .wideRun then
    s.modRx p (fun r => { r with
      ulSub := bit (s.portReg p 0x30) 3, ownEcho := match x.tow.snd with | some sn => sn.echo | none => r.ownEcho })
  else s

/-- The next cell slot of a continuous run; in SOUND the run begins first where it is due (R115). -/
def State.towSlot (s : State) (p : Fin 16) : State :=
  if (s.port p).hears then ((s.wideBoundary p).runDue p).cellSlot p else s

/-- FORCE_FAIL at a follower (R70, R79): its own forced Locon MODE_REQ against the mode announced; one outside the set does
not act. -/
def State.forcedBy (s : State) (p : Fin 16) (m : LineMode) : State :=
  match s.forced p with
  | some f =>
    if isLocon f then
      s.modLink p (fun l => { l with forceFail := f != m, forceOff := !(s.choosable p).contains f })
    else s
  | none => s

/-- A MODE cell at the follower (R79, R83). -/
def State.takeMode (s : State) (p : Fin 16) (h : CellHdr) (c : ModeCell) : State :=
  let x := s.port p
  match modeOf c.code.toNat with
  | some m =>
    s.withCellIf p h 2 (x.link.state == .sound && !x.link.leader && isLocon m) (fun t => (t.forcedBy p m).enterTraining p m c)
  | none => s

/-- What the payload of a MODE cell says. -/
def modeOfPayload (b : List Byte) : ModeCell :=
  { code := BitVec.ofNat 4 (beAt b 0 1), precode := (b.getD 1 0).getLsbD 0, leaderSpread := (b.getD 1 0).getLsbD 1
    followerMay := (b.getD 1 0).getLsbD 2, wideSf := b.getD 2 0, lchirpSf := b.getD 3 0 }

/-- A cell that has been acknowledged leaves the waiting list, and its slot copies that have not begun are withdrawn
(R107). -/
def Towpath.acked (t : Towpath) (ctr : Word) : Towpath :=
  { t with await := t.await.filter (fun e => e.counter != ctr), slotQueue := t.slotQueue.filter (fun e => e.1 != ctr) }

/-- The CACK of an EXIT (R308): the new exit holds if it still lies ahead; else the leader sends another. -/
def State.exitAcked (s : State) (p : Fin 16) (xq : Word) (xchip : BitVec 16) : State :=
  let x := s.port p
  if x.quiet.state != .quiet then s
  else if ahead xq x.tow.symCount then s.modQuiet p (fun q => { q with exit := some (xq, xchip) })
  else s.earlyExit p

/-- What the acknowledgement of a cell brings about, by its type (R79, R85, R101, R106, R109, R303, R390). -/
def State.ackedCell (s : State) (p : Fin 16) (e : AwaitCell) : State :=
  let x := s.port p
  match e.cell.type.toNat with
  | 2 =>
    match x.link.state, x.link.train with
    | .sound, some m => s.enterTraining p m (modeOfPayload e.cell.payload)
    | _, _ => s
  | 3 => s.modTow p (fun t => { t with goCount := t.goCount.map (fun g => (g.1, true)) })
  | 4 =>
    match x.link.shift with
    | some sh => if sh.acked || x.tow.await.any (fun a => a.cell.type == 4) || x.tow.ready.any (fun c => c.type == 4) then s else s.shiftProceed p
    | none => s
  | 7 =>
    if (e.cell.payload.getD 1 0).getLsbD 0 then s.answerWait (isRemote p (BitVec.ofNat 16 (beAt e.cell.payload 2 2)) true) stOk []
    else s
  | 9 => if fld (wd (beAt e.cell.payload 0 1)) 4 4 = 0 then s.modQuiet p (fun q => { q with pend := q.pend.map (fun c => (c.1, true)) })
         else s.exitAcked p (BitVec.ofNat 32 (beAt e.cell.payload 5 4)) (BitVec.ofNat 16 (beAt e.cell.payload 9 2))
  | 10 => s.modTow p (fun t => { t with tpsf := t.tpsf.map (fun (r : TpsfRec) => { r with acked := true }) })
  | 11 => s.modTow p (fun t => match t.newNonce with
      | some n => { t with oldNonce := some t.nonce, nonce := n, newNonce := none, txCtr := 0 }
      | none => t)
  | _ => s

/-- A CACK (R104, R107): it is not acknowledged itself. -/
def State.takeCack (s : State) (p : Fin 16) (h : CellHdr) (ctr : Word) (type : Byte) : State :=
  if !(s.port p).hears then s
  else
    let (k, _, s1) := s.takeCell p h
    match k with
    | .acts =>
      match (s1.port p).tow.await.find? (fun e => e.counter == ctr && e.cell.type == type) with
      | some e => (s1.modTow p (fun t => t.acked ctr)).ackedCell p e
      | none => s1
    | _ => s1

/-- No CACK within 4 cell durations of the last send (R107): a resend, or after eight sends CELL_TIMEOUT; a REMOTE request
is answered REM_TIMEOUT. -/
def State.resendLate (s : State) (p : Fin 16) (ctr : Word) : State :=
  match (s.port p).tow.await.find? (fun e => e.counter == ctr) with
  | none => s
  | some e =>
    if e.due then s
    else if e.cell.type = 9 ∧ beAt e.cell.payload 0 1 / 16 = 1 ∧ ahead (BitVec.ofNat 32 (beAt e.cell.payload 5 4)) (s.port p).tow.symCount = false then
      (s.modTow p (fun t => t.acked ctr)).earlyExit p
    else if e.sends < 8 then
      s.modTow p (fun t => { t with await := t.await.map (fun (a : AwaitCell) => if a.counter = ctr then { a with due := true } else a) })
    else
      let s1 := (s.modTow p (fun t => t.acked ctr)).raise 0x0014 (portBlock p.val) p.val (wd e.cell.type.toNat) ctr
      if e.cell.type = 7 then
        s1.answerWait (isRemote p (BitVec.ofNat 16 (beAt e.cell.payload 2 2)) ((e.cell.payload.getD 1 0).getLsbD 0)) 0x0301 []
      else s1

/-- A cell whose MAC fails after DISCOVER (R110): counted and reported; eight within 1 s take the link down, cause 5. -/
def State.macFailed (s : State) (p : Fin 16) (type : Byte) : State :=
  if !(s.port p).hears then s
  else
    let l := (s.port p).tow.macFails.filter (fun t => decide (s.ticks < t + secTicks 1)) ++ [s.ticks]
    let s1 := ((s.modTow p (fun t => { t with macFails := l })).count (portBlock p.val) 11 1).raise 0x0013 (portBlock p.val) p.val (wd type.toNat)
    if 8 ≤ l.length then s1.linkDown p 5 else s1

/-- The counter has reached 0xFFFF_0000 (R109): a fresh nonce is sent under the old one. -/
def State.nonceStart (s : State) (p : Fin 16) : State :=
  let t := (s.port p).tow
  if t.keyInUse.isSome && decide (0xFFFF0000 ≤ t.txCtr.toNat) && t.newNonce.isNone && (s.port p).hears then
    let (d, s1) := s.draw
    (s1.modTow p (fun t => { t with newNonce := some (Config.freeNonce d) })).queueCell p 11 (noncePayload (Config.freeNonce d))
  else s

/-- A NONCE cell (R109): the partner keeps the old receive state beside a new, empty one. -/
def State.takeNonce (s : State) (p : Fin 16) (h : CellHdr) (fresh : BitVec 48) : State :=
  s.withCellIf p h 11 (s.port p).hears (fun t =>
    t.modTow p (fun w => { w with rxOld := some w.rx, rx := { nonce := fresh }, peerHeld := some w.rx.nonce }))

/-- 1 ms after the first cell under the new state (R109). -/
def State.nonceDrop (s : State) (p : Fin 16) : State := s.modTow p (fun t => { t with rxOld := none, oldNonce := none })

/-- A pilot pair (R96, R97, R120, R161): the last four pilots, each within ±0.25 bin of the prediction or not, decide LOCK; the
offsets follow from the two peaks, and the pilot loop moves the sampling phase at the bandwidth of PILOT_BW. -/
def State.takePilot (s : State) (p : Fin 16) (u v predicted : Int) : State :=
  let x := s.port p
  if x.hears then
    let good := decide ((v - predicted).natAbs ≤ 64)
    let s1 := (s.wideBoundary p).modTow p (fun t => { t with
      pilots := (good :: t.pilots).take 4, foff := foffOf (t.profile == .wideRun) t.sf u v, toff := toffOf u v })
    s1.modRx p (fun r => { r with phase := r.phase + Config.pilotStep (min 4 (fld (s.portReg p 0x33) 24 4)) (pilotTau u v) })
  else s

end Sys2Proof.Machine
end

