-- ==== Sys2Proof/Machine/QuietOps.lean ====
section
/-! DEFINITION. Quiet, deep quiet and standard low-power idle (R299 to R312): the effects of their events. -/

namespace Sys2Proof.Machine

/-- Modes with quiet windows (R302). -/
def quietMode (m : LineMode) : Bool := isPam m || m == .ldmt

/-- A Locon PAM or LDMT link that is up (R302 cause 1). -/
def Port.quietLink (x : Port) : Bool :=
  x.link.state == .loconUp && (match x.link.modeAct with | some m => quietMode m | none => false)

/-- Q_min in ps (R302): 28 narrow symbols at QSF and 10 µs. -/
def qMinPs (tp : Word) : Nat := 28 * symbolPs false (qsfAct tp) + 10000000

/-- Picoseconds of a span of vehicle time. -/
def spanPs (t : Nat) : Nat := t * 1000 / subNs

/-- The first cause of R302 for which a window of a length is skipped, in the order of LAST_SKIP. -/
def State.skipCause (s : State) (p : Fin 16) (lenPs : Nat) : Option Nat :=
  let x := s.port p
  if x.link.state == .shift then some 5
  else if !x.quietLink then some 1
  else if !x.link.leader then some 2
  else if bit (s.portReg p 0x60) 0 = false then some 6
  else if lenPs < qMinPs (s.portReg p 0x20) then some 3
  else none

/-- Length of a calendar window in ps, open-ended ones reading as none. -/
def CalEntry.lenPs (e : CalEntry) : Option Nat := e.stop.map (fun t => spanPs (t - e.start))

/-- Whether a window of a length is taken as deep quiet (R302, R311). -/
def State.deepLen (s : State) (p : Fin 16) (lenPs : Nat) : Bool :=
  bit (s.portReg p 0x60) 8 && decide (max 1 (fld (s.portReg p 0x60) 16 8) * 10 ^ 9 ≤ lenPs)

/-- The first calendar window of quiet on a port, by start instant and number. -/
def State.quietEntry (s : State) (p : Fin 16) : Option (Nat × CalEntry) :=
  (s.time.cal.filter (fun e => e.2.kind == .quiet && e.2.target == p.val &&
    (match e.2.stop with | some t => decide (s.time.now < t) | none => true))).foldl
    (fun (b : Option (Nat × CalEntry)) e => match b with
      | some y => if e.2.start < y.2.start then some e else b
      | none => some e) none

/-- The leader sends ENTER (R303, R304): only for a window that R302 lets act, and once. -/
def State.sendEnter (s : State) (p : Fin 16) (c : QuietCell) : State :=
  let x := s.port p
  if x.quiet.state != .active || x.quiet.pend.isSome then s
  else
    match s.quietEntry p with
    | none => s
    | some (n, e) =>
      let len := e.lenPs.getD 0
      match s.skipCause p len with
      | some _ => s
      | none =>
        let c1 := { c with deep := s.deepLen p len, qsf := BitVec.ofNat 8 (qsfAct (s.portReg p 0x20)) }
        (s.modQuiet p (fun q => { q with pend := some (c1, false), window := some n })).queueCell p 9 (quietPayload 0 c1)

/-- Whether the follower acknowledges an ENTER (R304). -/
def State.enterOk (s : State) (p : Fin 16) (c : QuietCell) : Bool :=
  let x := s.port p
  x.quietLink && !x.link.leader && x.quiet.state == .active && ahead c.entry x.tow.symCount

/-- An ENTER cell at the follower (R304). -/
def State.takeEnter (s : State) (p : Fin 16) (h : CellHdr) (c : QuietCell) : State :=
  s.withCellIf p h 9 (s.enterOk p c) (fun t => t.modQuiet p (fun q => { q with pend := some (c, true) }))

/-- An EXIT cell at the follower (R308). -/
def State.takeExit (s : State) (p : Fin 16) (h : CellHdr) (c : QuietCell) : State :=
  let x := s.port p
  s.withCellIf p h 9 (x.quiet.state == .quiet && !x.link.leader && ahead c.xq x.tow.symCount)
    (fun t => t.modQuiet p (fun q => { q with exit := some (c.xq, c.xchip) }))

/-- An ABORT cell at the follower (R304, R310). -/
def State.takeAbort (s : State) (p : Fin 16) (h : CellHdr) : State :=
  s.withCell p h 9 (fun t => t.modQuiet p (fun q => { q with pend := none }))

/-- FILL blocks that complete an interleave group in LDMT (R304 step 1). -/
def State.fillGroup (p : Fin 16) : Nat → State → State
  | 0, s => s
  | n + 1, s =>
    State.fillGroup p n (s.emitBlock p .ldmt 2 (s.port p).snd.s 0xFFFF (List.replicate (payLen .ldmt) 0) false)

/-- How many blocks the group in progress still takes. -/
def Port.groupRest (x : Port) : Nat :=
  if x.link.modeAct == some .ldmt && !x.dmt.group.isEmpty then x.dmt.groupI - x.dmt.group.length else 0

/-- Quiet or deep quiet begins at an end (R134, R304, R309): the main signal alone ramps down, in deep quiet the towpath with
it; in quiet the narrow run starts at QSF with its start marker. -/
def State.goQuiet (s0 : State) (p : Fin 16) (c : QuietCell) : State :=
  let s := State.fillGroup p (s0.port p).groupRest s0
  let st : QuietState := if c.deep then .deep else .quiet
  let s1 := s.modQuiet p (fun q => { q with
    state := st, pend := none, entered := satAdd 0xFFFF q.entered 1, listening := false
    exit := if c.deep then none else some (c.xq, c.xchip), wideAt := (s.ticks, c.entry) })
  let s2 := (s1.txStop p).modTow p (fun t =>
    if c.deep then { t with profile := .off, sf := 0, pilots := [] }
    else
      let sf := clampN 7 12 c.qsf.toNat
      { t with profile := .narrowRun, sf := sf, symCount := 0, pilots := [], chirps := startMarker .run sf })
  s2.xtSync (reachOf p)

/-- Symbol E (R304): an acknowledged entry acts at both ends; the leader aborts one without its CACK. -/
def State.entryPoint (s : State) (p : Fin 16) : State :=
  match (s.port p).quiet.pend with
  | none => s
  | some (c, true) => s.goQuiet p c
  | some (c, false) =>
    if (s.port p).link.leader then
      (((s.modTow p (fun t => { t with await := t.await.filter (fun e => e.cell.type != 9),
                                       ready := t.ready.filter (fun e => e.type != 9) })).queueCell p 9 (quietPayload 2 c))).skipWindow p 4
    else s.modQuiet p (fun q => { q with pend := none })

/-- The wide symbol count that a run which never stopped would have (R305). -/
def Port.wideNow (x : Port) (ticks : Nat) : Word :=
  x.quiet.wideAt.2 + BitVec.ofNat 32 ((ticks - x.quiet.wideAt.1) * 6400 / symbolPs true (max 11 x.tow.wideSf))

/-- Ticks from the exit chip to the up-ramp of the main signal (R305): 1.3 µs. -/
def wakeTicks : Nat := 204

/-- The level indices of the wake preamble of a PAM mode, negation apart (R306): 256 training symbols, precoded where the mode
precodes from a memory of 0. -/
def preamble (m : LineMode) (leader pre : Bool) : List Nat :=
  let a := (groupBits (symbolBits m) 256 (prbsBits (symbolBits m * 256) (trainSeed leader))).map (levelIndex m)
  if pre then (precodeSeq (pamOrder m) 0 a).1 else a

/-- What the preamble leaves in the transmit path (R306): the precoder memory, and the last levels, negated. -/
def TxPath.woken (t : TxPath) (m : LineMode) (leader : Bool) : TxPath :=
  if isPam m then
    let c := preamble m leader t.precode
    { t with memory := if t.precode then c.getLastD 0 else t.memory, past := (c.drop 251).map (fun v => levelOf m (pamOrder m - 1 - v)) }
  else t

/-- The exit chip (R305, R306): the wide underlay goes on as if it had never stopped; 1.3 µs later the main signal ramps up,
the preamble follows, in LDMT one flag A symbol, and then the first block. -/
def State.exitPoint (s : State) (p : Fin 16) : State :=
  let x := s.port p
  if x.quiet.state != .quiet then s
  else
    let s1 := (s.modTow p (fun t => { t with profile := .wideRun, sf := max 11 x.tow.wideSf, symCount := x.wideNow s.ticks, pilots := [] })).modQuiet p
      (fun q => { q with state := .active, exit := none, window := none })
    let m := x.link.modeAct.getD .l25s
    let up := s1.rampAt p true false (s.ticks + wakeTicks)
    let pre := stepTicks (if m == .ldmt then 4506 else 256) (s1.txRate p)
    let s2 := (s1.modTx p (fun t => { t.woken m x.link.leader with nextRamp := some up })).modDmt p
      (fun d => { d with dTick := d.dTick + (s.ticks - x.quiet.wideAt.1), symbols := if m == .ldmt then [flagA x.link.leader] else d.symbols })
    (s2.modLink p (fun l => { l with blocksTick := up.start + up.len + pre })).xtSync (reachOf p)

/-- The follower's early start in deep quiet (R309). -/
def State.earlyWake (s : State) (p : Fin 16) : State :=
  let x := s.port p
  if x.quiet.state == .deep && !x.link.leader then s.modQuiet p (fun q => { q with state := .entering, listening := true }) else s

/-- D (R309): the wake runs with a wide start marker, after which the wide count restarts at 0. -/
def State.deepEnd (s : State) (p : Fin 16) : State :=
  let x := s.port p
  if x.quiet.state == .deep || x.quiet.state == .entering then
    let s1 := (s.modTow p (fun t => { t.wide (max 11 x.tow.wideSf) with pilots := [] })).modQuiet p
      (fun q => { q with state := .entering, listening := true, window := none })
    s1.txStart p
  else s

/-- Ticks from the marker that ends the wake at an end to its first block (R309 steps 3 to 5): at the follower its own marker
ends 2 µs after the leader's; 96 µs of re-acquisition; the negated symbols, in LDMT one flag B symbol. -/
def State.wakeRest (s : State) (p : Fin 16) : Nat :=
  let x := s.port p
  (if x.link.leader then 0 else 313) + 15000 + stepTicks (if x.link.modeAct == some .ldmt then 4506 else 256) (s.txRate p)

/-- The re-acquisition of a wake (R309): the training sequence from its seed, the precoder memory 0 at the first block. -/
def State.wakeTrain (s : State) (p : Fin 16) : State :=
  let x := s.port p
  ((s.trainStart p true).modTx p (fun t => { t with memory := 0, past := [] })).modPort p (fun y => { y with
    link := { y.link with blocksTick := s.ticks + s.wakeRest p }
    dmt := { y.dmt with symbols := if x.link.modeAct == some .ldmt then [flagB x.link.leader] else y.dmt.symbols } })

/-- No marker by the follower's D + 1 ms (R309). -/
def State.markerLate (s : State) (p : Fin 16) : State :=
  let x := s.port p
  if x.quiet.state == .entering && x.quiet.listening && !x.link.leader then s.linkDown p 8 else s

/-- A start marker (R85, R309): it ends a shift into LCHIRP at this end, or the wake from deep quiet. -/
def State.markerHeard (s : State) (p : Fin 16) : State :=
  let x := s.port p
  match x.link.state, x.link.shift with
  | .shift, some sh =>
    if sh.acked && sh.target == .lchirp && !x.link.blocksOn then s.beginBlocks p .lchirp s.ticks else s
  | .loconUp, _ =>
    if x.quiet.state == .entering && x.quiet.listening then
      (((s.wakeTrain p).modQuiet p (fun q => { q with state := .active, listening := false })).modDmt p
        (fun d => { d with dTick := d.dTick + (s.ticks - x.quiet.wideAt.1) })).xtSync (reachOf p)
    else s
  | _, _ => s

/-- The shift trigger that waited for the first block after quiet (R310). -/
def State.runDeferred (s : State) (p : Fin 16) : State :=
  match (s.port p).link.deferred, (s.port p).quiet.state with
  | some (m, k), .active => (s.modLink p (fun l => { l with deferred := none })).trigger p m k
  | _, _ => s

/-! ### Standard low-power idle (R299, R300) -/

/-- Outbound frames that wait on a port. -/
def State.outWaiting (s : State) (p : Fin 16) : Bool :=
  s.basin.tickets.any (fun t => t.outbound && t.queue / 256 == p.val && t.state == .queued)

/-- The idle time of LN_LPI_CTRL has passed with no outbound frame waiting (R300). -/
def State.lpiEnter (s : State) (p : Fin 16) : State :=
  let x := s.port p
  if x.link.state == .stdUp && x.quiet.eee && !s.outWaiting p then s.modQuiet p (fun q => { q with lpiTx := true }) else s

/-- A frame that arrives for the line takes its port out of transmit LPI (R300). -/
def State.lpiLeave (s : State) (p : Fin 16) : State := s.modQuiet p (fun q => { q with lpiTx := false })

/-- The partner enters LPI (0), signals a refresh (1) or leaves (2): LPI_RX follows (R300, R311). -/
def State.partnerLpi (s : State) (p : Fin 16) (kind : Fin 3) : State :=
  let x := s.port p
  if x.link.state == .stdUp && x.quiet.eee then s.modQuiet p (fun q => { q with lpiRx := decide (kind.val ≠ 2) }) else s

/-! ### Writes of the quiet registers (R308, R312) -/

/-- QUIET_EN cleared (R312): windows not yet entered are skipped, a port in quiet exits early. -/
def State.quietOff (s : State) (p : Fin 16) : State :=
  let x := s.port p
  match x.quiet.pend with
  | some (c, _) => if x.link.leader then (s.queueCell p 9 (quietPayload 2 c)).skipWindow p 6 else s
  | none => s.earlyExit p

/-- Effect of a write of LN_QUIET_CTRL, from its value before. -/
def State.quietWritten (s : State) (p : Fin 16) (old : Word) : State :=
  if bit old 0 && !bit (s.portReg p 0x60) 0 then s.quietOff p else s

end Sys2Proof.Machine
end

