-- ==== Sys2Proof/Machine/LineOps.lean ====
section
/-! DEFINITION. What arrives from the line: REMOTE operations (R222, R390), cells from the control slot (R103, R107, R221),
blocks (R193, R203 to R219), LCHIRP block segments (R119), and the block timers (R209, R210). -/

namespace Sys2Proof.Machine

/-! ### REMOTE (R222, R390) -/

/-- Byte 0 of ARG. -/
def argByte0 (arg : BitVec 128) : Nat := arg.toNat / 2 ^ 120

/-- An answer to a REMOTE request (R222). -/
def State.remAnswer (s : State) (p : Fin 16) (c : RemoteCell) (status : Nat) (arg : BitVec 128) : State :=
  s.queueCell p 7 (remotePayload c.op true c.reqId c.tag (BitVec.ofNat 8 status) arg)

/-- Queue number of a line tag at a port. -/
def tagQueue (p : Fin 16) (tag : Byte) : Nat := p.val * 256 + tag.toNat

/-- Whether a tag names an open outbound queue, whose frames STREAM_STOP and STREAM_START govern. -/
def State.tagOpen (s : State) (p : Fin 16) (tag : Byte) : Bool :=
  match s.queue? (tagQueue p tag) with | some q => q.outbound | none => false

/-- Class-none frames of a queue that no block has taken yet. -/
def State.unpacked (s : State) (q : Nat) : List Nat :=
  match s.queue? q with
  | some x => if x.cls == .none then ((s.ticketsOf q).filter (fun t => t.state == .queued)).map (·.id) else []
  | none => []

/-- STREAM_STOP (R222). -/
def State.remStop (s : State) (p : Fin 16) (c : RemoteCell) : State :=
  if s.tagOpen p c.tag then
    let s1 := s.modPort p (fun x => { x with stopped := if x.stopped.contains c.tag then x.stopped else x.stopped ++ [c.tag] })
    let ids := if argByte0 c.arg % 2 = 1 then s1.unpacked (tagQueue p c.tag) else []
    ((s1.freeAll ids true).count 3 2 ids.length).remAnswer p c 0 0
  else s.remAnswer p c 2 0

/-- STREAM_START (R222). -/
def State.remStart (s : State) (p : Fin 16) (c : RemoteCell) : State :=
  if s.tagOpen p c.tag then (s.modPort p (fun x => { x with stopped := x.stopped.filter (· != c.tag) })).remAnswer p c 0 0
  else s.remAnswer p c 2 0

/-- The four ARG words of a REMOTE cell, its first byte in bits [31:24] of the first (notes/assumptions/6.md). -/
def argWords (arg : BitVec 128) : List Word :=
  (List.range 4).map (fun k => wd (arg.toNat / 2 ^ (96 - 32 * k)))

/-- The ARG that four words spell. -/
def argOf (ws : List Word) : BitVec 128 :=
  BitVec.ofNat 128 ((List.range 4).foldl (fun n k => n * 2 ^ 32 + (ws.getD k 0).toNat) 0)

/-- An application OP (R222, R390): REMOTE_IN is raised and the host must answer; the fourth ARG word is E0 of a second
record. -/
def State.remApp (s : State) (p : Fin 16) (c : RemoteCell) : State :=
  let w := argWords c.arg
  let s1 := s.modPort p (fun x => { x with remIn := x.remIn.filter (fun e => e.1 != c.reqId) ++ [(c.reqId, c.op, c.tag)] })
  (s1.raise 0x001A (portBlock p.val) p.val (wd (c.op.toNat + 256 * c.reqId.toNat + 2 ^ 24 * c.tag.toNat)) (w.getD 0 0)
    (w.getD 1 0) (w.getD 2 0)).raise 0x001A (portBlock p.val) p.val (w.getD 3 0)

/-- Whether an OP is one of the application range (R222). -/
def isAppOp (op : Byte) : Bool := decide (0x10 ≤ op.toNat ∧ op.toNat ≤ 0x7F)

/-- A request by its OP (R222). -/
def State.remRequest (s : State) (p : Fin 16) (c : RemoteCell) : State :=
  if c.op = 1 then s.remStop p c
  else if c.op = 2 then s.remStart p c
  else if c.op = 3 then s.remAnswer p c 0 c.arg
  else if isAppOp c.op then s.remApp p c
  else s.remAnswer p c 1 0

/-- The status of REMOTE_CMD for a far STATUS (R390). -/
def remStatus (st : Byte) : Nat := if 1 ≤ st.toNat ∧ st.toNat ≤ 3 then 0x0302 + st.toNat else stOk

/-- An answer cell at the requesting end (R390). -/
def State.remDone (s : State) (p : Fin 16) (c : RemoteCell) : State :=
  s.answerWait (isRemote p c.reqId false) (remStatus c.status) (wd c.status.toNat :: argWords c.arg)

/-- A REMOTE cell accepted by R107 and acted on. -/
def State.takeRemote (s : State) (p : Fin 16) (h : CellHdr) (act : State → State) : State :=
  if (s.port p).hears then s.withCell p h 7 act else s

/-- No answer within 100 ms of the CACK (R385). -/
def State.remLate (s : State) (p : Fin 16) (req : BitVec 16) : State := s.answerWait (isRemote p req false) 0x0301 []

/-- The host has not answered within 90 ms (R390). -/
def State.remHostLate (s : State) (p : Fin 16) (req : BitVec 16) : State :=
  match (s.port p).remIn.find? (fun e => e.1 == req) with
  | some (_, op, tag) =>
    (s.modPort p (fun x => { x with remIn := x.remIn.filter (fun e => e.1 != req) })).queueCell p 7
      (remotePayload op true req tag 3 0)
  | none => s

/-! ### Cells from the control slot (R221) -/

/-- The state under which a cell's MAC verifies (R109): the new receive state first, then the old one; this end's present
nonce first, then the one it left. None: no state verifies it. -/
def State.macUnder (s : State) (p : Fin 16) (b : List Byte) : Option Bool :=
  let t := (s.port p).tow
  match s.linkKey p with
  | none => some false
  | some k =>
    let mac : Word := wd (beAt b 26 4)
    let head := b.take 26
    let good := fun (r : RxCtr) (own : BitVec 48) =>
      let v := r.h + BitVec.ofInt 32 (ctrDelta r.h (b.getD 1 0))
      macOf (some k) r.nonce own v head == mac
    let both := fun (r : RxCtr) => good r t.nonce || (match t.oldNonce with | some n => good r n | none => false)
    if both t.rx then some false
    else match t.rxOld with | some old => if both old then some true else none | none => none

/-- A REMOTE payload read back (R222). -/
def remoteOf (b : List Byte) : RemoteCell :=
  { op := b.getD 0 0, reqId := BitVec.ofNat 16 (beAt b 2 2), tag := b.getD 4 0, status := b.getD 5 0, arg := BitVec.ofNat 128 (beAt b 8 16) }

/-- A SHIFT or SHIFT_REQ payload read back (R105). -/
def shiftOf (b : List Byte) : ShiftCell :=
  { target := BitVec.ofNat 4 (beAt b 0 1), kind := BitVec.ofNat 2 (beAt b 1 1), dir := BitVec.ofNat 2 (beAt b 2 1), sf := b.getD 3 0 }

/-- A QUIET payload read back (R303). -/
def quietOf (b : List Byte) : QuietCell :=
  { deep := (b.getD 0 0).getLsbD 0, entry := wd (beAt b 1 4), xq := wd (beAt b 5 4), xchip := BitVec.ofNat 16 (beAt b 9 2)
    dur := wd (beAt b 11 4), qsf := b.getD 15 0 }

/-- A QUIET cell by its KIND (R303). -/
def State.takeQuiet (s : State) (p : Fin 16) (h : CellHdr) (b : List Byte) : State :=
  match beAt b 0 1 / 16 with
  | 0 => s.takeEnter p h (quietOf b)
  | 1 => s.takeExit p h (quietOf b)
  | 2 => s.takeAbort p h
  | _ => s

/-- What a verified slot cell does, by its type (R104, R221). -/
def State.slotAct (s : State) (p : Fin 16) (h : CellHdr) (type : Byte) (pay : List Byte) : State :=
  match type.toNat with
  | 4 => s.takeShift p h (shiftOf pay)
  | 5 => s.takeShiftReq p h (shiftOf pay)
  | 6 => s.takeCack p h (wd (beAt pay 0 4)) (pay.getD 4 0)
  | 7 =>
    let c := remoteOf pay
    s.takeRemote p h (fun t => if (pay.getD 1 0).getLsbD 0 then t.remDone p c else t.remRequest p c)
  | 9 => s.takeQuiet p h pay
  | 10 => s.takeTpsf p h ⟨pay.getD 0 0, (pay.getD 1 0).getLsbD 0, wd (beAt pay 2 4)⟩
  | 11 => s.takeNonce p h (BitVec.ofNat 48 (beAt pay 0 6))
  | _ => s

/-- A TYPE that R104 lists. -/
def cellKnown (type : Byte) : Bool := decide (type.toNat ≤ 0x0B ∨ type.toNat = 0x10)

/-- A cell that fails its CRC is discarded and counted (R103). -/
def State.crcFailed (s : State) (p : Fin 16) : State := s.count (portBlock p.val) 10 1

/-- A cell that the slot has completed (R103, R104, R109, R110, R221). -/
def State.slotCell (s : State) (p : Fin 16) (cell : Option (List Byte)) : State :=
  match cell with
  | none => s
  | some b =>
    if !cellCrcOk b then s.crcFailed p
    else if !cellKnown (b.getD 0 0) then s.count (portBlock p.val) 15 1
    else
      match s.macUnder p b with
      | none => s.macFailed p (b.getD 0 0)
      | some old => s.slotAct p ⟨b.getD 1 0, true, old⟩ (b.getD 0 0) ((b.drop 2).take 24)

/-! ### Blocks -/

/-- Whether a received block has the length of the running mode. -/
def State.blockFits (s : State) (p : Fin 16) (b : Blk) : Bool := (s.port p).blocksRun && b.payload.length == (s.port p).blkPay

/-- A failed block (R203). -/
def State.onFailed (s : State) (p : Fin 16) : State := if (s.port p).blocksRun then s.failBlock p else s

/-- A DATA block (R193, R207, R217); one of another length than the mode's is a failed block (R219). -/
def State.onData (s : State) (p : Fin 16) (b : Blk) : State :=
  if !s.blockFits p b then s.onFailed p
  else
    let (s1, cell) := s.blockHead p b
    let s2 := if (s.port p).snd.synced then s1.takeData p b else s1
    (s2.slotCell p cell).runDeferred p

/-- A FILL block (R193, R209). -/
def State.onFill (s : State) (p : Fin 16) (b : Blk) : State :=
  if !s.blockFits p b then s
  else
    let (s1, cell) := s.blockHead p b
    let s2 := if (s.port p).snd.synced then (s1.takeFill p b).rcvSync p else s1
    (s2.slotCell p cell).runDeferred p

/-- A SYNC block (R217, R218); the writes that waited for a shift act after it (R87). -/
def State.onSync (s : State) (p : Fin 16) (b : Blk) : State :=
  if !s.blockFits p b then s
  else
    let (s1, cell) := s.takeSync p b
    (s1.slotCell p cell).afterShift p

/-- A block of another TYPE (R193): counted as a protocol error, its header and slot used. -/
def State.onOther (s : State) (p : Fin 16) (b : Blk) : State :=
  if !s.blockFits p b then s
  else
    let (s1, cell) := s.blockHead p b
    (s1.slotCell p cell).protoErr p

/-- The fields of a block's bytes (R192). -/
def blkOf (bs : List Byte) (payLen_ : Nat) : Blk :=
  let b1 := bs.getD 1 0
  { gate := BitVec.ofNat 4 (beAt bs 0 1), slotKind := BitVec.ofNat 2 (beAt bs 1 1 / 64), seg := BitVec.ofNat 3 (beAt bs 1 1 / 8)
    resent := b1.getLsbD 2, seq := BitVec.ofNat 24 (beAt bs 2 3), ack := BitVec.ofNat 24 (beAt bs 5 3), slot := wd (beAt bs 8 4)
    ffp := BitVec.ofNat 16 (beAt bs 12 2), payload := (bs.drop 14).take payLen_ }

/-- A whole LCHIRP block: its CRC-32, then its TYPE. -/
def State.lchirpBlock (s : State) (p : Fin 16) (bs : List Byte) : State :=
  if bs.drop 456 ≠ crcBytes (crc32 (bs.take 456)) then s.onFailed p
  else
    let b := blkOf bs 442
    match beAt bs 0 1 / 16 with
    | 1 => s.onData p b
    | 2 => s.onFill p b
    | 3 => s.onSync p b
    | _ => s.onOther p b

/-- A BLOCK cell (R119): segment 0 abandons an incomplete block; segment 19 completes it. -/
def State.takeSegment (s : State) (p : Fin 16) (seg : Nat) (bytes : List Byte) : State :=
  let x := s.port p
  if !x.inLchirp then s
  else if seg = 0 then s.modTow p (fun t => { t with blkAsm := some (bytes.take 24, 1) })
  else
    match x.tow.blkAsm with
    | some (acc, k) =>
      if k ≠ seg then s
      else if seg = 19 then (s.modTow p (fun t => { t with blkAsm := none })).lchirpBlock p (acc ++ bytes.take 4)
      else s.modTow p (fun t => { t with blkAsm := some (acc ++ bytes.take 24, seg + 1) })
    | none => s

/-! ### Block timers and sending -/

/-- NACK_INT has passed (R209): every run that was sent is due again. -/
def State.nackDue (s : State) (p : Fin 16) : State :=
  if (s.port p).blocksRun then s.modRcv p (fun r => { r with nacks := r.nacks.map (fun (k : NackRun) => { k with due := k.sent }) }) else s

/-- 200 µs since the last sending of a block neither acknowledged nor NACKed (R210). -/
def State.blockLate (s : State) (p : Fin 16) (seq : Seq24) : State :=
  let x := s.port p
  if x.blocksRun && x.snd.synced && x.snd.unacked.any (fun b => b.seq == seq) && !x.snd.roomWait.contains seq then
    s.modSnd p (fun y => { y with resend := orderSeqs y.aKnown (seq :: y.resend) })
  else s

/-- One block period (R193), from the first block on: the block, then a shift that waited for it (R310). -/
def State.blockPeriod (s : State) (p : Fin 16) : State :=
  if (s.port p).blocksRun && decide ((s.port p).link.blocksTick ≤ s.ticks) then (s.sendBlock p).runDeferred p else s

/-- A smaller REORD (R225): held blocks above the new limit are discarded. -/
def State.reordCut (s : State) (p : Fin 16) : State :=
  (s.modRcv p (fun r => { r with held := r.held.filter (fun b => decide (seqDiff b.seq r.a < (s.reordBlocks p : Nat))) })).nackSync p

/-- Effect of a write of LN_BLK_CTRL, from its value before (R215, R225). -/
def State.blkCtrlWritten (s : State) (p : Fin 16) (old : Word) : State :=
  let s1 := if s.reord p < max 4 (fld old 8 8) then s.reordCut p else s
  if bit old 27 && !bit (s1.portReg p 0x50) 27 && (s1.port p).blocksRun then
    (State.advance p ((s1.port p).rcv.held.length + 1) s1).rcvSync p
  else s1

end Sys2Proof.Machine
end

