-- ==== Sys2Proof/Machine/RxOps.lean ====
section
/-! DEFINITION. Receive processing and LDMT (R116, R144, R148, R154, R162, R170 to R191): soundings refreshed, gain steps,
floating clusters, crosstalk allocation, symbol slips, table messages and bit-swaps. -/

namespace Sys2Proof.Machine

/-! ### Receive processing -/

/-- A refreshed sounding set (R116): in Locon modes, while the towpath runs. -/
def State.refreshSounding (s : State) (p : Fin 16) (x : Sounding) : State :=
  match (s.port p).link.state with
  | .loconUp | .shift => if (s.port p).hears then s.newSounding p x else s
  | _ => s

/-- Whether a port learns its gain (R144 step 2): ECHO_LEARN, or the retrain of a shift. -/
def Port.learnsGain (x : Port) : Bool :=
  match x.link.state, x.link.shift with
  | .echoLearn, _ => true
  | .shift, some sh => sh.acked && !sh.retrained
  | _, _ => false

/-- One AGC step (R144): 0.5 dB down above 80 % of full scale, up below 70 %. -/
def State.stepAgc (s : State) (p : Fin 16) (peak : Nat) : State :=
  if bit (s.portReg p 0x30) 8 && (s.port p).learnsGain then
    s.modRx p (fun r => { r with pga := if 80 < peak then r.pga - 1 else if peak < 70 then min 48 (r.pga + 1) else r.pga })
  else s

/-- Starts of the placed clusters, with their index (R148). -/
def RxPath.placed (r : RxPath) : List (Nat × Nat) :=
  ((List.range 8).filter (fun i => !r.parked.getLsbD i)).map (fun i => (i, (r.clusters.getD i 2556).toNat))

/-- The weakest placed cluster by sounded energy: index, energy. -/
def RxPath.weakest (r : RxPath) (m : LineMode) (echo : List (BitVec 16)) : Option (Nat × Nat) :=
  bestBy (fun (a b : Nat × Nat) => decide (a.2 < b.2)) (r.placed.map (fun e => (e.1, windowEnergy m echo e.2)))

/-- The strongest window that may be used and is clear of every placed cluster: start, energy. -/
def RxPath.strongestFree (r : RxPath) (m : LineMode) (echo : List (BitVec 16)) : Option (Nat × Nat) :=
  let free := ((List.range 2045).map (· + 512)).filter (fun w => r.placed.all (fun e => decide (e.2 + 4 ≤ w ∨ w + 4 ≤ e.2)))
  bestBy (fun (a b : Nat × Nat) => decide (b.2 < a.2))
    ((free.map (fun w => (w, windowEnergy m echo w))).filter (fun e => windowUsed echo e.2))

/-- The 100 ms check of the floating clusters (R148): the weakest moves to a free window with at least 6 dB more energy, is
seeded from the sounding and acquires for 1 ms. -/
def State.checkClusters (s : State) (p : Fin 16) : State :=
  let x := s.port p
  match x.link.state, x.link.modeAct, x.tow.snd with
  | .loconUp, some m, some sn =>
    if bit (s.portReg p 0x30) 4 && !s.frozen p 4 && (isPam m || m == .ldmt) && sn.wide && x.quiet.state == .active then
      match x.rx.weakest m sn.echo, x.rx.strongestFree m sn.echo with
      | some (i, e), some (w, f) =>
        if e * 39810717056 ≤ f * 10 ^ 10 ∧ e < f then
          s.modRx p (fun r => { r with
            clusters := r.clusters.set i (BitVec.ofNat 16 w), moved := some (i, s.ticks)
            float := (List.range 4).foldl (fun (l : List (BitVec 16)) k => l.set (4 * i + k) (Config.echoSeed sn m (w + k))) r.float })
        else s
      | _, _ => s
    else s
  | _, _, _ => s

/-- A symbol slip (R162): the symbol index moves by one, the data correction is recentred, the slip is counted, and TIM_LOCK
falls for 1 ms. -/
def State.symbolSlipped (s : State) (p : Fin 16) (forward : Bool) : State :=
  match (s.port p).link.state with
  | .loconUp | .stdUp | .shift =>
    (s.modRx p (fun r => { r with
      slips := satAdd 0xFFFF r.slips 1, slipTick := some s.ticks, dataPh := 0
      symIdx := if forward then r.symIdx + 1 else r.symIdx - 1 })).count (portBlock p.val) 13 1
  | _ => s

/-! ### Crosstalk allocation (R152, R154) -/

/-- A crosstalk path of a reach changed. -/
def State.modPath (s : State) (r : Fin 4) (k : Fin 12) (f : XtPath → XtPath) : State :=
  s.modReach r (fun x => { x with paths := x.paths.set k.val (f (x.paths.get k)) k.isLt })

/-- RH_XT_CTRL as it acts. -/
def State.xtCtrl (s : State) (r : Fin 4) : Word := s.act (regKey (reachBlock r.val) 0x20)

/-- A candidate path (R152, R154): kind, victim, aggressor, and coupling in 0.5 dB below the victim's signal. -/
abbrev XtCand := Bool × Fin 4 × Fin 4 × Nat

/-- Whether a pair of ports may have a path of a kind. -/
def xtAllowed (ctrl : Word) (fext : Bool) (v a : Fin 4) : Bool :=
  v != a && groupOf ctrl v != 0 && groupOf ctrl v == groupOf ctrl a && (if fext then bit ctrl 9 else bit ctrl 10)

/-- Whether a path carries a candidate. -/
def XtPath.carries (k : XtPath) (c : XtCand) : Bool := k.used && k.fext == c.1 && k.victim == c.2.1 && k.aggr == c.2.2.1

/-- A path newly allocated to a candidate at a tick: zero coefficients (R154 step 5). -/
def xtNew (c : XtCand) (now : Nat) : XtPath :=
  { used := true, fext := c.1, victim := c.2.1, aggr := c.2.2.1, coupling := BitVec.ofNat 8 (min 254 c.2.2.2), susp := true, taps := []
    born := now }

/-- The first free path of a reach, and the weakest of its paths. -/
def State.freePath (s : State) (r : Fin 4) : Option (Fin 12) := (List.finRange 12).find? (fun k => !((s.reach r).paths.get k).used)
def State.weakestPath (s : State) (r : Fin 4) : Option (Fin 12) :=
  bestBy (fun a b => decide (((s.reach r).paths.get b).coupling.toNat < ((s.reach r).paths.get a).coupling.toNat)) (List.finRange 12)

/-- One candidate's part in the allocation (R154 steps 3 and 4). -/
def State.allocOne (s : State) (r : Fin 4) (c : XtCand) : State :=
  if (List.finRange 12).any (fun k => ((s.reach r).paths.get k).carries c) then s
  else
    match s.freePath r with
    | some k => (s.modPath r k (fun _ => xtNew c s.ticks)).count (reachBlock r.val) 1 1
    | none =>
      match s.weakestPath r with
      | some k =>
        if c.2.2.2 + 6 ≤ ((s.reach r).paths.get k).coupling.toNat then
          (s.modPath r k (fun _ => xtNew c s.ticks)).count (reachBlock r.val) 1 1
        else s
      | none => s

/-- The couplings of allocated paths brought up to date. -/
def State.recouple (s : State) (r : Fin 4) (l : List XtCand) : State :=
  (List.finRange 12).foldl (fun (t : State) k => t.modPath r k (fun x =>
    match l.find? x.carries with | some c => { x with coupling := BitVec.ofNat 8 (min 254 c.2.2.2) } | none => x)) s

/-- Allocation from measured couplings (R154): waits while a port of the reach is SHIFTING. -/
def State.allocate (s : State) (r : Fin 4) (l : List XtCand) : State :=
  let ctrl := s.xtCtrl r
  if !bit ctrl 8 || (portsOf r).any (fun p => (s.port p).link.state == .shift) then s
  else
    let ok := (l.filter (fun c => xtAllowed ctrl c.1 c.2.1 c.2.2.1 && decide (c.2.2.2 ≤ 100)))
    let ranked := (sortBy (fun (a b : XtCand) => decide (a.2.2.2 ≤ b.2.2.2)) ok).take 12
    (ranked.foldl (fun (t : State) c => t.allocOne r c) (s.recouple r l)).xtSync r

/-- A path as RH_XT_PATHk defines it (R169). -/
def pathOf (v : Word) : XtPath :=
  { used := bit v 31, fext := bit v 30, victim := Fin.ofNat 4 (fld v 2 2), aggr := Fin.ofNat 4 (fld v 0 2), susp := bit v 31 }

/-- Whether two paths are defined identically. -/
def XtPath.same (a b : XtPath) : Bool := a.used == b.used && a.fext == b.fext && a.victim == b.victim && a.aggr == b.aggr

/-- The manual table applied to one path (R170): an identical definition keeps its coefficients. -/
def State.manualPath (s : State) (r : Fin 4) (k : Fin 12) : State :=
  let new := pathOf (s.reg (regKey (reachBlock r.val) (0x24 + k.val)))
  s.modPath r k (fun x => if x.same new then x else new)

/-- The effect of a write of RH_XT_CTRL, from its value before (R169, R170): the manual table with AUTO at 0, and paths that
GROUP, NEXT_EN or FEXT_EN no longer allow removed. When AUTO turns to 1, the manual paths that the groups and enables allow
stay as the allocation until the next measurement, a DESIGN CHOICE (notes/assumptions/58.md): R154 and R170 do not say. -/
def State.xtCtrlWritten (s : State) (r : Fin 4) (old : Word) : State :=
  let ctrl := s.xtCtrl r
  let s1 := if !bit ctrl 8 && bit old 8 then (List.finRange 12).foldl (fun (t : State) k => t.manualPath r k) s else s
  let gone := fun (x : XtPath) => x.used && !xtAllowed ctrl x.fext x.victim x.aggr
    && (bit ctrl 8 || xtAllowed old x.fext x.victim x.aggr)
  ((List.finRange 12).foldl (fun (t : State) k => t.modPath r k (fun x => if gone x then {} else x)) s1).xtSync r

/-- The effect of a write of RH_XT_PATHk (R169, R170): it acts with AUTO at 0. -/
def State.xtPathWritten (s : State) (r : Fin 4) (k : Fin 12) : State :=
  if bit (s.xtCtrl r) 8 then s else (s.manualPath r k).xtSync r

/-- The effect of a write of LN_RX_CTRL (R170): manual gain and peaking apply directly. -/
def State.rxCtrlWritten (s : State) (p : Fin 16) : State :=
  let c := s.portReg p 0x30
  if bit c 8 then s else s.modRx p (fun r => { r with pga := fld c 14 6, peak := min 12 (fld c 20 4) })

/-! ### LDMT (R174, R178, R184 to R191) -/

/-- The DMT symbol count of a port (R174): one symbol lasts 4,506 samples of 0.2 ns; d is frozen in quiet. -/
def State.dmtNow (s : State) (p : Fin 16) (base : Word) : Word :=
  let x := s.port p
  let upTo := if x.quiet.state == .active then s.ticks else x.quiet.wideAt.1
  base + BitVec.ofNat 32 ((upTo - x.dmt.dTick) * 32 / 4506)

/-- Whether a port trains for LDMT (R185, R186). -/
def Port.dmtTrains (x : Port) : Bool :=
  match x.link.state, x.link.train, x.link.shift with
  | .fullDuplex, some .ldmt, _ => !x.link.blocksOn
  | .shift, some .ldmt, some sh => sh.acked && !sh.retrained
  | _, _, _ => false

/-- Whether a port runs LDMT. -/
def Port.dmtRuns (x : Port) : Bool := x.link.state == .loconUp && x.link.modeAct == some .ldmt && x.quiet.state == .active

/-- Fewer than two pilots at 10 dB (R173). -/
def pilotsLow (snrs : List Int) : Bool :=
  decide (((List.range 16).filter (fun m => decide (1000 ≤ snrs.getD (60 + 128 * m) 0))).length < 2)

/-- Updates in a row in which a carrier has been more than 1.0 dB short (R187). -/
def lowRunsOf (mg : Nat) (d : Dmt) (snrs : List Int) : List Nat :=
  (List.range 2044).map (fun k =>
    let b := d.rx.bits.getD k 0
    if b ≠ 0 ∧ snrs.getD k 0 + 100 < ((tThr b + mg : Nat) : Int) then d.lowRuns.getD k 0 + 1 else 0)

/-- The loading that a message would carry: with SWAP_EN at 0 the received table with the forced carriers (R191), else R178.
A forced carrier loses a bit to the rounding of R178 only after every other one. -/
def nextLoading (ctrl : Word) (d : Dmt) (snrs : List Int) : Loading :=
  if bit ctrl 12 || d.forced.isEmpty then computeLoading ctrl snrs
  else finishLoading (marginAct ctrl) ((List.range 2044).map (fun k =>
    match d.forced.find? (fun e => e.1 == k + 4) with
    | some e => (snrs.getD k 0 + 10 ^ 9, e.2)
    | none => (snrs.getD k 0, d.rx.bits.getD k 0)))

/-- Two table entries of 4 bits to a byte (R184). -/
def nibbles : List Nat → List Byte
  | a :: b :: l => BitVec.ofNat 8 (a * 16 + b) :: nibbles l
  | _ => []

/-- The 1,034 bytes of a table message (R184). -/
def tableBytes (g : Loading) (a : Word) : List Byte :=
  let body := [0x01, BitVec.ofNat 8 g.i] ++ bytesBE 2 g.b ++ bytesBE 4 a.toNat
    ++ nibbles ((List.range 2044).map (fun k => g.bits.getD k 0))
  body ++ crcBytes (crc32 body)

/-- The fields of a message's bytes. -/
def tableOf (m : List Byte) : TableMsg :=
  { ver := m.getD 0 0, i := BitVec.ofNat 4 (beAt m 1 1), b := BitVec.ofNat 16 (beAt m 2 2), a := wd (beAt m 4 4)
    bits := ((m.drop 8).take 1022).flatMap (fun v => [BitVec.ofNat 4 (v.toNat / 16), BitVec.ofNat 4 v.toNat]) }

/-- A message sent (R184, R187): in LDMT the switch lies 256 symbols after its 34. -/
def State.sendMessage (s : State) (p : Fin 16) (g : Loading) (a : Word) : State :=
  s.modDmt p (fun d => { d with sent := some (g, a), message := tableBytes g a, msgSends := d.msgSends + 1, resendDue := false })

/-- The d at which a message sent now is to act (R187). -/
def State.switchAt (s : State) (p : Fin 16) : Word := s.dmtNow p (s.port p).dmt.dRx + 290

/-- A new message of a swap. -/
def State.sendTable (s : State) (p : Fin 16) (g : Loading) : State :=
  (s.modDmt p (fun d => { d with msgSends := 0, lowRuns := [], upRun := 0, forced := [], cfgChanged := false })).sendMessage p g (s.switchAt p)

/-- Whether messages are held back (R188): in quiet, and from 512 symbols before a scheduled entry on. -/
def State.holdsTables (s : State) (p : Fin 16) : Bool :=
  let x := s.port p
  x.quiet.state != .active || (match x.quiet.pend with
    | some (c, _) => decide ((c.entry - x.tow.symCount).toNat * symbolPs true x.tow.wideSf ≤ 512 * 4506 * 200)
    | none => false)

/-! #### One carrier of a received symbol (R179, R181, R182) -/

/-- The parts of a complex coefficient. -/
def CxTap.ints (c : CxTap) : Int × Int := (c.1.toInt, c.2.toInt)

/-- Product of two complex numbers, and of one with the conjugate of the other. -/
def cProd (a b : Int × Int) : Int × Int := (a.1 * b.1 - a.2 * b.2, a.1 * b.2 + a.2 * b.1)
def cProdConj (a b : Int × Int) : Int × Int := cProd a (b.1, -b.2)

/-- |z|². -/
def cNorm (a : Int × Int) : Nat := a.1.natAbs ^ 2 + a.2.natAbs ^ 2

/-- One carrier of a symbol: Y after the frequency-domain echo, the decided or training point, E, and the own values. -/
structure DmtTaken where
  y   : Int × Int
  x   : Int × Int
  e   : Int × Int
  own : (Int × Int) × (Int × Int)
  deriving DecidableEq, Repr

/-- A carrier through its echo taps and its equaliser. -/
def takeCarrier (w : CxTap) (fd : CxTap × CxTap) (y x : Int × Int) (own : (Int × Int) × (Int × Int)) : DmtTaken :=
  let a := cProd fd.1.ints own.1
  let b := cProd fd.2.ints own.2
  let y1 := (y.1 - roundDiv (a.1 + b.1) 32768, y.2 - roundDiv (a.2 + b.2) 32768)
  let z := cProd w.ints y1
  ⟨y1, x, (x.1 - roundDiv z.1 4096, x.2 - roundDiv z.2 4096), own⟩

/-- A symbol, carrier by carrier. -/
def Dmt.takeSymbol (d : Dmt) (q : DmtSymbol) : List DmtTaken :=
  (List.zip (List.zip d.w d.fd) (List.zip q.y (List.zip q.x q.own))).map (fun e =>
    takeCarrier e.1.1 e.1.2 e.2.1 e.2.2.1 e.2.2.2)

/-- Energies of points and of errors per carrier over symbols. -/
def carrierSums (l : List (List DmtTaken)) : List (Nat × Nat) :=
  l.foldl (fun acc q => List.zipWith (fun (a : Nat × Nat) c => (a.1 + cNorm c.x, a.2 + cNorm c.e)) acc q) (List.replicate 2044 (0, 0))

/-- A carrier's SNR in 0.01 dB, rounded down (R179). -/
def snrOf (e : Nat × Nat) : Int := if e.1 = 0 ∨ e.2 = 0 then 10 * (Config.openSnr e.1 e.2).toInt else floorLog 1000 e.1 e.2

/-- An impulse in a symbol (R164): an error above one level spacing, 2/√E, on a loaded carrier. -/
def dmtImpulse (bits : List Nat) (q : List DmtTaken) : Bool :=
  (List.zip bits q).any (fun e => e.1 != 0 && decide (4 * 4096 ^ 2 < cNorm e.2.e * meanEnergy e.1))

/-- The symbols that adapt: the one after an impulse is skipped (R181). -/
def dmtLive (bits : List Nat) : Bool → List (List DmtTaken) → List (List DmtTaken) × Bool
  | skip, [] => ([], skip)
  | skip, q :: l =>
    let (r, k) := dmtLive bits (dmtImpulse bits q) l
    (if skip then r else q :: r, k)

/-- Σ of an error times the conjugate of an input, per carrier. -/
def dmtSum (l : List (List DmtTaken)) (f : DmtTaken → Int × Int) : List (Int × Int) :=
  l.foldl (fun acc q => List.zipWith (fun a c => ((a.1 + (f c).1, a.2 + (f c).2) : Int × Int)) acc q) (List.replicate 2044 (0, 0))

/-- A complex coefficient moved by a sum over 2^sh. -/
def CxTap.moved (c : CxTap) (sum : Int × Int) (sh : Nat) : CxTap := (lmsMove c.1 sum.1 sh, lmsMove c.2 sum.2 sh)

/-- Equalisers and echo taps after an update (R181, R182, R164): W moves with E conj(Y), the echo taps against E conj(own). -/
def Dmt.lms (d : Dmt) (frozen : Nat → Bool) (feq ec : Nat) (l : List (List DmtTaken)) : Dmt :=
  let neg := fun (e : Int × Int) => (-e.1, -e.2)
  { d with
    w := if frozen 1 then d.w else List.zipWith (fun c s => c.moved s (12 + feq)) d.w (dmtSum l (fun t => cProdConj t.e t.y))
    fd := if frozen 3 then d.fd
      else List.zipWith (fun (c : CxTap × CxTap) (s : (Int × Int) × (Int × Int)) => (c.1.moved s.1 (9 + ec), c.2.moved s.2 (9 + ec))) d.fd
        (List.zip (dmtSum l (fun t => cProdConj (neg t.e) t.own.1)) (dmtSum l (fun t => cProdConj (neg t.e) t.own.2))) }

/-- The values of the usable pilots (R173): those with 10 dB. -/
def pilotValues (snrs : List Int) (q : List DmtTaken) : List (Int × Int) :=
  ((List.range 16).map (fun m => 60 + 128 * m)).filterMap (fun k =>
    if 1000 ≤ snrs.getD k 0 then (q[k]?).map (fun t => (t.x.1 - t.e.1, t.x.2 - t.e.2)) else none)

/-- The measured SNRs of an update in 0.01 dB (R179). -/
def Dmt.snrs (d : Dmt) (symbols : List DmtSymbol) : List Int := (carrierSums (symbols.map d.takeSymbol)).map snrOf

/-- What an update measures and adapts (R72, R173, R179, R181, R182): SNRs, pilots, P and E over the loaded carriers, and the
coefficients. R191 states no rounding of the SNR table: the measured figure, rounded down to 0.01 dB, is rounded to 0.1 dB with
halves up, a DESIGN CHOICE (notes/assumptions/58.md). -/
def State.dmtMeasure (s : State) (p : Fin 16) (symbols : List DmtSymbol) : State :=
  let d := (s.port p).dmt
  let acq := (s.port p).acquires
  let l := symbols.map d.takeSymbol
  let sums := carrierSums l
  let snrs := sums.map snrOf
  let bits := if (s.port p).dmtTrains then fourQam else d.rx.bits
  let used := (List.zip bits sums).filter (fun e => e.1 != 0)
  let (live, skip) := dmtLive bits (decide (0 < (s.port p).rx.skip)) l
  let turn := if pilotsLow snrs then 0 else (l.map (fun q => Config.dmtPilotStep (pilotValues snrs q))).foldl (· + ·) 0
  let feq := lmsExp 6 (clampN 6 20 (fld (s.portReg p 0x40) 16 5)) acq
  let ec := lmsExp 8 (max 8 (fld (s.portReg p 0x31) 24 5)) acq
  (s.modDmt p (fun d => { d.lms (s.frozen p) feq ec live with
    snr := snrs.map (fun v => (v + 5) / 10), pilotLow := pilotsLow snrs
    meanP := (used.map (·.2.1)).foldl (· + ·) 0, meanE := (used.map (·.2.2)).foldl (· + ·) 0 })).modRx p (fun r =>
      { r with phase := r.phase + turn, skip := if skip then 1 else 0, autoFrz := l.any (dmtImpulse bits) })

/-- The leader's GO of an LDMT training, once both tables are there (R81, R185): in a shift at once, at link start after the
time of FULL_DUPLEX. -/
def State.goDue (s : State) (p : Fin 16) : State :=
  let x := s.port p
  if x.dmtTrains && x.link.leader && x.tablesReady .ldmt && x.tow.goCount.isNone && !x.tow.ready.any (fun c => c.type == 3)
      && (x.link.state == .shift || x.link.echoTurns == 3) then s.queueGo p else s

/-- The 1 ms SNR update (R179, R185, R187, R188): in training the loading computed and sent; in LDMT a swap triggered, or a
message sent again after quiet. -/
def State.dmtUpdate (s : State) (p : Fin 16) (symbols : List DmtSymbol) : State :=
  let x := s.port p
  let ctrl := s.portReg p 0x40
  let snrs := x.dmt.snrs symbols
  let s0 := s.dmtMeasure p symbols
  if x.dmtTrains then
    let g := computeLoading ctrl snrs
    if bUsable g.b then (s0.sendMessage p g 0).goDue p else s0.modDmt p (fun d => { d with sent := none })
  else if !x.dmtRuns then s
  else
    let g := nextLoading ctrl x.dmt snrs
    let runs := lowRunsOf (marginAct ctrl) x.dmt snrs
    let up := if x.dmt.rx.b * 105 ≤ g.b * 100 then x.dmt.upRun + 1 else 0
    let lows := runs.any (fun n => decide (0 < n))
    let s1 := s0.modDmt p (fun d => { d with lowRuns := runs, upRun := up, lowB := !bUsable g.b })
    let forced := !bit ctrl 12 && !x.dmt.forced.isEmpty
    let due := runs.any (fun n => decide (4 ≤ n)) || decide (100 ≤ up) || (x.dmt.cfgChanged && (lows || decide (0 < up)))
    if s.holdsTables p then s1
    else
      match x.dmt.sent with
      | some (old, _) => if x.dmt.resendDue then s1.sendMessage p old (s.switchAt p) else s1
      | none =>
        if !bUsable g.b then s1
        else if forced || (bit ctrl 12 && due) then s1.sendTable p g
        else s1.modDmt p (fun d => { d with cfgChanged := false })

/-- Whether B and I follow R178: some sum of bits up to 13,450 gives them, and it is a loading that is used. -/
def loadingFits (b i : Nat) : Bool :=
  decide (1 ≤ i ∧ b % (10 * i) = 0 ∧ 290 ≤ b ∧ b ≤ min (1000 * i) 13450 ∧ (i = 1 ∨ 1000 * (i - 1) < b + 10 * i - 1 ∧ 1000 * (i - 1) < 13450))

/-- Whether a table message stands (R178, R184). -/
def tableValid (m : List Byte) : Bool :=
  let t := tableOf m
  decide (m.drop 1030 = crcBytes (crc32 (m.take 1030))) && t.ver == 1 && loadingFits t.b.toNat t.i.toNat
    && (t.bits.map (·.toNat)).foldl (· + ·) 0 == t.b.toNat && t.bits.all (fun v => decide (v.toNat ≤ 10))
    && (List.range 16).all (fun k => t.bits.getD (60 + 128 * k) 0 == 0)

/-- A table message received (R184, R185, R187): one that breaks a rule is discarded and counted. In training it makes the
partner's table valid; in LDMT it stands until its A, which must lie ahead. -/
def State.takeTable (s : State) (p : Fin 16) (m : List Byte) : State :=
  let x := s.port p
  let t := tableOf m
  let g : Loading := { bits := t.bits.map (·.toNat), b := t.b.toNat, i := t.i.toNat }
  if !(x.dmtTrains || x.dmtRuns) then s
  else if !tableValid m then s.modDmt p (fun d => { d with tablesBad := d.tablesBad + 1 })
  else if x.dmtTrains then (s.modDmt p (fun d => { d with got := some (g, 0), validGot := true })).goDue p
  else if ahead t.a (s.dmtNow p x.dmt.dTx) then s.modDmt p (fun d => { d with got := some (g, t.a) })
  else s

/-- The table message repeated until GO (R185). -/
def State.repeatTable (s : State) (p : Fin 16) : State :=
  if (s.port p).dmtTrains && (s.port p).dmt.sent.isSome then s.modDmt p (fun d => { d with msgSends := d.msgSends + 1 }) else s

/-- LN_DMT_PAY (R190): payloads sent and received in 0.01 Gb/s, 0 outside LDMT. R190 states no rounding: the model rounds
down, a DESIGN CHOICE (notes/assumptions/58.md). -/
def Port.dmtPay (x : Port) : Word :=
  let f := fun (b : Nat) => dmtPay10 b / 10 ^ 8
  if x.link.modeAct == some .ldmt then put 16 16 (f x.dmt.tx.b) ||| put 0 16 (f x.dmt.rx.b) else 0

/-- A swap that has completed at this end (R187, R241, R392). -/
def State.swapDone (s : State) (p : Fin 16) : State :=
  (s.raise 0x0016 (portBlock p.val) p.val (s.port p).dmtPay).lineSync p

/-- Whether the points received at a symbol, W × Y in 1/4096, are flag B of the far end (R183): the share of the correlation
that a perfect reception gives. -/
def Port.flagFound (x : Port) (points : List (Int × Int)) : Bool :=
  let c := correlation (flagB (!x.link.leader)) points
  decide (0 ≤ c ∧ (Config.flagShare.val : Int) ^ 2 * 2 * (4096 * 2028) ^ 2 ≤ (100 * c) ^ 2)

/-- d = A (R187, R188): the transmitter switches; a receiver switches on flag B, else it sends its message again, after quiet
where it may not now. -/
def State.bitswap (s : State) (p : Fin 16) (sending : Bool) (points : List (Int × Int)) : State :=
  let x := s.port p
  let active := x.quiet.state == .active
  if x.link.modeAct != some .ldmt || x.link.state != .loconUp then s
  else if sending then
    match x.dmt.got with
    | some (g, _) =>
      if active then (s.modDmt p (fun d => { d with tx := g, got := none, symbols := [flagB x.link.leader] })).swapDone p
      else s.modDmt p (fun d => { d with got := none })
    | none => s
  else
    match x.dmt.sent with
    | some (g, _) =>
      if active && x.flagFound points then
        (s.modDmt p (fun d => { d with rx := g, sent := none, msgSends := 0, resendDue := false })).swapDone p
      else if s.holdsTables p then s.modDmt p (fun d => { d with resendDue := true })
      else s.sendMessage p g (s.switchAt p)
    | none => s

/-- The effect of a write of LN_DMT_CTRL, from its value before (R188). -/
def State.dmtCtrlWritten (s : State) (p : Fin 16) (old : Word) : State :=
  let new := s.portReg p 0x40
  if maxBitsAct old ≠ maxBitsAct new ∨ marginAct old ≠ marginAct new then s.modDmt p (fun d => { d with cfgChanged := true }) else s

/-- A carrier's b forced by a write to the table of received bits (R191): it acts with SWAP_EN at 0. -/
def State.forceCarrier (s : State) (p : Fin 16) (i b : Nat) : State :=
  if bit (s.portReg p 0x40) 12 || i < 4 || isPilot i then s
  else s.modDmt p (fun d => { d with forced := d.forced.filter (fun e => e.1 != i) ++ [(i, min 10 b)] })

end Sys2Proof.Machine
end

