-- ==== Sys2Proof/Machine/TimeOps.lean ====
section
/-! DEFINITION. Vehicle time and the calendar (R274 to R295): ticks, loads, slews and steps, captures and marks, time
transfer, learning, acceptance and re-arming of calendar entries, and the placing of slices. -/

namespace Sys2Proof.Machine

/-! ### The tick (R275, R277) -/

/-- The slew rate in 2^-40 units (R297): SLEW_MAX in 10 ppm units. -/
def State.slewRate (s : State) : Nat := fld (s.act (regKey 2 0x04)) 8 8 * 2 ^ 40 / 100000

/-- The rate in use in 2^-40 units, slew included (R277, R297): never beyond 1,500 ppm. -/
def State.rateInUse (s : State) : Int :=
  s.time.rho + (match s.time.slew with | some r => if 0 < r then s.slewRate else if r < 0 then -(s.slewRate : Int) else 0 | none => 0)

/-- What one tick uses up of a slew, in fifths of a unit: `rate` at most. -/
def slewPart (rate : Nat) (left : Int) : Int := clampI (-(32 * rate : Nat)) (32 * rate : Nat) left

/-- Vehicle time one tick on (R275): the increment in fifths of a unit, the remainder carried. -/
def TimeUnit.tick (t : TimeUnit) (rate : Nat) : TimeUnit :=
  let part := match t.slew with | some r => slewPart rate r | none => 0
  let num := (32 * ((2 ^ 40 : Int) + t.rho) + part + t.fifths).toNat
  { t with now := t.now + num / 5, fifths := num % 5, slew := t.slew.map (fun r => r - part) }

/-! ### Late and dropped entries (R290) -/

/-- A late entry or occurrence counted and reported. -/
def State.noteLate (s : State) (e : Nat) : State :=
  (({ s with time := { s.time with lateCnt := satAdd 0xFFFF s.time.lateCnt 1 } }).raise 0x0031 2 0 (wd e) 0).count 2 3 1

/-- A dropped or skipped one. -/
def State.noteDropped (s : State) (e : Nat) : State :=
  (({ s with time := { s.time with dropped := satAdd 0xFFFF s.time.dropped 1 } }).raise 0x0031 2 0 (wd e) 1).count 2 4 1

/-! ### The calendar table (R289) -/

def State.cal? (s : State) (e : Nat) : Option CalEntry := (s.time.cal.find? (fun x => x.1 == e)).map (·.2)
def State.putCal (s : State) (e : Nat) (x : CalEntry) : State := { s with time := { s.time with cal := tabIns s.time.cal e x } }
def State.delCal (s : State) (e : Nat) : State := { s with time := { s.time with cal := tabDel s.time.cal e } }

/-- The lowest free entry number. -/
def State.freeCal (s : State) : Option Nat := (List.range 1024).find? (fun e => !s.time.cal.any (fun x => x.1 == e))

/-- Window kinds (R289). -/
def CalKind.window : CalKind → Bool
  | .quiet | .calSlice | .testSlice | .user => true
  | _ => false

/-- Ticks until an instant at the rate in use: the first tick whose time is at or after it. -/
def State.ticksTo (s : State) (t : Nat) : Nat :=
  ceilDiv ((t - s.time.now) * 5) (32 * ((2 ^ 40 : Int) + s.rateInUse)).toNat

/-- The outcomes of R290. -/
inductive CalOutcome where
  | emptyHeld | emptyGone | dropped | late | ok
  deriving DecidableEq, Repr

/-- R290 on a start and a stop. -/
def State.judge (s : State) (start : Nat) (stop : Option Nat) : CalOutcome :=
  let ks := s.ticksTo start
  match stop with
  | some e =>
    let ke := s.ticksTo e
    if ke ≤ ks ∧ (e ≤ start ∨ 0 < ks) then if 0 < ks then .emptyHeld else .emptyGone
    else if e ≤ s.time.now then .dropped
    else if start ≤ s.time.now then .late
    else .ok
  | none => if start ≤ s.time.now then .late else .ok

/-- The status of an outcome (R385). -/
def CalOutcome.status : CalOutcome → Nat
  | .emptyHeld | .emptyGone => 0x0202
  | .dropped => 0x0203
  | .late => 0x0204
  | .ok => stOk

/-- Whether an outcome holds an entry. -/
def CalOutcome.holds : CalOutcome → Bool
  | .emptyHeld | .late | .ok => true
  | _ => false

/-- The next occurrence of a repeating entry: its positions k video frames on. -/
def TimeUnit.shiftOcc (t : TimeUnit) (x : CalEntry) : CalEntry :=
  let a := { x.startP with frame := x.startP.frame + x.repeatK }
  let b := { x.stopP with frame := x.stopP.frame + x.repeatK }
  { x with startP := a, stopP := b, start := t.instant a, stop := x.stop.map (fun _ => t.instant b), isOpen := false, late := false, empty := false }

/-- An occurrence is over (R289, R290): the entry leaves after its last one, and with its cadence entry gone; else it is re-armed, occurrences wholly past
being skipped and counted. `fuel` bounds the occurrences skipped. -/
def State.rearm (e : Nat) : Nat → State → CalEntry → State
  | 0, s, _ => s.delCal e
  | fuel + 1, s, x =>
    if x.repeatK = 0 ∨ x.left = 1 ∨ (!x.startP.abs && (s.time.cad? x.startP.entry).isNone) = true then s.delCal e
    else
      let y := s.time.shiftOcc { x with left := x.left - 1 }
      match s.judge y.start y.stop with
      | .emptyHeld => s.putCal e { y with empty := true }
      | .emptyGone => State.rearm e fuel s y
      | .dropped => State.rearm e fuel (s.noteDropped e) y
      | .late => (s.putCal e { y with late := true }).noteLate e
      | .ok => s.putCal e y

/-- The bound of occurrences skipped at one re-arming. -/
def rearmFuel : Nat := 65536

/-- Acceptance (R289, R290): the entry number where one is held, the status, and the state. -/
def State.accept (s : State) (x : CalEntry) : Option Nat × Nat × State :=
  let o := s.judge x.start x.stop
  match s.freeCal with
  | none => if o.holds || x.repeatK ≠ 0 then (none, 0x0201, s) else (none, o.status, if o = .dropped then s.noteDropped 1024 else s)
  | some e =>
    let y := { x with order := s.time.nextOrder }
    let s1 := { s with time := { s.time with nextOrder := s.time.nextOrder + 1 } }
    match o with
    | .ok => (some e, o.status, s1.putCal e y)
    | .late => (some e, o.status, (s1.putCal e { y with late := true }).noteLate e)
    | .emptyHeld => (some e, o.status, s1.putCal e { y with empty := true })
    | .emptyGone => if x.repeatK = 0 then (none, o.status, s) else (some e, o.status, State.rearm e rearmFuel s1 y)
    | .dropped => if x.repeatK = 0 then (none, o.status, s.noteDropped e) else (some e, o.status, State.rearm e rearmFuel (s1.noteDropped e) y)

/-- Whether an entry's occurrence is due and has not opened. -/
def State.calDue (s : State) (x : CalEntry) : Bool := !x.isOpen && decide (x.start ≤ s.time.now)

/-- Whether an open entry's window stops now. -/
def State.calStops (s : State) (x : CalEntry) : Bool :=
  x.isOpen && (match x.stop with | some t => decide (t ≤ s.time.now) | none => true)

/-- An instant entry that acts (R289, R291): counted, and re-armed. -/
def State.instantActs (s : State) (e : Nat) (x : CalEntry) : State :=
  State.rearm e rearmFuel (s.count 2 2 1) { x with acted := x.acted + 1 }

/-- A window that opens: counted. -/
def State.windowOpens (s : State) (e : Nat) (x : CalEntry) : State :=
  (s.putCal e { x with isOpen := true, acted := x.acted + 1 }).count 2 2 1

/-- Whether a window of a kind is open on a target (R292). -/
def State.windowOpen (s : State) (k : CalKind) (target : Nat) : Bool :=
  s.time.cal.any (fun e => e.2.isOpen && e.2.kind == k && e.2.target == target)

/-! ### Loads and steps (R276, R277, R293) -/

/-- What a step does to one calendar entry (R293): an open window keeps the earlier of its stop and the stop tick computed
before; a pending one that the step has passed is late or dropped. -/
def State.stepEntry (old : Nat) (s : State) (e : Nat × CalEntry) : State :=
  let x := e.2
  if x.isOpen then
    match x.stop with
    | some t => s.putCal e.1 { x with stop := some (min t (s.time.now + (t - old))) }
    | none => s
  else if old < x.start ∧ x.start ≤ s.time.now ∧ !x.empty then
    match x.stop with
    | some t => if t ≤ s.time.now then State.rearm e.1 rearmFuel (s.noteDropped e.1) x else (s.putCal e.1 { x with late := true }).noteLate e.1
    | none => (s.putCal e.1 { x with late := true }).noteLate e.1
  else s

/-- Vehicle time loaded (R276): a step of either sign, which cancels a slew and raises TIME_STEP with its size in ns. -/
def State.loadTime (s : State) (new : Nat) : State :=
  let old := s.time.now
  let ns : Int := ((new : Int) - old) / (subNs : Int)
  let v := BitVec.ofInt 64 ns
  let s1 := { s with
    time := { s.time with now := new, fifths := 0, slew := none }
    ports := s.ports.map (fun (x : Port) => { x with xferStep := true }) }
  (s1.time.cal.foldl (State.stepEntry old) s1).raise 0x0030 2 0 (v.setWidth 32) ((v >>> 32).setWidth 32)

/-- A step of a number of ns (R277). -/
def State.stepTime (s : State) (ns : Int) : State := s.loadTime ((s.time.now : Int) + ns * subNs).toNat

/-- A slew begun (R277): it replaces what is left of another; fifths of a unit. -/
def State.startSlew (s : State) (ns : Int) : State := { s with time := { s.time with slew := some (ns * subNs * 5) } }

/-- The slew is used up (R277). -/
def State.endSlew (s : State) : State := if s.time.slew = some 0 then { s with time := { s.time with slew := none } } else s

/-! ### TSYNC and TMARK (R278, R279) -/

/-- Units of 0.1 ns. -/
def tenthNs : Nat := subNs / 10

/-- Whether an edge follows the previous one by less than 1 µs; 64 tenths of ns make a tick. -/
def State.edgeSoon (s : State) (tenths : Nat) : Bool :=
  match s.time.capTick with
  | some t => decide ((s.ticks * 64 - tenths) - t < 10000)
  | none => false

/-- A TIME_SET carried out and answered with the step applied (R276, R386). -/
def State.loadAnswered (s : State) (c : Fin 16) (new : Nat) : State :=
  (s.loadTime new).answer c stOk [wdI (satI 32 (((new : Int) - s.time.now) / (subNs : Int)))]

/-- A rising edge of TSYNC (R278), `tenths` of 0.1 ns before the present tick; a waiting TIME_SET loads at it (R276). -/
def State.tsync (s : State) (tenths : Nat) : State :=
  if s.edgeSoon tenths then s.count 2 1 1
  else
    let ago := tenths * tenthNs + 22 * subNs
    let s1 := { s with time := { s.time with
      capS := s.time.now - ago, capSeq := s.time.capSeq + 1, capTick := some (s.ticks * 64 - tenths) } }
    let s2 := s1.count 2 0 1
    s2.time.setWait.foldl (fun (t : State) e => t.loadAnswered (Fin.ofNat 16 e.2) (e.1 + ago))
      { s2 with time := { s2.time with setWait := [] } }

/-- The period of TMARK in ns; none when off (R297). -/
def State.markPeriod (s : State) : Option Nat :=
  match fld (s.act (regKey 2 0x04)) 0 4 with
  | 1 => some 1000000 | 2 => some 10000000 | 3 => some 100000000 | 4 => some 1000000000
  | _ => none

/-- TMARK rises at a mark instant (R279): a whole multiple of the period that this tick has reached. -/
def State.markRise (s : State) : State :=
  match s.markPeriod with
  | some per =>
    if s.time.now % (per * subNs) < 7 * subNs then { s with time := { s.time with tmark := true, tmarkUp := s.ticks } } else s
  | none => s

/-- High time of TMARK in 0.1 ns (R279): half the period when WIDTH reaches it. -/
def State.markWidth (s : State) : Nat :=
  let w := max 1 (fld (s.act (regKey 2 0x05)) 0 16) * 1000
  match s.markPeriod with
  | some per => if per * 10 ≤ w then per * 5 else w
  | none => w

/-- TMARK falls when its high time is over. -/
def State.markFall (s : State) : State :=
  if s.time.tmark && decide (s.markWidth ≤ (s.ticks - s.time.tmarkUp) * 64) then { s with time := { s.time with tmark := false } } else s

/-! ### Time transfer (R281 to R284) -/

/-- Whether a port is a time source. -/
def State.isSource (s : State) (p : Fin 16) : Bool := (s.fldOf (regKey 2 0x09) 16 16).testBit p.val

/-- Whether a port runs a Locon mode. -/
def Port.loconRuns (x : Port) : Bool := x.link.state == .loconUp || x.link.state == .shift

/-- TM_XFER.INT has passed at a sink (R281): a REQ is queued, its S2 fixed as it is sent. -/
def State.timeReqDue (s : State) (p : Fin 16) : State :=
  if s.isSource p || !(s.port p).loconRuns then s
  else (s.modPort p (fun x => { x with xferStep := false })).queueCell p 8 (padTo 24 [])

/-- A time in 1/256 ns. -/
def t256 (t : Nat) : Nat := t / 2 ^ 32

/-- The SYNC payload (R282); `t1` in 1/256 ns. -/
def timeSyncPayload (stepped : Bool) (s1 : Word) (t1 : Nat) (s2 : Word) (t4t1 : Int) : List Byte :=
  [BitVec.ofNat 8 (16 + if stepped then 1 else 0)] ++ bytesBE 4 s1.toNat ++ bytesBE 6 (t1 / 256 / 10 ^ 9)
    ++ bytesBE 4 (t1 / 256 % 10 ^ 9) ++ bytesBE 1 (t1 % 256) ++ bytesBE 4 s2.toNat ++ bytesBE 4 (BitVec.ofInt 32 t4t1).toNat

/-- A REQ at a source (R281, R283): `t4` is its receive time of pilot S2 in 1/256 ns. -/
def State.takeTimeReq (s : State) (p : Fin 16) (h : CellHdr) (s2 : Word) (t4 : Nat) : State :=
  if !(s.port p).hears then s
  else
    s.withCell p h 8 (fun t =>
      if !t.isSource p then t
      else
        let w := (t.port p).tow
        let s1 := pilotBefore w.symCount
        let ps := (w.symCount - s1).toNat * symbolPs (w.profile == .wideRun) (max 7 w.sf)
        let t1 := t256 t.time.now - ps * 256 / 1000
        t.queueCell p 8 (timeSyncPayload false s1 t1 s2 ((t4 : Int) - t1)))

/-- The offset θ of a sink in 1/256 ns (R283). -/
def xferTheta (t1 t2 t3 : Nat) (t4t1 : Int) : Int := (((t2 : Int) - t1) - (t4t1 + t1 - t3)) / 2

/-- Discipline from one valid exchange of port DISC (R284): a step beyond 1 µs, else a slew with ρ following a loop whose
output the manual does not state. -/
def State.discipline (s : State) (th : Int) : State :=
  let s0 := { s with time := { s.time with
    ofs := wdI (satI 32 th), lockRun := if th.natAbs ≤ 512 then s.time.lockRun + 1 else 0, discHold := false } }
  if 256000 < th.natAbs then s0.loadTime ((s.time.now : Int) - th * 2 ^ 32).toNat
  else
    let (d, s1) := s0.draw
    { s1 with time := { s1.time with
      slew := some (-th * 2 ^ 32 * 5), rho := clampI (-1099511627) 1099511627 (Config.freeWord d).toInt } }

/-- A SYNC at a sink (R283, R284): `t2` and `t3` in 1/256 ns. -/
def State.takeTimeSync (s : State) (p : Fin 16) (h : CellHdr) (c : TimeSyncCell) (t2 t3 : Nat) : State :=
  if !(s.port p).hears then s
  else
    s.withCell p h 8 (fun t =>
      let x := t.port p
      if t.isSource p || x.tow.reqS2 != some c.s2 then t
      else
        let t1 := t.modTow p (fun w => { w with reqS2 := none })
        if c.stepped || x.xferStep then t1
        else if t1.fldOf (regKey 2 0x09) 8 5 = p.val then t1.discipline (xferTheta c.t1 t2 t3 c.t4t1)
        else t1)

/-- A REQ unanswered for 1 s (R281). -/
def State.noSource (s : State) (p : Fin 16) : State :=
  match (s.port p).tow.reqS2 with
  | some _ => (s.modTow p (fun w => { w with reqS2 := none })).raise 0x0033 (portBlock p.val) p.val
  | none => s

/-! ### Cadence learning (R287) -/

/-- Words 1 to 9 of a cadence entry (R298, R388). -/
def Cadence.words (c : Cadence) : List Word :=
  let ns := c.ta / 65536
  [wd c.pf, wd (c.pf / 2 ^ 32), wd c.pl, wd (c.pl / 2 ^ 32), wd c.nl, wd (c.a0 + c.na * 65536), wd (ns % 10 ^ 9),
    wd (ns / 10 ^ 9), wd (ns / 10 ^ 9 / 2 ^ 32 % 65536 + c.ta % 65536 * 65536)]

/-- Word 0 as CADENCE_SET carries it (R388). -/
def Cadence.word0 (c : Cadence) (e : Nat) : Word := wd (e + c.queue * 65536) ||| flag 28 c.govern ||| flag 29 c.track

/-- The cadence that 17 burst starts in 2^-16 ns give; none when two of them are too far from the mean. -/
def learnt (l : LearnRec) (b : List Nat) : Option Cadence :=
  let g := fun i => b.getD i 0
  let pf := (g 16 - g 0) / 16
  if (List.range 16).any (fun k => decide (pf < 100 * (((g (k + 1) : Int) - g k - pf).natAbs))) then none
  else
    let pl := pf / max 1 l.nl
    some { queue := l.queue, pf := pf, pl := pl, nl := l.nl, a0 := l.a0, na := l.na, ta := g 16 - l.a0 * pl, govern := false, track := false }

/-- Learning of an entry is over: the waiting channel is answered. -/
def State.endLearn (s : State) (e status : Nat) (words : List Word) : State :=
  let s1 := { s with time := { s.time with learns := s.time.learns.filter (fun l => l.entry != e) } }
  s1.answerWait (fun w => w == .cadenceLearn e) status words

/-- Seventeen burst starts seen (R287). -/
def State.learnDone (s : State) (e : Nat) (b : List Nat) : State :=
  match s.time.learns.find? (fun l => l.entry == e) with
  | none => s
  | some l =>
    if b.length ≠ 17 then s
    else
      match learnt l b with
      | none => s.endLearn e 0x0206 []
      | some c =>
        if !c.ok then s.endLearn e 0x0207 []
        else
          let s1 := if l.install then s.putCad e c else s
          s1.endLearn e stOk (c.word0 e :: c.words)

/-- Two seconds without them. -/
def State.learnLate (s : State) (e : Nat) : State :=
  if s.time.learns.any (fun l => l.entry == e) then s.endLearn e 0x0207 [] else s

/-! ### Slices (R294) -/

/-- GUARD in units of 2^-16 ns. -/
def State.guard16 (s : State) : Nat := max 1 (fld (s.act (regKey 2 0x04)) 16 8) * 1000 * 65536

/-- The vertical blanking interval after frame n of a cadence, in 2^-16 ns. -/
def Cadence.blank (c : Cadence) (n : Int) : Int × Int :=
  (c.frameStart n + (c.a0 + c.na) * c.pl, c.frameStart (n + 1) + c.a0 * c.pl)

/-- Whether a span with its guards lies inside a blanking interval of a cadence. -/
def Cadence.clear (c : Cadence) (a b : Int) : Bool :=
  let n := (a - c.ta - (c.a0 + c.na) * c.pl) / (c.pf : Int)
  let (u, v) := c.blank n
  decide (u ≤ a ∧ b ≤ v)

/-- Whether another slice of a port lies in the same interval. -/
def State.sliceTaken (s : State) (p : Fin 16) (a b : Int) : Bool :=
  s.time.cal.any (fun e => (e.2.kind == .calSlice || e.2.kind == .testSlice) && e.2.target == p.val &&
    decide (a ≤ (t16 e.2.start : Int) ∧ (t16 e.2.start : Int) < b))

/-- Start of the slot of a slice of `len` (2^-16 ns) on a port, where the blanking of all the given cadences overlaps and
within 1 s. -/
def State.slotFor (s : State) (p : Fin 16) (own : Cadence) (all : List Cadence) (len : Nat) : Option Int :=
  let now : Int := t16 s.time.now
  let g : Int := s.guard16
  let fit := fun (c : Cadence) (k : Nat) =>
    let (u, _) := c.blank (c.frameAt (t16 s.time.now) - 1 + k)
    let a := u + g
    let (x, y) := own.blank ((a - own.ta - (own.a0 + own.na) * own.pl) / (own.pf : Int))
    if now < a ∧ a < now + 65536 * 10 ^ 9 ∧ all.all (fun d => d.clear (a - g) (a + len + g)) ∧ !s.sliceTaken p x y then some a else none
  (all.flatMap (fun c => (List.range (65536 * 10 ^ 9 / max 1 c.pf + 3)).filterMap (fit c))).foldl
    (fun (b : Option Int) a => match b with | some y => some (min a y) | none => some a) none

/-- A position at an absolute time. -/
def absPos (t : Nat) : Position := { abs := true, entry := 0, frame := 0, line := nsInSec t, frac := secOf t % 2 ^ 32 }

/-- The cadences that a slice of a port must keep clear of: its own, and for a reach slice those of the reach. -/
def State.sliceCadences (s : State) (p : Fin 16) (whole : Bool) : List Cadence :=
  if whole then (portsOf (reachOf p)).filterMap (fun q => (s.governor q).map (·.2)) else ((s.governor p).map (·.2)).toList

/-- A slice of a port that found no slot waits; a slice placed no longer does. -/
def State.slotWaits (s : State) (p : Fin 16) (test wait : Bool) : State :=
  let l := s.cal.slotWait.filter (fun e => e != (p.val, test))
  { s with cal := { s.cal with slotWait := if wait then l ++ [(p.val, test)] else l } }

/-- A slice placed (R294, R436): into the blanking of a governed port, else it runs at once and needs no entry; it waits
when there is no slot or the calendar is full. -/
def State.placeSlice (s : State) (p : Fin 16) (test whole : Bool) (us : Nat) : State :=
  match s.governor p with
  | none => s.slotWaits p test false
  | some (_, own) =>
    match s.slotFor p own (s.sliceCadences p whole) (us * 1000 * 65536), s.freeCal with
    | some a, some e =>
      let t := a.toNat * 2 ^ 24
      let u := t + us * 1000 * subNs
      (s.putCal e { kind := if test then .testSlice else .calSlice, source := if test then 4 else 3, target := p.val
                    startP := absPos t, stopP := absPos u, start := t, stop := some u, order := s.time.nextOrder }).slotWaits p test false
    | _, _ => s.slotWaits p test true

/-- The slices of a port of one engine taken out of the calendar. -/
def State.dropSlices (s : State) (p : Fin 16) (test : Bool) : State :=
  let k : CalKind := if test then .testSlice else .calSlice
  ({ s with time := { s.time with cal := s.time.cal.filter (fun e => !(e.2.kind == k && e.2.target == p.val)) } }).slotWaits p test false

end Sys2Proof.Machine
end

