-- ==== Sys2Proof/Machine/CalOps.lean ====
section
/-! DEFINITION. Temperature, thermal levels and calibration (R317 to R329, R424, R431). -/

namespace Sys2Proof.Machine

/-! ### Readings (R317) -/

/-- Mean of a list of samples in 1/16 °C, rounded down. -/
def meanOf (l : List Int) : Int := if l.isEmpty then 0 else l.foldl (· + ·) 0 / (l.length : Int)

/-- The reading of a sensor, 0 to 3 reach and 4 central. -/
def CalUnit.reading (c : CalUnit) (i : Fin 5) : Int := c.temp.get i

/-- The central reading. -/
def CalUnit.central (c : CalUnit) : Int := c.temp.get 4

/-- The reading of a reach as it triggers: the central one stands in for an implausible sensor. -/
def State.reachTemp (s : State) (r : Fin 4) : Int :=
  if (s.reach r).subst then s.cal.central else s.cal.reading (r.castLE (by omega))

/-- The reading by which a sensor's thermal level moves (R431). -/
def State.sensorTemp (s : State) (i : Fin 5) : Int := if h : i.val < 4 then s.reachTemp ⟨i.val, h⟩ else s.cal.central

/-! ### Calibration work (R321) -/

/-- Duration of item i in tenths of a µs: trims, swing, 72 cells, 34 slices, apply. -/
def itemTenths (i : Nat) : Nat := if i = 0 then 40 else if i = 1 then 20 else if i < 74 then 4 else if i < 108 then 30 else 10

/-- Number of items. -/
def calItems : Nat := 109

/-- Items that fit into a slice from item i on. -/
def fitItems : Nat → Nat → Nat → Nat
  | 0, i, _ => i
  | n + 1, i, room => if i < calItems ∧ itemTenths i ≤ room then fitItems n (i + 1) (room - itemTenths i) else i

/-- SLICE_US. -/
def State.sliceUs (s : State) : Nat := fld (s.act (regKey 6 0x00)) 8 8

/-- Whether no run may start (R326, R328, R360, R424): HOLD, the block's parity safe state, REF_FAULT, or domain 240 forced
off. -/
def State.calHeld (s : State) : Bool := bit (s.act (regKey 6 0x20)) 0 || s.safeBlock 6 || s.cal.refFault || s.forcedOff 240

/-- A port's calibration changed. -/
def State.modCal (s : State) (p : Fin 16) (f : PortCal → PortCal) : State := s.modPort p (fun x => { x with cal := f x.cal })

/-- Ports that a reach run takes: enabled and not stopped by a fault, which CAL_RUN overrides (R325). -/
def State.calPorts (s : State) (r : Fin 4) : List (Fin 16) :=
  (portsOf r).filter (fun p => s.enabled p && (!(s.port p).cal.fault || (s.reach r).byCmd))

/-- A port whose link is up, whose items need slices (R322). -/
def Port.needsSlices (x : Port) : Bool := x.link.state.reached

/-- One port's items begin (R320, R322): placed as a slice while its link is up, else they run at once. -/
def State.startItems (s : State) (p : Fin 16) (single : Bool) : State :=
  let r := reachOf p
  let s1 := s.modCal p (fun c => { c with
    running := true, item := 0, single := single, retry := false, startTemp := s.reachTemp r })
  let s2 := if single then s1 else s1.modReach r (fun x => { x with tempSum := x.tempSum + s.reachTemp r, tempN := x.tempN + 1 })
  if (s.port p).needsSlices then s2.placeSlice p false (!single) s.sliceUs else s2

/-- T_ref of a completed reach run (R318): the mean of the readings at its slices' starts, rounded. -/
def Reach.meanRef (x : Reach) (now : Int) : Int :=
  if x.tempN = 0 then now else (2 * x.tempSum + x.tempN) / (2 * (x.tempN : Int))

/-- The part of one port, or of one reach (`none`), done for the CAL_RUN commands that wait (R386). -/
def calNoted (p : Option (Fin 16)) (r : Option (Fin 4)) (pass : Bool) : LongCmd → LongCmd
  | .calRun rs ps good bad =>
    match p, r with
    | some q, _ =>
      let mine := rs.getLsbD (q.val / 4) || ps.getLsbD q.val
      if mine then .calRun rs (setBit ps q.val false) (if pass then setBit good q.val true else good) (if pass then bad else setBit bad q.val true)
      else .calRun rs ps good bad
    | none, some k => .calRun (setBit rs k.val false) ps good bad
    | none, none => .calRun rs ps good bad
  | w => w

/-- CAL_RUN commands whose runs have all completed are answered. -/
def State.calAnswer (s : State) : State :=
  allChans.foldl (fun (t : State) c =>
    match (t.chan c).work with
    | some (.calRun rs ps good bad) =>
      if rs = 0 ∧ ps = 0 then t.answer c (if bad = 0 then stOk else 0x0701) [put 0 16 good.toNat ||| put 16 16 bad.toNat] else t
    | _ => t) s

/-- The waiting commands told of a completed part. -/
def State.calTell (s : State) (p : Option (Fin 16)) (r : Option (Fin 4)) (pass : Bool) : State :=
  (allChans.foldl (fun (t : State) c => t.modChan c (fun ch => { ch with work := ch.work.map (calNoted p r pass) })) s).calAnswer

/-- A reach run is complete when every port of it has finished (R318, R322). -/
def State.reachDone (s : State) (r : Fin 4) : State :=
  if (s.reach r).calRun && !(portsOf r).any (fun p => (s.port p).cal.running && !(s.port p).cal.single) then
    let s1 := s.modReach r (fun x => { x with
      calRun := false, byCmd := false, runs := x.runs + 1, tref := some (x.meanRef (s.reachTemp r)), firstDone := true, tempSum := 0, tempN := 0 })
    (s1.count 6 0 1).calTell none (some r) true
  else s

/-- A reach run that starts (R318, R319, R326): the anchor first, unless one passed within 1 s; pending retries absorbed. -/
def State.startReach (s : State) (r : Fin 4) : State :=
  if !(s.reach r).calPend || (s.reach r).calRun || s.calHeld then s
  else
    let fresh := match s.cal.anchorTick with | some t => decide (s.ticks < t + secTicks 1) | none => false
    let s1 := s.modReach r (fun x => { x with calPend := false, calRun := true, tempSum := 0, tempN := 0 })
    let s2 := if fresh then s1 else ({ s1 with cal := { s1.cal with anchorRun := some s.ticks } }).count 6 2 1
    ((s.calPorts r).foldl (fun (t : State) p => if (t.port p).cal.running then t.modCal p (fun c => { c with single := false }) else t.startItems p false) s2).reachDone r

/-- A reach run requested; a pending or running one takes it in (R326). -/
def State.requestReach (s : State) (r : Fin 4) : State :=
  if (s.reach r).calRun then s else (s.modReach r (fun x => { x with calPend := true })).startReach r

/-- A single-port run that starts: it waits while calibration is held and for a reflectometry run to end (R328, R340). -/
def State.runPort (s : State) (p : Fin 16) : State :=
  if (s.port p).cal.running then s
  else if s.calHeld || (s.port p).tdr.running then s.modCal p (fun c => { c with waits := true })
  else (s.modCal p (fun c => { c with waits := false })).startItems p true

/-- The calibration of PORT_ENABLE (R320): skipped while REF_FAULT stands (R424). -/
def State.enableRun (s : State) (p : Fin 16) : State := if s.cal.refFault then s else s.runPort p

/-- Every pending request started that may start (R329: HOLD to 0). -/
def State.startPending (s : State) : State :=
  let s1 := allReaches.foldl (fun (t : State) r => t.startReach r) s
  allPorts.foldl (fun (t : State) p => if (t.port p).cal.waits && !t.calHeld then t.runPort p else t) s1

/-! ### Judging a shadow set (R323 to R325, R327) -/

/-- The checks of R324 on the measured quantities; changes are in thousandths of the set in force. -/
def anchorOk (m : CalMeasure) : Bool := decide (1080 ≤ m.anchorUa10 ∧ m.anchorUa10 ≤ 1320)
def calPasses (m : CalMeasure) : Bool :=
  anchorOk m && decide (m.termPermille ≤ 20) && !m.termAtEnd && decide (64 ≤ m.cellsInLimit ∧ m.cellRmsPpm ≤ 10000)
    && decide (32 ≤ m.slicesInLimit) && m.comparatorsOk && decide (m.currentChange ≤ 50 ∧ m.gainChange ≤ 100)

/-- The outcome of the anchor behind a run (R325, R424): a pass clears REF_FAULT, the third failure in a row sets it. -/
def State.judgeAnchor (s : State) (ok : Bool) : State :=
  if ok then { s with cal := { s.cal with anchorFails := 0, refFault := false, anchorTick := some s.ticks } }
  else
    let n := s.cal.anchorFails + 1
    let s1 := { s with cal := { s.cal with anchorFails := n, refFault := s.cal.refFault || decide (3 ≤ n) } }
    if n = 3 then s1.raise 0x0040 6 0 1 else s1

/-- Spare cells 64 to 71 among the 64 selected, and spare slices 32 and 33 among the 32 active (R129, R145). -/
def spareCells (cells : List Bool) : Byte := maskOf 8 ((List.range 8).filter (fun i => cells.getD (64 + i) false))
def spareSlices (slices : List Bool) : BitVec 2 := maskOf 2 ((List.range 2).filter (fun i => slices.getD (32 + i) false))

/-- Exactly `k` of the first `n` places of a selection: places marked first, in order; a selection of `k` is kept as it is. -/
def pickExactly (k n : Nat) (l : List Bool) : List Bool :=
  let on := (List.range n).filter (fun i => l.getD i false)
  let chosen := (on ++ (List.range n).filter (fun i => !l.getD i false)).take k
  (List.range n).map (fun i => chosen.contains i)

/-- A set with 64 active cells of 72 and 32 active slices of 34 (R129, R145). -/
def calFit (c : CalSet) : CalSet := { c with cells := pickExactly 64 72 c.cells, slices := pickExactly 32 34 c.slices }

/-- A set put in force at a port (R129, R146): the updates of 64 symbols are skipped where the selection of slices changes. -/
def State.applySet (s : State) (p : Fin 16) (c : CalSet) : State :=
  s.modPort p (fun x => { x with
    cal := { x.cal with inForce := some c }
    tx := { x.tx with spares := spareCells c.cells }
    rx := { x.rx with
      adcSpare := spareSlices c.slices
      skip := if x.cal.inForce.map (·.slices) = some c.slices then x.rx.skip else 64 } })

/-- The factory override of R328. -/
def State.factoryOn (s : State) : Bool := bit (s.act (regKey 6 0x20)) 1

/-- A port's run has ended (R318, R323, R325, R327). -/
def State.finishRun (s : State) (p : Fin 16) (m : CalMeasure) : State :=
  let c := (s.port p).cal
  let r := reachOf p
  let s0 := (s.judgeAnchor (anchorOk m)).dropSlices p false
  let s1 :=
    if calPasses m then
      let (d, s2) := s0.draw
      let set : CalSet := { cells := m.cells, slices := m.slices, trims := [Config.freeWord d] }
      let s3 := s2.modCal p (fun x => { x with
        running := false, passed := some set, fails := 0, fault := false, retry := false
        dacRes := min 1023 m.dacRes, skewRes := min 1023 m.skewRes, eye := min 1000 m.eye })
      let s4 := if s3.factoryOn then s3 else s3.applySet p set
      { s4 with journal := { s4.journal with changed := true } }
    else
      let n := min 3 (c.fails + 1)
      let s2 := (s0.modCal p (fun x => { x with running := false, fails := n, fault := decide (3 ≤ n), retry := decide (n < 3) })).count 6 1 1
      if n = 3 ∧ c.fails < 3 then s2.raise 0x0040 6 p.val 0 else s2
  let s5 := if c.single && !(s1.reach r).firstDone then s1.modReach r (fun x => { x with tref := some c.startTemp, firstDone := true }) else s1
  (s5.calTell (some p) none (calPasses m)).reachDone r

/-- An anchor measurement that a request made while REF_FAULT stands (R424): the first that passes clears it, and what is
pending starts. -/
def State.anchorAlone (s : State) (p : Fin 16) (m : CalMeasure) : State :=
  if s.cal.refFault && ((s.reach (reachOf p)).calPend || (s.port p).cal.waits) then (s.judgeAnchor (anchorOk m)).startPending else s

/-- A slice's items are done (R321, R322): the next slice is placed, or the run ends with the apply step. -/
def State.sliceDone (s : State) (p : Fin 16) (m : CalMeasure) : State :=
  let c := (s.port p).cal
  if !c.running then s.anchorAlone p m
  else
    let i := fitItems calItems c.item (s.sliceUs * 10)
    if calItems ≤ i then s.finishRun p m
    else
      let r := reachOf p
      let s1 := s.modCal p (fun x => { x with item := i })
      let s2 := if c.single then s1 else s1.modReach r (fun x => { x with tempSum := x.tempSum + s.reachTemp r, tempN := x.tempN + 1 })
      if (s.port p).needsSlices then s2.placeSlice p false (!c.single) s.sliceUs else s2

/-- A whole run at once has ended (R320, R322). -/
def State.portRunDone (s : State) (p : Fin 16) (m : CalMeasure) : State := if (s.port p).cal.running then s.finishRun p m else s.anchorAlone p m

/-- The retry of a failed port (R325). -/
def State.retryRun (s : State) (p : Fin 16) : State :=
  let c := (s.port p).cal
  if c.retry && !c.fault then (s.modCal p (fun x => { x with retry := false })).runPort p else s

/-- MAX_WAIT has passed (R322): the remaining items run at once. -/
def State.maxWait (s : State) (p : Fin 16) : State :=
  if (s.port p).cal.running && decide (0 < fld (s.act (regKey 6 0x00)) 16 16) then (s.dropSlices p false).raise 0x0041 6 p.val else s

/-- A port's run abandoned and not counted (R326). -/
def State.abandonRun (s : State) (p : Fin 16) : State :=
  if (s.port p).cal.running then
    (((s.modCal p (fun x => { x with running := false, item := 0 })).dropSlices p false).calTell (some p) none false).reachDone (reachOf p)
  else s

/-- What a change of a port's link does to its calibration run (R322, R326): ENABLE cleared abandons it, a shift makes it
wait and restart, an end of a shift places its next slice, and with the link down its items run at once. -/
def State.calFollow (old s : State) (p : Fin 16) : State :=
  let was := (old.port p).link.state
  let now := (s.port p).link.state
  if old.enabled p && !s.enabled p then (s.modCal p (fun c => { c with waits := false, retry := false })).abandonRun p
  else if !(s.port p).cal.running || was == now then s
  else if now == .shift || !now.reached then s.dropSlices p false
  else if was == .shift then s.placeSlice p false (!(s.port p).cal.single) s.sliceUs
  else s

/-- Every run abandoned with its request pending again (R326: domain 240 off, an override write). -/
def State.abandonAll (s : State) (keep : Bool) : State :=
  let busy := allReaches.filter (fun r => (s.reach r).calRun)
  let s1 := allPorts.foldl (fun (t : State) p => (t.modCal p (fun x => { x with running := false, item := 0 })).dropSlices p false) s
  busy.foldl (fun (t : State) r => t.modReach r (fun x => { x with calRun := false, calPend := x.calPend || keep, tempSum := 0, tempN := 0 })) s1

/-! ### Writes of calibration registers (R329) -/

/-- The effect of a write of CAL_CTRL. -/
def State.calCtrlWritten (s : State) : State :=
  if bit (s.act (regKey 6 0x00)) 0 then s
  else allReaches.foldl (fun (t : State) r => t.modReach r (fun x => { x with calPend := false })) s

/-- The effect of an accepted write of CAL_OVR, from its value before (R326, R329). -/
def State.calOvrWritten (s : State) (old : Word) : State :=
  let s1 := s.abandonAll true
  let s2 := allPorts.foldl (fun (t : State) p =>
    if !t.enabled p then t
    else if t.factoryOn then t.applySet p (calFit (Config.factorySet p))
    else if bit old 1 then t.applySet p ((t.port p).cal.passed.getD (calFit (Config.factorySet p)))
    else t) s1
  s2.startPending

/-! ### The 1 ms sample (R317, R318, R431) -/

/-- Entry and leave thresholds of a thermal level in 1/16 °C. -/
def thermEnter : Nat → Int
  | 1 => 1840 | 2 => 2000 | _ => 2048
def thermLeave : Nat → Int
  | 1 => 1792 | 2 => 1952 | _ => 2000

/-- A sensor's level from its last four readings. -/
def levelOfSensor (old : Nat) (last : List Int) : Nat :=
  let on := fun (l : Nat) =>
    if l ≤ old then !(decide (last.length = 4) && last.all (fun t => decide (t ≤ thermLeave l)))
    else decide (last.length = 4) && last.all (fun t => decide (thermEnter l < t))
  if on 3 then 3 else if on 2 then 2 else if on 1 then 1 else 0

/-- Whether a reach sensor is replaced (R317): beyond 15 °C of the central one, until within 10 °C. -/
def substNow (old : Bool) (t c : Int) : Bool := if old then decide (160 < (t - c).natAbs) else decide (240 < (t - c).natAbs)

/-- The part level moved (R62, R431): THERMAL raised, and the ports taken down or let start again at level 3. -/
def State.thermalMove (s : State) (old : Nat) (sensor : Fin 5) : State :=
  let new := s.cal.level
  if new = old then s
  else
    let s1 := s.raise 0x0064 6 0 (wd (new + 16 * sensor.val)) (wdI (s.sensorTemp sensor))
    if new = 3 then allPorts.foldl (fun (t : State) p => t.holdDown p 11 false) s1
    else if old = 3 then allPorts.foldl (fun (t : State) p =>
      if (t.port p).link.state == .hold && (t.port p).link.downCause == 11 && (t.blocker p).isNone then t.startPort p else t) s1
    else s1

/-- Samples taken and readings formed. -/
def State.readTemps (s : State) (v : Vector Int 5) : State :=
  let samples := (v.toList :: s.cal.samples).take 16
  let temp := Vector.ofFn (fun (i : Fin 5) => meanOf (samples.map (fun l => l.getD i.val 0)))
  let s1 := { s with cal := { s.cal with samples := samples, temp := temp } }
  allReaches.foldl (fun (t : State) r => t.modReach r (fun x => { x with subst := substNow x.subst (t.cal.reading (r.castLE (by omega))) t.cal.central })) s1

/-- The thermal levels moved by the readings (R431). -/
def State.moveLevels (s : State) : State :=
  let lv := Vector.ofFn (fun (i : Fin 5) =>
    let (l, last) := s.cal.levels.get i
    let last' := (s.sensorTemp i :: last).take 4
    (levelOfSensor l last', last'))
  let new := (lv.toList.map (·.1)).foldl max 0
  let who := ((List.finRange 5).find? (fun i => (lv.get i).1 != (s.cal.levels.get i).1)).getD 4
  ({ s with cal := { s.cal with levels := lv, level := new } }).thermalMove s.cal.level who

/-- The temperature trigger of a reach (R318, R326). -/
def State.tempTrigger (s : State) (r : Fin 4) : State :=
  match (s.reach r).tref with
  | some t =>
    if bit (s.act (regKey 6 0x00)) 0 && decide (16 * fld (s.act (regKey 6 0x01)) 0 5 < (s.reachTemp r - t).natAbs)
        && !(s.reach r).calPend && !(s.reach r).calRun then s.requestReach r else s
  | none => s

/-- The 1 ms temperature sample (R317). -/
def State.sampleTemp (s : State) (v : Vector Int 5) : State :=
  allReaches.foldl State.tempTrigger ((s.readTemps v).moveLevels.startPending)

/-- One step of thermal level 2 (R431): the highest-numbered port in L50A shifts down to L25S, or to the highest lower mode
of its common set; a downshift in progress takes it in. -/
def State.thermalStep (s : State) : State :=
  if s.cal.level < 2 ∨ s.sup.pfailFrozen then s
  else
    match allPorts.reverse.find? (fun p => (s.port p).link.state == .loconUp && (s.port p).link.modeAct == some .l50a) with
    | some p =>
      match below (s.common p) .l50a with
      | m :: _ => s.trigger p m 0
      | [] => s
    | none => s

end Sys2Proof.Machine
end

