-- ==== Sys2Proof/Machine/DiagOps.lean ====
section
/-! DEFINITION. Reflectometry and cable watch (R330 to R343). -/

namespace Sys2Proof.Machine

/-! ### Register images of results (R341, R342) -/

/-- DG_TDR_STAT. -/
def Tdr.stat (t : Tdr) : Word :=
  put 24 8 t.seq.toNat ||| put 16 4 t.result ||| put 8 4 t.events.length ||| flag 7 t.overflow ||| flag 5 t.busy
    ||| flag 4 t.running ||| put 2 2 t.lenSrc

/-- Whether a reference counts for the partner of the port (R339). -/
def Port.refOk (x : Port) (r : Option WatchRef) : Bool :=
  match r with
  | some v => (match x.tow.partner with | some c => c.keyIdx == v.keyIdx && c.oui == v.oui | none => true)
  | none => false

/-- The figures in the bit order of WARN and ALARM: BULK, NOISE, LOSS, REFL. -/
def Watch.figs (w : Watch) : List WatchCount := [w.bulk, w.noise, w.loss, w.refl]

/-- Flags from bit `lo` upwards. -/
def flagsFrom (lo : Nat) (l : List Bool) : Word :=
  (l.zipIdx.map (fun (b, i) => flag (lo + i) b)).foldl (· ||| ·) 0

/-- DG_WATCH_STAT. -/
def Port.watchStat (x : Port) : Word :=
  flag 10 x.watch.capturing ||| flag 9 (x.refOk x.watch.refNarrow) ||| flag 8 (x.refOk x.watch.refWide)
    ||| flagsFrom 4 (x.watch.figs.map (·.alarm)) ||| flagsFrom 0 (x.watch.figs.map (·.warn))

/-- DG_WATCH_LOC. -/
def Watch.loc (w : Watch) : Word := put 16 16 w.dist.toNat ||| flag 6 w.susp ||| put 0 6 w.bin.toNat

/-- Result words of DIAG_TDR and DIAG_WATCH (R386). -/
def Tdr.words (t : Tdr) : List Word :=
  [t.stat, t.len.setWidth 32] ++ (List.range 8).map (fun i => t.events.getD i 0)
def Port.watchWords (x : Port) : List Word := [x.watchStat, x.watch.val, x.watch.loc]

/-! ### Reflectometry (R330 to R335, R340) -/

/-- The reflectometry record of a port changed. -/
def State.modTdr (s : State) (p : Fin 16) (f : Tdr → Tdr) : State := s.modPort p (fun x => { x with tdr := f x.tdr })

/-- The wait of a DIAG_TDR on a port. -/
def isTdr (p : Fin 16) : LongCmd → Bool
  | .diagTdr q => q == p.val
  | _ => false

/-- A run that is over (R331, R340): the transmitter ramps down, the port is DISABLED again, a waiting calibration runs. -/
def State.tdrOver (s : State) (p : Fin 16) : State :=
  let s1 := ((s.modTdr p (fun t => { t with running := false, burst := false })).txStop p).goLink p (fun l => { l with state := .disabled })
  if (s.port p).cal.waits then s1.runPort p else s1

/-- A run abandoned (R340): RESULT 4 for ENABLE, 5 for a fault. -/
def State.tdrAbandon (s : State) (p : Fin 16) (result : Nat) : State :=
  if (s.port p).tdr.running then
    ((s.modTdr p (fun t => { t with result := result })).tdrOver p).answerWait (isTdr p) 0x0703 []
  else s

/-- Port domains of a profile (R330). -/
def tdrDomains (wide : Bool) : List Nat := if wide then [0, 1, 2, 6] else [0, 1, 6]

/-- Whether a run of a PROFILE takes a profile: 01 narrow alone, 10 wide alone, else both. -/
def tdrTakes (prof : Nat) (wide : Bool) : Bool := if wide then prof != 1 else prof != 2

/-- A start (R330): ignored during a run; refused while ENABLE is 1; a port whose domains are forced off or that is in its
parity safe state gives the run up at once. -/
def State.tdrStart (s : State) (p : Fin 16) (prof avg thr : Nat) : State :=
  if (s.port p).tdr.running then s
  else if s.enabled p then s.modTdr p (fun t => { t with result := 3 })
  else
    let cfg := s.portReg p 0x71
    let s1 := s.modTdr p (fun t => { t with
      running := true, prof := prof, avg := clampN 4 8 avg, thr := clampN 2 100 thr, vf := fld cfg 16 10, dly := fld cfg 0 12
      wideNow := !tdrTakes prof false, listens := 0, busy := false, burst := false })
    let s2 := s1.goLink p (fun l => { l with state := .diag })
    if s.safeBlock (portBlock p.val) || (tdrDomains (tdrTakes prof true)).any (fun k => s.forcedOff (portDomain p k)) then s2.tdrAbandon p 5
    else s2

/-- A burst begins at the level of its profile (R330). -/
def State.tdrBurst (s : State) (p : Fin 16) (heard : Bool) : State :=
  let s1 := s.modTdr p (fun t => { t with burst := true, busy := t.busy || heard })
  (s1.setSwing p (if (s.port p).tdr.wideNow then 80 else 100)).txStart p

/-- A listen has ended (R331): a quiet line, or the fourth listen that heard power, starts the burst; else a further
listen follows. With both profiles, the listen after the narrow burst belongs to the wide profile. -/
def State.tdrListen (s : State) (p : Fin 16) (heard : Bool) : State :=
  let t := (s.port p).tdr
  if !t.running then s
  else
    let next := t.burst && !t.wideNow && tdrTakes t.prof true
    if t.burst && !next then s
    else
      let s1 := if next then (s.modTdr p (fun x => { x with burst := false, wideNow := true, listens := 0 })).txStop p else s
      let n := (s1.port p).tdr.listens + 1
      let s2 := s1.modTdr p (fun x => { x with listens := n })
      if !heard || decide (4 ≤ n) then s2.tdrBurst p heard else s2

/-- An event before it is typed: distance in 0.1 m, Γ, its profile, and the narrow Γ at its place. -/
structure TdrEvent where
  dist    : Nat
  gamma   : Int
  narrow  : Bool
  narrowG : Option Int
  deriving DecidableEq, Repr

/-- Round-trip delay of a peak from the origin, in thirds of a picosecond (R332): wide taps of 2/3 ns, narrow ones of 16 ns,
less twice NET_DLY. -/
def Tdr.delay3 (t : Tdr) (k : TdrPeak) : Int := (k.tap * (if k.narrow then 48 else 2) : Nat) - (6 * t.dly : Nat)

/-- Distance in 0.1 m of a delay, rounded (R332). -/
def Tdr.distance (t : Tdr) (d3 : Nat) : Nat := (t.vf * 299792458 * d3 + 3 * 10 ^ 14) / (6 * 10 ^ 14)

/-- The events of a profile (R332, R333): within its range, at or above the threshold and four times the rms. -/
def Tdr.eventsOf (t : Tdr) (narrow : Bool) (peaks : List TdrPeak) : List TdrEvent :=
  let fit := peaks.filter (fun k => k.narrow == narrow && k.overRms && decide (5 * t.thr ≤ k.gamma.natAbs) && decide (0 ≤ t.delay3 k)
    && (if narrow then decide (t.distance (t.delay3 k).toNat ≤ 4500) else decide (t.delay3 k < 1024 * 2000)))
  fit.map (fun k => ⟨t.distance (t.delay3 k).toNat, k.gamma, narrow, if narrow then some k.gamma else none⟩)

/-- Whether two events are closer than the merging distance of their profile (R332), in 0.1 m. -/
def TdrEvent.near (a b : TdrEvent) (lim : Nat) : Bool := decide (((a.dist : Int) - b.dist).natAbs < lim)

/-- Events of a profile in increasing distance, those too close taken as one with the larger Γ. -/
def mergeClose (lim : Nat) (l : List TdrEvent) : List TdrEvent :=
  (sortBy (fun (a b : TdrEvent) => decide (a.dist ≤ b.dist)) l).foldl (fun acc e =>
    match acc.getLast? with
    | some q => if q.near e lim then (if q.gamma.natAbs < e.gamma.natAbs then acc.dropLast ++ [e] else acc) else acc ++ [e]
    | none => [e]) []

/-- The nearest wide event within 4.0 m of a narrow one. -/
def nearestWide (wide : List TdrEvent) (n : TdrEvent) : Option Nat :=
  ((wide.filter (fun w => decide (((w.dist : Int) - n.dist).natAbs ≤ 40))).foldl (fun (b : Option Nat) w =>
    match b with
    | some d => if ((w.dist : Int) - n.dist).natAbs < ((d : Int) - n.dist).natAbs then some w.dist else some d
    | none => some w.dist) none)

/-- Both profiles together (R333): a narrow event at a wide one gives it its narrow Γ. -/
def joinEvents (wide narrow : List TdrEvent) : List TdrEvent :=
  let pairs := narrow.map (fun n => (n, nearestWide wide n))
  let wide' := wide.map (fun w =>
    match pairs.find? (fun e => e.2 == some w.dist) with
    | some (n, _) => { w with narrowG := some n.gamma }
    | none => w)
  sortBy (fun (a b : TdrEvent) => decide (a.dist ≤ b.dist)) (wide' ++ (pairs.filter (fun e => e.2.isNone)).map (·.1))

/-- TYPE of an event (R334); `last`: no event lies beyond it. -/
def TdrEvent.type (e : TdrEvent) (last : Bool) : Nat :=
  match e.narrowG with
  | some g =>
    if 200 ≤ g ∧ last then 1 else if g ≤ -200 ∧ last then 2 else if 0 < e.gamma then 3 else 4
  | none => if 0 < e.gamma then 3 else 4

/-- Every event with its type. -/
def typed (l : List TdrEvent) : List (TdrEvent × Nat) :=
  l.map (fun e => (e, e.type (l.all (fun x => decide (x.dist ≤ e.dist)))))

/-- The 8 events with the largest |Γ|, in increasing distance (R334). -/
def keepEight (l : List (TdrEvent × Nat)) : List (TdrEvent × Nat) :=
  sortBy (fun (a b : TdrEvent × Nat) => decide (a.1.dist ≤ b.1.dist))
    ((sortBy (fun (a b : TdrEvent × Nat) => decide (b.1.gamma.natAbs ≤ a.1.gamma.natAbs)) l).take 8)

/-- An event in the indirect window (R342). -/
def eventWord (e : TdrEvent × Nat) : Word :=
  put 16 16 (min 0xFFFF e.1.dist) ||| put 13 3 e.2 ||| flag 12 e.1.narrow ||| put 0 10 (min 1000 e.1.gamma.natAbs)

/-- Cable length and its source (R335). -/
def cableLength (l : List (TdrEvent × Nat)) : Nat × Nat :=
  match l.find? (fun e => e.2 == 1 || e.2 == 2), l.getLast? with
  | some e, _ => (1, e.1.dist)
  | none, some e => (2, e.1.dist)
  | none, none => (0, 0xFFFF)

/-- A run's response is computed (R331 to R335, R342): results replaced together, SEQ advanced. -/
def State.tdrDone (s : State) (p : Fin 16) (peaks : List TdrPeak) (wide narrow : List (BitVec 16)) : State :=
  let t := (s.port p).tdr
  if !t.running || !t.burst || (tdrTakes t.prof true && !t.wideNow) then s
  else
    let w := if tdrTakes t.prof true then mergeClose 3 (t.eventsOf false peaks) else []
    let n := if tdrTakes t.prof false then mergeClose 40 (t.eventsOf true peaks) else []
    let all := typed (joinEvents w n)
    let (src, len) := cableLength all
    let s1 := s.modTdr p (fun x => { x with
      seq := x.seq + 1, result := if x.busy then 2 else 1, overflow := decide (8 < all.length)
      lenSrc := src, len := BitVec.ofNat 16 (min 0xFFFF len), events := (keepEight all).map eventWord
      wide := if tdrTakes x.prof true then wide.take 1024 else [], narrow := if tdrTakes x.prof false then narrow.take 1024 else [] })
    let s2 := s1.tdrOver p
    s2.answerWait (isTdr p) stOk (s2.port p).tdr.words

/-! ### Cable watch (R336 to R340) -/

/-- The watch record of a port changed. -/
def State.modWatch (s : State) (p : Fin 16) (f : Watch → Watch) : State := s.modPort p (fun x => { x with watch := f x.watch })

/-- The reference of the profile that the mode in use is compared with (R338). -/
def Port.refNow (x : Port) : Option WatchRef := if x.inLchirp then x.watch.refNarrow else x.watch.refWide

/-- Whether an evaluation would be skipped for the link (R338). -/
def State.watchIdle (s : State) (p : Fin 16) (seen : Bool) : Bool :=
  let x := s.port p
  !seen || x.link.state != .loconUp || x.quiet.state != .active ||
    (match x.watch.quietTick with | some t => decide (s.ticks < t + secTicks 1) | none => true)

/-- One figure counted (R337): 10 above for the warning, 3 for the alarm, 100 at or below 0.8 of the field to clear. -/
def WatchCount.step (c : WatchCount) (v warn alarm : Nat) : WatchCount :=
  let wu := if warn < v then c.warnUp + 1 else 0
  let wd := if 10 * v ≤ 8 * warn then c.warnDown + 1 else 0
  let au := if alarm < v then c.alarmUp + 1 else 0
  let ad := if 10 * v ≤ 8 * alarm then c.alarmDown + 1 else 0
  { warn := if c.warn then decide (wd < 100) else decide (10 ≤ wu)
    alarm := if c.alarm then decide (ad < 100) else decide (3 ≤ au)
    warnUp := wu, warnDown := wd, alarmUp := au, alarmDown := ad }

/-- The state of a figure in WATCH_STATE (R392): 0 clear, 1 warning, 2 alarm. -/
def WatchCount.state (c : WatchCount) : Nat := if c.alarm then 2 else if c.warn then 1 else 0

/-- WATCH_STATE raised for a figure whose warning or alarm changed, once for each of the two (R337). -/
def State.watchEvent (s : State) (p : Fin 16) (fig : Nat) (old new : WatchCount) (v dist : Nat) : State :=
  let ev := fun (t : State) => t.raise 0x0042 (portBlock p.val) p.val (wd (fig + 256 * new.state)) (wd v) (if fig = 0 then wd dist else 0)
  let s1 := if old.warn != new.warn then ev s else s
  if old.alarm != new.alarm then ev s1 else s1

/-- The four figures' events, from the record before. -/
def State.watchEvents (s : State) (p : Fin 16) (o : Watch) (f : WatchFigures) : State :=
  let w := (s.port p).watch
  (((s.watchEvent p 0 o.refl w.refl f.refl f.reflDist).watchEvent p 1 o.loss w.loss f.loss 0).watchEvent p 2 o.noise w.noise f.noise 0).watchEvent
    p 3 o.bulk w.bulk f.bulk 0

/-- A capture begins, or waits for an evaluation that is not skipped (R339, R340). -/
def State.capture (s : State) (p : Fin 16) : State :=
  let x := s.port p
  let now := (x.link.state == .loconUp || x.link.state == .shift) && x.quiet.state == .active
  s.modWatch p (fun w => if now then { w with capturing := true, wantCapture := false } else { w with wantCapture := !w.capturing })

/-- A reference of another partner is reported once (R339). -/
def State.refCheck (s : State) (p : Fin 16) : State :=
  let x := s.port p
  if x.refNow.isSome && !x.refOk x.refNow then
    if x.watch.refTold then s
    else (s.modWatch p (fun w => { w with refTold := true })).raise 0x0043 (portBlock p.val) p.val (wd ((if x.inLchirp then 1 else 0) + 2))
  else s.modWatch p (fun w => { w with refTold := false })

/-- The 100 ms evaluation (R336 to R338). -/
def State.watchEval (s : State) (p : Fin 16) (seen : Bool) (f : WatchFigures) : State :=
  if !bit (s.portReg p 0x74) 0 then s
  else if s.watchIdle p seen then s.modWatch p (fun w => { w with susp := true })
  else
    let s0 := s.refCheck p
    let s1 := if (s0.port p).watch.wantCapture then s0.capture p else s0
    let x := s1.port p
    if !x.refOk x.refNow then s1.modWatch p (fun w => { w with susp := true })
    else
      let wn := s.portReg p 0x75
      let al := s.portReg p 0x76
      let s2 := s1.modWatch p (fun w => { w with
        susp := false
        refl := w.refl.step f.refl (fld wn 24 8) (fld al 24 8)
        loss := w.loss.step f.loss (fld wn 16 8) (fld al 16 8)
        noise := w.noise.step f.noise (fld wn 8 8) (fld al 8 8)
        bulk := w.bulk.step f.bulk (fld wn 0 8) (fld al 0 8)
        val := put 24 8 (min 255 f.refl) ||| put 16 8 (min 255 f.loss) ||| put 8 8 (min 255 f.noise) ||| put 0 8 (min 255 f.bulk)
        dist := BitVec.ofNat 16 (min 0xFFFF f.reflDist), bin := f.lossBin })
      s2.watchEvents p x.watch f

/-- Automatic capture (R339): AUTO_REF 1, no valid reference, 10 s of link without a shift. -/
def State.autoCapture (s : State) (p : Fin 16) : State :=
  let x := s.port p
  let long := match x.watch.quietTick with | some t => decide (t + secTicks 10 ≤ s.ticks) | none => false
  if bit (s.portReg p 0x74) 1 && x.link.state == .loconUp && !x.refOk x.refNow && !x.watch.capturing && long then s.capture p else s

/-- The wait of a DIAG_WATCH capture on a port. -/
def isWatch (p : Fin 16) : LongCmd → Bool
  | .diagWatch q => q == p.val
  | _ => false

/-- A capture is complete (R339): the mean of 1,000 soundings of the profile in use becomes its reference. -/
def State.captureDone (s : State) (p : Fin 16) (x : Sounding) : State :=
  let t := s.port p
  if !t.watch.capturing || t.link.state != .loconUp || x.wide == t.inLchirp then s
  else
    let r : WatchRef := { snd := x, swing := t.tx.swing
                          keyIdx := (match t.tow.partner with | some c => c.keyIdx | none => 0xFF)
                          oui := (match t.tow.partner with | some c => c.oui | none => 0) }
    let s1 := s.modWatch p (fun w => if x.wide then { w with capturing := false, refWide := some r, refTold := false }
      else { w with capturing := false, refNarrow := some r, refTold := false })
    let s2 := { s1 with journal := { s1.journal with changed := true } }
    let s3 := s2.raise 0x0043 (portBlock p.val) p.val (if x.wide then 0 else 1)
    s3.answerWait (isWatch p) stOk (s3.port p).watchWords

/-- Both references discarded, a capture abandoned (R340, R341). -/
def State.clearRef (s : State) (p : Fin 16) : State :=
  let s1 := s.modWatch p (fun w => { w with capturing := false, wantCapture := false, refWide := none, refNarrow := none })
  { s1 with journal := { s1.journal with changed := true } }

/-- A DIAG_WATCH capture has not ended within 60 s (R386). -/
def State.captureLate (s : State) (p : Fin 16) : State := s.answerWait (isWatch p) stTimeout []

/-- The effect of a write of DG_WATCH_CTRL, from its value before (R343): EN to 0 clears the states at once, EN to 1
begins with counts at 0. -/
def State.watchCtrlWritten (s : State) (p : Fin 16) (old : Word) : State :=
  if bit old 0 == bit (s.portReg p 0x74) 0 then s
  else
    let o := (s.port p).watch
    let s1 := s.modWatch p (fun w => { w with refl := {}, loss := {}, noise := {}, bulk := {} })
    s1.watchEvents p o { refl := fld o.val 24 8, loss := fld o.val 16 8, noise := fld o.val 8 8, bulk := fld o.val 0 8
                         reflDist := o.dist.toNat, lossBin := o.bin }

end Sys2Proof.Machine
end

