-- ==== Sys2Proof/Machine/KeeperOps.lean ====
section
/-! DEFINITION. The keeper (R372 to R379, R384, R426), the key store (R416, R417) and the journal (R432 to R434). -/

namespace Sys2Proof.Machine

/-! ### Ownership (R362, R363, R384) -/

/-- Whether the keeper owns a block. -/
def Keeper.owns (k : Keeper) (b : Nat) : Bool :=
  if 2 ≤ b ∧ b ≤ 6 then k.owner.getLsbD b
  else if 8 ≤ b ∧ b ≤ 0x0B then k.owner.getLsbD b
  else if 0x10 ≤ b ∧ b ≤ 0x1F then k.owner.getLsbD b
  else if 0x20 ≤ b ∧ b ≤ 0x27 then k.ownerHl.getLsbD (b - 0x20)
  else false

/-- The bits of KP_OWNER and KP_OWNER_HL after a block is taken: a block's bit is its own number. -/
def Keeper.mark (k : Keeper) (b : Nat) : Keeper :=
  if 0x20 ≤ b then { k with ownerHl := setBit k.ownerHl (b - 0x20) true } else { k with owner := setBit k.owner b true }

/-- A block taken (R384): the keeper adopts the registers in force as its copy. -/
def State.ownOne (s : State) (b : Nat) : State :=
  if s.keeper.owns b then s
  else
    let k := s.keeper.mark b
    let mine := (s.regs.filter (fun e => e.1 / 256 == b)).foldl (fun (t : List (Nat × Word)) e => tabIns t e.1 e.2)
      (k.copy.filter (fun e => e.1 / 256 != b))
    { s with keeper := { k with copy := mine } }

/-- Blocks taken in turn. -/
def State.own (s : State) (bs : List Nat) : State := bs.foldl State.ownOne s

/-- The blocks that HELLO with TAKE_ALL takes (R384). -/
def takeAll : List Nat := [2, 3, 4, 5, 6] ++ (List.range 4).map reachBlock ++ (List.range 16).map portBlock ++ (List.range 8).map laneBlock

/-- The keeper's copy of a register. -/
def State.keeperCopy (s : State) (key : Nat) : Word := tabGet (rstWord s.otp key) s.keeper.copy key

/-- The keeper's copy follows a write of its own to a block that it owns. -/
def State.noteCopy (s : State) (key : Nat) : State :=
  if s.keeper.owns (key / 256) then
    { s with keeper := { s.keeper with copy := tabPut (rstWord s.otp key) s.keeper.copy key (s.reg key) } }
  else s

/-! ### Control-plane reset (R51, R373, R374, R426) -/

/-- Whether the keeper is out of reset, so that its watchdog and comparator run. -/
def Keeper.out (k : Keeper) : Bool := k.mode == .loading || k.mode == .running || k.mode == .romWait || k.mode == .restarting

/-- A busy channel answered RESTARTED (R374 step 2). -/
def State.restartChan (s : State) (c : Fin 16) : State := if (s.chan c).busy then s.answer c stRestarted [] else s

/-- A control-plane reset (R374): busy channels answered, the keeper's pending work dropped, its cores restarting; a third
within 10 s holds the keeper (R426). While the boot ROM loads there is no resident image: it loads again, and KEEPER_RESTART is
raised at once (DESIGN CHOICE, notes/assumptions/58.md). -/
def State.controlPlane (s : State) (cause : Nat) : State :=
  if !s.keeper.out then s
  else
    let s1 := allChans.foldl State.restartChan s
    let recent := s.keeper.times.filter (fun t => decide (s.ticks < t + secTicks 10))
    let hold := decide (2 ≤ recent.length)
    let n := satAdd 0xFFFF s.keeper.restarts 1
    let s2 := { s1 with
      keeper := { s1.keeper with mode := if hold then .held else if s.keeper.mode == KeeperMode.loading then .loading else .restarting
                                 restarts := n, cause := cause
                                 times := s.ticks :: recent, fw := { s1.keeper.fw with next := none, resetDue := false } }
      kpi := { s1.kpi with guard := .idle }
      journal := { s1.journal with writing := none, changed := s1.journal.changed || s1.journal.writing.isSome }
      time := { s1.time with setWait := [], learns := [] }
      ports := s1.ports.map (fun (x : Port) => { x with remIn := [] }) }
    let s3 := s2.count 1 2 1
    if hold then ({ s3 with keeper := { s3.keeper with lastCause := cause } }.raise 0x0002 1 0 (wd cause)).raise 0x0062 1 0 (wd n)
    else if s.keeper.mode == .loading then { s3 with keeper := { s3.keeper with lastCause := cause } }.raise 0x0002 1 0 (wd cause)
    else s3

/-- A keeper fault (R372, R373): a control-plane reset, while the keeper is out of reset. -/
def State.keeperFault (s : State) (cause : Nat) : State := if s.keeper.out then s.controlPlane cause else s

/-- The restarted firmware serves again (R374 steps 4 and 5): its copy is the registers in force, and a parity fault of its
own block is rewritten. -/
def State.restartDone (s : State) : State :=
  if s.keeper.mode ≠ .restarting then s
  else
    let k := s.keeper
    let mine := s.regs.filter (fun e => k.owns (e.1 / 256))
    let s1 := { s with
      keeper := { k with mode := if k.slot = 3 then .romWait else .running, lastCause := k.cause, copy := mine, parityHit := false }
      parity := s.parity.filter (fun e => e / 256 != 1) }
    s1.raise 0x0002 1 0 (wd k.cause)

/-! ### Boot (R20, R376 to R378) -/

/-- Whether an image is valid (R377, R435). -/
def State.imageOk (s : State) (m : ImageReport) : Bool :=
  m.answered && m.magicOk && decide (m.length + 256 ≤ 524288) && s.otp.keyHash && m.keyHashOk && m.sigOk && m.auzer == 3

/-- The BOOT_ERR code of an image that is not valid (R393). -/
def State.imageErr (s : State) (m : ImageReport) : Nat :=
  if !m.answered then 5 else if !m.magicOk then 1 else if 524288 < m.length + 256 then 4
  else if !s.otp.keyHash || !m.keyHashOk then 2 else if !m.sigOk then 3 else 1

/-- The code that BOOT_ERR records of two slots without a valid image: the more specific of the two, slot A's first. -/
def State.bootErrOf (s : State) (a b : ImageReport) : Nat :=
  let x := s.imageErr a
  let y := s.imageErr b
  if x ≠ 1 ∧ x ≠ 5 then x else if y ≠ 1 ∧ y ≠ 5 then y else if x = 5 ∧ y = 5 then 5 else 1

/-- The keeper released from reset (R20, R55 step 5): it loads its image, waits for one, or is held for board test. -/
def State.releaseKeeper (s : State) : State :=
  let m : KeeperMode := if s.sup.bootSel = 3 then .boardTest else if s.sup.bootSel = 2 then .romWait else .loading
  { s with keeper := { s.keeper with mode := m, slot := 3, version := 0, bootErr := 0 } }

/-- What a valid slot holds: what this part wrote into it, when its SEQ is that one. -/
def Journal.slotBody (j : Journal) (yarrow : Bool) (seq : Word) : Option JournalBody :=
  match (if yarrow then j.yarrow else j.campion) with
  | some (q, b) => if q = seq then some b else none
  | none => none

/-- The calibration set that a slot holds for a port. -/
def Journal.slotSet (j : Journal) (yarrow : Bool) (seq : Word) (p : Fin 16) : Option CalSet :=
  match j.slotBody yarrow seq with
  | some b => (b.sets.find? (fun e => e.1 == p.val)).map (·.2)
  | none => (Config.journalSet yarrow seq p).map calFit

/-- Cable-watch references put back where none stands (R339). -/
def State.restoreRefs (s : State) (b : JournalBody) : State :=
  b.refs.foldl (fun (t : State) e => t.modWatch (portNo e.1) (fun w => { w with
    refWide := w.refWide.or e.2.1, refNarrow := w.refNarrow.or e.2.2 })) s

/-- Link-down records put back where none stands (R432). -/
def State.restoreDowns (s : State) (b : JournalBody) : State :=
  b.downs.foldl (fun (t : State) e => t.modLink (portNo e.1) (fun l => { l with downLog := if l.downLog.isEmpty then e.2 else l.downLog })) s

/-- The initial calibration sets (R320): the journal's when it holds one, else the factory's. -/
def State.initialSets (s : State) (from_ : Fin 16 → Option CalSet) : State :=
  allPorts.foldl (fun (t : State) p =>
    if (t.port p).cal.inForce.isSome then t
    else
      let t1 := t.modCal p (fun c => { c with passed := from_ p })
      t1.applySet p ((from_ p).getD (calFit (Config.factorySet p)))) s

/-- The journal taken at boot (R433): the valid slot with the higher SEQ, Campion when they are equal. -/
def State.restoreJournal (s : State) (campion yarrow : Option Word) : State :=
  let pick : Option (Bool × Word) := match campion, yarrow with
    | some a, some b => if a.toNat < b.toNat then some (true, b) else some (false, a)
    | some a, none => some (false, a)
    | none, some b => some (true, b)
    | none, none => none
  let s1 := { s with journal := { s.journal with taken := pick } }
  match pick with
  | some (y, seq) =>
    let s2 := s1.initialSets (s.journal.slotSet y seq)
    let s3 := match s.journal.slotBody y seq with | some b => (s2.restoreRefs b).restoreDowns b | none => s2
    s3.raise 0x0065 1 0 2 seq (if y then 1 else 0)
  | none => (s1.initialSets (fun _ => none)).raise 0x0065 1 0 3

/-- An image started (R55 step 6, R52): firmware serves, SAFE_N is released, the journal is restored. -/
def State.startImage (s : State) (slot : BitVec 2) (m : ImageReport) (campion yarrow : Option Word) : State :=
  ({ s with keeper := { s.keeper with mode := .running, slot := slot, version := m.version, bootErr := 0, fw := {} }
            sup := { s.sup with safeN := true } }).restoreJournal campion yarrow

/-- The boot ROM's choice (R377): the valid slot with the higher VERSION, A when they are equal; with none it waits. -/
def State.bootChoose (s : State) (a b : ImageReport) (j : JournalReport) : State :=
  if s.keeper.mode ≠ .loading then s
  else
    match s.imageOk a, s.imageOk b with
    | true, true => if a.version.toNat < b.version.toNat then s.startImage 1 b j.campion j.yarrow else s.startImage 0 a j.campion j.yarrow
    | true, false => s.startImage 0 a j.campion j.yarrow
    | false, true => s.startImage 1 b j.campion j.yarrow
    | false, false => { s with keeper := { s.keeper with mode := .romWait, bootErr := s.bootErrOf a b } }

/-! ### The key store (R416, R417) -/

/-- The key of an index. -/
def KeyStore.key? (k : KeyStore) (i : Nat) : Option (BitVec 128) := (k.keys.find? (fun e => e.1 == i)).map (·.2)

/-- A key written; any load clears ZERO_OK. -/
def KeyStore.load (k : KeyStore) (i : Nat) (v : BitVec 128) : KeyStore := { k with keys := tabIns k.keys i v, zeroOk := false }

/-- The identity key loaded from OTP, if it is programmed and the store has no fault. -/
def State.loadIdentity (s : State) : State :=
  if s.otp.identity && !s.keys.fault && !s.keys.identity then { s with keys := { s.keys with identity := true, zeroOk := false } } else s

/-- Whether an index is in use by a port whose link is up. -/
def State.keyInUse (s : State) (i : Nat) : Bool :=
  allPorts.any (fun p => (s.port p).tow.keyInUse == some i && (s.port p).link.state.reached)

/-- KEY_LOAD carried out (R417). -/
def State.putKey (s : State) (c : Fin 16) (i : Nat) (key : Option (BitVec 128)) : State :=
  if s.keyInUse i then s.answer c 0x0502 []
  else
    match (if s.otp.kek then key else none) with
    | some v => ({ s with keys := s.keys.load i v }).answer c stOk []
    | none => ({ s with keys := { s.keys with unwrapFail := satAdd 0xFFFF s.keys.unwrapFail 1 } }).answer c 0x0501 []

/-- KEY_ERASE carried out: one index, or every one. -/
def State.eraseKey (s : State) (c : Fin 16) (i : Nat) : State :=
  if i = 0xFF then
    if (List.range 64).any s.keyInUse then s.answer c 0x0502 []
    else ({ s with keys := { s.keys with keys := [] } }).answer c stOk []
  else if s.keyInUse i then s.answer c 0x0502 []
  else if (s.keys.key? i).isNone then s.answer c 0x0503 []
  else ({ s with keys := { s.keys with keys := tabDel s.keys.keys i } }).answer c stOk []

/-- The KEY_LOADs that wait, in channel order: turn, channel, index and key. -/
def State.keyTurns (s : State) : List (Nat × Fin 16 × Nat × Option (BitVec 128)) :=
  allChans.filterMap (fun c => match (s.chan c).work with | some (.keyLoad i k n) => some (n, c, i, k) | _ => none)

/-- The KEY_LOADs that waited for a zeroising (R417) or for domain 243, served in the order of their doorbells (R383). -/
def State.waitingKeys (s : State) : State :=
  if s.forcedOff 243 then s
  else (sortBy (fun a b => decide (a.1 ≤ b.1)) s.keyTurns).foldl (fun (t : State) e => t.putKey e.2.1 e.2.2.1 e.2.2.2) s

/-- Every port whose KEY_IDX names an index goes down with cause 5 after zeroising (R417). -/
def State.dropKeyed (s : State) : State :=
  allPorts.foldl (fun (t : State) p =>
    match (t.port p).link.state with
    | .disabled | .hold | .diag => t
    | _ => if (keyIdxAct (t.portReg p 0x20)).isSome then t.linkDown p 5 else t) s

/-- Zeroising that has ended. -/
def State.zeroDone (s : State) (ok : Bool) (cause : Nat) (cycled : Bool) : State :=
  let s1 := { s with keys := { s.keys with zeroising := none, zeroOk := ok, fault := s.keys.fault || !ok } }
  let s2 := if ok then s1.raise 0x0056 0 0 (wd cause) (if cycled then 1 else 0) else s1.raise 0x0057 0 0
  (s2.dropKeyed).waitingKeys

/-- Zeroising (R417): every word written 0 and read back; on a mismatch the domain's power is opened for 1 ms first. One
that is already running takes the request in. -/
def State.zeroise (s : State) (cause : Nat) (ok : Bool) : State :=
  if s.keys.zeroising.isSome then s
  else
    let s1 := { s with keys := { s.keys with keys := [], identity := false, zeroOk := false, zeroising := some cause
                                             zeroCnt := satAdd 0xFFFF s.keys.zeroCnt 1 } }
    if ok then s1.zeroDone true cause false else s1

/-- The second attempt, after 1 ms without power. -/
def State.zeroiseAgain (s : State) (ok : Bool) : State :=
  match s.keys.zeroising with
  | some c => s.zeroDone ok c true
  | none => s

/-! ### The journal (R434) -/

/-- What a commit saves (R432). -/
def State.journalBody (s : State) : JournalBody :=
  { sets := allPorts.filterMap (fun p => (s.port p).cal.passed.map (fun c => (p.val, c)))
    trefs := allReaches.filterMap (fun r => (s.reach r).tref.map (fun t => (r.val, t)))
    queues := s.basin.queues
    cads := s.time.cads
    refs := allPorts.map (fun p => (p.val, (s.port p).watch.refWide, (s.port p).watch.refNarrow))
    downs := allPorts.map (fun p => (p.val, (s.port p).link.downLog)) }

/-- The slot and SEQ that a commit writes: SEQ + 1 into the slot not taken. With no slot taken the manual states neither,
and both are free values. -/
def State.journalTarget (s : State) : (Bool × Word) × State :=
  match s.journal.taken with
  | some (y, q) => ((!y, q + 1), s)
  | none =>
    let (d, s1) := s.draw
    let (e, s2) := s1.draw
    (((Config.freeWord d).getLsbD 0, Config.freeWord e), s2)

/-- A commit starts (R434): step 1 erases the commit sector of the target slot, so that slot is invalid from here on. -/
def State.startCommit (s : State) (auto_ : Bool) : State :=
  let (t, s1) := s.journalTarget
  { s1 with journal := { s1.journal with
      writing := some auto_, target := t, body := s1.journalBody, changed := false
      campion := if t.1 then s1.journal.campion else none
      yarrow := if t.1 then none else s1.journal.yarrow } }

/-- The automatic commit (R434): a change waits, 10 s have passed since the last one, and no three in a row have failed. -/
def State.autoCommit (s : State) : State :=
  let j := s.journal
  let late := match j.lastTick with | some t => decide (t + secTicks 10 ≤ s.ticks) | none => true
  if s.keeper.mode == .running && j.changed && j.writing.isNone && late && decide (j.failRun < 3) && !s.sup.pfailFrozen then s.startCommit true
  else s

/-- The wait of a JOURNAL_COMMIT. -/
def isCommit : LongCmd → Bool
  | .journalCommit => true
  | _ => false

/-- A commanded commit that had to wait is started. -/
def State.nextCommit (s : State) : State :=
  if (s.waiting isCommit).isSome && s.journal.writing.isNone && !s.sup.pfailFrozen then s.startCommit false else s

/-- A commit has ended (R434). -/
def State.commitDone (s : State) (ok : Bool) : State :=
  let j := s.journal
  match j.writing with
  | none => s
  | some auto_ =>
    let (y, seq) := j.target
    let slot : Word := if y then 1 else 0
    let s1 :=
      if ok then
        ({ s with journal := { j with
            writing := none, taken := some (y, seq), failRun := 0, lastTick := some s.ticks
            campion := if y then j.campion else some (seq, j.body)
            yarrow := if y then some (seq, j.body) else j.yarrow } }).raise 0x0065 1 0 0 seq slot
      else
        ({ s with journal := { j with
            writing := none, changed := true, lastTick := some s.ticks
            failRun := if auto_ then j.failRun + 1 else j.failRun } }).raise 0x0065 1 0 1 seq slot
    let s2 := if auto_ then s1 else if ok then s1.answerWait isCommit stOk [seq, slot] else s1.answerWait isCommit 0x0601 []
    s2.nextCommit

end Sys2Proof.Machine
end

