-- ==== Sys2Proof/Machine/SupOps.lean ====
section
/-! DEFINITION. The supervisor: supplies, REFCLK qualification, PLLs and multiplexers, resets, start-up, power loss, test
enable and forced-off domains (R16, R19, R30 to R62, R423, R425, R428, R429, R456). -/

namespace Sys2Proof.Machine

/-! ### Resets (R51, R53) -/

/-- The supervisor's record after a hard reset: the levels of its pins, the straps and the cause are kept. -/
def Supervisor.hard (u : Supervisor) (cause : Nat) (rails : BitVec 8) : Supervisor :=
  { stage := .hardReset, resetN := u.resetN, pfailN := u.pfailN, testEn := u.testEn, suppliesGood := u.suppliesGood
    tripped := u.tripped, bootSel := u.bootSel, mdioAddr := u.mdioAddr, cause := some (cause, rails), testHeld := u.testHeld }

/-- What hard reset leaves of the journal: what the flash holds. -/
def Journal.flash (j : Journal) : Journal := { campion := j.campion, yarrow := j.yarrow }

/-- Hard reset (R51): everything is cleared but OTP, the straps, the levels of the input pins and what lies outside the part;
the model's own counters go on. The boundary-scan controller is cleared with the rest, so TDO is high-impedance (R13). -/
def State.hardReset (s : State) (cause : Nat) (rails : BitVec 8) : State :=
  { pending := s.pending, ticks := s.ticks, draws := s.draws, die := s.die, otp := s.otp
    sup := s.sup.hard cause rails, journal := s.journal.flash }

/-- A halted start-up (R16, R34): everything past the supervisor is held in reset or powered off. The supervisor, block 0x00,
which it serves, the interfaces and the boundary-scan controller stay, and so does ZERO_OK, with no load since; no reset cause
is recorded. -/
def State.halt (s : State) : State :=
  { pending := s.pending, ticks := s.ticks, draws := s.draws, die := s.die, otp := s.otp, tap := s.tap
    sup := { s.sup with stage := .halted, safeN := false, softAfterRef := false }
    regs := s.regs.filter (fun e => decide (e.1 / 256 = 0)), spi := s.spi, mon := s.mon
    gdAbort := s.gdAbort, gdMismatch := s.gdMismatch, gdBare := s.gdBare, crcErr := s.crcErr, frameErr := s.frameErr
    keys := { zeroOk := s.keys.zeroOk }, journal := s.journal.flash }

/-- What a chip soft reset leaves of a port, whose transmitter is ramping down (R134): retry window and custody state, sets in force, faulty-element marks and the
counts kept since hard reset (R51, R216, R341, R412). -/
def Port.soft (x : Port) : Port :=
  { snd := { x.snd with synced := false, gateRx := 0, lastBlock := none, codeword := [] }
    rcv := { x.rcv with nacks := [], highest := none }
    cal := { inForce := x.cal.inForce, passed := x.cal.passed }
    test := { badSlices := x.test.badSlices, badCells := x.test.badCells }
    tx := { spares := x.tx.spares, on := x.tx.on, ramp := x.tx.ramp, swing := x.tx.swing, swingAdj := x.tx.swingAdj }
    rx := { adcSpare := x.rx.adcSpare }
    link := { downs16 := x.link.downs16, shifts16 := x.link.shifts16, downLog := x.link.downLog }
    stopped := x.stopped }

/-- The banks after a chip soft reset: a copy is abandoned, a bank under test is a spare again. -/
def softBank (u : BankUse) : BankUse :=
  match u with
  | .copying _ l => .inService l
  | .receiving _ => .spare
  | .underTest => .spare
  | u => u

/-- Registers that a chip soft reset keeps: CK_ and PD_ (R51). -/
def keptKey (key : Nat) : Bool := decide (key / 256 = 0) && decide (key % 256 ≤ 0x1F)

/-- What a chip soft reset leaves once the transmitters ramp down (R51, R52, R366): logic and configuration cleared but for
the supervisor, straps, CK_ and PD_ registers, the basin stores and the time unit's count. `wipe`: the basin is rewritten too
(R413). -/
def State.softLeft (s : State) (cause : Nat) (wipe : Bool) : State :=
  let qs := s.basin.queues.map (fun (q : Queue) => { q with timer := none, move := none, qflow := false })
  let basin : Basin :=
    if wipe then { banks := s.basin.banks.map softBank }
    else { s.basin with banks := s.basin.banks.map softBank, queues := qs, hopGate := none, lineShort := 0, ctrlOut := []
                        tickets := s.basin.tickets.map (fun (t : Ticket) =>
                          if !t.outbound && t.state == .sent then { t with resend := true } else t) }
  { pending := s.pending, ticks := s.ticks, draws := s.draws, die := s.die, otp := s.otp, tap := s.tap
    regs := s.regs.filter (fun e => keptKey e.1), parity := s.parity.filter keptKey, mended := s.mended.filter keptKey
    sup := { s.sup with cause := some (cause, 0), softLock := true, safeN := false, lbistDone := none, pfailFrozen := s.sup.pfailFrozen }
    clk := s.clk, dom := s.dom, gdAbort := s.gdAbort, gdMismatch := s.gdMismatch, gdBare := s.gdBare
    crcErr := s.crcErr, frameErr := s.frameErr
    monitor := { baud := s.monitor.baud }
    ports := if wipe then s.ports.map (fun (x : Port) => { x.soft with snd := { w := x.snd.w }, rcv := { session := x.rcv.session } }) else s.ports.map Port.soft
    basin := basin
    time := { now := s.time.now, fifths := s.time.fifths }
    keeper := { restarts := s.keeper.restarts, lastCause := s.keeper.lastCause, ownCnt := s.keeper.ownCnt }
    test := { passes := s.test.passes, fails := s.test.fails, lbRuns := s.test.lbRuns, lbResult := s.test.lbResult }
    keys := s.keys
    journal := { s.journal.flash with changed := s.journal.changed || s.journal.writing.isSome } }

/-- The identity key is loaded into a store that is verified empty or holds none, and the keeper leaves reset (R55 step 5). -/
def State.restartKeeper (s : State) : State :=
  (if s.keys.zeroOk || s.keys.keys.isEmpty then s.loadIdentity else s).releaseKeeper

/-- Chip soft reset (R51, R52, R366): every transmitter ramps down (R134) and everything is cleared but what `softLeft` keeps;
from step 5 of start-up on the keeper restarts from boot ROM. -/
def State.softReset (s : State) (cause : Nat) (wipe : Bool) : State :=
  let s1 := (allPorts.foldl (fun (t : State) p => t.silence p false) s).softLeft cause wipe
  if s1.sup.stage == .released then s1.restartKeeper else s1

/-- Port reset (R51): DSP, training and framing state cleared, the port down with cause 13 and starting again under its
policy; the retry window and the custody state stay. -/
def State.portReset (s : State) (p : Fin 16) : State :=
  let s1 := (s.tdrAbandon p 5).takeDown p 13
  s1.modPort p (fun x => { x with
    rx := { adcSpare := x.rx.adcSpare }
    dmt := {}
    tx := { x.tx with scr := 0, descr := 0, memory := 0, levels := [], past := [], rest := [], train := none }
    tow := { nonce := x.tow.nonce, oldNonce := none, keyInUse := x.tow.keyInUse }
    snd := { x.snd with codeword := [], lastBlock := none } })


/-! ### The safe state (R47, R425) -/

/-- The safe-state sequence begins (R47): every line transmitter ramps down, the host lanes stop; SAFE_N follows. -/
def State.safeState (s : State) : State :=
  let s1 := allPorts.foldl (fun (t : State) p => t.txStopShort p) s
  let s2 := { s1 with lanes := s1.lanes.map (fun (l : Lane) => { l.restart .off with cause := l.cause }) }
  { s2 with sup := { s2.sup with stage := .refclkLost, safeSeq := true } }

/-- The safe-state sequence is complete (R46, R47): SAFE_N low, PLLs still in holdover switched off. -/
def State.safeDone (s : State) : State :=
  if !s.sup.safeSeq then s
  else
    let off := fun (r : PllRec) => if r.mode == .holdover then ({} : PllRec) else r
    { s with sup := { s.sup with safeSeq := false, safeN := false }
             clk := { s.clk with core := off s.clk.core, host := off s.clk.host, reach := s.clk.reach.map off, holdover := false } }

/-! ### PLLs and multiplexers (R45 to R50) -/

/-- One PLL's record. -/
def Clocks.pll (c : Clocks) (k : Pll) : PllRec :=
  match k with | .core => c.core | .host => c.host | .reach r => c.reach.get r

/-- One PLL's record changed. -/
def Clocks.setPll (c : Clocks) (k : Pll) (v : PllRec) : Clocks :=
  match k with | .core => { c with core := v } | .host => { c with host := v } | .reach r => { c with reach := c.reach.set r.val v r.isLt }

/-- `CK_STAT.HOLDOVER` falls when no PLL is left in holdover (R46). -/
def Clocks.sync (c : Clocks) : Clocks :=
  { c with holdover := (c.core :: c.host :: c.reach.toList).any (fun r => r.mode == .holdover) }

/-- One multiplexer's record, by PLL or by multiplexer. -/
def Clocks.setMux (c : Clocks) (m : Mux) (v : MuxRec) : Clocks :=
  match m with | .core => { c with muxCore := v } | .host => { c with muxHost := v } | .spine r => { c with muxSpine := c.muxSpine.set r.val v r.isLt }

/-- The multiplexer that a PLL feeds. -/
def muxOf : Pll → Mux
  | .core => .core | .host => .host | .reach r => .spine r

/-- Ports of a reach down with cause 14 (R423 row 16). -/
def State.reachDown (s : State) (r : Fin 4) : State := (portsOf r).foldl (fun (t : State) p => t.holdDown p 14 false) s

/-- The PCS and FEC state of a lane cleared (R48, R51): what a host-lane reset clears beside the lane's loss. -/
def State.laneCleared (s : State) (n : Fin 8) (cause : Nat) : State :=
  (s.loseLane n cause).modLane n (fun l => { l with fecCorr := 0, fecUncorr := 0 })

/-- The host multiplexer's local reset (R48, R423 row 17): all eight lanes as if by a host-lane reset; those that are up are
lost with the cause given. -/
def State.lanesDown (s : State) (cause : Nat) : State := allLanes.foldl (fun (t : State) n => t.laneCleared n cause) s

/-- Lane reset (R51, R270): a lane that is up is lost with cause 6 and starts again. -/
def State.laneReset (s : State) (n : Fin 8) : State := s.laneCleared n 6

/-- Ports that a reason kept in HOLD start again once nothing else holds them. -/
def State.restartHeld (s : State) (cause : Nat) (l : List (Fin 16)) : State :=
  l.foldl (fun (t : State) p =>
    if (t.port p).link.state == .hold && (t.port p).link.downCause == cause && (t.blocker p).isNone then t.startPort p else t) s

/-- A PLL that is no longer locked (R45, R46, R423 rows 6, 16 and 17): its multiplexer moves to direct REFCLK. -/
def State.pllLost (s : State) (k : Pll) (v : PllRec) : State :=
  let s1 := { s with clk := ((s.clk.setPll k v).setMux (muxOf k) {}).sync }
  match k with
  | .core => s1
  | .host => s1.lanesDown 3
  | .reach r => s1.reachDown r

/-- Whether start-up needs to wait no longer for a PLL: locked, or given up (R56). -/
def PllRec.settled (r : PllRec) : Bool := r.mode == .locked || r.mode == .off

/-- The PLL whose domain d is (R57). -/
def pllDomain? (d : Nat) : Option Pll :=
  if d = 232 then some .core
  else if d = 233 then some .host
  else if 144 ≤ d ∧ d < 156 ∧ (d - 144) % 3 = 0 then some (.reach (Fin.ofNat 4 ((d - 144) / 3)))
  else none

/-- The domain of a PLL (R57). -/
def pllDomain : Pll → Nat
  | .core => 232 | .host => 233 | .reach r => reachDomain r 0

/-- Step 3 of R55 is complete: the core PLL locked and every other one locked or given up. The basin is initialised next,
except after a REFCLK recovery, which keeps it (R425). -/
def State.stepThree (s : State) : State :=
  if s.sup.stage == .locking && s.clk.core.mode == .locked && s.clk.host.settled && s.clk.reach.toList.all PllRec.settled then
    if s.sup.softAfterRef then
      ({ s with sup := { s.sup with stage := .released, softAfterRef := false } }).softReset 4 false
    else { s with sup := { s.sup with stage := .basinInit } }
  else s

/-- A PLL that has locked (R45, R48): its multiplexer moves to it, and what waited for the clock starts again. -/
def State.pllLocked (s : State) (k : Pll) (good : Nat) : State :=
  let s1 := { s with clk := ((s.clk.setPll k ⟨.locked, good⟩).setMux (muxOf k) ⟨true, false⟩).sync }
  let s2 := match k with
    | .core => s1
    | .host => s1
    | .reach r => s1.restartHeld 14 (portsOf r)
  s2.stepThree

/-- A judging window of a PLL has ended (R45). -/
def State.pllWindow (s : State) (k : Pll) (count : Nat) : State :=
  let r := s.clk.pll k
  let good := decide (32765 ≤ count ∧ count ≤ 32771)
  match r.mode with
  | .off => s
  | .locked => if good then s else s.pllLost k ⟨.locking, 0⟩
  | m =>
    if !good then { s with clk := s.clk.setPll k ⟨m, 0⟩ }
    else if r.good = 0 ∨ (m = .holdover ∧ !s.sup.refclkOk) then { s with clk := s.clk.setPll k ⟨m, 1⟩ }
    else s.pllLocked k 2

/-- No feedback edge for 64 reference cycles (R46). -/
def State.pllNoFeedback (s : State) (k : Pll) : State :=
  match (s.clk.pll k).mode with
  | .locked => s.pllLost k ⟨.locking, 0⟩
  | .locking => { s with clk := s.clk.setPll k ⟨.locking, 0⟩ }
  | _ => s

/-- No REFCLK edge for 64 divided cycles (R46): holdover; the clock goes on at its last frequency. -/
def State.pllHoldover (s : State) (k : Pll) : State :=
  match (s.clk.pll k).mode with
  | .off => s
  | _ => { s with clk := { s.clk.setPll k ⟨.holdover, 0⟩ with holdover := true } }

/-- No lock 2 ms after qualification (R56): a PLL that is locking or in holdover is given up. -/
def State.pllTimeout (s : State) (k : Pll) : State :=
  if s.sup.stage == .locking && !(s.clk.pll k).settled then
    let s1 := { s with clk := (s.clk.setPll k {}).sync }
    if k = .core then { s1 with sup := { s1.sup with stage := .coreFailed } } else s1.stepThree
  else s

/-- The multiplexer code of FORCED_SWITCH (R392). -/
def muxCode : Mux → Nat
  | .core => 0 | .spine r => 1 + r.val | .host => 5

/-- One multiplexer's record. -/
def Clocks.mux (c : Clocks) (m : Mux) : MuxRec :=
  match m with | .core => c.muxCore | .host => c.muxHost | .spine r => c.muxSpine.get r

/-- The PLL that feeds a multiplexer. -/
def pllOf : Mux → Pll
  | .core => .core | .host => .host | .spine r => .reach r

/-- A forced switch (R49) to the source given (true: the PLL, which must be locked), whose clock runs: the local reset of
R48, the event and the count. -/
def State.forcedSwitch (s : State) (m : Mux) (toPll : Bool) : State :=
  let s1 := { s with clk := s.clk.setMux m ⟨toPll && (s.clk.pll (pllOf m)).mode == PllMode.locked, false⟩ }
  let s2 := (s1.raise 0x0003 0 0 (wd (muxCode m))).count 0 4 1
  match m with
  | .core => s2
  | .spine r => s2.reachDown r
  | .host => s2.lanesDown 6

/-- Neither source shows an edge (R50). -/
def State.bothAbsent (s : State) (m : Mux) : State :=
  match m with
  | .core => if s.sup.stage == .released || s.sup.stage == .basinInit then s.safeState else s
  | .spine r => ({ s with clk := s.clk.setMux m { s.clk.mux m with failed := true } }).reachDown r
  | .host => ({ s with clk := s.clk.setMux m { s.clk.mux m with failed := true } }).lanesDown 3

/-- The 1 ms measurement of the watch oscillator (R44). -/
def State.watchOsc (s : State) (kHz : Nat) : State :=
  if s.clk.core.mode ≠ .locked then s
  else
    let ok := decide (20000 ≤ kHz ∧ kHz ≤ 30000)
    let s1 := { s with sup := { s.sup with watchOk := ok } }
    if s.sup.watchOk && !ok then s1.raise 0x0004 0 0 else s1

/-! ### Start-up (R16, R42, R43, R55, R456) -/

/-- A PLL that is off begins to lock, unless its domain is forced off (R55 step 3, R61); a PLL that is locked, or still in
holdover, goes on (R456). -/
def PllRec.begin (r : PllRec) (forced : Bool) : PllRec := if r.mode == .off && !forced then ⟨.locking, 0⟩ else r

/-- Every PLL begins to lock (R55 step 3). -/
def State.goLock (s : State) : State :=
  ({ s with sup := { s.sup with stage := .locking }
            clk := { s.clk with
              core := s.clk.core.begin false
              host := s.clk.host.begin (s.forcedOff 233)
              reach := Vector.ofFn (fun r => (s.clk.reach.get r).begin (s.forcedOff (reachDomain r 0))) } }).stepThree

/-- Start-up from step 2 of R55: straight on when REFCLK is qualified already. -/
def State.stepTwo (s : State) : State :=
  if s.sup.refclkOk then s.goLock else { s with sup := { s.sup with stage := .qualifying } }

/-- The end of hard reset (R16, R34, R42): the windows begin; a low PFAIL_N halts start-up, and so does a TEST_EN that was
high when RESET_N rose. A TEST_EN that rose after start-up goes on holding the part in hard reset. -/
def State.beginStart (s : State) : State :=
  if s.sup.stage == .hardReset && s.sup.resetN && s.sup.suppliesGood && !s.sup.testHeld then
    if s.sup.pfailN && !s.sup.testEn then s.stepTwo else s.halt
  else s

/-- A halted start-up runs again from step 2 once nothing halts it, with the straps kept (R16, R34). -/
def State.unhalt (s : State) : State :=
  if s.sup.stage == .halted && s.sup.pfailN && !s.sup.testEn then s.stepTwo else s

/-- REFCLK qualified (R43, R425). -/
def State.refQualified (s : State) : State :=
  match s.sup.stage with
  | .qualifying => s.goLock
  | .refclkLost => ({ s with sup := { s.sup with softAfterRef := true } }).goLock
  | _ => s

/-- A PLL's record with a PLL that is locking or in holdover switched off (R456). -/
def PllRec.ifLocked (r : PllRec) : PllRec := if r.mode == .locked then r else {}

/-- Every PLL that is locking or in holdover is switched off (R456). -/
def Clocks.unlocked (c : Clocks) : Clocks :=
  ({ c with core := c.core.ifLocked, host := c.host.ifLocked, reach := c.reach.map PllRec.ifLocked }).sync

/-- REFCLK lost (R43, R47, R456): between steps 2 and 3 start-up returns to step 2; later the safe state follows. -/
def State.refLost (s : State) : State :=
  match s.sup.stage with
  | .locking | .coreFailed =>
    { s with sup := { s.sup with stage := if s.sup.softAfterRef then .refclkLost else .qualifying }, clk := s.clk.unlocked }
  | .basinInit | .released => s.safeState
  | _ => s

/-- A window of 400 watch-oscillator cycles has ended (R42, R43). -/
def State.refWindow (s : State) (edges : Nat) : State :=
  if s.sup.stage == .hardReset || (s.sup.stage == .halted && s.sup.testEn) then s
  else
    let good := decide (2100 ≤ edges ∧ edges ≤ 3000)
    let run := if good then min 8 (s.sup.goodRun + 1) else 0
    let s1 := { s with sup := { s.sup with goodRun := run, lastCount := min 4095 edges, refclkOk := if good then s.sup.refclkOk || decide (run = 8) else false } }
    if !s.sup.refclkOk && good && decide (run = 8) then s1.refQualified
    else if s.sup.refclkOk && !good then s1.refLost
    else s1

/-- Basin initialisation done (R55 steps 4 and 5): the identity key is loaded and the keeper leaves reset. -/
def State.basinReady (s : State) : State :=
  if s.sup.stage == .basinInit then (({ s with sup := { s.sup with stage := .released } }).loadIdentity).releaseKeeper else s

/-- A rail trips (R32): internal reset with SAFE_N low until all rails are good again. -/
def State.railTrips (s : State) (rail : Fin 8) : State :=
  let t := setBit (if s.sup.suppliesGood then 0 else s.sup.tripped) rail.val true
  (({ s with sup := { s.sup with suppliesGood := false, tripped := t } }).hardReset 2 t)

/-- All eight rails good for 1 ms (R32). -/
def State.railsGood (s : State) : State :=
  ({ s with sup := { s.sup with suppliesGood := true, tripped := 0 } }).beginStart

/-- Filtered RESET_N falls (R51). -/
def State.resetFalls (s : State) : State := ({ s with sup := { s.sup with resetN := false, testHeld := false } }).hardReset 1 0

/-- Filtered RESET_N rises (R16, R19, R34, R42). -/
def State.resetRises (s : State) (boot : BitVec 2) (addr : BitVec 5) : State :=
  if s.sup.resetN then s
  else
    let s1 := { s with sup := { s.sup with resetN := true, bootSel := boot, mdioAddr := addr } }
    s1.beginStart

/-! ### Power loss (R16, R428, R429) -/

/-- The power-loss sequence of R428: the freeze, the event, and every port in HOLD with cause 8. -/
def State.powerLoss (s : State) : State :=
  let s1 := ({ s with sup := { s.sup with pfailFrozen := true } }).raise 0x0061 0 0 0 (wd (s.hopHeld / 256))
  allPorts.foldl (fun (t : State) p => t.holdDown p 8 true) s1

/-- Filtered PFAIL_N falls: before step 5 of R55 start-up halts (R16), from then on power is being lost (R428), also while the
PLLs lock again after a REFCLK loss; while REFCLK is lost it has no effect (R425). -/
def State.pfailFalls (s : State) : State :=
  let s1 := { s with sup := { s.sup with pfailN := false } }
  if !s.sup.resetN then s1
  else
    match s.sup.stage with
    | .qualifying | .basinInit => s1.halt
    | .locking | .coreFailed => if s.sup.softAfterRef then s1.powerLoss else s1.halt
    | .released => s1.powerLoss
    | _ => s1

/-- Filtered PFAIL_N rises: a halted start-up runs again from step 2, with the straps kept. -/
def State.pfailRises (s : State) : State := ({ s with sup := { s.sup with pfailN := true } }).unhalt

/-- 10 ms of high PFAIL_N with good supplies (R429): withheld notices go out, gates follow R214, ports restart. -/
def State.pfailOver (s : State) : State :=
  if s.sup.pfailFrozen && s.sup.pfailN && s.sup.suppliesGood then
    let s1 := ({ s with sup := { s.sup with pfailFrozen := false } }).raise 0x0061 0 0 1
    let s2 := (s1.basin.queues.filter (fun q => q.relHeld)).foldl (fun (t : State) q => t.sendRelease q.num) s1
    let s3 := allPorts.foldl (fun (t : State) p => (t.relSync p).gateSync p) s2
    (s3.restartHeld 8 allPorts).nextCommit
  else s

/-! ### TEST_EN (R34) -/

/-- Steps 2 to 4 of R34: the safe state is entered (its ramps and stopped lanes end with the hard reset that follows), then
the part is held in hard reset with cause 3, the key store verified empty; a TEST_EN that has fallen meanwhile lets start-up
run again from step 2. -/
def State.testHold (s : State) : State :=
  let k := s.keys
  let s1 := (s.safeState).hardReset 3 0
  ({ s1 with keys := { zeroOk := k.zeroOk }, sup := { s1.sup with testHeld := s.sup.testEn } }).beginStart

/-- Filtered TEST_EN rises: the store is zeroised and verified, the safe state entered, the part held in hard reset; the last
two wait for the second attempt of a zeroising that did not verify. -/
def State.testRises (s : State) (zeroOk : Bool) : State :=
  let s1 := { s with sup := { s.sup with testEn := true } }
  if s.sup.stage == .hardReset then s1
  else
    let s2 := s1.zeroise 2 zeroOk
    if s2.keys.zeroising.isSome then { s2 with sup := { s2.sup with testEnWaits := true } } else s2.testHold

/-- The second zeroising attempt, after which a waiting TEST_EN goes on, be it high still or not. -/
def State.zeroiseEnds (s : State) (ok : Bool) : State :=
  let s1 := s.zeroiseAgain ok
  if s1.sup.testEnWaits then s1.testHold else s1

/-- Filtered TEST_EN falls: start-up from step 2, the straps kept. -/
def State.testFalls (s : State) : State :=
  (({ s with sup := { s.sup with testEn := false, testHeld := false } }).beginStart).unhalt

/-! ### Domains (R60 to R62) -/

/-- A sequencer turn: up to 8 requests are switched on, in number order. -/
def State.sequence (s : State) : State :=
  let l := s.turnList
  { s with dom := { s.dom with
      pending := l.foldl (fun m d => setBit m d false) s.dom.pending
      switching := l.foldl (fun m d => setBit m d true) s.dom.switching } }

/-- Whether a switching domain may become usable: a PLL only with its lock (R60). -/
def State.mayServe (s : State) (d : Nat) : Bool :=
  match pllDomain? d with
  | some k => (s.clk.pll k).mode == .locked
  | none => true

/-- A basin bank released from force-off is a spare again once its domain is usable and initialised (R60, R61); the one
command stands for both (DESIGN CHOICE, notes/assumptions/58.md). -/
def State.bankBack (s : State) (d : Nat) : State :=
  if 156 ≤ d ∧ d < 224 ∧ s.bank (Fin.ofNat 68 (d - 156)) = .forcedOff then s.setBank (Fin.ofNat 68 (d - 156)) .spare else s

/-- A domain completes its switch-on order. -/
def State.usable (s : State) (d : Nat) : State :=
  if s.dom.switching.getLsbD d && s.mayServe d then
    { s with dom := { s.dom with switching := setBit s.dom.switching d false, on := setBit s.dom.on d true } }.bankBack d
  else s

/-- The port domain that cannot be on although the port's mode or phase needs it (R62). -/
def State.missing? (s : State) (p : Fin 16) : Option Nat := (s.portNeeds p).find? s.gone

/-- A port whose phase needs a domain that is forced off goes down with cause 11, or gives up its reflectometry run (R62,
R340). -/
def State.forceSync (s : State) (p : Fin 16) : State :=
  match s.missing? p with
  | none => s
  | some d =>
    match (s.port p).link.state with
    | .diag => s.tdrAbandon p 5
    | .disabled => s
    | _ => (s.holdDown p 11 false).modLink p (fun l => { l with held := some d })

/-- What follows a change of a port's link: the domains its new phase needs (R62) and its calibration run (R326). -/
def State.followPort (old s : State) (p : Fin 16) : State :=
  calFollow old (if (old.port p).needs == (s.port p).needs then s else s.forceSync p) p

/-- The same for every port. -/
def State.followAll (old s : State) : State := allPorts.foldl (fun (t : State) p => followPort old t p) s

/-- A bank forced off (R61, R228, R229, R411); a released one comes back with its domain. -/
def State.forceBank (s : State) (b : Fin 68) (off : Bool) : State :=
  if off then
    match s.bank b with
    | .spare => s.setBank b .forcedOff
    | .underTest => ({ s with test := { s.test with bank := none, marching := false } }).setBank b .forcedOff
    | .receiving _ => (s.dropRotation).setBank b .forcedOff
    | _ => s.repairBank b
  else s

/-- Whether the PLLs run or lock in a stage of start-up (R55, R425, R456). -/
def Stage.locks : Stage → Bool
  | .locking | .coreFailed | .basinInit | .released => true
  | .hardReset | .halted | .qualifying | .refclkLost => false

/-- A PLL whose domain is forced off stops, and start-up does not wait for it (R56, R61); one released locks again, at once
where the PLLs run, else with the others. -/
def State.forcePll (s : State) (k : Pll) (off : Bool) : State :=
  if off then (s.pllLost k {}).stepThree
  else if s.sup.stage.locks && (s.clk.pll k).mode == .off then { s with clk := s.clk.setPll k ⟨.locking, 0⟩ } else s

/-- A port that a forced-off domain kept down starts again once that domain may be on (R62). -/
def State.releaseHeld (s : State) (p : Fin 16) : State :=
  match (s.port p).link.held with
  | some d => if s.gone d then s else (s.modLink p (fun l => { l with held := none })).restartHeld 11 [p]
  | none => s

/-- What follows from one domain's bit that a write of PD_FORCE_OFF has changed (R61, R62, R326, R411, R417). -/
def State.forceOne (s : State) (zeroOk : Bool) (d : Nat) : State :=
  let off := bit (s.reg (regKey 0 (0x10 + d / 32))) (d % 32)
  if d < 144 then
    if off then s.forceSync (portNo (d / 9)) else s.releaseHeld (portNo (d / 9))
  else if 156 ≤ d ∧ d < 224 then s.forceBank (Fin.ofNat 68 (d - 156)) off
  else if 224 ≤ d ∧ d < 232 then (if off then s.loseLane (Fin.ofNat 8 (d - 224)) 6 else s)
  else if d = 240 then (if off then s.abandonAll true else s.startPending)
  else if d = 242 then (if off then (s.dropRotation) else s)
  else if d = 243 then (if off then s.zeroise 4 zeroOk else s.waitingKeys)
  else
    match pllDomain? d with
    | some k => s.forcePll k off
    | none =>
      if 144 ≤ d ∧ d < 156 then
        (portsOf (Fin.ofNat 4 ((d - 144) / 3))).foldl (fun (t : State) p => if off then t.forceSync p else t.releaseHeld p) s
      else s

/-- The effect of an accepted write of PD_FORCE_OFFn, from its value before. -/
def State.forceWritten (s : State) (n : Fin 8) (old : Word) (zeroOk : Bool) : State :=
  let new := s.reg (regKey 0 (0x10 + n.val))
  ((List.range 32).filter (fun i => bit old i != bit new i)).foldl (fun (t : State) i => t.forceOne zeroOk (32 * n.val + i)) s

end Sys2Proof.Machine
end

