-- ==== Sys2Proof/Machine/TestOps.lean ====
section
/-! DEFINITION. Snapshots and the stage log (R402, R409), self-test (R410 to R415), calendar windows and instants (R291,
R292), and the IEEE 1149.1 controller (R35). -/

namespace Sys2Proof.Machine

/-! ### Snapshots (R402) -/

/-- Snapshot entries of the calendar that are due. -/
def State.dueSnapshots (s : State) : List (Nat × CalEntry) := s.time.cal.filter (fun e => e.2.kind == .snapshot && s.calDue e.2)

/-- The capture itself: not while a copy runs, and not in the tally's parity safe state (R360). -/
def State.capture48 (s : State) : State :=
  if s.safeBlock 4 then s
  else
    match s.tally.copying with
    | some _ => { s with tally := { s.tally with missed := s.tally.missed + 1 } }
    | none =>
      let n := s.tally.seq + 1
      ({ s with tally := { s.tally with
          seq := n, missed := 0
          copying := some { seq := n, time := s.time.now, missed := s.tally.missed, counters := s.tally.counters, slots := s.tally.slots } } }).count 4 0 1

/-- Everything due in one tick as a single snapshot (R402). -/
def State.takeSnapshot (s : State) : State :=
  let l := s.dueSnapshots
  if !s.tally.due && l.isEmpty then s
  else
    let s1 := l.foldl (fun (t : State) e => t.instantActs e.1 e.2) s
    ({ s1 with tally := { s1.tally with due := false } }).capture48

/-- The copy is done: the buffer that BUF does not select holds it; a BUF write that waited acts. -/
def State.snapshotDone (s : State) : State :=
  match s.tally.copying with
  | none => s
  | some c =>
    let t := s.tally
    let t1 := if t.buf then { t with buf0 := some c } else { t with buf1 := some c }
    let s1 := { s with tally := { t1 with copying := none, buf := t.bufWant.getD t.buf, bufWant := none } }
    s1.raise 0x0051 4 0 (wd c.seq) (if t.buf then 0 else 1) (wd t.missed)

/-- A write of PC_SEL.BUF: it waits for a running copy. -/
def State.bufWritten (s : State) : State :=
  let b := bit (s.act (regKey 4 0)) 0
  { s with tally := if s.tally.copying.isSome then { s.tally with bufWant := some b } else { s.tally with buf := b } }

/-- A write of PC_TAG from its value before: clearing STOP or EN empties the log (R409). -/
def State.tagWritten (s : State) (old : Word) : State :=
  let new := s.pcTag
  if (bit old 28 && !bit new 28) || (bit old 31 && !bit new 31) then { s with tally := { s.tally with log := [], logNext := 0, logFull := false } } else s

/-- A write of PC_SEED loads the LFSR, 0 as 1 (R403). -/
def State.seedWritten (s : State) : State :=
  let v := s.act (regKey 4 0x05)
  { s with tally := { s.tally with lfsr := if v = 0 then 1 else v } }

/-! ### The basin rotation (R411) -/

/-- Online slices are withheld at thermal level 1 and above, in the block's parity safe state, and with domain 242 off
(R360, R431). -/
def State.testHeld (s : State) : Bool := decide (1 ≤ s.cal.level) || s.safeBlock 5 || s.forcedOff 242

/-- Whether a rotation may start. -/
def State.mayRotate (s : State) : Bool := decide (2 ≤ s.basin.spares) && !s.repairing && s.test.bank.isNone && !s.testHeld

/-- A rotation starts on a bank in service: it is copied into the lowest spare (R411 step 2). -/
def State.rotate (s : State) (b : Fin 68) (chan : Option Nat) : State :=
  match s.bank b, s.lowestSpare with
  | .inService l, some t =>
    let s1 := (s.setBank b (.copying t.val l)).setBank t (.receiving l)
    { s1 with test := { s1.test with bank := some b.val, marching := false, waiting := false, nextBank := b.val + 1, marchChan := chan } }
  | _, _ => s

/-- The next bank in service, in increasing order and wrapping (R411 step 1). -/
def State.nextRotation (s : State) : Option (Fin 68) :=
  let l := (List.finRange 68).filter (fun b => match s.bank b with | .inService _ => true | _ => false)
  match l.find? (fun b => decide (s.test.nextBank ≤ b.val)) with
  | some b => some b
  | none => l.head?

/-- The rotation that the interval asks for, or its wait. -/
def State.tryRotate (s : State) : State :=
  if s.mayRotate then
    match s.nextRotation with
    | some b => s.rotate b none
    | none => s
  else { s with test := { s.test with waiting := true } }

/-- MARCH_INT has passed (R411). -/
def State.marchInterval (s : State) : State :=
  if bit (s.act (regKey 5 0x01)) 0 && s.test.bank.isNone then s.tryRotate else s

/-- A rotation that waits starts as soon as it may. -/
def State.waitingRotation (s : State) : State := if s.test.waiting && s.mayRotate then s.tryRotate else s

/-- A bank's copy is complete (R228, R411): the target takes the logical number; the old bank leaves service, or is
tested. -/
def State.copyDone (s : State) (b : Fin 68) : State :=
  match s.bank b with
  | .copying tg l =>
    let s1 := (List.finRange 68).foldl (fun (t : State) c => if c.val = tg then t.setBank c (.inService l) else t) s
    if s.test.bank = some b.val then
      let s2 := s1.setBank b .underTest
      { s2 with test := { s2.test with marching := true } }
    else
      let off := bit (s1.reg (regKey 0 (0x10 + (156 + b.val) / 32))) ((156 + b.val) % 32)
      ((s1.setBank b (if off then .forcedOff else .failed)).raise 0x0024 3 0 (wd l) 0).waitingRotation
  | _ => s

/-- BIST_RUN answered (R415): kind, result and detail. -/
def State.bistAnswer (s : State) (c : Fin 16) (kind : Nat) (fail : Bool) (detail : Word) : State :=
  s.answer c (if fail then 0x0704 else stOk) [wd (kind + if fail then 256 else 0), detail]

/-- A march is complete (R411 steps 3 and 4): 27 slices have run. -/
def State.marchDone (s : State) (bad : Option Nat) : State :=
  match s.test.bank with
  | none => s
  | some n =>
    if !s.test.marching then s
    else
      let b : Fin 68 := Fin.ofNat 68 n
      let fail := bad.isSome
      let t := s.test
      let s1 := s.setBank b (if fail then .failed else .spare)
      let s2 := { s1 with test := { t with
        bank := none, marching := false, marchChan := none
        passes := if fail then t.passes else satAdd 0xFFFF t.passes 1, fails := if fail then satAdd 0xFFFF t.fails 1 else t.fails } }
      let s3 := ((s2.count 5 0 27).count 5 (if fail then 2 else 1) 1).raise 0x0053 5 0 (wd n) (if fail then 1 else 0) (wd (bad.getD 0))
      match t.marchChan with
      | some c => if (s3.chan (Fin.ofNat 16 c)).work = some .bistMarch then s3.bistAnswer (Fin.ofNat 16 c) 0 fail (wd (bad.getD 0)) else s3
      | none => s3

/-! ### The port element test (R412) -/

/-- The test record of a port changed. -/
def State.modTest (s : State) (p : Fin 16) (f : PortTest → PortTest) : State := s.modPort p (fun x => { x with test := f x.test })

/-- Element of item i: 34 ADC slices, then 72 DAC cells. -/
def elementOf (i : Nat) : Element := if i < 34 then ⟨false, i⟩ else ⟨true, i - 34⟩

/-- Tenths of a µs of item i. -/
def elementTenths (i : Nat) : Nat := if i < 34 then 40 else 5

/-- Items that fit into a slice. -/
def fitElements : Nat → Nat → Nat → Nat
  | 0, i, _ => i
  | n + 1, i, room => if i < 106 ∧ elementTenths i ≤ room then fitElements n (i + 1) (room - elementTenths i) else i

/-- ST_SLICE_MAX in µs. -/
def State.sliceMax (s : State) : Nat := fld (s.act (regKey 5 0x00)) 0 6

/-- PORT_FAULT of a port: fewer than 32 slices or 64 cells are left unmarked. -/
def PortTest.short (t : PortTest) : Bool :=
  decide (34 < 32 + (maskList t.badSlices).length) || decide (72 < 64 + (maskList t.badCells).length)

/-- A failed element marked faulty and reported. -/
def State.markElement (s : State) (p : Fin 16) (e : Element) : State :=
  let s1 := s.modTest p (fun t =>
    let u := { t with
      badSlices := if e.cell then t.badSlices else setBit t.badSlices e.index true
      badCells := if e.cell then setBit t.badCells e.index true else t.badCells
      firstBad := t.firstBad.or (some e) }
    { u with fault := u.short })
  (s1.raise 0x0054 5 p.val (wd ((if e.cell then 1 else 0) + 256 * e.index))).count 5 2 1

/-- The wait of a BIST_RUN of kind 1 on a port. -/
def isPortTest (p : Fin 16) : LongCmd → Bool
  | .bistPortTest q => q == p.val
  | _ => false

/-- The detail of a failing element, laid out as ELEMENT_FAULT's E0. -/
def elementWord : Option Element → Word
  | some e => wd ((if e.cell then 1 else 0) + 256 * e.index)
  | none => 0

/-- Items [i, j) have been tested; those among `failing` failed. -/
def State.testItems (s : State) (p : Fin 16) (i j : Nat) (failing : List Element) : State :=
  (List.range (j - i)).foldl (fun (t : State) k =>
    let e := elementOf (i + k)
    if failing.contains e then t.markElement p e else t.count 5 1 1) s

/-- A slice, or the whole run at once, has ended. -/
def State.testRun (s : State) (p : Fin 16) (j : Nat) (failing : List Element) : State :=
  let i := (s.port p).test.item
  let s1 := ((s.testItems p i j failing).count 5 0 1).modTest p (fun t => { t with item := j })
  if j < 106 then s1
  else
    let bad := (s1.port p).test.firstBad
    let s2 := s1.modTest p (fun t => { t with running := false, item := 0 })
    match s2.waiting (isPortTest p) with
    | some c => s2.bistAnswer c 1 bad.isSome (elementWord bad)
    | none => s2

/-- The next slice of a port's test (R294): it waits while slices are withheld, goes into the blanking of a governed port,
and runs at once on any other port. -/
def State.testNext (s : State) (p : Fin 16) (failing : List Element) : State :=
  if !(s.port p).test.running then s
  else if s.testHeld then s.slotWaits p true true
  else
    match s.governor p with
    | some _ => s.placeSlice p true false s.sliceMax
    | none => (s.slotWaits p true false).testRun p 106 failing

/-- A port test begins. -/
def State.startTest (s : State) (p : Fin 16) (failing : List Element) : State :=
  if (s.port p).test.running then s
  else (s.modTest p (fun t => { t with running := true, item := 0, firstBad := none })).testNext p failing

/-- PORT_INT has passed (R412). -/
def State.testInterval (s : State) (p : Fin 16) (failing : List Element) : State :=
  let c := s.act (regKey 5 0x01)
  if bit c 1 && decide (0 < fld c 16 8) && s.enabled p && !s.testHeld then s.startTest p failing else s

/-- A test slice has ended in its window. -/
def State.testSliceEnds (s : State) (p : Fin 16) (failing : List Element) : State :=
  if (s.port p).test.running then
    let j := fitElements 106 (s.port p).test.item (s.sliceMax * 10)
    (s.testRun p j failing).testNext p failing
  else s

/-- Self-test slices in progress abandoned (R360). -/
def State.abandonTests (s : State) : State :=
  allPorts.foldl (fun (t : State) p => (t.modTest p (fun x => { x with running := false, item := 0 })).dropSlices p true) s.dropRotation

/-! ### The port loopback (R413) -/

/-- The wait of a BIST_RUN of kind 2 on a port. -/
def isLoop (p : Fin 16) : LongCmd → Bool
  | .bistLoopback q => q == p.val
  | _ => false

/-- Whether a loopback may run: ENABLE and PATTERN both 0. -/
def State.loopOk (s : State) (p : Fin 16) : Bool :=
  !s.enabled p && fld (s.portReg p 0x17) 0 3 == 0 && !(s.port p).tdr.running

/-- A loopback starts; one that runs takes the request in. -/
def State.startLoop (s : State) (p : Fin 16) : State :=
  if s.loopOk p then s.modTest p (fun t => { t with loop := true }) else s

/-- A loopback has ended. -/
def State.loopDone (s : State) (p : Fin 16) (errors : Nat) : State :=
  if (s.port p).test.loop then
    let e : Word := wd (min 0xFFFFFFFF errors)
    let s1 := (s.modTest p (fun t => { t with loop := false }))
    let s2 := { s1 with test := { s1.test with loopErr := e } }
    match s2.waiting (isLoop p) with
    | some c => s2.bistAnswer c 2 (decide (0 < errors)) e
    | none => s2
  else s

/-! ### Logic BIST (R413, R415) -/

/-- Whether logic BIST may run: every port and host lane disabled, no queue open. -/
def State.lbistOk (s : State) : Bool :=
  allPorts.all (fun p => !s.enabled p) && allLanes.all (fun n => !bit (s.laneReg n.val 0) 0) && s.basin.queues.isEmpty

/-- Step 2: the keeper is held in reset once the store is verified zero. -/
def State.lbistHold (s : State) : State :=
  if s.keys.zeroOk then { s with keeper := { s.keeper with mode := .lbist } } else s

/-- Logic BIST starts: the store is zeroised and verified first. -/
def State.startLbist (s : State) (zeroOk : Bool) : State :=
  if s.lbistOk then
    let s1 := s.zeroise 3 zeroOk
    if s1.keys.zeroising.isSome then s1 else s1.lbistHold
  else s

/-- Logic BIST has ended: the result stays in the always-on domain, a chip soft reset rewrites the basin too. -/
def State.lbistEnds (s : State) (passed : Bool) : State :=
  if s.keeper.mode ≠ .lbist then s
  else
    let s1 := { s with test := { s.test with lbRuns := s.test.lbRuns + 1, lbResult := if passed then 1 else 2 } }
    let s2 := s1.softReset 6 true
    { s2 with sup := { s2.sup with lbistDone := some passed } }

/-- The second zeroising attempt, and what waited for it (R34, R413). -/
def State.zeroiseResult (s : State) (ok : Bool) : State :=
  let c := s.keys.zeroising
  let s1 := s.zeroiseEnds ok
  if c = some 3 then s1.lbistHold else s1

/-! ### Calendar windows (R289 to R292, R302, R310) -/

/-- The exit point of a later stop (R310): the narrow count and chip at that instant. -/
def State.exitAt (s : State) (p : Fin 16) (stop : Nat) : QuietCell :=
  let w := (s.port p).tow
  let n := 2 ^ max 7 w.sf
  let ps := spanPs (stop - s.time.now)
  let sym := symbolPs false (max 7 w.sf)
  { deep := false, entry := 0, xq := w.symCount + BitVec.ofNat 32 (ps / sym), xchip := BitVec.ofNat 16 (ps % sym * n / sym), dur := 0
    qsf := BitVec.ofNat 8 w.sf }

/-- A quiet window opens on a port: it joins a window in progress, waits for a slice, is skipped with its cause, or is
entered by the ENTER exchange. -/
def State.quietOpens (s : State) (p : Fin 16) (e : CalEntry) : State :=
  let x := s.port p
  if s.windowOpen .calSlice p.val || s.windowOpen .testSlice p.val then s
  else
    match x.quiet.state with
    | .quiet =>
      match e.stop with
      | some t =>
        if x.link.leader then
          let c := s.exitAt p t
          match x.quiet.exit with
          | some (old, _) => if ahead c.xq old then s.queueCell p 9 (quietPayload 1 c) else s
          | none => s
        else s
      | none => s
    | .deep | .entering => s
    | .active =>
      if x.quiet.pend.isSome then s
      else
        match s.skipCause p (match e.stop with | some t => spanPs (t - s.time.now) | none => 0) with
        | some c => s.skipWindow p c
        | none => s

/-- A window starts (R291 class 4): an empty occurrence only leaves; a slice takes its port out of quiet. -/
def State.windowStarts (s : State) (e : Nat) : State :=
  match s.cal? e with
  | none => s
  | some x =>
    if !x.kind.window || !s.calDue x then s
    else if x.empty then State.rearm e rearmFuel s x
    else
      let s1 := s.windowOpens e x
      match x.kind with
      | .quiet => s1.quietOpens (portNo x.target) x
      | .calSlice | .testSlice => s1.earlyExit (portNo x.target)
      | _ => s1

/-- The quiet windows still open on a port after a slice: the rest is a new window (R292, R310). -/
def State.quietResumes (s : State) (p : Fin 16) : State :=
  match (s.time.cal.find? (fun e => e.2.isOpen && e.2.kind == .quiet && e.2.target == p.val)) with
  | some (_, x) => s.quietOpens p x
  | none => s

/-- A window stops (R291 class 1): only its own; a repeating entry is re-armed; a test slice's items have run. -/
def State.windowStops (s : State) (e : Nat) (failing : List Element) : State :=
  match s.cal? e with
  | none => s
  | some x =>
    if !s.calStops x then s
    else
      let s1 := State.rearm e rearmFuel s { x with isOpen := false }
      match x.kind with
      | .calSlice => s1.quietResumes (portNo x.target)
      | .testSlice => (s1.testSliceEnds (portNo x.target) failing).quietResumes (portNo x.target)
      | _ => s1

/-- An instant entry of a kind that is due. -/
def State.dueInstant (s : State) (e : Nat) (k : CalKind) : Option CalEntry :=
  match s.cal? e with
  | some x => if x.kind == k && s.calDue x then some x else none
  | none => none

/-- A host event instant acts (R289, R392). -/
def State.hostEvent (s : State) (e : Nat) : State :=
  match s.dueInstant e .hostEvent with
  | some x => (s.instantActs e x).raise 0x0034 2 0 (wd e)
  | none => s

/-- A TMARK pulse instant acts (R279, R289). -/
def State.tmarkPulse (s : State) (e : Nat) : State :=
  match s.dueInstant e .tmark with
  | some x =>
    let s1 := s.instantActs e x
    { s1 with time := { s1.time with tmark := true, tmarkUp := s1.ticks } }
  | none => s

/-- Slices that found no slot or no calendar entry are placed again (R294, R436). -/
def State.retrySlices (s : State) (failing : List Element) : State :=
  s.cal.slotWait.foldl (fun (t : State) e =>
    let p := portNo e.1
    if e.2 then t.testNext p failing
    else if (t.port p).cal.running then t.placeSlice p false (!(t.port p).cal.single) t.sliceUs else t.slotWaits p false false) s

/-! ### The test access port (R35) -/

/-- Next state of the IEEE 1149.1 controller: 0 Test-Logic-Reset, 1 Run-Test/Idle, 2 Select-DR, 3 Capture-DR, 4 Shift-DR,
5 Exit1-DR, 6 Pause-DR, 7 Exit2-DR, 8 Update-DR, 9 to 15 the same for IR. PRESUMED: the manual names the standard alone. -/
def tapNext (st : Fin 16) (tms : Bool) : Fin 16 :=
  let f := fun (a b : Fin 16) => if tms then b else a
  match st.val with
  | 0 => f 1 0 | 1 => f 1 2 | 2 => f 3 9 | 3 => f 4 5 | 4 => f 4 5 | 5 => f 6 8 | 6 => f 6 7 | 7 => f 4 8 | 8 => f 1 2
  | 9 => f 10 0 | 10 => f 11 12 | 11 => f 11 12 | 12 => f 13 15 | 13 => f 13 14 | 14 => f 11 15 | _ => f 1 2

/-- Whether the instruction in force selects the boundary register; BYPASS, all ones, never does. -/
def tapBoundary (ir : Option (List Bool)) : Bool :=
  match ir with
  | some l => !l.all id && Config.tapBoundary l
  | none => false

/-- The instruction register's capture: 01 in its two least significant stages, the others free. -/
def tapCaptureIr (d : Nat) : List Bool := [true, false] ++ (List.range (tapIrLen - 2)).map (Config.freeTdo d)

/-- The data register's capture: 0 in the bypass stage; in the boundary register what its cells see of the balls, a free value
(of an output ball whose level the state holds, see `State.outPin`). -/
def tapCaptureDr (boundary : Bool) (d : Nat) : List Bool :=
  if boundary then (List.range tapCells).map (Config.freeTdo d) else [false]

/-- One shift towards TDO, with TDI entering. -/
def tapShift (l : List Bool) (tdi : Bool) : List Bool := l.drop 1 ++ [tdi]

/-- What a TCK edge does in the controller's state before it moves: capture, shift and update. -/
def TapRec.acts (t : TapRec) (tdi : Bool) (d : Nat) : TapRec :=
  match t.state.val with
  | 0 => { t with ir := none }
  | 3 => { t with shift := tapCaptureDr (tapBoundary t.ir) d }
  | 4 | 11 => { t with shift := tapShift t.shift tdi }
  | 8 => if tapBoundary t.ir then { t with boundary := t.shift } else t
  | 10 => { t with shift := tapCaptureIr d }
  | 15 => { t with ir := some t.shift }
  | _ => t

/-- A TCK edge (R13, R35): TRST_N low holds the controller in Test-Logic-Reset; TDO drives, with the stage nearest to it, only
in Shift-DR and Shift-IR. The controller is held with the rest of the part during hard reset. -/
def State.tapEdge (s : State) (trstN tms tdi : Bool) : State :=
  if s.sup.stage == .hardReset || !trstN then { s with tap := {} }
  else
    let (d, s1) := s.draw
    let t := s.tap.acts tdi d
    let st := tapNext s.tap.state tms
    { s1 with tap := { t with state := st, tdo := if st = 4 ∨ st = 11 then t.shift.head? else none } }

end Sys2Proof.Machine
end

