-- ==== Sys2Proof/Machine/StreamOps.lean ====
section
/-! DEFINITION. Streams and lanes as commands act on them: opening, changing and closing queues (R232 to R237), the
scrubber and bank migration (R228, R229), frames of the standard modes (R230, R280), host frames, receipts, pauses and lane
events (R245 to R249, R259 to R271), and the writes of R255 and R273. -/

namespace Sys2Proof.Machine

/-! ### Opening, changing and closing (R232 to R237) -/

/-- A queue opened: the conditions of R237 in order, then its lane, home region and place in the order of opening. -/
def State.openStream (s : State) (q : Queue) (classOk : Bool) : Except Nat State :=
  if (s.queue? q.num).isSome then .error (admStatus 1)
  else if !classOk || !s.attrsOk q then .error (admStatus 2)
  else if !s.skidOk q then .error (admStatus 3)
  else
    match s.admitted q s.basin.queues with
    | .error e => .error e
    | .ok pl =>
      let q1 := { q with region := homeRegion s.basin.queues, order := s.basin.nextOrder }
      let s1 := { s with basin := { s.basin with queues := s.basin.queues ++ [q1], nextOrder := s.basin.nextOrder + 1 } }
      .ok (((s1.applyPlan q.num pl).flowSync q.num).lineSync (queuePort q.num))

/-- The attributes that STREAM_MODIFY replaces on an open queue (R233). -/
def Queue.modified (old new : Queue) : Queue :=
  { old with prio := new.prio, bRes := new.bRes, lat := new.lat, rB := new.rB, fMin := new.fMin, laneMask := new.laneMask, demoted := false }

/-- A queue changed: admission with its own reservation removed; a refusal keeps the old attributes (R233). -/
def State.modifyStream (s : State) (q : Queue) (classOk : Bool) : Except Nat State :=
  match s.queue? q.num with
  | none => .error (admStatus 2)
  | some old =>
    if old.closing.isSome || !classOk || old.outbound != q.outbound || old.cls != q.cls || !s.attrsOk q then .error (admStatus 2)
    else if !s.skidOk q then .error (admStatus 3)
    else
      let new := old.modified q
      match s.admitted new (s.others q.num) with
      | .error e => .error e
      | .ok pl => .ok ((((s.modQueue q.num (fun x => x.modified q)).applyPlan q.num pl).flowSync q.num).lineSync (queuePort q.num))

/-- A queue that stops taking frames, for a channel that waits; with purge, QUEUED class-none frames are discarded (R234). -/
def State.closeStream (s : State) (q : Nat) (purge : Bool) (c : Fin 16) : State :=
  let s1 := s.modQueue q (fun x => { x with closing := some c.val })
  let ids := if purge then s1.unpacked q else []
  (((s1.freeAll ids true).count 3 2 ids.length).flowSync q).lineSync (queuePort q)

/-- The wait of STREAM_CLOSE on a queue. -/
def isClose (q : Nat) : LongCmd → Bool
  | .streamClose k => k == q
  | _ => false

/-- The last ticket of a closing queue is freed: the queue is free and the command is answered (R234). -/
def State.closeDone (s : State) (q : Nat) : State :=
  match s.queue? q with
  | none => s
  | some x =>
    if x.closing.isNone || !(s.ticketsOf q).isEmpty then s
    else
      let p := queuePort q
      let s1 := { s with basin := { s.basin with queues := s.others q } }
      let s2 := s1.modPort p (fun y => { y with stopped := y.stopped.filter (· != BitVec.ofNat 8 q) })
      ((((s2.gateSync p).hopSync).lineSync p).answerWait (isClose q) stOk [wd s2.freeTickets])

/-! ### The scrubber and bank migration (R228, R229, R427) -/

/-- Corrected errors found in a bank within the last second. -/
def Basin.recent (b : Basin) (k now : Nat) : Nat :=
  (b.corrList.filter (fun e => e.1 == k && decide (now < e.2 + secTicks 1))).length

/-- What the scrubber found in a bank of those in service (R228): counts, a frame marked corrupt (R427), and the repair. -/
def State.scrub (s : State) (b : Fin 68) (corrected uncorrectable : Nat) (hit : Option (Fin 4096 × Seq16)) : State :=
  if (s.bank b).logical.isNone then s
  else
    let old := s.basin.corrList.filter (fun e => decide (s.ticks < e.2 + secTicks 1))
    let s1 := (s.count 3 4 corrected).count 3 5 uncorrectable
    let s2 := { s1 with basin := { s1.basin with
      corrNow := satAdd 0xFFFF s1.basin.corrNow corrected, uncorr := satAdd 0xFFFF s1.basin.uncorr uncorrectable
      corrList := old ++ List.replicate (min 17 corrected) (b.val, s.ticks) } }
    let s3 := match hit with
      | some (q, seq) =>
        if uncorrectable = 0 then s2
        else s2.modTickets (List.map (fun (t : Ticket) =>
          if t.queue = q.val ∧ t.seq = seq ∧ t.state ≠ .filling then { t with corrupt := true } else t))
      | none => s2
    if 0 < uncorrectable ∨ 16 < s3.basin.recent b.val s.ticks then s3.repairBank b else s3

/-- The cells of a ticket in a logical bank moved to other banks (R229). -/
def State.rehome (s : State) (l : Nat) (t : Ticket) : State :=
  let n := ((t.cells.filter (fun e => e.1 == l)).map (·.2)).foldl (· + ·) 0
  if n = 0 then s
  else
    let region := match s.queue? t.queue with | some q => q.region | none => 0
    s.modTicket t.id (fun x => { x with
      cells := x.cells.filter (fun e => e.1 != l) ++ countBanks (takeCells region n (s.basin.frees.filter (fun e => e.1 != l))) })

/-- Whether `PD_FORCE_OFF` holds a bank off. -/
def State.bankHeldOff (s : State) (b : Fin 68) : Bool := bit (s.reg (regKey 0 (0x10 + (156 + b.val) / 32))) ((156 + b.val) % 32)

/-- A retired bank leaves service: capacity shrinks by a bank, and streams are demoted if the sums no longer fit (R229,
R238). -/
def State.migrated (s : State) (b : Fin 68) : State :=
  match s.bank b with
  | .migrating l =>
    let s1 := s.basin.tickets.foldl (fun (t : State) x => t.rehome l x) s
    (s1.setBank b (if s.bankHeldOff b then .forcedOff else .failed)).shrinkAll
  | _ => s

/-! ### Register writes of R255 and R273 -/

/-- Margin banks as they act (R253). -/
def marginOf (v : Word) : Nat := min 4 (fld v 0 3)

/-- A stream moved off a lane that left the mask; with no permitted lane left it stands without one (R246). -/
def State.moveOff (s : State) (q : Nat) (n : Option (Fin 8)) : State :=
  match n with
  | some n => if s.safeBlock 3 then s else s.startMove q n
  | none => if s.safeBlock 3 then s else s.modQueue q (fun y => { y with lane := none, move := none })

/-- `PL_LANE_MASK` written: streams leave the lanes cleared, with demotions if they do not fit; lanes set again let demoted
streams return (R240, R246, R255). -/
def State.maskWritten (s : State) (old : Word) : State :=
  let new := s.act (regKey 3 0x21)
  let gone := allLanes.filter (fun n => bit old n.val && !bit new n.val)
  let nums := (s.basin.queues.filter (fun q => gone.any (fun n => q.placed == some n.val))).map (·.num)
  let s1 := if nums.isEmpty then s else s.replaceAll nums State.moveOff
  if allLanes.any (fun n => bit new n.val && !bit old n.val) then s1.restore else s1

/-- The effect of a write of a basin or placement register (R255); `old` is what it held. -/
def State.basinWritten (s : State) (r : BasinReg) (old : Word) : State :=
  match r with
  | .bsCtrl =>
    let new := marginOf (s.act (regKey 3 0x00))
    if marginOf old < new then s.shrinkAll else if new < marginOf old then s.restore else s
  | .hopCap => s.hopSync
  | .plCtrl => s
  | .laneMask => s.maskWritten old
  | .compat => { s with mdio := { s.mdio with latched := none } }

/-- The periodic check of R246, with `PL_CTRL.REBAL_EN` at 1. -/
def State.rebalanceDue (s : State) : State := if bit (s.act (regKey 3 0x20)) 1 then s.rebalance else s

/-- The effect of a write of a host-lane register (R273); `old` is what it held. -/
def State.laneWritten (s : State) (n : Fin 8) (r : HlReg) (old : Word) : State :=
  match r with
  | .txEq => s
  | .ctrl =>
    let new := s.laneReg n.val 0
    let s1 := if bit old 8 && !bit new 8 then s.modLane n (fun l => { l with paused := none }) else s
    if bit old 0 && !bit new 0 then s1.loseLane n 6
    else if !bit old 0 && bit new 0 then s1.modLane n (fun l => l.restart .starting)
    else if bit new 0 && (bit old 1 != bit new 1 || bit old 4 != bit new 4) then s1.loseLane n 6
    else s1

/-! ### Lane events -/

/-- A lane declared lost (R270, R271): only a lane that is up. -/
def State.laneLost (s : State) (n : Fin 8) (cause : Fin 7) : State :=
  if (s.lane n).state = .up ∧ cause ≠ 0 then s.loseLane n cause.val else s

/-- A lane that comes up (R269, R240). -/
def State.laneUp (s : State) (n : Fin 8) : State := if s.laneReady n then s.raiseLane n else s

/-- A lane not up within 100 ms starts again from signal detection (R269). -/
def State.laneRetry (s : State) (n : Fin 8) : State :=
  if bit (s.laneReg n.val 0) 0 && ((s.lane n).state == .starting || (s.lane n).state == .lost) then
    s.modLane n (fun l => l.restart l.state)
  else s

/-- A PAUSE frame (R267): with `PAUSE_EN`, quanta stop the lane and 0 resumes it. -/
def State.pauseHeard (s : State) (n : Fin 8) (quanta : BitVec 16) : State :=
  if (s.lane n).state = .up ∧ bit (s.laneReg n.val 0) 8 = true then
    s.modLane n (fun l => { l with paused := if quanta = 0 then none else match l.paused with | some t => some t | none => some s.ticks })
  else s

/-- The quanta expire (R267). -/
def State.pauseOver (s : State) (n : Fin 8) : State := s.modLane n (fun l => { l with paused := none })

/-- Paused without a break for 1 ms (R267). -/
def State.pausedLong (s : State) (n : Fin 8) : State :=
  if (s.lane n).state = .up ∧ (s.lane n).paused.isSome = true then s.loseLane n 5 else s

/-- Lane b starts a moved queue once its marker is sent (R247 step 4). -/
def State.moveStarts (s : State) (q : Nat) : State :=
  match s.queue? q with
  | some x => if (x.move.bind (·.marker)).isSome then s.endMove q else s
  | none => s

/-- A RELEASE repeated once (R266). -/
def State.releaseAgain (s : State) (q : Nat) : State :=
  match s.queue? q with
  | some x =>
    if !x.relRepeat then s
    else if s.sup.pfailFrozen then s.modQueue q (fun y => { y with relHeld := true, relRepeat := false })
    else (s.pushCtrl 2 false q (s.releasePoint x)).modQueue q (fun y => { y with relRepeat := false })
  | none => s

/-! ### Frames from the host (R248, R261, R264, R265) -/

/-- A control frame with its entries applied in order (R265). -/
def State.receipts (s : State) (n : Fin 8) (es : List CtrlEntry) : State :=
  if (s.lane n).state = .up then
    es.foldl (fun (t : State) e => t.receiptOne n e)
      (s.count (laneBlock n.val) 4 1)
  else s

/-- A control frame that is not well formed (R264). -/
def State.badCtrl (s : State) (n : Fin 8) : State :=
  if (s.lane n).state = .up then (s.count (laneBlock n.val) 4 1).discardHost n else s

/-- A RECEIPT control frame, and one that is not well formed, received on a lane. -/
def State.receiptHeard (s : State) (n : Fin 8) (es : List CtrlEntry) : State :=
  if (s.lane n).state = .up then (s.count (laneBlock n.val) 1 1).receipts n es else s
def State.badCtrlHeard (s : State) (n : Fin 8) : State :=
  if (s.lane n).state = .up then (s.count (laneBlock n.val) 1 1).badCtrl n else s

/-- The frame as it goes to the line (R261, R262): its own FCS recomputed in the EtherType form, unchanged in the other. -/
def ownFrame (form : Bool) (frame : List Byte) : List Byte :=
  if form then frame else let b := frame.take (frame.length - 4); b ++ fcsOf b false

/-- A control frame that came as a host frame: RECEIPT entries act; the part sends the other kinds and ignores them. -/
def State.ctrlFromHost (s : State) (n : Fin 8) (frame : List Byte) (fcsOk : Bool) : State :=
  let body := (frame.take (frame.length - 4)).drop (if s.laneForm n then 14 else 12)
  match fcsOk, parseCtrl body with
  | true, some (1, es) => s.receipts n es
  | true, some _ => s.count (laneBlock n.val) 4 1
  | _, _ => s.badCtrl n

/-- A frame from the host on a lane (R230, R234, R248, R261): discarded when it lacks its tag, its FCS is bad or its queue
takes none; otherwise by its sequence. It ends a transmit LPI of its port (R300). -/
def State.hostFrame (s : State) (n : Fin 8) (tagged fcsOk : Bool) (tag : TagWord) (frame : List Byte) : State :=
  if (s.lane n).state ≠ .up then s
  else
    let s1 := s.count (laneBlock n.val) 1 1
    if !tagged then s1.discardHost n
    else if tag.ctrl then s1.ctrlFromHost n frame fcsOk
    else if !fcsOk then s1.discardHost n
    else
      match s1.queue? tag.qid.toNat with
      | none => s1.discardHost n
      | some q =>
        if !q.outbound || q.closing.isSome then s1.discardHost n
        else
          let s2 := s1.takeOutbound n q tag.seq (ownFrame (s.laneForm n) frame)
          if s2.outWaiting (queuePort q.num) then s2.lpiLeave (queuePort q.num) else s2

/-! ### Frames of the standard modes (R230, R280) -/

/-- A frame from the line PHY: a ticket, its time stamp, and its FCS judged (R230, R280, R286). -/
def State.stdArrives (s : State) (p : Fin 16) (tag : Byte) (fcsOk : Bool) (frame : List Byte) : State :=
  if (s.port p).link.state ≠ .stdUp then s
  else
    let num := p.val * 256 + tag.toNat
    match s.queue? num with
    | none => s.count 3 2 1
    | some q =>
      if q.outbound || q.closing.isSome then s.count 3 2 1
      else if !s.hasRoom q frame.length then
        (s.count 3 2 1).count (portBlock p.val) 16 (if q.cls == .none then 1 else 0)
      else
        let (id, s1) := s.issue q frame.length false
        let s2 := (s1.modTicket id (fun t => { t with bytes := frame })).cadArrive num s.time.now
        if fcsOk then (s2.queueTicket id).gateSync p else (s2.freeTicket id true).count 3 2 1

/-- An outbound frame ends on the line PHY: its ticket leaves SENT, and a through frame's release is notified (R230). -/
def State.stdDeparts (s0 : State) (p : Fin 16) : State :=
  if (s0.port p).link.state ≠ .stdUp then s0
  else
    let s := s0.dropCorrupt p
    let heads := (s.basin.queues.filter (fun q => q.outbound && q.num / 256 == p.val)).filterMap (fun q =>
      ((s.ticketsOf q.num).find? (fun t => t.state == .queued)).map (fun t => (q, t)))
    match pickHead heads (s.port p).snd.rr with
    | none => s
    | some (credit, num, id) =>
      let len := match s.ticket? id with | some t => t.len | none => 0
      let s1 := (s.modSnd p (fun x => { x with rr := if credit then x.rr else num })).modQueue num (fun y => { y with
        credit := if credit then y.credit - (len * 80000 : Nat) else y.credit })
      let through : Bool := match s.queue? num with | some q => q.cls == .through | none => false
      let s2 := (if through then s1.stage id 7 else s1).freeTicket id false
      if through then s2.sendRelease num else s2

end Sys2Proof.Machine
end

