-- ==== Sys2Proof/Machine/PortOps.lean ====
section
/-! DEFINITION. What a write to a port, reach or time register does at once (R87, R101, R139, R140, R170, R225, R298, R312,
R343), and enabling and disabling a port (R83, R216, R320). -/

namespace Sys2Proof.Machine

/-! ### Enabling and disabling (R83, R139, R216, R320, R330, R413) -/

/-- The session identifier of a port, drawn at its first enable after a hard reset (R216). -/
def State.drawSession (s : State) (p : Fin 16) : State :=
  if (s.port p).rcv.session = 0 then
    let (d, s1) := s.draw
    s1.modRcv p (fun r => { r with session := BitVec.ofNat 32 ((Config.freeSession d).val + 1) })
  else s

/-- A loopback that may no longer run (R413): given up, its command answered as a precondition not met. -/
def State.loopOff (s : State) (p : Fin 16) : State :=
  if (s.port p).test.loop then (s.modTest p (fun t => { t with loop := false })).answerWait (isLoop p) stObjBusy [] 0 else s

/-- The swing of a pattern (R130): that of the mode whose baud it takes; the clause's in a test mode. -/
def State.patternSwing (s : State) (p : Fin 16) : Nat :=
  let m := s.patternMode p
  nominalSwing (if isLocon m then some m else none) (m == .lchirp) false (fwdOut (s.policy p))

/-- The pattern that a disabled port sends (R139): it ramps up at its start and down at its stop. -/
def State.patternSync (s : State) (p : Fin 16) : State :=
  let want := if s.enabled p then 0 else s.patternAct p
  let old := (s.port p).tx.pattern
  if want = old then s
  else
    if want = 0 then (s.txStop p).modTx p (fun t => { t with pattern := 0 })
    else
      let s1 := (s.modTx p (fun t => { t with pattern := want })).loopOff p
      (s1.setSwing p (s1.patternSwing p)).txStart p

/-- ENABLE set (R82, R139, R216, R320, R340): the session is drawn, a reflectometry run or a loopback is given up, the
calibration of R320 starts, and then the link. -/
def State.enablePort (s : State) (p : Fin 16) : State :=
  let s1 := (((s.drawSession p).tdrAbandon p 4).loopOff p).patternSync p
  (s1.enableRun p).startPort p

/-- ENABLE cleared (R83). -/
def State.disablePort (s : State) (p : Fin 16) : State := ((s.disable p).modLink p (fun l => { l with held := none })).patternSync p

/-- The effect of a write of LN_MODE from its value before (R83, R87, R139). -/
def State.modeWritten (s : State) (p : Fin 16) (old : Word) : State :=
  match bit old 8, s.enabled p with
  | false, true => s.enablePort p
  | true, false => s.disablePort p
  | true, true => s.writesAct p (s.policy p) old
  | false, false => s.patternSync p

/-- The effect of a write of LN_POLICY from its value before (R87). -/
def State.policyWritten (s : State) (p : Fin 16) (old : Word) : State :=
  if s.enabled p then s.writesAct p old (s.lnMode p) else s

/-! ### Transmit (R137, R139, R140) -/

/-- Whether manual taps act on the mode in use (R138). -/
def State.tapsManual (s : State) (p : Fin 16) : Bool :=
  match (s.port p).txMode with
  | some m => if isLocon m then !bit (s.portReg p 0x10) 3 else bit (s.portReg p 0x17) 8
  | none => false

/-- The effect of a write of a transmit register (R137, R140): the swing follows SWING_ADJ step by step, and a spread clock
returns to nominal when SPREAD_EN is cleared. -/
def State.txWritten (s : State) (p : Fin 16) (r : TxReg) : State :=
  match r with
  | .ctrl =>
    let c := s.portReg p 0x10
    let s1 := s.modTx p (fun t => { t with
      spread := t.spread && bit c 2
      spreadBack := if t.spreadTick.isSome && t.spreadBack.isNone && !bit c 2 then some s.ticks else t.spreadBack })
    s1.xtSync (reachOf p)
  | .rampLen => s
  | .ffeA => if s.tapsManual p then s.modTx p (fun t => { t with ffeA := s.portReg p 0x12 }) else s
  | .ffeB => if s.tapsManual p then s.modTx p (fun t => { t with ffeB := s.portReg p 0x13 }) else s

/-- The effect of an accepted write of LN_TX_TEST (R139, R140): the pattern, and STD_OVR with its taps and SWING_ADJ on a
running standard mode. A port whose ENABLE was set while a pattern was selected stays in DISABLED when PATTERN is later
written 0; R139 does not say, and the model does not start it: a DESIGN CHOICE (notes/assumptions/58.md). -/
def State.txTestWritten (s : State) (p : Fin 16) : State :=
  let s1 := s.patternSync p
  match (s1.port p).txMode with
  | some m => if isLocon m then s1 else
      let taps := s1.txTaps p m
      s1.modTx p (fun t => { t with ffeA := taps.1, ffeB := taps.2, swingAdj := s1.swingWanted p })
  | none => s1

/-! ### The other port registers -/

/-- The effect of a write of a receive register (R170). -/
def State.rxWritten (s : State) (p : Fin 16) (r : RxReg) : State :=
  match r with
  | .ctrl => s.rxCtrlWritten p
  | .mu | .frz | .tim => s

/-- The effect of a write of a crosstalk register from its value before (R170). -/
def State.xtWritten (s : State) (r : Fin 4) (reg : XtReg) (old : Word) : State :=
  match reg with
  | .ctrl => s.xtCtrlWritten r old
  | .path k => s.xtPathWritten r k

/-- The effect of a write of a quiet register from its value before (R312). -/
def State.quietRegWritten (s : State) (p : Fin 16) (r : QuietReg) (old : Word) : State :=
  match r with
  | .quietCtrl => s.quietWritten p old
  | .lpiCtrl => s

/-- LN_QUIET_CTRL.WAKE (R308, R311). -/
def State.wake (s : State) (p : Fin 16) : State := s.earlyExit p

/-- The effect of a write of a diagnostic register from its value before (R343). -/
def State.dgWritten (s : State) (p : Fin 16) (r : DgReg) (old : Word) : State :=
  match r with
  | .watchCtrl => s.watchCtrlWritten p old
  | .tdrCtrl | .cfg | .warn | .alarm => s

/-- DG_TDR_CTRL.START (R330, R341). -/
def State.tdrStartReg (s : State) (p : Fin 16) : State :=
  let c := s.portReg p 0x70
  s.tdrStart p (fld c 1 2) (fld c 8 4) (fld c 16 8)

/-! ### Time registers (R298) -/

/-- The effect of a write of a time register from its value before (R298): a DISC that changes restarts the loop. -/
def State.timeWritten (s : State) (r : TmReg) (old : Word) : State :=
  match r with
  | .ctrl | .tmark => s
  | .xfer =>
    if fld old 8 5 = fld (s.act (regKey 2 0x09)) 8 5 then s
    else { s with time := { s.time with lockRun := 0, discHold := true } }

/-- PC_SEL.NOW (R402): a snapshot at the next tick. -/
def State.snapNow (s : State) : State := { s with tally := { s.tally with due := true } }

end Sys2Proof.Machine
end

