-- ==== Sys2Proof/Machine/Flags.lean ====
section
/-! DEFINITION. What every register reads as: the status fields of each register (R6, R63, R70, R120, R138, R167, R169,
R190, R224, R253, R272, R297, R311, R328, R341, R369, R381, R393, R396, R403, R414, R418), the arrays behind the indirect
windows (R117, R168, R169, R191, R254, R298, R328, R342, R404, R414), the live vectors and IRQ_N (R352 to R354), and what
every command leaves in line behind it: counted rising live bits (R398) and the power domains (R57, R60). -/

namespace Sys2Proof.Machine

/-! ### Small tools -/

/-- Bits of a Boolean list placed from bit `lo` upwards. -/
def boolsAt (lo : Nat) (l : List Bool) : Word := flagsFrom lo l

/-- A 16-bit entry sign-extended (R367). -/
def sx16 (v : BitVec 16) : Word := v.signExtend 32

/-- Whether an instant lies less than a span back. -/
def since (now span : Nat) : Option Nat → Bool
  | some t => decide (now < t + span)
  | none => false

/-- Codes of LN_STATE.STATE (R71). -/
def stateCode : LinkState → Nat
  | .disabled => 0 | .hold => 1 | .an => 2 | .stdTrain => 3 | .stdUp => 4 | .discover => 5 | .sound => 6 | .echoLearn => 7
  | .fullDuplex => 8 | .loconUp => 9 | .shift => 10 | .diag => 11

/-- The bit UP of a port and of a lane (R353). -/
def Port.isUp (x : Port) : Bool := x.link.state == .stdUp || x.link.state == .loconUp
def Lane.isUp (l : Lane) : Bool := l.state == .up

/-! ### Port registers -/

/-- LN_STATE (R70). -/
def State.lnState (s : State) (p : Fin 16) : Word :=
  let l := (s.port p).link
  flag 21 (l.state == .shift) ||| flag 20 (!l.upBars.isEmpty || decide (1 ≤ s.cal.level)) ||| flag 19 l.forceFail
    ||| flag 18 (s.reqInvalid p) ||| flag 17 l.partnerLocon ||| flag 16 l.leader ||| put 8 5 l.downCause
    ||| put 0 5 (stateCode l.state)

/-- LN_QUAL (R70). -/
def State.lnQual (s : State) (p : Fin 16) : Word :=
  let l := (s.port p).link
  let margin : Int := match l.modeAct with
    | some m => if isPam m then (l.ladder.mse : Int) - (dwellThr m + thrAdj (s.portReg p 5)) else 0
    | none => 0
  sput 16 16 margin ||| put 0 16 l.ladder.mse

/-- Whether precoding acts on what is sent (R80, R123): from training symbol 65,536 of FULL_DUPLEX on, and on blocks. -/
def State.precoding (s : State) (p : Fin 16) : Bool :=
  let x := s.port p
  x.tx.on && x.tx.precode && ((x.link.blocksOn && decide (x.link.blocksTick ≤ s.ticks)) ||
    (match x.tx.train with
      | some r => r.full && decide (stepTicks precodeFrom (s.txRate p) ≤ s.ticks - r.start)
      | none => false))

/-- LN_TX_STAT (R138): in quiet the narrow run goes on at 1.0 V (R130, R304). -/
def State.txStat (s : State) (p : Fin 16) : Word :=
  let x := s.port p
  let t := x.tx
  let run := x.quiet.state == .quiet
  put 24 8 t.spares.toNat ||| flag 19 t.ramp.isSome ||| flag 18 ((t.on || run) && t.spreading s.ticks) ||| flag 17 (s.precoding p)
    ||| flag 16 (t.on && decide (64 < tapSum t.ffeA t.ffeB)) ||| put 0 8 (if t.on then t.swing else if run then 100 else 0)

/-- Codes of TP_STAT.PROFILE (R120). -/
def profileCode : Profile → Nat
  | .off => 0 | .narrowBursts => 1 | .narrowRun => 2 | .wideRun => 3

/-- Pilot tracking locked (R97). -/
def Towpath.locked (t : Towpath) : Bool := decide (t.pilots.length = 4) && t.pilots.all id

/-- TP_STAT (R120). -/
def State.tpStat (s : State) (p : Fin 16) : Word :=
  let t := (s.port p).tow
  put 28 4 t.sf ||| put 26 2 (profileCode t.profile) ||| flag 25 t.locked
    ||| flag 24 (t.macFails.any (fun k => decide (s.ticks < k + secTicks 1))) ||| put 16 8 t.sndSeq.toNat ||| put 0 10 t.snrDb10

/-- Whether a crosstalk path runs, and whether it is defined but suspended (R153, R169). -/
def XtPath.active (k : XtPath) : Bool := k.used && !k.susp
def XtPath.held (k : XtPath) : Bool := k.used && k.susp

/-- Crosstalk paths into a port. -/
def State.pathsInto (s : State) (p : Fin 16) : List XtPath :=
  (s.reach (reachOf p)).paths.toList.filter (fun k => k.used && k.victim.val == p.val % 4)

/-- LN_RX_STAT (R167). -/
def State.rxStat (s : State) (p : Fin 16) : Word :=
  let x := s.port p
  put 26 6 x.rx.pga ||| put 22 4 x.rx.peak ||| put 16 2 x.rx.adcSpare.toNat ||| flag 11 x.rx.clip ||| flag 10 x.rx.autoFrz
    ||| flag 9 ((s.pathsInto p).any XtPath.held) ||| flag 8 x.rx.ulSkip
    ||| flag 7 (x.tow.locked && !since s.ticks (msTicks 1) x.rx.slipTick)

/-- LN_RX_PRED (R167). -/
def Port.rxPred (x : Port) : Word := put 20 10 x.rx.pred50 ||| put 10 10 x.rx.pred25 ||| put 0 10 x.rx.pred10

/-- LN_DMT_STAT (R190). -/
def Port.dmtStat (x : Port) : Word :=
  put 28 4 x.dmt.rx.i ||| put 24 4 x.dmt.tx.i ||| flag 17 x.dmt.sent.isSome ||| flag 16 x.dmt.pilotLow ||| put 0 16 x.dmt.clips

/-- LN_DMT_PAY and LN_DMT_BITS (R190): 0 outside LDMT. -/
def Port.dmtPayReg (x : Port) : Word := if x.link.modeAct == some .ldmt then x.dmtPay else 0
def Port.dmtBits (x : Port) : Word := put 16 16 x.dmt.tx.b ||| put 0 16 x.dmt.rx.b

/-- Whether a new DATA block has something to carry. -/
def State.packWaits (s : State) (p : Fin 16) : Bool :=
  let x := (s.port p).snd
  x.synced && (x.packing.isSome || !x.redo.isEmpty || !(s.packHeads p).isEmpty)

/-- LN_BLK_STAT (R224). -/
def State.blkStat (s : State) (p : Fin 16) : Word :=
  let x := s.port p
  flag 13 (x.blocksRun && !x.snd.synced) ||| flag 12 x.rcv.refused.isSome
    ||| flag 11 (s.packWaits p && decide (2 ^ 23 ≤ (x.snd.s - x.snd.rKnown).toNat))
    ||| flag 10 (s.packWaits p && decide (2 ^ x.snd.w ≤ (x.snd.s - x.snd.aKnown).toNat))
    ||| flag 9 (since s.ticks (msTicks 1) x.rcv.reordFull)
    ||| put 4 4 x.snd.gateRx.toNat ||| put 0 4 (s.gateTx p).toNat

/-- LN_QUIET_STAT (R311). -/
def Port.quietStat (x : Port) : Word :=
  let st := match x.quiet.state with | .active => 0 | .entering => 1 | .quiet => 2 | .deep => 3
  put 16 4 x.quiet.skip ||| flag 3 x.quiet.lpiRx ||| flag 2 x.quiet.lpiTx ||| put 0 2 st

/-- DG_UPTIME (R341). -/
def State.uptime (s : State) (p : Fin 16) : Nat :=
  match (s.port p).link.upTick with | some t => (s.ticks - t) / secTicks 1 | none => 0

/-- The read-only and live fields of a port register. -/
def State.portStatus (s : State) (p : Fin 16) (ix : Nat) : Word :=
  let x := s.port p
  match ix with
  | 0x01 => put 16 4 (match x.link.modeAct with | some m => modeCode m | none => 0)
  | 0x02 => s.lnState p
  | 0x03 => s.lnQual p
  | 0x14 => x.tx.ffeA
  | 0x15 => x.tx.ffeB
  | 0x16 => s.txStat p
  | 0x21 => s.tpStat p
  | 0x22 => put 16 16 x.tow.foff.toNat ||| put 0 16 x.tow.toff.toNat
  | 0x34 => s.rxStat p
  | 0x35 => put 0 16 x.rx.slips
  | 0x36 => put 16 16 x.rx.echoRes.toNat ||| put 0 16 x.rx.xtRes.toNat
  | 0x37 => x.rxPred
  | 0x41 => x.dmtStat
  | 0x42 => x.dmtPayReg
  | 0x43 => x.dmtBits
  | 0x51 => s.blkStat p
  | 0x52 => put 0 24 x.snd.s.toNat
  | 0x53 => put 0 24 x.snd.aKnown.toNat
  | 0x54 => put 0 24 x.rcv.a.toNat
  | 0x55 => put 0 24 x.rcv.r.toNat
  | 0x56 => x.rcv.session
  | 0x57 => put 16 16 x.snd.nacksInLast ||| put 0 16 x.snd.resentLast
  | 0x61 => x.quietStat
  | 0x62 => put 16 16 x.quiet.entered ||| put 0 16 x.quiet.skipped
  | 0x72 => x.tdr.stat
  | 0x73 => put 0 16 x.tdr.len.toNat
  | 0x77 => x.watchStat
  | 0x78 => x.watch.val
  | 0x79 => x.watch.loc
  | 0x7A => put 16 16 x.link.downs16 ||| put 0 16 x.link.shifts16
  | 0x7B => wd (s.uptime p)
  | _ => 0

/-! ### The other blocks -/

/-- CK_STAT (R63). -/
def State.ckStat (s : State) : Word :=
  put 27 5 s.sup.mdioAddr.toNat ||| put 25 2 s.sup.bootSel.toNat ||| flag 9 s.clk.holdover ||| flag 8 s.sup.watchOk
    ||| boolsAt 4 (s.clk.reach.toList.map (fun r => r.mode == .locked)) ||| flag 2 (s.clk.host.mode == .locked)
    ||| flag 1 (s.clk.core.mode == .locked) ||| flag 0 s.sup.refclkOk

/-- KS_STAT (R418). -/
def State.ksStat (s : State) : Word :=
  flag 4 s.keys.zeroising.isSome ||| flag 3 s.keys.zeroOk ||| flag 2 s.keys.identity ||| flag 1 s.otp.kek ||| flag 0 s.keys.fault

/-- IRQ_PARITY0 and IRQ_PARITY1 (R369). -/
def State.irqParity0 (s : State) : Word :=
  boolsAt 0 ((List.range 32).map (fun b => (b ≤ 6 || 8 ≤ b && b ≤ 11 || 16 ≤ b) && s.safeBlock b))
def State.irqParity1 (s : State) : Word :=
  boolsAt 0 ((List.range 8).map (fun n => s.safeBlock (laneBlock n)))
    ||| boolsAt 16 ((List.range 16).map (fun c => s.safeBlock (mboxBlock c)))

/-- IRQ_PAR_LOC (R369, R361): the first bad register found. -/
def State.irqParLoc (s : State) : Word :=
  match s.parity with
  | k :: _ => flag 31 true ||| put 16 7 (k / 256) ||| put 2 8 (k % 256)
  | [] => 0

/-- Whether a PLL gives a clock that its domain may be used with: locked, or in holdover (R46, R60, R63). -/
def PllRec.clocks (r : PllRec) : Bool := r.mode == .locked || r.mode == .holdover

/-- The domains that are on and usable as PD_STAT shows them (R60, R63): a PLL's only while it gives its clock. -/
def State.domainsOn (s : State) : BitVec 256 :=
  let out := (if s.clk.core.clocks then [] else [232]) ++ (if s.clk.host.clocks then [] else [233])
    ++ (allReaches.filter (fun r => !(s.clk.reach.get r).clocks)).map (fun r => reachDomain r 0)
  out.foldl (fun m d => setBit m d false) s.dom.on

/-- The fields of block 0x00 that do not depend on the live vectors. -/
def State.chipStatus (s : State) (ix : Nat) : Word :=
  match ix with
  | 0x00 => s.die.lot03
  | 0x01 => put 16 16 s.die.lot45.toNat
  | 0x02 => put 16 5 s.die.wafer.toNat ||| put 8 8 s.die.dieX.toNat ||| put 0 8 s.die.dieY.toNat
  | 0x03 => put 16 16 0x1650
  | 0x04 => put 8 8 s.die.major.toNat ||| put 0 8 s.die.minor.toNat
  | 0x08 => s.ckStat
  | 0x09 => put 16 4 s.sup.goodRun ||| put 0 12 s.sup.lastCount
  | 0x24 => s.irqParity0
  | 0x25 => s.irqParity1
  | 0x26 => s.irqParLoc
  | 0x31 => put 16 16 s.gdAbort ||| put 8 8 s.gdMismatch ||| put 0 8 s.gdBare
  | 0x32 => put 16 16 s.crcErr ||| put 0 16 s.frameErr
  | 0x41 => s.ksStat
  | 0x42 => boolsAt 0 ((List.range 32).map (fun i => (s.keys.key? i).isSome))
  | 0x43 => boolsAt 0 ((List.range 32).map (fun i => (s.keys.key? (32 + i)).isSome))
  | 0x44 => put 16 16 s.keys.zeroCnt ||| put 0 16 s.keys.unwrapFail
  | _ =>
    if 0x18 ≤ ix ∧ ix ≤ 0x1F then (s.domainsOn >>> (32 * (ix - 0x18))).setWidth 32
    else 0

/-- The registers of block 0x01 (R369, R393). -/
def State.keeperStatus (s : State) (ix : Nat) : Word :=
  let k := s.keeper
  match ix with
  | 0x00 => k.owner
  | 0x01 => put 0 8 k.ownerHl.toNat
  | 0x02 => put 0 16 k.ownCnt
  | 0x04 => put 16 8 k.bootErr ||| put 4 2 k.slot.toNat ||| flag 3 k.fw.staged ||| flag 2 (k.mode == .restarting)
      ||| flag 1 (k.mode == .romWait) ||| flag 0 (k.mode == .running)
  | 0x05 => k.version
  | 0x06 => put 16 8 k.lastCause ||| put 0 16 k.restarts
  | 0x07 => put 8 3 s.monitor.baud ||| flag 1 s.otp.monitorLock ||| flag 0 (since s.ticks (secTicks 1) s.monitor.active)
  | _ => 0

/-- TM_STAT (R297). -/
def State.tmStat (s : State) : Word :=
  let t := s.time
  put 16 11 t.cal.length ||| flag 7 (t.cal.any (fun e => e.2.isOpen && e.2.kind == .user))
    ||| flag 6 (s.cal.slotWait.any (fun e => !(e.2 && s.testHeld))) ||| flag 5 (decide (8 ≤ t.lockRun)) ||| flag 4 t.slew.isSome
    ||| flag 3 (!t.learns.isEmpty) ||| flag 2 (t.cads.any (fun e => e.2.lost)) ||| flag 1 (decide (1008 < t.cal.length))
    ||| flag 0 (t.cal.any (fun e => e.2.empty))

/-- The time that an interface's latch or the present instant shows in TM_NOW_S and TM_NOW_SH (R297). -/
def State.timeStatus (s : State) (i : Iface) (ix : Nat) : Word :=
  let t := s.time
  let l := (s.iface i).nowLatch
  match ix with
  | 0x00 => put 0 30 (nsInSec t.now)
  | 0x01 => wd (secOf l)
  | 0x02 => put 16 16 (fracOf l) ||| put 0 16 (secOf l / 2 ^ 32)
  | 0x03 => wdI (satI 32 s.rateInUse)
  | 0x06 => wd (secOf t.capS)
  | 0x07 => put 0 30 (nsInSec t.capS)
  | 0x08 => put 24 8 t.capSeq.toNat ||| put 0 16 (fracOf t.capS)
  | 0x0A => t.ofs
  | 0x0B => s.tmStat
  | 0x0C => put 16 16 t.lateCnt ||| put 0 16 t.dropped
  | _ => 0

/-- BS_STAT (R253). -/
def State.bsStat (s : State) : Word :=
  let b := s.basin
  put 16 7 b.inService ||| put 8 3 b.spares ||| flag 4 s.repairing
    ||| flag 3 (decide (s.hopCap < s.sumHop b.queues)) ||| flag 2 b.hopGate.isSome ||| flag 1 (b.queues.any (·.demoted))
    ||| flag 0 (decide (b.inService < 64))

/-- PL_STAT (R253). -/
def State.plStat (s : State) : Word :=
  let b := s.basin
  boolsAt 24 ((List.range 8).map (fun n => (s.lane (Fin.ofNat 8 n)).isUp))
    ||| boolsAt 16 ((List.range 8).map (fun n => b.queues.any (fun q => q.lane == some n)))
    ||| flag 2 s.protShort ||| flag 1 (b.queues.any (fun q => q.move.isSome)) ||| flag 0 (b.lineShort != 0)

/-- The registers of block 0x03 (R253). -/
def State.basinStatus (s : State) (ix : Nat) : Word :=
  match ix with
  | 0x02 => s.bsStat
  | 0x03 => put 0 18 s.freeCells
  | 0x04 => put 0 18 (s.sumCells s.basin.queues + s.ownCells)
  | 0x05 => put 0 17 s.freeTickets
  | 0x06 => put 0 17 (s.sumTickets s.basin.queues)
  | 0x07 => put 16 16 s.basin.corr ||| put 0 16 s.basin.uncorr
  | 0x22 => s.plStat
  | 0x31 => match s.mdio.latched with | some (k, _) => put 1 2 k ||| flag 0 true | none => 0
  | _ => 0

/-- The registers of block 0x04 (R403). -/
def State.tallyStatus (s : State) (ix : Nat) : Word :=
  let t := s.tally
  let seq := fun (b : Option Snapshot) => match b with | some x => wd x.seq | none => (0 : Word)
  match ix with
  | 0x01 => flag 2 (decide (16 ≤ s.tagged)) ||| flag 1 t.logFull ||| flag 0 t.copying.isSome
  | 0x02 => seq t.buf0
  | 0x03 => seq t.buf1
  | 0x06 => put 16 11 t.log.length ||| put 0 10 t.logNext
  | _ => 0

/-- The registers of block 0x05 (R414). -/
def State.testStatus (s : State) (ix : Nat) : Word :=
  let t := s.test
  match ix with
  | 0x03 => boolsAt 16 (s.ports.toList.map (fun x => x.test.fault)) ||| put 8 7 (t.bank.getD 0x7F)
      ||| flag 2 (s.ports.toList.any (fun x => x.test.loop)) ||| flag 1 t.waiting ||| flag 0 t.marching
  | 0x04 => put 16 16 t.passes ||| put 0 16 t.fails
  | 0x05 => put 24 8 t.lbRuns.toNat ||| put 0 2 t.lbResult
  | 0x06 => t.loopErr
  | _ => 0

/-- The registers of block 0x06 (R328). -/
def State.calStatus (s : State) (ix : Nat) : Word :=
  let rs := s.reaches.toList
  if ix = 0x02 then
    boolsAt 16 (s.ports.toList.map (fun x => x.cal.fault)) ||| flag 10 (rs.any (·.subst)) ||| flag 9 s.cal.refFault
      ||| flag 8 (since s.ticks (usTicks 20) s.cal.anchorRun) ||| boolsAt 4 (rs.map (·.calRun)) ||| boolsAt 0 (rs.map (·.calPend))
  else if 0x04 ≤ ix ∧ ix ≤ 0x08 then sput 0 16 (s.cal.reading (Fin.ofNat 5 (ix - 4)))
  else if 0x09 ≤ ix ∧ ix ≤ 0x0C then
    let r := s.reach (Fin.ofNat 4 (ix - 9))
    put 16 8 r.runs.toNat ||| (match r.tref with | some t => sput 0 16 t | none => 0x8000)
  else if 0x10 ≤ ix ∧ ix ≤ 0x1F then
    let c := (s.port (portNo (ix - 0x10))).cal
    put 30 2 c.fails ||| put 20 10 c.dacRes ||| put 10 10 c.skewRes ||| put 0 10 c.eye
  else 0

/-- RH_XT_PATHk (R169): with AUTO at 1 its definition shows the allocation. -/
def XtPath.word (k : XtPath) (auto_ : Bool) : Word :=
  (if auto_ then flag 31 k.used ||| flag 30 k.fext ||| put 2 2 k.victim.val ||| put 0 2 k.aggr.val else 0)
    ||| flag 29 k.active ||| flag 28 k.held ||| put 8 8 k.coupling.toNat

/-- The registers of a reach block. -/
def State.reachStatus (s : State) (r : Fin 4) (ix : Nat) : Word :=
  if h : 0x24 ≤ ix ∧ ix ≤ 0x2F then ((s.reach r).paths.get ⟨ix - 0x24, by omega⟩).word (bit (s.xtCtrl r) 8) else 0

/-- Codes of HL_STAT.STATE (R272). -/
def laneCode : LaneState → Nat
  | .off => 0 | .starting => 1 | .up => 2 | .lost => 3

/-- The registers of a host lane (R272). -/
def State.laneStatus (s : State) (n : Fin 8) (ix : Nat) : Word :=
  let l := s.lane n
  match ix with
  | 0x02 => put 8 4 l.cause ||| flag 6 l.paused.isSome ||| flag 5 l.remFault ||| flag 4 l.amLock ||| flag 3 l.blockLock
      ||| flag 2 l.rxSig ||| put 0 2 (laneCode l.state)
  | 0x03 => put 16 16 l.fecCorr.toNat ||| put 0 16 l.fecUncorr.toNat
  | 0x04 => put 16 16 l.disc ||| put 0 16 l.ign
  | _ => 0

/-- An event record in response cells 0 and 1 (R391). -/
def EventRec.words (e : EventRec) : List Word :=
  [put 24 8 e.unit.toNat ||| put 16 7 e.block.toNat ||| put 0 16 e.code.toNat, e.seq, e.ts, e.sec, e.e0, e.e1, e.e2, e.e3]

/-- The oldest untaken record as channel 15 presents it; 0 where there is none. -/
def EventRing.shown (r : EventRing) (k : Nat) : Word :=
  match r.untaken with
  | e :: _ => e.words.getD k 0
  | [] => 0

/-- The registers of a mailbox channel (R380, R381, R382, R391): the response cells read 0 while the channel is busy. -/
def State.mboxStatus (s : State) (c : Fin 16) (ix : Nat) : Word :=
  let ch := s.chan c
  if ix < 0x40 then ch.req.get (Fin.ofNat 64 ix)
  else if ix < 0x80 then if c.val = 15 then s.ring.shown (ix - 0x40) else if ch.busy then 0 else ch.resp.get (Fin.ofNat 64 (ix - 0x40))
  else if ix = 0x81 then
    put 16 8 (if c.val = 15 then min 255 s.ring.untaken.length else 0) ||| put 8 4 ch.reject
      ||| flag 1 (if c.val = 15 then !s.ring.untaken.isEmpty else ch.done) ||| flag 0 ch.busy
  else 0

/-! ### Live vectors (R352, R353) -/

/-- The LS fields of a block kind, as (index, highest bit, width), in increasing register offset and from the most
significant bit downwards. -/
def lsFields : BlockKind → List (Nat × Nat × Nat)
  | .chip => []
  | .keeper => [(0x04, 3, 4), (0x07, 0, 1)]
  | .time => [(0x0B, 7, 8)]
  | .basin => [(0x02, 4, 5), (0x22, 31, 16), (0x22, 2, 3), (0x31, 0, 1)]
  | .tally => [(0x01, 2, 3)]
  | .selfTest => [(0x03, 31, 16), (0x03, 2, 3)]
  | .cal => [(0x02, 31, 16), (0x02, 10, 11)]
  | .reach => (List.range 12).map (fun k => (0x24 + k, 29, 2))
  | .port => [(0x02, 21, 6), (0x16, 19, 4), (0x21, 25, 2), (0x34, 11, 5), (0x41, 17, 2), (0x51, 13, 5), (0x51, 7, 4),
      (0x51, 3, 4), (0x61, 3, 2), (0x72, 4, 1), (0x77, 10, 3), (0x77, 7, 4), (0x77, 3, 4), (0x79, 6, 1)]
  | .lane => [(0x02, 6, 5)]
  | .mbox => [(0x81, 1, 2)]

/-- The status fields of a register of a canonical block, live vectors and counters apart. -/
def State.status (s : State) (i : Iface) (b ix : Nat) : Word :=
  match blockKind b with
  | .chip => s.chipStatus ix
  | .keeper => s.keeperStatus ix
  | .time => s.timeStatus i ix
  | .basin => s.basinStatus ix
  | .tally => s.tallyStatus ix
  | .selfTest => s.testStatus ix
  | .cal => s.calStatus ix
  | .reach => s.reachStatus (Fin.ofNat 4 b) ix
  | .port => s.portStatus (portNo b) ix
  | .lane => s.laneStatus (Fin.ofNat 8 b) ix
  | .mbox => s.mboxStatus (Fin.ofNat 16 b) ix

/-- Bits of a word from `hi` downwards. -/
def bitsDown (v : Word) (hi n : Nat) : List Bool := (List.range n).map (fun k => bit v (hi - k))

/-- The bits of a block's live vector, from bit 0 of LIVE0 (R353). -/
def State.liveBits (s : State) (b : Nat) : List Bool :=
  if b = 0 then
    let ck := s.ckStat
    (List.range 10).map (fun i => i != 3 && bit ck i) ++ List.replicate 6 false ++ [!s.parity.isEmpty]
      ++ List.replicate 7 false ++ bitsDown s.ksStat 4 5
  else
    let k := blockKind b
    (lsFields k).flatMap (fun (ix, hi, n) => bitsDown (s.status .spi b ix) hi n)
      ++ (if k = .port then [(s.port (portNo b)).isUp] else if k = .lane then [(s.lane (Fin.ofNat 8 b)).isUp] else [])

/-- `<P>_LIVE0` and `<P>_LIVE1`. -/
def State.live (s : State) (b n : Nat) : Word := boolsAt 0 (((s.liveBits b).drop (32 * n)).take 32)

/-- Whether a block raises its summary bit (R354). -/
def State.raises (s : State) (b : Nat) : Bool :=
  (List.range 2).any (fun n => (s.live b n ^^^ s.act (regKey b (0xFC + n))) &&& s.act (regKey b (0xFA + n)) != 0)

/-- IRQ_SUM0 and IRQ_SUM1 (R354, R369). -/
def State.irqSum0 (s : State) : Word :=
  boolsAt 0 ((List.range 32).map (fun b => (b ≤ 6 || 8 ≤ b && b ≤ 11 || 16 ≤ b) && s.raises b))
def State.irqSum1 (s : State) : Word :=
  boolsAt 0 ((List.range 8).map (fun n => s.raises (laneBlock n)))
    ||| boolsAt 16 ((List.range 16).map (fun c => s.raises (mboxBlock c)))

/-- IRQ_N (R354): low while an enabled summary bit stands. -/
def State.irqN (s : State) : Bool :=
  s.irqSum0 &&& s.act (regKey 0 0x22) == 0 && s.irqSum1 &&& s.act (regKey 0 0x23) == 0

/-- The SAFE_N pin (R47, R52, R431): low also at thermal level 3. -/
def State.safePin (s : State) : Bool := s.sup.safeN && decide (s.cal.level < 3)

/-! ### The levels of the output balls (R13, R354) -/

/-- The output signals of R13. -/
inductive OutPin where
  | spiMiso | mdio | monTxd | tmark | flSck | flCsN | flIo | irqN | safeN | tdo
  deriving DecidableEq, Repr

/-- What the part drives on a ball: an open-drain output is driven low or released, which is high-impedance. -/
inductive PinLevel where
  | low | high | hiZ
  deriving DecidableEq, Repr

/-- A driven level. -/
def driven (b : Bool) : PinLevel := if b then .high else .low

/-- An open-drain output. -/
def openDrain (released : Bool) : PinLevel := if released then .hiZ else .low

/-- The level of an output ball between two commands (R13): in hard reset as the table gives it. Outside reset the SPI, MDIO,
flash and monitor outputs rest between transfers as they stand in reset (of SPI_MISO the table says so: high-impedance while
SPI_CS_N is high; the others are a DESIGN CHOICE, notes/assumptions/58.md). -/
def State.outPin (s : State) : OutPin → PinLevel
  | .spiMiso | .mdio | .flIo => .hiZ
  | .monTxd | .flCsN => .high
  | .flSck => .low
  | .tmark => driven s.time.tmark
  | .irqN => openDrain (s.sup.stage == .hardReset || s.irqN)
  | .safeN => openDrain s.safePin
  | .tdo => match s.tap.tdo with | some b => driven b | none => .hiZ

/-! ### Counters (R396, R400) -/

/-- Counter i of a block as an interface reads its low and high register: the high one may be latched, and so may both of
the counter that a chained one carries into. -/
def State.ctrLo (s : State) (i : Iface) (b n : Nat) : Word :=
  match (s.iface i).chiLatch with
  | (k, _) :: l => if k = ctrKey b n then ((s.tally.counter b n).setWidth 32) else
      match l.find? (fun e => e.1 == ctrKey b n) with
      | some (_, v) => v.setWidth 32
      | none => (s.tally.counter b n).setWidth 32
  | [] => (s.tally.counter b n).setWidth 32
def State.ctrHi (s : State) (i : Iface) (b n : Nat) : Word :=
  match (s.iface i).chiLatch.find? (fun e => e.1 == ctrKey b n) with
  | some (_, v) => (v >>> 32).setWidth 32
  | none => (s.tally.counter b n >>> 32).setWidth 32

/-! ### Indirect windows (R367) -/

/-- An entry of a list at an offset within a span of addresses. -/
def entryAt (l : List (BitVec 16)) (base n a : Nat) : Option Word :=
  if base ≤ a ∧ a < base + n then some (sx16 (l.getD (a - base) 0)) else none

/-- An unsigned entry of a list. -/
def natAt (l : List Nat) (base n a : Nat) : Option Word :=
  if base ≤ a ∧ a < base + n then some (wd (l.getD (a - base) 0)) else none

/-- The first answer of a list. -/
def firstOf (l : List (Option Word)) : Word := (l.findSome? id).getD 0

/-- Bits per carrier of a loading, carriers 0 to 2047. -/
def Loading.table (l : Loading) : List Nat := List.replicate 4 0 ++ l.bits

/-- A reference of the cable watch as R342 lays it out. -/
def WatchRef.entries (r : WatchRef) : List Nat := r.snd.loss ++ r.snd.noise ++ [r.swing]

/-- The indirect window of a port (R117, R168, R191, R342). -/
def State.portInd (s : State) (p : Fin 16) (a : Nat) : Word :=
  let x := s.port p
  let snd : List (Option Word) := match x.tow.snd with
    | some w => [entryAt w.cir 0x2000 1024 a, entryAt w.echo 0x2400 1024 a, natAt [w.delay] 0x2800 1 a, natAt w.loss 0x2840 64 a,
        natAt w.noise 0x2880 64 a,
        if w.wide ∧ 0x28C0 ≤ a ∧ a ≤ 0x28C2 then some (wdI ([w.a, w.b, w.c].getD (a - 0x28C0) 0)) else none]
    | none => []
  let rfs : List (Option Word) := match x.watch.refWide with | some r => [natAt r.entries 0x7000 192 a] | none => []
  firstOf (snd ++ [entryAt x.rx.ffe 0x3000 24 a, entryAt x.rx.dfe 0x3020 4 a, entryAt x.rx.dense 0x3400 512 a,
    entryAt x.rx.float 0x3600 32 a, entryAt x.rx.clusters 0x3620 8 a, natAt x.dmt.rx.table 0x4000 2048 a,
    natAt x.dmt.tx.table 0x4800 2048 a,
    if 0x5000 ≤ a ∧ a < 0x5800 then some (wdI (satI 16 ((List.replicate 4 0 ++ x.dmt.snr).getD (a - 0x5000) 0))) else none,
    if 0x6000 ≤ a ∧ a < 0x6008 then some (x.tdr.events.getD (a - 0x6000) 0) else none,
    entryAt x.tdr.wide 0x6100 1024 a, entryAt x.tdr.narrow 0x6500 1024 a] ++ rfs)

/-- The eight words of a queue (R254): a free queue reads 0. -/
def State.queueWords (s : State) (q : Queue) : List Word :=
  let st := if q.closing.isSome then 2 else 1
  let cls := match q.cls with | .none => 0 | .hop => 1 | .through => 2
  let r := s.resv q
  [put 30 2 st ||| flag 29 q.outbound ||| put 27 2 cls ||| put 24 3 q.prio ||| flag 23 q.demoted ||| put 20 3 (q.lane.getD 0)
      ||| put 17 3 q.region ||| flag 16 q.move.isSome,
    wd q.bRes, wd q.lat, wd q.rB, put 16 16 q.fMin ||| put 0 16 r.1, put 0 18 r.2.1, put 0 18 (s.heldCells q.num),
    put 16 16 q.nextSeq.toNat ||| put 0 16 (s.lowSeq q).toNat]

/-- The indirect window of block 0x03 (R254). -/
def State.basinInd (s : State) (a : Nat) : Word :=
  if a < 0x8000 then
    match s.queue? (a / 8) with | some q => (s.queueWords q).getD (a % 8) 0 | none => 0
  else if a < 0x8008 then wd ((s.load s.basin.queues (Fin.ofNat 8 a) false) / 10).floor.toNat
  else if a < 0x8010 then wd ((s.load s.basin.queues (Fin.ofNat 8 a) true) / 10).floor.toNat
  else if 0x8100 ≤ a ∧ a < 0x8140 then match s.basin.physOf (a - 0x8100) with | some b => wd b | none => 0
  else 0

/-- Codes of calendar kinds (R298). -/
def kindCode : CalKind → Nat
  | .snapshot => 0 | .commit => 1 | .hostEvent => 2 | .tmark => 3 | .quiet => 4 | .calSlice => 5 | .testSlice => 6 | .user => 7

/-- Words of a calendar entry (R298). -/
def CalEntry.words (e : CalEntry) : List Word :=
  let t := e.stop.getD 0
  [flag 31 true ||| put 28 3 (kindCode e.kind) ||| flag 27 e.isOpen ||| flag 26 e.late ||| flag 25 e.empty ||| flag 24 e.startP.abs
      ||| put 16 8 e.repeatK ||| put 8 8 (if e.startP.abs then 0 else e.startP.entry) ||| put 5 3 e.source ||| put 0 4 e.target,
    put 16 16 e.left ||| put 0 16 e.acted, put 0 30 (nsInSec e.start), wd (secOf e.start),
    if e.stop.isSome then put 0 30 (nsInSec t) else 0, if e.stop.isSome then wd (secOf t) else 0,
    put 0 4 e.chan ||| put 8 5 (if e.kind = .commit then e.writes.length else 0)]

/-- Word 0 of a cadence entry in the view of R298. -/
def Cadence.view0 (c : Cadence) (e : Nat) : Word :=
  flag 31 true ||| flag 30 c.lost ||| flag 29 c.track ||| flag 28 c.govern ||| put 16 12 c.queue ||| put 0 8 e

/-- The indirect window of block 0x02 (R298). -/
def State.timeInd (s : State) (a : Nat) : Word :=
  if a < 0x1000 then
    match s.time.cad? (a / 16) with | some c => (c.view0 (a / 16) :: c.words).getD (a % 16) 0 | none => 0
  else if 0x4000 ≤ a ∧ a < 0x6000 then
    match s.cal? ((a - 0x4000) / 8) with | some e => e.words.getD (a % 8) 0 | none => 0
  else 0

/-- One half of a 48-bit pair. -/
def half48 (v : BitVec 48) (hi : Bool) : Word := if hi then (v >>> 32).setWidth 32 else v.setWidth 32

/-- A snapshot buffer's part of the window (R404). -/
def Snapshot.word (n : Snapshot) (a : Nat) : Word :=
  if a < 0x500 then half48 (tabGet 0 n.counters (a / 16 * 8 + a % 16 / 2)) (a % 2 == 1)
  else if a < 0x804 then
    [wd n.seq, put 0 30 (nsInSec n.time), wd (secOf n.time), put 0 16 (secOf n.time / 2 ^ 32) ||| put 16 16 n.missed].getD (a - 0x800) 0
  else half48 (tabGet 0 n.slots ((a - 0x900) / 2)) (a % 2 == 1)

/-- The indirect window of block 0x04 (R404): a live high word may be latched. -/
def State.tallyInd (s : State) (i : Iface) (a : Nat) : Word :=
  let t := s.tally
  if a < 0x500 ∨ (0x800 ≤ a ∧ a < 0x804) ∨ (0x900 ≤ a ∧ a < 0x940) then
    match (if t.buf then t.buf1 else t.buf0) with | some n => n.word a | none => 0
  else if 0xA00 ≤ a ∧ a < 0xA40 then
    match (s.iface i).indLatch with
    | some (k, v) => if k = a then v else half48 (tabGet 0 t.slots ((a - 0xA00) / 2)) (a % 2 == 1)
    | none => half48 (tabGet 0 t.slots ((a - 0xA00) / 2)) (a % 2 == 1)
  else if 0x1000 ≤ a ∧ a < 0x5000 then (tabGet [] t.log ((a - 0x1000) / 16)).getD (a % 16) 0
  else 0

/-- Faulty-element marks (R414). -/
def State.testInd (s : State) (a : Nat) : Word :=
  if 0x1000 ≤ a ∧ a < 0x1080 then
    let t := (s.port (portNo ((a - 0x1000) / 8))).test
    match a % 8 with
    | 0 => t.badSlices.setWidth 32
    | 1 => (t.badSlices >>> 32).setWidth 32
    | 2 => t.badCells.setWidth 32
    | 3 => (t.badCells >>> 32).setWidth 32
    | 4 => (t.badCells >>> 64).setWidth 32
    | _ => 0
  else 0

/-- The set in force of a port (R328). -/
def State.calInd (s : State) (a : Nat) : Word :=
  if 0x1000 ≤ a ∧ a < 0x2000 then
    match (s.port (portNo ((a - 0x1000) / 256))).cal.inForce with | some c => Config.calWord c (a % 256) | none => 0
  else 0

/-- Crosstalk taps (R169). -/
def State.reachInd (s : State) (r : Fin 4) (a : Nat) : Word :=
  if 0x1000 ≤ a ∧ a < 0x1300 then sx16 (((s.reach r).paths.get (Fin.ofNat 12 ((a - 0x1000) / 64))).taps.getD (a % 64) 0) else 0

/-- The entry at an indirect address of a block; an unused address reads 0 (R367). -/
def State.ind (s : State) (i : Iface) (b a : Nat) : Word :=
  match blockKind b with
  | .time => s.timeInd a
  | .basin => s.basinInd a
  | .tally => s.tallyInd i a
  | .selfTest => s.testInd a
  | .cal => s.calInd a
  | .reach => s.reachInd (Fin.ofNat 4 b) a
  | .port => s.portInd (portNo b) a
  | .chip | .keeper | .lane | .mbox => 0

/-- IND_ADDR of an interface: the keeper has its own (R367). -/
def State.indAddr (s : State) (i : Iface) (b : Nat) : Word :=
  match i with
  | .keeper => tabGet 0 s.keeperInd b
  | _ => s.reg (regKey b 0xFE)

/-! ### What a register reads as (R350, R351) -/

/-- The registers that every block holds, from index 0xE0 on. -/
def State.commonRead (s : State) (i : Iface) (b ix : Nat) : Word :=
  if ix < 0xE8 then s.reg (regKey b ix)
  else if ix < 0xF0 then s.ctrLo i b (ix - 0xE8)
  else if ix < 0xF8 then s.ctrHi i b (ix - 0xF0)
  else if ix < 0xFA then s.live b (ix - 0xF8)
  else if ix < 0xFE then s.reg (regKey b ix)
  else if ix = 0xFE then s.indAddr i b
  else s.ind i b (fld (s.indAddr i b) 0 24)

/-- A path register reads the allocation with AUTO at 1, its stored table otherwise (R169). -/
def State.hidesStored (s : State) (b ix : Nat) : Bool :=
  blockKind b == .reach && decide (0x24 ≤ ix ∧ ix ≤ 0x2F) && bit (s.xtCtrl (Fin.ofNat 4 b)) 8

/-- The value that an interface reads at a register of a canonical block: stored fields, status fields, 0 elsewhere and at
an unused index. -/
def State.peek (s : State) (i : Iface) (b ix : Nat) : Word :=
  if 0xE0 ≤ ix then s.commonRead i b ix
  else if b = 0 ∧ ix = 0x20 then s.irqSum0
  else if b = 0 ∧ ix = 0x21 then s.irqSum1
  else (if s.hidesStored b ix then 0 else s.reg (regKey b ix)) ||| s.status i b ix

/-! ### What every command leaves in line (R352, R398, R57) -/

/-- Whether a selector counts rising live bits of its block: codes 0x0100 to 0x013F, edge mode. -/
def liveSelected (v : Word) : Option Nat :=
  if bit v 18 = false ∧ 0x100 ≤ fld v 0 16 ∧ fld v 0 16 < 0x140 then some (fld v 0 16 - 0x100) else none

/-- One selector's part: its live bit has risen. -/
def State.countRise (old : State) (s : State) (e : Nat × Word) : State :=
  let b := e.1 / 256
  let i := e.1 % 256 - 0xE0
  if 0xE0 ≤ e.1 % 256 ∧ e.1 % 256 ≤ 0xE7 then
    match liveSelected (s.csel b i) with
    | some k =>
      if s.receives b i = false ∧ (old.liveBits b).getD k false = false ∧ (s.liveBits b).getD k false = true then
        { s with tally := s.tally.add (s.chains b i) b i 1 }
      else s
    | none => s
  else s

/-- Whether the line of a port carries REMOTE cells: Locon, up or in a shift. -/
def Port.remoteRuns (x : Port) : Bool := x.link.state == .loconUp || x.link.state == .shift

/-- A REMOTE_CMD whose link has gone down has sent for the last time (R107, R385); an operation that waits for the host's
answer is dropped with it. -/
def State.remoteSweep (s : State) (c : Fin 16) : State :=
  match (s.chan c).work with
  | some (.remote p _ _) => if (s.port (portNo p)).remoteRuns then s else s.answer c 0x0301 []
  | _ => s

/-- Operations that no answer can reach any more are dropped. -/
def State.remoteDrop (s : State) : State :=
  if s.ports.toList.any (fun x => !x.remoteRuns && !x.remIn.isEmpty) then
    { s with ports := s.ports.map (fun (x : Port) => if x.remoteRuns then x else { x with remIn := [] }) }
  else s

/-- What a commit saves of a queue (R432): attributes, lane and home region. -/
def Queue.saved (q : Queue) : List Nat × BitVec 8 × Option Nat :=
  ([q.num, if q.outbound then 1 else 0, match q.cls with | .none => 0 | .hop => 1 | .through => 2, q.prio, q.bRes, q.lat, q.rB,
    q.fMin, q.region], q.laneMask, q.lane)

/-- What a commit saves of a cadence entry, but for the anchor of one that tracks. -/
def Cadence.saved (c : Cadence) : List Nat × Bool × Bool :=
  ([c.queue, c.pf, c.pl, c.nl, c.a0, c.na, if c.track then 0 else c.ta], c.govern, c.track)

/-- A change of the placement table or of a cadence entry asks for an automatic commit (R434). -/
def State.journalNotice (s old : State) : State :=
  if old.keeper.mode == .running && s.keeper.mode == .running && !s.journal.changed
      && (old.basin.queues.map Queue.saved != s.basin.queues.map Queue.saved
        || old.time.cads.map (fun e => (e.1, e.2.saved)) != s.time.cads.map (fun e => (e.1, e.2.saved))) then
    { s with journal := { s.journal with changed := true } }
  else s

/-- What follows every command: rising live bits that a counter selects are counted, REMOTE operations of a fallen link end,
a changed table asks for a commit, and the power domains are brought in line with what the part asks for. -/
def settle (old s : State) : State :=
  (((allChans.foldl State.remoteSweep (s.regs.foldl (State.countRise old) s)).remoteDrop).journalNotice old).syncDomains

end Sys2Proof.Machine
end

