-- ==== Sys2Proof/Machine/RegWrite.lean ====
section
/-! DEFINITION. Writing and reading a register (R350 to R359, R364 to R367, R400): what each register does when it is
written, the stored image, the indirect windows, the latches of a read, and the guard's counts. Doorbells are in Auzer. -/

namespace Sys2Proof.Machine

/-! ### What each register does when it is written -/

/-- What a command found, given or drawn. -/
def State.supply (s : State) : Option Supplied → Supplied × State
  | some x => (x, s)
  | none => let (d, s1) := s.draw; (Config.supplied d, s1)

/-- CK_RESET (R51, R53, R54): a soft reset overrides the others of the same write. -/
def State.resetActed (s : State) (acted : Word) : State :=
  if bit acted 0 then s.softReset 5 false
  else
    let s1 := if bit acted 1 then s.controlPlane 5 else s
    let s2 := allLanes.foldl (fun (t : State) n => if bit acted (8 + n.val) then t.laneReset n else t) s1
    allPorts.foldl (fun (t : State) p => if bit acted (16 + p.val) then t.portReset p else t) s2

/-- Block 0x00. -/
def State.chipEffect (s : State) (ix : Nat) (old acted : Word) (sup : Option Supplied) : State :=
  if ix = 0x0B then s.resetActed acted
  else if 0x10 ≤ ix ∧ ix ≤ 0x17 then
    let (x, s1) := s.supply sup
    s1.forceWritten (Fin.ofNat 8 (ix - 0x10)) old x.zeroOk
  else if ix = 0x40 ∧ bit acted 0 = true then
    let (x, s1) := s.supply sup
    s1.zeroise 1 x.zeroOk
  else s

/-- Block 0x02 (R298). -/
def State.timeEffect (s : State) (ix : Nat) (old : Word) : State :=
  match ix with
  | 0x04 => s.timeWritten .ctrl old
  | 0x05 => s.timeWritten .tmark old
  | 0x09 => s.timeWritten .xfer old
  | _ => s

/-- Block 0x03 (R255). -/
def State.basinEffect (s : State) (ix : Nat) (old acted : Word) : State :=
  match ix with
  | 0x00 => s.basinWritten .bsCtrl old
  | 0x01 => s.basinWritten .hopCap old
  | 0x20 =>
    let s1 := s.basinWritten .plCtrl old
    if bit acted 2 then s1.rebalance else s1
  | 0x21 => s.basinWritten .laneMask old
  | 0x30 => s.basinWritten .compat old
  | _ => s

/-- Block 0x04 (R402, R403, R407, R409). -/
def State.tallyEffect (s : State) (ix : Nat) (old acted : Word) : State :=
  match ix with
  | 0x00 =>
    let s1 := s.bufWritten
    if bit acted 1 then s1.snapNow else s1
  | 0x04 => s.tagWritten old
  | 0x05 => s.seedWritten
  | _ => s

/-- Block 0x05 (R413, R414): ST_OFFLINE starts what its preconditions allow. -/
def State.testEffect (s : State) (ix : Nat) (acted : Word) (sup : Option Supplied) : State :=
  if ix = 0x02 then
    let s1 := allPorts.foldl (fun (t : State) p => if bit acted (16 + p.val) then t.startLoop p else t) s
    if bit acted 0 then
      let (x, s2) := s1.supply sup
      s2.startLbist x.zeroOk
    else s1
  else s

/-- Block 0x06 (R329). -/
def State.calEffect (s : State) (ix : Nat) (old : Word) : State :=
  match ix with
  | 0x00 => s.calCtrlWritten
  | 0x20 => s.calOvrWritten old
  | _ => s

/-- Reach blocks (R170). -/
def State.reachEffect (s : State) (r : Fin 4) (ix : Nat) (old : Word) : State :=
  if ix = 0x20 then s.xtWritten r .ctrl old
  else if h : 0x24 ≤ ix ∧ ix ≤ 0x2F then s.xtWritten r (.path ⟨ix - 0x24, by omega⟩) old
  else s

/-- Port blocks (R87, R100, R101, R140, R170, R188, R225, R308, R312, R330, R343). -/
def State.portEffect (s : State) (p : Fin 16) (ix : Nat) (old acted : Word) : State :=
  match ix with
  | 0x00 => s.policyWritten p old
  | 0x01 => s.modeWritten p old
  | 0x10 => s.txWritten p .ctrl
  | 0x11 => s.txWritten p .rampLen
  | 0x12 => s.txWritten p .ffeA
  | 0x13 => s.txWritten p .ffeB
  | 0x17 => s.txTestWritten p
  | 0x20 => s.sfSync p
  | 0x30 => s.rxWritten p .ctrl
  | 0x31 => s.rxWritten p .mu
  | 0x32 => s.rxWritten p .frz
  | 0x33 => s.rxWritten p .tim
  | 0x40 => s.dmtCtrlWritten p old
  | 0x50 => s.blkCtrlWritten p old
  | 0x60 =>
    let s1 := s.quietRegWritten p .quietCtrl old
    if bit acted 1 then s1.wake p else s1
  | 0x63 => s.quietRegWritten p .lpiCtrl old
  | 0x70 => if bit acted 0 then s.tdrStartReg p else s
  | 0x71 => s.dgWritten p .cfg old
  | 0x74 =>
    let s1 := s.dgWritten p .watchCtrl old
    let s2 := if bit acted 3 then s1.clearRef p else s1
    if bit acted 2 then s2.capture p else s2
  | 0x75 => s.dgWritten p .warn old
  | 0x76 => s.dgWritten p .alarm old
  | _ => s

/-- Host-lane blocks (R273). -/
def State.laneEffect (s : State) (n : Fin 8) (ix : Nat) (old : Word) : State :=
  match ix with
  | 0x00 => s.laneWritten n .ctrl old
  | 0x01 => s.laneWritten n .txEq old
  | _ => s

/-- CLR of a counter selector (R396): the counter, and its high counter when CHAIN is in effect. -/
def State.clearCounter (s : State) (b n : Nat) : State :=
  let t := s.tally.setCounter b n 0
  { s with tally := if s.chains b n then t.setCounter b (n + 1) 0 else t }

/-- What a register does once its image is written: `old` is the image before, `acted` the self-clearing bits that act. -/
def State.regEffect (s : State) (b ix : Nat) (old acted : Word) (sup : Option Supplied) : State :=
  if 0xE0 ≤ ix then (if ix ≤ 0xE7 ∧ bit acted 31 = true then s.clearCounter b (ix - 0xE0) else s)
  else match blockKind b with
    | .chip => s.chipEffect ix old acted sup
    | .keeper | .mbox => s
    | .time => s.timeEffect ix old
    | .basin => s.basinEffect ix old acted
    | .tally => s.tallyEffect ix old acted
    | .selfTest => s.testEffect ix acted sup
    | .cal => s.calEffect ix old
    | .reach => s.reachEffect (Fin.ofNat 4 b) ix old
    | .port => s.portEffect (portNo b) ix old acted
    | .lane => s.laneEffect (Fin.ofNat 8 b) ix old

/-! ### The stored image -/

/-- Whether a write may change the stored image: a path register takes none with AUTO at 1 (R169). -/
def State.takesWrite (s : State) (b ix : Nat) : Bool := !s.hidesStored b ix

/-- The stored image that a write makes. -/
def State.imageOf (s : State) (b ix : Nat) (guarded : Bool) (way : Way) (v : Word) : Word :=
  let key := regKey b ix
  if s.takesWrite b ix then writeFields (keyFields key) guarded way (s.reg key) v else s.reg key

/-- A request cell of a channel that is not busy (R382). -/
def State.cellWritten (s : State) (c : Fin 16) (k : Nat) (way : Way) (v : Word) : State :=
  if (s.chan c).busy then s
  else s.modChan c (fun ch => { ch with
    req := ch.req.set (k % 64) (BitVec.ofNat 32 (wayValue way 32 (ch.req.get (Fin.ofNat 64 k)).toNat v.toNat)) (Nat.mod_lt _ (by omega)) })

/-- A register written, with what it does (R350, R364): the image, then the effect. -/
def State.storeReg (s : State) (b ix : Nat) (guarded : Bool) (way : Way) (v : Word) (sup : Option Supplied) : State :=
  let key := regKey b ix
  if b / 16 = 4 ∧ ix < 0x40 then s.cellWritten (Fin.ofNat 16 b) ix way v
  else
    (s.setReg key (s.imageOf b ix guarded way v)).regEffect b ix (s.reg key) (actedBits (keyFields key) guarded way v) sup

/-- Whether such a write changes no field (R347 bit 0). -/
def State.leaves (s : State) (b ix : Nat) (guarded : Bool) (way : Way) (v : Word) : Bool :=
  let key := regKey b ix
  if b / 16 = 4 ∧ ix < 0x40 then
    (s.chan (Fin.ofNat 16 b)).busy ||
      ((s.cellWritten (Fin.ofNat 16 b) ix way v).chan (Fin.ofNat 16 b)).req == (s.chan (Fin.ofNat 16 b)).req
  else s.imageOf b ix guarded way v == s.reg key && actedBits (keyFields key) guarded way v == 0

/-! ### Indirect windows (R367) -/

/-- IND_ADDR moved on by 1 with AUTO_INC. -/
def State.indNext (s : State) (i : Iface) (b : Nat) : State :=
  let w := s.indAddr i b
  if bit w 31 then
    let w' := setFld w 0 24 (fld w 0 24 + 1)
    match i with
    | .keeper => { s with keeperInd := tabPut 0 s.keeperInd b w' }
    | _ => s.setReg (regKey b 0xFE) w'
  else s

/-- An entry of a coefficient list written, the list filled up with zeros. -/
def putEntry (l : List (BitVec 16)) (n k : Nat) (v : Word) : List (BitVec 16) :=
  (((l ++ List.replicate (n - l.length) 0).take n).set k (v.setWidth 16))

/-- A start written for cluster i (R147, R168): from 512 to 2,556 and clear of every other placed cluster; any other value is
ignored, a DESIGN CHOICE (notes/assumptions/60.md). -/
def RxPath.putStart (r : RxPath) (i v : Nat) : RxPath :=
  if 512 ≤ v ∧ v ≤ 2556 ∧ (r.placed.all (fun e => decide (e.1 = i ∨ e.2 + 4 ≤ v ∨ v + 4 ≤ e.2))) = true then
    { r with clusters := putEntry r.clusters 8 i (BitVec.ofNat 32 v), parked := setBit r.parked i false }
  else r

/-- The writable entries of a port (R157, R168, R170, R191). -/
def State.portIndPut (s : State) (p : Fin 16) (a : Nat) (v : Word) : State :=
  if 0x3000 ≤ a ∧ a < 0x3018 then s.modRx p (fun r => { r with ffe := putEntry r.ffe 24 (a - 0x3000) v })
  else if 0x3020 ≤ a ∧ a < 0x3024 then s.modRx p (fun r => { r with dfe := putEntry r.dfe 4 (a - 0x3020) (wdI (dfeClamp (a - 0x3020) (v.setWidth 16).toInt).toInt) })
  else if 0x3400 ≤ a ∧ a < 0x3600 then s.modRx p (fun r => { r with dense := putEntry r.dense 512 (a - 0x3400) v })
  else if 0x3600 ≤ a ∧ a < 0x3620 then s.modRx p (fun r => { r with float := putEntry r.float 32 (a - 0x3600) v })
  else if 0x3620 ≤ a ∧ a < 0x3628 then
    if bit (s.portReg p 0x30) 4 then s else s.modRx p (fun r => r.putStart (a - 0x3620) (v.toNat % 65536))
  else if 0x4000 ≤ a ∧ a < 0x4800 then s.forceCarrier p (a - 0x4000) (fld v 0 4)
  else s

/-- The writable entries of a reach: path taps (R169, R170). -/
def State.reachIndPut (s : State) (r : Fin 4) (a : Nat) (v : Word) : State :=
  if 0x1000 ≤ a ∧ a < 0x1300 then
    s.modPath r (Fin.ofNat 12 ((a - 0x1000) / 64)) (fun k => { k with taps := putEntry k.taps 64 (a % 64) v })
  else s

/-- An entry written; entries that no chapter makes writable ignore it. -/
def State.indPut (s : State) (b a : Nat) (v : Word) : State :=
  match blockKind b with
  | .port => s.portIndPut (portNo b) a v
  | .reach => s.reachIndPut (Fin.ofNat 4 b) a v
  | _ => s

/-! ### Reads (R297, R367, R400) -/

/-- The latch of a read of a counter's low register: its high one, and both of the counter it chains into. -/
def State.ctrLatch (s : State) (b n : Nat) : List (Nat × BitVec 48) :=
  (ctrKey b n, s.tally.counter b n) :: (if s.chains b n then [(ctrKey b (n + 1), s.tally.counter b (n + 1))] else [])

/-- The latch of a read of IND_DATA: the high half of a live slot counter whose low word is read. -/
def State.slotLatch (s : State) (i : Iface) (b : Nat) : Option (Nat × Word) :=
  let a := fld (s.indAddr i b) 0 24
  if b = 4 ∧ 0xA00 ≤ a ∧ a < 0xA40 ∧ a % 2 = 0 then some (a + 1, half48 (tabGet 0 s.tally.slots ((a - 0xA00) / 2)) true)
  else (s.iface i).indLatch

/-- What a read does: latches and the indirect address. -/
def State.readAct (s : State) (i : Iface) (b ix : Nat) : State :=
  if b = 2 ∧ ix = 0 then s.modIface i (fun x => { x with nowLatch := s.time.now })
  else if 0xE8 ≤ ix ∧ ix < 0xF0 then s.modIface i (fun x => { x with chiLatch := s.ctrLatch b (ix - 0xE8) })
  else if ix = 0xFF then (s.modIface i (fun x => { x with indLatch := s.slotLatch i b })).indNext i b
  else s

/-! ### The guard (R355 to R358) -/

/-- A guard procedure broken off (R357): counted, and the guard idle. -/
def State.guardAbort (s : State) (i : Iface) : State :=
  ({ s with gdAbort := satAdd 0xFFFF s.gdAbort 1 }.modIface i (fun x => { x with guard := .idle })).count 0 2 1

/-- The guard broken off unless it is idle. -/
def State.guardDrop (s : State) (i : Iface) : State := if (s.iface i).guard = .idle then s else s.guardAbort i

/-- A write outside the procedure, counted as bare (R350, R357). -/
def State.bare (s : State) : State := { s with gdBare := satAdd 0xFF s.gdBare 1 }

/-- What STATUS will say of the transaction just made (R347): bits 5, 3, 2, 1 and 0. -/
def State.said (s : State) (i : Iface) (guard crc frame none_ : Bool) : State :=
  s.modIface i (fun x => { x with badGuard := guard, badCrc := crc, badFrame := frame, noChange := none_, guardOn := x.guard != .idle })

/-- The STATUS byte of the next transaction (R347). -/
def IfaceRec.statusByte (x : IfaceRec) : Byte :=
  0x80 ||| (if x.guardOn then 0x20 else 0) ||| (if x.badGuard then 8 else 0) ||| (if x.badCrc then 4 else 0)
    ||| (if x.badFrame then 2 else 0) ||| (if x.noChange then 1 else 0)

/-- Start-up has not reached the end of step 3 (R55, R56). -/
def State.early (s : State) : Bool :=
  match s.sup.stage with
  | .hardReset | .halted | .qualifying | .locking | .coreFailed => true
  | .basinInit | .released | .refclkLost => false

/-- Whether a block is closed to the host (R56, R366): all but block 0x00 until the PLLs have locked, and all but it and the
mailboxes, without which no HELLO could be issued, after a soft reset until HELLO is answered. -/
def State.closedTo (s : State) (b : Nat) : Bool := b != 0 && (s.early || (s.sup.softLock && b / 16 != 4))

/-- Whether an interface is dead: every one during hard reset, and the monitor when OTP locks it (R55, R56, R395). Between the
rise of RESET_N and the end of a supply hold the part is still in reset and does not answer: DESIGN CHOICE
(notes/assumptions/58.md), R56 says "from step 1 onwards" and R42 calls the part held in reset. -/
def State.deaf (s : State) (i : Iface) : Bool := s.sup.stage == .hardReset || (i == .monitor && s.otp.monitorLock)

/-- The value that arms a guard (R356). -/
def guardKey : Word := 0x4C4F434B

end Sys2Proof.Machine
end

