-- ==== Sys2Proof/Machine/Auzer.lean ====
section
/-! DEFINITION. The mailboxes' doorbell (R381 to R383) and the Auzer commands (R384 to R391, R415): what each code does when
the keeper serves it, from the argument words in the request cells. -/

namespace Sys2Proof.Machine

/-! ### Arguments (R380) -/

/-- LEN of the request in a channel's cells. -/
def Channel.len (ch : Channel) : Nat := fld (ch.req.get 0) 8 8

/-- Argument word n; words beyond LEN read 0. -/
def Channel.arg (ch : Channel) (n : Nat) : Word := if n + 4 < 4 * ch.len then ch.req.get (Fin.ofNat 64 (4 + n)) else 0

/-- Argument word n of the request in channel c. -/
def State.arg (s : State) (c : Fin 16) (n : Nat) : Word := (s.chan c).arg n

/-- Port that A0[3:0] names. -/
def State.argPort (s : State) (c : Fin 16) : Fin 16 := portNo (fld (s.arg c 0) 0 4)

/-- Argument words that a command of a code needs; none for a code outside the command set (R385, R386). -/
def Channel.need (ch : Channel) (code : Nat) : Option Nat :=
  match code with
  | 0x01 => some 0
  | 0x10 => some (if bit (ch.arg 0) 8 then 3 else 2)
  | 0x11 | 0x12 | 0x13 | 0x21 => some 1
  | 0x20 | 0x22 => some 5
  | 0x23 => some (if bit (ch.arg 0) 30 then 1 else 10)
  | 0x24 => some 3
  | 0x30 => some 4
  | 0x31 => some 2
  | 0x32 => some 8
  | 0x33 => some 3
  | 0x34 => some (4 + 2 * min 24 (fld (ch.arg 3) 0 5))
  | 0x40 | 0x41 | 0x50 | 0x51 => some 1
  | 0x60 => some 7
  | 0x61 => some 1
  | 0x70 => some 0
  | 0x71 | 0x80 | 0x90 => some 2
  | 0xA0 => some (if bit (ch.arg 0) 24 then 6 else 5)
  | 0xF0 => some (4 + 4 * min 14 (fld (ch.arg 1) 0 4))
  | 0xF1 => some 0
  | _ => none

/-! ### Objects held by long-running commands (R383) -/

/-- A busy channel's long-running command satisfies a test. -/
def State.holding (s : State) (f : LongCmd → Bool) : Bool := (s.waiting f).isSome

def holdsPort (p : Nat) : LongCmd → Bool
  | .diagTdr q | .diagWatch q | .bistPortTest q | .bistLoopback q => q == p
  | .remote q _ _ => q == p
  | .calRun _ ps _ _ => ps.getLsbD p
  | _ => false
def holdsQueue (q : Nat) : LongCmd → Bool
  | .streamClose k => k == q
  | _ => false
def holdsEntry (e : Nat) : LongCmd → Bool
  | .cadenceLearn k => k == e
  | _ => false

/-- The flash: a commanded or automatic commit is writing. -/
def State.flashHeld (s : State) : Bool := s.holding isCommit || s.journal.writing.isSome

/-- A command waits for something (R383). -/
def State.waitFor (s : State) (c : Fin 16) (w : LongCmd) : State := s.modChan c (fun ch => { ch with work := some w })

/-! ### Registers written by the keeper (R363, R384) -/

/-- A register written by the keeper, its copy following. -/
def State.keeperWrite (s : State) (b ix : Nat) (way : Way) (v : Word) : State :=
  (s.storeReg b ix false way v none).noteCopy (regKey b ix)

/-- A PORT_ command takes its port and reach. -/
def State.ownPort (s : State) (p : Fin 16) : State := s.own [portBlock p.val, reachBlock (reachOf p).val]

/-! ### HELLO -/

/-- RESET_CAUSE as the first record after HELLO, then the result of a logic BIST (R429, R415). -/
def State.reportReset (s : State) : State :=
  match s.sup.cause with
  | none => s
  | some (k, rails) =>
    let s1 := ({ s with sup := { s.sup with cause := none } }).raise 0x0060 0 0 (wd k) (rails.setWidth 32)
    match s1.sup.lbistDone with
    | some ok => ({ s1 with sup := { s1.sup with lbistDone := none } }).raise 0x0055 5 0 3 (if ok then 0 else 1)
    | none => s1

def State.serveHello (s : State) (c : Fin 16) : State :=
  let run := s.keeper.mode == .running
  let s1 := if run && bit (s.arg c 0) 0 then s.own takeAll else s
  let ids := (List.range 8).map s.chipStatus
  let ver : Word := if run then s.keeper.version else 0
  let b9 : Word := put 0 8 3 ||| put 8 8 Config.romVersion.toNat ||| flag 16 (!run)
  let s2 := s1.answer c stOk (ids ++ [ver, b9])
  ({ s2 with sup := { s2.sup with softLock := false } }).reportReset

/-! ### Ports -/

def State.servePolicy (s : State) (c : Fin 16) : State :=
  let p := s.argPort c
  let s1 := s.ownPort p
  let s2 := s1.keeperWrite (portBlock p.val) 0x00 .plain (s.arg c 1)
  let s3 := if bit (s.arg c 0) 8 then s2.keeperWrite (portBlock p.val) 0x05 .plain (s.arg c 2) else s2
  s3.answer c stOk [s3.lnState p]

/-- The ports of A0[15:0]. -/
def State.argPorts (s : State) (c : Fin 16) : List (Fin 16) := allPorts.filter (fun p => bit (s.arg c 0) p.val)

/-- PORT_ENABLE and PORT_DISABLE: LN_MODE.ENABLE written on the masked ports; B0 names those whose ENABLE changed. -/
def State.serveEnable (s : State) (c : Fin 16) (on : Bool) : State :=
  let ps := s.argPorts c
  let changed : Word := boolsAt 0 (allPorts.map (fun p => ps.contains p && bit (s.reg (regKey (portBlock p.val) 1)) 8 != on))
  let s1 := ps.foldl (fun (t : State) p => (t.ownPort p).keeperWrite (portBlock p.val) 0x01 (if on then .setBits else .clearBits) 0x100) s
  s1.answer c stOk [changed]

def State.serveForce (s : State) (c : Fin 16) : State :=
  let p := s.argPort c
  let s1 := s.ownPort p
  let s2 := s1.keeperWrite (portBlock p.val) 0x01 .plain (setFld (s1.reg (regKey (portBlock p.val) 1)) 0 4 (fld (s.arg c 0) 8 4))
  s2.answer c stOk [s2.lnState p]

/-! ### Streams (R232 to R234, R387) -/

/-- The attributes of STREAM_OPEN and STREAM_MODIFY (R387). -/
def State.argQueue (s : State) (c : Fin 16) : Queue :=
  let a := s.arg c 0
  { num := fld a 0 12, outbound := bit a 12, cls := (match fld a 13 2 with | 1 => .hop | 2 => .through | _ => .none), prio := fld a 16 3
    bRes := (s.arg c 1).toNat, lat := (s.arg c 2).toNat, rB := (s.arg c 3).toNat, fMin := fld (s.arg c 4) 0 14
    laneMask := BitVec.ofNat 8 (fld a 24 8) }

/-- Admission's answer (R237): queue word 0 and the lane's block taken, or the status of the condition that failed. -/
def State.streamAnswer (s : State) (c : Fin 16) (q : Nat) : Except Nat State → State
  | .error e => s.answer c e []
  | .ok s1 =>
    match s1.queue? q with
    | some x =>
      let s2 := match x.lane with | some n => s1.own [laneBlock n] | none => s1
      s2.answer c stOk [(s2.queueWords x).getD 0 0]
    | none => s1.answer c stOk []

/-- STREAM_OPEN and STREAM_MODIFY; in block 0x03's parity safe state both are refused, with a status that the manual leaves
open (R360). -/
def State.serveStream (s : State) (c : Fin 16) (modify : Bool) : State :=
  let s1 := s.own [3]
  let q := s.argQueue c
  let ok := fld (s.arg c 0) 13 2 != 3
  if s.safeBlock 3 then
    let (d, s2) := s1.draw
    s2.answer c ((Config.refusalCode d).val + 1) []
  else s1.streamAnswer c q.num (if modify then s1.modifyStream q ok else s1.openStream q ok)

def State.serveClose (s : State) (c : Fin 16) : State :=
  let s1 := s.own [3]
  let q := fld (s.arg c 0) 0 12
  match s1.queue? q with
  | none => s1.answer c stBadArg [] 0
  | some _ => ((s1.waitFor c (.streamClose q)).closeStream q (bit (s.arg c 0) 16) c).closeDone q

/-! ### Cadence entries (R285, R287, R388) -/

def State.argCadence (s : State) (c : Fin 16) : Cadence :=
  let a := s.arg c
  { queue := fld (a 0) 16 12, pf := (a 1).toNat + (a 2).toNat * 2 ^ 32, pl := (a 3).toNat + (a 4).toNat * 2 ^ 32, nl := fld (a 5) 0 14
    a0 := fld (a 6) 0 14, na := fld (a 6) 16 14
    ta := (((a 8).toNat + fld (a 9) 0 16 * 2 ^ 32) * 10 ^ 9 + fld (a 7) 0 30) * 65536 + fld (a 9) 16 16
    govern := bit (a 0) 28, track := bit (a 0) 29 }

/-- CADENCE_SET: freed with CLEAR; limits broken leave the entry as it was; with TRACK the positions that hang on it are
computed anew (R288). -/
def State.serveCadence (s : State) (c : Fin 16) : State :=
  let s1 := s.own [2]
  let e := fld (s.arg c 0) 0 8
  if bit (s.arg c 0) 30 then (s1.freeCad e).answer c stOk []
  else
    let k := s.argCadence c
    if !k.ok then s1.answer c 0x0102 []
    else
      let s2 := (s1.putCad e k).takeGovern e
      (if k.track then s2.reanchor e else s2).answer c stOk []

def State.serveLearn (s : State) (c : Fin 16) : State :=
  let s1 := s.own [2]
  let a := s.arg c
  let nl := fld (a 1) 0 14
  let a0 := fld (a 2) 0 14
  let na := fld (a 2) 16 14
  let e := fld (a 0) 0 8
  if nl < 2 ∨ 8192 < nl then s1.answer c stBadArg [] 1
  else if na < 1 ∨ nl < a0 + na then s1.answer c stBadArg [] 2
  else
    let l : LearnRec := { entry := e, queue := fld (a 0) 16 12, install := bit (a 0) 28, nl := nl, a0 := a0, na := na, chan := c.val }
    ({ s1 with time := { s1.time with learns := s1.time.learns ++ [l] } }).waitFor c (.cadenceLearn e)

/-! ### Vehicle time (R276, R277) -/

def State.serveTimeSet (s : State) (c : Fin 16) : State :=
  let s1 := s.own [2]
  let a := s.arg c
  let v := vehicleTime ((a 2).toNat + fld (a 3) 0 16 * 2 ^ 32) (a 1).toNat (fld (a 3) 16 16)
  if 10 ^ 9 ≤ (a 1).toNat then s1.answer c stBadArg [] 1
  else if bit (a 0) 0 then
    ({ s1 with time := { s1.time with setWait := s1.time.setWait ++ [(v, c.val)] } }).waitFor c .timeSetTsync
  else s1.loadAnswered c v

/-- The largest rate correction in 2^-40 units (R275, R277): 1,000 ppm. -/
def rateLimit : Nat := 2 ^ 40 / 1000

def State.serveAdjust (s : State) (c : Fin 16) : State :=
  let s1 := s.own [2]
  let v := (s.arg c 1).toInt
  match fld (s.arg c 0) 0 2 with
  | 0 =>
    if rateLimit < v.natAbs then s1.answer c stBadArg [] 1
    else ({ s1 with time := { s1.time with rho := v } }).answer c stOk []
  | 1 => if 10 ^ 6 < v.natAbs then s1.answer c stBadArg [] 1 else (s1.startSlew v).answer c stOk []
  | 2 => (s1.stepTime v).answer c stOk []
  | _ => s1.answer c stBadArg [] 0

/-! ### The calendar (R288 to R295, R389) -/

/-- A position from its three words (R389, R288), or the word at fault: 0 to 2. -/
def State.position (s : State) (w0 w1 w2 : Word) : Except Nat Position :=
  if bit w0 23 then
    if 10 ^ 9 ≤ w1.toNat then .error 1 else .ok { abs := true, entry := 0, frame := 0, line := w1.toNat, frac := w2.toNat }
  else
    match s.time.cad? (fld w0 24 8) with
    | none => .error 0
    | some k =>
      let f := asInt 9 (fld w0 0 9)
      if f < -8 then .error 0
      else if ceilDiv k.pf k.pl ≤ w1.toNat then .error 1
      else .ok { abs := false, entry := fld w0 24 8, frame := k.frameAt (t16 s.time.now) + f, line := w1.toNat, frac := fld w2 0 16 }

/-- The position whose words begin at argument n. -/
def State.argPosition (s : State) (c : Fin 16) (n : Nat) : Except Nat Position := s.position (s.arg c n) (s.arg c (n + 1)) (s.arg c (n + 2))

/-- The answer of an accepted entry (R385, R386): its number, and for SCHEDULE_EVENT its first start. -/
def acceptWords (x : CalEntry) (long : Bool) : Option Nat → List Word
  | some e => wd e :: (if long then [wd (nsInSec x.start), wd (secOf x.start)] else [])
  | none => []

/-- An entry offered to the calendar and the channel answered. -/
def State.offer (s : State) (c : Fin 16) (x : CalEntry) (long : Bool) : State :=
  let (e, st, s1) := s.accept x
  s1.answer c st (acceptWords x long e)

/-- Kinds of SCHEDULE_EVENT (R389). -/
def schedKind : Nat → Option CalKind
  | 1 => some .quiet
  | 2 => some .user
  | 3 => some .hostEvent
  | 4 => some .tmark
  | _ => none

/-- Whether the quiet windows of a port leave it in quiet no longer once an entry has gone (R292). -/
def State.lastQuiet (s : State) (p : Fin 16) : Bool := !s.windowOpen .quiet p.val

/-- What the cancelling of an entry leaves (R308, R294): a port in quiet under no other window exits early, one whose ENTER
is out sends ABORT; an engine's slice waits to be placed again. -/
def State.cancelled (s : State) (x : CalEntry) : State :=
  let p := portNo x.target
  match x.kind with
  | .quiet =>
    if !s.lastQuiet p then s
    else
      match (s.port p).quiet.pend with
      | some (c, _) => if (s.port p).link.leader then (s.queueCell p 9 (quietPayload 2 c)).modQuiet p (fun q => { q with pend := none, window := none }) else s
      | none => s.earlyExit p
  | .calSlice => s.slotWaits p false true
  | .testSlice => s.slotWaits p true true
  | _ => s

def State.serveCancel (s : State) (c : Fin 16) : State :=
  let e := fld (s.arg c 7) 16 10
  match s.cal? e with
  | some x => ((s.delCal e).cancelled x).answer c stOk [wd e]
  | none => s.answer c 0x0205 []

def State.serveAdd (s : State) (c : Fin 16) : State :=
  let a := s.arg c 0
  let k := fld a 24 8
  match schedKind (fld a 8 4), s.argPosition c 1 with
  | none, _ => s.answer c stBadArg [] 0
  | _, .error n => s.answer c stBadArg [] (1 + n)
  | some kind, .ok sp =>
    let sp2 : Except Nat Position := if kind.window then s.argPosition c 4 else .ok sp
    match sp2 with
    | .error n => s.answer c stBadArg [] (4 + n)
    | .ok tp =>
      if 0 < k ∧ (sp.abs || tp.abs) = true then s.answer c stBadArg [] 0
      else
        s.offer c { kind := kind, source := 0, target := fld a 16 4, startP := sp, stopP := tp, start := s.time.instant sp
                    stop := if kind.window then some (s.time.instant tp) else none
                    repeatK := k, left := if k = 0 then 1 else fld (s.arg c 7) 0 16, chan := c.val } true

def State.serveSchedule (s : State) (c : Fin 16) : State :=
  let s1 := s.own [2]
  match fld (s.arg c 0) 0 2 with
  | 0 => s1.serveAdd c
  | 1 => s1.serveCancel c
  | _ => s1.answer c stBadArg [] 0

/-- An instant entry of SNAPSHOT_AT or COMMIT_AT. -/
def State.instantEntry (s : State) (c : Fin 16) (kind : CalKind) (source : Nat) (sp : Position) (writes : List (Addr × Word)) : CalEntry :=
  { kind := kind, source := source, target := 0, startP := sp, stopP := sp, start := s.time.instant sp, stop := none
    left := 1, chan := c.val, writes := writes }

def State.serveSnapshot (s : State) (c : Fin 16) : State :=
  let s1 := s.own [2]
  match s.argPosition c 0 with
  | .error n => s1.answer c stBadArg [] n
  | .ok sp => s1.offer c (s.instantEntry c .snapshot 1 sp []) false

/-- A write that COMMIT_AT refuses (R295): a WG register, a complement-window address or an indirect window. -/
def commitRefuses (a : Addr) : Bool :=
  let x := decodeAddr a
  x.comp || hasGuarded (keyFields (regKey x.block x.index)) || x.index == 0xFE || x.index == 0xFF

/-- The writes of COMMIT_AT. -/
def State.argWrites (s : State) (c : Fin 16) (n : Nat) : List (Addr × Word) :=
  (List.range n).map (fun i => ((s.arg c (4 + 2 * i)).setWidth 24, s.arg c (5 + 2 * i)))

def State.serveCommitAt (s : State) (c : Fin 16) : State :=
  let s1 := s.own [2]
  let n := fld (s.arg c 3) 0 5
  let ws := s.argWrites c n
  if n = 0 ∨ 24 < n then s1.answer c stBadArg [] 3
  else if ws.any (fun w => commitRefuses w.1) then s1.answer c 0x0102 []
  else
    match s.argPosition c 0 with
    | .error k => s1.answer c stBadArg [] k
    | .ok sp => s1.offer c (s.instantEntry c .commit 2 sp ws) false

/-! ### Calibration and diagnostics (R325, R326, R330, R339) -/

def State.serveCalRun (s : State) (c : Fin 16) : State :=
  let s1 := s.own [6]
  let rs : BitVec 4 := BitVec.ofNat 4 (fld (s.arg c 0) 0 4)
  let ps : BitVec 16 := BitVec.ofNat 16 (fld (s.arg c 0) 16 16)
  let s2 := s1.waitFor c (.calRun rs ps 0 0)
  let s3 := allReaches.foldl (fun (t : State) r =>
    if rs.getLsbD r.val then (t.modReach r (fun x => { x with byCmd := true })).requestReach r else t) s2
  (allPorts.foldl (fun (t : State) p => if ps.getLsbD p.val then t.runPort p else t) s3).calAnswer

def State.serveCalRead (s : State) (c : Fin 16) : State :=
  let s1 := s.own [6]
  let p := s.argPort c
  let r := (reachOf p).val
  s1.answer c stOk [s1.calStatus (0x10 + p.val), s1.calStatus (0x04 + r), s1.calStatus (0x09 + r)]

def State.serveTdr (s : State) (c : Fin 16) : State :=
  let a := s.arg c 0
  let p := s.argPort c
  if (s.port p).tdr.running then s.waitFor c (.diagTdr p.val)
  else if s.enabled p then (s.tdrStart p (fld a 8 2) (fld a 16 4) (fld a 24 8)).answer c 0x0702 []
  else (s.waitFor c (.diagTdr p.val)).tdrStart p (fld a 8 2) (fld a 16 4) (fld a 24 8)

def State.serveWatch (s : State) (c : Fin 16) : State :=
  let p := s.argPort c
  match fld (s.arg c 0) 8 2 with
  | 0 => s.answer c stOk (s.port p).watchWords
  | 1 => (s.waitFor c (.diagWatch p.val)).capture p
  | 2 => let s1 := s.clearRef p; s1.answer c stOk (s1.port p).watchWords
  | _ => s.answer c stBadArg [] 0

/-! ### Keys and the journal (R417, R432 to R434) -/

/-- KEY_LOAD (R417): it waits while zeroising runs. The manual does not say what it does while domain 243 is forced off: it
waits likewise, until the domain is released, a DESIGN CHOICE (notes/assumptions/58.md). -/
def State.serveKeyLoad (s : State) (c : Fin 16) (sup : Option Supplied) : State :=
  let (x, s1) := s.supply sup
  let i := fld (s.arg c 0) 0 6
  if s1.keys.zeroising.isSome || s1.forcedOff 243 then s1.waitFor c (.keyLoad i x.unwrapped s1.keyTurns.length) else s1.putKey c i x.unwrapped

def State.serveKeyErase (s : State) (c : Fin 16) : State :=
  let i := fld (s.arg c 0) 0 8
  if 64 ≤ i ∧ i < 0xFF then s.answer c stBadArg [] 0 else s.eraseKey c i

def State.serveCommit (s : State) (c : Fin 16) : State := (s.waitFor c .journalCommit).nextCommit

/-- Data words of a byte list, first byte in bits [7:0]. -/
def dataWords (bs : List Byte) : List Word :=
  (List.range (ceilDiv bs.length 4)).map (fun k => wd (beVal ((bs.drop (4 * k)).take 4).reverse))

/-- JOURNAL_READ of the taken slot: up to 224 bytes of a section from an offset. -/
def State.serveJournalRead (s : State) (c : Fin 16) (sup : Option Supplied) : State :=
  match s.journal.taken with
  | none => s.answer c 0x0602 []
  | some (_, seq) =>
    let (x, s1) := s.supply sup
    let bs := (x.section_.drop (s.arg c 1).toNat).take 224
    s1.answer c stOk (wd bs.length :: seq :: dataWords bs)

/-! ### Self-test (R410 to R415) -/

/-- Kind 0: one physical bank, which must be in service, with spares for the rotation. -/
def State.serveMarch (s : State) (c : Fin 16) : State :=
  let n := (s.arg c 1).toNat
  if h : n < 68 then
    let b : Fin 68 := ⟨n, h⟩
    match s.bank b, s.mayRotate with
    | .inService _, true => (s.waitFor c .bistMarch).rotate b (some c)
    | _, _ => s.answer c stObjBusy [] 0
  else s.answer c stBadArg [] 1

def State.serveBist (s : State) (c : Fin 16) (sup : Option Supplied) : State :=
  let s1 := s.own [5]
  let k := fld (s.arg c 0) 0 4
  let n := (s.arg c 1).toNat
  let p := portNo n
  match k with
  | 0 => s1.serveMarch c
  | 1 =>
    if 16 ≤ n then s1.answer c stBadArg [] 1
    else if s.holding (holdsPort p.val) then s1.answer c stObjBusy []
    else
      let (x, s2) := s1.supply sup
      (s2.waitFor c (.bistPortTest p.val)).startTest p x.failing
  | 2 =>
    if 16 ≤ n then s1.answer c stBadArg [] 1
    else if s.holding (holdsPort p.val) then s1.answer c stObjBusy []
    else if s.loopOk p then (s1.waitFor c (.bistLoopback p.val)).startLoop p
    else s1.answer c stObjBusy [] 0
  | 3 =>
    if s.lbistOk then
      let (x, s2) := s1.supply sup
      (s2.bistAnswer c 3 false 0).startLbist x.zeroOk
    else s1.answer c stObjBusy [] 0
  | _ => s1.answer c stBadArg [] 0

/-! ### Events and REMOTE (R390, R391) -/

/-- The records that the ring still holds: untaken ones, and taken ones until 256 newer have been raised. -/
def EventRing.kept (r : EventRing) : List EventRec :=
  r.taken.filter (fun e => decide ((r.nextSeq - e.seq).toNat ≤ 256)) ++ r.untaken

def State.serveFetch (s : State) (c : Fin 16) : State :=
  let n := fld (s.arg c 1) 0 3
  if n = 0 then s.answer c stBadArg [] 1
  else
    let l := s.ring.kept
    let got := (l.filter (fun e => decide ((e.seq - s.arg c 0).toNat < 2 ^ 31))).take n
    let oldest := match l with | e :: _ => e.seq | [] => s.ring.nextSeq
    s.answer c stOk (wd got.length :: oldest :: got.flatMap (fun e => e.words.take 8))

/-- REMOTE_CMD (R390): a request takes an identifier of its own; an answer must name an operation that waits for it. -/
def State.serveRemote (s : State) (c : Fin 16) : State :=
  let a := s.arg c 0
  let p := s.argPort c
  let op : Byte := BitVec.ofNat 8 (fld a 8 8)
  let tag : Byte := BitVec.ofNat 8 (fld a 16 8)
  let arg := argOf ((List.range 4).map (fun k => s.arg c (1 + k)))
  if (s.port p).link.state ≠ .loconUp then s.answer c 0x0302 []
  else if bit a 24 then
    let req : BitVec 16 := BitVec.ofNat 16 (fld (s.arg c 5) 0 16)
    if (s.port p).remIn.any (fun e => e.1 == req) then
      ((s.waitFor c (.remote p.val req true)).modPort p (fun x => { x with remIn := x.remIn.filter (fun e => e.1 != req) })).queueCell p 7
        (remotePayload op true req tag (BitVec.ofNat 8 (fld (s.arg c 5) 16 8)) arg)
    else s.answer c stBadArg [] 5
  else
    let (d, s1) := s.draw
    let req := Config.freeReqId d
    (s1.waitFor c (.remote p.val req false)).queueCell p 7 (remotePayload op false req tag 0 arg)

/-! ### Firmware (R378, R379) -/

/-- FW_STAGE: a chunk that follows the last one, or begins with FIRST. -/
def State.serveStage (s : State) (c : Fin 16) (sup : Option Supplied) : State :=
  let off := fld (s.arg c 0) 0 24
  let first := bit (s.arg c 0) 31
  let n := fld (s.arg c 1) 0 4
  if off % 16 ≠ 0 then s.answer c stBadArg [] 0
  else if n = 0 ∨ n = 15 then s.answer c stBadArg [] 1
  else if !first && s.keeper.fw.next != some off then s.answer c 0x0402 []
  else
    let (x, s1) := s.supply sup
    if !x.flashOk && s.keeper.mode == .running then
      ({ s1 with keeper := { s1.keeper with fw := { s1.keeper.fw with next := none, staged := s1.keeper.fw.staged && !first } } }).answer c 0x0404 []
    else
      ({ s1 with keeper := { s1.keeper with fw := { s1.keeper.fw with next := some (off + 16 * n), staged := s1.keeper.fw.staged && !first } } }).answer
        c stOk []

/-- FW_ACTIVATE while the boot ROM waits: a valid image starts. -/
def State.activateRom (s : State) (c : Fin 16) (x : Supplied) : State :=
  if s.imageOk x.image then (s.startImage 2 x.image x.journal.campion x.journal.yarrow).answer c stOk [x.image.version]
  else s.answer c 0x0401 [] (s.imageErr x.image)

/-- FW_ACTIVATE while firmware runs. -/
def State.activateRun (s : State) (c : Fin 16) (x : Supplied) : State :=
  let m := { x.image with magicOk := true }
  if !s.imageOk m then s.answer c 0x0401 [] (s.imageErr m)
  else if m.version.toNat ≤ s.keeper.version.toNat then s.answer c 0x0403 []
  else if !x.flashOk then s.answer c 0x0404 []
  else
    ({ s with keeper := { s.keeper with fw := { next := none, staged := true, resetDue := bit (s.arg c 0) 0 } } }).answer c stOk [m.version]

def State.serveActivate (s : State) (c : Fin 16) (sup : Option Supplied) : State :=
  let (x, s1) := s.supply sup
  if s.keeper.mode = .romWait then s1.activateRom c x else s1.activateRun c x

/-- 1 ms after the answer of FW_ACTIVATE with NOW (R379): a chip soft reset, whose RESET_CAUSE code the manual leaves open. -/
def State.activateReset (s : State) : State :=
  if s.keeper.fw.resetDue then
    let (d, s1) := s.draw
    s1.softReset (Config.freeWord d).toNat false
  else s

/-! ### Serving a request (R382, R383, R385) -/

/-- Whether the object that a command acts on is held by a long-running one (R383): CAL_RUN merges, and commands that only
read do not act. -/
def State.objectHeld (s : State) (c : Fin 16) (code : Nat) : Bool :=
  let a := s.arg c 0
  match code with
  | 0x10 | 0x13 | 0x50 | 0xA0 => s.holding (holdsPort (fld a 0 4))
  | 0x51 => fld a 8 2 != 0 && s.holding (holdsPort (fld a 0 4))
  | 0x11 | 0x12 => (s.argPorts c).any (fun p => s.holding (holdsPort p.val))
  | 0x20 | 0x21 | 0x22 => s.holding (holdsQueue (fld a 0 12))
  | 0x23 | 0x24 => s.holding (holdsEntry (fld a 0 8))
  | 0x70 => s.holding isCommit
  | 0x71 => s.flashHeld
  | 0xF0 | 0xF1 => s.keeper.mode == .running && s.flashHeld
  | _ => false

/-- The command of a code served. -/
def State.serveCode (s : State) (c : Fin 16) (code : Nat) (sup : Option Supplied) : State :=
  match code with
  | 0x01 => s.serveHello c
  | 0x10 => s.servePolicy c
  | 0x11 => s.serveEnable c true
  | 0x12 => s.serveEnable c false
  | 0x13 => s.serveForce c
  | 0x20 => s.serveStream c false
  | 0x21 => s.serveClose c
  | 0x22 => s.serveStream c true
  | 0x23 => s.serveCadence c
  | 0x24 => s.serveLearn c
  | 0x30 => s.serveTimeSet c
  | 0x31 => s.serveAdjust c
  | 0x32 => s.serveSchedule c
  | 0x33 => s.serveSnapshot c
  | 0x34 => s.serveCommitAt c
  | 0x40 => s.serveCalRun c
  | 0x41 => s.serveCalRead c
  | 0x50 => s.serveTdr c
  | 0x51 => s.serveWatch c
  | 0x60 => s.serveKeyLoad c sup
  | 0x61 => s.serveKeyErase c
  | 0x70 => s.serveCommit c
  | 0x71 => s.serveJournalRead c sup
  | 0x80 => s.serveBist c sup
  | 0x90 => s.serveFetch c
  | 0xA0 => s.serveRemote c
  | 0xF0 => s.serveStage c sup
  | 0xF1 => s.serveActivate c sup
  | _ => s.answer c stUnknown []

/-- A request accepted by its doorbell is served, or answered with the first status of R385 that stands against it. -/
def State.serve (s : State) (c : Fin 16) (sup : Option Supplied) : State :=
  let ch := s.chan c
  let code := fld (ch.req.get 0) 0 8
  if ch.len = 0 ∨ 16 < ch.len then s.answer c stBadLen []
  else if s.keeper.mode = .romWait ∧ code ≠ 0x01 ∧ code ≠ 0xF0 ∧ code ≠ 0xF1 then s.answer c stNoFirmware []
  else
    match ch.need code with
    | none => s.answer c stUnknown []
    | some n =>
      if ch.len < 1 + ceilDiv n 4 then s.answer c stBadLen []
      else if s.objectHeld c code then s.answer c stObjBusy []
      else s.serveCode c code sup

/-- Why a doorbell is rejected (MB_STAT.REJECT, R381); 0 where it is accepted. -/
def State.doorReject (s : State) (c : Fin 16) : Nat :=
  if c.val = 15 then 3
  else if s.safeBlock (mboxBlock c.val) then 2
  else if (s.chan c).busy then 1
  else if s.sup.stage = .refclkLost then 4
  else if s.keeper.mode = .romWait then (if c.val = 0 then 0 else 5)
  else if s.keeper.mode = .running then 0
  else 4

/-- A doorbell (R381, R382): rejected with the channel and its cells unchanged, or accepted, an old response taken first. -/
def State.doorbell (s : State) (c : Fin 16) (sup : Option Supplied) : State :=
  let why := s.doorReject c
  if why ≠ 0 then ((s.modChan c (fun ch => { ch with reject := why })).count (mboxBlock c.val) 1 1).count 1 1 1
  else
    let s1 := s.modChan c (fun ch => { ch with reject := 0, busy := true, done := false, work := none })
    (s1.count (mboxBlock c.val) 0 1).serve c sup

/-- A request put into a channel's cells as the host writes it (R380): word 0 and the argument words; ignored while the
channel is BUSY. -/
def State.putRequest (s : State) (c : Fin 16) (code : Nat) (r : Request) : State :=
  let w0 : Word := put 0 8 code ||| put 8 8 r.len.toNat ||| put 16 16 r.tag.toNat
  if (s.chan c).busy then s
  else s.modChan c (fun ch => { ch with
    req := Vector.ofFn (fun i => if i.val = 0 then w0 else if i.val < 4 then ch.req.get i else (r.args[i.val - 4]?).getD (ch.req.get i)) })

/-- A command issued on a channel: its request written and the doorbell rung (R382). -/
def State.issueCmd (s : State) (c : Fin 16) (code : Nat) (r : Request) (sup : Option Supplied := none) : State :=
  (s.putRequest c code r).doorbell c sup

/-! ### TAKE (R382, R391) -/

/-- The presented record taken: an OVERFLOW record with the count of those lost is stored first. -/
def State.takeEvent (s : State) : State :=
  match s.ring.untaken with
  | [] => s
  | e :: rest =>
    let r := s.ring
    let lost := r.lost
    let keep := (r.taken ++ [e]).filter (fun x => decide ((r.nextSeq - x.seq).toNat ≤ 256))
    let s1 := { s with ring := { r with untaken := rest, taken := keep, lost := 0 } }
    if lost = 0 then s1 else s1.raise 0x0001 0 0 (wd lost)

/-- MB_DOOR.TAKE: DONE to IDLE; on channel 15 the next record. -/
def State.takeDone (s : State) (c : Fin 16) : State :=
  if c.val = 15 then s.takeEvent else s.modChan c (fun ch => { ch with done := false })

/-- A write of MB_DOOR (R381): TAKE, then RING. -/
def State.door (s : State) (c : Fin 16) (acted : Word) (sup : Option Supplied) : State :=
  let s1 := if bit acted 1 then s.takeDone c else s
  if bit acted 0 then s1.doorbell c sup else s1

/-! ### Time-outs of commands that wait (R385, R386, R415) -/

/-- No TSYNC edge within 2 s of a TIME_SET that waits for one. -/
def State.timeSetLate (s : State) (c : Fin 16) : State :=
  if s.time.setWait.any (fun e => e.2 == c.val) then
    ({ s with time := { s.time with setWait := s.time.setWait.filter (fun e => e.2 != c.val) } }).answer c stTimeout []
  else s

/-- A kind-1 test that has not finished its items within 10 s. -/
def State.portTestLate (s : State) (p : Fin 16) : State := s.answerWait (isPortTest p) stTimeout []

end Sys2Proof.Machine
end

