-- ==== Sys2Proof/Machine/Bus.lean ====
section
/-! DEFINITION. The register interfaces: one write and one read of SPI, of the Iblen monitor and of the keeper with their
guards (R344 to R358, R364, R366), the MDIO window (R251, R252, R370, R371), the monitor's commands (R394, R395), the
registers that the keeper restores (R363) and those that a commit writes (R295). -/

namespace Sys2Proof.Machine

/-! ### One access (R350 to R357) -/

/-- A transaction begun: those of SPI are counted (R398). -/
def State.began (s : State) (i : Iface) : State := if i = .spi then s.count 0 0 1 else s

/-- Whether a write of IND_DATA leaves the entry as it was. -/
def State.indLeaves (s : State) (i : Iface) (b : Nat) (v : Word) : Bool :=
  let a := fld (s.indAddr i b) 0 24
  (s.indPut b a v).ind i b a == s.ind i b a

/-- A write of IND_DATA (R367): only a plain write acts, and it advances the address with AUTO_INC. -/
def State.writeInd (s : State) (i : Iface) (b : Nat) (way : Way) (v : Word) : State :=
  if way = .plain then ((s.indPut b (fld (s.indAddr i b) 0 24) v).indNext i b).said i false false false (s.indLeaves i b v)
  else s.said i false false false true

/-- A write of the keeper's own IND_ADDR (R367). -/
def State.writeKeeperInd (s : State) (b : Nat) (way : Way) (v : Word) : State :=
  { s with keeperInd := tabPut 0 s.keeperInd b (writeFields (commonFields 0xFE) false way (tabGet 0 s.keeperInd b) v) }

/-- What a write does to a register in use, doorbells included; a write of the keeper's own is its copy's too (R363). -/
def State.applyWrite (s : State) (i : Iface) (b ix : Nat) (guarded : Bool) (way : Way) (v : Word) (sup : Option Supplied) : State :=
  let s1 :=
    if b / 16 = 4 ∧ ix = 0x80 then s.door (Fin.ofNat 16 b) (actedBits (mboxFields 0x80) false way v) sup
    else s.storeReg b ix guarded way v sup
  if i = .keeper then s1.noteCopy (regKey b ix) else s1

/-- A write outside the guard procedure, to any index of a block (R350, R351, R356). -/
def State.writeFree (s : State) (i : Iface) (b ix : Nat) (way : Way) (comp : Bool) (v : Word) (sup : Option Supplied) : State :=
  if !usedIndex (blockKind b) ix then s.said i false false false true
  else if comp then (s.bare).said i true false false true
  else if b = 0 ∧ ix = 0x30 then
    if way = .plain ∧ v = guardKey then (s.modIface i (fun x => { x with guard := .armed })).said i false false false false
    else s.said i false false false true
  else if ix = 0xFF then s.writeInd i b way v
  else if ix = 0xFE ∧ i = .keeper then (s.writeKeeperInd b way v).said i false false false false
  else
    let g := hasGuarded (keyFields (regKey b ix))
    let s1 := s.applyWrite i b ix false way v sup
    (if g then s1.bare else s1).said i g false false (s.leaves b ix false way v)

/-- A complement that does not match (R357): nothing is written. -/
def State.mismatch (s : State) (i : Iface) : State :=
  ({ s with gdMismatch := satAdd 0xFF s.gdMismatch 1 }.modIface i (fun x => { x with guard := .idle })).said i false false false true

/-- The accepted second half of a guarded write (R356): every writable field at once, and the guard disarms. -/
def State.accepted (s : State) (i : Iface) (b ix : Nat) (v : Word) (sup : Option Supplied) : State :=
  let s1 := s.modIface i (fun x => { x with guard := .idle })
  (s1.applyWrite i b ix true .plain v sup).said i false false false (s1.leaves b ix true .plain v)

/-- One write of an interface (R356, R357). `sup`: what a command rung or a zeroising started by it finds. -/
def State.busWrite (s : State) (i : Iface) (b ix : Nat) (way : Way) (comp : Bool) (v : Word) (sup : Option Supplied := none) : State :=
  if s.deaf i then s
  else
    let s0 := s.began i
    if i ≠ .keeper ∧ s0.closedTo b = true then
      (({ s0.guardDrop i with frameErr := satAdd 0xFFFF s0.frameErr 1 })).said i false false true false
    else
      match (s0.iface i).guard with
      | .idle => s0.writeFree i b ix way comp v sup
      | .armed =>
        if !comp && way == .plain && usedIndex (blockKind b) ix && hasGuarded (keyFields (regKey b ix)) then
          (s0.modIface i (fun x => { x with guard := .holding (plainAddr b ix) v })).said i false false false false
        else (s0.guardAbort i).writeFree i b ix way comp v sup
      | .holding a v0 =>
        if comp && way == .plain && a == plainAddr b ix then
          if v = ~~~v0 then s0.accepted i b ix v0 sup else s0.mismatch i
        else (s0.guardAbort i).writeFree i b ix way comp v sup

/-- One read of an interface (R347, R350, R351, R366): the data stays with the interface; a guard procedure is broken. -/
def State.busRead (s : State) (i : Iface) (b ix : Nat) (comp : Bool) : State :=
  if s.deaf i then s
  else
    let s0 := (s.began i).guardDrop i
    if i ≠ .keeper ∧ s0.closedTo b = true then (s0.modIface i (fun x => { x with rdata := 0 })).said i false false false false
    else if !usedIndex (blockKind b) ix then (s0.modIface i (fun x => { x with rdata := 0 })).said i false false false false
    else
      let v := s0.peek i b ix
      ((s0.readAct i b ix).modIface i (fun x => { x with rdata := if comp then ~~~v else v })).said i false false false false

/-- A write and a read at a byte address (R348, R349). -/
def State.addrWrite (s : State) (i : Iface) (a : Addr) (v : Word) : State :=
  let x := decodeAddr a
  s.busWrite i x.block x.index x.way x.comp v
def State.addrRead (s : State) (i : Iface) (a : Addr) : State :=
  let x := decodeAddr a
  s.busRead i x.block x.index x.comp

/-- The whole guard procedure on a register: key, value, complement (R356). -/
def State.guardedWrite (s : State) (i : Iface) (b ix : Nat) (v : Word) (sup : Option Supplied := none) : State :=
  ((s.busWrite i 0 0x30 .plain false guardKey).busWrite i b ix .plain false v).busWrite i b ix .plain true (~~~v) sup

/-- What a zeroising reads back, as a supplied finding. -/
def supZero (ok : Bool) : Supplied := { (default : Supplied) with zeroOk := ok }

/-- A transaction that SPI ignores (R346, R357). -/
def State.spiIgnored (s : State) (e : SpiError) : State :=
  if s.deaf .spi then s
  else
    let s0 := (s.began .spi).guardDrop .spi
    match e with
    | .badCrc => (({ s0 with crcErr := satAdd 0xFFFF s0.crcErr 1 }).count 0 1 1).said .spi false true false false
    | .badClockCount | .unknownCommand => ({ s0 with frameErr := satAdd 0xFFFF s0.frameErr 1 }).said .spi false false true false

/-- 1 ms with no transaction at an open guard (R357). -/
def State.guardLate (s : State) (i : Iface) : State := s.guardDrop i

/-! ### The keeper's restore and a commit's writes (R295, R363) -/

/-- Registers of an owned block that differ from the keeper's copy. -/
def State.differing (s : State) (b : Nat) : List Nat :=
  (List.range 0xFE).filter (fun ix => s.reg (regKey b ix) != s.keeperCopy (regKey b ix))

/-- One register rewritten from the keeper's copy, with what its write does, and counted. -/
def State.restoreOne (s : State) (b ix : Nat) : State :=
  let key := regKey b ix
  let s1 := (s.setReg key (s.keeperCopy key)).regEffect b ix (s.reg key) 0 none
  ({ s1 with keeper := { s1.keeper with ownCnt := satAdd 0xFFFF s1.keeper.ownCnt 1 } }).count 1 3 1

/-- Within 1 ms of a host write to an owned block the keeper rewrites what differs from its copy. -/
def State.restoreOwned (s : State) (b : Nat) : State :=
  if s.keeper.mode == .running && s.keeper.owns b then (s.differing b).foldl (fun (t : State) ix => t.restoreOne b ix) s else s

/-- One write of a commit (R295): as a plain, set, clear or toggle write; the keeper's copy of an owned block follows. -/
def State.commitWrite (s : State) (w : Addr × Word) : State :=
  let x := decodeAddr w.1
  if x.comp || !usedIndex (blockKind x.block) x.index then s
  else (s.applyWrite .spi x.block x.index false x.way w.2 none).noteCopy (regKey x.block x.index)

/-- A COMMIT_AT entry acts: its writes in the order listed, and the entry leaves. -/
def State.commitActs (s : State) (e : Nat) : State :=
  match s.dueInstant e .commit with
  | some x => (x.writes.foldl State.commitWrite s).instantActs e x
  | none => s

/-! ### The MDIO window (R251, R252, R370, R371) -/

/-- PL_COMPAT. -/
def State.compat (s : State) : Word := s.act (regKey 3 0x30)

/-- SX1650 port that SX0410 port k shows. -/
def State.mdioPort (s : State) (k : Nat) : Fin 16 := portNo (fld s.compat (4 * k) 4)

/-- MODE of base + 0x01. -/
def mdioMode : Option LineMode → Nat
  | some .t100 => 1 | some .t1000 => 2 | some .t2500 => 3 | some .t5000 => 4 | some .t10g => 5 | some .t25g => 6
  | some _ => 7
  | none => 0

/-- The eight registers of a snapshot group, from base + 0x01. -/
def State.mdioGroup (s : State) (k : Nat) : List (BitVec 16) :=
  let p := s.mdioPort k
  let x := s.port p
  let h := fun (v : Word) (lo : Nat) => BitVec.ofNat 16 (fld v lo 16)
  let r1 : Word := flag 15 x.isUp ||| put 12 3 (mdioMode x.link.modeAct) ||| flag 11 x.link.leader
  let st := s.lnState p
  [h r1 0, BitVec.ofNat 16 (fld (s.portStatus p 0x01) 16 4), BitVec.ofNat 16 (fld (s.lnQual p) 0 16),
    h (put 8 5 (fld st 8 5) ||| put 0 5 (fld st 0 5)) 0, h (s.portStatus p 0x7A) 16, h (s.portStatus p 0x7A) 0,
    h (s.portStatus p 0x7B) 16, h (s.portStatus p 0x7B) 0]

/-- The group and the place in it, 1 to 8, that an MDIO register address names. -/
def mdioSlot (a : Nat) : Option (Nat × Nat) :=
  if 0x8000 ≤ a ∧ a < 0x8400 ∧ 1 ≤ a % 256 ∧ a % 256 ≤ 8 then some ((a - 0x8000) / 256, a % 256) else none

/-- Registers outside the groups. OUI bits are numbered 1 to 24 from the most significant one. -/
def State.mdioPlain (s : State) (a : Nat) : BitVec 16 :=
  match a with
  | 0x0002 => BitVec.ofNat 16 (s.otp.oui.toNat / 64)
  | 0x0003 => BitVec.ofNat 16 (s.otp.oui.toNat % 64 * 1024 + 0x16 * 16 + s.die.minor.toNat % 16)
  | 0x0006 => 0x4000
  | 0x8400 => 0x1650
  | 0x8000 | 0x8100 | 0x8200 | 0x8300 => if s.enabled (s.mdioPort ((a - 0x8000) / 256)) then 1 else 0
  | _ => 0

/-- Whether a frame is for this part: its strapped port address and device 30, once the part is out of hard reset. -/
def State.mdioMine (s : State) (prtad devad : BitVec 5) : Bool :=
  s.sup.stage != .hardReset && prtad == s.sup.mdioAddr && devad == 30

/-- The window's record changed. -/
def State.modMdio (s : State) (f : MdioRec → MdioRec) : State := { s with mdio := f s.mdio }

/-- An address frame. -/
def State.mdioAddr (s : State) (prtad devad : BitVec 5) (a : BitVec 16) : State :=
  if s.mdioMine prtad devad then s.modMdio (fun m => { m with addr := a, answer := none }) else s.modMdio (fun m => { m with answer := none })

/-- A write frame: the latch is released; CTRL.ENABLE acts as LN_MODE.ENABLE. -/
def State.mdioPut (s : State) (prtad devad : BitVec 5) (v : BitVec 16) : State :=
  let s0 := s.modMdio (fun m => { m with answer := none })
  if !s.mdioMine prtad devad then s0
  else if !bit s.compat 31 then s0
  else
    let s1 := s0.modMdio (fun m => { m with latched := none })
    let a := s.mdio.addr.toNat
    if 0x8000 ≤ a ∧ a < 0x8400 ∧ a % 256 = 0 then
      let b := portBlock (s.mdioPort ((a - 0x8000) / 256)).val
      s1.storeReg b 0x01 false (if v.getLsbD 0 then .setBits else .clearBits) 0x100 none
    else s1

/-- The answer to a read at an address, and the latch it leaves. -/
def State.mdioLook (s : State) (a : Nat) : State :=
  if !bit s.compat 31 then s.modMdio (fun m => { m with answer := some 0xFFFF })
  else
    match mdioSlot a with
    | none => s.modMdio (fun m => { m with answer := some (s.mdioPlain a) })
    | some (k, j) =>
      let vals := match s.mdio.latched with
        | some (g, l) => if g = k then l else s.mdioGroup k
        | none => s.mdioGroup k
      s.modMdio (fun m => { m with answer := some (vals.getD (j - 1) 0), latched := if j = 8 then none else some (k, vals) })

/-- A read frame. -/
def State.mdioGet (s : State) (prtad devad : BitVec 5) : State :=
  if s.mdioMine prtad devad then s.mdioLook s.mdio.addr.toNat else s.modMdio (fun m => { m with answer := none })

/-- A post-read-increment frame. -/
def State.mdioGetInc (s : State) (prtad devad : BitVec 5) : State :=
  if s.mdioMine prtad devad then (s.mdioLook s.mdio.addr.toNat).modMdio (fun m => { m with addr := m.addr + 1 })
  else s.modMdio (fun m => { m with answer := none })

/-- 1 ms without MDIO access. -/
def State.mdioLate (s : State) : State := s.modMdio (fun m => { m with latched := none })

/-! ### The Iblen monitor (R394, R395) -/

/-- A line received by the monitor, unless it is dead: ACTIVE follows. -/
def State.monLine (s : State) (f : State → State) : State :=
  if s.deaf .monitor then s else f { s with monitor := { s.monitor with active := some s.ticks } }

/-- The monitor's reply. -/
def State.monSay (s : State) (ok : Bool) (ws : List Word) : State := { s with monitor := { s.monitor with reply := some (ok, ws) } }

/-- p: a read. -/
def State.monGet (s : State) (a : Addr) : State :=
  s.monLine (fun t => let u := t.addrRead .monitor a; u.monSay true [u.mon.rdata])

/-- w: a write. -/
def State.monPut (s : State) (a : Addr) (v : Word) : State := s.monLine (fun t => (t.addrWrite .monitor a v).monSay true [])

/-- Request cells filled in order from word 0. -/
def Channel.filled (ch : Channel) (ws : List Word) : Channel := { ch with req := Vector.ofFn (fun i => (ws[i.val]?).getD (ch.req.get i)) }

/-- i: a command channel's cells written and rung; a doorbell that is rejected for another cause is answered with a status
that the manual leaves open. -/
def State.monCall (s : State) (c : Fin 16) (ws : List Word) : State :=
  s.monLine (fun t =>
    if c.val = 15 ∨ (t.chan c).busy = true then t.monSay false [5]
    else
      let u := t.modChan c (fun ch => ch.filled ws)
      if u.doorReject c ≠ 0 then
        let (d, u1) := u.draw
        (u1.doorbell c none).monSay false [wd ((Config.refusalCode d).val + 1)]
      else (({ u with monitor := { u.monitor with rang := some c.val, reply := none } }).doorbell c none))

/-- The channel rung is DONE: the response words are printed and TAKE is written. -/
def State.monDone (s : State) (c : Fin 16) : State :=
  if s.monitor.rang = some c.val ∧ (s.chan c).done = true then
    let w := (s.chan c).resp
    let s1 := s.monSay true (w.toList.take (4 * max 1 (fld (w.get 0) 8 8)))
    ({ s1 with monitor := { s1.monitor with rang := none } }).takeDone c
  else s

/-- t: tracing off or on. -/
def State.monTraceSet (s : State) (on : Bool) : State :=
  s.monLine (fun t => ({ t with monitor := { t.monitor with trace := on } }).monSay true [])

/-- c: a block's eight counters, each as high word and low word. -/
def State.monDump (s : State) (block : Nat) : State :=
  s.monLine (fun t => t.monSay true ((List.range 8).flatMap (fun n =>
    let v := t.tally.counter (canonBlock block) n
    [half48 v true, half48 v false])))

/-- b: the rate, after its OK. -/
def State.monRate (s : State) (code : Nat) : State :=
  s.monLine (fun t => if code ≤ 4 then ({ t with monitor := { t.monitor with baud := code } }).monSay true [] else t.monSay false [wd stBadArg])

/-- A line too long or with an unknown command. -/
def State.monBad (s : State) : State := s.monLine (fun t => t.monSay false [wd stUnknown])

end Sys2Proof.Machine
end

