-- ==== Sys2Proof/Machine/TickOps.lean ====
section
/-! DEFINITION. One direct-clock tick (R39, R275): vehicle time, the ends of ramps (R132 to R134), counters that follow the
clock (R396 to R398), slot counters (R405, R406), token buckets (R242), the counts that run over a completed 1 ms or 1 s
(R224, R253), and the wraps of 48-bit counters (R401, R406); and the configuration scrubber (R359 to R361). -/

namespace Sys2Proof.Machine

/-- Whether the datapath and the time unit have their clocks (R42, R55, R425). -/
def State.clocked (s : State) : Bool := s.sup.stage != .refclkLost && !s.early

/-! ### Ramps (R132 to R134) -/

/-- A ramp whose last step is over: after a down-ramp the transmitter is off. -/
def TxPath.ended (t : TxPath) (now : Nat) : TxPath :=
  match t.ramp with
  | some r => if r.start + r.len ≤ now then { t with ramp := none, on := r.up } else t
  | none => t

/-- The ramp that is due begins (R85, R134). -/
def TxPath.next (t : TxPath) (now : Nat) : TxPath :=
  match t.nextRamp with
  | some r => if r.start ≤ now then t.ramped r.up now r else t
  | none => t

/-- Every transmitter brought to the present tick: its ramps, and the swing's steps (R134, R140). -/
def State.rampTick (s : State) : State :=
  { s with ports := Vector.ofFn (fun p =>
      let x := s.port p
      { x with tx := ((x.tx.ended s.ticks).next s.ticks).swingStep s.ticks (s.txRate p) (s.swingWanted p) }) }

/-! ### Counters that follow the clock (R397, R398) -/

/-- Core cycles in one tick (R39, R41, R48): 8, or 7 while the spread runs; 1 on direct REFCLK; 0 without a clock. -/
def State.coreCycles (s : State) : Nat × State :=
  if s.clk.muxCore.failed then (0, s)
  else if !s.clk.muxCore.onPll then (1, s)
  else if s.sup.sscOn then
    let (d, s1) := s.draw
    (if Config.freeCoreCycle d then 7 else 8, s1)
  else (8, s)

/-- What one selector adds in a tick of `n` core cycles, with the live bits of its block. -/
def tickGain (c : Word) (n : Nat) (live : Nat → Bool) : Nat :=
  let code := fld c 0 16
  if code = 1 then n
  else if code = 2 then 1
  else if bit c 18 && decide (0x100 ≤ code ∧ code < 0x140) && live (code - 0x100) then n
  else 0

/-- One selector's part in a tick. -/
def State.tickCounter (s : State) (n : Nat) (t : Tally) (e : Nat × Word) : Tally :=
  let b := e.1 / 256
  let i := e.1 % 256 - 0xE0
  if 0xE0 ≤ e.1 % 256 ∧ e.1 % 256 ≤ 0xE7 ∧ s.receives b i = false then
    let g := tickGain (s.csel b i) n (fun k => (s.liveBits b).getD k false)
    if g = 0 then t else t.add (s.chains b i) b i g
  else t

/-- Every selector's part in a tick. -/
def State.tickCounters (s : State) : State :=
  let (n, s1) := s.coreCycles
  { s1 with tally := s1.regs.foldl (s1.tickCounter n) s1.tally }

/-! ### Slot counters (R405, R406) -/

/-- What is left of a lane's octets after n of them. -/
def eatOctets : List (Nat × Nat) → Nat → List (Nat × Nat)
  | [], _ => []
  | (c, k) :: l, n => if n < k then (c, k - n) :: l else eatOctets l (n - k)

/-- The class of a slot by its first octet: `stop` while the lane is not up or is paused, `idle` for an idle octet. -/
def slotClass (stop : Bool) (idle : Nat) (l : List (Nat × Nat)) : Nat :=
  if stop then 3 else match eatOctets l 0 with | (c, _) :: _ => c | [] => idle

/-- One more slot of a class: a slot counter that passes its maximum wraps, to be reported. -/
def Tally.slot (t : Tally) (n k : Nat) : Tally :=
  let v := tabGet 0 t.slots (4 * n + k)
  { t with slots := tabPut 0 t.slots (4 * n + k) (v + 1)
           wraps := if v.toNat + 1 = 2 ^ 48 then t.wraps ++ [(laneBlock n, 0x10 + 4 * k)] else t.wraps }

/-- `m` slots of 16 octets. -/
def slotGo (n : Nat) (stop : Bool) (idle : Nat) : Nat → Tally → List (Nat × Nat) → Tally × List (Nat × Nat)
  | 0, t, l => (t, l)
  | m + 1, t, l => slotGo n stop idle m (t.slot n (slotClass stop idle l)) (eatOctets l 16)

/-- One lane's slots of a tick: 80 octets in PAM-4, 40 in NRZ. -/
def State.laneTick (s : State) (n : Fin 8) : State :=
  let l := s.lane n
  let stop := l.state != .up || l.paused.isSome
  let idle := if (s.served n).any (fun q => (s.headOf q).isSome) then 1 else 2
  let octets := l.credit + (if s.laneNrz n then 40 else 80)
  let (t, rest) := slotGo n.val stop idle (octets / 16) s.tally l.slots
  { s with tally := t }.modLane n (fun x => { x with slots := rest, credit := octets % 16 })

/-! ### Token buckets (R242) -/

/-- A bucket fills at B_res, in units of 10^-4 bit: 64 bits a tick for each Gb/s, to a depth of the larger of 19,200 B and
B_res × 10 µs. -/
def Queue.fill (q : Queue) : Queue :=
  { q with credit := min (max (19200 * 80000) (q.bRes * 100000) : Nat) (q.credit + (64 * q.bRes : Nat)) }

/-! ### Counts over a completed 1 ms or 1 s -/

/-- The counts that turn over with a tick. -/
def State.rollOver (s : State) : State :=
  let s1 := if s.ticks % msTicks 1 = 0 then
      { s with ports := s.ports.map (fun (x : Port) => { x with snd := { x.snd with
          resentLast := x.snd.resent, resent := 0, nacksInLast := x.snd.nacksIn, nacksIn := 0 } }) }
    else s
  if s.ticks % secTicks 1 = 0 then { s1 with basin := { s1.basin with corr := s1.basin.corrNow, corrNow := 0 } } else s1

/-! ### Wraps (R401, R406, R419) -/

/-- The unit of a block in an event record (R391). -/
def unitOf (b : Nat) : Nat :=
  match blockKind b with
  | .port => b - 0x10
  | .reach => b - 8
  | .lane => b - 0x20
  | .mbox => b - 0x40
  | _ => 0

/-- COUNTER_WRAP raised for one wrap. -/
def State.wrapEvent (s : State) (w : Nat × Nat) : State := s.raise 0x0050 w.1 (unitOf w.1) (wd w.2)

/-- COUNTER_WRAP raised for every wrap that satisfies a test. -/
def State.wrapsTold (s : State) (f : Nat × Nat → Bool) : State :=
  (s.tally.wraps.filter f).foldl State.wrapEvent
    { s with tally := { s.tally with wraps := s.tally.wraps.filter (fun w => !f w) } }

/-- Counter n of a block, or slot class n of a lane, passes its maximum. -/
def State.wrapTold (s : State) (b n : Nat) : State := s.wrapsTold (fun w => w.1 == b && (w.2 == n || w.2 == 0x10 + 4 * n))

/-! ### The tick -/

/-- What a tick does while the clocks run. -/
def State.runTick (s : State) : State :=
  let s1 := { s with time := s.time.tick s.slewRate }
  let s2 := s1.tickCounters
  let s3 := allLanes.foldl State.laneTick s2
  let s4 := { s3 with basin := { s3.basin with queues := s3.basin.queues.map Queue.fill } }
  (s4.rollOver).wrapsTold (fun _ => true)

/-- One tick of the direct clock. -/
def State.tick (s : State) : State :=
  let s1 := { s with ticks := s.ticks + 1 }.rampTick
  if s1.clocked then s1.runTick else s1

/-! ### The configuration scrubber (R359 to R361) -/

/-- Entering a block's safe state (R360). -/
def State.enterSafe (s : State) (b : Nat) : State :=
  match blockKind b with
  | .keeper =>
    if s.keeper.parityHit then s
    else ({ s with keeper := { s.keeper with parityHit := true } }).controlPlane 4
  | .selfTest => s.abandonTests
  | .reach => s.xtSync (Fin.ofNat 4 b)
  | .port =>
    let p := portNo b
    let s1 := s.tdrAbandon p 5
    if (s1.port p).link.state = .disabled then s1.txStopShort p else s1.fall p .disabled 12 true
  | .lane => s.loseLane (Fin.ofNat 8 b) 6
  | .basin => s
  | _ => s

/-- Leaving a block's safe state (R361): ports and lanes start again. -/
def State.leaveSafe (s : State) (b : Nat) : State :=
  match blockKind b with
  | .keeper => { s with keeper := { s.keeper with parityHit := false } }
  | .reach => s.xtSync (Fin.ofNat 4 b)
  | .port => let p := portNo b; if s.enabled p then s.startPort p else s.patternSync p
  | .lane =>
    let n : Fin 8 := Fin.ofNat 8 b
    if bit (s.laneReg n.val 0) 0 then s.modLane n (fun l => l.restart .starting) else s
  | .cal => s.startPending
  | _ => s

/-- One scrub pass that finds the registers `bad` with bad parity, in order of their addresses. -/
def State.parityPass (s : State) (bad : List Addr) : State :=
  if !s.clocked then s else
  let found := (bad.map (fun a => let x := decodeAddr a; regKey x.block x.index)).eraseDups.filter (fun k => hasStored (keyFields k))
  let keep := s.parity.filter (fun k => found.contains k)
  let fresh := found.filter (fun k => !s.parity.contains k)
  let s1 := { s with parity := keep ++ fresh, mended := [] }
  let s2 := fresh.foldl (fun (t : State) _ => (t.raise 0x0005 0 0 t.irqParLoc).count 0 3 1) s1
  let blocks := allBlocks
  let entered := blocks.filter (fun b => !s.safeBlock b && s1.safeBlock b)
  let left := blocks.filter (fun b => s.safeBlock b && !s1.safeBlock b)
  left.foldl State.leaveSafe (entered.foldl State.enterSafe s2)

end Sys2Proof.Machine
end

