-- ==== Sys2Proof/Machine/Operands.lean ====
section
/-! DEFINITION. The operand forms of the commands: which register of its block an operand names (R349), what a command
supplies to what it starts, the writes that the register rows make, and how a command's effect is closed: gated by the
clocks (R55, R425), followed by what a changed link asks for (R62, R326), and brought in line. -/

namespace Sys2Proof.Machine

/-! ### Registers by operand (R63, R70, R120, R138, R167, R169, R224, R253, R272, R297, R311, R328, R341) -/

/-- Index of a transmit register (R138). -/
def txIx : TxReg → Nat
  | .ctrl => 0x10 | .rampLen => 0x11 | .ffeA => 0x12 | .ffeB => 0x13

/-- Index of a receive register (R167). -/
def rxIx : RxReg → Nat
  | .ctrl => 0x30 | .mu => 0x31 | .frz => 0x32 | .tim => 0x33

/-- Index of a crosstalk register (R169). -/
def xtIx : XtReg → Nat
  | .ctrl => 0x20 | .path k => 0x24 + k.val

/-- Index of a quiet register (R311). -/
def quietIx : QuietReg → Nat
  | .quietCtrl => 0x60 | .lpiCtrl => 0x63

/-- Index of a basin or placement register (R253). -/
def basinIx : BasinReg → Nat
  | .bsCtrl => 0x00 | .hopCap => 0x01 | .plCtrl => 0x20 | .laneMask => 0x21 | .compat => 0x30

/-- Index of a host-lane register (R272). -/
def hlIx : HlReg → Nat
  | .ctrl => 0x00 | .txEq => 0x01

/-- Index of a time register (R297). -/
def tmIx : TmReg → Nat
  | .ctrl => 0x04 | .tmark => 0x05 | .xfer => 0x09

/-- Index of a calibration register (R328). -/
def calIx : CalReg → Nat
  | .ctrl => 0x00 | .dt => 0x01

/-- Index of a diagnostic register (R341). -/
def dgIx : DgReg → Nat
  | .tdrCtrl => 0x70 | .cfg => 0x71 | .watchCtrl => 0x74 | .warn => 0x75 | .alarm => 0x76

/-- A plain, set, clear or toggle write of a register. -/
def State.wr (s : State) (i : Iface) (b ix : Nat) (w : Way) (v : Word) : State := s.busWrite i b ix w false v

/-- A self-clearing bit written through the set window (R349): the other fields stay. -/
def State.wrBit (s : State) (i : Iface) (b ix k : Nat) : State := s.busWrite i b ix .setBits false (put k 1 1)

/-! ### What a command supplies -/

/-- The unwrapped key of KEY_LOAD (R417). -/
def supKey (k : Option (BitVec 128)) : Supplied := { (default : Supplied) with unwrapped := k }

/-- The bytes of a journal section (R432). -/
def supSection (l : List Byte) : Supplied := { (default : Supplied) with section_ := l }

/-- The elements that a port test finds failing (R412). -/
def supFailing (l : List Element) : Supplied := { (default : Supplied) with failing := l }

/-- Whether the flash takes a write (R379). -/
def supFlash (ok : Bool) : Supplied := { (default : Supplied) with flashOk := ok }

/-- The image, flash and journal that FW_ACTIVATE finds (R379). -/
def supImage (m : ImageReport) (ok : Bool) (j : JournalReport) : Supplied :=
  { (default : Supplied) with image := m, flashOk := ok, journal := j }

/-! ### How a command's effect is closed -/

/-- The outcome of a command's effect `t` on a state `s`: what follows every command, and the next state. -/
def State.done (s t : State) : Host.Outcome State Fault Refusal := .next (settle s t)

/-- An effect that the core, direct or keeper clock carries: nothing happens while they do not run (R55, R425). -/
def State.gated (s t : State) : State := if s.clocked then t else s

/-- An effect of the clocked part. -/
def State.runs (s t : State) : Host.Outcome State Fault Refusal := s.done (s.gated t)

/-- An effect of the clocked part on one port's link, with what the link's change asks for. -/
def State.runsPort (s : State) (p : Fin 16) (t : State) : Host.Outcome State Fault Refusal :=
  s.done (s.gated (followPort s t p))

/-- An effect of the clocked part that may change any port's link. -/
def State.runsAll (s t : State) : Host.Outcome State Fault Refusal := s.done (s.gated (followAll s t))

/-- An effect that needs no clock of the part and may change any port's link: supervisor events and register accesses. -/
def State.actsAll (s t : State) : Host.Outcome State Fault Refusal := s.done (followAll s t)

end Sys2Proof.Machine
end

