-- ==== Sys2Proof/Machine/BlockRows.lean ====
section
/-! DEFINITION. The meanings of the commands of one family: blocks and retry (R192 to R222), and frames of standard modes (R230, R280). -/

namespace Sys2Proof.Machine

/-- One block period (R193, R194, R206). -/
def execBlockSend (p : Fin 16) (s : State) : Host.Outcome State Fault Refusal := s.runsPort p (s.blockPeriod p)

/-- A DATA block (R193, R207). -/
def execData (p : Fin 16) (blk : Blk) (s : State) : Host.Outcome State Fault Refusal := s.runsPort p (s.onData p blk)

/-- A FILL block (R193, R209). -/
def execFill (p : Fin 16) (blk : Blk) (s : State) : Host.Outcome State Fault Refusal := s.runsPort p (s.onFill p blk)

/-- A SYNC block (R217, R218). -/
def execSync (p : Fin 16) (blk : Blk) (s : State) : Host.Outcome State Fault Refusal := s.runsPort p (s.onSync p blk)

/-- A block of an undefined TYPE (R193). -/
def execBlockOtherType (p : Fin 16) (blk : Blk) (s : State) : Host.Outcome State Fault Refusal := s.runsPort p (s.onOther p blk)

/-- A failed block (R203). -/
def execBlockFailed (p : Fin 16) (s : State) : Host.Outcome State Fault Refusal := s.runs (s.onFailed p)

/-- NACK_INT has passed (R209). -/
def execNackRepeat (p : Fin 16) (s : State) : Host.Outcome State Fault Refusal := s.runs (s.nackDue p)

/-- 200 µs without ACK or NACK (R210). -/
def execBlockResendTimeout (p : Fin 16) (seq : Seq24) (s : State) : Host.Outcome State Fault Refusal := s.runs (s.blockLate p seq)

/-- No valid SYNC in time (R85, R217). -/
def execSyncTimeout (p : Fin 16) (s : State) : Host.Outcome State Fault Refusal := s.runsPort p (s.syncLate p)

/-- A frame from the line PHY (R230, R280). -/
def execStdFrameReceived (p : Fin 16) (tag : Byte) (fcsOk : Bool) (frame : List Byte) (s : State) : Host.Outcome State Fault Refusal :=
  s.runs (s.stdArrives p tag fcsOk frame)

/-- A frame ends on the line PHY (R230). -/
def execStdFrameSent (p : Fin 16) (s : State) : Host.Outcome State Fault Refusal := s.runs (s.stdDeparts p)

end Sys2Proof.Machine
end

