-- ==== Sys2Proof/Machine/CalRows.lean ====
section
/-! DEFINITION. The meanings of the commands of one family: temperature, calibration and diagnostics (R317 to R343, R431). -/

namespace Sys2Proof.Machine

/-- The 1 ms temperature sample (R317, R431). -/
def execTempSample (readings : Vector Int 5) (s : State) : Host.Outcome State Fault Refusal := s.runsAll (s.sampleTemp readings)

/-- At level 2 one more L50A port downshifts (R431). -/
def execThermalDownshiftStep (s : State) : Host.Outcome State Fault Refusal := s.runsAll (s.thermalStep)

/-- A calibration slice's items complete (R321, R322). -/
def execCalSliceDone (p : Fin 16) (m : CalMeasure) (s : State) : Host.Outcome State Fault Refusal := s.runs (s.sliceDone p m)

/-- An immediate run completes (R320, R322). -/
def execCalPortRunDone (p : Fin 16) (m : CalMeasure) (s : State) : Host.Outcome State Fault Refusal := s.runs (s.portRunDone p m)

/-- The retry of a failed port (R325). -/
def execCalRetry (p : Fin 16) (s : State) : Host.Outcome State Fault Refusal := s.runs (s.retryRun p)

/-- MAX_WAIT has passed (R322). -/
def execCalMaxWait (p : Fin 16) (s : State) : Host.Outcome State Fault Refusal := s.runs (s.maxWait p)

/-- A write of DG_TDR_CTRL.START (R330, R341). -/
def execTdrStart (i : Iface) (p : Fin 16) (s : State) : Host.Outcome State Fault Refusal :=
  s.actsAll (s.wrBit i (portBlock p.val) 0x70 0)

/-- A listen period ends (R331). -/
def execTdrListenEnd (p : Fin 16) (powerHeard : Bool) (s : State) : Host.Outcome State Fault Refusal :=
  s.runsPort p (s.tdrListen p powerHeard)

/-- A run's response is computed (R331 to R335). -/
def execTdrComplete (p : Fin 16) (peaks : List TdrPeak) (wide : List (BitVec 16)) (narrow : List (BitVec 16)) (s : State) : Host.Outcome State Fault Refusal :=
  s.runsPort p (s.tdrDone p peaks wide narrow)

/-- The 100 ms evaluation (R336 to R338). -/
def execWatchEvaluation (p : Fin 16) (soundingSeen : Bool) (f : WatchFigures) (s : State) : Host.Outcome State Fault Refusal :=
  s.runs (s.watchEval p soundingSeen f)

/-- A write of DG_WATCH_CTRL.CAPTURE (R339, R341). -/
def execWatchCapture (i : Iface) (p : Fin 16) (s : State) : Host.Outcome State Fault Refusal :=
  s.done (s.wrBit i (portBlock p.val) 0x74 2)

/-- A write of DG_WATCH_CTRL.CLEAR_REF (R340, R341). -/
def execWatchClearRef (i : Iface) (p : Fin 16) (s : State) : Host.Outcome State Fault Refusal :=
  s.done (s.wrBit i (portBlock p.val) 0x74 3)

/-- Automatic capture (R339). -/
def execWatchAutoCapture (p : Fin 16) (s : State) : Host.Outcome State Fault Refusal := s.runs (s.autoCapture p)

/-- A capture is complete (R339). -/
def execWatchCaptureDone (p : Fin 16) (mean : Sounding) (s : State) : Host.Outcome State Fault Refusal :=
  s.runs (s.captureDone p mean)

end Sys2Proof.Machine
end

