-- ==== Sys2Proof/Machine/Commands.lean ====
section
/-! DEFINITION. The meanings of the commands of one family: the Auzer commands (R379 to R390, R415, R417, R432 to R434) and the time-outs and ends of those that wait. -/

namespace Sys2Proof.Machine

/-- HELLO (R384, R386). -/
def execHello (c : Fin 16) (r : Request) (s : State) : Host.Outcome State Fault Refusal := s.runs (s.issueCmd c 0x01 r)

/-- PORT_SET_POLICY (R386). -/
def execPortSetPolicy (c : Fin 16) (r : Request) (s : State) : Host.Outcome State Fault Refusal := s.runsAll (s.issueCmd c 0x10 r)

/-- PORT_ENABLE (R386, R320). -/
def execPortEnable (c : Fin 16) (r : Request) (s : State) : Host.Outcome State Fault Refusal := s.runsAll (s.issueCmd c 0x11 r)

/-- PORT_DISABLE (R386). -/
def execPortDisable (c : Fin 16) (r : Request) (s : State) : Host.Outcome State Fault Refusal := s.runsAll (s.issueCmd c 0x12 r)

/-- PORT_FORCE_MODE (R386). -/
def execPortForceMode (c : Fin 16) (r : Request) (s : State) : Host.Outcome State Fault Refusal := s.runsAll (s.issueCmd c 0x13 r)

/-- STREAM_OPEN (R237, R387). -/
def execStreamOpen (c : Fin 16) (r : Request) (s : State) : Host.Outcome State Fault Refusal := s.runs (s.issueCmd c 0x20 r)

/-- STREAM_MODIFY (R233, R387). -/
def execStreamModify (c : Fin 16) (r : Request) (s : State) : Host.Outcome State Fault Refusal := s.runs (s.issueCmd c 0x22 r)

/-- STREAM_CLOSE (R234, R387). -/
def execStreamClose (c : Fin 16) (r : Request) (s : State) : Host.Outcome State Fault Refusal := s.runs (s.issueCmd c 0x21 r)

/-- The last ticket of a closing queue is freed (R234). -/
def execStreamCloseComplete (q : Fin 4096) (s : State) : Host.Outcome State Fault Refusal := s.runs (s.closeDone q.val)

/-- CADENCE_SET (R285, R388). -/
def execCadenceSet (c : Fin 16) (r : Request) (s : State) : Host.Outcome State Fault Refusal := s.runs (s.issueCmd c 0x23 r)

/-- CADENCE_LEARN (R287, R388). -/
def execCadenceLearn (c : Fin 16) (r : Request) (s : State) : Host.Outcome State Fault Refusal := s.runs (s.issueCmd c 0x24 r)

/-- Seventeen burst starts have been seen (R287). -/
def execCadenceLearnDone (e : Fin 256) (bursts : List Nat) (s : State) : Host.Outcome State Fault Refusal :=
  s.runs (s.learnDone e.val bursts)

/-- Two seconds without them (R287). -/
def execCadenceLearnTimeout (e : Fin 256) (s : State) : Host.Outcome State Fault Refusal := s.runs (s.learnLate e.val)

/-- TIME_SET (R276, R386). -/
def execTimeSet (c : Fin 16) (r : Request) (s : State) : Host.Outcome State Fault Refusal := s.runs (s.issueCmd c 0x30 r)

/-- No TSYNC edge within 2 s of a TIME_SET at TSYNC (R386). -/
def execTimeSetTsyncTimeout (c : Fin 16) (s : State) : Host.Outcome State Fault Refusal := s.runs (s.timeSetLate c)

/-- TIME_ADJUST, rate form (R277). -/
def execTimeAdjustRate (c : Fin 16) (r : Request) (s : State) : Host.Outcome State Fault Refusal := s.runs (s.issueCmd c 0x31 r)

/-- TIME_ADJUST, slew form (R277). -/
def execTimeAdjustSlew (c : Fin 16) (r : Request) (s : State) : Host.Outcome State Fault Refusal := s.runs (s.issueCmd c 0x31 r)

/-- TIME_ADJUST, step form (R277). -/
def execTimeAdjustStep (c : Fin 16) (r : Request) (s : State) : Host.Outcome State Fault Refusal := s.runs (s.issueCmd c 0x31 r)

/-- SCHEDULE_EVENT, add (R289, R290, R389). -/
def execScheduleEventAdd (c : Fin 16) (r : Request) (s : State) : Host.Outcome State Fault Refusal := s.runs (s.issueCmd c 0x32 r)

/-- SCHEDULE_EVENT, cancel (R308, R389). -/
def execScheduleEventCancel (c : Fin 16) (r : Request) (s : State) : Host.Outcome State Fault Refusal :=
  s.runs (s.issueCmd c 0x32 r)

/-- SNAPSHOT_AT (R386). -/
def execSnapshotAt (c : Fin 16) (r : Request) (s : State) : Host.Outcome State Fault Refusal := s.runs (s.issueCmd c 0x33 r)

/-- COMMIT_AT (R295, R386). -/
def execCommitAt (c : Fin 16) (r : Request) (s : State) : Host.Outcome State Fault Refusal := s.runs (s.issueCmd c 0x34 r)

/-- CAL_RUN (R326, R386). -/
def execCalRun (c : Fin 16) (r : Request) (s : State) : Host.Outcome State Fault Refusal := s.runs (s.issueCmd c 0x40 r)

/-- CAL_READ (R386). -/
def execCalRead (c : Fin 16) (r : Request) (s : State) : Host.Outcome State Fault Refusal := s.runs (s.issueCmd c 0x41 r)

/-- DIAG_TDR (R330, R386). -/
def execDiagTdr (c : Fin 16) (r : Request) (s : State) : Host.Outcome State Fault Refusal := s.runsAll (s.issueCmd c 0x50 r)

/-- DIAG_WATCH, read (R386). -/
def execDiagWatchRead (c : Fin 16) (r : Request) (s : State) : Host.Outcome State Fault Refusal := s.runs (s.issueCmd c 0x51 r)

/-- DIAG_WATCH, capture (R339, R386). -/
def execDiagWatchCapture (c : Fin 16) (r : Request) (s : State) : Host.Outcome State Fault Refusal := s.runs (s.issueCmd c 0x51 r)

/-- DIAG_WATCH, discard (R339, R386). -/
def execDiagWatchDiscard (c : Fin 16) (r : Request) (s : State) : Host.Outcome State Fault Refusal := s.runs (s.issueCmd c 0x51 r)

/-- A capture has not ended within 60 s (R386). -/
def execDiagWatchCaptureTimeout (p : Fin 16) (s : State) : Host.Outcome State Fault Refusal := s.runs (s.captureLate p)

/-- KEY_LOAD (R417): the RFC 3394 unwrap under the OTP key is supplied. -/
def execKeyLoad (c : Fin 16) (r : Request) (unwrapped : Option (BitVec 128)) (s : State) : Host.Outcome State Fault Refusal :=
  s.runs (s.issueCmd c 0x60 r (some (supKey unwrapped)))

/-- KEY_ERASE (R417). -/
def execKeyErase (c : Fin 16) (r : Request) (s : State) : Host.Outcome State Fault Refusal := s.runs (s.issueCmd c 0x61 r)

/-- JOURNAL_COMMIT (R434). -/
def execJournalCommit (c : Fin 16) (r : Request) (s : State) : Host.Outcome State Fault Refusal := s.runs (s.issueCmd c 0x70 r)

/-- JOURNAL_READ (R386, R432). -/
def execJournalRead (c : Fin 16) (r : Request) (section_ : List Byte) (s : State) : Host.Outcome State Fault Refusal :=
  s.runs (s.issueCmd c 0x71 r (some (supSection section_)))

/-- BIST_RUN kind 0 (R410, R411, R415). -/
def execBistRunMarch (c : Fin 16) (r : Request) (s : State) : Host.Outcome State Fault Refusal := s.runs (s.issueCmd c 0x80 r)

/-- BIST_RUN kind 1 (R410, R412, R415). -/
def execBistRunPortTest (c : Fin 16) (r : Request) (failing : List Element) (s : State) : Host.Outcome State Fault Refusal :=
  s.runs (s.issueCmd c 0x80 r (some (supFailing failing)))

/-- BIST_RUN kind 2 (R410, R413, R415). -/
def execBistRunLoopback (c : Fin 16) (r : Request) (s : State) : Host.Outcome State Fault Refusal := s.runs (s.issueCmd c 0x80 r)

/-- BIST_RUN kind 3 (R410, R413, R415). -/
def execBistRunLbist (c : Fin 16) (r : Request) (zeroOk : Bool) (s : State) : Host.Outcome State Fault Refusal :=
  s.runsAll (s.issueCmd c 0x80 r (some (supZero zeroOk)))

/-- A kind 1 test has not finished within 10 s (R415). -/
def execBistPortTestTimeout (p : Fin 16) (s : State) : Host.Outcome State Fault Refusal := s.runs (s.portTestLate p)

/-- EVENT_FETCH (R391). -/
def execEventFetch (c : Fin 16) (r : Request) (s : State) : Host.Outcome State Fault Refusal := s.runs (s.issueCmd c 0x90 r)

/-- REMOTE_CMD without ANSWER (R390). -/
def execRemoteCmdRequest (c : Fin 16) (r : Request) (s : State) : Host.Outcome State Fault Refusal := s.runs (s.issueCmd c 0xA0 r)

/-- REMOTE_CMD with ANSWER (R390). -/
def execRemoteCmdAnswer (c : Fin 16) (r : Request) (s : State) : Host.Outcome State Fault Refusal := s.runs (s.issueCmd c 0xA0 r)

/-- No answer within 100 ms of the CACK (R385, R390). -/
def execRemoteAnswerTimeout (p : Fin 16) (reqId : BitVec 16) (s : State) : Host.Outcome State Fault Refusal :=
  s.runs (s.remLate p reqId)

/-- The host has not answered within 90 ms (R390). -/
def execRemoteInHostTimeout (p : Fin 16) (reqId : BitVec 16) (s : State) : Host.Outcome State Fault Refusal :=
  s.runs (s.remHostLate p reqId)

/-- FW_STAGE (R379). -/
def execFwStage (c : Fin 16) (r : Request) (flashOk : Bool) (s : State) : Host.Outcome State Fault Refusal :=
  s.runs (s.issueCmd c 0xF0 r (some (supFlash flashOk)))

/-- FW_ACTIVATE (R379). -/
def execFwActivate (c : Fin 16) (r : Request) (image : ImageReport) (flashOk : Bool) (journal : JournalReport) (s : State) : Host.Outcome State Fault Refusal :=
  s.runs (s.issueCmd c 0xF1 r (some (supImage image flashOk journal)))

/-- 1 ms after the answer of FW_ACTIVATE with NOW (R379). -/
def execFwActivateReset (s : State) : Host.Outcome State Fault Refusal := s.runs (s.activateReset)

/-- A write of MB_DOOR.TAKE (R381, R391). -/
def execMbTake (i : Iface) (c : Fin 16) (s : State) : Host.Outcome State Fault Refusal :=
  s.done (s.wrBit i (mboxBlock c.val) 0x80 1)

/-- A doorbell with a CODE outside the command set (R385). -/
def execUnknownCmd (c : Fin 16) (code : Byte) (r : Request) (s : State) : Host.Outcome State Fault Refusal :=
  s.runsAll (s.issueCmd c code.toNat r)

end Sys2Proof.Machine
end

