-- ==== Sys2Proof/Machine/HostRows.lean ====
section
/-! DEFINITION. The meanings of the commands of one family: host lanes, the basin and placement (R226 to R271). -/

namespace Sys2Proof.Machine

/-- Lane service sends a frame (R242). -/
def execHostFrameSent (n : Fin 8) (s : State) : Host.Outcome State Fault Refusal := s.runs (s.serveLane n)

/-- A frame from the host (R248, R261 to R264). -/
def execOutboundFrame (n : Fin 8) (tagged : Bool) (fcsOk : Bool) (tag : TagWord) (frame : List Byte) (s : State) : Host.Outcome State Fault Refusal :=
  s.runs (s.hostFrame n tagged fcsOk tag frame)

/-- A RECEIPT control frame (R265). -/
def execReceipt (n : Fin 8) (entries : List CtrlEntry) (s : State) : Host.Outcome State Fault Refusal :=
  s.runs (s.receiptHeard n entries)

/-- A control frame that is not well formed (R264). -/
def execControlFrameInvalid (n : Fin 8) (s : State) : Host.Outcome State Fault Refusal := s.runs (s.badCtrlHeard n)

/-- No receipt for RCPT_TO (R249). -/
def execReceiptTimeout (q : Fin 4096) (s : State) : Host.Outcome State Fault Refusal := s.runs (s.receiptTimeout q.val)

/-- 1 ms after a RELEASE (R266). -/
def execReleaseRepeat (q : Fin 4096) (s : State) : Host.Outcome State Fault Refusal := s.runs (s.releaseAgain q.val)

/-- A PAUSE frame (R267). -/
def execPauseFrame (n : Fin 8) (quanta : BitVec 16) (s : State) : Host.Outcome State Fault Refusal :=
  s.runs (s.pauseHeard n quanta)

/-- The pause quanta expire (R267). -/
def execPauseExpiry (n : Fin 8) (s : State) : Host.Outcome State Fault Refusal := s.runs (s.pauseOver n)

/-- Paused for 1 ms (R267). -/
def execPauseStuck (n : Fin 8) (s : State) : Host.Outcome State Fault Refusal := s.runs (s.pausedLong n)

/-- A lane completes start-up (R269). -/
def execLaneUp (n : Fin 8) (s : State) : Host.Outcome State Fault Refusal := s.runs (s.laneUp n)

/-- A lane not UP within 100 ms (R269). -/
def execLaneStartRetry (n : Fin 8) (s : State) : Host.Outcome State Fault Refusal := s.runs (s.laneRetry n)

/-- A lane declared lost (R270, R271). -/
def execLaneLoss (n : Fin 8) (cause : Fin 7) (s : State) : Host.Outcome State Fault Refusal := s.runs (s.laneLost n cause)

/-- Lane b starts a moved queue (R247 step 4). -/
def execMoveLaneStart (q : Fin 4096) (s : State) : Host.Outcome State Fault Refusal := s.runs (s.moveStarts q.val)

/-- The 100 ms rebalancing check (R246). -/
def execRebalanceCheck (s : State) : Host.Outcome State Fault Refusal := s.runs (s.rebalanceDue)

/-- What the scrubber found in a bank (R228, R427). -/
def execBasinScrub (bank : Fin 68) (corrected : Nat) (uncorrectable : Nat) (hit : Option (Fin 4096 × Seq16)) (s : State) : Host.Outcome State Fault Refusal :=
  s.runs (s.scrub bank corrected uncorrectable hit)

/-- A bank copy completes (R228, R411). -/
def execBankCopyDone (bank : Fin 68) (s : State) : Host.Outcome State Fault Refusal := s.runs (s.copyDone bank)

/-- The last cell of a retired bank has left (R229). -/
def execCellMigrationDone (bank : Fin 68) (s : State) : Host.Outcome State Fault Refusal := s.runs (s.migrated bank)

end Sys2Proof.Machine
end

