-- ==== Sys2Proof/Machine/LinkRows.lean ====
section
/-! DEFINITION. The meanings of the commands of one family: link start, the ladder, shifts and the towpath's cells (R73 to R119, R222, R390). -/

namespace Sys2Proof.Machine

/-- Clause 98 has resolved (R73, R83). -/
def execClause98Resolved (p : Fin 16) (r : AnPages) (s : State) : Host.Outcome State Fault Refusal :=
  s.runsPort p (s.anResolved p r)

/-- 300 ms without a Clause 98 page (R73). -/
def execAnPageTimeout (p : Fin 16) (s : State) : Host.Outcome State Fault Refusal := s.runsPort p (s.anTimeout p)

/-- Standard training completes (R83). -/
def execStdTrainingDone (p : Fin 16) (s : State) : Host.Outcome State Fault Refusal := s.runsPort p (s.stdTrained p)

/-- A standard link fails (R83). -/
def execStdLinkFail (p : Fin 16) (s : State) : Host.Outcome State Fault Refusal := s.runsPort p (s.stdFailed p)

/-- A listening time ends without a reply (R113). -/
def execBeaconListenEnd (p : Fin 16) (s : State) : Host.Outcome State Fault Refusal := s.runsPort p (s.listenEnd p)

/-- 20 µs after a received beacon (R113, R114). -/
def execBeaconAnswer (p : Fin 16) (s : State) : Host.Outcome State Fault Refusal := s.runsPort p (s.answerBeacon p)

/-- A CAP cell (R75 to R79, R113, R114). -/
def execCap (p : Fin 16) (cell : CapCell) (mac : Word) (sf : Nat) (s : State) : Host.Outcome State Fault Refusal :=
  s.runsPort p (s.takeCap p cell mac sf)

/-- DISCOVER times out (R83). -/
def execDiscoverTimeout (p : Fin 16) (s : State) : Host.Outcome State Fault Refusal := s.runsPort p (s.discoverLate p)

/-- A sounding burst (R79, R115). -/
def execSoundingBurst (p : Fin 16) (snd : Sounding) (snrDb10 : Nat) (s : State) : Host.Outcome State Fault Refusal :=
  s.runsPort p (s.takeBurst p snd snrDb10)

/-- A MODE cell (R79, R105). -/
def execMode (p : Fin 16) (h : CellHdr) (cell : ModeCell) (s : State) : Host.Outcome State Fault Refusal :=
  s.runsPort p (s.takeMode p h cell)

/-- SOUND times out (R83). -/
def execSoundTimeout (p : Fin 16) (s : State) : Host.Outcome State Fault Refusal := s.runsPort p (s.soundLate p)

/-- One end's ECHO_LEARN time ends (R81). -/
def execEchoLearnPhaseEnd (p : Fin 16) (s : State) : Host.Outcome State Fault Refusal := s.runsPort p (s.echoTurn p)

/-- FULL_DUPLEX ends (R81). -/
def execFullDuplexEnd (p : Fin 16) (s : State) : Host.Outcome State Fault Refusal := s.runsPort p (s.duplexEnd p)

/-- A GO cell (R105, R106, R126). -/
def execGo (p : Fin 16) (h : CellHdr) (cell : GoCell) (s : State) : Host.Outcome State Fault Refusal :=
  s.runsPort p (s.takeGo p h cell)

/-- GO's COUNT is reached (R81, R106). -/
def execGoCountReached (p : Fin 16) (s : State) : Host.Outcome State Fault Refusal := s.runsPort p (s.goReached p)

/-- A training phase times out (R83). -/
def execTrainingTimeout (p : Fin 16) (s : State) : Host.Outcome State Fault Refusal := s.runsPort p (s.trainLate p)

/-- HOLD is over (R83). -/
def execHoldEnd (p : Fin 16) (s : State) : Host.Outcome State Fault Refusal := s.runsPort p (s.holdOver p)

/-- 4 ms without a valid cell or pilot (R83). -/
def execTowpathLoss (p : Fin 16) (s : State) : Host.Outcome State Fault Refusal := s.runsPort p (s.towpathLost p)

/-- The 1 ms update (R72, R84, R86, R146, R163). -/
def execLadderUpdate (p : Fin 16) (m : LineMeasure) (s : State) : Host.Outcome State Fault Refusal :=
  s.runsPort p (s.update1ms p m)

/-- A SHIFT cell (R85, R105). -/
def execShift (p : Fin 16) (h : CellHdr) (cell : ShiftCell) (s : State) : Host.Outcome State Fault Refusal :=
  s.runsPort p (s.takeShift p h cell)

/-- A SHIFT_REQ cell (R86, R87, R105). -/
def execShiftReq (p : Fin 16) (h : CellHdr) (cell : ShiftCell) (s : State) : Host.Outcome State Fault Refusal :=
  s.runsPort p (s.takeShiftReq p h cell)

/-- The retrain of a shift ends (R85 step 6). -/
def execShiftRetrainEnd (p : Fin 16) (s : State) : Host.Outcome State Fault Refusal := s.runsPort p (s.retrainEnd p)

/-- A shift has not converged by its mark (R85). -/
def execShiftNotConverged (p : Fin 16) (s : State) : Host.Outcome State Fault Refusal := s.runsPort p (s.notConverged p)

/-- The 10 min bar on a mode expires (R86). -/
def execUpBarExpiry (p : Fin 16) (m : LineMode) (s : State) : Host.Outcome State Fault Refusal := s.runs (s.barOver p m)

/-- A CACK cell (R104, R107). -/
def execCack (p : Fin 16) (h : CellHdr) (counter : Word) (type : Byte) (s : State) : Host.Outcome State Fault Refusal :=
  s.runsPort p (s.takeCack p h counter type)

/-- No CACK within 4 cell durations (R107). -/
def execCellResendTimeout (p : Fin 16) (counter : Word) (s : State) : Host.Outcome State Fault Refusal :=
  s.runsPort p (s.resendLate p counter)

/-- A cell fails its MAC (R110). -/
def execMacFail (p : Fin 16) (type : Byte) (s : State) : Host.Outcome State Fault Refusal := s.runsPort p (s.macFailed p type)

/-- A TPSF cell (R101, R105). -/
def execTpsf (p : Fin 16) (h : CellHdr) (cell : TpsfCell) (s : State) : Host.Outcome State Fault Refusal :=
  s.runs (s.takeTpsf p h cell)

/-- The count of a TPSF is reached (R101). -/
def execSfChange (p : Fin 16) (s : State) : Host.Outcome State Fault Refusal := s.runs (s.sfReached p)

/-- No CACK 16 symbols before a TPSF's count (R101). -/
def execTpsfRenew (p : Fin 16) (s : State) : Host.Outcome State Fault Refusal := s.runs (s.tpsfAgain p)

/-- The cell counter reaches 0xFFFF_0000 (R109). -/
def execNonceRefreshStart (p : Fin 16) (s : State) : Host.Outcome State Fault Refusal := s.runs (s.nonceStart p)

/-- A NONCE cell (R109). -/
def execNonce (p : Fin 16) (h : CellHdr) (fresh : BitVec 48) (s : State) : Host.Outcome State Fault Refusal :=
  s.runs (s.takeNonce p h fresh)

/-- 1 ms after the first cell under the new nonce (R109). -/
def execNonceOldDrop (p : Fin 16) (s : State) : Host.Outcome State Fault Refusal := s.runs (s.nonceDrop p)

/-- An IDLE cell: ignored (R96, R104). -/
def execIdle (_p : Fin 16) (s : State) : Host.Outcome State Fault Refusal := s.runs s

/-- A cell of an unknown TYPE: discarded and counted (R104). -/
def execUnknownCell (p : Fin 16) (_type : Byte) (s : State) : Host.Outcome State Fault Refusal :=
  s.runs (s.count (portBlock p.val) 15 1)

/-- A BLOCK cell (R119). -/
def execBlock (p : Fin 16) (seg : Nat) (bytes : List Byte) (s : State) : Host.Outcome State Fault Refusal :=
  s.runsPort p (s.takeSegment p seg bytes)

/-- A REMOTE STREAM_STOP request (R222). -/
def execStreamStop (p : Fin 16) (h : CellHdr) (cell : RemoteCell) (s : State) : Host.Outcome State Fault Refusal :=
  s.runs (s.takeRemote p h (fun t => t.remStop p cell))

/-- A REMOTE STREAM_START request (R222). -/
def execStreamStart (p : Fin 16) (h : CellHdr) (cell : RemoteCell) (s : State) : Host.Outcome State Fault Refusal :=
  s.runs (s.takeRemote p h (fun t => t.remStart p cell))

/-- A REMOTE PING request: STATUS 0x00 with its ARG (R222). -/
def execPing (p : Fin 16) (h : CellHdr) (cell : RemoteCell) (s : State) : Host.Outcome State Fault Refusal :=
  s.runs (s.takeRemote p h (fun t => t.remAnswer p cell 0 cell.arg))

/-- A REMOTE application operation (R222, R390). -/
def execRemoteApplication (p : Fin 16) (h : CellHdr) (cell : RemoteCell) (s : State) : Host.Outcome State Fault Refusal :=
  s.runs (s.takeRemote p h (fun t => t.remApp p cell))

/-- A REMOTE request of an undefined OP: STATUS 0x01 (R222). -/
def execRemoteUnknownOp (p : Fin 16) (h : CellHdr) (cell : RemoteCell) (s : State) : Host.Outcome State Fault Refusal :=
  s.runs (s.takeRemote p h (fun t => t.remAnswer p cell 1 0))

/-- A REMOTE answer (R222, R390). -/
def execRemoteAnswer (p : Fin 16) (h : CellHdr) (cell : RemoteCell) (s : State) : Host.Outcome State Fault Refusal :=
  s.runs (s.takeRemote p h (fun t => t.remDone p cell))

/-- The next cell slot of a continuous run (R108). -/
def execTowpathCellSlot (p : Fin 16) (s : State) : Host.Outcome State Fault Refusal := s.runs (s.towSlot p)

/-- A towpath pilot (R96, R97, R120, R161). -/
def execPilot (p : Fin 16) (u v predicted : Int) (s : State) : Host.Outcome State Fault Refusal :=
  s.runs (s.takePilot p u v predicted)

/-- A cell fails its CRC-16: discarded and counted (R103). -/
def execCellCrcFail (p : Fin 16) (_inSlot : Bool) (s : State) : Host.Outcome State Fault Refusal := s.runs (s.crcFailed p)

/-- A start marker (R85, R309). -/
def execStartMarkerReceived (p : Fin 16) (s : State) : Host.Outcome State Fault Refusal := s.runsPort p (s.markerHeard p)

/-- An expected sounding burst does not arrive (R115). -/
def execSoundingBurstMissing (p : Fin 16) (s : State) : Host.Outcome State Fault Refusal := s.runsPort p (s.burstMissing p)

end Sys2Proof.Machine
end

