-- ==== Sys2Proof/Machine/QuietRows.lean ====
section
/-! DEFINITION. The meanings of the commands of one family: quiet, deep quiet and low-power idle (R299 to R312). -/

namespace Sys2Proof.Machine

/-- The leader sends ENTER (R303, R304). -/
def execQuietEnterSend (p : Fin 16) (cell : QuietCell) (s : State) : Host.Outcome State Fault Refusal :=
  s.runs (s.sendEnter p cell)

/-- A QUIET cell of kind ENTER (R304). -/
def execQuietEnter (p : Fin 16) (h : CellHdr) (cell : QuietCell) (s : State) : Host.Outcome State Fault Refusal :=
  s.runs (s.takeEnter p h cell)

/-- Symbol E (R304). -/
def execQuietEntryPoint (p : Fin 16) (s : State) : Host.Outcome State Fault Refusal := s.runsPort p (s.entryPoint p)

/-- A QUIET cell of kind EXIT (R308). -/
def execQuietExit (p : Fin 16) (h : CellHdr) (cell : QuietCell) (s : State) : Host.Outcome State Fault Refusal :=
  s.runs (s.takeExit p h cell)

/-- A QUIET cell of kind ABORT (R304, R310). -/
def execQuietAbort (p : Fin 16) (h : CellHdr) (s : State) : Host.Outcome State Fault Refusal := s.runs (s.takeAbort p h)

/-- The exit chip (R305, R306). -/
def execQuietExitPoint (p : Fin 16) (s : State) : Host.Outcome State Fault Refusal := s.runsPort p (s.exitPoint p)

/-- The follower's early start (R309). -/
def execDeepQuietEarlyWake (p : Fin 16) (s : State) : Host.Outcome State Fault Refusal := s.runsPort p (s.earlyWake p)

/-- D (R309). -/
def execDeepQuietEnd (p : Fin 16) (s : State) : Host.Outcome State Fault Refusal := s.runsPort p (s.deepEnd p)

/-- No marker by D + 1 ms (R309). -/
def execDeepQuietMarkerTimeout (p : Fin 16) (s : State) : Host.Outcome State Fault Refusal := s.runsPort p (s.markerLate p)

/-- The idle time of LN_LPI_CTRL has passed (R300). -/
def execLpiIdleTimeout (p : Fin 16) (s : State) : Host.Outcome State Fault Refusal := s.runs (s.lpiEnter p)

/-- The partner enters, refreshes or leaves LPI (R300). -/
def execPartnerLpi (p : Fin 16) (kind : Fin 3) (s : State) : Host.Outcome State Fault Refusal := s.runs (s.partnerLpi p kind)

end Sys2Proof.Machine
end

