-- ==== Sys2Proof/Machine/ReceiveRows.lean ====
section
/-! DEFINITION. The meanings of the commands of one family: receive signal processing and LDMT (R116, R144, R148, R154, R162, R179 to R188). -/

namespace Sys2Proof.Machine

/-- A new sounding set (R116). -/
def execSoundingRefresh (p : Fin 16) (snd : Sounding) (s : State) : Host.Outcome State Fault Refusal :=
  s.runs (s.refreshSounding p snd)

/-- One AGC step (R144). -/
def execAgcStep (p : Fin 16) (peakPercent : Nat) (s : State) : Host.Outcome State Fault Refusal :=
  s.runs (s.stepAgc p peakPercent)

/-- The 100 ms check of the floating clusters (R148). -/
def execFloatClusterCheck (p : Fin 16) (s : State) : Host.Outcome State Fault Refusal := s.runs (s.checkClusters p)

/-- Crosstalk couplings measured (R154). -/
def execXtAllocation (rch : Fin 4) (couplings : List (Bool × Fin 4 × Fin 4 × Nat)) (s : State) : Host.Outcome State Fault Refusal :=
  s.runs (s.allocate rch couplings)

/-- The 1 ms SNR update of LDMT (R179, R187). -/
def execDmtSnrUpdate (p : Fin 16) (symbols : List DmtSymbol) (s : State) : Host.Outcome State Fault Refusal :=
  s.runs (s.dmtUpdate p symbols)

/-- An LDMT table message (R184). -/
def execTableMessage (p : Fin 16) (msg : List Byte) (s : State) : Host.Outcome State Fault Refusal := s.runs (s.takeTable p msg)

/-- The table message repeated (R185). -/
def execDmtTableRepeat (p : Fin 16) (s : State) : Host.Outcome State Fault Refusal := s.runs (s.repeatTable p)

/-- d = A (R187, R188). -/
def execBitswapSwitch (p : Fin 16) (sending : Bool) (points : List (Int × Int)) (s : State) : Host.Outcome State Fault Refusal :=
  s.runs (s.bitswap p sending points)

/-- The symbol index moves by one (R162). -/
def execSymbolSlip (p : Fin 16) (forward : Bool) (s : State) : Host.Outcome State Fault Refusal := s.runs (s.symbolSlipped p forward)

end Sys2Proof.Machine
end

