-- ==== Sys2Proof/Machine/Registers.lean ====
section
/-! DEFINITION. The meanings of the commands of one family: the register interfaces, the guards, the MDIO window and the monitor (R344 to R371, R394 to R401). -/

namespace Sys2Proof.Machine

/-- A transaction that SPI ignores (R346, R357). -/
def execSpiTransactionError (e : SpiError) (s : State) : Host.Outcome State Fault Refusal := s.done (s.spiIgnored e)

/-- A register write by address (R348 to R357, R364). -/
def execRegisterWrite (i : Iface) (a : Addr) (v : Word) (s : State) : Host.Outcome State Fault Refusal :=
  s.actsAll (s.addrWrite i a v)

/-- The key that arms an interface's guard (R356). -/
def execGdKeyWrite (i : Iface) (s : State) : Host.Outcome State Fault Refusal := s.done (s.wr i 0 0x30 .plain guardKey)

/-- Step 2 of the guard procedure (R356). -/
def execGuardedValueWrite (i : Iface) (a : Addr) (v : Word) (s : State) : Host.Outcome State Fault Refusal :=
  s.actsAll (s.addrWrite i a v)

/-- Step 3 of the guard procedure (R356, R357). -/
def execGuardComplementWrite (i : Iface) (a : Addr) (v : Word) (s : State) : Host.Outcome State Fault Refusal :=
  s.actsAll (s.addrWrite i a v)

/-- 1 ms with no transaction at an open guard (R357). -/
def execGuardTimeout (i : Iface) (s : State) : Host.Outcome State Fault Refusal := s.done (s.guardLate i)

/-- A pass of the configuration scrubber (R359 to R361). -/
def execParityScrub (bad : List Addr) (s : State) : Host.Outcome State Fault Refusal := s.runsAll (s.parityPass bad)

/-- The keeper rewrites an owned block that differs from its copy (R363). -/
def execKeeperRestoreOwned (block : Fin 128) (s : State) : Host.Outcome State Fault Refusal :=
  s.runsAll (s.restoreOwned (canonBlock block.val))

/-- A read of IND_DATA (R367). -/
def execIndDataRead (i : Iface) (block : Fin 128) (s : State) : Host.Outcome State Fault Refusal :=
  s.done (s.busRead i (canonBlock block.val) 0xFF false)

/-- A write of IND_DATA (R367). -/
def execIndDataWrite (i : Iface) (block : Fin 128) (v : Word) (s : State) : Host.Outcome State Fault Refusal :=
  s.done (s.wr i (canonBlock block.val) 0xFF .plain v)

/-- A read of TM_NOW_NS (R297). -/
def execTmNowNsRead (i : Iface) (s : State) : Host.Outcome State Fault Refusal := s.done (s.busRead i 2 0x00 false)

/-- A read of a counter's low register (R400). -/
def execCounterLowRead (i : Iface) (block : Fin 128) (n : Fin 8) (s : State) : Host.Outcome State Fault Refusal :=
  s.done (s.busRead i (canonBlock block.val) (0xE8 + n.val) false)

/-- A write of CSELn.CLR (R396). -/
def execCounterClear (i : Iface) (block : Fin 128) (n : Fin 8) (s : State) : Host.Outcome State Fault Refusal :=
  s.done (s.wrBit i (canonBlock block.val) (0xE0 + n.val) 31)

/-- A 48-bit counter passes its maximum (R401, R406). -/
def execCounterWrap (block : Fin 128) (n : Fin 8) (s : State) : Host.Outcome State Fault Refusal :=
  s.runs (s.wrapTold (canonBlock block.val) n.val)

/-- A Clause 45 address frame (R370). -/
def execMdioAddress (prtad : BitVec 5) (devad : BitVec 5) (a : BitVec 16) (s : State) : Host.Outcome State Fault Refusal :=
  s.done (s.mdioAddr prtad devad a)

/-- A Clause 45 write frame (R251, R370, R371). -/
def execMdioWrite (prtad : BitVec 5) (devad : BitVec 5) (v : BitVec 16) (s : State) : Host.Outcome State Fault Refusal :=
  s.actsAll (s.mdioPut prtad devad v)

/-- A Clause 45 read frame (R252, R370). -/
def execMdioRead (prtad : BitVec 5) (devad : BitVec 5) (s : State) : Host.Outcome State Fault Refusal :=
  s.done (s.mdioGet prtad devad)

/-- A Clause 45 post-read-increment frame (R252, R370). -/
def execMdioReadInc (prtad : BitVec 5) (devad : BitVec 5) (s : State) : Host.Outcome State Fault Refusal :=
  s.done (s.mdioGetInc prtad devad)

/-- 1 ms without MDIO access (R252). -/
def execMdioLatchTimeout (s : State) : Host.Outcome State Fault Refusal := s.done (s.mdioLate)

/-- The monitor's p command (R394). -/
def execMonRead (a : Addr) (s : State) : Host.Outcome State Fault Refusal := s.done (s.monGet a)

/-- The monitor's w command (R394). -/
def execMonWrite (a : Addr) (v : Word) (s : State) : Host.Outcome State Fault Refusal := s.actsAll (s.monPut a v)

/-- The monitor's i command (R394). -/
def execMonInvoke (c : Fin 16) (words : List Word) (s : State) : Host.Outcome State Fault Refusal := s.actsAll (s.monCall c words)

/-- The channel that the monitor rang is DONE (R394). -/
def execMonInvokeResponse (c : Fin 16) (s : State) : Host.Outcome State Fault Refusal := s.done (s.monDone c)

/-- The monitor's t command (R394). -/
def execMonTrace (on : Bool) (s : State) : Host.Outcome State Fault Refusal := s.done (s.monTraceSet on)

/-- The monitor's c command (R394). -/
def execMonCounters (block : Fin 128) (s : State) : Host.Outcome State Fault Refusal := s.done (s.monDump block.val)

/-- The monitor's b command (R394). -/
def execMonBaud (code : Nat) (s : State) : Host.Outcome State Fault Refusal := s.done (s.monRate code)

/-- A line that the monitor cannot take (R394). -/
def execMonBadLine (s : State) : Host.Outcome State Fault Refusal := s.done (s.monBad)

end Sys2Proof.Machine
end

