-- ==== Sys2Proof/Machine/SelfTestRows.lean ====
section
/-! DEFINITION. The meanings of the commands of one family: self-test, the journal and boundary scan (R35, R47, R410 to R415, R434, R436). -/

namespace Sys2Proof.Machine

/-- MARCH_INT has passed (R411). -/
def execMarchInterval (s : State) : Host.Outcome State Fault Refusal := s.runs (s.marchInterval)

/-- A bank march completes (R411). -/
def execMarchDone (failWord : Option Nat) (s : State) : Host.Outcome State Fault Refusal := s.runs (s.marchDone failWord)

/-- PORT_INT has passed (R412). -/
def execPortTestInterval (p : Fin 16) (failing : List Element) (s : State) : Host.Outcome State Fault Refusal :=
  s.runs (s.testInterval p failing)

/-- A loopback finishes (R413). -/
def execLoopbackDone (p : Fin 16) (errors : Nat) (s : State) : Host.Outcome State Fault Refusal := s.runs (s.loopDone p errors)

/-- Logic BIST finishes (R413, R415). -/
def execLbistDone (passed : Bool) (s : State) : Host.Outcome State Fault Refusal := s.done (s.lbistEnds passed)

/-- The automatic commit (R434). -/
def execJournalAutoCommit (s : State) : Host.Outcome State Fault Refusal := s.runs (s.autoCommit)

/-- A commit ends (R434). -/
def execJournalCommitDone (ok : Bool) (s : State) : Host.Outcome State Fault Refusal := s.runs (s.commitDone ok)

/-- The safe-state sequence is complete (R46, R47). -/
def execSafeStateComplete (s : State) : Host.Outcome State Fault Refusal := s.done (s.safeDone)

/-- Engines place their waiting slices again (R294, R436). -/
def execEngineSliceRetry (failing : List Element) (s : State) : Host.Outcome State Fault Refusal := s.runs (s.retrySlices failing)

/-- A TCK edge (R13, R35). -/
def execBoundaryScan (trstN tms tdi : Bool) (s : State) : Host.Outcome State Fault Refusal := s.done (s.tapEdge trstN tms tdi)

end Sys2Proof.Machine
end

