-- ==== Sys2Proof/Machine/Supervisor.lean ====
section
/-! DEFINITION. The meanings of the commands of one family: supplies, clocks, resets, power-fail, test and the power domains (R15 to R63, R372 to R374, R425, R428, R429). -/

namespace Sys2Proof.Machine

/-- A rail monitor trips (R32): internal reset with SAFE_N low. -/
def execSupplyMonitorTrip (rail : Fin 8) (s : State) : Host.Outcome State Fault Refusal := s.done (s.railTrips rail)

/-- Every rail has been good for 1 ms (R32). -/
def execSuppliesGood (s : State) : Host.Outcome State Fault Refusal := s.done (s.railsGood)

/-- Filtered RESET_N falls (R51): hard reset. -/
def execResetNFall (s : State) : Host.Outcome State Fault Refusal := s.done (s.resetFalls)

/-- Filtered RESET_N rises (R16, R19, R42): the straps are sampled. -/
def execResetNRise (bootSel : BitVec 2) (mdioAddr : BitVec 5) (s : State) : Host.Outcome State Fault Refusal :=
  s.done (s.resetRises bootSel mdioAddr)

/-- A window of 400 watch-oscillator cycles ends with its count (R42, R43). -/
def execRefclkWindowEnd (edges : Nat) (s : State) : Host.Outcome State Fault Refusal := s.done (s.refWindow edges)

/-- A judging window of a PLL ends with its count (R45). -/
def execPllLockWindowEnd (pll : Pll) (count : Nat) (s : State) : Host.Outcome State Fault Refusal :=
  s.actsAll (s.pllWindow pll count)

/-- No feedback edge for 64 reference cycles (R46). -/
def execPllNoFeedback (pll : Pll) (s : State) : Host.Outcome State Fault Refusal := s.actsAll (s.pllNoFeedback pll)

/-- No REFCLK edge for 64 divided cycles (R46). -/
def execPllHoldoverEntry (pll : Pll) (s : State) : Host.Outcome State Fault Refusal := s.done (s.pllHoldover pll)

/-- No lock 2 ms after qualification (R56). -/
def execPllLockTimeout (pll : Pll) (s : State) : Host.Outcome State Fault Refusal := s.done (s.pllTimeout pll)

/-- The clock being left has stopped: the switch to the source given (true: the PLL) is forced (R49). -/
def execForcedSwitch (m : Mux) (toPll : Bool) (s : State) : Host.Outcome State Fault Refusal := s.actsAll (s.forcedSwitch m toPll)

/-- Neither source of a multiplexer shows an edge (R50). -/
def execClockMuxBothAbsent (m : Mux) (s : State) : Host.Outcome State Fault Refusal := s.actsAll (s.bothAbsent m)

/-- The 1 ms measurement of the watch oscillator (R44). -/
def execWatchOscCheck (kHz : Nat) (s : State) : Host.Outcome State Fault Refusal := s.done (s.watchOsc kHz)

/-- A write of CK_CTRL (R41, R63); its effect waits for the triangle. -/
def execCkCtrlWrite (i : Iface) (w : Way) (v : Word) (s : State) : Host.Outcome State Fault Refusal := s.done (s.wr i 0 0x0A w v)

/-- The triangle reaches 1.25 GHz: the core spread follows SSC_EN (R41). -/
def execSscChangeApply (s : State) : Host.Outcome State Fault Refusal :=
  s.done ({ s with sup := { s.sup with sscOn := bit (s.act (regKey 0 0x0A)) 0 } })

/-- The basin is initialised and the keeper leaves reset (R55 steps 4 and 5). -/
def execBasinInitDone (s : State) : Host.Outcome State Fault Refusal := s.done (s.basinReady)

/-- The boot ROM has read the slots (R55 step 6, R377). -/
def execFirmwareStart (slotA : ImageReport) (slotB : ImageReport) (journal : JournalReport) (s : State) : Host.Outcome State Fault Refusal :=
  s.runs (s.bootChoose slotA slotB journal)

/-- Filtered PFAIL_N falls (R42, R428). -/
def execPfailNFall (s : State) : Host.Outcome State Fault Refusal := s.actsAll (s.pfailFalls)

/-- Filtered PFAIL_N rises (R42, R429). -/
def execPfailNRise (s : State) : Host.Outcome State Fault Refusal := s.done (s.pfailRises)

/-- PFAIL_N high for 10 ms with good supplies (R429). -/
def execPfailRelease (s : State) : Host.Outcome State Fault Refusal := s.actsAll (s.pfailOver)

/-- Filtered TEST_EN rises (R34, R417). -/
def execTestEnRise (zeroOk : Bool) (s : State) : Host.Outcome State Fault Refusal := s.actsAll (s.testRises zeroOk)

/-- Filtered TEST_EN falls (R34). -/
def execTestEnFall (s : State) : Host.Outcome State Fault Refusal := s.done (s.testFalls)

/-- A turn of the power sequencer (R60). -/
def execDomainSequencerTurn (s : State) : Host.Outcome State Fault Refusal := s.done (s.sequence)

/-- A domain completes its switch-on order (R59, R60). -/
def execDomainUsable (d : Fin 245) (s : State) : Host.Outcome State Fault Refusal := s.done (s.usable d.val)

/-- A guarded write of PD_FORCE_OFFn (R61, R62, R356). -/
def execPdForceOffWrite (i : Iface) (n : Fin 8) (v : Word) (zeroOk : Bool) (s : State) : Host.Outcome State Fault Refusal :=
  s.actsAll (s.guardedWrite i 0 (0x10 + n.val) v (some (supZero zeroOk)))

/-- A guarded write of CK_RESET.SOFT (R51, R53). -/
def execCkResetSoft (i : Iface) (s : State) : Host.Outcome State Fault Refusal := s.done (s.guardedWrite i 0 0x0B 1)

/-- A guarded write of CK_RESET.KEEPER (R51, R374). -/
def execCkResetKeeper (i : Iface) (s : State) : Host.Outcome State Fault Refusal := s.done (s.guardedWrite i 0 0x0B 2)

/-- A guarded write of CK_RESET.PORT (R51). -/
def execCkResetPort (i : Iface) (mask : BitVec 16) (s : State) : Host.Outcome State Fault Refusal :=
  s.actsAll (s.guardedWrite i 0 0x0B (put 16 16 mask.toNat))

/-- A guarded write of CK_RESET.LANE (R51, R270). -/
def execCkResetLane (i : Iface) (mask : BitVec 8) (s : State) : Host.Outcome State Fault Refusal :=
  s.done (s.guardedWrite i 0 0x0B (put 8 8 mask.toNat))

/-- The keeper watchdog expires (R373). -/
def execKeeperWatchdogExpiry (s : State) : Host.Outcome State Fault Refusal := s.runs (s.keeperFault 1)

/-- The lockstep comparator reports a mismatch (R372). -/
def execLockstepMismatch (s : State) : Host.Outcome State Fault Refusal := s.runs (s.keeperFault 2)

/-- An uncorrectable word of keeper SRAM (R372). -/
def execKeeperSramUncorrectable (s : State) : Host.Outcome State Fault Refusal := s.runs (s.keeperFault 3)

/-- The restarted firmware serves again (R374). -/
def execKeeperRestartDone (s : State) : Host.Outcome State Fault Refusal := s.runs (s.restartDone)

end Sys2Proof.Machine
end

