-- ==== Sys2Proof/Machine/TimeRows.lean ====
section
/-! DEFINITION. The meanings of the commands of one family: vehicle time, TSYNC and TMARK, the calendar's instants and time transfer (R274 to R297, R402, R403). -/

namespace Sys2Proof.Machine

/-- One tick of the direct clock (R39, R275). -/
def execTimeTick (s : State) : Host.Outcome State Fault Refusal := s.done (s.tick)

/-- A slew is used up (R277). -/
def execSlewDone (s : State) : Host.Outcome State Fault Refusal := s.runs (s.endSlew)

/-- A rising edge of TSYNC (R278). -/
def execTsyncEdge (tenths : Fin 64) (s : State) : Host.Outcome State Fault Refusal := s.runs (s.tsync tenths.val)

/-- A mark instant (R279). -/
def execTmarkRise (s : State) : Host.Outcome State Fault Refusal := s.runs (s.markRise)

/-- The end of the mark's high time (R279). -/
def execTmarkFall (s : State) : Host.Outcome State Fault Refusal := s.runs (s.markFall)

/-- A calendar window starts (R289, R291). -/
def execWindowStart (e : Fin 1024) (s : State) : Host.Outcome State Fault Refusal := s.runs (s.windowStarts e.val)

/-- A calendar window stops (R289, R291). -/
def execWindowStop (e : Fin 1024) (failing : List Element) (s : State) : Host.Outcome State Fault Refusal :=
  s.runs (s.windowStops e.val failing)

/-- A COMMIT_AT entry acts (R295). -/
def execCommitAct (e : Fin 1024) (s : State) : Host.Outcome State Fault Refusal := s.runsAll (s.commitActs e.val)

/-- The snapshots due in one tick (R402). -/
def execSnapshotTake (s : State) : Host.Outcome State Fault Refusal := s.runs (s.takeSnapshot)

/-- A host event instant acts (R289, R392). -/
def execHostEventInstant (e : Fin 1024) (s : State) : Host.Outcome State Fault Refusal := s.runs (s.hostEvent e.val)

/-- A TMARK pulse instant acts (R279, R289). -/
def execTmarkPulseInstant (e : Fin 1024) (s : State) : Host.Outcome State Fault Refusal := s.runs (s.tmarkPulse e.val)

/-- A write of PC_SEL.NOW (R402, R403). -/
def execPcSelNow (i : Iface) (s : State) : Host.Outcome State Fault Refusal := s.done (s.wrBit i 4 0x00 1)

/-- A snapshot copy completes (R402). -/
def execSnapshotCopyDone (s : State) : Host.Outcome State Fault Refusal := s.runs (s.snapshotDone)

/-- A write of PC_SEED (R403). -/
def execPcSeedWrite (i : Iface) (w : Way) (v : Word) (s : State) : Host.Outcome State Fault Refusal := s.done (s.wr i 4 0x05 w v)

/-- TM_XFER.INT has passed at a sink (R281). -/
def execTimeReqTimer (p : Fin 16) (s : State) : Host.Outcome State Fault Refusal := s.runs (s.timeReqDue p)

/-- A TIME cell of kind REQ (R281, R283). -/
def execTimeReq (p : Fin 16) (h : CellHdr) (s2 : Word) (t4 : Nat) (s : State) : Host.Outcome State Fault Refusal :=
  s.runs (s.takeTimeReq p h s2 t4)

/-- A TIME cell of kind SYNC (R282 to R284). -/
def execTimeSync (p : Fin 16) (h : CellHdr) (cell : TimeSyncCell) (t2 : Nat) (t3 : Nat) (s : State) : Host.Outcome State Fault Refusal :=
  s.runs (s.takeTimeSync p h cell t2 t3)

/-- A REQ unanswered for 1 s (R281). -/
def execXferNoSource (p : Fin 16) (s : State) : Host.Outcome State Fault Refusal := s.runs (s.noSource p)

end Sys2Proof.Machine
end

