-- ==== Sys2Proof/Machine/WriteRows.lean ====
section
/-! DEFINITION. The meanings of the commands of one family: the register writes with rows of their own (R87, R100, R101, R138 to R140, R167 to R170, R224, R225, R246, R253, R255, R272, R273, R297, R298, R311, R312, R328, R329, R341, R343, R413, R417). -/

namespace Sys2Proof.Machine

/-- A write of LN_MODE (R70, R83, R87). -/
def execLnModeWrite (i : Iface) (p : Fin 16) (w : Way) (v : Word) (s : State) : Host.Outcome State Fault Refusal :=
  s.actsAll (s.wr i (portBlock p.val) 0x01 w v)

/-- A write of LN_POLICY (R70, R87). -/
def execLnPolicyWrite (i : Iface) (p : Fin 16) (w : Way) (v : Word) (s : State) : Host.Outcome State Fault Refusal :=
  s.actsAll (s.wr i (portBlock p.val) 0x00 w v)

/-- A write of TP_CTRL (R100, R101, R120). -/
def execTpCtrlWrite (i : Iface) (p : Fin 16) (w : Way) (v : Word) (s : State) : Host.Outcome State Fault Refusal :=
  s.done (s.wr i (portBlock p.val) 0x20 w v)

/-- A write of a transmit register (R138, R140). -/
def execLnTxWrite (i : Iface) (p : Fin 16) (reg : TxReg) (w : Way) (v : Word) (s : State) : Host.Outcome State Fault Refusal :=
  s.done (s.wr i (portBlock p.val) (txIx reg) w v)

/-- A guarded write of LN_TX_TEST (R138 to R140). -/
def execLnTxTestWrite (i : Iface) (p : Fin 16) (v : Word) (s : State) : Host.Outcome State Fault Refusal :=
  s.done (s.guardedWrite i (portBlock p.val) 0x17 v)

/-- A write of a receive register (R167, R170). -/
def execLnRxWrite (i : Iface) (p : Fin 16) (reg : RxReg) (w : Way) (v : Word) (s : State) : Host.Outcome State Fault Refusal :=
  s.done (s.wr i (portBlock p.val) (rxIx reg) w v)

/-- A write of a crosstalk register (R169, R170). -/
def execRhXtWrite (i : Iface) (rch : Fin 4) (reg : XtReg) (w : Way) (v : Word) (s : State) : Host.Outcome State Fault Refusal :=
  s.done (s.wr i (reachBlock rch.val) (xtIx reg) w v)

/-- A write of LN_BLK_CTRL (R224, R225). -/
def execLnBlkCtrlWrite (i : Iface) (p : Fin 16) (w : Way) (v : Word) (s : State) : Host.Outcome State Fault Refusal :=
  s.done (s.wr i (portBlock p.val) 0x50 w v)

/-- A write of a quiet register (R311, R312). -/
def execLnQuietWrite (i : Iface) (p : Fin 16) (reg : QuietReg) (w : Way) (v : Word) (s : State) : Host.Outcome State Fault Refusal :=
  s.done (s.wr i (portBlock p.val) (quietIx reg) w v)

/-- A write of LN_QUIET_CTRL.WAKE (R308, R311). -/
def execLnQuietWake (i : Iface) (p : Fin 16) (s : State) : Host.Outcome State Fault Refusal :=
  s.done (s.wrBit i (portBlock p.val) 0x60 1)

/-- A write of a basin or placement register (R253, R255). -/
def execBasinRegWrite (i : Iface) (reg : BasinReg) (w : Way) (v : Word) (s : State) : Host.Outcome State Fault Refusal :=
  s.done (s.wr i 3 (basinIx reg) w v)

/-- A write of PL_CTRL.REBAL (R246, R253). -/
def execPlRebal (i : Iface) (s : State) : Host.Outcome State Fault Refusal := s.done (s.wrBit i 3 0x20 2)

/-- A write of a host-lane register (R272, R273). -/
def execHlRegWrite (i : Iface) (n : Fin 8) (reg : HlReg) (w : Way) (v : Word) (s : State) : Host.Outcome State Fault Refusal :=
  s.done (s.wr i (laneBlock n.val) (hlIx reg) w v)

/-- A write of a time register (R297, R298). -/
def execTmRegWrite (i : Iface) (reg : TmReg) (w : Way) (v : Word) (s : State) : Host.Outcome State Fault Refusal :=
  s.done (s.wr i 2 (tmIx reg) w v)

/-- A write of CAL_CTRL or CAL_DT (R328, R329). -/
def execCalRegWrite (i : Iface) (reg : CalReg) (w : Way) (v : Word) (s : State) : Host.Outcome State Fault Refusal :=
  s.done (s.wr i 6 (calIx reg) w v)

/-- A guarded write of CAL_OVR (R328, R329). -/
def execCalOvrWrite (i : Iface) (v : Word) (s : State) : Host.Outcome State Fault Refusal := s.done (s.guardedWrite i 6 0x20 v)

/-- A write of a diagnostic register (R341, R343). -/
def execDgRegWrite (i : Iface) (p : Fin 16) (reg : DgReg) (w : Way) (v : Word) (s : State) : Host.Outcome State Fault Refusal :=
  s.done (s.wr i (portBlock p.val) (dgIx reg) w v)

/-- A guarded write of ST_OFFLINE.LOOP (R413, R414). -/
def execStLoopbackStart (i : Iface) (mask : BitVec 16) (s : State) : Host.Outcome State Fault Refusal :=
  s.done (s.guardedWrite i 5 0x02 (put 16 16 mask.toNat))

/-- A guarded write of ST_OFFLINE.LBIST (R413, R414). -/
def execStLbistStart (i : Iface) (zeroOk : Bool) (s : State) : Host.Outcome State Fault Refusal :=
  s.actsAll (s.guardedWrite i 5 0x02 1 (some (supZero zeroOk)))

/-- A guarded write of KS_ZERO (R417, R418). -/
def execKsZeroise (i : Iface) (zeroOk : Bool) (s : State) : Host.Outcome State Fault Refusal :=
  s.actsAll (s.guardedWrite i 0 0x40 1 (some (supZero zeroOk)))

/-- The second zeroising attempt (R417), and what waited for it (R34, R413). -/
def execZeroiseRetry (zeroOk : Bool) (s : State) : Host.Outcome State Fault Refusal := s.runsAll (s.zeroiseResult zeroOk)

end Sys2Proof.Machine
end

