-- ==== Sys2Proof/Machine/Dispatch.lean ====
section
/-! DEFINITION. What each command does to everything but the queue: one arm for each row of the operation table, each a
direct call of that row's meaning. -/

namespace Sys2Proof.Machine

/-- The effect of a command (one arm per constructor of `Instr`). -/
def exec (i : Instr) (s : State) : Host.Outcome State Fault Refusal :=
  match i with
  | .supplyMonitorTrip rail => Sys2Proof.Machine.execSupplyMonitorTrip rail s
  | .resetNRise bootSel mdioAddr => Sys2Proof.Machine.execResetNRise bootSel mdioAddr s
  | .refclkWindowEnd edges => Sys2Proof.Machine.execRefclkWindowEnd edges s
  | .pllLockWindowEnd pll count => Sys2Proof.Machine.execPllLockWindowEnd pll count s
  | .pllNoFeedback pll => Sys2Proof.Machine.execPllNoFeedback pll s
  | .pllHoldoverEntry pll => Sys2Proof.Machine.execPllHoldoverEntry pll s
  | .pllLockTimeout pll => Sys2Proof.Machine.execPllLockTimeout pll s
  | .forcedSwitch m toPll => Sys2Proof.Machine.execForcedSwitch m toPll s
  | .clockMuxBothAbsent m => Sys2Proof.Machine.execClockMuxBothAbsent m s
  | .watchOscCheck kHz => Sys2Proof.Machine.execWatchOscCheck kHz s
  | .ckCtrlWrite iface w v => Sys2Proof.Machine.execCkCtrlWrite iface w v s
  | .firmwareStart slotA slotB journal => Sys2Proof.Machine.execFirmwareStart slotA slotB journal s
  | .testEnRise zeroOk => Sys2Proof.Machine.execTestEnRise zeroOk s
  | .domainUsable d => Sys2Proof.Machine.execDomainUsable d s
  | .pdForceOffWrite iface n v zeroOk => Sys2Proof.Machine.execPdForceOffWrite iface n v zeroOk s
  | .ckResetSoft iface => Sys2Proof.Machine.execCkResetSoft iface s
  | .ckResetKeeper iface => Sys2Proof.Machine.execCkResetKeeper iface s
  | .ckResetPort iface mask => Sys2Proof.Machine.execCkResetPort iface mask s
  | .ckResetLane iface mask => Sys2Proof.Machine.execCkResetLane iface mask s
  | .hello c r => Sys2Proof.Machine.execHello c r s
  | .portSetPolicy c r => Sys2Proof.Machine.execPortSetPolicy c r s
  | .portEnable c r => Sys2Proof.Machine.execPortEnable c r s
  | .portDisable c r => Sys2Proof.Machine.execPortDisable c r s
  | .portForceMode c r => Sys2Proof.Machine.execPortForceMode c r s
  | .streamOpen c r => Sys2Proof.Machine.execStreamOpen c r s
  | .streamModify c r => Sys2Proof.Machine.execStreamModify c r s
  | .streamClose c r => Sys2Proof.Machine.execStreamClose c r s
  | .streamCloseComplete q => Sys2Proof.Machine.execStreamCloseComplete q s
  | .cadenceSet c r => Sys2Proof.Machine.execCadenceSet c r s
  | .cadenceLearn c r => Sys2Proof.Machine.execCadenceLearn c r s
  | .cadenceLearnDone e bursts => Sys2Proof.Machine.execCadenceLearnDone e bursts s
  | .cadenceLearnTimeout e => Sys2Proof.Machine.execCadenceLearnTimeout e s
  | .timeSet c r => Sys2Proof.Machine.execTimeSet c r s
  | .timeSetTsyncTimeout c => Sys2Proof.Machine.execTimeSetTsyncTimeout c s
  | .timeAdjustRate c r => Sys2Proof.Machine.execTimeAdjustRate c r s
  | .timeAdjustSlew c r => Sys2Proof.Machine.execTimeAdjustSlew c r s
  | .timeAdjustStep c r => Sys2Proof.Machine.execTimeAdjustStep c r s
  | .scheduleEventAdd c r => Sys2Proof.Machine.execScheduleEventAdd c r s
  | .scheduleEventCancel c r => Sys2Proof.Machine.execScheduleEventCancel c r s
  | .snapshotAt c r => Sys2Proof.Machine.execSnapshotAt c r s
  | .commitAt c r => Sys2Proof.Machine.execCommitAt c r s
  | .calRun c r => Sys2Proof.Machine.execCalRun c r s
  | .calRead c r => Sys2Proof.Machine.execCalRead c r s
  | .diagTdr c r => Sys2Proof.Machine.execDiagTdr c r s
  | .diagWatchRead c r => Sys2Proof.Machine.execDiagWatchRead c r s
  | .diagWatchCapture c r => Sys2Proof.Machine.execDiagWatchCapture c r s
  | .diagWatchDiscard c r => Sys2Proof.Machine.execDiagWatchDiscard c r s
  | .diagWatchCaptureTimeout p => Sys2Proof.Machine.execDiagWatchCaptureTimeout p s
  | .keyLoad c r unwrapped => Sys2Proof.Machine.execKeyLoad c r unwrapped s
  | .keyErase c r => Sys2Proof.Machine.execKeyErase c r s
  | .journalCommit c r => Sys2Proof.Machine.execJournalCommit c r s
  | .journalRead c r section_ => Sys2Proof.Machine.execJournalRead c r section_ s
  | .bistRunMarch c r => Sys2Proof.Machine.execBistRunMarch c r s
  | .bistRunPortTest c r failing => Sys2Proof.Machine.execBistRunPortTest c r failing s
  | .bistRunLoopback c r => Sys2Proof.Machine.execBistRunLoopback c r s
  | .bistRunLbist c r zeroOk => Sys2Proof.Machine.execBistRunLbist c r zeroOk s
  | .bistPortTestTimeout p => Sys2Proof.Machine.execBistPortTestTimeout p s
  | .eventFetch c r => Sys2Proof.Machine.execEventFetch c r s
  | .remoteCmdRequest c r => Sys2Proof.Machine.execRemoteCmdRequest c r s
  | .remoteCmdAnswer c r => Sys2Proof.Machine.execRemoteCmdAnswer c r s
  | .remoteAnswerTimeout p reqId => Sys2Proof.Machine.execRemoteAnswerTimeout p reqId s
  | .remoteInHostTimeout p reqId => Sys2Proof.Machine.execRemoteInHostTimeout p reqId s
  | .fwStage c r flashOk => Sys2Proof.Machine.execFwStage c r flashOk s
  | .fwActivate c r image flashOk journal => Sys2Proof.Machine.execFwActivate c r image flashOk journal s
  | .mbTake iface c => Sys2Proof.Machine.execMbTake iface c s
  | .unknownCmd c code r => Sys2Proof.Machine.execUnknownCmd c code r s
  | .spiTransactionError e => Sys2Proof.Machine.execSpiTransactionError e s
  | .registerWrite iface a v => Sys2Proof.Machine.execRegisterWrite iface a v s
  | .gdKeyWrite iface => Sys2Proof.Machine.execGdKeyWrite iface s
  | .guardedValueWrite iface a v => Sys2Proof.Machine.execGuardedValueWrite iface a v s
  | .guardComplementWrite iface a v => Sys2Proof.Machine.execGuardComplementWrite iface a v s
  | .guardTimeout iface => Sys2Proof.Machine.execGuardTimeout iface s
  | .parityScrub bad => Sys2Proof.Machine.execParityScrub bad s
  | .keeperRestoreOwned block => Sys2Proof.Machine.execKeeperRestoreOwned block s
  | .indDataRead iface block => Sys2Proof.Machine.execIndDataRead iface block s
  | .indDataWrite iface block v => Sys2Proof.Machine.execIndDataWrite iface block v s
  | .tmNowNsRead iface => Sys2Proof.Machine.execTmNowNsRead iface s
  | .counterLowRead iface block n => Sys2Proof.Machine.execCounterLowRead iface block n s
  | .counterClear iface block n => Sys2Proof.Machine.execCounterClear iface block n s
  | .counterWrap block n => Sys2Proof.Machine.execCounterWrap block n s
  | .mdioAddress prtad devad a => Sys2Proof.Machine.execMdioAddress prtad devad a s
  | .mdioWrite prtad devad v => Sys2Proof.Machine.execMdioWrite prtad devad v s
  | .mdioRead prtad devad => Sys2Proof.Machine.execMdioRead prtad devad s
  | .mdioReadInc prtad devad => Sys2Proof.Machine.execMdioReadInc prtad devad s
  | .monRead a => Sys2Proof.Machine.execMonRead a s
  | .monWrite a v => Sys2Proof.Machine.execMonWrite a v s
  | .monInvoke c words => Sys2Proof.Machine.execMonInvoke c words s
  | .monInvokeResponse c => Sys2Proof.Machine.execMonInvokeResponse c s
  | .monTrace on => Sys2Proof.Machine.execMonTrace on s
  | .monCounters block => Sys2Proof.Machine.execMonCounters block s
  | .monBaud code => Sys2Proof.Machine.execMonBaud code s
  | .tsyncEdge tenths => Sys2Proof.Machine.execTsyncEdge tenths s
  | .windowStart e => Sys2Proof.Machine.execWindowStart e s
  | .windowStop e failing => Sys2Proof.Machine.execWindowStop e failing s
  | .commitAct e => Sys2Proof.Machine.execCommitAct e s
  | .hostEventInstant e => Sys2Proof.Machine.execHostEventInstant e s
  | .tmarkPulseInstant e => Sys2Proof.Machine.execTmarkPulseInstant e s
  | .pcSelNow iface => Sys2Proof.Machine.execPcSelNow iface s
  | .pcSeedWrite iface w v => Sys2Proof.Machine.execPcSeedWrite iface w v s
  | .timeReqTimer p => Sys2Proof.Machine.execTimeReqTimer p s
  | .timeReq p h s2 t4 => Sys2Proof.Machine.execTimeReq p h s2 t4 s
  | .timeSync p h cell t2 t3 => Sys2Proof.Machine.execTimeSync p h cell t2 t3 s
  | .xferNoSource p => Sys2Proof.Machine.execXferNoSource p s
  | .lnModeWrite iface p w v => Sys2Proof.Machine.execLnModeWrite iface p w v s
  | .lnPolicyWrite iface p w v => Sys2Proof.Machine.execLnPolicyWrite iface p w v s
  | .tpCtrlWrite iface p w v => Sys2Proof.Machine.execTpCtrlWrite iface p w v s
  | .lnTxWrite iface p reg w v => Sys2Proof.Machine.execLnTxWrite iface p reg w v s
  | .lnTxTestWrite iface p v => Sys2Proof.Machine.execLnTxTestWrite iface p v s
  | .lnRxWrite iface p reg w v => Sys2Proof.Machine.execLnRxWrite iface p reg w v s
  | .rhXtWrite iface rch reg w v => Sys2Proof.Machine.execRhXtWrite iface rch reg w v s
  | .lnBlkCtrlWrite iface p w v => Sys2Proof.Machine.execLnBlkCtrlWrite iface p w v s
  | .lnQuietWrite iface p reg w v => Sys2Proof.Machine.execLnQuietWrite iface p reg w v s
  | .lnQuietWake iface p => Sys2Proof.Machine.execLnQuietWake iface p s
  | .basinRegWrite iface reg w v => Sys2Proof.Machine.execBasinRegWrite iface reg w v s
  | .plRebal iface => Sys2Proof.Machine.execPlRebal iface s
  | .hlRegWrite iface n reg w v => Sys2Proof.Machine.execHlRegWrite iface n reg w v s
  | .tmRegWrite iface reg w v => Sys2Proof.Machine.execTmRegWrite iface reg w v s
  | .calRegWrite iface reg w v => Sys2Proof.Machine.execCalRegWrite iface reg w v s
  | .calOvrWrite iface v => Sys2Proof.Machine.execCalOvrWrite iface v s
  | .dgRegWrite iface p reg w v => Sys2Proof.Machine.execDgRegWrite iface p reg w v s
  | .stLoopbackStart iface mask => Sys2Proof.Machine.execStLoopbackStart iface mask s
  | .stLbistStart iface zeroOk => Sys2Proof.Machine.execStLbistStart iface zeroOk s
  | .ksZeroise iface zeroOk => Sys2Proof.Machine.execKsZeroise iface zeroOk s
  | .zeroiseRetry zeroOk => Sys2Proof.Machine.execZeroiseRetry zeroOk s
  | .clause98Resolved p r => Sys2Proof.Machine.execClause98Resolved p r s
  | .anPageTimeout p => Sys2Proof.Machine.execAnPageTimeout p s
  | .stdTrainingDone p => Sys2Proof.Machine.execStdTrainingDone p s
  | .stdLinkFail p => Sys2Proof.Machine.execStdLinkFail p s
  | .beaconListenEnd p => Sys2Proof.Machine.execBeaconListenEnd p s
  | .beaconAnswer p => Sys2Proof.Machine.execBeaconAnswer p s
  | .cap p cell mac sf => Sys2Proof.Machine.execCap p cell mac sf s
  | .discoverTimeout p => Sys2Proof.Machine.execDiscoverTimeout p s
  | .soundingBurst p snd snrDb10 => Sys2Proof.Machine.execSoundingBurst p snd snrDb10 s
  | .mode p h cell => Sys2Proof.Machine.execMode p h cell s
  | .soundTimeout p => Sys2Proof.Machine.execSoundTimeout p s
  | .echoLearnPhaseEnd p => Sys2Proof.Machine.execEchoLearnPhaseEnd p s
  | .fullDuplexEnd p => Sys2Proof.Machine.execFullDuplexEnd p s
  | .go p h cell => Sys2Proof.Machine.execGo p h cell s
  | .goCountReached p => Sys2Proof.Machine.execGoCountReached p s
  | .trainingTimeout p => Sys2Proof.Machine.execTrainingTimeout p s
  | .holdEnd p => Sys2Proof.Machine.execHoldEnd p s
  | .towpathLoss p => Sys2Proof.Machine.execTowpathLoss p s
  | .ladderUpdate p m => Sys2Proof.Machine.execLadderUpdate p m s
  | .shift p h cell => Sys2Proof.Machine.execShift p h cell s
  | .shiftReq p h cell => Sys2Proof.Machine.execShiftReq p h cell s
  | .shiftRetrainEnd p => Sys2Proof.Machine.execShiftRetrainEnd p s
  | .shiftNotConverged p => Sys2Proof.Machine.execShiftNotConverged p s
  | .upBarExpiry p m => Sys2Proof.Machine.execUpBarExpiry p m s
  | .cack p h counter type => Sys2Proof.Machine.execCack p h counter type s
  | .cellResendTimeout p counter => Sys2Proof.Machine.execCellResendTimeout p counter s
  | .macFail p type => Sys2Proof.Machine.execMacFail p type s
  | .tpsf p h cell => Sys2Proof.Machine.execTpsf p h cell s
  | .sfChange p => Sys2Proof.Machine.execSfChange p s
  | .tpsfRenew p => Sys2Proof.Machine.execTpsfRenew p s
  | .nonceRefreshStart p => Sys2Proof.Machine.execNonceRefreshStart p s
  | .nonce p h fresh => Sys2Proof.Machine.execNonce p h fresh s
  | .nonceOldDrop p => Sys2Proof.Machine.execNonceOldDrop p s
  | .idle p => Sys2Proof.Machine.execIdle p s
  | .unknownCell p type => Sys2Proof.Machine.execUnknownCell p type s
  | .block p seg bytes => Sys2Proof.Machine.execBlock p seg bytes s
  | .streamStop p h cell => Sys2Proof.Machine.execStreamStop p h cell s
  | .streamStart p h cell => Sys2Proof.Machine.execStreamStart p h cell s
  | .ping p h cell => Sys2Proof.Machine.execPing p h cell s
  | .remoteApplication p h cell => Sys2Proof.Machine.execRemoteApplication p h cell s
  | .remoteUnknownOp p h cell => Sys2Proof.Machine.execRemoteUnknownOp p h cell s
  | .remoteAnswer p h cell => Sys2Proof.Machine.execRemoteAnswer p h cell s
  | .quietEnterSend p cell => Sys2Proof.Machine.execQuietEnterSend p cell s
  | .quietEnter p h cell => Sys2Proof.Machine.execQuietEnter p h cell s
  | .quietEntryPoint p => Sys2Proof.Machine.execQuietEntryPoint p s
  | .quietExit p h cell => Sys2Proof.Machine.execQuietExit p h cell s
  | .quietAbort p h => Sys2Proof.Machine.execQuietAbort p h s
  | .quietExitPoint p => Sys2Proof.Machine.execQuietExitPoint p s
  | .deepQuietEarlyWake p => Sys2Proof.Machine.execDeepQuietEarlyWake p s
  | .deepQuietEnd p => Sys2Proof.Machine.execDeepQuietEnd p s
  | .deepQuietMarkerTimeout p => Sys2Proof.Machine.execDeepQuietMarkerTimeout p s
  | .lpiIdleTimeout p => Sys2Proof.Machine.execLpiIdleTimeout p s
  | .soundingRefresh p snd => Sys2Proof.Machine.execSoundingRefresh p snd s
  | .agcStep p peakPercent => Sys2Proof.Machine.execAgcStep p peakPercent s
  | .floatClusterCheck p => Sys2Proof.Machine.execFloatClusterCheck p s
  | .xtAllocation rch couplings => Sys2Proof.Machine.execXtAllocation rch couplings s
  | .dmtSnrUpdate p symbols => Sys2Proof.Machine.execDmtSnrUpdate p symbols s
  | .tableMessage p msg => Sys2Proof.Machine.execTableMessage p msg s
  | .dmtTableRepeat p => Sys2Proof.Machine.execDmtTableRepeat p s
  | .bitswapSwitch p sending points => Sys2Proof.Machine.execBitswapSwitch p sending points s
  | .blockSend p => Sys2Proof.Machine.execBlockSend p s
  | .data p blk => Sys2Proof.Machine.execData p blk s
  | .fill p blk => Sys2Proof.Machine.execFill p blk s
  | .sync p blk => Sys2Proof.Machine.execSync p blk s
  | .blockOtherType p blk => Sys2Proof.Machine.execBlockOtherType p blk s
  | .blockFailed p => Sys2Proof.Machine.execBlockFailed p s
  | .nackRepeat p => Sys2Proof.Machine.execNackRepeat p s
  | .blockResendTimeout p seq => Sys2Proof.Machine.execBlockResendTimeout p seq s
  | .syncTimeout p => Sys2Proof.Machine.execSyncTimeout p s
  | .hostFrameSent n => Sys2Proof.Machine.execHostFrameSent n s
  | .outboundFrame n tagged fcsOk tag frame => Sys2Proof.Machine.execOutboundFrame n tagged fcsOk tag frame s
  | .receipt n entries => Sys2Proof.Machine.execReceipt n entries s
  | .controlFrameInvalid n => Sys2Proof.Machine.execControlFrameInvalid n s
  | .receiptTimeout q => Sys2Proof.Machine.execReceiptTimeout q s
  | .releaseRepeat q => Sys2Proof.Machine.execReleaseRepeat q s
  | .pauseFrame n quanta => Sys2Proof.Machine.execPauseFrame n quanta s
  | .pauseExpiry n => Sys2Proof.Machine.execPauseExpiry n s
  | .pauseStuck n => Sys2Proof.Machine.execPauseStuck n s
  | .laneUp n => Sys2Proof.Machine.execLaneUp n s
  | .laneStartRetry n => Sys2Proof.Machine.execLaneStartRetry n s
  | .laneLoss n cause => Sys2Proof.Machine.execLaneLoss n cause s
  | .moveLaneStart q => Sys2Proof.Machine.execMoveLaneStart q s
  | .basinScrub bank corrected uncorrectable hit => Sys2Proof.Machine.execBasinScrub bank corrected uncorrectable hit s
  | .bankCopyDone bank => Sys2Proof.Machine.execBankCopyDone bank s
  | .cellMigrationDone bank => Sys2Proof.Machine.execCellMigrationDone bank s
  | .tempSample readings => Sys2Proof.Machine.execTempSample readings s
  | .calSliceDone p m => Sys2Proof.Machine.execCalSliceDone p m s
  | .calPortRunDone p m => Sys2Proof.Machine.execCalPortRunDone p m s
  | .calRetry p => Sys2Proof.Machine.execCalRetry p s
  | .calMaxWait p => Sys2Proof.Machine.execCalMaxWait p s
  | .tdrStart iface p => Sys2Proof.Machine.execTdrStart iface p s
  | .tdrListenEnd p powerHeard => Sys2Proof.Machine.execTdrListenEnd p powerHeard s
  | .tdrComplete p peaks wide narrow => Sys2Proof.Machine.execTdrComplete p peaks wide narrow s
  | .watchEvaluation p soundingSeen f => Sys2Proof.Machine.execWatchEvaluation p soundingSeen f s
  | .watchCapture iface p => Sys2Proof.Machine.execWatchCapture iface p s
  | .watchClearRef iface p => Sys2Proof.Machine.execWatchClearRef iface p s
  | .watchAutoCapture p => Sys2Proof.Machine.execWatchAutoCapture p s
  | .watchCaptureDone p mean => Sys2Proof.Machine.execWatchCaptureDone p mean s
  | .marchDone failWord => Sys2Proof.Machine.execMarchDone failWord s
  | .portTestInterval p failing => Sys2Proof.Machine.execPortTestInterval p failing s
  | .loopbackDone p errors => Sys2Proof.Machine.execLoopbackDone p errors s
  | .lbistDone passed => Sys2Proof.Machine.execLbistDone passed s
  | .journalCommitDone ok => Sys2Proof.Machine.execJournalCommitDone ok s
  | .towpathCellSlot p => Sys2Proof.Machine.execTowpathCellSlot p s
  | .pilot p u v predicted => Sys2Proof.Machine.execPilot p u v predicted s
  | .cellCrcFail p inSlot => Sys2Proof.Machine.execCellCrcFail p inSlot s
  | .startMarkerReceived p => Sys2Proof.Machine.execStartMarkerReceived p s
  | .symbolSlip p forward => Sys2Proof.Machine.execSymbolSlip p forward s
  | .soundingBurstMissing p => Sys2Proof.Machine.execSoundingBurstMissing p s
  | .stdFrameReceived p tag fcsOk frame => Sys2Proof.Machine.execStdFrameReceived p tag fcsOk frame s
  | .stdFrameSent p => Sys2Proof.Machine.execStdFrameSent p s
  | .partnerLpi p kind => Sys2Proof.Machine.execPartnerLpi p kind s
  | .engineSliceRetry failing => Sys2Proof.Machine.execEngineSliceRetry failing s
  | .boundaryScan trstN tms tdi => Sys2Proof.Machine.execBoundaryScan trstN tms tdi s
  | .suppliesGood => Sys2Proof.Machine.execSuppliesGood s
  | .resetNFall => Sys2Proof.Machine.execResetNFall s
  | .sscChangeApply => Sys2Proof.Machine.execSscChangeApply s
  | .basinInitDone => Sys2Proof.Machine.execBasinInitDone s
  | .pfailNFall => Sys2Proof.Machine.execPfailNFall s
  | .pfailNRise => Sys2Proof.Machine.execPfailNRise s
  | .pfailRelease => Sys2Proof.Machine.execPfailRelease s
  | .testEnFall => Sys2Proof.Machine.execTestEnFall s
  | .domainSequencerTurn => Sys2Proof.Machine.execDomainSequencerTurn s
  | .keeperWatchdogExpiry => Sys2Proof.Machine.execKeeperWatchdogExpiry s
  | .lockstepMismatch => Sys2Proof.Machine.execLockstepMismatch s
  | .keeperSramUncorrectable => Sys2Proof.Machine.execKeeperSramUncorrectable s
  | .keeperRestartDone => Sys2Proof.Machine.execKeeperRestartDone s
  | .fwActivateReset => Sys2Proof.Machine.execFwActivateReset s
  | .mdioLatchTimeout => Sys2Proof.Machine.execMdioLatchTimeout s
  | .monBadLine => Sys2Proof.Machine.execMonBadLine s
  | .timeTick => Sys2Proof.Machine.execTimeTick s
  | .slewDone => Sys2Proof.Machine.execSlewDone s
  | .tmarkRise => Sys2Proof.Machine.execTmarkRise s
  | .tmarkFall => Sys2Proof.Machine.execTmarkFall s
  | .snapshotTake => Sys2Proof.Machine.execSnapshotTake s
  | .snapshotCopyDone => Sys2Proof.Machine.execSnapshotCopyDone s
  | .rebalanceCheck => Sys2Proof.Machine.execRebalanceCheck s
  | .thermalDownshiftStep => Sys2Proof.Machine.execThermalDownshiftStep s
  | .marchInterval => Sys2Proof.Machine.execMarchInterval s
  | .journalAutoCommit => Sys2Proof.Machine.execJournalAutoCommit s
  | .safeStateComplete => Sys2Proof.Machine.execSafeStateComplete s

end Sys2Proof.Machine
end

