-- ==== Sys2Proof/Safety.lean ====
section
/-! DEFINITION. What counts as a safe state and a safe run, in the terms the statements use: a command that completes, the
states in which a mailbox serves, in which nothing holds a port back, and the invariants of the part's tables. -/

namespace Sys2Proof.Machine

/-- Command `c` run on `s` answers a next state of which `P` holds. -/
def Does (c : Instr) (s : State) (P : State → Prop) : Prop := ∃ t, exec c s = .next t ∧ P t

/-- What no command of the part may change: the queue, the die and its OTP (R6, R435). -/
structure Root where
  pending : List Instr
  die : DieId
  otp : Otp

/-- What only the register interfaces, the boundary scan and resets change: the stored registers (R350, R352) with the keeper's
own window address (R367), the interface records of SPI and the monitor, the guard and error counts (R357), the monitor
and the boundary scan. -/
structure Frame where
  root : Root
  regs : List (Nat × Word)
  keeperInd : List (Nat × Word)
  spi : IfaceRec
  mon : IfaceRec
  gdAbort : Nat
  gdMismatch : Nat
  gdBare : Nat
  crcErr : Nat
  frameErr : Nat
  monitor : MonitorRec
  tap : TapRec

/-- The frame of a state. -/
def State.frame (s : State) : Frame :=
  ⟨⟨s.pending, s.die, s.otp⟩, s.regs, s.keeperInd, s.spi, s.mon, s.gdAbort, s.gdMismatch, s.gdBare, s.crcErr, s.frameErr, s.monitor, s.tap⟩

/-- What only the supervisor, the clock units, the key store and the scrubber change: supervisor and clocks (R42 to R56), the
keys (R417), the registers with bad parity (R359). -/
structure Held where
  sup : Supervisor
  clk : Clocks
  keys : KeyStore
  parity : List Nat

/-- That part of a state. -/
def State.held (s : State) : Held := ⟨s.sup, s.clk, s.keys, s.parity⟩

/-- The stored registers are in canonical form: keys strictly rising, no entry equal to its reset value. -/
def Frame.canon (f : Frame) : Prop := keysRise f.regs ∧ ∀ e ∈ f.regs, e.2 ≠ rstWord f.root.otp e.1

/-- A step goes on: it answers a next state. -/
def runsOn (s : State) : Prop := ∃ t, step s = .next t

/-- No port domain and nothing that one depends on is forced off (R58, R61, R431). -/
def State.unforced (s : State) : Prop := ∀ d < 144, s.gone d = false

/-- A port that no calibration run and no forced-off domain holds back. -/
def State.freePort (s : State) (p : Fin 16) : Prop := s.unforced ∧ (s.port p).cal.running = false

/-- Firmware serves and a channel takes a doorbell (R381, R382): no parity fault in its block, not busy, and no channel
waits for a long-running command (R383). -/
def State.serves (s : State) (c : Fin 16) : Prop :=
  s.sup.stage = .released ∧ s.keeper.mode = .running ∧ c.val ≠ 15 ∧ (s.chan c).busy = false
    ∧ s.safeBlock (mboxBlock c.val) = false ∧ ∀ d : Fin 16, (s.chan d).work = none

/-- A request whose LEN counts cells that it carries whole (R380). -/
def fullRequest (r : Request) : Prop := 1 ≤ r.len.toNat ∧ r.len.toNat ≤ 16 ∧ r.args.length = 4 * (r.len.toNat - 1)

/-- Argument word n of a request; words beyond LEN read 0. -/
def argWord (r : Request) (n : Nat) : Word := r.args.getD n 0

/-- A channel holds the answer to a request (R380, R382, R385): its CODE and TAG echoed, a status, DONE and not BUSY. -/
def State.answered (t : State) (c : Fin 16) (code : Nat) (r : Request) (status : Nat) : Prop :=
  (t.chan c).busy = false ∧ (t.chan c).done = true ∧ fld ((t.chan c).resp.get 0) 0 8 = code
    ∧ fld ((t.chan c).resp.get 0) 16 16 = r.tag.toNat ∧ fld ((t.chan c).resp.get 1) 0 16 = status

/-- Result word n of a channel's answer (R380, R386): B0 is n = 0. -/
def State.result (t : State) (c : Fin 16) (n : Nat) : Word := (t.chan c).resp.toList.getD (4 + n) 0

/-- An interface that takes a plain transaction at a block: alive, its guard idle, the block open to it (R55, R56, R366). -/
def State.opens (s : State) (i : Iface) (b : Nat) : Prop :=
  s.deaf i = false ∧ (s.iface i).guard = .idle ∧ (i = .keeper ∨ s.closedTo b = false)

/-- The ring's last record is an event of a code, block and unit with its first argument (R391). -/
def State.told (t : State) (code block unit : Nat) (e0 : Word) : Prop :=
  ∃ e, t.ring.untaken.getLast? = some e ∧ e.code = BitVec.ofNat 16 code ∧ e.block = BitVec.ofNat 7 block
    ∧ e.unit = BitVec.ofNat 8 unit ∧ e.e0 = e0

/-- The ring has room (R391). -/
def State.ringRoom (s : State) : Prop := s.ring.untaken.length < 256

/-- The commands that may write what a frame holds: accesses through a register interface, a commit window's writes, the keeper's
restoring writes, the monitor, the boundary scan, resets, what halts start-up or completes it after a REFCLK loss, and the four
port commands that write LN_POLICY or LN_MODE. -/
def writesFrame : Instr → Bool
  | .resetNRise .. | .refclkWindowEnd .. | .suppliesGood | .pfailNFall | .pfailNRise | .testEnFall
  | .supplyMonitorTrip .. | .pllLockWindowEnd .. | .pllLockTimeout .. | .ckCtrlWrite .. | .testEnRise .. | .pdForceOffWrite ..
  | .ckResetSoft .. | .ckResetKeeper .. | .ckResetPort .. | .ckResetLane .. | .mbTake .. | .unknownCmd ..
  | .spiTransactionError .. | .registerWrite .. | .gdKeyWrite .. | .guardedValueWrite .. | .guardComplementWrite .. | .guardTimeout ..
  | .keeperRestoreOwned .. | .indDataRead .. | .indDataWrite .. | .tmNowNsRead .. | .counterLowRead .. | .counterClear ..
  | .mdioWrite .. | .monRead .. | .monWrite .. | .monInvoke .. | .monInvokeResponse .. | .monTrace ..
  | .monCounters .. | .monBaud .. | .commitAct .. | .pcSelNow .. | .pcSeedWrite .. | .lnModeWrite ..
  | .lnPolicyWrite .. | .tpCtrlWrite .. | .lnTxWrite .. | .lnTxTestWrite .. | .lnRxWrite .. | .rhXtWrite ..
  | .lnBlkCtrlWrite .. | .lnQuietWrite .. | .lnQuietWake .. | .basinRegWrite .. | .plRebal .. | .hlRegWrite ..
  | .tmRegWrite .. | .calRegWrite .. | .calOvrWrite .. | .dgRegWrite .. | .stLoopbackStart .. | .stLbistStart ..
  | .ksZeroise .. | .zeroiseRetry .. | .tdrStart .. | .watchCapture .. | .watchClearRef .. | .lbistDone ..
  | .boundaryScan .. | .resetNFall | .fwActivateReset | .monBadLine | .portSetPolicy .. | .portEnable ..
  | .portDisable .. | .portForceMode .. => true
  | _ => false

/-- The commands that may change the supervisor, the clocks, the key store or the record of bad parity: supplies, pins, clocks and
PLLs, start-up, resets, the register accesses that can reset, zeroise or repair, key commands, self-test and HELLO. -/
def writesHeld : Instr → Bool
  | .supplyMonitorTrip .. | .resetNRise .. | .refclkWindowEnd .. | .pllLockWindowEnd .. | .pllNoFeedback .. | .pllHoldoverEntry ..
  | .pllLockTimeout .. | .forcedSwitch .. | .clockMuxBothAbsent .. | .watchOscCheck .. | .ckCtrlWrite .. | .firmwareStart ..
  | .testEnRise .. | .pdForceOffWrite .. | .ckResetSoft .. | .ckResetKeeper .. | .ckResetPort .. | .ckResetLane ..
  | .mbTake .. | .unknownCmd .. | .registerWrite .. | .gdKeyWrite .. | .guardedValueWrite .. | .guardComplementWrite ..
  | .parityScrub .. | .keeperRestoreOwned .. | .indDataWrite .. | .counterClear .. | .mdioWrite .. | .monWrite ..
  | .monInvoke .. | .commitAct .. | .pcSelNow .. | .pcSeedWrite .. | .lnModeWrite .. | .lnPolicyWrite ..
  | .tpCtrlWrite .. | .lnTxWrite .. | .lnTxTestWrite .. | .lnRxWrite .. | .rhXtWrite .. | .lnBlkCtrlWrite ..
  | .lnQuietWrite .. | .lnQuietWake .. | .basinRegWrite .. | .plRebal .. | .hlRegWrite .. | .tmRegWrite ..
  | .calRegWrite .. | .calOvrWrite .. | .dgRegWrite .. | .stLoopbackStart .. | .stLbistStart .. | .ksZeroise ..
  | .zeroiseRetry .. | .tdrStart .. | .watchCapture .. | .watchClearRef .. | .lbistDone .. | .suppliesGood
  | .resetNFall | .sscChangeApply | .basinInitDone | .pfailNFall | .pfailNRise | .pfailRelease
  | .testEnFall | .keeperRestartDone | .fwActivateReset | .safeStateComplete | .hello .. | .portSetPolicy ..
  | .portEnable .. | .portDisable .. | .portForceMode .. | .keyLoad .. | .keyErase .. | .bistRunMarch ..
  | .bistRunPortTest .. | .bistRunLoopback .. | .bistRunLbist .. | .fwActivate .. => true
  | _ => false

/-- A power domain that is usable, switching on or requested (R57, R60). -/
def State.asked (s : State) (d : Nat) : Bool := s.dom.on.getLsbD d || s.dom.switching.getLsbD d || s.dom.pending.getLsbD d

/-- R58 and R61: nothing is on, switching or requested that is forced off or that lacks a domain it depends on. -/
def State.powered (s : State) : Prop := ∀ d < 256, s.asked d = true → s.forcedOff d = false ∧ ∀ e ∈ domainDeps d, s.asked e = true

/-- The domains are in line with what the state asks for (R58, R60). -/
def State.inLine (s : State) : Prop := s.syncDomains.dom = s.dom

/-- Where start-up goes when the last hold of hard reset ends (R16, R34, R55): halted while PFAIL_N is low or TEST_EN high,
else to step 3 or 2. -/
def State.startStage (s : State) : Stage :=
  if s.sup.pfailN && !s.sup.testEn then (if s.sup.refclkOk then .locking else .qualifying) else .halted

/-- A part in hard reset, or whose start-up is halted, runs no PLL (R16, R42, R55). -/
def State.cold (s : State) : Prop :=
  s.sup.stage = .hardReset ∨ s.sup.stage = .halted → s.clk.core.mode = .off

/-- What a control-plane reset for a cause leaves (R373, R374, R426): the keeper restarting (a keeper that still loads from boot
ROM loads again), or held at the third within 10 s; every
busy channel answered RESTARTED; the basin, the calendar, the lanes, the registers and, unless it is held, the ring as they were. -/
def State.restarted (s : State) (cause : Nat) (t : State) : Prop :=
  t.keeper.mode = (if 2 ≤ (s.keeper.times.filter (fun x => decide (s.ticks < x + secTicks 10))).length then .held
      else if s.keeper.mode = .loading then .loading else .restarting)
    ∧ t.keeper.restarts = satAdd 0xFFFF s.keeper.restarts 1 ∧ t.keeper.cause = cause
    ∧ (∀ c, (s.chan c).busy = true → (t.chan c).busy = false ∧ (t.chan c).done = true ∧ fld ((t.chan c).resp.get 1) 0 16 = 3)
    ∧ t.basin = s.basin ∧ t.time.cal = s.time.cal ∧ t.lanes = s.lanes ∧ (∀ k, t.reg k = s.reg k)
    ∧ (t.keeper.mode = .restarting → t.ring = s.ring)

/-- A register that a plain transaction stores: not IND_DATA, IND_ADDR, GD_KEY, CK_RESET, a request cell or a doorbell. -/
def plainReg (b ix : Nat) : Prop :=
  ix ≠ 0xFF ∧ ix ≠ 0xFE ∧ ¬ (b = 0 ∧ (ix = 0x30 ∨ ix = 0x0B)) ∧ ¬ (b / 16 = 4 ∧ (ix < 0x40 ∨ ix = 0x80))

/-- A write left exactly one register changed: to the image that the write makes of what it held (R349, R350). -/
def State.wrote (s : State) (b ix : Nat) (guarded : Bool) (w : Way) (v : Word) (t : State) : Prop :=
  ∀ k, t.reg k = if k = regKey b ix then s.imageOf b ix guarded w v else s.reg k

/-- A storing rule that fits a field of width w with its reset value: limits in order, representable, and around the reset
value; reserved codes never a reset value (R454). -/
def Rule.fits (r : Rule) (w rst : Nat) : Bool :=
  match r with
  | .any => true
  | .clamp lo hi => decide (lo ≤ rst ∧ rst ≤ hi ∧ hi < 2 ^ w)
  | .clampS lo hi => decide (lo ≤ asInt w rst ∧ asInt w rst ≤ hi ∧ -((2 ^ (w - 1) : Nat) : Int) ≤ lo ∧ hi < ((2 ^ (w - 1) : Nat) : Int))
  | .only l => l.contains rst && l.all (fun n => decide (n < 2 ^ w))

/-- The state in which the keeper serves a request that a channel has accepted (R381, R382). -/
def State.rung (s : State) (c : Fin 16) (code : Nat) (r : Request) : State :=
  ((s.putRequest c code r).modChan c (fun ch => { ch with reject := 0, busy := true, done := false, work := none })).count (mboxBlock c.val) 0 1

/-- A request that a serving channel takes whole, of at least n argument words, with no journal commit writing (R381 to R383). -/
def State.takes (s : State) (c : Fin 16) (r : Request) (n : Nat) : Prop :=
  s.serves c ∧ s.journal.writing = none ∧ fullRequest r ∧ n ≤ r.args.length

/-- A command answered as complete (R380, R385): status 0x0000 and its result words. -/
def State.gives (t : State) (c : Fin 16) (code : Nat) (r : Request) (ws : List Word) : Prop :=
  t.answered c code r 0 ∧ ∀ k < ws.length, t.result c k = ws.getD k 0

/-- A command that waits on its channel (R383): BUSY, with what it waits for. -/
def State.waitsFor (t : State) (c : Fin 16) (w : LongCmd) : Prop := (t.chan c).busy = true ∧ (t.chan c).work = some w

/-- A channel that a waiting command held is answered (R382, R385): its request's CODE and TAG, a status and result words. -/
def State.ended (s t : State) (c : Fin 16) (status : Nat) (ws : List Word) : Prop := t.chan c = (s.chan c).answered status 0xFFFF ws

/-- A cell with the header fields h, its MAC verified, is heard on a port and acts: its counter is new (R107). -/
def State.actsOn (s : State) (p : Fin 16) (h : CellHdr) : Prop := (s.port p).hears = true ∧ (s.takeCell p h).1 = .acts

/-- What an acting cell of a TYPE makes ready to send: its CACK, then what its meaning adds (R104, R107). -/
def State.acked (s : State) (p : Fin 16) (h : CellHdr) (type : Byte) (more : List TxCell) (t : State) : Prop :=
  (t.port p).tow.ready = (s.port p).tow.ready ++ (⟨6, 0, cackPayload (s.takeCell p h).2.1 type⟩ :: more)

/-- A cell that its receiver declines (R107): recorded without a CACK; nothing else of the port's towpath and link record
changes. -/
def State.declines (s : State) (p : Fin 16) (h : CellHdr) (t : State) : Prop :=
  (t.port p).link = (s.port p).link
    ∧ (t.port p).tow = (((s.takeCell p h).2.2.modRecord p h (fun r => r.decline (s.takeCell p h).2.1)).port p).tow

/-- The ring has room for every record that one command about a port raises (R391). -/
def State.ringSpace (s : State) : Prop := s.ring.untaken.length < 240

/-- The ring holds an event of a code and unit with its first argument (R391). -/
def State.noted (t : State) (code unit : Nat) (e0 : Word) : Prop :=
  ∃ e ∈ t.ring.untaken, e.code = BitVec.ofNat 16 code ∧ e.unit = BitVec.ofNat 8 unit ∧ e.e0 = e0

/-- The clocks run and nothing holds the port back (R55, R62, R326). -/
def State.steady (s : State) (p : Fin 16) : Prop := s.clocked = true ∧ s.freePort p

/-- A port that went down into HOLD with a cause (R83, R110): no mode, the towpath off, HOLD of 1 s for cause 5 and of 10 ms to 20 ms
else, LINK_DOWN raised; every other port's link as it was. -/
def State.fellWith (s : State) (p : Fin 16) (cause : Nat) (t : State) : Prop :=
  (t.port p).link.state = .hold ∧ (t.port p).link.downCause = cause ∧ (t.port p).link.modeAct = none ∧ (t.port p).tow.profile = .off
    ∧ (t.port p).link.downs16 = satAdd 0xFFFF (s.port p).link.downs16 1
    ∧ (if cause = 5 then (t.port p).link.holdTime = 1000000 else 10000 ≤ (t.port p).link.holdTime ∧ (t.port p).link.holdTime ≤ 20000)
    ∧ (s.ringSpace → t.noted 0x0011 p.val (wd cause)) ∧ ∀ q ≠ p, (t.port q).link = (s.port q).link

/-- A port whose link came up in a mode (R83): MODE_ACT, LINK_UP raised; every other port's link as it was. -/
def State.cameUp (s : State) (p : Fin 16) (m : LineMode) (st : LinkState) (t : State) : Prop :=
  (t.port p).link.state = st ∧ (t.port p).link.modeAct = some m ∧ (t.port p).link.train = none ∧ (t.port p).link.upTick = some s.ticks
    ∧ (s.ringSpace → t.noted 0x0010 p.val (wd (modeCode m))) ∧ ∀ q ≠ p, (t.port q).link = (s.port q).link

/-- One occurrence of a block's specific event k is counted (R397, R398): every counter of the block that selects it and receives no
carries stands one higher. -/
def State.counts (s : State) (b k : Nat) (t : State) : Prop :=
  ∀ i < 8, fld (s.csel b i) 0 16 = 0x200 + k → s.receives b i = false → t.tally.counter b i = s.tally.counter b i + 1

/-- The part of a port that cells and blocks leave alone: its link record and its towpath as they were. -/
def State.still (s : State) (p : Fin 16) (t : State) : Prop := (t.port p).link = (s.port p).link ∧ (t.port p).tow = (s.port p).tow

/-- A shift that has begun at a port (R85): SHIFT, its target and the kind of its last SHIFT cell, whether it is acknowledged. -/
def State.shifts (p : Fin 16) (m : LineMode) (kind : Nat) (acked : Bool) (t : State) : Prop :=
  (t.port p).link.state = .shift ∧ (t.port p).link.train = some m
    ∧ ∃ sh, (t.port p).link.shift = some sh ∧ sh.target = m ∧ sh.kind = kind ∧ sh.acked = acked

/-- A port's ready cells after one more was made ready (R107). -/
def State.readied (s : State) (p : Fin 16) (c : TxCell) (t : State) : Prop := (t.port p).tow.ready = (s.port p).tow.ready ++ [c]

/-- The command codes of R386. -/
def knownCode (n : Nat) : Bool :=
  [0x01, 0x10, 0x11, 0x12, 0x13, 0x20, 0x21, 0x22, 0x23, 0x24, 0x30, 0x31, 0x32, 0x33, 0x34, 0x40, 0x41, 0x50, 0x51, 0x60, 0x61, 0x70, 0x71,
    0x80, 0x90, 0xA0, 0xF0, 0xF1].contains n

end Sys2Proof.Machine
end

