-- ==== Sys2Proof/Certificates/Slice0/Obligations.lean ====
section
/-! DEFINITION. The statements for the provers. -/

open Sys2Proof Sys2Proof.Machine

/-- O1, derived: For every command c and state s, step of s with c at the front of its queue is exec of c on s with the queue's
rest: the first command in is the first to run. (The queue is the model's own: a block takes commands one at a time.)
(spec/opcode_table.json, R346) -/
def Obligations.StepRunsFront : Prop :=
  ∀ (c : Instr) (s : State), step (s.withFront c) = exec c s ∧ ∀ rest, s.pending = c :: rest → step s = exec c { s with pending := rest }

/-- O2, derived: On an empty queue the step answers the state unchanged. This is the model's choice (notes/assumptions/4.md):
every event that the manual times is a command of its own. (spec/opcode_table.json) -/
def Obligations.IdleKeeps : Prop :=
  ∀ s : State, s.pending = [] → step s = .next s

/-- O3, derived: At State.reset the part stands in hard reset with SAFE_N low and REFCLK not qualified, every register reads the
reset value of the register map, every PLL and power domain is off, every port is DISABLED with no link mode, every host
lane is off, no queue or ticket exists, the event ring is empty with sequence 0, no mailbox channel is busy, the keeper is
off, no key is held, vehicle time is 0, and banks 64 to 67 are the spares. Readings of the model that it rests on:
notes/assumptions/2.md. (R51, R350, R55, R56, R57, R71, R226, R276, R381, R391, R417) -/
def Obligations.ResetValues : Prop :=
  State.reset.sup.stage = .hardReset ∧ State.reset.sup.safeN = false ∧ State.reset.sup.refclkOk = false
    ∧ (∀ key, State.reset.reg key = rstWord State.reset.otp key)
    ∧ (∀ k : Pll, (State.reset.clk.pll k).mode = .off) ∧ State.reset.dom = {}
    ∧ (∀ p : Fin 16, (State.reset.port p).link.state = .disabled ∧ (State.reset.port p).link.modeAct = none)
    ∧ (∀ n : Fin 8, (State.reset.lane n).state = .off)
    ∧ State.reset.basin.queues = [] ∧ State.reset.basin.tickets = []
    ∧ (∀ b : Fin 68, State.reset.bank b = if b.val < 64 then .inService b.val else .spare)
    ∧ State.reset.ring.untaken = [] ∧ State.reset.ring.nextSeq = 0
    ∧ (∀ c : Fin 16, (State.reset.chan c).busy = false ∧ (State.reset.chan c).done = false)
    ∧ State.reset.keeper.mode = .off ∧ State.reset.keys.keys = [] ∧ State.reset.time.now = 0 ∧ State.reset.pending = []

/-- O4, derived: No command of the part stops the model: for every command and every state exec answers a next state.
(spec/opcode_table.json, R346) -/
def Obligations.EveryCommandAnswers : Prop :=
  ∀ (c : Instr) (s : State), ∃ t, exec c s = .next t

/-- O5, derived: Whatever command runs, the queue of waiting commands, the die's own numbers and the one-time-programmable
contents are what they were. (R6, R51, R435) -/
def Obligations.RootKept : Prop :=
  ∀ (c : Instr) (s t : State), exec c s = .next t → t.frame.root = s.frame.root

/-- O6, derived: Every command but those that writesFrame lists (accesses through a register interface, a commit window's
writes, the keeper's restoring writes, the monitor, the boundary scan, the resets, what halts start-up or completes it after
a REFCLK loss, and the four port commands that write LN_POLICY or LN_MODE) leaves every stored register, the interface
records of SPI and the monitor, the guard and error counts, the monitor and the boundary-scan state as they were. (R349,
R350, R356, R51, R35) -/
def Obligations.FrameKept : Prop :=
  ∀ (c : Instr) (s t : State), writesFrame c = false → exec c s = .next t → t.frame = s.frame

/-- O7, derived: Every command but those that writesHeld lists leaves the supervisor, the PLLs and multiplexers, the key store
and the record of registers with bad parity as they were. (R51, R359, R417, R42, R45) -/
def Obligations.HeldKept : Prop :=
  ∀ (c : Instr) (s t : State), writesHeld c = false → exec c s = .next t → t.held = s.held

/-- O8, derived: The table of stored registers lists keys strictly rising and no register at its reset value. Every step from a
state with that form leads to a state with it, so equal register contents are equal data. (R350, R352, R51) -/
def Obligations.StepCanon : Prop :=
  ∀ s t : State, s.frame.canon → step s = .next t → t.frame.canon

/-- O9, derived: In every state that a step reaches from one with the same property, a power domain that is on, switching or
requested is not forced off and everything it depends on (R58) is on, switching or requested too; and the domains are in
line with what the state asks for. So a domain whose feeding domain goes off goes off in the same step. A part in hard
reset, or whose start-up is halted, keeps its core PLL off through every step. Readings of the model that it rests on:
notes/assumptions/58.md. (R58, R61, R60, R16, R42) -/
def Obligations.StepDomains : Prop :=
  (∀ s t : State, s.powered → s.inLine → step s = .next t → t.powered ∧ t.inLine)
  ∧ (∀ s t : State, s.cold → step s = .next t → t.cold)

/-- O10, derived: State.reset has its registers in canonical form, its power domains fed and in line, its core PLL off. (R51,
R58, R350) -/
def Obligations.ResetInvariants : Prop :=
  State.reset.frame.canon ∧ State.reset.powered ∧ State.reset.inLine ∧ State.reset.cold

/-- O11, derived: Storing a value in a register makes that register read it and leaves every other register as it was, whatever
the keys. (R349, R350) -/
def Obligations.RegisterTable : Prop :=
  ∀ (s : State) (key : Nat) (v : Word), (s.setReg key v).reg key = v ∧ ∀ k, k ≠ key → (s.setReg key v).reg k = s.reg k

/-- O12, derived: A rail trip puts the part into hard reset with SAFE_N low, marks the rail, clears every register and records
cause 2 with the tripped rails. RESET_N falling does so with cause 1. RESET_N rising samples both straps. When the last of
RESET_N, the supplies and TEST_EN lets go, start-up goes to locking or to qualifying, or halts while PFAIL_N is low or
TEST_EN high; a start-up that TEST_EN alone halts goes on when it falls. (In a part that runs no PLL in hard reset, which
every step keeps.) TEST_EN rising during hard reset only takes its level. TEST_EN rising zeroises the key store; when the
store verifies, the part is in hard reset with no key and cause 3; when it does not, a second attempt waits. Readings of the
model that it rests on: notes/assumptions/52.md, notes/assumptions/58.md. (R16, R32, R34, R42, R51, R55, R417) -/
def Obligations.SuppliesAndResetPins : Prop :=
  (∀ (s : State) (rail : Fin 8), Does (.supplyMonitorTrip rail) s (fun t => t.sup.stage = .hardReset ∧ t.sup.safeN = false
      ∧ t.sup.suppliesGood = false ∧ t.sup.tripped.getLsbD rail.val = true ∧ t.sup.cause = some (2, t.sup.tripped)
      ∧ t.regs = [] ∧ t.keys = {} ∧ t.basin = {} ∧ ∀ p, (t.port p).link = {}))
  ∧ (∀ s : State, Does .resetNFall s (fun t => t.sup.stage = .hardReset ∧ t.sup.safeN = false ∧ t.sup.resetN = false
      ∧ t.sup.cause = some (1, 0) ∧ t.sup.bootSel = s.sup.bootSel ∧ t.sup.mdioAddr = s.sup.mdioAddr
      ∧ t.regs = [] ∧ t.keys = {} ∧ t.basin = {} ∧ ∀ p, (t.port p).link = {}))
  ∧ (∀ (s : State) (b : BitVec 2) (a : BitVec 5), s.cold → s.sup.resetN = false → Does (.resetNRise b a) s (fun t => t.sup.resetN = true
      ∧ t.sup.bootSel = b ∧ t.sup.mdioAddr = a
      ∧ (s.sup.stage = .hardReset → s.sup.suppliesGood = true → s.sup.testHeld = false → t.sup.stage = s.startStage)
      ∧ (s.sup.stage ≠ .hardReset ∨ s.sup.suppliesGood = false ∨ s.sup.testHeld = true → t.sup.stage = s.sup.stage)))
  ∧ (∀ s : State, s.cold → Does .suppliesGood s (fun t => t.sup.suppliesGood = true ∧ t.sup.tripped = 0
      ∧ (s.sup.stage = .hardReset → s.sup.resetN = true → s.sup.testHeld = false → t.sup.stage = s.startStage)))
  ∧ (∀ s : State, s.cold → Does .testEnFall s (fun t => t.sup.testEn = false ∧ t.sup.testHeld = false
      ∧ (s.sup.stage = .hardReset → s.sup.resetN = true → s.sup.suppliesGood = true →
          t.sup.stage = ({ s with sup := { s.sup with testEn := false } }).startStage)
      ∧ (s.sup.stage = .halted → t.sup.stage = ({ s with sup := { s.sup with testEn := false } }).startStage)))
  ∧ (∀ s : State, s.sup.stage ≠ .hardReset → s.keys.zeroising = none →
      Does (.testEnRise true) s (fun t => t.sup.testEn = true ∧ t.sup.stage = .hardReset ∧ t.sup.safeN = false
        ∧ t.sup.cause = some (3, 0) ∧ t.keys.keys = [] ∧ t.keys.identity = false ∧ t.regs = [])
      ∧ Does (.testEnRise false) s (fun t => t.sup.testEn = true ∧ t.keys.keys = [] ∧ t.keys.identity = false
        ∧ t.keys.zeroising = some 2 ∧ t.sup.stage = s.sup.stage))
  ∧ (∀ (s : State) (ok : Bool), s.sup.stage = .hardReset → Does (.testEnRise ok) s (fun t => t.sup = { s.sup with testEn := true }))

/-- O13, derived: PFAIL_N falling while the part runs freezes it and takes every port that is in a link state down to HOLD with
cause 8; falling during start-up halts it with every PLL off and the ports in reset, but freezes a part that locks its PLLs
again after a REFCLK loss. PFAIL_N rising sends a halted start-up on from step 2 (in a part whose halted start-up runs no
PLL), unless TEST_EN is high. Ten good milliseconds release the freeze. (R16, R34, R428, R429) -/
def Obligations.PowerFail : Prop :=
  (∀ s : State, s.sup.resetN = true → s.sup.stage = .released → s.unforced → (∀ p, (s.port p).cal.running = false) → Does .pfailNFall s (fun t => t.sup.pfailN = false
      ∧ t.sup.pfailFrozen = true ∧ t.sup.stage = .released
      ∧ ∀ p, (s.port p).link.state ≠ .disabled → (s.port p).link.state ≠ .diag →
          (t.port p).link.state = .hold ∧ (t.port p).link.downCause = 8))
  ∧ (∀ s : State, s.sup.resetN = true → s.sup.stage = .qualifying ∨ s.sup.stage = .basinInit
        ∨ (s.sup.stage = .locking ∨ s.sup.stage = .coreFailed) ∧ s.sup.softAfterRef = false →
      Does .pfailNFall s (fun t => t.sup.pfailN = false ∧ t.sup.stage = .halted ∧ t.clk = {} ∧ t.sup.safeN = false
        ∧ ∀ p : Fin 16, (t.port p).link = {}))
  ∧ (∀ s : State, s.sup.resetN = true → s.sup.stage = .locking ∨ s.sup.stage = .coreFailed → s.sup.softAfterRef = true →
      Does .pfailNFall s (fun t => t.sup.pfailN = false ∧ t.sup.pfailFrozen = true ∧ t.sup.stage = s.sup.stage))
  ∧ (∀ s : State, s.cold → s.sup.stage = .halted → Does .pfailNRise s (fun t => t.sup.pfailN = true
      ∧ t.sup.stage = if s.sup.testEn then .halted else if s.sup.refclkOk then .locking else .qualifying))
  ∧ (∀ s : State, s.sup.pfailFrozen = true → s.sup.pfailN = true → s.sup.suppliesGood = true →
      Does .pfailRelease s (fun t => t.sup.pfailFrozen = false))

/-- O14, derived: A window of REFCLK counts is good from 2,100 to 3,000; the eighth good one in a row qualifies REFCLK, and
every PLL that is off and not forced off begins to lock while a locked one goes on; one bad window loses it, with the safe-
state sequence when the part runs, and with the PLLs that are not locked switched off during start-up. A PLL window is good
from 32,765 to 32,771; a PLL locks and its multiplexer moves to it on the second good window in a row, and leaves lock on
one bad window or a missing feedback edge; with no REFCLK edge it enters holdover; 2 ms without lock give up one that is
locking or in holdover, and a failed core PLL stops start-up. A forced switch takes the source given, the PLL only while it
is locked. An absent spine or host clock marks its domain failed, an absent core clock begins the safe state, whose end
drives SAFE_N low and switches every PLL in holdover off. The watch oscillator is good from 20 to 30 MHz. The spread follows
SSC_EN at the triangle top. Readings of the model that it rests on: notes/assumptions/11.md. (R41, R42, R43, R44, R45, R46,
R47, R49, R50, R56, R456) -/
def Obligations.ReferenceClock : Prop :=
  (∀ (s : State) (n : Nat), s.sup.stage ≠ .hardReset → (s.sup.stage = .halted → s.sup.testEn = false) → Does (.refclkWindowEnd n) s (fun t =>
      t.sup.lastCount = min 4095 n
      ∧ t.sup.goodRun = (if 2100 ≤ n ∧ n ≤ 3000 then min 8 (s.sup.goodRun + 1) else 0)
      ∧ t.sup.refclkOk = decide ((2100 ≤ n ∧ n ≤ 3000) ∧ (s.sup.refclkOk = true ∨ 7 ≤ s.sup.goodRun))
      ∧ (s.sup.stage = .qualifying → s.sup.refclkOk = false → 7 ≤ s.sup.goodRun → 2100 ≤ n → n ≤ 3000 → s.clk.core.mode ≠ .locked →
          t.sup.stage = .locking ∧ (∀ k : Pll, (s.clk.pll k).mode ≠ .off → t.clk.pll k = s.clk.pll k)
          ∧ (s.clk.core.mode = .off → t.clk.core.mode = .locking)
          ∧ (s.clk.host.mode = .off → t.clk.host.mode = if s.forcedOff 233 then .off else .locking)
          ∧ ∀ r : Fin 4, (s.clk.reach.get r).mode = .off → (t.clk.reach.get r).mode = if s.forcedOff (144 + 3 * r.val) then .off else .locking)
      ∧ (s.sup.stage = .released → s.sup.refclkOk = true → ¬ (2100 ≤ n ∧ n ≤ 3000) → t.sup.stage = .refclkLost ∧ t.sup.safeSeq = true)
      ∧ (s.sup.stage = .locking → s.sup.softAfterRef = false → s.sup.refclkOk = true → ¬ (2100 ≤ n ∧ n ≤ 3000) →
          t.sup.stage = .qualifying ∧ ∀ k : Pll, (t.clk.pll k).mode = if (s.clk.pll k).mode = .locked then .locked else .off)))
  ∧ (∀ (s : State) (k : Pll) (n : Nat), Does (.pllLockWindowEnd k n) s (fun t =>
      (32765 ≤ n → n ≤ 32771 → (s.clk.pll k).mode = .locking → (s.clk.pll k).good = 0 → (t.clk.pll k) = ⟨.locking, 1⟩)
      ∧ (32765 ≤ n → n ≤ 32771 → (s.clk.pll k).mode = .locking → (s.clk.pll k).good = 1 →
          (t.clk.pll k).mode = .locked ∧ (t.clk.mux (muxOf k)).onPll = true)
      ∧ (¬ (32765 ≤ n ∧ n ≤ 32771) → (s.clk.pll k).mode = .locking → (t.clk.pll k) = ⟨.locking, 0⟩)
      ∧ (¬ (32765 ≤ n ∧ n ≤ 32771) → (s.clk.pll k).mode = .locked →
          (t.clk.pll k) = ⟨.locking, 0⟩ ∧ (t.clk.mux (muxOf k)).onPll = false)))
  ∧ (∀ (s : State) (k : Pll), (s.clk.pll k).mode = .locked →
      Does (.pllNoFeedback k) s (fun t => (t.clk.pll k).mode = .locking ∧ (t.clk.mux (muxOf k)).onPll = false))
  ∧ (∀ (s : State) (k : Pll), (s.clk.pll k).mode ≠ .off →
      Does (.pllHoldoverEntry k) s (fun t => (t.clk.pll k).mode = .holdover ∧ t.clk.holdover = true))
  ∧ (∀ (s : State) (k : Pll), s.sup.stage = .locking → (s.clk.pll k).mode = .locking ∨ (s.clk.pll k).mode = .holdover → Does (.pllLockTimeout k) s (fun t =>
      (t.clk.pll k).mode = .off ∧ (k = .core → t.sup.stage = .coreFailed)))
  ∧ (∀ (s : State) (m : Mux) (toPll : Bool), Does (.forcedSwitch m toPll) s (fun t => (t.clk.mux m).onPll = (toPll && decide ((s.clk.pll (pllOf m)).mode = .locked))
      ∧ (m = .core → s.ringRoom → t.told 0x0003 0 0 0)))
  ∧ (∀ s : State, Does (.clockMuxBothAbsent .core) s (fun t => s.sup.stage = .released → t.sup.stage = .refclkLost ∧ t.sup.safeSeq = true)
      ∧ Does (.clockMuxBothAbsent .host) s (fun t => t.clk.muxHost.failed = true)
      ∧ ∀ r, Does (.clockMuxBothAbsent (.spine r)) s (fun t => (t.clk.mux (.spine r)).failed = true))
  ∧ (∀ s : State, s.sup.safeSeq = true → Does .safeStateComplete s (fun t => t.sup.safeSeq = false ∧ t.sup.safeN = false
      ∧ t.clk.holdover = false ∧ ∀ k : Pll, (t.clk.pll k).mode = if (s.clk.pll k).mode = .holdover then .off else (s.clk.pll k).mode))
  ∧ (∀ (s : State) (kHz : Nat), s.clk.core.mode = .locked → Does (.watchOscCheck kHz) s (fun t =>
      t.sup.watchOk = decide (20000 ≤ kHz ∧ kHz ≤ 30000)
      ∧ (s.sup.watchOk = true → ¬ (20000 ≤ kHz ∧ kHz ≤ 30000) → s.ringRoom → t.told 0x0004 0 0 0)))
  ∧ (∀ s : State, Does .sscChangeApply s (fun t => t.sup.sscOn = bit (s.act (regKey 0 0x0A)) 0))

/-- O15, derived: When the basin is initialised the part is released: BOOT_SEL 0b11 is board test, 0b10 waits in the boot ROM,
else the keeper loads an image; an OTP identity key is loaded. The boot ROM starts the valid slot with the higher VERSION,
slot A when they are equal, and SAFE_N is released; with no valid slot it waits with SAFE_N as it was. Readings of the model
that it rests on: notes/assumptions/48.md, notes/assumptions/49.md, notes/assumptions/58.md. (R20, R52, R55, R377, R378) -/
def Obligations.StartUp : Prop :=
  (∀ s : State, s.sup.stage = .basinInit → Does .basinInitDone s (fun t => t.sup.stage = .released
      ∧ t.keeper.mode = (if s.sup.bootSel = 3 then .boardTest else if s.sup.bootSel = 2 then .romWait else .loading)
      ∧ (s.otp.identity = true → s.keys.fault = false → t.keys.identity = true)))
  ∧ (∀ (s : State) (a b : ImageReport) (j : JournalReport), s.clocked = true → s.keeper.mode = .loading →
      Does (.firmwareStart a b j) s (fun t =>
        (s.imageOk a = true → s.imageOk b = true → t.keeper.mode = .running ∧ t.sup.safeN = true
          ∧ t.keeper.slot = (if a.version.toNat < b.version.toNat then 1 else 0)
          ∧ t.keeper.version = (if a.version.toNat < b.version.toNat then b.version else a.version))
        ∧ (s.imageOk a = true → s.imageOk b = false → t.keeper.mode = .running ∧ t.sup.safeN = true ∧ t.keeper.slot = 0 ∧ t.keeper.version = a.version)
        ∧ (s.imageOk a = false → s.imageOk b = true → t.keeper.mode = .running ∧ t.sup.safeN = true ∧ t.keeper.slot = 1 ∧ t.keeper.version = b.version)
        ∧ (s.imageOk a = false → s.imageOk b = false → t.keeper.mode = .romWait ∧ t.sup.safeN = s.sup.safeN)))

/-- O16, derived: The watchdog, a lockstep mismatch and an uncorrectable word of keeper SRAM each restart a keeper that is out
of reset (one that still loads from boot ROM loads again): every busy channel is answered RESTARTED and set DONE, the
restart is counted, and the basin with its queues, the calendar, the lanes and every register stay. The third restart within
10 s holds the keeper instead. When the firmware serves again KEEPER_RESTART reports the cause. Readings of the model that
it rests on: notes/assumptions/58.md. (R372, R373, R374, R426) -/
def Obligations.KeeperFaults : Prop :=
  (∀ s : State, s.clocked = true → s.keeper.out = true → Does .keeperWatchdogExpiry s (s.restarted 1)
      ∧ Does .lockstepMismatch s (s.restarted 2) ∧ Does .keeperSramUncorrectable s (s.restarted 3))
  ∧ (∀ s : State, s.clocked = true → s.keeper.mode = .restarting → Does .keeperRestartDone s (fun t =>
      t.keeper.mode = (if s.keeper.slot = 3 then .romWait else .running) ∧ t.keeper.lastCause = s.keeper.cause
      ∧ (s.ringRoom → t.told 0x0002 1 0 (wd s.keeper.cause))))

/-- O17, derived: A turn of the sequencer moves exactly the first eight requested domains, in number order, whose dependencies
are all on from requested to switching; every other domain keeps its place. A switching domain that completes its order is
on, a PLL's only once it has locked. (In a state whose domains are in line, which every step keeps.) Readings of the model
that it rests on: notes/assumptions/7.md, notes/assumptions/58.md. (R58, R59, R60) -/
def Obligations.PowerDomains : Prop :=
  (∀ s : State, s.inLine → Does .domainSequencerTurn s (fun t => t.dom.on = s.dom.on ∧ s.turnList.length ≤ 8
      ∧ (∀ d ∈ s.turnList, s.dom.pending.getLsbD d = true ∧ ∀ e ∈ domainDeps d, s.dom.on.getLsbD e = true)
      ∧ ∀ d < 256, t.dom.switching.getLsbD d = (s.dom.switching.getLsbD d || decide (d ∈ s.turnList))
          ∧ t.dom.pending.getLsbD d = (s.dom.pending.getLsbD d && !decide (d ∈ s.turnList))))
  ∧ (∀ (s : State) (d : Fin 245), s.inLine → s.dom.switching.getLsbD d.val = true → s.mayServe d.val = true → Does (.domainUsable d) s (fun t =>
      t.dom.on.getLsbD d.val = true ∧ t.dom.switching.getLsbD d.val = false ∧ t.dom.pending = s.dom.pending
      ∧ ∀ e < 256, e ≠ d.val → t.dom.on.getLsbD e = s.dom.on.getLsbD e ∧ t.dom.switching.getLsbD e = s.dom.switching.getLsbD e))
  ∧ (∀ (s : State) (d : Fin 245), s.inLine → s.mayServe d.val = false → Does (.domainUsable d) s (fun t => t.dom = s.dom))

/-- O18, derived: A plain, set, clear or toggle transaction at an open block with an idle guard leaves exactly the register
written changed. A request cell of a channel that is not busy takes a plain value, and one of a busy channel stays. An index
that is not in use, the complement window and a block that is still closed change no register, and the last two are counted.
(R348, R349, R350, R351, R382, R56) -/
def Obligations.RegisterWrite : Prop :=
  (∀ (s : State) (i : Iface) (a : Addr) (v : Word), s.opens i (decodeAddr a).block →
      ((decodeAddr a).comp = false → usedIndex (blockKind (decodeAddr a).block) (decodeAddr a).index = true →
        plainReg (decodeAddr a).block (decodeAddr a).index →
        Does (.registerWrite i a v) s (s.wrote (decodeAddr a).block (decodeAddr a).index false (decodeAddr a).way v))
      ∧ (usedIndex (blockKind (decodeAddr a).block) (decodeAddr a).index = false →
        Does (.registerWrite i a v) s (fun t => t.regs = s.regs ∧ t.gdBare = s.gdBare ∧ (t.iface i).noChange = true))
      ∧ (usedIndex (blockKind (decodeAddr a).block) (decodeAddr a).index = true → (decodeAddr a).comp = true →
        Does (.registerWrite i a v) s (fun t => t.regs = s.regs ∧ t.gdBare = satAdd 0xFF s.gdBare 1 ∧ (t.iface i).badGuard = true)))
  ∧ (∀ (s : State) (i : Iface) (a : Addr) (v : Word) (c : Fin 16) (k : Fin 64), s.opens i (mboxBlock c.val) →
      decodeAddr a = ⟨mboxBlock c.val, .plain, false, k.val⟩ →
      Does (.registerWrite i a v) s (fun t => t.regs = s.regs ∧ ∀ j : Fin 64, (t.chan c).req.get j =
        if (s.chan c).busy = false ∧ j = k then v else (s.chan c).req.get j))
  ∧ (∀ (s : State) (i : Iface) (a : Addr) (v : Word), i ≠ .keeper → s.deaf i = false → s.closedTo (decodeAddr a).block = true →
      Does (.registerWrite i a v) s (fun t => t.regs = s.regs ∧ t.frameErr = satAdd 0xFFFF s.frameErr 1 ∧ (t.iface i).badFrame = true))

/-- O19, derived: In every register of every block the writable fields lie within 32 bits and share none; a reset value fits its
field; a clamped field has its lower limit at or below its upper one, both representable, and its reset value within them; a
reserved code is never a reset value. (R63, R70, R138, R167, R454) -/
def Obligations.FieldTable : Prop :=
  ∀ key : Nat, (keyFields key).Pairwise (fun f g => f.lo + f.w ≤ g.lo ∨ g.lo + g.w ≤ f.lo)
    ∧ ∀ f ∈ keyFields key, 0 < f.w ∧ f.lo + f.w ≤ 32 ∧ f.rst < 2 ^ f.w
      ∧ f.rule.fits f.w f.rst = true

/-- O20, derived: In the image that a write makes, a field that the write reaches (an RW field always, a WG field in a guarded
write) holds what its rule stores of the value that the access way computes from its old value and the data: the value
itself, the nearest end of its range where it is clamped, its old value where the code is reserved. Every other field and
every bit outside the fields is as it was. Readings of the model that it rests on: notes/assumptions/58.md. (R350, R355,
R356, R454) -/
def Obligations.FieldWrites : Prop :=
  ∀ (key : Nat) (g : Bool) (w : Way) (old v : Word),
    (∀ f ∈ keyFields key, (f.acc = .rw ∨ (g = true ∧ f.acc = .wg)) →
      fld (writeFields (keyFields key) g w old v) f.lo f.w =
        (match f.rule with
         | .any => wayValue w f.w (fld old f.lo f.w) (fld v f.lo f.w)
         | .clamp lo hi => max lo (min hi (wayValue w f.w (fld old f.lo f.w) (fld v f.lo f.w)))
         | .clampS lo hi => ofInt f.w (max lo (min hi (asInt f.w (wayValue w f.w (fld old f.lo f.w) (fld v f.lo f.w)))))
         | .only l => if wayValue w f.w (fld old f.lo f.w) (fld v f.lo f.w) ∈ l then wayValue w f.w (fld old f.lo f.w) (fld v f.lo f.w) else fld old f.lo f.w))
    ∧ (∀ f ∈ keyFields key, ¬ (f.acc = .rw ∨ (g = true ∧ f.acc = .wg)) →
      fld (writeFields (keyFields key) g w old v) f.lo f.w = fld old f.lo f.w)
    ∧ ∀ j : Nat, (∀ f ∈ keyFields key, ¬ (f.lo ≤ j ∧ j < f.lo + f.w)) →
      (writeFields (keyFields key) g w old v).getLsbD j = old.getLsbD j

/-- O21, derived: Each command that writes one named register (of the clocks, a port, a reach, the basin, a host lane, time,
calibration or diagnostics) by a plain, set, clear or toggle transaction, at an open block with an idle guard, leaves that
register at the image the write makes and every other stored register as it was; a path register with AUTO at 1 keeps what
it stores. A write of PC_SEED loads what the register then holds into the LFSR, 0 as 1. Readings of the model that it rests
on: notes/assumptions/22.md, notes/assumptions/26.md, notes/assumptions/58.md, notes/assumptions/60.md. (R63, R70, R120,
R138, R167, R169, R253, R272, R297, R328, R341, R403) -/
def Obligations.BlockRegisterWrites : Prop :=
  ∀ (s : State) (i : Iface) (w : Way) (v : Word),
    (s.opens i 0 → Does (.ckCtrlWrite i w v) s (s.wrote 0 0x0A false w v))
    ∧ (∀ (p : Fin 16), s.opens i (portBlock p.val) → Does (.lnModeWrite i p w v) s (s.wrote (portBlock p.val) 0x01 false w v))
    ∧ (∀ (p : Fin 16), s.opens i (portBlock p.val) → Does (.lnPolicyWrite i p w v) s (s.wrote (portBlock p.val) 0x00 false w v))
    ∧ (∀ (p : Fin 16), s.opens i (portBlock p.val) → Does (.tpCtrlWrite i p w v) s (s.wrote (portBlock p.val) 0x20 false w v))
    ∧ (∀ (p : Fin 16) (reg : TxReg), s.opens i (portBlock p.val) → Does (.lnTxWrite i p reg w v) s (s.wrote (portBlock p.val) (txIx reg) false w v))
    ∧ (∀ (p : Fin 16) (reg : RxReg), s.opens i (portBlock p.val) → Does (.lnRxWrite i p reg w v) s (s.wrote (portBlock p.val) (rxIx reg) false w v))
    ∧ (∀ (r : Fin 4) (reg : XtReg), s.opens i (reachBlock r.val) → Does (.rhXtWrite i r reg w v) s (s.wrote (reachBlock r.val) (xtIx reg) false w v))
    ∧ (∀ (p : Fin 16), s.opens i (portBlock p.val) → Does (.lnBlkCtrlWrite i p w v) s (s.wrote (portBlock p.val) 0x50 false w v))
    ∧ (∀ (p : Fin 16) (reg : QuietReg), s.opens i (portBlock p.val) → Does (.lnQuietWrite i p reg w v) s (s.wrote (portBlock p.val) (quietIx reg) false w v))
    ∧ (∀ (reg : BasinReg), s.opens i 3 → Does (.basinRegWrite i reg w v) s (s.wrote 3 (basinIx reg) false w v))
    ∧ (∀ (n : Fin 8) (reg : HlReg), s.opens i (laneBlock n.val) → Does (.hlRegWrite i n reg w v) s (s.wrote (laneBlock n.val) (hlIx reg) false w v))
    ∧ (∀ (reg : TmReg), s.opens i 2 → Does (.tmRegWrite i reg w v) s (s.wrote 2 (tmIx reg) false w v))
    ∧ (∀ (reg : CalReg), s.opens i 6 → Does (.calRegWrite i reg w v) s (s.wrote 6 (calIx reg) false w v))
    ∧ (∀ (p : Fin 16) (reg : DgReg), s.opens i (portBlock p.val) → Does (.dgRegWrite i p reg w v) s (s.wrote (portBlock p.val) (dgIx reg) false w v))
    ∧ (s.opens i 4 → Does (.pcSeedWrite i w v) s (fun t => s.wrote 4 0x05 false w v t
        ∧ t.tally.lfsr = if t.reg (regKey 4 0x05) = 0 then 1 else t.reg (regKey 4 0x05)))

/-- O22, derived: The key arms an interface. The value written next to a register with a guarded field is held. The complement
of the held value makes the write act on every field and the guard idle (PD_FORCE_OFF while a REFCLK recovery goes on is in
GuardedRegisters); another value writes nothing and counts MISMATCH. A key at an armed guard counts ABORT and arms it
afresh. An open guard drops after 1 ms and at a transaction that SPI ignores, counted ABORT, and an ignored transaction
counts CRC_ERR or FRAME_ERR. Readings of the model that it rests on: notes/assumptions/19.md, notes/assumptions/58.md.
(R346, R347, R355, R356, R357, R358) -/
def Obligations.GuardProcedure : Prop :=
  (∀ (s : State) (i : Iface), s.deaf i = false →
      (s.opens i 0 → Does (.gdKeyWrite i) s (fun t => (t.iface i).guard = .armed ∧ t.regs = s.regs ∧ t.gdAbort = s.gdAbort))
      ∧ ((s.iface i).guard ≠ .idle → Does (.gdKeyWrite i) s (fun t => (t.iface i).guard = .armed ∧ t.regs = s.regs ∧ t.gdAbort = satAdd 0xFFFF s.gdAbort 1))
      ∧ ((s.iface i).guard ≠ .idle → Does (.guardTimeout i) s (fun t => (t.iface i).guard = .idle ∧ t.regs = s.regs ∧ t.gdAbort = satAdd 0xFFFF s.gdAbort 1)))
  ∧ (∀ (s : State) (i : Iface) (a : Addr) (v : Word) (b ix : Nat), s.deaf i = false → (i = .keeper ∨ s.closedTo b = false) →
      usedIndex (blockKind b) ix = true → hasGuarded (keyFields (regKey b ix)) = true →
      ((s.iface i).guard = .armed → decodeAddr a = ⟨b, .plain, false, ix⟩ →
        Does (.guardedValueWrite i a v) s (fun t => (t.iface i).guard = .holding (plainAddr b ix) v ∧ t.regs = s.regs))
      ∧ (∀ v0, (s.iface i).guard = .holding (plainAddr b ix) v0 → decodeAddr a = ⟨b, .plain, true, ix⟩ →
        (v = ~~~v0 → ¬ (b = 0 ∧ ix = 0x0B) → (b = 0 ∧ 0x10 ≤ ix ∧ ix ≤ 0x17 → s.sup.softAfterRef = false) → Does (.guardComplementWrite i a v) s (fun t => s.wrote b ix true .plain v0 t
          ∧ (i ≠ .keeper → (t.iface i).guard = .idle) ∧ t.gdMismatch = s.gdMismatch))
        ∧ (v ≠ ~~~v0 → Does (.guardComplementWrite i a v) s (fun t => t.regs = s.regs ∧ (t.iface i).guard = .idle ∧ t.gdMismatch = satAdd 0xFF s.gdMismatch 1))))
  ∧ (∀ (s : State) (e : SpiError), s.deaf .spi = false → Does (.spiTransactionError e) s (fun t => t.regs = s.regs ∧ t.spi.guard = .idle
      ∧ t.gdAbort = (if s.spi.guard = .idle then s.gdAbort else satAdd 0xFFFF s.gdAbort 1)
      ∧ t.crcErr = (if e = .badCrc then satAdd 0xFFFF s.crcErr 1 else s.crcErr)
      ∧ t.frameErr = (if e = .badCrc then s.frameErr else satAdd 0xFFFF s.frameErr 1)
      ∧ t.spi.badCrc = decide (e = .badCrc) ∧ t.spi.badFrame = decide (e ≠ .badCrc)))

/-- O23, derived: The commands that write PD_FORCE_OFF, LN_TX_TEST and CAL_OVR by the whole guard procedure, at an open block
with an idle guard, set every writable field of their register and leave every other register (a write of PD_FORCE_OFF that
lets the recovery from a REFCLK loss end in its soft reset leaves the other CK_ and PD_ registers). After a write of
PD_FORCE_OFF no forced-off domain is on, switching or requested. (R61, R63, R138, R328, R355, R356) -/
def Obligations.GuardedRegisters : Prop :=
  ∀ (s : State) (i : Iface) (v : Word),
    (∀ (n : Fin 8) (ok : Bool), s.opens i 0 → Does (.pdForceOffWrite i n v ok) s (fun t => (s.sup.softAfterRef = false → s.wrote 0 (0x10 + n.val) true .plain v t)
        ∧ (∀ k, keptKey k = true → t.reg k = if k = regKey 0 (0x10 + n.val) then s.imageOf 0 (0x10 + n.val) true .plain v else s.reg k)
        ∧ ∀ d < 256, t.forcedOff d = true → t.asked d = false))
    ∧ (∀ p : Fin 16, s.opens i (portBlock p.val) → Does (.lnTxTestWrite i p v) s (s.wrote (portBlock p.val) 0x17 true .plain v))
    ∧ (s.opens i 6 → Does (.calOvrWrite i v) s (s.wrote 6 0x20 true .plain v))

/-- O24, derived: A guarded write of CK_RESET.SOFT, once start-up is complete, records cause 5, drops SAFE_N, closes the blocks
until HELLO is answered, and sends the keeper back to its boot ROM by the straps. Every CK_ and PD_ register and the time
count, the clocks and the keys keep their values; every other register is at its reset value; the queues with their stored
cells and their tickets stay. Readings of the model that it rests on: notes/assumptions/53.md. (R51, R52, R53, R54, R366) -/
def Obligations.SoftReset : Prop :=
  ∀ (s : State) (i : Iface), s.opens i 0 → s.sup.stage = .released → Does (.ckResetSoft i) s (fun t =>
      t.sup = { s.sup with cause := some (5, 0), softLock := true, safeN := false, lbistDone := none }
      ∧ t.clk = s.clk ∧ t.keys.keys = s.keys.keys ∧ t.time.now = s.time.now ∧ t.otp = s.otp
      ∧ (∀ k, t.reg k = if keptKey k then s.reg k else rstWord s.otp k)
      ∧ t.keeper.mode = (if s.sup.bootSel = 3 then .boardTest else if s.sup.bootSel = 2 then .romWait else .loading)
      ∧ t.basin.queues.map (·.num) = s.basin.queues.map (·.num) ∧ t.basin.tickets.map (fun x => (x.id, x.queue, x.cells)) = s.basin.tickets.map (fun x => (x.id, x.queue, x.cells))
      ∧ t.ring.untaken = [] ∧ ∀ p : Fin 16, (t.port p).link.state = .disabled ∧ (t.port p).snd.w = (s.port p).snd.w)

/-- O25, derived: CK_RESET.KEEPER is a control-plane reset with cause 5. CK_RESET.PORT takes every masked port that is neither
DISABLED nor in a diagnostic run down with cause 13 and keeps its retry window; other ports keep their links (with no domain
forced off and no calibration or reflectometry running). CK_RESET.LANE loses every masked lane that is up, with cause 6 and
remote fault sent, and clears the FEC counts of every masked lane; other lanes stay. (R51, R52, R53, R54, R270, R374) -/
def Obligations.UnitResets : Prop :=
  ∀ (s : State) (i : Iface), s.opens i 0 →
    (s.keeper.out = true → Does (.ckResetKeeper i) s (s.restarted 5))
    ∧ (∀ mask : BitVec 16, s.unforced → (∀ p, (s.port p).cal.running = false ∧ (s.port p).tdr.running = false) → Does (.ckResetPort i mask) s (fun t => ∀ p : Fin 16,
        (mask.getLsbD p.val = true → (s.port p).link.state ≠ .disabled → (s.port p).link.state ≠ .diag →
          (t.port p).link.state = .hold ∧ (t.port p).link.downCause = 13 ∧ (t.port p).snd.w = (s.port p).snd.w)
        ∧ (mask.getLsbD p.val = false → (t.port p).link = (s.port p).link)))
    ∧ (∀ mask : BitVec 8, Does (.ckResetLane i mask) s (fun t => ∀ n : Fin 8,
        (mask.getLsbD n.val = true → (s.lane n).state = .up → (t.lane n).state = (if bit (s.laneReg n.val 0) 0 then .lost else .off)
          ∧ (t.lane n).cause = 6 ∧ (t.lane n).sendRf = true ∧ (t.lane n).blockLock = false)
        ∧ (mask.getLsbD n.val = true → (t.lane n).fecCorr = 0 ∧ (t.lane n).fecUncorr = 0)
        ∧ (mask.getLsbD n.val = false → t.lane n = s.lane n)))

/-- O26, derived: KS_ZERO empties every index and the identity key and counts the zeroising; read back as zero it is done with
ZERO_OK, else it is under way. The second attempt ends it: ZERO_OK as it then reads back, and FAULT when it does not. A
zeroising that logic BIST asked for and that passes holds the keeper for it. When TEST_EN asked for it the part then goes
into hard reset with cause 3, where it stays while TEST_EN is high; a TEST_EN that has fallen meanwhile lets start-up run
again. Readings of the model that it rests on: notes/assumptions/58.md. (R34, R413, R417, R418) -/
def Obligations.Zeroise : Prop :=
  (∀ (s : State) (i : Iface) (ok : Bool), s.opens i 0 → s.keys.zeroising = none → (∀ c, (s.chan c).work = none) →
      Does (.ksZeroise i ok) s (fun t => t.keys.keys = [] ∧ t.keys.identity = false ∧ t.keys.zeroOk = ok
        ∧ t.keys.zeroCnt = satAdd 0xFFFF s.keys.zeroCnt 1 ∧ t.keys.zeroising = (if ok then none else some 1) ∧ t.keys.fault = s.keys.fault))
  ∧ (∀ (s : State) (n : Nat) (ok : Bool), s.clocked = true → s.keys.zeroising = some n → s.sup.testEnWaits = false → (∀ c, (s.chan c).work = none) →
      Does (.zeroiseRetry ok) s (fun t => t.keys = { s.keys with zeroising := none, zeroOk := ok, fault := s.keys.fault || !ok }
        ∧ (n = 3 → ok = true → t.keeper.mode = .lbist) ∧ (n ≠ 3 → t.keeper = s.keeper)))
  ∧ (∀ (s : State) (n : Nat) (ok : Bool), s.clocked = true → s.keys.zeroising = some n → s.sup.testEnWaits = true → n ≠ 3 →
      (∀ c, (s.chan c).work = none) → Does (.zeroiseRetry ok) s (fun t => t.sup.cause = some (3, 0) ∧ t.keys = { zeroOk := ok } ∧ t.regs = []
        ∧ (s.sup.testEn = true → t.sup.stage = .hardReset)
        ∧ (s.sup.testEn = false → s.sup.resetN = true → s.sup.suppliesGood = true → t.sup.stage = if s.sup.pfailN then .qualifying else .halted)))

/-- O27, derived: Set through the set window, each self-clearing bit does its act and no register reads otherwise: WAKE queues
an EXIT cell in quiet at the leader; REBAL starts at most one move; NOW makes a snapshot due; CLR empties its counter, and
the high one of a chain; TDR START takes a DISABLED port into a diagnostic run with the stored settings, or refuses an
enabled port with RESULT 3; CAPTURE begins or waits; CLEAR_REF discards both references. CLR empties its counter in the
state that the command's closing (settle, which counts what has risen) then takes; with no live selector in its block and no
command waiting it still reads 0 after that. (R246, R308, R330, R339, R340, R341, R350, R396, R399, R402) -/
def Obligations.SelfClearingBits : Prop :=
  (∀ (s : State) (i : Iface) (p : Fin 16), s.opens i (portBlock p.val) →
      Does (.lnQuietWake i p) s (fun t => (∀ k, t.reg k = s.reg k) ∧ (t.port p).tow = if (s.port p).quiet.state = .quiet ∧ (s.port p).link.leader = true
        then { (s.port p).tow with ready := (s.port p).tow.ready ++ [{ type := 9, payload := quietPayload 1 ⟨false, 0, 0, 0, 0, BitVec.ofNat 8 (s.port p).tow.sf⟩ }] }
        else (s.port p).tow)
      ∧ Does (.watchCapture i p) s (fun t => (∀ k, t.reg k = s.reg k) ∧ (t.port p).watch =
        if ((s.port p).link.state = .loconUp ∨ (s.port p).link.state = .shift) ∧ (s.port p).quiet.state = .active
        then { (s.port p).watch with capturing := true, wantCapture := false }
        else { (s.port p).watch with wantCapture := !(s.port p).watch.capturing })
      ∧ Does (.watchClearRef i p) s (fun t => (∀ k, t.reg k = s.reg k) ∧
        (t.port p).watch = { (s.port p).watch with capturing := false, wantCapture := false, refWide := none, refNarrow := none })
      ∧ (s.unforced → (∀ q, (s.port q).cal.running = false) → (s.port p).tdr.running = false → s.safeBlock (portBlock p.val) = false →
        Does (.tdrStart i p) s (fun t => s.wrote (portBlock p.val) 0x70 false .setBits 1 t ∧
          (s.enabled p = true → (t.port p).tdr = { (s.port p).tdr with result := 3 } ∧ (t.port p).link = (s.port p).link)
          ∧ (s.enabled p = false → (t.port p).tdr.running = true ∧ (t.port p).link.state = .diag ∧ (t.port p).tdr.prof = fld (s.portReg p 0x70) 1 2
            ∧ (t.port p).tdr.thr = clampN 2 100 (fld (s.portReg p 0x70) 16 8) ∧ (t.port p).tdr.avg = clampN 4 8 (fld (s.portReg p 0x70) 8 4)))))
  ∧ (∀ (s : State) (i : Iface), s.opens i 3 → Does (.plRebal i) s (fun t => (∀ k, t.reg k = s.reg k) ∧
      (t.basin = s.basin ∨ ∃ q n, t.basin = (s.startMove q n).basin)))
  ∧ (∀ (s : State) (i : Iface), s.opens i 4 → Does (.pcSelNow i) s (fun t => (∀ k, t.reg k = s.reg k) ∧ t.tally.due = true))
  ∧ (∀ (s : State) (i : Iface) (b : Fin 128) (n : Fin 8), s.opens i (canonBlock b.val) → ∃ u : State,
      exec (.counterClear i b n) s = .next (settle s u) ∧ u.tally.counter (canonBlock b.val) n.val = 0 ∧ ∀ k, u.reg k = s.reg k)
  ∧ (∀ (s : State) (i : Iface) (b : Fin 128) (n : Fin 8), s.opens i (canonBlock b.val) → s.parity = [] → (∀ k < 8, liveSelected (s.csel (canonBlock b.val) k) = none) →
      (∀ c, (s.chan c).work = none) → Does (.counterClear i b n) s (fun t => (∀ k, t.reg k = s.reg k) ∧ t.tally.counter (canonBlock b.val) n.val = 0
        ∧ (s.chains (canonBlock b.val) n.val = true → t.tally.counter (canonBlock b.val) (n.val + 1) = 0)))

/-- O28, derived: A guarded write of ST_OFFLINE starts a loopback on every masked port whose ENABLE and PATTERN are 0 and that
runs no reflectometry, and on no other. Logic BIST starts only with every port and host lane disabled and no queue open: the
key store is zeroised and verified first, and the keeper is held in reset once it reads back zero; a store that does not
waits for the second attempt. (R413, R414, R417) -/
def Obligations.OfflineTests : Prop :=
  (∀ (s : State) (i : Iface) (mask : BitVec 16), s.opens i 5 → Does (.stLoopbackStart i mask) s (fun t => (∀ k, t.reg k = s.reg k) ∧
      ∀ p : Fin 16, (t.port p).test = if mask.getLsbD p.val = true ∧ s.loopOk p = true then { (s.port p).test with loop := true } else (s.port p).test))
  ∧ (∀ (s : State) (i : Iface) (ok : Bool), s.opens i 5 → s.keys.zeroising = none → (∀ c, (s.chan c).work = none) → Does (.stLbistStart i ok) s (fun t =>
      (s.lbistOk = true → t.keys.keys = [] ∧ t.keys.identity = false ∧ t.keys.zeroOk = ok ∧ t.keys.zeroising = (if ok then none else some 3)
        ∧ t.keeper.mode = (if ok then .lbist else s.keeper.mode))
      ∧ (s.lbistOk = false → t.keys = s.keys ∧ t.keeper.mode = s.keeper.mode)))

/-- O29, derived: A read of TM_NOW_NS answers the nanoseconds and latches the time for that interface. A read of a low counter
answers it and latches the counter. A read of IND_DATA answers the entry that IND_ADDR names, and a read and a plain write
advance IND_ADDR by 1 with AUTO_INC; a write of a feed-forward tap sets that tap. A wrap that waits is reported once as
COUNTER_WRAP. (R297, R367, R400, R401, R406) -/
def Obligations.RegisterReads : Prop :=
  (∀ (s : State) (i : Iface), s.opens i 2 → Does (.tmNowNsRead i) s (fun t => (t.iface i).rdata = (s.reg (regKey 2 0) ||| put 0 30 (nsInSec s.time.now))
      ∧ (t.iface i).nowLatch = s.time.now ∧ t.regs = s.regs ∧ t.time = s.time))
  ∧ (∀ (s : State) (i : Iface) (b : Fin 128) (n : Fin 8), s.opens i (canonBlock b.val) → Does (.counterLowRead i b n) s (fun t => t.regs = s.regs
      ∧ (t.iface i).rdata = (s.began i).ctrLo i (canonBlock b.val) n.val ∧ (t.iface i).chiLatch = (s.began i).ctrLatch (canonBlock b.val) n.val))
  ∧ (∀ (s : State) (i : Iface) (b : Fin 128), s.opens i (canonBlock b.val) → Does (.indDataRead i b) s (fun t =>
      (t.iface i).rdata = (s.began i).ind i (canonBlock b.val) (fld (s.indAddr i (canonBlock b.val)) 0 24)
      ∧ t.indAddr i (canonBlock b.val) = (if bit (s.indAddr i (canonBlock b.val)) 31
          then setFld (s.indAddr i (canonBlock b.val)) 0 24 (fld (s.indAddr i (canonBlock b.val)) 0 24 + 1) else s.indAddr i (canonBlock b.val))))
  ∧ (∀ (s : State) (i : Iface) (b : Fin 128) (v : Word), s.opens i (canonBlock b.val) → Does (.indDataWrite i b v) s (fun t =>
      t.indAddr i (canonBlock b.val) = (if bit (s.indAddr i (canonBlock b.val)) 31
          then setFld (s.indAddr i (canonBlock b.val)) 0 24 (fld (s.indAddr i (canonBlock b.val)) 0 24 + 1) else s.indAddr i (canonBlock b.val))
      ∧ ∀ (p : Fin 16) (k : Fin 24), canonBlock b.val = portBlock p.val → fld (s.indAddr i (canonBlock b.val)) 0 24 = 0x3000 + k.val →
          (t.port p).rx.ffe = putEntry (s.port p).rx.ffe 24 k.val v))
  ∧ (∀ (s : State) (b : Fin 128) (n : Fin 8), s.clocked = true → s.tally.wraps = [(canonBlock b.val, n.val)] → s.ringRoom →
      Does (.counterWrap b n) s (fun t => t.told 0x0050 (canonBlock b.val) (unitOf (canonBlock b.val)) (wd n.val)))

/-- O30, derived: TAKE on a command channel makes DONE IDLE and leaves its cells; on channel 15 it takes the oldest untaken
record, clears the count of lost records and reports it when there were some. A doorbell with a code outside the command set
is answered with status 0x0001 and changes no register, port or queue. Readings of the model that it rests on:
notes/assumptions/44.md. (R380, R381, R382, R385, R391) -/
def Obligations.TakeAndUnknown : Prop :=
  (∀ (s : State) (i : Iface) (c : Fin 16), s.opens i (mboxBlock c.val) → c.val ≠ 15 → (s.chan c).work = none →
      Does (.mbTake i c) s (fun t => t.chan c = { s.chan c with done := false } ∧ t.ring = s.ring))
  ∧ (∀ (s : State) (i : Iface) (e : EventRec) (rest : List EventRec), s.opens i (mboxBlock 15) → s.ring.untaken = e :: rest → rest.length < 256 →
      Does (.mbTake i 15) s (fun t => (s.ring.lost = 0 → t.ring.untaken = rest ∧ t.ring.lost = 0) ∧ (s.ring.lost ≠ 0 → t.told 0x0001 0 0 (wd s.ring.lost))))
  ∧ (∀ (s : State) (c : Fin 16) (code : Byte) (r : Request), s.serves c → fullRequest r → knownCode code.toNat = false →
      Does (.unknownCmd c code r) s (fun t => t.answered c code.toNat r 1 ∧ t.regs = s.regs ∧ t.basin = s.basin ∧ ∀ p, (t.port p).link = (s.port p).link))

/-- O31, derived: Frames for another port or device change nothing but leave the bus unanswered. An address frame sets the
register address. With the window off a read answers 0xFFFF and a write does nothing. With it on, the identification
registers answer as listed, a snapshot register answers its place in its latched group and keeps the latch but for the last
one, a write of a group base sets or clears LN_MODE.ENABLE of the port shown and no other register, and every write and 1 ms
without access release the latch; a post-read-increment frame also advances the address. Readings of the model that it rests
on: notes/assumptions/21.md. (R251, R252, R370, R371) -/
def Obligations.MdioWindow : Prop :=
  ∀ (s : State) (prtad devad : BitVec 5),
    (∀ a : BitVec 16, Does (.mdioAddress prtad devad a) s (fun t => t.mdio = { s.mdio with answer := none, addr := if s.mdioMine prtad devad then a else s.mdio.addr }))
    ∧ (s.mdioMine prtad devad = false → Does (.mdioRead prtad devad) s (fun t => t.mdio = { s.mdio with answer := none })
        ∧ Does (.mdioReadInc prtad devad) s (fun t => t.mdio = { s.mdio with answer := none })
        ∧ ∀ v, Does (.mdioWrite prtad devad v) s (fun t => t.mdio = { s.mdio with answer := none } ∧ t.regs = s.regs))
    ∧ (s.mdioMine prtad devad = true → bit s.compat 31 = false → Does (.mdioRead prtad devad) s (fun t => t.mdio = { s.mdio with answer := some 0xFFFF })
        ∧ ∀ v, Does (.mdioWrite prtad devad v) s (fun t => t.regs = s.regs))
    ∧ (s.mdioMine prtad devad = true → bit s.compat 31 = true →
        (mdioSlot s.mdio.addr.toNat = none → Does (.mdioRead prtad devad) s (fun t => t.mdio = { s.mdio with answer := some (s.mdioPlain s.mdio.addr.toNat) }))
        ∧ (∀ k j, mdioSlot s.mdio.addr.toNat = some (k, j) → s.mdio.latched = none → Does (.mdioRead prtad devad) s (fun t =>
            t.mdio.answer = some ((s.mdioGroup k).getD (j - 1) 0) ∧ t.mdio.latched = if j = 8 then none else some (k, s.mdioGroup k)))
        ∧ (∀ k j l, mdioSlot s.mdio.addr.toNat = some (k, j) → s.mdio.latched = some (k, l) → Does (.mdioRead prtad devad) s (fun t =>
            t.mdio.answer = some (l.getD (j - 1) 0) ∧ t.mdio.latched = if j = 8 then none else some (k, l)))
        ∧ Does (.mdioReadInc prtad devad) s (fun t => t.mdio.addr = s.mdio.addr + 1)
        ∧ (∀ (k : Fin 4) (v : BitVec 16), s.mdio.addr.toNat = 0x8000 + 256 * k.val → Does (.mdioWrite prtad devad v) s (fun t => t.mdio.latched = none
            ∧ s.wrote (portBlock (s.mdioPort k.val).val) 0x01 false (if v.getLsbD 0 then .setBits else .clearBits) 0x100 t)))
    ∧ Does .mdioLatchTimeout s (fun t => t.mdio = { s.mdio with latched := none })

/-- O32, derived: A monitor that OTP locks, or in hard reset, takes no line. Otherwise p answers the word that the register
reads as (its complement through the complement window, 0 for a closed block or an unused index), w writes as a transaction
and answers OK, i fills the cells of a free channel and rings it, or is rejected with a status, the channel rung answers its
response words when it is DONE and is taken, t sets tracing, c answers the eight counters of a block, b sets the rate for
codes 0 to 4, and any other line is answered with an error. Readings of the model that it rests on: notes/assumptions/38.md.
(R394, R395) -/
def Obligations.MonitorCommands : Prop :=
  (∀ s : State, s.deaf .monitor = false →
      (∀ a : Addr, ∃ t, exec (.monRead a) s = .next t ∧ t.monitor.active = some s.ticks
          ∧ ((decodeAddr a).index ≠ 0xFF → t.regs = s.regs)
          ∧ (s.closedTo (decodeAddr a).block = true ∨ usedIndex (blockKind (decodeAddr a).block) (decodeAddr a).index = false → t.monitor.reply = some (true, [0]))
          ∧ (s.closedTo (decodeAddr a).block = false → usedIndex (blockKind (decodeAddr a).block) (decodeAddr a).index = true →
              ∀ w, w = (({ s with monitor := { s.monitor with active := some s.ticks } }).guardDrop .monitor).peek .monitor (decodeAddr a).block (decodeAddr a).index →
              t.monitor.reply = some (true, [if (decodeAddr a).comp then ~~~w else w])))
      ∧ (∀ (a : Addr) (v : Word), ∃ t, exec (.monWrite a v) s = .next t ∧ t.monitor.reply = some (true, []))
      ∧ (∀ (a : Addr) (v : Word), s.opens .monitor (decodeAddr a).block → (decodeAddr a).comp = false →
          usedIndex (blockKind (decodeAddr a).block) (decodeAddr a).index = true → plainReg (decodeAddr a).block (decodeAddr a).index →
          Does (.monWrite a v) s (fun t => t.monitor.reply = some (true, []) ∧ s.wrote (decodeAddr a).block (decodeAddr a).index false (decodeAddr a).way v t))
      ∧ (∀ (c : Fin 16) (ws : List Word), (c.val = 15 ∨ (s.chan c).busy = true) → Does (.monInvoke c ws) s (fun t => t.monitor.reply = some (false, [5])))
      ∧ (∀ (c : Fin 16) (ws : List Word), c.val ≠ 15 → (s.chan c).busy = false → (s.modChan c (fun ch => ch.filled ws)).doorReject c ≠ 0 →
          Does (.monInvoke c ws) s (fun t => ∃ w, t.monitor.reply = some (false, [w]) ∧ t.monitor.rang = s.monitor.rang))
      ∧ (∀ (c : Fin 16) (w : Word) (ws : List Word), s.serves c → ws.length < 64 → knownCode (fld w 0 8) = false → 1 ≤ fld w 8 8 → fld w 8 8 ≤ 16 →
          Does (.monInvoke c (w :: ws)) s (fun t => t.monitor.rang = some c.val ∧ (t.chan c).done = true ∧ ∀ k : Fin 64, k.val ≤ ws.length → (t.chan c).req.get k = (w :: ws).getD k.val 0))
      ∧ (∀ on : Bool, Does (.monTrace on) s (fun t => t.monitor.trace = on ∧ t.monitor.reply = some (true, [])))
      ∧ (∀ b : Fin 128, Does (.monCounters b) s (fun t => t.monitor.reply = some (true, (List.range 8).flatMap (fun n =>
          [half48 (s.tally.counter (canonBlock b.val) n) true, half48 (s.tally.counter (canonBlock b.val) n) false]))))
      ∧ (∀ code : Nat, Does (.monBaud code) s (fun t => (code ≤ 4 → t.monitor.baud = code ∧ t.monitor.reply = some (true, []))
          ∧ (4 < code → t.monitor.baud = s.monitor.baud ∧ t.monitor.reply = some (false, [4]))))
      ∧ Does .monBadLine s (fun t => t.monitor.reply = some (false, [1])))
  ∧ (∀ (s : State) (c : Fin 16), c.val ≠ 15 → s.monitor.rang = some c.val → (s.chan c).done = true → (s.chan c).work = none → Does (.monInvokeResponse c) s (fun t =>
      t.monitor.rang = none ∧ (t.chan c).done = false
      ∧ t.monitor.reply = some (true, (s.chan c).resp.toList.take (4 * max 1 (fld ((s.chan c).resp.get 0) 8 8)))))
  ∧ (∀ s : State, s.deaf .monitor = true → Does .monBadLine s (fun t => t.monitor = s.monitor) ∧ ∀ on, Does (.monTrace on) s (fun t => t.monitor = s.monitor))

/-- O33, derived: A scrub pass leaves as bad exactly the registers it found that store a field, and changes no register. The
keeper rewrites every differing register of a block that it owns from its copy, and touches no other block (no recovery from
a REFCLK loss going on). A COMMIT_AT entry that is due writes its register through the ordinary access way and nothing else.
Readings of the model that it rests on: notes/assumptions/9.md, notes/assumptions/18.md, notes/assumptions/20.md. (R295,
R359, R360, R363) -/
def Obligations.ParityRestoreCommit : Prop :=
  (∀ (s : State) (bad : List Addr), s.clocked = true → Does (.parityScrub bad) s (fun t => t.regs = s.regs ∧ ∀ k, k ∈ t.parity ↔
      hasStored (keyFields k) = true ∧ ∃ a ∈ bad, regKey (decodeAddr a).block (decodeAddr a).index = k))
  ∧ (∀ (s : State) (b : Fin 128), s.clocked = true → s.keeper.mode = .running → s.sup.softAfterRef = false →
      (s.keeper.owns (canonBlock b.val) = true → Does (.keeperRestoreOwned b) s (fun t =>
        (∀ ix < 0xFE, t.reg (regKey (canonBlock b.val) ix) = s.keeperCopy (regKey (canonBlock b.val) ix))
        ∧ ∀ k, k / 256 ≠ canonBlock b.val → t.reg k = s.reg k))
      ∧ (s.keeper.owns (canonBlock b.val) = false → Does (.keeperRestoreOwned b) s (fun t => t.regs = s.regs)))
  ∧ (∀ (s : State) (e : Fin 1024) (x : CalEntry) (a : Addr) (v : Word), s.clocked = true → s.dueInstant e.val .commit = some x → x.writes = [(a, v)] →
      (decodeAddr a).comp = false → usedIndex (blockKind (decodeAddr a).block) (decodeAddr a).index = true → plainReg (decodeAddr a).block (decodeAddr a).index →
      Does (.commitAct e) s (s.wrote (decodeAddr a).block (decodeAddr a).index false (decodeAddr a).way v))

/-- O34, derived: HELLO is answered with the ID registers and VERSION, ends the closing of a soft reset, reports a waiting
RESET_CAUSE as the first record, and with TAKE_ALL owns every configuration block. PORT_SET_POLICY and PORT_FORCE_MODE own
the port and its reach and write exactly the registers of their arguments. PORT_ENABLE and PORT_DISABLE set or clear
LN_MODE.ENABLE on the masked ports alone and answer the mask of those that changed. Readings of the model that it rests on:
notes/assumptions/43.md. (R362, R363, R384, R386, R391, R429) -/
def Obligations.HelloAndPorts : Prop :=
  (∀ (s : State) (c : Fin 16) (r : Request), s.takes c r 0 → Does (.hello c r) s (fun t =>
      t.gives c 0x01 r ((List.range 8).map (s.rung c 0x01 r).chipStatus ++ [s.keeper.version])
      ∧ t.sup.softLock = false ∧ t.sup.cause = none ∧ t.regs = s.regs
      ∧ (bit (argWord r 0) 0 = true → ∀ b ∈ takeAll, t.keeper.owns b = true)
      ∧ (bit (argWord r 0) 0 = false → t.keeper.owner = s.keeper.owner ∧ t.keeper.ownerHl = s.keeper.ownerHl)
      ∧ (∀ k rails, s.sup.cause = some (k, rails) → s.sup.lbistDone = none → s.ringRoom → t.told 0x0060 0 0 (wd k))))
  ∧ (∀ (s : State) (c : Fin 16) (r : Request) (p : Fin 16), fld (argWord r 0) 0 4 = p.val → s.takes c r (if bit (argWord r 0) 8 then 3 else 2) →
      Does (.portSetPolicy c r) s (fun t => t.answered c 0x10 r 0 ∧ t.keeper.owns (portBlock p.val) = true ∧ t.keeper.owns (reachBlock (reachOf p).val) = true
        ∧ ∀ k, t.reg k = if k = regKey (portBlock p.val) 0x00 then s.imageOf (portBlock p.val) 0x00 false .plain (argWord r 1)
            else if k = regKey (portBlock p.val) 0x05 ∧ bit (argWord r 0) 8 = true then s.imageOf (portBlock p.val) 0x05 false .plain (argWord r 2)
            else s.reg k))
  ∧ (∀ (s : State) (c : Fin 16) (r : Request) (p : Fin 16), fld (argWord r 0) 0 4 = p.val → s.takes c r 1 →
      Does (.portForceMode c r) s (fun t => t.answered c 0x13 r 0 ∧ t.keeper.owns (portBlock p.val) = true ∧ t.keeper.owns (reachBlock (reachOf p).val) = true
        ∧ ∀ k, t.reg k = if k = regKey (portBlock p.val) 0x01 then
            s.imageOf (portBlock p.val) 0x01 false .plain (setFld (s.reg (regKey (portBlock p.val) 0x01)) 0 4 (fld (argWord r 0) 8 4)) else s.reg k))
  ∧ (∀ (s : State) (c : Fin 16) (r : Request), s.takes c r 1 → ∀ on : Bool,
      Does (if on then .portEnable c r else .portDisable c r) s (fun t =>
        t.answered c (if on then 0x11 else 0x12) r 0
        ∧ (∀ p : Fin 16, (t.result c 0).getLsbD p.val =
            (bit (argWord r 0) p.val && bit (s.reg (regKey (portBlock p.val) 0x01)) 8 != on))
        ∧ (∀ p : Fin 16, t.reg (regKey (portBlock p.val) 0x01) = if bit (argWord r 0) p.val then
            s.imageOf (portBlock p.val) 0x01 false (if on then .setBits else .clearBits) 0x100 else s.reg (regKey (portBlock p.val) 0x01))
        ∧ (∀ k, (∀ p : Fin 16, k ≠ regKey (portBlock p.val) 0x01) → t.reg k = s.reg k)
        ∧ ∀ p : Fin 16, bit (argWord r 0) p.val = true → t.keeper.owns (portBlock p.val) = true))

/-- O35, derived: STREAM_OPEN reads its attributes as listed; an open queue is refused with status 0x0101 and one that admission
refuses with the status of the condition that failed, the queues unchanged; one that passes is open with its attributes
after those open before, and B0 is its queue word 0. STREAM_MODIFY that passes replaces the attributes; a refused one leaves
them. STREAM_CLOSE of a queue that is not open is a bad argument; of an empty queue frees it and answers the free tickets;
of one with tickets it waits, and is answered when its last ticket is gone. Readings of the model that it rests on:
notes/assumptions/27.md, notes/assumptions/37.md. (R232, R233, R234, R237, R385, R387) -/
def Obligations.StreamCommands : Prop :=
  ∀ (s : State) (c : Fin 16) (r : Request) (q : Queue),
    q = { num := fld (argWord r 0) 0 12, outbound := bit (argWord r 0) 12
          cls := (match fld (argWord r 0) 13 2 with | 1 => .hop | 2 => .through | _ => .none), prio := fld (argWord r 0) 16 3
          bRes := (argWord r 1).toNat, lat := (argWord r 2).toNat, rB := (argWord r 3).toNat, fMin := fld (argWord r 4) 0 14
          laneMask := BitVec.ofNat 8 (fld (argWord r 0) 24 8) } →
    (s.takes c r 5 → s.safeBlock 3 = false →
      (∀ e, (s.rung c 0x20 r).openStream q (fld (argWord r 0) 13 2 != 3) = .error e →
          Does (.streamOpen c r) s (fun t => t.answered c 0x20 r e ∧ t.basin = s.basin))
      ∧ ((s.queue? q.num).isSome = true → Does (.streamOpen c r) s (fun t => t.answered c 0x20 r 0x0101 ∧ t.basin = s.basin))
      ∧ (∀ pl, s.queue? q.num = none → fld (argWord r 0) 13 2 ≠ 3 → s.attrsOk q = true → s.skidOk q = true → s.admitted q s.basin.queues = .ok pl →
          Does (.streamOpen c r) s (fun t => t.answered c 0x20 r 0 ∧ t.keeper.owns 3 = true ∧ t.basin.nextOrder = s.basin.nextOrder + 1
            ∧ ∃ x, t.queue? q.num = some x ∧ x.outbound = q.outbound ∧ x.cls = q.cls ∧ x.prio = q.prio ∧ x.bRes = q.bRes ∧ x.lat = q.lat ∧ x.rB = q.rB
              ∧ x.fMin = q.fMin ∧ x.laneMask = q.laneMask ∧ x.closing = none ∧ x.order = s.basin.nextOrder))
      ∧ (∀ e, (s.rung c 0x22 r).modifyStream q (fld (argWord r 0) 13 2 != 3) = .error e →
          Does (.streamModify c r) s (fun t => t.answered c 0x22 r e ∧ t.basin = s.basin))
      ∧ (∀ old pl, s.queue? q.num = some old → old.closing = none → fld (argWord r 0) 13 2 ≠ 3 → old.outbound = q.outbound → old.cls = q.cls →
          s.attrsOk q = true → s.skidOk q = true → s.admitted (old.modified q) (s.others q.num) = .ok pl →
          Does (.streamModify c r) s (fun t => t.answered c 0x22 r 0
            ∧ ∃ x, t.queue? q.num = some x ∧ x.outbound = old.outbound ∧ x.cls = old.cls ∧ x.prio = q.prio ∧ x.bRes = q.bRes ∧ x.lat = q.lat ∧ x.rB = q.rB
              ∧ x.fMin = q.fMin ∧ x.laneMask = q.laneMask ∧ x.order = old.order)))
    ∧ (s.takes c r 1 →
      (s.queue? q.num = none → Does (.streamClose c r) s (fun t => t.answered c 0x21 r 4 ∧ t.basin = s.basin))
      ∧ ((s.queue? q.num).isSome = true → s.ticketsOf q.num = [] → Does (.streamClose c r) s (fun t => t.gives c 0x21 r [wd (65536 - s.basin.tickets.length)]
          ∧ t.queue? q.num = none ∧ t.basin.tickets = s.basin.tickets))
      ∧ ((s.queue? q.num).isSome = true → s.ticketsOf q.num ≠ [] → bit (argWord r 0) 16 = false → Does (.streamClose c r) s (fun t =>
          t.waitsFor c (.streamClose q.num) ∧ t.basin.tickets = s.basin.tickets ∧ ∃ x, t.queue? q.num = some x ∧ x.closing = some c.val)))
    ∧ (∀ (k : Fin 4096) (x : Queue) (d : Fin 16), s.clocked = true → s.queue? k.val = some x → x.closing.isSome = true →
        (s.ticketsOf k.val = [] → s.waiting (isClose k.val) = some d → Does (.streamCloseComplete k) s (fun t =>
          t.queue? k.val = none ∧ s.ended t d 0 [wd (65536 - s.basin.tickets.length)]))
        ∧ (s.ticketsOf k.val ≠ [] → s.waiting (isClose k.val) = some d → Does (.streamCloseComplete k) s (fun t => t.basin = s.basin ∧ t.chan d = s.chan d)))

/-- O36, derived: CADENCE_SET with CLEAR frees the entry; otherwise fields within the limits are stored as given, and one that
takes GOVERN takes it from every other entry of its port; fields outside the limits are refused with 0x0102 and change no
entry. CADENCE_LEARN refuses line counts out of range and otherwise waits; seventeen burst starts give the mean frame
length, the line length from N_l and the time of the last start less A_0 lines, are refused as jitter or as no cadence, and
install the entry when asked; 2 s without them answer 0x0207. (R285, R287, R288, R383, R386, R388) -/
def Obligations.CadenceCommands : Prop :=
  (∀ (s : State) (c : Fin 16) (r : Request) (e : Nat) (k : Cadence), e = fld (argWord r 0) 0 8 →
    k = { queue := fld (argWord r 0) 16 12, pf := (argWord r 1).toNat + (argWord r 2).toNat * 2 ^ 32, pl := (argWord r 3).toNat + (argWord r 4).toNat * 2 ^ 32
          nl := fld (argWord r 5) 0 14, a0 := fld (argWord r 6) 0 14, na := fld (argWord r 6) 16 14
          ta := (((argWord r 8).toNat + fld (argWord r 9) 0 16 * 2 ^ 32) * 10 ^ 9 + fld (argWord r 7) 0 30) * 65536 + fld (argWord r 9) 16 16
          govern := bit (argWord r 0) 28, track := bit (argWord r 0) 29 } →
    (bit (argWord r 0) 30 = true → s.takes c r 1 → Does (.cadenceSet c r) s (fun t => t.answered c 0x23 r 0 ∧ t.time.cad? e = none ∧ t.keeper.owns 2 = true
      ∧ ∀ j ≠ e, t.time.cad? j = s.time.cad? j))
    ∧ (bit (argWord r 0) 30 = false → s.takes c r 10 →
      (k.ok = true → Does (.cadenceSet c r) s (fun t => t.answered c 0x23 r 0 ∧ t.time.cad? e = some k
        ∧ (∀ j ≠ e, ∀ x, s.time.cad? j = some x → t.time.cad? j = some (if k.govern && x.queue / 256 == k.queue / 256 then { x with govern := false } else x))))
      ∧ (k.ok = false → Does (.cadenceSet c r) s (fun t => t.answered c 0x23 r 0x0102 ∧ t.time = s.time))))
  ∧ (∀ (s : State) (c : Fin 16) (r : Request) (nl a0 na : Nat), s.takes c r 3 → nl = fld (argWord r 1) 0 14 → a0 = fld (argWord r 2) 0 14 → na = fld (argWord r 2) 16 14 →
    ((nl < 2 ∨ 8192 < nl ∨ na < 1 ∨ nl < a0 + na) → Does (.cadenceLearn c r) s (fun t => t.answered c 0x24 r 4 ∧ t.time = s.time))
    ∧ (2 ≤ nl → nl ≤ 8192 → 1 ≤ na → a0 + na ≤ nl → Does (.cadenceLearn c r) s (fun t => t.waitsFor c (.cadenceLearn (fld (argWord r 0) 0 8))
      ∧ t.time = { s.time with learns := s.time.learns ++
          [⟨fld (argWord r 0) 0 8, fld (argWord r 0) 16 12, bit (argWord r 0) 28, nl, a0, na, c.val⟩] })))
  ∧ (∀ (s : State) (e : Fin 256) (l : LearnRec) (b : List Nat) (d : Fin 16), s.clocked = true → s.time.learns.find? (fun l => l.entry == e.val) = some l →
      s.waiting (fun w => w == .cadenceLearn e.val) = some d →
      Does (.cadenceLearnTimeout e) s (fun t => s.ended t d 0x0207 [] ∧ t.time.cads = s.time.cads ∧ ∀ x ∈ t.time.learns, x.entry ≠ e.val)
      ∧ (b.length = 17 →
        (learnt l b = none → Does (.cadenceLearnDone e b) s (fun t => s.ended t d 0x0206 [] ∧ t.time.cads = s.time.cads))
        ∧ (∀ k, learnt l b = some k → k.pf = (b.getD 16 0 - b.getD 0 0) / 16 ∧ k.pl = k.pf / max 1 l.nl ∧ k.ta = b.getD 16 0 - l.a0 * k.pl
            ∧ (∀ i < 16, 100 * (((b.getD (i + 1) 0 : Int) - b.getD i 0 - k.pf).natAbs) ≤ k.pf)
            ∧ (k.ok = false → Does (.cadenceLearnDone e b) s (fun t => s.ended t d 0x0207 [] ∧ t.time.cads = s.time.cads))
            ∧ (k.ok = true → Does (.cadenceLearnDone e b) s (fun t => s.ended t d 0 (k.word0 e.val :: k.words)
                ∧ (l.install = true → t.time.cad? e.val = some k) ∧ (l.install = false → t.time.cads = s.time.cads))))))

/-- O37, derived: TIME_SET loads the time given, cancels a slew, makes every time-transfer exchange of a port start anew and
answers the step applied; with AT_TSYNC it waits for the edge and is answered TIMEOUT when none comes; nanoseconds of 1 s or
more are a bad argument. TIME_ADJUST sets the rate correction within 1,000 ppm, begins a slew of at most 1 ms, or steps the
time, at once. Readings of the model that it rests on: notes/assumptions/12.md. (R275, R276, R277, R386) -/
def Obligations.TimeCommands : Prop :=
  (∀ (s : State) (c : Fin 16) (r : Request) (v : Nat), s.takes c r 4 →
      v = vehicleTime ((argWord r 2).toNat + fld (argWord r 3) 0 16 * 2 ^ 32) (argWord r 1).toNat (fld (argWord r 3) 16 16) →
      (10 ^ 9 ≤ (argWord r 1).toNat → Does (.timeSet c r) s (fun t => t.answered c 0x30 r 4 ∧ t.time = s.time))
      ∧ ((argWord r 1).toNat < 10 ^ 9 → bit (argWord r 0) 0 = true → Does (.timeSet c r) s (fun t =>
          t.waitsFor c .timeSetTsync ∧ t.time = { s.time with setWait := s.time.setWait ++ [(v, c.val)] }))
      ∧ ((argWord r 1).toNat < 10 ^ 9 → bit (argWord r 0) 0 = false → Does (.timeSet c r) s (fun t =>
          t.gives c 0x30 r [wdI (satI 32 (((v : Int) - s.time.now) / (subNs : Int)))] ∧ t.time.now = v ∧ t.time.fifths = 0 ∧ t.time.slew = none
          ∧ t.time.rho = s.time.rho ∧ ∀ p, (t.port p).xferStep = true)))
  ∧ (∀ (s : State) (c : Fin 16), s.clocked = true → (∃ v, (v, c.val) ∈ s.time.setWait) →
      Does (.timeSetTsyncTimeout c) s (fun t => s.ended t c 7 [] ∧ t.time.now = s.time.now ∧ ∀ e ∈ t.time.setWait, e.2 ≠ c.val))
  ∧ (∀ (s : State) (c : Fin 16) (r : Request) (v : Int), s.takes c r 2 → v = (argWord r 1).toInt →
      (fld (argWord r 0) 0 2 = 0 →
        (v.natAbs ≤ 2 ^ 40 / 1000 → Does (.timeAdjustRate c r) s (fun t => t.answered c 0x31 r 0 ∧ t.time = { s.time with rho := v }))
        ∧ (2 ^ 40 / 1000 < v.natAbs → Does (.timeAdjustRate c r) s (fun t => t.answered c 0x31 r 4 ∧ t.time = s.time)))
      ∧ (fld (argWord r 0) 0 2 = 1 →
        (v.natAbs ≤ 10 ^ 6 → Does (.timeAdjustSlew c r) s (fun t => t.answered c 0x31 r 0 ∧ t.time = { s.time with slew := some (v * subNs * 5) }))
        ∧ (10 ^ 6 < v.natAbs → Does (.timeAdjustSlew c r) s (fun t => t.answered c 0x31 r 4 ∧ t.time = s.time)))
      ∧ (fld (argWord r 0) 0 2 = 2 → Does (.timeAdjustStep c r) s (fun t => t.answered c 0x31 r 0 ∧ t.time.now = ((s.time.now : Int) + v * subNs).toNat
        ∧ t.time.slew = none ∧ t.time.rho = s.time.rho ∧ ∀ p, (t.port p).xferStep = true)))

/-- O38, derived: An entry whose occurrence is yet to come is held under the lowest free number with its positions, instants and
repeat, and answered with that number; one whose start has passed is held as late and counted; one with an empty window is
held and does nothing; one wholly past is dropped and counted; with no free number it is refused with 0x0201. A cancel
removes the entry it names, or answers 0x0205. COMMIT_AT takes 1 to 24 writes and refuses guarded, complement and indirect
registers. Readings of the model that it rests on: notes/assumptions/45.md. (R288, R289, R290, R295, R385, R386, R389) -/
def Obligations.CalendarCommands : Prop :=
  (∀ (s : State) (c : Fin 16) (r : Request) (kind : CalKind) (sp tp : Position) (x : CalEntry), s.takes c r 8 → fld (argWord r 0) 0 2 = 0 →
      schedKind (fld (argWord r 0) 8 4) = some kind → s.position (argWord r 1) (argWord r 2) (argWord r 3) = .ok sp →
      (if kind.window then s.position (argWord r 4) (argWord r 5) (argWord r 6) = .ok tp else tp = sp) →
      (fld (argWord r 0) 24 8 = 0 ∨ (sp.abs = false ∧ tp.abs = false)) →
      x = { kind := kind, source := 0, target := fld (argWord r 0) 16 4, startP := sp, stopP := tp, start := s.time.instant sp
            stop := if kind.window then some (s.time.instant tp) else none, repeatK := fld (argWord r 0) 24 8
            left := if fld (argWord r 0) 24 8 = 0 then 1 else fld (argWord r 7) 0 16, chan := c.val, order := s.time.nextOrder } →
      (∀ e, s.freeCal = some e →
        (s.judge x.start x.stop = .ok → Does (.scheduleEventAdd c r) s (fun t => t.gives c 0x32 r [wd e, wd (nsInSec x.start), wd (secOf x.start)] ∧ t.cal? e = some x
            ∧ ∀ j ≠ e, t.cal? j = s.cal? j))
        ∧ (s.judge x.start x.stop = .late → Does (.scheduleEventAdd c r) s (fun t => t.answered c 0x32 r 0x0204 ∧ t.result c 0 = wd e
            ∧ t.cal? e = some { x with late := true } ∧ t.time.lateCnt = satAdd 0xFFFF s.time.lateCnt 1))
        ∧ (s.judge x.start x.stop = .emptyHeld → Does (.scheduleEventAdd c r) s (fun t => t.answered c 0x32 r 0x0202 ∧ t.result c 0 = wd e
            ∧ t.cal? e = some { x with empty := true }))
        ∧ (s.judge x.start x.stop = .dropped → x.repeatK = 0 → Does (.scheduleEventAdd c r) s (fun t => t.answered c 0x32 r 0x0203 ∧ t.time.cal = s.time.cal
            ∧ t.time.dropped = satAdd 0xFFFF s.time.dropped 1)))
      ∧ (s.freeCal = none → (s.judge x.start x.stop).holds = true → Does (.scheduleEventAdd c r) s (fun t => t.answered c 0x32 r 0x0201 ∧ t.time.cal = s.time.cal))
      ∧ (kind.window = false → s.judge x.start x.stop = if s.time.now < x.start then .ok else .late))
  ∧ (∀ (s : State) (c : Fin 16) (r : Request), s.takes c r 8 → fld (argWord r 0) 0 2 = 1 →
      (∀ x, s.cal? (fld (argWord r 7) 16 10) = some x → Does (.scheduleEventCancel c r) s (fun t => t.gives c 0x32 r [wd (fld (argWord r 7) 16 10)]
          ∧ t.cal? (fld (argWord r 7) 16 10) = none ∧ ∀ j ≠ fld (argWord r 7) 16 10, t.cal? j = s.cal? j))
      ∧ (s.cal? (fld (argWord r 7) 16 10) = none → Does (.scheduleEventCancel c r) s (fun t => t.answered c 0x32 r 0x0205 ∧ t.time.cal = s.time.cal)))
  ∧ (∀ (s : State) (c : Fin 16) (r : Request) (sp : Position), s.takes c r 3 → s.position (argWord r 0) (argWord r 1) (argWord r 2) = .ok sp →
      (∀ e, s.freeCal = some e → s.time.now < s.time.instant sp → Does (.snapshotAt c r) s (fun t => t.gives c 0x33 r [wd e]
          ∧ t.cal? e = some { kind := .snapshot, source := 1, target := 0, startP := sp, stopP := sp, start := s.time.instant sp, stop := none, left := 1
                              chan := c.val, order := s.time.nextOrder }))
      ∧ (s.freeCal = none → Does (.snapshotAt c r) s (fun t => t.answered c 0x33 r 0x0201 ∧ t.time.cal = s.time.cal)))
  ∧ (∀ (s : State) (c : Fin 16) (r : Request) (n : Nat) (ws : List (Addr × Word)), n = fld (argWord r 3) 0 5 → s.takes c r (4 + 2 * min 24 n) →
      ws = (List.range n).map (fun i => ((argWord r (4 + 2 * i)).setWidth 24, argWord r (5 + 2 * i))) →
      ((n = 0 ∨ 24 < n) → Does (.commitAt c r) s (fun t => t.answered c 0x34 r 4 ∧ t.time = s.time))
      ∧ (1 ≤ n → n ≤ 24 → (∃ w ∈ ws, commitRefuses w.1 = true) → Does (.commitAt c r) s (fun t => t.answered c 0x34 r 0x0102 ∧ t.time = s.time))
      ∧ (1 ≤ n → n ≤ 24 → (∀ w ∈ ws, commitRefuses w.1 = false) → ∀ sp e, s.position (argWord r 0) (argWord r 1) (argWord r 2) = .ok sp → s.freeCal = some e →
          s.time.now < s.time.instant sp → Does (.commitAt c r) s (fun t => t.gives c 0x34 r [wd e] ∧ t.regs = s.regs
            ∧ t.cal? e = some { kind := .commit, source := 2, target := 0, startP := sp, stopP := sp, start := s.time.instant sp, stop := none, left := 1
                                chan := c.val, writes := ws, order := s.time.nextOrder })))

/-- O39, derived: CAL_RUN with empty masks is answered at once; otherwise it waits while each masked port, and each enabled port
of a masked reach, begins its run. CAL_READ answers the quality, the temperature and T_ref of the port and its reach.
DIAG_TDR of an enabled port is refused with 0x0702 and RESULT 3; otherwise the run starts with PROFILE, AVG and THR as
clamped, or is joined when it runs. DIAG_WATCH reads the three status words, discards both references, or waits for a
capture, which ends as TIMEOUT when it takes too long. (R320, R325, R326, R330, R339, R341, R383, R386) -/
def Obligations.CalibrationAndDiagnosticCommands : Prop :=
  (∀ (s : State) (c : Fin 16) (r : Request), s.takes c r 1 →
      (fld (argWord r 0) 0 4 = 0 → fld (argWord r 0) 16 16 = 0 → Does (.calRun c r) s (fun t => t.gives c 0x40 r [0] ∧ t.keeper.owns 6 = true))
      ∧ (fld (argWord r 0) 0 4 = 0 → s.calHeld = false → Does (.calRun c r) s (fun t => t.keeper.owns 6 = true ∧ ∀ p : Fin 16,
          (bit (argWord r 0) (16 + p.val) = true → (s.port p).cal.running = false → (s.port p).tdr.running = false →
            (t.port p).cal.running = true ∧ (t.port p).cal.single = true ∧ (t.port p).cal.item = 0
            ∧ t.waitsFor c (.calRun 0 (BitVec.ofNat 16 (fld (argWord r 0) 16 16)) 0 0))
          ∧ (bit (argWord r 0) (16 + p.val) = false → (t.port p).cal = (s.port p).cal)))
      ∧ (s.calHeld = false → Does (.calRun c r) s (fun t => ∀ q : Fin 4, bit (argWord r 0) q.val = true → (s.reach q).calRun = false →
          (∃ p, reachOf p = q ∧ s.enabled p = true) → (t.reach q).calRun = true ∧ (t.reach q).calPend = false ∧ (t.chan c).busy = true
            ∧ ∀ p, reachOf p = q → s.enabled p = true → (t.port p).cal.running = true ∧ (t.port p).cal.single = false))
      ∧ (∀ p : Fin 16, fld (argWord r 0) 0 4 = p.val → Does (.calRead c r) s (fun t =>
          t.gives c 0x41 r [s.calStatus (0x10 + p.val), s.calStatus (0x04 + (reachOf p).val), s.calStatus (0x09 + (reachOf p).val)])))
  ∧ (∀ (s : State) (c : Fin 16) (r : Request) (p : Fin 16), s.takes c r 1 → fld (argWord r 0) 0 4 = p.val →
      ((s.port p).tdr.running = false → s.enabled p = true → Does (.diagTdr c r) s (fun t => t.answered c 0x50 r 0x0702
          ∧ (t.port p).tdr = { (s.port p).tdr with result := 3 } ∧ (t.port p).link = (s.port p).link))
      ∧ ((s.port p).tdr.running = false → s.enabled p = false → s.unforced → s.safeBlock (portBlock p.val) = false → Does (.diagTdr c r) s (fun t =>
          t.waitsFor c (.diagTdr p.val) ∧ (t.port p).link.state = .diag ∧ (t.port p).tdr.running = true ∧ (t.port p).tdr.burst = false
          ∧ (t.port p).tdr.prof = fld (argWord r 0) 8 2 ∧ (t.port p).tdr.avg = clampN 4 8 (fld (argWord r 0) 16 4)
          ∧ (t.port p).tdr.thr = clampN 2 100 (fld (argWord r 0) 24 8)))
      ∧ ((s.port p).tdr.running = true → Does (.diagTdr c r) s (fun t => t.waitsFor c (.diagTdr p.val) ∧ (t.port p).tdr = (s.port p).tdr)))
  ∧ (∀ (s : State) (c : Fin 16) (r : Request) (p : Fin 16), s.takes c r 1 → fld (argWord r 0) 0 4 = p.val →
      (fld (argWord r 0) 8 2 = 0 → Does (.diagWatchRead c r) s (fun t => t.gives c 0x51 r [(s.port p).watchStat, (s.port p).watch.val, (s.port p).watch.loc]
          ∧ (t.port p).watch = (s.port p).watch))
      ∧ (fld (argWord r 0) 8 2 = 1 → Does (.diagWatchCapture c r) s (fun t => t.waitsFor c (.diagWatch p.val)
          ∧ ((s.port p).link.state = .loconUp → (s.port p).quiet.state = .active → (t.port p).watch.capturing = true)
          ∧ ((s.port p).quiet.state ≠ .active → (t.port p).watch.wantCapture = !(s.port p).watch.capturing)))
      ∧ (fld (argWord r 0) 8 2 = 2 → Does (.diagWatchDiscard c r) s (fun t => t.answered c 0x51 r 0 ∧ t.result c 0 = (t.port p).watchStat
          ∧ (t.port p).watch.refWide = none ∧ (t.port p).watch.refNarrow = none ∧ (t.port p).watch.capturing = false)))
  ∧ (∀ (s : State) (p d : Fin 16), s.clocked = true → s.waiting (isWatch p) = some d → Does (.diagWatchCaptureTimeout p) s (fun t => s.ended t d 7 []))

/-- O40, derived: KEY_LOAD stores the unwrapped key, is refused for an index in use or a failed unwrap, and waits while the
store is zeroised or has no power; KEY_ERASE removes one key or all. JOURNAL_COMMIT writes SEQ + 1 into the slot not taken;
JOURNAL_READ answers up to 224 bytes of the taken slot. BIST_RUN starts a march on a bank in service, an element test, a
loopback or logic BIST, the last after the key store is zeroised, or is refused as busy; a port test that takes too long
answers TIMEOUT. Readings of the model that it rests on: notes/assumptions/49.md, notes/assumptions/50.md,
notes/assumptions/58.md. (R386, R410, R411, R412, R413, R415, R416, R417, R432, R433, R434) -/
def Obligations.KeyJournalAndTestCommands : Prop :=
  (∀ (s : State) (c : Fin 16) (r : Request) (i : Nat) (u : Option (BitVec 128)), s.takes c r 7 → i = fld (argWord r 0) 0 6 →
      (s.keys.zeroising.isSome = true ∨ s.forcedOff 243 = true → Does (.keyLoad c r u) s (fun t => t.waitsFor c (.keyLoad i u 0) ∧ t.keys = s.keys))
      ∧ (s.keys.zeroising = none → s.forcedOff 243 = false →
        (s.keyInUse i = true → Does (.keyLoad c r u) s (fun t => t.answered c 0x60 r 0x0502 ∧ t.keys = s.keys))
        ∧ (s.keyInUse i = false → (s.otp.kek = false ∨ u = none) → Does (.keyLoad c r u) s (fun t => t.answered c 0x60 r 0x0501
            ∧ t.keys = { s.keys with unwrapFail := satAdd 0xFFFF s.keys.unwrapFail 1 }))
        ∧ (∀ v, s.keyInUse i = false → s.otp.kek = true → u = some v → Does (.keyLoad c r u) s (fun t => t.answered c 0x60 r 0
            ∧ t.keys.key? i = some v ∧ t.keys.zeroOk = false ∧ ∀ j ≠ i, t.keys.key? j = s.keys.key? j))))
  ∧ (∀ (s : State) (c : Fin 16) (r : Request) (i : Nat), s.takes c r 1 → i = fld (argWord r 0) 0 8 →
      (64 ≤ i → i < 255 → Does (.keyErase c r) s (fun t => t.answered c 0x61 r 4 ∧ t.keys = s.keys))
      ∧ (i < 64 → s.keyInUse i = true → Does (.keyErase c r) s (fun t => t.answered c 0x61 r 0x0502 ∧ t.keys = s.keys))
      ∧ (i < 64 → s.keyInUse i = false → s.keys.key? i = none → Does (.keyErase c r) s (fun t => t.answered c 0x61 r 0x0503 ∧ t.keys = s.keys))
      ∧ (i < 64 → s.keyInUse i = false → (s.keys.key? i).isSome = true → Does (.keyErase c r) s (fun t => t.answered c 0x61 r 0 ∧ t.keys.key? i = none
          ∧ ∀ j ≠ i, t.keys.key? j = s.keys.key? j))
      ∧ (i = 255 → (∀ j < 64, s.keyInUse j = false) → Does (.keyErase c r) s (fun t => t.answered c 0x61 r 0 ∧ t.keys.keys = [])))
  ∧ (∀ (s : State) (c : Fin 16) (r : Request), s.takes c r 0 →
      (s.sup.pfailFrozen = true → Does (.journalCommit c r) s (fun t => t.waitsFor c .journalCommit ∧ t.journal.writing = none))
      ∧ (∀ y q, s.sup.pfailFrozen = false → s.journal.taken = some (y, q) → Does (.journalCommit c r) s (fun t => t.waitsFor c .journalCommit
          ∧ t.journal.writing = some false ∧ t.journal.target = (!y, q + 1) ∧ t.journal.body = s.journalBody ∧ t.journal.taken = some (y, q))))
  ∧ (∀ (s : State) (c : Fin 16) (r : Request) (l : List Byte), s.takes c r 2 →
      (s.journal.taken = none → Does (.journalRead c r l) s (fun t => t.answered c 0x71 r 0x0602))
      ∧ (∀ y q, s.journal.taken = some (y, q) → Does (.journalRead c r l) s (fun t => t.gives c 0x71 r
          (wd (min 224 (l.length - (argWord r 1).toNat)) :: q :: dataWords ((l.drop (argWord r 1).toNat).take 224)))))
  ∧ (∀ (s : State) (c : Fin 16) (r : Request) (n : Nat), s.takes c r 2 → n = (argWord r 1).toNat →
      (fld (argWord r 0) 0 4 = 0 →
        (68 ≤ n → Does (.bistRunMarch c r) s (fun t => t.answered c 0x80 r 4 ∧ t.test = s.test))
        ∧ (∀ b : Fin 68, b.val = n → (s.mayRotate = false ∨ ∀ l, s.bank b ≠ .inService l) → Does (.bistRunMarch c r) s (fun t => t.answered c 0x80 r 5 ∧ t.basin = s.basin))
        ∧ (∀ (b tg : Fin 68) (l : Nat), b.val = n → s.bank b = .inService l → s.mayRotate = true → s.lowestSpare = some tg → Does (.bistRunMarch c r) s (fun t =>
            t.waitsFor c .bistMarch ∧ t.keeper.owns 5 = true ∧ t.bank b = .copying tg.val l ∧ t.bank tg = .receiving l ∧ t.test.bank = some n
            ∧ t.test.marchChan = some c.val)))
      ∧ (fld (argWord r 0) 0 4 = 1 → ∀ f : List Element,
        (16 ≤ n → Does (.bistRunPortTest c r f) s (fun t => t.answered c 0x80 r 4 ∧ ∀ q, (t.port q).test = (s.port q).test))
        ∧ (∀ p : Fin 16, p.val = n → (s.port p).test.running = false → s.testHeld = false → s.governor p = none →
          Does (.bistRunPortTest c r f) s (fun t => (t.port p).test.running = false
            ∧ ((∀ i < 106, elementOf i ∉ f) → t.gives c 0x80 r [1, 0] ∧ (t.port p).test.badSlices = (s.port p).test.badSlices ∧ (t.port p).test.badCells = (s.port p).test.badCells)
            ∧ (∀ i < 106, elementOf i ∈ f → (∀ j < i, elementOf j ∉ f) → t.answered c 0x80 r 0x0704 ∧ t.result c 0 = 257
                ∧ t.result c 1 = elementWord (some (elementOf i))
                ∧ (if i < 34 then (t.port p).test.badSlices.getLsbD i else (t.port p).test.badCells.getLsbD (i - 34)) = true)))
        ∧ (∀ p : Fin 16, p.val = n → (s.port p).test.running = false → s.testHeld = true → Does (.bistRunPortTest c r f) s (fun t =>
            t.waitsFor c (.bistPortTest p.val) ∧ (t.port p).test.running = true ∧ (t.port p).test.item = 0)))
      ∧ (fld (argWord r 0) 0 4 = 2 → ∀ p : Fin 16, p.val = n →
        (s.loopOk p = true → Does (.bistRunLoopback c r) s (fun t => t.waitsFor c (.bistLoopback p.val) ∧ (t.port p).test.loop = true))
        ∧ (s.loopOk p = false → Does (.bistRunLoopback c r) s (fun t => t.answered c 0x80 r 5 ∧ ∀ q, (t.port q).test = (s.port q).test)))
      ∧ (fld (argWord r 0) 0 4 = 3 → ∀ ok : Bool,
        (s.lbistOk = false → Does (.bistRunLbist c r ok) s (fun t => t.answered c 0x80 r 5 ∧ t.keys = s.keys ∧ t.keeper.mode = .running))
        ∧ (s.lbistOk = true → s.keys.zeroising = none → ok = true → Does (.bistRunLbist c r ok) s (fun t => t.gives c 0x80 r [3, 0]
            ∧ t.keys.keys = [] ∧ t.keys.identity = false ∧ t.keys.zeroOk = true ∧ t.keeper.mode = .lbist))
        ∧ (s.lbistOk = true → s.keys.zeroising = none → ok = false → Does (.bistRunLbist c r ok) s (fun t => t.keys.zeroising = some 3 ∧ t.keys.keys = []
            ∧ t.keeper.mode = .running))))
  ∧ (∀ (s : State) (p d : Fin 16), s.clocked = true → s.waiting (isPortTest p) = some d → Does (.bistPortTestTimeout p) s (fun t => s.ended t d 7 []))

/-- O41, derived: EVENT_FETCH answers the records the ring still holds from a sequence on. REMOTE_CMD is refused while the link
is not up; a request queues a REMOTE cell with a REQ_ID of the part and waits; an answer must name an operation that waits
for it and takes that operation out; 100 ms without an answer give 0x0301, and 90 ms without the host make the keeper answer
STATUS 3. FW_STAGE takes a chunk that begins or follows on; FW_ACTIVATE takes a valid image with a higher VERSION, and with
NOW a chip soft reset follows. Readings of the model that it rests on: notes/assumptions/6.md, notes/assumptions/43.md,
notes/assumptions/51.md. (R51, R222, R377, R379, R383, R385, R386, R390, R391) -/
def Obligations.EventRemoteFirmwareCommands : Prop :=
  (∀ (s : State) (c : Fin 16) (r : Request) (n : Nat) (l : List EventRec), s.takes c r 2 → n = fld (argWord r 1) 0 3 → l = s.ring.kept →
      (n = 0 → Does (.eventFetch c r) s (fun t => t.answered c 0x90 r 4))
      ∧ (1 ≤ n → Does (.eventFetch c r) s (fun t => t.ring = s.ring ∧ t.gives c 0x90 r
          (wd ((l.filter (fun e => decide ((e.seq - argWord r 0).toNat < 2 ^ 31))).take n).length
            :: (match l with | e :: _ => e.seq | [] => s.ring.nextSeq)
            :: ((l.filter (fun e => decide ((e.seq - argWord r 0).toNat < 2 ^ 31))).take n).flatMap (fun e => e.words.take 8)))))
  ∧ (∀ (s : State) (c : Fin 16) (r : Request) (p : Fin 16) (arg : BitVec 128), fld (argWord r 0) 0 4 = p.val →
      arg = argOf [argWord r 1, argWord r 2, argWord r 3, argWord r 4] →
      (bit (argWord r 0) 24 = false → s.takes c r 5 →
        ((s.port p).link.state ≠ .loconUp → Does (.remoteCmdRequest c r) s (fun t => t.answered c 0xA0 r 0x0302 ∧ (t.port p).tow = (s.port p).tow))
        ∧ ((s.port p).link.state = .loconUp → Does (.remoteCmdRequest c r) s (fun t => ∃ id, t.waitsFor c (.remote p.val id false)
            ∧ (t.port p).tow.ready = (s.port p).tow.ready ++ [(⟨7, 0, remotePayload (BitVec.ofNat 8 (fld (argWord r 0) 8 8)) false id (BitVec.ofNat 8 (fld (argWord r 0) 16 8)) 0 arg⟩ : TxCell)])))
      ∧ (bit (argWord r 0) 24 = true → s.takes c r 6 → ∀ id : BitVec 16, id = BitVec.ofNat 16 (fld (argWord r 5) 0 16) → (s.port p).link.state = .loconUp →
        ((∀ e ∈ (s.port p).remIn, e.1 ≠ id) → Does (.remoteCmdAnswer c r) s (fun t => t.answered c 0xA0 r 4 ∧ (t.port p).tow = (s.port p).tow))
        ∧ ((∃ e ∈ (s.port p).remIn, e.1 = id) → Does (.remoteCmdAnswer c r) s (fun t => t.waitsFor c (.remote p.val id true)
            ∧ (∀ e ∈ (t.port p).remIn, e.1 ≠ id)
            ∧ (t.port p).tow.ready = (s.port p).tow.ready ++ [(⟨7, 0, remotePayload (BitVec.ofNat 8 (fld (argWord r 0) 8 8)) true id (BitVec.ofNat 8 (fld (argWord r 0) 16 8)) (BitVec.ofNat 8 (fld (argWord r 5) 16 8)) arg⟩ : TxCell)]))))
  ∧ (∀ (s : State) (p : Fin 16) (id : BitVec 16), s.clocked = true →
      (∀ d, s.waiting (isRemote p id false) = some d → Does (.remoteAnswerTimeout p id) s (fun t => s.ended t d 0x0301 []))
      ∧ (∀ op tag, (s.port p).remIn.find? (fun e => e.1 == id) = some (id, op, tag) → Does (.remoteInHostTimeout p id) s (fun t =>
          (∀ e ∈ (t.port p).remIn, e.1 ≠ id)
          ∧ (t.port p).tow.ready = (s.port p).tow.ready ++ [(⟨7, 0, remotePayload op true id tag 3 0⟩ : TxCell)])))
  ∧ (∀ (s : State) (c : Fin 16) (r : Request) (off n : Nat) (ok : Bool), off = fld (argWord r 0) 0 24 → n = fld (argWord r 1) 0 4 → s.takes c r (4 + 4 * min 14 n) →
      ((off % 16 ≠ 0 ∨ n = 0 ∨ n = 15) → Does (.fwStage c r ok) s (fun t => t.answered c 0xF0 r 4 ∧ t.keeper = s.keeper))
      ∧ (off % 16 = 0 → 1 ≤ n → n ≤ 14 → bit (argWord r 0) 31 = false → s.keeper.fw.next ≠ some off →
          Does (.fwStage c r ok) s (fun t => t.answered c 0xF0 r 0x0402 ∧ t.keeper = s.keeper))
      ∧ (off % 16 = 0 → 1 ≤ n → n ≤ 14 → (bit (argWord r 0) 31 = true ∨ s.keeper.fw.next = some off) →
          Does (.fwStage c r ok) s (fun t => t.answered c 0xF0 r (if ok then 0 else 0x0404) ∧ t.keeper.fw.next = if ok then some (off + 16 * n) else none)))
  ∧ (∀ (s : State) (c : Fin 16) (r : Request) (m : ImageReport) (ok : Bool) (j : JournalReport), s.takes c r 0 →
      (s.imageOk { m with magicOk := true } = false → Does (.fwActivate c r m ok j) s (fun t => t.answered c 0xF1 r 0x0401 ∧ t.keeper = s.keeper))
      ∧ (s.imageOk { m with magicOk := true } = true → m.version.toNat ≤ s.keeper.version.toNat →
          Does (.fwActivate c r m ok j) s (fun t => t.answered c 0xF1 r 0x0403 ∧ t.keeper = s.keeper))
      ∧ (s.imageOk { m with magicOk := true } = true → s.keeper.version.toNat < m.version.toNat → ok = false →
          Does (.fwActivate c r m ok j) s (fun t => t.answered c 0xF1 r 0x0404 ∧ t.keeper = s.keeper))
      ∧ (s.imageOk { m with magicOk := true } = true → s.keeper.version.toNat < m.version.toNat → ok = true →
          Does (.fwActivate c r m ok j) s (fun t => t.gives c 0xF1 r [m.version] ∧ t.keeper.fw = { next := none, staged := true, resetDue := bit (argWord r 0) 0 }
            ∧ t.keeper.version = s.keeper.version)))
  ∧ (∀ s : State, s.clocked = true →
      (s.keeper.fw.resetDue = false → Does .fwActivateReset s (fun t => t.regs = s.regs ∧ t.keeper = s.keeper))
      ∧ (s.keeper.fw.resetDue = true → s.sup.stage = .released → Does .fwActivateReset s (fun t => t.sup.softLock = true ∧ t.sup.safeN = false ∧ t.clk = s.clk ∧ t.time.now = s.time.now
          ∧ (∀ k, t.reg k = if keptKey k then s.reg k else rstWord s.otp k)
          ∧ t.keeper.mode = (if s.sup.bootSel = 3 then .boardTest else if s.sup.bootSel = 2 then .romWait else .loading))))

/-- O42, derived: A tick counts; with the clocks running vehicle time advances by exactly 32/5 (2^40 + rho) units with the
fifths carried, a ramp whose last step is over ends and a due one begins, token buckets fill and the 1 ms counts turn over.
A slew that is used up ends. A TSYNC edge at least 1 us after the last is captured less 22 ns and loads a waiting TIME_SET;
an earlier one is ignored. TMARK rises within a tick of a whole multiple of its period and falls after its width. A window
that is due opens, and leaves the calendar at its stop; instants act and leave. A snapshot is taken unless a copy runs,
which is counted as missed; a finished copy fills the buffer that is not selected. Readings of the model that it rests on:
notes/assumptions/9.md, notes/assumptions/10.md, notes/assumptions/13.md, notes/assumptions/14.md, notes/assumptions/16.md.
(R133, R210, R242, R275, R276, R277, R278, R279, R289, R291, R402) -/
def Obligations.TimeRows : Prop :=
  (∀ s : State,
      (s.clocked = false → Does .timeTick s (fun t => t.ticks = s.ticks + 1 ∧ t.time = s.time))
      ∧ (s.clocked = true → Does .timeTick s (fun t => t.ticks = s.ticks + 1 ∧ t.time = s.time.tick s.slewRate
          ∧ (s.time.slew = none → 0 ≤ (2 ^ 40 : Int) + s.time.rho →
              (t.time.now : Int) * 5 + t.time.fifths = s.time.now * 5 + s.time.fifths + 32 * ((2 ^ 40 : Int) + s.time.rho) ∧ t.time.fifths < 5)
          ∧ (∀ q x, s.queue? q = some x → t.queue? q = some { x with credit := min (max (19200 * 80000) (x.bRes * 100000) : Nat) (x.credit + (64 * x.bRes : Nat)) })
          ∧ ∀ p : Fin 16, (∀ a, (s.port p).tx.ramp = some a → a.start + a.len ≤ s.ticks + 1 → (s.port p).tx.nextRamp = none → (t.port p).tx.ramp = none ∧ (t.port p).tx.on = a.up)
              ∧ (∀ a, (s.port p).tx.ramp = none → (s.port p).tx.nextRamp = some a → a.start ≤ s.ticks + 1 → a.up ≠ (s.port p).tx.on →
                  (t.port p).tx.ramp = some a ∧ (t.port p).tx.on = true)
              ∧ ((s.ticks + 1) % 156250 = 0 → (t.port p).snd.resentLast = (s.port p).snd.resent ∧ (t.port p).snd.nacksInLast = (s.port p).snd.nacksIn)))
      ∧ (s.clocked = true → Does .slewDone s (fun t => t.time = if s.time.slew = some 0 then { s.time with slew := none } else s.time))
      ∧ (∀ k : Fin 64, s.clocked = true →
          (s.edgeSoon k.val = true → Does (.tsyncEdge k) s (fun t => t.time = s.time))
          ∧ (s.edgeSoon k.val = false → s.time.setWait = [] → Does (.tsyncEdge k) s (fun t => t.time = { s.time with
              capS := s.time.now - (k.val * (subNs / 10) + 22 * subNs), capSeq := s.time.capSeq + 1, capTick := some (s.ticks * 64 - k.val) }))
          ∧ (∀ v (c : Fin 16), s.edgeSoon k.val = false → s.time.setWait = [(v, c.val)] → Does (.tsyncEdge k) s (fun t =>
              t.time.now = v + (k.val * (subNs / 10) + 22 * subNs) ∧ t.time.setWait = [] ∧ (t.chan c).done = true ∧ fld ((t.chan c).resp.get 1) 0 16 = 0)))
      ∧ (∀ per, s.clocked = true → s.markPeriod = some per →
          Does .tmarkRise s (fun t => t.time = if s.time.now % (per * subNs) < 7 * subNs then { s.time with tmark := true, tmarkUp := s.ticks } else s.time)
          ∧ Does .tmarkFall s (fun t => t.time.tmark = (s.time.tmark && !decide (s.markWidth ≤ (s.ticks - s.time.tmarkUp) * 64)))))
  ∧ (∀ (s : State) (e : Fin 1024) (x : CalEntry), s.clocked = true → s.cal? e.val = some x →
      (x.kind.window = true → s.calDue x = false → Does (.windowStart e) s (fun t => t.time = s.time))
      ∧ (x.kind.window = true → s.calDue x = true → x.empty = false → Does (.windowStart e) s (fun t =>
          t.cal? e.val = some { x with isOpen := true, acted := x.acted + 1 } ∧ ∀ j ≠ e.val, t.cal? j = s.cal? j))
      ∧ (x.kind.window = true → s.calDue x = true → x.empty = true → x.repeatK = 0 → Does (.windowStart e) s (fun t => t.cal? e.val = none))
      ∧ (s.calStops x = false → ∀ f, Does (.windowStop e f) s (fun t => t.time = s.time))
      ∧ (s.calStops x = true → x.kind ≠ .testSlice → ∀ f, (x.repeatK = 0 ∨ x.left = 1) → Does (.windowStop e f) s (fun t => t.cal? e.val = none))
      ∧ (x.kind = .hostEvent → s.calDue x = true → s.ringRoom → x.repeatK = 0 → Does (.hostEventInstant e) s (fun t => t.cal? e.val = none ∧ t.told 0x0034 2 0 (wd e.val)))
      ∧ (x.kind = .tmark → s.calDue x = true → x.repeatK = 0 → Does (.tmarkPulseInstant e) s (fun t => t.cal? e.val = none ∧ t.time.tmark = true ∧ t.time.tmarkUp = s.ticks)))
  ∧ (∀ s : State, s.clocked = true →
      (s.tally.due = true → s.dueSnapshots = [] → s.safeBlock 4 = false →
        (s.tally.copying = none → Does .snapshotTake s (fun t => t.tally.due = false ∧ t.tally.seq = s.tally.seq + 1 ∧ t.tally.missed = 0
          ∧ t.tally.copying = some { seq := s.tally.seq + 1, time := s.time.now, missed := s.tally.missed, counters := s.tally.counters, slots := s.tally.slots }))
        ∧ (∀ k, s.tally.copying = some k → Does .snapshotTake s (fun t => t.tally.seq = s.tally.seq ∧ t.tally.missed = s.tally.missed + 1 ∧ t.tally.copying = some k)))
      ∧ (∀ k, s.tally.copying = some k → s.ringRoom → Does .snapshotCopyDone s (fun t => t.tally.copying = none ∧ t.tally.buf = s.tally.bufWant.getD s.tally.buf
          ∧ (if s.tally.buf then t.tally.buf0 = some k ∧ t.tally.buf1 = s.tally.buf1 else t.tally.buf1 = some k ∧ t.tally.buf0 = s.tally.buf0)
          ∧ t.told 0x0051 4 0 (wd k.seq))))

/-- O43, derived: A sink in a Locon mode makes a REQ ready when its interval has passed; a source makes none. A source that
takes a REQ acknowledges it and answers a SYNC that names the last pilot it sent, that pilot's time, the echoed S2 and T4 -
T1. A sink that takes the SYNC of its last REQ, with neither end stepped, has the offset half of (T2 - T1) - (T4 - T3),
steps its time beyond 1 us and else slews; a SYNC of another REQ or of a stepped exchange changes no time. A REQ unanswered
for 1 s raises XFER_NO_SOURCE. Readings of the model that it rests on: notes/assumptions/3.md. (R104, R107, R281, R282,
R283, R284) -/
def Obligations.TimeTransfer : Prop :=
  ∀ (s : State) (p : Fin 16), s.clocked = true →
    (s.isSource p = false → (s.port p).loconRuns = true → Does (.timeReqTimer p) s (fun t =>
        (t.port p).tow.ready = (s.port p).tow.ready ++ [⟨8, 0, List.replicate 24 0⟩] ∧ (t.port p).xferStep = false))
    ∧ (s.isSource p = true → Does (.timeReqTimer p) s (fun t => (t.port p).tow = (s.port p).tow))
    ∧ (∀ (h : CellHdr) (s2 : Word) (t4 t1 : Nat), s.actsOn p h →
        t1 = s.time.now / 2 ^ 32 - ((s.port p).tow.symCount - pilotBefore (s.port p).tow.symCount).toNat
              * symbolPs ((s.port p).tow.profile == .wideRun) (max 7 (s.port p).tow.sf) * 256 / 1000 →
        (s.isSource p = true → Does (.timeReq p h s2 t4) s (s.acked p h 8 [⟨8, 0, timeSyncPayload false (pilotBefore (s.port p).tow.symCount) t1 s2 ((t4 : Int) - t1)⟩]))
        ∧ (s.isSource p = false → Does (.timeReq p h s2 t4) s (s.acked p h 8 [])))
    ∧ (∀ (h : CellHdr) (c : TimeSyncCell) (t2 t3 : Nat) (th : Int), s.actsOn p h → s.isSource p = false → th = (((t2 : Int) - c.t1) - (c.t4t1 + c.t1 - t3)) / 2 →
        ((s.port p).tow.reqS2 ≠ some c.s2 → Does (.timeSync p h c t2 t3) s (fun t => t.time = s.time ∧ s.acked p h 8 [] t))
        ∧ ((s.port p).tow.reqS2 = some c.s2 → (c.stepped = true ∨ (s.port p).xferStep = true) → Does (.timeSync p h c t2 t3) s (fun t => t.time = s.time ∧ (t.port p).tow.reqS2 = none))
        ∧ ((s.port p).tow.reqS2 = some c.s2 → c.stepped = false → (s.port p).xferStep = false → fld (s.act (regKey 2 0x09)) 8 5 = p.val →
            Does (.timeSync p h c t2 t3) s (fun t => (t.port p).tow.reqS2 = none
              ∧ (256000 < th.natAbs → t.time.now = ((s.time.now : Int) - th * 2 ^ 32).toNat ∧ t.time.slew = none)
              ∧ (th.natAbs ≤ 256000 → t.time.now = s.time.now ∧ t.time.slew = some (-th * 2 ^ 32 * 5)
                  ∧ t.time.lockRun = if th.natAbs ≤ 512 then s.time.lockRun + 1 else 0))))
    ∧ ((s.port p).tow.reqS2.isSome = true → s.ringRoom → Does (.xferNoSource p) s (fun t => (t.port p).tow.reqS2 = none ∧ t.told 0x0033 (portBlock p.val) p.val 0))

/-- O44, derived: Clause 98 leads to DISCOVER where extended next pages were exchanged and their OUIs match; else to standard
training in the highest mode that both advertise, or down with cause 2; under long-reach search a silent 300 ms leads to
DISCOVER at SF12, if the port allows a Locon mode. Standard training that completes brings the link up, and a standard link
that fails goes down with cause 9. A beacon moves the capability sequence on; a CAP cell that fails pairing, common modes or
roles takes the port down with cause 5, 4 or 6, and a valid one is held with its SF, nonce and roles, SOUND following where
it carries ACK. The end that holds one answers the beacon. DISCOVER that ends goes back to Clause 98, stays, or goes down
with cause 3, by the policy. A sounding is kept; the leader announces its mode; a second missing burst or the SOUND timeout
is cause 7. Readings of the model that it rests on: notes/assumptions/3.md, notes/assumptions/7.md, notes/assumptions/58.md.
(R73, R74, R75, R76, R77, R78, R79, R83, R112, R113, R114, R115) -/
def Obligations.LinkStart : Prop :=
  ∀ (s : State) (p : Fin 16), s.steady p →
    ((s.port p).link.state = .an →
      (∀ r : AnPages, (∀ e, r.ext = some e → e.oui ≠ s.oui p ∨ (s.port p).link.sentOui ≠ some e.oui) →
        (∀ m, (if r.msFault then none else highestStd ((s.port p).link.sentBase.1 &&& r.std)) = some m →
          Does (.clause98Resolved p r) s (fun t => (t.port p).link.state = .stdTrain ∧ (t.port p).link.train = some m ∧ (t.port p).link.leader = r.master
            ∧ (t.port p).quiet.eee = (r.eee && (s.port p).link.sentBase.2 && m != .t100)))
        ∧ ((if r.msFault then none else highestStd ((s.port p).link.sentBase.1 &&& r.std)) = none → Does (.clause98Resolved p r) s (s.fellWith p 2)))
      ∧ (∀ (r : AnPages) (e : ExtPage), r.ext = some e → e.oui = s.oui p → (s.port p).link.sentOui = some e.oui →
        Does (.clause98Resolved p r) s (fun t => (t.port p).link.state = .discover ∧ (t.port p).link.partnerLocon = true
          ∧ (t.port p).tow.profile = .narrowBursts ∧ (t.port p).tow.beaconSf = 7 ∧ (t.port p).tow.txCtr = 0 ∧ (t.port p).tow.partner = none))
      ∧ (policyOf (s.policy p) = 2 → s.sendsExt p = true →
        Does (.anPageTimeout p) s (fun t => (t.port p).link.state = .discover ∧ (t.port p).tow.beaconSf = 12)))
    ∧ ((policyOf (s.policy p) ≠ 2 ∨ s.sendsExt p = false) → Does (.anPageTimeout p) s (fun t => (t.port p).link = (s.port p).link))
    ∧ (∀ m, (s.port p).link.state = .stdTrain → (s.port p).link.train = some m → Does (.stdTrainingDone p) s (s.cameUp p m .stdUp))
    ∧ ((s.port p).link.state = .stdUp → Does (.stdLinkFail p) s (s.fellWith p 9))
    ∧ ((s.port p).link.state = .discover →
      Does (.beaconListenEnd p) s (fun t => (t.port p).tow.capSeq = (s.port p).tow.capSeq + 1 ∧ (t.port p).tow.beacons = (s.port p).tow.beacons + 1
          ∧ (t.port p).tow.ackSent = ((s.port p).tow.ackSent || (s.port p).tow.partner.isSome) ∧ (t.port p).link = (s.port p).link
          ∧ (t.port p).tow.lastCell = cellBytes (s.linkKey p) (s.port p).tow.nonce (s.port p).tow.peerNonce 0 { type := 1, payload := capPayload (s.ownCap p) })
      ∧ ((s.port p).tow.partner ≠ none → Does (.beaconAnswer p) s (fun t => (t.port p).tow.capSeq = (s.port p).tow.capSeq + 1
          ∧ (t.port p).tow.ackSent = true ∧ (t.port p).link = (s.port p).link))
      ∧ ((s.port p).tow.partner = none → Does (.beaconAnswer p) s (s.still p))
      ∧ (policyOf (s.policy p) = 1 → Does (.discoverTimeout p) s (fun t => (t.port p).link = (s.port p).link))
      ∧ (policyOf (s.policy p) = 2 → Does (.discoverTimeout p) s (fun t => (t.port p).link.state = .an ∧ (t.port p).link.pages = s.anPages p))
      ∧ (policyOf (s.policy p) = 0 → Does (.discoverTimeout p) s (s.fellWith p 3))
      ∧ ∀ (c : CapCell) (mac : Word) (sf : Nat), c.oui = s.oui p →
        (s.capAuth p c mac = false → Does (.cap p c mac sf) s (s.fellWith p 5))
        ∧ (s.capAuth p c mac = true → (commonSet (s.policy p) c c.dir.toNat).isEmpty = true → Does (.cap p c mac sf) s (s.fellWith p 4))
        ∧ (s.capAuth p c mac = true → (commonSet (s.policy p) c c.dir.toNat).isEmpty = false →
          (resolveRole (roleOf (s.policy p)) c.role.toNat (s.port p).tow.nonce c.nonce = .conflict → Does (.cap p c mac sf) s (s.fellWith p 6))
          ∧ (resolveRole (roleOf (s.policy p)) c.role.toNat (s.port p).tow.nonce c.nonce = .tie → Does (.cap p c mac sf) s (fun t => (t.port p).link = (s.port p).link
              ∧ (t.port p).tow.partner = (s.port p).tow.partner))
          ∧ ∀ r, resolveRole (roleOf (s.policy p)) c.role.toNat (s.port p).tow.nonce c.nonce = r → (r = .leader ∨ r = .follower) →
              Does (.cap p c mac sf) s (fun t => (t.port p).tow.partner = some c ∧ (t.port p).tow.adopted = some (clampN 7 12 sf) ∧ (t.port p).tow.rx.nonce = c.nonce
                ∧ (t.port p).link.leader = decide (r = .leader) ∧ (t.port p).link.dirPartner = c.dir
                ∧ (t.port p).link.state = if c.ack then .sound else .discover)))
    ∧ (∀ (c : CapCell) (mac : Word) (sf : Nat), c.oui ≠ s.oui p →
        Does (.cap p c mac sf) s (fun t => (t.port p).link = (s.port p).link ∧ (t.port p).tow = (s.port p).tow))
    ∧ ((s.port p).link.state = .sound →
      (∀ x snr, (s.port p).link.leader = false → Does (.soundingBurst p x snr) s (fun t => (t.port p).tow.snd = some x ∧ (t.port p).tow.sndSeq = (s.port p).tow.sndSeq + 1
          ∧ (t.port p).tow.soundGot = true ∧ (t.port p).tow.soundSent = true ∧ (t.port p).tow.snrDb10 = min 600 snr))
      ∧ (∀ x snr u, (s.port p).link.leader = true → (s.port p).link.train = none →
          u = ((s.newSounding p x).modTow p (fun w => { w with soundGot := true, snrDb10 := min 600 snr })).runDue p →
          (∀ m f, u.choose p = (some m, f) → Does (.soundingBurst p x snr) s (fun t => (t.port p).tow.snd = some x ∧ (t.port p).link.train = some m ∧ (t.port p).link.forceFail = f ∧ (t.port p).link.forceOff = f
              ∧ (t.port p).tow.ready = (s.port p).tow.ready ++ [⟨2, 0, modePayload (u.modeCell p m)⟩]))
          ∧ (∀ f, u.choose p = (none, f) → Does (.soundingBurst p x snr) s (fun t => s.fellWith p 7 t ∧ (t.port p).link.excluded = [])))
      ∧ ((s.port p).tow.soundMiss = 0 → Does (.soundingBurstMissing p) s (fun t => (t.port p).tow.soundMiss = 1 ∧ (t.port p).link = (s.port p).link))
      ∧ ((s.port p).tow.soundMiss ≠ 0 → Does (.soundingBurstMissing p) s (s.fellWith p 7))
      ∧ Does (.soundTimeout p) s (s.fellWith p 7))

/-- O45, derived: A follower in SOUND that takes a MODE cell acknowledges it and is up at once in LCHIRP or learns its echo on
the wide run at 24 dB; in any other state it records and declines it. Each end has its ECHO_LEARN turn, then both transmit;
the leader then sends a GO with two seeds that are not 0. A follower takes a GO whose COUNT lies ahead, a seed of 0 as 1; at
the count 256 negated symbols begin, blocks following the last of them with each end's own seeds, and a leader without the
CACK sends another GO. A training that times out is cause 7, and three failures of a mode in a row exclude it. A HOLD that
ends starts the port unless something blocks it; a towpath lost in a running link is cause 8. Readings of the model that it
rests on: notes/assumptions/3.md, notes/assumptions/23.md, notes/assumptions/58.md. (R66, R73, R79, R81, R83, R89, R101,
R105, R106, R107, R118, R126) -/
def Obligations.LinkTraining : Prop :=
  ∀ (s : State) (p : Fin 16), s.steady p →
    (∀ (h : CellHdr) (c : ModeCell) (m : LineMode), s.actsOn p h → modeOf c.code.toNat = some m →
      ((s.port p).link.state = .sound → (s.port p).link.leader = false → isLocon m = true →
        (m = .lchirp → Does (.mode p h c) s (fun t => s.cameUp p .lchirp .loconUp t ∧ (t.port p).tow.profile = .narrowRun ∧ (t.port p).tow.sf = clampN 7 12 c.lchirpSf.toNat
            ∧ (t.port p).link.blocksOn = true ∧ s.acked p h 2 [] t))
        ∧ (m ≠ .lchirp → Does (.mode p h c) s (fun t => (t.port p).link.state = .echoLearn ∧ (t.port p).link.train = some m ∧ (t.port p).link.echoTurns = 0
            ∧ (t.port p).tow.profile = .wideRun ∧ (t.port p).tow.sf = clampN 11 12 c.wideSf.toNat ∧ (t.port p).tow.level = 24
            ∧ (t.port p).tx.precode = precodeAct m c.precode (fwdOut (s.policy p)) ∧ s.acked p h 2 [] t)))
      ∧ (((s.port p).link.state ≠ .sound ∨ (s.port p).link.leader = true ∨ isLocon m = false) → Does (.mode p h c) s (s.declines p h)))
    ∧ ((s.port p).link.state = .echoLearn →
      ((s.port p).link.echoTurns = 0 → Does (.echoLearnPhaseEnd p) s (fun t => (t.port p).link.state = .echoLearn ∧ (t.port p).link.echoTurns = 1))
      ∧ ((s.port p).link.echoTurns ≠ 0 → Does (.echoLearnPhaseEnd p) s (fun t => (t.port p).link.state = .fullDuplex ∧ (t.port p).link.echoTurns = 2)))
    ∧ (∀ m, (s.port p).link.state = .fullDuplex → (s.port p).link.train = some m →
      ((s.port p).link.leader = true → (s.port p).link.blocksOn = false → (s.port p).tablesReady m = true → Does (.fullDuplexEnd p) s (fun t => ∃ a b, a ≠ 0 ∧ b ≠ 0
          ∧ (t.port p).tx.seedL = a ∧ (t.port p).tx.seedF = b ∧ (t.port p).tow.ready = (s.port p).tow.ready ++ [⟨3, 0, goPayload 0 a b⟩]))
      ∧ ((s.port p).link.leader = true → (s.port p).link.blocksOn = false → (s.port p).tablesReady m = false → Does (.fullDuplexEnd p) s (fun t =>
          (t.port p).link.echoTurns = 3 ∧ (t.port p).tow = (s.port p).tow ∧ (t.port p).tx = (s.port p).tx))
      ∧ (((s.port p).link.leader = false ∨ (s.port p).link.blocksOn = true) → Does (.fullDuplexEnd p) s (fun t =>
          (t.port p).link = (s.port p).link ∧ (t.port p).tow = (s.port p).tow ∧ (t.port p).tx = (s.port p).tx))
      ∧ (∀ w, (s.port p).tow.goCount = some (w, true) → (s.port p).link.blocksOn = false → Does (.goCountReached p) s (fun t =>
          (t.port p).link.blocksOn = true ∧ (t.port p).link.blocksTick = s.ticks + negTicks m (fwdOut (s.policy p)) ∧ (t.port p).snd.synced = false
          ∧ (∀ r, (s.port p).tx.train = some r → (t.port p).tx.train = some { r with neg := some s.ticks })
          ∧ (t.port p).tx.memory = 0 ∧ (m ≠ .lchirp →
            (t.port p).tx.scr = (if (s.port p).link.leader then (s.port p).tx.seedL else (s.port p).tx.seedF)
            ∧ (t.port p).tx.descr = (if (s.port p).link.leader then (s.port p).tx.seedF else (s.port p).tx.seedL))))
      ∧ (∀ w, (s.port p).tow.goCount = some (w, false) → (s.port p).link.blocksOn = false → Does (.goCountReached p) s (fun t =>
          (t.port p).link.blocksOn = false ∧ ∃ a b, a ≠ 0 ∧ b ≠ 0 ∧ (t.port p).tow.ready = (s.port p).tow.ready ++ [⟨3, 0, goPayload 0 a b⟩]))
      ∧ (((s.port p).tow.goCount = none ∨ (s.port p).link.blocksOn = true) → Does (.goCountReached p) s (s.still p)))
    ∧ (∀ (h : CellHdr) (c : GoCell), s.actsOn p h →
      (s.goOk p c = true → Does (.go p h c) s (fun t => (t.port p).tow.goCount = some (c.count, true) ∧ (t.port p).tx.seedL = (if c.seedL = 0 then 1 else c.seedL)
          ∧ (t.port p).tx.seedF = (if c.seedF = 0 then 1 else c.seedF) ∧ s.acked p h 3 [] t))
      ∧ (s.goOk p c = false → Does (.go p h c) s (fun t => s.declines p h t ∧ (t.port p).tx = (s.port p).tx)))
    ∧ (∀ m, ((s.port p).link.state = .echoLearn ∨ (s.port p).link.state = .fullDuplex) → (s.port p).link.train = some m → Does (.trainingTimeout p) s (fun t => s.fellWith p 7 t
        ∧ (∀ k, (s.port p).link.lastFail = some (m, k) → (t.port p).link.lastFail = some (m, k + 1) ∧ (3 ≤ k + 1 → (t.port p).link.excluded.contains m = true))
        ∧ ((∀ k, (s.port p).link.lastFail ≠ some (m, k)) → (t.port p).link.lastFail = some (m, 1) ∧ (t.port p).link.excluded = (s.port p).link.excluded)))
    ∧ ((s.port p).link.state = .stdTrain → Does (.trainingTimeout p) s (s.fellWith p 7))
    ∧ ((s.port p).link.state = .hold →
      (s.blocker p = none → s.enabled p = true → s.patternAct p = 0 → Does (.holdEnd p) s (fun t =>
        (t.port p).link.state = (match s.forced p with
          | some .t100 | some .t1000 => .stdTrain
          | some m => if isLocon m && policyOf (s.policy p) == 1 then .discover else .an
          | none => if policyOf (s.policy p) = 1 then .discover else .an)
        ∧ ((t.port p).link.state = .an → (t.port p).link.pages = s.anPages p)))
      ∧ (s.blocker p = none → (s.enabled p = false ∨ s.patternAct p ≠ 0) → Does (.holdEnd p) s (fun t => (t.port p).link = (s.port p).link))
      ∧ (s.blocker p ≠ none → Does (.holdEnd p) s (fun t => (t.port p).link = (s.port p).link)))
    ∧ (((s.port p).link.state = .loconUp ∨ (s.port p).link.state = .shift) →
      ((s.port p).quiet.state ≠ .deep → Does (.towpathLoss p) s (s.fellWith p 8))
      ∧ ((s.port p).quiet.state = .deep → Does (.towpathLoss p) s (fun t => (t.port p).link = (s.port p).link)))

/-- O46, derived: An update sets the port's figure to what its receiver makes of the symbols of the millisecond. After a shift
it only counts the wait down; a PAM figure below the threshold for DN_DWELL updates shifts the leader to the R84 target with
a SHIFT cell, or makes the follower ask; one at or above it clears the dwell. The next mode up whose prediction has met its
entry threshold for UP_DWELL is shifted to. A third downshift within 60 s bars the mode. A follower takes a SHIFT cell,
acknowledges it and shifts; a leader takes a SHIFT_REQ as its own trigger, if the mode stands in the common set and the
policy allows the direction, kind 3 only as a direction; the other end declines the cell. A retrain that ends brings blocks;
a shift that has not converged goes to the next rung below, a forced upshift back to the mode left, or down with cause 8, 10
or 7. The bar on a mode ends. A start marker begins blocks in LCHIRP and ends the wake from deep quiet. Readings of the
model that it rests on: notes/assumptions/23.md, notes/assumptions/33.md. (R72, R83, R84, R85, R86, R87, R105, R118, R309,
R455) -/
def Obligations.LadderAndShifts : Prop :=
  ∀ (s : State) (p : Fin 16), s.steady p →
    (∀ (m : LineMode) (q : LineMeasure) (v : Nat), v = (if m = .lchirp then min 600 q.snrDb10 else (s.measure p q).1.getD (s.port p).link.ladder.mse) →
        (s.port p).link.asked = none → (s.port p).link.state = .loconUp → (s.port p).link.modeAct = some m → (s.port p).quiet.state = .active →
      Does (.ladderUpdate p q) s (fun t => (t.port p).link.ladder.mse = v)
      ∧ (0 < (s.port p).link.ladder.settle → Does (.ladderUpdate p q) s (fun t => (t.port p).link.state = .loconUp
          ∧ (t.port p).link.ladder.settle = (s.port p).link.ladder.settle - 1))
      ∧ ((s.port p).link.ladder.settle = 0 → isPam m = true → s.holdsForced p = false → (s.port p).quiet.pend = none → (s.port p).link.shift = none →
        ((v : Int) < dwellThr m + thrAdj (s.portReg p 5) → dnDwell (s.portReg p 5) ≤ (s.port p).link.ladder.below + 1 → downEn (s.policy p) = true →
          ((s.port p).link.leader = true → Does (.ladderUpdate p q) s (fun t => State.shifts p (s.downTarget p m) 0 false t
              ∧ (∃ sf, s.readied p ⟨4, 0, shiftPayload (modeCode (s.downTarget p m)) 0 (ownDir (s.policy p)) sf⟩ t)
              ∧ (2 ≤ downsOf (s.port p).link m s.ticks → (t.port p).link.upBars.contains m = true)))
          ∧ ((s.port p).link.leader = false → Does (.ladderUpdate p q) s (fun t => (t.port p).link.state = .loconUp
              ∧ s.readied p ⟨5, 0, shiftPayload (modeCode (s.downTarget p m)) 0 (ownDir (s.policy p)) 0⟩ t)))
        ∧ (dwellThr m + thrAdj (s.portReg p 5) ≤ (v : Int) →
          Does (.ladderUpdate p q) s (fun t => (t.port p).link.ladder.below = 0)
          ∧ ∀ u, s.upTarget p m = some u → s.meetsEntry p u = true → upDwell (s.portReg p 5) ≤ (s.port p).link.ladder.above + 1 → upEn (s.policy p) = true
              → s.upRefused p u = false →
            ((s.port p).link.leader = true → Does (.ladderUpdate p q) s (State.shifts p u 1 false))
            ∧ ((s.port p).link.leader = false → Does (.ladderUpdate p q) s (fun t => (t.port p).link.state = .loconUp
                ∧ s.readied p ⟨5, 0, shiftPayload (modeCode u) 1 (ownDir (s.policy p)) 0⟩ t)))))
    ∧ (∀ (h : CellHdr) (c : ShiftCell), modeOf c.target.toNat = none → Does (.shift p h c) s (s.still p) ∧ Does (.shiftReq p h c) s (s.still p))
    ∧ (∀ (h : CellHdr) (c : ShiftCell) (m : LineMode), s.actsOn p h → modeOf c.target.toNat = some m →
      (((s.port p).link.leader = true ∨ isLocon m = false) → Does (.shift p h c) s (s.declines p h))
      ∧ (((s.port p).link.leader = false ∨ isLocon m = false) → Does (.shiftReq p h c) s (s.declines p h)))
    ∧ (∀ (h : CellHdr) (c : ShiftCell) (m : LineMode), s.actsOn p h → modeOf c.target.toNat = some m → isLocon m = true → (s.port p).link.modeAct ≠ none
        → (s.port p).quiet.pend = none →
      ((s.port p).link.leader = false → ((s.port p).link.state = .loconUp ∨ (s.port p).link.state = .shift) →
        Does (.shift p h c) s (fun t => State.shifts p m c.kind.toNat true t ∧ (t.port p).link.blocksOn = false
          ∧ (t.port p).link.dirPartner = c.dir ∧ s.acked p h 4 [] t))
      ∧ ((s.port p).link.leader = true → (s.port p).link.state = .loconUp → (s.port p).quiet.state = .active → (s.port p).link.shift = none →
        (c.kind = 3 → Does (.shiftReq p h c) s (fun t => (t.port p).link.state = .loconUp ∧ (t.port p).link.dirPartner = c.dir ∧ s.acked p h 5 [] t))
        ∧ ∀ ok : Bool, ok = (((s.port p).link.dirPartner != c.dir && (s.port p).link.modeAct == some .l50a && c.kind == 0)
            || (((s.modLink p (fun l => { l with dirPartner := c.dir })).common p).contains m
              && (if c.kind = 1 then upEn (s.policy p) && !s.upRefused p m else if c.kind = 0 then downEn (s.policy p) else true))) → c.kind ≠ 3 →
          (ok = true → Does (.shiftReq p h c) s (fun t => State.shifts p m c.kind.toNat false t ∧ (t.port p).link.dirPartner = c.dir
            ∧ ∃ sf, s.acked p h 5 [⟨4, 0, shiftPayload (modeCode m) c.kind.toNat (ownDir (s.policy p)) sf⟩] t))
          ∧ (ok = false → Does (.shiftReq p h c) s (fun t => (t.port p).link.state = .loconUp ∧ (t.port p).link.dirPartner = c.dir ∧ s.acked p h 5 [] t))))
    ∧ (∀ sh, (s.port p).link.state = .shift → (s.port p).link.shift = some sh →
      (sh.acked = true → sh.retrained = false → sh.target ≠ .lchirp → (sh.target = .ldmt → (s.port p).tx.negated = true ∧ (s.port p).tablesReady .ldmt = true) →
        Does (.shiftRetrainEnd p) s (fun t =>
          (t.port p).link.shift = some { sh with retrained := true } ∧ (t.port p).link.blocksOn = true ∧ (t.port p).link.blocksTick = s.ticks
          ∧ (t.port p).snd.synced = false))
      ∧ (sh.retrained = true → Does (.shiftNotConverged p) s (s.still p))
      ∧ (sh.retrained = false →
        (sh.target = .lchirp → Does (.shiftNotConverged p) s (s.fellWith p 8))
        ∧ (sh.kind = 2 → sh.left = sh.target → sh.target ≠ .lchirp → Does (.shiftNotConverged p) s (s.fellWith p 10))
        ∧ (sh.kind = 2 → rung sh.target < rung sh.left → sh.target ≠ .lchirp → (s.port p).link.modeAct ≠ none → (s.port p).link.leader = true →
            Does (.shiftNotConverged p) s (fun t => State.shifts p sh.left 0 false t ∧ (t.port p).link.forceFail = true))
        ∧ (sh.target ≠ .lchirp → (sh.kind = 2 → rung sh.left < rung sh.target) →
          (below (s.common p) sh.target = [] → Does (.shiftNotConverged p) s (s.fellWith p 7))
          ∧ (∀ m l, below (s.common p) sh.target = m :: l → (s.port p).link.modeAct ≠ none → (s.port p).link.leader = true →
            Does (.shiftNotConverged p) s (fun t => State.shifts p m (if sh.kind = 1 then 0 else sh.kind) false t
              ∧ (sh.kind = 2 → (t.port p).link.forceFail = true))))
        ∧ (sh.target ≠ .lchirp → below (s.common p) sh.target ≠ [] → (sh.kind = 2 → sh.left ≠ sh.target) → (s.port p).link.leader = false →
            Does (.shiftNotConverged p) s (fun t => (t.port p).link.shift = some sh ∧ (t.port p).tow = (s.port p).tow
              ∧ (sh.kind = 2 → (t.port p).link.forceFail = true))))
      ∧ (sh.acked = true → sh.target = .lchirp → (s.port p).link.blocksOn = false → Does (.startMarkerReceived p) s (fun t => (t.port p).link.blocksOn = true)))
    ∧ (∀ m, Does (.upBarExpiry p m) s (fun t => (t.port p).link.upBars = (s.port p).link.upBars.filter (· != m) ∧ (t.port p).link.state = (s.port p).link.state))
    ∧ ((s.port p).link.state = .loconUp → (s.port p).quiet.state = .entering → (s.port p).quiet.listening = true →
        Does (.startMarkerReceived p) s (fun t => (t.port p).quiet.state = .active ∧ (t.port p).quiet.listening = false
          ∧ (t.port p).link.state = .loconUp ∧ (t.port p).link.blocksTick = s.ticks + s.wakeRest p))

/-- O47, derived: A CACK takes its cell from the waiting list and brings about what that cell asked for. A cell without its CACK
is due again, and after eight sends ends with CELL_TIMEOUT; a REMOTE_CMD whose request it was ends with REM_TIMEOUT. A MAC
failure is counted and reported; the eighth within 1 s takes the link down with cause 5. A TPSF cell names an SF and a
count, at which the SF changes; one without its CACK is sent anew. A NONCE cell begins a fresh receive state beside the old.
A cell of an unknown TYPE or with a bad CRC is counted only (event 15 for an unknown TYPE is the model's choice), an IDLE
cell ignored. A cell slot sends the pick or IDLE, its chirps with it. A pilot joins the last four, the offsets following
from its two peaks. BLOCK segments are gathered in order. Readings of the model that it rests on: notes/assumptions/54.md.
(R79, R85, R97, R101, R103, R104, R107, R108, R109, R110, R119, R390) -/
def Obligations.TowpathCells : Prop :=
  ∀ (s : State) (p : Fin 16), s.steady p →
    (∀ (h : CellHdr) (ctr : Word) (type : Byte) (e : AwaitCell), s.actsOn p h →
        (s.port p).tow.await.find? (fun a => a.counter == ctr && a.cell.type == type) = some e →
      Does (.cack p h ctr type) s (fun t => (t.port p).tow.await = (s.port p).tow.await.filter (fun a => a.counter != ctr)
          ∧ (t.port p).tow.slotQueue = (s.port p).tow.slotQueue.filter (fun a => a.1 != ctr)
        ∧ (e.cell.type = 2 → (s.port p).link.state = .sound → ∀ m, (s.port p).link.train = some m →
            (t.port p).link.state = if m = .lchirp then .loconUp else .echoLearn)
        ∧ (e.cell.type = 3 → ∀ w b, (s.port p).tow.goCount = some (w, b) → (t.port p).tow.goCount = some (w, true))
        ∧ (e.cell.type = 4 → ∀ sh, (s.port p).link.shift = some sh → sh.acked = false →
            (∀ a ∈ (s.port p).tow.await, a.cell.type = 4 → a.counter = ctr) → (∀ c ∈ (s.port p).tow.ready, c.type ≠ 4) →
            (t.port p).link.shift = some { sh with acked := true } ∧ (t.port p).link.blocksOn = false)
        ∧ (e.cell.type = 7 → (e.cell.payload.getD 1 0).getLsbD 0 = true → ∀ c, s.waiting (isRemote p (BitVec.ofNat 16 (beAt e.cell.payload 2 2)) true) = some c →
            s.ended t c 0 [])
        ∧ (e.cell.type = 10 → ∀ r, (s.port p).tow.tpsf = some r → (t.port p).tow.tpsf = some { r with acked := true })
        ∧ (e.cell.type = 11 → ∀ n, (s.port p).tow.newNonce = some n → (t.port p).tow.nonce = n ∧ (t.port p).tow.oldNonce = some (s.port p).tow.nonce
            ∧ (t.port p).tow.newNonce = none ∧ (t.port p).tow.txCtr = 0)))
    ∧ (∀ (h : CellHdr) (ctr : Word) (type : Byte), s.actsOn p h → (s.port p).tow.await.find? (fun a => a.counter == ctr && a.cell.type == type) = none →
      Does (.cack p h ctr type) s (fun t => (t.port p).link = (s.port p).link ∧ (t.port p).tow.await = (s.port p).tow.await
          ∧ (t.port p).tow.ready = (s.port p).tow.ready))
    ∧ (∀ (ctr : Word) (e : AwaitCell), (s.port p).tow.await.find? (fun a => a.counter == ctr) = some e → e.due = false →
      (e.cell.type = 9 → beAt e.cell.payload 0 1 / 16 = 1 → ahead (BitVec.ofNat 32 (beAt e.cell.payload 5 4)) (s.port p).tow.symCount = false →
        Does (.cellResendTimeout p ctr) s (fun t => (t.port p).link = (s.port p).link ∧ (t.port p).tow.await = (s.port p).tow.await.filter (fun a => a.counter != ctr)
          ∧ ((s.port p).quiet.state = .quiet → (s.port p).link.leader = true → ∃ c, s.readied p ⟨9, 0, quietPayload 1 c⟩ t)))
      ∧ ((e.cell.type = 9 → beAt e.cell.payload 0 1 / 16 ≠ 1 ∨ ahead (BitVec.ofNat 32 (beAt e.cell.payload 5 4)) (s.port p).tow.symCount = true) →
      (e.sends < 8 → Does (.cellResendTimeout p ctr) s (fun t => (t.port p).link = (s.port p).link
          ∧ (t.port p).tow.await = (s.port p).tow.await.map (fun a => if a.counter = ctr then { a with due := true } else a)))
      ∧ (8 ≤ e.sends → Does (.cellResendTimeout p ctr) s (fun t => (t.port p).link = (s.port p).link
          ∧ (t.port p).tow.await = (s.port p).tow.await.filter (fun a => a.counter != ctr)
          ∧ (s.ringSpace → t.noted 0x0014 p.val (wd e.cell.type.toNat))
          ∧ (e.cell.type = 7 → ∀ c, s.waiting (isRemote p (BitVec.ofNat 16 (beAt e.cell.payload 2 2)) ((e.cell.payload.getD 1 0).getLsbD 0)) = some c →
              s.ended t c 0x0301 [])))))
    ∧ (∀ ctr : Word, ((s.port p).tow.await.find? (fun a => a.counter == ctr)).all (fun e => e.due) = true → Does (.cellResendTimeout p ctr) s (s.still p))
    ∧ (∀ (type : Byte) (l : List Nat), (s.port p).hears = true → l = (s.port p).tow.macFails.filter (fun t => decide (s.ticks < t + secTicks 1)) ++ [s.ticks] →
      (l.length < 8 → Does (.macFail p type) s (fun t => (t.port p).tow.macFails = l ∧ (t.port p).link = (s.port p).link
          ∧ s.counts (portBlock p.val) 11 t ∧ (s.ringSpace → t.noted 0x0013 p.val (wd type.toNat))))
      ∧ (8 ≤ l.length → Does (.macFail p type) s (fun t => s.fellWith p 5 t ∧ (t.port p).tow.macFails = l ∧ (s.ringSpace → t.noted 0x0013 p.val (wd type.toNat)))))
    ∧ (∀ (h : CellHdr) (c : TpsfCell), s.actsOn p h → (s.port p).link.leader = false →
        Does (.tpsf p h c) s (fun t => (t.port p).tow.tpsf = some ⟨c.sf.toNat, c.lchirp, c.count, true⟩ ∧ s.acked p h 10 [] t))
    ∧ (∀ (h : CellHdr) (c : TpsfCell), s.actsOn p h → (s.port p).link.leader = true → Does (.tpsf p h c) s (s.declines p h))
    ∧ (∀ r, (s.port p).tow.tpsf = some r →
      (r.acked = true → Does (.sfChange p) s (fun t => (t.port p).tow.sf = r.sf ∧ (t.port p).tow.symCount = r.count ∧ (t.port p).rx.duSf = (s.port p).rx.duSf
          ∧ (t.port p).tow.tpsf = (if (s.port p).link.leader && (s.port p).link.state != .shift && (s.port p).tow.profile == .wideRun
              && r.sf != fld (s.portReg p 0x20) 12 4 then some ⟨fld (s.portReg p 0x20) 12 4, false, 0, false⟩ else none)))
      ∧ (r.acked = false → Does (.sfChange p) s (s.still p))
      ∧ (r.acked = false → (s.port p).link.leader = true → Does (.tpsfRenew p) s (fun t => (t.port p).tow.tpsf = some ⟨r.sf, r.lchirp, 0, false⟩
          ∧ (t.port p).tow.await = (s.port p).tow.await.filter (fun e => e.cell.type != 10) ∧ s.readied p ⟨10, 0, tpsfPayload r.sf r.lchirp 0⟩ t))
      ∧ ((r.acked = true ∨ (s.port p).link.leader = false) → Does (.tpsfRenew p) s (s.still p)))
    ∧ ((s.port p).tow.tpsf = none → Does (.sfChange p) s (s.still p) ∧ Does (.tpsfRenew p) s (s.still p))
    ∧ ((s.port p).tow.keyInUse ≠ none → 0xFFFF0000 ≤ (s.port p).tow.txCtr.toNat → (s.port p).tow.newNonce = none → (s.port p).hears = true →
        Does (.nonceRefreshStart p) s (fun t => ∃ n, (t.port p).tow.newNonce = some n ∧ (t.port p).tow.nonce = (s.port p).tow.nonce
          ∧ s.readied p ⟨11, 0, noncePayload n⟩ t))
    ∧ (((s.port p).tow.keyInUse = none ∨ (s.port p).tow.txCtr.toNat < 0xFFFF0000 ∨ (s.port p).tow.newNonce ≠ none ∨ (s.port p).hears = false) →
        Does (.nonceRefreshStart p) s (s.still p))
    ∧ (∀ (h : CellHdr) (n : BitVec 48), s.actsOn p h → Does (.nonce p h n) s (fun t => (t.port p).tow.rx = { nonce := n } ∧ (t.port p).tow.peerHeld = some (s.port p).tow.rx.nonce
        ∧ (t.port p).tow.rxOld = some ((s.takeCell p h).2.2.port p).tow.rx ∧ s.acked p h 11 [] t))
    ∧ Does (.nonceOldDrop p) s (fun t => (t.port p).tow = { (s.port p).tow with rxOld := none, oldNonce := none })
    ∧ Does (.idle p) s (s.still p)
    ∧ (∀ ty, Does (.unknownCell p ty) s (fun t => s.still p t ∧ s.counts (portBlock p.val) 15 t))
    ∧ (∀ b, Does (.cellCrcFail p b) s (fun t => s.still p t ∧ s.counts (portBlock p.val) 10 t))
    ∧ ((s.port p).hears = false → Does (.towpathCellSlot p) s (s.still p) ∧ ∀ a b c, Does (.pilot p a b c) s (s.still p))
    ∧ ((s.port p).hears = true →
      (∀ w, w = ((s.runDue p).port p).tow →
        (w.pick (s.port p).inLchirp = .idle → Does (.towpathCellSlot p) s (fun t => (t.port p).tow.lastCell = cellBytes none 0 0 0 ⟨0, 0, []⟩
          ∧ (t.port p).tow.symCount = advanceCount w.symCount w.perCell ∧ (t.port p).tow.ready = w.ready ∧ (t.port p).tow.rowCells = 0
          ∧ (t.port p).tow.chirps = runChirps w.symCount.toNat (cellShifts (max 7 w.sf) (t.port p).tow.lastCell)))
        ∧ (∀ a, w.pick (s.port p).inLchirp = .again a → Does (.towpathCellSlot p) s (fun t => (t.port p).tow.lastCell = a.bytes
          ∧ (t.port p).tow.symCount = advanceCount w.symCount w.perCell ∧ (t.port p).tow.txCtr = w.txCtr
          ∧ (t.port p).tow.chirps = runChirps w.symCount.toNat (cellShifts (max 7 w.sf) a.bytes)))
        ∧ (∀ i c n b, w.pick (s.port p).inLchirp = .fresh i c → n = (if cellAuth c.type && c.type != 1 then w.txCtr + 1 else w.txCtr) →
          b = cellBytes (s.linkKey p) w.nonce w.peerNonce (if (fixCount w c).type = 1 then 0 else n) (fixCount w c) →
          Does (.towpathCellSlot p) s (fun t => (t.port p).tow.lastCell = b ∧ (t.port p).tow.txCtr = n ∧ (t.port p).tow.ready = w.ready.eraseIdx i
            ∧ (t.port p).tow.symCount = advanceCount w.symCount w.perCell
            ∧ (t.port p).tow.chirps = runChirps w.symCount.toNat (cellShifts (max 7 w.sf) b)
            ∧ (c.type ≠ 1 → (t.port p).tow.await = if cellWantsAck c.type then w.await ++ [⟨n, fixCount w c, b, 1, false⟩] else w.await))))
      ∧ ∀ u v pr : Int, Does (.pilot p u v pr) s (fun t => (t.port p).tow.pilots = (decide ((v - pr).natAbs ≤ 64) :: (s.port p).tow.pilots).take 4
          ∧ (t.port p).tow.foff = foffOf ((s.port p).tow.profile == .wideRun) (s.port p).tow.sf u v ∧ (t.port p).tow.toff = toffOf u v))
    ∧ ((s.port p).inLchirp = false → ∀ k bs, Does (.block p k bs) s (s.still p))
    ∧ ((s.port p).inLchirp = true →
      (∀ bs, Does (.block p 0 bs) s (fun t => (t.port p).tow.blkAsm = some (bs.take 24, 1)))
      ∧ (∀ k bs acc, (s.port p).tow.blkAsm = some (acc, k) → k ≠ 0 → k ≠ 19 → Does (.block p k bs) s (fun t =>
          (t.port p).tow.blkAsm = some (acc ++ bs.take 24, k + 1)))
      ∧ (∀ bs acc, (s.port p).tow.blkAsm = some (acc, 19) → Does (.block p 19 bs) s (fun t => (t.port p).tow.blkAsm = none))
      ∧ (∀ k bs, k ≠ 0 → ((s.port p).tow.blkAsm.all (fun e => e.2 != k)) = true → Does (.block p k bs) s (s.still p)))

/-- O48, derived: A REMOTE cell whose counter is new is acknowledged and acts. STREAM_STOP and STREAM_START govern the tag of an
open outbound queue and answer STATUS 0, or 2 for a tag that names none; with ARG bit 0 the frames of class none not yet
packed are discarded. PING answers with its ARG, an undefined OP with STATUS 1. An application OP waits for the host and
raises two REMOTE_IN records. An answer ends the REMOTE_CMD that waits for it with the far STATUS and ARG. Readings of the
model that it rests on: notes/assumptions/6.md, notes/assumptions/51.md. (R107, R222, R385, R390) -/
def Obligations.RemoteCells : Prop :=
  ∀ (s : State) (p : Fin 16) (h : CellHdr) (c : RemoteCell), s.clocked = true → s.actsOn p h →
    (s.tagOpen p c.tag = true →
      (argByte0 c.arg % 2 = 0 → Does (.streamStop p h c) s (fun t => (t.port p).stopped.contains c.tag = true
          ∧ s.acked p h 7 [⟨7, 0, remotePayload c.op true c.reqId c.tag 0 0⟩] t ∧ t.basin = s.basin))
      ∧ (argByte0 c.arg % 2 = 1 → Does (.streamStop p h c) s (fun t => (t.port p).stopped.contains c.tag = true
          ∧ s.acked p h 7 [⟨7, 0, remotePayload c.op true c.reqId c.tag 0 0⟩] t
          ∧ t.basin.tickets = s.basin.tickets.filter (fun x => !(s.unpacked (tagQueue p c.tag)).contains x.id)))
      ∧ Does (.streamStart p h c) s (fun t => (t.port p).stopped = (s.port p).stopped.filter (· != c.tag)
          ∧ s.acked p h 7 [⟨7, 0, remotePayload c.op true c.reqId c.tag 0 0⟩] t))
    ∧ (s.tagOpen p c.tag = false →
      Does (.streamStop p h c) s (fun t => (t.port p).stopped = (s.port p).stopped ∧ s.acked p h 7 [⟨7, 0, remotePayload c.op true c.reqId c.tag 2 0⟩] t)
      ∧ Does (.streamStart p h c) s (fun t => (t.port p).stopped = (s.port p).stopped ∧ s.acked p h 7 [⟨7, 0, remotePayload c.op true c.reqId c.tag 2 0⟩] t))
    ∧ Does (.ping p h c) s (s.acked p h 7 [⟨7, 0, remotePayload c.op true c.reqId c.tag 0 c.arg⟩])
    ∧ Does (.remoteUnknownOp p h c) s (s.acked p h 7 [⟨7, 0, remotePayload c.op true c.reqId c.tag 1 0⟩])
    ∧ Does (.remoteApplication p h c) s (fun t => s.acked p h 7 [] t
        ∧ ((s.port p).remoteRuns = true → (t.port p).remIn = (s.port p).remIn.filter (fun e => e.1 != c.reqId) ++ [(c.reqId, c.op, c.tag)])
        ∧ (s.ringSpace → t.noted 0x001A p.val (wd (c.op.toNat + 256 * c.reqId.toNat + 2 ^ 24 * c.tag.toNat))
            ∧ t.told 0x001A (portBlock p.val) p.val ((argWords c.arg).getD 3 0)))
    ∧ (∀ ch, s.waiting (isRemote p c.reqId false) = some ch → Does (.remoteAnswer p h c) s (fun t => s.acked p h 7 [] t
        ∧ s.ended t ch (remStatus c.status) (wd c.status.toNat :: argWords c.arg)))

/-- O49, derived: The leader sends one ENTER for the first quiet window that may act, with QSF and depth from the registers. The
follower acknowledges an ENTER whose E lies ahead. At E an acknowledged entry acts: the narrow run at QSF, or in deep quiet
no towpath; the leader gives an unacknowledged one up with an ABORT and cause 4. An EXIT moves the exit, an ABORT drops the
entry. At the exit chip the link is active on the wide run, its count as if it had not stopped, and the main signal ramps up
1.3 µs later, the preamble before the first block. In deep quiet the follower starts early, both wake at D, and a follower
that hears no marker goes down with cause 8. A standard link with EEE enters LPI when no frame waits, and follows its
partner's. Readings of the model that it rests on: notes/assumptions/7.md. (R300, R302, R303, R304, R305, R308, R309, R310) -/
def Obligations.QuietRows : Prop :=
  ∀ (s : State) (p : Fin 16), s.steady p →
    (∀ (c : QuietCell), (s.port p).quiet.state = .active → (s.port p).quiet.pend = none →
      (∀ n e c1, s.quietEntry p = some (n, e) → s.skipCause p (e.lenPs.getD 0) = none →
          c1 = { c with deep := s.deepLen p (e.lenPs.getD 0), qsf := BitVec.ofNat 8 (qsfAct (s.portReg p 0x20)) } →
        Does (.quietEnterSend p c) s (fun t => (t.port p).quiet.pend = some (c1, false) ∧ (t.port p).quiet.window = some n
          ∧ s.readied p ⟨9, 0, quietPayload 0 c1⟩ t))
      ∧ (s.quietEntry p = none → Does (.quietEnterSend p c) s (fun t => s.still p t ∧ (t.port p).quiet = (s.port p).quiet)))
    ∧ (∀ (h : CellHdr) (c : QuietCell), s.actsOn p h →
      (s.enterOk p c = true → Does (.quietEnter p h c) s (fun t => (t.port p).quiet.pend = some (c, true) ∧ s.acked p h 9 [] t))
      ∧ (s.enterOk p c = false → Does (.quietEnter p h c) s (fun t => s.declines p h t ∧ (t.port p).quiet = (s.port p).quiet))
      ∧ ((s.port p).quiet.state = .quiet → (s.port p).link.leader = false → ahead c.xq (s.port p).tow.symCount = true →
          Does (.quietExit p h c) s (fun t => (t.port p).quiet.exit = some (c.xq, c.xchip) ∧ s.acked p h 9 [] t))
      ∧ (((s.port p).quiet.state ≠ .quiet ∨ (s.port p).link.leader = true ∨ ahead c.xq (s.port p).tow.symCount = false) →
          Does (.quietExit p h c) s (fun t => s.declines p h t ∧ (t.port p).quiet = (s.port p).quiet))
      ∧ Does (.quietAbort p h) s (fun t => (t.port p).quiet.pend = none ∧ (t.port p).quiet.state = (s.port p).quiet.state ∧ s.acked p h 9 [] t))
    ∧ (∀ c, (s.port p).quiet.pend = some (c, true) → Does (.quietEntryPoint p) s (fun t => (t.port p).quiet.pend = none
        ∧ (t.port p).quiet.entered = satAdd 0xFFFF (s.port p).quiet.entered 1 ∧ (t.port p).link = (s.port p).link
        ∧ (c.deep = false → (t.port p).quiet.state = .quiet ∧ (t.port p).quiet.exit = some (c.xq, c.xchip) ∧ (t.port p).tow.profile = .narrowRun
            ∧ (t.port p).tow.sf = clampN 7 12 c.qsf.toNat ∧ (t.port p).tow.symCount = 0)
        ∧ (c.deep = true → (t.port p).quiet.state = .deep ∧ (t.port p).tow.profile = .off)))
    ∧ (∀ c, (s.port p).quiet.pend = some (c, false) →
      ((s.port p).link.leader = true → Does (.quietEntryPoint p) s (fun t => (t.port p).quiet.pend = none ∧ (t.port p).quiet.skip = 4
          ∧ (t.port p).quiet.skipped = satAdd 0xFFFF (s.port p).quiet.skipped 1 ∧ (t.port p).quiet.state = (s.port p).quiet.state
          ∧ (t.port p).tow.ready = (s.port p).tow.ready.filter (fun e => e.type != 9) ++ [⟨9, 0, quietPayload 2 c⟩]
          ∧ (s.ringRoom → t.told 0x0019 (portBlock p.val) p.val 4)))
      ∧ ((s.port p).link.leader = false → Does (.quietEntryPoint p) s (fun t => (t.port p).quiet.pend = none
          ∧ (t.port p).quiet.state = (s.port p).quiet.state ∧ s.still p t)))
    ∧ ((s.port p).quiet.pend = none → Does (.quietEntryPoint p) s (s.still p))
    ∧ ((s.port p).quiet.state = .quiet → Does (.quietExitPoint p) s (fun t => (t.port p).quiet.state = .active ∧ (t.port p).quiet.exit = none
        ∧ (t.port p).tow.profile = .wideRun ∧ (t.port p).tow.symCount = (s.port p).wideNow s.ticks
        ∧ (t.port p).tx.memory = ((s.port p).tx.woken ((s.port p).link.modeAct.getD .l25s) (s.port p).link.leader).memory
        ∧ (t.port p).link.state = (s.port p).link.state
        ∧ ∃ up, (t.port p).tx.nextRamp = some up ∧ up.up = true ∧ up.start = s.ticks + wakeTicks ∧ up.start + up.len ≤ (t.port p).link.blocksTick))
    ∧ ((s.port p).quiet.state ≠ .quiet → Does (.quietExitPoint p) s (s.still p))
    ∧ ((s.port p).quiet.state = .deep → (s.port p).link.leader = false → Does (.deepQuietEarlyWake p) s (fun t => (t.port p).quiet.state = .entering
        ∧ (t.port p).quiet.listening = true ∧ s.still p t))
    ∧ (((s.port p).quiet.state ≠ .deep ∨ (s.port p).link.leader = true) → Does (.deepQuietEarlyWake p) s (s.still p))
    ∧ ((s.port p).quiet.state = .deep ∨ (s.port p).quiet.state = .entering → Does (.deepQuietEnd p) s (fun t => (t.port p).quiet.state = .entering
        ∧ (t.port p).quiet.listening = true ∧ (t.port p).tow.profile = .wideRun ∧ (t.port p).tow.symCount = 0 ∧ (t.port p).link = (s.port p).link))
    ∧ ((s.port p).quiet.state = .entering → (s.port p).quiet.listening = true → (s.port p).link.leader = false → Does (.deepQuietMarkerTimeout p) s (s.fellWith p 8))
    ∧ (((s.port p).quiet.state ≠ .entering ∨ (s.port p).quiet.listening = false ∨ (s.port p).link.leader = true) → Does (.deepQuietMarkerTimeout p) s (s.still p))
    ∧ ((s.port p).link.state = .stdUp → (s.port p).quiet.eee = true →
      (s.outWaiting p = false → Does (.lpiIdleTimeout p) s (fun t => (t.port p).quiet = { (s.port p).quiet with lpiTx := true } ∧ s.still p t))
      ∧ (s.outWaiting p = true → Does (.lpiIdleTimeout p) s (fun t => (t.port p).quiet = (s.port p).quiet))
      ∧ ∀ k, Does (.partnerLpi p k) s (fun t => (t.port p).quiet = { (s.port p).quiet with lpiRx := decide (k ≠ 2) } ∧ s.still p t))

/-- O50, derived: A fresh sounding of a running Locon link is kept, counted, and the predictions follow from it. In the learning
phases an automatic gain steps 0.5 dB down above 80 % and up below 70 %. The weakest floating cluster moves to a free window
with at least 6 dB more energy. A measured coupling within 50 dB takes a free path of its reach, or the weakest path when it
is 3 dB stronger; without AUTO, or while a port of the reach shifts, nothing is allocated. A symbol slip is counted and
drops TIM_LOCK for 1 ms. Readings of the model that it rests on: notes/assumptions/22.md, notes/assumptions/23.md,
notes/assumptions/58.md, notes/assumptions/60.md. (R116, R144, R148, R152, R154, R162, R166, R398) -/
def Obligations.ReceiveRows : Prop :=
  ∀ (s : State) (p : Fin 16), s.clocked = true →
    (((s.port p).link.state = .loconUp ∨ (s.port p).link.state = .shift) →
      (∀ x, (s.port p).hears = true → Does (.soundingRefresh p x) s (fun t => (t.port p).tow = { (s.port p).tow with snd := some x, sndSeq := (s.port p).tow.sndSeq + 1 }
          ∧ (t.port p).rx.pred50 = (if x.wide then predicted .l50a (s.wouldPrecode p .l50a) x else 0)
          ∧ (t.port p).rx.pred25 = (if x.wide then predicted .l25s (s.wouldPrecode p .l25s) x else 0)
          ∧ (t.port p).rx.pred10 = (if x.wide then predicted .l10x true x else 0)))
      ∧ (∀ x, (s.port p).hears = false → Does (.soundingRefresh p x) s (fun t => s.still p t ∧ (t.port p).rx = (s.port p).rx)))
    ∧ (((s.port p).link.state = .loconUp ∨ (s.port p).link.state = .shift ∨ (s.port p).link.state = .stdUp) →
      ∀ f : Bool, Does (.symbolSlip p f) s (fun t => (t.port p).rx.slips = satAdd 0xFFFF (s.port p).rx.slips 1 ∧ (t.port p).rx.slipTick = some s.ticks
          ∧ (t.port p).rx.dataPh = 0 ∧ (t.port p).rx.symIdx = (if f then (s.port p).rx.symIdx + 1 else (s.port p).rx.symIdx - 1)
          ∧ s.counts (portBlock p.val) 13 t ∧ s.still p t))
    ∧ ((s.port p).link.state ≠ .loconUp → (s.port p).link.state ≠ .shift →
      (∀ x, Does (.soundingRefresh p x) s (fun t => s.still p t ∧ (t.port p).rx = (s.port p).rx))
      ∧ ((s.port p).link.state ≠ .stdUp → ∀ f, Does (.symbolSlip p f) s (fun t => s.still p t ∧ (t.port p).rx = (s.port p).rx)))
    ∧ (bit (s.portReg p 0x30) 8 = true → (s.port p).learnsGain = true → ∀ n,
      (80 < n → Does (.agcStep p n) s (fun t => (t.port p).rx = { (s.port p).rx with pga := (s.port p).rx.pga - 1 }))
      ∧ (n < 70 → Does (.agcStep p n) s (fun t => (t.port p).rx = { (s.port p).rx with pga := min 48 ((s.port p).rx.pga + 1) }))
      ∧ (70 ≤ n → n ≤ 80 → Does (.agcStep p n) s (fun t => (t.port p).rx = (s.port p).rx)))
    ∧ ((bit (s.portReg p 0x30) 8 = false ∨ (s.port p).learnsGain = false) → ∀ n, Does (.agcStep p n) s (fun t => (t.port p).rx = (s.port p).rx))
    ∧ (∀ (m : LineMode) (x : Sounding) (i e w f : Nat), (s.port p).link.state = .loconUp → (s.port p).link.modeAct = some m → (isPam m = true ∨ m = .ldmt) →
        (s.port p).tow.snd = some x → x.wide = true → (s.port p).quiet.state = .active → bit (s.portReg p 0x30) 4 = true → s.frozen p 4 = false →
        (s.port p).rx.weakest m x.echo = some (i, e) → (s.port p).rx.strongestFree m x.echo = some (w, f) →
      (e * 39810717056 ≤ f * 10 ^ 10 → e < f → Does (.floatClusterCheck p) s (fun t => (t.port p).rx.clusters = (s.port p).rx.clusters.set i (BitVec.ofNat 16 w)
          ∧ (t.port p).rx.moved = some (i, s.ticks)))
      ∧ (f * 10 ^ 10 < e * 39810717056 → Does (.floatClusterCheck p) s (fun t => (t.port p).rx = (s.port p).rx)))
    ∧ (((s.port p).link.state ≠ .loconUp ∨ (s.port p).tow.snd = none ∨ bit (s.portReg p 0x30) 4 = false ∨ s.frozen p 4 = true) →
        Does (.floatClusterCheck p) s (fun t => (t.port p).rx = (s.port p).rx))
    ∧ (∀ (r : Fin 4) (c : XtCand), bit (s.xtCtrl r) 8 = true → ((portsOf r).any (fun q => (s.port q).link.state == .shift)) = false →
        xtAllowed (s.xtCtrl r) c.1 c.2.1 c.2.2.1 = true → c.2.2.2 ≤ 100 → (∀ k, ((s.reach r).paths.get k).carries c = false) →
      (∀ k, s.freePath r = some k → Does (.xtAllocation r [c]) s (fun t => ((t.reach r).paths.get k).carries c = true
          ∧ ((t.reach r).paths.get k).coupling = BitVec.ofNat 8 c.2.2.2 ∧ ((t.reach r).paths.get k).taps = [] ∧ s.counts (reachBlock r.val) 1 t))
      ∧ (∀ k, s.freePath r = none → s.weakestPath r = some k →
        (c.2.2.2 + 6 ≤ ((s.reach r).paths.get k).coupling.toNat → Does (.xtAllocation r [c]) s (fun t => ((t.reach r).paths.get k).carries c = true
            ∧ s.counts (reachBlock r.val) 1 t))
        ∧ (((s.reach r).paths.get k).coupling.toNat < c.2.2.2 + 6 → Does (.xtAllocation r [c]) s (fun t =>
            ∀ j, ((t.reach r).paths.get j).same ((s.reach r).paths.get j) = true))))
    ∧ (∀ (r : Fin 4) (l : List XtCand), (bit (s.xtCtrl r) 8 = false ∨ ((portsOf r).any (fun q => (s.port q).link.state == .shift)) = true) →
        Does (.xtAllocation r l) s (fun t => t.reach r = s.reach r))

/-- O51, derived: In training an update keeps the SNRs and sends the table that R178 computes from them, or none below 290 bits.
In LDMT an update sends a new table when a carrier has been short for four updates or the loading is 5 % larger for 100, if
none is under way and the swaps are enabled. A table message that fails its checks is discarded and counted; in training a
valid one is kept, in LDMT one whose A lies ahead. The table is sent again until GO. At A the sender takes its partner's
table, a receiver that sees flag B its own, with an event, and one that does not sends its message again, after quiet where
messages are held back. Readings of the model that it rests on: notes/assumptions/7.md, notes/assumptions/58.md,
notes/assumptions/60.md. (R174, R178, R179, R184, R185, R187, R188) -/
def Obligations.LdmtRows : Prop :=
  ∀ (s : State) (p : Fin 16), s.clocked = true →
    (∀ (q : List DmtSymbol) (snrs : List Int) (g : Loading), snrs = (s.port p).dmt.snrs q → g = computeLoading (s.portReg p 0x40) snrs → (s.port p).dmtTrains = true →
      (bUsable g.b = true → Does (.dmtSnrUpdate p q) s (fun t => (t.port p).dmt.snr = snrs.map (fun v => (v + 5) / 10)
          ∧ (t.port p).dmt.sent = some (g, 0) ∧ (t.port p).dmt.message = tableBytes g 0 ∧ (t.port p).dmt.msgSends = (s.port p).dmt.msgSends + 1))
      ∧ (bUsable g.b = false → Does (.dmtSnrUpdate p q) s (fun t => (t.port p).dmt.snr = snrs.map (fun v => (v + 5) / 10) ∧ (t.port p).dmt.sent = none)))
    ∧ (∀ (q : List DmtSymbol) (snrs : List Int) (g : Loading), snrs = (s.port p).dmt.snrs q → (s.port p).dmtRuns = true → (s.port p).dmt.sent = none →
        s.holdsTables p = false → bit (s.portReg p 0x40) 12 = true → g = computeLoading (s.portReg p 0x40) snrs → bUsable g.b = true →
        ((lowRunsOf (marginAct (s.portReg p 0x40)) (s.port p).dmt snrs).any (fun n => decide (4 ≤ n)) = true
          ∨ ((s.port p).dmt.rx.b * 105 ≤ g.b * 100 ∧ 100 ≤ (s.port p).dmt.upRun + 1)) →
        Does (.dmtSnrUpdate p q) s (fun t => (t.port p).dmt.sent = some (g, s.switchAt p) ∧ (t.port p).dmt.message = tableBytes g (s.switchAt p)
          ∧ (t.port p).dmt.msgSends = 1))
    ∧ (∀ q : List DmtSymbol, (s.port p).dmtRuns = true → s.holdsTables p = true → Does (.dmtSnrUpdate p q) s (fun t =>
        (t.port p).dmt.snr = ((s.port p).dmt.snrs q).map (fun v => (v + 5) / 10) ∧ (t.port p).dmt.sent = (s.port p).dmt.sent))
    ∧ ((s.port p).dmtTrains = false → (s.port p).dmtRuns = false → ∀ q b, Does (.dmtSnrUpdate p q) s (fun t => (t.port p).dmt = (s.port p).dmt ∧ s.still p t)
        ∧ Does (.tableMessage p b) s (fun t => (t.port p).dmt = (s.port p).dmt ∧ s.still p t))
    ∧ (∀ (m : List Byte) (g : Loading), g = { bits := (tableOf m).bits.map (·.toNat), b := (tableOf m).b.toNat, i := (tableOf m).i.toNat } →
      (tableValid m = false → ((s.port p).dmtTrains = true ∨ (s.port p).dmtRuns = true) → Does (.tableMessage p m) s (fun t =>
          (t.port p).dmt = { (s.port p).dmt with tablesBad := (s.port p).dmt.tablesBad + 1 } ∧ s.still p t))
      ∧ (tableValid m = true → (s.port p).dmtTrains = true → Does (.tableMessage p m) s (fun t => (t.port p).dmt.got = some (g, 0) ∧ (t.port p).dmt.validGot = true))
      ∧ (tableValid m = true → (s.port p).dmtRuns = true →
        (ahead (tableOf m).a (s.dmtNow p (s.port p).dmt.dTx) = true → Does (.tableMessage p m) s (fun t => (t.port p).dmt = { (s.port p).dmt with got := some (g, (tableOf m).a) }))
        ∧ (ahead (tableOf m).a (s.dmtNow p (s.port p).dmt.dTx) = false → Does (.tableMessage p m) s (fun t => (t.port p).dmt = (s.port p).dmt))))
    ∧ ((s.port p).dmtTrains = true → (s.port p).dmt.sent ≠ none → Does (.dmtTableRepeat p) s (fun t =>
        (t.port p).dmt = { (s.port p).dmt with msgSends := (s.port p).dmt.msgSends + 1 }))
    ∧ (((s.port p).dmtTrains = false ∨ (s.port p).dmt.sent = none) → Does (.dmtTableRepeat p) s (fun t => (t.port p).dmt = (s.port p).dmt))
    ∧ ((s.port p).dmtRuns = true →
      (∀ f g a, (s.port p).dmt.got = some (g, a) → Does (.bitswapSwitch p true f) s (fun t => (t.port p).dmt.tx = g ∧ (t.port p).dmt.got = none
          ∧ (t.port p).dmt.symbols = [flagB (s.port p).link.leader] ∧ (s.ringSpace → t.noted 0x0016 p.val (t.port p).dmtPay)))
      ∧ (∀ g a f, (s.port p).dmt.sent = some (g, a) →
        ((s.port p).flagFound f = true → Does (.bitswapSwitch p false f) s (fun t => (t.port p).dmt.rx = g ∧ (t.port p).dmt.sent = none
            ∧ (s.ringSpace → t.noted 0x0016 p.val (t.port p).dmtPay)))
        ∧ ((s.port p).flagFound f = false → s.holdsTables p = false → Does (.bitswapSwitch p false f) s (fun t => (t.port p).dmt.rx = (s.port p).dmt.rx
            ∧ (t.port p).dmt.sent = some (g, s.switchAt p) ∧ (t.port p).dmt.msgSends = (s.port p).dmt.msgSends + 1))
        ∧ ((s.port p).flagFound f = false → s.holdsTables p = true → Does (.bitswapSwitch p false f) s (fun t =>
            (t.port p).dmt = { (s.port p).dmt with resendDue := true })))
      ∧ ((s.port p).dmt.got = none → ∀ f, Does (.bitswapSwitch p true f) s (fun t => (t.port p).dmt = (s.port p).dmt))
      ∧ ((s.port p).dmt.sent = none → ∀ f, Does (.bitswapSwitch p false f) s (fun t => (t.port p).dmt = (s.port p).dmt)))

/-- O52, derived: From the first block on a period sends SYNC until the session is settled; then FILL under the partner's HOLD,
else the first block to resend, rebuilt from its frames, else a new DATA block while both sequence conditions hold, else
FILL. A failed block, and a DATA block of another length, is counted only. Before the session is settled a DATA or FILL
block gives its GATE field alone. Then an ACK in its window moves A_known and drops the blocks below it, one outside it is a
protocol error, a NACK asks for resends, a RELEASE moves R_known; a duplicate is counted, a block ahead is held, the next
one is extracted: a whole frame of an open queue with room is QUEUED. A FILL shows what is missing. NACKs become due again;
a block unheard for 200 µs is resent. Readings of the model that it rests on: notes/assumptions/29.md,
notes/assumptions/30.md, notes/assumptions/31.md, notes/assumptions/54.md. (R193, R195, R197, R203, R206, R207, R209, R210,
R215, R217, R219) -/
def Obligations.BlockExchange : Prop :=
  ∀ (s : State) (p : Fin 16), s.steady p → (s.port p).blocksRun = true →
    (∀ m, (s.port p).blockMode = some m → (s.port p).link.blocksTick ≤ s.ticks → (∀ x ∈ s.basin.tickets, x.corrupt = false) → (m = .lchirp → ∀ c ∈ (s.port p).tow.ready, c.type ≠ 0x10) →
      ((s.port p).snd.synced = false → Does (.blockSend p) s (fun t => ∃ b, (t.port p).snd.lastBlock = some (3, b) ∧ b.seq = (s.port p).snd.s ∧ b.ffp = 0xFFFF
          ∧ b.ack = (s.port p).rcv.a ∧ b.gate = s.gateTx p ∧ b.resent = false ∧ b.payload = s.syncPayload p m))
      ∧ ((s.port p).snd.synced = true → (s.port p).snd.held = true → Does (.blockSend p) s (fun t => ∃ b, (t.port p).snd.lastBlock = some (2, b)
          ∧ b.seq = (s.port p).snd.s ∧ b.ack = (s.port p).rcv.a ∧ b.gate = s.gateTx p ∧ b.payload = List.replicate (payLen m) 0))
      ∧ ((s.port p).snd.synced = true → (s.port p).snd.held = false →
        (∀ b0, (s.port p).snd.resend.findSome? (fun q => (s.port p).snd.unacked.find? (fun b => b.seq == q)) = some b0 →
          Does (.blockSend p) s (fun t => ∃ b, (t.port p).snd.lastBlock = some (1, b) ∧ b.seq = b0.seq ∧ b.ffp = b0.ffp ∧ b.payload = s.payload b0.len b0.parts ∧ b.resent = true
            ∧ (t.port p).snd.resend = (s.port p).snd.resend.filter (· != b0.seq) ∧ (t.port p).snd.s = (s.port p).snd.s))
        ∧ ((s.port p).snd.resend.findSome? (fun q => (s.port p).snd.unacked.find? (fun b => b.seq == q)) = none → (s.port p).snd.mayData = true →
            ((s.port p).snd.packing ≠ none ∨ s.nextPack p ≠ none) →
          Does (.blockSend p) s (fun t => ∃ b u, (t.port p).snd.lastBlock = some (1, b) ∧ b.seq = (s.port p).snd.s ∧ b.resent = false
            ∧ (t.port p).snd.s = (s.port p).snd.s + 1 ∧ (t.port p).snd.unacked = (s.port p).snd.unacked ++ [u] ∧ u.seq = b.seq ∧ u.len = payLen m
            ∧ b.payload = t.payload u.len u.parts))
        ∧ ((s.port p).snd.resend.findSome? (fun q => (s.port p).snd.unacked.find? (fun b => b.seq == q)) = none →
            ((s.port p).snd.mayData = false ∨ ((s.port p).snd.packing = none ∧ s.nextPack p = none)) → Does (.blockSend p) s (fun t => ∃ b, (t.port p).snd.lastBlock = some (2, b)
            ∧ b.seq = (s.port p).snd.s ∧ (t.port p).snd.s = (s.port p).snd.s))))
    ∧ (s.ticks < (s.port p).link.blocksTick → Does (.blockSend p) s (fun t => s.still p t ∧ (t.port p).snd = (s.port p).snd))
    ∧ Does (.blockFailed p) s (fun t => s.counts (portBlock p.val) 1 t ∧ (t.port p).snd = (s.port p).snd ∧ (t.port p).rcv = (s.port p).rcv)
    ∧ Does (.nackRepeat p) s (fun t => (t.port p).rcv.nacks = (s.port p).rcv.nacks.map (fun k => { k with due := k.sent }))
    ∧ (∀ q, (s.port p).snd.synced = true → (∃ b ∈ (s.port p).snd.unacked, b.seq = q) → (s.port p).snd.roomWait.contains q = false →
        Does (.blockResendTimeout p q) s (fun t => (t.port p).snd.resend.contains q = true))
    ∧ (∀ q, ((s.port p).snd.synced = false ∨ (∀ b ∈ (s.port p).snd.unacked, b.seq ≠ q) ∨ (s.port p).snd.roomWait.contains q = true) →
        Does (.blockResendTimeout p q) s (fun t => (t.port p).snd = (s.port p).snd))
    ∧ (∀ b : Blk, b.payload.length ≠ (s.port p).blkPay → Does (.data p b) s (fun t => s.counts (portBlock p.val) 1 t ∧ (t.port p).snd = (s.port p).snd
        ∧ (t.port p).rcv = (s.port p).rcv))
    ∧ (∀ b : Blk, b.payload.length = (s.port p).blkPay → b.slotKind ≠ 2 →
      ((s.port p).snd.synced = false →
        Does (.data p b) s (fun t => (t.port p).rcv = (s.port p).rcv ∧ (t.port p).snd.gateRx = b.gate ∧ (t.port p).snd.aKnown = (s.port p).snd.aKnown)
        ∧ Does (.fill p b) s (fun t => (t.port p).rcv = (s.port p).rcv ∧ (t.port p).snd.gateRx = b.gate ∧ (t.port p).snd.aKnown = (s.port p).snd.aKnown)
        ∧ Does (.blockOtherType p b) s (fun t => (t.port p).rcv = (s.port p).rcv ∧ (t.port p).snd.gateRx = b.gate ∧ s.counts (portBlock p.val) 15 t))
      ∧ ((s.port p).snd.synced = true → 0 ≤ seqDiff b.ack (s.port p).snd.aKnown → seqDiff b.ack (s.port p).snd.aKnown ≤ seqDiff (s.port p).snd.s (s.port p).snd.aKnown →
        Does (.fill p b) s (fun t => (t.port p).snd.aKnown = b.ack ∧ (t.port p).snd.gateRx = b.gate
          ∧ (t.port p).snd.unacked = (s.port p).snd.unacked.filter (fun u => decide (0 ≤ seqDiff u.seq b.ack))
          ∧ (b.slotKind = 1 → b.slot.getLsbD 7 = false → ∀ u ∈ (s.port p).snd.unacked, 0 ≤ seqDiff u.seq b.ack →
              (u.seq - BitVec.ofNat 24 (b.slot.toNat / 256)).toNat < b.slot.toNat % 128 + 1 → (t.port p).snd.resend.contains u.seq = true)
          ∧ (b.slotKind = 3 → 0 ≤ seqDiff (BitVec.ofNat 24 (b.slot.toNat / 256)) (s.port p).snd.rKnown →
              seqDiff (BitVec.ofNat 24 (b.slot.toNat / 256)) (s.port p).snd.rKnown ≤ seqDiff b.ack (s.port p).snd.rKnown →
              (t.port p).snd.rKnown = BitVec.ofNat 24 (b.slot.toNat / 256)))
        ∧ Does (.blockOtherType p b) s (fun t => (t.port p).snd.aKnown = b.ack ∧ (t.port p).rcv.a = (s.port p).rcv.a ∧ (b.slotKind = 0 → s.counts (portBlock p.val) 15 t)))
      ∧ ((s.port p).snd.synced = true → b.slotKind = 0 →
        ((seqDiff b.ack (s.port p).snd.aKnown < 0 ∨ seqDiff (s.port p).snd.s (s.port p).snd.aKnown < seqDiff b.ack (s.port p).snd.aKnown) →
          Does (.fill p b) s (fun t => (t.port p).snd.aKnown = (s.port p).snd.aKnown ∧ s.counts (portBlock p.val) 15 t))
        ∧ ((s.port p).rcv.held = [] → (s.port p).rcv.highest = none → (s.port p).rcv.refused = none → (s.port p).rcv.nacks = [] → 0 < seqDiff b.seq (s.port p).rcv.a →
          Does (.fill p b) s (fun t => (t.port p).rcv.highest = some b.seq ∧ (t.port p).rcv.a = (s.port p).rcv.a
            ∧ ∃ k ∈ (t.port p).rcv.nacks, k.first = (s.port p).rcv.a ∧ k.room = false ∧ k.sent = false))
        ∧ (s.holdHard p = true → Does (.data p b) s (fun t => (t.port p).rcv.a = (s.port p).rcv.a ∧ (t.port p).rcv.held = (s.port p).rcv.held))
        ∧ (s.holdHard p = false → (seqDiff b.seq (s.port p).rcv.a < 0 ∨ (s.port p).rcv.held.any (fun x => x.seq == b.seq) = true) →
          Does (.data p b) s (fun t => (t.port p).rcv.a = (s.port p).rcv.a ∧ (t.port p).rcv.held = (s.port p).rcv.held ∧ s.counts (portBlock p.val) 5 t))
        ∧ (s.holdHard p = false → 0 < seqDiff b.seq (s.port p).rcv.a → seqDiff b.seq (s.port p).rcv.a < (min (2 ^ (s.port p).snd.w) (s.reordBlocks p) : Nat) →
            (∀ x ∈ (s.port p).rcv.held, x.seq ≠ (s.port p).rcv.a ∧ x.seq ≠ b.seq) →
          Does (.data p b) s (fun t => (t.port p).rcv.a = (s.port p).rcv.a
            ∧ (t.port p).rcv.held = (s.port p).rcv.held ++ [⟨b.seq, b.ffp, b.payload, tsOf s.time.now, s.time.now⟩]))
        ∧ (∀ (tag : Byte) (f : List Byte) (q : Queue), s.holdHard p = false → s.basin.tickets = [] → (s.port p).rcv.held = [] → (s.port p).rcv.parser = {} →
            b.seq = (s.port p).rcv.a → b.ffp = 0 → 64 ≤ f.length → f.length + 3 ≤ b.payload.length → fcsGood f = true →
            b.payload = padTo b.payload.length ([tag, BitVec.ofNat 8 (f.length / 256), BitVec.ofNat 8 f.length] ++ f) →
            s.queue? (tagQueue p tag) = some q → q.outbound = false → q.closing = none → s.hasRoom q f.length = true →
          Does (.data p b) s (fun t => (t.port p).rcv.a = (s.port p).rcv.a + 1 ∧ (t.port p).rcv.held = []
            ∧ ∃ x ∈ t.basin.tickets, x.queue = q.num ∧ x.state = .queued ∧ x.bytes = f ∧ x.seq = q.nextSeq ∧ x.blk = some b.seq))))

/-- O53, derived: The first valid SYNC of a mode entry settles the session. A SYNC that names both sessions resumes it; any
other starts a new one, its sender and receiver at 0, the partner's SESSION kept, an event raised. Full duplex ends with the
link up, a shift with the new mode in use. Without one in time, training fails, LCHIRP goes down with cause 8 and a shift
has not converged. On a standard link a frame for an open queue with room and a good FCS is QUEUED, any other is discarded
and counted; a frame sent leaves its ticket. Readings of the model that it rests on: notes/assumptions/25.md,
notes/assumptions/30.md. (R82, R83, R85, R216, R217, R218, R230, R280, R286) -/
def Obligations.SessionsAndStandardFrames : Prop :=
  ∀ (s : State) (p : Fin 16), s.steady p →
    (∀ (b : Blk) (m : LineMode), (s.port p).blocksRun = true → b.payload.length = (s.port p).blkPay → b.slotKind = 0 → (s.port p).blockMode = some m →
        (s.port p).snd.synced = false → syncValid m b = true → (s.port p).link.wrOld = none →
      (BitVec.ofNat 32 (beAt b.payload 4 4) = (s.port p).rcv.session → (s.port p).rcv.partner = BitVec.ofNat 32 (beAt b.payload 0 4) →
        Does (.sync p b) s (fun t => (t.port p).snd.synced = true ∧ (t.port p).rcv.partner = (s.port p).rcv.partner ∧ (t.port p).rcv.a = (s.port p).rcv.a
          ∧ (t.port p).rcv.session = (s.port p).rcv.session))
      ∧ ((BitVec.ofNat 32 (beAt b.payload 4 4) ≠ (s.port p).rcv.session ∨ (s.port p).rcv.partner ≠ BitVec.ofNat 32 (beAt b.payload 0 4)) →
        Does (.sync p b) s (fun t => (t.port p).snd.synced = true ∧ (t.port p).rcv.partner = BitVec.ofNat 32 (beAt b.payload 0 4) ∧ (t.port p).rcv.a = 0
          ∧ (t.port p).rcv.held = [] ∧ (t.port p).snd.s = 0 ∧ (t.port p).snd.unacked = [] ∧ (t.port p).rcv.session = (s.port p).rcv.session
          ∧ (s.ringSpace → t.noted 0x0018 p.val (s.port p).rcv.session)))
      ∧ ((s.port p).link.state = .fullDuplex → Does (.sync p b) s (s.cameUp p m .loconUp))
      ∧ (∀ sh, (s.port p).link.state = .shift → (s.port p).link.shift = some sh → sh.acked = true → Does (.sync p b) s (fun t => (t.port p).link.state = .loconUp
          ∧ (t.port p).link.modeAct = some sh.target ∧ (t.port p).link.shift = none ∧ (t.port p).link.ladder.settle = 2
          ∧ (s.ringSpace → t.noted 0x0012 p.val (wd (modeCode sh.left + 256 * modeCode sh.target + 65536 * sh.kind))))))
    ∧ ((s.port p).link.blocksOn = true → (s.port p).snd.synced = false →
      ((s.port p).link.state = .loconUp → (s.port p).inLchirp = true → Does (.syncTimeout p) s (s.fellWith p 8))
      ∧ ((s.port p).link.state = .fullDuplex → Does (.syncTimeout p) s (s.fellWith p 7))
      ∧ (∀ sh, (s.port p).link.state = .shift → (s.port p).link.shift = some sh →
        (sh.target = .lchirp → Does (.syncTimeout p) s (s.fellWith p 8))
        ∧ ∀ m l, sh.target ≠ .lchirp → (sh.kind = 2 → rung sh.left < rung sh.target) → below (s.common p) sh.target = m :: l → (s.port p).link.modeAct ≠ none → (s.port p).link.leader = true →
            Does (.syncTimeout p) s (State.shifts p m (if sh.kind = 1 then 0 else sh.kind) false)))
    ∧ (((s.port p).snd.synced = true ∨ (s.port p).link.blocksOn = false ∨ ((s.port p).link.state = .loconUp ∧ (s.port p).inLchirp = false)) →
        Does (.syncTimeout p) s (s.still p))
    ∧ ((s.port p).link.state ≠ .stdUp → Does (.stdFrameSent p) s (fun t => t.basin = s.basin)
      ∧ ∀ tag ok f, Does (.stdFrameReceived p tag ok f) s (fun t => t.basin = s.basin))
    ∧ ((s.port p).link.state = .stdUp →
      (∀ tag ok f, (s.queue? (tagQueue p tag) = none ∨ ∃ q, s.queue? (tagQueue p tag) = some q ∧ (q.outbound = true ∨ q.closing ≠ none)) →
        Does (.stdFrameReceived p tag ok f) s (fun t => t.basin.tickets = s.basin.tickets ∧ s.counts 3 2 t))
      ∧ (∀ tag f q, s.queue? (tagQueue p tag) = some q → q.outbound = false → q.closing = none →
        (s.hasRoom q f.length = false → ∀ ok, Does (.stdFrameReceived p tag ok f) s (fun t => t.basin.tickets = s.basin.tickets ∧ s.counts 3 2 t))
        ∧ (s.hasRoom q f.length = true → (∀ x ∈ s.basin.tickets, x.id ≠ s.basin.nextId) →
          Does (.stdFrameReceived p tag true f) s (fun t => ∃ x ∈ t.basin.tickets, x.id = s.basin.nextId ∧ x.queue = q.num ∧ x.state = .queued ∧ x.bytes = f
            ∧ x.seq = q.nextSeq ∧ x.ts = tsOf s.time.now)
          ∧ Does (.stdFrameReceived p tag false f) s (fun t => t.basin.tickets = s.basin.tickets ∧ s.counts 3 2 t)))
      ∧ ((∀ x ∈ s.basin.tickets, x.corrupt = false) → ∀ heads,
          heads = (s.basin.queues.filter (fun q => q.outbound && q.num / 256 == p.val)).filterMap (fun q =>
            ((s.ticketsOf q.num).find? (fun x => x.state == .queued)).map (fun x => (q, x))) →
        (∀ c num id, pickHead heads (s.port p).snd.rr = some (c, num, id) → Does (.stdFrameSent p) s (fun t =>
            t.basin.tickets = s.basin.tickets.filter (fun x => x.id != id)))
        ∧ (pickHead heads (s.port p).snd.rr = none → Does (.stdFrameSent p) s (fun t => t.basin = s.basin))))

/-- O54, derived: An up lane that is not paused sends what R242 picks: waiting control entries of one kind under the lane's
count, a move marker with the queue's next sequence, or a frame with its tag; class none is freed, hop and through become
SENT with the receipt timer running, a corrupt frame goes with an inverted FCS, is freed and reported. A host frame without
its tag, with a bad FCS or for no open outbound queue is discarded and counted; the next in sequence is taken where there is
room, any other discarded. A receipt frees what lies below it, one outside its range is ignored and counted. No receipt in
time sends every sent frame again. A RELEASE is repeated once. Readings of the model that it rests on:
notes/assumptions/24.md, notes/assumptions/25.md, notes/assumptions/28.md. (R230, R242, R247, R248, R249, R259, R261, R263,
R264, R265, R266, R427) -/
def Obligations.HostFrames : Prop :=
  ∀ (s : State) (n : Fin 8), s.clocked = true →
    ((s.lane n).state = .up → (s.lane n).paused = none →
      (∀ k es, s.pickService n = .ctrl k → es = (s.basin.ctrlOut.filter (fun c => c.kind == k)).take 64 → Does (.hostFrameSent n) s (fun t =>
          (t.lane n).ctrlCount = (s.lane n).ctrlCount + 1 ∧ t.basin.ctrlOut = s.basin.ctrlOut.filter (fun c => !es.contains c)
          ∧ ∃ f, (t.lane n).last = some f ∧ f.tag.ctrl = true ∧ f.tag.move = false ∧ f.tag.seq = (s.lane n).ctrlCount ∧ f.invFcs = false
            ∧ f.bytes = ctrlFrame (s.laneForm n) f.tag k (es.map (·.entry))))
      ∧ (∀ q x, s.pickService n = .marker q → s.queue? q = some x → x.move ≠ none → Does (.hostFrameSent n) s (fun t =>
          ∃ f y m, (t.lane n).last = some f ∧ f.tag.ctrl = true ∧ f.tag.move = true ∧ f.tag.qid = BitVec.ofNat 12 q
            ∧ t.queue? q = some y ∧ y.move = some m ∧ m.marker = some f.tag.seq))
      ∧ (∀ id x q, (s.pickService n = .resend id ∨ s.pickService n = .admitted id ∨ s.pickService n = .excess id) → s.ticket? id = some x → s.queue? x.queue = some q →
        Does (.hostFrameSent n) s (fun t => ∃ f, (t.lane n).last = some f ∧ f.invFcs = x.corrupt ∧ f.tag.qid = BitVec.ofNat 12 x.queue ∧ f.tag.ctrl = false
            ∧ f.tag.resend = x.resend ∧ f.tag.rsnd = x.rsnd ∧ f.tag.seq = x.seq ∧ f.tag.ts = x.ts ∧ f.bytes = wireFrame (s.laneForm n) f.tag x.bytes x.corrupt)
        ∧ (x.corrupt = true → Does (.hostFrameSent n) s (fun t => t.ticket? id = none ∧ (s.ringRoom → t.noted 0x0063 0 (wd x.queue))))
        ∧ (x.corrupt = false → q.cls = .none → Does (.hostFrameSent n) s (fun t => t.ticket? id = none))
        ∧ (x.corrupt = false → q.cls ≠ .none → Does (.hostFrameSent n) s (fun t => (∃ y, t.ticket? id = some y ∧ y.state = .sent ∧ y.resend = false ∧ y.seq = x.seq
              ∧ y.bytes = x.bytes) ∧ ∃ y, t.queue? x.queue = some y ∧ y.timer ≠ none)))
      ∧ (s.pickService n = .idle → Does (.hostFrameSent n) s (fun t => t.lane n = s.lane n ∧ t.basin = s.basin)))
    ∧ (((s.lane n).state ≠ .up ∨ (s.lane n).paused ≠ none) → Does (.hostFrameSent n) s (fun t => t.lane n = s.lane n ∧ t.basin = s.basin))
    ∧ ((s.lane n).state = .up →
      (∀ tagged ok tag f, (tagged = false ∨ (tag.ctrl = false ∧ (ok = false ∨ s.queue? tag.qid.toNat = none
            ∨ ∃ q, s.queue? tag.qid.toNat = some q ∧ (q.outbound = false ∨ q.closing ≠ none)))) →
        Does (.outboundFrame n tagged ok tag f) s (fun t => (t.lane n).disc = satAdd 0xFFFF (s.lane n).disc 1 ∧ t.basin.tickets = s.basin.tickets
          ∧ s.counts (laneBlock n.val) 1 t ∧ s.counts (laneBlock n.val) 5 t))
      ∧ (∀ (tag : TagWord) (f : List Byte) (q : Queue), tag.ctrl = false → s.queue? tag.qid.toNat = some q → q.outbound = true → q.closing = none →
        (tag.seq ≠ q.nextSeq → Does (.outboundFrame n true true tag f) s (fun t => (t.lane n).disc = satAdd 0xFFFF (s.lane n).disc 1 ∧ t.basin.tickets = s.basin.tickets))
        ∧ (tag.seq = q.nextSeq → s.hasRoom q (ownFrame (s.laneForm n) f).length = false → Does (.outboundFrame n true true tag f) s (fun t =>
            (t.lane n).disc = satAdd 0xFFFF (s.lane n).disc 1 ∧ t.basin.tickets = s.basin.tickets))
        ∧ (tag.seq = q.nextSeq → s.hasRoom q (ownFrame (s.laneForm n) f).length = true → (∀ x ∈ s.basin.tickets, x.id ≠ s.basin.nextId) →
          Does (.outboundFrame n true true tag f) s (fun t => (∃ x ∈ t.basin.tickets, x.id = s.basin.nextId ∧ x.queue = q.num ∧ x.outbound = true ∧ x.state = .queued
              ∧ x.seq = tag.seq ∧ x.bytes = ownFrame (s.laneForm n) f) ∧ ∃ y, t.queue? q.num = some y ∧ y.nextSeq = q.nextSeq + 1)))
      ∧ (∀ (e : CtrlEntry) (q : Queue), s.queue? e.qid.toNat = some q → q.outbound = false → q.cls ≠ .none →
        (0 ≤ qDiff e.seq (s.lowSeq q) → qDiff e.seq (s.lowSeq q) ≤ qDiff q.nextSeq (s.lowSeq q) → Does (.receipt n [e]) s (fun t =>
            t.basin.tickets = s.basin.tickets.filter (fun x => !(s.ticketsOf q.num).any (fun y => y.id == x.id && y.state != .filling && decide (qDiff y.seq e.seq < 0)))))
        ∧ ((qDiff e.seq (s.lowSeq q) < 0 ∨ qDiff q.nextSeq (s.lowSeq q) < qDiff e.seq (s.lowSeq q)) → Does (.receipt n [e]) s (fun t =>
            t.basin.tickets = s.basin.tickets ∧ (t.lane n).ign = satAdd 0xFFFF (s.lane n).ign 1 ∧ s.counts (laneBlock n.val) 6 t)))
      ∧ (∀ e, s.queue? e.qid.toNat = none → Does (.receipt n [e]) s (fun t => t.basin.tickets = s.basin.tickets ∧ (t.lane n).ign = satAdd 0xFFFF (s.lane n).ign 1))
      ∧ Does (.controlFrameInvalid n) s (fun t => (t.lane n).disc = satAdd 0xFFFF (s.lane n).disc 1 ∧ t.basin = s.basin ∧ s.counts (laneBlock n.val) 5 t))
    ∧ (∀ (q : Fin 4096) (x : Queue), s.queue? q.val = some x →
      (x.outbound = false → x.cls ≠ .none → x.timer ≠ none → Does (.receiptTimeout q) s (fun t =>
          t.basin.tickets = s.basin.tickets.map (fun y => if y.queue = q.val ∧ y.state = .sent then { y with resend := true } else y)))
      ∧ (x.timer = none → Does (.receiptTimeout q) s (fun t => t.basin = s.basin))
      ∧ (x.relRepeat = true → s.sup.pfailFrozen = false → Does (.releaseRepeat q) s (fun t =>
          t.basin.ctrlOut.getLast? = some ⟨2, ⟨false, BitVec.ofNat 12 q.val, s.releasePoint x⟩⟩ ∧ ∃ y, t.queue? q.val = some y ∧ y.relRepeat = false))
      ∧ (x.relRepeat = false → Does (.releaseRepeat q) s (fun t => t.basin = s.basin)))

/-- O55, derived: A starting lane that is ready comes up; one that has not starts again. An up lane declared lost, or paused for
1 ms, is LOST, or off when disabled, with its cause, remote fault sent and an event. A PAUSE with PAUSE_EN stops the lane
until its quanta end or a PAUSE of 0. A moved queue starts on its new lane. A rebalancing check starts the move it finds, if
enabled. What the scrubber finds is counted, an uncorrectable error marks its frame and copies the bank into the lowest
spare, or retires it with an event when there is none. A finished copy puts the spare in its place; a retired bank leaves
service. Readings of the model that it rests on: notes/assumptions/26.md, notes/assumptions/28.md, notes/assumptions/34.md.
(R228, R229, R242, R245, R246, R247, R267, R269, R270, R271, R411, R427) -/
def Obligations.LanesAndBasin : Prop :=
  ∀ (s : State), s.clocked = true →
    (∀ n : Fin 8,
      (s.laneReady n = true → Does (.laneUp n) s (fun t => (t.lane n).state = .up ∧ (t.lane n).amLock = true ∧ (t.lane n).blockLock = true ∧ (t.lane n).paused = none))
      ∧ (s.laneReady n = false → Does (.laneUp n) s (fun t => t.lane n = s.lane n ∧ t.basin = s.basin))
      ∧ (bit (s.laneReg n.val 0) 0 = true → ((s.lane n).state = .starting ∨ (s.lane n).state = .lost) → Does (.laneStartRetry n) s (fun t =>
          t.lane n = (s.lane n).restart (s.lane n).state))
      ∧ ((s.lane n).state = .up →
        (∀ c : Fin 7, c ≠ 0 → Does (.laneLoss n c) s (fun t => (t.lane n).state = (if bit (s.laneReg n.val 0) 0 then .lost else .off) ∧ (t.lane n).cause = c.val
            ∧ (t.lane n).sendRf = true ∧ (s.ringRoom → t.noted 0x0023 n.val (wd c.val)) ∧ ∀ m ≠ n, t.lane m = s.lane m))
        ∧ ((s.lane n).paused ≠ none → Does (.pauseStuck n) s (fun t => (t.lane n).state = (if bit (s.laneReg n.val 0) 0 then .lost else .off) ∧ (t.lane n).cause = 5
            ∧ (s.ringRoom → t.noted 0x0023 n.val 5)))
        ∧ ((s.lane n).paused = none → Does (.pauseStuck n) s (fun t => t.lane n = s.lane n))
        ∧ (bit (s.laneReg n.val 0) 8 = true → ∀ v, Does (.pauseFrame n v) s (fun t =>
            (v = 0 → (t.lane n).paused = none) ∧ (v ≠ 0 → (s.lane n).paused = none → (t.lane n).paused = some s.ticks)
            ∧ (∀ k, v ≠ 0 → (s.lane n).paused = some k → (t.lane n).paused = some k)))
        ∧ (bit (s.laneReg n.val 0) 8 = false → ∀ v, Does (.pauseFrame n v) s (fun t => t.lane n = s.lane n)))
      ∧ ((s.lane n).state ≠ .up → ∀ c, Does (.laneLoss n c) s (fun t => t.lane n = s.lane n ∧ t.basin = s.basin))
      ∧ Does (.pauseExpiry n) s (fun t => t.lane n = { s.lane n with paused := none }))
    ∧ (∀ (q : Fin 4096) (x : Queue), s.queue? q.val = some x →
      (∀ m k, x.move = some m → m.marker = some k → Does (.moveLaneStart q) s (fun t => t.queue? q.val = some { x with lane := some m.dest, move := none }))
      ∧ ((∀ m k, x.move = some m → m.marker ≠ some k) → Does (.moveLaneStart q) s (fun t => t.basin = s.basin)))
    ∧ (bit (s.act (regKey 3 0x20)) 1 = true → s.safeBlock 3 = false →
      (∀ q n x k, s.rebalanceMove false = some (q, n) → s.queue? q = some x → x.outbound = false → x.move = none → x.lane = some k → k ≠ n.val →
        Does .rebalanceCheck s (fun t => t.queue? q = some { x with move := some ⟨n.val, none⟩, movedAt := some s.ticks }))
      ∧ (s.rebalanceMove false = none → s.rebalanceMove true = none → Does .rebalanceCheck s (fun t => t.basin = s.basin)))
    ∧ (bit (s.act (regKey 3 0x20)) 1 = false → Does .rebalanceCheck s (fun t => t.basin = s.basin))
    ∧ (∀ (b : Fin 68) (c u : Nat) (hit : Option (Fin 4096 × Seq16)),
      ((s.bank b).logical = none → Does (.basinScrub b c u hit) s (fun t => t.basin = s.basin))
      ∧ ((s.bank b).logical ≠ none → Does (.basinScrub b c u hit) s (fun t => t.basin.corrNow = satAdd 0xFFFF s.basin.corrNow c
          ∧ t.basin.uncorr = satAdd 0xFFFF s.basin.uncorr u
          ∧ (∀ q seq, hit = some (q, seq) → 0 < u → ∀ x ∈ t.basin.tickets, x.queue = q.val → x.seq = seq → x.state ≠ .filling → x.corrupt = true)))
      ∧ (∀ l, s.bank b = .inService l → 0 < u → s.test.bank = none →
        (∀ k, s.lowestSpare = some k → Does (.basinScrub b c u hit) s (fun t => t.bank b = .copying k.val l ∧ t.bank k = .receiving l))
        ∧ (s.lowestSpare = none → Does (.basinScrub b c u hit) s (fun t => t.bank b = .migrating l
            ∧ (s.ringRoom → ∃ e, t.ring.untaken.getLast? = some e ∧ e.code = 0x0024 ∧ e.e0 = wd l ∧ e.e1 = 1))))
      ∧ (∀ k l, s.bank b = .copying k.val l → k ≠ b → s.test.bank ≠ some b.val → s.test.waiting = false → Does (.bankCopyDone b) s (fun t =>
          t.bank k = .inService l ∧ t.bank b = (if s.bankHeldOff b then .forcedOff else .failed)
          ∧ (s.ringRoom → ∃ e, t.ring.untaken.getLast? = some e ∧ e.code = 0x0024 ∧ e.e0 = wd l ∧ e.e1 = 0)))
      ∧ (∀ k l, s.bank b = .copying k.val l → k ≠ b → s.test.bank = some b.val → Does (.bankCopyDone b) s (fun t =>
          t.bank k = .inService l ∧ t.bank b = .underTest ∧ t.test.marching = true))
      ∧ (∀ l, s.bank b = .migrating l → Does (.cellMigrationDone b) s (fun t => t.bank b = if s.bankHeldOff b then .forcedOff else .failed)))

/-- O56, derived: A sample joins the last 16 and each reading is their mean; the central sensor's level follows its last four
readings, the part's level is the highest, a change raises THERMAL, and level 3 holds every port that is not disabled or in
diagnostics with cause 11. At level 2 the highest-numbered L50A port steps down. A slice that leaves items to do goes on
from them; a run that ends with every check passed puts its set in force unless the factory override stands, one that fails
keeps the old set and counts, the third in a row being a fault. A retry starts a run; MAX_WAIT drops the slices with an
event. Readings of the model that it rests on: notes/assumptions/23.md, notes/assumptions/36.md. (R146, R317, R318, R321,
R322, R323, R324, R325, R328, R431) -/
def Obligations.CalibrationRows : Prop :=
  (∀ (s : State) (v : Vector Int 5), s.clocked = true → Does (.tempSample v) s (fun t => t.cal.samples = (v.toList :: s.cal.samples).take 16
      ∧ (∀ i, t.cal.temp.get i = meanOf (((v.toList :: s.cal.samples).take 16).map (fun l => l.getD i.val 0)))
      ∧ (t.cal.levels.get 4).2 = (t.cal.temp.get 4 :: (s.cal.levels.get 4).2).take 4
      ∧ (t.cal.levels.get 4).1 = levelOfSensor (s.cal.levels.get 4).1 (t.cal.levels.get 4).2
      ∧ t.cal.level = (t.cal.levels.toList.map (·.1)).foldl max 0
      ∧ (t.cal.level ≠ s.cal.level → s.ringRoom → ∃ i < 5, t.noted 0x0064 0 (wd (t.cal.level + 16 * i)))
      ∧ (t.cal.level = 3 → s.cal.level ≠ 3 → ∀ p, (s.port p).link.state ≠ .disabled → (s.port p).link.state ≠ .diag →
          (t.port p).link.state = .hold ∧ (t.port p).link.downCause = 11)))
  ∧ (∀ (s : State), s.clocked = true → s.cal.level < 2 → Does .thermalDownshiftStep s (fun t => ∀ p, (t.port p).link = (s.port p).link))
  ∧ (∀ (s : State) (p : Fin 16) (m : LineMode) (l : List LineMode), s.steady p → 2 ≤ s.cal.level → s.sup.pfailFrozen = false →
      allPorts.reverse.find? (fun q => (s.port q).link.state == .loconUp && (s.port q).link.modeAct == some .l50a) = some p →
      below (s.common p) .l50a = m :: l → (s.port p).quiet.state = .active → (s.port p).quiet.pend = none →
    ((s.port p).link.leader = true → Does .thermalDownshiftStep s (State.shifts p m 0 false))
    ∧ ((s.port p).link.leader = false → Does .thermalDownshiftStep s (s.readied p ⟨5, 0, shiftPayload (modeCode m) 0 (ownDir (s.policy p)) 0⟩)))
  ∧ (∀ (s : State) (p : Fin 16) (m : CalMeasure), s.clocked = true →
    ((s.port p).cal.running = true →
      (fitItems calItems (s.port p).cal.item (s.sliceUs * 10) < calItems → Does (.calSliceDone p m) s (fun t => (t.port p).cal.running = true
          ∧ (t.port p).cal.item = fitItems calItems (s.port p).cal.item (s.sliceUs * 10) ∧ (t.port p).cal.inForce = (s.port p).cal.inForce))
      ∧ (calPasses m = true →
        (calItems ≤ fitItems calItems (s.port p).cal.item (s.sliceUs * 10) → Does (.calSliceDone p m) s (fun t => (t.port p).cal.running = false
            ∧ (t.port p).cal.fails = 0 ∧ (t.port p).cal.fault = false ∧ ∃ c, (t.port p).cal.passed = some c ∧ c.cells = m.cells ∧ c.slices = m.slices
              ∧ (s.factoryOn = false → (t.port p).cal.inForce = some c)))
        ∧ Does (.calPortRunDone p m) s (fun t => (t.port p).cal.running = false ∧ (t.port p).cal.fails = 0 ∧ (t.port p).cal.fault = false ∧ t.journal.changed = true
            ∧ ∃ c, (t.port p).cal.passed = some c ∧ c.cells = m.cells ∧ c.slices = m.slices
              ∧ (s.factoryOn = false → (t.port p).cal.inForce = some c ∧ (t.port p).tx.spares = spareCells m.cells ∧ (t.port p).rx.adcSpare = spareSlices m.slices)))
      ∧ (calPasses m = false → Does (.calPortRunDone p m) s (fun t => (t.port p).cal.running = false ∧ (t.port p).cal.fails = min 3 ((s.port p).cal.fails + 1)
          ∧ (t.port p).cal.fault = decide (3 ≤ (s.port p).cal.fails + 1) ∧ (t.port p).cal.retry = decide ((s.port p).cal.fails + 1 < 3)
          ∧ (t.port p).cal.inForce = (s.port p).cal.inForce ∧ (t.port p).cal.passed = (s.port p).cal.passed))
      ∧ (0 < fld (s.act (regKey 6 0x00)) 16 16 → Does (.calMaxWait p) s (fun t => (t.port p).cal.running = true
          ∧ t.time.cal = s.time.cal.filter (fun e => !(e.2.kind == .calSlice && e.2.target == p.val)) ∧ (s.ringRoom → t.told 0x0041 6 p.val 0)))
      ∧ (fld (s.act (regKey 6 0x00)) 16 16 = 0 → Does (.calMaxWait p) s (fun t => t.time.cal = s.time.cal)))
    ∧ ((s.port p).cal.running = false →
      ((s.port p).cal.retry = true → (s.port p).cal.fault = false → s.calHeld = false → (s.port p).tdr.running = false → Does (.calRetry p) s (fun t =>
          (t.port p).cal.running = true ∧ (t.port p).cal.item = 0 ∧ (t.port p).cal.single = true ∧ (t.port p).cal.retry = false))
      ∧ ((s.port p).cal.retry = true → (s.port p).cal.fault = false → (s.calHeld = true ∨ (s.port p).tdr.running = true) → Does (.calRetry p) s (fun t =>
          (t.port p).cal = { (s.port p).cal with retry := false, waits := true }))
      ∧ ((s.port p).cal.retry = false → Does (.calRetry p) s (fun t => (t.port p).cal = (s.port p).cal))))

/-- O57, derived: A quiet line, or the fourth listen that heard power, starts the burst of its profile; else another listen
follows, and after a narrow burst the wide profile listens. A run that completes gives its events, their eight largest, the
length and its source, leaves the port DISABLED, and answers DIAG_TDR. An evaluation with a valid reference counts each
figure against its warning and alarm and reports a change; one without, or on a link that rests, is suspended. A waiting or
automatic capture starts; one that ends becomes the reference of its profile, is reported and answers DIAG_WATCH. Readings
of the model that it rests on: notes/assumptions/46.md, notes/assumptions/47.md. (R330, R331, R332, R333, R334, R335, R336,
R337, R338, R339, R340, R386) -/
def Obligations.DiagnosticRows : Prop :=
  ∀ (s : State) (p : Fin 16), s.steady p →
    (∀ heard, (s.port p).tdr.running = true →
      ((s.port p).tdr.burst = false →
        ((heard = false ∨ 4 ≤ (s.port p).tdr.listens + 1) → Does (.tdrListenEnd p heard) s (fun t => (t.port p).tdr.burst = true
            ∧ (t.port p).tdr.busy = ((s.port p).tdr.busy || heard) ∧ (t.port p).tx.swing = (if (s.port p).tdr.wideNow then 80 else 100)))
        ∧ (heard = true → (s.port p).tdr.listens + 1 < 4 → Does (.tdrListenEnd p heard) s (fun t => (t.port p).tdr = { (s.port p).tdr with
            listens := (s.port p).tdr.listens + 1 })))
      ∧ ((s.port p).tdr.burst = true → (s.port p).tdr.wideNow = false → tdrTakes (s.port p).tdr.prof true = true → Does (.tdrListenEnd p heard) s (fun t =>
          (t.port p).tdr.wideNow = true ∧ (t.port p).tdr.listens = 1 ∧ (t.port p).tdr.burst = !heard))
      ∧ ((s.port p).tdr.burst = true → ((s.port p).tdr.wideNow = true ∨ tdrTakes (s.port p).tdr.prof true = false) → Does (.tdrListenEnd p heard) s (fun t =>
          (t.port p).tdr = (s.port p).tdr)))
    ∧ ((s.port p).tdr.running = false → ∀ heard peaks wide narrow, Does (.tdrListenEnd p heard) s (fun t => (t.port p).tdr = (s.port p).tdr)
        ∧ Does (.tdrComplete p peaks wide narrow) s (fun t => (t.port p).tdr = (s.port p).tdr))
    ∧ (∀ (peaks : List TdrPeak) (wide narrow : List (BitVec 16)) (w n : List TdrEvent) (all : List (TdrEvent × Nat)),
        (s.port p).tdr.running = true → (s.port p).tdr.burst = true → (tdrTakes (s.port p).tdr.prof true = true → (s.port p).tdr.wideNow = true) →
        w = (if tdrTakes (s.port p).tdr.prof true then mergeClose 3 ((s.port p).tdr.eventsOf false peaks) else []) →
        n = (if tdrTakes (s.port p).tdr.prof false then mergeClose 40 ((s.port p).tdr.eventsOf true peaks) else []) → all = typed (joinEvents w n) →
      Does (.tdrComplete p peaks wide narrow) s (fun t => (t.port p).tdr.seq = (s.port p).tdr.seq + 1 ∧ (t.port p).tdr.result = (if (s.port p).tdr.busy then 2 else 1)
        ∧ (t.port p).tdr.running = false ∧ (t.port p).tdr.events = (keepEight all).map eventWord ∧ (t.port p).tdr.overflow = decide (8 < all.length)
        ∧ (t.port p).tdr.lenSrc = (cableLength all).1 ∧ (t.port p).tdr.len = BitVec.ofNat 16 (min 0xFFFF (cableLength all).2) ∧ (t.port p).link.state = .disabled
        ∧ ∀ c, s.waiting (isTdr p) = some c → s.ended t c 0 (t.port p).tdr.words))
    ∧ (bit (s.portReg p 0x74) 0 = false → ∀ seen f, Does (.watchEvaluation p seen f) s (fun t => (t.port p).watch = (s.port p).watch))
    ∧ (bit (s.portReg p 0x74) 0 = true → ∀ seen f,
      (s.watchIdle p seen = true → Does (.watchEvaluation p seen f) s (fun t => (t.port p).watch = { (s.port p).watch with susp := true }))
      ∧ (s.watchIdle p seen = false →
        ((s.port p).refOk (s.port p).refNow = false → Does (.watchEvaluation p seen f) s (fun t => (t.port p).watch.susp = true
            ∧ (t.port p).watch.refl = (s.port p).watch.refl ∧ ((s.port p).refNow ≠ none → (s.port p).watch.refTold = false → s.ringRoom →
                t.told 0x0043 (portBlock p.val) p.val (wd ((if (s.port p).inLchirp then 1 else 0) + 2)))))
        ∧ ((s.port p).watch.wantCapture = true → Does (.watchEvaluation p seen f) s (fun t => (t.port p).watch.capturing = true ∧ (t.port p).watch.wantCapture = false))
        ∧ ((s.port p).refOk (s.port p).refNow = true → Does (.watchEvaluation p seen f) s (fun t => (t.port p).watch.susp = false
            ∧ (t.port p).watch.refl = (s.port p).watch.refl.step f.refl (fld (s.portReg p 0x75) 24 8) (fld (s.portReg p 0x76) 24 8)
            ∧ (t.port p).watch.loss = (s.port p).watch.loss.step f.loss (fld (s.portReg p 0x75) 16 8) (fld (s.portReg p 0x76) 16 8)
            ∧ (t.port p).watch.noise = (s.port p).watch.noise.step f.noise (fld (s.portReg p 0x75) 8 8) (fld (s.portReg p 0x76) 8 8)
            ∧ (t.port p).watch.bulk = (s.port p).watch.bulk.step f.bulk (fld (s.portReg p 0x75) 0 8) (fld (s.portReg p 0x76) 0 8)
            ∧ (((s.port p).watch.refl.alarm ≠ (t.port p).watch.refl.alarm ∨ (s.port p).watch.refl.warn ≠ (t.port p).watch.refl.warn) → s.ringSpace →
                t.noted 0x0042 p.val (wd (256 * (t.port p).watch.refl.state)))
            ∧ (((s.port p).watch.loss.alarm ≠ (t.port p).watch.loss.alarm ∨ (s.port p).watch.loss.warn ≠ (t.port p).watch.loss.warn) → s.ringSpace →
                t.noted 0x0042 p.val (wd (1 + 256 * (t.port p).watch.loss.state)))))))
    ∧ (bit (s.portReg p 0x74) 1 = true → (s.port p).link.state = .loconUp → (s.port p).refOk (s.port p).refNow = false → (s.port p).watch.capturing = false →
        (s.port p).quiet.state = .active → ∀ k, (s.port p).watch.quietTick = some k → k + secTicks 10 ≤ s.ticks →
        Does (.watchAutoCapture p) s (fun t => (t.port p).watch = { (s.port p).watch with capturing := true, wantCapture := false }))
    ∧ ((bit (s.portReg p 0x74) 1 = false ∨ (s.port p).refOk (s.port p).refNow = true) → Does (.watchAutoCapture p) s (fun t => (t.port p).watch = (s.port p).watch))
    ∧ (∀ (x : Sounding) (r : WatchRef), (s.port p).watch.capturing = true → (s.port p).link.state = .loconUp → x.wide = !(s.port p).inLchirp →
        r.snd = x → r.swing = (s.port p).tx.swing →
        r.keyIdx = (match (s.port p).tow.partner with | some c => c.keyIdx | none => 0xFF) → r.oui = (match (s.port p).tow.partner with | some c => c.oui | none => 0) →
        Does (.watchCaptureDone p x) s (fun t => (t.port p).watch.capturing = false ∧ t.journal.changed = true
          ∧ (x.wide = true → (t.port p).watch.refWide = some r ∧ (t.port p).watch.refNarrow = (s.port p).watch.refNarrow)
          ∧ (x.wide = false → (t.port p).watch.refNarrow = some r ∧ (t.port p).watch.refWide = (s.port p).watch.refWide)
          ∧ (s.ringRoom → t.told 0x0043 (portBlock p.val) p.val (if x.wide then 0 else 1))
          ∧ ∀ c, s.waiting (isWatch p) = some c → s.ended t c 0 (t.port p).watchWords))

/-- O58, derived: A march interval copies the next bank into the lowest spare, or waits; a march that ends frees the bank, or
fails it, counts, reports and answers BIST_RUN. A port test on an ungoverned port runs at once and marks what fails. A
loopback gives its errors, logic BIST its result and a soft reset. An automatic commit after 10 s, and a commanded one,
writes SEQ + 1 into the other slot; a commit that ends takes the slot or counts the failure, is reported and answered.
Slices that wait are placed again. TRST_N low resets the controller; else a TCK edge moves it on, its registers shift and
update, and TDO drives only in the shift states. The 16 controller states are the model's, PRESUMED from IEEE 1149.1
(notes/assumptions/5.md; the spec names the standard alone). Readings of the model that it rests on: notes/assumptions/5.md,
notes/assumptions/49.md, notes/assumptions/50.md. (R13, R35, R294, R411, R412, R413, R415, R432, R434, R436) -/
def Obligations.SelfTestAndJournalRows : Prop :=
  (∀ (s : State), s.clocked = true →
    (bit (s.act (regKey 5 0x01)) 0 = false → Does .marchInterval s (fun t => t.test = s.test ∧ t.basin = s.basin))
    ∧ (bit (s.act (regKey 5 0x01)) 0 = true → s.test.bank = none →
      (∀ b l k, s.mayRotate = true → s.nextRotation = some b → s.bank b = .inService l → s.lowestSpare = some k → Does .marchInterval s (fun t =>
          t.bank b = .copying k.val l ∧ t.bank k = .receiving l ∧ t.test.bank = some b.val ∧ t.test.marching = false ∧ t.test.nextBank = b.val + 1))
      ∧ (s.mayRotate = false → Does .marchInterval s (fun t => t.test = { s.test with waiting := true } ∧ t.basin = s.basin)))
    ∧ (∀ (b : Fin 68), s.test.bank = some b.val → s.test.marching = true →
      Does (.marchDone none) s (fun t => t.bank b = .spare ∧ t.test.bank = none ∧ t.test.passes = satAdd 0xFFFF s.test.passes 1 ∧ (s.ringRoom → t.told 0x0053 5 0 (wd b.val))
          ∧ ∀ c : Fin 16, s.test.marchChan = some c.val → (s.chan c).work = some .bistMarch → s.ended t c 0 [0, 0])
      ∧ ∀ w, Does (.marchDone (some w)) s (fun t => t.bank b = .failed ∧ t.test.bank = none ∧ t.test.fails = satAdd 0xFFFF s.test.fails 1
          ∧ (s.ringRoom → t.told 0x0053 5 0 (wd b.val)) ∧ ∀ c : Fin 16, s.test.marchChan = some c.val → (s.chan c).work = some .bistMarch → s.ended t c 0x0704 [256, wd w]))
    ∧ (∀ (p : Fin 16), bit (s.act (regKey 5 0x01)) 1 = true → 0 < fld (s.act (regKey 5 0x01)) 16 8 → s.enabled p = true → s.testHeld = false →
        (s.port p).test.running = false →
      (s.governor p = none →
        Does (.portTestInterval p []) s (fun t => (t.port p).test = { (s.port p).test with running := false, item := 0, firstBad := none })
        ∧ ∀ i < 106, Does (.portTestInterval p [elementOf i]) s (fun t => (t.port p).test.running = false ∧ (t.port p).test.firstBad = some (elementOf i)
            ∧ (i < 34 → (t.port p).test.badSlices.getLsbD i = true ∧ (t.port p).test.badCells = (s.port p).test.badCells)
            ∧ (34 ≤ i → (t.port p).test.badCells.getLsbD (i - 34) = true ∧ (t.port p).test.badSlices = (s.port p).test.badSlices)
            ∧ (s.ringRoom → t.told 0x0054 5 p.val (elementWord (some (elementOf i))))))
      ∧ (s.governor p ≠ none → ∀ l, Does (.portTestInterval p l) s (fun t => (t.port p).test = { (s.port p).test with running := true, item := 0, firstBad := none })))
    ∧ (∀ (p : Fin 16) l, (bit (s.act (regKey 5 0x01)) 1 = false ∨ s.enabled p = false ∨ s.testHeld = true) → Does (.portTestInterval p l) s (fun t =>
        (t.port p).test = (s.port p).test))
    ∧ (∀ (p : Fin 16) n, (s.port p).test.loop = true → Does (.loopbackDone p n) s (fun t => (t.port p).test = { (s.port p).test with loop := false }
        ∧ t.test.loopErr = wd (min 0xFFFFFFFF n)
        ∧ ∀ c, s.waiting (isLoop p) = some c → s.ended t c (if 0 < n then 0x0704 else 0) [wd (2 + if 0 < n then 256 else 0), wd (min 0xFFFFFFFF n)]))
    ∧ (s.keeper.mode = .running → s.journal.changed = true → s.journal.writing = none → s.journal.failRun < 3 → s.sup.pfailFrozen = false →
        (∀ k, s.journal.lastTick = some k → k + secTicks 10 ≤ s.ticks) →
        Does .journalAutoCommit s (fun t => t.journal.writing = some true ∧ t.journal.body = s.journalBody ∧ t.journal.taken = s.journal.taken
          ∧ (∀ y q, s.journal.taken = some (y, q) → t.journal.target = (!y, q + 1) ∧ (if y then t.journal.campion = none else t.journal.yarrow = none))))
    ∧ ((s.journal.changed = false ∨ s.journal.writing ≠ none ∨ 3 ≤ s.journal.failRun) → Does .journalAutoCommit s (fun t => t.journal.writing = s.journal.writing))
    ∧ (∀ a y q, s.journal.writing = some a → s.journal.target = (y, q) →
      Does (.journalCommitDone true) s (fun t => t.journal.taken = some (y, q) ∧ t.journal.failRun = 0
          ∧ (if y then t.journal.yarrow else t.journal.campion) = some (q, s.journal.body) ∧ (s.ringRoom → t.told 0x0065 1 0 0)
          ∧ ∀ c, a = false → s.waiting isCommit = some c → s.ended t c 0 [q, if y then 1 else 0])
      ∧ Does (.journalCommitDone false) s (fun t => t.journal.taken = s.journal.taken ∧ t.journal.failRun = (if a then s.journal.failRun + 1 else s.journal.failRun)
          ∧ (s.ringRoom → t.told 0x0065 1 0 1) ∧ ∀ c, a = false → s.waiting isCommit = some c → s.ended t c 0x0601 []))
    ∧ (∀ (p : Fin 16) l, s.cal.slotWait = [(p.val, false)] → ((s.port p).cal.running = false ∨ s.governor p = none) →
        Does (.engineSliceRetry l) s (fun t => t.cal.slotWait = [] ∧ (t.port p).cal = (s.port p).cal))
    ∧ (∀ (p : Fin 16), s.cal.slotWait = [(p.val, true)] → (s.port p).test.running = true →
      (s.testHeld = true → ∀ l, Does (.engineSliceRetry l) s (fun t => t.cal.slotWait = [(p.val, true)] ∧ (t.port p).test = (s.port p).test))
      ∧ (s.testHeld = false → s.governor p = none → Does (.engineSliceRetry []) s (fun t => t.cal.slotWait = [] ∧ (t.port p).test.running = false))))
  ∧ (∀ (s : State) (ok : Bool), s.keeper.mode = .lbist → Does (.lbistDone ok) s (fun t => t.test.lbRuns = s.test.lbRuns + 1 ∧ t.test.lbResult = (if ok then 1 else 2)
      ∧ t.sup.lbistDone = some ok ∧ t.sup.cause = some (6, 0) ∧ t.basin.queues = [] ∧ t.basin.tickets = []))
  ∧ (∀ (s : State) (ok : Bool), s.keeper.mode ≠ .lbist → Does (.lbistDone ok) s (fun t => t.test = s.test ∧ t.sup = s.sup))
  ∧ (∀ (s : State) (trstN tms tdi : Bool),
    ((s.sup.stage = .hardReset ∨ trstN = false) → Does (.boundaryScan trstN tms tdi) s (fun t => t.tap = {} ∧ t.ports.map (·.link) = s.ports.map (·.link)))
    ∧ (s.sup.stage ≠ .hardReset → trstN = true → Does (.boundaryScan trstN tms tdi) s (fun t => t.tap.state = tapNext s.tap.state tms
      ∧ t.ports.map (·.link) = s.ports.map (·.link)
      ∧ t.tap.tdo = (if tapNext s.tap.state tms = 4 ∨ tapNext s.tap.state tms = 11 then t.tap.shift.head? else none)
      ∧ ((s.tap.state = 4 ∨ s.tap.state = 11) → t.tap.shift = s.tap.shift.drop 1 ++ [tdi])
      ∧ (s.tap.state = 8 → t.tap.boundary = (if tapBoundary s.tap.ir then s.tap.shift else s.tap.boundary))
      ∧ (s.tap.state = 15 → t.tap.ir = some s.tap.shift) ∧ (s.tap.state = 0 → t.tap.ir = none))))

/-- O59, stated: Address bit 23 is ignored. Block numbers 0x00 to 0x05 name chip common, keeper, time, basin, tally and self-
test; 0x06 and 0x07 calibration; 0x08 to 0x0F the reach of bits [1:0]; 0x10 to 0x1F the port; 0x20 to 0x3F the host lane of
bits [2:0]; 0x40 to 0x7F the mailbox channel of bits [3:0]. A block's canonical base is its number times 0x0001_0000. (R348) -/
def Obligations.AddressBlocks : Prop :=
  ∀ (a : Addr) (n : Nat), n = a.toNat / 2 ^ 16 % 2 ^ 7 →
    decodeAddr a = decodeAddr (a ^^^ 0x800000)
    ∧ (n ≤ 5 → (decodeAddr a).block = n)
    ∧ (n = 6 ∨ n = 7 → (decodeAddr a).block = 6)
    ∧ (8 ≤ n → n ≤ 0x0F → (decodeAddr a).block = reachBlock (n % 4))
    ∧ (0x10 ≤ n → n ≤ 0x1F → (decodeAddr a).block = portBlock (n - 0x10))
    ∧ (0x20 ≤ n → n ≤ 0x3F → (decodeAddr a).block = laneBlock (n % 8))
    ∧ (0x40 ≤ n → (decodeAddr a).block = mboxBlock (n % 16))
    ∧ (plainAddr (decodeAddr a).block 0).toNat = 0x10000 * (decodeAddr a).block
    ∧ (∀ r < 4, (plainAddr (reachBlock r) 0).toNat = 0x80000 + 0x10000 * r)
    ∧ (∀ p < 16, (plainAddr (portBlock p) 0).toNat = 0x100000 + 0x10000 * p)
    ∧ (∀ l < 8, (plainAddr (laneBlock l) 0).toNat = 0x200000 + 0x10000 * l)
    ∧ (∀ c < 16, (plainAddr (mboxBlock c) 0).toNat = 0x400000 + 0x10000 * c)

/-- O60, stated: Bits [15:14] give the access alias, 00 plain, 01 set, 10 clear and 11 toggle; bit 10 the complement window;
bits [9:2] the register index, at byte offset 4 times the index; bits [13:11] and [1:0] are ignored. (R349) -/
def Obligations.AddressWithinBlock : Prop :=
  ∀ (a : Addr),
    ((a.getLsbD 15 = false ∧ a.getLsbD 14 = false) → (decodeAddr a).way = .plain)
    ∧ ((a.getLsbD 15 = false ∧ a.getLsbD 14 = true) → (decodeAddr a).way = .setBits)
    ∧ ((a.getLsbD 15 = true ∧ a.getLsbD 14 = false) → (decodeAddr a).way = .clearBits)
    ∧ ((a.getLsbD 15 = true ∧ a.getLsbD 14 = true) → (decodeAddr a).way = .toggle)
    ∧ (decodeAddr a).comp = a.getLsbD 10
    ∧ (decodeAddr a).index = (a.extractLsb' 2 8).toNat
    ∧ (∀ m : BitVec 24, m &&& 0x3803 = m → decodeAddr (a ^^^ m) = decodeAddr a)
    ∧ (∀ b ix, b < 128 → ix < 256 → (plainAddr b ix).toNat = 0x10000 * b + 4 * ix)
end

