-- ==== Sys2Proof/Laws/State.lean ====
section
/-! SUPPORT. One lemma for each field of State and each update of a part of it, true by rfl, so that no proof unfolds a
record update. -/

namespace Sys2Proof.Machine

/-! ### modPort -/

@[simp] theorem State.modPort_pending (s : State) (p : Fin 16) (f : Port → Port) : (s.modPort p f).pending = s.pending := rfl
@[simp] theorem State.modPort_ticks (s : State) (p : Fin 16) (f : Port → Port) : (s.modPort p f).ticks = s.ticks := rfl
@[simp] theorem State.modPort_draws (s : State) (p : Fin 16) (f : Port → Port) : (s.modPort p f).draws = s.draws := rfl
@[simp] theorem State.modPort_die (s : State) (p : Fin 16) (f : Port → Port) : (s.modPort p f).die = s.die := rfl
@[simp] theorem State.modPort_otp (s : State) (p : Fin 16) (f : Port → Port) : (s.modPort p f).otp = s.otp := rfl
@[simp] theorem State.modPort_regs (s : State) (p : Fin 16) (f : Port → Port) : (s.modPort p f).regs = s.regs := rfl
@[simp] theorem State.modPort_keeperInd (s : State) (p : Fin 16) (f : Port → Port) : (s.modPort p f).keeperInd = s.keeperInd := rfl
@[simp] theorem State.modPort_parity (s : State) (p : Fin 16) (f : Port → Port) : (s.modPort p f).parity = s.parity := rfl
@[simp] theorem State.modPort_mended (s : State) (p : Fin 16) (f : Port → Port) : (s.modPort p f).mended = s.mended := rfl
@[simp] theorem State.modPort_sup (s : State) (p : Fin 16) (f : Port → Port) : (s.modPort p f).sup = s.sup := rfl
@[simp] theorem State.modPort_clk (s : State) (p : Fin 16) (f : Port → Port) : (s.modPort p f).clk = s.clk := rfl
@[simp] theorem State.modPort_dom (s : State) (p : Fin 16) (f : Port → Port) : (s.modPort p f).dom = s.dom := rfl
@[simp] theorem State.modPort_spi (s : State) (p : Fin 16) (f : Port → Port) : (s.modPort p f).spi = s.spi := rfl
@[simp] theorem State.modPort_mon (s : State) (p : Fin 16) (f : Port → Port) : (s.modPort p f).mon = s.mon := rfl
@[simp] theorem State.modPort_kpi (s : State) (p : Fin 16) (f : Port → Port) : (s.modPort p f).kpi = s.kpi := rfl
@[simp] theorem State.modPort_gdAbort (s : State) (p : Fin 16) (f : Port → Port) : (s.modPort p f).gdAbort = s.gdAbort := rfl
@[simp] theorem State.modPort_gdMismatch (s : State) (p : Fin 16) (f : Port → Port) : (s.modPort p f).gdMismatch = s.gdMismatch := rfl
@[simp] theorem State.modPort_gdBare (s : State) (p : Fin 16) (f : Port → Port) : (s.modPort p f).gdBare = s.gdBare := rfl
@[simp] theorem State.modPort_crcErr (s : State) (p : Fin 16) (f : Port → Port) : (s.modPort p f).crcErr = s.crcErr := rfl
@[simp] theorem State.modPort_frameErr (s : State) (p : Fin 16) (f : Port → Port) : (s.modPort p f).frameErr = s.frameErr := rfl
@[simp] theorem State.modPort_mdio (s : State) (p : Fin 16) (f : Port → Port) : (s.modPort p f).mdio = s.mdio := rfl
@[simp] theorem State.modPort_monitor (s : State) (p : Fin 16) (f : Port → Port) : (s.modPort p f).monitor = s.monitor := rfl
@[simp] theorem State.modPort_reaches (s : State) (p : Fin 16) (f : Port → Port) : (s.modPort p f).reaches = s.reaches := rfl
@[simp] theorem State.modPort_lanes (s : State) (p : Fin 16) (f : Port → Port) : (s.modPort p f).lanes = s.lanes := rfl
@[simp] theorem State.modPort_basin (s : State) (p : Fin 16) (f : Port → Port) : (s.modPort p f).basin = s.basin := rfl
@[simp] theorem State.modPort_time (s : State) (p : Fin 16) (f : Port → Port) : (s.modPort p f).time = s.time := rfl
@[simp] theorem State.modPort_cal (s : State) (p : Fin 16) (f : Port → Port) : (s.modPort p f).cal = s.cal := rfl
@[simp] theorem State.modPort_ring (s : State) (p : Fin 16) (f : Port → Port) : (s.modPort p f).ring = s.ring := rfl
@[simp] theorem State.modPort_chans (s : State) (p : Fin 16) (f : Port → Port) : (s.modPort p f).chans = s.chans := rfl
@[simp] theorem State.modPort_keeper (s : State) (p : Fin 16) (f : Port → Port) : (s.modPort p f).keeper = s.keeper := rfl
@[simp] theorem State.modPort_tally (s : State) (p : Fin 16) (f : Port → Port) : (s.modPort p f).tally = s.tally := rfl
@[simp] theorem State.modPort_test (s : State) (p : Fin 16) (f : Port → Port) : (s.modPort p f).test = s.test := rfl
@[simp] theorem State.modPort_keys (s : State) (p : Fin 16) (f : Port → Port) : (s.modPort p f).keys = s.keys := rfl
@[simp] theorem State.modPort_journal (s : State) (p : Fin 16) (f : Port → Port) : (s.modPort p f).journal = s.journal := rfl
@[simp] theorem State.modPort_tap (s : State) (p : Fin 16) (f : Port → Port) : (s.modPort p f).tap = s.tap := rfl

/-! ### modLane -/

@[simp] theorem State.modLane_pending (s : State) (n : Fin 8) (f : Lane → Lane) : (s.modLane n f).pending = s.pending := rfl
@[simp] theorem State.modLane_ticks (s : State) (n : Fin 8) (f : Lane → Lane) : (s.modLane n f).ticks = s.ticks := rfl
@[simp] theorem State.modLane_draws (s : State) (n : Fin 8) (f : Lane → Lane) : (s.modLane n f).draws = s.draws := rfl
@[simp] theorem State.modLane_die (s : State) (n : Fin 8) (f : Lane → Lane) : (s.modLane n f).die = s.die := rfl
@[simp] theorem State.modLane_otp (s : State) (n : Fin 8) (f : Lane → Lane) : (s.modLane n f).otp = s.otp := rfl
@[simp] theorem State.modLane_regs (s : State) (n : Fin 8) (f : Lane → Lane) : (s.modLane n f).regs = s.regs := rfl
@[simp] theorem State.modLane_keeperInd (s : State) (n : Fin 8) (f : Lane → Lane) : (s.modLane n f).keeperInd = s.keeperInd := rfl
@[simp] theorem State.modLane_parity (s : State) (n : Fin 8) (f : Lane → Lane) : (s.modLane n f).parity = s.parity := rfl
@[simp] theorem State.modLane_mended (s : State) (n : Fin 8) (f : Lane → Lane) : (s.modLane n f).mended = s.mended := rfl
@[simp] theorem State.modLane_sup (s : State) (n : Fin 8) (f : Lane → Lane) : (s.modLane n f).sup = s.sup := rfl
@[simp] theorem State.modLane_clk (s : State) (n : Fin 8) (f : Lane → Lane) : (s.modLane n f).clk = s.clk := rfl
@[simp] theorem State.modLane_dom (s : State) (n : Fin 8) (f : Lane → Lane) : (s.modLane n f).dom = s.dom := rfl
@[simp] theorem State.modLane_spi (s : State) (n : Fin 8) (f : Lane → Lane) : (s.modLane n f).spi = s.spi := rfl
@[simp] theorem State.modLane_mon (s : State) (n : Fin 8) (f : Lane → Lane) : (s.modLane n f).mon = s.mon := rfl
@[simp] theorem State.modLane_kpi (s : State) (n : Fin 8) (f : Lane → Lane) : (s.modLane n f).kpi = s.kpi := rfl
@[simp] theorem State.modLane_gdAbort (s : State) (n : Fin 8) (f : Lane → Lane) : (s.modLane n f).gdAbort = s.gdAbort := rfl
@[simp] theorem State.modLane_gdMismatch (s : State) (n : Fin 8) (f : Lane → Lane) : (s.modLane n f).gdMismatch = s.gdMismatch := rfl
@[simp] theorem State.modLane_gdBare (s : State) (n : Fin 8) (f : Lane → Lane) : (s.modLane n f).gdBare = s.gdBare := rfl
@[simp] theorem State.modLane_crcErr (s : State) (n : Fin 8) (f : Lane → Lane) : (s.modLane n f).crcErr = s.crcErr := rfl
@[simp] theorem State.modLane_frameErr (s : State) (n : Fin 8) (f : Lane → Lane) : (s.modLane n f).frameErr = s.frameErr := rfl
@[simp] theorem State.modLane_mdio (s : State) (n : Fin 8) (f : Lane → Lane) : (s.modLane n f).mdio = s.mdio := rfl
@[simp] theorem State.modLane_monitor (s : State) (n : Fin 8) (f : Lane → Lane) : (s.modLane n f).monitor = s.monitor := rfl
@[simp] theorem State.modLane_ports (s : State) (n : Fin 8) (f : Lane → Lane) : (s.modLane n f).ports = s.ports := rfl
@[simp] theorem State.modLane_reaches (s : State) (n : Fin 8) (f : Lane → Lane) : (s.modLane n f).reaches = s.reaches := rfl
@[simp] theorem State.modLane_basin (s : State) (n : Fin 8) (f : Lane → Lane) : (s.modLane n f).basin = s.basin := rfl
@[simp] theorem State.modLane_time (s : State) (n : Fin 8) (f : Lane → Lane) : (s.modLane n f).time = s.time := rfl
@[simp] theorem State.modLane_cal (s : State) (n : Fin 8) (f : Lane → Lane) : (s.modLane n f).cal = s.cal := rfl
@[simp] theorem State.modLane_ring (s : State) (n : Fin 8) (f : Lane → Lane) : (s.modLane n f).ring = s.ring := rfl
@[simp] theorem State.modLane_chans (s : State) (n : Fin 8) (f : Lane → Lane) : (s.modLane n f).chans = s.chans := rfl
@[simp] theorem State.modLane_keeper (s : State) (n : Fin 8) (f : Lane → Lane) : (s.modLane n f).keeper = s.keeper := rfl
@[simp] theorem State.modLane_tally (s : State) (n : Fin 8) (f : Lane → Lane) : (s.modLane n f).tally = s.tally := rfl
@[simp] theorem State.modLane_test (s : State) (n : Fin 8) (f : Lane → Lane) : (s.modLane n f).test = s.test := rfl
@[simp] theorem State.modLane_keys (s : State) (n : Fin 8) (f : Lane → Lane) : (s.modLane n f).keys = s.keys := rfl
@[simp] theorem State.modLane_journal (s : State) (n : Fin 8) (f : Lane → Lane) : (s.modLane n f).journal = s.journal := rfl
@[simp] theorem State.modLane_tap (s : State) (n : Fin 8) (f : Lane → Lane) : (s.modLane n f).tap = s.tap := rfl

/-! ### modReach -/

@[simp] theorem State.modReach_pending (s : State) (r : Fin 4) (f : Reach → Reach) : (s.modReach r f).pending = s.pending := rfl
@[simp] theorem State.modReach_ticks (s : State) (r : Fin 4) (f : Reach → Reach) : (s.modReach r f).ticks = s.ticks := rfl
@[simp] theorem State.modReach_draws (s : State) (r : Fin 4) (f : Reach → Reach) : (s.modReach r f).draws = s.draws := rfl
@[simp] theorem State.modReach_die (s : State) (r : Fin 4) (f : Reach → Reach) : (s.modReach r f).die = s.die := rfl
@[simp] theorem State.modReach_otp (s : State) (r : Fin 4) (f : Reach → Reach) : (s.modReach r f).otp = s.otp := rfl
@[simp] theorem State.modReach_regs (s : State) (r : Fin 4) (f : Reach → Reach) : (s.modReach r f).regs = s.regs := rfl
@[simp] theorem State.modReach_keeperInd (s : State) (r : Fin 4) (f : Reach → Reach) : (s.modReach r f).keeperInd = s.keeperInd := rfl
@[simp] theorem State.modReach_parity (s : State) (r : Fin 4) (f : Reach → Reach) : (s.modReach r f).parity = s.parity := rfl
@[simp] theorem State.modReach_mended (s : State) (r : Fin 4) (f : Reach → Reach) : (s.modReach r f).mended = s.mended := rfl
@[simp] theorem State.modReach_sup (s : State) (r : Fin 4) (f : Reach → Reach) : (s.modReach r f).sup = s.sup := rfl
@[simp] theorem State.modReach_clk (s : State) (r : Fin 4) (f : Reach → Reach) : (s.modReach r f).clk = s.clk := rfl
@[simp] theorem State.modReach_dom (s : State) (r : Fin 4) (f : Reach → Reach) : (s.modReach r f).dom = s.dom := rfl
@[simp] theorem State.modReach_spi (s : State) (r : Fin 4) (f : Reach → Reach) : (s.modReach r f).spi = s.spi := rfl
@[simp] theorem State.modReach_mon (s : State) (r : Fin 4) (f : Reach → Reach) : (s.modReach r f).mon = s.mon := rfl
@[simp] theorem State.modReach_kpi (s : State) (r : Fin 4) (f : Reach → Reach) : (s.modReach r f).kpi = s.kpi := rfl
@[simp] theorem State.modReach_gdAbort (s : State) (r : Fin 4) (f : Reach → Reach) : (s.modReach r f).gdAbort = s.gdAbort := rfl
@[simp] theorem State.modReach_gdMismatch (s : State) (r : Fin 4) (f : Reach → Reach) : (s.modReach r f).gdMismatch = s.gdMismatch := rfl
@[simp] theorem State.modReach_gdBare (s : State) (r : Fin 4) (f : Reach → Reach) : (s.modReach r f).gdBare = s.gdBare := rfl
@[simp] theorem State.modReach_crcErr (s : State) (r : Fin 4) (f : Reach → Reach) : (s.modReach r f).crcErr = s.crcErr := rfl
@[simp] theorem State.modReach_frameErr (s : State) (r : Fin 4) (f : Reach → Reach) : (s.modReach r f).frameErr = s.frameErr := rfl
@[simp] theorem State.modReach_mdio (s : State) (r : Fin 4) (f : Reach → Reach) : (s.modReach r f).mdio = s.mdio := rfl
@[simp] theorem State.modReach_monitor (s : State) (r : Fin 4) (f : Reach → Reach) : (s.modReach r f).monitor = s.monitor := rfl
@[simp] theorem State.modReach_ports (s : State) (r : Fin 4) (f : Reach → Reach) : (s.modReach r f).ports = s.ports := rfl
@[simp] theorem State.modReach_lanes (s : State) (r : Fin 4) (f : Reach → Reach) : (s.modReach r f).lanes = s.lanes := rfl
@[simp] theorem State.modReach_basin (s : State) (r : Fin 4) (f : Reach → Reach) : (s.modReach r f).basin = s.basin := rfl
@[simp] theorem State.modReach_time (s : State) (r : Fin 4) (f : Reach → Reach) : (s.modReach r f).time = s.time := rfl
@[simp] theorem State.modReach_cal (s : State) (r : Fin 4) (f : Reach → Reach) : (s.modReach r f).cal = s.cal := rfl
@[simp] theorem State.modReach_ring (s : State) (r : Fin 4) (f : Reach → Reach) : (s.modReach r f).ring = s.ring := rfl
@[simp] theorem State.modReach_chans (s : State) (r : Fin 4) (f : Reach → Reach) : (s.modReach r f).chans = s.chans := rfl
@[simp] theorem State.modReach_keeper (s : State) (r : Fin 4) (f : Reach → Reach) : (s.modReach r f).keeper = s.keeper := rfl
@[simp] theorem State.modReach_tally (s : State) (r : Fin 4) (f : Reach → Reach) : (s.modReach r f).tally = s.tally := rfl
@[simp] theorem State.modReach_test (s : State) (r : Fin 4) (f : Reach → Reach) : (s.modReach r f).test = s.test := rfl
@[simp] theorem State.modReach_keys (s : State) (r : Fin 4) (f : Reach → Reach) : (s.modReach r f).keys = s.keys := rfl
@[simp] theorem State.modReach_journal (s : State) (r : Fin 4) (f : Reach → Reach) : (s.modReach r f).journal = s.journal := rfl
@[simp] theorem State.modReach_tap (s : State) (r : Fin 4) (f : Reach → Reach) : (s.modReach r f).tap = s.tap := rfl

/-! ### modChan -/

@[simp] theorem State.modChan_pending (s : State) (c : Fin 16) (f : Channel → Channel) : (s.modChan c f).pending = s.pending := rfl
@[simp] theorem State.modChan_ticks (s : State) (c : Fin 16) (f : Channel → Channel) : (s.modChan c f).ticks = s.ticks := rfl
@[simp] theorem State.modChan_draws (s : State) (c : Fin 16) (f : Channel → Channel) : (s.modChan c f).draws = s.draws := rfl
@[simp] theorem State.modChan_die (s : State) (c : Fin 16) (f : Channel → Channel) : (s.modChan c f).die = s.die := rfl
@[simp] theorem State.modChan_otp (s : State) (c : Fin 16) (f : Channel → Channel) : (s.modChan c f).otp = s.otp := rfl
@[simp] theorem State.modChan_regs (s : State) (c : Fin 16) (f : Channel → Channel) : (s.modChan c f).regs = s.regs := rfl
@[simp] theorem State.modChan_keeperInd (s : State) (c : Fin 16) (f : Channel → Channel) : (s.modChan c f).keeperInd = s.keeperInd := rfl
@[simp] theorem State.modChan_parity (s : State) (c : Fin 16) (f : Channel → Channel) : (s.modChan c f).parity = s.parity := rfl
@[simp] theorem State.modChan_mended (s : State) (c : Fin 16) (f : Channel → Channel) : (s.modChan c f).mended = s.mended := rfl
@[simp] theorem State.modChan_sup (s : State) (c : Fin 16) (f : Channel → Channel) : (s.modChan c f).sup = s.sup := rfl
@[simp] theorem State.modChan_clk (s : State) (c : Fin 16) (f : Channel → Channel) : (s.modChan c f).clk = s.clk := rfl
@[simp] theorem State.modChan_dom (s : State) (c : Fin 16) (f : Channel → Channel) : (s.modChan c f).dom = s.dom := rfl
@[simp] theorem State.modChan_spi (s : State) (c : Fin 16) (f : Channel → Channel) : (s.modChan c f).spi = s.spi := rfl
@[simp] theorem State.modChan_mon (s : State) (c : Fin 16) (f : Channel → Channel) : (s.modChan c f).mon = s.mon := rfl
@[simp] theorem State.modChan_kpi (s : State) (c : Fin 16) (f : Channel → Channel) : (s.modChan c f).kpi = s.kpi := rfl
@[simp] theorem State.modChan_gdAbort (s : State) (c : Fin 16) (f : Channel → Channel) : (s.modChan c f).gdAbort = s.gdAbort := rfl
@[simp] theorem State.modChan_gdMismatch (s : State) (c : Fin 16) (f : Channel → Channel) : (s.modChan c f).gdMismatch = s.gdMismatch := rfl
@[simp] theorem State.modChan_gdBare (s : State) (c : Fin 16) (f : Channel → Channel) : (s.modChan c f).gdBare = s.gdBare := rfl
@[simp] theorem State.modChan_crcErr (s : State) (c : Fin 16) (f : Channel → Channel) : (s.modChan c f).crcErr = s.crcErr := rfl
@[simp] theorem State.modChan_frameErr (s : State) (c : Fin 16) (f : Channel → Channel) : (s.modChan c f).frameErr = s.frameErr := rfl
@[simp] theorem State.modChan_mdio (s : State) (c : Fin 16) (f : Channel → Channel) : (s.modChan c f).mdio = s.mdio := rfl
@[simp] theorem State.modChan_monitor (s : State) (c : Fin 16) (f : Channel → Channel) : (s.modChan c f).monitor = s.monitor := rfl
@[simp] theorem State.modChan_ports (s : State) (c : Fin 16) (f : Channel → Channel) : (s.modChan c f).ports = s.ports := rfl
@[simp] theorem State.modChan_reaches (s : State) (c : Fin 16) (f : Channel → Channel) : (s.modChan c f).reaches = s.reaches := rfl
@[simp] theorem State.modChan_lanes (s : State) (c : Fin 16) (f : Channel → Channel) : (s.modChan c f).lanes = s.lanes := rfl
@[simp] theorem State.modChan_basin (s : State) (c : Fin 16) (f : Channel → Channel) : (s.modChan c f).basin = s.basin := rfl
@[simp] theorem State.modChan_time (s : State) (c : Fin 16) (f : Channel → Channel) : (s.modChan c f).time = s.time := rfl
@[simp] theorem State.modChan_cal (s : State) (c : Fin 16) (f : Channel → Channel) : (s.modChan c f).cal = s.cal := rfl
@[simp] theorem State.modChan_ring (s : State) (c : Fin 16) (f : Channel → Channel) : (s.modChan c f).ring = s.ring := rfl
@[simp] theorem State.modChan_keeper (s : State) (c : Fin 16) (f : Channel → Channel) : (s.modChan c f).keeper = s.keeper := rfl
@[simp] theorem State.modChan_tally (s : State) (c : Fin 16) (f : Channel → Channel) : (s.modChan c f).tally = s.tally := rfl
@[simp] theorem State.modChan_test (s : State) (c : Fin 16) (f : Channel → Channel) : (s.modChan c f).test = s.test := rfl
@[simp] theorem State.modChan_keys (s : State) (c : Fin 16) (f : Channel → Channel) : (s.modChan c f).keys = s.keys := rfl
@[simp] theorem State.modChan_journal (s : State) (c : Fin 16) (f : Channel → Channel) : (s.modChan c f).journal = s.journal := rfl
@[simp] theorem State.modChan_tap (s : State) (c : Fin 16) (f : Channel → Channel) : (s.modChan c f).tap = s.tap := rfl

/-! ### setReg -/

@[simp] theorem State.setReg_pending (s : State) (k : Nat) (v : Word) : (s.setReg k v).pending = s.pending := rfl
@[simp] theorem State.setReg_ticks (s : State) (k : Nat) (v : Word) : (s.setReg k v).ticks = s.ticks := rfl
@[simp] theorem State.setReg_draws (s : State) (k : Nat) (v : Word) : (s.setReg k v).draws = s.draws := rfl
@[simp] theorem State.setReg_die (s : State) (k : Nat) (v : Word) : (s.setReg k v).die = s.die := rfl
@[simp] theorem State.setReg_otp (s : State) (k : Nat) (v : Word) : (s.setReg k v).otp = s.otp := rfl
@[simp] theorem State.setReg_keeperInd (s : State) (k : Nat) (v : Word) : (s.setReg k v).keeperInd = s.keeperInd := rfl
@[simp] theorem State.setReg_parity (s : State) (k : Nat) (v : Word) : (s.setReg k v).parity = s.parity := rfl
@[simp] theorem State.setReg_sup (s : State) (k : Nat) (v : Word) : (s.setReg k v).sup = s.sup := rfl
@[simp] theorem State.setReg_clk (s : State) (k : Nat) (v : Word) : (s.setReg k v).clk = s.clk := rfl
@[simp] theorem State.setReg_dom (s : State) (k : Nat) (v : Word) : (s.setReg k v).dom = s.dom := rfl
@[simp] theorem State.setReg_spi (s : State) (k : Nat) (v : Word) : (s.setReg k v).spi = s.spi := rfl
@[simp] theorem State.setReg_mon (s : State) (k : Nat) (v : Word) : (s.setReg k v).mon = s.mon := rfl
@[simp] theorem State.setReg_kpi (s : State) (k : Nat) (v : Word) : (s.setReg k v).kpi = s.kpi := rfl
@[simp] theorem State.setReg_gdAbort (s : State) (k : Nat) (v : Word) : (s.setReg k v).gdAbort = s.gdAbort := rfl
@[simp] theorem State.setReg_gdMismatch (s : State) (k : Nat) (v : Word) : (s.setReg k v).gdMismatch = s.gdMismatch := rfl
@[simp] theorem State.setReg_gdBare (s : State) (k : Nat) (v : Word) : (s.setReg k v).gdBare = s.gdBare := rfl
@[simp] theorem State.setReg_crcErr (s : State) (k : Nat) (v : Word) : (s.setReg k v).crcErr = s.crcErr := rfl
@[simp] theorem State.setReg_frameErr (s : State) (k : Nat) (v : Word) : (s.setReg k v).frameErr = s.frameErr := rfl
@[simp] theorem State.setReg_mdio (s : State) (k : Nat) (v : Word) : (s.setReg k v).mdio = s.mdio := rfl
@[simp] theorem State.setReg_monitor (s : State) (k : Nat) (v : Word) : (s.setReg k v).monitor = s.monitor := rfl
@[simp] theorem State.setReg_ports (s : State) (k : Nat) (v : Word) : (s.setReg k v).ports = s.ports := rfl
@[simp] theorem State.setReg_reaches (s : State) (k : Nat) (v : Word) : (s.setReg k v).reaches = s.reaches := rfl
@[simp] theorem State.setReg_lanes (s : State) (k : Nat) (v : Word) : (s.setReg k v).lanes = s.lanes := rfl
@[simp] theorem State.setReg_basin (s : State) (k : Nat) (v : Word) : (s.setReg k v).basin = s.basin := rfl
@[simp] theorem State.setReg_time (s : State) (k : Nat) (v : Word) : (s.setReg k v).time = s.time := rfl
@[simp] theorem State.setReg_cal (s : State) (k : Nat) (v : Word) : (s.setReg k v).cal = s.cal := rfl
@[simp] theorem State.setReg_ring (s : State) (k : Nat) (v : Word) : (s.setReg k v).ring = s.ring := rfl
@[simp] theorem State.setReg_chans (s : State) (k : Nat) (v : Word) : (s.setReg k v).chans = s.chans := rfl
@[simp] theorem State.setReg_keeper (s : State) (k : Nat) (v : Word) : (s.setReg k v).keeper = s.keeper := rfl
@[simp] theorem State.setReg_tally (s : State) (k : Nat) (v : Word) : (s.setReg k v).tally = s.tally := rfl
@[simp] theorem State.setReg_test (s : State) (k : Nat) (v : Word) : (s.setReg k v).test = s.test := rfl
@[simp] theorem State.setReg_keys (s : State) (k : Nat) (v : Word) : (s.setReg k v).keys = s.keys := rfl
@[simp] theorem State.setReg_journal (s : State) (k : Nat) (v : Word) : (s.setReg k v).journal = s.journal := rfl
@[simp] theorem State.setReg_tap (s : State) (k : Nat) (v : Word) : (s.setReg k v).tap = s.tap := rfl

/-! ### modIface -/

@[simp] theorem State.modIface_pending (s : State) (i : Iface) (f : IfaceRec → IfaceRec) : (s.modIface i f).pending = s.pending := by cases i <;> rfl
@[simp] theorem State.modIface_ticks (s : State) (i : Iface) (f : IfaceRec → IfaceRec) : (s.modIface i f).ticks = s.ticks := by cases i <;> rfl
@[simp] theorem State.modIface_draws (s : State) (i : Iface) (f : IfaceRec → IfaceRec) : (s.modIface i f).draws = s.draws := by cases i <;> rfl
@[simp] theorem State.modIface_die (s : State) (i : Iface) (f : IfaceRec → IfaceRec) : (s.modIface i f).die = s.die := by cases i <;> rfl
@[simp] theorem State.modIface_otp (s : State) (i : Iface) (f : IfaceRec → IfaceRec) : (s.modIface i f).otp = s.otp := by cases i <;> rfl
@[simp] theorem State.modIface_regs (s : State) (i : Iface) (f : IfaceRec → IfaceRec) : (s.modIface i f).regs = s.regs := by cases i <;> rfl
@[simp] theorem State.modIface_keeperInd (s : State) (i : Iface) (f : IfaceRec → IfaceRec) : (s.modIface i f).keeperInd = s.keeperInd := by cases i <;> rfl
@[simp] theorem State.modIface_parity (s : State) (i : Iface) (f : IfaceRec → IfaceRec) : (s.modIface i f).parity = s.parity := by cases i <;> rfl
@[simp] theorem State.modIface_mended (s : State) (i : Iface) (f : IfaceRec → IfaceRec) : (s.modIface i f).mended = s.mended := by cases i <;> rfl
@[simp] theorem State.modIface_sup (s : State) (i : Iface) (f : IfaceRec → IfaceRec) : (s.modIface i f).sup = s.sup := by cases i <;> rfl
@[simp] theorem State.modIface_clk (s : State) (i : Iface) (f : IfaceRec → IfaceRec) : (s.modIface i f).clk = s.clk := by cases i <;> rfl
@[simp] theorem State.modIface_dom (s : State) (i : Iface) (f : IfaceRec → IfaceRec) : (s.modIface i f).dom = s.dom := by cases i <;> rfl
@[simp] theorem State.modIface_gdAbort (s : State) (i : Iface) (f : IfaceRec → IfaceRec) : (s.modIface i f).gdAbort = s.gdAbort := by cases i <;> rfl
@[simp] theorem State.modIface_gdMismatch (s : State) (i : Iface) (f : IfaceRec → IfaceRec) : (s.modIface i f).gdMismatch = s.gdMismatch := by cases i <;> rfl
@[simp] theorem State.modIface_gdBare (s : State) (i : Iface) (f : IfaceRec → IfaceRec) : (s.modIface i f).gdBare = s.gdBare := by cases i <;> rfl
@[simp] theorem State.modIface_crcErr (s : State) (i : Iface) (f : IfaceRec → IfaceRec) : (s.modIface i f).crcErr = s.crcErr := by cases i <;> rfl
@[simp] theorem State.modIface_frameErr (s : State) (i : Iface) (f : IfaceRec → IfaceRec) : (s.modIface i f).frameErr = s.frameErr := by cases i <;> rfl
@[simp] theorem State.modIface_mdio (s : State) (i : Iface) (f : IfaceRec → IfaceRec) : (s.modIface i f).mdio = s.mdio := by cases i <;> rfl
@[simp] theorem State.modIface_monitor (s : State) (i : Iface) (f : IfaceRec → IfaceRec) : (s.modIface i f).monitor = s.monitor := by cases i <;> rfl
@[simp] theorem State.modIface_ports (s : State) (i : Iface) (f : IfaceRec → IfaceRec) : (s.modIface i f).ports = s.ports := by cases i <;> rfl
@[simp] theorem State.modIface_reaches (s : State) (i : Iface) (f : IfaceRec → IfaceRec) : (s.modIface i f).reaches = s.reaches := by cases i <;> rfl
@[simp] theorem State.modIface_lanes (s : State) (i : Iface) (f : IfaceRec → IfaceRec) : (s.modIface i f).lanes = s.lanes := by cases i <;> rfl
@[simp] theorem State.modIface_basin (s : State) (i : Iface) (f : IfaceRec → IfaceRec) : (s.modIface i f).basin = s.basin := by cases i <;> rfl
@[simp] theorem State.modIface_time (s : State) (i : Iface) (f : IfaceRec → IfaceRec) : (s.modIface i f).time = s.time := by cases i <;> rfl
@[simp] theorem State.modIface_cal (s : State) (i : Iface) (f : IfaceRec → IfaceRec) : (s.modIface i f).cal = s.cal := by cases i <;> rfl
@[simp] theorem State.modIface_ring (s : State) (i : Iface) (f : IfaceRec → IfaceRec) : (s.modIface i f).ring = s.ring := by cases i <;> rfl
@[simp] theorem State.modIface_chans (s : State) (i : Iface) (f : IfaceRec → IfaceRec) : (s.modIface i f).chans = s.chans := by cases i <;> rfl
@[simp] theorem State.modIface_keeper (s : State) (i : Iface) (f : IfaceRec → IfaceRec) : (s.modIface i f).keeper = s.keeper := by cases i <;> rfl
@[simp] theorem State.modIface_tally (s : State) (i : Iface) (f : IfaceRec → IfaceRec) : (s.modIface i f).tally = s.tally := by cases i <;> rfl
@[simp] theorem State.modIface_test (s : State) (i : Iface) (f : IfaceRec → IfaceRec) : (s.modIface i f).test = s.test := by cases i <;> rfl
@[simp] theorem State.modIface_keys (s : State) (i : Iface) (f : IfaceRec → IfaceRec) : (s.modIface i f).keys = s.keys := by cases i <;> rfl
@[simp] theorem State.modIface_journal (s : State) (i : Iface) (f : IfaceRec → IfaceRec) : (s.modIface i f).journal = s.journal := by cases i <;> rfl
@[simp] theorem State.modIface_tap (s : State) (i : Iface) (f : IfaceRec → IfaceRec) : (s.modIface i f).tap = s.tap := by cases i <;> rfl

/-! ### Parts read back -/

theorem vec_get_set_same {α : Type} {n : Nat} (v : Vector α n) (i : Fin n) (x : α) : (v.set i.val x i.isLt).get i = x := by
  show (v.set i.val x i.isLt)[i.val] = x
  simp

theorem vec_get_set_ne {α : Type} {n : Nat} (v : Vector α n) {i j : Fin n} (h : j ≠ i) (x : α) :
    (v.set i.val x i.isLt).get j = v.get j := by
  show (v.set i.val x i.isLt)[j.val] = v[j.val]
  exact Vector.getElem_set_ne _ _ (fun e => h (Fin.ext e.symm))

@[simp] theorem State.port_modPort_same (s : State) (p : Fin 16) (f : Port → Port) : (s.modPort p f).port p = f (s.port p) :=
  vec_get_set_same _ _ _

theorem State.port_modPort_ne (s : State) {p q : Fin 16} (h : q ≠ p) (f : Port → Port) : (s.modPort p f).port q = s.port q :=
  vec_get_set_ne _ h _

@[simp] theorem State.lane_modLane_same (s : State) (n : Fin 8) (f : Lane → Lane) : (s.modLane n f).lane n = f (s.lane n) :=
  vec_get_set_same _ _ _

theorem State.lane_modLane_ne (s : State) {n m : Fin 8} (h : m ≠ n) (f : Lane → Lane) : (s.modLane n f).lane m = s.lane m :=
  vec_get_set_ne _ h _

@[simp] theorem State.chan_modChan_same (s : State) (c : Fin 16) (f : Channel → Channel) : (s.modChan c f).chan c = f (s.chan c) :=
  vec_get_set_same _ _ _

theorem State.chan_modChan_ne (s : State) {c d : Fin 16} (h : d ≠ c) (f : Channel → Channel) : (s.modChan c f).chan d = s.chan d :=
  vec_get_set_ne _ h _

@[simp] theorem State.reach_modReach_same (s : State) (r : Fin 4) (f : Reach → Reach) : (s.modReach r f).reach r = f (s.reach r) :=
  vec_get_set_same _ _ _

theorem State.reach_modReach_ne (s : State) {r q : Fin 4} (h : q ≠ r) (f : Reach → Reach) : (s.modReach r f).reach q = s.reach q :=
  vec_get_set_ne _ h _

@[simp] theorem State.iface_modIface_same (s : State) (i : Iface) (f : IfaceRec → IfaceRec) : (s.modIface i f).iface i = f (s.iface i) := by
  cases i <;> rfl

theorem State.iface_modIface_ne (s : State) {i j : Iface} (h : j ≠ i) (f : IfaceRec → IfaceRec) : (s.modIface i f).iface j = s.iface j := by
  cases i <;> cases j <;> first | rfl | exact absurd rfl h

/-! ### Parts of a port -/

theorem State.port_modLink (s : State) (p : Fin 16) (f : Link → Link) : (s.modLink p f).port p = { s.port p with link := f (s.port p).link } := by
  simp [State.modLink]
theorem State.port_modTow (s : State) (p : Fin 16) (f : Towpath → Towpath) : (s.modTow p f).port p = { s.port p with tow := f (s.port p).tow } := by
  simp [State.modTow]
theorem State.port_modTx (s : State) (p : Fin 16) (f : TxPath → TxPath) : (s.modTx p f).port p = { s.port p with tx := f (s.port p).tx } := by
  simp [State.modTx]
theorem State.port_modRx (s : State) (p : Fin 16) (f : RxPath → RxPath) : (s.modRx p f).port p = { s.port p with rx := f (s.port p).rx } := by
  simp [State.modRx]
theorem State.port_modDmt (s : State) (p : Fin 16) (f : Dmt → Dmt) : (s.modDmt p f).port p = { s.port p with dmt := f (s.port p).dmt } := by
  simp [State.modDmt]
theorem State.port_modSnd (s : State) (p : Fin 16) (f : Sender → Sender) : (s.modSnd p f).port p = { s.port p with snd := f (s.port p).snd } := by
  simp [State.modSnd]
theorem State.port_modRcv (s : State) (p : Fin 16) (f : Receiver → Receiver) : (s.modRcv p f).port p = { s.port p with rcv := f (s.port p).rcv } := by
  simp [State.modRcv]
theorem State.port_modQuiet (s : State) (p : Fin 16) (f : Quiet → Quiet) : (s.modQuiet p f).port p = { s.port p with quiet := f (s.port p).quiet } := by
  simp [State.modQuiet]

end Sys2Proof.Machine
end

