-- ==== Sys2Proof/Laws/Settle.lean ====
section
/-! SUPPORT. What counting, raising an event, answering a channel and `settle` leave as it was: the small frame lemmas that
every statement about a command rests on. -/

namespace Sys2Proof.Machine

/-! ### count: the tally alone -/

theorem State.countCode_eq (s : State) (b c n : Nat) : ∃ t, s.countCode b c n = { s with tally := t } := by
  unfold State.countCode; split
  · exact ⟨s.tally, rfl⟩
  · exact ⟨_, rfl⟩

@[simp] theorem State.count_pending (s : State) (b k n : Nat) : (s.count b k n).pending = s.pending := by
  obtain ⟨t, h⟩ := s.countCode_eq b (0x200 + k) n; simp [State.count, h]
@[simp] theorem State.count_ticks (s : State) (b k n : Nat) : (s.count b k n).ticks = s.ticks := by
  obtain ⟨t, h⟩ := s.countCode_eq b (0x200 + k) n; simp [State.count, h]
@[simp] theorem State.count_draws (s : State) (b k n : Nat) : (s.count b k n).draws = s.draws := by
  obtain ⟨t, h⟩ := s.countCode_eq b (0x200 + k) n; simp [State.count, h]
@[simp] theorem State.count_die (s : State) (b k n : Nat) : (s.count b k n).die = s.die := by
  obtain ⟨t, h⟩ := s.countCode_eq b (0x200 + k) n; simp [State.count, h]
@[simp] theorem State.count_otp (s : State) (b k n : Nat) : (s.count b k n).otp = s.otp := by
  obtain ⟨t, h⟩ := s.countCode_eq b (0x200 + k) n; simp [State.count, h]
@[simp] theorem State.count_regs (s : State) (b k n : Nat) : (s.count b k n).regs = s.regs := by
  obtain ⟨t, h⟩ := s.countCode_eq b (0x200 + k) n; simp [State.count, h]
@[simp] theorem State.count_keeperInd (s : State) (b k n : Nat) : (s.count b k n).keeperInd = s.keeperInd := by
  obtain ⟨t, h⟩ := s.countCode_eq b (0x200 + k) n; simp [State.count, h]
@[simp] theorem State.count_parity (s : State) (b k n : Nat) : (s.count b k n).parity = s.parity := by
  obtain ⟨t, h⟩ := s.countCode_eq b (0x200 + k) n; simp [State.count, h]
@[simp] theorem State.count_mended (s : State) (b k n : Nat) : (s.count b k n).mended = s.mended := by
  obtain ⟨t, h⟩ := s.countCode_eq b (0x200 + k) n; simp [State.count, h]
@[simp] theorem State.count_sup (s : State) (b k n : Nat) : (s.count b k n).sup = s.sup := by
  obtain ⟨t, h⟩ := s.countCode_eq b (0x200 + k) n; simp [State.count, h]
@[simp] theorem State.count_clk (s : State) (b k n : Nat) : (s.count b k n).clk = s.clk := by
  obtain ⟨t, h⟩ := s.countCode_eq b (0x200 + k) n; simp [State.count, h]
@[simp] theorem State.count_dom (s : State) (b k n : Nat) : (s.count b k n).dom = s.dom := by
  obtain ⟨t, h⟩ := s.countCode_eq b (0x200 + k) n; simp [State.count, h]
@[simp] theorem State.count_spi (s : State) (b k n : Nat) : (s.count b k n).spi = s.spi := by
  obtain ⟨t, h⟩ := s.countCode_eq b (0x200 + k) n; simp [State.count, h]
@[simp] theorem State.count_mon (s : State) (b k n : Nat) : (s.count b k n).mon = s.mon := by
  obtain ⟨t, h⟩ := s.countCode_eq b (0x200 + k) n; simp [State.count, h]
@[simp] theorem State.count_kpi (s : State) (b k n : Nat) : (s.count b k n).kpi = s.kpi := by
  obtain ⟨t, h⟩ := s.countCode_eq b (0x200 + k) n; simp [State.count, h]
@[simp] theorem State.count_gdAbort (s : State) (b k n : Nat) : (s.count b k n).gdAbort = s.gdAbort := by
  obtain ⟨t, h⟩ := s.countCode_eq b (0x200 + k) n; simp [State.count, h]
@[simp] theorem State.count_gdMismatch (s : State) (b k n : Nat) : (s.count b k n).gdMismatch = s.gdMismatch := by
  obtain ⟨t, h⟩ := s.countCode_eq b (0x200 + k) n; simp [State.count, h]
@[simp] theorem State.count_gdBare (s : State) (b k n : Nat) : (s.count b k n).gdBare = s.gdBare := by
  obtain ⟨t, h⟩ := s.countCode_eq b (0x200 + k) n; simp [State.count, h]
@[simp] theorem State.count_crcErr (s : State) (b k n : Nat) : (s.count b k n).crcErr = s.crcErr := by
  obtain ⟨t, h⟩ := s.countCode_eq b (0x200 + k) n; simp [State.count, h]
@[simp] theorem State.count_frameErr (s : State) (b k n : Nat) : (s.count b k n).frameErr = s.frameErr := by
  obtain ⟨t, h⟩ := s.countCode_eq b (0x200 + k) n; simp [State.count, h]
@[simp] theorem State.count_mdio (s : State) (b k n : Nat) : (s.count b k n).mdio = s.mdio := by
  obtain ⟨t, h⟩ := s.countCode_eq b (0x200 + k) n; simp [State.count, h]
@[simp] theorem State.count_monitor (s : State) (b k n : Nat) : (s.count b k n).monitor = s.monitor := by
  obtain ⟨t, h⟩ := s.countCode_eq b (0x200 + k) n; simp [State.count, h]
@[simp] theorem State.count_ports (s : State) (b k n : Nat) : (s.count b k n).ports = s.ports := by
  obtain ⟨t, h⟩ := s.countCode_eq b (0x200 + k) n; simp [State.count, h]
@[simp] theorem State.count_reaches (s : State) (b k n : Nat) : (s.count b k n).reaches = s.reaches := by
  obtain ⟨t, h⟩ := s.countCode_eq b (0x200 + k) n; simp [State.count, h]
@[simp] theorem State.count_lanes (s : State) (b k n : Nat) : (s.count b k n).lanes = s.lanes := by
  obtain ⟨t, h⟩ := s.countCode_eq b (0x200 + k) n; simp [State.count, h]
@[simp] theorem State.count_basin (s : State) (b k n : Nat) : (s.count b k n).basin = s.basin := by
  obtain ⟨t, h⟩ := s.countCode_eq b (0x200 + k) n; simp [State.count, h]
@[simp] theorem State.count_time (s : State) (b k n : Nat) : (s.count b k n).time = s.time := by
  obtain ⟨t, h⟩ := s.countCode_eq b (0x200 + k) n; simp [State.count, h]
@[simp] theorem State.count_cal (s : State) (b k n : Nat) : (s.count b k n).cal = s.cal := by
  obtain ⟨t, h⟩ := s.countCode_eq b (0x200 + k) n; simp [State.count, h]
@[simp] theorem State.count_ring (s : State) (b k n : Nat) : (s.count b k n).ring = s.ring := by
  obtain ⟨t, h⟩ := s.countCode_eq b (0x200 + k) n; simp [State.count, h]
@[simp] theorem State.count_chans (s : State) (b k n : Nat) : (s.count b k n).chans = s.chans := by
  obtain ⟨t, h⟩ := s.countCode_eq b (0x200 + k) n; simp [State.count, h]
@[simp] theorem State.count_keeper (s : State) (b k n : Nat) : (s.count b k n).keeper = s.keeper := by
  obtain ⟨t, h⟩ := s.countCode_eq b (0x200 + k) n; simp [State.count, h]
@[simp] theorem State.count_test (s : State) (b k n : Nat) : (s.count b k n).test = s.test := by
  obtain ⟨t, h⟩ := s.countCode_eq b (0x200 + k) n; simp [State.count, h]
@[simp] theorem State.count_keys (s : State) (b k n : Nat) : (s.count b k n).keys = s.keys := by
  obtain ⟨t, h⟩ := s.countCode_eq b (0x200 + k) n; simp [State.count, h]
@[simp] theorem State.count_journal (s : State) (b k n : Nat) : (s.count b k n).journal = s.journal := by
  obtain ⟨t, h⟩ := s.countCode_eq b (0x200 + k) n; simp [State.count, h]
@[simp] theorem State.count_tap (s : State) (b k n : Nat) : (s.count b k n).tap = s.tap := by
  obtain ⟨t, h⟩ := s.countCode_eq b (0x200 + k) n; simp [State.count, h]
@[simp] theorem State.count_port (s : State) (b k n : Nat) (i : Fin 16) : (s.count b k n).port i = s.port i := by simp [State.port]
@[simp] theorem State.count_lane (s : State) (b k n : Nat) (i : Fin 8) : (s.count b k n).lane i = s.lane i := by simp [State.lane]
@[simp] theorem State.count_chan (s : State) (b k n : Nat) (i : Fin 16) : (s.count b k n).chan i = s.chan i := by simp [State.chan]
@[simp] theorem State.count_reach (s : State) (b k n : Nat) (i : Fin 4) : (s.count b k n).reach i = s.reach i := by simp [State.reach]

/-! ### raise: the ring and the tally -/

@[simp] theorem State.raise_pending (s : State) (c b u : Nat) (w x y z : Word) : (s.raise c b u w x y z).pending = s.pending := by simp [State.raise]
@[simp] theorem State.raise_ticks (s : State) (c b u : Nat) (w x y z : Word) : (s.raise c b u w x y z).ticks = s.ticks := by simp [State.raise]
@[simp] theorem State.raise_draws (s : State) (c b u : Nat) (w x y z : Word) : (s.raise c b u w x y z).draws = s.draws := by simp [State.raise]
@[simp] theorem State.raise_die (s : State) (c b u : Nat) (w x y z : Word) : (s.raise c b u w x y z).die = s.die := by simp [State.raise]
@[simp] theorem State.raise_otp (s : State) (c b u : Nat) (w x y z : Word) : (s.raise c b u w x y z).otp = s.otp := by simp [State.raise]
@[simp] theorem State.raise_regs (s : State) (c b u : Nat) (w x y z : Word) : (s.raise c b u w x y z).regs = s.regs := by simp [State.raise]
@[simp] theorem State.raise_keeperInd (s : State) (c b u : Nat) (w x y z : Word) : (s.raise c b u w x y z).keeperInd = s.keeperInd := by simp [State.raise]
@[simp] theorem State.raise_parity (s : State) (c b u : Nat) (w x y z : Word) : (s.raise c b u w x y z).parity = s.parity := by simp [State.raise]
@[simp] theorem State.raise_mended (s : State) (c b u : Nat) (w x y z : Word) : (s.raise c b u w x y z).mended = s.mended := by simp [State.raise]
@[simp] theorem State.raise_sup (s : State) (c b u : Nat) (w x y z : Word) : (s.raise c b u w x y z).sup = s.sup := by simp [State.raise]
@[simp] theorem State.raise_clk (s : State) (c b u : Nat) (w x y z : Word) : (s.raise c b u w x y z).clk = s.clk := by simp [State.raise]
@[simp] theorem State.raise_dom (s : State) (c b u : Nat) (w x y z : Word) : (s.raise c b u w x y z).dom = s.dom := by simp [State.raise]
@[simp] theorem State.raise_spi (s : State) (c b u : Nat) (w x y z : Word) : (s.raise c b u w x y z).spi = s.spi := by simp [State.raise]
@[simp] theorem State.raise_mon (s : State) (c b u : Nat) (w x y z : Word) : (s.raise c b u w x y z).mon = s.mon := by simp [State.raise]
@[simp] theorem State.raise_kpi (s : State) (c b u : Nat) (w x y z : Word) : (s.raise c b u w x y z).kpi = s.kpi := by simp [State.raise]
@[simp] theorem State.raise_gdAbort (s : State) (c b u : Nat) (w x y z : Word) : (s.raise c b u w x y z).gdAbort = s.gdAbort := by simp [State.raise]
@[simp] theorem State.raise_gdMismatch (s : State) (c b u : Nat) (w x y z : Word) : (s.raise c b u w x y z).gdMismatch = s.gdMismatch := by simp [State.raise]
@[simp] theorem State.raise_gdBare (s : State) (c b u : Nat) (w x y z : Word) : (s.raise c b u w x y z).gdBare = s.gdBare := by simp [State.raise]
@[simp] theorem State.raise_crcErr (s : State) (c b u : Nat) (w x y z : Word) : (s.raise c b u w x y z).crcErr = s.crcErr := by simp [State.raise]
@[simp] theorem State.raise_frameErr (s : State) (c b u : Nat) (w x y z : Word) : (s.raise c b u w x y z).frameErr = s.frameErr := by simp [State.raise]
@[simp] theorem State.raise_mdio (s : State) (c b u : Nat) (w x y z : Word) : (s.raise c b u w x y z).mdio = s.mdio := by simp [State.raise]
@[simp] theorem State.raise_monitor (s : State) (c b u : Nat) (w x y z : Word) : (s.raise c b u w x y z).monitor = s.monitor := by simp [State.raise]
@[simp] theorem State.raise_ports (s : State) (c b u : Nat) (w x y z : Word) : (s.raise c b u w x y z).ports = s.ports := by simp [State.raise]
@[simp] theorem State.raise_reaches (s : State) (c b u : Nat) (w x y z : Word) : (s.raise c b u w x y z).reaches = s.reaches := by simp [State.raise]
@[simp] theorem State.raise_lanes (s : State) (c b u : Nat) (w x y z : Word) : (s.raise c b u w x y z).lanes = s.lanes := by simp [State.raise]
@[simp] theorem State.raise_basin (s : State) (c b u : Nat) (w x y z : Word) : (s.raise c b u w x y z).basin = s.basin := by simp [State.raise]
@[simp] theorem State.raise_time (s : State) (c b u : Nat) (w x y z : Word) : (s.raise c b u w x y z).time = s.time := by simp [State.raise]
@[simp] theorem State.raise_cal (s : State) (c b u : Nat) (w x y z : Word) : (s.raise c b u w x y z).cal = s.cal := by simp [State.raise]
@[simp] theorem State.raise_chans (s : State) (c b u : Nat) (w x y z : Word) : (s.raise c b u w x y z).chans = s.chans := by simp [State.raise]
@[simp] theorem State.raise_keeper (s : State) (c b u : Nat) (w x y z : Word) : (s.raise c b u w x y z).keeper = s.keeper := by simp [State.raise]
@[simp] theorem State.raise_test (s : State) (c b u : Nat) (w x y z : Word) : (s.raise c b u w x y z).test = s.test := by simp [State.raise]
@[simp] theorem State.raise_keys (s : State) (c b u : Nat) (w x y z : Word) : (s.raise c b u w x y z).keys = s.keys := by simp [State.raise]
@[simp] theorem State.raise_journal (s : State) (c b u : Nat) (w x y z : Word) : (s.raise c b u w x y z).journal = s.journal := by simp [State.raise]
@[simp] theorem State.raise_tap (s : State) (c b u : Nat) (w x y z : Word) : (s.raise c b u w x y z).tap = s.tap := by simp [State.raise]
@[simp] theorem State.raise_ring (s : State) (c b u : Nat) (w x y z : Word) :
    (s.raise c b u w x y z).ring = s.ring.push (s.record c b u w x y z) := by simp [State.raise]
@[simp] theorem State.raise_port (s : State) (c b u : Nat) (w x y z : Word) (i : Fin 16) : (s.raise c b u w x y z).port i = s.port i := by simp [State.port]
@[simp] theorem State.raise_lane (s : State) (c b u : Nat) (w x y z : Word) (i : Fin 8) : (s.raise c b u w x y z).lane i = s.lane i := by simp [State.lane]
@[simp] theorem State.raise_chan (s : State) (c b u : Nat) (w x y z : Word) (i : Fin 16) : (s.raise c b u w x y z).chan i = s.chan i := by simp [State.chan]
@[simp] theorem State.raise_reach (s : State) (c b u : Nat) (w x y z : Word) (i : Fin 4) : (s.raise c b u w x y z).reach i = s.reach i := by simp [State.reach]

/-! ### answer: one channel and the tally -/

@[simp] theorem State.answer_pending (s : State) (c : Fin 16) (st : Nat) (ws : List Word) (d : Nat) : (s.answer c st ws d).pending = s.pending := by simp [State.answer]
@[simp] theorem State.answer_ticks (s : State) (c : Fin 16) (st : Nat) (ws : List Word) (d : Nat) : (s.answer c st ws d).ticks = s.ticks := by simp [State.answer]
@[simp] theorem State.answer_draws (s : State) (c : Fin 16) (st : Nat) (ws : List Word) (d : Nat) : (s.answer c st ws d).draws = s.draws := by simp [State.answer]
@[simp] theorem State.answer_die (s : State) (c : Fin 16) (st : Nat) (ws : List Word) (d : Nat) : (s.answer c st ws d).die = s.die := by simp [State.answer]
@[simp] theorem State.answer_otp (s : State) (c : Fin 16) (st : Nat) (ws : List Word) (d : Nat) : (s.answer c st ws d).otp = s.otp := by simp [State.answer]
@[simp] theorem State.answer_regs (s : State) (c : Fin 16) (st : Nat) (ws : List Word) (d : Nat) : (s.answer c st ws d).regs = s.regs := by simp [State.answer]
@[simp] theorem State.answer_keeperInd (s : State) (c : Fin 16) (st : Nat) (ws : List Word) (d : Nat) : (s.answer c st ws d).keeperInd = s.keeperInd := by simp [State.answer]
@[simp] theorem State.answer_parity (s : State) (c : Fin 16) (st : Nat) (ws : List Word) (d : Nat) : (s.answer c st ws d).parity = s.parity := by simp [State.answer]
@[simp] theorem State.answer_mended (s : State) (c : Fin 16) (st : Nat) (ws : List Word) (d : Nat) : (s.answer c st ws d).mended = s.mended := by simp [State.answer]
@[simp] theorem State.answer_sup (s : State) (c : Fin 16) (st : Nat) (ws : List Word) (d : Nat) : (s.answer c st ws d).sup = s.sup := by simp [State.answer]
@[simp] theorem State.answer_clk (s : State) (c : Fin 16) (st : Nat) (ws : List Word) (d : Nat) : (s.answer c st ws d).clk = s.clk := by simp [State.answer]
@[simp] theorem State.answer_dom (s : State) (c : Fin 16) (st : Nat) (ws : List Word) (d : Nat) : (s.answer c st ws d).dom = s.dom := by simp [State.answer]
@[simp] theorem State.answer_spi (s : State) (c : Fin 16) (st : Nat) (ws : List Word) (d : Nat) : (s.answer c st ws d).spi = s.spi := by simp [State.answer]
@[simp] theorem State.answer_mon (s : State) (c : Fin 16) (st : Nat) (ws : List Word) (d : Nat) : (s.answer c st ws d).mon = s.mon := by simp [State.answer]
@[simp] theorem State.answer_kpi (s : State) (c : Fin 16) (st : Nat) (ws : List Word) (d : Nat) : (s.answer c st ws d).kpi = s.kpi := by simp [State.answer]
@[simp] theorem State.answer_gdAbort (s : State) (c : Fin 16) (st : Nat) (ws : List Word) (d : Nat) : (s.answer c st ws d).gdAbort = s.gdAbort := by simp [State.answer]
@[simp] theorem State.answer_gdMismatch (s : State) (c : Fin 16) (st : Nat) (ws : List Word) (d : Nat) : (s.answer c st ws d).gdMismatch = s.gdMismatch := by simp [State.answer]
@[simp] theorem State.answer_gdBare (s : State) (c : Fin 16) (st : Nat) (ws : List Word) (d : Nat) : (s.answer c st ws d).gdBare = s.gdBare := by simp [State.answer]
@[simp] theorem State.answer_crcErr (s : State) (c : Fin 16) (st : Nat) (ws : List Word) (d : Nat) : (s.answer c st ws d).crcErr = s.crcErr := by simp [State.answer]
@[simp] theorem State.answer_frameErr (s : State) (c : Fin 16) (st : Nat) (ws : List Word) (d : Nat) : (s.answer c st ws d).frameErr = s.frameErr := by simp [State.answer]
@[simp] theorem State.answer_mdio (s : State) (c : Fin 16) (st : Nat) (ws : List Word) (d : Nat) : (s.answer c st ws d).mdio = s.mdio := by simp [State.answer]
@[simp] theorem State.answer_monitor (s : State) (c : Fin 16) (st : Nat) (ws : List Word) (d : Nat) : (s.answer c st ws d).monitor = s.monitor := by simp [State.answer]
@[simp] theorem State.answer_ports (s : State) (c : Fin 16) (st : Nat) (ws : List Word) (d : Nat) : (s.answer c st ws d).ports = s.ports := by simp [State.answer]
@[simp] theorem State.answer_reaches (s : State) (c : Fin 16) (st : Nat) (ws : List Word) (d : Nat) : (s.answer c st ws d).reaches = s.reaches := by simp [State.answer]
@[simp] theorem State.answer_lanes (s : State) (c : Fin 16) (st : Nat) (ws : List Word) (d : Nat) : (s.answer c st ws d).lanes = s.lanes := by simp [State.answer]
@[simp] theorem State.answer_basin (s : State) (c : Fin 16) (st : Nat) (ws : List Word) (d : Nat) : (s.answer c st ws d).basin = s.basin := by simp [State.answer]
@[simp] theorem State.answer_time (s : State) (c : Fin 16) (st : Nat) (ws : List Word) (d : Nat) : (s.answer c st ws d).time = s.time := by simp [State.answer]
@[simp] theorem State.answer_cal (s : State) (c : Fin 16) (st : Nat) (ws : List Word) (d : Nat) : (s.answer c st ws d).cal = s.cal := by simp [State.answer]
@[simp] theorem State.answer_ring (s : State) (c : Fin 16) (st : Nat) (ws : List Word) (d : Nat) : (s.answer c st ws d).ring = s.ring := by simp [State.answer]
@[simp] theorem State.answer_keeper (s : State) (c : Fin 16) (st : Nat) (ws : List Word) (d : Nat) : (s.answer c st ws d).keeper = s.keeper := by simp [State.answer]
@[simp] theorem State.answer_test (s : State) (c : Fin 16) (st : Nat) (ws : List Word) (d : Nat) : (s.answer c st ws d).test = s.test := by simp [State.answer]
@[simp] theorem State.answer_keys (s : State) (c : Fin 16) (st : Nat) (ws : List Word) (d : Nat) : (s.answer c st ws d).keys = s.keys := by simp [State.answer]
@[simp] theorem State.answer_journal (s : State) (c : Fin 16) (st : Nat) (ws : List Word) (d : Nat) : (s.answer c st ws d).journal = s.journal := by simp [State.answer]
@[simp] theorem State.answer_tap (s : State) (c : Fin 16) (st : Nat) (ws : List Word) (d : Nat) : (s.answer c st ws d).tap = s.tap := by simp [State.answer]
@[simp] theorem State.answer_chan_same (s : State) (c : Fin 16) (st : Nat) (ws : List Word) (d : Nat) :
    (s.answer c st ws d).chan c = (s.chan c).answered st d ws := by simp [State.answer]
theorem State.answer_chan_ne (s : State) {c e : Fin 16} (h : e ≠ c) (st : Nat) (ws : List Word) (d : Nat) :
    (s.answer c st ws d).chan e = s.chan e := by simp [State.answer, State.chan_modChan_ne s h]

/-! ### The parts of settle -/

theorem State.countRise_eq (old s : State) (e : Nat × Word) : ∃ t, State.countRise old s e = { s with tally := t } := by
  unfold State.countRise
  dsimp only
  split
  · split
    · split
      · exact ⟨_, rfl⟩
      · exact ⟨s.tally, rfl⟩
    · exact ⟨s.tally, rfl⟩
  · exact ⟨s.tally, rfl⟩

theorem State.countRises_eq (old : State) (l : List (Nat × Word)) (s : State) :
    ∃ t, l.foldl (State.countRise old) s = { s with tally := t } := by
  induction l generalizing s with
  | nil => exact ⟨s.tally, rfl⟩
  | cons e l ih =>
    obtain ⟨t, h⟩ := State.countRise_eq old s e
    obtain ⟨u, h2⟩ := ih (State.countRise old s e)
    exact ⟨u, by rw [List.foldl_cons, h2, h]⟩

/-- What a sweep of fallen REMOTE_CMDs changes: channels and the tally; a channel that waits for none keeps its record. -/
theorem State.remoteSweep_eq (s : State) (c : Fin 16) : ∃ v t, s.remoteSweep c = { s with chans := v, tally := t } := by
  have key : ∀ ws : List Word, ∃ v t, s.answer c 0x0301 ws = { s with chans := v, tally := t } := by
    intro ws
    unfold State.answer
    obtain ⟨t1, h1⟩ := ((s.modChan c (fun ch => ch.answered 0x0301 0xFFFF ws))).countCode_eq 1 (0x200 + 0) 1
    obtain ⟨t2, h2⟩ := State.countCode_eq { s.modChan c (fun ch => ch.answered 0x0301 0xFFFF ws) with tally := t1 } (mboxBlock c.val) (0x200 + 2) (if 0x0301 = 0 then 0 else 1)
    exact ⟨_, t2, by simp only [State.count]; rw [h1, h2]; rfl⟩
  unfold State.remoteSweep
  split
  · split
    · exact ⟨s.chans, s.tally, rfl⟩
    · exact key []
  · exact ⟨s.chans, s.tally, rfl⟩

theorem State.remoteSweep_chan (s : State) (c d : Fin 16) (h : ∀ p r a, (s.chan d).work ≠ some (.remote p r a)) :
    (s.remoteSweep c).chan d = s.chan d := by
  unfold State.remoteSweep
  split
  · rename_i p r a hw
    split
    · rfl
    · by_cases e : d = c
      · subst e; exact absurd hw (h _ _ _)
      · exact s.answer_chan_ne e _ _ _
  · rfl

theorem State.remoteSweeps_eq (l : List (Fin 16)) (s : State) : ∃ v t, l.foldl State.remoteSweep s = { s with chans := v, tally := t } := by
  induction l generalizing s with
  | nil => exact ⟨s.chans, s.tally, rfl⟩
  | cons c l ih =>
    obtain ⟨v, t, h⟩ := s.remoteSweep_eq c
    obtain ⟨v2, t2, h2⟩ := ih (s.remoteSweep c)
    exact ⟨v2, t2, by rw [List.foldl_cons, h2, h]⟩

theorem State.remoteSweeps_chan (l : List (Fin 16)) (s : State) (d : Fin 16) (h : ∀ p r a, (s.chan d).work ≠ some (.remote p r a)) :
    (l.foldl State.remoteSweep s).chan d = s.chan d := by
  induction l generalizing s with
  | nil => rfl
  | cons c l ih =>
    have e := s.remoteSweep_chan c d h
    rw [List.foldl_cons, ih (s.remoteSweep c) (by rw [e]; exact h), e]

/-- The ports after the REMOTE operations of fallen links are dropped. -/
theorem State.remoteDrop_eq (s : State) : ∃ v, s.remoteDrop = { s with ports := v } ∧
    ∀ p : Fin 16, ∃ r, v.get p = { s.ports.get p with remIn := r } := by
  unfold State.remoteDrop
  split
  · refine ⟨_, rfl, fun p => ?_⟩
    by_cases h : (s.ports.get p).remoteRuns = true
    · refine ⟨(s.ports.get p).remIn, ?_⟩
      show (s.ports.map _)[p.val] = _
      rw [Vector.getElem_map]
      show (if (s.ports.get p).remoteRuns then s.ports.get p else _) = _
      rw [if_pos h]
    · refine ⟨[], ?_⟩
      show (s.ports.map _)[p.val] = _
      rw [Vector.getElem_map]
      show (if (s.ports.get p).remoteRuns then s.ports.get p else _) = _
      rw [if_neg h]; rfl
  · exact ⟨s.ports, rfl, fun p => ⟨(s.ports.get p).remIn, rfl⟩⟩

theorem State.journalNotice_eq (s old : State) : ∃ b, s.journalNotice old = { s with journal := { s.journal with changed := b } } := by
  unfold State.journalNotice
  split
  · exact ⟨true, rfl⟩
  · exact ⟨s.journal.changed, rfl⟩

theorem State.syncDomains_eq (s : State) : ∃ d, s.syncDomains = { s with dom := d } := ⟨_, rfl⟩

/-- All that `settle` can change. -/
theorem settle_eq (old s : State) : ∃ v w t b d, settle old s =
    { s with chans := v, ports := w, tally := t, journal := { s.journal with changed := b }, dom := d } ∧
    (∀ p : Fin 16, ∃ r, w.get p = { s.ports.get p with remIn := r }) ∧
    (∀ c : Fin 16, (∀ p r a, (s.chan c).work ≠ some (.remote p r a)) → v.get c = s.chan c) := by
  unfold settle
  obtain ⟨t1, h1⟩ := State.countRises_eq old s.regs s
  obtain ⟨v, t2, h2⟩ := State.remoteSweeps_eq allChans { s with tally := t1 }
  obtain ⟨w, h3, h3'⟩ := State.remoteDrop_eq { s with chans := v, tally := t2 }
  obtain ⟨b, h4⟩ := State.journalNotice_eq { s with chans := v, tally := t2, ports := w } old
  obtain ⟨d, h5⟩ := State.syncDomains_eq { s with chans := v, tally := t2, ports := w, journal := { s.journal with changed := b } }
  refine ⟨v, w, t2, b, d, ?_, h3', fun c hc => ?_⟩
  · rw [h1, h2, h3, h4, h5]
  · have e := State.remoteSweeps_chan allChans { s with tally := t1 } c hc
    rw [h2] at e
    exact e

/-! ### settle by field -/

@[simp] theorem settle_pending (old s : State) : (settle old s).pending = s.pending := by obtain ⟨v, w, t, b, d, h, _⟩ := settle_eq old s; rw [h]
@[simp] theorem settle_ticks (old s : State) : (settle old s).ticks = s.ticks := by obtain ⟨v, w, t, b, d, h, _⟩ := settle_eq old s; rw [h]
@[simp] theorem settle_draws (old s : State) : (settle old s).draws = s.draws := by obtain ⟨v, w, t, b, d, h, _⟩ := settle_eq old s; rw [h]
@[simp] theorem settle_die (old s : State) : (settle old s).die = s.die := by obtain ⟨v, w, t, b, d, h, _⟩ := settle_eq old s; rw [h]
@[simp] theorem settle_otp (old s : State) : (settle old s).otp = s.otp := by obtain ⟨v, w, t, b, d, h, _⟩ := settle_eq old s; rw [h]
@[simp] theorem settle_regs (old s : State) : (settle old s).regs = s.regs := by obtain ⟨v, w, t, b, d, h, _⟩ := settle_eq old s; rw [h]
@[simp] theorem settle_keeperInd (old s : State) : (settle old s).keeperInd = s.keeperInd := by obtain ⟨v, w, t, b, d, h, _⟩ := settle_eq old s; rw [h]
@[simp] theorem settle_parity (old s : State) : (settle old s).parity = s.parity := by obtain ⟨v, w, t, b, d, h, _⟩ := settle_eq old s; rw [h]
@[simp] theorem settle_mended (old s : State) : (settle old s).mended = s.mended := by obtain ⟨v, w, t, b, d, h, _⟩ := settle_eq old s; rw [h]
@[simp] theorem settle_sup (old s : State) : (settle old s).sup = s.sup := by obtain ⟨v, w, t, b, d, h, _⟩ := settle_eq old s; rw [h]
@[simp] theorem settle_clk (old s : State) : (settle old s).clk = s.clk := by obtain ⟨v, w, t, b, d, h, _⟩ := settle_eq old s; rw [h]
@[simp] theorem settle_spi (old s : State) : (settle old s).spi = s.spi := by obtain ⟨v, w, t, b, d, h, _⟩ := settle_eq old s; rw [h]
@[simp] theorem settle_mon (old s : State) : (settle old s).mon = s.mon := by obtain ⟨v, w, t, b, d, h, _⟩ := settle_eq old s; rw [h]
@[simp] theorem settle_kpi (old s : State) : (settle old s).kpi = s.kpi := by obtain ⟨v, w, t, b, d, h, _⟩ := settle_eq old s; rw [h]
@[simp] theorem settle_gdAbort (old s : State) : (settle old s).gdAbort = s.gdAbort := by obtain ⟨v, w, t, b, d, h, _⟩ := settle_eq old s; rw [h]
@[simp] theorem settle_gdMismatch (old s : State) : (settle old s).gdMismatch = s.gdMismatch := by obtain ⟨v, w, t, b, d, h, _⟩ := settle_eq old s; rw [h]
@[simp] theorem settle_gdBare (old s : State) : (settle old s).gdBare = s.gdBare := by obtain ⟨v, w, t, b, d, h, _⟩ := settle_eq old s; rw [h]
@[simp] theorem settle_crcErr (old s : State) : (settle old s).crcErr = s.crcErr := by obtain ⟨v, w, t, b, d, h, _⟩ := settle_eq old s; rw [h]
@[simp] theorem settle_frameErr (old s : State) : (settle old s).frameErr = s.frameErr := by obtain ⟨v, w, t, b, d, h, _⟩ := settle_eq old s; rw [h]
@[simp] theorem settle_mdio (old s : State) : (settle old s).mdio = s.mdio := by obtain ⟨v, w, t, b, d, h, _⟩ := settle_eq old s; rw [h]
@[simp] theorem settle_monitor (old s : State) : (settle old s).monitor = s.monitor := by obtain ⟨v, w, t, b, d, h, _⟩ := settle_eq old s; rw [h]
@[simp] theorem settle_reaches (old s : State) : (settle old s).reaches = s.reaches := by obtain ⟨v, w, t, b, d, h, _⟩ := settle_eq old s; rw [h]
@[simp] theorem settle_lanes (old s : State) : (settle old s).lanes = s.lanes := by obtain ⟨v, w, t, b, d, h, _⟩ := settle_eq old s; rw [h]
@[simp] theorem settle_basin (old s : State) : (settle old s).basin = s.basin := by obtain ⟨v, w, t, b, d, h, _⟩ := settle_eq old s; rw [h]
@[simp] theorem settle_time (old s : State) : (settle old s).time = s.time := by obtain ⟨v, w, t, b, d, h, _⟩ := settle_eq old s; rw [h]
@[simp] theorem settle_cal (old s : State) : (settle old s).cal = s.cal := by obtain ⟨v, w, t, b, d, h, _⟩ := settle_eq old s; rw [h]
@[simp] theorem settle_ring (old s : State) : (settle old s).ring = s.ring := by obtain ⟨v, w, t, b, d, h, _⟩ := settle_eq old s; rw [h]
@[simp] theorem settle_keeper (old s : State) : (settle old s).keeper = s.keeper := by obtain ⟨v, w, t, b, d, h, _⟩ := settle_eq old s; rw [h]
@[simp] theorem settle_test (old s : State) : (settle old s).test = s.test := by obtain ⟨v, w, t, b, d, h, _⟩ := settle_eq old s; rw [h]
@[simp] theorem settle_keys (old s : State) : (settle old s).keys = s.keys := by obtain ⟨v, w, t, b, d, h, _⟩ := settle_eq old s; rw [h]
@[simp] theorem settle_tap (old s : State) : (settle old s).tap = s.tap := by obtain ⟨v, w, t, b, d, h, _⟩ := settle_eq old s; rw [h]
@[simp] theorem settle_lane (old s : State) (n : Fin 8) : (settle old s).lane n = s.lane n := by simp [State.lane]
@[simp] theorem settle_reach (old s : State) (r : Fin 4) : (settle old s).reach r = s.reach r := by simp [State.reach]
@[simp] theorem settle_port_link (old s : State) (p : Fin 16) : ((settle old s).port p).link = (s.port p).link := by
  obtain ⟨v, w, t, b, d, h, hp, _⟩ := settle_eq old s; obtain ⟨r, hr⟩ := hp p; rw [h]; show (w.get p).link = _; rw [hr]; rfl
@[simp] theorem settle_port_tow (old s : State) (p : Fin 16) : ((settle old s).port p).tow = (s.port p).tow := by
  obtain ⟨v, w, t, b, d, h, hp, _⟩ := settle_eq old s; obtain ⟨r, hr⟩ := hp p; rw [h]; show (w.get p).tow = _; rw [hr]; rfl
@[simp] theorem settle_port_tx (old s : State) (p : Fin 16) : ((settle old s).port p).tx = (s.port p).tx := by
  obtain ⟨v, w, t, b, d, h, hp, _⟩ := settle_eq old s; obtain ⟨r, hr⟩ := hp p; rw [h]; show (w.get p).tx = _; rw [hr]; rfl
@[simp] theorem settle_port_rx (old s : State) (p : Fin 16) : ((settle old s).port p).rx = (s.port p).rx := by
  obtain ⟨v, w, t, b, d, h, hp, _⟩ := settle_eq old s; obtain ⟨r, hr⟩ := hp p; rw [h]; show (w.get p).rx = _; rw [hr]; rfl
@[simp] theorem settle_port_dmt (old s : State) (p : Fin 16) : ((settle old s).port p).dmt = (s.port p).dmt := by
  obtain ⟨v, w, t, b, d, h, hp, _⟩ := settle_eq old s; obtain ⟨r, hr⟩ := hp p; rw [h]; show (w.get p).dmt = _; rw [hr]; rfl
@[simp] theorem settle_port_snd (old s : State) (p : Fin 16) : ((settle old s).port p).snd = (s.port p).snd := by
  obtain ⟨v, w, t, b, d, h, hp, _⟩ := settle_eq old s; obtain ⟨r, hr⟩ := hp p; rw [h]; show (w.get p).snd = _; rw [hr]; rfl
@[simp] theorem settle_port_rcv (old s : State) (p : Fin 16) : ((settle old s).port p).rcv = (s.port p).rcv := by
  obtain ⟨v, w, t, b, d, h, hp, _⟩ := settle_eq old s; obtain ⟨r, hr⟩ := hp p; rw [h]; show (w.get p).rcv = _; rw [hr]; rfl
@[simp] theorem settle_port_quiet (old s : State) (p : Fin 16) : ((settle old s).port p).quiet = (s.port p).quiet := by
  obtain ⟨v, w, t, b, d, h, hp, _⟩ := settle_eq old s; obtain ⟨r, hr⟩ := hp p; rw [h]; show (w.get p).quiet = _; rw [hr]; rfl
@[simp] theorem settle_port_tdr (old s : State) (p : Fin 16) : ((settle old s).port p).tdr = (s.port p).tdr := by
  obtain ⟨v, w, t, b, d, h, hp, _⟩ := settle_eq old s; obtain ⟨r, hr⟩ := hp p; rw [h]; show (w.get p).tdr = _; rw [hr]; rfl
@[simp] theorem settle_port_watch (old s : State) (p : Fin 16) : ((settle old s).port p).watch = (s.port p).watch := by
  obtain ⟨v, w, t, b, d, h, hp, _⟩ := settle_eq old s; obtain ⟨r, hr⟩ := hp p; rw [h]; show (w.get p).watch = _; rw [hr]; rfl
@[simp] theorem settle_port_cal (old s : State) (p : Fin 16) : ((settle old s).port p).cal = (s.port p).cal := by
  obtain ⟨v, w, t, b, d, h, hp, _⟩ := settle_eq old s; obtain ⟨r, hr⟩ := hp p; rw [h]; show (w.get p).cal = _; rw [hr]; rfl
@[simp] theorem settle_port_test (old s : State) (p : Fin 16) : ((settle old s).port p).test = (s.port p).test := by
  obtain ⟨v, w, t, b, d, h, hp, _⟩ := settle_eq old s; obtain ⟨r, hr⟩ := hp p; rw [h]; show (w.get p).test = _; rw [hr]; rfl
@[simp] theorem settle_port_stopped (old s : State) (p : Fin 16) : ((settle old s).port p).stopped = (s.port p).stopped := by
  obtain ⟨v, w, t, b, d, h, hp, _⟩ := settle_eq old s; obtain ⟨r, hr⟩ := hp p; rw [h]; show (w.get p).stopped = _; rw [hr]; rfl
@[simp] theorem settle_port_xferStep (old s : State) (p : Fin 16) : ((settle old s).port p).xferStep = (s.port p).xferStep := by
  obtain ⟨v, w, t, b, d, h, hp, _⟩ := settle_eq old s; obtain ⟨r, hr⟩ := hp p; rw [h]; show (w.get p).xferStep = _; rw [hr]; rfl
theorem settle_chan (old s : State) (c : Fin 16) (hc : ∀ p r a, (s.chan c).work ≠ some (.remote p r a)) : (settle old s).chan c = s.chan c := by
  obtain ⟨v, w, t, b, d, h, _, hv⟩ := settle_eq old s; rw [h]; exact hv c hc
theorem settle_journal (old s : State) : ∃ b, (settle old s).journal = { s.journal with changed := b } := by
  obtain ⟨v, w, t, b, d, h, _⟩ := settle_eq old s; exact ⟨b, by rw [h]⟩

@[simp] theorem settle_reg (old s : State) (k : Nat) : (settle old s).reg k = s.reg k := by simp [State.reg]
@[simp] theorem settle_act (old s : State) (k : Nat) : (settle old s).act k = s.act k := by
  simp [State.act, State.badParity]
theorem wantMask_of (s : State) (v w t b d) (hw : ∀ p : Fin 16, ∃ r, w.get p = { s.ports.get p with remIn := r }) :
    State.wantMask { s with chans := v, ports := w, tally := t, journal := { s.journal with changed := b }, dom := d } = s.wantMask := by
  have h2 : ∀ p : Fin 16, State.portWant { s with chans := v, ports := w, tally := t, journal := { s.journal with changed := b }, dom := d } p = s.portWant p := by
    intro p
    obtain ⟨r, hr⟩ := hw p
    unfold State.portWant
    dsimp only
    have e : (State.port { s with chans := v, ports := w, tally := t, journal := { s.journal with changed := b }, dom := d } p) = { s.port p with remIn := r } := hr
    rw [e]; rfl
  unfold State.wantMask
  have h3 : State.wantList { s with chans := v, ports := w, tally := t, journal := { s.journal with changed := b }, dom := d } = s.wantList := by
    unfold State.wantList State.wantRunning
    have h4 : (State.portWant { s with chans := v, ports := w, tally := t, journal := { s.journal with changed := b }, dom := d }) = s.portWant := by funext p; exact h2 p
    rw [h4]; rfl
  rw [h3]; rfl
theorem settle_wantMask (old s : State) : (settle old s).wantMask = s.wantMask := by
  obtain ⟨v, w, t, b, d, h, hp, _⟩ := settle_eq old s
  rw [h]; exact wantMask_of s v w t b d hp
/-- The domains after a command: brought in line with what the state asks for. -/
theorem settle_dom (old s : State) : (settle old s).dom = s.syncDomains.dom := by
  unfold settle
  obtain ⟨t1, h1⟩ := State.countRises_eq old s.regs s
  obtain ⟨v, t2, h2⟩ := State.remoteSweeps_eq allChans { s with tally := t1 }
  obtain ⟨w, h3, h3'⟩ := State.remoteDrop_eq { s with chans := v, tally := t2 }
  obtain ⟨b, h4⟩ := State.journalNotice_eq { s with chans := v, tally := t2, ports := w } old
  rw [h1, h2, h3, h4]
  have e := wantMask_of s v w t2 b s.dom h3'
  unfold State.syncDomains
  dsimp only
  rw [e]
end Sys2Proof.Machine
end

