-- ==== Sys2Proof/Laws/Follow.lean ====
section
/-! SUPPORT. How a command's effect is closed: the outcome of each closing form, and when what follows a link's change has
nothing to do. -/

namespace Sys2Proof.Machine

theorem State.gated_clocked {s : State} (h : s.clocked = true) (t : State) : s.gated t = t := by simp [State.gated, h]
theorem State.gated_stopped {s : State} (h : s.clocked = false) (t : State) : s.gated t = s := by simp [State.gated, h]

/-- A released part is clocked. -/
theorem State.clocked_released {s : State} (h : s.sup.stage = .released) : s.clocked = true := by
  simp [State.clocked, State.early, h]

theorem State.done_eq (s t : State) : s.done t = .next (settle s t) := rfl
theorem State.runs_eq {s : State} (h : s.clocked = true) (t : State) : s.runs t = .next (settle s t) := by
  simp [State.runs, State.done, State.gated_clocked h]
theorem State.runs_stopped {s : State} (h : s.clocked = false) (t : State) : s.runs t = .next (settle s s) := by
  simp [State.runs, State.done, State.gated_stopped h]
theorem State.runsPort_eq {s : State} (h : s.clocked = true) (p : Fin 16) (t : State) :
    s.runsPort p t = .next (settle s (State.followPort s t p)) := by simp [State.runsPort, State.done, State.gated_clocked h]
theorem State.runsAll_eq {s : State} (h : s.clocked = true) (t : State) :
    s.runsAll t = .next (settle s (State.followAll s t)) := by simp [State.runsAll, State.done, State.gated_clocked h]
theorem State.actsAll_eq (s t : State) : s.actsAll t = .next (settle s (State.followAll s t)) := rfl

/-- A port whose link state, ENABLE and needs are as before asks for nothing. -/
theorem followPort_same {old s : State} {p : Fin 16} (hl : (old.port p).link.state = (s.port p).link.state)
    (hn : (old.port p).needs = (s.port p).needs) (he : old.enabled p = s.enabled p) : State.followPort old s p = s := by
  unfold State.followPort State.calFollow
  simp [hl, he, hn]

/-- With no port changed nothing follows. -/
theorem followAll_same {old s : State} (hl : ∀ p, (old.port p).link.state = (s.port p).link.state)
    (hn : ∀ p, (old.port p).needs = (s.port p).needs) (he : ∀ p, old.enabled p = s.enabled p) : State.followAll old s = s := by
  unfold State.followAll
  have key : ∀ l : List (Fin 16), l.foldl (fun (t : State) p => State.followPort old t p) s = s := by
    intro l
    induction l with
    | nil => rfl
    | cons p l ih => rw [List.foldl_cons, followPort_same (hl p) (hn p) (he p), ih]
  exact key _

theorem modeDomains_lt (m : LineMode) : ∀ k ∈ modeDomains m, k < 9 := by cases m <;> decide

theorem quietDomains_lt (m : LineMode) (deep : Bool) : ∀ k ∈ quietDomains m deep, k < 9 := by cases m <;> cases deep <;> decide

theorem Port.needs_lt (x : Port) : ∀ k ∈ x.needs, k < 9 := by
  unfold Port.needs
  repeat' split
  all_goals first
    | decide
    | exact modeDomains_lt _
    | (intro k hk; rw [List.mem_eraseDups, List.mem_flatMap] at hk; obtain ⟨m, -, hm⟩ := hk; exact modeDomains_lt m k hm)

theorem Port.domains_lt (x : Port) : ∀ k ∈ x.domains, k < 9 := by
  unfold Port.domains
  repeat' split
  all_goals first
    | decide
    | exact quietDomains_lt _ _
    | exact Port.needs_lt x

theorem State.portNeeds_lt (s : State) (p : Fin 16) : ∀ d ∈ s.portNeeds p, d < 144 := by
  intro d hd
  unfold State.portNeeds at hd
  simp only [List.mem_map] at hd
  obtain ⟨k, hk, rfl⟩ := hd
  have := Port.needs_lt _ k hk
  have := p.isLt
  unfold portDomain
  omega

theorem State.portWant_lt (s : State) (p : Fin 16) : ∀ d ∈ s.portWant p, d < 144 := by
  intro d hd
  unfold State.portWant at hd
  simp only [List.mem_map] at hd
  obtain ⟨k, hk, rfl⟩ := hd
  have : k < 9 := by
    split at hk
    · unfold testDomains at hk
      revert k
      (repeat' split) <;> decide
    · exact Port.domains_lt _ k hk
  have := p.isLt
  unfold portDomain
  omega

/-- With nothing forced off no phase lacks a domain. -/
theorem State.forceSync_free {s : State} (p : Fin 16) (hf : s.unforced) : s.forceSync p = s := by
  have hm : s.missing? p = none := by
    unfold State.missing?
    rw [List.find?_eq_none]
    intro d hd
    simp [hf d (State.portNeeds_lt s p d hd)]
  unfold State.forceSync
  rw [hm]

/-- A port that is enabled as before, with no calibration run and no domain forced off, asks for nothing. -/
theorem followPort_free {old s : State} {p : Fin 16} (hf : s.unforced) (hc : (s.port p).cal.running = false)
    (he : old.enabled p = s.enabled p) : State.followPort old s p = s := by
  unfold State.followPort State.calFollow
  simp [State.forceSync_free p hf, hc, he]

end Sys2Proof.Machine
end

