-- ==== Sys2Proof/Laws/Frame.lean ====
section
/-! SUPPORT. The frame of the operations: what no operation of the line, the basin, the time unit, calibration, diagnostics,
self-test, the keeper and the event ring writes (the queue, the die, the OTP, the stored registers, the interface records).
One lemma per operation; the operations of the register bus and of the resets are in Laws/Root.lean. -/

set_option linter.unusedTactic false
set_option linter.unreachableTactic false
set_option linter.unnecessarySeqFocus false
set_option linter.unusedSimpArgs false
set_option linter.unusedVariables false

namespace Sys2Proof.Machine

@[simp] theorem frame_mk (s : State) (x1 x2 x3 x4 x5 x6 x7 x8 x9 x10 x11 x12 x13 x14 x15 x16 x17 x18 x19 x20 x21 x22) :
  State.frame { s with ticks := x1, draws := x2, parity := x3, mended := x4, sup := x5, clk := x6, dom := x7, ports := x8, reaches := x9, lanes := x10, basin := x11, time := x12, cal := x13, ring := x14, chans := x15, keeper := x16, tally := x17, test := x18, keys := x19, journal := x20, mdio := x21, kpi := x22 } = s.frame := rfl
@[simp] theorem foldl_frame {α : Type} (l : List α) (f : State → α → State) (s : State) (h : ∀ t x, (f t x).frame = t.frame) : (l.foldl f s).frame = s.frame := by
  induction l generalizing s with
  | nil => rfl
  | cons a l ih => rw [List.foldl_cons, ih, h]
theorem foldl_frame_of {α : Type} {l : List α} {f : State → α → State} {s u : State} (h : ∀ t x, (f t x).frame = t.frame) (hs : s.frame = u.frame) :
    (l.foldl f s).frame = u.frame := (foldl_frame l f s h).trans hs


/-! ### Ops -/

@[simp] theorem State.setPort_frame (s : State) (p : Fin 16) (x : Port) : (s.setPort p x).frame = s.frame := by
  simp [State.setPort]
@[simp] theorem State.modPort_frame (s : State) (p : Fin 16) (f : Port → Port) : (s.modPort p f).frame = s.frame := by
  simp [State.modPort]
@[simp] theorem State.modReach_frame (s : State) (r : Fin 4) (f : Reach → Reach) : (s.modReach r f).frame = s.frame := by
  simp [State.modReach]
@[simp] theorem State.modLane_frame (s : State) (n : Fin 8) (f : Lane → Lane) : (s.modLane n f).frame = s.frame := by
  simp [State.modLane]
@[simp] theorem State.modChan_frame (s : State) (c : Fin 16) (f : Channel → Channel) : (s.modChan c f).frame = s.frame := by
  simp [State.modChan]
@[simp] theorem State.forPorts_frame (s : State) (l : List (Fin 16)) (f : Fin 16 → State → State) (h : ∀ p t, (f p t).frame = t.frame) :
    (s.forPorts l f).frame = s.frame := by
  unfold State.forPorts
  exact foldl_frame _ _ _ (fun t p => h p t)
@[simp] theorem State.modQueue_frame (s : State) (q : Nat) (f : Queue → Queue) : (s.modQueue q f).frame = s.frame := by
  simp [State.modQueue]
@[simp] theorem State.modTickets_frame (s : State) (f : List Ticket → List Ticket) : (s.modTickets f).frame = s.frame := by
  simp [State.modTickets]
@[simp] theorem State.modTicket_frame (s : State) (id : Nat) (f : Ticket → Ticket) : (s.modTicket id f).frame = s.frame := by
  simp [State.modTicket]
@[simp] theorem State.draw_frame (s : State) : (s.draw).2.frame = s.frame := by
  simp [State.draw]
@[simp] theorem State.countCode_frame (s : State) (b code n : Nat) : (s.countCode b code n).frame = s.frame := by
  unfold State.countCode
  (repeat' split) <;> simp
@[simp] theorem State.count_frame (s : State) (b k n : Nat) : (s.count b k n).frame = s.frame := by
  simp [State.count]
@[simp] theorem State.raise_frame (s : State) (code block unit : Nat) (e0 : Word) (e1 : Word) (e2 : Word) (e3 : Word) : (s.raise code block unit e0 e1 e2 e3).frame = s.frame := by
  simp [State.raise]

/-! ### Modes -/

@[simp] theorem State.lineOne_frame (s : State) (p : Fin 16) (out : Bool) : (s.lineOne p out).frame = s.frame := by
  unfold State.lineOne; dsimp only
  (repeat' split) <;> simp
@[simp] theorem State.lineSync_frame (s : State) (p : Fin 16) : (s.lineSync p).frame = s.frame := by
  simp [State.lineSync]

/-! ### Power -/

@[simp] theorem State.syncDomains_frame (s : State) : (s.syncDomains).frame = s.frame := by
  simp [State.syncDomains]

/-! ### Cells -/

@[simp] theorem State.modLink_frame (s : State) (p : Fin 16) (f : Link → Link) : (s.modLink p f).frame = s.frame := by
  simp [State.modLink]
@[simp] theorem State.modTow_frame (s : State) (p : Fin 16) (f : Towpath → Towpath) : (s.modTow p f).frame = s.frame := by
  simp [State.modTow]
@[simp] theorem State.modTx_frame (s : State) (p : Fin 16) (f : TxPath → TxPath) : (s.modTx p f).frame = s.frame := by
  simp [State.modTx]
@[simp] theorem State.modRx_frame (s : State) (p : Fin 16) (f : RxPath → RxPath) : (s.modRx p f).frame = s.frame := by
  simp [State.modRx]
@[simp] theorem State.modDmt_frame (s : State) (p : Fin 16) (f : Dmt → Dmt) : (s.modDmt p f).frame = s.frame := by
  simp [State.modDmt]
@[simp] theorem State.modSnd_frame (s : State) (p : Fin 16) (f : Sender → Sender) : (s.modSnd p f).frame = s.frame := by
  simp [State.modSnd]
@[simp] theorem State.modRcv_frame (s : State) (p : Fin 16) (f : Receiver → Receiver) : (s.modRcv p f).frame = s.frame := by
  simp [State.modRcv]
@[simp] theorem State.modQuiet_frame (s : State) (p : Fin 16) (f : Quiet → Quiet) : (s.modQuiet p f).frame = s.frame := by
  simp [State.modQuiet]
@[simp] theorem State.queueCell_frame (s : State) (p : Fin 16) (type : Nat) (payload : List Byte) : (s.queueCell p type payload).frame = s.frame := by
  simp [State.queueCell]
@[simp] theorem State.sendFresh_frame (s : State) (p : Fin 16) (i : Nat) (c0 : TxCell) : (s.sendFresh p i c0).frame = s.frame := by
  simp [State.sendFresh]
@[simp] theorem State.sendAgain_frame (s : State) (p : Fin 16) (a : AwaitCell) : (s.sendAgain p a).frame = s.frame := by
  simp [State.sendAgain]
@[simp] theorem State.cellSlot_frame (s : State) (p : Fin 16) : (s.cellSlot p).frame = s.frame := by
  unfold State.cellSlot; dsimp only
  (repeat' split) <;> simp
@[simp] theorem State.ackCell_frame (s : State) (p : Fin 16) (counter : Word) (type : Nat) : (s.ackCell p counter type).frame = s.frame := by
  simp [State.ackCell]
@[simp] theorem State.takeCell_frame (s : State) (p : Fin 16) (h : CellHdr) : (s.takeCell p h).2.2.frame = s.frame := by
  unfold State.takeCell; dsimp only
  (repeat' split) <;> simp
@[simp] theorem State.modRecord_frame (s : State) (p : Fin 16) (h : CellHdr) (f : RxCtr → RxCtr) : (s.modRecord p h f).frame = s.frame := by
  simp [State.modRecord]
@[simp] theorem State.ackAgain_frame (s : State) (p : Fin 16) (h : CellHdr) (v : Word) (type : Nat) : (s.ackAgain p h v type).frame = s.frame := by
  unfold State.ackAgain
  (repeat' split) <;> simp
@[simp] theorem State.withCell_frame (s : State) (p : Fin 16) (h : CellHdr) (type : Nat) (act : State → State) (hact : ∀ t, (act t).frame = t.frame) : (s.withCell p h type act).frame = s.frame := by
  unfold State.withCell; dsimp only
  (repeat' split) <;> simp [*]
@[simp] theorem State.withCellIf_frame (s : State) (p : Fin 16) (h : CellHdr) (type : Nat) (ok : Bool) (act : State → State) (hact : ∀ t, (act t).frame = t.frame) : (s.withCellIf p h type ok act).frame = s.frame := by
  unfold State.withCellIf; dsimp only
  (repeat' split) <;> simp [*]

/-! ### Link -/

@[simp] theorem State.ramp_frame (s : State) (p : Fin 16) (up : Bool) (short : Bool) : (s.ramp p up short).frame = s.frame := by
  simp [State.ramp]
@[simp] theorem State.txStart_frame (s : State) (p : Fin 16) : (s.txStart p).frame = s.frame := by
  simp [State.txStart]
@[simp] theorem State.txStop_frame (s : State) (p : Fin 16) : (s.txStop p).frame = s.frame := by
  simp [State.txStop]
@[simp] theorem State.txStopShort_frame (s : State) (p : Fin 16) : (s.txStopShort p).frame = s.frame := by
  simp [State.txStopShort]
@[simp] theorem State.txBurst_frame (s : State) (p : Fin 16) (ps : Nat) : (s.txBurst p ps).frame = s.frame := by
  simp [State.txBurst]
@[simp] theorem State.txResume_frame (s : State) (p : Fin 16) : (s.txResume p).frame = s.frame := by
  unfold State.txResume
  (repeat' split) <;> simp
@[simp] theorem State.silence_frame (s : State) (p : Fin 16) (short : Bool) : (s.silence p short).frame = s.frame := by
  unfold State.silence
  (repeat' split) <;> simp
@[simp] theorem State.setSwing_frame (s : State) (p : Fin 16) (nominal : Nat) : (s.setSwing p nominal).frame = s.frame := by
  simp [State.setSwing]
@[simp] theorem State.xtOne_frame (s : State) (r : Fin 4) (i : Fin 12) : (s.xtOne r i).frame = s.frame := by
  unfold State.xtOne; dsimp only
  (repeat' split) <;> simp
@[simp] theorem State.xtSync_frame (s : State) (r : Fin 4) : (s.xtSync r).frame = s.frame := by
  simp [State.xtSync]
@[simp] theorem State.goLink_frame (s : State) (p : Fin 16) (f : Link → Link) : (s.goLink p f).frame = s.frame := by
  simp [State.goLink]
@[simp] theorem State.fall_frame (s : State) (p : Fin 16) (to_ : LinkState) (cause : Nat) (short : Bool) : (s.fall p to_ cause short).frame = s.frame := by
  simp [State.fall]
@[simp] theorem State.linkDown_frame (s : State) (p : Fin 16) (cause : Nat) : (s.linkDown p cause).frame = s.frame := by
  unfold State.linkDown
  (repeat' split) <;> simp
@[simp] theorem State.takeDown_frame (s : State) (p : Fin 16) (cause : Nat) : (s.takeDown p cause).frame = s.frame := by
  unfold State.takeDown
  (repeat' split) <;> simp
@[simp] theorem State.holdDown_frame (s : State) (p : Fin 16) (cause : Nat) (short : Bool) : (s.holdDown p cause short).frame = s.frame := by
  unfold State.holdDown
  (repeat' split) <;> simp
@[simp] theorem State.disable_frame (s : State) (p : Fin 16) : (s.disable p).frame = s.frame := by
  unfold State.disable
  (repeat' split) <;> simp
@[simp] theorem State.stdSettings_frame (s : State) (p : Fin 16) (taps : Word × Word) : (s.stdSettings p taps).frame = s.frame := by
  simp [State.stdSettings]
@[simp] theorem State.enterAn_frame (s : State) (p : Fin 16) : (s.enterAn p).frame = s.frame := by
  simp [State.enterAn]
@[simp] theorem State.enterStd_frame (s : State) (p : Fin 16) (m : LineMode) (isMaster : Bool) : (s.enterStd p m isMaster).frame = s.frame := by
  simp [State.enterStd]
@[simp] theorem State.sendBeacon_frame (s : State) (p : Fin 16) (answer : Bool) : (s.sendBeacon p answer).frame = s.frame := by
  simp [State.sendBeacon]
@[simp] theorem State.enterDiscover_frame (s : State) (p : Fin 16) (long : Bool) : (s.enterDiscover p long).frame = s.frame := by
  simp [State.enterDiscover]
@[simp] theorem State.firstState_frame (s : State) (p : Fin 16) : (s.firstState p).frame = s.frame := by
  unfold State.firstState; dsimp only
  (repeat' split) <;> simp
@[simp] theorem State.startPort_frame (s : State) (p : Fin 16) : (s.startPort p).frame = s.frame := by
  unfold State.startPort
  (repeat' split) <;> simp
@[simp] theorem State.restartPort_frame (s : State) (p : Fin 16) : (s.restartPort p).frame = s.frame := by
  simp [State.restartPort]
@[simp] theorem State.newSounding_frame (s : State) (p : Fin 16) (x : Sounding) : (s.newSounding p x).frame = s.frame := by
  simp [State.newSounding]
@[simp] theorem State.rxEnter_frame (s : State) (p : Fin 16) (m : LineMode) (shift : Bool) : (s.rxEnter p m shift).frame = s.frame := by
  simp [State.rxEnter]
@[simp] theorem State.sendSounding_frame (s : State) (p : Fin 16) : (s.sendSounding p).frame = s.frame := by
  simp [State.sendSounding]
@[simp] theorem State.narrowRun_frame (s : State) (p : Fin 16) (sf : Nat) : (s.narrowRun p sf).frame = s.frame := by
  simp [State.narrowRun]
@[simp] theorem State.runDue_frame (s : State) (p : Fin 16) : (s.runDue p).frame = s.frame := by
  unfold State.runDue
  (repeat' split) <;> simp
@[simp] theorem State.enterSound_frame (s : State) (p : Fin 16) (leader : Bool) : (s.enterSound p leader).frame = s.frame := by
  unfold State.enterSound; dsimp only
  (repeat' split) <;> simp
@[simp] theorem State.adaptRx_frame (s : State) (p : Fin 16) (m : LineMode) : (s.adaptRx p m).frame = s.frame := by
  simp [State.adaptRx]
@[simp] theorem State.trainStart_frame (s : State) (p : Fin 16) (full : Bool) : (s.trainStart p full).frame = s.frame := by
  simp [State.trainStart]
@[simp] theorem State.beginBlocks_frame (s : State) (p : Fin 16) (m : LineMode) (at_ : Nat) : (s.beginBlocks p m at_).frame = s.frame := by
  unfold State.beginBlocks; dsimp only
  (repeat' split) <;> simp
@[simp] theorem State.linkUp_frame (s : State) (p : Fin 16) (m : LineMode) (st : LinkState) : (s.linkUp p m st).frame = s.frame := by
  simp [State.linkUp]
@[simp] theorem State.modeSettings_frame (s : State) (p : Fin 16) (m : LineMode) (bit_ : Bool) (spread : Bool) : (s.modeSettings p m bit_ spread).frame = s.frame := by
  simp [State.modeSettings]
@[simp] theorem State.enterTraining_frame (s : State) (p : Fin 16) (m : LineMode) (c : ModeCell) : (s.enterTraining p m c).frame = s.frame := by
  unfold State.enterTraining; dsimp only
  (repeat' split) <;> simp
@[simp] theorem State.trainFailed_frame (s : State) (p : Fin 16) : (s.trainFailed p).frame = s.frame := by
  unfold State.trainFailed; dsimp only
  (repeat' split) <;> simp
@[simp] theorem State.queueGo_frame (s : State) (p : Fin 16) : (s.queueGo p).frame = s.frame := by
  simp [State.queueGo]
@[simp] theorem State.shiftBegin_frame (s : State) (p : Fin 16) (target : LineMode) (kind : Nat) (sf : Nat) : (s.shiftBegin p target kind sf).frame = s.frame := by
  unfold State.shiftBegin; dsimp only
  (repeat' split) <;> simp
@[simp] theorem State.leadShift_frame (s : State) (p : Fin 16) (target : LineMode) (kind : Nat) : (s.leadShift p target kind).frame = s.frame := by
  simp [State.leadShift]
@[simp] theorem State.askShift_frame (s : State) (p : Fin 16) (target : LineMode) (kind : Nat) : (s.askShift p target kind).frame = s.frame := by
  simp [State.askShift]
@[simp] theorem State.earlyExit_frame (s : State) (p : Fin 16) : (s.earlyExit p).frame = s.frame := by
  unfold State.earlyExit
  (repeat' split) <;> simp
@[simp] theorem State.skipWindow_frame (s : State) (p : Fin 16) (cause : Nat) : (s.skipWindow p cause).frame = s.frame := by
  simp [State.skipWindow]
@[simp] theorem State.trigger_frame (s : State) (p : Fin 16) (target : LineMode) (kind : Nat) : (s.trigger p target kind).frame = s.frame := by
  unfold State.trigger; dsimp only
  (repeat' split) <;> simp
@[simp] theorem State.shiftProceed_frame (s : State) (p : Fin 16) : (s.shiftProceed p).frame = s.frame := by
  unfold State.shiftProceed; dsimp only
  (repeat' split) <;> simp
@[simp] theorem State.shiftDone_frame (s : State) (p : Fin 16) : (s.shiftDone p).frame = s.frame := by
  unfold State.shiftDone; dsimp only
  (repeat' split) <;> simp
@[simp] theorem State.shiftFailed_frame (s : State) (p : Fin 16) : (s.shiftFailed p).frame = s.frame := by
  unfold State.shiftFailed; dsimp only
  (repeat' split) <;> simp

/-! ### Basin -/

@[simp] theorem State.pushCtrl_frame (s : State) (kind : Nat) (x : Bool) (q : Nat) (seq : Seq16) : (s.pushCtrl kind x q seq).frame = s.frame := by
  simp [State.pushCtrl]
@[simp] theorem State.announce_frame (s : State) (q : Queue) (n : Nat) : (s.announce q n).frame = s.frame := by
  unfold State.announce
  (repeat' split) <;> simp
@[simp] theorem State.sendRelease_frame (s : State) (q : Nat) : (s.sendRelease q).frame = s.frame := by
  unfold State.sendRelease
  (repeat' split) <;> simp
@[simp] theorem State.resendFrom_frame (s : State) (q : Nat) : (s.resendFrom q).frame = s.frame := by
  unfold State.resendFrom; dsimp only
  (repeat' split) <;> simp
@[simp] theorem State.qflowSync_frame (s : State) (q : Nat) : (s.qflowSync q).frame = s.frame := by
  unfold State.qflowSync; dsimp only
  (repeat' split) <;> simp
@[simp] theorem State.gateOne_frame (s : State) (p : Fin 16) (skid : Nat) (c : Custody) : (s.gateOne p skid c).frame = s.frame := by
  unfold State.gateOne; dsimp only
  (repeat' split) <;> simp
@[simp] theorem State.gateSync_frame (s : State) (p : Fin 16) : (s.gateSync p).frame = s.frame := by
  unfold State.gateSync
  (repeat' split) <;> simp
@[simp] theorem State.hopSync_frame (s : State) : (s.hopSync).frame = s.frame := by
  unfold State.hopSync; dsimp only
  (repeat' split) <;> simp
@[simp] theorem State.flowSync_frame (s : State) (q : Nat) : (s.flowSync q).frame = s.frame := by
  simp [State.flowSync]
@[simp] theorem State.tagPick_frame (s : State) (q : Nat) (out : Bool) : (s.tagPick q out).2.frame = s.frame := by
  unfold State.tagPick; dsimp only
  (repeat' split) <;> simp
@[simp] theorem State.stage_frame (s : State) (id k : Nat) : (s.stage id k).frame = s.frame := by
  simp [State.stage]
@[simp] theorem State.logTicket_frame (s : State) (t : Ticket) (discarded : Bool) : (s.logTicket t discarded).frame = s.frame := by
  unfold State.logTicket; dsimp only
  (repeat' split) <;> simp
@[simp] theorem State.issue_frame (s : State) (q : Queue) (len : Nat) (rsnd : Bool) : (s.issue q len rsnd).2.frame = s.frame := by
  simp [State.issue]
@[simp] theorem State.freeTicket_frame (s : State) (id : Nat) (discarded : Bool) : (s.freeTicket id discarded).frame = s.frame := by
  unfold State.freeTicket
  (repeat' split) <;> simp
@[simp] theorem State.freeAll_frame (s : State) (ids : List Nat) (discarded : Bool) : (s.freeAll ids discarded).frame = s.frame := by
  simp [State.freeAll]
@[simp] theorem State.queueTicket_frame (s : State) (id : Nat) : (s.queueTicket id).frame = s.frame := by
  unfold State.queueTicket
  (repeat' split) <;> simp
@[simp] theorem State.startMove_frame (s : State) (q : Nat) (n : Fin 8) : (s.startMove q n).frame = s.frame := by
  unfold State.startMove
  (repeat' split) <;> simp
@[simp] theorem State.restartOn_frame (s : State) (q : Nat) (n : Option (Fin 8)) : (s.restartOn q n).frame = s.frame := by
  unfold State.restartOn
  (repeat' split) <;> simp
@[simp] theorem State.endMove_frame (s : State) (q : Nat) : (s.endMove q).frame = s.frame := by
  simp [State.endMove]
@[simp] theorem State.applyPlan_frame (s : State) (q : Nat) (pl : Plan) : (s.applyPlan q pl).frame = s.frame := by
  unfold State.applyPlan
  (repeat' split) <;> simp
@[simp] theorem State.demote_frame (s : State) (q status : Nat) : (s.demote q status).frame = s.frame := by
  simp [State.demote]
@[simp] theorem State.shrink_frame (n : Nat) (s : State) : (State.shrink n s).frame = s.frame := by
  induction n generalizing s with
  | zero => rfl
  | succ n ih => unfold State.shrink; split <;> simp [ih]
@[simp] theorem State.shrinkAll_frame (s : State) : s.shrinkAll.frame = s.frame := State.shrink_frame _ s
@[simp] theorem State.replaceStreams_frame (n : Nat) (s : State) (l : List Nat) (go : State → Nat → Option (Fin 8) → State)
    (h : ∀ t q m, (go t q m).frame = t.frame) : (State.replaceStreams n s l go).frame = s.frame := by
  induction n generalizing s with
  | zero => rfl
  | succ n ih => unfold State.replaceStreams; dsimp only; (repeat' split) <;> simp [ih, h]
@[simp] theorem State.replaceAll_frame (s : State) (l : List Nat) (go : State → Nat → Option (Fin 8) → State)
    (h : ∀ t q m, (go t q m).frame = t.frame) : (s.replaceAll l go).frame = s.frame := State.replaceStreams_frame _ s l go h
@[simp] theorem State.restoreGo_frame (n : Nat) (s : State) : (State.restoreGo n s).frame = s.frame := by
  induction n generalizing s with
  | zero => rfl
  | succ n ih => unfold State.restoreGo; dsimp only; (repeat' split) <;> simp [ih]
@[simp] theorem State.restore_frame (s : State) : s.restore.frame = s.frame := State.restoreGo_frame _ s
@[simp] theorem State.rebalance_frame (s : State) : (s.rebalance).frame = s.frame := by
  unfold State.rebalance
  (repeat' split) <;> simp
@[simp] theorem State.setBank_frame (s : State) (b : Fin 68) (u : BankUse) : (s.setBank b u).frame = s.frame := by
  simp [State.setBank]
@[simp] theorem State.dropRotation_frame (s : State) : s.dropRotation.frame = s.frame := by
  unfold State.dropRotation
  split
  · dsimp only
    split
    · rfl
    · refine (frame_mk _ _ _ _ _ _ _ _ _ _ _ _ _ _ _ _ _ _ _ _ _ _ _).trans (foldl_frame _ _ _ (fun x b => ?_))
      split
      · split
        · exact foldl_frame_of (fun y c => by split <;> simp) (by simp)
        · rfl
      · rfl
  · rfl
@[simp] theorem State.repairBank_frame (s : State) (b : Fin 68) : (s.repairBank b).frame = s.frame := by
  unfold State.repairBank; dsimp only
  (repeat' split) <;> simp

/-! ### Lanes -/

@[simp] theorem State.relSync_frame (s : State) (p : Fin 16) : (s.relSync p).frame = s.frame := by
  unfold State.relSync
  (repeat' split) <;> simp
@[simp] theorem State.laneSend_frame (s : State) (n : Fin 8) (f : HostFrame) (data : Bool) (len : Nat) : (s.laneSend n f data len).frame = s.frame := by
  simp [State.laneSend]
@[simp] theorem State.sendCtrl_frame (s : State) (n : Fin 8) (kind : Nat) : (s.sendCtrl n kind).frame = s.frame := by
  simp [State.sendCtrl]
@[simp] theorem State.sendMarker_frame (s : State) (n : Fin 8) (q : Nat) : (s.sendMarker n q).frame = s.frame := by
  unfold State.sendMarker
  (repeat' split) <;> simp
@[simp] theorem State.sendData_frame (s : State) (n : Fin 8) (id : Nat) (credit : Bool) : (s.sendData n id credit).frame = s.frame := by
  unfold State.sendData
  (repeat' split) <;> simp
@[simp] theorem State.serveLane_frame (s : State) (n : Fin 8) : (s.serveLane n).frame = s.frame := by
  unfold State.serveLane; dsimp only
  (repeat' split) <;> simp
@[simp] theorem State.ignoreReceipt_frame (s : State) (n : Fin 8) : (s.ignoreReceipt n).frame = s.frame := by
  simp [State.ignoreReceipt]
@[simp] theorem State.receiptOne_frame (s : State) (n : Fin 8) (e : CtrlEntry) : (s.receiptOne n e).frame = s.frame := by
  unfold State.receiptOne; dsimp only
  (repeat' split) <;> simp
@[simp] theorem State.receiptTimeout_frame (s : State) (q : Nat) : (s.receiptTimeout q).frame = s.frame := by
  unfold State.receiptTimeout
  (repeat' split) <;> simp
@[simp] theorem State.discardHost_frame (s : State) (n : Fin 8) : (s.discardHost n).frame = s.frame := by
  simp [State.discardHost]
@[simp] theorem State.takeOutbound_frame (s : State) (n : Fin 8) (q : Queue) (seq : Seq16) (frame : List Byte) : (s.takeOutbound n q seq frame).frame = s.frame := by
  unfold State.takeOutbound; dsimp only
  (repeat' split) <;> simp
@[simp] theorem State.retarget_frame (s : State) (q : Nat) (n : Option (Fin 8)) : (s.retarget q n).frame = s.frame := by
  simp [State.retarget]
@[simp] theorem State.loseLane_frame (s : State) (n : Fin 8) (cause : Nat) : (s.loseLane n cause).frame = s.frame := by
  unfold State.loseLane; dsimp only
  split
  · simp
  · rw [State.replaceAll_frame _ _ _ (by simp), State.replaceAll_frame _ _ _ (by simp)]
    exact foldl_frame_of (fun t q => by split <;> simp) (by simp)
@[simp] theorem State.raiseLane_frame (s : State) (n : Fin 8) : (s.raiseLane n).frame = s.frame := by
  simp [State.raiseLane]

/-! ### Cadence -/

@[simp] theorem State.putCad_frame (s : State) (c : Nat) (x : Cadence) : (s.putCad c x).frame = s.frame := by
  simp [State.putCad]
@[simp] theorem State.freeCad_frame (s : State) (c : Nat) : (s.freeCad c).frame = s.frame := by
  simp [State.freeCad]
@[simp] theorem State.takeGovern_frame (s : State) (c : Nat) : (s.takeGovern c).frame = s.frame := by
  unfold State.takeGovern
  (repeat' split) <;> simp
@[simp] theorem State.reanchor_frame (s : State) (c : Nat) : (s.reanchor c).frame = s.frame := by
  simp [State.reanchor]
@[simp] theorem State.trackEntry_frame (s : State) (q arr : Nat) (e : Nat × Cadence) : (s.trackEntry q arr e).frame = s.frame := by
  unfold State.trackEntry
  (repeat' split) <;> simp
@[simp] theorem State.cadArrive_frame (s : State) (q : Nat) (arr : Nat) : (s.cadArrive q arr).frame = s.frame := by
  simp [State.cadArrive]

/-! ### Retry -/

@[simp] theorem State.beginPack_frame (s : State) (p : Fin 16) (t : Ticket) (credit : Bool) (redo : Bool) : (s.beginPack p t credit redo).frame = s.frame := by
  simp [State.beginPack]
@[simp] theorem State.place_frame (s : State) (p : Fin 16) (id : Nat) (off : Nat) (seq : Seq24) (pos : Nat) (len : Nat) : (s.place p id off seq pos len).1.frame = s.frame := by
  unfold State.place; dsimp only
  (repeat' split) <;> simp
@[simp] theorem State.packGo_frame (p : Fin 16) (len : Nat) (seq : Seq24) (n : Nat) (s : State) (pos : Nat) (k : Pack) :
    (State.packGo p len seq n s pos k).1.frame = s.frame := by
  induction n generalizing s pos k with
  | zero => rfl
  | succ n ih => unfold State.packGo; dsimp only; (repeat' split) <;> simp [ih]
@[simp] theorem State.dropCorrupt_frame (s : State) (p : Fin 16) : (s.dropCorrupt p).frame = s.frame := by
  simp [State.dropCorrupt]
@[simp] theorem State.slotNack_frame (s : State) (p : Fin 16) (k : NackRun) : (s.slotNack p k).2.frame = s.frame := by
  simp [State.slotNack]
@[simp] theorem State.slotRelease_frame (s : State) (p : Fin 16) : (s.slotRelease p).2.frame = s.frame := by
  simp [State.slotRelease]
@[simp] theorem State.slotSeg_frame (s : State) (p : Fin 16) (ctr : Word) (bytes : List Byte) (k : Nat) : (s.slotSeg p ctr bytes k).2.frame = s.frame := by
  simp [State.slotSeg]
@[simp] theorem State.fillSlot_frame (s : State) (p : Fin 16) : (s.fillSlot p).2.frame = s.frame := by
  unfold State.fillSlot; dsimp only
  (repeat' split) <;> simp
@[simp] theorem State.pamLine_frame (s : State) (p : Fin 16) (m : LineMode) (word : List (BitVec 10)) : (s.pamLine p m word).frame = s.frame := by
  simp [State.pamLine]
@[simp] theorem State.dmtLine_frame (s : State) (p : Fin 16) (word : List (BitVec 10)) : (s.dmtLine p word).frame = s.frame := by
  unfold State.dmtLine; dsimp only
  (repeat' split) <;> simp
@[simp] theorem State.lineBlock_frame (s : State) (p : Fin 16) (m : LineMode) (bytes : List Byte) : (s.lineBlock p m bytes).frame = s.frame := by
  unfold State.lineBlock
  (repeat' split) <;> simp
@[simp] theorem State.emitBlock_frame (s : State) (p : Fin 16) (m : LineMode) (type : Nat) (seq : Seq24) (ffp : BitVec 16) (payload : List Byte) (resent : Bool) : (s.emitBlock p m type seq ffp payload resent).frame = s.frame := by
  simp [State.emitBlock]
@[simp] theorem State.sendNew_frame (s : State) (p : Fin 16) (m : LineMode) : (s.sendNew p m).frame = s.frame := by
  simp [State.sendNew]
@[simp] theorem State.sendResend_frame (s : State) (p : Fin 16) (m : LineMode) (b : TxBlock) : (s.sendResend p m b).frame = s.frame := by
  simp [State.sendResend]
@[simp] theorem State.sendBlock_frame (s0 : State) (p : Fin 16) : (State.sendBlock s0 p).frame = s0.frame := by
  unfold State.sendBlock; dsimp only
  (repeat' split) <;> simp
@[simp] theorem State.protoErr_frame (s : State) (p : Fin 16) : (s.protoErr p).frame = s.frame := by
  simp [State.protoErr]
@[simp] theorem State.ackTo_frame (s : State) (p : Fin 16) (a : Seq24) : (s.ackTo p a).frame = s.frame := by
  unfold State.ackTo; dsimp only
  (repeat' split) <;> simp
@[simp] theorem State.relTo_frame (s : State) (p : Fin 16) (r : Seq24) : (s.relTo p r).frame = s.frame := by
  unfold State.relTo; dsimp only
  (repeat' split) <;> simp
@[simp] theorem State.nackTo_frame (s : State) (p : Fin 16) (first : Seq24) (run : Nat) (room : Bool) : (s.nackTo p first run room).frame = s.frame := by
  simp [State.nackTo]
@[simp] theorem State.nackSync_frame (s : State) (p : Fin 16) : (s.nackSync p).frame = s.frame := by
  simp [State.nackSync]
@[simp] theorem State.endFrame_frame (s : State) (p : Fin 16) (b : HeldBlk) : (s.endFrame p b).frame = s.frame := by
  unfold State.endFrame; dsimp only
  (repeat' split) <;> simp
@[simp] theorem State.frameBytes_frame (s : State) (p : Fin 16) (bs : List Byte) : (s.frameBytes p bs).frame = s.frame := by
  unfold State.frameBytes
  (repeat' split) <;> simp
/-- The state that a walk ends with. -/
def Walk.state (s : State) : Walk → State
  | .done t => t
  | .refuse _ _ => s
@[simp] theorem Walk.state_done (s t : State) : (Walk.done t).state s = t := rfl
@[simp] theorem Walk.state_refuse (s : State) (q k : Nat) : (Walk.refuse q k).state s = s := rfl
theorem State.startFrame_frame (s u : State) (p : Fin 16) (b : HeldBlk) (tag : Byte) (rsnd : Bool) (len : Nat) (h : u.frame = s.frame) :
    ((s.startFrame p b tag rsnd len).state u).frame = s.frame := by
  unfold State.startFrame; dsimp only
  (repeat' split) <;> simp [h]
@[simp] theorem State.framingError_frame (s : State) (p : Fin 16) (seq : Seq24) : (s.framingError p seq).frame = s.frame := by
  unfold State.framingError
  (repeat' split) <;> simp
theorem State.walk_frame (p : Fin 16) (b : HeldBlk) (n : Nat) (s u : State) (pos : Nat) (c r : Bool) (h : u.frame = s.frame) :
    ((State.walk p b n s pos c r).state u).frame = s.frame := by
  induction n generalizing s u pos c r with
  | zero => rfl
  | succ n ih =>
    unfold State.walk; dsimp only
    (repeat' split) <;> first
      | (simp [h]; done)
      | exact ih _ _ _ _ _ h
      | (rw [ih _ u _ _ _ (by simp [h])]; simp; done)
      | (rename_i he; have hs := State.startFrame_frame s s p b (b.payload.getD pos 0) ((b.payload.getD (pos + 1) 0).getLsbD 7)
          (beAt b.payload (pos + 1) 2 % 2 ^ 14) rfl; rw [he] at hs
         exact (ih _ _ _ _ _ (h.trans hs.symm)).trans hs)
theorem State.extract_frame (s u : State) (p : Fin 16) (b : HeldBlk) (h : u.frame = s.frame) : ((s.extract p b).state u).frame = s.frame := by
  unfold State.extract; dsimp only
  (repeat' split) <;> first
    | (simp [h]; done)
    | exact (State.walk_frame _ _ _ _ _ _ _ _ (h.trans (by simp))).trans (by simp)
@[simp] theorem State.advance_frame (p : Fin 16) (n : Nat) (s : State) : (State.advance p n s).frame = s.frame := by
  induction n generalizing s with
  | zero => rfl
  | succ n ih =>
    unfold State.advance; dsimp only
    split
    · rfl
    · rename_i b _
      have hx := State.extract_frame s s p b rfl
      split <;> rename_i he <;> simp_all
@[simp] theorem State.rcvSync_frame (s : State) (p : Fin 16) : (s.rcvSync p).frame = s.frame := by
  simp [State.rcvSync]
@[simp] theorem State.takeData_frame (s : State) (p : Fin 16) (b : Blk) : (s.takeData p b).frame = s.frame := by
  unfold State.takeData; dsimp only
  (repeat' split) <;> simp
@[simp] theorem State.takeFill_frame (s : State) (p : Fin 16) (b : Blk) : (s.takeFill p b).frame = s.frame := by
  simp [State.takeFill]
@[simp] theorem State.descrBlock_frame (s : State) (p : Fin 16) : (s.descrBlock p).frame = s.frame := by
  unfold State.descrBlock
  (repeat' split) <;> simp
@[simp] theorem State.blockHead_frame (s : State) (p : Fin 16) (b : Blk) : (s.blockHead p b).1.frame = s.frame := by
  unfold State.blockHead; dsimp only
  (repeat' split) <;> simp
@[simp] theorem State.failBlock_frame (s : State) (p : Fin 16) : (s.failBlock p).frame = s.frame := by
  simp [State.failBlock]
@[simp] theorem State.freshReceiver_frame (s : State) (p : Fin 16) (partner : Word) : (s.freshReceiver p partner).frame = s.frame := by
  unfold State.freshReceiver
  (repeat' split) <;> simp
@[simp] theorem State.freshSender_frame (s : State) (p : Fin 16) : (s.freshSender p).frame = s.frame := by
  simp [State.freshSender]
@[simp] theorem State.recutBlocks_frame (s : State) (p : Fin 16) : (s.recutBlocks p).frame = s.frame := by
  simp [State.recutBlocks]
@[simp] theorem State.resume_frame (s : State) (p : Fin 16) (m : LineMode) (rxA rxR : Seq24) : (s.resume p m rxA rxR).frame = s.frame := by
  unfold State.resume; dsimp only
  (repeat' split) <;> simp
@[simp] theorem State.settleSession_frame (s : State) (p : Fin 16) (m : LineMode) (b : Blk) : (s.settleSession p m b).frame = s.frame := by
  unfold State.settleSession; dsimp only
  (repeat' split) <;> simp
@[simp] theorem State.takeSync_frame (s : State) (p : Fin 16) (b : Blk) : (s.takeSync p b).1.frame = s.frame := by
  unfold State.takeSync; dsimp only
  (repeat' split) <;> simp
@[simp] theorem State.syncLate_frame (s : State) (p : Fin 16) : (s.syncLate p).frame = s.frame := by
  unfold State.syncLate; dsimp only
  (repeat' split) <;> simp

/-! ### Mailbox -/

@[simp] theorem State.answer_frame (s : State) (c : Fin 16) (status : Nat) (words : List Word) (detail : Nat) : (s.answer c status words detail).frame = s.frame := by
  simp [State.answer]
@[simp] theorem State.answerWait_frame (s : State) (f : LongCmd → Bool) (status : Nat) (words : List Word) (detail : Nat) : (s.answerWait f status words detail).frame = s.frame := by
  unfold State.answerWait
  (repeat' split) <;> simp

@[simp] theorem State.chainRun_frame (s : State) (p : Fin 16) (m : LineMode) (q : LineMeasure) : (s.chainRun p m q).2.frame = s.frame := by
  simp [State.chainRun]
@[simp] theorem State.measure_frame (s : State) (p : Fin 16) (q : LineMeasure) : (s.measure p q).2.frame = s.frame := by
  unfold State.measure; dsimp only
  (repeat' split) <;> simp
@[simp] theorem State.anStandard_frame (s : State) (p : Fin 16) (r : AnPages) : (s.anStandard p r).frame = s.frame := by
  unfold State.anStandard; dsimp only
  (repeat' split) <;> simp
/-! ### LinkOps -/

@[simp] theorem State.anResolved_frame (s : State) (p : Fin 16) (r : AnPages) : (s.anResolved p r).frame = s.frame := by
  unfold State.anResolved; dsimp only
  (repeat' split) <;> simp
@[simp] theorem State.anTimeout_frame (s : State) (p : Fin 16) : (s.anTimeout p).frame = s.frame := by
  unfold State.anTimeout
  (repeat' split) <;> simp
@[simp] theorem State.stdTrained_frame (s : State) (p : Fin 16) : (s.stdTrained p).frame = s.frame := by
  unfold State.stdTrained
  (repeat' split) <;> simp
@[simp] theorem State.stdFailed_frame (s : State) (p : Fin 16) : (s.stdFailed p).frame = s.frame := by
  unfold State.stdFailed
  (repeat' split) <;> simp
@[simp] theorem State.listenEnd_frame (s : State) (p : Fin 16) : (s.listenEnd p).frame = s.frame := by
  unfold State.listenEnd
  (repeat' split) <;> simp
@[simp] theorem State.soundIfAcked_frame (s : State) (p : Fin 16) : (s.soundIfAcked p).frame = s.frame := by
  unfold State.soundIfAcked
  (repeat' split) <;> simp
@[simp] theorem State.answerBeacon_frame (s : State) (p : Fin 16) : (s.answerBeacon p).frame = s.frame := by
  unfold State.answerBeacon; dsimp only
  (repeat' split) <;> simp
@[simp] theorem State.takeCap_frame (s : State) (p : Fin 16) (c : CapCell) (mac : Word) (sf : Nat) : (s.takeCap p c mac sf).frame = s.frame := by
  unfold State.takeCap; dsimp only
  (repeat' split) <;> simp
@[simp] theorem State.discoverLate_frame (s : State) (p : Fin 16) : (s.discoverLate p).frame = s.frame := by
  unfold State.discoverLate
  (repeat' split) <;> simp
@[simp] theorem State.announceMode_frame (s : State) (p : Fin 16) : (s.announceMode p).frame = s.frame := by
  unfold State.announceMode
  (repeat' split) <;> simp
@[simp] theorem State.takeBurst_frame (s : State) (p : Fin 16) (x : Sounding) (snr : Nat) : (s.takeBurst p x snr).frame = s.frame := by
  unfold State.takeBurst; dsimp only
  (repeat' split) <;> simp
@[simp] theorem State.burstMissing_frame (s : State) (p : Fin 16) : (s.burstMissing p).frame = s.frame := by
  unfold State.burstMissing
  (repeat' split) <;> simp
@[simp] theorem State.soundLate_frame (s : State) (p : Fin 16) : (s.soundLate p).frame = s.frame := by
  unfold State.soundLate
  (repeat' split) <;> simp
@[simp] theorem State.echoTurn_frame (s : State) (p : Fin 16) : (s.echoTurn p).frame = s.frame := by
  unfold State.echoTurn; dsimp only
  (repeat' split) <;> simp
@[simp] theorem State.duplexEnd_frame (s : State) (p : Fin 16) : (s.duplexEnd p).frame = s.frame := by
  unfold State.duplexEnd; dsimp only
  (repeat' split) <;> simp
@[simp] theorem State.takeGo_frame (s : State) (p : Fin 16) (h : CellHdr) (c : GoCell) : (s.takeGo p h c).frame = s.frame := by
  simp [State.takeGo]
@[simp] theorem State.retrained_frame (s : State) (p : Fin 16) : (s.retrained p).frame = s.frame := by
  unfold State.retrained
  (repeat' split) <;> simp
@[simp] theorem State.negate_frame (s : State) (p : Fin 16) : (s.negate p).frame = s.frame := by
  simp [State.negate]
@[simp] theorem State.goReached_frame (s : State) (p : Fin 16) : (s.goReached p).frame = s.frame := by
  unfold State.goReached; dsimp only
  (repeat' split) <;> simp
@[simp] theorem State.trainLate_frame (s : State) (p : Fin 16) : (s.trainLate p).frame = s.frame := by
  unfold State.trainLate
  (repeat' split) <;> simp
@[simp] theorem State.holdOver_frame (s : State) (p : Fin 16) : (s.holdOver p).frame = s.frame := by
  unfold State.holdOver
  (repeat' split) <;> simp
@[simp] theorem State.towpathLost_frame (s : State) (p : Fin 16) : (s.towpathLost p).frame = s.frame := by
  unfold State.towpathLost
  (repeat' split) <;> simp
@[simp] theorem State.startTpsf_frame (s : State) (p : Fin 16) (sf : Nat) (lchirp : Bool) : (s.startTpsf p sf lchirp).frame = s.frame := by
  simp [State.startTpsf]
@[simp] theorem State.sfSync_frame (s : State) (p : Fin 16) : (s.sfSync p).frame = s.frame := by
  unfold State.sfSync; dsimp only
  (repeat' split) <;> simp
@[simp] theorem State.takeTpsf_frame (s : State) (p : Fin 16) (h : CellHdr) (c : TpsfCell) : (s.takeTpsf p h c).frame = s.frame := by
  simp [State.takeTpsf]
@[simp] theorem State.sfReached_frame (s : State) (p : Fin 16) : (s.sfReached p).frame = s.frame := by
  unfold State.sfReached
  (repeat' split) <;> simp
@[simp] theorem State.tpsfAgain_frame (s : State) (p : Fin 16) : (s.tpsfAgain p).frame = s.frame := by
  unfold State.tpsfAgain
  (repeat' split) <;> simp
@[simp] theorem State.adaptSf_frame (s : State) (p : Fin 16) : (s.adaptSf p).frame = s.frame := by
  unfold State.adaptSf; dsimp only
  (repeat' split) <;> simp
@[simp] theorem State.ladderStep_frame (s : State) (p : Fin 16) (m : LineMode) (mse : Nat) : (s.ladderStep p m mse).frame = s.frame := by
  unfold State.ladderStep; dsimp only
  (repeat' split) <;> simp
@[simp] theorem State.reqTrigger_frame (s : State) (p : Fin 16) (m : LineMode) (kind : Nat) : (s.reqTrigger p m kind).frame = s.frame := by
  unfold State.reqTrigger; dsimp only
  (repeat' split) <;> simp
@[simp] theorem State.runAsked_frame (s : State) (p : Fin 16) : (s.runAsked p).frame = s.frame := by
  unfold State.runAsked; dsimp only
  (repeat' split) <;> simp
@[simp] theorem State.update1ms_frame (s0 : State) (p : Fin 16) (q : LineMeasure) : (s0.update1ms p q).frame = s0.frame := by
  unfold State.update1ms; dsimp only
  (repeat' split) <;> simp
@[simp] theorem State.dropPend_frame (s : State) (p : Fin 16) : (s.dropPend p).frame = s.frame := by
  unfold State.dropPend
  (repeat' split) <;> simp
@[simp] theorem State.takeShift_frame (s : State) (p : Fin 16) (h : CellHdr) (c : ShiftCell) : (s.takeShift p h c).frame = s.frame := by
  unfold State.takeShift
  (repeat' split) <;> simp
@[simp] theorem State.reqInShift_frame (s : State) (p : Fin 16) (sh : ShiftRec) (m : LineMode) (kind : Nat) : (s.reqInShift p sh m kind).frame = s.frame := by
  unfold State.reqInShift
  (repeat' split) <;> simp
@[simp] theorem State.takeShiftReq_frame (s : State) (p : Fin 16) (h : CellHdr) (c : ShiftCell) : (s.takeShiftReq p h c).frame = s.frame := by
  unfold State.takeShiftReq; dsimp only
  split
  · exact State.withCellIf_frame _ _ _ _ _ _ (fun t => by (repeat' split) <;> simp)
  · rfl
@[simp] theorem State.retrainEnd_frame (s : State) (p : Fin 16) : (s.retrainEnd p).frame = s.frame := by
  unfold State.retrainEnd; dsimp only
  (repeat' split) <;> simp
@[simp] theorem State.notConverged_frame (s : State) (p : Fin 16) : (s.notConverged p).frame = s.frame := by
  unfold State.notConverged
  (repeat' split) <;> simp
@[simp] theorem State.barOver_frame (s : State) (p : Fin 16) (m : LineMode) : (s.barOver p m).frame = s.frame := by
  simp [State.barOver]
@[simp] theorem State.excludeMode_frame (s : State) (p : Fin 16) (m : LineMode) : (s.excludeMode p m).frame = s.frame := by
  unfold State.excludeMode
  (repeat' split) <;> simp
@[simp] theorem State.reqChanged_frame (s : State) (p : Fin 16) : (s.reqChanged p).frame = s.frame := by
  unfold State.reqChanged; dsimp only
  (repeat' split) <;> simp
@[simp] theorem State.polChanged_frame (s : State) (p : Fin 16) (old : Word) : (s.polChanged p old).frame = s.frame := by
  unfold State.polChanged; dsimp only
  (repeat' split) <;> simp
@[simp] theorem State.writesAct_frame (s : State) (p : Fin 16) (oldPol oldMode : Word) : (s.writesAct p oldPol oldMode).frame = s.frame := by
  unfold State.writesAct; dsimp only
  (repeat' split) <;> simp
@[simp] theorem State.afterShift_frame (s : State) (p : Fin 16) : (s.afterShift p).frame = s.frame := by
  rw [State.afterShift.eq_def]
  cases (s.port p).link.state <;> cases (s.port p).link.wrOld <;> simp
@[simp] theorem State.wideBoundary_frame (s : State) (p : Fin 16) : (s.wideBoundary p).frame = s.frame := by
  unfold State.wideBoundary; dsimp only
  (repeat' split) <;> simp
@[simp] theorem State.towSlot_frame (s : State) (p : Fin 16) : (s.towSlot p).frame = s.frame := by
  unfold State.towSlot
  (repeat' split) <;> simp
@[simp] theorem State.forcedBy_frame (s : State) (p : Fin 16) (m : LineMode) : (s.forcedBy p m).frame = s.frame := by
  unfold State.forcedBy
  (repeat' split) <;> simp
@[simp] theorem State.takeMode_frame (s : State) (p : Fin 16) (h : CellHdr) (c : ModeCell) : (s.takeMode p h c).frame = s.frame := by
  unfold State.takeMode
  (repeat' split) <;> simp
@[simp] theorem State.exitAcked_frame (s : State) (p : Fin 16) (xq : Word) (xchip : BitVec 16) : (s.exitAcked p xq xchip).frame = s.frame := by
  unfold State.exitAcked; dsimp only
  (repeat' split) <;> simp
@[simp] theorem State.ackedCell_frame (s : State) (p : Fin 16) (e : AwaitCell) : (s.ackedCell p e).frame = s.frame := by
  unfold State.ackedCell; dsimp only
  (repeat' split) <;> simp
@[simp] theorem State.takeCack_frame (s : State) (p : Fin 16) (h : CellHdr) (ctr : Word) (type : Byte) : (s.takeCack p h ctr type).frame = s.frame := by
  unfold State.takeCack; dsimp only
  (repeat' split) <;> simp
@[simp] theorem State.resendLate_frame (s : State) (p : Fin 16) (ctr : Word) : (s.resendLate p ctr).frame = s.frame := by
  unfold State.resendLate
  (repeat' split) <;> simp
@[simp] theorem State.macFailed_frame (s : State) (p : Fin 16) (type : Byte) : (s.macFailed p type).frame = s.frame := by
  unfold State.macFailed; dsimp only
  (repeat' split) <;> simp
@[simp] theorem State.nonceStart_frame (s : State) (p : Fin 16) : (s.nonceStart p).frame = s.frame := by
  unfold State.nonceStart; dsimp only
  (repeat' split) <;> simp
@[simp] theorem State.takeNonce_frame (s : State) (p : Fin 16) (h : CellHdr) (fresh : BitVec 48) : (s.takeNonce p h fresh).frame = s.frame := by
  simp [State.takeNonce]
@[simp] theorem State.nonceDrop_frame (s : State) (p : Fin 16) : (s.nonceDrop p).frame = s.frame := by
  simp [State.nonceDrop]
@[simp] theorem State.takePilot_frame (s : State) (p : Fin 16) (u : Int) (v : Int) (predicted : Int) : (s.takePilot p u v predicted).frame = s.frame := by
  unfold State.takePilot; dsimp only
  (repeat' split) <;> simp
/-! ### QuietOps -/

@[simp] theorem State.sendEnter_frame (s : State) (p : Fin 16) (c : QuietCell) : (s.sendEnter p c).frame = s.frame := by
  unfold State.sendEnter; dsimp only
  (repeat' split) <;> simp
@[simp] theorem State.takeEnter_frame (s : State) (p : Fin 16) (h : CellHdr) (c : QuietCell) : (s.takeEnter p h c).frame = s.frame := by
  simp [State.takeEnter]
@[simp] theorem State.takeExit_frame (s : State) (p : Fin 16) (h : CellHdr) (c : QuietCell) : (s.takeExit p h c).frame = s.frame := by
  simp [State.takeExit]
@[simp] theorem State.takeAbort_frame (s : State) (p : Fin 16) (h : CellHdr) : (s.takeAbort p h).frame = s.frame := by
  simp [State.takeAbort]
@[simp] theorem State.fillGroup_frame (p : Fin 16) (n : Nat) (s : State) : (State.fillGroup p n s).frame = s.frame := by
  induction n generalizing s with
  | zero => rfl
  | succ n ih => simp [State.fillGroup, ih]
@[simp] theorem State.goQuiet_frame (s0 : State) (p : Fin 16) (c : QuietCell) : (s0.goQuiet p c).frame = s0.frame := by
  simp [State.goQuiet]
@[simp] theorem State.entryPoint_frame (s : State) (p : Fin 16) : (s.entryPoint p).frame = s.frame := by
  unfold State.entryPoint
  (repeat' split) <;> simp
@[simp] theorem State.exitPoint_frame (s : State) (p : Fin 16) : (s.exitPoint p).frame = s.frame := by
  unfold State.exitPoint; dsimp only
  (repeat' split) <;> simp
@[simp] theorem State.earlyWake_frame (s : State) (p : Fin 16) : (s.earlyWake p).frame = s.frame := by
  unfold State.earlyWake; dsimp only
  (repeat' split) <;> simp
@[simp] theorem State.deepEnd_frame (s : State) (p : Fin 16) : (s.deepEnd p).frame = s.frame := by
  unfold State.deepEnd; dsimp only
  (repeat' split) <;> simp
@[simp] theorem State.wakeTrain_frame (s : State) (p : Fin 16) : (s.wakeTrain p).frame = s.frame := by
  simp [State.wakeTrain]
@[simp] theorem State.markerLate_frame (s : State) (p : Fin 16) : (s.markerLate p).frame = s.frame := by
  unfold State.markerLate; dsimp only
  (repeat' split) <;> simp
@[simp] theorem State.markerHeard_frame (s : State) (p : Fin 16) : (s.markerHeard p).frame = s.frame := by
  unfold State.markerHeard; dsimp only
  (repeat' split) <;> simp
@[simp] theorem State.runDeferred_frame (s : State) (p : Fin 16) : (s.runDeferred p).frame = s.frame := by
  unfold State.runDeferred
  (repeat' split) <;> simp
@[simp] theorem State.lpiEnter_frame (s : State) (p : Fin 16) : (s.lpiEnter p).frame = s.frame := by
  unfold State.lpiEnter; dsimp only
  (repeat' split) <;> simp
@[simp] theorem State.lpiLeave_frame (s : State) (p : Fin 16) : (s.lpiLeave p).frame = s.frame := by
  simp [State.lpiLeave]
@[simp] theorem State.partnerLpi_frame (s : State) (p : Fin 16) (kind : Fin 3) : (s.partnerLpi p kind).frame = s.frame := by
  unfold State.partnerLpi; dsimp only
  (repeat' split) <;> simp
@[simp] theorem State.quietOff_frame (s : State) (p : Fin 16) : (s.quietOff p).frame = s.frame := by
  unfold State.quietOff; dsimp only
  (repeat' split) <;> simp
@[simp] theorem State.quietWritten_frame (s : State) (p : Fin 16) (old : Word) : (s.quietWritten p old).frame = s.frame := by
  unfold State.quietWritten
  (repeat' split) <;> simp

/-! ### LineOps -/

@[simp] theorem State.remAnswer_frame (s : State) (p : Fin 16) (c : RemoteCell) (status : Nat) (arg : BitVec 128) : (s.remAnswer p c status arg).frame = s.frame := by
  simp [State.remAnswer]
@[simp] theorem State.remStop_frame (s : State) (p : Fin 16) (c : RemoteCell) : (s.remStop p c).frame = s.frame := by
  unfold State.remStop
  (repeat' split) <;> simp
@[simp] theorem State.remStart_frame (s : State) (p : Fin 16) (c : RemoteCell) : (s.remStart p c).frame = s.frame := by
  unfold State.remStart
  (repeat' split) <;> simp
@[simp] theorem State.remApp_frame (s : State) (p : Fin 16) (c : RemoteCell) : (s.remApp p c).frame = s.frame := by
  simp [State.remApp]
@[simp] theorem State.remRequest_frame (s : State) (p : Fin 16) (c : RemoteCell) : (s.remRequest p c).frame = s.frame := by
  unfold State.remRequest
  (repeat' split) <;> simp
@[simp] theorem State.remDone_frame (s : State) (p : Fin 16) (c : RemoteCell) : (s.remDone p c).frame = s.frame := by
  simp [State.remDone]
@[simp] theorem State.takeRemote_frame (s : State) (p : Fin 16) (h : CellHdr) (act : State → State) (hact : ∀ t, (act t).frame = t.frame) : (s.takeRemote p h act).frame = s.frame := by
  unfold State.takeRemote; try dsimp only
  (repeat' split) <;> first | (simp [*]; done) | (refine (foldl_frame _ _ _ (fun t x => ?_)).trans (by simp [*]); (repeat' split) <;> simp [*])
@[simp] theorem State.remLate_frame (s : State) (p : Fin 16) (req : BitVec 16) : (s.remLate p req).frame = s.frame := by
  simp [State.remLate]
@[simp] theorem State.remHostLate_frame (s : State) (p : Fin 16) (req : BitVec 16) : (s.remHostLate p req).frame = s.frame := by
  unfold State.remHostLate
  (repeat' split) <;> simp
@[simp] theorem State.takeQuiet_frame (s : State) (p : Fin 16) (h : CellHdr) (b : List Byte) : (s.takeQuiet p h b).frame = s.frame := by
  unfold State.takeQuiet
  (repeat' split) <;> simp
@[simp] theorem State.slotAct_frame (s : State) (p : Fin 16) (h : CellHdr) (type : Byte) (pay : List Byte) : (s.slotAct p h type pay).frame = s.frame := by
  unfold State.slotAct
  (repeat' split) <;> simp
@[simp] theorem State.crcFailed_frame (s : State) (p : Fin 16) : (s.crcFailed p).frame = s.frame := by
  simp [State.crcFailed]
@[simp] theorem State.slotCell_frame (s : State) (p : Fin 16) (cell : Option (List Byte)) : (s.slotCell p cell).frame = s.frame := by
  unfold State.slotCell
  (repeat' split) <;> simp
@[simp] theorem State.onFailed_frame (s : State) (p : Fin 16) : (s.onFailed p).frame = s.frame := by
  unfold State.onFailed
  (repeat' split) <;> simp
@[simp] theorem State.onData_frame (s : State) (p : Fin 16) (b : Blk) : (s.onData p b).frame = s.frame := by
  unfold State.onData; dsimp only
  (repeat' split) <;> simp
@[simp] theorem State.onFill_frame (s : State) (p : Fin 16) (b : Blk) : (s.onFill p b).frame = s.frame := by
  unfold State.onFill; dsimp only
  (repeat' split) <;> simp
@[simp] theorem State.onSync_frame (s : State) (p : Fin 16) (b : Blk) : (s.onSync p b).frame = s.frame := by
  unfold State.onSync; dsimp only
  (repeat' split) <;> simp
@[simp] theorem State.onOther_frame (s : State) (p : Fin 16) (b : Blk) : (s.onOther p b).frame = s.frame := by
  unfold State.onOther; dsimp only
  (repeat' split) <;> simp
@[simp] theorem State.lchirpBlock_frame (s : State) (p : Fin 16) (bs : List Byte) : (s.lchirpBlock p bs).frame = s.frame := by
  unfold State.lchirpBlock
  (repeat' split) <;> simp
@[simp] theorem State.takeSegment_frame (s : State) (p : Fin 16) (seg : Nat) (bytes : List Byte) : (s.takeSegment p seg bytes).frame = s.frame := by
  unfold State.takeSegment; dsimp only
  (repeat' split) <;> simp
@[simp] theorem State.nackDue_frame (s : State) (p : Fin 16) : (s.nackDue p).frame = s.frame := by
  unfold State.nackDue
  (repeat' split) <;> simp
@[simp] theorem State.blockLate_frame (s : State) (p : Fin 16) (seq : Seq24) : (s.blockLate p seq).frame = s.frame := by
  unfold State.blockLate; dsimp only
  (repeat' split) <;> simp
@[simp] theorem State.blockPeriod_frame (s : State) (p : Fin 16) : (s.blockPeriod p).frame = s.frame := by
  unfold State.blockPeriod
  (repeat' split) <;> simp
@[simp] theorem State.reordCut_frame (s : State) (p : Fin 16) : (s.reordCut p).frame = s.frame := by
  simp [State.reordCut]
@[simp] theorem State.blkCtrlWritten_frame (s : State) (p : Fin 16) (old : Word) : (s.blkCtrlWritten p old).frame = s.frame := by
  unfold State.blkCtrlWritten; dsimp only
  (repeat' split) <;> simp

/-! ### RxOps -/

@[simp] theorem State.refreshSounding_frame (s : State) (p : Fin 16) (x : Sounding) : (s.refreshSounding p x).frame = s.frame := by
  unfold State.refreshSounding
  (repeat' split) <;> simp
@[simp] theorem State.stepAgc_frame (s : State) (p : Fin 16) (peak : Nat) : (s.stepAgc p peak).frame = s.frame := by
  unfold State.stepAgc
  (repeat' split) <;> simp
@[simp] theorem State.checkClusters_frame (s : State) (p : Fin 16) : (s.checkClusters p).frame = s.frame := by
  unfold State.checkClusters; dsimp only
  (repeat' split) <;> simp
@[simp] theorem State.symbolSlipped_frame (s : State) (p : Fin 16) (forward : Bool) : (s.symbolSlipped p forward).frame = s.frame := by
  unfold State.symbolSlipped
  (repeat' split) <;> simp
@[simp] theorem State.modPath_frame (s : State) (r : Fin 4) (k : Fin 12) (f : XtPath → XtPath) : (s.modPath r k f).frame = s.frame := by
  simp [State.modPath]
@[simp] theorem State.allocOne_frame (s : State) (r : Fin 4) (c : XtCand) : (s.allocOne r c).frame = s.frame := by
  unfold State.allocOne
  (repeat' split) <;> simp
@[simp] theorem State.recouple_frame (s : State) (r : Fin 4) (l : List XtCand) : (s.recouple r l).frame = s.frame := by
  simp [State.recouple]
@[simp] theorem State.allocate_frame (s : State) (r : Fin 4) (l : List XtCand) : (s.allocate r l).frame = s.frame := by
  unfold State.allocate; dsimp only
  (repeat' split) <;> simp
@[simp] theorem State.manualPath_frame (s : State) (r : Fin 4) (k : Fin 12) : (s.manualPath r k).frame = s.frame := by
  simp [State.manualPath]
@[simp] theorem State.xtCtrlWritten_frame (s : State) (r : Fin 4) (old : Word) : (s.xtCtrlWritten r old).frame = s.frame := by
  unfold State.xtCtrlWritten; dsimp only
  (repeat' split) <;> simp
@[simp] theorem State.xtPathWritten_frame (s : State) (r : Fin 4) (k : Fin 12) : (s.xtPathWritten r k).frame = s.frame := by
  unfold State.xtPathWritten
  (repeat' split) <;> simp
@[simp] theorem State.rxCtrlWritten_frame (s : State) (p : Fin 16) : (s.rxCtrlWritten p).frame = s.frame := by
  unfold State.rxCtrlWritten; dsimp only
  (repeat' split) <;> simp
@[simp] theorem State.sendMessage_frame (s : State) (p : Fin 16) (g : Loading) (a : Word) : (s.sendMessage p g a).frame = s.frame := by
  simp [State.sendMessage]
@[simp] theorem State.sendTable_frame (s : State) (p : Fin 16) (g : Loading) : (s.sendTable p g).frame = s.frame := by
  simp [State.sendTable]
@[simp] theorem State.dmtMeasure_frame (s : State) (p : Fin 16) (symbols : List DmtSymbol) : (s.dmtMeasure p symbols).frame = s.frame := by
  simp [State.dmtMeasure]
@[simp] theorem State.goDue_frame (s : State) (p : Fin 16) : (s.goDue p).frame = s.frame := by
  unfold State.goDue; dsimp only
  (repeat' split) <;> simp
@[simp] theorem State.dmtUpdate_frame (s : State) (p : Fin 16) (symbols : List DmtSymbol) : (s.dmtUpdate p symbols).frame = s.frame := by
  unfold State.dmtUpdate; dsimp only
  (repeat' split) <;> simp
@[simp] theorem State.takeTable_frame (s : State) (p : Fin 16) (m : List Byte) : (s.takeTable p m).frame = s.frame := by
  unfold State.takeTable; dsimp only
  (repeat' split) <;> simp
@[simp] theorem State.repeatTable_frame (s : State) (p : Fin 16) : (s.repeatTable p).frame = s.frame := by
  unfold State.repeatTable
  (repeat' split) <;> simp
@[simp] theorem State.swapDone_frame (s : State) (p : Fin 16) : (s.swapDone p).frame = s.frame := by
  simp [State.swapDone]
@[simp] theorem State.bitswap_frame (s : State) (p : Fin 16) (sending : Bool) (points : List (Int × Int)) : (s.bitswap p sending points).frame = s.frame := by
  unfold State.bitswap; dsimp only
  (repeat' split) <;> simp
@[simp] theorem State.dmtCtrlWritten_frame (s : State) (p : Fin 16) (old : Word) : (s.dmtCtrlWritten p old).frame = s.frame := by
  unfold State.dmtCtrlWritten; dsimp only
  (repeat' split) <;> simp
@[simp] theorem State.forceCarrier_frame (s : State) (p : Fin 16) (i b : Nat) : (s.forceCarrier p i b).frame = s.frame := by
  unfold State.forceCarrier
  (repeat' split) <;> simp

/-! ### TimeOps -/

@[simp] theorem State.noteLate_frame (s : State) (e : Nat) : (s.noteLate e).frame = s.frame := by
  simp [State.noteLate]
@[simp] theorem State.noteDropped_frame (s : State) (e : Nat) : (s.noteDropped e).frame = s.frame := by
  simp [State.noteDropped]
@[simp] theorem State.putCal_frame (s : State) (e : Nat) (x : CalEntry) : (s.putCal e x).frame = s.frame := by
  simp [State.putCal]
@[simp] theorem State.delCal_frame (s : State) (e : Nat) : (s.delCal e).frame = s.frame := by
  simp [State.delCal]
@[simp] theorem State.rearm_frame (e n : Nat) (s : State) (x : CalEntry) : (State.rearm e n s x).frame = s.frame := by
  induction n generalizing s x with
  | zero => unfold State.rearm; simp
  | succ n ih => unfold State.rearm; dsimp only; (repeat' split) <;> simp [ih]
@[simp] theorem State.accept_frame (s : State) (x : CalEntry) : (s.accept x).2.2.frame = s.frame := by
  unfold State.accept; dsimp only
  (repeat' split) <;> simp
@[simp] theorem State.instantActs_frame (s : State) (e : Nat) (x : CalEntry) : (s.instantActs e x).frame = s.frame := by
  simp [State.instantActs]
@[simp] theorem State.windowOpens_frame (s : State) (e : Nat) (x : CalEntry) : (s.windowOpens e x).frame = s.frame := by
  simp [State.windowOpens]
@[simp] theorem State.stepEntry_frame (old : Nat) (s : State) (e : Nat × CalEntry) : (State.stepEntry old s e).frame = s.frame := by
  unfold State.stepEntry; dsimp only
  (repeat' split) <;> simp
@[simp] theorem State.loadTime_frame (s : State) (new : Nat) : (s.loadTime new).frame = s.frame := by
  simp [State.loadTime]
@[simp] theorem State.stepTime_frame (s : State) (ns : Int) : (s.stepTime ns).frame = s.frame := by
  simp [State.stepTime]
@[simp] theorem State.startSlew_frame (s : State) (ns : Int) : (s.startSlew ns).frame = s.frame := by
  simp [State.startSlew]
@[simp] theorem State.endSlew_frame (s : State) : (s.endSlew).frame = s.frame := by
  unfold State.endSlew
  (repeat' split) <;> simp
@[simp] theorem State.loadAnswered_frame (s : State) (c : Fin 16) (new : Nat) : (s.loadAnswered c new).frame = s.frame := by
  simp [State.loadAnswered]
theorem State.loads_frame (s : State) (l : List (Nat × Nat)) (ago : Nat) :
    (l.foldl (fun (t : State) e => t.loadAnswered (Fin.ofNat 16 e.2) (e.1 + ago)) s).frame = s.frame := foldl_frame _ _ _ (fun t e => by simp)
@[simp] theorem State.tsync_frame (s : State) (tenths : Nat) : (s.tsync tenths).frame = s.frame := by
  simp only [State.tsync]
  split
  · rw [State.count_frame]
  · rw [State.loads_frame, frame_mk, State.count_frame, frame_mk]
@[simp] theorem State.markRise_frame (s : State) : (s.markRise).frame = s.frame := by
  unfold State.markRise
  (repeat' split) <;> simp
@[simp] theorem State.markFall_frame (s : State) : (s.markFall).frame = s.frame := by
  unfold State.markFall
  (repeat' split) <;> simp
@[simp] theorem State.timeReqDue_frame (s : State) (p : Fin 16) : (s.timeReqDue p).frame = s.frame := by
  unfold State.timeReqDue
  (repeat' split) <;> simp
@[simp] theorem State.takeTimeReq_frame (s : State) (p : Fin 16) (h : CellHdr) (s2 : Word) (t4 : Nat) : (s.takeTimeReq p h s2 t4).frame = s.frame := by
  unfold State.takeTimeReq; dsimp only
  split
  · rfl
  · exact State.withCell_frame _ _ _ _ _ (fun t => by (repeat' split) <;> simp)
@[simp] theorem State.discipline_frame (s : State) (th : Int) : (s.discipline th).frame = s.frame := by
  unfold State.discipline
  (repeat' split) <;> simp
@[simp] theorem State.takeTimeSync_frame (s : State) (p : Fin 16) (h : CellHdr) (c : TimeSyncCell) (t2 t3 : Nat) :
    (s.takeTimeSync p h c t2 t3).frame = s.frame := by
  unfold State.takeTimeSync; dsimp only
  split
  · rfl
  · exact State.withCell_frame _ _ _ _ _ (fun t => by (repeat' split) <;> simp)
@[simp] theorem State.noSource_frame (s : State) (p : Fin 16) : (s.noSource p).frame = s.frame := by
  unfold State.noSource
  (repeat' split) <;> simp
@[simp] theorem State.endLearn_frame (s : State) (e status : Nat) (words : List Word) : (s.endLearn e status words).frame = s.frame := by
  simp [State.endLearn]
@[simp] theorem State.learnDone_frame (s : State) (e : Nat) (b : List Nat) : (s.learnDone e b).frame = s.frame := by
  unfold State.learnDone
  (repeat' split) <;> simp
@[simp] theorem State.learnLate_frame (s : State) (e : Nat) : (s.learnLate e).frame = s.frame := by
  unfold State.learnLate
  (repeat' split) <;> simp
@[simp] theorem State.slotWaits_frame (s : State) (p : Fin 16) (test wait : Bool) : (s.slotWaits p test wait).frame = s.frame := by
  simp [State.slotWaits]
@[simp] theorem State.placeSlice_frame (s : State) (p : Fin 16) (test whole : Bool) (us : Nat) : (s.placeSlice p test whole us).frame = s.frame := by
  unfold State.placeSlice
  (repeat' split) <;> simp
@[simp] theorem State.dropSlices_frame (s : State) (p : Fin 16) (test : Bool) : (s.dropSlices p test).frame = s.frame := by
  simp [State.dropSlices]

/-! ### CalOps -/

@[simp] theorem State.modCal_frame (s : State) (p : Fin 16) (f : PortCal → PortCal) : (s.modCal p f).frame = s.frame := by
  simp [State.modCal]
@[simp] theorem State.startItems_frame (s : State) (p : Fin 16) (single : Bool) : (s.startItems p single).frame = s.frame := by
  unfold State.startItems
  (repeat' split) <;> simp
@[simp] theorem State.calAnswer_frame (s : State) : (s.calAnswer).frame = s.frame := by
  unfold State.calAnswer
  refine (foldl_frame _ _ _ (fun t x => ?_)).trans (by simp)
  (repeat' split) <;> simp
@[simp] theorem State.calTell_frame (s : State) (p : Option (Fin 16)) (r : Option (Fin 4)) (pass : Bool) : (s.calTell p r pass).frame = s.frame := by
  simp [State.calTell]
@[simp] theorem State.reachDone_frame (s : State) (r : Fin 4) : (s.reachDone r).frame = s.frame := by
  unfold State.reachDone
  (repeat' split) <;> simp
@[simp] theorem State.startReach_frame (s : State) (r : Fin 4) : (s.startReach r).frame = s.frame := by
  unfold State.startReach; dsimp only
  split
  · rfl
  · rw [State.reachDone_frame]
    exact foldl_frame_of (fun t p => by split <;> simp) (by (repeat' split) <;> simp)
@[simp] theorem State.requestReach_frame (s : State) (r : Fin 4) : (s.requestReach r).frame = s.frame := by
  unfold State.requestReach
  (repeat' split) <;> simp
@[simp] theorem State.runPort_frame (s : State) (p : Fin 16) : (s.runPort p).frame = s.frame := by
  unfold State.runPort
  (repeat' split) <;> simp
@[simp] theorem State.enableRun_frame (s : State) (p : Fin 16) : (s.enableRun p).frame = s.frame := by
  unfold State.enableRun
  (repeat' split) <;> simp
@[simp] theorem State.startPending_frame (s : State) : (s.startPending).frame = s.frame := by
  unfold State.startPending
  refine (foldl_frame _ _ _ (fun t x => ?_)).trans (by simp)
  (repeat' split) <;> simp
@[simp] theorem State.judgeAnchor_frame (s : State) (ok : Bool) : (s.judgeAnchor ok).frame = s.frame := by
  unfold State.judgeAnchor; dsimp only
  (repeat' split) <;> simp
@[simp] theorem State.applySet_frame (s : State) (p : Fin 16) (c : CalSet) : (s.applySet p c).frame = s.frame := by
  simp [State.applySet]
@[simp] theorem State.finishRun_frame (s : State) (p : Fin 16) (m : CalMeasure) : (s.finishRun p m).frame = s.frame := by
  unfold State.finishRun; dsimp only
  (repeat' split) <;> simp
@[simp] theorem State.anchorAlone_frame (s : State) (p : Fin 16) (m : CalMeasure) : (s.anchorAlone p m).frame = s.frame := by
  unfold State.anchorAlone
  (repeat' split) <;> simp
@[simp] theorem State.sliceDone_frame (s : State) (p : Fin 16) (m : CalMeasure) : (s.sliceDone p m).frame = s.frame := by
  unfold State.sliceDone; dsimp only
  (repeat' split) <;> simp
@[simp] theorem State.portRunDone_frame (s : State) (p : Fin 16) (m : CalMeasure) : (s.portRunDone p m).frame = s.frame := by
  unfold State.portRunDone
  (repeat' split) <;> simp
@[simp] theorem State.retryRun_frame (s : State) (p : Fin 16) : (s.retryRun p).frame = s.frame := by
  unfold State.retryRun; dsimp only
  (repeat' split) <;> simp
@[simp] theorem State.maxWait_frame (s : State) (p : Fin 16) : (s.maxWait p).frame = s.frame := by
  unfold State.maxWait
  (repeat' split) <;> simp
@[simp] theorem State.abandonRun_frame (s : State) (p : Fin 16) : (s.abandonRun p).frame = s.frame := by
  unfold State.abandonRun
  (repeat' split) <;> simp
@[simp] theorem State.calFollow_frame (old s : State) (p : Fin 16) : (State.calFollow old s p).frame = s.frame := by
  unfold State.calFollow; dsimp only
  (repeat' split) <;> first | rfl | simp
@[simp] theorem State.abandonAll_frame (s : State) (keep : Bool) : (s.abandonAll keep).frame = s.frame := by
  simp [State.abandonAll]
@[simp] theorem State.calCtrlWritten_frame (s : State) : (s.calCtrlWritten).frame = s.frame := by
  unfold State.calCtrlWritten
  (repeat' split) <;> simp
@[simp] theorem State.calOvrWritten_frame (s : State) (old : Word) : (s.calOvrWritten old).frame = s.frame := by
  unfold State.calOvrWritten; dsimp only
  rw [State.startPending_frame]
  exact foldl_frame_of (fun t p => by (repeat' split) <;> simp) (by simp)
@[simp] theorem State.thermalMove_frame (s : State) (old : Nat) (sensor : Fin 5) : (s.thermalMove old sensor).frame = s.frame := by
  unfold State.thermalMove; try dsimp only
  (repeat' split) <;> first | (simp [*]; done) | (refine (foldl_frame _ _ _ (fun t x => ?_)).trans (by simp [*]); (repeat' split) <;> simp [*])
@[simp] theorem State.readTemps_frame (s : State) (v : Vector Int 5) : (s.readTemps v).frame = s.frame := by
  simp [State.readTemps]
@[simp] theorem State.moveLevels_frame (s : State) : (s.moveLevels).frame = s.frame := by
  simp [State.moveLevels]
@[simp] theorem State.tempTrigger_frame (s : State) (r : Fin 4) : (s.tempTrigger r).frame = s.frame := by
  unfold State.tempTrigger
  (repeat' split) <;> simp
@[simp] theorem State.sampleTemp_frame (s : State) (v : Vector Int 5) : (s.sampleTemp v).frame = s.frame := by
  simp [State.sampleTemp]
@[simp] theorem State.thermalStep_frame (s : State) : (s.thermalStep).frame = s.frame := by
  unfold State.thermalStep
  (repeat' split) <;> simp

/-! ### DiagOps -/

@[simp] theorem State.modTdr_frame (s : State) (p : Fin 16) (f : Tdr → Tdr) : (s.modTdr p f).frame = s.frame := by
  simp [State.modTdr]
@[simp] theorem State.tdrOver_frame (s : State) (p : Fin 16) : (s.tdrOver p).frame = s.frame := by
  unfold State.tdrOver
  (repeat' split) <;> simp
@[simp] theorem State.tdrAbandon_frame (s : State) (p : Fin 16) (result : Nat) : (s.tdrAbandon p result).frame = s.frame := by
  unfold State.tdrAbandon
  (repeat' split) <;> simp
@[simp] theorem State.tdrStart_frame (s : State) (p : Fin 16) (prof avg thr : Nat) : (s.tdrStart p prof avg thr).frame = s.frame := by
  unfold State.tdrStart
  (repeat' split) <;> simp
@[simp] theorem State.tdrBurst_frame (s : State) (p : Fin 16) (heard : Bool) : (s.tdrBurst p heard).frame = s.frame := by
  simp [State.tdrBurst]
@[simp] theorem State.tdrListen_frame (s : State) (p : Fin 16) (heard : Bool) : (s.tdrListen p heard).frame = s.frame := by
  unfold State.tdrListen; dsimp only
  (repeat' split) <;> simp
@[simp] theorem State.tdrDone_frame (s : State) (p : Fin 16) (peaks : List TdrPeak) (wide narrow : List (BitVec 16)) : (s.tdrDone p peaks wide narrow).frame = s.frame := by
  unfold State.tdrDone; dsimp only
  (repeat' split) <;> simp
@[simp] theorem State.modWatch_frame (s : State) (p : Fin 16) (f : Watch → Watch) : (s.modWatch p f).frame = s.frame := by
  simp [State.modWatch]
@[simp] theorem State.watchEvent_frame (s : State) (p : Fin 16) (fig : Nat) (old new : WatchCount) (v dist : Nat) : (s.watchEvent p fig old new v dist).frame = s.frame := by
  unfold State.watchEvent
  (repeat' split) <;> simp
@[simp] theorem State.watchEvents_frame (s : State) (p : Fin 16) (o : Watch) (f : WatchFigures) : (s.watchEvents p o f).frame = s.frame := by
  simp [State.watchEvents]
@[simp] theorem State.capture_frame (s : State) (p : Fin 16) : (s.capture p).frame = s.frame := by
  simp [State.capture]
@[simp] theorem State.refCheck_frame (s : State) (p : Fin 16) : (s.refCheck p).frame = s.frame := by
  unfold State.refCheck; dsimp only
  (repeat' split) <;> simp
@[simp] theorem State.watchEval_frame (s : State) (p : Fin 16) (seen : Bool) (f : WatchFigures) : (s.watchEval p seen f).frame = s.frame := by
  unfold State.watchEval; dsimp only
  (repeat' split) <;> simp
@[simp] theorem State.autoCapture_frame (s : State) (p : Fin 16) : (s.autoCapture p).frame = s.frame := by
  unfold State.autoCapture; dsimp only
  (repeat' split) <;> simp
@[simp] theorem State.captureDone_frame (s : State) (p : Fin 16) (x : Sounding) : (s.captureDone p x).frame = s.frame := by
  unfold State.captureDone; dsimp only
  (repeat' split) <;> simp
@[simp] theorem State.clearRef_frame (s : State) (p : Fin 16) : (s.clearRef p).frame = s.frame := by
  simp [State.clearRef]
@[simp] theorem State.captureLate_frame (s : State) (p : Fin 16) : (s.captureLate p).frame = s.frame := by
  simp [State.captureLate]
@[simp] theorem State.watchCtrlWritten_frame (s : State) (p : Fin 16) (old : Word) : (s.watchCtrlWritten p old).frame = s.frame := by
  unfold State.watchCtrlWritten
  (repeat' split) <;> simp

/-! ### KeeperOps -/

@[simp] theorem State.ownOne_frame (s : State) (b : Nat) : (s.ownOne b).frame = s.frame := by
  unfold State.ownOne
  (repeat' split) <;> simp
@[simp] theorem State.own_frame (s : State) (bs : List Nat) : (s.own bs).frame = s.frame := by
  simp [State.own]
@[simp] theorem State.noteCopy_frame (s : State) (key : Nat) : (s.noteCopy key).frame = s.frame := by
  unfold State.noteCopy
  (repeat' split) <;> simp
@[simp] theorem State.restartChan_frame (s : State) (c : Fin 16) : (s.restartChan c).frame = s.frame := by
  unfold State.restartChan
  (repeat' split) <;> simp
@[simp] theorem State.controlPlane_frame (s : State) (cause : Nat) : (s.controlPlane cause).frame = s.frame := by
  unfold State.controlPlane; dsimp only
  (repeat' split) <;> simp
@[simp] theorem State.keeperFault_frame (s : State) (cause : Nat) : (s.keeperFault cause).frame = s.frame := by
  unfold State.keeperFault
  (repeat' split) <;> simp
@[simp] theorem State.restartDone_frame (s : State) : (s.restartDone).frame = s.frame := by
  unfold State.restartDone
  (repeat' split) <;> simp
@[simp] theorem State.releaseKeeper_frame (s : State) : (s.releaseKeeper).frame = s.frame := by
  simp [State.releaseKeeper]
@[simp] theorem State.restoreRefs_frame (s : State) (b : JournalBody) : (s.restoreRefs b).frame = s.frame := by
  simp [State.restoreRefs]
@[simp] theorem State.restoreDowns_frame (s : State) (b : JournalBody) : (s.restoreDowns b).frame = s.frame := by
  simp [State.restoreDowns]
@[simp] theorem State.initialSets_frame (s : State) (from_ : Fin 16 → Option CalSet) : (s.initialSets from_).frame = s.frame := by
  unfold State.initialSets
  refine (foldl_frame _ _ _ (fun t x => ?_)).trans (by simp)
  (repeat' split) <;> simp [*]
@[simp] theorem State.restoreJournal_frame (s : State) (campion yarrow : Option Word) : (s.restoreJournal campion yarrow).frame = s.frame := by
  unfold State.restoreJournal; dsimp only
  (repeat' split) <;> simp
@[simp] theorem State.startImage_frame (s : State) (slot : BitVec 2) (m : ImageReport) (campion yarrow : Option Word) : (s.startImage slot m campion yarrow).frame = s.frame := by
  simp [State.startImage]
@[simp] theorem State.bootChoose_frame (s : State) (a b : ImageReport) (j : JournalReport) : (s.bootChoose a b j).frame = s.frame := by
  unfold State.bootChoose
  (repeat' split) <;> simp
@[simp] theorem State.loadIdentity_frame (s : State) : (s.loadIdentity).frame = s.frame := by
  unfold State.loadIdentity
  (repeat' split) <;> simp
@[simp] theorem State.putKey_frame (s : State) (c : Fin 16) (i : Nat) (key : Option (BitVec 128)) : (s.putKey c i key).frame = s.frame := by
  unfold State.putKey
  (repeat' split) <;> simp
@[simp] theorem State.eraseKey_frame (s : State) (c : Fin 16) (i : Nat) : (s.eraseKey c i).frame = s.frame := by
  unfold State.eraseKey
  (repeat' split) <;> simp
@[simp] theorem State.waitingKeys_frame (s : State) : (s.waitingKeys).frame = s.frame := by
  unfold State.waitingKeys
  (repeat' split) <;> simp
@[simp] theorem State.dropKeyed_frame (s : State)  : (s.dropKeyed ).frame = s.frame := by
  unfold State.dropKeyed
  refine (foldl_frame _ _ _ (fun t x => ?_)).trans (by simp)
  (repeat' split) <;> simp [*]
@[simp] theorem State.zeroDone_frame (s : State) (ok : Bool) (cause : Nat) (cycled : Bool) : (s.zeroDone ok cause cycled).frame = s.frame := by
  unfold State.zeroDone
  (repeat' split) <;> simp
@[simp] theorem State.zeroise_frame (s : State) (cause : Nat) (ok : Bool) : (s.zeroise cause ok).frame = s.frame := by
  unfold State.zeroise
  (repeat' split) <;> simp
@[simp] theorem State.zeroiseAgain_frame (s : State) (ok : Bool) : (s.zeroiseAgain ok).frame = s.frame := by
  unfold State.zeroiseAgain
  (repeat' split) <;> simp
@[simp] theorem State.journalTarget_frame (s : State) : s.journalTarget.2.frame = s.frame := by
  unfold State.journalTarget; dsimp only
  split <;> simp
@[simp] theorem State.startCommit_frame (s : State) (auto_ : Bool) : (s.startCommit auto_).frame = s.frame := by
  simp [State.startCommit]
@[simp] theorem State.autoCommit_frame (s : State) : (s.autoCommit).frame = s.frame := by
  unfold State.autoCommit; dsimp only
  (repeat' split) <;> simp
@[simp] theorem State.nextCommit_frame (s : State) : (s.nextCommit).frame = s.frame := by
  unfold State.nextCommit
  (repeat' split) <;> simp
@[simp] theorem State.commitDone_frame (s : State) (ok : Bool) : (s.commitDone ok).frame = s.frame := by
  unfold State.commitDone; dsimp only
  (repeat' split) <;> simp


/-! ### SupOps -/

@[simp] theorem State.portReset_frame (s : State) (p : Fin 16) : (s.portReset p).frame = s.frame := by
  unfold State.portReset
  exact (State.modPort_frame _ _ _).trans ((State.takeDown_frame _ _ _).trans (State.tdrAbandon_frame _ _ _))

@[simp] theorem State.safeState_frame (s : State) : (s.safeState).frame = s.frame := by
  simp [State.safeState]
@[simp] theorem State.safeDone_frame (s : State) : (s.safeDone).frame = s.frame := by
  unfold State.safeDone
  (repeat' split) <;> simp
@[simp] theorem State.reachDown_frame (s : State) (r : Fin 4) : (s.reachDown r).frame = s.frame := by
  simp [State.reachDown]
@[simp] theorem State.laneCleared_frame (s : State) (n : Fin 8) (cause : Nat) : (s.laneCleared n cause).frame = s.frame := by
  simp [State.laneCleared]
@[simp] theorem State.lanesDown_frame (s : State) (cause : Nat) : (s.lanesDown cause).frame = s.frame := by
  unfold State.lanesDown
  refine (foldl_frame _ _ _ (fun t x => ?_)).trans (by simp)
  (repeat' split) <;> simp
@[simp] theorem State.laneReset_frame (s : State) (n : Fin 8) : (s.laneReset n).frame = s.frame := by
  simp [State.laneReset]
@[simp] theorem State.restartHeld_frame (s : State) (cause : Nat) (l : List (Fin 16)) : (s.restartHeld cause l).frame = s.frame := by
  unfold State.restartHeld
  refine (foldl_frame _ _ _ (fun t x => ?_)).trans (by simp)
  (repeat' split) <;> simp
@[simp] theorem State.pllLost_frame (s : State) (k : Pll) (v : PllRec) : (s.pllLost k v).frame = s.frame := by
  unfold State.pllLost
  (repeat' split) <;> simp
@[simp] theorem State.pllNoFeedback_frame (s : State) (k : Pll) : (s.pllNoFeedback k).frame = s.frame := by
  unfold State.pllNoFeedback
  (repeat' split) <;> simp
@[simp] theorem State.pllHoldover_frame (s : State) (k : Pll) : (s.pllHoldover k).frame = s.frame := by
  unfold State.pllHoldover
  (repeat' split) <;> simp
@[simp] theorem State.forcedSwitch_frame (s : State) (m : Mux) (toPll : Bool) : (s.forcedSwitch m toPll).frame = s.frame := by
  unfold State.forcedSwitch; dsimp only
  (repeat' split) <;> simp
@[simp] theorem State.bothAbsent_frame (s : State) (m : Mux) : (s.bothAbsent m).frame = s.frame := by
  unfold State.bothAbsent
  (repeat' split) <;> simp
@[simp] theorem State.watchOsc_frame (s : State) (kHz : Nat) : (s.watchOsc kHz).frame = s.frame := by
  unfold State.watchOsc; dsimp only
  (repeat' split) <;> simp

@[simp] theorem State.refLost_frame (s : State) : (s.refLost).frame = s.frame := by
  unfold State.refLost
  (repeat' split) <;> simp
@[simp] theorem State.basinReady_frame (s : State) : (s.basinReady).frame = s.frame := by
  unfold State.basinReady
  (repeat' split) <;> simp
@[simp] theorem State.powerLoss_frame (s : State) : (s.powerLoss).frame = s.frame := by
  simp [State.powerLoss]
@[simp] theorem State.pfailOver_frame (s : State) : (s.pfailOver).frame = s.frame := by
  unfold State.pfailOver
  (repeat' split) <;> simp
@[simp] theorem State.sequence_frame (s : State) : (s.sequence).frame = s.frame := by
  simp [State.sequence]
@[simp] theorem State.bankBack_frame (s : State) (d : Nat) : (s.bankBack d).frame = s.frame := by
  unfold State.bankBack
  split
  · exact State.setBank_frame _ _ _
  · rfl
@[simp] theorem State.usable_frame (s : State) (d : Nat) : (s.usable d).frame = s.frame := by
  unfold State.usable
  split
  · exact (State.bankBack_frame _ _).trans (frame_mk _ _ _ _ _ _ _ _ _ _ _ _ _ _ _ _ _ _ _ _ _ _ _)
  · rfl
@[simp] theorem State.forceSync_frame (s : State) (p : Fin 16) : (s.forceSync p).frame = s.frame := by
  unfold State.forceSync
  (repeat' split) <;> simp
@[simp] theorem State.followPort_frame (old s : State) (p : Fin 16) : (State.followPort old s p).frame = s.frame := by
  unfold State.followPort
  rw [State.calFollow_frame]; split <;> first | rfl | simp
@[simp] theorem State.followAll_frame (old s : State) : (State.followAll old s).frame = s.frame := by
  simp [State.followAll]
@[simp] theorem State.forceBank_frame (s : State) (b : Fin 68) (off : Bool) : (s.forceBank b off).frame = s.frame := by
  unfold State.forceBank
  (repeat' split) <;> simp
@[simp] theorem State.releaseHeld_frame (s : State) (p : Fin 16) : (s.releaseHeld p).frame = s.frame := by
  unfold State.releaseHeld
  (repeat' split) <;> simp
/-! ### TestOps -/

@[simp] theorem State.capture48_frame (s : State) : (s.capture48).frame = s.frame := by
  unfold State.capture48
  (repeat' split) <;> simp
@[simp] theorem State.takeSnapshot_frame (s : State) : (s.takeSnapshot).frame = s.frame := by
  unfold State.takeSnapshot; dsimp only
  (repeat' split) <;> simp
@[simp] theorem State.snapshotDone_frame (s : State) : (s.snapshotDone).frame = s.frame := by
  unfold State.snapshotDone
  (repeat' split) <;> simp
@[simp] theorem State.bufWritten_frame (s : State) : (s.bufWritten).frame = s.frame := by
  simp [State.bufWritten]
@[simp] theorem State.tagWritten_frame (s : State) (old : Word) : (s.tagWritten old).frame = s.frame := by
  unfold State.tagWritten; dsimp only
  (repeat' split) <;> simp
@[simp] theorem State.seedWritten_frame (s : State) : (s.seedWritten).frame = s.frame := by
  simp [State.seedWritten]
@[simp] theorem State.rotate_frame (s : State) (b : Fin 68) (chan : Option Nat) : (s.rotate b chan).frame = s.frame := by
  unfold State.rotate
  (repeat' split) <;> simp
@[simp] theorem State.tryRotate_frame (s : State) : (s.tryRotate).frame = s.frame := by
  unfold State.tryRotate
  (repeat' split) <;> simp
@[simp] theorem State.marchInterval_frame (s : State) : (s.marchInterval).frame = s.frame := by
  unfold State.marchInterval
  (repeat' split) <;> simp
@[simp] theorem State.waitingRotation_frame (s : State) : (s.waitingRotation).frame = s.frame := by
  unfold State.waitingRotation
  (repeat' split) <;> simp
@[simp] theorem State.copyDone_frame (s : State) (b : Fin 68) : (s.copyDone b).frame = s.frame := by
  unfold State.copyDone
  split
  · rename_i tg l _
    have key : (List.foldl (fun (t : State) (c : Fin 68) => if c.val = tg then t.setBank c (.inService l) else t) s (List.finRange 68)).frame = s.frame :=
      foldl_frame _ _ _ (fun t c => by split <;> simp)
    dsimp only
    split
    · exact (frame_mk _ _ _ _ _ _ _ _ _ _ _ _ _ _ _ _ _ _ _ _ _ _ _).trans ((State.setBank_frame _ _ _).trans key)
    · exact (State.waitingRotation_frame _).trans ((State.raise_frame _ _ _ _ _ _ _ _).trans ((State.setBank_frame _ _ _).trans key))
  · rfl
@[simp] theorem State.bistAnswer_frame (s : State) (c : Fin 16) (kind : Nat) (fail : Bool) (detail : Word) : (s.bistAnswer c kind fail detail).frame = s.frame := by
  simp [State.bistAnswer]
@[simp] theorem State.marchDone_frame (s : State) (bad : Option Nat) : (s.marchDone bad).frame = s.frame := by
  unfold State.marchDone; dsimp only
  (repeat' split) <;> simp
@[simp] theorem State.modTest_frame (s : State) (p : Fin 16) (f : PortTest → PortTest) : (s.modTest p f).frame = s.frame := by
  simp [State.modTest]
@[simp] theorem State.markElement_frame (s : State) (p : Fin 16) (e : Element) : (s.markElement p e).frame = s.frame := by
  simp [State.markElement]
@[simp] theorem State.testItems_frame (s : State) (p : Fin 16) (i j : Nat) (failing : List Element) : (s.testItems p i j failing).frame = s.frame := by
  unfold State.testItems; try dsimp only
  (repeat' split) <;> first | (simp [*]; done) | (refine (foldl_frame _ _ _ (fun t x => ?_)).trans (by simp [*]); (repeat' split) <;> simp [*])
@[simp] theorem State.testRun_frame (s : State) (p : Fin 16) (j : Nat) (failing : List Element) : (s.testRun p j failing).frame = s.frame := by
  unfold State.testRun; dsimp only
  (repeat' split) <;> simp
@[simp] theorem State.testNext_frame (s : State) (p : Fin 16) (failing : List Element) : (s.testNext p failing).frame = s.frame := by
  unfold State.testNext
  (repeat' split) <;> simp
@[simp] theorem State.startTest_frame (s : State) (p : Fin 16) (failing : List Element) : (s.startTest p failing).frame = s.frame := by
  unfold State.startTest
  (repeat' split) <;> simp
@[simp] theorem State.testInterval_frame (s : State) (p : Fin 16) (failing : List Element) : (s.testInterval p failing).frame = s.frame := by
  unfold State.testInterval; dsimp only
  (repeat' split) <;> simp
@[simp] theorem State.testSliceEnds_frame (s : State) (p : Fin 16) (failing : List Element) : (s.testSliceEnds p failing).frame = s.frame := by
  unfold State.testSliceEnds
  (repeat' split) <;> simp
@[simp] theorem State.abandonTests_frame (s : State) : (s.abandonTests).frame = s.frame := by
  simp [State.abandonTests]
@[simp] theorem State.startLoop_frame (s : State) (p : Fin 16) : (s.startLoop p).frame = s.frame := by
  unfold State.startLoop
  (repeat' split) <;> simp
@[simp] theorem State.loopDone_frame (s : State) (p : Fin 16) (errors : Nat) : (s.loopDone p errors).frame = s.frame := by
  unfold State.loopDone; dsimp only
  (repeat' split) <;> simp
@[simp] theorem State.lbistHold_frame (s : State) : (s.lbistHold).frame = s.frame := by
  unfold State.lbistHold
  (repeat' split) <;> simp
@[simp] theorem State.startLbist_frame (s : State) (zeroOk : Bool) : (s.startLbist zeroOk).frame = s.frame := by
  unfold State.startLbist; dsimp only
  (repeat' split) <;> simp
@[simp] theorem State.quietOpens_frame (s : State) (p : Fin 16) (e : CalEntry) : (s.quietOpens p e).frame = s.frame := by
  unfold State.quietOpens; dsimp only
  (repeat' split) <;> simp
@[simp] theorem State.windowStarts_frame (s : State) (e : Nat) : (s.windowStarts e).frame = s.frame := by
  unfold State.windowStarts
  (repeat' split) <;> simp
@[simp] theorem State.quietResumes_frame (s : State) (p : Fin 16) : (s.quietResumes p).frame = s.frame := by
  unfold State.quietResumes
  (repeat' split) <;> simp
@[simp] theorem State.windowStops_frame (s : State) (e : Nat) (failing : List Element) : (s.windowStops e failing).frame = s.frame := by
  unfold State.windowStops
  (repeat' split) <;> simp
@[simp] theorem State.hostEvent_frame (s : State) (e : Nat) : (s.hostEvent e).frame = s.frame := by
  unfold State.hostEvent
  (repeat' split) <;> simp
@[simp] theorem State.tmarkPulse_frame (s : State) (e : Nat) : (s.tmarkPulse e).frame = s.frame := by
  unfold State.tmarkPulse
  (repeat' split) <;> simp
@[simp] theorem State.retrySlices_frame (s : State) (failing : List Element) : (s.retrySlices failing).frame = s.frame := by
  unfold State.retrySlices
  exact foldl_frame _ _ _ (fun t e => by dsimp only; (repeat' split) <;> simp)

/-! ### StreamOps -/

theorem State.openStream_frame (s : State) (q : Queue) (k : Bool) : ∀ t, s.openStream q k = .ok t → t.frame = s.frame := by
  intro t h
  unfold State.openStream at h; dsimp only at h
  (repeat' split at h) <;> simp at h
  subst h; simp
theorem State.modifyStream_frame (s : State) (q : Queue) (k : Bool) : ∀ t, s.modifyStream q k = .ok t → t.frame = s.frame := by
  intro t h
  unfold State.modifyStream at h; dsimp only at h
  (repeat' split at h) <;> simp at h
  subst h; simp
@[simp] theorem State.closeStream_frame (s : State) (q : Nat) (purge : Bool) (c : Fin 16) : (s.closeStream q purge c).frame = s.frame := by
  simp [State.closeStream]
@[simp] theorem State.closeDone_frame (s : State) (q : Nat) : (s.closeDone q).frame = s.frame := by
  unfold State.closeDone
  (repeat' split) <;> simp
@[simp] theorem State.scrub_frame (s : State) (b : Fin 68) (corrected uncorrectable : Nat) (hit : Option (Fin 4096 × Seq16)) : (s.scrub b corrected uncorrectable hit).frame = s.frame := by
  unfold State.scrub; dsimp only
  (repeat' split) <;> simp
@[simp] theorem State.rehome_frame (s : State) (l : Nat) (t : Ticket) : (s.rehome l t).frame = s.frame := by
  unfold State.rehome; dsimp only
  (repeat' split) <;> simp
@[simp] theorem State.migrated_frame (s : State) (b : Fin 68) : (s.migrated b).frame = s.frame := by
  unfold State.migrated
  (repeat' split) <;> simp
@[simp] theorem State.moveOff_frame (s : State) (q : Nat) (n : Option (Fin 8)) : (s.moveOff q n).frame = s.frame := by
  unfold State.moveOff
  (repeat' split) <;> simp
@[simp] theorem State.maskWritten_frame (s : State) (old : Word) : (s.maskWritten old).frame = s.frame := by
  unfold State.maskWritten; dsimp only
  (repeat' split) <;> simp
@[simp] theorem State.basinWritten_frame (s : State) (r : BasinReg) (old : Word) : (s.basinWritten r old).frame = s.frame := by
  unfold State.basinWritten; dsimp only
  (repeat' split) <;> simp
@[simp] theorem State.rebalanceDue_frame (s : State) : (s.rebalanceDue).frame = s.frame := by
  unfold State.rebalanceDue
  (repeat' split) <;> simp
@[simp] theorem State.laneWritten_frame (s : State) (n : Fin 8) (r : HlReg) (old : Word) : (s.laneWritten n r old).frame = s.frame := by
  unfold State.laneWritten; dsimp only
  (repeat' split) <;> simp
@[simp] theorem State.laneLost_frame (s : State) (n : Fin 8) (cause : Fin 7) : (s.laneLost n cause).frame = s.frame := by
  unfold State.laneLost
  (repeat' split) <;> simp
@[simp] theorem State.laneUp_frame (s : State) (n : Fin 8) : (s.laneUp n).frame = s.frame := by
  unfold State.laneUp
  (repeat' split) <;> simp
@[simp] theorem State.laneRetry_frame (s : State) (n : Fin 8) : (s.laneRetry n).frame = s.frame := by
  unfold State.laneRetry
  (repeat' split) <;> simp
@[simp] theorem State.pauseHeard_frame (s : State) (n : Fin 8) (quanta : BitVec 16) : (s.pauseHeard n quanta).frame = s.frame := by
  unfold State.pauseHeard
  (repeat' split) <;> simp
@[simp] theorem State.pauseOver_frame (s : State) (n : Fin 8) : (s.pauseOver n).frame = s.frame := by
  simp [State.pauseOver]
@[simp] theorem State.pausedLong_frame (s : State) (n : Fin 8) : (s.pausedLong n).frame = s.frame := by
  unfold State.pausedLong
  (repeat' split) <;> simp
@[simp] theorem State.moveStarts_frame (s : State) (q : Nat) : (s.moveStarts q).frame = s.frame := by
  unfold State.moveStarts
  (repeat' split) <;> simp
@[simp] theorem State.releaseAgain_frame (s : State) (q : Nat) : (s.releaseAgain q).frame = s.frame := by
  unfold State.releaseAgain
  (repeat' split) <;> simp
@[simp] theorem State.receipts_frame (s : State) (n : Fin 8) (es : List CtrlEntry) : (s.receipts n es).frame = s.frame := by
  unfold State.receipts
  (repeat' split) <;> simp
@[simp] theorem State.badCtrl_frame (s : State) (n : Fin 8) : (s.badCtrl n).frame = s.frame := by
  unfold State.badCtrl
  (repeat' split) <;> simp
@[simp] theorem State.receiptHeard_frame (s : State) (n : Fin 8) (es : List CtrlEntry) : (s.receiptHeard n es).frame = s.frame := by
  unfold State.receiptHeard
  (repeat' split) <;> simp
@[simp] theorem State.badCtrlHeard_frame (s : State) (n : Fin 8) : (s.badCtrlHeard n).frame = s.frame := by
  unfold State.badCtrlHeard
  (repeat' split) <;> simp
@[simp] theorem State.ctrlFromHost_frame (s : State) (n : Fin 8) (frame : List Byte) (fcsOk : Bool) : (s.ctrlFromHost n frame fcsOk).frame = s.frame := by
  unfold State.ctrlFromHost; dsimp only
  (repeat' split) <;> simp
@[simp] theorem State.hostFrame_frame (s : State) (n : Fin 8) (tagged fcsOk : Bool) (tag : TagWord) (frame : List Byte) : (s.hostFrame n tagged fcsOk tag frame).frame = s.frame := by
  unfold State.hostFrame; dsimp only
  (repeat' split) <;> simp
@[simp] theorem State.stdArrives_frame (s : State) (p : Fin 16) (tag : Byte) (fcsOk : Bool) (frame : List Byte) : (s.stdArrives p tag fcsOk frame).frame = s.frame := by
  unfold State.stdArrives; dsimp only
  (repeat' split) <;> simp
@[simp] theorem State.stdDeparts_frame (s0 : State) (p : Fin 16) : (State.stdDeparts s0 p).frame = s0.frame := by
  unfold State.stdDeparts; dsimp only
  (repeat' split) <;> simp

/-! ### PortOps -/

@[simp] theorem State.drawSession_frame (s : State) (p : Fin 16) : (s.drawSession p).frame = s.frame := by
  unfold State.drawSession; dsimp only
  (repeat' split) <;> simp
@[simp] theorem State.loopOff_frame (s : State) (p : Fin 16) : (s.loopOff p).frame = s.frame := by
  unfold State.loopOff
  (repeat' split) <;> simp
@[simp] theorem State.patternSync_frame (s : State) (p : Fin 16) : (s.patternSync p).frame = s.frame := by
  unfold State.patternSync; dsimp only
  (repeat' split) <;> simp
@[simp] theorem State.enablePort_frame (s : State) (p : Fin 16) : (s.enablePort p).frame = s.frame := by
  simp [State.enablePort]
@[simp] theorem State.disablePort_frame (s : State) (p : Fin 16) : (s.disablePort p).frame = s.frame := by
  simp [State.disablePort]
@[simp] theorem State.modeWritten_frame (s : State) (p : Fin 16) (old : Word) : (s.modeWritten p old).frame = s.frame := by
  unfold State.modeWritten
  (repeat' split) <;> simp
@[simp] theorem State.policyWritten_frame (s : State) (p : Fin 16) (old : Word) : (s.policyWritten p old).frame = s.frame := by
  unfold State.policyWritten
  (repeat' split) <;> simp
@[simp] theorem State.txWritten_frame (s : State) (p : Fin 16) (r : TxReg) : (s.txWritten p r).frame = s.frame := by
  unfold State.txWritten
  (repeat' split) <;> simp
@[simp] theorem State.txTestWritten_frame (s : State) (p : Fin 16) : (s.txTestWritten p).frame = s.frame := by
  unfold State.txTestWritten; dsimp only
  (repeat' split) <;> simp
@[simp] theorem State.rxWritten_frame (s : State) (p : Fin 16) (r : RxReg) : (s.rxWritten p r).frame = s.frame := by
  unfold State.rxWritten
  (repeat' split) <;> simp
@[simp] theorem State.xtWritten_frame (s : State) (r : Fin 4) (reg : XtReg) (old : Word) : (s.xtWritten r reg old).frame = s.frame := by
  unfold State.xtWritten
  (repeat' split) <;> simp
@[simp] theorem State.quietRegWritten_frame (s : State) (p : Fin 16) (r : QuietReg) (old : Word) : (s.quietRegWritten p r old).frame = s.frame := by
  unfold State.quietRegWritten
  (repeat' split) <;> simp
@[simp] theorem State.wake_frame (s : State) (p : Fin 16) : (s.wake p).frame = s.frame := by
  simp [State.wake]
@[simp] theorem State.dgWritten_frame (s : State) (p : Fin 16) (r : DgReg) (old : Word) : (s.dgWritten p r old).frame = s.frame := by
  unfold State.dgWritten
  (repeat' split) <;> simp
@[simp] theorem State.tdrStartReg_frame (s : State) (p : Fin 16) : (s.tdrStartReg p).frame = s.frame := by
  simp [State.tdrStartReg]
@[simp] theorem State.timeWritten_frame (s : State) (r : TmReg) (old : Word) : (s.timeWritten r old).frame = s.frame := by
  unfold State.timeWritten
  (repeat' split) <;> simp
@[simp] theorem State.snapNow_frame (s : State) : (s.snapNow).frame = s.frame := by
  simp [State.snapNow]

/-! ### Flags -/

@[simp] theorem State.countRise_frame (old s : State) (e : Nat × Word) : (State.countRise old s e).frame = s.frame := by
  unfold State.countRise; dsimp only
  (repeat' split) <;> rfl
@[simp] theorem State.remoteSweep_frame (s : State) (c : Fin 16) : (s.remoteSweep c).frame = s.frame := by
  unfold State.remoteSweep
  (repeat' split) <;> simp
@[simp] theorem State.remoteDrop_frame (s : State) : (s.remoteDrop).frame = s.frame := by
  unfold State.remoteDrop
  (repeat' split) <;> simp
@[simp] theorem State.journalNotice_frame (s old : State) : (s.journalNotice old).frame = s.frame := by
  unfold State.journalNotice
  (repeat' split) <;> simp
@[simp] theorem settle_frame (old s : State) : (settle old s).frame = s.frame := by
  unfold settle
  rw [State.syncDomains_frame, State.journalNotice_frame, State.remoteDrop_frame]
  exact foldl_frame_of (fun t c => by simp) (foldl_frame _ _ _ (fun t e => by simp))

/-! ### RegWrite -/

@[simp] theorem State.supply_frame (s : State) (o : Option Supplied) : (s.supply o).2.frame = s.frame := by
  unfold State.supply; split <;> simp
@[simp] theorem State.timeEffect_frame (s : State) (ix : Nat) (old : Word) : (s.timeEffect ix old).frame = s.frame := by
  unfold State.timeEffect
  (repeat' split) <;> simp
@[simp] theorem State.basinEffect_frame (s : State) (ix : Nat) (old acted : Word) : (s.basinEffect ix old acted).frame = s.frame := by
  unfold State.basinEffect
  (repeat' split) <;> simp
@[simp] theorem State.tallyEffect_frame (s : State) (ix : Nat) (old acted : Word) : (s.tallyEffect ix old acted).frame = s.frame := by
  unfold State.tallyEffect
  (repeat' split) <;> simp
@[simp] theorem State.testEffect_frame (s : State) (ix : Nat) (acted : Word) (sup : Option Supplied) : (s.testEffect ix acted sup).frame = s.frame := by
  unfold State.testEffect
  split
  · have key : (allPorts.foldl (fun (t : State) p => if bit acted (16 + p.val) then t.startLoop p else t) s).frame = s.frame :=
      foldl_frame _ _ _ (fun t p => by split <;> simp)
    generalize allPorts.foldl (fun (t : State) p => if bit acted (16 + p.val) then t.startLoop p else t) s = u at key
    dsimp only
    split <;> simp [key]
  · rfl
@[simp] theorem State.calEffect_frame (s : State) (ix : Nat) (old : Word) : (s.calEffect ix old).frame = s.frame := by
  unfold State.calEffect
  (repeat' split) <;> simp
@[simp] theorem State.reachEffect_frame (s : State) (r : Fin 4) (ix : Nat) (old : Word) : (s.reachEffect r ix old).frame = s.frame := by
  unfold State.reachEffect
  (repeat' split) <;> simp
@[simp] theorem State.portEffect_frame (s : State) (p : Fin 16) (ix : Nat) (old acted : Word) : (s.portEffect p ix old acted).frame = s.frame := by
  unfold State.portEffect
  (repeat' split) <;> simp
@[simp] theorem State.laneEffect_frame (s : State) (n : Fin 8) (ix : Nat) (old : Word) : (s.laneEffect n ix old).frame = s.frame := by
  unfold State.laneEffect
  (repeat' split) <;> simp
@[simp] theorem State.clearCounter_frame (s : State) (b n : Nat) : (s.clearCounter b n).frame = s.frame := by
  simp [State.clearCounter]
@[simp] theorem State.cellWritten_frame (s : State) (c : Fin 16) (k : Nat) (way : Way) (v : Word) : (s.cellWritten c k way v).frame = s.frame := by
  unfold State.cellWritten
  (repeat' split) <;> simp
@[simp] theorem State.portIndPut_frame (s : State) (p : Fin 16) (a : Nat) (v : Word) : (s.portIndPut p a v).frame = s.frame := by
  unfold State.portIndPut
  (repeat' split) <;> simp
@[simp] theorem State.reachIndPut_frame (s : State) (r : Fin 4) (a : Nat) (v : Word) : (s.reachIndPut r a v).frame = s.frame := by
  unfold State.reachIndPut
  (repeat' split) <;> simp
@[simp] theorem State.indPut_frame (s : State) (b a : Nat) (v : Word) : (s.indPut b a v).frame = s.frame := by
  unfold State.indPut
  (repeat' split) <;> simp

/-! ### Auzer -/

@[simp] theorem State.waitFor_frame (s : State) (c : Fin 16) (w : LongCmd) : (s.waitFor c w).frame = s.frame := by
  simp [State.waitFor]
@[simp] theorem State.ownPort_frame (s : State) (p : Fin 16) : (s.ownPort p).frame = s.frame := by
  simp [State.ownPort]
@[simp] theorem State.reportReset_frame (s : State) : (s.reportReset).frame = s.frame := by
  unfold State.reportReset; dsimp only
  (repeat' split) <;> simp
@[simp] theorem State.serveHello_frame (s : State) (c : Fin 16) : (s.serveHello c).frame = s.frame := by
  unfold State.serveHello; dsimp only
  (repeat' split) <;> simp
theorem State.streamAnswer_frame (s : State) (c : Fin 16) (q : Nat) (e : Except Nat State) (h : ∀ t, e = .ok t → t.frame = s.frame) :
    (s.streamAnswer c q e).frame = s.frame := by
  unfold State.streamAnswer; dsimp only
  (repeat' split) <;> simp [*]
@[simp] theorem State.serveStream_frame (s : State) (c : Fin 16) (modify : Bool) : (s.serveStream c modify).frame = s.frame := by
  unfold State.serveStream; dsimp only
  split
  · simp
  · refine (State.streamAnswer_frame _ _ _ _ ?_).trans (by simp)
    intro t ht
    split at ht
    · exact State.modifyStream_frame _ _ _ _ ht
    · exact State.openStream_frame _ _ _ _ ht
@[simp] theorem State.serveClose_frame (s : State) (c : Fin 16) : (s.serveClose c).frame = s.frame := by
  unfold State.serveClose; dsimp only
  (repeat' split) <;> simp
@[simp] theorem State.serveCadence_frame (s : State) (c : Fin 16) : (s.serveCadence c).frame = s.frame := by
  unfold State.serveCadence; dsimp only
  (repeat' split) <;> simp
@[simp] theorem State.serveLearn_frame (s : State) (c : Fin 16) : (s.serveLearn c).frame = s.frame := by
  unfold State.serveLearn; dsimp only
  (repeat' split) <;> simp
@[simp] theorem State.serveTimeSet_frame (s : State) (c : Fin 16) : (s.serveTimeSet c).frame = s.frame := by
  unfold State.serveTimeSet; dsimp only
  (repeat' split) <;> simp
@[simp] theorem State.serveAdjust_frame (s : State) (c : Fin 16) : (s.serveAdjust c).frame = s.frame := by
  unfold State.serveAdjust; dsimp only
  (repeat' split) <;> simp
@[simp] theorem State.offer_frame (s : State) (c : Fin 16) (x : CalEntry) (long : Bool) : (s.offer c x long).frame = s.frame := by
  simp [State.offer]
@[simp] theorem State.cancelled_frame (s : State) (x : CalEntry) : (s.cancelled x).frame = s.frame := by
  unfold State.cancelled; dsimp only
  (repeat' split) <;> simp
@[simp] theorem State.serveCancel_frame (s : State) (c : Fin 16) : (s.serveCancel c).frame = s.frame := by
  unfold State.serveCancel; dsimp only
  (repeat' split) <;> simp
@[simp] theorem State.serveAdd_frame (s : State) (c : Fin 16) : (s.serveAdd c).frame = s.frame := by
  unfold State.serveAdd; dsimp only
  (repeat' split) <;> simp
@[simp] theorem State.serveSchedule_frame (s : State) (c : Fin 16) : (s.serveSchedule c).frame = s.frame := by
  unfold State.serveSchedule
  (repeat' split) <;> simp
@[simp] theorem State.serveSnapshot_frame (s : State) (c : Fin 16) : (s.serveSnapshot c).frame = s.frame := by
  unfold State.serveSnapshot
  (repeat' split) <;> simp
@[simp] theorem State.serveCommitAt_frame (s : State) (c : Fin 16) : (s.serveCommitAt c).frame = s.frame := by
  unfold State.serveCommitAt; dsimp only
  (repeat' split) <;> simp
@[simp] theorem State.serveCalRun_frame (s : State) (c : Fin 16) : (s.serveCalRun c).frame = s.frame := by
  unfold State.serveCalRun; dsimp only
  rw [State.calAnswer_frame]
  exact foldl_frame_of (fun t p => by split <;> simp) (foldl_frame_of (fun t r => by split <;> simp) (by simp))
@[simp] theorem State.serveCalRead_frame (s : State) (c : Fin 16) : (s.serveCalRead c).frame = s.frame := by
  simp [State.serveCalRead]
@[simp] theorem State.serveTdr_frame (s : State) (c : Fin 16) : (s.serveTdr c).frame = s.frame := by
  unfold State.serveTdr; dsimp only
  (repeat' split) <;> simp
@[simp] theorem State.serveWatch_frame (s : State) (c : Fin 16) : (s.serveWatch c).frame = s.frame := by
  unfold State.serveWatch
  (repeat' split) <;> simp
@[simp] theorem State.serveKeyLoad_frame (s : State) (c : Fin 16) (sup : Option Supplied) : (s.serveKeyLoad c sup).frame = s.frame := by
  unfold State.serveKeyLoad; dsimp only
  (repeat' split) <;> simp
@[simp] theorem State.serveKeyErase_frame (s : State) (c : Fin 16) : (s.serveKeyErase c).frame = s.frame := by
  unfold State.serveKeyErase; dsimp only
  (repeat' split) <;> simp
@[simp] theorem State.serveCommit_frame (s : State) (c : Fin 16) : (s.serveCommit c).frame = s.frame := by
  simp [State.serveCommit]
@[simp] theorem State.serveJournalRead_frame (s : State) (c : Fin 16) (sup : Option Supplied) : (s.serveJournalRead c sup).frame = s.frame := by
  unfold State.serveJournalRead; dsimp only
  (repeat' split) <;> simp
@[simp] theorem State.serveMarch_frame (s : State) (c : Fin 16) : (s.serveMarch c).frame = s.frame := by
  unfold State.serveMarch; dsimp only
  (repeat' split) <;> simp
@[simp] theorem State.serveBist_frame (s : State) (c : Fin 16) (sup : Option Supplied) : (s.serveBist c sup).frame = s.frame := by
  unfold State.serveBist; dsimp only
  (repeat' split) <;> simp
@[simp] theorem State.serveFetch_frame (s : State) (c : Fin 16) : (s.serveFetch c).frame = s.frame := by
  unfold State.serveFetch; dsimp only
  (repeat' split) <;> simp
@[simp] theorem State.serveRemote_frame (s : State) (c : Fin 16) : (s.serveRemote c).frame = s.frame := by
  unfold State.serveRemote; dsimp only
  (repeat' split) <;> simp
@[simp] theorem State.serveStage_frame (s : State) (c : Fin 16) (sup : Option Supplied) : (s.serveStage c sup).frame = s.frame := by
  unfold State.serveStage; dsimp only
  (repeat' split) <;> simp
@[simp] theorem State.activateRom_frame (s : State) (c : Fin 16) (x : Supplied) : (s.activateRom c x).frame = s.frame := by
  unfold State.activateRom
  (repeat' split) <;> simp
@[simp] theorem State.activateRun_frame (s : State) (c : Fin 16) (x : Supplied) : (s.activateRun c x).frame = s.frame := by
  unfold State.activateRun; dsimp only
  (repeat' split) <;> simp
@[simp] theorem State.serveActivate_frame (s : State) (c : Fin 16) (sup : Option Supplied) : (s.serveActivate c sup).frame = s.frame := by
  unfold State.serveActivate; dsimp only
  (repeat' split) <;> simp
@[simp] theorem State.putRequest_frame (s : State) (c : Fin 16) (code : Nat) (r : Request) : (s.putRequest c code r).frame = s.frame := by
  unfold State.putRequest
  (repeat' split) <;> simp
@[simp] theorem State.takeEvent_frame (s : State) : (s.takeEvent).frame = s.frame := by
  unfold State.takeEvent; dsimp only
  (repeat' split) <;> simp
@[simp] theorem State.takeDone_frame (s : State) (c : Fin 16) : (s.takeDone c).frame = s.frame := by
  unfold State.takeDone
  (repeat' split) <;> simp
@[simp] theorem State.timeSetLate_frame (s : State) (c : Fin 16) : (s.timeSetLate c).frame = s.frame := by
  unfold State.timeSetLate
  (repeat' split) <;> simp
@[simp] theorem State.portTestLate_frame (s : State) (p : Fin 16) : (s.portTestLate p).frame = s.frame := by
  simp [State.portTestLate]

/-! ### Bus -/

@[simp] theorem State.began_frame (s : State) (i : Iface) : (s.began i).frame = s.frame := by
  unfold State.began
  (repeat' split) <;> simp
@[simp] theorem State.modMdio_frame (s : State) (f : MdioRec → MdioRec) : (s.modMdio f).frame = s.frame := by
  simp [State.modMdio]
@[simp] theorem State.mdioAddr_frame (s : State) (prtad devad : BitVec 5) (a : BitVec 16) : (s.mdioAddr prtad devad a).frame = s.frame := by
  unfold State.mdioAddr
  (repeat' split) <;> simp
@[simp] theorem State.mdioLook_frame (s : State) (a : Nat) : (s.mdioLook a).frame = s.frame := by
  unfold State.mdioLook
  (repeat' split) <;> simp
@[simp] theorem State.mdioGet_frame (s : State) (prtad devad : BitVec 5) : (s.mdioGet prtad devad).frame = s.frame := by
  unfold State.mdioGet
  (repeat' split) <;> simp
@[simp] theorem State.mdioGetInc_frame (s : State) (prtad devad : BitVec 5) : (s.mdioGetInc prtad devad).frame = s.frame := by
  unfold State.mdioGetInc
  (repeat' split) <;> simp
@[simp] theorem State.mdioLate_frame (s : State) : (s.mdioLate).frame = s.frame := by
  simp [State.mdioLate]

/-! ### TickOps -/

@[simp] theorem State.rampTick_frame (s : State) : (s.rampTick).frame = s.frame := by
  simp [State.rampTick]
@[simp] theorem State.coreCycles_frame (s : State) : (s.coreCycles).2.frame = s.frame := by
  unfold State.coreCycles; dsimp only
  (repeat' split) <;> simp
@[simp] theorem State.tickCounters_frame (s : State) : (s.tickCounters).frame = s.frame := by
  simp [State.tickCounters]
@[simp] theorem State.laneTick_frame (s : State) (n : Fin 8) : (s.laneTick n).frame = s.frame := by
  simp [State.laneTick]
@[simp] theorem State.rollOver_frame (s : State) : (s.rollOver).frame = s.frame := by
  unfold State.rollOver
  (repeat' split) <;> simp
@[simp] theorem State.wrapEvent_frame (s : State) (w : Nat × Nat) : (s.wrapEvent w).frame = s.frame := by
  simp [State.wrapEvent]
@[simp] theorem State.wrapsTold_frame (s : State) (f : Nat × Nat → Bool) : (s.wrapsTold f).frame = s.frame := by
  simp [State.wrapsTold]
@[simp] theorem State.wrapTold_frame (s : State) (b n : Nat) : (s.wrapTold b n).frame = s.frame := by
  simp [State.wrapTold]
@[simp] theorem State.runTick_frame (s : State) : (s.runTick).frame = s.frame := by
  simp [State.runTick]
@[simp] theorem State.tick_frame (s : State) : (s.tick).frame = s.frame := by
  unfold State.tick; dsimp only
  (repeat' split) <;> simp
@[simp] theorem State.enterSafe_frame (s : State) (b : Nat) : (s.enterSafe b).frame = s.frame := by
  unfold State.enterSafe; dsimp only
  (repeat' split) <;> simp
@[simp] theorem State.leaveSafe_frame (s : State) (b : Nat) : (s.leaveSafe b).frame = s.frame := by
  unfold State.leaveSafe; dsimp only
  (repeat' split) <;> simp
@[simp] theorem State.parityPass_frame (s : State) (bad : List Addr) : (s.parityPass bad).frame = s.frame := by
  unfold State.parityPass
  (repeat' split) <;> simp

/-! ### Operands -/

theorem State.gated_frame (s t : State) (h : t.frame = s.frame) : (s.gated t).frame = s.frame := by
  unfold State.gated; split <;> simp [h]

end Sys2Proof.Machine
end

