-- ==== Sys2Proof/Laws/Held.lean ====
section
/-! SUPPORT. What the operations of the line, the basin, the time unit, calibration, diagnostics and the event ring leave of
the supervisor, the clocks, the key store and the parity record: one lemma per operation. -/

set_option linter.unusedTactic false
set_option linter.unreachableTactic false
set_option linter.unnecessarySeqFocus false
set_option linter.unusedSimpArgs false
set_option linter.unusedVariables false

namespace Sys2Proof.Machine

@[simp] theorem held_mk (s : State) (x1 x2 x3 x4 x5 x6 x7 x8 x9 x10 x11 x12 x13 x14 x15 x16 x17 x18 x19 x20 x21 x22 y1 y2 y3 y4 y5 y6 y7 y8 y9 y10) :
    State.held { s with
      ticks := x1, draws := x2, pending := x3, mended := x4, die := x5, otp := x6, dom := x7, ports := x8, reaches := x9
      lanes := x10, basin := x11, time := x12, cal := x13, ring := x14, chans := x15, keeper := x16, tally := x17, test := x18
      regs := x19, journal := x20, mdio := x21, kpi := x22, keeperInd := y1, spi := y2, mon := y3, gdAbort := y4
      gdMismatch := y5, gdBare := y6, crcErr := y7, frameErr := y8, monitor := y9, tap := y10 } = s.held := rfl
@[simp] theorem foldl_held {α : Type} (l : List α) (f : State → α → State) (s : State) (h : ∀ t x, (f t x).held = t.held) : (l.foldl f s).held = s.held := by
  induction l generalizing s with
  | nil => rfl
  | cons a l ih => rw [List.foldl_cons, ih, h]
theorem foldl_held_of {α : Type} {l : List α} {f : State → α → State} {s u : State} (h : ∀ t x, (f t x).held = t.held) (hs : s.held = u.held) :
    (l.foldl f s).held = u.held := (foldl_held l f s h).trans hs


/-! ### RegMap -/

@[simp] theorem State.setReg_held (s : State) (key : Nat) (v : Word) : (s.setReg key v).held = s.held := by
  simp [State.setReg]

/-! ### Ops -/

@[simp] theorem State.setPort_held (s : State) (p : Fin 16) (x : Port) : (s.setPort p x).held = s.held := by
  simp [State.setPort]
@[simp] theorem State.modPort_held (s : State) (p : Fin 16) (f : Port → Port) : (s.modPort p f).held = s.held := by
  simp [State.modPort]
@[simp] theorem State.modReach_held (s : State) (r : Fin 4) (f : Reach → Reach) : (s.modReach r f).held = s.held := by
  simp [State.modReach]
@[simp] theorem State.modLane_held (s : State) (n : Fin 8) (f : Lane → Lane) : (s.modLane n f).held = s.held := by
  simp [State.modLane]
@[simp] theorem State.modChan_held (s : State) (c : Fin 16) (f : Channel → Channel) : (s.modChan c f).held = s.held := by
  simp [State.modChan]
@[simp] theorem State.modIface_held (s : State) (i : Iface) (f : IfaceRec → IfaceRec) : (s.modIface i f).held = s.held := by
  unfold State.modIface
  (repeat' split) <;> simp
@[simp] theorem State.forPorts_held (s : State) (l : List (Fin 16)) (f : Fin 16 → State → State) (h : ∀ p t, (f p t).held = t.held) :
    (s.forPorts l f).held = s.held := by
  unfold State.forPorts
  exact foldl_held _ _ _ (fun t p => h p t)
@[simp] theorem State.modQueue_held (s : State) (q : Nat) (f : Queue → Queue) : (s.modQueue q f).held = s.held := by
  simp [State.modQueue]
@[simp] theorem State.modTickets_held (s : State) (f : List Ticket → List Ticket) : (s.modTickets f).held = s.held := by
  simp [State.modTickets]
@[simp] theorem State.modTicket_held (s : State) (id : Nat) (f : Ticket → Ticket) : (s.modTicket id f).held = s.held := by
  simp [State.modTicket]
@[simp] theorem State.draw_held (s : State) : (s.draw).2.held = s.held := by
  simp [State.draw]
@[simp] theorem State.countCode_held (s : State) (b code n : Nat) : (s.countCode b code n).held = s.held := by
  unfold State.countCode
  (repeat' split) <;> simp
@[simp] theorem State.count_held (s : State) (b k n : Nat) : (s.count b k n).held = s.held := by
  simp [State.count]
@[simp] theorem State.raise_held (s : State) (code block unit : Nat) (e0 : Word) (e1 : Word) (e2 : Word) (e3 : Word) : (s.raise code block unit e0 e1 e2 e3).held = s.held := by
  simp [State.raise]

/-! ### Modes -/

@[simp] theorem State.lineOne_held (s : State) (p : Fin 16) (out : Bool) : (s.lineOne p out).held = s.held := by
  unfold State.lineOne; dsimp only
  (repeat' split) <;> simp
@[simp] theorem State.lineSync_held (s : State) (p : Fin 16) : (s.lineSync p).held = s.held := by
  simp [State.lineSync]

/-! ### Power -/

@[simp] theorem State.syncDomains_held (s : State) : (s.syncDomains).held = s.held := by
  simp [State.syncDomains]

/-! ### Cells -/

@[simp] theorem State.modLink_held (s : State) (p : Fin 16) (f : Link → Link) : (s.modLink p f).held = s.held := by
  simp [State.modLink]
@[simp] theorem State.modTow_held (s : State) (p : Fin 16) (f : Towpath → Towpath) : (s.modTow p f).held = s.held := by
  simp [State.modTow]
@[simp] theorem State.modTx_held (s : State) (p : Fin 16) (f : TxPath → TxPath) : (s.modTx p f).held = s.held := by
  simp [State.modTx]
@[simp] theorem State.modRx_held (s : State) (p : Fin 16) (f : RxPath → RxPath) : (s.modRx p f).held = s.held := by
  simp [State.modRx]
@[simp] theorem State.modDmt_held (s : State) (p : Fin 16) (f : Dmt → Dmt) : (s.modDmt p f).held = s.held := by
  simp [State.modDmt]
@[simp] theorem State.modSnd_held (s : State) (p : Fin 16) (f : Sender → Sender) : (s.modSnd p f).held = s.held := by
  simp [State.modSnd]
@[simp] theorem State.modRcv_held (s : State) (p : Fin 16) (f : Receiver → Receiver) : (s.modRcv p f).held = s.held := by
  simp [State.modRcv]
@[simp] theorem State.modQuiet_held (s : State) (p : Fin 16) (f : Quiet → Quiet) : (s.modQuiet p f).held = s.held := by
  simp [State.modQuiet]
@[simp] theorem State.queueCell_held (s : State) (p : Fin 16) (type : Nat) (payload : List Byte) : (s.queueCell p type payload).held = s.held := by
  simp [State.queueCell]
@[simp] theorem State.sendFresh_held (s : State) (p : Fin 16) (i : Nat) (c0 : TxCell) : (s.sendFresh p i c0).held = s.held := by
  simp [State.sendFresh]
@[simp] theorem State.sendAgain_held (s : State) (p : Fin 16) (a : AwaitCell) : (s.sendAgain p a).held = s.held := by
  simp [State.sendAgain]
@[simp] theorem State.cellSlot_held (s : State) (p : Fin 16) : (s.cellSlot p).held = s.held := by
  unfold State.cellSlot; dsimp only
  (repeat' split) <;> simp
@[simp] theorem State.ackCell_held (s : State) (p : Fin 16) (counter : Word) (type : Nat) : (s.ackCell p counter type).held = s.held := by
  simp [State.ackCell]
@[simp] theorem State.takeCell_held (s : State) (p : Fin 16) (h : CellHdr) : (s.takeCell p h).2.2.held = s.held := by
  unfold State.takeCell; dsimp only
  (repeat' split) <;> simp
@[simp] theorem State.modRecord_held (s : State) (p : Fin 16) (h : CellHdr) (f : RxCtr → RxCtr) : (s.modRecord p h f).held = s.held := by
  simp [State.modRecord]
@[simp] theorem State.ackAgain_held (s : State) (p : Fin 16) (h : CellHdr) (v : Word) (type : Nat) : (s.ackAgain p h v type).held = s.held := by
  unfold State.ackAgain
  (repeat' split) <;> simp
@[simp] theorem State.withCell_held (s : State) (p : Fin 16) (h : CellHdr) (type : Nat) (act : State → State) (hact : ∀ t, (act t).held = t.held) : (s.withCell p h type act).held = s.held := by
  unfold State.withCell; dsimp only
  (repeat' split) <;> simp [*]
@[simp] theorem State.withCellIf_held (s : State) (p : Fin 16) (h : CellHdr) (type : Nat) (ok : Bool) (act : State → State) (hact : ∀ t, (act t).held = t.held) : (s.withCellIf p h type ok act).held = s.held := by
  unfold State.withCellIf; dsimp only
  (repeat' split) <;> simp [*]

/-! ### Link -/

@[simp] theorem State.ramp_held (s : State) (p : Fin 16) (up : Bool) (short : Bool) : (s.ramp p up short).held = s.held := by
  simp [State.ramp]
@[simp] theorem State.txStart_held (s : State) (p : Fin 16) : (s.txStart p).held = s.held := by
  simp [State.txStart]
@[simp] theorem State.txStop_held (s : State) (p : Fin 16) : (s.txStop p).held = s.held := by
  simp [State.txStop]
@[simp] theorem State.txStopShort_held (s : State) (p : Fin 16) : (s.txStopShort p).held = s.held := by
  simp [State.txStopShort]
@[simp] theorem State.txBurst_held (s : State) (p : Fin 16) (ps : Nat) : (s.txBurst p ps).held = s.held := by
  simp [State.txBurst]
@[simp] theorem State.txResume_held (s : State) (p : Fin 16) : (s.txResume p).held = s.held := by
  unfold State.txResume
  (repeat' split) <;> simp
@[simp] theorem State.silence_held (s : State) (p : Fin 16) (short : Bool) : (s.silence p short).held = s.held := by
  unfold State.silence
  (repeat' split) <;> simp
@[simp] theorem State.setSwing_held (s : State) (p : Fin 16) (nominal : Nat) : (s.setSwing p nominal).held = s.held := by
  simp [State.setSwing]
@[simp] theorem State.xtOne_held (s : State) (r : Fin 4) (i : Fin 12) : (s.xtOne r i).held = s.held := by
  unfold State.xtOne; dsimp only
  (repeat' split) <;> simp
@[simp] theorem State.xtSync_held (s : State) (r : Fin 4) : (s.xtSync r).held = s.held := by
  simp [State.xtSync]
@[simp] theorem State.goLink_held (s : State) (p : Fin 16) (f : Link → Link) : (s.goLink p f).held = s.held := by
  simp [State.goLink]
@[simp] theorem State.fall_held (s : State) (p : Fin 16) (to_ : LinkState) (cause : Nat) (short : Bool) : (s.fall p to_ cause short).held = s.held := by
  simp [State.fall]
@[simp] theorem State.linkDown_held (s : State) (p : Fin 16) (cause : Nat) : (s.linkDown p cause).held = s.held := by
  unfold State.linkDown
  (repeat' split) <;> simp
@[simp] theorem State.takeDown_held (s : State) (p : Fin 16) (cause : Nat) : (s.takeDown p cause).held = s.held := by
  unfold State.takeDown
  (repeat' split) <;> simp
@[simp] theorem State.holdDown_held (s : State) (p : Fin 16) (cause : Nat) (short : Bool) : (s.holdDown p cause short).held = s.held := by
  unfold State.holdDown
  (repeat' split) <;> simp
@[simp] theorem State.disable_held (s : State) (p : Fin 16) : (s.disable p).held = s.held := by
  unfold State.disable
  (repeat' split) <;> simp
@[simp] theorem State.stdSettings_held (s : State) (p : Fin 16) (taps : Word × Word) : (s.stdSettings p taps).held = s.held := by
  simp [State.stdSettings]
@[simp] theorem State.enterAn_held (s : State) (p : Fin 16) : (s.enterAn p).held = s.held := by
  simp [State.enterAn]
@[simp] theorem State.enterStd_held (s : State) (p : Fin 16) (m : LineMode) (isMaster : Bool) : (s.enterStd p m isMaster).held = s.held := by
  simp [State.enterStd]
@[simp] theorem State.sendBeacon_held (s : State) (p : Fin 16) (answer : Bool) : (s.sendBeacon p answer).held = s.held := by
  simp [State.sendBeacon]
@[simp] theorem State.enterDiscover_held (s : State) (p : Fin 16) (long : Bool) : (s.enterDiscover p long).held = s.held := by
  simp [State.enterDiscover]
@[simp] theorem State.firstState_held (s : State) (p : Fin 16) : (s.firstState p).held = s.held := by
  unfold State.firstState; dsimp only
  (repeat' split) <;> simp
@[simp] theorem State.startPort_held (s : State) (p : Fin 16) : (s.startPort p).held = s.held := by
  unfold State.startPort
  (repeat' split) <;> simp
@[simp] theorem State.restartPort_held (s : State) (p : Fin 16) : (s.restartPort p).held = s.held := by
  simp [State.restartPort]
@[simp] theorem State.newSounding_held (s : State) (p : Fin 16) (x : Sounding) : (s.newSounding p x).held = s.held := by
  simp [State.newSounding]
@[simp] theorem State.rxEnter_held (s : State) (p : Fin 16) (m : LineMode) (shift : Bool) : (s.rxEnter p m shift).held = s.held := by
  simp [State.rxEnter]
@[simp] theorem State.sendSounding_held (s : State) (p : Fin 16) : (s.sendSounding p).held = s.held := by
  simp [State.sendSounding]
@[simp] theorem State.narrowRun_held (s : State) (p : Fin 16) (sf : Nat) : (s.narrowRun p sf).held = s.held := by
  simp [State.narrowRun]
@[simp] theorem State.runDue_held (s : State) (p : Fin 16) : (s.runDue p).held = s.held := by
  unfold State.runDue
  (repeat' split) <;> simp
@[simp] theorem State.enterSound_held (s : State) (p : Fin 16) (leader : Bool) : (s.enterSound p leader).held = s.held := by
  unfold State.enterSound; dsimp only
  (repeat' split) <;> simp
@[simp] theorem State.adaptRx_held (s : State) (p : Fin 16) (m : LineMode) : (s.adaptRx p m).held = s.held := by
  simp [State.adaptRx]
@[simp] theorem State.trainStart_held (s : State) (p : Fin 16) (full : Bool) : (s.trainStart p full).held = s.held := by
  simp [State.trainStart]
@[simp] theorem State.beginBlocks_held (s : State) (p : Fin 16) (m : LineMode) (at_ : Nat) : (s.beginBlocks p m at_).held = s.held := by
  unfold State.beginBlocks; dsimp only
  (repeat' split) <;> simp
@[simp] theorem State.linkUp_held (s : State) (p : Fin 16) (m : LineMode) (st : LinkState) : (s.linkUp p m st).held = s.held := by
  simp [State.linkUp]
@[simp] theorem State.modeSettings_held (s : State) (p : Fin 16) (m : LineMode) (bit_ : Bool) (spread : Bool) : (s.modeSettings p m bit_ spread).held = s.held := by
  simp [State.modeSettings]
@[simp] theorem State.enterTraining_held (s : State) (p : Fin 16) (m : LineMode) (c : ModeCell) : (s.enterTraining p m c).held = s.held := by
  unfold State.enterTraining; dsimp only
  (repeat' split) <;> simp
@[simp] theorem State.trainFailed_held (s : State) (p : Fin 16) : (s.trainFailed p).held = s.held := by
  unfold State.trainFailed; dsimp only
  (repeat' split) <;> simp
@[simp] theorem State.queueGo_held (s : State) (p : Fin 16) : (s.queueGo p).held = s.held := by
  simp [State.queueGo]
@[simp] theorem State.shiftBegin_held (s : State) (p : Fin 16) (target : LineMode) (kind : Nat) (sf : Nat) : (s.shiftBegin p target kind sf).held = s.held := by
  unfold State.shiftBegin; dsimp only
  (repeat' split) <;> simp
@[simp] theorem State.leadShift_held (s : State) (p : Fin 16) (target : LineMode) (kind : Nat) : (s.leadShift p target kind).held = s.held := by
  simp [State.leadShift]
@[simp] theorem State.askShift_held (s : State) (p : Fin 16) (target : LineMode) (kind : Nat) : (s.askShift p target kind).held = s.held := by
  simp [State.askShift]
@[simp] theorem State.earlyExit_held (s : State) (p : Fin 16) : (s.earlyExit p).held = s.held := by
  unfold State.earlyExit
  (repeat' split) <;> simp
@[simp] theorem State.skipWindow_held (s : State) (p : Fin 16) (cause : Nat) : (s.skipWindow p cause).held = s.held := by
  simp [State.skipWindow]
@[simp] theorem State.trigger_held (s : State) (p : Fin 16) (target : LineMode) (kind : Nat) : (s.trigger p target kind).held = s.held := by
  unfold State.trigger; dsimp only
  (repeat' split) <;> simp
@[simp] theorem State.shiftProceed_held (s : State) (p : Fin 16) : (s.shiftProceed p).held = s.held := by
  unfold State.shiftProceed; dsimp only
  (repeat' split) <;> simp
@[simp] theorem State.shiftDone_held (s : State) (p : Fin 16) : (s.shiftDone p).held = s.held := by
  unfold State.shiftDone; dsimp only
  (repeat' split) <;> simp
@[simp] theorem State.shiftFailed_held (s : State) (p : Fin 16) : (s.shiftFailed p).held = s.held := by
  unfold State.shiftFailed; dsimp only
  (repeat' split) <;> simp

/-! ### Basin -/

@[simp] theorem State.pushCtrl_held (s : State) (kind : Nat) (x : Bool) (q : Nat) (seq : Seq16) : (s.pushCtrl kind x q seq).held = s.held := by
  simp [State.pushCtrl]
@[simp] theorem State.announce_held (s : State) (q : Queue) (n : Nat) : (s.announce q n).held = s.held := by
  unfold State.announce
  (repeat' split) <;> simp
@[simp] theorem State.sendRelease_held (s : State) (q : Nat) : (s.sendRelease q).held = s.held := by
  unfold State.sendRelease
  (repeat' split) <;> simp
@[simp] theorem State.resendFrom_held (s : State) (q : Nat) : (s.resendFrom q).held = s.held := by
  unfold State.resendFrom; dsimp only
  (repeat' split) <;> simp
@[simp] theorem State.qflowSync_held (s : State) (q : Nat) : (s.qflowSync q).held = s.held := by
  unfold State.qflowSync; dsimp only
  (repeat' split) <;> simp
@[simp] theorem State.gateOne_held (s : State) (p : Fin 16) (skid : Nat) (c : Custody) : (s.gateOne p skid c).held = s.held := by
  unfold State.gateOne; dsimp only
  (repeat' split) <;> simp
@[simp] theorem State.gateSync_held (s : State) (p : Fin 16) : (s.gateSync p).held = s.held := by
  unfold State.gateSync
  (repeat' split) <;> simp
@[simp] theorem State.hopSync_held (s : State) : (s.hopSync).held = s.held := by
  unfold State.hopSync; dsimp only
  (repeat' split) <;> simp
@[simp] theorem State.flowSync_held (s : State) (q : Nat) : (s.flowSync q).held = s.held := by
  simp [State.flowSync]
@[simp] theorem State.tagPick_held (s : State) (q : Nat) (out : Bool) : (s.tagPick q out).2.held = s.held := by
  unfold State.tagPick; dsimp only
  (repeat' split) <;> simp
@[simp] theorem State.stage_held (s : State) (id k : Nat) : (s.stage id k).held = s.held := by
  simp [State.stage]
@[simp] theorem State.logTicket_held (s : State) (t : Ticket) (discarded : Bool) : (s.logTicket t discarded).held = s.held := by
  unfold State.logTicket; dsimp only
  (repeat' split) <;> simp
@[simp] theorem State.issue_held (s : State) (q : Queue) (len : Nat) (rsnd : Bool) : (s.issue q len rsnd).2.held = s.held := by
  simp [State.issue]
@[simp] theorem State.freeTicket_held (s : State) (id : Nat) (discarded : Bool) : (s.freeTicket id discarded).held = s.held := by
  unfold State.freeTicket
  (repeat' split) <;> simp
@[simp] theorem State.freeAll_held (s : State) (ids : List Nat) (discarded : Bool) : (s.freeAll ids discarded).held = s.held := by
  simp [State.freeAll]
@[simp] theorem State.queueTicket_held (s : State) (id : Nat) : (s.queueTicket id).held = s.held := by
  unfold State.queueTicket
  (repeat' split) <;> simp
@[simp] theorem State.startMove_held (s : State) (q : Nat) (n : Fin 8) : (s.startMove q n).held = s.held := by
  unfold State.startMove
  (repeat' split) <;> simp
@[simp] theorem State.restartOn_held (s : State) (q : Nat) (n : Option (Fin 8)) : (s.restartOn q n).held = s.held := by
  unfold State.restartOn
  (repeat' split) <;> simp
@[simp] theorem State.endMove_held (s : State) (q : Nat) : (s.endMove q).held = s.held := by
  simp [State.endMove]
@[simp] theorem State.applyPlan_held (s : State) (q : Nat) (pl : Plan) : (s.applyPlan q pl).held = s.held := by
  unfold State.applyPlan
  (repeat' split) <;> simp
@[simp] theorem State.demote_held (s : State) (q status : Nat) : (s.demote q status).held = s.held := by
  simp [State.demote]
@[simp] theorem State.shrink_held (n : Nat) (s : State) : (State.shrink n s).held = s.held := by
  induction n generalizing s with
  | zero => rfl
  | succ n ih => unfold State.shrink; split <;> simp [ih]
@[simp] theorem State.shrinkAll_held (s : State) : s.shrinkAll.held = s.held := State.shrink_held _ s
@[simp] theorem State.replaceStreams_held (n : Nat) (s : State) (l : List Nat) (go : State → Nat → Option (Fin 8) → State)
    (h : ∀ t q m, (go t q m).held = t.held) : (State.replaceStreams n s l go).held = s.held := by
  induction n generalizing s with
  | zero => rfl
  | succ n ih => unfold State.replaceStreams; dsimp only; (repeat' split) <;> simp [ih, h]
@[simp] theorem State.replaceAll_held (s : State) (l : List Nat) (go : State → Nat → Option (Fin 8) → State)
    (h : ∀ t q m, (go t q m).held = t.held) : (s.replaceAll l go).held = s.held := State.replaceStreams_held _ s l go h
@[simp] theorem State.restoreGo_held (n : Nat) (s : State) : (State.restoreGo n s).held = s.held := by
  induction n generalizing s with
  | zero => rfl
  | succ n ih => unfold State.restoreGo; dsimp only; (repeat' split) <;> simp [ih]
@[simp] theorem State.restore_held (s : State) : s.restore.held = s.held := State.restoreGo_held _ s
@[simp] theorem State.rebalance_held (s : State) : (s.rebalance).held = s.held := by
  unfold State.rebalance
  (repeat' split) <;> simp
@[simp] theorem State.setBank_held (s : State) (b : Fin 68) (u : BankUse) : (s.setBank b u).held = s.held := by
  simp [State.setBank]
@[simp] theorem State.dropRotation_held (s : State) : s.dropRotation.held = s.held := by
  unfold State.dropRotation
  split
  · dsimp only
    split
    · rfl
    · refine (held_mk _ _ _ _ _ _ _ _ _ _ _ _ _ _ _ _ _ _ _ _ _ _ _ _ _ _ _ _ _ _ _ _ _).trans (foldl_held _ _ _ (fun x b => ?_))
      split
      · split
        · exact foldl_held_of (fun y c => by split <;> simp) (by simp)
        · rfl
      · rfl
  · rfl
@[simp] theorem State.repairBank_held (s : State) (b : Fin 68) : (s.repairBank b).held = s.held := by
  unfold State.repairBank; dsimp only
  (repeat' split) <;> simp

/-! ### Lanes -/

@[simp] theorem State.relSync_held (s : State) (p : Fin 16) : (s.relSync p).held = s.held := by
  unfold State.relSync
  (repeat' split) <;> simp
@[simp] theorem State.laneSend_held (s : State) (n : Fin 8) (f : HostFrame) (data : Bool) (len : Nat) : (s.laneSend n f data len).held = s.held := by
  simp [State.laneSend]
@[simp] theorem State.sendCtrl_held (s : State) (n : Fin 8) (kind : Nat) : (s.sendCtrl n kind).held = s.held := by
  simp [State.sendCtrl]
@[simp] theorem State.sendMarker_held (s : State) (n : Fin 8) (q : Nat) : (s.sendMarker n q).held = s.held := by
  unfold State.sendMarker
  (repeat' split) <;> simp
@[simp] theorem State.sendData_held (s : State) (n : Fin 8) (id : Nat) (credit : Bool) : (s.sendData n id credit).held = s.held := by
  unfold State.sendData
  (repeat' split) <;> simp
@[simp] theorem State.serveLane_held (s : State) (n : Fin 8) : (s.serveLane n).held = s.held := by
  unfold State.serveLane; dsimp only
  (repeat' split) <;> simp
@[simp] theorem State.ignoreReceipt_held (s : State) (n : Fin 8) : (s.ignoreReceipt n).held = s.held := by
  simp [State.ignoreReceipt]
@[simp] theorem State.receiptOne_held (s : State) (n : Fin 8) (e : CtrlEntry) : (s.receiptOne n e).held = s.held := by
  unfold State.receiptOne; dsimp only
  (repeat' split) <;> simp
@[simp] theorem State.receiptTimeout_held (s : State) (q : Nat) : (s.receiptTimeout q).held = s.held := by
  unfold State.receiptTimeout
  (repeat' split) <;> simp
@[simp] theorem State.discardHost_held (s : State) (n : Fin 8) : (s.discardHost n).held = s.held := by
  simp [State.discardHost]
@[simp] theorem State.takeOutbound_held (s : State) (n : Fin 8) (q : Queue) (seq : Seq16) (frame : List Byte) : (s.takeOutbound n q seq frame).held = s.held := by
  unfold State.takeOutbound; dsimp only
  (repeat' split) <;> simp
@[simp] theorem State.retarget_held (s : State) (q : Nat) (n : Option (Fin 8)) : (s.retarget q n).held = s.held := by
  simp [State.retarget]
@[simp] theorem State.loseLane_held (s : State) (n : Fin 8) (cause : Nat) : (s.loseLane n cause).held = s.held := by
  unfold State.loseLane; dsimp only
  split
  · simp
  · rw [State.replaceAll_held _ _ _ (by simp), State.replaceAll_held _ _ _ (by simp)]
    exact foldl_held_of (fun t q => by split <;> simp) (by simp)
@[simp] theorem State.raiseLane_held (s : State) (n : Fin 8) : (s.raiseLane n).held = s.held := by
  simp [State.raiseLane]

/-! ### Cadence -/

@[simp] theorem State.putCad_held (s : State) (c : Nat) (x : Cadence) : (s.putCad c x).held = s.held := by
  simp [State.putCad]
@[simp] theorem State.freeCad_held (s : State) (c : Nat) : (s.freeCad c).held = s.held := by
  simp [State.freeCad]
@[simp] theorem State.takeGovern_held (s : State) (c : Nat) : (s.takeGovern c).held = s.held := by
  unfold State.takeGovern
  (repeat' split) <;> simp
@[simp] theorem State.reanchor_held (s : State) (c : Nat) : (s.reanchor c).held = s.held := by
  simp [State.reanchor]
@[simp] theorem State.trackEntry_held (s : State) (q arr : Nat) (e : Nat × Cadence) : (s.trackEntry q arr e).held = s.held := by
  unfold State.trackEntry
  (repeat' split) <;> simp
@[simp] theorem State.cadArrive_held (s : State) (q : Nat) (arr : Nat) : (s.cadArrive q arr).held = s.held := by
  simp [State.cadArrive]

/-! ### Retry -/

@[simp] theorem State.beginPack_held (s : State) (p : Fin 16) (t : Ticket) (credit : Bool) (redo : Bool) : (s.beginPack p t credit redo).held = s.held := by
  simp [State.beginPack]
@[simp] theorem State.place_held (s : State) (p : Fin 16) (id : Nat) (off : Nat) (seq : Seq24) (pos : Nat) (len : Nat) : (s.place p id off seq pos len).1.held = s.held := by
  unfold State.place; dsimp only
  (repeat' split) <;> simp
@[simp] theorem State.packGo_held (p : Fin 16) (len : Nat) (seq : Seq24) (n : Nat) (s : State) (pos : Nat) (k : Pack) :
    (State.packGo p len seq n s pos k).1.held = s.held := by
  induction n generalizing s pos k with
  | zero => rfl
  | succ n ih => unfold State.packGo; dsimp only; (repeat' split) <;> simp [ih]
@[simp] theorem State.dropCorrupt_held (s : State) (p : Fin 16) : (s.dropCorrupt p).held = s.held := by
  simp [State.dropCorrupt]
@[simp] theorem State.slotNack_held (s : State) (p : Fin 16) (k : NackRun) : (s.slotNack p k).2.held = s.held := by
  simp [State.slotNack]
@[simp] theorem State.slotRelease_held (s : State) (p : Fin 16) : (s.slotRelease p).2.held = s.held := by
  simp [State.slotRelease]
@[simp] theorem State.slotSeg_held (s : State) (p : Fin 16) (ctr : Word) (bytes : List Byte) (k : Nat) : (s.slotSeg p ctr bytes k).2.held = s.held := by
  simp [State.slotSeg]
@[simp] theorem State.fillSlot_held (s : State) (p : Fin 16) : (s.fillSlot p).2.held = s.held := by
  unfold State.fillSlot; dsimp only
  (repeat' split) <;> simp
@[simp] theorem State.pamLine_held (s : State) (p : Fin 16) (m : LineMode) (word : List (BitVec 10)) : (s.pamLine p m word).held = s.held := by
  simp [State.pamLine]
@[simp] theorem State.dmtLine_held (s : State) (p : Fin 16) (word : List (BitVec 10)) : (s.dmtLine p word).held = s.held := by
  unfold State.dmtLine; dsimp only
  (repeat' split) <;> simp
@[simp] theorem State.lineBlock_held (s : State) (p : Fin 16) (m : LineMode) (bytes : List Byte) : (s.lineBlock p m bytes).held = s.held := by
  unfold State.lineBlock
  (repeat' split) <;> simp
@[simp] theorem State.emitBlock_held (s : State) (p : Fin 16) (m : LineMode) (type : Nat) (seq : Seq24) (ffp : BitVec 16) (payload : List Byte) (resent : Bool) : (s.emitBlock p m type seq ffp payload resent).held = s.held := by
  simp [State.emitBlock]
@[simp] theorem State.sendNew_held (s : State) (p : Fin 16) (m : LineMode) : (s.sendNew p m).held = s.held := by
  simp [State.sendNew]
@[simp] theorem State.sendResend_held (s : State) (p : Fin 16) (m : LineMode) (b : TxBlock) : (s.sendResend p m b).held = s.held := by
  simp [State.sendResend]
@[simp] theorem State.sendBlock_held (s0 : State) (p : Fin 16) : (State.sendBlock s0 p).held = s0.held := by
  unfold State.sendBlock; dsimp only
  (repeat' split) <;> simp
@[simp] theorem State.protoErr_held (s : State) (p : Fin 16) : (s.protoErr p).held = s.held := by
  simp [State.protoErr]
@[simp] theorem State.ackTo_held (s : State) (p : Fin 16) (a : Seq24) : (s.ackTo p a).held = s.held := by
  unfold State.ackTo; dsimp only
  (repeat' split) <;> simp
@[simp] theorem State.relTo_held (s : State) (p : Fin 16) (r : Seq24) : (s.relTo p r).held = s.held := by
  unfold State.relTo; dsimp only
  (repeat' split) <;> simp
@[simp] theorem State.nackTo_held (s : State) (p : Fin 16) (first : Seq24) (run : Nat) (room : Bool) : (s.nackTo p first run room).held = s.held := by
  simp [State.nackTo]
@[simp] theorem State.nackSync_held (s : State) (p : Fin 16) : (s.nackSync p).held = s.held := by
  simp [State.nackSync]
@[simp] theorem State.endFrame_held (s : State) (p : Fin 16) (b : HeldBlk) : (s.endFrame p b).held = s.held := by
  unfold State.endFrame; dsimp only
  (repeat' split) <;> simp
@[simp] theorem State.frameBytes_held (s : State) (p : Fin 16) (bs : List Byte) : (s.frameBytes p bs).held = s.held := by
  unfold State.frameBytes
  (repeat' split) <;> simp
theorem State.startFrame_held (s u : State) (p : Fin 16) (b : HeldBlk) (tag : Byte) (rsnd : Bool) (len : Nat) (h : u.held = s.held) :
    ((s.startFrame p b tag rsnd len).state u).held = s.held := by
  unfold State.startFrame; dsimp only
  (repeat' split) <;> simp [h]
@[simp] theorem State.framingError_held (s : State) (p : Fin 16) (seq : Seq24) : (s.framingError p seq).held = s.held := by
  unfold State.framingError
  (repeat' split) <;> simp
theorem State.walk_held (p : Fin 16) (b : HeldBlk) (n : Nat) (s u : State) (pos : Nat) (c r : Bool) (h : u.held = s.held) :
    ((State.walk p b n s pos c r).state u).held = s.held := by
  induction n generalizing s u pos c r with
  | zero => rfl
  | succ n ih =>
    unfold State.walk; dsimp only
    (repeat' split) <;> first
      | (simp [h]; done)
      | exact ih _ _ _ _ _ h
      | (rw [ih _ u _ _ _ (by simp [h])]; simp; done)
      | (rename_i he; have hs := State.startFrame_held s s p b (b.payload.getD pos 0) ((b.payload.getD (pos + 1) 0).getLsbD 7)
          (beAt b.payload (pos + 1) 2 % 2 ^ 14) rfl; rw [he] at hs
         exact (ih _ _ _ _ _ (h.trans hs.symm)).trans hs)
theorem State.extract_held (s u : State) (p : Fin 16) (b : HeldBlk) (h : u.held = s.held) : ((s.extract p b).state u).held = s.held := by
  unfold State.extract; dsimp only
  (repeat' split) <;> first
    | (simp [h]; done)
    | exact (State.walk_held _ _ _ _ _ _ _ _ (h.trans (by simp))).trans (by simp)
@[simp] theorem State.advance_held (p : Fin 16) (n : Nat) (s : State) : (State.advance p n s).held = s.held := by
  induction n generalizing s with
  | zero => rfl
  | succ n ih =>
    unfold State.advance; dsimp only
    split
    · rfl
    · rename_i b _
      have hx := State.extract_held s s p b rfl
      split <;> rename_i he <;> simp_all
@[simp] theorem State.rcvSync_held (s : State) (p : Fin 16) : (s.rcvSync p).held = s.held := by
  simp [State.rcvSync]
@[simp] theorem State.takeData_held (s : State) (p : Fin 16) (b : Blk) : (s.takeData p b).held = s.held := by
  unfold State.takeData; dsimp only
  (repeat' split) <;> simp
@[simp] theorem State.takeFill_held (s : State) (p : Fin 16) (b : Blk) : (s.takeFill p b).held = s.held := by
  simp [State.takeFill]
@[simp] theorem State.descrBlock_held (s : State) (p : Fin 16) : (s.descrBlock p).held = s.held := by
  unfold State.descrBlock
  (repeat' split) <;> simp
@[simp] theorem State.blockHead_held (s : State) (p : Fin 16) (b : Blk) : (s.blockHead p b).1.held = s.held := by
  unfold State.blockHead; dsimp only
  (repeat' split) <;> simp
@[simp] theorem State.failBlock_held (s : State) (p : Fin 16) : (s.failBlock p).held = s.held := by
  simp [State.failBlock]
@[simp] theorem State.freshReceiver_held (s : State) (p : Fin 16) (partner : Word) : (s.freshReceiver p partner).held = s.held := by
  unfold State.freshReceiver
  (repeat' split) <;> simp
@[simp] theorem State.freshSender_held (s : State) (p : Fin 16) : (s.freshSender p).held = s.held := by
  simp [State.freshSender]
@[simp] theorem State.recutBlocks_held (s : State) (p : Fin 16) : (s.recutBlocks p).held = s.held := by
  simp [State.recutBlocks]
@[simp] theorem State.resume_held (s : State) (p : Fin 16) (m : LineMode) (rxA rxR : Seq24) : (s.resume p m rxA rxR).held = s.held := by
  unfold State.resume; dsimp only
  (repeat' split) <;> simp
@[simp] theorem State.settleSession_held (s : State) (p : Fin 16) (m : LineMode) (b : Blk) : (s.settleSession p m b).held = s.held := by
  unfold State.settleSession; dsimp only
  (repeat' split) <;> simp
@[simp] theorem State.takeSync_held (s : State) (p : Fin 16) (b : Blk) : (s.takeSync p b).1.held = s.held := by
  unfold State.takeSync; dsimp only
  (repeat' split) <;> simp
@[simp] theorem State.syncLate_held (s : State) (p : Fin 16) : (s.syncLate p).held = s.held := by
  unfold State.syncLate; dsimp only
  (repeat' split) <;> simp

/-! ### Mailbox -/

@[simp] theorem State.answer_held (s : State) (c : Fin 16) (status : Nat) (words : List Word) (detail : Nat) : (s.answer c status words detail).held = s.held := by
  simp [State.answer]
@[simp] theorem State.answerWait_held (s : State) (f : LongCmd → Bool) (status : Nat) (words : List Word) (detail : Nat) : (s.answerWait f status words detail).held = s.held := by
  unfold State.answerWait
  (repeat' split) <;> simp

@[simp] theorem State.chainRun_held (s : State) (p : Fin 16) (m : LineMode) (q : LineMeasure) : (s.chainRun p m q).2.held = s.held := by
  simp [State.chainRun]
@[simp] theorem State.measure_held (s : State) (p : Fin 16) (q : LineMeasure) : (s.measure p q).2.held = s.held := by
  unfold State.measure; dsimp only
  (repeat' split) <;> simp
@[simp] theorem State.anStandard_held (s : State) (p : Fin 16) (r : AnPages) : (s.anStandard p r).held = s.held := by
  unfold State.anStandard; dsimp only
  (repeat' split) <;> simp
/-! ### LinkOps -/

@[simp] theorem State.anResolved_held (s : State) (p : Fin 16) (r : AnPages) : (s.anResolved p r).held = s.held := by
  unfold State.anResolved; dsimp only
  (repeat' split) <;> simp
@[simp] theorem State.anTimeout_held (s : State) (p : Fin 16) : (s.anTimeout p).held = s.held := by
  unfold State.anTimeout
  (repeat' split) <;> simp
@[simp] theorem State.stdTrained_held (s : State) (p : Fin 16) : (s.stdTrained p).held = s.held := by
  unfold State.stdTrained
  (repeat' split) <;> simp
@[simp] theorem State.stdFailed_held (s : State) (p : Fin 16) : (s.stdFailed p).held = s.held := by
  unfold State.stdFailed
  (repeat' split) <;> simp
@[simp] theorem State.listenEnd_held (s : State) (p : Fin 16) : (s.listenEnd p).held = s.held := by
  unfold State.listenEnd
  (repeat' split) <;> simp
@[simp] theorem State.soundIfAcked_held (s : State) (p : Fin 16) : (s.soundIfAcked p).held = s.held := by
  unfold State.soundIfAcked
  (repeat' split) <;> simp
@[simp] theorem State.answerBeacon_held (s : State) (p : Fin 16) : (s.answerBeacon p).held = s.held := by
  unfold State.answerBeacon; dsimp only
  (repeat' split) <;> simp
@[simp] theorem State.takeCap_held (s : State) (p : Fin 16) (c : CapCell) (mac : Word) (sf : Nat) : (s.takeCap p c mac sf).held = s.held := by
  unfold State.takeCap; dsimp only
  (repeat' split) <;> simp
@[simp] theorem State.discoverLate_held (s : State) (p : Fin 16) : (s.discoverLate p).held = s.held := by
  unfold State.discoverLate
  (repeat' split) <;> simp
@[simp] theorem State.announceMode_held (s : State) (p : Fin 16) : (s.announceMode p).held = s.held := by
  unfold State.announceMode
  (repeat' split) <;> simp
@[simp] theorem State.takeBurst_held (s : State) (p : Fin 16) (x : Sounding) (snr : Nat) : (s.takeBurst p x snr).held = s.held := by
  unfold State.takeBurst; dsimp only
  (repeat' split) <;> simp
@[simp] theorem State.burstMissing_held (s : State) (p : Fin 16) : (s.burstMissing p).held = s.held := by
  unfold State.burstMissing
  (repeat' split) <;> simp
@[simp] theorem State.soundLate_held (s : State) (p : Fin 16) : (s.soundLate p).held = s.held := by
  unfold State.soundLate
  (repeat' split) <;> simp
@[simp] theorem State.echoTurn_held (s : State) (p : Fin 16) : (s.echoTurn p).held = s.held := by
  unfold State.echoTurn; dsimp only
  (repeat' split) <;> simp
@[simp] theorem State.duplexEnd_held (s : State) (p : Fin 16) : (s.duplexEnd p).held = s.held := by
  unfold State.duplexEnd; dsimp only
  (repeat' split) <;> simp
@[simp] theorem State.takeGo_held (s : State) (p : Fin 16) (h : CellHdr) (c : GoCell) : (s.takeGo p h c).held = s.held := by
  simp [State.takeGo]
@[simp] theorem State.retrained_held (s : State) (p : Fin 16) : (s.retrained p).held = s.held := by
  unfold State.retrained
  (repeat' split) <;> simp
@[simp] theorem State.negate_held (s : State) (p : Fin 16) : (s.negate p).held = s.held := by
  simp [State.negate]
@[simp] theorem State.goReached_held (s : State) (p : Fin 16) : (s.goReached p).held = s.held := by
  unfold State.goReached; dsimp only
  (repeat' split) <;> simp
@[simp] theorem State.trainLate_held (s : State) (p : Fin 16) : (s.trainLate p).held = s.held := by
  unfold State.trainLate
  (repeat' split) <;> simp
@[simp] theorem State.holdOver_held (s : State) (p : Fin 16) : (s.holdOver p).held = s.held := by
  unfold State.holdOver
  (repeat' split) <;> simp
@[simp] theorem State.towpathLost_held (s : State) (p : Fin 16) : (s.towpathLost p).held = s.held := by
  unfold State.towpathLost
  (repeat' split) <;> simp
@[simp] theorem State.startTpsf_held (s : State) (p : Fin 16) (sf : Nat) (lchirp : Bool) : (s.startTpsf p sf lchirp).held = s.held := by
  simp [State.startTpsf]
@[simp] theorem State.sfSync_held (s : State) (p : Fin 16) : (s.sfSync p).held = s.held := by
  unfold State.sfSync; dsimp only
  (repeat' split) <;> simp
@[simp] theorem State.takeTpsf_held (s : State) (p : Fin 16) (h : CellHdr) (c : TpsfCell) : (s.takeTpsf p h c).held = s.held := by
  simp [State.takeTpsf]
@[simp] theorem State.sfReached_held (s : State) (p : Fin 16) : (s.sfReached p).held = s.held := by
  unfold State.sfReached
  (repeat' split) <;> simp
@[simp] theorem State.tpsfAgain_held (s : State) (p : Fin 16) : (s.tpsfAgain p).held = s.held := by
  unfold State.tpsfAgain
  (repeat' split) <;> simp
@[simp] theorem State.adaptSf_held (s : State) (p : Fin 16) : (s.adaptSf p).held = s.held := by
  unfold State.adaptSf; dsimp only
  (repeat' split) <;> simp
@[simp] theorem State.ladderStep_held (s : State) (p : Fin 16) (m : LineMode) (mse : Nat) : (s.ladderStep p m mse).held = s.held := by
  unfold State.ladderStep; dsimp only
  (repeat' split) <;> simp
@[simp] theorem State.reqTrigger_held (s : State) (p : Fin 16) (m : LineMode) (kind : Nat) : (s.reqTrigger p m kind).held = s.held := by
  unfold State.reqTrigger; dsimp only
  (repeat' split) <;> simp
@[simp] theorem State.runAsked_held (s : State) (p : Fin 16) : (s.runAsked p).held = s.held := by
  unfold State.runAsked; dsimp only
  (repeat' split) <;> simp
@[simp] theorem State.update1ms_held (s0 : State) (p : Fin 16) (q : LineMeasure) : (s0.update1ms p q).held = s0.held := by
  unfold State.update1ms; dsimp only
  (repeat' split) <;> simp
@[simp] theorem State.dropPend_held (s : State) (p : Fin 16) : (s.dropPend p).held = s.held := by
  unfold State.dropPend
  (repeat' split) <;> simp
@[simp] theorem State.takeShift_held (s : State) (p : Fin 16) (h : CellHdr) (c : ShiftCell) : (s.takeShift p h c).held = s.held := by
  unfold State.takeShift
  (repeat' split) <;> simp
@[simp] theorem State.reqInShift_held (s : State) (p : Fin 16) (sh : ShiftRec) (m : LineMode) (kind : Nat) : (s.reqInShift p sh m kind).held = s.held := by
  unfold State.reqInShift
  (repeat' split) <;> simp
@[simp] theorem State.takeShiftReq_held (s : State) (p : Fin 16) (h : CellHdr) (c : ShiftCell) : (s.takeShiftReq p h c).held = s.held := by
  unfold State.takeShiftReq; dsimp only
  split
  · exact State.withCellIf_held _ _ _ _ _ _ (fun t => by (repeat' split) <;> simp)
  · rfl
@[simp] theorem State.retrainEnd_held (s : State) (p : Fin 16) : (s.retrainEnd p).held = s.held := by
  unfold State.retrainEnd; dsimp only
  (repeat' split) <;> simp
@[simp] theorem State.notConverged_held (s : State) (p : Fin 16) : (s.notConverged p).held = s.held := by
  unfold State.notConverged
  (repeat' split) <;> simp
@[simp] theorem State.barOver_held (s : State) (p : Fin 16) (m : LineMode) : (s.barOver p m).held = s.held := by
  simp [State.barOver]
@[simp] theorem State.excludeMode_held (s : State) (p : Fin 16) (m : LineMode) : (s.excludeMode p m).held = s.held := by
  unfold State.excludeMode
  (repeat' split) <;> simp
@[simp] theorem State.reqChanged_held (s : State) (p : Fin 16) : (s.reqChanged p).held = s.held := by
  unfold State.reqChanged; dsimp only
  (repeat' split) <;> simp
@[simp] theorem State.polChanged_held (s : State) (p : Fin 16) (old : Word) : (s.polChanged p old).held = s.held := by
  unfold State.polChanged; dsimp only
  (repeat' split) <;> simp
@[simp] theorem State.writesAct_held (s : State) (p : Fin 16) (oldPol oldMode : Word) : (s.writesAct p oldPol oldMode).held = s.held := by
  unfold State.writesAct; dsimp only
  (repeat' split) <;> simp
@[simp] theorem State.afterShift_held (s : State) (p : Fin 16) : (s.afterShift p).held = s.held := by
  rw [State.afterShift.eq_def]
  cases (s.port p).link.state <;> cases (s.port p).link.wrOld <;> simp
@[simp] theorem State.wideBoundary_held (s : State) (p : Fin 16) : (s.wideBoundary p).held = s.held := by
  unfold State.wideBoundary; dsimp only
  (repeat' split) <;> simp
@[simp] theorem State.towSlot_held (s : State) (p : Fin 16) : (s.towSlot p).held = s.held := by
  unfold State.towSlot
  (repeat' split) <;> simp
@[simp] theorem State.forcedBy_held (s : State) (p : Fin 16) (m : LineMode) : (s.forcedBy p m).held = s.held := by
  unfold State.forcedBy
  (repeat' split) <;> simp
@[simp] theorem State.takeMode_held (s : State) (p : Fin 16) (h : CellHdr) (c : ModeCell) : (s.takeMode p h c).held = s.held := by
  unfold State.takeMode
  (repeat' split) <;> simp
@[simp] theorem State.exitAcked_held (s : State) (p : Fin 16) (xq : Word) (xchip : BitVec 16) : (s.exitAcked p xq xchip).held = s.held := by
  unfold State.exitAcked; dsimp only
  (repeat' split) <;> simp
@[simp] theorem State.ackedCell_held (s : State) (p : Fin 16) (e : AwaitCell) : (s.ackedCell p e).held = s.held := by
  unfold State.ackedCell; dsimp only
  (repeat' split) <;> simp
@[simp] theorem State.takeCack_held (s : State) (p : Fin 16) (h : CellHdr) (ctr : Word) (type : Byte) : (s.takeCack p h ctr type).held = s.held := by
  unfold State.takeCack; dsimp only
  (repeat' split) <;> simp
@[simp] theorem State.resendLate_held (s : State) (p : Fin 16) (ctr : Word) : (s.resendLate p ctr).held = s.held := by
  unfold State.resendLate
  (repeat' split) <;> simp
@[simp] theorem State.macFailed_held (s : State) (p : Fin 16) (type : Byte) : (s.macFailed p type).held = s.held := by
  unfold State.macFailed; dsimp only
  (repeat' split) <;> simp
@[simp] theorem State.nonceStart_held (s : State) (p : Fin 16) : (s.nonceStart p).held = s.held := by
  unfold State.nonceStart; dsimp only
  (repeat' split) <;> simp
@[simp] theorem State.takeNonce_held (s : State) (p : Fin 16) (h : CellHdr) (fresh : BitVec 48) : (s.takeNonce p h fresh).held = s.held := by
  simp [State.takeNonce]
@[simp] theorem State.nonceDrop_held (s : State) (p : Fin 16) : (s.nonceDrop p).held = s.held := by
  simp [State.nonceDrop]
@[simp] theorem State.takePilot_held (s : State) (p : Fin 16) (u : Int) (v : Int) (predicted : Int) : (s.takePilot p u v predicted).held = s.held := by
  unfold State.takePilot; dsimp only
  (repeat' split) <;> simp
/-! ### QuietOps -/

@[simp] theorem State.sendEnter_held (s : State) (p : Fin 16) (c : QuietCell) : (s.sendEnter p c).held = s.held := by
  unfold State.sendEnter; dsimp only
  (repeat' split) <;> simp
@[simp] theorem State.takeEnter_held (s : State) (p : Fin 16) (h : CellHdr) (c : QuietCell) : (s.takeEnter p h c).held = s.held := by
  simp [State.takeEnter]
@[simp] theorem State.takeExit_held (s : State) (p : Fin 16) (h : CellHdr) (c : QuietCell) : (s.takeExit p h c).held = s.held := by
  simp [State.takeExit]
@[simp] theorem State.takeAbort_held (s : State) (p : Fin 16) (h : CellHdr) : (s.takeAbort p h).held = s.held := by
  simp [State.takeAbort]
@[simp] theorem State.fillGroup_held (p : Fin 16) (n : Nat) (s : State) : (State.fillGroup p n s).held = s.held := by
  induction n generalizing s with
  | zero => rfl
  | succ n ih => simp [State.fillGroup, ih]
@[simp] theorem State.goQuiet_held (s0 : State) (p : Fin 16) (c : QuietCell) : (s0.goQuiet p c).held = s0.held := by
  simp [State.goQuiet]
@[simp] theorem State.entryPoint_held (s : State) (p : Fin 16) : (s.entryPoint p).held = s.held := by
  unfold State.entryPoint
  (repeat' split) <;> simp
@[simp] theorem State.exitPoint_held (s : State) (p : Fin 16) : (s.exitPoint p).held = s.held := by
  unfold State.exitPoint; dsimp only
  (repeat' split) <;> simp
@[simp] theorem State.earlyWake_held (s : State) (p : Fin 16) : (s.earlyWake p).held = s.held := by
  unfold State.earlyWake; dsimp only
  (repeat' split) <;> simp
@[simp] theorem State.deepEnd_held (s : State) (p : Fin 16) : (s.deepEnd p).held = s.held := by
  unfold State.deepEnd; dsimp only
  (repeat' split) <;> simp
@[simp] theorem State.wakeTrain_held (s : State) (p : Fin 16) : (s.wakeTrain p).held = s.held := by
  simp [State.wakeTrain]
@[simp] theorem State.markerLate_held (s : State) (p : Fin 16) : (s.markerLate p).held = s.held := by
  unfold State.markerLate; dsimp only
  (repeat' split) <;> simp
@[simp] theorem State.markerHeard_held (s : State) (p : Fin 16) : (s.markerHeard p).held = s.held := by
  unfold State.markerHeard; dsimp only
  (repeat' split) <;> simp
@[simp] theorem State.runDeferred_held (s : State) (p : Fin 16) : (s.runDeferred p).held = s.held := by
  unfold State.runDeferred
  (repeat' split) <;> simp
@[simp] theorem State.lpiEnter_held (s : State) (p : Fin 16) : (s.lpiEnter p).held = s.held := by
  unfold State.lpiEnter; dsimp only
  (repeat' split) <;> simp
@[simp] theorem State.lpiLeave_held (s : State) (p : Fin 16) : (s.lpiLeave p).held = s.held := by
  simp [State.lpiLeave]
@[simp] theorem State.partnerLpi_held (s : State) (p : Fin 16) (kind : Fin 3) : (s.partnerLpi p kind).held = s.held := by
  unfold State.partnerLpi; dsimp only
  (repeat' split) <;> simp
@[simp] theorem State.quietOff_held (s : State) (p : Fin 16) : (s.quietOff p).held = s.held := by
  unfold State.quietOff; dsimp only
  (repeat' split) <;> simp
@[simp] theorem State.quietWritten_held (s : State) (p : Fin 16) (old : Word) : (s.quietWritten p old).held = s.held := by
  unfold State.quietWritten
  (repeat' split) <;> simp

/-! ### LineOps -/

@[simp] theorem State.remAnswer_held (s : State) (p : Fin 16) (c : RemoteCell) (status : Nat) (arg : BitVec 128) : (s.remAnswer p c status arg).held = s.held := by
  simp [State.remAnswer]
@[simp] theorem State.remStop_held (s : State) (p : Fin 16) (c : RemoteCell) : (s.remStop p c).held = s.held := by
  unfold State.remStop
  (repeat' split) <;> simp
@[simp] theorem State.remStart_held (s : State) (p : Fin 16) (c : RemoteCell) : (s.remStart p c).held = s.held := by
  unfold State.remStart
  (repeat' split) <;> simp
@[simp] theorem State.remApp_held (s : State) (p : Fin 16) (c : RemoteCell) : (s.remApp p c).held = s.held := by
  simp [State.remApp]
@[simp] theorem State.remRequest_held (s : State) (p : Fin 16) (c : RemoteCell) : (s.remRequest p c).held = s.held := by
  unfold State.remRequest
  (repeat' split) <;> simp
@[simp] theorem State.remDone_held (s : State) (p : Fin 16) (c : RemoteCell) : (s.remDone p c).held = s.held := by
  simp [State.remDone]
@[simp] theorem State.takeRemote_held (s : State) (p : Fin 16) (h : CellHdr) (act : State → State) (hact : ∀ t, (act t).held = t.held) : (s.takeRemote p h act).held = s.held := by
  unfold State.takeRemote; try dsimp only
  (repeat' split) <;> first | (simp [*]; done) | (refine (foldl_held _ _ _ (fun t x => ?_)).trans (by simp [*]); (repeat' split) <;> simp [*])
@[simp] theorem State.remLate_held (s : State) (p : Fin 16) (req : BitVec 16) : (s.remLate p req).held = s.held := by
  simp [State.remLate]
@[simp] theorem State.remHostLate_held (s : State) (p : Fin 16) (req : BitVec 16) : (s.remHostLate p req).held = s.held := by
  unfold State.remHostLate
  (repeat' split) <;> simp
@[simp] theorem State.takeQuiet_held (s : State) (p : Fin 16) (h : CellHdr) (b : List Byte) : (s.takeQuiet p h b).held = s.held := by
  unfold State.takeQuiet
  (repeat' split) <;> simp
@[simp] theorem State.slotAct_held (s : State) (p : Fin 16) (h : CellHdr) (type : Byte) (pay : List Byte) : (s.slotAct p h type pay).held = s.held := by
  unfold State.slotAct
  (repeat' split) <;> simp
@[simp] theorem State.crcFailed_held (s : State) (p : Fin 16) : (s.crcFailed p).held = s.held := by
  simp [State.crcFailed]
@[simp] theorem State.slotCell_held (s : State) (p : Fin 16) (cell : Option (List Byte)) : (s.slotCell p cell).held = s.held := by
  unfold State.slotCell
  (repeat' split) <;> simp
@[simp] theorem State.onFailed_held (s : State) (p : Fin 16) : (s.onFailed p).held = s.held := by
  unfold State.onFailed
  (repeat' split) <;> simp
@[simp] theorem State.onData_held (s : State) (p : Fin 16) (b : Blk) : (s.onData p b).held = s.held := by
  unfold State.onData; dsimp only
  (repeat' split) <;> simp
@[simp] theorem State.onFill_held (s : State) (p : Fin 16) (b : Blk) : (s.onFill p b).held = s.held := by
  unfold State.onFill; dsimp only
  (repeat' split) <;> simp
@[simp] theorem State.onSync_held (s : State) (p : Fin 16) (b : Blk) : (s.onSync p b).held = s.held := by
  unfold State.onSync; dsimp only
  (repeat' split) <;> simp
@[simp] theorem State.onOther_held (s : State) (p : Fin 16) (b : Blk) : (s.onOther p b).held = s.held := by
  unfold State.onOther; dsimp only
  (repeat' split) <;> simp
@[simp] theorem State.lchirpBlock_held (s : State) (p : Fin 16) (bs : List Byte) : (s.lchirpBlock p bs).held = s.held := by
  unfold State.lchirpBlock
  (repeat' split) <;> simp
@[simp] theorem State.takeSegment_held (s : State) (p : Fin 16) (seg : Nat) (bytes : List Byte) : (s.takeSegment p seg bytes).held = s.held := by
  unfold State.takeSegment; dsimp only
  (repeat' split) <;> simp
@[simp] theorem State.nackDue_held (s : State) (p : Fin 16) : (s.nackDue p).held = s.held := by
  unfold State.nackDue
  (repeat' split) <;> simp
@[simp] theorem State.blockLate_held (s : State) (p : Fin 16) (seq : Seq24) : (s.blockLate p seq).held = s.held := by
  unfold State.blockLate; dsimp only
  (repeat' split) <;> simp
@[simp] theorem State.blockPeriod_held (s : State) (p : Fin 16) : (s.blockPeriod p).held = s.held := by
  unfold State.blockPeriod
  (repeat' split) <;> simp
@[simp] theorem State.reordCut_held (s : State) (p : Fin 16) : (s.reordCut p).held = s.held := by
  simp [State.reordCut]
@[simp] theorem State.blkCtrlWritten_held (s : State) (p : Fin 16) (old : Word) : (s.blkCtrlWritten p old).held = s.held := by
  unfold State.blkCtrlWritten; dsimp only
  (repeat' split) <;> simp

/-! ### RxOps -/

@[simp] theorem State.refreshSounding_held (s : State) (p : Fin 16) (x : Sounding) : (s.refreshSounding p x).held = s.held := by
  unfold State.refreshSounding
  (repeat' split) <;> simp
@[simp] theorem State.stepAgc_held (s : State) (p : Fin 16) (peak : Nat) : (s.stepAgc p peak).held = s.held := by
  unfold State.stepAgc
  (repeat' split) <;> simp
@[simp] theorem State.checkClusters_held (s : State) (p : Fin 16) : (s.checkClusters p).held = s.held := by
  unfold State.checkClusters; dsimp only
  (repeat' split) <;> simp
@[simp] theorem State.symbolSlipped_held (s : State) (p : Fin 16) (forward : Bool) : (s.symbolSlipped p forward).held = s.held := by
  unfold State.symbolSlipped
  (repeat' split) <;> simp
@[simp] theorem State.modPath_held (s : State) (r : Fin 4) (k : Fin 12) (f : XtPath → XtPath) : (s.modPath r k f).held = s.held := by
  simp [State.modPath]
@[simp] theorem State.allocOne_held (s : State) (r : Fin 4) (c : XtCand) : (s.allocOne r c).held = s.held := by
  unfold State.allocOne
  (repeat' split) <;> simp
@[simp] theorem State.recouple_held (s : State) (r : Fin 4) (l : List XtCand) : (s.recouple r l).held = s.held := by
  simp [State.recouple]
@[simp] theorem State.allocate_held (s : State) (r : Fin 4) (l : List XtCand) : (s.allocate r l).held = s.held := by
  unfold State.allocate; dsimp only
  (repeat' split) <;> simp
@[simp] theorem State.manualPath_held (s : State) (r : Fin 4) (k : Fin 12) : (s.manualPath r k).held = s.held := by
  simp [State.manualPath]
@[simp] theorem State.xtCtrlWritten_held (s : State) (r : Fin 4) (old : Word) : (s.xtCtrlWritten r old).held = s.held := by
  unfold State.xtCtrlWritten; dsimp only
  (repeat' split) <;> simp
@[simp] theorem State.xtPathWritten_held (s : State) (r : Fin 4) (k : Fin 12) : (s.xtPathWritten r k).held = s.held := by
  unfold State.xtPathWritten
  (repeat' split) <;> simp
@[simp] theorem State.rxCtrlWritten_held (s : State) (p : Fin 16) : (s.rxCtrlWritten p).held = s.held := by
  unfold State.rxCtrlWritten; dsimp only
  (repeat' split) <;> simp
@[simp] theorem State.sendMessage_held (s : State) (p : Fin 16) (g : Loading) (a : Word) : (s.sendMessage p g a).held = s.held := by
  simp [State.sendMessage]
@[simp] theorem State.sendTable_held (s : State) (p : Fin 16) (g : Loading) : (s.sendTable p g).held = s.held := by
  simp [State.sendTable]
@[simp] theorem State.dmtMeasure_held (s : State) (p : Fin 16) (symbols : List DmtSymbol) : (s.dmtMeasure p symbols).held = s.held := by
  simp [State.dmtMeasure]
@[simp] theorem State.goDue_held (s : State) (p : Fin 16) : (s.goDue p).held = s.held := by
  unfold State.goDue; dsimp only
  (repeat' split) <;> simp
@[simp] theorem State.dmtUpdate_held (s : State) (p : Fin 16) (symbols : List DmtSymbol) : (s.dmtUpdate p symbols).held = s.held := by
  unfold State.dmtUpdate; dsimp only
  (repeat' split) <;> simp
@[simp] theorem State.takeTable_held (s : State) (p : Fin 16) (m : List Byte) : (s.takeTable p m).held = s.held := by
  unfold State.takeTable; dsimp only
  (repeat' split) <;> simp
@[simp] theorem State.repeatTable_held (s : State) (p : Fin 16) : (s.repeatTable p).held = s.held := by
  unfold State.repeatTable
  (repeat' split) <;> simp
@[simp] theorem State.swapDone_held (s : State) (p : Fin 16) : (s.swapDone p).held = s.held := by
  simp [State.swapDone]
@[simp] theorem State.bitswap_held (s : State) (p : Fin 16) (sending : Bool) (points : List (Int × Int)) : (s.bitswap p sending points).held = s.held := by
  unfold State.bitswap; dsimp only
  (repeat' split) <;> simp
@[simp] theorem State.dmtCtrlWritten_held (s : State) (p : Fin 16) (old : Word) : (s.dmtCtrlWritten p old).held = s.held := by
  unfold State.dmtCtrlWritten; dsimp only
  (repeat' split) <;> simp
@[simp] theorem State.forceCarrier_held (s : State) (p : Fin 16) (i b : Nat) : (s.forceCarrier p i b).held = s.held := by
  unfold State.forceCarrier
  (repeat' split) <;> simp

/-! ### TimeOps -/

@[simp] theorem State.noteLate_held (s : State) (e : Nat) : (s.noteLate e).held = s.held := by
  simp [State.noteLate]
@[simp] theorem State.noteDropped_held (s : State) (e : Nat) : (s.noteDropped e).held = s.held := by
  simp [State.noteDropped]
@[simp] theorem State.putCal_held (s : State) (e : Nat) (x : CalEntry) : (s.putCal e x).held = s.held := by
  simp [State.putCal]
@[simp] theorem State.delCal_held (s : State) (e : Nat) : (s.delCal e).held = s.held := by
  simp [State.delCal]
@[simp] theorem State.rearm_held (e n : Nat) (s : State) (x : CalEntry) : (State.rearm e n s x).held = s.held := by
  induction n generalizing s x with
  | zero => unfold State.rearm; simp
  | succ n ih => unfold State.rearm; dsimp only; (repeat' split) <;> simp [ih]
@[simp] theorem State.accept_held (s : State) (x : CalEntry) : (s.accept x).2.2.held = s.held := by
  unfold State.accept; dsimp only
  (repeat' split) <;> simp
@[simp] theorem State.instantActs_held (s : State) (e : Nat) (x : CalEntry) : (s.instantActs e x).held = s.held := by
  simp [State.instantActs]
@[simp] theorem State.windowOpens_held (s : State) (e : Nat) (x : CalEntry) : (s.windowOpens e x).held = s.held := by
  simp [State.windowOpens]
@[simp] theorem State.stepEntry_held (old : Nat) (s : State) (e : Nat × CalEntry) : (State.stepEntry old s e).held = s.held := by
  unfold State.stepEntry; dsimp only
  (repeat' split) <;> simp
@[simp] theorem State.loadTime_held (s : State) (new : Nat) : (s.loadTime new).held = s.held := by
  simp [State.loadTime]
@[simp] theorem State.stepTime_held (s : State) (ns : Int) : (s.stepTime ns).held = s.held := by
  simp [State.stepTime]
@[simp] theorem State.startSlew_held (s : State) (ns : Int) : (s.startSlew ns).held = s.held := by
  simp [State.startSlew]
@[simp] theorem State.endSlew_held (s : State) : (s.endSlew).held = s.held := by
  unfold State.endSlew
  (repeat' split) <;> simp
@[simp] theorem State.loadAnswered_held (s : State) (c : Fin 16) (new : Nat) : (s.loadAnswered c new).held = s.held := by
  simp [State.loadAnswered]
theorem State.loads_held (s : State) (l : List (Nat × Nat)) (ago : Nat) :
    (l.foldl (fun (t : State) e => t.loadAnswered (Fin.ofNat 16 e.2) (e.1 + ago)) s).held = s.held := foldl_held _ _ _ (fun t e => by simp)
@[simp] theorem State.tsync_held (s : State) (tenths : Nat) : (s.tsync tenths).held = s.held := by
  simp only [State.tsync]
  split
  · rw [State.count_held]
  · rw [State.loads_held, held_mk, State.count_held, held_mk]
@[simp] theorem State.markRise_held (s : State) : (s.markRise).held = s.held := by
  unfold State.markRise
  (repeat' split) <;> simp
@[simp] theorem State.markFall_held (s : State) : (s.markFall).held = s.held := by
  unfold State.markFall
  (repeat' split) <;> simp
@[simp] theorem State.timeReqDue_held (s : State) (p : Fin 16) : (s.timeReqDue p).held = s.held := by
  unfold State.timeReqDue
  (repeat' split) <;> simp
@[simp] theorem State.takeTimeReq_held (s : State) (p : Fin 16) (h : CellHdr) (s2 : Word) (t4 : Nat) : (s.takeTimeReq p h s2 t4).held = s.held := by
  unfold State.takeTimeReq; dsimp only
  split
  · rfl
  · exact State.withCell_held _ _ _ _ _ (fun t => by (repeat' split) <;> simp)
@[simp] theorem State.discipline_held (s : State) (th : Int) : (s.discipline th).held = s.held := by
  unfold State.discipline
  (repeat' split) <;> simp
@[simp] theorem State.takeTimeSync_held (s : State) (p : Fin 16) (h : CellHdr) (c : TimeSyncCell) (t2 t3 : Nat) :
    (s.takeTimeSync p h c t2 t3).held = s.held := by
  unfold State.takeTimeSync; dsimp only
  split
  · rfl
  · exact State.withCell_held _ _ _ _ _ (fun t => by (repeat' split) <;> simp)
@[simp] theorem State.noSource_held (s : State) (p : Fin 16) : (s.noSource p).held = s.held := by
  unfold State.noSource
  (repeat' split) <;> simp
@[simp] theorem State.endLearn_held (s : State) (e status : Nat) (words : List Word) : (s.endLearn e status words).held = s.held := by
  simp [State.endLearn]
@[simp] theorem State.learnDone_held (s : State) (e : Nat) (b : List Nat) : (s.learnDone e b).held = s.held := by
  unfold State.learnDone
  (repeat' split) <;> simp
@[simp] theorem State.learnLate_held (s : State) (e : Nat) : (s.learnLate e).held = s.held := by
  unfold State.learnLate
  (repeat' split) <;> simp
@[simp] theorem State.slotWaits_held (s : State) (p : Fin 16) (test wait : Bool) : (s.slotWaits p test wait).held = s.held := by
  simp [State.slotWaits]
@[simp] theorem State.placeSlice_held (s : State) (p : Fin 16) (test whole : Bool) (us : Nat) : (s.placeSlice p test whole us).held = s.held := by
  unfold State.placeSlice
  (repeat' split) <;> simp
@[simp] theorem State.dropSlices_held (s : State) (p : Fin 16) (test : Bool) : (s.dropSlices p test).held = s.held := by
  simp [State.dropSlices]

/-! ### CalOps -/

@[simp] theorem State.modCal_held (s : State) (p : Fin 16) (f : PortCal → PortCal) : (s.modCal p f).held = s.held := by
  simp [State.modCal]
@[simp] theorem State.startItems_held (s : State) (p : Fin 16) (single : Bool) : (s.startItems p single).held = s.held := by
  unfold State.startItems
  (repeat' split) <;> simp
@[simp] theorem State.calAnswer_held (s : State) : (s.calAnswer).held = s.held := by
  unfold State.calAnswer
  refine (foldl_held _ _ _ (fun t x => ?_)).trans (by simp)
  (repeat' split) <;> simp
@[simp] theorem State.calTell_held (s : State) (p : Option (Fin 16)) (r : Option (Fin 4)) (pass : Bool) : (s.calTell p r pass).held = s.held := by
  simp [State.calTell]
@[simp] theorem State.reachDone_held (s : State) (r : Fin 4) : (s.reachDone r).held = s.held := by
  unfold State.reachDone
  (repeat' split) <;> simp
@[simp] theorem State.startReach_held (s : State) (r : Fin 4) : (s.startReach r).held = s.held := by
  unfold State.startReach; dsimp only
  split
  · rfl
  · rw [State.reachDone_held]
    exact foldl_held_of (fun t p => by split <;> simp) (by (repeat' split) <;> simp)
@[simp] theorem State.requestReach_held (s : State) (r : Fin 4) : (s.requestReach r).held = s.held := by
  unfold State.requestReach
  (repeat' split) <;> simp
@[simp] theorem State.runPort_held (s : State) (p : Fin 16) : (s.runPort p).held = s.held := by
  unfold State.runPort
  (repeat' split) <;> simp
@[simp] theorem State.enableRun_held (s : State) (p : Fin 16) : (s.enableRun p).held = s.held := by
  unfold State.enableRun
  (repeat' split) <;> simp
@[simp] theorem State.startPending_held (s : State) : (s.startPending).held = s.held := by
  unfold State.startPending
  refine (foldl_held _ _ _ (fun t x => ?_)).trans (by simp)
  (repeat' split) <;> simp
@[simp] theorem State.judgeAnchor_held (s : State) (ok : Bool) : (s.judgeAnchor ok).held = s.held := by
  unfold State.judgeAnchor; dsimp only
  (repeat' split) <;> simp
@[simp] theorem State.applySet_held (s : State) (p : Fin 16) (c : CalSet) : (s.applySet p c).held = s.held := by
  simp [State.applySet]
@[simp] theorem State.finishRun_held (s : State) (p : Fin 16) (m : CalMeasure) : (s.finishRun p m).held = s.held := by
  unfold State.finishRun; dsimp only
  (repeat' split) <;> simp
@[simp] theorem State.anchorAlone_held (s : State) (p : Fin 16) (m : CalMeasure) : (s.anchorAlone p m).held = s.held := by
  unfold State.anchorAlone
  (repeat' split) <;> simp
@[simp] theorem State.sliceDone_held (s : State) (p : Fin 16) (m : CalMeasure) : (s.sliceDone p m).held = s.held := by
  unfold State.sliceDone; dsimp only
  (repeat' split) <;> simp
@[simp] theorem State.portRunDone_held (s : State) (p : Fin 16) (m : CalMeasure) : (s.portRunDone p m).held = s.held := by
  unfold State.portRunDone
  (repeat' split) <;> simp
@[simp] theorem State.retryRun_held (s : State) (p : Fin 16) : (s.retryRun p).held = s.held := by
  unfold State.retryRun; dsimp only
  (repeat' split) <;> simp
@[simp] theorem State.maxWait_held (s : State) (p : Fin 16) : (s.maxWait p).held = s.held := by
  unfold State.maxWait
  (repeat' split) <;> simp
@[simp] theorem State.abandonRun_held (s : State) (p : Fin 16) : (s.abandonRun p).held = s.held := by
  unfold State.abandonRun
  (repeat' split) <;> simp
@[simp] theorem State.calFollow_held (old s : State) (p : Fin 16) : (State.calFollow old s p).held = s.held := by
  unfold State.calFollow; dsimp only
  (repeat' split) <;> first | rfl | simp
@[simp] theorem State.abandonAll_held (s : State) (keep : Bool) : (s.abandonAll keep).held = s.held := by
  simp [State.abandonAll]
@[simp] theorem State.calCtrlWritten_held (s : State) : (s.calCtrlWritten).held = s.held := by
  unfold State.calCtrlWritten
  (repeat' split) <;> simp
@[simp] theorem State.calOvrWritten_held (s : State) (old : Word) : (s.calOvrWritten old).held = s.held := by
  unfold State.calOvrWritten; dsimp only
  rw [State.startPending_held]
  exact foldl_held_of (fun t p => by (repeat' split) <;> simp) (by simp)
@[simp] theorem State.thermalMove_held (s : State) (old : Nat) (sensor : Fin 5) : (s.thermalMove old sensor).held = s.held := by
  unfold State.thermalMove; try dsimp only
  (repeat' split) <;> first | (simp [*]; done) | (refine (foldl_held _ _ _ (fun t x => ?_)).trans (by simp [*]); (repeat' split) <;> simp [*])
@[simp] theorem State.readTemps_held (s : State) (v : Vector Int 5) : (s.readTemps v).held = s.held := by
  simp [State.readTemps]
@[simp] theorem State.moveLevels_held (s : State) : (s.moveLevels).held = s.held := by
  simp [State.moveLevels]
@[simp] theorem State.tempTrigger_held (s : State) (r : Fin 4) : (s.tempTrigger r).held = s.held := by
  unfold State.tempTrigger
  (repeat' split) <;> simp
@[simp] theorem State.sampleTemp_held (s : State) (v : Vector Int 5) : (s.sampleTemp v).held = s.held := by
  simp [State.sampleTemp]
@[simp] theorem State.thermalStep_held (s : State) : (s.thermalStep).held = s.held := by
  unfold State.thermalStep
  (repeat' split) <;> simp

/-! ### DiagOps -/

@[simp] theorem State.modTdr_held (s : State) (p : Fin 16) (f : Tdr → Tdr) : (s.modTdr p f).held = s.held := by
  simp [State.modTdr]
@[simp] theorem State.tdrOver_held (s : State) (p : Fin 16) : (s.tdrOver p).held = s.held := by
  unfold State.tdrOver
  (repeat' split) <;> simp
@[simp] theorem State.tdrAbandon_held (s : State) (p : Fin 16) (result : Nat) : (s.tdrAbandon p result).held = s.held := by
  unfold State.tdrAbandon
  (repeat' split) <;> simp
@[simp] theorem State.tdrStart_held (s : State) (p : Fin 16) (prof avg thr : Nat) : (s.tdrStart p prof avg thr).held = s.held := by
  unfold State.tdrStart
  (repeat' split) <;> simp
@[simp] theorem State.tdrBurst_held (s : State) (p : Fin 16) (heard : Bool) : (s.tdrBurst p heard).held = s.held := by
  simp [State.tdrBurst]
@[simp] theorem State.tdrListen_held (s : State) (p : Fin 16) (heard : Bool) : (s.tdrListen p heard).held = s.held := by
  unfold State.tdrListen; dsimp only
  (repeat' split) <;> simp
@[simp] theorem State.tdrDone_held (s : State) (p : Fin 16) (peaks : List TdrPeak) (wide narrow : List (BitVec 16)) : (s.tdrDone p peaks wide narrow).held = s.held := by
  unfold State.tdrDone; dsimp only
  (repeat' split) <;> simp
@[simp] theorem State.modWatch_held (s : State) (p : Fin 16) (f : Watch → Watch) : (s.modWatch p f).held = s.held := by
  simp [State.modWatch]
@[simp] theorem State.watchEvent_held (s : State) (p : Fin 16) (fig : Nat) (old new : WatchCount) (v dist : Nat) : (s.watchEvent p fig old new v dist).held = s.held := by
  unfold State.watchEvent
  (repeat' split) <;> simp
@[simp] theorem State.watchEvents_held (s : State) (p : Fin 16) (o : Watch) (f : WatchFigures) : (s.watchEvents p o f).held = s.held := by
  simp [State.watchEvents]
@[simp] theorem State.capture_held (s : State) (p : Fin 16) : (s.capture p).held = s.held := by
  simp [State.capture]
@[simp] theorem State.refCheck_held (s : State) (p : Fin 16) : (s.refCheck p).held = s.held := by
  unfold State.refCheck; dsimp only
  (repeat' split) <;> simp
@[simp] theorem State.watchEval_held (s : State) (p : Fin 16) (seen : Bool) (f : WatchFigures) : (s.watchEval p seen f).held = s.held := by
  unfold State.watchEval; dsimp only
  (repeat' split) <;> simp
@[simp] theorem State.autoCapture_held (s : State) (p : Fin 16) : (s.autoCapture p).held = s.held := by
  unfold State.autoCapture; dsimp only
  (repeat' split) <;> simp
@[simp] theorem State.captureDone_held (s : State) (p : Fin 16) (x : Sounding) : (s.captureDone p x).held = s.held := by
  unfold State.captureDone; dsimp only
  (repeat' split) <;> simp
@[simp] theorem State.clearRef_held (s : State) (p : Fin 16) : (s.clearRef p).held = s.held := by
  simp [State.clearRef]
@[simp] theorem State.captureLate_held (s : State) (p : Fin 16) : (s.captureLate p).held = s.held := by
  simp [State.captureLate]
@[simp] theorem State.watchCtrlWritten_held (s : State) (p : Fin 16) (old : Word) : (s.watchCtrlWritten p old).held = s.held := by
  unfold State.watchCtrlWritten
  (repeat' split) <;> simp

/-! ### KeeperOps -/

@[simp] theorem State.ownOne_held (s : State) (b : Nat) : (s.ownOne b).held = s.held := by
  unfold State.ownOne
  (repeat' split) <;> simp
@[simp] theorem State.own_held (s : State) (bs : List Nat) : (s.own bs).held = s.held := by
  simp [State.own]
@[simp] theorem State.noteCopy_held (s : State) (key : Nat) : (s.noteCopy key).held = s.held := by
  unfold State.noteCopy
  (repeat' split) <;> simp
@[simp] theorem State.restartChan_held (s : State) (c : Fin 16) : (s.restartChan c).held = s.held := by
  unfold State.restartChan
  (repeat' split) <;> simp
@[simp] theorem State.controlPlane_held (s : State) (cause : Nat) : (s.controlPlane cause).held = s.held := by
  unfold State.controlPlane; dsimp only
  (repeat' split) <;> simp
@[simp] theorem State.keeperFault_held (s : State) (cause : Nat) : (s.keeperFault cause).held = s.held := by
  unfold State.keeperFault
  (repeat' split) <;> simp
@[simp] theorem State.releaseKeeper_held (s : State) : (s.releaseKeeper).held = s.held := by
  simp [State.releaseKeeper]
@[simp] theorem State.restoreRefs_held (s : State) (b : JournalBody) : (s.restoreRefs b).held = s.held := by
  simp [State.restoreRefs]
@[simp] theorem State.restoreDowns_held (s : State) (b : JournalBody) : (s.restoreDowns b).held = s.held := by
  simp [State.restoreDowns]
@[simp] theorem State.initialSets_held (s : State) (from_ : Fin 16 → Option CalSet) : (s.initialSets from_).held = s.held := by
  unfold State.initialSets
  refine (foldl_held _ _ _ (fun t x => ?_)).trans (by simp)
  (repeat' split) <;> simp [*]
@[simp] theorem State.restoreJournal_held (s : State) (campion yarrow : Option Word) : (s.restoreJournal campion yarrow).held = s.held := by
  unfold State.restoreJournal; dsimp only
  (repeat' split) <;> simp
@[simp] theorem State.dropKeyed_held (s : State)  : (s.dropKeyed ).held = s.held := by
  unfold State.dropKeyed
  refine (foldl_held _ _ _ (fun t x => ?_)).trans (by simp)
  (repeat' split) <;> simp [*]
@[simp] theorem State.journalTarget_held (s : State) : s.journalTarget.2.held = s.held := by
  unfold State.journalTarget; dsimp only
  split <;> simp
@[simp] theorem State.startCommit_held (s : State) (auto_ : Bool) : (s.startCommit auto_).held = s.held := by
  simp [State.startCommit]
@[simp] theorem State.autoCommit_held (s : State) : (s.autoCommit).held = s.held := by
  unfold State.autoCommit; dsimp only
  (repeat' split) <;> simp
@[simp] theorem State.nextCommit_held (s : State) : (s.nextCommit).held = s.held := by
  unfold State.nextCommit
  (repeat' split) <;> simp
@[simp] theorem State.commitDone_held (s : State) (ok : Bool) : (s.commitDone ok).held = s.held := by
  unfold State.commitDone; dsimp only
  (repeat' split) <;> simp

/-! ### SupOps -/

@[simp] theorem State.portReset_held (s : State) (p : Fin 16) : (s.portReset p).held = s.held := by
  unfold State.portReset
  exact (State.modPort_held _ _ _).trans ((State.takeDown_held _ _ _).trans (State.tdrAbandon_held _ _ _))
@[simp] theorem State.reachDown_held (s : State) (r : Fin 4) : (s.reachDown r).held = s.held := by
  simp [State.reachDown]
@[simp] theorem State.laneCleared_held (s : State) (n : Fin 8) (cause : Nat) : (s.laneCleared n cause).held = s.held := by
  simp [State.laneCleared]
@[simp] theorem State.laneReset_held (s : State) (n : Fin 8) : (s.laneReset n).held = s.held := by
  simp [State.laneReset]
@[simp] theorem State.lanesDown_held (s : State) (cause : Nat) : (s.lanesDown cause).held = s.held := by
  unfold State.lanesDown
  refine (foldl_held _ _ _ (fun t x => ?_)).trans (by simp)
  (repeat' split) <;> simp
@[simp] theorem State.restartHeld_held (s : State) (cause : Nat) (l : List (Fin 16)) : (s.restartHeld cause l).held = s.held := by
  unfold State.restartHeld
  refine (foldl_held _ _ _ (fun t x => ?_)).trans (by simp)
  (repeat' split) <;> simp
@[simp] theorem State.sequence_held (s : State) : (s.sequence).held = s.held := by
  simp [State.sequence]
@[simp] theorem State.bankBack_held (s : State) (d : Nat) : (s.bankBack d).held = s.held := by
  unfold State.bankBack
  split
  · exact State.setBank_held _ _ _
  · rfl
@[simp] theorem State.usable_held (s : State) (d : Nat) : (s.usable d).held = s.held := by
  unfold State.usable
  split
  · exact (State.bankBack_held _ _).trans rfl
  · rfl
@[simp] theorem State.forceSync_held (s : State) (p : Fin 16) : (s.forceSync p).held = s.held := by
  unfold State.forceSync
  (repeat' split) <;> simp
@[simp] theorem State.followPort_held (old s : State) (p : Fin 16) : (State.followPort old s p).held = s.held := by
  unfold State.followPort
  rw [State.calFollow_held]; split <;> first | rfl | simp
@[simp] theorem State.followAll_held (old s : State) : (State.followAll old s).held = s.held := by
  simp [State.followAll]
@[simp] theorem State.forceBank_held (s : State) (b : Fin 68) (off : Bool) : (s.forceBank b off).held = s.held := by
  unfold State.forceBank
  (repeat' split) <;> simp

@[simp] theorem State.releaseHeld_held (s : State) (p : Fin 16) : (s.releaseHeld p).held = s.held := by
  unfold State.releaseHeld
  (repeat' split) <;> simp
/-! ### TestOps -/

@[simp] theorem State.capture48_held (s : State) : (s.capture48).held = s.held := by
  unfold State.capture48
  (repeat' split) <;> simp
@[simp] theorem State.takeSnapshot_held (s : State) : (s.takeSnapshot).held = s.held := by
  unfold State.takeSnapshot; dsimp only
  (repeat' split) <;> simp
@[simp] theorem State.snapshotDone_held (s : State) : (s.snapshotDone).held = s.held := by
  unfold State.snapshotDone
  (repeat' split) <;> simp
@[simp] theorem State.bufWritten_held (s : State) : (s.bufWritten).held = s.held := by
  simp [State.bufWritten]
@[simp] theorem State.tagWritten_held (s : State) (old : Word) : (s.tagWritten old).held = s.held := by
  unfold State.tagWritten; dsimp only
  (repeat' split) <;> simp
@[simp] theorem State.seedWritten_held (s : State) : (s.seedWritten).held = s.held := by
  simp [State.seedWritten]
@[simp] theorem State.rotate_held (s : State) (b : Fin 68) (chan : Option Nat) : (s.rotate b chan).held = s.held := by
  unfold State.rotate
  (repeat' split) <;> simp
@[simp] theorem State.tryRotate_held (s : State) : (s.tryRotate).held = s.held := by
  unfold State.tryRotate
  (repeat' split) <;> simp
@[simp] theorem State.marchInterval_held (s : State) : (s.marchInterval).held = s.held := by
  unfold State.marchInterval
  (repeat' split) <;> simp
@[simp] theorem State.waitingRotation_held (s : State) : (s.waitingRotation).held = s.held := by
  unfold State.waitingRotation
  (repeat' split) <;> simp
@[simp] theorem State.copyDone_held (s : State) (b : Fin 68) : (s.copyDone b).held = s.held := by
  unfold State.copyDone
  split
  · rename_i tg l _
    have key : (List.foldl (fun (t : State) (c : Fin 68) => if c.val = tg then t.setBank c (.inService l) else t) s (List.finRange 68)).held = s.held :=
      foldl_held _ _ _ (fun t c => by split <;> simp)
    dsimp only
    split
    · exact (held_mk _ _ _ _ _ _ _ _ _ _ _ _ _ _ _ _ _ _ _ _ _ _ _ _ _ _ _ _ _ _ _ _ _).trans ((State.setBank_held _ _ _).trans key)
    · exact (State.waitingRotation_held _).trans ((State.raise_held _ _ _ _ _ _ _ _).trans ((State.setBank_held _ _ _).trans key))
  · rfl
@[simp] theorem State.bistAnswer_held (s : State) (c : Fin 16) (kind : Nat) (fail : Bool) (detail : Word) : (s.bistAnswer c kind fail detail).held = s.held := by
  simp [State.bistAnswer]
@[simp] theorem State.marchDone_held (s : State) (bad : Option Nat) : (s.marchDone bad).held = s.held := by
  unfold State.marchDone; dsimp only
  (repeat' split) <;> simp
@[simp] theorem State.modTest_held (s : State) (p : Fin 16) (f : PortTest → PortTest) : (s.modTest p f).held = s.held := by
  simp [State.modTest]
@[simp] theorem State.markElement_held (s : State) (p : Fin 16) (e : Element) : (s.markElement p e).held = s.held := by
  simp [State.markElement]
@[simp] theorem State.testItems_held (s : State) (p : Fin 16) (i j : Nat) (failing : List Element) : (s.testItems p i j failing).held = s.held := by
  unfold State.testItems; try dsimp only
  (repeat' split) <;> first | (simp [*]; done) | (refine (foldl_held _ _ _ (fun t x => ?_)).trans (by simp [*]); (repeat' split) <;> simp [*])
@[simp] theorem State.testRun_held (s : State) (p : Fin 16) (j : Nat) (failing : List Element) : (s.testRun p j failing).held = s.held := by
  unfold State.testRun; dsimp only
  (repeat' split) <;> simp
@[simp] theorem State.testNext_held (s : State) (p : Fin 16) (failing : List Element) : (s.testNext p failing).held = s.held := by
  unfold State.testNext
  (repeat' split) <;> simp
@[simp] theorem State.startTest_held (s : State) (p : Fin 16) (failing : List Element) : (s.startTest p failing).held = s.held := by
  unfold State.startTest
  (repeat' split) <;> simp
@[simp] theorem State.testInterval_held (s : State) (p : Fin 16) (failing : List Element) : (s.testInterval p failing).held = s.held := by
  unfold State.testInterval; dsimp only
  (repeat' split) <;> simp
@[simp] theorem State.testSliceEnds_held (s : State) (p : Fin 16) (failing : List Element) : (s.testSliceEnds p failing).held = s.held := by
  unfold State.testSliceEnds
  (repeat' split) <;> simp
@[simp] theorem State.abandonTests_held (s : State) : (s.abandonTests).held = s.held := by
  simp [State.abandonTests]
@[simp] theorem State.startLoop_held (s : State) (p : Fin 16) : (s.startLoop p).held = s.held := by
  unfold State.startLoop
  (repeat' split) <;> simp
@[simp] theorem State.loopDone_held (s : State) (p : Fin 16) (errors : Nat) : (s.loopDone p errors).held = s.held := by
  unfold State.loopDone; dsimp only
  (repeat' split) <;> simp
@[simp] theorem State.lbistHold_held (s : State) : (s.lbistHold).held = s.held := by
  unfold State.lbistHold
  (repeat' split) <;> simp
@[simp] theorem State.quietOpens_held (s : State) (p : Fin 16) (e : CalEntry) : (s.quietOpens p e).held = s.held := by
  unfold State.quietOpens; dsimp only
  (repeat' split) <;> simp
@[simp] theorem State.windowStarts_held (s : State) (e : Nat) : (s.windowStarts e).held = s.held := by
  unfold State.windowStarts
  (repeat' split) <;> simp
@[simp] theorem State.quietResumes_held (s : State) (p : Fin 16) : (s.quietResumes p).held = s.held := by
  unfold State.quietResumes
  (repeat' split) <;> simp
@[simp] theorem State.windowStops_held (s : State) (e : Nat) (failing : List Element) : (s.windowStops e failing).held = s.held := by
  unfold State.windowStops
  (repeat' split) <;> simp
@[simp] theorem State.hostEvent_held (s : State) (e : Nat) : (s.hostEvent e).held = s.held := by
  unfold State.hostEvent
  (repeat' split) <;> simp
@[simp] theorem State.tmarkPulse_held (s : State) (e : Nat) : (s.tmarkPulse e).held = s.held := by
  unfold State.tmarkPulse
  (repeat' split) <;> simp
@[simp] theorem State.retrySlices_held (s : State) (failing : List Element) : (s.retrySlices failing).held = s.held := by
  unfold State.retrySlices
  exact foldl_held _ _ _ (fun t e => by dsimp only; (repeat' split) <;> simp)
@[simp] theorem State.tapEdge_held (s : State) (trstN : Bool) (tms : Bool) (tdi : Bool) : (s.tapEdge trstN tms tdi).held = s.held := by
  unfold State.tapEdge; dsimp only
  (repeat' split) <;> simp
/-! ### StreamOps -/

theorem State.openStream_held (s : State) (q : Queue) (k : Bool) : ∀ t, s.openStream q k = .ok t → t.held = s.held := by
  intro t h
  unfold State.openStream at h; dsimp only at h
  (repeat' split at h) <;> simp at h
  subst h; simp
theorem State.modifyStream_held (s : State) (q : Queue) (k : Bool) : ∀ t, s.modifyStream q k = .ok t → t.held = s.held := by
  intro t h
  unfold State.modifyStream at h; dsimp only at h
  (repeat' split at h) <;> simp at h
  subst h; simp
@[simp] theorem State.closeStream_held (s : State) (q : Nat) (purge : Bool) (c : Fin 16) : (s.closeStream q purge c).held = s.held := by
  simp [State.closeStream]
@[simp] theorem State.closeDone_held (s : State) (q : Nat) : (s.closeDone q).held = s.held := by
  unfold State.closeDone
  (repeat' split) <;> simp
@[simp] theorem State.scrub_held (s : State) (b : Fin 68) (corrected uncorrectable : Nat) (hit : Option (Fin 4096 × Seq16)) : (s.scrub b corrected uncorrectable hit).held = s.held := by
  unfold State.scrub; dsimp only
  (repeat' split) <;> simp
@[simp] theorem State.rehome_held (s : State) (l : Nat) (t : Ticket) : (s.rehome l t).held = s.held := by
  unfold State.rehome; dsimp only
  (repeat' split) <;> simp
@[simp] theorem State.migrated_held (s : State) (b : Fin 68) : (s.migrated b).held = s.held := by
  unfold State.migrated
  (repeat' split) <;> simp
@[simp] theorem State.moveOff_held (s : State) (q : Nat) (n : Option (Fin 8)) : (s.moveOff q n).held = s.held := by
  unfold State.moveOff
  (repeat' split) <;> simp
@[simp] theorem State.maskWritten_held (s : State) (old : Word) : (s.maskWritten old).held = s.held := by
  unfold State.maskWritten; dsimp only
  (repeat' split) <;> simp
@[simp] theorem State.basinWritten_held (s : State) (r : BasinReg) (old : Word) : (s.basinWritten r old).held = s.held := by
  unfold State.basinWritten; dsimp only
  (repeat' split) <;> simp
@[simp] theorem State.rebalanceDue_held (s : State) : (s.rebalanceDue).held = s.held := by
  unfold State.rebalanceDue
  (repeat' split) <;> simp
@[simp] theorem State.laneWritten_held (s : State) (n : Fin 8) (r : HlReg) (old : Word) : (s.laneWritten n r old).held = s.held := by
  unfold State.laneWritten; dsimp only
  (repeat' split) <;> simp
@[simp] theorem State.laneLost_held (s : State) (n : Fin 8) (cause : Fin 7) : (s.laneLost n cause).held = s.held := by
  unfold State.laneLost
  (repeat' split) <;> simp
@[simp] theorem State.laneUp_held (s : State) (n : Fin 8) : (s.laneUp n).held = s.held := by
  unfold State.laneUp
  (repeat' split) <;> simp
@[simp] theorem State.laneRetry_held (s : State) (n : Fin 8) : (s.laneRetry n).held = s.held := by
  unfold State.laneRetry
  (repeat' split) <;> simp
@[simp] theorem State.pauseHeard_held (s : State) (n : Fin 8) (quanta : BitVec 16) : (s.pauseHeard n quanta).held = s.held := by
  unfold State.pauseHeard
  (repeat' split) <;> simp
@[simp] theorem State.pauseOver_held (s : State) (n : Fin 8) : (s.pauseOver n).held = s.held := by
  simp [State.pauseOver]
@[simp] theorem State.pausedLong_held (s : State) (n : Fin 8) : (s.pausedLong n).held = s.held := by
  unfold State.pausedLong
  (repeat' split) <;> simp
@[simp] theorem State.moveStarts_held (s : State) (q : Nat) : (s.moveStarts q).held = s.held := by
  unfold State.moveStarts
  (repeat' split) <;> simp
@[simp] theorem State.releaseAgain_held (s : State) (q : Nat) : (s.releaseAgain q).held = s.held := by
  unfold State.releaseAgain
  (repeat' split) <;> simp
@[simp] theorem State.receipts_held (s : State) (n : Fin 8) (es : List CtrlEntry) : (s.receipts n es).held = s.held := by
  unfold State.receipts
  (repeat' split) <;> simp
@[simp] theorem State.badCtrl_held (s : State) (n : Fin 8) : (s.badCtrl n).held = s.held := by
  unfold State.badCtrl
  (repeat' split) <;> simp
@[simp] theorem State.receiptHeard_held (s : State) (n : Fin 8) (es : List CtrlEntry) : (s.receiptHeard n es).held = s.held := by
  unfold State.receiptHeard
  (repeat' split) <;> simp
@[simp] theorem State.badCtrlHeard_held (s : State) (n : Fin 8) : (s.badCtrlHeard n).held = s.held := by
  unfold State.badCtrlHeard
  (repeat' split) <;> simp
@[simp] theorem State.ctrlFromHost_held (s : State) (n : Fin 8) (frame : List Byte) (fcsOk : Bool) : (s.ctrlFromHost n frame fcsOk).held = s.held := by
  unfold State.ctrlFromHost; dsimp only
  (repeat' split) <;> simp
@[simp] theorem State.hostFrame_held (s : State) (n : Fin 8) (tagged fcsOk : Bool) (tag : TagWord) (frame : List Byte) : (s.hostFrame n tagged fcsOk tag frame).held = s.held := by
  unfold State.hostFrame; dsimp only
  (repeat' split) <;> simp
@[simp] theorem State.stdArrives_held (s : State) (p : Fin 16) (tag : Byte) (fcsOk : Bool) (frame : List Byte) : (s.stdArrives p tag fcsOk frame).held = s.held := by
  unfold State.stdArrives; dsimp only
  (repeat' split) <;> simp
@[simp] theorem State.stdDeparts_held (s0 : State) (p : Fin 16) : (State.stdDeparts s0 p).held = s0.held := by
  unfold State.stdDeparts; dsimp only
  (repeat' split) <;> simp

/-! ### PortOps -/

@[simp] theorem State.drawSession_held (s : State) (p : Fin 16) : (s.drawSession p).held = s.held := by
  unfold State.drawSession; dsimp only
  (repeat' split) <;> simp
@[simp] theorem State.loopOff_held (s : State) (p : Fin 16) : (s.loopOff p).held = s.held := by
  unfold State.loopOff
  (repeat' split) <;> simp
@[simp] theorem State.patternSync_held (s : State) (p : Fin 16) : (s.patternSync p).held = s.held := by
  unfold State.patternSync; dsimp only
  (repeat' split) <;> simp
@[simp] theorem State.enablePort_held (s : State) (p : Fin 16) : (s.enablePort p).held = s.held := by
  simp [State.enablePort]
@[simp] theorem State.disablePort_held (s : State) (p : Fin 16) : (s.disablePort p).held = s.held := by
  simp [State.disablePort]
@[simp] theorem State.modeWritten_held (s : State) (p : Fin 16) (old : Word) : (s.modeWritten p old).held = s.held := by
  unfold State.modeWritten
  (repeat' split) <;> simp
@[simp] theorem State.policyWritten_held (s : State) (p : Fin 16) (old : Word) : (s.policyWritten p old).held = s.held := by
  unfold State.policyWritten
  (repeat' split) <;> simp
@[simp] theorem State.txWritten_held (s : State) (p : Fin 16) (r : TxReg) : (s.txWritten p r).held = s.held := by
  unfold State.txWritten
  (repeat' split) <;> simp
@[simp] theorem State.txTestWritten_held (s : State) (p : Fin 16) : (s.txTestWritten p).held = s.held := by
  unfold State.txTestWritten; dsimp only
  (repeat' split) <;> simp
@[simp] theorem State.rxWritten_held (s : State) (p : Fin 16) (r : RxReg) : (s.rxWritten p r).held = s.held := by
  unfold State.rxWritten
  (repeat' split) <;> simp
@[simp] theorem State.xtWritten_held (s : State) (r : Fin 4) (reg : XtReg) (old : Word) : (s.xtWritten r reg old).held = s.held := by
  unfold State.xtWritten
  (repeat' split) <;> simp
@[simp] theorem State.quietRegWritten_held (s : State) (p : Fin 16) (r : QuietReg) (old : Word) : (s.quietRegWritten p r old).held = s.held := by
  unfold State.quietRegWritten
  (repeat' split) <;> simp
@[simp] theorem State.wake_held (s : State) (p : Fin 16) : (s.wake p).held = s.held := by
  simp [State.wake]
@[simp] theorem State.dgWritten_held (s : State) (p : Fin 16) (r : DgReg) (old : Word) : (s.dgWritten p r old).held = s.held := by
  unfold State.dgWritten
  (repeat' split) <;> simp
@[simp] theorem State.tdrStartReg_held (s : State) (p : Fin 16) : (s.tdrStartReg p).held = s.held := by
  simp [State.tdrStartReg]
@[simp] theorem State.timeWritten_held (s : State) (r : TmReg) (old : Word) : (s.timeWritten r old).held = s.held := by
  unfold State.timeWritten
  (repeat' split) <;> simp
@[simp] theorem State.snapNow_held (s : State) : (s.snapNow).held = s.held := by
  simp [State.snapNow]

/-! ### Flags -/

@[simp] theorem State.countRise_held (old s : State) (e : Nat × Word) : (State.countRise old s e).held = s.held := by
  unfold State.countRise; dsimp only
  (repeat' split) <;> rfl
@[simp] theorem State.remoteSweep_held (s : State) (c : Fin 16) : (s.remoteSweep c).held = s.held := by
  unfold State.remoteSweep
  (repeat' split) <;> simp
@[simp] theorem State.remoteDrop_held (s : State) : (s.remoteDrop).held = s.held := by
  unfold State.remoteDrop
  (repeat' split) <;> simp
@[simp] theorem State.journalNotice_held (s old : State) : (s.journalNotice old).held = s.held := by
  unfold State.journalNotice
  (repeat' split) <;> simp
@[simp] theorem settle_held (old s : State) : (settle old s).held = s.held := by
  unfold settle
  rw [State.syncDomains_held, State.journalNotice_held, State.remoteDrop_held]
  exact foldl_held_of (fun t c => by simp) (foldl_held _ _ _ (fun t e => by simp))

/-! ### RegWrite -/

@[simp] theorem State.supply_held (s : State) (o : Option Supplied) : (s.supply o).2.held = s.held := by
  unfold State.supply; split <;> simp
@[simp] theorem State.timeEffect_held (s : State) (ix : Nat) (old : Word) : (s.timeEffect ix old).held = s.held := by
  unfold State.timeEffect
  (repeat' split) <;> simp
@[simp] theorem State.basinEffect_held (s : State) (ix : Nat) (old acted : Word) : (s.basinEffect ix old acted).held = s.held := by
  unfold State.basinEffect
  (repeat' split) <;> simp
@[simp] theorem State.tallyEffect_held (s : State) (ix : Nat) (old acted : Word) : (s.tallyEffect ix old acted).held = s.held := by
  unfold State.tallyEffect
  (repeat' split) <;> simp
@[simp] theorem State.calEffect_held (s : State) (ix : Nat) (old : Word) : (s.calEffect ix old).held = s.held := by
  unfold State.calEffect
  (repeat' split) <;> simp
@[simp] theorem State.reachEffect_held (s : State) (r : Fin 4) (ix : Nat) (old : Word) : (s.reachEffect r ix old).held = s.held := by
  unfold State.reachEffect
  (repeat' split) <;> simp
@[simp] theorem State.portEffect_held (s : State) (p : Fin 16) (ix : Nat) (old acted : Word) : (s.portEffect p ix old acted).held = s.held := by
  unfold State.portEffect
  (repeat' split) <;> simp
@[simp] theorem State.laneEffect_held (s : State) (n : Fin 8) (ix : Nat) (old : Word) : (s.laneEffect n ix old).held = s.held := by
  unfold State.laneEffect
  (repeat' split) <;> simp
@[simp] theorem State.clearCounter_held (s : State) (b n : Nat) : (s.clearCounter b n).held = s.held := by
  simp [State.clearCounter]
@[simp] theorem State.cellWritten_held (s : State) (c : Fin 16) (k : Nat) (way : Way) (v : Word) : (s.cellWritten c k way v).held = s.held := by
  unfold State.cellWritten
  (repeat' split) <;> simp
@[simp] theorem State.indNext_held (s : State) (i : Iface) (b : Nat) : (s.indNext i b).held = s.held := by
  unfold State.indNext; dsimp only
  (repeat' split) <;> simp
@[simp] theorem State.portIndPut_held (s : State) (p : Fin 16) (a : Nat) (v : Word) : (s.portIndPut p a v).held = s.held := by
  unfold State.portIndPut
  (repeat' split) <;> simp
@[simp] theorem State.reachIndPut_held (s : State) (r : Fin 4) (a : Nat) (v : Word) : (s.reachIndPut r a v).held = s.held := by
  unfold State.reachIndPut
  (repeat' split) <;> simp
@[simp] theorem State.indPut_held (s : State) (b a : Nat) (v : Word) : (s.indPut b a v).held = s.held := by
  unfold State.indPut
  (repeat' split) <;> simp
@[simp] theorem State.readAct_held (s : State) (i : Iface) (b ix : Nat) : (s.readAct i b ix).held = s.held := by
  unfold State.readAct
  (repeat' split) <;> simp
@[simp] theorem State.guardAbort_held (s : State) (i : Iface) : (s.guardAbort i).held = s.held := by
  simp [State.guardAbort]
@[simp] theorem State.guardDrop_held (s : State) (i : Iface) : (s.guardDrop i).held = s.held := by
  unfold State.guardDrop
  (repeat' split) <;> simp
@[simp] theorem State.bare_held (s : State) : (s.bare).held = s.held := by
  simp [State.bare]
@[simp] theorem State.said_held (s : State) (i : Iface) (guard crc frame none_ : Bool) : (s.said i guard crc frame none_).held = s.held := by
  simp [State.said]

/-! ### Auzer -/

@[simp] theorem State.waitFor_held (s : State) (c : Fin 16) (w : LongCmd) : (s.waitFor c w).held = s.held := by
  simp [State.waitFor]
@[simp] theorem State.ownPort_held (s : State) (p : Fin 16) : (s.ownPort p).held = s.held := by
  simp [State.ownPort]
theorem State.streamAnswer_held (s : State) (c : Fin 16) (q : Nat) (e : Except Nat State) (h : ∀ t, e = .ok t → t.held = s.held) :
    (s.streamAnswer c q e).held = s.held := by
  unfold State.streamAnswer; dsimp only
  (repeat' split) <;> simp [*]
@[simp] theorem State.serveStream_held (s : State) (c : Fin 16) (modify : Bool) : (s.serveStream c modify).held = s.held := by
  unfold State.serveStream; dsimp only
  split
  · simp
  · refine (State.streamAnswer_held _ _ _ _ ?_).trans (by simp)
    intro t ht
    split at ht
    · exact State.modifyStream_held _ _ _ _ ht
    · exact State.openStream_held _ _ _ _ ht
@[simp] theorem State.serveClose_held (s : State) (c : Fin 16) : (s.serveClose c).held = s.held := by
  unfold State.serveClose; dsimp only
  (repeat' split) <;> simp
@[simp] theorem State.serveCadence_held (s : State) (c : Fin 16) : (s.serveCadence c).held = s.held := by
  unfold State.serveCadence; dsimp only
  (repeat' split) <;> simp
@[simp] theorem State.serveLearn_held (s : State) (c : Fin 16) : (s.serveLearn c).held = s.held := by
  unfold State.serveLearn; dsimp only
  (repeat' split) <;> simp
@[simp] theorem State.serveTimeSet_held (s : State) (c : Fin 16) : (s.serveTimeSet c).held = s.held := by
  unfold State.serveTimeSet; dsimp only
  (repeat' split) <;> simp
@[simp] theorem State.serveAdjust_held (s : State) (c : Fin 16) : (s.serveAdjust c).held = s.held := by
  unfold State.serveAdjust; dsimp only
  (repeat' split) <;> simp
@[simp] theorem State.offer_held (s : State) (c : Fin 16) (x : CalEntry) (long : Bool) : (s.offer c x long).held = s.held := by
  simp [State.offer]
@[simp] theorem State.cancelled_held (s : State) (x : CalEntry) : (s.cancelled x).held = s.held := by
  unfold State.cancelled; dsimp only
  (repeat' split) <;> simp
@[simp] theorem State.serveCancel_held (s : State) (c : Fin 16) : (s.serveCancel c).held = s.held := by
  unfold State.serveCancel; dsimp only
  (repeat' split) <;> simp
@[simp] theorem State.serveAdd_held (s : State) (c : Fin 16) : (s.serveAdd c).held = s.held := by
  unfold State.serveAdd; dsimp only
  (repeat' split) <;> simp
@[simp] theorem State.serveSchedule_held (s : State) (c : Fin 16) : (s.serveSchedule c).held = s.held := by
  unfold State.serveSchedule
  (repeat' split) <;> simp
@[simp] theorem State.serveSnapshot_held (s : State) (c : Fin 16) : (s.serveSnapshot c).held = s.held := by
  unfold State.serveSnapshot
  (repeat' split) <;> simp
@[simp] theorem State.serveCommitAt_held (s : State) (c : Fin 16) : (s.serveCommitAt c).held = s.held := by
  unfold State.serveCommitAt; dsimp only
  (repeat' split) <;> simp
@[simp] theorem State.serveCalRun_held (s : State) (c : Fin 16) : (s.serveCalRun c).held = s.held := by
  unfold State.serveCalRun; dsimp only
  rw [State.calAnswer_held]
  exact foldl_held_of (fun t p => by split <;> simp) (foldl_held_of (fun t r => by split <;> simp) (by simp))
@[simp] theorem State.serveCalRead_held (s : State) (c : Fin 16) : (s.serveCalRead c).held = s.held := by
  simp [State.serveCalRead]
@[simp] theorem State.serveTdr_held (s : State) (c : Fin 16) : (s.serveTdr c).held = s.held := by
  unfold State.serveTdr; dsimp only
  (repeat' split) <;> simp
@[simp] theorem State.serveWatch_held (s : State) (c : Fin 16) : (s.serveWatch c).held = s.held := by
  unfold State.serveWatch
  (repeat' split) <;> simp
@[simp] theorem State.serveCommit_held (s : State) (c : Fin 16) : (s.serveCommit c).held = s.held := by
  simp [State.serveCommit]
@[simp] theorem State.serveJournalRead_held (s : State) (c : Fin 16) (sup : Option Supplied) : (s.serveJournalRead c sup).held = s.held := by
  unfold State.serveJournalRead; dsimp only
  (repeat' split) <;> simp
@[simp] theorem State.serveMarch_held (s : State) (c : Fin 16) : (s.serveMarch c).held = s.held := by
  unfold State.serveMarch; dsimp only
  (repeat' split) <;> simp
@[simp] theorem State.serveFetch_held (s : State) (c : Fin 16) : (s.serveFetch c).held = s.held := by
  unfold State.serveFetch; dsimp only
  (repeat' split) <;> simp
@[simp] theorem State.serveRemote_held (s : State) (c : Fin 16) : (s.serveRemote c).held = s.held := by
  unfold State.serveRemote; dsimp only
  (repeat' split) <;> simp
@[simp] theorem State.serveStage_held (s : State) (c : Fin 16) (sup : Option Supplied) : (s.serveStage c sup).held = s.held := by
  unfold State.serveStage; dsimp only
  (repeat' split) <;> simp
@[simp] theorem State.activateRun_held (s : State) (c : Fin 16) (x : Supplied) : (s.activateRun c x).held = s.held := by
  unfold State.activateRun; dsimp only
  (repeat' split) <;> simp
@[simp] theorem State.putRequest_held (s : State) (c : Fin 16) (code : Nat) (r : Request) : (s.putRequest c code r).held = s.held := by
  unfold State.putRequest
  (repeat' split) <;> simp
@[simp] theorem State.takeEvent_held (s : State) : (s.takeEvent).held = s.held := by
  unfold State.takeEvent; dsimp only
  (repeat' split) <;> simp
@[simp] theorem State.takeDone_held (s : State) (c : Fin 16) : (s.takeDone c).held = s.held := by
  unfold State.takeDone
  (repeat' split) <;> simp
@[simp] theorem State.timeSetLate_held (s : State) (c : Fin 16) : (s.timeSetLate c).held = s.held := by
  unfold State.timeSetLate
  (repeat' split) <;> simp
@[simp] theorem State.portTestLate_held (s : State) (p : Fin 16) : (s.portTestLate p).held = s.held := by
  simp [State.portTestLate]

/-! ### Bus -/

@[simp] theorem State.began_held (s : State) (i : Iface) : (s.began i).held = s.held := by
  unfold State.began
  (repeat' split) <;> simp
@[simp] theorem State.writeInd_held (s : State) (i : Iface) (b : Nat) (way : Way) (v : Word) : (s.writeInd i b way v).held = s.held := by
  unfold State.writeInd
  (repeat' split) <;> simp
@[simp] theorem State.writeKeeperInd_held (s : State) (b : Nat) (way : Way) (v : Word) : (s.writeKeeperInd b way v).held = s.held := by
  simp [State.writeKeeperInd]
@[simp] theorem State.mismatch_held (s : State) (i : Iface) : (s.mismatch i).held = s.held := by
  simp [State.mismatch]
@[simp] theorem State.busRead_held (s : State) (i : Iface) (b ix : Nat) (comp : Bool) : (s.busRead i b ix comp).held = s.held := by
  unfold State.busRead; dsimp only
  (repeat' split) <;> simp
@[simp] theorem State.addrRead_held (s : State) (i : Iface) (a : Addr) : (s.addrRead i a).held = s.held := by
  simp [State.addrRead]
@[simp] theorem State.spiIgnored_held (s : State) (e : SpiError) : (s.spiIgnored e).held = s.held := by
  unfold State.spiIgnored
  (repeat' split) <;> simp
@[simp] theorem State.guardLate_held (s : State) (i : Iface) : (s.guardLate i).held = s.held := by
  simp [State.guardLate]
@[simp] theorem State.modMdio_held (s : State) (f : MdioRec → MdioRec) : (s.modMdio f).held = s.held := by
  simp [State.modMdio]
@[simp] theorem State.mdioAddr_held (s : State) (prtad devad : BitVec 5) (a : BitVec 16) : (s.mdioAddr prtad devad a).held = s.held := by
  unfold State.mdioAddr
  (repeat' split) <;> simp
@[simp] theorem State.mdioLook_held (s : State) (a : Nat) : (s.mdioLook a).held = s.held := by
  unfold State.mdioLook
  (repeat' split) <;> simp
@[simp] theorem State.mdioGet_held (s : State) (prtad devad : BitVec 5) : (s.mdioGet prtad devad).held = s.held := by
  unfold State.mdioGet
  (repeat' split) <;> simp
@[simp] theorem State.mdioGetInc_held (s : State) (prtad devad : BitVec 5) : (s.mdioGetInc prtad devad).held = s.held := by
  unfold State.mdioGetInc
  (repeat' split) <;> simp
@[simp] theorem State.mdioLate_held (s : State) : (s.mdioLate).held = s.held := by
  simp [State.mdioLate]
@[simp] theorem State.monLine_held (s : State) (f : State → State) (hf : ∀ t, (f t).held = t.held) : (s.monLine f).held = s.held := by
  unfold State.monLine; dsimp only
  (repeat' split) <;> simp [*]
@[simp] theorem State.monSay_held (s : State) (ok : Bool) (ws : List Word) : (s.monSay ok ws).held = s.held := by
  simp [State.monSay]
@[simp] theorem State.monGet_held (s : State) (a : Addr) : (s.monGet a).held = s.held := by
  simp [State.monGet]
@[simp] theorem State.monDone_held (s : State) (c : Fin 16) : (s.monDone c).held = s.held := by
  unfold State.monDone
  (repeat' split) <;> simp
@[simp] theorem State.monTraceSet_held (s : State) (on : Bool) : (s.monTraceSet on).held = s.held := by
  simp [State.monTraceSet]
@[simp] theorem State.monDump_held (s : State) (block : Nat) : (s.monDump block).held = s.held := by
  simp [State.monDump]
@[simp] theorem State.monRate_held (s : State) (code : Nat) : (s.monRate code).held = s.held := by
  unfold State.monRate
  (repeat' split) <;> simp
@[simp] theorem State.monBad_held (s : State) : (s.monBad).held = s.held := by
  simp [State.monBad]

/-! ### TickOps -/

@[simp] theorem State.rampTick_held (s : State) : (s.rampTick).held = s.held := by
  simp [State.rampTick]
@[simp] theorem State.coreCycles_held (s : State) : (s.coreCycles).2.held = s.held := by
  unfold State.coreCycles; dsimp only
  (repeat' split) <;> simp
@[simp] theorem State.tickCounters_held (s : State) : (s.tickCounters).held = s.held := by
  simp [State.tickCounters]
@[simp] theorem State.laneTick_held (s : State) (n : Fin 8) : (s.laneTick n).held = s.held := by
  simp [State.laneTick]
@[simp] theorem State.rollOver_held (s : State) : (s.rollOver).held = s.held := by
  unfold State.rollOver
  (repeat' split) <;> simp
@[simp] theorem State.wrapEvent_held (s : State) (w : Nat × Nat) : (s.wrapEvent w).held = s.held := by
  simp [State.wrapEvent]
@[simp] theorem State.wrapsTold_held (s : State) (f : Nat × Nat → Bool) : (s.wrapsTold f).held = s.held := by
  simp [State.wrapsTold]
@[simp] theorem State.wrapTold_held (s : State) (b n : Nat) : (s.wrapTold b n).held = s.held := by
  simp [State.wrapTold]
@[simp] theorem State.runTick_held (s : State) : (s.runTick).held = s.held := by
  simp [State.runTick]
@[simp] theorem State.tick_held (s : State) : (s.tick).held = s.held := by
  unfold State.tick; dsimp only
  (repeat' split) <;> simp
@[simp] theorem State.enterSafe_held (s : State) (b : Nat) : (s.enterSafe b).held = s.held := by
  unfold State.enterSafe; dsimp only
  (repeat' split) <;> simp
@[simp] theorem State.leaveSafe_held (s : State) (b : Nat) : (s.leaveSafe b).held = s.held := by
  unfold State.leaveSafe; dsimp only
  (repeat' split) <;> simp

/-! ### Operands -/

theorem State.gated_held (s t : State) (h : t.held = s.held) : (s.gated t).held = s.held := by
  unfold State.gated; split <;> simp [h]

end Sys2Proof.Machine
end

