-- ==== Sys2Proof/Laws/Mailbox.lean ====
section
/-! SUPPORT. The mailbox doorbell: the fields of a request word, the state in which a request is served (R380 to R383), and what
issuing a command keeps. -/

namespace Sys2Proof.Machine

theorem put_bit (lo w n i : Nat) : (put lo w n).getLsbD i = (decide (i < 32) && decide (lo ≤ i) && decide (i < lo + w) && n.testBit (i - lo)) := by
  unfold put
  rw [BitVec.getLsbD_ofNat]
  have h : (n % 2 ^ w * 2 ^ lo).testBit i = (decide (lo ≤ i) && (n % 2 ^ w).testBit (i - lo)) := by
    rw [Nat.testBit_mul_two_pow]
  rw [h, Nat.testBit_mod_two_pow]
  by_cases h1 : i < 32 <;> by_cases h2 : lo ≤ i <;> by_cases h3 : i < lo + w <;> simp [h1, h2, h3] <;> omega
theorem fld_bits (v : Word) (lo w k : Nat) : (fld v lo w).testBit k = (decide (k < w) && v.getLsbD (lo + k)) := by
  unfold fld
  rw [Nat.testBit_mod_two_pow, Nat.testBit_div_two_pow, BitVec.getLsbD, Nat.add_comm]
theorem fld_head (n len tag : Nat) (h : n < 256) : fld ((put 0 8 n ||| put 8 8 len ||| put 16 16 tag : Word)) 0 8 = n := by
  apply Nat.eq_of_testBit_eq; intro k
  rw [fld_bits]
  simp only [BitVec.getLsbD_or, put_bit]
  by_cases hk : k < 8
  · simp [hk, show k < 32 by omega, show ¬ 8 ≤ k by omega, show ¬ 16 ≤ k by omega]
  · have : n.testBit k = false := Nat.testBit_lt_two_pow (lt_of_lt_of_le h (by simpa using Nat.pow_le_pow_right (n := 2) (by omega) (show 8 ≤ k by omega)))
    simp [hk, this]
theorem fld_head_len (n len tag : Nat) (h : len < 256) : fld ((put 0 8 n ||| put 8 8 len ||| put 16 16 tag : Word)) 8 8 = len := by
  apply Nat.eq_of_testBit_eq; intro k
  rw [fld_bits]
  simp only [BitVec.getLsbD_or, put_bit]
  by_cases hk : k < 8
  · simp [hk, show 8 + k < 32 by omega, show ¬ 16 ≤ 8 + k by omega,  show 8 + k < 16 by omega]
  · have : len.testBit k = false := Nat.testBit_lt_two_pow (lt_of_lt_of_le h (by simpa using Nat.pow_le_pow_right (n := 2) (by omega) (show 8 ≤ k by omega)))
    simp [hk, this]
theorem fld_head_tag (n len tag : Nat) (h : tag < 65536) : fld ((put 0 8 n ||| put 8 8 len ||| put 16 16 tag : Word)) 16 16 = tag := by
  apply Nat.eq_of_testBit_eq; intro k
  rw [fld_bits]
  simp only [BitVec.getLsbD_or, put_bit]
  by_cases hk : k < 16
  · simp [hk, show 16 + k < 32 by omega, show ¬ 16 + k < 8 by omega]
  · have : tag.testBit k = false := Nat.testBit_lt_two_pow (lt_of_lt_of_le h (by simpa using Nat.pow_le_pow_right (n := 2) (by omega) (show 16 ≤ k by omega)))
    simp [hk, this]

theorem State.doorReject_busy (s : State) (c : Fin 16) (h : (s.chan c).busy = true) : s.doorReject c ≠ 0 := by
  unfold State.doorReject; (repeat' split) <;> simp_all

/-- The request cells after a request is written into them (R380). -/
theorem State.putRequest_req (s : State) (c : Fin 16) (code : Nat) (r : Request) (h : (s.chan c).busy = false) (i : Fin 64) :
    ((s.putRequest c code r).chan c).req.get i = (if i.val = 0 then put 0 8 code ||| put 8 8 r.len.toNat ||| put 16 16 r.tag.toNat
      else if i.val < 4 then (s.chan c).req.get i else (r.args[i.val - 4]?).getD ((s.chan c).req.get i)) := by
  unfold State.putRequest
  dsimp only
  rw [if_neg (by simp [h]), State.chan_modChan_same]
  exact Vector.get_ofFn _ _

theorem State.rung_code (s : State) (c : Fin 16) (code : Nat) (r : Request) (hc : code < 256) (h : (s.chan c).busy = false) :
    fld (((s.rung c code r).chan c).req.get 0) 0 8 = code := by
  simp [State.rung, State.putRequest_req _ _ _ _ h, fld_head _ _ _ hc]

theorem State.rung_len (s : State) (c : Fin 16) (code : Nat) (r : Request) (h : (s.chan c).busy = false) :
    ((s.rung c code r).chan c).len = r.len.toNat := by
  simp [State.rung, Channel.len, State.putRequest_req _ _ _ _ h, fld_head_len _ _ _ r.len.isLt]

theorem State.rung_tag (s : State) (c : Fin 16) (code : Nat) (r : Request) (h : (s.chan c).busy = false) :
    fld (((s.rung c code r).chan c).req.get 0) 16 16 = r.tag.toNat := by
  simp [State.rung, State.putRequest_req _ _ _ _ h, fld_head_tag _ _ _ r.tag.isLt]

theorem State.rung_arg (s : State) (c : Fin 16) (code : Nat) (r : Request) (h : (s.chan c).busy = false) (hr : fullRequest r) (n : Nat) :
    (s.rung c code r).arg c n = argWord r n := by
  obtain ⟨h1, h2, h3⟩ := hr
  unfold State.arg Channel.arg
  rw [s.rung_len c code r h]
  split
  · rename_i hn
    have hlt : 4 + n < 64 := by omega
    have e : ((s.rung c code r).chan c).req.get (Fin.ofNat 64 (4 + n)) = ((s.putRequest c code r).chan c).req.get (Fin.ofNat 64 (4 + n)) := by
      simp [State.rung]
    rw [e, State.putRequest_req _ _ _ _ h]
    have hv : (Fin.ofNat 64 (4 + n)).val = 4 + n := by simp [Fin.ofNat]; omega
    rw [hv, if_neg (by omega), if_neg (by omega)]
    have hl : n < r.args.length := by omega
    simp [argWord, List.getD, hl]
  · rename_i hn
    have hl : r.args.length ≤ n := by omega
    simp [argWord, List.getD, hl]

/-- A command issued on a channel keeps what the serving of its code keeps. -/
theorem State.issueCmd_keeps {α : Type} (f : State → α) (hf : ∀ (t : State) (c : Fin 16) (g : Channel → Channel), f (t.modChan c g) = f t)
    (hn : ∀ (t : State) (b k n : Nat), f (t.count b k n) = f t) (s : State) (c : Fin 16) (code : Nat) (r : Request) (sup : Option Supplied) (hc : code < 256)
    (h : ∀ t : State, f (t.serveCode c code sup) = f t) : f (s.issueCmd c code r sup) = f s := by
  have ha : ∀ (t : State) (c : Fin 16) (st d : Nat) (ws : List Word), f (t.answer c st ws d) = f t := by
    intro t c st d ws; simp [State.answer, hf, hn]
  have hp : f (s.putRequest c code r) = f s := by unfold State.putRequest; dsimp only; split <;> simp [hf]
  unfold State.issueCmd State.doorbell
  dsimp only
  split
  · simp [hn, hf, hp]
  · rename_i hr
    have hb : (s.chan c).busy = false := by
      by_contra hx
      have hx : (s.chan c).busy = true := by simpa using hx
      have e : s.putRequest c code r = s := by simp [State.putRequest, hx]
      rw [e] at hr
      exact hr (s.doorReject_busy c hx)
    have hg : f (s.rung c code r) = f s := by simp [State.rung, hn, hf, hp]
    have hcode := s.rung_code c code r hc hb
    change f ((s.rung c code r).serve c sup) = f s
    unfold State.serve
    dsimp only
    rw [hcode]
    (repeat' split) <;> simp [ha, h, hg]

theorem State.issueCmd_frame' (s : State) (c : Fin 16) (code : Nat) (r : Request) (sup : Option Supplied) (hc : code < 256)
    (h : ∀ t : State, (t.serveCode c code sup).frame = t.frame) : (s.issueCmd c code r sup).frame = s.frame :=
  State.issueCmd_keeps State.frame (by simp) (by simp) s c code r sup hc h
theorem State.issueCmd_held' (s : State) (c : Fin 16) (code : Nat) (r : Request) (sup : Option Supplied) (hc : code < 256)
    (h : ∀ t : State, (t.serveCode c code sup).held = t.held) : (s.issueCmd c code r sup).held = s.held :=
  State.issueCmd_keeps State.held (by simp) (by simp) s c code r sup hc h

theorem State.waiting_none {s : State} (h : ∀ d : Fin 16, (s.chan d).work = none) (f : LongCmd → Bool) : s.waiting f = none := by
  unfold State.waiting
  rw [List.find?_eq_none]
  intro d _
  simp [h d]

/-- A doorbell that its channel accepts and nothing stands against is served (R381, R382, R383, R385). -/
theorem State.issueCmd_serves {s : State} {c : Fin 16} (hs : s.serves c) (hw : s.journal.writing = none) (code : Nat) (r : Request) (hr : fullRequest r) (sup : Option Supplied) (hc : code < 256)
    (n : Nat) (hn : ((s.rung c code r).chan c).need code = some n) (hl : n ≤ r.args.length) :
    s.issueCmd c code r sup = (s.rung c code r).serveCode c code sup := by
  obtain ⟨h1, h2, h3, h4, h5, h6⟩ := hs
  have hp : ∀ d, (((s.putRequest c code r).chan d).work = none) := by
    intro d
    unfold State.putRequest; dsimp only; split
    · exact h6 d
    · by_cases e : d = c
      · subst e; simp [h6]
      · simp [State.chan_modChan_ne _ e, h6]
  have hb : (s.putRequest c code r).doorReject c = 0 := by
    have hb1 : ((s.putRequest c code r).chan c).busy = false := by unfold State.putRequest; simp [h4]
    have hk : (s.putRequest c code r).keeper = s.keeper := by unfold State.putRequest; simp [h4]
    have hsu : (s.putRequest c code r).sup = s.sup := by unfold State.putRequest; simp [h4]
    have hsb : (s.putRequest c code r).safeBlock (mboxBlock c.val) = s.safeBlock (mboxBlock c.val) := by unfold State.putRequest; simp [h4]; rfl
    unfold State.doorReject
    simp [hb1, hk, hsu, hsb, h1, h2, h3, h5]
  have hwk : ∀ d, (((s.rung c code r).chan d).work = none) := by
    intro d
    by_cases e : d = c
    · subst e; simp [State.rung]
    · simp [State.rung, State.chan_modChan_ne _ e, hp]
  have hk : (s.rung c code r).keeper = s.keeper := by simp [State.rung, State.putRequest, h4]
  have hj : (s.rung c code r).journal = s.journal := by simp [State.rung, State.putRequest, h4]
  unfold State.issueCmd State.doorbell
  rw [if_neg (by simp [hb])]
  change (s.rung c code r).serve c sup = _
  unfold State.serve
  dsimp only
  obtain ⟨l1, l2, l3⟩ := hr
  rw [s.rung_len c code r h4, s.rung_code c code r hc h4, hn, hk]
  rw [if_neg (by omega), if_neg (by simp [h2])]
  dsimp only
  have hcd : ¬ r.len.toNat < 1 + ceilDiv n 4 := by simp [ceilDiv]; omega
  have ho : (s.rung c code r).objectHeld c code = false := by
    have hh : ∀ f, (s.rung c code r).holding f = false := by intro f; simp [State.holding, State.waiting_none hwk]
    unfold State.objectHeld
    dsimp only
    (repeat' split) <;> simp [hh, State.flashHeld, hj, hw]
  rw [if_neg hcd, if_neg (by simp [ho])]
end Sys2Proof.Machine
end

