-- ==== Sys2Proof/Laws/Table.lean ====
section
/-! SUPPORT. The tables of the part (stored registers, counters, slots): reading after writing, and the canonical form that
every write keeps. -/

namespace Sys2Proof.Machine

variable {α : Type}

theorem tabGet_ins_same (d : α) (t : List (Nat × α)) (n : Nat) (v : α) : tabGet d (tabIns t n v) n = v := by
  induction t with
  | nil => simp [tabIns, tabGet]
  | cons a t ih =>
    unfold tabIns
    split
    · simp [tabGet]
    · split
      · simp [tabGet]
      · rename_i h; simp [tabGet, h, ih]

theorem tabGet_ins_ne (d : α) (t : List (Nat × α)) {n m : Nat} (v : α) (h : m ≠ n) : tabGet d (tabIns t n v) m = tabGet d t m := by
  induction t with
  | nil => simp [tabIns, tabGet, h]
  | cons a t ih =>
    unfold tabIns
    split
    · simp [tabGet, h]
    · split
      · rename_i e; simp [tabGet, h, ← e]
      · simp [tabGet, ih]

theorem tabGet_del_same (d : α) (t : List (Nat × α)) (n : Nat) : tabGet d (tabDel t n) n = d := by
  unfold tabDel
  induction t with
  | nil => rfl
  | cons a t ih =>
    rw [List.filter_cons]
    split
    · rename_i h
      have : n ≠ a.1 := fun e => by simp [e] at h
      simp [tabGet, this, ih]
    · exact ih

theorem tabGet_del_ne (d : α) (t : List (Nat × α)) {n m : Nat} (h : m ≠ n) : tabGet d (tabDel t n) m = tabGet d t m := by
  unfold tabDel
  induction t with
  | nil => rfl
  | cons a t ih =>
    rw [List.filter_cons]
    split
    · simp [tabGet, ih]
    · rename_i e
      have : a.1 = n := by simpa using e
      simp [tabGet, this, h, ih]

/-- A key written reads as its new value. -/
@[simp] theorem tabGet_put_same [DecidableEq α] (d : α) (t : List (Nat × α)) (n : Nat) (v : α) : tabGet d (tabPut d t n v) n = v := by
  unfold tabPut
  split
  · rename_i h; rw [tabGet_del_same, h]
  · exact tabGet_ins_same d t n v

/-- Every other key reads as before, whatever the written key reads as when it is not listed. -/
theorem tabGet_put_ne [DecidableEq α] (d e : α) (t : List (Nat × α)) {n m : Nat} (v : α) (h : m ≠ n) :
    tabGet d (tabPut e t n v) m = tabGet d t m := by
  unfold tabPut
  split
  · exact tabGet_del_ne d t h
  · exact tabGet_ins_ne d t v h

theorem tabIns_mem {t : List (Nat × α)} {n : Nat} {v : α} {e : Nat × α} (h : e ∈ tabIns t n v) : e = (n, v) ∨ e ∈ t := by
  induction t with
  | nil => simpa [tabIns] using h
  | cons a t ih =>
    unfold tabIns at h
    split at h
    · simpa using h
    · split at h
      · rcases List.mem_cons.1 h with h | h
        · exact .inl h
        · exact .inr (List.mem_cons_of_mem _ h)
      · rcases List.mem_cons.1 h with h | h
        · exact .inr (h ▸ List.mem_cons_self)
        · exact (ih h).imp id (List.mem_cons_of_mem _)

theorem keysRise_nil : keysRise ([] : List (Nat × α)) := List.Pairwise.nil

theorem keysRise_filter {t : List (Nat × α)} (f : Nat × α → Bool) (h : keysRise t) : keysRise (t.filter f) :=
  List.Pairwise.sublist (List.filter_sublist.map _) h

theorem keysRise_ins {t : List (Nat × α)} (n : Nat) (v : α) (h : keysRise t) : keysRise (tabIns t n v) := by
  induction t with
  | nil => exact List.pairwise_singleton _ _
  | cons a t ih =>
    have hc := List.pairwise_cons.1 h
    unfold tabIns
    split
    · rename_i hn
      refine List.pairwise_cons.2 ⟨?_, h⟩
      intro k hk
      rcases List.mem_cons.1 hk with rfl | hk
      · exact hn
      · exact Nat.lt_trans hn (hc.1 k hk)
    · split
      · rename_i e
        exact List.pairwise_cons.2 ⟨by rw [show n = a.1 from e]; exact hc.1, hc.2⟩
      · refine List.pairwise_cons.2 ⟨?_, ih hc.2⟩
        intro k hk
        obtain ⟨e, he, rfl⟩ := List.mem_map.1 hk
        rcases tabIns_mem he with rfl | he
        · show a.1 < n; omega
        · exact hc.1 _ (List.mem_map_of_mem he)

/-- A write keeps the keys rising. -/
theorem keysRise_put [DecidableEq α] (d : α) {t : List (Nat × α)} (n : Nat) (v : α) (h : keysRise t) : keysRise (tabPut d t n v) := by
  unfold tabPut
  split
  · exact keysRise_filter _ h
  · exact keysRise_ins n v h

/-- A write lists no entry that reads as the key would unlisted. -/
theorem tabPut_listed [DecidableEq α] (d : Nat → α) {t : List (Nat × α)} (n : Nat) (v : α) (h : ∀ e ∈ t, e.2 ≠ d e.1) :
    ∀ e ∈ tabPut (d n) t n v, e.2 ≠ d e.1 := by
  intro e he
  unfold tabPut at he
  split at he
  · exact h e (List.mem_of_mem_filter he)
  · rename_i hv
    rcases tabIns_mem he with rfl | he
    · exact hv
    · exact h e he

end Sys2Proof.Machine
end

