-- ==== Sys2Proof/Laws/Root.lean ====
section
/-! SUPPORT. The operations of the register bus and of the resets: none changes the queue, the die or the OTP, and each keeps
the stored registers in canonical form. -/

set_option linter.unusedTactic false
set_option linter.unreachableTactic false
set_option linter.unnecessarySeqFocus false
set_option linter.unusedSimpArgs false
set_option linter.unusedVariables false

namespace Sys2Proof.Machine

@[simp] theorem root_mk (s : State) (x1 x2 x3 x4 x5 x6 x7 x8 x9 x10 x11 x12 x13 x14 x15 x16 x17 x18 x19 x20 x21 x22 y1 y2 y3 y4 y5 y6 y7 y8 y9 y10 y11) :
    (State.frame { s with
      ticks := x1, draws := x2, parity := x3, mended := x4, sup := x5, clk := x6, dom := x7, ports := x8, reaches := x9
      lanes := x10, basin := x11, time := x12, cal := x13, ring := x14, chans := x15, keeper := x16, tally := x17, test := x18
      keys := x19, journal := x20, mdio := x21, kpi := x22, regs := y1, keeperInd := y2, spi := y3, mon := y4, gdAbort := y5
      gdMismatch := y6, gdBare := y7, crcErr := y8, frameErr := y9, monitor := y10, tap := y11 }).root = s.frame.root := rfl

theorem foldl_root {α : Type} (l : List α) (f : State → α → State) (s : State) (h : ∀ t x, (f t x).frame.root = t.frame.root) :
    (l.foldl f s).frame.root = s.frame.root := by
  induction l generalizing s with
  | nil => rfl
  | cons a l ih => rw [List.foldl_cons, ih, h]

/-- The canonical form rests on the stored registers and the OTP alone. -/
theorem canon_mk (s : State) (x1 x2 x3 x4 x5 x6 x7 x8 x9 x10 x11 x12 x13 x14 x15 x16 x17 x18 x19 x20 x21 x22 y2 y3 y4 y5 y6 y7 y8 y9 y10 y11) (h : s.frame.canon) :
    (State.frame { s with
      ticks := x1, draws := x2, parity := x3, mended := x4, sup := x5, clk := x6, dom := x7, ports := x8, reaches := x9
      lanes := x10, basin := x11, time := x12, cal := x13, ring := x14, chans := x15, keeper := x16, tally := x17, test := x18
      keys := x19, journal := x20, mdio := x21, kpi := x22, keeperInd := y2, spi := y3, mon := y4, gdAbort := y5
      gdMismatch := y6, gdBare := y7, crcErr := y8, frameErr := y9, monitor := y10, tap := y11 }).canon := h

theorem foldl_canon {α : Type} (l : List α) (f : State → α → State) (s : State) (h : ∀ t x, t.frame.canon → (f t x).frame.canon)
    (hs : s.frame.canon) : (l.foldl f s).frame.canon := by
  induction l generalizing s with
  | nil => exact hs
  | cons a l ih => exact ih _ (h _ _ hs)


/-! ### RegMap -/

@[simp] theorem State.setReg_root (s : State) (key : Nat) (v : Word) : (s.setReg key v).frame.root = s.frame.root := by
  rfl
theorem State.setReg_canon (s : State) (key : Nat) (v : Word) (h : s.frame.canon) : (s.setReg key v).frame.canon := by
  exact ⟨keysRise_put _ _ _ h.1, tabPut_listed (rstWord s.otp) key v h.2⟩

/-! ### Ops -/

@[simp] theorem State.modIface_root (s : State) (i : Iface) (f : IfaceRec → IfaceRec) : (s.modIface i f).frame.root = s.frame.root := by
  cases i <;> rfl
theorem State.modIface_canon (s : State) (i : Iface) (f : IfaceRec → IfaceRec) (h : s.frame.canon) : (s.modIface i f).frame.canon := by
  cases i <;> exact h

/-! ### SupOps -/

@[simp] theorem State.hardReset_root (s : State) (cause : Nat) (rails : BitVec 8) : (s.hardReset cause rails).frame.root = s.frame.root := by
  rfl
theorem State.hardReset_canon (s : State) (cause : Nat) (rails : BitVec 8) (h : s.frame.canon) : (s.hardReset cause rails).frame.canon := by
  exact ⟨keysRise_nil, fun e he => nomatch he⟩
/-- The ports ramp down first (R134): nothing of the frame changes. -/
theorem silence_all_frame (s : State) : (allPorts.foldl (fun (t : State) p => t.silence p false) s).frame = s.frame :=
  foldl_frame _ _ _ (fun t p => State.silence_frame t p false)
@[simp] theorem State.softLeft_root (s : State) (cause : Nat) (wipe : Bool) : (s.softLeft cause wipe).frame.root = s.frame.root := rfl
theorem State.softLeft_canon (s : State) (cause : Nat) (wipe : Bool) (h : s.frame.canon) : (s.softLeft cause wipe).frame.canon :=
  ⟨keysRise_filter _ h.1, fun e he => h.2 e (List.mem_of_mem_filter he)⟩
@[simp] theorem State.restartKeeper_frame (s : State) : s.restartKeeper.frame = s.frame := by
  unfold State.restartKeeper
  rw [State.releaseKeeper_frame]
  split
  · exact State.loadIdentity_frame _
  · rfl
@[simp] theorem State.softReset_root (s : State) (cause : Nat) (wipe : Bool) : (s.softReset cause wipe).frame.root = s.frame.root := by
  unfold State.softReset
  generalize hu : allPorts.foldl (fun (t : State) p => t.silence p false) s = u
  have h := congrArg Frame.root (silence_all_frame s)
  rw [hu] at h
  dsimp only
  split
  · rw [State.restartKeeper_frame, State.softLeft_root, h]
  · rw [State.softLeft_root, h]
theorem State.softReset_canon (s : State) (cause : Nat) (wipe : Bool) (h : s.frame.canon) : (s.softReset cause wipe).frame.canon := by
  rw [← silence_all_frame s] at h
  unfold State.softReset
  generalize allPorts.foldl (fun (t : State) p => t.silence p false) s = u at *
  have k := State.softLeft_canon u cause wipe h
  dsimp only
  split
  · rw [State.restartKeeper_frame]; exact k
  · exact k
@[simp] theorem State.halt_root (s : State) : s.halt.frame.root = s.frame.root := rfl
theorem State.halt_canon (s : State) (h : s.frame.canon) : s.halt.frame.canon :=
  ⟨keysRise_filter _ h.1, fun e he => h.2 e (List.mem_of_mem_filter he)⟩
@[simp] theorem State.stepThree_root (s : State)  : (s.stepThree).frame.root = s.frame.root := by
  unfold State.stepThree; try dsimp only
  (repeat' split) <;> simp [*]
theorem State.stepThree_canon (s : State)  (h : s.frame.canon) : (s.stepThree).frame.canon := by
  unfold State.stepThree; try dsimp only
  (repeat' split) <;> iterate 8 (try first | with_reducible apply State.softReset_canon | assumption | simp)
@[simp] theorem State.pllLocked_root (s : State) (k : Pll) (good : Nat) : (s.pllLocked k good).frame.root = s.frame.root := by
  unfold State.pllLocked; try dsimp only
  (repeat' split) <;> simp [*]
theorem State.pllLocked_canon (s : State) (k : Pll) (good : Nat) (h : s.frame.canon) : (s.pllLocked k good).frame.canon := by
  unfold State.pllLocked; try dsimp only
  (repeat' split) <;> iterate 8 (try first | with_reducible apply State.stepThree_canon | assumption | simp)
@[simp] theorem State.pllWindow_root (s : State) (k : Pll) (count : Nat) : (s.pllWindow k count).frame.root = s.frame.root := by
  unfold State.pllWindow; try dsimp only
  (repeat' split) <;> simp [*]
theorem State.pllWindow_canon (s : State) (k : Pll) (count : Nat) (h : s.frame.canon) : (s.pllWindow k count).frame.canon := by
  unfold State.pllWindow; try dsimp only
  (repeat' split) <;> iterate 8 (try first | with_reducible apply State.pllLocked_canon | assumption | simp)
@[simp] theorem State.pllTimeout_root (s : State) (k : Pll) : (s.pllTimeout k).frame.root = s.frame.root := by
  unfold State.pllTimeout; try dsimp only
  (repeat' split) <;> simp [*]
theorem State.pllTimeout_canon (s : State) (k : Pll) (h : s.frame.canon) : (s.pllTimeout k).frame.canon := by
  unfold State.pllTimeout; try dsimp only
  (repeat' split) <;> iterate 8 (try first | with_reducible apply State.stepThree_canon | assumption | simp)
@[simp] theorem State.goLock_root (s : State)  : (s.goLock).frame.root = s.frame.root := by
  unfold State.goLock; try dsimp only
  (repeat' split) <;> simp [*]
theorem State.goLock_canon (s : State)  (h : s.frame.canon) : (s.goLock).frame.canon := by
  unfold State.goLock; try dsimp only
  (repeat' split) <;> iterate 8 (try first | with_reducible apply State.stepThree_canon | assumption | simp)
@[simp] theorem State.stepTwo_root (s : State)  : (s.stepTwo).frame.root = s.frame.root := by
  unfold State.stepTwo; try dsimp only
  (repeat' split) <;> simp [*]
theorem State.stepTwo_canon (s : State)  (h : s.frame.canon) : (s.stepTwo).frame.canon := by
  unfold State.stepTwo; try dsimp only
  (repeat' split) <;> iterate 8 (try first | with_reducible apply State.goLock_canon | assumption | simp)
@[simp] theorem State.beginStart_root (s : State)  : (s.beginStart).frame.root = s.frame.root := by
  unfold State.beginStart; try dsimp only
  (repeat' split) <;> simp [*]
theorem State.beginStart_canon (s : State)  (h : s.frame.canon) : (s.beginStart).frame.canon := by
  unfold State.beginStart; try dsimp only
  (repeat' split) <;> iterate 8 (try first | with_reducible apply State.stepTwo_canon | with_reducible apply State.halt_canon | assumption | simp)
@[simp] theorem State.unhalt_root (s : State)  : (s.unhalt).frame.root = s.frame.root := by
  unfold State.unhalt; try dsimp only
  (repeat' split) <;> simp [*]
theorem State.unhalt_canon (s : State)  (h : s.frame.canon) : (s.unhalt).frame.canon := by
  unfold State.unhalt; try dsimp only
  (repeat' split) <;> iterate 8 (try first | with_reducible apply State.stepTwo_canon | assumption | simp)
@[simp] theorem State.refQualified_root (s : State)  : (s.refQualified).frame.root = s.frame.root := by
  unfold State.refQualified; try dsimp only
  (repeat' split) <;> simp [*]
theorem State.refQualified_canon (s : State)  (h : s.frame.canon) : (s.refQualified).frame.canon := by
  unfold State.refQualified; try dsimp only
  (repeat' split) <;> iterate 8 (try first | with_reducible apply State.goLock_canon | assumption | simp)
@[simp] theorem State.refWindow_root (s : State) (edges : Nat) : (s.refWindow edges).frame.root = s.frame.root := by
  unfold State.refWindow; try dsimp only
  (repeat' split) <;> simp [*]
theorem State.refWindow_canon (s : State) (edges : Nat) (h : s.frame.canon) : (s.refWindow edges).frame.canon := by
  unfold State.refWindow; try dsimp only
  (repeat' split) <;> iterate 8 (try first | with_reducible apply State.refQualified_canon | assumption | simp)
@[simp] theorem State.railTrips_root (s : State) (rail : Fin 8) : (s.railTrips rail).frame.root = s.frame.root := by
  unfold State.railTrips; try dsimp only
  (repeat' split) <;> simp [*]
theorem State.railTrips_canon (s : State) (rail : Fin 8) (h : s.frame.canon) : (s.railTrips rail).frame.canon := by
  unfold State.railTrips; try dsimp only
  (repeat' split) <;> iterate 8 (try first | with_reducible apply State.hardReset_canon | assumption | simp)
@[simp] theorem State.railsGood_root (s : State)  : (s.railsGood).frame.root = s.frame.root := by
  unfold State.railsGood; try dsimp only
  (repeat' split) <;> simp [*]
theorem State.railsGood_canon (s : State)  (h : s.frame.canon) : (s.railsGood).frame.canon := by
  unfold State.railsGood; try dsimp only
  (repeat' split) <;> iterate 8 (try first | with_reducible apply State.beginStart_canon | assumption | simp)
@[simp] theorem State.resetFalls_root (s : State)  : (s.resetFalls).frame.root = s.frame.root := by
  unfold State.resetFalls; try dsimp only
  (repeat' split) <;> simp [*]
theorem State.resetFalls_canon (s : State)  (h : s.frame.canon) : (s.resetFalls).frame.canon := by
  unfold State.resetFalls; try dsimp only
  (repeat' split) <;> iterate 8 (try first | with_reducible apply State.hardReset_canon | assumption | simp)
@[simp] theorem State.resetRises_root (s : State) (boot : BitVec 2) (addr : BitVec 5) : (s.resetRises boot addr).frame.root = s.frame.root := by
  unfold State.resetRises; try dsimp only
  (repeat' split) <;> simp [*]
theorem State.resetRises_canon (s : State) (boot : BitVec 2) (addr : BitVec 5) (h : s.frame.canon) : (s.resetRises boot addr).frame.canon := by
  unfold State.resetRises; try dsimp only
  (repeat' split) <;> iterate 8 (try first | with_reducible apply State.beginStart_canon | assumption | simp)
@[simp] theorem State.pfailFalls_root (s : State)  : (s.pfailFalls).frame.root = s.frame.root := by
  unfold State.pfailFalls; try dsimp only
  (repeat' split) <;> simp [*]
theorem State.pfailFalls_canon (s : State) (h : s.frame.canon) : s.pfailFalls.frame.canon := by
  unfold State.pfailFalls; dsimp only
  have k : (State.frame { s with sup := { s.sup with pfailN := false } }).canon := h
  generalize ({ s with sup := { s.sup with pfailN := false } } : State) = u at *
  split
  · exact k
  split
  · exact State.halt_canon _ k
  · exact State.halt_canon _ k
  · split
    · rw [State.powerLoss_frame]; exact k
    · exact State.halt_canon _ k
  · split
    · rw [State.powerLoss_frame]; exact k
    · exact State.halt_canon _ k
  · rw [State.powerLoss_frame]; exact k
  · exact k
@[simp] theorem State.pfailRises_root (s : State)  : (s.pfailRises).frame.root = s.frame.root := by
  unfold State.pfailRises; try dsimp only
  (repeat' split) <;> simp [*]
theorem State.pfailRises_canon (s : State)  (h : s.frame.canon) : (s.pfailRises).frame.canon := by
  unfold State.pfailRises; try dsimp only
  (repeat' split) <;> iterate 8 (try first | with_reducible apply State.unhalt_canon | assumption | simp)
@[simp] theorem State.testHold_root (s : State)  : (s.testHold).frame.root = s.frame.root := by
  unfold State.testHold; try dsimp only
  (repeat' split) <;> simp [*]
theorem State.testHold_canon (s : State) (h : s.frame.canon) : s.testHold.frame.canon := by
  unfold State.testHold; dsimp only
  refine State.beginStart_canon _ ?_
  have k : (s.safeState.hardReset 3 0).frame.canon := State.hardReset_canon _ _ _ (by rw [State.safeState_frame]; exact h)
  generalize s.safeState.hardReset 3 0 = u at *
  exact k
@[simp] theorem State.testRises_root (s : State) (zeroOk : Bool) : (s.testRises zeroOk).frame.root = s.frame.root := by
  unfold State.testRises; try dsimp only
  (repeat' split) <;> simp [*]
theorem State.testRises_canon (s : State) (zeroOk : Bool) (h : s.frame.canon) : (s.testRises zeroOk).frame.canon := by
  unfold State.testRises; try dsimp only
  (repeat' split) <;> iterate 8 (try first | with_reducible apply State.testHold_canon | assumption | simp)
@[simp] theorem State.zeroiseEnds_root (s : State) (ok : Bool) : (s.zeroiseEnds ok).frame.root = s.frame.root := by
  unfold State.zeroiseEnds; try dsimp only
  (repeat' split) <;> simp [*]
theorem State.zeroiseEnds_canon (s : State) (ok : Bool) (h : s.frame.canon) : (s.zeroiseEnds ok).frame.canon := by
  unfold State.zeroiseEnds; try dsimp only
  (repeat' split) <;> iterate 8 (try first | with_reducible apply State.testHold_canon | assumption | simp)
@[simp] theorem State.testFalls_root (s : State)  : (s.testFalls).frame.root = s.frame.root := by
  unfold State.testFalls; try dsimp only
  (repeat' split) <;> simp [*]
theorem State.testFalls_canon (s : State)  (h : s.frame.canon) : (s.testFalls).frame.canon := by
  unfold State.testFalls; try dsimp only
  (repeat' split) <;> iterate 8 (try first | with_reducible apply State.unhalt_canon | with_reducible apply State.beginStart_canon | assumption | simp)
@[simp] theorem State.forcePll_root (s : State) (k : Pll) (off : Bool) : (s.forcePll k off).frame.root = s.frame.root := by
  unfold State.forcePll; try dsimp only
  (repeat' split) <;> simp [*]
theorem State.forcePll_canon (s : State) (k : Pll) (off : Bool) (h : s.frame.canon) : (s.forcePll k off).frame.canon := by
  unfold State.forcePll; try dsimp only
  (repeat' split) <;> iterate 8 (try first | with_reducible apply State.stepThree_canon | assumption | simp)
@[simp] theorem State.forceOne_root (s : State) (zeroOk : Bool) (d : Nat) : (s.forceOne zeroOk d).frame.root = s.frame.root := by
  unfold State.forceOne; dsimp only
  split
  · split <;> simp
  split
  · exact congrArg Frame.root (State.forceBank_frame _ _ _)
  split
  · split
    · exact congrArg Frame.root (State.loseLane_frame _ _ _)
    · rfl
  split
  · split <;> simp
  split
  · split <;> simp
  split
  · split <;> simp
  split
  · exact State.forcePll_root _ _ _
  split
  · exact congrArg Frame.root (foldl_frame _ _ _ (fun t p => by split <;> simp))
  · rfl
theorem State.forceOne_canon (s : State) (zeroOk : Bool) (d : Nat) (h : s.frame.canon) : (s.forceOne zeroOk d).frame.canon := by
  unfold State.forceOne; dsimp only
  split
  · split <;> simpa using h
  split
  · rw [State.forceBank_frame]; exact h
  split
  · split
    · rw [State.loseLane_frame]; exact h
    · exact h
  split
  · split <;> simpa using h
  split
  · split <;> simpa using h
  split
  · split <;> simpa using h
  split
  · exact State.forcePll_canon _ _ _ h
  split
  · rw [foldl_frame _ _ _ (fun t p => by split <;> simp)]; exact h
  · exact h
@[simp] theorem State.forceWritten_root (s : State) (n : Fin 8) (old : Word) (zeroOk : Bool) : (s.forceWritten n old zeroOk).frame.root = s.frame.root := by
  unfold State.forceWritten
  exact foldl_root _ _ _ (fun t x => State.forceOne_root _ _ _)
theorem State.forceWritten_canon (s : State) (n : Fin 8) (old : Word) (zeroOk : Bool) (h : s.frame.canon) : (s.forceWritten n old zeroOk).frame.canon := by
  unfold State.forceWritten
  exact foldl_canon _ _ _ (fun t x ht => State.forceOne_canon _ _ _ ht) h

/-! ### TestOps -/

@[simp] theorem State.lbistEnds_root (s : State) (passed : Bool) : (s.lbistEnds passed).frame.root = s.frame.root := by
  unfold State.lbistEnds; try dsimp only
  (repeat' split) <;> simp [*]
theorem State.lbistEnds_canon (s : State) (passed : Bool) (h : s.frame.canon) : (s.lbistEnds passed).frame.canon := by
  unfold State.lbistEnds; dsimp only
  split
  · exact h
  · have hu : (State.frame { s with test := { s.test with lbRuns := s.test.lbRuns + 1, lbResult := if passed then 1 else 2 } }).canon := h
    generalize ({ s with test := { s.test with lbRuns := s.test.lbRuns + 1, lbResult := if passed then 1 else 2 } } : State) = t at *
    have k := State.softReset_canon t 6 true hu
    generalize t.softReset 6 true = u at *
    exact k
@[simp] theorem State.zeroiseResult_root (s : State) (ok : Bool) : (s.zeroiseResult ok).frame.root = s.frame.root := by
  unfold State.zeroiseResult; try dsimp only
  (repeat' split) <;> simp [*]
theorem State.zeroiseResult_canon (s : State) (ok : Bool) (h : s.frame.canon) : (s.zeroiseResult ok).frame.canon := by
  unfold State.zeroiseResult; try dsimp only
  (repeat' split) <;> iterate 8 (try first | with_reducible apply State.zeroiseEnds_canon | assumption | simp)
@[simp] theorem State.tapEdge_root (s : State) (trstN tms tdi : Bool) : (s.tapEdge trstN tms tdi).frame.root = s.frame.root := by
  unfold State.tapEdge; try dsimp only
  (repeat' split) <;> simp [*]
theorem State.tapEdge_canon (s : State) (trstN tms tdi : Bool) (h : s.frame.canon) : (s.tapEdge trstN tms tdi).frame.canon := by
  unfold State.tapEdge; try dsimp only
  (repeat' split) <;> iterate 8 (try first | assumption | skip | simp)

/-! ### RegWrite -/

@[simp] theorem State.resetActed_root (s : State) (acted : Word) : (s.resetActed acted).frame.root = s.frame.root := by
  unfold State.resetActed; dsimp only
  split
  · simp
  · rw [foldl_root _ _ _ (fun t p => by split <;> simp), foldl_root _ _ _ (fun t n => by split <;> simp)]
    split <;> simp
theorem State.resetActed_canon (s : State) (acted : Word) (h : s.frame.canon) : (s.resetActed acted).frame.canon := by
  unfold State.resetActed; dsimp only
  split
  · exact State.softReset_canon _ _ _ h
  · refine foldl_canon _ _ _ (fun t p ht => ?_) (foldl_canon _ _ _ (fun t n ht => ?_) ?_)
    · split <;> simpa using ht
    · split <;> simpa using ht
    · split <;> simpa using h
@[simp] theorem State.chipEffect_root (s : State) (ix : Nat) (old acted : Word) (sup : Option Supplied) : (s.chipEffect ix old acted sup).frame.root = s.frame.root := by
  unfold State.chipEffect; try dsimp only
  (repeat' split) <;> simp [*]
theorem State.chipEffect_canon (s : State) (ix : Nat) (old acted : Word) (sup : Option Supplied) (h : s.frame.canon) : (s.chipEffect ix old acted sup).frame.canon := by
  unfold State.chipEffect; try dsimp only
  (repeat' split) <;> iterate 8 (try first | with_reducible apply State.resetActed_canon | with_reducible apply State.forceWritten_canon | assumption | simp)
@[simp] theorem State.regEffect_root (s : State) (b ix : Nat) (old acted : Word) (sup : Option Supplied) : (s.regEffect b ix old acted sup).frame.root = s.frame.root := by
  unfold State.regEffect; try dsimp only
  (repeat' split) <;> simp [*]
theorem State.regEffect_canon (s : State) (b ix : Nat) (old acted : Word) (sup : Option Supplied) (h : s.frame.canon) : (s.regEffect b ix old acted sup).frame.canon := by
  unfold State.regEffect; try dsimp only
  (repeat' split) <;> iterate 8 (try first | with_reducible apply State.chipEffect_canon | assumption | simp)
@[simp] theorem State.storeReg_root (s : State) (b ix : Nat) (guarded : Bool) (way : Way) (v : Word) (sup : Option Supplied) : (s.storeReg b ix guarded way v sup).frame.root = s.frame.root := by
  unfold State.storeReg; try dsimp only
  (repeat' split) <;> simp [*]
theorem State.storeReg_canon (s : State) (b ix : Nat) (guarded : Bool) (way : Way) (v : Word) (sup : Option Supplied) (h : s.frame.canon) : (s.storeReg b ix guarded way v sup).frame.canon := by
  unfold State.storeReg; try dsimp only
  (repeat' split) <;> iterate 8 (try first | with_reducible apply State.setReg_canon | with_reducible apply State.regEffect_canon | assumption | simp)
@[simp] theorem State.indNext_root (s : State) (i : Iface) (b : Nat) : (s.indNext i b).frame.root = s.frame.root := by
  unfold State.indNext; try dsimp only
  (repeat' split) <;> simp [*]
theorem State.indNext_canon (s : State) (i : Iface) (b : Nat) (h : s.frame.canon) : (s.indNext i b).frame.canon := by
  unfold State.indNext; try dsimp only
  (repeat' split) <;> iterate 8 (try first | with_reducible apply State.setReg_canon | assumption | simp)
@[simp] theorem State.readAct_root (s : State) (i : Iface) (b ix : Nat) : (s.readAct i b ix).frame.root = s.frame.root := by
  unfold State.readAct; try dsimp only
  (repeat' split) <;> simp [*]
theorem State.readAct_canon (s : State) (i : Iface) (b ix : Nat) (h : s.frame.canon) : (s.readAct i b ix).frame.canon := by
  unfold State.readAct; try dsimp only
  (repeat' split) <;> iterate 8 (try first | with_reducible apply State.modIface_canon | with_reducible apply State.indNext_canon | assumption | simp)
@[simp] theorem State.guardAbort_root (s : State) (i : Iface) : (s.guardAbort i).frame.root = s.frame.root := by
  unfold State.guardAbort; try dsimp only
  (repeat' split) <;> simp [*]
theorem State.guardAbort_canon (s : State) (i : Iface) (h : s.frame.canon) : (s.guardAbort i).frame.canon := by
  unfold State.guardAbort; try dsimp only
  (repeat' split) <;> iterate 8 (try first | with_reducible apply State.modIface_canon | assumption | simp)
@[simp] theorem State.guardDrop_root (s : State) (i : Iface) : (s.guardDrop i).frame.root = s.frame.root := by
  unfold State.guardDrop; try dsimp only
  (repeat' split) <;> simp [*]
theorem State.guardDrop_canon (s : State) (i : Iface) (h : s.frame.canon) : (s.guardDrop i).frame.canon := by
  unfold State.guardDrop; try dsimp only
  (repeat' split) <;> iterate 8 (try first | with_reducible apply State.guardAbort_canon | assumption | simp)
@[simp] theorem State.bare_root (s : State) : s.bare.frame.root = s.frame.root := by
  rfl
theorem State.bare_canon (s : State) (h : s.frame.canon) : s.bare.frame.canon := by
  exact h
@[simp] theorem State.said_root (s : State) (i : Iface) (guard crc frame none_ : Bool) : (s.said i guard crc frame none_).frame.root = s.frame.root := by
  unfold State.said; try dsimp only
  (repeat' split) <;> simp [*]
theorem State.said_canon (s : State) (i : Iface) (guard crc frame none_ : Bool) (h : s.frame.canon) : (s.said i guard crc frame none_).frame.canon := by
  unfold State.said; try dsimp only
  (repeat' split) <;> iterate 8 (try first | with_reducible apply State.modIface_canon | assumption | simp)

/-! ### Auzer -/

@[simp] theorem State.keeperWrite_root (s : State) (b ix : Nat) (way : Way) (v : Word) : (s.keeperWrite b ix way v).frame.root = s.frame.root := by
  unfold State.keeperWrite; try dsimp only
  (repeat' split) <;> simp [*]
theorem State.keeperWrite_canon (s : State) (b ix : Nat) (way : Way) (v : Word) (h : s.frame.canon) : (s.keeperWrite b ix way v).frame.canon := by
  unfold State.keeperWrite; try dsimp only
  (repeat' split) <;> iterate 8 (try first | with_reducible apply State.storeReg_canon | assumption | simp)
@[simp] theorem State.servePolicy_root (s : State) (c : Fin 16) : (s.servePolicy c).frame.root = s.frame.root := by
  unfold State.servePolicy; try dsimp only
  (repeat' split) <;> simp [*]
theorem State.servePolicy_canon (s : State) (c : Fin 16) (h : s.frame.canon) : (s.servePolicy c).frame.canon := by
  unfold State.servePolicy; try dsimp only
  (repeat' split) <;> iterate 8 (try first | with_reducible apply State.keeperWrite_canon | assumption | simp)
@[simp] theorem State.serveEnable_root (s : State) (c : Fin 16) (on : Bool) : (s.serveEnable c on).frame.root = s.frame.root := by
  unfold State.serveEnable; dsimp only
  rw [State.answer_frame, foldl_root _ _ _ (fun t p => by simp)]
theorem State.serveEnable_canon (s : State) (c : Fin 16) (on : Bool) (h : s.frame.canon) : (s.serveEnable c on).frame.canon := by
  unfold State.serveEnable; dsimp only
  rw [State.answer_frame]
  exact foldl_canon _ _ _ (fun t p ht => State.keeperWrite_canon _ _ _ _ _ (by simpa using ht)) h
@[simp] theorem State.serveForce_root (s : State) (c : Fin 16) : (s.serveForce c).frame.root = s.frame.root := by
  unfold State.serveForce; try dsimp only
  (repeat' split) <;> simp [*]
theorem State.serveForce_canon (s : State) (c : Fin 16) (h : s.frame.canon) : (s.serveForce c).frame.canon := by
  unfold State.serveForce; try dsimp only
  (repeat' split) <;> iterate 8 (try first | with_reducible apply State.keeperWrite_canon | assumption | simp)
@[simp] theorem State.activateReset_root (s : State) : s.activateReset.frame.root = s.frame.root := by
  unfold State.activateReset; try dsimp only
  (repeat' split) <;> simp [*]
theorem State.activateReset_canon (s : State) (h : s.frame.canon) : s.activateReset.frame.canon := by
  unfold State.activateReset; try dsimp only
  (repeat' split) <;> iterate 8 (try first | with_reducible apply State.softReset_canon | assumption | simp)
@[simp] theorem State.serveCode_root (s : State) (c : Fin 16) (code : Nat) (sup : Option Supplied) : (s.serveCode c code sup).frame.root = s.frame.root := by
  unfold State.serveCode; try dsimp only
  (repeat' split) <;> simp [*]
theorem State.serveCode_canon (s : State) (c : Fin 16) (code : Nat) (sup : Option Supplied) (h : s.frame.canon) : (s.serveCode c code sup).frame.canon := by
  unfold State.serveCode
  split
  all_goals first
    | with_reducible exact State.servePolicy_canon _ _ h
    | with_reducible exact State.serveEnable_canon _ _ _ h
    | with_reducible exact State.serveForce_canon _ _ h
    | (simp only [State.serveHello_frame, State.serveStream_frame, State.serveClose_frame, State.serveCadence_frame,
        State.serveLearn_frame, State.serveTimeSet_frame, State.serveAdjust_frame, State.serveSchedule_frame,
        State.serveSnapshot_frame, State.serveCommitAt_frame, State.serveCalRun_frame, State.serveCalRead_frame,
        State.serveTdr_frame, State.serveWatch_frame, State.serveKeyLoad_frame, State.serveKeyErase_frame,
        State.serveCommit_frame, State.serveJournalRead_frame, State.serveBist_frame, State.serveFetch_frame,
        State.serveRemote_frame, State.serveStage_frame, State.serveActivate_frame, State.answer_frame]; exact h)
@[simp] theorem State.serve_root (s : State) (c : Fin 16) (sup : Option Supplied) : (s.serve c sup).frame.root = s.frame.root := by
  unfold State.serve; try dsimp only
  (repeat' split) <;> simp [*]
theorem State.serve_canon (s : State) (c : Fin 16) (sup : Option Supplied) (h : s.frame.canon) : (s.serve c sup).frame.canon := by
  unfold State.serve; try dsimp only
  (repeat' split) <;> iterate 8 (try first | with_reducible apply State.serveCode_canon | assumption | simp)
@[simp] theorem State.doorbell_root (s : State) (c : Fin 16) (sup : Option Supplied) : (s.doorbell c sup).frame.root = s.frame.root := by
  unfold State.doorbell; try dsimp only
  (repeat' split) <;> simp [*]
theorem State.doorbell_canon (s : State) (c : Fin 16) (sup : Option Supplied) (h : s.frame.canon) : (s.doorbell c sup).frame.canon := by
  unfold State.doorbell; try dsimp only
  (repeat' split) <;> iterate 8 (try first | with_reducible apply State.serve_canon | assumption | simp)
@[simp] theorem State.issueCmd_root (s : State) (c : Fin 16) (code : Nat) (r : Request) (sup : Option Supplied) : (s.issueCmd c code r sup).frame.root = s.frame.root := by
  unfold State.issueCmd; try dsimp only
  (repeat' split) <;> simp [*]
theorem State.issueCmd_canon (s : State) (c : Fin 16) (code : Nat) (r : Request) (sup : Option Supplied) (h : s.frame.canon) : (s.issueCmd c code r sup).frame.canon := by
  unfold State.issueCmd; try dsimp only
  (repeat' split) <;> iterate 8 (try first | with_reducible apply State.doorbell_canon | assumption | simp)
@[simp] theorem State.door_root (s : State) (c : Fin 16) (acted : Word) (sup : Option Supplied) : (s.door c acted sup).frame.root = s.frame.root := by
  unfold State.door; try dsimp only
  (repeat' split) <;> simp [*]
theorem State.door_canon (s : State) (c : Fin 16) (acted : Word) (sup : Option Supplied) (h : s.frame.canon) : (s.door c acted sup).frame.canon := by
  unfold State.door; try dsimp only
  (repeat' split) <;> iterate 8 (try first | with_reducible apply State.doorbell_canon | assumption | simp)

/-! ### Bus -/

@[simp] theorem State.writeInd_root (s : State) (i : Iface) (b : Nat) (way : Way) (v : Word) : (s.writeInd i b way v).frame.root = s.frame.root := by
  unfold State.writeInd; try dsimp only
  (repeat' split) <;> simp [*]
theorem State.writeInd_canon (s : State) (i : Iface) (b : Nat) (way : Way) (v : Word) (h : s.frame.canon) : (s.writeInd i b way v).frame.canon := by
  unfold State.writeInd; try dsimp only
  (repeat' split) <;> iterate 8 (try first | with_reducible apply State.indNext_canon | with_reducible apply State.said_canon | assumption | simp)
@[simp] theorem State.writeKeeperInd_root (s : State) (b : Nat) (way : Way) (v : Word) : (s.writeKeeperInd b way v).frame.root = s.frame.root := by
  unfold State.writeKeeperInd; try dsimp only
  (repeat' split) <;> simp [*]
theorem State.writeKeeperInd_canon (s : State) (b : Nat) (way : Way) (v : Word) (h : s.frame.canon) : (s.writeKeeperInd b way v).frame.canon := by
  unfold State.writeKeeperInd; try dsimp only
  (repeat' split) <;> iterate 8 (try first | assumption | skip | simp)
@[simp] theorem State.applyWrite_root (s : State) (i : Iface) (b ix : Nat) (guarded : Bool) (way : Way) (v : Word) (sup : Option Supplied) : (s.applyWrite i b ix guarded way v sup).frame.root = s.frame.root := by
  unfold State.applyWrite; try dsimp only
  (repeat' split) <;> simp [*]
theorem State.applyWrite_canon (s : State) (i : Iface) (b ix : Nat) (guarded : Bool) (way : Way) (v : Word) (sup : Option Supplied) (h : s.frame.canon) : (s.applyWrite i b ix guarded way v sup).frame.canon := by
  unfold State.applyWrite; try dsimp only
  (repeat' split) <;> iterate 8 (try first | with_reducible apply State.storeReg_canon | with_reducible apply State.door_canon | assumption | simp)
@[simp] theorem State.writeFree_root (s : State) (i : Iface) (b ix : Nat) (way : Way) (comp : Bool) (v : Word) (sup : Option Supplied) : (s.writeFree i b ix way comp v sup).frame.root = s.frame.root := by
  unfold State.writeFree; try dsimp only
  (repeat' split) <;> simp [*]
theorem State.writeFree_canon (s : State) (i : Iface) (b ix : Nat) (way : Way) (comp : Bool) (v : Word) (sup : Option Supplied) (h : s.frame.canon) : (s.writeFree i b ix way comp v sup).frame.canon := by
  unfold State.writeFree; try dsimp only
  (repeat' split) <;> iterate 8 (try first | with_reducible apply State.modIface_canon | with_reducible apply State.bare_canon | with_reducible apply State.said_canon | with_reducible apply State.writeInd_canon | with_reducible apply State.writeKeeperInd_canon | with_reducible apply State.applyWrite_canon | assumption | simp)
@[simp] theorem State.mismatch_root (s : State) (i : Iface) : (s.mismatch i).frame.root = s.frame.root := by
  unfold State.mismatch; try dsimp only
  (repeat' split) <;> simp [*]
theorem State.mismatch_canon (s : State) (i : Iface) (h : s.frame.canon) : (s.mismatch i).frame.canon := by
  unfold State.mismatch; try dsimp only
  (repeat' split) <;> iterate 8 (try first | with_reducible apply State.modIface_canon | with_reducible apply State.said_canon | assumption | simp)
@[simp] theorem State.accepted_root (s : State) (i : Iface) (b ix : Nat) (v : Word) (sup : Option Supplied) : (s.accepted i b ix v sup).frame.root = s.frame.root := by
  unfold State.accepted; try dsimp only
  (repeat' split) <;> simp [*]
theorem State.accepted_canon (s : State) (i : Iface) (b ix : Nat) (v : Word) (sup : Option Supplied) (h : s.frame.canon) : (s.accepted i b ix v sup).frame.canon := by
  unfold State.accepted; try dsimp only
  (repeat' split) <;> iterate 8 (try first | with_reducible apply State.modIface_canon | with_reducible apply State.said_canon | with_reducible apply State.applyWrite_canon | assumption | simp)
@[simp] theorem State.busWrite_root (s : State) (i : Iface) (b ix : Nat) (way : Way) (comp : Bool) (v : Word) (sup : Option Supplied) : (s.busWrite i b ix way comp v sup).frame.root = s.frame.root := by
  unfold State.busWrite; try dsimp only
  (repeat' split) <;> simp [*]
theorem State.busWrite_canon (s : State) (i : Iface) (b ix : Nat) (way : Way) (comp : Bool) (v : Word) (sup : Option Supplied) (h : s.frame.canon) : (s.busWrite i b ix way comp v sup).frame.canon := by
  unfold State.busWrite; dsimp only
  have hb : (s.began i).frame.canon := by simpa using h
  split
  · exact h
  · split
    · exact State.said_canon _ _ _ _ _ _ (canon_mk _ _ _ _ _ _ _ _ _ _ _ _ _ _ _ _ _ _ _ _ _ _ _ _ _ _ _ _ _ _ _ _ _ (State.guardDrop_canon _ _ hb))
    · split
      · exact State.writeFree_canon _ _ _ _ _ _ _ _ hb
      · split
        · exact State.said_canon _ _ _ _ _ _ (State.modIface_canon _ _ _ hb)
        · exact State.writeFree_canon _ _ _ _ _ _ _ _ (State.guardAbort_canon _ _ hb)
      · split
        · split
          · exact State.accepted_canon _ _ _ _ _ _ hb
          · exact State.mismatch_canon _ _ hb
        · exact State.writeFree_canon _ _ _ _ _ _ _ _ (State.guardAbort_canon _ _ hb)
@[simp] theorem State.busRead_root (s : State) (i : Iface) (b ix : Nat) (comp : Bool) : (s.busRead i b ix comp).frame.root = s.frame.root := by
  unfold State.busRead; try dsimp only
  (repeat' split) <;> simp [*]
theorem State.busRead_canon (s : State) (i : Iface) (b ix : Nat) (comp : Bool) (h : s.frame.canon) : (s.busRead i b ix comp).frame.canon := by
  unfold State.busRead; try dsimp only
  (repeat' split) <;> iterate 8 (try first | with_reducible apply State.modIface_canon | with_reducible apply State.readAct_canon | with_reducible apply State.guardDrop_canon | with_reducible apply State.said_canon | assumption | simp)
@[simp] theorem State.addrWrite_root (s : State) (i : Iface) (a : Addr) (v : Word) : (s.addrWrite i a v).frame.root = s.frame.root := by
  unfold State.addrWrite; try dsimp only
  (repeat' split) <;> simp [*]
theorem State.addrWrite_canon (s : State) (i : Iface) (a : Addr) (v : Word) (h : s.frame.canon) : (s.addrWrite i a v).frame.canon := by
  unfold State.addrWrite; try dsimp only
  (repeat' split) <;> iterate 8 (try first | with_reducible apply State.busWrite_canon | assumption | simp)
@[simp] theorem State.addrRead_root (s : State) (i : Iface) (a : Addr) : (s.addrRead i a).frame.root = s.frame.root := by
  unfold State.addrRead; try dsimp only
  (repeat' split) <;> simp [*]
theorem State.addrRead_canon (s : State) (i : Iface) (a : Addr) (h : s.frame.canon) : (s.addrRead i a).frame.canon := by
  unfold State.addrRead; try dsimp only
  (repeat' split) <;> iterate 8 (try first | with_reducible apply State.busRead_canon | assumption | simp)
@[simp] theorem State.guardedWrite_root (s : State) (i : Iface) (b ix : Nat) (v : Word) (sup : Option Supplied) : (s.guardedWrite i b ix v sup).frame.root = s.frame.root := by
  unfold State.guardedWrite; try dsimp only
  (repeat' split) <;> simp [*]
theorem State.guardedWrite_canon (s : State) (i : Iface) (b ix : Nat) (v : Word) (sup : Option Supplied) (h : s.frame.canon) : (s.guardedWrite i b ix v sup).frame.canon := by
  unfold State.guardedWrite; try dsimp only
  (repeat' split) <;> iterate 8 (try first | with_reducible apply State.busWrite_canon | assumption | simp)
@[simp] theorem State.spiIgnored_root (s : State) (e : SpiError) : (s.spiIgnored e).frame.root = s.frame.root := by
  unfold State.spiIgnored; try dsimp only
  (repeat' split) <;> simp [*]
theorem State.spiIgnored_canon (s : State) (e : SpiError) (h : s.frame.canon) : (s.spiIgnored e).frame.canon := by
  unfold State.spiIgnored; dsimp only
  have hb : ((s.began .spi).guardDrop .spi).frame.canon := State.guardDrop_canon _ _ (by simpa using h)
  split
  · exact h
  · split
    · exact State.said_canon _ _ _ _ _ _ (by rw [State.count_frame]; exact canon_mk _ _ _ _ _ _ _ _ _ _ _ _ _ _ _ _ _ _ _ _ _ _ _ _ _ _ _ _ _ _ _ _ _ hb)
    · exact State.said_canon _ _ _ _ _ _ (canon_mk _ _ _ _ _ _ _ _ _ _ _ _ _ _ _ _ _ _ _ _ _ _ _ _ _ _ _ _ _ _ _ _ _ hb)
    · exact State.said_canon _ _ _ _ _ _ (canon_mk _ _ _ _ _ _ _ _ _ _ _ _ _ _ _ _ _ _ _ _ _ _ _ _ _ _ _ _ _ _ _ _ _ hb)
@[simp] theorem State.guardLate_root (s : State) (i : Iface) : (s.guardLate i).frame.root = s.frame.root := by
  unfold State.guardLate; try dsimp only
  (repeat' split) <;> simp [*]
theorem State.guardLate_canon (s : State) (i : Iface) (h : s.frame.canon) : (s.guardLate i).frame.canon := by
  unfold State.guardLate; try dsimp only
  (repeat' split) <;> iterate 8 (try first | with_reducible apply State.guardDrop_canon | assumption | simp)
@[simp] theorem State.restoreOne_root (s : State) (b ix : Nat) : (s.restoreOne b ix).frame.root = s.frame.root := by
  unfold State.restoreOne; try dsimp only
  (repeat' split) <;> simp [*]
theorem State.restoreOne_canon (s : State) (b ix : Nat) (h : s.frame.canon) : (s.restoreOne b ix).frame.canon := by
  unfold State.restoreOne; try dsimp only
  (repeat' split) <;> iterate 8 (try first | with_reducible apply State.setReg_canon | with_reducible apply State.regEffect_canon | assumption | simp)
@[simp] theorem State.restoreOwned_root (s : State) (b : Nat) : (s.restoreOwned b).frame.root = s.frame.root := by
  unfold State.restoreOwned
  split
  · exact foldl_root _ _ _ (fun t ix => State.restoreOne_root _ _ _)
  · rfl
theorem State.restoreOwned_canon (s : State) (b : Nat) (h : s.frame.canon) : (s.restoreOwned b).frame.canon := by
  unfold State.restoreOwned
  split
  · exact foldl_canon _ _ _ (fun t ix ht => State.restoreOne_canon _ _ _ ht) h
  · exact h
@[simp] theorem State.commitWrite_root (s : State) (w : Addr × Word) : (s.commitWrite w).frame.root = s.frame.root := by
  unfold State.commitWrite; try dsimp only
  (repeat' split) <;> simp [*]
theorem State.commitWrite_canon (s : State) (w : Addr × Word) (h : s.frame.canon) : (s.commitWrite w).frame.canon := by
  unfold State.commitWrite; try dsimp only
  (repeat' split) <;> iterate 8 (try first | with_reducible apply State.applyWrite_canon | assumption | simp)
@[simp] theorem State.commitActs_root (s : State) (e : Nat) : (s.commitActs e).frame.root = s.frame.root := by
  unfold State.commitActs
  split
  · rw [State.instantActs_frame, foldl_root _ _ _ (fun t w => State.commitWrite_root _ _)]
  · rfl
theorem State.commitActs_canon (s : State) (e : Nat) (h : s.frame.canon) : (s.commitActs e).frame.canon := by
  unfold State.commitActs
  split
  · rw [State.instantActs_frame]; exact foldl_canon _ _ _ (fun t w ht => State.commitWrite_canon _ _ ht) h
  · exact h
@[simp] theorem State.mdioPut_root (s : State) (prtad devad : BitVec 5) (v : BitVec 16) : (s.mdioPut prtad devad v).frame.root = s.frame.root := by
  unfold State.mdioPut; try dsimp only
  (repeat' split) <;> simp [*]
theorem State.mdioPut_canon (s : State) (prtad devad : BitVec 5) (v : BitVec 16) (h : s.frame.canon) : (s.mdioPut prtad devad v).frame.canon := by
  unfold State.mdioPut; try dsimp only
  (repeat' split) <;> iterate 8 (try first | with_reducible apply State.storeReg_canon | assumption | simp)
@[simp] theorem State.monLine_root (s : State) (f : State → State) (hf : ∀ t, (f t).frame.root = t.frame.root) : (s.monLine f).frame.root = s.frame.root := by
  unfold State.monLine; try dsimp only
  (repeat' split) <;> simp [*]
theorem State.monLine_canon (s : State) (f : State → State) (hf : ∀ t : State, t.frame.canon → (f t).frame.canon) (h : s.frame.canon) : (s.monLine f).frame.canon := by
  unfold State.monLine
  split
  · exact h
  · exact hf _ h
@[simp] theorem State.monSay_root (s : State) (ok : Bool) (ws : List Word) : (s.monSay ok ws).frame.root = s.frame.root := by
  unfold State.monSay; try dsimp only
  (repeat' split) <;> simp [*]
theorem State.monSay_canon (s : State) (ok : Bool) (ws : List Word) (h : s.frame.canon) : (s.monSay ok ws).frame.canon := by
  unfold State.monSay; try dsimp only
  (repeat' split) <;> iterate 8 (try first | assumption | skip | simp)
@[simp] theorem State.monGet_root (s : State) (a : Addr) : (s.monGet a).frame.root = s.frame.root := by
  unfold State.monGet; try dsimp only
  (repeat' split) <;> simp [*]
theorem State.monGet_canon (s : State) (a : Addr) (h : s.frame.canon) : (s.monGet a).frame.canon := by
  refine State.monLine_canon _ _ (fun t ht => ?_) h
  exact State.monSay_canon _ _ _ (State.addrRead_canon _ _ _ ht)
@[simp] theorem State.monPut_root (s : State) (a : Addr) (v : Word) : (s.monPut a v).frame.root = s.frame.root := by
  unfold State.monPut; try dsimp only
  (repeat' split) <;> simp [*]
theorem State.monPut_canon (s : State) (a : Addr) (v : Word) (h : s.frame.canon) : (s.monPut a v).frame.canon := by
  refine State.monLine_canon _ _ (fun t ht => ?_) h
  exact State.monSay_canon _ _ _ (State.addrWrite_canon _ _ _ _ ht)
@[simp] theorem State.monCall_root (s : State) (c : Fin 16) (ws : List Word) : (s.monCall c ws).frame.root = s.frame.root := by
  unfold State.monCall
  refine State.monLine_root _ _ (fun t => ?_)
  dsimp only
  (repeat' split) <;> simp
theorem State.monCall_canon (s : State) (c : Fin 16) (ws : List Word) (h : s.frame.canon) : (s.monCall c ws).frame.canon := by
  refine State.monLine_canon _ _ (fun t ht => ?_) h
  dsimp only
  have hu : (t.modChan c (fun ch => ch.filled ws)).frame.canon := by simpa using ht
  split
  · exact State.monSay_canon _ _ _ ht
  · split
    · exact State.monSay_canon _ _ _ (State.doorbell_canon _ _ _ (by simpa using ht))
    · exact State.doorbell_canon _ _ _ (canon_mk _ _ _ _ _ _ _ _ _ _ _ _ _ _ _ _ _ _ _ _ _ _ _ _ _ _ _ _ _ _ _ _ _ hu)
@[simp] theorem State.monDone_root (s : State) (c : Fin 16) : (s.monDone c).frame.root = s.frame.root := by
  unfold State.monDone; try dsimp only
  (repeat' split) <;> simp [*]
theorem State.monDone_canon (s : State) (c : Fin 16) (h : s.frame.canon) : (s.monDone c).frame.canon := by
  unfold State.monDone; try dsimp only
  (repeat' split) <;> iterate 8 (try first | with_reducible apply State.monSay_canon | assumption | simp)
@[simp] theorem State.monTraceSet_root (s : State) (on : Bool) : (s.monTraceSet on).frame.root = s.frame.root := by
  unfold State.monTraceSet; try dsimp only
  (repeat' split) <;> simp [*]
theorem State.monTraceSet_canon (s : State) (on : Bool) (h : s.frame.canon) : (s.monTraceSet on).frame.canon := by
  refine State.monLine_canon _ _ (fun t ht => ?_) h
  exact State.monSay_canon _ _ _ ht
@[simp] theorem State.monDump_root (s : State) (block : Nat) : (s.monDump block).frame.root = s.frame.root := by
  unfold State.monDump; try dsimp only
  (repeat' split) <;> simp [*]
theorem State.monDump_canon (s : State) (block : Nat) (h : s.frame.canon) : (s.monDump block).frame.canon := by
  refine State.monLine_canon _ _ (fun t ht => ?_) h
  exact State.monSay_canon _ _ _ ht
@[simp] theorem State.monRate_root (s : State) (code : Nat) : (s.monRate code).frame.root = s.frame.root := by
  unfold State.monRate; try dsimp only
  (repeat' split) <;> simp [*]
theorem State.monRate_canon (s : State) (code : Nat) (h : s.frame.canon) : (s.monRate code).frame.canon := by
  refine State.monLine_canon _ _ (fun t ht => ?_) h
  split <;> exact State.monSay_canon _ _ _ ht
@[simp] theorem State.monBad_root (s : State) : s.monBad.frame.root = s.frame.root := by
  unfold State.monBad; try dsimp only
  (repeat' split) <;> simp [*]
theorem State.monBad_canon (s : State) (h : s.frame.canon) : s.monBad.frame.canon := by
  refine State.monLine_canon _ _ (fun t ht => ?_) h
  exact State.monSay_canon _ _ _ ht

/-! ### Operands -/

@[simp] theorem State.wr_root (s : State) (i : Iface) (b ix : Nat) (w : Way) (v : Word) : (s.wr i b ix w v).frame.root = s.frame.root := by
  unfold State.wr; try dsimp only
  (repeat' split) <;> simp [*]
theorem State.wr_canon (s : State) (i : Iface) (b ix : Nat) (w : Way) (v : Word) (h : s.frame.canon) : (s.wr i b ix w v).frame.canon := by
  unfold State.wr; try dsimp only
  (repeat' split) <;> iterate 8 (try first | with_reducible apply State.busWrite_canon | assumption | simp)
@[simp] theorem State.wrBit_root (s : State) (i : Iface) (b ix k : Nat) : (s.wrBit i b ix k).frame.root = s.frame.root := by
  unfold State.wrBit; try dsimp only
  (repeat' split) <;> simp [*]
theorem State.wrBit_canon (s : State) (i : Iface) (b ix k : Nat) (h : s.frame.canon) : (s.wrBit i b ix k).frame.canon := by
  unfold State.wrBit; try dsimp only
  (repeat' split) <;> iterate 8 (try first | with_reducible apply State.busWrite_canon | assumption | simp)

end Sys2Proof.Machine
end

