-- ==== Sys2Proof/Laws/Domains.lean ====
section
/-! SUPPORT. The power domains (R57 to R61): the bits of a mask, the closure under dependencies, and what holds of the domains
after every command. -/

namespace Sys2Proof.Machine
theorem setBit_bit {n : Nat} (m : BitVec n) (i : Nat) (b : Bool) (d : Nat) (h : d < n) :
    (setBit m i b).getLsbD d = if d = i then b else m.getLsbD d := by
  unfold setBit
  by_cases e : d = i
  · subst e; cases b <;> simp [h]
  · cases b <;> simp [h, e]
theorem foldl_setBit_bit {n : Nat} (l : List Nat) (m : BitVec n) (b : Bool) (d : Nat) (h : d < n) :
    (l.foldl (fun m i => setBit m i b) m).getLsbD d = if d ∈ l then b else m.getLsbD d := by
  induction l generalizing m with
  | nil => simp
  | cons a l ih =>
    rw [List.foldl_cons, ih, setBit_bit _ _ _ _ h]
    by_cases e1 : d = a <;> by_cases e2 : d ∈ l <;> simp [e1, e2]
theorem maskOf_bit {n : Nat} (l : List Nat) (d : Nat) (h : d < n) : (maskOf n l).getLsbD d = decide (d ∈ l) := by
  unfold maskOf; rw [foldl_setBit_bit _ _ _ _ h]; by_cases e : d ∈ l <;> simp [e]
theorem mem_maskList {n : Nat} (m : BitVec n) (d : Nat) : d ∈ maskList m ↔ m.getLsbD d = true := by
  unfold maskList
  simp only [List.mem_filter, List.mem_range]
  exact ⟨fun h => h.2, fun h => ⟨BitVec.lt_of_getLsbD h, h⟩⟩
theorem depRound_bit (m : BitVec 256) (d : Nat) : (depRound m).getLsbD d = true ↔ m.getLsbD d = true ∧ ∀ e ∈ domainDeps d, m.getLsbD e = true := by
  by_cases h : d < 256
  · unfold depRound
    rw [maskOf_bit _ _ h, decide_eq_true_iff, List.mem_filter, mem_maskList]
    simp [List.all_eq_true]
  · constructor
    · intro h'; exact absurd (BitVec.lt_of_getLsbD h') h
    · intro h'; exact absurd (BitVec.lt_of_getLsbD h'.1) h
theorem deps_two (d : Nat) : ∀ e ∈ domainDeps d, ∀ f ∈ domainDeps e, domainDeps f = [] := by
  intro e he f hf
  have hd : d < 256 ∨ 256 ≤ d := by omega
  rcases hd with hd | hd
  · have key : ∀ d < 256, (domainDeps d).all (fun e => (domainDeps e).all (fun f => domainDeps f == [])) = true := by
      set_option maxRecDepth 20000 in decide
    have k := key d hd
    rw [List.all_eq_true] at k
    have k2 := k e he
    rw [List.all_eq_true] at k2
    simpa using k2 f hf
  · have : domainDeps d = [] := by unfold domainDeps; simp [show ¬ d < 144 by omega, show ¬ d < 156 by omega, show ¬ d < 224 by omega, show ¬ d < 232 by omega]; omega
    rw [this] at he; simp at he
theorem depClose_bit (m : BitVec 256) (d : Nat) (h : (depClose m).getLsbD d = true) :
    m.getLsbD d = true ∧ ∀ e ∈ domainDeps d, (depClose m).getLsbD e = true := by
  unfold depClose at *
  rw [depRound_bit] at h
  obtain ⟨h1, h2⟩ := h
  have h1' := h1
  rw [depRound_bit] at h1
  obtain ⟨h3, h4⟩ := h1
  rw [depRound_bit] at h3
  refine ⟨h3.1, fun e he => ?_⟩
  rw [depRound_bit]
  refine ⟨h2 e he, fun f hf => ?_⟩
  rw [depRound_bit]
  have h5 := h2 e he
  rw [depRound_bit] at h5
  exact ⟨h5.2 f hf, fun g hg => by rw [deps_two d e he f hf] at hg; simp at hg⟩
theorem State.asked_sync (s : State) (d : Nat) : s.syncDomains.asked d = (depClose s.wantMask).getLsbD d := by
  unfold State.asked State.syncDomains
  dsimp only
  simp only [BitVec.getLsbD_and, BitVec.getLsbD_not]
  by_cases h : d < 256
  · cases s.dom.on.getLsbD d <;> cases s.dom.switching.getLsbD d <;> cases (depClose s.wantMask).getLsbD d <;> simp [h]
  · have : (depClose s.wantMask).getLsbD d = false := BitVec.getLsbD_of_ge _ _ (by omega)
    simp [this]
theorem State.wantMask_dom (s : State) (d : Domains) : State.wantMask { s with dom := d } = s.wantMask := rfl
theorem State.sync_dom (s : State) : s.syncDomains.dom = { on := s.dom.on &&& depClose s.wantMask, switching := s.dom.switching &&& depClose s.wantMask, pending := depClose s.wantMask &&& ~~~(s.dom.on &&& depClose s.wantMask) &&& ~~~(s.dom.switching &&& depClose s.wantMask) } := rfl
theorem State.sync_wantMask (s : State) : s.syncDomains.wantMask = s.wantMask := rfl
theorem State.sync_sync (s : State) : s.syncDomains.inLine := by
  show (State.syncDomains s.syncDomains).dom = s.syncDomains.dom
  rw [State.sync_dom s.syncDomains, State.sync_wantMask, State.sync_dom s]
  generalize depClose s.wantMask = w
  have h1 : s.dom.on &&& w &&& w = s.dom.on &&& w := by ext; simp
  have h2 : s.dom.switching &&& w &&& w = s.dom.switching &&& w := by ext; simp
  simp only [h1, h2]
/-- After every command the domains are fed, none is forced off, and they are in line. -/
theorem State.sync_powered (s : State) : s.syncDomains.powered := by
  intro d hd h
  rw [State.asked_sync] at h
  have hc := depClose_bit _ _ h
  refine ⟨?_, fun e he => by rw [State.asked_sync]; exact hc.2 e he⟩
  have hw := hc.1
  unfold State.wantMask at hw
  rw [maskOf_bit _ _ hd, decide_eq_true_iff, List.mem_filter] at hw
  have h2 : s.forcedOff d = false := by simpa using hw.2
  exact h2
theorem settle_sync (old s : State) : ∃ u : State, settle old s = u.syncDomains := ⟨_, rfl⟩
theorem settle_powered (old s : State) : (settle old s).powered := by obtain ⟨u, h⟩ := settle_sync old s; rw [h]; exact u.sync_powered
theorem settle_inLine (old s : State) : (settle old s).inLine := by obtain ⟨u, h⟩ := settle_sync old s; rw [h]; exact u.sync_sync
end Sys2Proof.Machine
end

