-- ==== Sys2Proof/Laws/Line.lean ====
section
/-! SUPPORT. The link operations of a port: what going up, going down and queueing a cell leave of every port. Two ports with one
mask differ in the receive path at most, which the crosstalk bookkeeping of a reach may touch. -/

set_option linter.unusedSimpArgs false

namespace Sys2Proof.Machine

/-- A port without its receive path. -/
def Port.mask (x : Port) : Port := { x with rx := {} }

theorem mask_link {a b : Port} (h : a.mask = b.mask) : a.link = b.link := by
  have e := congrArg Port.link h
  exact e
theorem mask_tow {a b : Port} (h : a.mask = b.mask) : a.tow = b.tow := by
  have e := congrArg Port.tow h
  exact e
theorem mask_tx {a b : Port} (h : a.mask = b.mask) : a.tx = b.tx := by
  have e := congrArg Port.tx h
  exact e
theorem mask_dmt {a b : Port} (h : a.mask = b.mask) : a.dmt = b.dmt := by
  have e := congrArg Port.dmt h
  exact e
theorem mask_snd {a b : Port} (h : a.mask = b.mask) : a.snd = b.snd := by
  have e := congrArg Port.snd h
  exact e
theorem mask_rcv {a b : Port} (h : a.mask = b.mask) : a.rcv = b.rcv := by
  have e := congrArg Port.rcv h
  exact e
theorem mask_quiet {a b : Port} (h : a.mask = b.mask) : a.quiet = b.quiet := by
  have e := congrArg Port.quiet h
  exact e
theorem mask_tdr {a b : Port} (h : a.mask = b.mask) : a.tdr = b.tdr := by
  have e := congrArg Port.tdr h
  exact e
theorem mask_watch {a b : Port} (h : a.mask = b.mask) : a.watch = b.watch := by
  have e := congrArg Port.watch h
  exact e
theorem mask_cal {a b : Port} (h : a.mask = b.mask) : a.cal = b.cal := by
  have e := congrArg Port.cal h
  exact e
theorem mask_test {a b : Port} (h : a.mask = b.mask) : a.test = b.test := by
  have e := congrArg Port.test h
  exact e

/-- What no link operation touches beside the frame and the held part. -/
structure Side where
  ticks : Nat
  mended : List Nat
  lanes : Vector Lane 8
  time : TimeUnit
  cal : CalUnit
  chans : Vector Channel 16
  keeper : Keeper
  test : SelfTest
  mdio : MdioRec
  kpi : IfaceRec
  dom : Domains

def State.side (s : State) : Side := ⟨s.ticks, s.mended, s.lanes, s.time, s.cal, s.chans, s.keeper, s.test, s.mdio, s.kpi, s.dom⟩

theorem State.raise_side (s : State) (c b u : Nat) (w x y z : Word) : (s.raise c b u w x y z).side = s.side := by simp [State.side]
theorem State.count_side (s : State) (b k n : Nat) : (s.count b k n).side = s.side := by simp [State.side]
theorem State.modPort_side (s : State) (p : Fin 16) (f : Port → Port) : (s.modPort p f).side = s.side := rfl

/-- A fold whose every step keeps something keeps it. -/
theorem foldl_keep {α β : Type} (f : State → β) (l : List α) (g : State → α → State) (s : State) (h : ∀ t x, f (g t x) = f t) :
    f (l.foldl g s) = f s := by
  induction l generalizing s with
  | nil => rfl
  | cons a l ih => rw [List.foldl_cons, ih, h]

theorem ite_keep {β : Type} (f : State → β) {c : Prop} [Decidable c] {a b : State} {v : β} (ha : f a = v) (hb : f b = v) :
    f (if c then a else b) = v := by split <;> assumption

/-! ### The crosstalk paths and the line sums -/

theorem State.modRx_mask (s : State) (p q : Fin 16) (f : RxPath → RxPath) : ((s.modRx p f).port q).mask = (s.port q).mask := by
  unfold State.modRx
  by_cases h : q = p
  · subst h; rw [State.port_modPort_same]; rfl
  · rw [State.port_modPort_ne _ h]
theorem State.xtOne_mask (s : State) (r : Fin 4) (i : Fin 12) (q : Fin 16) : ((s.xtOne r i).port q).mask = (s.port q).mask := by
  unfold State.xtOne
  dsimp only
  split
  · rfl
  · split
    · rw [State.count_port, State.raise_port, State.modRx_mask]; rfl
    · rfl
theorem State.xtSync_mask (s : State) (r : Fin 4) (q : Fin 16) : ((s.xtSync r).port q).mask = (s.port q).mask :=
  foldl_keep (fun t => (t.port q).mask) _ _ _ (fun t i => t.xtOne_mask r i q)
theorem State.xtOne_side (s : State) (r : Fin 4) (i : Fin 12) : (s.xtOne r i).side = s.side := by
  unfold State.xtOne
  dsimp only
  (repeat' split)
  · rfl
  · rw [State.count_side, State.raise_side]; rfl
  · rfl
theorem State.xtSync_side (s : State) (r : Fin 4) : (s.xtSync r).side = s.side :=
  foldl_keep State.side _ _ _ (fun t i => t.xtOne_side r i)
theorem State.lineOne_ports (s : State) (p : Fin 16) (b : Bool) : (s.lineOne p b).ports = s.ports := by
  unfold State.lineOne; exact ite_keep State.ports (State.raise_ports _ _ _ _ _ _ _ _) rfl
theorem State.lineSync_port (s : State) (p q : Fin 16) : (s.lineSync p).port q = s.port q := by
  unfold State.port State.lineSync; rw [State.lineOne_ports, State.lineOne_ports]
theorem State.lineSync_side (s : State) (p : Fin 16) : (s.lineSync p).side = s.side := by
  have e : ∀ (t : State) (b : Bool), (t.lineOne p b).side = t.side := fun t b => by
    unfold State.lineOne; exact ite_keep State.side (State.raise_side _ _ _ _ _ _ _ _) rfl
  unfold State.lineSync; rw [e, e]

theorem State.goLink_mask (s : State) (p : Fin 16) (f : Link → Link) :
    ((s.goLink p f).port p).mask = ({ s.port p with link := f (s.port p).link } : Port).mask := by
  unfold State.goLink; rw [State.xtSync_mask, State.port_modLink]
theorem State.goLink_mask_ne (s : State) {p q : Fin 16} (h : q ≠ p) (f : Link → Link) :
    ((s.goLink p f).port q).mask = (s.port q).mask := by
  unfold State.goLink; rw [State.xtSync_mask, State.modLink, State.port_modPort_ne _ h]
theorem State.goLink_link (s : State) (p : Fin 16) (f : Link → Link) : ((s.goLink p f).port p).link = f (s.port p).link :=
  mask_link (s.goLink_mask p f)
theorem State.goLink_side (s : State) (p : Fin 16) (f : Link → Link) : (s.goLink p f).side = s.side := by
  unfold State.goLink; rw [State.xtSync_side]; rfl

/-! ### Ramps -/

theorem State.modTx_port (s : State) (p : Fin 16) (f : TxPath → TxPath) : ∃ t, (s.modTx p f).port p = { s.port p with tx := t } :=
  ⟨_, State.port_modTx _ _ _⟩
theorem State.modTx_port_ne (s : State) {p q : Fin 16} (h : q ≠ p) (f : TxPath → TxPath) : (s.modTx p f).port q = s.port q :=
  State.port_modPort_ne _ h _
theorem State.modTx_side (s : State) (p : Fin 16) (f : TxPath → TxPath) : (s.modTx p f).side = s.side := rfl
/-- A ramp changes nothing of a port but its transmit path. -/
theorem State.ramp_port (s : State) (p : Fin 16) (u b : Bool) : ∃ t, (s.ramp p u b).port p = { s.port p with tx := t } := s.modTx_port p _
theorem State.ramp_port_ne (s : State) {p q : Fin 16} (h : q ≠ p) (u b : Bool) : (s.ramp p u b).port q = s.port q := s.modTx_port_ne h _
theorem State.ramp_side (s : State) (p : Fin 16) (u b : Bool) : (s.ramp p u b).side = s.side := rfl
theorem State.silence_port (s : State) (p : Fin 16) (b : Bool) : ∃ t, (s.silence p b).port p = { s.port p with tx := t } := by
  unfold State.silence
  split
  · exact s.modTx_port p _
  · exact s.ramp_port p _ _
theorem State.silence_port_ne (s : State) {p q : Fin 16} (h : q ≠ p) (b : Bool) : (s.silence p b).port q = s.port q := by
  unfold State.silence
  split
  · exact s.modTx_port_ne h _
  · exact s.ramp_port_ne h _ _
theorem State.silence_side (s : State) (p : Fin 16) (b : Bool) : (s.silence p b).side = s.side := by
  unfold State.silence
  split <;> rfl
theorem State.silence_link (s : State) (p : Fin 16) (b : Bool) : ((s.silence p b).port p).link = (s.port p).link := by
  obtain ⟨t, h⟩ := s.silence_port p b; rw [h]

theorem State.journal_port (s : State) (j : Journal) (p : Fin 16) : State.port { s with journal := j } p = s.port p := rfl
theorem State.journal_side (s : State) (j : Journal) : State.side { s with journal := j } = s.side := rfl
theorem State.draws_port (s : State) (n : Nat) (p : Fin 16) : State.port { s with draws := n } p = s.port p := rfl
theorem State.draws_side (s : State) (n : Nat) : State.side { s with draws := n } = s.side := rfl

/-! ### Going down (R83) -/

/-- A link that falls has the record that a fall leaves. -/
theorem State.fall_link (s : State) (p : Fin 16) (to_ : LinkState) (cause : Nat) (short : Bool) :
    ((s.fall p to_ cause short).port p).link = (s.port p).link.fallen to_ cause := by
  unfold State.fall
  dsimp only
  rw [State.lineSync_port, State.raise_port, State.journal_port, State.goLink_link, State.port_modPort_same]
  dsimp only
  rw [State.silence_link]
theorem State.fall_mask_ne (s : State) {p q : Fin 16} (h : q ≠ p) (to_ : LinkState) (cause : Nat) (short : Bool) :
    ((s.fall p to_ cause short).port q).mask = (s.port q).mask := by
  unfold State.fall
  dsimp only
  rw [State.lineSync_port, State.raise_port, State.journal_port, State.goLink_mask_ne _ h, State.port_modPort_ne _ h, State.silence_port_ne _ h]
theorem State.fall_calOf (s : State) (p : Fin 16) (to_ : LinkState) (cause : Nat) (short : Bool) :
    ((s.fall p to_ cause short).port p).cal = (s.port p).cal := by
  unfold State.fall
  dsimp only
  rw [State.lineSync_port, State.raise_port, State.journal_port, mask_cal (State.goLink_mask _ p _), State.port_modPort_same]
  dsimp only
  obtain ⟨t, h⟩ := s.silence_port p short
  rw [h]
theorem State.fall_side (s : State) (p : Fin 16) (to_ : LinkState) (cause : Nat) (short : Bool) :
    (s.fall p to_ cause short).side = s.side := by
  unfold State.fall
  dsimp only
  rw [State.lineSync_side, State.raise_side, State.journal_side, State.goLink_side, State.modPort_side, State.silence_side]

/-- A link taken down is in HOLD with its cause. -/
theorem State.linkDown_link (s : State) (p : Fin 16) (cause : Nat) :
    ∃ n, ((s.linkDown p cause).port p).link = { (s.port p).link.fallen .hold cause with holdTime := n } := by
  unfold State.linkDown State.draw
  dsimp only
  split
  · exact ⟨1000000, by rw [State.port_modLink, State.fall_link]⟩
  · exact ⟨_, by rw [State.port_modLink, State.draws_port, State.fall_link]⟩
theorem State.linkDown_mask_ne (s : State) {p q : Fin 16} (h : q ≠ p) (cause : Nat) :
    ((s.linkDown p cause).port q).mask = (s.port q).mask := by
  unfold State.linkDown State.draw
  dsimp only
  split
  · rw [State.modLink, State.port_modPort_ne _ h, State.fall_mask_ne _ h]
  · rw [State.modLink, State.port_modPort_ne _ h, State.draws_port, State.fall_mask_ne _ h]
theorem State.linkDown_calOf (s : State) (p : Fin 16) (cause : Nat) : ((s.linkDown p cause).port p).cal = (s.port p).cal := by
  unfold State.linkDown State.draw
  dsimp only
  split
  · rw [State.port_modLink]; dsimp only; rw [State.fall_calOf]
  · rw [State.port_modLink, State.draws_port]; dsimp only; rw [State.fall_calOf]
theorem State.modLink_side (s : State) (p : Fin 16) (f : Link → Link) : (s.modLink p f).side = s.side := rfl
theorem State.linkDown_side (s : State) (p : Fin 16) (cause : Nat) : (s.linkDown p cause).side = s.side := by
  unfold State.linkDown State.draw
  dsimp only
  split
  · rw [State.modLink_side, State.fall_side]
  · rw [State.modLink_side, State.draws_side, State.fall_side]

/-- A port held down: HOLD with the cause, unless it is disabled or measuring. -/
theorem State.holdDown_link (s : State) (p : Fin 16) (cause : Nat) (short : Bool) (h1 : (s.port p).link.state ≠ .disabled)
    (h2 : (s.port p).link.state ≠ .diag) :
    ((s.holdDown p cause short).port p).link.state = .hold ∧ ((s.holdDown p cause short).port p).link.downCause = cause := by
  unfold State.holdDown
  split
  · contradiction
  · contradiction
  · rename_i h; rw [State.port_modLink]; exact ⟨h, rfl⟩
  · rw [State.fall_link]; exact ⟨rfl, rfl⟩
theorem State.holdDown_mask_ne (s : State) {p q : Fin 16} (h : q ≠ p) (cause : Nat) (short : Bool) :
    ((s.holdDown p cause short).port q).mask = (s.port q).mask := by
  unfold State.holdDown
  split
  · rfl
  · rfl
  · rw [State.modLink, State.port_modPort_ne _ h]
  · exact s.fall_mask_ne h _ _ _
theorem State.holdDown_calOf (s : State) (p q : Fin 16) (cause : Nat) (short : Bool) :
    ((s.holdDown p cause short).port q).cal = (s.port q).cal := by
  by_cases h : q = p
  · subst h
    unfold State.holdDown
    split
    · rfl
    · rfl
    · rw [State.port_modLink]
    · exact s.fall_calOf q _ _ _
  · exact mask_cal (s.holdDown_mask_ne h _ _)
theorem State.holdDown_side (s : State) (p : Fin 16) (cause : Nat) (short : Bool) : (s.holdDown p cause short).side = s.side := by
  unfold State.holdDown
  split
  · rfl
  · rfl
  · rfl
  · exact s.fall_side p _ _ _

/-! ### What follows -/

theorem held_sup {a b : State} (h : a.held = b.held) : a.sup = b.sup := congrArg Held.sup h
theorem held_clk {a b : State} (h : a.held = b.held) : a.clk = b.clk := congrArg Held.clk h
theorem held_keys {a b : State} (h : a.held = b.held) : a.keys = b.keys := congrArg Held.keys h
theorem held_parity {a b : State} (h : a.held = b.held) : a.parity = b.parity := congrArg Held.parity h
theorem frame_regs {a b : State} (h : a.frame = b.frame) : a.regs = b.regs := congrArg Frame.regs h
theorem frame_otp {a b : State} (h : a.frame = b.frame) : a.otp = b.otp := congrArg (fun f => f.root.otp) h
theorem side_ticks {a b : State} (h : a.side = b.side) : a.ticks = b.ticks := congrArg Side.ticks h
theorem side_mended {a b : State} (h : a.side = b.side) : a.mended = b.mended := congrArg Side.mended h
theorem side_lanes {a b : State} (h : a.side = b.side) : a.lanes = b.lanes := congrArg Side.lanes h
theorem side_time {a b : State} (h : a.side = b.side) : a.time = b.time := congrArg Side.time h
theorem side_cal {a b : State} (h : a.side = b.side) : a.cal = b.cal := congrArg Side.cal h
theorem side_chans {a b : State} (h : a.side = b.side) : a.chans = b.chans := congrArg Side.chans h
theorem side_keeper {a b : State} (h : a.side = b.side) : a.keeper = b.keeper := congrArg Side.keeper h
theorem side_test {a b : State} (h : a.side = b.side) : a.test = b.test := congrArg Side.test h
theorem side_mdio {a b : State} (h : a.side = b.side) : a.mdio = b.mdio := congrArg Side.mdio h
theorem side_kpi {a b : State} (h : a.side = b.side) : a.kpi = b.kpi := congrArg Side.kpi h
theorem side_dom {a b : State} (h : a.side = b.side) : a.dom = b.dom := congrArg Side.dom h
/-- Below the banks nothing that is forced off keeps its power: the register and the thermal level decide alone. -/
theorem State.forcedOff_low (s : State) {d : Nat} (h : d < 156) :
    s.forcedOff d = (bit (s.reg (regKey 0 (0x10 + d / 32))) (d % 32) || (decide (d < 144) && decide (3 ≤ s.cal.level))) := by
  have h1 : ¬ 156 ≤ d := by omega
  have h2 : ¬ d = 243 := by omega
  simp [State.forcedOff, State.offWaits, State.bankBusy, h1, h2]
theorem State.gone_of {s t : State} (hr : ∀ k, t.reg k = s.reg k) (hl : t.cal.level = s.cal.level) {d : Nat} (h : d < 144) :
    t.gone d = s.gone d := by
  unfold State.gone
  rw [State.forcedOff_low _ (by omega), State.forcedOff_low _ (by omega), State.forcedOff_low s (by omega), State.forcedOff_low s (by omega), hr, hr, hl]
theorem State.unforced_of {s t : State} (hr : t.frame = s.frame) (hc : t.side = s.side) (h : s.unforced) : t.unforced := by
  exact fun d hd =>
    (State.gone_of (s := s) (t := t) (fun k => by unfold State.reg; rw [frame_regs hr, frame_otp hr]) (by rw [side_cal hc]) hd).trans (h d hd)
theorem State.act_of {s t : State} (hr : t.frame = s.frame) (hh : t.parity = s.parity) (hm : t.side = s.side) (k : Nat) : t.act k = s.act k := by
  unfold State.act State.badParity State.reg
  rw [frame_regs hr, frame_otp hr, hh, side_mended hm]
theorem State.enabled_of {s t : State} (hr : t.frame = s.frame) (hh : t.parity = s.parity) (hm : t.side = s.side) (p : Fin 16) :
    t.enabled p = s.enabled p := by
  unfold State.enabled State.lnMode State.portReg; rw [State.act_of hr hh hm]

/-- With nothing forced off, no calibration run and every port enabled as before, a command's change asks for nothing. -/
theorem followAll_free {old s : State} (hf : s.unforced) (hc : ∀ p, (s.port p).cal.running = false)
    (he : ∀ p, old.enabled p = s.enabled p) : State.followAll old s = s := by
  unfold State.followAll
  generalize allPorts = l
  induction l with
  | nil => rfl
  | cons a l ih => rw [List.foldl_cons, followPort_free hf (hc a) (he a), ih]

end Sys2Proof.Machine
end

