-- ==== Sys2Proof/Laws/Supply.lean ====
section
/-! SUPPORT. The supervisor's operations: the end of hard reset (R16, R55), zeroising (R417), ports held down together (R428), and
how a statement about a command follows from its effect. -/

set_option linter.unusedSimpArgs false
set_option linter.unusedVariables false

namespace Sys2Proof.Machine

theorem reset_port_link (p : Fin 16) : ((Vector.replicate 16 ({} : Port)).get p).link = {} := by
  show ((Vector.replicate 16 ({} : Port))[p.val]).link = {}
  simp only [Vector.getElem_replicate]
/-- With the core PLL off, PLLs that begin to lock leave start-up at step 3. -/
theorem State.goLock_sup (s : State) (h : s.clk.core.mode = .off) : s.goLock.sup = { s.sup with stage := .locking } := by
  unfold State.goLock State.stepThree
  rw [if_neg]
  simp [PllRec.begin, h]
theorem State.stepTwo_sup (s : State) (h : s.clk.core.mode = .off) :
    s.stepTwo.sup = { s.sup with stage := if s.sup.refclkOk then .locking else .qualifying } := by
  unfold State.stepTwo
  split
  · exact State.goLock_sup s h
  · rfl
/-- The end of hard reset: nothing of the supervisor changes but the stage and, where start-up halts, SAFE_N and what waited
for REFCLK. -/
theorem State.beginStart_keep (s : State) (h : s.clk.core.mode = .off) :
    ∃ a b c, s.beginStart.sup = { s.sup with stage := a, safeN := b, softAfterRef := c } := by
  unfold State.beginStart
  split
  · split
    · exact ⟨_, _, _, by rw [State.stepTwo_sup s h]⟩
    · exact ⟨_, _, _, rfl⟩
  · exact ⟨_, _, _, rfl⟩
theorem State.beginStart_stage (s : State) (h1 : s.sup.stage = .hardReset) (h2 : s.sup.resetN = true) (h3 : s.sup.suppliesGood = true)
    (h4 : s.sup.testHeld = false) (h : s.clk.core.mode = .off) : s.beginStart.sup.stage = s.startStage := by
  unfold State.beginStart State.startStage
  rw [if_pos (by simp [h1, h2, h3, h4])]
  split
  · rw [State.stepTwo_sup s h]
  · rfl
theorem State.beginStart_not (s : State) (h : s.sup.stage ≠ .hardReset ∨ s.sup.suppliesGood = false ∨ s.sup.testHeld = true) : s.beginStart = s := by
  unfold State.beginStart
  rw [if_neg]; rcases h with h | h | h <;> simp [h]
/-- A halted start-up runs again from step 2 once PFAIL_N is high and TEST_EN low. -/
theorem State.unhalt_sup (s : State) (h1 : s.sup.stage = .halted) (h2 : s.sup.pfailN = true) (h3 : s.sup.testEn = false) (h : s.clk.core.mode = .off) :
    s.unhalt.sup = { s.sup with stage := if s.sup.refclkOk then .locking else .qualifying } := by
  unfold State.unhalt
  rw [if_pos (by simp [h1, h2, h3]), State.stepTwo_sup s h]
theorem State.unhalt_not (s : State) (h : s.sup.stage ≠ .halted ∨ s.sup.pfailN = false ∨ s.sup.testEn = true) : s.unhalt = s := by
  unfold State.unhalt
  rw [if_neg]; rcases h with h | h | h <;> simp [h]
theorem State.putKey_zeroising (s : State) (c i k) : (s.putKey c i k).keys.zeroising = s.keys.zeroising := by
  unfold State.putKey; (repeat' split) <;> simp [KeyStore.load]
theorem State.waitingKeys_zeroising (s : State) : s.waitingKeys.keys.zeroising = s.keys.zeroising := by
  unfold State.waitingKeys
  split
  · rfl
  · exact foldl_keep (fun t => t.keys.zeroising) _ _ _ (fun t _ => State.putKey_zeroising t _ _ _)
theorem State.putKey_sup (s : State) (c i k) : (s.putKey c i k).sup = s.sup := by
  unfold State.putKey; (repeat' split) <;> simp
theorem State.waitingKeys_sup (s : State) : s.waitingKeys.sup = s.sup := by
  unfold State.waitingKeys
  split
  · rfl
  · exact foldl_keep (fun t => t.sup) _ _ _ (fun t _ => State.putKey_sup t _ _ _)
theorem State.zeroDone_zeroising (s : State) (ok c cy) : (s.zeroDone ok c cy).keys.zeroising = none := by
  unfold State.zeroDone; dsimp only
  rw [State.waitingKeys_zeroising, held_keys (State.dropKeyed_held _)]
  split <;> simp
theorem State.zeroise_sup (s : State) (c ok) : (s.zeroise c ok).sup = s.sup := by
  unfold State.zeroise State.zeroDone; dsimp only
  split
  · rfl
  · split
    · rw [State.waitingKeys_sup, held_sup (State.dropKeyed_held _)]
      simp
    · rfl
theorem State.holdAll_mask_ne (l : List (Fin 16)) (s : State) (c : Nat) (b : Bool) (q : Fin 16) (hq : q ∉ l) :
    ((l.foldl (fun (t : State) p => t.holdDown p c b) s).port q).mask = (s.port q).mask := by
  induction l generalizing s with
  | nil => rfl
  | cons a l ih =>
    rw [List.mem_cons, not_or] at hq
    rw [List.foldl_cons, ih _ hq.2]
    exact s.holdDown_mask_ne hq.1 _ _
theorem State.holdAll_link (l : List (Fin 16)) (hl : l.Nodup) (s : State) (c : Nat) (b : Bool) (q : Fin 16) (h1 : (s.port q).link.state ≠ .disabled) (h2 : (s.port q).link.state ≠ .diag) (hq : q ∈ l) :
    ((l.foldl (fun (t : State) p => t.holdDown p c b) s).port q).link.state = .hold ∧ ((l.foldl (fun (t : State) p => t.holdDown p c b) s).port q).link.downCause = c := by
  induction l generalizing s with
  | nil => simp at hq
  | cons a l ih =>
    rw [List.nodup_cons] at hl
    rw [List.foldl_cons]
    by_cases e : q = a
    · subst e
      rw [mask_link (State.holdAll_mask_ne l _ c b q hl.1)]
      exact s.holdDown_link q c b h1 h2
    · have hm := mask_link (s.holdDown_mask_ne e c b)
      exact ih hl.2 _ (by rw [hm]; exact h1) (by rw [hm]; exact h2) (by simp_all)
/-- What holds of a state with the frame and the held part of a command's effect holds after the command. -/
theorem acts_does {c : Instr} {s t : State} {P : State → Prop} (he : exec c s = s.actsAll t) (h : ∀ u : State, u.frame = t.frame → u.held = t.held → P u) : Does c s P := by
  refine ⟨_, he, h _ ?_ ?_⟩
  · rw [settle_frame, State.followAll_frame]
  · rw [settle_held, State.followAll_held]

/-! ### PLLs and multiplexers -/

theorem get_set_same {α : Type} {n : Nat} (v : Vector α n) (i : Fin n) (x : α) : (v.set i.val x i.isLt).get i = x := by
  show (v.set i.val x i.isLt)[i.val] = x
  simp
@[simp] theorem Clocks.pll_setPll (c : Clocks) (k : Pll) (v : PllRec) : (c.setPll k v).pll k = v := by
  cases k with
  | core => rfl
  | host => rfl
  | reach r => exact get_set_same _ _ _
@[simp] theorem Clocks.pll_setMux (c : Clocks) (k : Pll) (m : Mux) (v : MuxRec) : (c.setMux m v).pll k = c.pll k := by
  cases k <;> cases m <;> rfl
@[simp] theorem Clocks.pll_sync (c : Clocks) (k : Pll) : c.sync.pll k = c.pll k := by cases k <;> rfl
@[simp] theorem Clocks.pll_holdover (c : Clocks) (b : Bool) (k : Pll) : ({ c with holdover := b } : Clocks).pll k = c.pll k := by cases k <;> rfl
@[simp] theorem Clocks.mux_setMux (c : Clocks) (m : Mux) (v : MuxRec) : (c.setMux m v).mux m = v := by
  cases m with
  | core => rfl
  | host => rfl
  | spine r => exact get_set_same _ _ _
@[simp] theorem Clocks.mux_setPll (c : Clocks) (k : Pll) (m : Mux) (v : PllRec) : (c.setPll k v).mux m = c.mux m := by
  cases k <;> cases m <;> rfl
@[simp] theorem Clocks.mux_sync (c : Clocks) (m : Mux) : c.sync.mux m = c.mux m := by cases m <;> rfl

/-- A PLL that leaves lock: its record and its multiplexer; every other command's part of the supervisor stays. -/
theorem State.pllLost_held (s : State) (k : Pll) (v : PllRec) :
    (s.pllLost k v).held = ({ s with clk := ((s.clk.setPll k v).setMux (muxOf k) {}).sync } : State).held := by
  unfold State.pllLost
  cases k with
  | core => rfl
  | host => exact State.lanesDown_held _ _
  | reach r => unfold State.reachDown; exact foldl_held _ _ _ (by simp)

theorem done_does {c : Instr} {s t : State} {P : State → Prop} (he : exec c s = s.done t) (h : ∀ u : State, u.frame = t.frame → u.held = t.held → u.ring = t.ring → P u) : Does c s P :=
  ⟨_, he, h _ (settle_frame _ _) (settle_held _ _) (settle_ring _ _)⟩

theorem State.loadIdentity_clk (s : State) : s.loadIdentity.clk = s.clk := by unfold State.loadIdentity; split <;> rfl
theorem State.restartKeeper_clk (s : State) : s.restartKeeper.clk = s.clk := by
  unfold State.restartKeeper
  rw [held_clk (State.releaseKeeper_held _)]
  split
  · exact s.loadIdentity_clk
  · rfl
/-- A chip soft reset leaves the clocks (R51). -/
theorem State.softReset_clk (s : State) (c : Nat) (w : Bool) : (s.softReset c w).clk = s.clk := by
  unfold State.softReset
  have h : (allPorts.foldl (fun (t : State) p => t.silence p false) s).clk = s.clk :=
    held_clk (foldl_held _ _ _ (fun t p => State.silence_held t p false))
  generalize allPorts.foldl (fun (t : State) p => t.silence p false) s = u at *
  dsimp only
  split
  · rw [State.restartKeeper_clk]; exact h
  · exact h
theorem State.stepThree_clk (s : State) : s.stepThree.clk = s.clk := by
  unfold State.stepThree
  split
  · split
    · rw [State.softReset_clk]
    · rfl
  · rfl
theorem State.pllLocked_clk (s : State) (k : Pll) (g : Nat) : (s.pllLocked k g).clk = ((s.clk.setPll k ⟨.locked, g⟩).setMux (muxOf k) ⟨true, false⟩).sync := by
  unfold State.pllLocked
  dsimp only
  rw [State.stepThree_clk]
  cases k with
  | core => rfl
  | host => rfl
  | reach r => dsimp only; rw [held_clk (State.restartHeld_held _ _ _)]
theorem State.safeState_sup (s : State) : s.safeState.sup = { s.sup with stage := .refclkLost, safeSeq := true } := by
  unfold State.safeState
  dsimp only
  rw [held_sup (foldl_held allPorts (fun (t : State) p => t.txStopShort p) s (by simp))]
theorem State.safeState_clk (s : State) : s.safeState.clk = s.clk := by
  unfold State.safeState
  dsimp only
  rw [held_clk (foldl_held allPorts (fun (t : State) p => t.txStopShort p) s (by simp))]
/-- An event raised while the ring has room is its last record. -/
theorem State.raise_told (s : State) (c b u : Nat) (w x y z : Word) (h : s.ringRoom) : (s.raise c b u w x y z).told c b u w := by
  refine ⟨s.record c b u w x y z, ?_, rfl, rfl, rfl, rfl⟩
  unfold State.ringRoom at h
  show ((s.raise c b u w x y z).ring.untaken).getLast? = _
  have e : (s.raise c b u w x y z).ring = s.ring.push (s.record c b u w x y z) := by simp [State.raise]
  rw [e]
  unfold EventRing.push
  rw [if_pos h]
  simp
theorem told_of {a b : State} (h : a.ring = b.ring) {c bl u w} (ht : b.told c bl u w) : a.told c bl u w := by
  unfold State.told at *; rw [h]; exact ht

/-! ### Start-up, the keeper and the sequencer -/

theorem State.loadIdentity_sup (s : State) : s.loadIdentity.sup = s.sup := by unfold State.loadIdentity; split <;> rfl
theorem runs_does {c : Instr} {s t : State} {P : State → Prop} (hc : s.clocked = true) (he : exec c s = s.runs t) (h : P (settle s t)) : Does c s P :=
  ⟨_, by rw [he, State.runs_eq hc], h⟩
theorem State.initialSets_side (s : State) (f : Fin 16 → Option CalSet) : (s.initialSets f).side = s.side := by
  unfold State.initialSets
  exact foldl_keep State.side _ _ _ (fun t p => ite_keep State.side rfl rfl)
theorem State.restoreRefs_side (s : State) (b : JournalBody) : (s.restoreRefs b).side = s.side :=
  foldl_keep State.side _ _ _ (fun t p => rfl)
theorem State.restoreDowns_side (s : State) (b : JournalBody) : (s.restoreDowns b).side = s.side :=
  foldl_keep State.side _ _ _ (fun t p => rfl)
theorem State.restoreJournal_side (s : State) (a b : Option Word) : (s.restoreJournal a b).side = s.side := by
  unfold State.restoreJournal
  dsimp only
  split
  · rw [State.raise_side]
    split
    · rw [State.restoreDowns_side, State.restoreRefs_side, State.initialSets_side]; rfl
    · rw [State.initialSets_side]; rfl
  · rw [State.raise_side, State.initialSets_side]; rfl
theorem State.startImage_keeper (s : State) (slot : BitVec 2) (m : ImageReport) (a b : Option Word) :
    (s.startImage slot m a b).keeper = { s.keeper with mode := .running, slot := slot, version := m.version, bootErr := 0, fw := {} } := by
  unfold State.startImage; rw [side_keeper (State.restoreJournal_side _ _ _)]
theorem State.startImage_sup (s : State) (slot : BitVec 2) (m : ImageReport) (a b : Option Word) :
    (s.startImage slot m a b).sup = { s.sup with safeN := true } := by
  unfold State.startImage; rw [held_sup (State.restoreJournal_held _ _ _)]

theorem respCells_status (code tag st d : Nat) (ws : List Word) (h : st < 65536) (hd : d < 65536) : fld ((respCells code tag st d ws).get 1) 0 16 = st := by
  have e : (respCells code tag st d ws).get 1 = wd (d * 65536 + st) := by
    unfold respCells; dsimp only; exact Vector.get_ofFn _ _
  rw [e]
  unfold fld wd
  rw [BitVec.toNat_ofNat]
  omega
/-- Every busy channel is answered RESTARTED; the channels stay otherwise, and so does all but the tally. -/
theorem State.restartAll_chan (l : List (Fin 16)) (s : State) (c : Fin 16) (hb : (s.chan c).busy = true) (hc : c ∈ l) :
    ((l.foldl State.restartChan s).chan c) = (s.chan c).answered 3 0xFFFF [] := by
  have key : ∀ (l : List (Fin 16)) (t : State), (t.chan c).busy = false → (l.foldl State.restartChan t).chan c = t.chan c := by
    intro l
    induction l with
    | nil => intro t _; rfl
    | cons a l ih =>
      intro t ht
      rw [List.foldl_cons]
      have e : (t.restartChan a).chan c = t.chan c := by
        unfold State.restartChan
        split
        · rename_i h
          have hne : c ≠ a := by intro e; subst e; simp [ht] at h
          exact State.answer_chan_ne t hne _ _ _
        · rfl
      rw [ih _ (by rw [e]; exact ht), e]
  induction l generalizing s with
  | nil => simp at hc
  | cons a l ih =>
    rw [List.foldl_cons]
    by_cases e : c = a
    · subst e
      have e2 : (s.restartChan c).chan c = (s.chan c).answered 3 0xFFFF [] := by
        unfold State.restartChan
        rw [if_pos hb, State.answer_chan_same]; rfl
      rw [key l _ (by rw [e2]; rfl), e2]
    · have e2 : (s.restartChan a).chan c = s.chan c := by
        unfold State.restartChan
        split
        · exact State.answer_chan_ne s e _ _ _
        · rfl
      rw [ih _ (by rw [e2]; exact hb) (by simp_all), e2]
theorem State.restartAll_eq (l : List (Fin 16)) (s : State) : ∃ v t, l.foldl State.restartChan s = { s with chans := v, tally := t } := by
  induction l generalizing s with
  | nil => exact ⟨s.chans, s.tally, rfl⟩
  | cons a l ih =>
    rw [List.foldl_cons]
    have e : ∃ v t, s.restartChan a = { s with chans := v, tally := t } := by
      unfold State.restartChan
      split
      · unfold State.answer State.count
        obtain ⟨t1, h1⟩ := State.countCode_eq (s.modChan a (fun ch => ch.answered stRestarted 0xFFFF [])) 1 (0x200 + 0) 1
        rw [h1]
        obtain ⟨t2, h2⟩ := State.countCode_eq ({ (s.modChan a (fun ch => ch.answered stRestarted 0xFFFF [])) with tally := t1 } : State) (mboxBlock a.val) (0x200 + 2) (if stRestarted = 0 then 0 else 1)
        rw [h2]
        exact ⟨_, t2, rfl⟩
      · exact ⟨s.chans, s.tally, rfl⟩
    obtain ⟨v, t, h⟩ := e
    obtain ⟨v2, t2, h2⟩ := ih (s.restartChan a)
    exact ⟨v2, t2, by rw [h2, h]⟩
/-- What a control-plane reset leaves, whatever else changes beside it. -/
theorem State.controlPlane_restarted (s old w : State) (n : Nat) (ho : s.keeper.out = true) (h1 : w.keeper.mode = (s.controlPlane n).keeper.mode ∧
    w.keeper.restarts = (s.controlPlane n).keeper.restarts ∧ w.keeper.cause = (s.controlPlane n).keeper.cause)
    (h2 : w.chans = (s.controlPlane n).chans) (h3 : w.basin = s.basin) (h4 : w.time.cal = s.time.cal) (h5 : w.lanes = s.lanes)
    (h6 : ∀ k, w.reg k = s.reg k) (h7 : w.ring = (s.controlPlane n).ring) : s.restarted n (settle old w) := by
  obtain ⟨ha, hb, hc⟩ := h1
  unfold State.controlPlane at ha hb hc h2 h7
  rw [if_neg (by simp [ho])] at ha hb hc h2 h7
  obtain ⟨v, t, h⟩ := State.restartAll_eq allChans s
  have hch := fun c hb => State.restartAll_chan allChans s c hb (List.mem_finRange c)
  dsimp only at ha hb hc h2 h7
  rw [h] at hch ha hb hc h2 h7
  have hv : ∀ c, (s.chan c).busy = true → v.get c = (s.chan c).answered 3 0xFFFF [] := hch
  have hset : (∀ c, w.chan c = v.get c) → ∀ c, (s.chan c).busy = true → ((settle old w).chan c).busy = false ∧ ((settle old w).chan c).done = true ∧ fld (((settle old w).chan c).resp.get 1) 0 16 = 3 := by
    intro hu c hb
    rw [settle_chan old w c (by intro p r a; rw [hu, hv c hb]; simp [Channel.answered]), hu, hv c hb]
    exact ⟨rfl, rfl, respCells_status _ _ _ _ _ (by decide) (by decide)⟩
  unfold State.restarted
  simp only [settle_keeper, settle_basin, settle_time, settle_lanes, settle_ring, settle_reg]
  refine ⟨?_, ?_, ?_, hset ?_, h3, h4, h5, h6, ?_⟩
  all_goals by_cases hh : 2 ≤ (s.keeper.times.filter (fun x => decide (s.ticks < x + secTicks 10))).length
  all_goals by_cases hl : s.keeper.mode = .loading
  all_goals simp only [hh, hl, decide_true, decide_false, Bool.false_eq_true, beq_iff_eq, beq_self_eq_true, ↓reduceIte] at ha hb hc h2 h7
  all_goals first
    | (rw [ha]; simp [hh, hl]; done)
    | (rw [hb]; simp [hh]; done)
    | (rw [hc]; simp [hh]; done)
    | (intro c; unfold State.chan; rw [h2]; simp; done)
    | (intro hm; rw [ha] at hm; simp at hm; done)
    | (intro _; rw [h7]; simp)
/-- A control-plane reset does what R373, R374 and R426 say. -/
theorem State.keeperFault_does {c : Instr} {s : State} {n : Nat} (hc : s.clocked = true) (ho : s.keeper.out = true) (he : exec c s = s.runs (s.keeperFault n)) :
    Does c s (s.restarted n) := by
  refine runs_does hc he ?_
  unfold State.keeperFault
  rw [if_pos ho]
  obtain ⟨v, t, h⟩ := State.restartAll_eq allChans s
  have key : (s.controlPlane n).basin = s.basin ∧ (s.controlPlane n).time.cal = s.time.cal ∧ (s.controlPlane n).lanes = s.lanes ∧ (∀ k, (s.controlPlane n).reg k = s.reg k) := by
    unfold State.controlPlane
    rw [if_neg (by simp [ho]), h]
    dsimp only
    split
    · simp [State.reg]
    · split <;> simp [State.reg]
  exact s.controlPlane_restarted s _ n ho ⟨rfl, rfl, rfl⟩ rfl key.1 key.2.1 key.2.2.1 key.2.2.2 rfl
theorem State.inLine_bits {s : State} (h : s.inLine) (d : Nat) (hd : d < 256) :
    (s.dom.on.getLsbD d = true → (depClose s.wantMask).getLsbD d = true) ∧ (s.dom.switching.getLsbD d = true → (depClose s.wantMask).getLsbD d = true)
    ∧ s.dom.pending.getLsbD d = ((depClose s.wantMask).getLsbD d && !s.dom.on.getLsbD d && !s.dom.switching.getLsbD d) := by
  unfold State.inLine at h
  rw [State.sync_dom] at h
  generalize depClose s.wantMask = w at *
  have h1 := congrArg (fun x => x.on.getLsbD d) h
  have h2 := congrArg (fun x => x.switching.getLsbD d) h
  have h3 := congrArg (fun x => x.pending.getLsbD d) h
  simp only [BitVec.getLsbD_and, BitVec.getLsbD_not, hd, decide_true, Bool.true_and] at h1 h2 h3
  revert h1 h2 h3
  cases s.dom.on.getLsbD d <;> cases s.dom.switching.getLsbD d <;> cases w.getLsbD d <;> cases s.dom.pending.getLsbD d <;> simp
theorem State.sync_bits (u : State) (d : Nat) (hd : d < 256) :
    u.syncDomains.dom.on.getLsbD d = (u.dom.on.getLsbD d && (depClose u.wantMask).getLsbD d)
    ∧ u.syncDomains.dom.switching.getLsbD d = (u.dom.switching.getLsbD d && (depClose u.wantMask).getLsbD d)
    ∧ u.syncDomains.dom.pending.getLsbD d = ((depClose u.wantMask).getLsbD d && !(u.dom.on.getLsbD d && (depClose u.wantMask).getLsbD d) && !(u.dom.switching.getLsbD d && (depClose u.wantMask).getLsbD d)) := by
  rw [State.sync_dom]
  generalize depClose u.wantMask = w
  simp only [BitVec.getLsbD_and, BitVec.getLsbD_not, hd, decide_true, Bool.true_and, and_self]
theorem State.turnList_mem (s : State) (d : Nat) (h : d ∈ s.turnList) : s.dom.pending.getLsbD d = true ∧ ∀ e ∈ domainDeps d, s.dom.on.getLsbD e = true := by
  unfold State.turnList at h
  have h := List.mem_of_mem_take h
  rw [List.mem_filter, mem_maskList] at h
  exact ⟨h.1, by simpa [List.all_eq_true] using h.2⟩

/-- What the consequences of a changed link leave as it was, beside the frame and the held part. -/
def State.far (s : State) : Nat × List Nat × Vector Lane 8 × Keeper × SelfTest × MdioRec × IfaceRec × Nat × Nat × Nat :=
  (s.ticks, s.mended, s.lanes, s.keeper, s.test, s.mdio, s.kpi, s.time.now, s.time.fifths, s.cal.level)

theorem far_of_side {a b : State} (h : a.side = b.side) : a.far = b.far := by
  unfold State.far
  rw [side_ticks h, side_mended h, side_lanes h, side_keeper h, side_test h, side_mdio h, side_kpi h, side_time h, side_cal h]
theorem State.count_far (s : State) (b k n : Nat) : (s.count b k n).far = s.far := far_of_side (s.count_side b k n)
theorem State.modPort_far (s : State) (p : Fin 16) (f : Port → Port) : (s.modPort p f).far = s.far := rfl
theorem State.answer_far (s : State) (c : Fin 16) (st : Nat) (ws : List Word) (d : Nat) : (s.answer c st ws d).far = s.far := by
  unfold State.answer; rw [State.count_far, State.count_far]; rfl
theorem State.answerWait_far (s : State) (f : LongCmd → Bool) (st : Nat) (ws : List Word) (d : Nat) : (s.answerWait f st ws d).far = s.far := by
  unfold State.answerWait; split
  · exact s.answer_far _ _ _ _
  · rfl
theorem State.slotWaits_far (s : State) (p : Fin 16) (t w : Bool) : (s.slotWaits p t w).far = s.far := rfl
theorem State.dropSlices_far (s : State) (p : Fin 16) (t : Bool) : (s.dropSlices p t).far = s.far := rfl
theorem State.placeSlice_far (s : State) (p : Fin 16) (t w : Bool) (u : Nat) : (s.placeSlice p t w u).far = s.far := by
  unfold State.placeSlice; dsimp only; (repeat' split) <;> rfl
theorem State.startItems_far (s : State) (p : Fin 16) (b : Bool) : (s.startItems p b).far = s.far := by
  unfold State.startItems; dsimp only
  split
  · rw [State.placeSlice_far]; split <;> rfl
  · split <;> rfl
theorem State.runPort_far (s : State) (p : Fin 16) : (s.runPort p).far = s.far := by
  unfold State.runPort; split
  · rfl
  · split
    · rfl
    · rw [State.startItems_far]; rfl
theorem State.calAnswer_far (s : State) : s.calAnswer.far = s.far := by
  unfold State.calAnswer
  refine foldl_keep State.far _ _ _ (fun t c => ?_)
  split
  · split
    · exact t.answer_far _ _ _ _
    · rfl
  · rfl
theorem State.calTell_far (s : State) (p : Option (Fin 16)) (r : Option (Fin 4)) (b : Bool) : (s.calTell p r b).far = s.far := by
  unfold State.calTell; rw [State.calAnswer_far]
  exact foldl_keep State.far _ _ _ (fun t c => rfl)
theorem State.reachDone_far (s : State) (r : Fin 4) : (s.reachDone r).far = s.far := by
  unfold State.reachDone; split
  · dsimp only; rw [State.calTell_far, State.count_far]; rfl
  · rfl
theorem State.abandonRun_far (s : State) (p : Fin 16) : (s.abandonRun p).far = s.far := by
  unfold State.abandonRun; split
  · rw [State.reachDone_far, State.calTell_far, State.dropSlices_far]; rfl
  · rfl
theorem State.goLink_far (s : State) (p : Fin 16) (f : Link → Link) : (s.goLink p f).far = s.far := far_of_side (s.goLink_side p f)
theorem State.tdrOver_far (s : State) (p : Fin 16) : (s.tdrOver p).far = s.far := by
  have h : ∀ t : State, ((t.txStop p).goLink p (fun l => { l with state := .disabled })).far = t.far := by
    intro t; rw [State.goLink_far]; exact far_of_side (t.ramp_side p false false)
  unfold State.tdrOver; dsimp only
  split
  · rw [State.runPort_far, h]; rfl
  · rw [h]; rfl
theorem State.tdrAbandon_far (s : State) (p : Fin 16) (n : Nat) : (s.tdrAbandon p n).far = s.far := by
  unfold State.tdrAbandon; split
  · rw [State.answerWait_far, State.tdrOver_far]; rfl
  · rfl
theorem State.forceSync_far (s : State) (p : Fin 16) : (s.forceSync p).far = s.far := by
  unfold State.forceSync; split
  · rfl
  · split
    · exact s.tdrAbandon_far p 5
    · rfl
    · exact far_of_side (s.holdDown_side p 11 false)
theorem State.calFollow_far (old s : State) (p : Fin 16) : (State.calFollow old s p).far = s.far := by
  unfold State.calFollow; dsimp only
  split
  · rw [State.abandonRun_far]; rfl
  · split
    · rfl
    · split
      · exact s.dropSlices_far p false
      · split
        · exact s.placeSlice_far _ _ _ _
        · rfl
theorem State.followAll_far (old s : State) : (State.followAll old s).far = s.far := by
  unfold State.followAll
  refine foldl_keep State.far _ _ _ (fun t p => ?_)
  unfold State.followPort; rw [State.calFollow_far]; split
  · rfl
  · exact t.forceSync_far p
theorem settle_far (old s : State) : (settle old s).far = s.far := by
  unfold State.far; rw [settle_ticks, settle_mended, settle_lanes, settle_keeper, settle_test, settle_mdio, settle_kpi, settle_time, settle_cal]
theorem far_ticks {a b : State} (h : a.far = b.far) : a.ticks = b.ticks := congrArg (fun x => x.1) h
theorem far_mended {a b : State} (h : a.far = b.far) : a.mended = b.mended := congrArg (fun x => x.2.1) h
theorem far_lanes {a b : State} (h : a.far = b.far) : a.lanes = b.lanes := congrArg (fun x => x.2.2.1) h
theorem far_keeper {a b : State} (h : a.far = b.far) : a.keeper = b.keeper := congrArg (fun x => x.2.2.2.1) h
theorem far_test {a b : State} (h : a.far = b.far) : a.test = b.test := congrArg (fun x => x.2.2.2.2.1) h
theorem far_mdio {a b : State} (h : a.far = b.far) : a.mdio = b.mdio := congrArg (fun x => x.2.2.2.2.2.1) h
theorem far_kpi {a b : State} (h : a.far = b.far) : a.kpi = b.kpi := congrArg (fun x => x.2.2.2.2.2.2.1) h
theorem far_level {a b : State} (h : a.far = b.far) : a.cal.level = b.cal.level := congrArg (fun x => x.2.2.2.2.2.2.2.2.2) h
theorem far_now {a b : State} (h : a.far = b.far) : a.time.now = b.time.now := congrArg (fun x => x.2.2.2.2.2.2.2.1) h
/-- What an effect that may change links leaves, up to what its consequences touch. -/
theorem acts_far {c : Instr} {s t : State} {P : State → Prop} (he : exec c s = s.actsAll t)
    (h : ∀ u : State, u.frame = t.frame → u.held = t.held → u.far = t.far → P u) : Does c s P :=
  ⟨_, he, h _ (by simp) (by simp) (by rw [settle_far, State.followAll_far])⟩
theorem done_far {c : Instr} {s t : State} {P : State → Prop} (he : exec c s = s.done t)
    (h : ∀ u : State, u.frame = t.frame → u.held = t.held → u.far = t.far → P u) : Does c s P :=
  ⟨_, he, h _ (by simp) (by simp) (by rw [settle_far])⟩

end Sys2Proof.Machine
end

