-- ==== Sys2Proof/Laws/Access.lean ====
section
/-! SUPPORT. One access of a register interface (R349 to R358): what a write outside the guard procedure and what the whole
procedure leave of the stored registers. -/

set_option linter.unusedSimpArgs false

namespace Sys2Proof.Machine

/-- What a write leaves of the queue, the die, the OTP and the stored registers. -/
def State.stored (s : State) : Root × List (Nat × Word) := (s.frame.root, s.regs)

theorem stored_of_frame {a b : State} (h : a.frame = b.frame) : a.stored = b.stored := by
  unfold State.stored; rw [h, frame_regs h]
theorem stored_regs {a b : State} (h : a.stored = b.stored) : a.regs = b.regs := congrArg Prod.snd h
theorem stored_otp {a b : State} (h : a.stored = b.stored) : a.otp = b.otp := congrArg (fun x => x.1.otp) h
theorem stored_reg {a b : State} (h : a.stored = b.stored) (k : Nat) : a.reg k = b.reg k := by
  unfold State.reg; rw [stored_regs h, stored_otp h]

theorem State.modIface_stored (s : State) (i : Iface) (f : IfaceRec → IfaceRec) : (s.modIface i f).stored = s.stored := by
  cases i <;> rfl
theorem State.count_stored (s : State) (b k n : Nat) : (s.count b k n).stored = s.stored := stored_of_frame (by simp)
theorem State.said_stored (s : State) (i : Iface) (a b c d : Bool) : (s.said i a b c d).stored = s.stored := s.modIface_stored i _
theorem State.bare_stored (s : State) : s.bare.stored = s.stored := rfl
theorem State.noteCopy_stored (s : State) (k : Nat) : (s.noteCopy k).stored = s.stored := by
  unfold State.noteCopy; split <;> rfl
theorem State.began_stored (s : State) (i : Iface) : (s.began i).stored = s.stored := by
  unfold State.began; split
  · exact s.count_stored _ _ _
  · rfl
theorem State.guardAbort_stored (s : State) (i : Iface) : (s.guardAbort i).stored = s.stored := by
  unfold State.guardAbort; rw [State.count_stored, State.modIface_stored]; rfl
theorem State.guardDrop_stored (s : State) (i : Iface) : (s.guardDrop i).stored = s.stored := by
  unfold State.guardDrop; split
  · rfl
  · exact s.guardAbort_stored i

/-- Without a REFCLK recovery the end of start-up's step 3 resets nothing. -/
theorem State.stepThree_calm (s : State) (h : s.sup.softAfterRef = false) : s.stepThree.frame = s.frame ∧ s.stepThree.sup.softAfterRef = false := by
  unfold State.stepThree
  split
  · rw [if_neg (by simp [h])]; exact ⟨rfl, h⟩
  · exact ⟨rfl, h⟩
/-- A state with the frame and the supervisor of another. -/
theorem calm_same {s t : State} (h : s.sup.softAfterRef = false) (hf : t.frame = s.frame) (hs : t.sup = s.sup) :
    t.frame = s.frame ∧ t.sup.softAfterRef = false := ⟨hf, by rw [hs]; exact h⟩
theorem State.forcePll_calm (s : State) (k : Pll) (off : Bool) (h : s.sup.softAfterRef = false) :
    (s.forcePll k off).frame = s.frame ∧ (s.forcePll k off).sup.softAfterRef = false := by
  unfold State.forcePll
  split
  · have e : (s.pllLost k {}).sup.softAfterRef = false := by rw [held_sup (s.pllLost_held k {})]; exact h
    have := (s.pllLost k {}).stepThree_calm e
    rw [State.pllLost_frame] at this
    exact this
  · split <;> exact ⟨rfl, h⟩
/-- Without a REFCLK recovery a domain's force-off bit resets nothing. -/
theorem State.forceOne_calm (s : State) (zeroOk : Bool) (d : Nat) (h : s.sup.softAfterRef = false) :
    (s.forceOne zeroOk d).frame = s.frame ∧ (s.forceOne zeroOk d).sup.softAfterRef = false := by
  unfold State.forceOne; dsimp only
  split
  · split
    · exact calm_same h (State.forceSync_frame _ _) (held_sup (State.forceSync_held _ _))
    · exact calm_same h (State.releaseHeld_frame _ _) (held_sup (State.releaseHeld_held _ _))
  split
  · exact calm_same h (State.forceBank_frame _ _ _) (held_sup (State.forceBank_held _ _ _))
  split
  · split
    · exact calm_same h (State.loseLane_frame _ _ _) (held_sup (State.loseLane_held _ _ _))
    · exact ⟨rfl, h⟩
  split
  · split
    · exact calm_same h (State.abandonAll_frame _ _) (held_sup (State.abandonAll_held _ _))
    · exact calm_same h (State.startPending_frame _) (held_sup (State.startPending_held _))
  split
  · split
    · exact calm_same h (State.dropRotation_frame _) (held_sup (State.dropRotation_held _))
    · exact ⟨rfl, h⟩
  split
  · split
    · exact calm_same h (State.zeroise_frame _ _ _) (State.zeroise_sup _ _ _)
    · exact calm_same h (State.waitingKeys_frame _) (State.waitingKeys_sup _)
  split
  · exact State.forcePll_calm _ _ _ h
  split
  · exact calm_same h (foldl_frame _ _ _ (fun t p => by split <;> simp)) (held_sup (foldl_held _ _ _ (fun t p => by split <;> simp)))
  · exact ⟨rfl, h⟩
theorem State.forceWritten_calm (s : State) (n : Fin 8) (old : Word) (zeroOk : Bool) (h : s.sup.softAfterRef = false) :
    (s.forceWritten n old zeroOk).frame = s.frame := by
  unfold State.forceWritten
  dsimp only
  generalize (List.range 32).filter (fun i => bit old i != bit (s.reg (regKey 0 (0x10 + n.val))) i) = l
  have key : ∀ (l : List Nat) (t : State), t.sup.softAfterRef = false →
      (l.foldl (fun (t : State) i => t.forceOne zeroOk (32 * n.val + i)) t).frame = t.frame := by
    intro l
    induction l with
    | nil => intro t _; rfl
    | cons a l ih =>
      intro t ht
      have := t.forceOne_calm zeroOk (32 * n.val + a) ht
      rw [List.foldl_cons, ih _ this.2, this.1]
  exact key l s h
/-- A write that changes no force-off bit does nothing. -/
theorem State.forceWritten_none (s : State) (n : Fin 8) (zeroOk : Bool) : s.forceWritten n (s.reg (regKey 0 (0x10 + n.val))) zeroOk = s := by
  unfold State.forceWritten
  dsimp only
  have e : ∀ w : Word, (List.range 32).filter (fun i => bit w i != bit w i) = [] := fun w => by simp
  rw [e]; rfl

/-- A write that resets nothing beside its register: it acts on no CK_RESET.SOFT, and changes no force-off bit while a REFCLK
recovery is going on. -/
def State.noReset (s : State) (b ix : Nat) (old acted : Word) : Prop :=
  b ≠ 0 ∨ (ix ≠ 0x0B ∨ bit acted 0 = false) ∧ (¬ (0x10 ≤ ix ∧ ix ≤ 0x17) ∨ s.reg (regKey 0 ix) = old ∨ s.sup.softAfterRef = false)

/-- Only a soft reset changes stored registers as the effect of a write. -/
theorem State.regEffect_kept (s : State) (b ix : Nat) (old acted : Word) (sup : Option Supplied) (h : s.noReset b ix old acted) :
    (s.regEffect b ix old acted sup).frame = s.frame := by
  unfold State.regEffect
  split
  · split <;> rfl
  · split <;> try first | rfl | (simp; done)
    rename_i hb
    have hb0 : b = 0 := by unfold blockKind at hb; revert hb; (repeat' split) <;> simp_all
    obtain ⟨h0, h1⟩ := h.resolve_left (fun e => e hb0)
    unfold State.chipEffect
    split
    · unfold State.resetActed
      rename_i e
      rw [if_neg (by simp [h0.resolve_left (fun x => x e)])]
      refine foldl_frame_of (fun t p => by split <;> simp) (foldl_frame_of (fun t n => by split <;> simp) (by split <;> simp))
    · split
      · rename_i hr
        dsimp only
        rcases h1 with h1 | h1 | h1
        · exact absurd hr h1
        · have e1 : ((Fin.ofNat 8 (ix - 0x10) : Fin 8)).val = ix - 0x10 := by show (ix - 0x10) % 8 = _; omega
          have e2 : (s.supply sup).2.reg (regKey 0 (0x10 + (Fin.ofNat 8 (ix - 0x10) : Fin 8).val)) = old := by
            rw [e1, show 0x10 + (ix - 0x10) = ix by omega, ← h1]
            unfold State.reg
            rw [frame_regs (s.supply_frame sup), frame_otp (s.supply_frame sup)]
          rw [← e2, State.forceWritten_none, State.supply_frame]
        · rw [State.forceWritten_calm _ _ _ _ (by rw [held_sup (s.supply_held sup)]; exact h1), State.supply_frame]
      · split <;> simp
theorem State.regEffect_stored (s : State) (b ix : Nat) (old acted : Word) (sup : Option Supplied) (h : s.noReset b ix old acted) :
    (s.regEffect b ix old acted sup).stored = s.stored := stored_of_frame (s.regEffect_kept b ix old acted sup h)

/-- A write whose image alone is stored: as `noReset`, before the image is known. -/
def State.onlyStores (s : State) (b ix : Nat) (guarded : Bool) (way : Way) (v : Word) : Prop :=
  b ≠ 0 ∨ (ix ≠ 0x0B ∨ bit (actedBits (keyFields (regKey b ix)) guarded way v) 0 = false)
    ∧ (¬ (0x10 ≤ ix ∧ ix ≤ 0x17) ∨ guarded = false ∨ s.sup.softAfterRef = false)

/-- A write outside the guard procedure leaves a guarded field. -/
theorem writeFields_guarded (fs : List Fld) (way : Way) (old v : Word) (h : ∀ f ∈ fs, f.acc = .wg) : writeFields fs false way old v = old := by
  unfold writeFields
  induction fs generalizing old with
  | nil => rfl
  | cons f fs ih =>
    rw [List.foldl_cons]
    have e : writeField false way v old f = old := by
      unfold writeField; rw [h f (by simp)]; rfl
    rw [e]
    exact ih old (fun g hg => h g (by simp [hg]))
theorem forceOff_guarded : ∀ ix < 0x18, 0x10 ≤ ix → ∀ f ∈ keyFields (regKey 0 ix), f.acc = .wg := by decide
theorem State.noReset_of (s : State) (b ix : Nat) (guarded : Bool) (way : Way) (v : Word) (h : s.onlyStores b ix guarded way v) :
    (s.setReg (regKey b ix) (s.imageOf b ix guarded way v)).noReset b ix (s.reg (regKey b ix)) (actedBits (keyFields (regKey b ix)) guarded way v) := by
  rcases h with h | ⟨h1, h2⟩
  · exact Or.inl h
  · by_cases hb : b = 0
    · subst hb
      refine Or.inr ⟨h1, ?_⟩
      by_cases hr : 0x10 ≤ ix ∧ ix ≤ 0x17
      · rcases h2 with h2 | h2 | h2
        · exact absurd hr h2
        · refine Or.inr (Or.inl ?_)
          subst h2
          have e : s.imageOf 0 ix false way v = s.reg (regKey 0 ix) := by
            unfold State.imageOf; dsimp only
            split
            · exact writeFields_guarded _ _ _ _ (forceOff_guarded ix (by omega) hr.1)
            · rfl
          rw [e]; simp [State.setReg, State.reg, tabGet_put_same]
        · exact Or.inr (Or.inr h2)
      · exact Or.inl hr
    · exact Or.inl hb
theorem State.storeReg_stored (s : State) (b ix : Nat) (guarded : Bool) (way : Way) (v : Word) (sup : Option Supplied)
    (h1 : ¬ (b / 16 = 4 ∧ ix < 0x40)) (h : s.onlyStores b ix guarded way v) :
    (s.storeReg b ix guarded way v sup).stored = (s.setReg (regKey b ix) (s.imageOf b ix guarded way v)).stored := by
  unfold State.storeReg
  dsimp only
  rw [if_neg h1, State.regEffect_stored _ _ _ _ _ _ (s.noReset_of b ix guarded way v h)]
theorem State.applyWrite_stored (s : State) (i : Iface) (b ix : Nat) (guarded : Bool) (way : Way) (v : Word) (sup : Option Supplied)
    (h1 : ¬ (b / 16 = 4 ∧ (ix < 0x40 ∨ ix = 0x80))) (h : s.onlyStores b ix guarded way v) :
    (s.applyWrite i b ix guarded way v sup).stored = (s.setReg (regKey b ix) (s.imageOf b ix guarded way v)).stored := by
  unfold State.applyWrite
  dsimp only
  have hd : ¬ (b / 16 = 4 ∧ ix = 0x80) := fun e => h1 ⟨e.1, Or.inr e.2⟩
  rw [if_neg hd]
  split
  · rw [State.noteCopy_stored, State.storeReg_stored _ _ _ _ _ _ _ (fun e => h1 ⟨e.1, Or.inl e.2⟩) h]
  · rw [State.storeReg_stored _ _ _ _ _ _ _ (fun e => h1 ⟨e.1, Or.inl e.2⟩) h]

/-! ### The accesses that an interface takes -/

theorem State.opens_began {s : State} {i : Iface} {b : Nat} (h : s.opens i b) : (s.began i).opens i b := by
  unfold State.opens State.deaf State.closedTo State.early at *
  unfold State.began
  split
  · cases i <;> simpa [State.iface] using h
  · exact h
/-- A write at an open block with an idle guard acts outside the procedure. -/
theorem State.busWrite_open {s : State} {i : Iface} {b : Nat} (h : s.opens i b) (ix : Nat) (way : Way) (comp : Bool) (v : Word) (sup : Option Supplied) :
    s.busWrite i b ix way comp v sup = (s.began i).writeFree i b ix way comp v sup := by
  have hb := State.opens_began h
  unfold State.busWrite
  dsimp only
  rw [if_neg (by simp [h.1])]
  have hc : ¬ (i ≠ Iface.keeper ∧ (s.began i).closedTo b = true) := by
    rcases hb.2.2 with e | e
    · simp [e]
    · simp [e]
  rw [if_neg hc, hb.2.1]
/-- The state in which a write at a register of stored fields leaves the registers. -/
theorem State.writeFree_plain (s : State) (i : Iface) (b ix : Nat) (way : Way) (v : Word) (sup : Option Supplied) (hu : usedIndex (blockKind b) ix = true)
    (h1 : ¬ (b = 0 ∧ ix = 0x30)) (h2 : ix ≠ 0xFF) (h3 : ix ≠ 0xFE) :
    s.writeFree i b ix way false v sup =
      (if hasGuarded (keyFields (regKey b ix)) then (s.applyWrite i b ix false way v sup).bare else s.applyWrite i b ix false way v sup).said i
        (hasGuarded (keyFields (regKey b ix))) false false (s.leaves b ix false way v) := by
  unfold State.writeFree
  rw [if_neg (by simp [hu]), if_neg (by simp), if_neg h1, if_neg h2, if_neg (fun e => h3 e.1)]
theorem State.imageOf_began (s : State) (i : Iface) (b ix : Nat) (g : Bool) (way : Way) (v : Word) :
    (s.began i).imageOf b ix g way v = s.imageOf b ix g way v := by
  unfold State.began
  split
  · unfold State.imageOf State.takesWrite State.hidesStored State.xtCtrl State.act State.badParity State.reg; simp
  · rfl
theorem State.setReg_reg (s : State) (key : Nat) (v : Word) (k : Nat) : (s.setReg key v).reg k = if k = key then v else s.reg k := by
  split
  · rename_i h; subst h; simp [State.setReg, State.reg, tabGet_put_same]
  · rename_i h; simp [State.setReg, State.reg, tabGet_put_ne _ _ _ _ h]
theorem State.setReg_stored_congr {a b : State} (h : a.stored = b.stored) (key : Nat) (v : Word) : (a.setReg key v).stored = (b.setReg key v).stored := by
  have e1 : a.frame.root = b.frame.root := congrArg Prod.fst h
  have e2 := stored_regs h
  have e3 := stored_otp h
  show (a.frame.root, tabPut (rstWord a.otp key) a.regs key v) = (b.frame.root, tabPut (rstWord b.otp key) b.regs key v)
  rw [e1, e2, e3]
/-- What a write outside the guard procedure leaves of the stored registers: the image of the register written, all others as
they were. -/
theorem State.busWrite_stored {s : State} {i : Iface} {b ix : Nat} (h : s.opens i b) (way : Way) (v : Word) (sup : Option Supplied)
    (hu : usedIndex (blockKind b) ix = true) (h1 : ¬ (b = 0 ∧ ix = 0x30)) (h2 : ix ≠ 0xFF) (h3 : ix ≠ 0xFE)
    (h4 : ¬ (b / 16 = 4 ∧ (ix < 0x40 ∨ ix = 0x80))) (h5 : b ≠ 0 ∨ ix ≠ 0x0B) :
    (s.busWrite i b ix way false v sup).stored = (s.setReg (regKey b ix) (s.imageOf b ix false way v)).stored := by
  rw [State.busWrite_open h, State.writeFree_plain _ _ _ _ _ _ _ hu h1 h2 h3, State.said_stored]
  have e := (s.began i).applyWrite_stored i b ix false way v sup h4
    (by rcases h5 with e | e; exact Or.inl e; exact Or.inr ⟨Or.inl e, Or.inr (Or.inl rfl)⟩)
  rw [State.imageOf_began] at e
  have e2 := e.trans (State.setReg_stored_congr (s.began_stored i) _ _)
  split
  · rw [State.bare_stored]; exact e2
  · exact e2

/-! ### The guard procedure (R356) -/

/-- A state with another tally and another record of one interface: all that the first two steps of the procedure change. -/
def State.pack (s : State) (i : Iface) (t : Tally) (g : IfaceRec) : State := ({ s with tally := t } : State).modIface i (fun _ => g)

theorem State.pack_self (s : State) (i : Iface) : s.pack i s.tally (s.iface i) = s := by cases i <;> rfl
theorem State.pack_modIface (s : State) (i : Iface) (t : Tally) (g : IfaceRec) (f : IfaceRec → IfaceRec) :
    (s.pack i t g).modIface i f = s.pack i t (f g) := by cases i <;> rfl
theorem State.pack_iface (s : State) (i : Iface) (t : Tally) (g : IfaceRec) : (s.pack i t g).iface i = g := by cases i <;> rfl
theorem State.pack_deaf (s : State) (i j : Iface) (t : Tally) (g : IfaceRec) : (s.pack i t g).deaf j = s.deaf j := by cases i <;> rfl
theorem State.pack_closedTo (s : State) (i : Iface) (t : Tally) (g : IfaceRec) (b : Nat) : (s.pack i t g).closedTo b = s.closedTo b := by
  cases i <;> rfl
theorem State.pack_stored (s : State) (i : Iface) (t : Tally) (g : IfaceRec) : (s.pack i t g).stored = s.stored := by
  unfold State.pack; rw [State.modIface_stored]; rfl
theorem State.pack_began (s : State) (i : Iface) (t : Tally) (g : IfaceRec) : ∃ t2, (s.pack i t g).began i = s.pack i t2 g := by
  unfold State.began
  split
  · obtain ⟨t2, h⟩ := State.countCode_eq (s.pack i t g) 0 (0x200 + 0) 1
    exact ⟨t2, by unfold State.count; rw [h]; cases i <;> rfl⟩
  · exact ⟨t, rfl⟩
theorem State.pack_said (s : State) (i : Iface) (t : Tally) (g : IfaceRec) (a b c d : Bool) :
    (s.pack i t g).said i a b c d = s.pack i t { g with badGuard := a, badCrc := b, badFrame := c, noChange := d, guardOn := g.guard != .idle } :=
  s.pack_modIface i t g _

/-- The key arms an idle guard. -/
theorem State.keyWrite_pack {s : State} {i : Iface} (h : s.opens i 0) : ∃ t g, g.guard = .armed ∧ s.busWrite i 0 0x30 .plain false guardKey = s.pack i t g := by
  rw [State.busWrite_open h]
  obtain ⟨t, ht⟩ := s.pack_began i s.tally (s.iface i)
  rw [State.pack_self] at ht
  refine ⟨t, { s.iface i with guard := .armed, badGuard := false, badCrc := false, badFrame := false, noChange := false, guardOn := true }, rfl, ?_⟩
  unfold State.writeFree
  rw [if_neg (by decide), if_neg (by decide), if_pos (by decide), if_pos (by decide), ht, State.pack_modIface, State.pack_said]
  rfl
/-- The value after the key is held. -/
theorem State.valueWrite_pack (s : State) {i : Iface} {b : Nat} (hd : s.deaf i = false) (hc : i = .keeper ∨ s.closedTo b = false) {ix : Nat}
    (hu : usedIndex (blockKind b) ix = true) (hg : hasGuarded (keyFields (regKey b ix)) = true) (t : Tally) (g : IfaceRec) (ha : g.guard = .armed)
    (v : Word) (sup : Option Supplied) :
    ∃ t2 g2, g2.guard = .holding (plainAddr b ix) v ∧ (s.pack i t g).busWrite i b ix .plain false v sup = s.pack i t2 g2 := by
  obtain ⟨t2, ht⟩ := s.pack_began i t g
  unfold State.busWrite
  dsimp only
  rw [if_neg (by simp [State.pack_deaf, hd]), ht, if_neg (by rw [State.pack_closedTo]; rcases hc with e | e <;> simp [e]), State.pack_iface, ha]
  dsimp only
  rw [if_pos (by simp [hu, hg]), State.pack_modIface, State.pack_said]
  exact ⟨t2, _, rfl, rfl⟩
/-- The complement of the held value lets the write act. -/
theorem State.complementWrite_pack (s : State) {i : Iface} {b : Nat} (hd : s.deaf i = false) (hc : i = .keeper ∨ s.closedTo b = false) {ix : Nat}
    (t : Tally) (g : IfaceRec) (v : Word) (ha : g.guard = .holding (plainAddr b ix) v) (sup : Option Supplied) :
    ∃ t2 g2, g2.guard = .idle ∧ (s.pack i t g).busWrite i b ix .plain true (~~~v) sup =
      ((s.pack i t2 g2).applyWrite i b ix true .plain v sup).said i false false false ((s.pack i t2 g2).leaves b ix true .plain v) := by
  obtain ⟨t2, ht⟩ := s.pack_began i t g
  unfold State.busWrite
  dsimp only
  rw [if_neg (by simp [State.pack_deaf, hd]), ht, if_neg (by rw [State.pack_closedTo]; rcases hc with e | e <;> simp [e]), State.pack_iface, ha]
  dsimp only
  rw [if_pos (by simp), if_pos rfl]
  unfold State.accepted
  dsimp only
  rw [State.pack_modIface]
  exact ⟨t2, _, rfl, rfl⟩
/-- The whole procedure (R356): the write acts on the state with the interface's guard idle again. -/
theorem State.guardedWrite_acts {s : State} {i : Iface} {b : Nat} (h : s.opens i b) {ix : Nat} (hu : usedIndex (blockKind b) ix = true)
    (hg : hasGuarded (keyFields (regKey b ix)) = true) (v : Word) (sup : Option Supplied) :
    ∃ t g, g.guard = .idle ∧ s.guardedWrite i b ix v sup =
      ((s.pack i t g).applyWrite i b ix true .plain v sup).said i false false false ((s.pack i t g).leaves b ix true .plain v) := by
  have h0 : s.opens i 0 := ⟨h.1, h.2.1, Or.inr (by simp [State.closedTo])⟩
  obtain ⟨t1, g1, e1, h1⟩ := State.keyWrite_pack h0
  obtain ⟨t2, g2, e2, h2⟩ := s.valueWrite_pack h.1 h.2.2 hu hg t1 g1 e1 v none
  obtain ⟨t3, g3, e3, h3⟩ := s.complementWrite_pack h.1 h.2.2 t2 g2 v e2 sup
  refine ⟨t3, g3, e3, ?_⟩
  unfold State.guardedWrite
  rw [h1, h2, h3]

theorem Channel.answered_req (ch : Channel) (a b : Nat) (ws : List Word) : (ch.answered a b ws).req = ch.req := by simp only [Channel.answered]
theorem State.remoteSweep_req (s : State) (c d : Fin 16) : ((s.remoteSweep c).chan d).req = (s.chan d).req := by
  unfold State.remoteSweep
  split
  · split
    · rfl
    · by_cases e : d = c
      · subst e; exact (congrArg Channel.req (s.answer_chan_same d 0x0301 [] 0xFFFF)).trans (Channel.answered_req _ _ _ _)
      · exact congrArg Channel.req (s.answer_chan_ne e 0x0301 [] 0xFFFF)
  · rfl
theorem settle_req (old s : State) (c : Fin 16) : ((settle old s).chan c).req = (s.chan c).req := by
  obtain ⟨t, ht⟩ := State.countRises_eq old s.regs s
  have h : ∀ u : State, ((((u.remoteDrop).journalNotice old).syncDomains).chan c).req = (u.chan c).req := by
    intro u
    obtain ⟨d, hd⟩ := State.syncDomains_eq ((u.remoteDrop).journalNotice old)
    obtain ⟨b, hb⟩ := State.journalNotice_eq u.remoteDrop old
    obtain ⟨v, hv, _⟩ := u.remoteDrop_eq
    rw [hd, hb, hv]; rfl
  unfold settle
  rw [h, foldl_keep (fun t : State => (t.chan c).req) _ _ _ (fun t e => t.remoteSweep_req e c), ht]; rfl
theorem State.wrote_of {s t : State} {b ix : Nat} {g : Bool} {w : Way} {v : Word}
    (h : t.stored = (s.setReg (regKey b ix) (s.imageOf b ix g w v)).stored) : s.wrote b ix g w v t := by
  intro k; rw [stored_reg h, State.setReg_reg]
theorem stored_frame {a b : State} (h : a.frame = b.frame) : a.stored = b.stored := stored_of_frame h
theorem State.busWrite_wrote {s : State} {i : Iface} {b ix : Nat} (h : s.opens i b) (way : Way) (v : Word) (sup : Option Supplied)
    (hu : usedIndex (blockKind b) ix = true) (hp : plainReg b ix) {t : State} (ht : t.frame = (s.busWrite i b ix way false v sup).frame) :
    s.wrote b ix false way v t := by
  refine State.wrote_of ((stored_of_frame ht).trans (State.busWrite_stored h way v sup hu ?_ hp.1 hp.2.1 hp.2.2.2 ?_))
  · rintro ⟨e1, e2⟩; exact hp.2.2.1 ⟨e1, Or.inl e2⟩
  · by_cases e1 : b = 0
    · by_cases e2 : ix = 0x0B
      · exact absurd ⟨e1, Or.inr e2⟩ hp.2.2.1
      · exact Or.inr e2
    · exact Or.inl e1
theorem settle_iface (old s : State) (i : Iface) : (settle old s).iface i = s.iface i := by cases i <;> simp [State.iface]
theorem State.said_iface (s : State) (i : Iface) (a b c d : Bool) :
    (s.said i a b c d).iface i = { s.iface i with badGuard := a, badCrc := b, badFrame := c, noChange := d, guardOn := (s.iface i).guard != .idle } := by
  cases i <;> rfl
/-- What a command must leave as it was for nothing to follow on the ports. -/
def State.calm (s : State) : Vector Port 16 × (Root × List (Nat × Word)) × List Nat × List Nat := (s.ports, s.stored, s.parity, s.mended)

theorem calm_ports {a b : State} (h : a.calm = b.calm) : a.ports = b.ports := congrArg (fun x => x.1) h
theorem calm_stored {a b : State} (h : a.calm = b.calm) : a.stored = b.stored := congrArg (fun x => x.2.1) h
theorem calm_parity {a b : State} (h : a.calm = b.calm) : a.parity = b.parity := congrArg (fun x => x.2.2.1) h
theorem calm_mended {a b : State} (h : a.calm = b.calm) : a.mended = b.mended := congrArg (fun x => x.2.2.2) h
theorem calm_of {a b : State} (h1 : a.ports = b.ports) (h2 : a.stored = b.stored) (h3 : a.parity = b.parity) (h4 : a.mended = b.mended) : a.calm = b.calm := by
  unfold State.calm; rw [h1, h2, h3, h4]
theorem State.followAll_calm {s t : State} (h : t.calm = s.calm) : State.followAll s t = t := by
  refine followAll_same (fun p => by unfold State.port; rw [calm_ports h]) (fun p => by unfold State.port; rw [calm_ports h]) (fun p => ?_)
  unfold State.enabled State.lnMode State.portReg State.act State.badParity State.reg
  rw [stored_regs (calm_stored h), stored_otp (calm_stored h), calm_parity h, calm_mended h]
theorem acts_calm {c : Instr} {s t : State} {P : State → Prop} (he : exec c s = s.actsAll t) (hc : t.calm = s.calm) (h : P (settle s t)) : Does c s P :=
  ⟨_, by rw [he, State.actsAll_eq, State.followAll_calm hc], h⟩
theorem State.modIface_calm (s : State) (i : Iface) (f : IfaceRec → IfaceRec) : (s.modIface i f).calm = s.calm := by cases i <;> rfl
theorem State.said_calm (s : State) (i : Iface) (a b c d : Bool) : (s.said i a b c d).calm = s.calm := s.modIface_calm i _
theorem State.count_calm (s : State) (b k n : Nat) : (s.count b k n).calm = s.calm :=
  calm_of (by simp) (s.count_stored b k n) (by simp) (by simp)
theorem State.began_calm (s : State) (i : Iface) : (s.began i).calm = s.calm := by
  unfold State.began; split
  · exact s.count_calm _ _ _
  · rfl
theorem State.bare_calm (s : State) : s.bare.calm = s.calm := rfl
theorem State.guardAbort_calm (s : State) (i : Iface) : (s.guardAbort i).calm = s.calm := by
  unfold State.guardAbort; rw [State.count_calm, State.modIface_calm]; rfl
theorem State.guardDrop_calm (s : State) (i : Iface) : (s.guardDrop i).calm = s.calm := by
  unfold State.guardDrop; split
  · rfl
  · exact s.guardAbort_calm i

/-- The tally without its counters: what counting leaves as it was. -/
def Tally.rest (t : Tally) : Tally := { t with counters := [], wraps := [] }

theorem Tally.setCounter_rest (t : Tally) (b i : Nat) (v : BitVec 48) : (t.setCounter b i v).rest = t.rest := rfl
theorem Tally.add_rest (t : Tally) (c : Bool) (b i n : Nat) : (t.add c b i n).rest = t.rest := by
  unfold Tally.add; dsimp only; split
  · rfl
  · split <;> rfl
theorem State.countOne_rest (s : State) (b code n : Nat) (t : Tally) (i : Nat) : (s.countOne b code n t i).rest = t.rest := by
  unfold State.countOne; dsimp only; split
  · rw [Tally.add_rest]
  · rfl
theorem State.countCode_rest (s : State) (b code n : Nat) : (s.countCode b code n).tally.rest = s.tally.rest := by
  have h : ∀ (l : List Nat) (t : Tally), (l.foldl (s.countOne b code n) t).rest = t.rest := by
    intro l
    induction l with
    | nil => exact fun t => rfl
    | cons x l ih => intro t; rw [List.foldl_cons, ih, State.countOne_rest]
  unfold State.countCode; split
  · rfl
  · exact h _ _
theorem State.count_rest (s : State) (b k n : Nat) : (s.count b k n).tally.rest = s.tally.rest := s.countCode_rest _ _ _
theorem State.countRise_rest (old s : State) (e : Nat × Word) : (State.countRise old s e).tally.rest = s.tally.rest := by
  unfold State.countRise; dsimp only; split
  · split
    · split
      · exact Tally.add_rest _ _ _ _ _
      · rfl
    · rfl
  · rfl
theorem State.answer_rest (s : State) (c : Fin 16) (st : Nat) (ws : List Word) (d : Nat) : (s.answer c st ws d).tally.rest = s.tally.rest := by
  unfold State.answer; rw [State.count_rest, State.count_rest]; rfl
theorem State.remoteSweep_rest (s : State) (c : Fin 16) : (s.remoteSweep c).tally.rest = s.tally.rest := by
  unfold State.remoteSweep; split
  · split
    · rfl
    · exact s.answer_rest c 0x0301 [] 0xFFFF
  · rfl
theorem settle_rest (old s : State) : (settle old s).tally.rest = s.tally.rest := by
  have h : ∀ u : State, ((((u.remoteDrop).journalNotice old).syncDomains)).tally.rest = u.tally.rest := by
    intro u
    obtain ⟨d, hd⟩ := State.syncDomains_eq ((u.remoteDrop).journalNotice old)
    obtain ⟨b, hb⟩ := State.journalNotice_eq u.remoteDrop old
    obtain ⟨v, hv, _⟩ := u.remoteDrop_eq
    rw [hd, hb, hv]
  unfold settle
  rw [h, foldl_keep (fun t : State => t.tally.rest) _ _ _ (fun t e => t.remoteSweep_rest e),
    foldl_keep (fun t : State => t.tally.rest) _ _ _ (fun t e => State.countRise_rest old t e)]
theorem settle_lfsr (old s : State) : (settle old s).tally.lfsr = s.tally.lfsr := by
  have h := congrArg Tally.lfsr (settle_rest old s); exact h
theorem State.act_plain (s : State) (b ix : Nat) (h1 : b ≠ 0) (h2 : b ≠ 2) (h3 : b ≠ 3) (h4 : ix < 0xE0) : s.act (regKey b ix) = s.reg (regKey b ix) := by
  have hb : regKey b ix / 256 = b := by unfold regKey; omega
  have hi : regKey b ix % 256 = ix := by unfold regKey; omega
  unfold State.act
  split
  · dsimp only
    rw [hb, hi, if_neg (by omega), if_neg (by omega), if_neg (by omega), if_neg (by omega)]
  · rfl

theorem setFld_fld_bit (v : Word) (lo w n j : Nat) (h : j < 32) : (setFld v lo w n).getLsbD j =
    if lo ≤ j ∧ j < lo + w then n.testBit (j - lo) else v.getLsbD j := by
  unfold setFld
  simp only [BitVec.getLsbD_or, BitVec.getLsbD_and, BitVec.getLsbD_not, put_bit, Nat.testBit_two_pow_sub_one]
  by_cases h1 : lo ≤ j <;> by_cases h2 : j < lo + w <;> simp [h, h1, h2] 
  omega
theorem setFld_fld (v : Word) (lo w n : Nat) (h : lo + w ≤ 32) : fld (setFld v lo w n) lo w = n % 2 ^ w := by
  apply Nat.eq_of_testBit_eq
  intro k
  rw [fld_bits, Nat.testBit_mod_two_pow]
  by_cases hk : k < w
  · rw [setFld_fld_bit _ _ _ _ _ (by omega), if_pos ⟨by omega, by omega⟩]; simp
  · simp [hk]
theorem fld_congr {a b : Word} {lo w : Nat} (h : ∀ j, lo ≤ j → j < lo + w → a.getLsbD j = b.getLsbD j) : fld a lo w = fld b lo w := by
  apply Nat.eq_of_testBit_eq
  intro k
  rw [fld_bits, fld_bits]
  by_cases hk : k < w
  · rw [h _ (by omega) (by omega)]
  · simp [hk]
theorem writeField_bit (g : Bool) (w : Way) (data v : Word) (f : Fld) (j : Nat) (h : ¬ (f.lo ≤ j ∧ j < f.lo + f.w)) :
    (writeField g w data v f).getLsbD j = v.getLsbD j := by
  unfold writeField
  split
  · dsimp only
    by_cases hj : j < 32
    · rw [setFld_fld_bit _ _ _ _ _ hj, if_neg h]
    · rw [BitVec.getLsbD_of_ge _ _ (by omega), BitVec.getLsbD_of_ge _ _ (by omega)]
  · rfl
theorem writeFields_bit (fs : List Fld) (g : Bool) (w : Way) (old data : Word) (j : Nat) (h : ∀ f ∈ fs, ¬ (f.lo ≤ j ∧ j < f.lo + f.w)) :
    (writeFields fs g w old data).getLsbD j = old.getLsbD j := by
  unfold writeFields
  induction fs generalizing old with
  | nil => rfl
  | cons f fs ih =>
    rw [List.foldl_cons, ih _ (fun x hx => h x (List.mem_cons_of_mem _ hx)), writeField_bit _ _ _ _ _ _ (h f List.mem_cons_self)]
theorem writeFields_fld (fs : List Fld) (hd : fs.Pairwise (fun f g => f.lo + f.w ≤ g.lo ∨ g.lo + g.w ≤ f.lo)) (g : Bool) (w : Way) (old data : Word)
    (f : Fld) (hf : f ∈ fs) : fld (writeFields fs g w old data) f.lo f.w = fld (writeField g w data old f) f.lo f.w := by
  induction fs generalizing old with
  | nil => cases hf
  | cons e fs ih =>
    rw [List.pairwise_cons] at hd
    have hs : writeFields (e :: fs) g w old data = writeFields fs g w (writeField g w data old e) data := rfl
    rw [hs]
    rcases List.mem_cons.1 hf with rfl | hm
    · refine fld_congr (fun j h1 h2 => writeFields_bit _ _ _ _ _ _ (fun x hx hj => ?_))
      rcases hd.1 x hx with h | h <;> omega
    · rw [ih hd.2 _ hm]
      have hsame : ∀ j, f.lo ≤ j → j < f.lo + f.w → (writeField g w data old e).getLsbD j = old.getLsbD j := by
        intro j h1 h2
        refine writeField_bit _ _ _ _ _ _ (fun hj => ?_)
        rcases hd.1 f hm with h | h <;> omega
      unfold writeField at hsame ⊢
      split
      · rename_i hc
        dsimp only
        rw [fld_congr hsame]
        exact fld_congr (fun j h1 h2 => by
          by_cases hj : j < 32
          · rw [setFld_fld_bit _ _ _ _ _ hj, setFld_fld_bit _ _ _ _ _ hj, if_pos ⟨h1, h2⟩, if_pos ⟨h1, h2⟩]
          · rw [BitVec.getLsbD_of_ge _ _ (by omega), BitVec.getLsbD_of_ge _ _ (by omega)])
      · exact fld_congr hsame

theorem State.applyWrite_kept (s : State) (i : Iface) (b ix : Nat) (guarded : Bool) (way : Way) (v : Word) (sup : Option Supplied)
    (h1 : ¬ (b / 16 = 4 ∧ (ix < 0x40 ∨ ix = 0x80))) (h : s.onlyStores b ix guarded way v) :
    (s.applyWrite i b ix guarded way v sup).frame = (s.setReg (regKey b ix) (s.imageOf b ix guarded way v)).frame := by
  have e : (s.storeReg b ix guarded way v sup).frame = (s.setReg (regKey b ix) (s.imageOf b ix guarded way v)).frame := by
    unfold State.storeReg
    dsimp only
    rw [if_neg (fun e => h1 ⟨e.1, Or.inl e.2⟩), State.regEffect_kept _ _ _ _ _ _ (s.noReset_of b ix guarded way v h)]
  unfold State.applyWrite
  dsimp only
  rw [if_neg (show ¬ (b / 16 = 4 ∧ ix = 0x80) from fun e => h1 ⟨e.1, Or.inr e.2⟩)]
  split
  · rw [← e]; unfold State.noteCopy; split <;> rfl
  · exact e
theorem frame_spi {a b : State} (h : a.frame = b.frame) : a.spi = b.spi := congrArg Frame.spi h
theorem frame_mon {a b : State} (h : a.frame = b.frame) : a.mon = b.mon := congrArg Frame.mon h
theorem frame_mismatch {a b : State} (h : a.frame = b.frame) : a.gdMismatch = b.gdMismatch := congrArg Frame.gdMismatch h
/-- A register of a mailbox block holds no guarded field. -/
theorem guarded_plain {b ix : Nat} (hg : hasGuarded (keyFields (regKey b ix)) = true) (h8 : ix < 256) : b / 16 ≠ 4 := by
  intro hb
  have e1 : regKey b ix / 256 = b := by unfold regKey; omega
  have e2 : regKey b ix % 256 = ix := by unfold regKey; omega
  have e3 : blockKind b = .mbox := by
    unfold blockKind; repeat rw [if_neg (by omega)]
  unfold keyFields at hg
  rw [e1, e2, e3] at hg
  have : ∀ ix < 256, hasGuarded (fieldsOf .mbox ix) = false := by
    intro ix _; unfold fieldsOf; split
    · unfold commonFields; (repeat' split) <;> rfl
    · dsimp only; unfold mboxFields; split <;> rfl
  rw [this ix h8] at hg; cases hg
/-- What the whole procedure leaves of the stored registers. -/
theorem State.guardedWrite_wrote {s : State} {i : Iface} {b : Nat} (h : s.opens i b) {ix : Nat} (hu : usedIndex (blockKind b) ix = true)
    (hg : hasGuarded (keyFields (regKey b ix)) = true) (v : Word) (sup : Option Supplied) (h1 : ¬ (b / 16 = 4 ∧ (ix < 0x40 ∨ ix = 0x80)))
    (h2 : ¬ (b = 0 ∧ ix = 0x0B))
    (h3 : b = 0 → 0x10 ≤ ix → ix ≤ 0x17 → s.sup.softAfterRef = false) {t : State} (ht : t.frame = (s.guardedWrite i b ix v sup).frame) : s.wrote b ix true .plain v t := by
  obtain ⟨ta, ga, _, he⟩ := State.guardedWrite_acts h hu hg v sup
  rw [he] at ht
  have hi : (s.pack i ta ga).imageOf b ix true .plain v = s.imageOf b ix true .plain v := by cases i <;> rfl
  refine State.wrote_of ((stored_of_frame ht).trans ?_)
  rw [State.said_stored, State.applyWrite_stored _ _ _ _ _ _ _ _ h1 (by
    by_cases e1 : b = 0
    · by_cases e2 : ix = 0x0B
      · exact absurd ⟨e1, e2⟩ h2
      · refine Or.inr ⟨Or.inl e2, ?_⟩
        by_cases e3 : 0x10 ≤ ix ∧ ix ≤ 0x17
        · exact Or.inr (Or.inr (by rw [show (s.pack i ta ga).sup = s.sup by cases i <;> rfl]; exact h3 e1 e3.1 e3.2))
        · exact Or.inl e3
    · exact Or.inl e1), hi]
  exact State.setReg_stored_congr (s.pack_stored i ta ga) _ _

theorem tabGet_filter {α : Type} (d : α) (t : List (Nat × α)) (f : Nat → Bool) (k : Nat) :
    tabGet d (t.filter (fun e => f e.1)) k = if f k then tabGet d t k else d := by
  induction t with
  | nil => simp [tabGet]
  | cons e t ih =>
    obtain ⟨j, v⟩ := e
    by_cases hj : f j = true
    · rw [List.filter_cons_of_pos (by simpa using hj)]
      unfold tabGet
      by_cases hk : k = j
      · subst hk; simp [hj]
      · rw [if_neg hk, if_neg hk, ih]
    · rw [List.filter_cons_of_neg (by simpa using hj), ih]
      by_cases hk : k = j
      · subst hk; simp [hj]
      · rw [show tabGet d ((j, v) :: t) k = tabGet d t k from by rw [tabGet, if_neg hk]]
/-- The bits of CK_RESET that a guarded write makes act. -/
theorem resetActs_bit (v : Word) (j : Nat) (h : j < 2 ∨ (8 ≤ j ∧ j < 32)) :
    bit (actedBits (keyFields (regKey 0 0x0B)) true .plain v) j = v.getLsbD j := by
  have e : actedBits (keyFields (regKey 0 0x0B)) true .plain v =
      (((0 ||| put 16 16 (fld v 16 16)) ||| put 8 8 (fld v 8 8)) ||| put 1 1 (fld v 1 1)) ||| put 0 1 (fld v 0 1) := rfl
  unfold bit
  rw [e]
  simp only [BitVec.getLsbD_or, put_bit, fld_bits]
  have hj : j < 2 ∨ (8 ≤ j ∧ j < 16) ∨ (16 ≤ j ∧ j < 32) := by omega
  rcases hj with h | h | h
  · obtain rfl | rfl : j = 0 ∨ j = 1 := by omega
    · simp
    · simp
  · have : 8 + (j - 8) = j := by omega
    simp [this, show ¬ 16 ≤ j by omega, show 8 ≤ j by omega, show j < 16 by omega, show ¬ j < 2 by omega, show j < 32 by omega, show j - 8 < 8 by omega, show ¬ j < 1 by omega, show ¬ j = 0 by omega]
  · have : 16 + (j - 16) = j := by omega
    simp [this, show 16 ≤ j by omega, show ¬ j < 16 by omega, show ¬ j < 2 by omega, show j < 32 by omega, show j - 16 < 16 by omega, show ¬ j < 1 by omega, show ¬ j = 0 by omega]
/-- The state on which a guarded write of CK_RESET acts: the registers read as before. -/
def State.resetBase (s : State) (i : Iface) (t : Tally) (g : IfaceRec) : State := (s.pack i t g).setReg (regKey 0 0x0B) (s.reg (regKey 0 0x0B))

theorem State.resetBase_reg (s : State) (i : Iface) (t : Tally) (g : IfaceRec) (k : Nat) : (s.resetBase i t g).reg k = s.reg k := by
  unfold State.resetBase
  rw [State.setReg_reg]
  split
  · rename_i h; rw [h]
  · exact stored_reg (s.pack_stored i t g) k
/-- A guarded write of CK_RESET (R54): what its bits start, then what the keeper and the interface note of the access. -/
theorem State.resetWrite_acts {s : State} {i : Iface} (h : s.opens i 0) (v : Word) :
    ∃ (t : Tally) (g : IfaceRec) (b : Bool), s.guardedWrite i 0 0x0B v =
      (if i = .keeper then ((s.resetBase i t g).resetActed (actedBits (keyFields (regKey 0 0x0B)) true .plain v)).noteCopy (regKey 0 0x0B)
       else (s.resetBase i t g).resetActed (actedBits (keyFields (regKey 0 0x0B)) true .plain v)).said i false false false b := by
  obtain ⟨t, g, hg, he⟩ := State.guardedWrite_acts h (ix := 0x0B) (by decide) (by decide) v none
  refine ⟨t, g, (s.pack i t g).leaves 0 0x0B true .plain v, ?_⟩
  have e1 : ∀ u : State, u.imageOf 0 0x0B true .plain v = u.reg (regKey 0 0x0B) := by
    intro u; unfold State.imageOf; dsimp only; split <;> rfl
  have e2 : (s.pack i t g).storeReg 0 0x0B true .plain v none = (s.resetBase i t g).resetActed (actedBits (keyFields (regKey 0 0x0B)) true .plain v) := by
    unfold State.storeReg
    dsimp only
    rw [if_neg (by decide), e1, stored_reg (s.pack_stored i t g)]
    rfl
  rw [he, ← e2]
  rfl
theorem State.noteCopy_eq (s : State) (k : Nat) : ∃ kp : Keeper, s.noteCopy k = { s with keeper := kp } ∧ kp = { s.keeper with copy := kp.copy } := by
  unfold State.noteCopy
  split
  · exact ⟨_, rfl, rfl⟩
  · exact ⟨s.keeper, rfl, rfl⟩
theorem State.said_eq (s : State) (i : Iface) (a b c d : Bool) : ∃ x y z, s.said i a b c d = { s with spi := x, mon := y, kpi := z } := by
  cases i
  · exact ⟨_, s.mon, s.kpi, rfl⟩
  · exact ⟨s.spi, _, s.kpi, rfl⟩
  · exact ⟨s.spi, s.mon, _, rfl⟩
theorem State.resetWrite_eq {s : State} {i : Iface} (h : s.opens i 0) (v : Word) :
    ∃ (t : Tally) (g : IfaceRec) (u : State) (x y z : IfaceRec) (kp : Keeper), u = (s.resetBase i t g).resetActed (actedBits (keyFields (regKey 0 0x0B)) true .plain v)
      ∧ s.guardedWrite i 0 0x0B v = { u with spi := x, mon := y, kpi := z, keeper := kp } ∧ kp = { u.keeper with copy := kp.copy } := by
  obtain ⟨t, g, b, h⟩ := State.resetWrite_acts h v
  refine ⟨t, g, (s.resetBase i t g).resetActed (actedBits (keyFields (regKey 0 0x0B)) true .plain v), ?_⟩
  rw [h]
  split
  · obtain ⟨kp, e1, e2⟩ := ((s.resetBase i t g).resetActed (actedBits (keyFields (regKey 0 0x0B)) true .plain v)).noteCopy_eq (regKey 0 0x0B)
    rw [e1]
    obtain ⟨x, y, z, e3⟩ := State.said_eq { (s.resetBase i t g).resetActed (actedBits (keyFields (regKey 0 0x0B)) true .plain v) with keeper := kp } i false false false b
    exact ⟨x, y, z, kp, rfl, e3, e2⟩
  · obtain ⟨x, y, z, e3⟩ := State.said_eq ((s.resetBase i t g).resetActed (actedBits (keyFields (regKey 0 0x0B)) true .plain v)) i false false false b
    exact ⟨x, y, z, _, rfl, e3, rfl⟩

theorem State.fall_window (s : State) (p : Fin 16) (to_ : LinkState) (cause : Nat) (short : Bool) :
    ((s.fall p to_ cause short).port p).snd.w = (s.port p).snd.w := by
  unfold State.fall
  dsimp only
  rw [State.lineSync_port, State.raise_port, State.journal_port, mask_snd (State.goLink_mask _ p _), State.port_modPort_same]
  dsimp only
  obtain ⟨t, h⟩ := s.silence_port p short
  rw [h]
theorem State.linkDown_window (s : State) (p : Fin 16) (cause : Nat) : ((s.linkDown p cause).port p).snd.w = (s.port p).snd.w := by
  unfold State.linkDown State.draw
  dsimp only
  split
  · rw [State.port_modLink]; dsimp only; rw [State.fall_window]
  · rw [State.port_modLink, State.draws_port]; dsimp only; rw [State.fall_window]
/-- A port reset with no reflectometry running (R51). -/
theorem State.portReset_self (s : State) (p : Fin 16) (ht : (s.port p).tdr.running = false) :
    ((s.port p).link.state ≠ .disabled → (s.port p).link.state ≠ .diag → ((s.portReset p).port p).link.state = .hold ∧ ((s.portReset p).port p).link.downCause = 13)
      ∧ ((s.portReset p).port p).snd.w = (s.port p).snd.w ∧ ((s.portReset p).port p).cal = (s.port p).cal := by
  unfold State.portReset State.tdrAbandon
  dsimp only
  rw [if_neg (by simp [ht]), State.port_modPort_same]
  dsimp only
  unfold State.takeDown
  split
  · rename_i h; exact ⟨fun h1 => absurd h h1, rfl, rfl⟩
  · rename_i h; exact ⟨fun _ h1 => absurd h h1, rfl, rfl⟩
  · obtain ⟨n, hn⟩ := s.linkDown_link p 13
    exact ⟨fun _ _ => by rw [hn]; exact ⟨rfl, rfl⟩, s.linkDown_window p 13, s.linkDown_calOf p 13⟩
theorem State.portReset_ne (s : State) {p q : Fin 16} (h : q ≠ p) (ht : (s.port p).tdr.running = false) :
    ((s.portReset p).port q).mask = (s.port q).mask := by
  unfold State.portReset State.tdrAbandon
  dsimp only
  rw [if_neg (by simp [ht]), State.port_modPort_ne _ h]
  unfold State.takeDown
  split
  · rfl
  · rfl
  · exact s.linkDown_mask_ne h 13
theorem State.portResets_ne (l : List (Fin 16)) (f : Fin 16 → Bool) (s : State) (q : Fin 16) (hq : q ∈ l → f q = false)
    (hl : l.Nodup) (ht : ∀ p, (s.port p).tdr.running = false ∨ f p = false ∨ p ∉ l) :
    ((l.foldl (fun (t : State) p => if f p then t.portReset p else t) s).port q).mask = (s.port q).mask := by
  induction l generalizing s with
  | nil => rfl
  | cons a l ih =>
    rw [List.nodup_cons] at hl
    rw [List.foldl_cons]
    by_cases hf : f a = true
    · rw [if_pos hf]
      have hqa : q ≠ a := by rintro rfl; rw [hq List.mem_cons_self] at hf; cases hf
      have hta : (s.port a).tdr.running = false := by
        rcases ht a with h | h | h
        · exact h
        · rw [h] at hf; cases hf
        · exact absurd List.mem_cons_self h
      rw [ih _ (fun h => hq (List.mem_cons_of_mem _ h)) hl.2 (fun p => ?_), s.portReset_ne hqa hta]
      by_cases hp : p = a
      · exact Or.inr (Or.inr (hp ▸ hl.1))
      · rcases ht p with h | h | h
        · exact Or.inl (by rw [mask_tdr (s.portReset_ne hp hta)]; exact h)
        · exact Or.inr (Or.inl h)
        · exact Or.inr (Or.inr (fun hm => h (List.mem_cons_of_mem _ hm)))
    · rw [if_neg hf, ih _ (fun h => hq (List.mem_cons_of_mem _ h)) hl.2 (fun p => ?_)]
      rcases ht p with h | h | h
      · exact Or.inl h
      · exact Or.inr (Or.inl h)
      · exact Or.inr (Or.inr (fun hm => h (List.mem_cons_of_mem _ hm)))
theorem State.portResets_self (l : List (Fin 16)) (f : Fin 16 → Bool) (s : State) (q : Fin 16) (hq : q ∈ l) (hf : f q = true)
    (hl : l.Nodup) (ht : ∀ p, (s.port p).tdr.running = false) :
    ∃ u : State, (u.port q).mask = (s.port q).mask ∧ (u.port q).tdr.running = false ∧
      ((l.foldl (fun (t : State) p => if f p then t.portReset p else t) s).port q).mask = ((u.portReset q).port q).mask := by
  induction l generalizing s with
  | nil => cases hq
  | cons a l ih =>
    rw [List.nodup_cons] at hl
    rw [List.foldl_cons]
    by_cases ha : q = a
    · subst ha
      rw [if_pos hf]
      refine ⟨s, rfl, ht q, portResets_ne l f _ q (fun h => absurd h hl.1) hl.2 (fun p => ?_)⟩
      by_cases hp : p = q
      · exact Or.inr (Or.inr (hp ▸ hl.1))
      · exact Or.inl (by rw [mask_tdr (s.portReset_ne hp (ht q))]; exact ht p)
    · have hm : q ∈ l := by rcases List.mem_cons.1 hq with h | h; exact absurd h ha; exact h
      split
      · rename_i hfa
        have hn := s.portReset_ne ha (ht a)
        -- the reset port itself keeps its idle reflectometry
        have hself : ((s.portReset a).port a).tdr = (s.port a).tdr := by
          unfold State.portReset State.tdrAbandon
          dsimp only
          rw [if_neg (by simp [ht a]), State.port_modPort_same]
          dsimp only
          unfold State.takeDown
          split
          · rfl
          · rfl
          · unfold State.linkDown State.draw
            dsimp only
            have hx : ((s.fall a .hold 13 false).port a).tdr = (s.port a).tdr := by
              unfold State.fall
              dsimp only
              rw [State.lineSync_port, State.raise_port, State.journal_port, mask_tdr (State.goLink_mask _ a _), State.port_modPort_same]
              dsimp only
              obtain ⟨t, h⟩ := s.silence_port a false
              rw [h]
            rw [if_neg (by decide), State.port_modLink, State.draws_port]; dsimp only; rw [hx]
        obtain ⟨u, h1, h2, h3⟩ := ih (s.portReset a) hm hl.2 (fun p => by
          by_cases hp : p = a
          · rw [hp, hself]; exact ht a
          · rw [mask_tdr (s.portReset_ne hp (ht a))]; exact ht p)
        exact ⟨u, h1.trans hn, h2, h3⟩
      · exact ih s hm hl.2 ht
theorem State.unforced_read {s t : State} (hr : ∀ k, t.reg k = s.reg k) (hl : t.cal.level = s.cal.level) (h : s.unforced) : t.unforced := by
  exact fun d hd => (State.gone_of (s := s) (t := t) hr hl hd).trans (h d hd)
theorem State.setReg_badParity (s : State) (key : Nat) (v : Word) (k : Nat) (h : k ≠ key) : (s.setReg key v).badParity k = s.badParity k := by
  unfold State.badParity State.setReg
  dsimp only
  split
  · have : ((s.mended ++ [key]).contains k) = s.mended.contains k := by
      rw [Bool.eq_iff_iff]; simp [h]
    rw [this]
  · rfl
theorem State.resetBase_act (s : State) (i : Iface) (t : Tally) (g : IfaceRec) (k : Nat) (h : k ≠ regKey 0 0x0B) : (s.resetBase i t g).act k = s.act k := by
  have e1 := s.resetBase_reg i t g k
  have e2 : (s.resetBase i t g).badParity k = s.badParity k := by
    unfold State.resetBase; rw [State.setReg_badParity _ _ _ _ h]; cases i <;> rfl
  have e3 : (s.resetBase i t g).otp = s.otp := by cases i <;> rfl
  unfold State.act
  rw [e1, e2, e3]
theorem State.act_frame {s t : State} (h1 : t.frame = s.frame) (h2 : t.held = s.held) (h3 : t.mended = s.mended) (k : Nat) : t.act k = s.act k := by
  unfold State.act State.badParity State.reg
  rw [frame_regs h1, frame_otp h1, held_parity h2, h3]
theorem State.portReset_far (s : State) (p : Fin 16) : (s.portReset p).far = s.far := by
  unfold State.portReset
  dsimp only
  rw [State.modPort_far]
  unfold State.takeDown
  split
  · exact s.tdrAbandon_far p 5
  · exact s.tdrAbandon_far p 5
  · exact (far_of_side (State.linkDown_side _ p 13)).trans (s.tdrAbandon_far p 5)

theorem State.raise_far (s : State) (c b u : Nat) (w x y z : Word) : (s.raise c b u w x y z).far = s.far := far_of_side (s.raise_side c b u w x y z)
theorem State.gateOne_far (s : State) (p : Fin 16) (k : Nat) (c : Custody) : (s.gateOne p k c).far = s.far := by
  unfold State.gateOne; dsimp only; (repeat' split) <;> rfl
theorem State.gateSync_far (s : State) (p : Fin 16) : (s.gateSync p).far = s.far := by
  unfold State.gateSync; split
  · rw [State.gateOne_far, State.gateOne_far, State.gateOne_far]
  · rfl
theorem State.hopSync_far (s : State) : s.hopSync.far = s.far := by
  unfold State.hopSync; dsimp only; (repeat' split) <;> rfl
theorem State.qflowSync_far (s : State) (q : Nat) : (s.qflowSync q).far = s.far := by
  unfold State.qflowSync; dsimp only; (repeat' split) <;> rfl
theorem State.flowSync_far (s : State) (q : Nat) : (s.flowSync q).far = s.far := by
  unfold State.flowSync; rw [State.qflowSync_far, State.hopSync_far, State.gateSync_far]
theorem State.demote_far (s : State) (q n : Nat) : (s.demote q n).far = s.far := by
  unfold State.demote; rw [State.flowSync_far, State.count_far, State.raise_far]; rfl
theorem State.announce_far (s : State) (q : Queue) (n : Nat) : (s.announce q n).far = s.far := by
  unfold State.announce; split <;> rfl
theorem State.restartOn_far (s : State) (q : Nat) (n : Option (Fin 8)) : (s.restartOn q n).far = s.far := by
  unfold State.restartOn; split
  · rfl
  · dsimp only
    split
    · rw [State.announce_far]; split <;> rfl
    · split <;> rfl
theorem State.retarget_far (s : State) (q : Nat) (n : Option (Fin 8)) : (s.retarget q n).far = s.far := rfl
theorem State.replaceStreams_far (n : Nat) (s : State) (l : List Nat) (go : State → Nat → Option (Fin 8) → State)
    (h : ∀ t q m, (go t q m).far = t.far) : (State.replaceStreams n s l go).far = s.far := by
  induction n generalizing s with
  | zero => rfl
  | succ n ih =>
    unfold State.replaceStreams; dsimp only
    split
    · rw [foldl_keep State.far _ _ _ (fun t q => h t _ _), foldl_keep State.far _ _ _ (fun t q => h t _ _)]
    · split
      · rw [ih, State.demote_far]
      · rfl
theorem State.replaceAll_far (s : State) (l : List Nat) (go : State → Nat → Option (Fin 8) → State)
    (h : ∀ t q m, (go t q m).far = t.far) : (s.replaceAll l go).far = s.far := State.replaceStreams_far _ s l go h
/-- A lane lost (R270): the lanes it leaves. -/
theorem State.loseLane_lanes (s : State) (n : Fin 8) (cause : Nat) : ∃ l : Lane, (s.loseLane n cause).lanes = s.lanes.set n.val l n.isLt ∧
    ((s.lane n).state = .up → l = { (s.lane n).restart (if bit (s.laneReg n.val 0) 0 then .lost else .off) with cause := cause, sendRf := true }) := by
  unfold State.loseLane
  dsimp only
  split
  · rename_i h
    exact ⟨_, rfl, fun e => absurd e h⟩
  · refine ⟨{ (s.lane n).restart (if bit (s.laneReg n.val 0) 0 then .lost else .off) with cause := cause, sendRf := true }, ?_, fun _ => rfl⟩
    rw [far_lanes (State.replaceAll_far _ _ _ State.retarget_far), far_lanes (State.replaceAll_far _ _ _ State.restartOn_far),
      far_lanes (foldl_keep State.far _ _ _ (fun t q => by split; exact t.restartOn_far _ _; rfl)), far_lanes (State.raise_far _ _ _ _ _ _ _ _)]
    rfl

theorem State.waitingKeys_none {s : State} (h : ∀ c, (s.chan c).work = none) : s.waitingKeys = s := by
  have e : s.keyTurns = [] := by
    unfold State.keyTurns
    rw [List.filterMap_eq_nil_iff]
    intro c _
    rw [h c]
  unfold State.waitingKeys
  rw [e]
  split <;> rfl
theorem State.dropKeyed_side (s : State) : s.dropKeyed.side = s.side := by
  unfold State.dropKeyed
  refine foldl_keep State.side _ _ _ (fun t p => ?_)
  split
  · rfl
  · rfl
  · rfl
  · split
    · exact t.linkDown_side p 5
    · rfl
/-- The end of a zeroising with no KEY_LOAD waiting. -/
theorem State.zeroDone_keys (s : State) (ok : Bool) (c : Nat) (cy : Bool) (h : ∀ c, (s.chan c).work = none) :
    (s.zeroDone ok c cy).keys = { s.keys with zeroising := none, zeroOk := ok, fault := s.keys.fault || !ok } ∧ (s.zeroDone ok c cy).keeper = s.keeper := by
  have key : ∀ u : State, (∀ c, (u.chan c).work = none) → (u.dropKeyed.waitingKeys).keys = u.keys ∧ (u.dropKeyed.waitingKeys).keeper = u.keeper := by
    intro u hu
    rw [State.waitingKeys_none (fun c => by unfold State.chan; rw [side_chans u.dropKeyed_side]; exact hu c)]
    exact ⟨held_keys u.dropKeyed_held, side_keeper u.dropKeyed_side⟩
  unfold State.zeroDone
  dsimp only
  split
  · obtain ⟨a, b⟩ := key (State.raise { s with keys := { s.keys with zeroising := none, zeroOk := ok, fault := s.keys.fault || !ok } } 0x0056 0 0 (wd c) (if cy then 1 else 0))
      (fun d => by simp [State.chan]; exact h d)
    exact ⟨a.trans (by simp), b.trans (by simp)⟩
  · obtain ⟨a, b⟩ := key (State.raise { s with keys := { s.keys with zeroising := none, zeroOk := ok, fault := s.keys.fault || !ok } } 0x0057 0 0)
      (fun d => by simp [State.chan]; exact h d)
    exact ⟨a.trans (by simp), b.trans (by simp)⟩

theorem setFld_self (v : Word) (lo w : Nat) : setFld v lo w (fld v lo w) = v := by
  apply BitVec.eq_of_getLsbD_eq
  intro j hj
  rw [setFld_fld_bit _ _ _ _ _ hj]
  split
  · rename_i h
    have e : lo + (j - lo) = j := by omega
    rw [fld_bits, e]; simp; omega
  · rfl
/-- A set write whose data is 0 in every stored field stores nothing. -/
theorem writeFields_none (fs : List Fld) (old data : Word) (h : ∀ f ∈ fs, f.acc = .rw → f.rule = .any ∧ fld data f.lo f.w = 0) :
    writeFields fs false .setBits old data = old := by
  unfold writeFields
  induction fs with
  | nil => rfl
  | cons f fs ih =>
    have e : writeField false .setBits data old f = old := by
      unfold writeField
      split
      · rename_i hc
        have hr : f.acc = .rw := by simpa using hc
        obtain ⟨h1, h2⟩ := h f List.mem_cons_self hr
        dsimp only
        rw [h1, h2]
        unfold Rule.store wayValue
        dsimp only
        rw [Nat.or_zero, setFld_self]
      · rfl
    rw [List.foldl_cons, e]
    exact ih (fun x hx => h x (List.mem_cons_of_mem _ hx))
/-- What a register's effect acts on when a write makes an image: another state with that register set, which differs from
it beside at most in the tally's counters. -/
structure State.Base (s b : State) (key : Nat) (v : Word) : Prop where
  eq : b = { s with tally := b.tally, regs := b.regs, mended := b.mended }
  reg : ∀ k, b.reg k = if k = key then v else s.reg k
  bad : ∀ k, k ≠ key → b.badParity k = s.badParity k
  rest : b.tally.rest = s.tally.rest
theorem State.Base.act {s b : State} {key : Nat} {v : Word} (h : s.Base b key v) (k : Nat) (hk : k ≠ key) : b.act k = s.act k := by
  have e : b.otp = s.otp := by rw [h.eq]
  unfold State.act; rw [h.reg, h.bad k hk, e, if_neg hk]
theorem State.setReg_base (s u : State) (key : Nat) (v : Word) (hu : u = { s with tally := u.tally }) (ht : u.tally.rest = s.tally.rest) :
    s.Base (u.setReg key v) key v := by
  refine ⟨by rw [hu]; rfl, fun k => ?_, fun k hk => ?_, ?_⟩
  · rw [State.setReg_reg, hu]; rfl
  · rw [State.setReg_badParity _ _ _ _ hk, hu]; rfl
  · exact ht
/-- A write outside the guard procedure (R349, R350), with what the keeper and the interface note of it. -/
theorem State.wr_acts {s : State} {i : Iface} {b ix : Nat} (h : s.opens i b) (w : Way) (v : Word) (hu : usedIndex (blockKind b) ix = true) (hp : plainReg b ix)
    (hg : hasGuarded (keyFields (regKey b ix)) = false) :
    ∃ (base u : State) (x y z : IfaceRec) (kp : Keeper), s.Base base (regKey b ix) (s.imageOf b ix false w v)
      ∧ u = base.regEffect b ix (s.reg (regKey b ix)) (actedBits (keyFields (regKey b ix)) false w v) none
      ∧ s.busWrite i b ix w false v = { u with spi := x, mon := y, kpi := z, keeper := kp } ∧ kp = { u.keeper with copy := kp.copy } := by
  have h0 : ¬ (b = 0 ∧ ix = 0x30) := fun e => hp.2.2.1 ⟨e.1, Or.inl e.2⟩
  have hb : s.began i = { s with tally := (s.began i).tally } := by
    unfold State.began; split
    · obtain ⟨t, e⟩ := s.countCode_eq 0 (0x200 + 0) 1; unfold State.count; rw [e]
    · rfl
  have hbr : (s.began i).tally.rest = s.tally.rest := by
    unfold State.began; split
    · exact s.count_rest _ _ _
    · rfl
  rw [State.busWrite_open h, State.writeFree_plain _ _ _ _ _ _ _ hu h0 hp.1 hp.2.1, hg, if_neg (by simp)]
  have hreg : (s.began i).reg (regKey b ix) = s.reg (regKey b ix) := by rw [hb]; rfl
  have hap : (s.began i).applyWrite i b ix false w v none =
      if i = .keeper then (((s.began i).setReg (regKey b ix) (s.imageOf b ix false w v)).regEffect b ix (s.reg (regKey b ix)) (actedBits (keyFields (regKey b ix)) false w v) none).noteCopy (regKey b ix)
      else ((s.began i).setReg (regKey b ix) (s.imageOf b ix false w v)).regEffect b ix (s.reg (regKey b ix)) (actedBits (keyFields (regKey b ix)) false w v) none := by
    unfold State.applyWrite State.storeReg
    dsimp only
    rw [if_neg (show ¬ (b / 16 = 4 ∧ ix = 0x80) from fun e => hp.2.2.2 ⟨e.1, Or.inr e.2⟩), if_neg (show ¬ (b / 16 = 4 ∧ ix < 0x40) from fun e => hp.2.2.2 ⟨e.1, Or.inl e.2⟩),
      hreg, State.imageOf_began]
  rw [hap]
  refine ⟨(s.began i).setReg (regKey b ix) (s.imageOf b ix false w v), (((s.began i).setReg (regKey b ix) (s.imageOf b ix false w v)).regEffect b ix (s.reg (regKey b ix)) (actedBits (keyFields (regKey b ix)) false w v) none), ?_⟩
  generalize hw : (((s.began i).setReg (regKey b ix) (s.imageOf b ix false w v)).regEffect b ix (s.reg (regKey b ix)) (actedBits (keyFields (regKey b ix)) false w v) none) = u
  split
  · obtain ⟨kp, e1, e2⟩ := u.noteCopy_eq (regKey b ix)
    rw [e1]
    obtain ⟨x, y, z, e3⟩ := State.said_eq { u with keeper := kp } i false false false ((s.began i).leaves b ix false w v)
    exact ⟨x, y, z, kp, s.setReg_base _ _ _ hb hbr, rfl, e3, e2⟩
  · obtain ⟨x, y, z, e3⟩ := State.said_eq u i false false false ((s.began i).leaves b ix false w v)
    exact ⟨x, y, z, u.keeper, s.setReg_base _ _ _ hb hbr, rfl, e3, rfl⟩

end Sys2Proof.Machine
end

