-- ==== Sys2Proof/Laws/Cold.lean ====
section
/-! SUPPORT. A part in hard reset, or whose start-up is halted, runs no PLL (R16, R42, R55): every operation that can change the
supervisor or the clocks keeps it so. -/

set_option linter.unusedTactic false
set_option linter.unreachableTactic false
set_option linter.unnecessarySeqFocus false
set_option linter.unusedSimpArgs false
set_option linter.unusedVariables false

namespace Sys2Proof.Machine

/-- `State.cold`, said of the held part of a state. -/
def Held.cold (h : Held) : Prop := h.sup.stage = .hardReset ∨ h.sup.stage = .halted → h.clk.core.mode = .off

theorem State.cold_held (s : State) : s.cold ↔ s.held.cold := Iff.rfl
theorem cold_same {s t : State} (h : s.held.cold) (a : t.sup.stage = s.sup.stage) (b : t.clk = s.clk) : t.held.cold := by
  intro x
  have y : s.sup.stage = .hardReset ∨ s.sup.stage = .halted := by rw [← a]; exact x
  show t.clk.core.mode = .off
  rw [b]
  exact h y
theorem cold_up {t : State} (a : t.sup.stage ≠ .hardReset) (b : t.sup.stage ≠ .halted) : t.held.cold := fun x => by
  rcases x with x | x <;> contradiction
theorem cold_off {t : State} (a : t.clk.core.mode = .off) : t.held.cold := fun _ => a
/-- A change of the clocks that switches no core PLL on. -/
theorem cold_clk {s t : State} (h : s.held.cold) (a : t.sup.stage = s.sup.stage) (b : s.clk.core.mode = .off → t.clk.core.mode = .off) : t.held.cold := by
  intro x
  have y : s.sup.stage = .hardReset ∨ s.sup.stage = .halted := by rw [← a]; exact x
  exact b (h y)
theorem foldl_cold {α : Type} (l : List α) (f : State → α → State) (s : State) (h : ∀ t x, t.held.cold → (f t x).held.cold)
    (hs : s.held.cold) : (l.foldl f s).held.cold := by
  induction l generalizing s with
  | nil => exact hs
  | cons a l ih => exact ih _ (h _ _ hs)

/-! ### The supervisor -/

theorem State.hardReset_cold (s : State) (cause : Nat) (rails : BitVec 8) : (s.hardReset cause rails).held.cold := cold_off rfl
theorem State.halt_cold (s : State) : s.halt.held.cold := cold_off rfl
theorem State.restartKeeper_sup (s : State) : s.restartKeeper.sup = s.sup := by
  unfold State.restartKeeper
  rw [held_sup (State.releaseKeeper_held _)]
  split
  · exact s.loadIdentity_sup
  · rfl
theorem State.softLeft_stage (s : State) (cause : Nat) (wipe : Bool) : (s.softLeft cause wipe).sup.stage = s.sup.stage := rfl
theorem State.softReset_cold (s : State) (cause : Nat) (wipe : Bool) (h : s.held.cold) : (s.softReset cause wipe).held.cold := by
  refine cold_same h ?_ (State.softReset_clk _ _ _)
  have e : (allPorts.foldl (fun (t : State) p => t.silence p false) s).sup = s.sup := held_sup (foldl_held _ _ _ (fun t p => State.silence_held t p false))
  unfold State.softReset
  dsimp only
  split
  · rw [State.restartKeeper_sup, State.softLeft_stage, e]
  · rw [State.softLeft_stage, e]
theorem State.stepThree_cold (s : State) (h : s.held.cold) : s.stepThree.held.cold := by
  unfold State.stepThree
  split
  · split
    · exact State.softReset_cold _ _ _ (cold_up (by simp) (by simp))
    · exact cold_up (by simp) (by simp)
  · exact h
theorem Clocks.setPll_core (c : Clocks) (k : Pll) (v : PllRec) (h : (c.pll k).mode ≠ .off ∨ v.mode = .off) :
    c.core.mode = .off → (c.setPll k v).core.mode = .off := by
  cases k with
  | core => intro x; rcases h with h | h
            · exact absurd x h
            · exact h
  | host => exact id
  | reach r => exact id
theorem Clocks.setMux_core (c : Clocks) (m : Mux) (v : MuxRec) : (c.setMux m v).core = c.core := by cases m <;> rfl
theorem State.pllLost_cold (s : State) (k : Pll) (v : PllRec) (hk : (s.clk.pll k).mode ≠ .off ∨ v.mode = .off) (h : s.held.cold) : (s.pllLost k v).held.cold := by
  rw [State.pllLost_held]
  refine cold_clk h rfl (fun x => ?_)
  show (((s.clk.setPll k v).setMux (muxOf k) {}).sync).core.mode = .off
  have e : (((s.clk.setPll k v).setMux (muxOf k) {}).sync).core = (s.clk.setPll k v).core := Clocks.setMux_core _ _ _
  rw [e]; exact Clocks.setPll_core _ _ _ hk x
theorem State.pllLocked_cold (s : State) (k : Pll) (g : Nat) (hk : (s.clk.pll k).mode ≠ .off) (h : s.held.cold) : (s.pllLocked k g).held.cold := by
  have e : (((s.clk.setPll k ⟨.locked, g⟩).setMux (muxOf k) ⟨true, false⟩).sync).core = (s.clk.setPll k ⟨.locked, g⟩).core := Clocks.setMux_core _ _ _
  have h1 : (State.held { s with clk := ((s.clk.setPll k ⟨.locked, g⟩).setMux (muxOf k) ⟨true, false⟩).sync }).cold :=
    cold_clk h rfl (fun x => by show (((s.clk.setPll k ⟨.locked, g⟩).setMux (muxOf k) ⟨true, false⟩).sync).core.mode = .off; rw [e]; exact Clocks.setPll_core _ _ _ (.inl hk) x)
  unfold State.pllLocked
  refine State.stepThree_cold _ ?_
  cases k with
  | core => exact h1
  | host => exact h1
  | reach r => dsimp only; rw [State.restartHeld_held]; exact h1
theorem State.setPll_cold (s : State) (k : Pll) (v : PllRec) (b : Bool) (hk : (s.clk.pll k).mode ≠ .off ∨ v.mode = .off) (h : s.held.cold) :
    (State.held { s with clk := { s.clk.setPll k v with holdover := b } }).cold :=
  cold_clk h rfl (fun x => Clocks.setPll_core _ _ _ hk x)
theorem State.pllWindow_cold (s : State) (k : Pll) (count : Nat) (h : s.held.cold) : (s.pllWindow k count).held.cold := by
  unfold State.pllWindow
  dsimp only
  split
  · exact h
  · rename_i e
    split
    · exact h
    · exact s.pllLost_cold k _ (.inl (by rw [e]; decide)) h
  · rename_i e1 e2
    have hk : (s.clk.pll k).mode ≠ .off := fun x => by simp_all
    split
    · exact s.setPll_cold k _ _ (.inl hk) h
    · split
      · exact s.setPll_cold k _ _ (.inl hk) h
      · exact s.pllLocked_cold k _ hk h
theorem State.pllNoFeedback_cold (s : State) (k : Pll) (h : s.held.cold) : (s.pllNoFeedback k).held.cold := by
  unfold State.pllNoFeedback
  split
  · rename_i e; exact s.pllLost_cold k _ (.inl (by rw [e]; decide)) h
  · rename_i e; exact s.setPll_cold k _ _ (.inl (by rw [e]; decide)) h
  · exact h
theorem State.pllHoldover_cold (s : State) (k : Pll) (h : s.held.cold) : (s.pllHoldover k).held.cold := by
  unfold State.pllHoldover
  split
  · exact h
  · rename_i e; exact s.setPll_cold k _ _ (.inl (fun x => e x)) h
theorem State.pllTimeout_cold (s : State) (k : Pll) (h : s.held.cold) : (s.pllTimeout k).held.cold := by
  unfold State.pllTimeout
  split
  · dsimp only
    split
    · exact cold_up (by simp) (by simp)
    · exact State.stepThree_cold _ (cold_clk h rfl (fun x => Clocks.setPll_core _ _ _ (.inr rfl) x))
  · exact h
theorem State.forcedSwitch_cold (s : State) (m : Mux) (b : Bool) (h : s.held.cold) : (s.forcedSwitch m b).held.cold := by
  have h1 : (((State.raise { s with clk := s.clk.setMux m ⟨b && (s.clk.pll (pllOf m)).mode == PllMode.locked, false⟩ } 0x0003 0 0 (wd (muxCode m))).count 0 4 1).held).cold := by
    simp only [State.count_held, State.raise_held]
    exact cold_clk h rfl (fun x => by show (s.clk.setMux m _).core.mode = .off; rw [Clocks.setMux_core]; exact x)
  unfold State.forcedSwitch
  cases m with
  | core => exact h1
  | spine r => dsimp only; rw [State.reachDown_held]; exact h1
  | host => dsimp only; rw [State.lanesDown_held]; exact h1
theorem State.safeState_cold (s : State) : s.safeState.held.cold := by
  refine cold_up ?_ ?_ <;> rw [State.safeState_sup] <;> simp
theorem State.bothAbsent_cold (s : State) (m : Mux) (h : s.held.cold) : (s.bothAbsent m).held.cold := by
  unfold State.bothAbsent
  cases m with
  | core => dsimp only; split
            · exact s.safeState_cold
            · exact h
  | spine r => dsimp only; rw [State.reachDown_held]; exact cold_clk h rfl id
  | host => dsimp only; rw [State.lanesDown_held]; exact cold_clk h rfl id
theorem State.watchOsc_cold (s : State) (n : Nat) (h : s.held.cold) : (s.watchOsc n).held.cold := by
  unfold State.watchOsc
  (repeat' split) <;> first | exact h | (dsimp only; split <;> (try rw [State.raise_held]) <;> exact cold_same h rfl rfl)
theorem State.safeDone_cold (s : State) (h : s.held.cold) : s.safeDone.held.cold := by
  unfold State.safeDone
  split
  · exact h
  · refine cold_clk h rfl (fun x => ?_)
    dsimp only
    split
    · rfl
    · exact x
theorem State.goLock_cold (s : State) : s.goLock.held.cold := by
  unfold State.goLock
  exact State.stepThree_cold _ (cold_up (by simp) (by simp))
theorem State.stepTwo_cold (s : State) : s.stepTwo.held.cold := by
  unfold State.stepTwo
  split
  · exact s.goLock_cold
  · exact cold_up (by simp) (by simp)
theorem State.beginStart_cold (s : State) (h : s.held.cold) : s.beginStart.held.cold := by
  unfold State.beginStart
  split
  · split
    · exact s.stepTwo_cold
    · exact s.halt_cold
  · exact h
theorem State.unhalt_cold (s : State) (h : s.held.cold) : s.unhalt.held.cold := by
  unfold State.unhalt
  split
  · exact s.stepTwo_cold
  · exact h
theorem State.refQualified_cold (s : State) (h : s.held.cold) : s.refQualified.held.cold := by
  unfold State.refQualified
  split
  · exact s.goLock_cold
  · exact State.goLock_cold _
  · exact h
theorem State.refLost_cold (s : State) (h : s.held.cold) : s.refLost.held.cold := by
  unfold State.refLost
  split
  · refine cold_up ?_ ?_ <;> dsimp only <;> split <;> simp
  · refine cold_up ?_ ?_ <;> dsimp only <;> split <;> simp
  · exact s.safeState_cold
  · exact s.safeState_cold
  · exact h
theorem State.refWindow_cold (s : State) (n : Nat) (h : s.held.cold) : (s.refWindow n).held.cold := by
  unfold State.refWindow
  split
  · exact h
  · extract_lets good run u s1
    have k : s1.held.cold := cold_same h rfl rfl
    split
    · exact State.refQualified_cold _ k
    · split
      · exact State.refLost_cold _ k
      · exact k
theorem State.loadIdentity_cold (s : State) (h : s.held.cold) : s.loadIdentity.held.cold := by
  unfold State.loadIdentity; split <;> exact h
theorem State.basinReady_cold (s : State) (h : s.held.cold) : s.basinReady.held.cold := by
  unfold State.basinReady
  split
  · rw [State.releaseKeeper_held]; exact State.loadIdentity_cold _ (cold_up (by simp) (by simp))
  · exact h
theorem State.railTrips_cold (s : State) (rail : Fin 8) : (s.railTrips rail).held.cold := State.hardReset_cold _ _ _
theorem State.railsGood_cold (s : State) (h : s.held.cold) : s.railsGood.held.cold := State.beginStart_cold _ (cold_same h rfl rfl)
theorem State.resetFalls_cold (s : State) : s.resetFalls.held.cold := State.hardReset_cold _ _ _
theorem State.resetRises_cold (s : State) (a : BitVec 2) (b : BitVec 5) (h : s.held.cold) : (s.resetRises a b).held.cold := by
  unfold State.resetRises
  split
  · exact h
  · exact State.beginStart_cold _ (cold_same h rfl rfl)
theorem State.powerLoss_cold (s : State) (h : s.held.cold) : s.powerLoss.held.cold := by
  have e : s.powerLoss.held = State.held { s with sup := { s.sup with pfailFrozen := true } } := by
    simp [State.powerLoss]
  rw [e]
  exact cold_same h rfl rfl
theorem State.pfailFalls_cold (s : State) (h : s.held.cold) : s.pfailFalls.held.cold := by
  have k : (State.held { s with sup := { s.sup with pfailN := false } }).cold := cold_same h rfl rfl
  unfold State.pfailFalls
  dsimp only
  (repeat' split) <;> first | with_reducible exact State.halt_cold _ | with_reducible exact State.powerLoss_cold _ k | exact k
theorem State.pfailRises_cold (s : State) (h : s.held.cold) : s.pfailRises.held.cold := State.unhalt_cold _ (cold_same h rfl rfl)
theorem State.pfailOver_cold (s : State) (h : s.held.cold) : s.pfailOver.held.cold := by
  unfold State.pfailOver
  split
  · dsimp only
    rw [State.nextCommit_held, State.restartHeld_held, foldl_held _ _ _ (by simp), foldl_held _ _ _ (by simp), State.raise_held]
    exact cold_same h rfl rfl
  · exact h
theorem State.testHold_cold (s : State) : s.testHold.held.cold := by
  unfold State.testHold
  exact State.beginStart_cold _ (cold_off rfl)
theorem State.putKey_clk (s : State) (c i k) : (s.putKey c i k).clk = s.clk := by
  unfold State.putKey; (repeat' split) <;> simp
theorem State.waitingKeys_clk (s : State) : s.waitingKeys.clk = s.clk := by
  unfold State.waitingKeys
  split
  · rfl
  · exact foldl_keep (fun t => t.clk) _ _ _ (fun t _ => State.putKey_clk t _ _ _)
theorem State.waitingKeys_cold (s : State) (h : s.held.cold) : s.waitingKeys.held.cold :=
  cold_same h (congrArg Supervisor.stage s.waitingKeys_sup) s.waitingKeys_clk
theorem State.zeroDone_cold (s : State) (ok : Bool) (c : Nat) (cy : Bool) (h : s.held.cold) : (s.zeroDone ok c cy).held.cold := by
  unfold State.zeroDone
  dsimp only
  refine State.waitingKeys_cold _ ?_
  rw [State.dropKeyed_held]
  split <;> (try rw [State.raise_held]) <;> exact h
theorem State.zeroise_cold (s : State) (cause : Nat) (ok : Bool) (h : s.held.cold) : (s.zeroise cause ok).held.cold := by
  unfold State.zeroise
  split
  · exact h
  · dsimp only
    split
    · exact State.zeroDone_cold _ _ _ _ h
    · exact h
theorem State.zeroiseAgain_cold (s : State) (ok : Bool) (h : s.held.cold) : (s.zeroiseAgain ok).held.cold := by
  unfold State.zeroiseAgain
  split
  · exact State.zeroDone_cold _ _ _ _ h
  · exact h
theorem State.testRises_cold (s : State) (ok : Bool) (h : s.held.cold) : (s.testRises ok).held.cold := by
  unfold State.testRises
  dsimp only
  split
  · exact cold_same h rfl rfl
  · have k := State.zeroise_cold { s with sup := { s.sup with testEn := true } } 2 ok (cold_same h rfl rfl)
    split
    · exact cold_same k rfl rfl
    · exact State.testHold_cold _
theorem State.zeroiseEnds_cold (s : State) (ok : Bool) (h : s.held.cold) : (s.zeroiseEnds ok).held.cold := by
  unfold State.zeroiseEnds
  dsimp only
  split
  · exact State.testHold_cold _
  · exact s.zeroiseAgain_cold ok h
theorem State.testFalls_cold (s : State) (h : s.held.cold) : s.testFalls.held.cold :=
  State.unhalt_cold _ (State.beginStart_cold _ (cold_same h rfl rfl))
theorem State.forcePll_cold (s : State) (k : Pll) (off : Bool) (h : s.held.cold) : (s.forcePll k off).held.cold := by
  unfold State.forcePll
  split
  · exact State.stepThree_cold _ (s.pllLost_cold k _ (.inr rfl) h)
  · split
    · rename_i e
      refine cold_up ?_ ?_ <;> intro x <;> replace x : s.sup.stage = _ := x <;> simp [x, Stage.locks] at e
    · exact h
theorem State.forceOne_cold (s : State) (ok : Bool) (d : Nat) (h : s.held.cold) : (s.forceOne ok d).held.cold := by
  unfold State.forceOne
  dsimp only
  (repeat' split) <;> first
    | with_reducible exact h
    | with_reducible exact State.zeroise_cold _ _ _ h
    | with_reducible exact State.waitingKeys_cold _ h
    | with_reducible exact State.forcePll_cold _ _ _ h
    | (rw [foldl_held _ _ _ (by simp)]; with_reducible exact h)
    | (simp only [State.forceSync_held, State.releaseHeld_held, State.forceBank_held, State.loseLane_held, State.abandonAll_held, State.startPending_held, State.dropRotation_held]; exact h)
theorem State.forceWritten_cold (s : State) (n : Fin 8) (old : Word) (ok : Bool) (h : s.held.cold) : (s.forceWritten n old ok).held.cold := by
  unfold State.forceWritten
  exact foldl_cold _ _ _ (fun t x ht => State.forceOne_cold _ _ _ ht) h

/-! ### Keys, images and self-tests -/

theorem State.putKey_cold (s : State) (c : Fin 16) (i : Nat) (k : Option (BitVec 128)) (h : s.held.cold) : (s.putKey c i k).held.cold :=
  cold_same h (congrArg Supervisor.stage (s.putKey_sup c i k)) (s.putKey_clk c i k)
theorem State.eraseKey_cold (s : State) (c : Fin 16) (i : Nat) (h : s.held.cold) : (s.eraseKey c i).held.cold := by
  unfold State.eraseKey
  (repeat' split) <;> rw [State.answer_held] <;> exact h
theorem State.serveKeyLoad_cold (s : State) (c : Fin 16) (sup : Option Supplied) (h : s.held.cold) : (s.serveKeyLoad c sup).held.cold := by
  have k : (s.supply sup).2.held.cold := by rw [State.supply_held]; exact h
  unfold State.serveKeyLoad
  dsimp only
  split
  · rw [State.waitFor_held]; exact k
  · exact State.putKey_cold _ _ _ _ k
theorem State.serveKeyErase_cold (s : State) (c : Fin 16) (h : s.held.cold) : (s.serveKeyErase c).held.cold := by
  unfold State.serveKeyErase
  dsimp only
  split
  · rw [State.answer_held]; exact h
  · exact State.eraseKey_cold _ _ _ h
theorem State.lbistHold_cold (s : State) (h : s.held.cold) : s.lbistHold.held.cold := by rw [State.lbistHold_held]; exact h
theorem State.startLbist_cold (s : State) (ok : Bool) (h : s.held.cold) : (s.startLbist ok).held.cold := by
  have k := State.zeroise_cold s 3 ok h
  unfold State.startLbist
  dsimp only
  (repeat' split) <;> first | with_reducible exact h | with_reducible exact k | exact State.lbistHold_cold _ k
theorem State.serveBist_cold (s : State) (c : Fin 16) (sup : Option Supplied) (h : s.held.cold) : (s.serveBist c sup).held.cold := by
  have k : ((s.own [5]).supply sup).2.held.cold := by rw [State.supply_held, State.own_held]; exact h
  have k1 : (s.own [5]).held.cold := by rw [State.own_held]; exact h
  unfold State.serveBist
  dsimp only
  (repeat' split) <;> first
    | (rw [State.serveMarch_held]; exact k1)
    | (rw [State.answer_held]; exact k1)
    | (rw [State.startTest_held, State.waitFor_held]; exact k)
    | (rw [State.startLoop_held, State.waitFor_held]; exact k1)
    | exact State.startLbist_cold _ _ (by rw [State.bistAnswer_held]; exact k)
theorem State.startImage_cold (s : State) (slot : BitVec 2) (m : ImageReport) (a b : Option Word) (h : s.held.cold) : (s.startImage slot m a b).held.cold := by
  unfold State.startImage
  rw [State.restoreJournal_held]
  exact cold_same h rfl rfl
theorem State.bootChoose_cold (s : State) (a b : ImageReport) (j : JournalReport) (h : s.held.cold) : (s.bootChoose a b j).held.cold := by
  unfold State.bootChoose
  (repeat' split) <;> first | with_reducible exact State.startImage_cold _ _ _ _ _ h | exact h
theorem State.serveActivate_cold (s : State) (c : Fin 16) (sup : Option Supplied) (h : s.held.cold) : (s.serveActivate c sup).held.cold := by
  have k : (s.supply sup).2.held.cold := by rw [State.supply_held]; exact h
  unfold State.serveActivate State.activateRom State.activateRun
  dsimp only
  (repeat' split) <;> rw [State.answer_held] <;> first | with_reducible exact k | exact State.startImage_cold _ _ _ _ _ k | exact k
theorem State.reportReset_cold (s : State) (h : s.held.cold) : s.reportReset.held.cold := by
  unfold State.reportReset
  split
  · exact h
  · rename_i k rails _
    have k1 : (State.held (({ s with sup := { s.sup with cause := none } }).raise 0x0060 0 0 (wd k) (rails.setWidth 32))).cold := by
      rw [State.raise_held]; exact cold_same h rfl rfl
    dsimp only
    split
    · rw [State.raise_held]; exact cold_same k1 rfl rfl
    · exact k1
theorem State.serveHello_cold (s : State) (c : Fin 16) (h : s.held.cold) : (s.serveHello c).held.cold := by
  unfold State.serveHello
  dsimp only
  refine State.reportReset_cold _ (cold_same (s := s) h ?_ ?_)
  · split <;> simp [held_sup (State.own_held _ _)]
  · split <;> simp [held_clk (State.own_held _ _)]
theorem State.testEffect_cold (s : State) (ix : Nat) (acted : Word) (sup : Option Supplied) (h : s.held.cold) : (s.testEffect ix acted sup).held.cold := by
  unfold State.testEffect
  split
  · have k : (allPorts.foldl (fun (t : State) p => if bit acted (16 + p.val) then t.startLoop p else t) s).held.cold := by
      refine foldl_cold _ _ _ (fun t p ht => ?_) h
      split
      · rw [State.startLoop_held]; exact ht
      · exact ht
    generalize (allPorts.foldl (fun (t : State) p => if bit acted (16 + p.val) then t.startLoop p else t) s) = u at k ⊢
    by_cases b : bit acted 0 = true
    · have k2 : (u.supply sup).2.held.cold := by rw [State.supply_held]; exact k
      rw [if_pos b]
      exact State.startLbist_cold _ _ k2
    · rw [if_neg b]
      exact k
  · exact h

/-! ### The register bus -/

theorem State.lbistEnds_cold (s : State) (passed : Bool) (h : s.held.cold) : (s.lbistEnds passed).held.cold := by
  unfold State.lbistEnds
  split
  · exact h
  · extract_lets q s1 s2
    have k1 : s1.held.cold := h
    have k2 : s2.held.cold := State.softReset_cold s1 6 true k1
    clear_value s2
    exact cold_same k2 rfl rfl
theorem State.zeroiseResult_cold (s : State) (ok : Bool) (h : s.held.cold) : (s.zeroiseResult ok).held.cold := by
  have k := State.zeroiseEnds_cold s ok h
  unfold State.zeroiseResult; dsimp only
  split
  · exact State.lbistHold_cold _ k
  · exact k
theorem State.resetActed_cold (s : State) (acted : Word) (h : s.held.cold) : (s.resetActed acted).held.cold := by
  unfold State.resetActed; dsimp only
  split
  · exact State.softReset_cold _ _ _ h
  · refine foldl_cold _ _ _ (fun t p ht => ?_) (foldl_cold _ _ _ (fun t n ht => ?_) ?_)
    · split <;> simpa using ht
    · split <;> simpa using ht
    · split <;> simpa using h
theorem State.chipEffect_cold (s : State) (ix : Nat) (old acted : Word) (sup : Option Supplied) (h : s.held.cold) : (s.chipEffect ix old acted sup).held.cold := by
  unfold State.chipEffect; try dsimp only
  (repeat' split) <;> iterate 8 (try first | with_reducible apply State.resetActed_cold | with_reducible apply State.forceWritten_cold | with_reducible apply State.zeroise_cold | assumption | simp)
theorem State.regEffect_cold (s : State) (b ix : Nat) (old acted : Word) (sup : Option Supplied) (h : s.held.cold) : (s.regEffect b ix old acted sup).held.cold := by
  unfold State.regEffect; try dsimp only
  (repeat' split) <;> iterate 8 (try first | with_reducible apply State.chipEffect_cold | with_reducible apply State.testEffect_cold | assumption | simp)
theorem State.storeReg_cold (s : State) (b ix : Nat) (guarded : Bool) (way : Way) (v : Word) (sup : Option Supplied) (h : s.held.cold) : (s.storeReg b ix guarded way v sup).held.cold := by
  unfold State.storeReg; try dsimp only
  (repeat' split) <;> iterate 8 (try first | with_reducible apply State.regEffect_cold | assumption | simp)
theorem State.readAct_cold (s : State) (i : Iface) (b ix : Nat) (h : s.held.cold) : (s.readAct i b ix).held.cold := by
  unfold State.readAct; try dsimp only
  (repeat' split) <;> iterate 8 (try first | assumption | simp)
theorem State.guardAbort_cold (s : State) (i : Iface) (h : s.held.cold) : (s.guardAbort i).held.cold := by
  unfold State.guardAbort; try dsimp only
  (repeat' split) <;> iterate 8 (try first | assumption | simp)
theorem State.guardDrop_cold (s : State) (i : Iface) (h : s.held.cold) : (s.guardDrop i).held.cold := by
  unfold State.guardDrop; try dsimp only
  (repeat' split) <;> iterate 8 (try first | with_reducible apply State.guardAbort_cold | assumption | simp)
theorem State.bare_cold (s : State) (h : s.held.cold) : s.bare.held.cold := by
  exact h
theorem State.said_cold (s : State) (i : Iface) (guard crc frame none_ : Bool) (h : s.held.cold) : (s.said i guard crc frame none_).held.cold := by
  unfold State.said; try dsimp only
  (repeat' split) <;> iterate 8 (try first | assumption | simp)

theorem State.keeperWrite_cold (s : State) (b ix : Nat) (way : Way) (v : Word) (h : s.held.cold) : (s.keeperWrite b ix way v).held.cold := by
  unfold State.keeperWrite; try dsimp only
  (repeat' split) <;> iterate 8 (try first | with_reducible apply State.storeReg_cold | assumption | simp)
theorem State.servePolicy_cold (s : State) (c : Fin 16) (h : s.held.cold) : (s.servePolicy c).held.cold := by
  unfold State.servePolicy; try dsimp only
  (repeat' split) <;> iterate 8 (try first | with_reducible apply State.keeperWrite_cold | assumption | simp)
theorem State.serveEnable_cold (s : State) (c : Fin 16) (on : Bool) (h : s.held.cold) : (s.serveEnable c on).held.cold := by
  unfold State.serveEnable; dsimp only
  rw [State.answer_held]
  exact foldl_cold _ _ _ (fun t p ht => State.keeperWrite_cold _ _ _ _ _ (by simpa using ht)) h
theorem State.serveForce_cold (s : State) (c : Fin 16) (h : s.held.cold) : (s.serveForce c).held.cold := by
  unfold State.serveForce; try dsimp only
  (repeat' split) <;> iterate 8 (try first | with_reducible apply State.keeperWrite_cold | assumption | simp)
theorem State.activateReset_cold (s : State) (h : s.held.cold) : s.activateReset.held.cold := by
  unfold State.activateReset; try dsimp only
  (repeat' split) <;> iterate 8 (try first | with_reducible apply State.softReset_cold | assumption | simp)
theorem State.serveCode_cold (s : State) (c : Fin 16) (code : Nat) (sup : Option Supplied) (h : s.held.cold) : (s.serveCode c code sup).held.cold := by
  unfold State.serveCode
  split
  all_goals first
    | with_reducible exact State.servePolicy_cold _ _ h
    | with_reducible exact State.serveEnable_cold _ _ _ h
    | with_reducible exact State.serveForce_cold _ _ h
    | with_reducible exact State.serveHello_cold _ _ h
    | with_reducible exact State.serveKeyLoad_cold _ _ _ h
    | with_reducible exact State.serveKeyErase_cold _ _ h
    | with_reducible exact State.serveBist_cold _ _ _ h
    | with_reducible exact State.serveActivate_cold _ _ _ h
    | (simp only [State.serveStream_held, State.serveClose_held, State.serveCadence_held,
        State.serveLearn_held, State.serveTimeSet_held, State.serveAdjust_held, State.serveSchedule_held,
        State.serveSnapshot_held, State.serveCommitAt_held, State.serveCalRun_held, State.serveCalRead_held,
        State.serveTdr_held, State.serveWatch_held, 
        State.serveCommit_held, State.serveJournalRead_held, State.serveFetch_held,
        State.serveRemote_held, State.serveStage_held, State.answer_held]; exact h)
theorem State.serve_cold (s : State) (c : Fin 16) (sup : Option Supplied) (h : s.held.cold) : (s.serve c sup).held.cold := by
  unfold State.serve; try dsimp only
  (repeat' split) <;> iterate 8 (try first | with_reducible apply State.serveCode_cold | assumption | simp)
theorem State.doorbell_cold (s : State) (c : Fin 16) (sup : Option Supplied) (h : s.held.cold) : (s.doorbell c sup).held.cold := by
  unfold State.doorbell; try dsimp only
  (repeat' split) <;> iterate 8 (try first | with_reducible apply State.serve_cold | assumption | simp)
theorem State.issueCmd_cold (s : State) (c : Fin 16) (code : Nat) (r : Request) (sup : Option Supplied) (h : s.held.cold) : (s.issueCmd c code r sup).held.cold := by
  unfold State.issueCmd; try dsimp only
  (repeat' split) <;> iterate 8 (try first | with_reducible apply State.doorbell_cold | assumption | simp)
theorem State.door_cold (s : State) (c : Fin 16) (acted : Word) (sup : Option Supplied) (h : s.held.cold) : (s.door c acted sup).held.cold := by
  unfold State.door; try dsimp only
  (repeat' split) <;> iterate 8 (try first | with_reducible apply State.doorbell_cold | assumption | simp)

theorem State.writeInd_cold (s : State) (i : Iface) (b : Nat) (way : Way) (v : Word) (h : s.held.cold) : (s.writeInd i b way v).held.cold := by
  unfold State.writeInd; try dsimp only
  (repeat' split) <;> iterate 8 (try first | with_reducible apply State.said_cold | assumption | simp)
theorem State.writeKeeperInd_cold (s : State) (b : Nat) (way : Way) (v : Word) (h : s.held.cold) : (s.writeKeeperInd b way v).held.cold := by
  unfold State.writeKeeperInd; try dsimp only
  (repeat' split) <;> iterate 8 (try first | assumption | skip | simp)
theorem State.applyWrite_cold (s : State) (i : Iface) (b ix : Nat) (guarded : Bool) (way : Way) (v : Word) (sup : Option Supplied) (h : s.held.cold) : (s.applyWrite i b ix guarded way v sup).held.cold := by
  unfold State.applyWrite; try dsimp only
  (repeat' split) <;> iterate 8 (try first | with_reducible apply State.storeReg_cold | with_reducible apply State.door_cold | assumption | simp)
theorem State.writeFree_cold (s : State) (i : Iface) (b ix : Nat) (way : Way) (comp : Bool) (v : Word) (sup : Option Supplied) (h : s.held.cold) : (s.writeFree i b ix way comp v sup).held.cold := by
  unfold State.writeFree; try dsimp only
  (repeat' split) <;> iterate 8 (try first | with_reducible apply State.bare_cold | with_reducible apply State.said_cold | with_reducible apply State.writeInd_cold | with_reducible apply State.writeKeeperInd_cold | with_reducible apply State.applyWrite_cold | assumption | simp)
theorem State.mismatch_cold (s : State) (i : Iface) (h : s.held.cold) : (s.mismatch i).held.cold := by
  unfold State.mismatch; try dsimp only
  (repeat' split) <;> iterate 8 (try first | with_reducible apply State.said_cold | assumption | simp)
theorem State.accepted_cold (s : State) (i : Iface) (b ix : Nat) (v : Word) (sup : Option Supplied) (h : s.held.cold) : (s.accepted i b ix v sup).held.cold := by
  unfold State.accepted; try dsimp only
  (repeat' split) <;> iterate 8 (try first | with_reducible apply State.said_cold | with_reducible apply State.applyWrite_cold | assumption | simp)
theorem State.busWrite_cold (s : State) (i : Iface) (b ix : Nat) (way : Way) (comp : Bool) (v : Word) (sup : Option Supplied) (h : s.held.cold) : (s.busWrite i b ix way comp v sup).held.cold := by
  unfold State.busWrite; dsimp only
  have hb : (s.began i).held.cold := by simpa using h
  split
  · exact h
  · split
    · exact State.said_cold _ _ _ _ _ _ (id (State.guardDrop_cold _ _ hb))
    · split
      · exact State.writeFree_cold _ _ _ _ _ _ _ _ hb
      · split
        · exact State.said_cold _ _ _ _ _ _ (by rw [State.modIface_held]; exact hb)
        · exact State.writeFree_cold _ _ _ _ _ _ _ _ (State.guardAbort_cold _ _ hb)
      · split
        · split
          · exact State.accepted_cold _ _ _ _ _ _ hb
          · exact State.mismatch_cold _ _ hb
        · exact State.writeFree_cold _ _ _ _ _ _ _ _ (State.guardAbort_cold _ _ hb)
theorem State.busRead_cold (s : State) (i : Iface) (b ix : Nat) (comp : Bool) (h : s.held.cold) : (s.busRead i b ix comp).held.cold := by
  unfold State.busRead; try dsimp only
  (repeat' split) <;> iterate 8 (try first | with_reducible apply State.readAct_cold | with_reducible apply State.guardDrop_cold | with_reducible apply State.said_cold | assumption | simp)
theorem State.addrWrite_cold (s : State) (i : Iface) (a : Addr) (v : Word) (h : s.held.cold) : (s.addrWrite i a v).held.cold := by
  unfold State.addrWrite; try dsimp only
  (repeat' split) <;> iterate 8 (try first | with_reducible apply State.busWrite_cold | assumption | simp)
theorem State.addrRead_cold (s : State) (i : Iface) (a : Addr) (h : s.held.cold) : (s.addrRead i a).held.cold := by
  unfold State.addrRead; try dsimp only
  (repeat' split) <;> iterate 8 (try first | with_reducible apply State.busRead_cold | assumption | simp)
theorem State.guardedWrite_cold (s : State) (i : Iface) (b ix : Nat) (v : Word) (sup : Option Supplied) (h : s.held.cold) : (s.guardedWrite i b ix v sup).held.cold := by
  unfold State.guardedWrite; try dsimp only
  (repeat' split) <;> iterate 8 (try first | with_reducible apply State.busWrite_cold | assumption | simp)
theorem State.spiIgnored_cold (s : State) (e : SpiError) (h : s.held.cold) : (s.spiIgnored e).held.cold := by
  unfold State.spiIgnored; dsimp only
  have hb : ((s.began .spi).guardDrop .spi).held.cold := State.guardDrop_cold _ _ (by simpa using h)
  split
  · exact h
  · split
    · exact State.said_cold _ _ _ _ _ _ (by rw [State.count_held]; exact id hb)
    · exact State.said_cold _ _ _ _ _ _ (id hb)
    · exact State.said_cold _ _ _ _ _ _ (id hb)
theorem State.guardLate_cold (s : State) (i : Iface) (h : s.held.cold) : (s.guardLate i).held.cold := by
  unfold State.guardLate; try dsimp only
  (repeat' split) <;> iterate 8 (try first | with_reducible apply State.guardDrop_cold | assumption | simp)
theorem State.restoreOne_cold (s : State) (b ix : Nat) (h : s.held.cold) : (s.restoreOne b ix).held.cold := by
  unfold State.restoreOne; try dsimp only
  (repeat' split) <;> iterate 8 (try first | with_reducible apply State.regEffect_cold | assumption | simp)
theorem State.restoreOwned_cold (s : State) (b : Nat) (h : s.held.cold) : (s.restoreOwned b).held.cold := by
  unfold State.restoreOwned
  split
  · exact foldl_cold _ _ _ (fun t ix ht => State.restoreOne_cold _ _ _ ht) h
  · exact h
theorem State.commitWrite_cold (s : State) (w : Addr × Word) (h : s.held.cold) : (s.commitWrite w).held.cold := by
  unfold State.commitWrite; try dsimp only
  (repeat' split) <;> iterate 8 (try first | with_reducible apply State.applyWrite_cold | assumption | simp)
theorem State.commitActs_cold (s : State) (e : Nat) (h : s.held.cold) : (s.commitActs e).held.cold := by
  unfold State.commitActs
  split
  · rw [State.instantActs_held]; exact foldl_cold _ _ _ (fun t w ht => State.commitWrite_cold _ _ ht) h
  · exact h
theorem State.mdioPut_cold (s : State) (prtad devad : BitVec 5) (v : BitVec 16) (h : s.held.cold) : (s.mdioPut prtad devad v).held.cold := by
  unfold State.mdioPut; try dsimp only
  (repeat' split) <;> iterate 8 (try first | with_reducible apply State.storeReg_cold | assumption | simp)
theorem State.monLine_cold (s : State) (f : State → State) (hf : ∀ t : State, t.held.cold → (f t).held.cold) (h : s.held.cold) : (s.monLine f).held.cold := by
  unfold State.monLine
  split
  · exact h
  · exact hf _ h
theorem State.monSay_cold (s : State) (ok : Bool) (ws : List Word) (h : s.held.cold) : (s.monSay ok ws).held.cold := by
  unfold State.monSay; try dsimp only
  (repeat' split) <;> iterate 8 (try first | assumption | skip | simp)
theorem State.monGet_cold (s : State) (a : Addr) (h : s.held.cold) : (s.monGet a).held.cold := by
  refine State.monLine_cold _ _ (fun t ht => ?_) h
  exact State.monSay_cold _ _ _ (State.addrRead_cold _ _ _ ht)
theorem State.monPut_cold (s : State) (a : Addr) (v : Word) (h : s.held.cold) : (s.monPut a v).held.cold := by
  refine State.monLine_cold _ _ (fun t ht => ?_) h
  exact State.monSay_cold _ _ _ (State.addrWrite_cold _ _ _ _ ht)
theorem State.monCall_cold (s : State) (c : Fin 16) (ws : List Word) (h : s.held.cold) : (s.monCall c ws).held.cold := by
  refine State.monLine_cold _ _ (fun t ht => ?_) h
  dsimp only
  have hu : (t.modChan c (fun ch => ch.filled ws)).held.cold := by simpa using ht
  split
  · exact State.monSay_cold _ _ _ ht
  · split
    · exact State.monSay_cold _ _ _ (State.doorbell_cold _ _ _ (by simpa using ht))
    · exact State.doorbell_cold _ _ _ (id hu)
theorem State.monDone_cold (s : State) (c : Fin 16) (h : s.held.cold) : (s.monDone c).held.cold := by
  unfold State.monDone; try dsimp only
  (repeat' split) <;> iterate 8 (try first | with_reducible apply State.monSay_cold | assumption | simp)
theorem State.monTraceSet_cold (s : State) (on : Bool) (h : s.held.cold) : (s.monTraceSet on).held.cold := by
  refine State.monLine_cold _ _ (fun t ht => ?_) h
  exact State.monSay_cold _ _ _ ht
theorem State.monDump_cold (s : State) (block : Nat) (h : s.held.cold) : (s.monDump block).held.cold := by
  refine State.monLine_cold _ _ (fun t ht => ?_) h
  exact State.monSay_cold _ _ _ ht
theorem State.monRate_cold (s : State) (code : Nat) (h : s.held.cold) : (s.monRate code).held.cold := by
  refine State.monLine_cold _ _ (fun t ht => ?_) h
  split <;> exact State.monSay_cold _ _ _ ht
theorem State.monBad_cold (s : State) (h : s.held.cold) : s.monBad.held.cold := by
  refine State.monLine_cold _ _ (fun t ht => ?_) h
  exact State.monSay_cold _ _ _ ht

theorem State.wr_cold (s : State) (i : Iface) (b ix : Nat) (w : Way) (v : Word) (h : s.held.cold) : (s.wr i b ix w v).held.cold := by
  unfold State.wr; try dsimp only
  (repeat' split) <;> iterate 8 (try first | with_reducible apply State.busWrite_cold | assumption | simp)
theorem State.wrBit_cold (s : State) (i : Iface) (b ix k : Nat) (h : s.held.cold) : (s.wrBit i b ix k).held.cold := by
  unfold State.wrBit; try dsimp only
  (repeat' split) <;> iterate 8 (try first | with_reducible apply State.busWrite_cold | assumption | simp)


/-! ### The scrubber and the keeper's restart -/

theorem State.parityPass_cold (s : State) (bad : List Addr) (h : s.held.cold) : (s.parityPass bad).held.cold := by
  unfold State.parityPass
  split
  · exact h
  · dsimp only
    refine foldl_cold _ _ _ (fun t b ht => by rw [State.leaveSafe_held]; exact ht) (foldl_cold _ _ _ (fun t b ht => by rw [State.enterSafe_held]; exact ht) ?_)
    exact foldl_cold _ _ _ (fun t b ht => by rw [State.count_held, State.raise_held]; exact ht) (cold_same h rfl rfl)
theorem State.restartDone_cold (s : State) (h : s.held.cold) : s.restartDone.held.cold := by
  unfold State.restartDone
  split
  · exact h
  · dsimp only
    rw [State.raise_held]
    exact cold_same h rfl rfl

end Sys2Proof.Machine
end

