-- ==== Sys2Proof/Tests/Witness.lean ====
section
/-! SUPPORT. For every statement with hypotheses, a concrete state and operands that meet them: no statement is empty. One theorem
for each statement, with the states it takes as definitions; where a statement has several clauses, one conjunct for each. -/

set_option linter.unusedSimpArgs false

open Sys2Proof Sys2Proof.Machine

namespace Sys2Proof.Tests

-- The kernel evaluations one after another: together they take more memory than a check has.
set_option Elab.async false

/-- A property of a state, so that a witness names its state once. -/
def Wit (s : State) (P : State → Prop) : Prop := P s

/-! ### The states of the witnesses -/

/-- A running part with no link: start-up complete, firmware serving, an OTP of its own. -/
def wRun : State :=
  { otp := { oui := 0x123456, keyHash := true, kek := true, identity := true, monitorLock := false }
    die := { lot := [0x41, 0x42, 0x43, 0x44, 0x45, 0x46], wafer := 1, dieX := 2, dieY := 3, letter := 0, digit := 1 }
    sup := { stage := .released, resetN := true, refclkOk := true, safeN := true }
    keeper := { mode := .running, slot := 0, version := 1 } }

/-- The running part with its supervisor changed. -/
def wSup (f : Supervisor → Supervisor) : State := { wRun with sup := f wRun.sup }

/-- The running part with port 0 changed. -/
def wPort (f : Port → Port) : State := wRun.modPort 0 f

/-- Port 0 in a link state, its mode in use, leader or follower, hearing cells on a towpath run. -/
def wLink (st : LinkState) (m : Option LineMode) (lead : Bool) : State :=
  wPort (fun x => { x with link := { x.link with state := st, modeAct := m, leader := lead }, tow := { x.tow with profile := .wideRun, sf := 11 } })

/-- The running part with a word of a register stored. -/
def wReg (b ix : Nat) (v : Word) : State := wRun.setReg (regKey b ix) v

/-- A channel that waits for a long-running command. -/
def wWait (w : LongCmd) (s : State) : State := s.modChan 2 (fun c => { c with busy := true, work := some w })

/-- A request with four argument words to a cell. -/
def wReq (n : Nat) (args : List Word) : Request := { tag := 0x1234, len := BitVec.ofNat 8 (n + 1), args := args }

/-- A cell header that a fresh counter verifies. -/
def wHdr : CellHdr := { cseq := 1, inSlot := false, underOld := false }

/-! ### The step and the tables -/

theorem test_witness_StepRunsFront : ({ wRun with pending := [.timeTick, .slewDone] } : State).pending = .timeTick :: [.slewDone] := rfl

theorem test_witness_IdleKeeps : wRun.pending = [] := rfl

theorem test_witness_RootKept : ∃ t, exec .timeTick wRun = .next t ∧ t.ticks = 1 := ⟨_, rfl, by decide +kernel⟩

theorem test_witness_FrameKept : writesFrame (.symbolSlip 0 true) = false ∧ ∃ t, exec (.symbolSlip 0 true) (wLink .loconUp (some .l50a) true) = .next t
    ∧ (t.port 0).rx.slips = 1 := ⟨rfl, _, rfl, by decide +kernel⟩

theorem test_witness_HeldKept : writesHeld .timeTick = false ∧ ∃ t, exec .timeTick wRun = .next t ∧ t.ticks = 1 := ⟨rfl, _, rfl, by decide +kernel⟩

/-- A part with a register away from its reset value, and a tick waiting. -/
def wCanon : State := { wReg 0 0x0A 0 with pending := [.timeTick] }

theorem test_witness_StepCanon : Wit wCanon (fun s => s.frame.canon ∧ s.regs ≠ [] ∧ ∃ t, step s = .next t) := by
  refine ⟨?_, ?_, _, rfl⟩
  · simp only [Frame.canon, keysRise]; decide +kernel
  · decide +kernel

/-- A running part whose domains wait to be switched on. -/
def wDomains : State := { wRun.syncDomains with pending := [.domainSequencerTurn] }

theorem test_witness_StepDomains : Wit wDomains (fun s => s.powered ∧ s.inLine ∧ s.dom.pending ≠ 0
    ∧ ∃ t, step s = .next t)
    ∧ Wit { State.reset with pending := [.timeTick] } (fun s => s.cold ∧ s.sup.stage = .hardReset ∧ ∃ t, step s = .next t) := by
  refine ⟨⟨?_, ?_, ?_, _, rfl⟩, ?_, ?_, _, rfl⟩
  · simp only [State.powered]; decide +kernel
  · simp only [State.inLine]; decide +kernel
  · decide +kernel
  · simp only [State.cold]; decide +kernel
  · decide +kernel

theorem test_witness_ResetInvariants : Wit State.reset (fun s => s.sup.stage = .hardReset ∧ s.clk.core.mode = .off) := by
  simp only [Wit]; decide +kernel

/-! ### Supplies, clocks and resets -/

theorem test_witness_SuppliesAndResetPins :
    Wit State.reset (fun s => s.cold ∧ s.sup.resetN = false ∧ s.sup.stage = .hardReset ∧ s.sup.suppliesGood = true ∧ s.sup.testHeld = false)
    ∧ Wit { State.reset with sup := { testEn := true, testHeld := true } } (fun s => s.cold ∧ s.sup.resetN = false
      ∧ (s.sup.stage ≠ .hardReset ∨ s.sup.suppliesGood = false ∨ s.sup.testHeld = true))
    ∧ Wit { State.reset with sup := { resetN := true } } (fun s => s.cold ∧ s.sup.stage = .hardReset ∧ s.sup.resetN = true ∧ s.sup.testHeld = false
      ∧ s.sup.suppliesGood = true)
    ∧ Wit { State.reset with sup := { stage := .halted, resetN := true, testEn := true } } (fun s => s.cold ∧ s.sup.stage = .halted)
    ∧ Wit wRun (fun s => s.sup.stage ≠ .hardReset ∧ s.keys.zeroising = none) := by
  simp only [Wit, State.cold]; and_intros <;> decide +kernel

theorem test_witness_PowerFail :
    Wit (wLink .loconUp (some .l50a) true) (fun s => s.sup.resetN = true ∧ s.sup.stage = .released ∧ s.unforced ∧ (∀ p, (s.port p).cal.running = false)
      ∧ (s.port 0).link.state ≠ .disabled ∧ (s.port 0).link.state ≠ .diag)
    ∧ Wit (wSup (fun u => { u with stage := .basinInit })) (fun s => s.sup.resetN = true ∧ s.sup.stage = .basinInit)
    ∧ Wit (wSup (fun u => { u with stage := .coreFailed })) (fun s => s.sup.resetN = true ∧ s.sup.stage = .coreFailed ∧ s.sup.softAfterRef = false)
    ∧ Wit (wSup (fun u => { u with stage := .locking, softAfterRef := true })) (fun s => s.sup.resetN = true ∧ s.sup.stage = .locking ∧ s.sup.softAfterRef = true)
    ∧ Wit (wSup (fun u => { u with stage := .halted, pfailN := false })) (fun s => s.cold ∧ s.sup.stage = .halted)
    ∧ Wit (wSup (fun u => { u with pfailFrozen := true })) (fun s => s.sup.pfailFrozen = true ∧ s.sup.pfailN = true ∧ s.sup.suppliesGood = true) := by
  simp only [Wit, State.unforced, State.cold]; and_intros <;> decide +kernel

theorem test_witness_ReferenceClock :
    Wit (wSup (fun u => { u with stage := .qualifying, goodRun := 7, refclkOk := false })) (fun s => s.sup.stage ≠ .hardReset ∧ s.sup.stage ≠ .halted
      ∧ s.sup.stage = .qualifying ∧ s.sup.refclkOk = false ∧ 7 ≤ s.sup.goodRun ∧ 2100 ≤ 2100 ∧ 2100 ≤ 3000 ∧ s.clk.core.mode ≠ .locked
      ∧ s.clk.core.mode = .off ∧ s.clk.host.mode = .off ∧ ∀ r : Fin 4, (s.clk.reach.get r).mode = .off)
    ∧ Wit { wSup (fun u => { u with stage := .qualifying, goodRun := 8, refclkOk := false }) with clk := { host := ⟨.locked, 2⟩ } } (fun s => s.sup.stage = .qualifying
      ∧ s.clk.core.mode ≠ .locked ∧ (s.clk.pll .host).mode ≠ .off)
    ∧ Wit wRun (fun s => s.sup.stage = .released ∧ s.sup.refclkOk = true ∧ ¬ (2100 ≤ 2099 ∧ 2099 ≤ 3000))
    ∧ Wit (wSup (fun u => { u with stage := .locking })) (fun s => s.sup.stage = .locking ∧ s.sup.softAfterRef = false ∧ s.sup.refclkOk = true
      ∧ ¬ (2100 ≤ 3001 ∧ 3001 ≤ 3000))
    ∧ Wit { wRun with clk := { core := ⟨.locking, 0⟩ } } (fun s => (s.clk.pll .core).mode = .locking ∧ (s.clk.pll .core).good = 0 ∧ 32765 ≤ 32765 ∧ 32765 ≤ 32771)
    ∧ Wit { wRun with clk := { core := ⟨.locking, 1⟩ } } (fun s => (s.clk.pll .core).mode = .locking ∧ (s.clk.pll .core).good = 1 ∧ 32765 ≤ 32771 ∧ 32771 ≤ 32771)
    ∧ Wit { wRun with clk := { core := ⟨.locking, 1⟩ } } (fun s => (s.clk.pll .core).mode = .locking ∧ ¬ (32765 ≤ 32764 ∧ 32764 ≤ 32771))
    ∧ Wit { wRun with clk := { host := ⟨.locked, 2⟩ } } (fun s => (s.clk.pll .host).mode = .locked ∧ (s.clk.pll .host).mode ≠ .off ∧ ¬ (32765 ≤ 32772 ∧ 32772 ≤ 32771))
    ∧ Wit { wSup (fun u => { u with stage := .locking }) with clk := { core := ⟨.locking, 0⟩ } } (fun s => s.sup.stage = .locking ∧ (s.clk.pll .core).mode = .locking)
    ∧ Wit { wSup (fun u => { u with stage := .locking }) with clk := { host := ⟨.holdover, 0⟩ } } (fun s => s.sup.stage = .locking ∧ (s.clk.pll .host).mode = .holdover)
    ∧ Wit wRun (fun s => s.ringRoom ∧ s.sup.stage = .released)
    ∧ Wit (wSup (fun u => { u with safeSeq := true })) (fun s => s.sup.safeSeq = true)
    ∧ Wit { wRun with clk := { core := ⟨.locked, 2⟩ } } (fun s => s.clk.core.mode = .locked ∧ s.sup.watchOk = true ∧ ¬ (20000 ≤ 19999 ∧ 19999 ≤ 30000) ∧ s.ringRoom) := by
  simp only [Wit, State.ringRoom]; and_intros <;> decide +kernel

/-- An image that is valid. -/
def wImage (ok : Bool) (v : Word) : ImageReport := { magicOk := ok, version := v, length := 524032, keyHashOk := true, sigOk := true, auzer := 3, answered := true }

theorem test_witness_StartUp :
    Wit (wSup (fun u => { u with stage := .basinInit })) (fun s => s.sup.stage = .basinInit ∧ s.otp.identity = true ∧ s.keys.fault = false)
    ∧ Wit { wRun with keeper := { mode := .loading } } (fun s => s.clocked = true ∧ s.keeper.mode = .loading ∧ s.imageOk (wImage true 1) = true
      ∧ s.imageOk (wImage true 2) = true ∧ s.imageOk (wImage false 1) = false) := by
  simp only [Wit]; and_intros <;> decide +kernel

theorem test_witness_KeeperFaults :
    Wit wRun (fun s => s.clocked = true ∧ s.keeper.out = true)
    ∧ Wit { wRun with keeper := { mode := .loading } } (fun s => s.clocked = true ∧ s.keeper.out = true)
    ∧ Wit { wRun with keeper := { mode := .restarting } } (fun s => s.clocked = true ∧ s.keeper.mode = .restarting ∧ s.ringRoom) := by
  simp only [Wit, State.ringRoom]; and_intros <;> decide +kernel

/-- A part whose sequencer is switching its first domains on. -/
def wTurned : State := match exec .domainSequencerTurn wRun.syncDomains with
  | .next t => t
  | _ => wRun

theorem test_witness_PowerDomains :
    Wit wRun.syncDomains (fun s => s.inLine ∧ s.turnList ≠ [])
    ∧ Wit wTurned (fun s => s.inLine ∧ ∃ d : Fin 245, s.dom.switching.getLsbD d.val = true ∧ s.mayServe d.val = true)
    ∧ Wit wTurned (fun s => ∃ d : Fin 245, s.mayServe d.val = false) := by
  simp only [Wit, State.inLine]; and_intros <;> decide +kernel

/-! ### Register interfaces -/

theorem test_witness_RegisterWrite :
    Wit wRun (fun s => s.opens .spi (decodeAddr (plainAddr 0x10 0)).block ∧ (decodeAddr (plainAddr 0x10 0)).comp = false
      ∧ usedIndex (blockKind (decodeAddr (plainAddr 0x10 0)).block) (decodeAddr (plainAddr 0x10 0)).index = true
      ∧ plainReg (decodeAddr (plainAddr 0x10 0)).block (decodeAddr (plainAddr 0x10 0)).index)
    ∧ Wit wRun (fun s => s.opens .keeper (decodeAddr (plainAddr 2 0x40)).block
      ∧ usedIndex (blockKind (decodeAddr (plainAddr 2 0x40)).block) (decodeAddr (plainAddr 2 0x40)).index = false)
    ∧ Wit wRun (fun s => s.opens .monitor (decodeAddr 0x100400).block ∧ (decodeAddr 0x100400).comp = true
      ∧ usedIndex (blockKind (decodeAddr 0x100400).block) (decodeAddr 0x100400).index = true)
    ∧ Wit wRun (fun s => s.opens .spi (mboxBlock 15) ∧ decodeAddr (plainAddr 0x4F 63) = ⟨mboxBlock (15 : Fin 16).val, .plain, false, (63 : Fin 64).val⟩)
    ∧ Wit (wSup (fun u => { u with stage := .qualifying })) (fun s => s.deaf .spi = false ∧ s.closedTo (decodeAddr (plainAddr 0x10 0)).block = true) := by
  simp only [Wit, State.opens, plainReg]; and_intros <;> decide +kernel

theorem test_witness_FieldWrites :
    ((keyFields (regKey 0x10 0x50)).any (fun f => f.acc == .rw && (match f.rule with | .clamp _ _ => true | _ => false)) = true)
    ∧ ((keyFields (regKey 0x10 0x10)).any (fun f => f.acc == .rw && (match f.rule with | .clampS _ _ => true | _ => false)) = true)
    ∧ ((keyFields (regKey 0x10 0x00)).any (fun f => f.acc == .rw && (match f.rule with | .only _ => true | _ => false)) = true)
    ∧ ((keyFields (regKey 0x10 0x00)).any (fun f => f.acc == .rw && (match f.rule with | .any => true | _ => false)) = true)
    ∧ ((keyFields (regKey 0 0x10)).any (fun f => f.acc == .wg) = true)
    ∧ ((keyFields (regKey 0x10 0x60)).any (fun f => f.acc != .rw && f.acc != .wg) = true) := by decide +kernel

theorem test_witness_BlockRegisterWrites :
    Wit wRun (fun s => ∀ i : Fin 3, (fun i : Iface => s.opens i 0 ∧ s.opens i 2 ∧ s.opens i 3 ∧ s.opens i 4 ∧ s.opens i 6 ∧ (∀ p : Fin 16, s.opens i (portBlock p.val))
      ∧ (∀ r : Fin 4, s.opens i (reachBlock r.val)) ∧ ∀ n : Fin 8, s.opens i (laneBlock n.val)) ([Iface.spi, .monitor, .keeper].getD i.val .spi)) := by
  simp only [Wit, State.opens]; and_intros <;> decide +kernel

theorem test_witness_GuardProcedure :
    Wit wRun (fun s => s.deaf .spi = false ∧ s.opens .spi 0)
    ∧ Wit { wRun with spi := { guard := .armed } } (fun s => s.deaf .spi = false ∧ (s.iface .spi).guard ≠ .idle ∧ s.closedTo 0 = false
      ∧ usedIndex (blockKind 0) 0x10 = true ∧ hasGuarded (keyFields (regKey 0 0x10)) = true ∧ (s.iface .spi).guard = .armed
      ∧ decodeAddr (plainAddr 0 0x10) = ⟨0, .plain, false, 0x10⟩)
    ∧ Wit { wRun with spi := { guard := .holding (plainAddr 0 0x10) 5 } } (fun s => s.deaf .spi = false ∧ s.closedTo 0 = false
      ∧ (s.iface .spi).guard = .holding (plainAddr 0 0x10) 5 ∧ decodeAddr (plainAddr 0 0x10 + 0x400) = ⟨0, .plain, true, 0x10⟩
      ∧ (0xFFFFFFFA : Word) = ~~~5 ∧ ¬ (0 = 0 ∧ 0x10 = 0x0B) ∧ s.sup.softAfterRef = false ∧ (5 : Word) ≠ ~~~5) := by
  simp only [Wit, State.opens]; and_intros <;> decide +kernel

theorem test_witness_GuardedRegisters :
    Wit wRun (fun s => s.opens .keeper 0 ∧ s.sup.softAfterRef = false ∧ s.opens .spi 6 ∧ ∀ p : Fin 16, s.opens .monitor (portBlock p.val)) := by
  simp only [Wit, State.opens]; and_intros <;> decide +kernel

theorem test_witness_SoftReset : Wit wRun (fun s => s.opens .spi 0 ∧ s.sup.stage = .released) := by simp only [Wit, State.opens]; decide +kernel

theorem test_witness_UnitResets :
    Wit (wLink .loconUp (some .l50a) true) (fun s => s.opens .spi 0 ∧ s.keeper.out = true ∧ s.unforced
      ∧ (∀ p, (s.port p).cal.running = false ∧ (s.port p).tdr.running = false) ∧ (1 : BitVec 16).getLsbD (0 : Fin 16).val = true
      ∧ (s.port 0).link.state ≠ .disabled ∧ (s.port 0).link.state ≠ .diag ∧ (1 : BitVec 16).getLsbD (15 : Fin 16).val = false)
    ∧ Wit (wRun.modLane 7 (fun n => { n with state := .up })) (fun s => s.opens .spi 0 ∧ (0x80 : BitVec 8).getLsbD (7 : Fin 8).val = true ∧ (s.lane 7).state = .up
      ∧ (0x80 : BitVec 8).getLsbD (0 : Fin 8).val = false) := by
  simp only [Wit, State.opens, State.unforced]; and_intros <;> decide +kernel

theorem test_witness_Zeroise :
    Wit wRun (fun s => s.opens .spi 0 ∧ s.keys.zeroising = none ∧ ∀ c, (s.chan c).work = none)
    ∧ Wit { wRun with keys := { zeroising := some 3 } } (fun s => s.clocked = true ∧ s.keys.zeroising = some 3 ∧ s.sup.testEnWaits = false ∧ ∀ c, (s.chan c).work = none)
    ∧ Wit { wRun with keys := { zeroising := some 1 } } (fun s => s.clocked = true ∧ s.keys.zeroising = some 1 ∧ 1 ≠ 3 ∧ s.sup.testEnWaits = false
      ∧ ∀ c, (s.chan c).work = none)
    ∧ Wit { wSup (fun u => { u with testEn := true, testEnWaits := true }) with keys := { zeroising := some 2 } } (fun s => s.clocked = true ∧ s.keys.zeroising = some 2
      ∧ s.sup.testEnWaits = true ∧ 2 ≠ 3 ∧ s.sup.testEn = true ∧ ∀ c, (s.chan c).work = none)
    ∧ Wit { wSup (fun u => { u with testEnWaits := true }) with keys := { zeroising := some 2 } } (fun s => s.clocked = true ∧ s.keys.zeroising = some 2
      ∧ s.sup.testEnWaits = true ∧ s.sup.testEn = false ∧ s.sup.resetN = true ∧ s.sup.suppliesGood = true ∧ ∀ c, (s.chan c).work = none) := by
  simp only [Wit, State.opens]; and_intros <;> decide +kernel

theorem test_witness_SelfClearingBits :
    Wit (wReg 0x10 0x01 0x100) (fun s => s.opens .spi (portBlock 0) ∧ s.unforced ∧ (∀ q, (s.port q).cal.running = false) ∧ (s.port 0).tdr.running = false
      ∧ s.safeBlock (portBlock 0) = false ∧ s.enabled 0 = true ∧ s.enabled 15 = false)
    ∧ Wit wRun (fun s => s.opens .spi 3 ∧ s.opens .spi 4 ∧ s.opens .spi (canonBlock 127) ∧ s.parity = [] ∧ ∀ c, (s.chan c).work = none)
    ∧ Wit wRun (fun s => ∀ j, ∀ k < 8, liveSelected (s.csel j k) = none) := by
  refine ⟨by simp only [Wit, State.opens, State.unforced]; decide +kernel, by simp only [Wit, State.opens]; decide +kernel, fun j k hk => ?_⟩
  have hd : regKey j (0xE0 + k) / 256 = j ∧ regKey j (0xE0 + k) % 256 = 0xE0 + k := by unfold regKey; omega
  have hr : wRun.csel j k = fieldsReset (commonFields (0xE0 + k)) := by
    simp only [State.csel, State.act, State.badParity, State.reg, rstWord, keyFields, fieldsOf, hd.1, hd.2, wRun, tabGet]
    rw [if_neg (by simp), if_neg (by omega), if_pos (by omega)]
  rw [hr]
  interval_cases k <;> decide +kernel

/-! ### Tests, reads, TAKE, MDIO, the monitor -/

theorem test_witness_OfflineTests :
    Wit wRun (fun s => s.opens .spi 5 ∧ s.keys.zeroising = none ∧ (∀ c, (s.chan c).work = none) ∧ s.lbistOk = true ∧ s.loopOk 0 = true)
    ∧ Wit (wReg 0x10 0x01 0x100) (fun s => s.opens .spi 5 ∧ s.keys.zeroising = none ∧ (∀ c, (s.chan c).work = none) ∧ s.lbistOk = false ∧ s.loopOk 0 = false) := by
  simp only [Wit, State.opens]; and_intros <;> decide +kernel

theorem test_witness_RegisterReads :
    Wit wRun (fun s => s.opens .spi 2 ∧ s.opens .spi (canonBlock 127))
    ∧ Wit (wReg 0x1F 0xFE 0x80003017) (fun s => s.opens .spi (canonBlock 0x1F) ∧ bit (s.indAddr .spi (canonBlock 0x1F)) 31 = true
      ∧ canonBlock 0x1F = portBlock (15 : Fin 16).val ∧ fld (s.indAddr .spi (canonBlock 0x1F)) 0 24 = 0x3000 + (23 : Fin 24).val)
    ∧ Wit { wRun with tally := { wRun.tally with wraps := [(canonBlock 0x1F, 7)] } } (fun s => s.clocked = true
      ∧ s.tally.wraps = [(canonBlock (0x1F : Fin 128).val, (7 : Fin 8).val)] ∧ s.ringRoom) := by
  simp only [Wit, State.opens, State.ringRoom]; and_intros <;> decide +kernel

/-- An event record. -/
def wEvent (n : Word) : EventRec := { code := 2, block := 1, unit := 0, seq := n, ts := 0, sec := 0, e0 := 0, e1 := 0, e2 := 0, e3 := 0 }

theorem test_witness_TakeAndUnknown :
    Wit wRun (fun s => s.opens .spi (mboxBlock 14) ∧ (14 : Fin 16).val ≠ 15 ∧ (s.chan 14).work = none)
    ∧ Wit { wRun with ring := { untaken := [wEvent 0, wEvent 1], lost := 3 } } (fun s => s.opens .spi (mboxBlock 15) ∧ s.ring.untaken = wEvent 0 :: [wEvent 1]
      ∧ [wEvent 1].length < 256 ∧ s.ring.lost ≠ 0)
    ∧ Wit { wRun with ring := { untaken := [wEvent 0] } } (fun s => s.opens .spi (mboxBlock 15) ∧ s.ring.untaken = wEvent 0 :: [] ∧ s.ring.lost = 0)
    ∧ Wit wRun (fun s => s.serves 14 ∧ fullRequest (wReq 15 (List.replicate 60 0)) ∧ knownCode (0xFF : Byte).toNat = false) := by
  simp only [Wit, State.opens, State.serves, fullRequest]; and_intros <;> decide +kernel

/-- The MDIO window on (COMPAT bit 31), at a register address, with a latched group or none. -/
def wMdio (a : BitVec 16) (l : Option (Nat × List (BitVec 16))) : State := { wReg 3 0x30 0x8000D3C2 with mdio := { addr := a, latched := l } }

theorem test_witness_MdioWindow :
    Wit wRun (fun s => s.mdioMine 1 30 = false ∧ s.mdioMine 0 30 = true ∧ bit s.compat 31 = false)
    ∧ Wit (wMdio 2 none) (fun s => s.mdioMine 0 30 = true ∧ bit s.compat 31 = true ∧ mdioSlot s.mdio.addr.toNat = none)
    ∧ Wit (wMdio 0x8308 none) (fun s => s.mdioMine 0 30 = true ∧ bit s.compat 31 = true ∧ mdioSlot s.mdio.addr.toNat = some (3, 8) ∧ s.mdio.latched = none)
    ∧ Wit (wMdio 0x8001 (some (0, []))) (fun s => s.mdioMine 0 30 = true ∧ bit s.compat 31 = true ∧ mdioSlot s.mdio.addr.toNat = some (0, 1)
      ∧ s.mdio.latched = some (0, []))
    ∧ Wit (wMdio 0x8300 none) (fun s => s.mdioMine 0 30 = true ∧ bit s.compat 31 = true ∧ s.mdio.addr.toNat = 0x8000 + 256 * (3 : Fin 4).val) := by
  simp only [Wit]; and_intros <;> decide +kernel

theorem test_witness_MonitorCommands :
    Wit wRun (fun s => s.deaf .monitor = false ∧ (decodeAddr (plainAddr 0x10 0xFE)).index ≠ 0xFF ∧ s.opens .monitor (decodeAddr (plainAddr 0x10 0)).block
      ∧ (decodeAddr (plainAddr 0x10 0)).comp = false ∧ usedIndex (blockKind (decodeAddr (plainAddr 0x10 0)).block) (decodeAddr (plainAddr 0x10 0)).index = true
      ∧ plainReg (decodeAddr (plainAddr 0x10 0)).block (decodeAddr (plainAddr 0x10 0)).index ∧ (15 : Fin 16).val = 15
      ∧ s.serves 0 ∧ (List.replicate 63 (0 : Word)).length < 64 ∧ knownCode (fld (0x00001002 : Word) 0 8) = false ∧ 1 ≤ fld (0x00001002 : Word) 8 8
      ∧ fld (0x00001002 : Word) 8 8 ≤ 16 ∧ (4 : Nat) ≤ 4 ∧ (4 : Nat) < 5)
    ∧ Wit (wWait .journalCommit wRun) (fun s => (s.chan 2).busy = true)
    ∧ Wit { wRun with keeper := { mode := .romWait } } (fun s => s.deaf .monitor = false ∧ (3 : Fin 16).val ≠ 15 ∧ (s.chan 3).busy = false
      ∧ (s.modChan 3 (fun ch => ch.filled [0])).doorReject 3 ≠ 0)
    ∧ Wit (wSup (fun u => { u with softLock := true })) (fun s => s.deaf .monitor = false ∧ s.closedTo (decodeAddr (plainAddr 0x10 0)).block = true)
    ∧ Wit ({ wRun with monitor := { rang := some 3 } }.modChan 3 (fun c => { c with done := true })) (fun s => (3 : Fin 16).val ≠ 15
      ∧ s.monitor.rang = some (3 : Fin 16).val ∧ (s.chan 3).done = true ∧ (s.chan 3).work = none)
    ∧ Wit { wRun with otp := { wRun.otp with monitorLock := true } } (fun s => s.deaf .monitor = true) := by
  simp only [Wit, State.opens, plainReg, State.serves]; and_intros <;> decide +kernel

/-- A calendar entry with its instants. -/
def wEntry (kind : CalKind) (start : Nat) (stop : Option Nat) : CalEntry :=
  { kind := kind, source := 0, target := 0, startP := ⟨true, 0, 0, 0, 0⟩, stopP := ⟨true, 0, 0, 0, 0⟩, start := start, stop := stop, left := 1 }

/-- The running part with one calendar entry at number 5 and a vehicle time. -/
def wCal (x : CalEntry) (now : Nat) : State := { wRun with time := { wRun.time with cal := [(5, x)], now := now } }

theorem test_witness_ParityRestoreCommit :
    Wit wRun (fun s => s.clocked = true ∧ hasStored (keyFields (regKey 0x10 0)) = true
      ∧ regKey (decodeAddr (plainAddr 0x10 0)).block (decodeAddr (plainAddr 0x10 0)).index = regKey 0x10 0)
    ∧ Wit { wRun with keeper := { wRun.keeper with owner := 0x00010000 } } (fun s => s.clocked = true ∧ s.keeper.mode = .running
      ∧ s.keeper.owns (canonBlock (0x10 : Fin 128).val) = true ∧ s.keeper.owns (canonBlock (0x11 : Fin 128).val) = false)
    ∧ Wit (wCal { wEntry .commit 7 none with writes := [(plainAddr 0x10 0, 1)] } 7) (fun s => s.clocked = true
      ∧ s.dueInstant (5 : Fin 1024).val .commit = some { wEntry .commit 7 none with writes := [(plainAddr 0x10 0, 1)] }
      ∧ (decodeAddr (plainAddr 0x10 0)).comp = false
      ∧ usedIndex (blockKind (decodeAddr (plainAddr 0x10 0)).block) (decodeAddr (plainAddr 0x10 0)).index = true
      ∧ plainReg (decodeAddr (plainAddr 0x10 0)).block (decodeAddr (plainAddr 0x10 0)).index) := by
  simp only [Wit, plainReg]; and_intros <;> decide +kernel

/-! ### The Auzer commands -/

theorem test_witness_HelloAndPorts :
    Wit wRun (fun s => s.takes 0 (wReq 0 []) 0 ∧ s.takes 14 (wReq 1 [1, 0, 0, 0]) 1 ∧ bit (argWord (wReq 1 [1, 0, 0, 0]) 0) 0 = true
      ∧ s.sup.cause = some (0, 0) ∧ s.sup.lbistDone = none ∧ s.ringRoom)
    ∧ Wit wRun (fun s => fld (argWord (wReq 1 [0x10F, 0, 0, 0]) 0) 0 4 = (15 : Fin 16).val
      ∧ s.takes 0 (wReq 1 [0x10F, 0, 0, 0]) (if bit (argWord (wReq 1 [0x10F, 0, 0, 0]) 0) 8 then 3 else 2))
    ∧ Wit wRun (fun s => bit (argWord (wReq 1 [0x8001, 0, 0, 0]) 0) 15 = true ∧ s.takes 0 (wReq 1 [0x8001, 0, 0, 0]) 1) := by
  simp only [Wit, State.takes, State.serves, fullRequest, State.ringRoom]; and_intros <;> decide +kernel

/-- A queue of port 0. -/
def wQueue (num : Nat) (out : Bool) (cls : Custody) : Queue :=
  { num := num, outbound := out, cls := cls, prio := 0, bRes := 10, lat := 1000, rB := 1000000, fMin := 64, laneMask := 0xFF }

/-- A link up in L50A with host lanes 0 and 1 up. -/
def wUp (lead : Bool) : State :=
  ((wLink .loconUp (some .l50a) lead).modLane 0 (fun n => { n with state := .up })).modLane 1 (fun n => { n with state := .up })

/-- A state with its queues and tickets. -/
def wBasin (s : State) (qs : List Queue) (ts : List Ticket) : State := { s with basin := { s.basin with queues := qs, tickets := ts, nextId := 9 } }

/-- The argument words of STREAM_OPEN for `wQueue 1 true .none`. -/
def wOpenArgs : List Word := [0xFF001001, 10, 1000, 1000000, 64, 0, 0, 0]

theorem test_witness_StreamCommands :
    Wit (wUp true) (fun s => s.takes 0 (wReq 2 wOpenArgs) 5 ∧ s.safeBlock 3 = false ∧ fld (argWord (wReq 2 wOpenArgs) 0) 13 2 ≠ 3 ∧ s.queue? 1 = none
      ∧ s.attrsOk (wQueue 1 true .none) = true ∧ s.skidOk (wQueue 1 true .none) = true ∧ (s.admitted (wQueue 1 true .none) s.basin.queues).isOk = true
      ∧ s.takes 0 (wReq 1 [1, 0, 0, 0]) 1)
    ∧ Wit wRun (fun s => s.takes 0 (wReq 2 wOpenArgs) 5 ∧ s.safeBlock 3 = false
      ∧ ((s.rung 0 0x20 (wReq 2 wOpenArgs)).openStream (wQueue 1 true .none) true).isOk = false
      ∧ ((s.rung 0 0x22 (wReq 2 wOpenArgs)).modifyStream (wQueue 1 true .none) true).isOk = false)
    ∧ Wit (wBasin (wUp true) [wQueue 1 true .none] []) (fun s => s.takes 0 (wReq 2 wOpenArgs) 5 ∧ s.queue? 1 = some (wQueue 1 true .none)
      ∧ (wQueue 1 true .none).closing = none ∧ s.attrsOk (wQueue 1 true .none) = true ∧ s.skidOk (wQueue 1 true .none) = true
      ∧ (s.admitted ((wQueue 1 true .none).modified (wQueue 1 true .none)) (s.others 1)).isOk = true ∧ s.ticketsOf 1 = [])
    ∧ Wit (wBasin (wUp true) [wQueue 1 true .none] [{ id := 0, queue := 1, outbound := true, state := .queued }]) (fun s => s.takes 0 (wReq 1 [1, 0, 0, 0]) 1
      ∧ (s.queue? 1).isSome = true ∧ s.ticketsOf 1 ≠ [] ∧ bit (argWord (wReq 1 [1, 0, 0, 0]) 0) 16 = false)
    ∧ Wit (wWait (.streamClose 1) (wBasin (wUp true) [{ wQueue 1 true .none with closing := some 2 }] [])) (fun s => s.clocked = true
      ∧ s.queue? (1 : Fin 4096).val = some { wQueue 1 true .none with closing := some 2 } ∧ s.ticketsOf 1 = [] ∧ s.waiting (isClose 1) = some 2)
    ∧ Wit (wWait (.streamClose 1) (wBasin (wUp true) [{ wQueue 1 true .none with closing := some 2 }] [{ id := 0, queue := 1, outbound := true, state := .queued }]))
      (fun s => s.clocked = true ∧ s.ticketsOf 1 ≠ [] ∧ s.waiting (isClose 1) = some 2) := by
  simp only [Wit, State.takes, State.serves, fullRequest]; and_intros <;> decide +kernel

/-- The argument words of CADENCE_SET: entry 7, queue 1, GOVERN, a frame of 1 ms and a line of 10 µs in 2^-16 ns, 100 lines. -/
def wCadArgs : List Word := [0x10010007, 0x42400000, 0xF, 0x27100000, 0, 100, 0x00010063, 0, 0, 0, 0, 0]

/-- The cadence that those words name. -/
def wCad : Cadence := { queue := 1, pf := 0xF42400000, pl := 0x27100000, nl := 100, a0 := 99, na := 1, ta := 0, govern := true, track := false }

/-- Seventeen burst starts one millisecond apart. -/
def wBursts : List Nat := (List.range 17).map (fun i => i * 0xF42400000)

/-- A cadence being learned for entry 255. -/
def wLearn : LearnRec := { entry := 255, queue := 1, install := true, nl := 100, a0 := 99, na := 1, chan := 2 }

theorem test_witness_CadenceCommands :
    Wit wRun (fun s => bit (argWord (wReq 1 [0x400000FF, 0, 0, 0]) 0) 30 = true ∧ s.takes 0 (wReq 1 [0x400000FF, 0, 0, 0]) 1)
    ∧ Wit wRun (fun s => bit (argWord (wReq 3 wCadArgs) 0) 30 = false ∧ s.takes 0 (wReq 3 wCadArgs) 10 ∧ wCad.ok = true
      ∧ fld (argWord (wReq 3 wCadArgs) 5) 0 14 = wCad.nl ∧ (argWord (wReq 3 wCadArgs) 1).toNat + (argWord (wReq 3 wCadArgs) 2).toNat * 2 ^ 32 = wCad.pf
      ∧ ({ wCad with nl := 1 }).ok = false)
    ∧ Wit wRun (fun s => s.takes 0 (wReq 1 [0x100100FF, 1, 0x00010000, 0]) 3 ∧ fld (argWord (wReq 1 [0x100100FF, 1, 0x00010000, 0]) 1) 0 14 < 2
      ∧ s.takes 0 (wReq 1 [0x100100FF, 2, 0x00010001, 0]) 3 ∧ 2 ≤ fld (argWord (wReq 1 [0x100100FF, 2, 0x00010001, 0]) 1) 0 14
      ∧ 1 ≤ fld (argWord (wReq 1 [0x100100FF, 2, 0x00010001, 0]) 2) 16 14
      ∧ fld (argWord (wReq 1 [0x100100FF, 2, 0x00010001, 0]) 2) 0 14 + fld (argWord (wReq 1 [0x100100FF, 2, 0x00010001, 0]) 2) 16 14
        ≤ fld (argWord (wReq 1 [0x100100FF, 2, 0x00010001, 0]) 1) 0 14)
    ∧ Wit (wWait (.cadenceLearn 255) { wRun with time := { wRun.time with learns := [wLearn] } }) (fun s => s.clocked = true
      ∧ s.time.learns.find? (fun l => l.entry == (255 : Fin 256).val) = some wLearn ∧ s.waiting (fun w => w == .cadenceLearn (255 : Fin 256).val) = some 2
      ∧ wBursts.length = 17 ∧ (learnt wLearn wBursts).isSome = true ∧ learnt wLearn (0xF42400000 :: wBursts.drop 1) = none
      ∧ ((learnt wLearn wBursts).any Cadence.ok) = true ∧ ((learnt { wLearn with nl := 2, a0 := 2 } wBursts).any (fun k => !k.ok)) = true) := by
  simp only [Wit, State.takes, State.serves, fullRequest]; and_intros <;> decide +kernel

theorem test_witness_TimeCommands :
    Wit wRun (fun s => s.takes 0 (wReq 1 [0, 999999999, 1, 0]) 4 ∧ (argWord (wReq 1 [0, 999999999, 1, 0]) 1).toNat < 10 ^ 9
      ∧ bit (argWord (wReq 1 [0, 999999999, 1, 0]) 0) 0 = false ∧ s.takes 0 (wReq 1 [1, 0, 1, 0]) 4 ∧ bit (argWord (wReq 1 [1, 0, 1, 0]) 0) 0 = true
      ∧ s.takes 0 (wReq 1 [0, 1000000000, 1, 0]) 4 ∧ 10 ^ 9 ≤ (argWord (wReq 1 [0, 1000000000, 1, 0]) 1).toNat)
    ∧ Wit { wRun with time := { wRun.time with setWait := [(77, 2)] } } (fun s => s.clocked = true ∧ ∃ v ∈ [77], (v, (2 : Fin 16).val) ∈ s.time.setWait)
    ∧ Wit wRun (fun s => s.takes 0 (wReq 1 [0, 1099511627, 0, 0]) 2 ∧ (argWord (wReq 1 [0, 1099511627, 0, 0]) 1).toInt.natAbs ≤ 2 ^ 40 / 1000
      ∧ 2 ^ 40 / 1000 < (argWord (wReq 1 [0, 1099511628, 0, 0]) 1).toInt.natAbs ∧ fld (argWord (wReq 1 [0, 1099511628, 0, 0]) 0) 0 2 = 0
      ∧ fld (argWord (wReq 1 [1, 1000000, 0, 0]) 0) 0 2 = 1 ∧ (argWord (wReq 1 [1, 1000000, 0, 0]) 1).toInt.natAbs ≤ 10 ^ 6
      ∧ 10 ^ 6 < (argWord (wReq 1 [1, 1000001, 0, 0]) 1).toInt.natAbs ∧ fld (argWord (wReq 1 [2, 5, 0, 0]) 0) 0 2 = 2) := by
  simp only [Wit, State.takes, State.serves, fullRequest]; and_intros <;> decide +kernel

/-- SCHEDULE_EVENT of one occurrence from an absolute second to another. -/
def wSched (kind a b : Word) : Request := wReq 2 [kind <<< 8, 0x00800000, 0, a, 0x00800000, 0, b, 0]

/-- The absolute position of a second. -/
def wPos (sec : Nat) : Position := ⟨true, 0, 0, 0, sec⟩

/-- The running part at a whole second, with the calendar full or empty. -/
def wAt (sec : Nat) (full : Bool) : State :=
  { wRun with time := { wRun.time with now := vehicleTime sec 0 0, cal := if full then (List.range 1024).map (fun e => (e, wEntry .user 0 none)) else [] } }

/-- COMMIT_AT at an absolute second of some writes. -/
def wCommit (n : Word) (ws : List Word) : Request := wReq 2 ([0x00800000, 0, 5, n] ++ ws)

/-- A full calendar has no free number. -/
theorem test_full_calendar : (wAt 0 true).freeCal = none := by
  simp only [State.freeCal, wAt, if_true, List.find?_eq_none, List.mem_range, List.any_map, Bool.not_eq_true', Bool.not_eq_false', Function.comp_def]
  intro e he
  simp only [Bool.not_eq_true', Bool.not_eq_false, List.any_eq_true, beq_iff_eq]
  exact ⟨e, List.mem_range.2 he, rfl⟩

theorem test_witness_CalendarCommands :
    Wit (wAt 0 false) (fun s => s.takes 0 (wSched 2 1 2) 8 ∧ fld (argWord (wSched 2 1 2) 0) 0 2 = 0 ∧ schedKind (fld (argWord (wSched 2 1 2) 0) 8 4) = some .user
      ∧ (s.position (argWord (wSched 2 1 2) 1) (argWord (wSched 2 1 2) 2) (argWord (wSched 2 1 2) 3)).toOption = some (wPos 1)
      ∧ (s.position (argWord (wSched 2 1 2) 4) (argWord (wSched 2 1 2) 5) (argWord (wSched 2 1 2) 6)).toOption = some (wPos 2)
      ∧ fld (argWord (wSched 2 1 2) 0) 24 8 = 0 ∧ s.freeCal = some 0
      ∧ s.judge (s.time.instant (wPos 1)) (some (s.time.instant (wPos 2))) = .ok ∧ s.judge (s.time.instant (wPos 2)) (some (s.time.instant (wPos 1))) = .emptyHeld)
    ∧ Wit (wAt 1 false) (fun s => s.judge (s.time.instant (wPos 1)) (some (s.time.instant (wPos 2))) = .late ∧ s.freeCal = some 0)
    ∧ Wit (wAt 2 false) (fun s => s.judge (s.time.instant (wPos 1)) (some (s.time.instant (wPos 2))) = .dropped ∧ fld (argWord (wSched 2 1 2) 0) 24 8 = 0)
    ∧ Wit (wAt 0 true) (fun s => (s.judge (s.time.instant (wPos 1)) (some (s.time.instant (wPos 2)))).holds = true)
    ∧ schedKind 3 = some .hostEvent ∧ CalKind.window .hostEvent = false
    ∧ Wit (wCal (wEntry .user 9 none) 0) (fun s => s.takes 0 (wReq 2 [1, 0, 0, 0, 0, 0, 0, 0x00050000]) 8 ∧ fld (argWord (wReq 2 [1, 0, 0, 0, 0, 0, 0, 0x00050000]) 0) 0 2 = 1
      ∧ s.cal? (fld (argWord (wReq 2 [1, 0, 0, 0, 0, 0, 0, 0x00050000]) 7) 16 10) = some (wEntry .user 9 none) ∧ s.cal? 1023 = none)
    ∧ Wit (wAt 0 false) (fun s => s.takes 0 (wReq 1 [0x00800000, 0, 5, 0]) 3 ∧ (s.position 0x00800000 0 5).toOption = some (wPos 5) ∧ s.time.now < s.time.instant (wPos 5)
      ∧ s.freeCal = some 0)
    ∧ Wit (wAt 0 false) (fun s => s.takes 0 (wCommit 1 [0x00100000, 1, 0, 0]) (4 + 2 * min 24 (fld (argWord (wCommit 1 [0x00100000, 1, 0, 0]) 3) 0 5))
      ∧ fld (argWord (wCommit 1 [0x00100000, 1, 0, 0]) 3) 0 5 = 1
      ∧ commitRefuses ((argWord (wCommit 1 [0x00100000, 1, 0, 0]) 4).setWidth 24) = false
      ∧ commitRefuses ((argWord (wCommit 1 [0x00000040, 1, 0, 0]) 4).setWidth 24) = true
      ∧ s.takes 0 (wCommit 0 [0, 0, 0, 0]) (4 + 2 * min 24 (fld (argWord (wCommit 0 [0, 0, 0, 0]) 3) 0 5)) ∧ fld (argWord (wCommit 0 [0, 0, 0, 0]) 3) 0 5 = 0
      ∧ s.takes 0 (wReq 13 ([0x00800000, 0, 5, 25] ++ List.replicate 48 0)) (4 + 2 * min 24 25) ∧ fld (25 : Word) 0 5 = 25) := by
  simp only [Wit, State.takes, State.serves, fullRequest]; and_intros <;> decide +kernel

theorem test_witness_CalibrationAndDiagnosticCommands :
    Wit (wReg 0x10 0x01 0x100) (fun s => s.takes 0 (wReq 1 [0, 0, 0, 0]) 1 ∧ s.calHeld = false ∧ s.takes 0 (wReq 1 [0x00010000, 0, 0, 0]) 1
      ∧ bit (argWord (wReq 1 [0x00010000, 0, 0, 0]) 0) (16 + (0 : Fin 16).val) = true ∧ (s.port 0).cal.running = false ∧ (s.port 0).tdr.running = false
      ∧ bit (argWord (wReq 1 [1, 0, 0, 0]) 0) (0 : Fin 4).val = true ∧ (s.reach 0).calRun = false ∧ reachOf 0 = 0 ∧ s.enabled 0 = true
      ∧ fld (argWord (wReq 1 [15, 0, 0, 0]) 0) 0 4 = (15 : Fin 16).val ∧ s.enabled 15 = false ∧ s.unforced ∧ s.safeBlock (portBlock 15) = false)
    ∧ Wit (wRun.modTdr 0 (fun t => { t with running := true })) (fun s => s.takes 0 (wReq 1 [0, 0, 0, 0]) 1 ∧ (s.port 0).tdr.running = true)
    ∧ Wit (wLink .loconUp (some .l50a) true) (fun s => s.takes 0 (wReq 1 [0x100, 0, 0, 0]) 1 ∧ fld (argWord (wReq 1 [0x100, 0, 0, 0]) 0) 8 2 = 1
      ∧ fld (argWord (wReq 1 [0x200, 0, 0, 0]) 0) 8 2 = 2 ∧ (s.port 0).link.state = .loconUp ∧ (s.port 0).quiet.state = .active)
    ∧ Wit (wRun.modQuiet 0 (fun q => { q with state := .quiet })) (fun s => s.takes 0 (wReq 1 [0x100, 0, 0, 0]) 1 ∧ (s.port 0).quiet.state ≠ .active)
    ∧ Wit (wWait (.diagWatch 0) wRun) (fun s => s.clocked = true ∧ s.waiting (isWatch 0) = some 2) := by
  simp only [Wit, State.takes, State.serves, fullRequest, State.unforced]; and_intros <;> decide +kernel

/-- Port 0 up with key 63 in use. -/
def wKey : State := { (wLink .loconUp (some .l50a) true).modTow 0 (fun t => { t with keyInUse := some 63 }) with keys := { keys := [(0, 1), (63, 2)] } }

theorem test_witness_KeyJournalAndTestCommands :
    Wit { wRun with keys := { zeroising := some 1 } } (fun s => s.takes 0 (wReq 2 [63, 0, 0, 0, 0, 0, 0, 0]) 7 ∧ s.keys.zeroising = some 1)
    ∧ Wit wKey (fun s => s.takes 0 (wReq 2 [63, 0, 0, 0, 0, 0, 0, 0]) 7 ∧ s.keys.zeroising = none ∧ s.keyInUse 63 = true ∧ s.keyInUse 0 = false ∧ s.otp.kek = true
      ∧ s.takes 0 (wReq 1 [64, 0, 0, 0]) 1 ∧ 64 ≤ fld (argWord (wReq 1 [64, 0, 0, 0]) 0) 0 8 ∧ fld (argWord (wReq 1 [254, 0, 0, 0]) 0) 0 8 < 255
      ∧ s.keyInUse 1 = false ∧ s.keys.key? 1 = none ∧ (s.keys.key? 0).isSome = true)
    ∧ Wit wRun (fun s => s.takes 0 (wReq 1 [255, 0, 0, 0]) 1 ∧ fld (argWord (wReq 1 [255, 0, 0, 0]) 0) 0 8 = 255 ∧ ∀ j < 64, s.keyInUse j = false)
    ∧ Wit (wSup (fun u => { u with pfailFrozen := true })) (fun s => s.takes 0 (wReq 0 []) 0 ∧ s.sup.pfailFrozen = true)
    ∧ Wit { wRun with journal := { taken := some (true, 7) } } (fun s => s.takes 0 (wReq 0 []) 0 ∧ s.sup.pfailFrozen = false ∧ s.journal.taken = some (true, 7)
      ∧ s.takes 0 (wReq 1 [0, 223, 0, 0]) 2)
    ∧ Wit wRun (fun s => s.takes 0 (wReq 1 [0, 67, 0, 0]) 2 ∧ s.journal.taken = none ∧ fld (argWord (wReq 1 [0, 67, 0, 0]) 0) 0 4 = 0
      ∧ 68 ≤ (argWord (wReq 1 [0, 68, 0, 0]) 1).toNat ∧ (0 : Fin 68).val = 0 ∧ s.bank 0 = .inService 0 ∧ s.mayRotate = true ∧ s.lowestSpare = some 64
      ∧ s.bank 67 = .spare)
    ∧ Wit wRun (fun s => s.takes 0 (wReq 1 [1, 15, 0, 0]) 2 ∧ 16 ≤ (argWord (wReq 1 [1, 16, 0, 0]) 1).toNat ∧ (s.port 15).test.running = false ∧ s.testHeld = false
      ∧ s.governor 15 = none ∧ (∀ i < 106, elementOf i ∉ ([] : List Element)) ∧ elementOf 105 ∈ [elementOf 105] ∧ ∀ j < 105, elementOf j ∉ [elementOf 105])
    ∧ Wit { wRun with cal := { wRun.cal with level := 1 } } (fun s => s.takes 0 (wReq 1 [1, 15, 0, 0]) 2 ∧ s.testHeld = true ∧ (s.port 15).test.running = false)
    ∧ Wit wRun (fun s => s.takes 0 (wReq 1 [2, 15, 0, 0]) 2 ∧ s.loopOk 15 = true ∧ s.takes 0 (wReq 1 [3, 0, 0, 0]) 2 ∧ s.lbistOk = true ∧ s.keys.zeroising = none)
    ∧ Wit (wReg 0x1F 0x01 0x100) (fun s => s.takes 0 (wReq 1 [2, 15, 0, 0]) 2 ∧ s.loopOk 15 = false ∧ s.lbistOk = false)
    ∧ Wit (wWait (.bistPortTest 15) wRun) (fun s => s.clocked = true ∧ s.waiting (isPortTest 15) = some 2) := by
  simp only [Wit, State.takes, State.serves, fullRequest]; and_intros <;> decide +kernel

theorem test_witness_EventRemoteFirmwareCommands :
    Wit { wRun with ring := { untaken := [wEvent 4] } } (fun s => s.takes 0 (wReq 1 [4, 7, 0, 0]) 2 ∧ 1 ≤ fld (argWord (wReq 1 [4, 7, 0, 0]) 1) 0 3
      ∧ fld (argWord (wReq 1 [4, 0, 0, 0]) 1) 0 3 = 0 ∧ s.ring.kept ≠ [])
    ∧ Wit wRun (fun s => s.takes 0 (wReq 2 [0x0000010F, 0, 0, 0, 0, 0, 0, 0]) 5 ∧ bit (argWord (wReq 2 [0x0000010F, 0, 0, 0, 0, 0, 0, 0]) 0) 24 = false
      ∧ fld (argWord (wReq 2 [0x0000010F, 0, 0, 0, 0, 0, 0, 0]) 0) 0 4 = (15 : Fin 16).val ∧ (s.port 15).link.state ≠ .loconUp)
    ∧ Wit ((wLink .loconUp (some .l50a) true).modPort 0 (fun x => { x with remIn := [(7, 5, 1)] })) (fun s => s.takes 0 (wReq 2 [0, 0, 0, 0, 0, 0, 0, 0]) 5
      ∧ (s.port 0).link.state = .loconUp ∧ s.takes 0 (wReq 2 [0x01000000, 0, 0, 0, 0, 7, 0, 0]) 6 ∧ bit (argWord (wReq 2 [0x01000000, 0, 0, 0, 0, 7, 0, 0]) 0) 24 = true
      ∧ (∃ e ∈ (s.port 0).remIn, e.1 = (7 : BitVec 16)) ∧ ((s.port 0).remIn.all (fun e => e.1 != (8 : BitVec 16))) = true ∧ s.clocked = true
      ∧ (s.port 0).remIn.find? (fun e => e.1 == 7) = some (7, 5, 1))
    ∧ Wit (wWait (.remote 0 7 false) wRun) (fun s => s.clocked = true ∧ s.waiting (isRemote 0 7 false) = some 2)
    ∧ Wit { wRun with keeper := { wRun.keeper with fw := { next := some 224 } } } (fun s =>
        s.takes 0 (wReq 15 ([0x800000E0, 14] ++ List.replicate 58 0)) (4 + 4 * min 14 14) ∧ 224 % 16 = 0 ∧ s.keeper.fw.next = some 224 ∧ s.keeper.fw.next ≠ some 240
      ∧ s.takes 0 (wReq 2 [0x000000F0, 1, 0, 0, 0, 0, 0, 0]) (4 + 4 * min 14 1) ∧ s.takes 0 (wReq 15 ([8, 15] ++ List.replicate 58 0)) (4 + 4 * min 14 15))
    ∧ Wit wRun (fun s => s.takes 0 (wReq 0 []) 0 ∧ s.imageOk { wImage true 2 with magicOk := true } = true ∧ s.keeper.version.toNat < (wImage true 2).version.toNat
      ∧ (wImage true 1).version.toNat ≤ s.keeper.version.toNat ∧ s.imageOk { wImage true 2 with magicOk := true, sigOk := false } = false ∧ s.clocked = true
      ∧ s.keeper.fw.resetDue = false)
    ∧ Wit { wRun with keeper := { wRun.keeper with fw := { resetDue := true } } } (fun s => s.clocked = true ∧ s.keeper.fw.resetDue = true
      ∧ s.sup.stage = .released) := by
  simp only [Wit, State.takes, State.serves, fullRequest]; and_intros <;> decide +kernel

/-! ### Time -/

theorem test_witness_TimeRows :
    Wit State.reset (fun s => s.clocked = false)
    ∧ Wit wRun (fun s => s.clocked = true ∧ s.time.slew = none ∧ 0 ≤ (2 ^ 40 : Int) + s.time.rho ∧ s.markPeriod = some 1000000000)
    ∧ Wit { (wBasin wRun [wQueue 1 true .none] []).modTx 0 (fun t => { t with ramp := some ⟨true, 156000, 249, 99, 0, 62500⟩ }) with ticks := 156249 } (fun s => s.clocked = true
      ∧ (s.queue? 1).isSome = true ∧ (s.port 0).tx.ramp = some ⟨true, 156000, 249, 99, 0, 62500⟩ ∧ 156000 + 249 ≤ s.ticks + 1
      ∧ (s.port 0).tx.nextRamp = none ∧ (s.ticks + 1) % 156250 = 0)
    ∧ Wit (wRun.modTx 15 (fun t => { t with nextRamp := some ⟨true, 1, 249, 99, 0, 62500⟩ })) (fun s => (s.port 15).tx.ramp = none
      ∧ (s.port 15).tx.nextRamp = some ⟨true, 1, 249, 99, 0, 62500⟩ ∧ 1 ≤ s.ticks + 1 ∧ true ≠ (s.port 15).tx.on)
    ∧ Wit { wRun with ticks := 1000, time := { wRun.time with capTick := some 54063 } } (fun s => s.edgeSoon (0 : Fin 64).val = true)
    ∧ Wit { wRun with ticks := 1000, time := { wRun.time with capTick := some 54000, setWait := [(5, 2)] } } (fun s => s.edgeSoon (0 : Fin 64).val = false
      ∧ s.time.setWait = [(5, (2 : Fin 16).val)])
    ∧ Wit wRun (fun s => s.edgeSoon (63 : Fin 64).val = false ∧ s.time.setWait = [])
    ∧ Wit (wCal (wEntry .user 7 (some 9)) 6) (fun s => s.cal? (5 : Fin 1024).val = some (wEntry .user 7 (some 9)) ∧ (wEntry .user 7 (some 9)).kind.window = true
      ∧ s.calDue (wEntry .user 7 (some 9)) = false ∧ s.calStops (wEntry .user 7 (some 9)) = false)
    ∧ Wit (wCal (wEntry .user 7 (some 9)) 7) (fun s => s.calDue (wEntry .user 7 (some 9)) = true ∧ (wEntry .user 7 (some 9)).empty = false
      ∧ (wEntry .user 7 (some 9)).repeatK = 0)
    ∧ Wit (wCal { wEntry .user 7 (some 7) with empty := true } 7) (fun s => s.calDue { wEntry .user 7 (some 7) with empty := true } = true)
    ∧ Wit (wCal { wEntry .user 7 (some 9) with isOpen := true } 9) (fun s => s.calStops { wEntry .user 7 (some 9) with isOpen := true } = true)
    ∧ Wit (wCal (wEntry .hostEvent 7 none) 7) (fun s => s.calDue (wEntry .hostEvent 7 none) = true ∧ s.ringRoom)
    ∧ Wit (wCal (wEntry .tmark 7 none) 7) (fun s => s.cal? 5 = some (wEntry .tmark 7 none) ∧ s.calDue (wEntry .tmark 7 none) = true)
    ∧ Wit { wRun with tally := { wRun.tally with due := true } } (fun s => s.tally.due = true ∧ s.dueSnapshots = [] ∧ s.safeBlock 4 = false ∧ s.tally.copying = none)
    ∧ Wit { wRun with tally := { wRun.tally with due := true, copying := some ⟨1, 0, 0, [], []⟩ } } (fun s => s.tally.due = true ∧ s.tally.copying.isSome = true
      ∧ s.ringRoom) := by
  simp only [Wit, State.ringRoom]; and_intros <;> decide +kernel

/-- A link up in L50A whose last REQ named pilot 32. -/
def wSink : State := (wLink .loconUp (some .l50a) true).modTow 0 (fun t => { t with reqS2 := some 32 })

/-- A SYNC cell. -/
def wSync (stepped : Bool) (t1 : Nat) : TimeSyncCell := { stepped := stepped, s1 := 64, t1 := t1, s2 := 32, t4t1 := 0 }

theorem test_witness_TimeTransfer :
    Wit wSink (fun s => s.clocked = true ∧ s.isSource 0 = true ∧ s.actsOn 0 wHdr ∧ (s.port 0).tow.reqS2.isSome = true ∧ s.ringRoom)
    ∧ Wit (wSink.setReg (regKey 2 0x09) 0x00000010) (fun s => s.clocked = true ∧ s.isSource 0 = false ∧ (s.port 0).loconRuns = true ∧ s.actsOn 0 wHdr
      ∧ (s.port 0).tow.reqS2 = some (wSync false 0).s2 ∧ (wSync false 0).stepped = false ∧ (wSync true 0).stepped = true ∧ (s.port 0).xferStep = false
      ∧ fld (s.act (regKey 2 0x09)) 8 5 = (0 : Fin 16).val
      ∧ 256000 < ((((512002 : Nat) : Int) - 0) / 2).natAbs ∧ ((((512000 : Nat) : Int) - 0) / 2).natAbs ≤ 256000)
    ∧ Wit (wLink .loconUp (some .l50a) true) (fun s => (s.port 0).tow.reqS2 ≠ some (wSync false 0).s2) := by
  simp only [Wit, State.actsOn, State.ringRoom]; and_intros <;> decide +kernel

/-! ### The link -/

/-- A capability cell of the partner: its role, its modes and its nonce. -/
def wCap (ack : Bool) (role : BitVec 2) (modes : BitVec 5) (nonce : BitVec 48) : CapCell :=
  { seq := 1, ack := ack, role := role, modes := modes, dir := 1, hop := true, through := true, precode := true, spreadOk := false, keyIdx := 0xFF
    rxMax := 1500, txMax := 1500, nonce := nonce, winExp := 13, oui := 0x123456 }

/-- A sounding with no reflection and the given loss and noise of every bin. -/
def wSnd (wide : Bool) (noise : Nat) : Sounding :=
  { wide := wide, cir := [], echo := [], delay := 0, loss := List.replicate 64 0, noise := List.replicate 64 noise, a := 0, b := 0, c := 0 }

/-- Port 0 in DISCOVER with POLICY as given and the nonce 5, holding a partner's cell or none. -/
def wDisc (policy : Word) (c : Option CapCell) : State :=
  ((wLink .discover none false).modTow 0 (fun t => { t with nonce := 5, partner := c })).setReg (regKey 0x10 0) policy

/-- Port 0 in SOUND as a leader with a partner. -/
def wSound (lead : Bool) (modes : BitVec 5) (miss : Nat) : State :=
  (wLink .sound none lead).modTow 0 (fun t => { t with partner := some (wCap true 0 modes 9), soundMiss := miss })

/-- What Clause 98 brings: the standard modes and the extended page. -/
def wPages (std : BitVec 6) (e : Option ExtPage) : AnPages := { std := std, eee := true, ext := e, master := true, msFault := false }

theorem test_witness_LinkStart :
    Wit ((wLink .an none false).modLink 0 (fun k => { k with pages := [.base 0x3F true 0, .message 0x123456, .unformatted 0] })) (fun s => s.steady 0
      ∧ (s.port 0).link.state = .an ∧ policyOf (s.policy 0) ≠ 2
      ∧ (if (wPages 3 none).msFault then none else highestStd ((s.port 0).link.sentBase.1 &&& (wPages 3 none).std)) ≠ none
      ∧ (if (wPages 0 none).msFault then none else highestStd ((s.port 0).link.sentBase.1 &&& (wPages 0 none).std)) = none
      ∧ (wPages 3 (some ⟨0x123457, 0⟩)).ext = some ⟨0x123457, 0⟩ ∧ (0x123457 : BitVec 24) ≠ s.oui 0
      ∧ (wPages 3 (some ⟨0x123456, 0⟩)).ext = some ⟨0x123456, 0⟩ ∧ (0x123456 : BitVec 24) = s.oui 0 ∧ (s.port 0).link.sentOui = some 0x123456)
    ∧ Wit ((wLink .an none false).setReg (regKey 0x10 0) 0x013F1F32) (fun s => s.steady 0 ∧ (s.port 0).link.state = .an ∧ policyOf (s.policy 0) = 2
      ∧ s.sendsExt 0 = true)
    ∧ Wit ((wLink .an none false).setReg (regKey 0x10 0) 0x013F0032) (fun s => s.steady 0 ∧ s.sendsExt 0 = false)
    ∧ Wit ((wLink .stdTrain none false).modLink 0 (fun k => { k with train := some .t25g })) (fun s => s.steady 0 ∧ (s.port 0).link.state = .stdTrain
      ∧ (s.port 0).link.train = some .t25g)
    ∧ Wit (wLink .stdUp (some .t100) false) (fun s => s.steady 0 ∧ (s.port 0).link.state = .stdUp)
    ∧ Wit (wDisc 0x013F1F31 (some (wCap true 0 31 9))) (fun s => s.steady 0 ∧ (s.port 0).link.state = .discover ∧ (s.port 0).tow.partner ≠ none
      ∧ policyOf (s.policy 0) = 1)
    ∧ Wit (wDisc 0x013F1F32 none) (fun s => (s.port 0).link.state = .discover ∧ policyOf (s.policy 0) = 2 ∧ (s.port 0).tow.partner = none)
    ∧ Wit (wDisc 0x013F1F30 none) (fun s => s.steady 0 ∧ (s.port 0).link.state = .discover ∧ policyOf (s.policy 0) = 0
      ∧ (wCap true 0 31 9).oui = s.oui 0 ∧ s.capAuth 0 (wCap true 0 31 9) 0 = true
      ∧ s.capAuth 0 { wCap true 0 31 9 with keyIdx := 0 } 0 = false
      ∧ (commonSet (s.policy 0) (wCap true 0 0 9) (wCap true 0 0 9).dir.toNat).isEmpty = true
      ∧ (commonSet (s.policy 0) (wCap true 0 31 9) (wCap true 0 31 9).dir.toNat).isEmpty = false
      ∧ resolveRole (roleOf (s.policy 0)) (wCap true 0 31 5).role.toNat (s.port 0).tow.nonce (wCap true 0 31 5).nonce = .tie
      ∧ resolveRole (roleOf (s.policy 0)) (wCap true 0 31 4).role.toNat (s.port 0).tow.nonce (wCap true 0 31 4).nonce = .leader
      ∧ resolveRole (roleOf (s.policy 0)) (wCap true 0 31 6).role.toNat (s.port 0).tow.nonce (wCap true 0 31 6).nonce = .follower
      ∧ ({ wCap true 0 31 9 with oui := 1 } : CapCell).oui ≠ s.oui 0)
    ∧ Wit (wDisc 0x053F1F30 none) (fun s => resolveRole (roleOf (s.policy 0)) (wCap true 1 31 9).role.toNat (s.port 0).tow.nonce (wCap true 1 31 9).nonce = .conflict)
    ∧ Wit (wSound false 31 0) (fun s => s.steady 0 ∧ (s.port 0).link.state = .sound ∧ (s.port 0).link.leader = false ∧ (s.port 0).tow.soundMiss = 0)
    ∧ Wit (wSound true 31 1) (fun s => s.steady 0 ∧ (s.port 0).link.leader = true ∧ (s.port 0).link.train = none ∧ (s.port 0).tow.soundMiss ≠ 0
      ∧ ((((s.newSounding 0 (wSnd true 0)).modTow 0 (fun w => { w with soundGot := true, snrDb10 := min 600 5 })).runDue 0).choose 0).1.isSome = true)
    ∧ Wit (wSound true 0 0) (fun s => ((((s.newSounding 0 (wSnd true 0)).modTow 0 (fun w => { w with soundGot := true, snrDb10 := min 600 5 })).runDue 0).choose 0).1
      = none) := by
  simp only [Wit, State.steady, State.freePort, State.unforced]; and_intros <;> decide +kernel

/-- Port 0 in a training state with the mode it trains. -/
def wTrain (st : LinkState) (m : LineMode) (lead : Bool) : State := (wLink st none lead).modLink 0 (fun k => { k with train := some m })

/-- A MODE cell. -/
def wMode (code : BitVec 4) : ModeCell := { code := code, precode := true, leaderSpread := false, followerMay := false, wideSf := 11, lchirpSf := 7 }

theorem test_witness_LinkTraining :
    Wit (wSound false 31 0) (fun s => s.steady 0 ∧ s.actsOn 0 wHdr ∧ modeOf (wMode (BitVec.ofNat 4 (modeCode .lchirp))).code.toNat = some .lchirp
      ∧ modeOf (wMode (BitVec.ofNat 4 (modeCode .l50a))).code.toNat = some .l50a ∧ (s.port 0).link.state = .sound ∧ (s.port 0).link.leader = false
      ∧ isLocon .lchirp = true ∧ isLocon .l50a = true)
    ∧ Wit (wLink .loconUp (some .l50a) false) (fun s => s.steady 0 ∧ s.actsOn 0 wHdr ∧ (s.port 0).link.state ≠ .sound)
    ∧ Wit (wTrain .echoLearn .l50a true) (fun s => s.steady 0 ∧ (s.port 0).link.state = .echoLearn ∧ (s.port 0).link.echoTurns = 0 ∧ (s.port 0).link.train = some .l50a
      ∧ ∀ k < 3, (s.port 0).link.lastFail ≠ some (.l50a, k))
    ∧ Wit ((wTrain .echoLearn .l50a true).modLink 0 (fun k => { k with echoTurns := 1, lastFail := some (.l50a, 2) })) (fun s => (s.port 0).link.state = .echoLearn
      ∧ (s.port 0).link.echoTurns ≠ 0 ∧ (s.port 0).link.lastFail = some (.l50a, 2) ∧ 3 ≤ 2 + 1)
    ∧ Wit (wTrain .fullDuplex .l50a true) (fun s => s.steady 0 ∧ (s.port 0).link.state = .fullDuplex ∧ (s.port 0).link.train = some .l50a
      ∧ (s.port 0).link.leader = true ∧ (s.port 0).link.blocksOn = false ∧ (s.port 0).tablesReady .l50a = true ∧ (s.port 0).tow.goCount = none)
    ∧ Wit (wTrain .fullDuplex .ldmt true) (fun s => s.steady 0 ∧ (s.port 0).link.state = .fullDuplex ∧ (s.port 0).link.train = some .ldmt
      ∧ (s.port 0).link.leader = true ∧ (s.port 0).link.blocksOn = false ∧ (s.port 0).tablesReady .ldmt = false)
    ∧ Wit ((wTrain .fullDuplex .l50a true).modLink 0 (fun k => { k with blocksOn := true })) (fun s => s.steady 0 ∧ (s.port 0).link.blocksOn = true)
    ∧ Wit (((wTrain .fullDuplex .l50a false).modTow 0 (fun t => { t with goCount := some (7, true) })).modTx 0 (fun t => { t with train := some ⟨0, true, none⟩ })) (fun s =>
        (s.port 0).link.leader = false ∧ (s.port 0).link.blocksOn = false ∧ (s.port 0).tx.train = some ⟨0, true, none⟩
      ∧ (s.port 0).tow.goCount = some (7, true) ∧ s.actsOn 0 wHdr ∧ s.goOk 0 ⟨7, 0, 5⟩ = true ∧ s.goOk 0 ⟨0, 0, 5⟩ = false)
    ∧ Wit ((wTrain .fullDuplex .l50a true).modTow 0 (fun t => { t with goCount := some (7, false) })) (fun s => (s.port 0).tow.goCount = some (7, false)
      ∧ (s.port 0).link.blocksOn = false)
    ∧ Wit (wTrain .stdTrain .t1000 true) (fun s => s.steady 0 ∧ (s.port 0).link.state = .stdTrain)
    ∧ Wit { (wLink .hold none false).setReg (regKey 0x10 1) 0x100 with clk := { reach := Vector.replicate 4 ⟨.locked, 2⟩ } } (fun s => s.steady 0
      ∧ (s.port 0).link.state = .hold ∧ s.blocker 0 = none ∧ s.enabled 0 = true ∧ s.patternAct 0 = 0 ∧ s.forced 0 = none)
    ∧ Wit { wLink .hold none false with clk := { reach := Vector.replicate 4 ⟨.locked, 2⟩ } } (fun s => s.steady 0
      ∧ (s.port 0).link.state = .hold ∧ s.blocker 0 = none ∧ s.enabled 0 = false)
    ∧ Wit (wLink .hold none false) (fun s => s.steady 0 ∧ (s.port 0).link.state = .hold ∧ s.blocker 0 ≠ none)
    ∧ Wit (wLink .loconUp (some .l50a) true) (fun s => s.steady 0 ∧ (s.port 0).quiet.state ≠ .deep)
    ∧ Wit ((wLink .shift (some .l50a) true).modQuiet 0 (fun q => { q with state := .deep })) (fun s => s.steady 0 ∧ (s.port 0).link.state = .shift
      ∧ (s.port 0).quiet.state = .deep) := by
  simp only [Wit, State.steady, State.freePort, State.unforced, State.actsOn]; and_intros <;> decide +kernel

/-- Port 0 up in a mode with a partner that supports every mode, its ladder counts as given. -/
def wLadder (m : LineMode) (lead : Bool) (l : Ladder) : State :=
  ((wLink .loconUp (some m) lead).modTow 0 (fun t => { t with partner := some (wCap true 0 31 9), snd := some (wSnd true 3000) })).modLink 0
    (fun k => { k with ladder := l, dirPartner := 1 })

/-- Port 0 in a shift. -/
def wShift (sh : ShiftRec) (lead : Bool) : State :=
  ((wLink .shift (some .l50a) lead).modTow 0 (fun t => { t with partner := some (wCap true 0 31 9) })).modLink 0 (fun k => { k with shift := some sh, dirPartner := 1 })

/-- A shift record. -/
def wRec (target : LineMode) (kind : Nat) (acked retrained : Bool) : ShiftRec :=
  { left := .l50a, target := target, kind := kind, acked := acked, retrained := retrained, touched := [], started := 0 }

/-- A SHIFT cell. -/
def wCell (target : BitVec 4) (kind : BitVec 2) : ShiftCell := { target := target, kind := kind, dir := 1, sf := 11 }

/-- A millisecond without a symbol, which leaves the figure as it was. -/
def wLine : LineMeasure := { snrDb10 := 170, symbols := [] }

/-- The figure of the update after that millisecond. -/
def wFig (s : State) (m : LineMode) : Nat := if m = .lchirp then min 600 wLine.snrDb10 else (s.measure 0 wLine).1.getD (s.port 0).link.ladder.mse

theorem test_witness_LadderAndShifts :
    Wit (wLadder .l50a true { settle := 2 }) (fun s => s.steady 0 ∧ (s.port 0).link.asked = none ∧ (s.port 0).link.state = .loconUp
      ∧ (s.port 0).link.modeAct = some .l50a ∧ (s.port 0).quiet.state = .active ∧ 0 < (s.port 0).link.ladder.settle)
    ∧ Wit (wLadder .l50a true { below := 7, mse := 169 }) (fun s => (s.port 0).link.asked = none ∧ (s.port 0).link.ladder.settle = 0 ∧ isPam .l50a = true
      ∧ s.holdsForced 0 = false ∧ (s.port 0).quiet.pend = none ∧ (s.port 0).link.shift = none ∧ (wFig s .l50a : Int) < dwellThr .l50a + thrAdj (s.portReg 0 5)
      ∧ dnDwell (s.portReg 0 5) ≤ (s.port 0).link.ladder.below + 1 ∧ downEn (s.policy 0) = true ∧ (s.port 0).link.leader = true)
    ∧ Wit (wLadder .l50a true { below := 7, mse := 170 }) (fun s => dwellThr .l50a + thrAdj (s.portReg 0 5) ≤ (wFig s .l50a : Int))
    ∧ Wit ((wLadder .l50a false { below := 7, mse := 169 }).modLink 0 (fun k => { k with downs := [(.l50a, 0), (.l50a, 0)] })) (fun s =>
        (s.port 0).link.leader = false ∧ 2 ≤ downsOf (s.port 0).link .l50a s.ticks)
    ∧ Wit (wLadder .l25s true { above := 1999, mse := 300 }) (fun s => (s.port 0).link.asked = none ∧ dwellThr .l25s + thrAdj (s.portReg 0 5) ≤ (wFig s .l25s : Int)
      ∧ s.upTarget 0 .l25s = some .l50a ∧ s.meetsEntry 0 .l50a = true ∧ upDwell (s.portReg 0 5) ≤ (s.port 0).link.ladder.above + 1 ∧ upEn (s.policy 0) = true
      ∧ s.upRefused 0 .l50a = false)
    ∧ Wit (wLadder .l50a false {}) (fun s => s.steady 0 ∧ s.actsOn 0 wHdr ∧ modeOf (wCell (BitVec.ofNat 4 (modeCode .l25s)) 0).target.toNat = some .l25s
      ∧ isLocon .l25s = true ∧ (s.port 0).link.modeAct ≠ none ∧ (s.port 0).quiet.pend = none ∧ (s.port 0).link.state = .loconUp ∧ (s.port 0).link.leader = false
      ∧ modeOf (wCell 15 0).target.toNat = none)
    ∧ Wit (wLadder .l25s true {}) (fun s => s.actsOn 0 wHdr ∧ (s.port 0).link.leader = true ∧ (s.port 0).quiet.state = .active ∧ (s.port 0).link.shift = none
      ∧ (wCell 7 3).kind = 3 ∧ (wCell 7 1).kind ≠ 3
      ∧ (true = (((s.port 0).link.dirPartner != (wCell 7 1).dir && (s.port 0).link.modeAct == some .l50a && (wCell 7 1).kind == 0)
        || (((s.modLink 0 (fun l => { l with dirPartner := (wCell 7 1).dir })).common 0).contains .l50a
          && (if (wCell 7 1).kind = 1 then upEn (s.policy 0) && !s.upRefused 0 .l50a else if (wCell 7 1).kind = 0 then downEn (s.policy 0) else true))))
      ∧ (false = (((s.port 0).link.dirPartner != (wCell 7 0).dir && (s.port 0).link.modeAct == some .l50a && (wCell 7 0).kind == 0)
        || (((s.modLink 0 (fun l => { l with dirPartner := (wCell 7 0).dir })).common 0).contains .t100
          && (if (wCell 7 0).kind = 1 then upEn (s.policy 0) && !s.upRefused 0 .t100 else if (wCell 7 0).kind = 0 then downEn (s.policy 0) else true)))))
    ∧ Wit (wShift (wRec .l25s 0 true false) true) (fun s => s.steady 0 ∧ (s.port 0).link.state = .shift ∧ (s.port 0).link.shift = some (wRec .l25s 0 true false)
      ∧ below (s.common 0) .l25s = [.l10x, .ldmt, .lchirp] ∧ (s.port 0).link.modeAct ≠ none ∧ (s.port 0).link.leader = true)
    ∧ Wit (wShift (wRec .l25s 2 true true) false) (fun s => (wRec .l25s 2 true true).retrained = true ∧ (s.port 0).link.leader = false)
    ∧ Wit (wShift (wRec .l25s 2 true false) false) (fun s => rung (wRec .l25s 2 true false).left < rung (wRec .l25s 2 true false).target
      ∧ below (s.common 0) .l25s ≠ [] ∧ (s.port 0).link.leader = false ∧ (wRec .l25s 2 true false).left ≠ (wRec .l25s 2 true false).target)
    ∧ Wit (wShift { wRec .l25s 2 true false with left := .l10x } true) (fun s => rung .l25s < rung .l10x ∧ (s.port 0).link.modeAct ≠ none ∧ (s.port 0).link.leader = true)
    ∧ Wit (wShift (wRec .l50a 2 true false) true) (fun s => (s.port 0).link.shift = some (wRec .l50a 2 true false) ∧ (wRec .l50a 2 true false).left = .l50a)
    ∧ Wit (((wShift (wRec .ldmt 0 true false) true).modDmt 0 (fun d => { d with sent := some ({ bits := [], b := 300, i := 1 }, 0), validGot := true })).modTx 0
        (fun t => { t with train := some ⟨0, true, some 1⟩ })) (fun s => (s.port 0).link.shift = some (wRec .ldmt 0 true false) ∧ (s.port 0).tx.negated = true
      ∧ (s.port 0).tablesReady .ldmt = true)
    ∧ Wit ((wShift (wRec .l50a 0 false false) true).modTow 0 (fun t => { t with partner := some (wCap true 0 1 9) })) (fun s =>
        below (s.common 0) .l50a = [] ∧ (s.port 0).link.shift = some (wRec .l50a 0 false false))
    ∧ Wit (wShift (wRec .lchirp 0 true false) true) (fun s => (wRec .lchirp 0 true false).target = .lchirp ∧ (s.port 0).link.blocksOn = false)
    ∧ Wit ((wLink .loconUp (some .l50a) true).modQuiet 0 (fun q => { q with state := .entering, listening := true })) (fun s => s.steady 0
      ∧ (s.port 0).link.state = .loconUp ∧ (s.port 0).quiet.state = .entering ∧ (s.port 0).quiet.listening = true) := by
  simp only [Wit, State.steady, State.freePort, State.unforced, State.actsOn]; and_intros <;> decide +kernel

/-- Port 0 up in a mode, with one cell that waits for its CACK. -/
def wAwait (type : Byte) (payload : List Byte) (sends : Nat) (st : LinkState) : State :=
  (wLink st (some .l50a) true).modTow 0 (fun t => { t with await := [⟨5, ⟨type, 0, payload⟩, [], sends, false⟩] })

/-- The cell of that state. -/
def wAwaited (type : Byte) (payload : List Byte) (sends : Nat) : AwaitCell := ⟨5, ⟨type, 0, payload⟩, [], sends, false⟩

theorem test_witness_TowpathCells :
    Wit ((wAwait 2 [] 1 .sound).modLink 0 (fun k => { k with train := some .l50a })) (fun s => s.steady 0 ∧ s.actsOn 0 wHdr
      ∧ (s.port 0).tow.await.find? (fun a => a.counter == 5 && a.cell.type == 2) = some (wAwaited 2 [] 1) ∧ (s.port 0).link.state = .sound
      ∧ (s.port 0).link.train = some .l50a)
    ∧ Wit ((wAwait 3 [] 1 .fullDuplex).modTow 0 (fun t => { t with goCount := some (9, false) })) (fun s =>
        (s.port 0).tow.await.find? (fun a => a.counter == 5 && a.cell.type == 3) = some (wAwaited 3 [] 1) ∧ (s.port 0).tow.goCount = some (9, false))
    ∧ Wit ((wAwait 4 [] 1 .shift).modLink 0 (fun k => { k with shift := some (wRec .l25s 0 false false) })) (fun s => s.actsOn 0 wHdr
      ∧ (s.port 0).tow.await.find? (fun a => a.counter == 5 && a.cell.type == 4) = some (wAwaited 4 [] 1)
      ∧ (s.port 0).link.shift = some (wRec .l25s 0 false false) ∧ (wRec .l25s 0 false false).acked = false
      ∧ (s.port 0).tow.await.all (fun a => a.cell.type != 4 || a.counter == 5) = true ∧ (s.port 0).tow.ready = [])
    ∧ Wit (wWait (.remote 0 7 true) (wAwait 7 [0, 1, 0, 7] 1 .loconUp)) (fun s => s.actsOn 0 wHdr
      ∧ (s.port 0).tow.await.find? (fun a => a.counter == 5 && a.cell.type == 7) = some (wAwaited 7 [0, 1, 0, 7] 1)
      ∧ ((wAwaited 7 [0, 1, 0, 7] 1).cell.payload.getD 1 0).getLsbD 0 = true
      ∧ s.waiting (isRemote 0 (BitVec.ofNat 16 (beAt (wAwaited 7 [0, 1, 0, 7] 1).cell.payload 2 2)) true) = some 2)
    ∧ Wit ((wAwait 10 [] 1 .loconUp).modTow 0 (fun t => { t with tpsf := some ⟨9, false, 64, false⟩ })) (fun s =>
        (s.port 0).tow.await.find? (fun a => a.counter == 5 && a.cell.type == 10) = some (wAwaited 10 [] 1) ∧ (s.port 0).tow.tpsf = some ⟨9, false, 64, false⟩)
    ∧ Wit ((wAwait 11 [] 1 .loconUp).modTow 0 (fun t => { t with newNonce := some 77 })) (fun s =>
        (s.port 0).tow.await.find? (fun a => a.counter == 5 && a.cell.type == 11) = some (wAwaited 11 [] 1) ∧ (s.port 0).tow.newNonce = some 77)
    ∧ Wit (wWait (.remote 0 7 false) (wAwait 7 [0, 0, 0, 7] 8 .loconUp)) (fun s => s.steady 0
      ∧ (s.port 0).tow.await.find? (fun a => a.counter == 5) = some (wAwaited 7 [0, 0, 0, 7] 8) ∧ (wAwaited 7 [0, 0, 0, 7] 8).due = false
      ∧ (wAwaited 7 [0, 0, 0, 7] 8).cell.type ≠ 9 ∧ 8 ≤ (wAwaited 7 [0, 0, 0, 7] 8).sends ∧ s.ringSpace ∧ (wAwaited 2 [] 7).sends < 8
      ∧ s.waiting (isRemote 0 (BitVec.ofNat 16 (beAt (wAwaited 7 [0, 0, 0, 7] 8).cell.payload 2 2)) (((wAwaited 7 [0, 0, 0, 7] 8).cell.payload.getD 1 0).getLsbD 0)) = some 2)
    ∧ Wit (((wAwait 9 [0x10] 1 .loconUp).modTow 0 (fun t => { t with symCount := 1 })).modQuiet 0 (fun q => { q with state := .quiet })) (fun s => s.steady 0
      ∧ (s.port 0).tow.await.find? (fun a => a.counter == 5) = some (wAwaited 9 [0x10] 1) ∧ (wAwaited 9 [0x10] 1).due = false
      ∧ beAt (wAwaited 9 [0x10] 1).cell.payload 0 1 / 16 = 1 ∧ ahead (BitVec.ofNat 32 (beAt (wAwaited 9 [0x10] 1).cell.payload 5 4)) (s.port 0).tow.symCount = false
      ∧ (s.port 0).quiet.state = .quiet ∧ (s.port 0).link.leader = true)
    ∧ Wit wRun (fun s => ((s.port 0).tow.await.find? (fun a => a.counter == (5 : Word))).all (fun e => e.due) = true
      ∧ (s.port 0).tow.await.find? (fun a => a.counter == (5 : Word) && a.cell.type == (2 : Byte)) = none ∧ (s.port 0).hears = false ∧ (s.port 0).tow.tpsf = none)
    ∧ Wit ((wLink .loconUp (some .l50a) true).modTow 0 (fun t => { t with macFails := [0, 0, 0, 0, 0, 0, 0] })) (fun s => s.steady 0 ∧ (s.port 0).hears = true
      ∧ 8 ≤ ((s.port 0).tow.macFails.filter (fun t => decide (s.ticks < t + secTicks 1)) ++ [s.ticks]).length)
    ∧ Wit ((wLink .loconUp (some .l50a) true).modTow 0 (fun t => { t with macFails := [0, 0, 0, 0, 0, 0] })) (fun s => s.ringSpace
      ∧ ((s.port 0).tow.macFails.filter (fun t => decide (s.ticks < t + secTicks 1)) ++ [s.ticks]).length < 8)
    ∧ Wit ((wLink .loconUp (some .l50a) false).modTow 0 (fun t => { t with tpsf := some ⟨9, false, 64, true⟩ })) (fun s => s.actsOn 0 wHdr
      ∧ (s.port 0).link.leader = false ∧ (s.port 0).tow.tpsf = some ⟨9, false, 64, true⟩)
    ∧ Wit ((wLink .loconUp (some .l50a) true).modTow 0 (fun t => { t with tpsf := some ⟨9, false, 64, false⟩ })) (fun s => s.actsOn 0 wHdr
      ∧ (s.port 0).link.leader = true ∧ (s.port 0).tow.tpsf = some ⟨9, false, 64, false⟩)
    ∧ Wit ((wLink .loconUp (some .l50a) true).modTow 0 (fun t => { t with keyInUse := some 3, txCtr := 0xFFFF0000 })) (fun s => (s.port 0).tow.keyInUse ≠ none
      ∧ 0xFFFF0000 ≤ (s.port 0).tow.txCtr.toNat ∧ (s.port 0).tow.newNonce = none ∧ (s.port 0).hears = true
      ∧ ((s.runDue 0).port 0).tow.pick (s.port 0).inLchirp = .idle)
    ∧ Wit ((wLink .loconUp (some .l50a) true).modTow 0 (fun t => { t with await := [⟨5, ⟨7, 0, []⟩, [], 1, true⟩] })) (fun s => (s.port 0).hears = true
      ∧ ((s.runDue 0).port 0).tow.pick (s.port 0).inLchirp = .again ⟨5, ⟨7, 0, []⟩, [], 1, true⟩)
    ∧ Wit ((wLink .loconUp (some .l50a) true).modTow 0 (fun t => { t with ready := [⟨7, 0, []⟩] })) (fun s => cellWantsAck 7 = true
      ∧ ((s.runDue 0).port 0).tow.pick (s.port 0).inLchirp = .fresh 0 ⟨7, 0, []⟩)
    ∧ Wit ((wLink .loconUp (some .lchirp) true).modTow 0 (fun t => { t with blkAsm := some ([], 18) })) (fun s => s.steady 0 ∧ (s.port 0).inLchirp = true
      ∧ (s.port 0).tow.blkAsm = some ([], 18) ∧ 18 ≠ 0 ∧ 18 ≠ 19 ∧ ((s.port 0).tow.blkAsm.all (fun e => e.2 != 17)) = true)
    ∧ Wit ((wLink .loconUp (some .lchirp) true).modTow 0 (fun t => { t with blkAsm := some ([], 19) })) (fun s => s.steady 0 ∧ (s.port 0).inLchirp = true
      ∧ (s.port 0).tow.blkAsm = some ([], 19)) := by
  simp only [Wit, State.steady, State.freePort, State.unforced, State.actsOn, State.ringSpace]; and_intros <;> decide +kernel

/-- A REMOTE cell on tag 1. -/
def wRem (arg : BitVec 128) : RemoteCell := { op := 1, reqId := 7, tag := 1, status := 0, arg := arg }

theorem test_witness_RemoteCells :
    Wit (wBasin (wUp true) [wQueue 1 true .none] []) (fun s => s.clocked = true ∧ s.actsOn 0 wHdr ∧ s.tagOpen 0 (wRem 0).tag = true
      ∧ argByte0 (wRem 0).arg % 2 = 0 ∧ argByte0 (wRem (1 <<< 120)).arg % 2 = 1 ∧ (s.port 0).remoteRuns = true ∧ s.ringSpace)
    ∧ Wit (wWait (.remote 0 7 false) (wUp true)) (fun s => s.tagOpen 0 (wRem 0).tag = false ∧ s.waiting (isRemote 0 (wRem 0).reqId false) = some 2) := by
  simp only [Wit, State.actsOn, State.ringSpace]; and_intros <;> decide +kernel

/-- A QUIET cell. -/
def wQuiet (deep : Bool) : QuietCell := { deep := deep, entry := 64, xq := 64, xchip := 0, dur := 0, qsf := 9 }

/-- Port 0 up with the quiet record given. -/
def wQ (lead : Bool) (q : Quiet) : State := (wLink .loconUp (some .l50a) lead).modQuiet 0 (fun _ => q)

theorem test_witness_QuietRows :
    Wit { wLink .loconUp (some .l50a) true with time := { wRun.time with cal := [(5, wEntry .quiet subNs (some (subNs * 1000000)))] } } (fun s => s.steady 0
      ∧ (s.port 0).quiet.state = .active ∧ (s.port 0).quiet.pend = none ∧ s.quietEntry 0 = some (5, wEntry .quiet subNs (some (subNs * 1000000)))
      ∧ s.skipCause 0 ((wEntry .quiet subNs (some (subNs * 1000000))).lenPs.getD 0) = none)
    ∧ Wit (wLink .loconUp (some .l50a) false) (fun s => s.quietEntry 0 = none ∧ s.actsOn 0 wHdr ∧ s.enterOk 0 (wQuiet false) = true
      ∧ s.enterOk 0 { wQuiet false with entry := 0 } = false)
    ∧ Wit (wQ false { state := .quiet }) (fun s => s.steady 0 ∧ s.actsOn 0 wHdr ∧ (s.port 0).quiet.state = .quiet ∧ (s.port 0).link.leader = false
      ∧ ahead (wQuiet false).xq (s.port 0).tow.symCount = true)
    ∧ Wit (wQ true { pend := some (wQuiet true, true) }) (fun s => (s.port 0).quiet.pend = some (wQuiet true, true))
    ∧ Wit (wQ true { pend := some (wQuiet false, false) }) (fun s => (s.port 0).quiet.pend = some (wQuiet false, false) ∧ (s.port 0).link.leader = true ∧ s.ringRoom)
    ∧ Wit (wQ false { pend := some (wQuiet false, false) }) (fun s => (s.port 0).quiet.pend = some (wQuiet false, false) ∧ (s.port 0).link.leader = false)
    ∧ Wit (wQ false { state := .deep }) (fun s => (s.port 0).quiet.state = .deep ∧ (s.port 0).link.leader = false)
    ∧ Wit (wQ false { state := .entering, listening := true }) (fun s => (s.port 0).quiet.state = .entering ∧ (s.port 0).quiet.listening = true
      ∧ (s.port 0).link.leader = false)
    ∧ Wit ((wLink .stdUp (some .t1000) true).modQuiet 0 (fun q => { q with eee := true })) (fun s => s.steady 0 ∧ (s.port 0).link.state = .stdUp
      ∧ (s.port 0).quiet.eee = true ∧ s.outWaiting 0 = false)
    ∧ Wit (wBasin ((wLink .stdUp (some .t1000) true).modQuiet 0 (fun q => { q with eee := true })) [wQueue 1 true .none]
        [{ id := 0, queue := 1, outbound := true, state := .queued }]) (fun s => s.outWaiting 0 = true) := by
  simp only [Wit, State.steady, State.freePort, State.unforced, State.actsOn, State.ringRoom]; and_intros <;> decide +kernel

/-- A sounding whose echo has one strong tap, and one whose echo is flat. -/
def wEcho (strong : Bool) : Sounding := { wSnd true 0 with echo := if strong then List.replicate 600 0 ++ [100] else List.replicate 600 1 }

/-- Port 0 up in L10X with that sounding and its first cluster placed at 512. -/
def wCluster (strong : Bool) : State :=
  ((wLink .loconUp (some .l10x) true).modTow 0 (fun t => { t with snd := some (wEcho strong) })).modRx 0 (fun r => { r with clusters := 512 :: List.replicate 7 2556, parked := 0xFE })

/-- The best of a list by its second part is one of the list, and none of the list is better. -/
theorem bestBy_greatest (l : List (Nat × Nat)) (h : l ≠ []) :
    ∃ r ∈ l, bestBy (fun (a b : Nat × Nat) => decide (b.2 < a.2)) l = some r ∧ ∀ x ∈ l, x.2 ≤ r.2 := by
  cases l with
  | nil => exact absurd rfl h
  | cons a t =>
    have key : ∀ (t : List (Nat × Nat)) (b : Nat × Nat),
        (t.foldl (fun b x => if decide (b.2 < x.2) = true then x else b) b) ∈ b :: t
        ∧ b.2 ≤ (t.foldl (fun b x => if decide (b.2 < x.2) = true then x else b) b).2
        ∧ ∀ x ∈ t, x.2 ≤ (t.foldl (fun b x => if decide (b.2 < x.2) = true then x else b) b).2 := by
      intro t
      induction t with
      | nil => intro b; simp
      | cons y t ih =>
        intro b
        simp only [List.foldl_cons]
        split
        next hlt =>
          obtain ⟨h1, h2, h3⟩ := ih y
          have := of_decide_eq_true hlt
          refine ⟨List.mem_cons_of_mem _ h1, by omega, ?_⟩
          intro x hx
          rcases List.mem_cons.1 hx with rfl | hx
          · exact h2
          · exact h3 x hx
        next hge =>
          obtain ⟨h1, h2, h3⟩ := ih b
          simp only [decide_eq_true_eq, not_lt] at hge
          refine ⟨?_, h2, ?_⟩
          · rcases List.mem_cons.1 h1 with h1 | h1
            · rw [h1]; exact List.mem_cons_self ..
            · exact List.mem_cons_of_mem _ (List.mem_cons_of_mem _ h1)
          · intro x hx
            rcases List.mem_cons.1 hx with rfl | hx
            · omega
            · exact h3 x hx
    obtain ⟨h1, h2, h3⟩ := key t a
    refine ⟨_, h1, rfl, ?_⟩
    intro x hx
    rcases List.mem_cons.1 hx with rfl | hx
    · exact h2
    · exact h3 x hx

/-- The free windows of the witnesses' placement: those that do not touch the cluster at 512 and may be used. -/
theorem strongest_of_one (r : RxPath) (echo : List (BitVec 16)) (hp : r.placed = [(0, 512)]) (u : Nat) (h1 : 516 ≤ u) (h2 : u < 2557)
    (hu : windowUsed echo (windowEnergy .l10x echo u) = true) :
    ∃ w f, r.strongestFree .l10x echo = some (w, f) ∧ f = windowEnergy .l10x echo w ∧ windowEnergy .l10x echo u ≤ f := by
  have hm : (u, windowEnergy .l10x echo u) ∈ ((((List.range 2045).map (· + 512)).filter (fun w => [(0, 512)].all (fun (e : Nat × Nat) =>
      decide (e.2 + 4 ≤ w ∨ w + 4 ≤ e.2)))).map (fun w => (w, windowEnergy .l10x echo w))).filter (fun e => windowUsed echo e.2) := by
    refine List.mem_filter.2 ⟨List.mem_map.2 ⟨u, List.mem_filter.2 ⟨List.mem_map.2 ⟨u - 512, List.mem_range.2 (by omega), by omega⟩, ?_⟩, rfl⟩, hu⟩
    simp only [List.all_cons, List.all_nil, Bool.and_true, decide_eq_true_eq]
    omega
  obtain ⟨b, hb, he, hg⟩ := bestBy_greatest _ (List.ne_nil_of_mem hm)
  obtain ⟨w, _, hw⟩ := List.mem_map.1 (List.mem_filter.1 hb).1
  refine ⟨b.1, b.2, ?_, ?_, hg _ hm⟩
  · simp only [RxPath.strongestFree, hp]
    exact he
  · rw [← hw]

/-- A sum of terms of at most one is at most its number of terms. -/
theorem foldl_le (g : Nat → Nat) (h : ∀ k, g k ≤ 1) : ∀ (l : List Nat) (acc : Nat), l.foldl (fun a k => a + g k) acc ≤ acc + l.length
  | [], _ => Nat.le_refl _
  | x :: l, acc => by
    have := foldl_le g h l (acc + g x)
    have := h x
    simp only [List.foldl_cons, List.length_cons]
    omega

/-- No window of a flat echo of ones has more than four. -/
theorem flat_energy (w : Nat) : windowEnergy .l10x (wEcho false).echo w ≤ 4 := by
  have h1 : ∀ n, ((wEcho false).echo.getD n 0).toInt.natAbs ^ 2 ≤ 1 := by
    intro n
    simp only [wEcho, Bool.false_eq_true, if_false, List.getD_eq_getElem?_getD, List.getElem?_replicate]
    split <;> decide
  have h2 := foldl_le (fun k => ((wEcho false).echo.getD (64 + (w + k) * stepFs .l10x / 666667) 0).toInt.natAbs ^ 2) (fun k => h1 _) (List.range 4) 0
  rw [List.length_range, Nat.zero_add] at h2
  exact h2

theorem test_witness_floating_clusters :
    Wit (wCluster true) (fun s => (s.port 0).link.state = .loconUp ∧ (s.port 0).link.modeAct = some .l10x ∧ isPam .l10x = true ∧ (s.port 0).tow.snd = some (wEcho true)
      ∧ (wEcho true).wide = true ∧ (s.port 0).quiet.state = .active ∧ bit (s.portReg 0 0x30) 4 = true ∧ s.frozen 0 4 = false
      ∧ (s.port 0).rx.weakest .l10x (wEcho true).echo = some (0, 0)
      ∧ ∃ w f, (s.port 0).rx.strongestFree .l10x (wEcho true).echo = some (w, f) ∧ 0 * 39810717056 ≤ f * 10 ^ 10 ∧ 0 < f)
    ∧ Wit (wCluster false) (fun s => (s.port 0).rx.weakest .l10x (wEcho false).echo = some (0, 4)
      ∧ ∃ w f, (s.port 0).rx.strongestFree .l10x (wEcho false).echo = some (w, f) ∧ f * 10 ^ 10 < 4 * 39810717056) := by
  simp only [Wit]
  obtain ⟨w, f, h1, -, h2⟩ := strongest_of_one ((wCluster true).port 0).rx (wEcho true).echo (by decide +kernel) (536 * 666667 / stepFs .l10x)
    (by decide +kernel) (by decide +kernel) (by decide +kernel)
  obtain ⟨w', f', h1', hf, -⟩ := strongest_of_one ((wCluster false).port 0).rx (wEcho false).echo (by decide +kernel) 516
    (by decide +kernel) (by decide +kernel) (by decide +kernel)
  have hs : 0 < windowEnergy .l10x (wEcho true).echo (536 * 666667 / stepFs .l10x) := by decide +kernel
  rw [h1, h1']
  refine ⟨⟨?_, ?_, ?_, ?_, ?_, ?_, ?_, ?_, ?_, w, f, rfl, ?_, lt_of_lt_of_le hs h2⟩, ?_, w', f', rfl, ?_⟩
  iterate 9 decide +kernel
  · omega
  · decide +kernel
  · have := flat_energy w'
    omega

/-- Reach 0 with AUTO and every port in group 1, its paths used or free. -/
def wXt (used : Bool) : State :=
  (wRun.setReg (regKey 8 0x20) 0x755).modReach 0 (fun r => { r with paths := Vector.replicate 12 (if used then { used := true, fext := true, victim := 3, aggr := 2, coupling := 90 } else {}) })

theorem test_witness_ReceiveRows :
    Wit (wLink .loconUp (some .l50a) true) (fun s => s.clocked = true ∧ (s.port 0).link.state = .loconUp ∧ (s.port 0).hears = true)
    ∧ Wit (wTrain .echoLearn .l50a true) (fun s => bit (s.portReg 0 0x30) 8 = true ∧ (s.port 0).learnsGain = true ∧ 80 < 81 ∧ 69 < 70 ∧ 70 ≤ 70 ∧ 80 ≤ 80)
    ∧ Wit wRun (fun s => (s.port 0).learnsGain = false)
    ∧ Wit (wXt false) (fun s => bit (s.xtCtrl 0) 8 = true ∧ ((portsOf 0).any (fun q => (s.port q).link.state == .shift)) = false
      ∧ xtAllowed (s.xtCtrl 0) true 0 1 = true ∧ 100 ≤ 100 ∧ (∀ k, ((s.reach 0).paths.get k).carries (true, 0, 1, 100) = false) ∧ s.freePath 0 = some 0)
    ∧ Wit (wXt true) (fun s => s.freePath 0 = none ∧ s.weakestPath 0 = some 0 ∧ 84 + 6 ≤ ((s.reach 0).paths.get 0).coupling.toNat
      ∧ ((s.reach 0).paths.get 0).coupling.toNat < 85 + 6 ∧ (∀ k, ((s.reach 0).paths.get k).carries (true, 0, 1, 84) = false))
    ∧ Wit (wRun.setReg (regKey 8 0x20) 0x655) (fun s => bit (s.xtCtrl 0) 8 = false) := by
  simp only [Wit]; and_intros <;> decide +kernel

/-- A loading of 30 carriers of 10 bits, B = 300. -/
def wLoading : Loading := { bits := List.replicate 30 10, b := 300, i := 1 }

/-- The bytes of its table message before the CRC. -/
def wBody (a : Word) : List Byte := [0x01, 1] ++ bytesBE 2 300 ++ bytesBE 4 a.toNat ++ nibbles ((List.range 2044).map (fun k => wLoading.bits.getD k 0))

theorem body_length (a : Word) : (wBody a).length = 1030 := by
  have h : (nibbles (List.map (fun k => wLoading.bits.getD k 0) (List.range 2044))).length = 1022 := by decide +kernel
  simp only [wBody, List.length_append, h]
  rfl

theorem table_of_body (a : Word) (c : List Byte) : tableOf (wBody a ++ c) = tableOf (wBody a) := by
  have hl := body_length a
  have hb : ∀ i n, i + n ≤ 1030 → beAt (wBody a ++ c) i n = beAt (wBody a) i n := by
    intro i n h
    simp only [beAt]
    refine congrArg beVal (List.map_congr_left (fun k hk => ?_))
    have := List.mem_range.1 hk
    rw [List.getD_append _ _ _ _ (by omega)]
  simp only [tableOf, hb _ _ (show 1 + 1 ≤ 1030 by omega), hb _ _ (show 2 + 2 ≤ 1030 by omega), hb _ _ (show 4 + 4 ≤ 1030 by omega)]
  rw [List.drop_append_of_le_length (by omega), List.take_append_of_le_length (by rw [List.length_drop]; omega), List.getD_append _ _ _ _ (by omega)]

theorem body_fields : tableOf (wBody 300) = { ver := 1, i := 1, b := 300, a := 300, bits := List.replicate 30 10 ++ List.replicate 2014 0 } := by decide +kernel

theorem sum_zeros (n a : Nat) : (List.replicate n 0).foldl (· + ·) a = a := by
  induction n generalizing a with
  | zero => rfl
  | succ n ih => rw [List.replicate_succ, List.foldl_cons, ih, Nat.add_zero]

theorem table_valid : tableValid (tableBytes wLoading 300) = true := by
  have hb : tableBytes wLoading 300 = wBody 300 ++ crcBytes (crc32 (wBody 300)) := rfl
  have hc : decide ((tableBytes wLoading 300).drop 1030 = crcBytes (crc32 ((tableBytes wLoading 300).take 1030))) = true := by
    rw [hb, List.drop_left' (body_length 300), List.take_left' (body_length 300)]
    exact decide_eq_true rfl
  rw [hb] at hc
  simp only [tableValid, hb, hc, Bool.true_and, table_of_body, body_fields, List.map_append, List.map_replicate, List.foldl_append]
  rw [show BitVec.toNat (0 : BitVec 4) = 0 from rfl, sum_zeros, List.all_append, List.all_replicate, List.all_replicate]
  have h1 : loadingFits 300 1 = true := by decide +kernel
  have h2 : (List.foldl (· + ·) 0 (List.replicate 30 (BitVec.toNat (10 : BitVec 4)))) = 300 := by decide +kernel
  have h3 : ((List.range 16).all (fun k => (List.replicate 30 (10 : BitVec 4) ++ List.replicate 2014 0).getD (60 + 128 * k) 0 == 0)) = true := by decide +kernel
  rw [show (300 : BitVec 16).toNat = 300 from rfl, show (1 : BitVec 4).toNat = 1 from rfl, h1, h2, h3]
  decide +kernel

/-- A DMT symbol received well on its first 30 carriers, or on none. -/
def wSymbol (n : Nat) : DmtSymbol := { y := List.replicate n (4092, 0), x := List.replicate n (4096, 0), own := List.replicate n ((0, 0), (0, 0)) }

/-- A DMT record whose equalisers stand at 1. -/
def wFlat : Dmt := { w := List.replicate 2044 (4096, 0) }

/-- Port 0 in LDMT with a DMT record. -/
def wDmt (d : Dmt) : State := (wLink .loconUp (some .ldmt) true).modDmt 0 (fun _ => d)

theorem snrs_thirty : wFlat.snrs [wSymbol 30] = List.replicate 30 6020 := by decide +kernel

theorem loading_thirty : (computeLoading 0xC1A06 (List.replicate 30 6020)).b = 300 := by decide +kernel

/-- Flag B of the far end as a receiver with a gain just above 1 gets it. -/
def wFlag (sign : Int) : List (Int × Int) := (flagB false).map (fun e => (sign * 2897 * e.1.1, sign * 2897 * e.1.2))

theorem flag_of_far : correlation (flagB false) (wFlag 1) = 11750232 ∧ correlation (flagB false) (wFlag (-1)) = -11750232 := by decide +kernel

theorem test_witness_LdmtRows :
    Wit ((wTrain .fullDuplex .ldmt true).modDmt 0 (fun _ => wFlat)) (fun s => s.clocked = true ∧ (s.port 0).dmtTrains = true
      ∧ bUsable (computeLoading (s.portReg 0 0x40) ((s.port 0).dmt.snrs [wSymbol 30])).b = true
      ∧ bUsable (computeLoading (s.portReg 0 0x40) ((s.port 0).dmt.snrs [wSymbol 0])).b = false)
    ∧ Wit (wDmt { wFlat with upRun := 99 }) (fun s => (s.port 0).dmtRuns = true ∧ (s.port 0).dmt.sent = none ∧ s.holdsTables 0 = false
      ∧ bit (s.portReg 0 0x40) 12 = true
      ∧ (s.port 0).dmt.rx.b * 105 ≤ (computeLoading (s.portReg 0 0x40) ((s.port 0).dmt.snrs [wSymbol 30])).b * 100 ∧ 100 ≤ (s.port 0).dmt.upRun + 1)
    ∧ Wit (wDmt { wFlat with rx := ⟨List.replicate 2044 10, 10, 1⟩, lowRuns := List.replicate 2044 3 }) (fun s =>
        (lowRunsOf (marginAct (s.portReg 0 0x40)) (s.port 0).dmt ((s.port 0).dmt.snrs [wSymbol 30])).any (fun n => decide (4 ≤ n)) = true
      ∧ bUsable (computeLoading (s.portReg 0 0x40) ((s.port 0).dmt.snrs [wSymbol 30])).b = true)
    ∧ Wit ((wDmt {}).modQuiet 0 (fun q => { q with pend := some ({ wQuiet false with entry := 1 }, false) })) (fun s => (s.port 0).dmtRuns = true ∧ s.holdsTables 0 = true)
    ∧ Wit wRun (fun s => (s.port 0).dmtTrains = false ∧ (s.port 0).dmtRuns = false)
    ∧ tableValid (tableBytes wLoading 300) = true ∧ tableValid [] = false
    ∧ Wit (wDmt {}) (fun s => ahead (tableOf (tableBytes wLoading 300)).a (s.dmtNow 0 (s.port 0).dmt.dTx) = true
      ∧ ahead (tableOf (tableBytes wLoading 0)).a (s.dmtNow 0 (s.port 0).dmt.dTx) = false)
    ∧ Wit ((wTrain .fullDuplex .ldmt true).modDmt 0 (fun d => { d with sent := some ({}, 0) })) (fun s => (s.port 0).dmtTrains = true ∧ (s.port 0).dmt.sent ≠ none)
    ∧ Wit (wDmt { got := some ({}, 4), sent := some ({}, 9) }) (fun s => (s.port 0).dmtRuns = true ∧ (s.port 0).dmt.got = some ({}, 4) ∧ (s.port 0).dmt.sent = some ({}, 9)
      ∧ s.ringSpace ∧ s.holdsTables 0 = false ∧ (s.port 0).flagFound (wFlag 1) = true ∧ (s.port 0).flagFound (wFlag (-1)) = false) := by
  have h0 : (((wTrain .fullDuplex .ldmt true).modDmt 0 (fun _ => wFlat)).portReg 0 0x40 = 0xC1A06)
      ∧ (((wTrain .fullDuplex .ldmt true).modDmt 0 (fun _ => wFlat)).port 0).dmt = wFlat := ⟨by decide +kernel, rfl⟩
  have h1 : ((wDmt { wFlat with upRun := 99 }).portReg 0 0x40 = 0xC1A06)
      ∧ (((wDmt { wFlat with upRun := 99 }).port 0).dmt.snrs [wSymbol 30]) = List.replicate 30 6020 := ⟨by decide +kernel, snrs_thirty⟩
  have h2 : ((wDmt { wFlat with rx := ⟨List.replicate 2044 10, 10, 1⟩, lowRuns := List.replicate 2044 3 }).portReg 0 0x40 = 0xC1A06)
      ∧ (((wDmt { wFlat with rx := ⟨List.replicate 2044 10, 10, 1⟩, lowRuns := List.replicate 2044 3 }).port 0).dmt.snrs [wSymbol 30]) = List.replicate 30 6020 :=
    ⟨by decide +kernel, snrs_thirty⟩
  have h3 : ((wDmt { got := some ({}, 4), sent := some ({}, 9) }).port 0).link.leader = true := by decide +kernel
  have hf : ∀ v : Fin 101, (v.val : Int) ^ 2 * 2 * (4096 * 2028) ^ 2 ≤ (100 * 11750232) ^ 2 := by decide +kernel
  simp only [Wit, State.ringSpace, h0, h1, h2, snrs_thirty, loading_thirty, Port.flagFound, h3, table_valid, Bool.not_true, flag_of_far, decide_eq_true_eq, decide_eq_false_iff_not]
  refine ⟨⟨?_, ?_, ?_, ?_⟩, ⟨?_, ?_, ?_, ?_, ?_, ?_⟩, ⟨?_, ?_⟩, ⟨?_, ?_⟩, ⟨?_, ?_⟩, ?_, ?_, ⟨?_, ?_⟩, ⟨?_, ?_⟩, ?_, ?_, ?_, ?_, ?_, ⟨by omega, hf _⟩, by omega⟩
  all_goals decide +kernel

/-! ### Blocks, frames, lanes -/

/-- Port 0 with blocks running in L10X, its sender and receiver as given. -/
def wBlocks (x : Sender) (r : Receiver) : State :=
  ((wLink .loconUp (some .l10x) true).modLink 0 (fun k => { k with blocksOn := true })).modPort 0 (fun y => { y with snd := x, rcv := r })

/-- A block with a slot kind, a sequence, an acknowledgement and a payload. -/
def wBlk (kind : BitVec 2) (seq ack : Seq24) (payload : List Byte) : Blk :=
  { gate := 1, slotKind := kind, seg := 0, resent := false, seq := seq, ack := ack, slot := 0, ffp := 0, payload := payload }

/-- A payload of zeros. -/
def wZero : List Byte := List.replicate 402 0

/-- A DATA block in the unacknowledged list. -/
def wUnack (seq : Seq24) : TxBlock := { seq := seq, ffp := 0, len := 402, parts := [], ends := [], tick := 0 }

/-- A frame of 64 bytes with its FCS. -/
def wFrame : List Byte := List.replicate 60 0 ++ crcBytes (crc32 (List.replicate 60 0))

/-- Its FCS is good, as that of any data followed by its CRC bytes. -/
theorem test_frame_fcs : fcsGood wFrame = true := by
  have h : ∀ (d : List Byte) (c : Word), (crcBytes c).length = 4 → fcsGood (d ++ crcBytes (crc32 d)) = true := by
    intro d _ _
    have h4 : (crcBytes (crc32 d)).length = 4 := rfl
    simp [fcsGood, h4]
  exact h _ 0 rfl

theorem test_witness_BlockExchange :
    Wit (wBlocks {} {}) (fun s => s.steady 0 ∧ (s.port 0).blocksRun = true ∧ (s.port 0).blockMode = some .l10x ∧ s.basin.tickets = [] ∧ (s.port 0).snd.synced = false
      ∧ (s.port 0).link.blocksTick ≤ s.ticks)
    ∧ Wit ((wBlocks {} {}).modLink 0 (fun k => { k with blocksTick := 1 })) (fun s => s.steady 0 ∧ (s.port 0).blocksRun = true ∧ s.ticks < (s.port 0).link.blocksTick)
    ∧ Wit (wBlocks { synced := true, gateRx := 8 } {}) (fun s => (s.port 0).snd.synced = true ∧ (s.port 0).snd.held = true)
    ∧ Wit (wBlocks { synced := true, s := 1, unacked := [wUnack 0], resend := [0] } {}) (fun s => (s.port 0).snd.held = false
      ∧ (s.port 0).snd.resend.findSome? (fun q => (s.port 0).snd.unacked.find? (fun b => b.seq == q)) = some (wUnack 0))
    ∧ Wit (wBasin (wBlocks { synced := true, packing := some (1, 0) } {}) [wQueue 1 true .none] [{ id := 1, queue := 1, outbound := true, state := .queued, bytes := wFrame }]) (fun s =>
        (s.port 0).snd.resend = [] ∧ (s.port 0).snd.mayData = true ∧ (s.port 0).snd.packing ≠ none ∧ s.basin.tickets.all (fun x => !x.corrupt) = true)
    ∧ Wit (wBlocks { synced := true } {}) (fun s => (s.port 0).snd.mayData = true ∧ (s.port 0).snd.packing = none ∧ s.nextPack 0 = none)
    ∧ Wit (wBlocks { synced := true, s := 8192 } {}) (fun s => (s.port 0).snd.resend = [] ∧ (s.port 0).snd.mayData = false)
    ∧ Wit (wBlocks { synced := true, s := 1, unacked := [wUnack 0] } {}) (fun s => (s.port 0).snd.synced = true ∧ (∃ b ∈ (s.port 0).snd.unacked, b.seq = 0)
      ∧ (s.port 0).snd.roomWait.contains 0 = false)
    ∧ Wit (wBlocks {} {}) (fun s => (wBlk 0 0 0 []).payload.length ≠ (s.port 0).blkPay ∧ (wBlk 0 0 0 wZero).payload.length = (s.port 0).blkPay ∧ (wBlk 0 0 0 wZero).slotKind ≠ 2)
    ∧ Wit (wBlocks { synced := true, s := 3, unacked := [wUnack 0, wUnack 1, wUnack 2] } {}) (fun s => 0 ≤ seqDiff (wBlk 1 0 0 wZero).ack (s.port 0).snd.aKnown
      ∧ seqDiff (wBlk 1 0 3 wZero).ack (s.port 0).snd.aKnown ≤ seqDiff (s.port 0).snd.s (s.port 0).snd.aKnown
      ∧ (0x00000100 : Word).getLsbD 7 = false ∧ 0 ≤ seqDiff (wUnack 2).seq 1
      ∧ ((wUnack 2).seq - BitVec.ofNat 24 ((0x00000101 : Word).toNat / 256)).toNat < (0x00000101 : Word).toNat % 128 + 1
      ∧ 0 ≤ seqDiff (BitVec.ofNat 24 ((0x00000300 : Word).toNat / 256)) (s.port 0).snd.rKnown
      ∧ seqDiff (BitVec.ofNat 24 ((0x00000300 : Word).toNat / 256)) (s.port 0).snd.rKnown ≤ seqDiff 3 (s.port 0).snd.rKnown
      ∧ seqDiff (wBlk 0 0 (-1) wZero).ack (s.port 0).snd.aKnown < 0 ∧ seqDiff (s.port 0).snd.s (s.port 0).snd.aKnown < seqDiff (wBlk 0 0 4 wZero).ack (s.port 0).snd.aKnown)
    ∧ Wit (wBlocks { synced := true } {}) (fun s => (s.port 0).rcv.held = [] ∧ (s.port 0).rcv.highest = none ∧ (s.port 0).rcv.refused = none ∧ (s.port 0).rcv.nacks = []
      ∧ 0 < seqDiff (wBlk 0 1 0 wZero).seq (s.port 0).rcv.a ∧ s.holdHard 0 = false ∧ seqDiff (wBlk 0 (-1) 0 wZero).seq (s.port 0).rcv.a < 0
      ∧ seqDiff (wBlk 0 255 0 wZero).seq (s.port 0).rcv.a < (min (2 ^ (s.port 0).snd.w) (s.reordBlocks 0) : Nat))
    ∧ Wit ((wBlocks { synced := true } {}).setReg (regKey 0x10 0x50) 0x0804100D) (fun s => s.holdHard 0 = true)
    ∧ Wit (wBasin (wBlocks { synced := true } {}) [wQueue 1 false .none] []) (fun s => s.holdHard 0 = false ∧ s.basin.tickets = [] ∧ (s.port 0).rcv.parser = {}
      ∧ (wBlk 0 0 0 wZero).seq = (s.port 0).rcv.a ∧ (wBlk 0 0 0 wZero).ffp = 0 ∧ 64 ≤ wFrame.length ∧ wFrame.length + 3 ≤ wZero.length
      ∧ (padTo 402 ([1, 0, 64] ++ wFrame)).length = 402 ∧ s.queue? (tagQueue 0 1) = some (wQueue 1 false .none) ∧ (wQueue 1 false .none).outbound = false
      ∧ s.hasRoom (wQueue 1 false .none) wFrame.length = true) := by
  simp only [Wit, State.steady, State.freePort, State.unforced]; and_intros <;> decide +kernel

/-- A SYNC payload: the partner's SESSION 9, its copy of ours, and BSIZE. -/
def wSyncPay (echo : Byte) (bsize : Byte) : List Byte := [0, 0, 0, 9, 0, 0, 0, echo] ++ List.replicate 9 0 ++ [bsize] ++ List.replicate 384 0

theorem test_witness_SessionsAndStandardFrames :
    Wit (wBlocks {} { session := 5, partner := 9 }) (fun s => s.steady 0 ∧ (s.port 0).blocksRun = true ∧ (wBlk 0 0 0 (wSyncPay 5 0)).payload.length = (s.port 0).blkPay
      ∧ (s.port 0).blockMode = some .l10x ∧ (s.port 0).snd.synced = false ∧ syncValid .l10x (wBlk 0 0 0 (wSyncPay 5 (BitVec.ofNat 8 (bsizeCode .l10x)))) = true
      ∧ (s.port 0).link.wrOld = none ∧ BitVec.ofNat 32 (beAt (wSyncPay 5 0) 4 4) = (s.port 0).rcv.session ∧ (s.port 0).rcv.partner = BitVec.ofNat 32 (beAt (wSyncPay 5 0) 0 4)
      ∧ BitVec.ofNat 32 (beAt (wSyncPay 6 0) 4 4) ≠ (s.port 0).rcv.session ∧ s.ringSpace)
    ∧ Wit ((wTrain .fullDuplex .l10x true).modLink 0 (fun k => { k with blocksOn := true })) (fun s => (s.port 0).link.state = .fullDuplex
      ∧ (s.port 0).blockMode = some .l10x ∧ (s.port 0).blocksRun = true ∧ (s.port 0).link.blocksOn = true ∧ (s.port 0).snd.synced = false)
    ∧ Wit ((wShift (wRec .l10x 0 true true) true).modLink 0 (fun k => { k with blocksOn := true })) (fun s => (s.port 0).link.state = .shift
      ∧ (s.port 0).link.shift = some (wRec .l10x 0 true true) ∧ (wRec .l10x 0 true true).acked = true ∧ (s.port 0).blocksRun = true ∧ (s.port 0).link.blocksOn = true ∧ (s.port 0).snd.synced = false
      ∧ below (s.common 0) .l10x = [.ldmt, .lchirp] ∧ (s.port 0).link.modeAct ≠ none ∧ (s.port 0).link.leader = true)
    ∧ Wit ((wShift (wRec .lchirp 0 true true) true).modLink 0 (fun k => { k with blocksOn := true })) (fun s => (wRec .lchirp 0 true true).target = .lchirp
      ∧ (s.port 0).link.shift = some (wRec .lchirp 0 true true) ∧ (s.port 0).snd.synced = false)
    ∧ Wit ((wLink .loconUp (some .lchirp) true).modLink 0 (fun k => { k with blocksOn := true })) (fun s => (s.port 0).link.state = .loconUp ∧ (s.port 0).inLchirp = true
      ∧ (s.port 0).link.blocksOn = true ∧ (s.port 0).snd.synced = false)
    ∧ Wit (wBlocks { synced := true } {}) (fun s => s.steady 0 ∧ (s.port 0).snd.synced = true ∧ (s.port 0).link.state ≠ .stdUp)
    ∧ Wit (wBasin (wLink .stdUp (some .t1000) true) [wQueue 1 false .none] []) (fun s => s.steady 0 ∧ (s.port 0).link.state = .stdUp ∧ s.queue? (tagQueue 0 2) = none
      ∧ s.queue? (tagQueue 0 1) = some (wQueue 1 false .none) ∧ (wQueue 1 false .none).closing = none ∧ s.hasRoom (wQueue 1 false .none) wFrame.length = true
      ∧ s.basin.tickets = [])
    ∧ Wit (wBasin (wLink .stdUp (some .t1000) true) [{ wQueue 1 false .none with rB := 63 }] []) (fun s => s.hasRoom { wQueue 1 false .none with rB := 63 } 64 = false)
    ∧ Wit (wBasin (wLink .stdUp (some .t1000) true) [wQueue 1 true .none] [{ id := 4, queue := 1, outbound := true, state := .queued }]) (fun s =>
        pickHead ((s.basin.queues.filter (fun q => q.outbound && q.num / 256 == (0 : Fin 16).val)).filterMap (fun q =>
            ((s.ticketsOf q.num).find? (fun x => x.state == .queued)).map (fun x => (q, x)))) (s.port 0).snd.rr = some (false, 1, 4)
      ∧ s.basin.tickets.all (fun x => !x.corrupt) = true ∧ pickHead [] (s.port 0).snd.rr = none) := by
  simp only [Wit, State.steady, State.freePort, State.unforced, State.ringSpace]; and_intros <;> decide +kernel

/-- Host lane 0 up with queues and tickets. -/
def wHost (qs : List Queue) (ts : List Ticket) : State := wBasin (wUp true) qs ts

/-- A ticket of queue 1 to the host. -/
def wTicket (st : TicketState) (corrupt : Bool) : Ticket := { id := 4, queue := 1, outbound := false, state := st, corrupt := corrupt }

/-- A tag word for a queue and a sequence. -/
def wTag (qid : BitVec 12) (ctrl : Bool) (seq : Seq16) : TagWord := { qid := qid, ctrl := ctrl, resend := false, rsnd := false, move := false, seq := seq, ts := 0 }

theorem test_witness_HostFrames :
    Wit { wUp true with basin := { (wUp true).basin with ctrlOut := [⟨2, ⟨false, 1, 0⟩⟩] } } (fun s => s.clocked = true ∧ (s.lane 0).state = .up ∧ (s.lane 0).paused = none
      ∧ s.pickService 0 = .ctrl 2)
    ∧ Wit (wHost [{ wQueue 1 false .hop with lane := some 0, move := some ⟨1, none⟩ }] []) (fun s => s.pickService 0 = .marker 1
      ∧ ({ wQueue 1 false .hop with lane := some 0, move := some ⟨1, none⟩ } : Queue).move ≠ none)
    ∧ Wit (wHost [{ wQueue 1 false .hop with lane := some 0 }] [wTicket .queued false]) (fun s => s.pickService 0 = .excess 4 ∧ s.ticket? 4 = some (wTicket .queued false)
      ∧ (wTicket .queued false).corrupt = false ∧ (s.queue? 1).isSome = true)
    ∧ Wit (wHost [{ wQueue 1 false .none with lane := some 0, credit := 5 }] [wTicket .queued true]) (fun s => s.pickService 0 = .admitted 4
      ∧ s.ticket? 4 = some (wTicket .queued true) ∧ (wTicket .queued true).corrupt = true ∧ s.ringRoom)
    ∧ Wit (wHost [{ wQueue 1 false .hop with lane := some 0 }] [{ wTicket .sent false with resend := true }]) (fun s => s.pickService 0 = .resend 4)
    ∧ Wit (wUp true) (fun s => s.pickService 0 = .idle ∧ (s.lane 7).state ≠ .up)
    ∧ Wit ((wUp true).modLane 0 (fun n => { n with paused := some 0 })) (fun s => (s.lane 0).paused ≠ none)
    ∧ Wit (wHost [wQueue 1 true .none] []) (fun s => (wTag 1 false 0).ctrl = false ∧ s.queue? (wTag 2 false 0).qid.toNat = none
      ∧ s.queue? (wTag 1 false 0).qid.toNat = some (wQueue 1 true .none) ∧ (wQueue 1 true .none).outbound = true ∧ (wQueue 1 true .none).closing = none
      ∧ (wTag 1 false 1).seq ≠ (wQueue 1 true .none).nextSeq ∧ (wTag 1 false 0).seq = (wQueue 1 true .none).nextSeq
      ∧ s.hasRoom (wQueue 1 true .none) (ownFrame (s.laneForm 0) wFrame).length = true ∧ s.basin.tickets = [])
    ∧ Wit (wHost [{ wQueue 1 false .hop with nextSeq := 1 }] [wTicket .sent false]) (fun s => s.lowSeq { wQueue 1 false .hop with nextSeq := 1 } = 0
      ∧ 0 ≤ qDiff 1 0 ∧ qDiff 1 0 ≤ qDiff ({ wQueue 1 false .hop with nextSeq := 1 } : Queue).nextSeq 0 ∧ qDiff (-1) 0 < 0
      ∧ qDiff ({ wQueue 1 false .hop with nextSeq := 1 } : Queue).nextSeq 0 < qDiff 2 0 ∧ s.queue? 2 = none ∧ (wQueue 1 false .hop).cls ≠ .none)
    ∧ Wit (wHost [{ wQueue 1 false .hop with timer := some 0, relRepeat := true }] [wTicket .sent false]) (fun s =>
        s.queue? (1 : Fin 4096).val = some { wQueue 1 false .hop with timer := some 0, relRepeat := true } ∧ s.sup.pfailFrozen = false)
    ∧ Wit (wHost [wQueue 1 false .hop] []) (fun s => s.queue? 1 = some (wQueue 1 false .hop) ∧ (wQueue 1 false .hop).timer = none ∧ (wQueue 1 false .hop).relRepeat = false) := by
  simp only [Wit, State.ringRoom]; and_intros <;> decide +kernel

/-- The running part with a bank changed. -/
def wBank (b : Fin 68) (u : BankUse) : State := wRun.setBank b u

theorem test_witness_LanesAndBasin :
    Wit { (wRun.modLane 7 (fun n => { n with state := .starting })).setReg (regKey 0x27 0) 1 with
          dom := { on := 1 <<< laneDomain 7 }, clk := { host := ⟨.locked, 2⟩ } } (fun s => s.clocked = true ∧ s.laneReady 7 = true ∧ s.laneReady 0 = false
      ∧ bit (s.laneReg (7 : Fin 8).val 0) 0 = true ∧ (s.lane 7).state = .starting)
    ∧ Wit ((wUp true).setReg (regKey 0x20 0) 0x101) (fun s => (s.lane 0).state = .up ∧ (6 : Fin 7) ≠ 0 ∧ s.ringRoom ∧ (s.lane 0).paused = none
      ∧ bit (s.laneReg (0 : Fin 8).val 0) 8 = true)
    ∧ Wit (((wUp true).setReg (regKey 0x20 0) 1).modLane 0 (fun n => { n with paused := some 3 })) (fun s => (s.lane 0).state = .up ∧ (s.lane 0).paused = some 3
      ∧ bit (s.laneReg (0 : Fin 8).val 0) 8 = false)
    ∧ Wit (wHost [{ wQueue 1 false .hop with lane := some 0, move := some ⟨1, some 9⟩ }] []) (fun s => (s.queue? (1 : Fin 4096).val).any (fun x =>
        x.move == some ⟨1, some 9⟩) = true)
    ∧ Wit (wHost [{ wQueue 1 false .hop with lane := some 0, move := some ⟨1, none⟩ }] []) (fun s => (s.queue? (1 : Fin 4096).val).any (fun x => x.move == some ⟨1, none⟩) = true)
    ∧ Wit (wHost [{ wQueue 1 false .hop with lane := some 0, bRes := 30000 }, { wQueue 2 false .hop with lane := some 0, bRes := 40000 }] []) (fun s =>
        bit (s.act (regKey 3 0x20)) 1 = true ∧ s.safeBlock 3 = false ∧ (s.rebalanceMove false).any (fun e => decide (e.2.val ≠ 0)) = true)
    ∧ Wit wRun (fun s => s.rebalanceMove false = none ∧ s.rebalanceMove true = none ∧ (s.bank 67).logical = none ∧ (s.bank 63).logical ≠ none
      ∧ s.bank 63 = .inService 63 ∧ s.test.bank = none ∧ s.lowestSpare = some 64 ∧ s.ringRoom)
    ∧ Wit (wRun.setReg (regKey 3 0x20) 0x00001401) (fun s => bit (s.act (regKey 3 0x20)) 1 = false)
    ∧ Wit ((((wBank 64 .failed).setBank 65 .failed).setBank 66 .failed).setBank 67 .failed) (fun s => s.bank 0 = .inService 0 ∧ s.lowestSpare = none ∧ s.test.bank = none)
    ∧ Wit ((wBank 0 (.copying 67 0)).setBank 67 (.receiving 0)) (fun s => s.bank 0 = .copying (67 : Fin 68).val 0 ∧ (67 : Fin 68) ≠ 0
      ∧ s.test.bank ≠ some (0 : Fin 68).val ∧ s.test.waiting = false)
    ∧ Wit { (wBank 0 (.copying 67 0)).setBank 67 (.receiving 0) with test := { bank := some 0 } } (fun s => s.test.bank = some (0 : Fin 68).val)
    ∧ Wit (wBank 0 (.migrating 0)) (fun s => s.bank 0 = .migrating 0) := by
  simp only [Wit, State.ringRoom]; and_intros <;> decide +kernel

/-! ### Calibration, diagnostics, self-test -/

/-- A measure that passes every check, or fails one. -/
def wMeasure (ok : Bool) : CalMeasure :=
  { anchorUa10 := 1320, termPermille := if ok then 20 else 21, termAtEnd := false, cellsInLimit := 64, cellRmsPpm := 10000, slicesInLimit := 32, comparatorsOk := true
    currentChange := 50, gainChange := 100, cells := List.replicate 64 true ++ List.replicate 8 false
    slices := List.replicate 32 true ++ List.replicate 2 false, dacRes := 0, skewRes := 0, eye := 0 }

/-- Port 0 in a calibration run from an item on. -/
def wRunning (item fails : Nat) : State := wRun.modCal 0 (fun c => { c with running := true, item := item, fails := fails })

theorem test_witness_CalibrationRows :
    Wit (wLink .loconUp (some .l50a) true) (fun s => s.clocked = true ∧ s.cal.level < 2 ∧ s.ringRoom ∧ s.cal.level ≠ 3 ∧ (s.port 0).link.state ≠ .disabled
      ∧ (s.port 0).link.state ≠ .diag)
    ∧ Wit { wLadder .l50a true {} with cal := { level := 2 } } (fun s => s.steady 0 ∧ 2 ≤ s.cal.level ∧ s.sup.pfailFrozen = false
      ∧ allPorts.reverse.find? (fun q => (s.port q).link.state == .loconUp && (s.port q).link.modeAct == some .l50a) = some 0
      ∧ below (s.common 0) .l50a = [.l25s, .l10x, .ldmt, .lchirp] ∧ (s.port 0).quiet.state = .active ∧ (s.port 0).quiet.pend = none ∧ (s.port 0).link.leader = true)
    ∧ Wit { wLadder .l50a false {} with cal := { level := 2 } } (fun s => (s.port 0).link.leader = false)
    ∧ Wit (wRunning 0 0) (fun s => (s.port 0).cal.running = true ∧ fitItems calItems (s.port 0).cal.item (s.sliceUs * 10) < calItems ∧ s.factoryOn = false
      ∧ 0 < fld (s.act (regKey 6 0x00)) 16 16 ∧ s.ringRoom)
    ∧ Wit (wRunning 108 2) (fun s => calItems ≤ fitItems calItems (s.port 0).cal.item (s.sliceUs * 10) ∧ calPasses (wMeasure true) = true
      ∧ calPasses (wMeasure false) = false ∧ 3 ≤ (s.port 0).cal.fails + 1)
    ∧ Wit ((wRunning 0 0).setReg (regKey 6 0) 0x00001001) (fun s => fld (s.act (regKey 6 0x00)) 16 16 = 0)
    ∧ Wit (wRun.modCal 0 (fun c => { c with retry := true })) (fun s => (s.port 0).cal.running = false ∧ (s.port 0).cal.retry = true ∧ s.calHeld = false) := by
  simp only [Wit, State.ringRoom, State.steady, State.freePort, State.unforced]; and_intros <;> decide +kernel

/-- Port 0 in a diagnostic run. -/
def wTdr (t : Tdr) : State := (wLink .diag none false).modTdr 0 (fun _ => t)

/-- A reference of the wide profile. -/
def wRef : WatchRef := { snd := wSnd true 0, swing := 0, keyIdx := 0xFF, oui := 0 }

/-- Port 0 up in L50A with a watch record, at a time when the link has long been quiet. -/
def wWatch (w : Watch) : State := { (wLink .loconUp (some .l50a) true).modWatch 0 (fun _ => w) with ticks := secTicks 10 }

theorem test_witness_DiagnosticRows :
    Wit (wTdr { running := true, listens := 2 }) (fun s => s.steady 0 ∧ (s.port 0).tdr.running = true ∧ (s.port 0).tdr.burst = false ∧ (s.port 0).tdr.listens + 1 < 4)
    ∧ Wit (wTdr { running := true, listens := 3 }) (fun s => 4 ≤ (s.port 0).tdr.listens + 1)
    ∧ Wit (wTdr { running := true, burst := true }) (fun s => (s.port 0).tdr.burst = true ∧ (s.port 0).tdr.wideNow = false ∧ tdrTakes (s.port 0).tdr.prof true = true)
    ∧ Wit (wTdr { running := true, burst := true, prof := 1 }) (fun s => tdrTakes (s.port 0).tdr.prof true = false)
    ∧ Wit (wWait (.diagTdr 0) (wTdr { running := true, burst := true, wideNow := true })) (fun s => (s.port 0).tdr.running = true ∧ (s.port 0).tdr.burst = true
      ∧ (tdrTakes (s.port 0).tdr.prof true = true → (s.port 0).tdr.wideNow = true) ∧ s.waiting (isTdr 0) = some 2)
    ∧ Wit (wTdr {}) (fun s => s.steady 0 ∧ (s.port 0).tdr.running = false)
    ∧ Wit ((wWatch {}).setReg (regKey 0x10 0x74) 0) (fun s => bit (s.portReg 0 0x74) 0 = false ∧ bit (s.portReg 0 0x74) 1 = false)
    ∧ Wit (wWatch { quietTick := some 0 }) (fun s => s.steady 0 ∧ bit (s.portReg 0 0x74) 0 = true ∧ s.watchIdle 0 false = true ∧ s.watchIdle 0 true = false
      ∧ (s.port 0).refOk (s.port 0).refNow = false ∧ bit (s.portReg 0 0x74) 1 = true ∧ (s.port 0).link.state = .loconUp ∧ (s.port 0).watch.capturing = false
      ∧ (s.port 0).quiet.state = .active ∧ (s.port 0).watch.quietTick = some 0 ∧ 0 + secTicks 10 ≤ s.ticks)
    ∧ Wit ((wWatch { quietTick := some 0, refWide := some wRef }).modTow 0 (fun t => { t with partner := some { wCap true 0 31 9 with keyIdx := 1 } })) (fun s =>
        (s.port 0).refOk (s.port 0).refNow = false ∧ (s.port 0).refNow ≠ none ∧ (s.port 0).watch.refTold = false ∧ s.ringRoom)
    ∧ Wit (wWatch { quietTick := some 0, wantCapture := true }) (fun s => (s.port 0).watch.wantCapture = true ∧ s.watchIdle 0 true = false)
    ∧ Wit (wWatch { quietTick := some 0, refWide := some wRef, refl := { warnUp := 9, alarmUp := 2 }, loss := { warnUp := 9, alarmUp := 2 } }) (fun s => s.watchIdle 0 true = false ∧ s.ringSpace
      ∧ (s.port 0).refOk (s.port 0).refNow = true
      ∧ (s.port 0).watch.refl.alarm ≠ ((s.port 0).watch.refl.step 255 (fld (s.portReg 0 0x75) 24 8) (fld (s.portReg 0 0x76) 24 8)).alarm
      ∧ (s.port 0).watch.loss.warn ≠ ((s.port 0).watch.loss.step 255 (fld (s.portReg 0 0x75) 16 8) (fld (s.portReg 0 0x76) 16 8)).warn)
    ∧ Wit (wWait (.diagWatch 0) (wWatch { capturing := true })) (fun s => (s.port 0).watch.capturing = true ∧ (s.port 0).link.state = .loconUp
      ∧ (wSnd true 0).wide = !(s.port 0).inLchirp ∧ wRef.snd = wSnd true 0 ∧ wRef.swing = (s.port 0).tx.swing ∧ (s.port 0).tow.partner = none ∧ s.ringRoom
      ∧ s.waiting (isWatch 0) = some 2)
    ∧ Wit ((wLink .loconUp (some .lchirp) true).modWatch 0 (fun w => { w with capturing := true })) (fun s => (wSnd false 0).wide = !(s.port 0).inLchirp) := by
  simp only [Wit, State.ringRoom, State.ringSpace, State.steady, State.freePort, State.unforced]; and_intros <;> decide +kernel

/-- A cadence that governs port 15. -/
def wGovern : State := { wRun.setReg (regKey 0x1F 1) 0x100 with time := { wRun.time with cads := [(3, { wCad with queue := 15 * 256 })] } }

theorem test_witness_SelfTestAndJournalRows :
    Wit wRun (fun s => s.clocked = true ∧ bit (s.act (regKey 5 0x01)) 0 = true ∧ s.test.bank = none ∧ s.mayRotate = true ∧ s.nextRotation = some 0
      ∧ s.bank 0 = .inService 0 ∧ s.lowestSpare = some 64 ∧ s.enabled 15 = false)
    ∧ Wit (wRun.setReg (regKey 5 1) 0x000A0A02) (fun s => bit (s.act (regKey 5 0x01)) 0 = false)
    ∧ Wit { wRun with cal := { level := 1 } } (fun s => s.mayRotate = false ∧ s.testHeld = true)
    ∧ Wit ({ wRun with test := { bank := some 67, marching := true, marchChan := some 2 } }.modChan 2 (fun c => { c with busy := true, work := some .bistMarch })) (fun s =>
        s.test.bank = some (67 : Fin 68).val ∧ s.test.marching = true ∧ s.test.marchChan = some (2 : Fin 16).val ∧ (s.chan 2).work = some .bistMarch ∧ s.ringRoom)
    ∧ Wit (wRun.setReg (regKey 0x1F 1) 0x100) (fun s => bit (s.act (regKey 5 0x01)) 1 = true ∧ 0 < fld (s.act (regKey 5 0x01)) 16 8 ∧ s.enabled 15 = true
      ∧ s.testHeld = false ∧ (s.port 15).test.running = false ∧ s.governor 15 = none)
    ∧ Wit wGovern (fun s => s.governor 15 ≠ none ∧ s.enabled 15 = true)
    ∧ Wit (wWait (.bistLoopback 15) (wRun.modTest 15 (fun t => { t with loop := true }))) (fun s => (s.port 15).test.loop = true ∧ s.waiting (isLoop 15) = some 2)
    ∧ Wit { wRun with ticks := secTicks 10, journal := { changed := true, taken := some (true, 7), lastTick := some 0, failRun := 2 } } (fun s =>
        s.keeper.mode = .running ∧ s.journal.changed = true ∧ s.journal.writing = none ∧ s.journal.failRun < 3 ∧ s.sup.pfailFrozen = false
      ∧ s.journal.lastTick = some 0 ∧ 0 + secTicks 10 ≤ s.ticks ∧ s.journal.taken = some (true, 7))
    ∧ Wit { wRun with journal := { failRun := 3 } } (fun s => s.journal.changed = false ∧ 3 ≤ s.journal.failRun)
    ∧ Wit (wWait .journalCommit { wRun with journal := { writing := some false, target := (true, 8) } }) (fun s => s.journal.writing = some false
      ∧ s.journal.target = (true, 8) ∧ s.ringRoom ∧ s.waiting isCommit = some 2)
    ∧ Wit { wRun with cal := { slotWait := [(15, false)] } } (fun s => s.cal.slotWait = [((15 : Fin 16).val, false)] ∧ (s.port 15).cal.running = false)
    ∧ Wit ({ wRun with cal := { slotWait := [(15, true)] } }.modTest 15 (fun t => { t with running := true })) (fun s => s.cal.slotWait = [((15 : Fin 16).val, true)]
      ∧ (s.port 15).test.running = true ∧ s.testHeld = false ∧ s.governor 15 = none)
    ∧ Wit ({ wRun with cal := { level := 1, slotWait := [(15, true)] } }.modTest 15 (fun t => { t with running := true })) (fun s => s.testHeld = true)
    ∧ Wit { wRun with keeper := { mode := .lbist } } (fun s => s.keeper.mode = .lbist)
    ∧ Wit wRun (fun s => s.keeper.mode ≠ .lbist ∧ s.sup.stage ≠ .hardReset)
    ∧ Wit State.reset (fun s => s.sup.stage = .hardReset)
    ∧ Wit { wRun with tap := { state := 4, shift := [true, false], ir := none, boundary := [], tdo := none } } (fun s => s.tap.state = 4 ∧ tapNext s.tap.state false = 4)
    ∧ Wit { wRun with tap := { state := 8, shift := [], ir := none, boundary := [], tdo := none } } (fun s => s.tap.state = 8)
    ∧ Wit { wRun with tap := { state := 15, shift := [], ir := none, boundary := [], tdo := none } } (fun s => s.tap.state = 15 ∧ tapNext s.tap.state true ≠ 4
      ∧ tapNext s.tap.state true ≠ 11) := by
  simp only [Wit, State.ringRoom]; and_intros <;> decide +kernel

/-! ### Addresses -/

theorem test_witness_RegisterTable : (5 : Nat) ≠ 4 := by decide

theorem test_witness_AddressBlocks :
    ((0x05FFFF : Addr).toNat / 2 ^ 16 % 2 ^ 7 = 5) ∧ ((0x860000 : Addr).toNat / 2 ^ 16 % 2 ^ 7 = 6) ∧ ((0x070000 : Addr).toNat / 2 ^ 16 % 2 ^ 7 = 7)
    ∧ ((0x080000 : Addr).toNat / 2 ^ 16 % 2 ^ 7 = 8) ∧ ((0x0F0000 : Addr).toNat / 2 ^ 16 % 2 ^ 7 = 0x0F) ∧ ((0x100000 : Addr).toNat / 2 ^ 16 % 2 ^ 7 = 0x10)
    ∧ ((0x1F0000 : Addr).toNat / 2 ^ 16 % 2 ^ 7 = 0x1F) ∧ ((0x200000 : Addr).toNat / 2 ^ 16 % 2 ^ 7 = 0x20) ∧ ((0x3F0000 : Addr).toNat / 2 ^ 16 % 2 ^ 7 = 0x3F)
    ∧ ((0x400000 : Addr).toNat / 2 ^ 16 % 2 ^ 7 = 0x40) ∧ ((0xFF0000 : Addr).toNat / 2 ^ 16 % 2 ^ 7 = 0x7F) := by decide

theorem test_witness_AddressWithinBlock :
    ((0x3FFF : Addr).getLsbD 15 = false ∧ (0x3FFF : Addr).getLsbD 14 = false) ∧ ((0x4000 : Addr).getLsbD 15 = false ∧ (0x4000 : Addr).getLsbD 14 = true)
    ∧ ((0x8000 : Addr).getLsbD 15 = true ∧ (0x8000 : Addr).getLsbD 14 = false) ∧ ((0xC000 : Addr).getLsbD 15 = true ∧ (0xC000 : Addr).getLsbD 14 = true)
    ∧ ((0x3803 : BitVec 24) &&& 0x3803 = 0x3803) := by decide

end Sys2Proof.Tests
end

