-- ==== Sys2Proof/WellFormed.lean ====
section
/-! DEFINITION. Well-formed commands: operands that the sender's format cannot carry are ill-formed. Register addresses
and values, cells and table messages have fixed widths in their types; the checks here bound what the types leave open. -/

namespace Sys2Proof

/-- A request fits its channel (R380): argument words in cells 4 to 63, so at most 60 of them. -/
def Request.wf (r : Request) : Bool := decide (r.args.length ≤ 60)

/-- A sounding has its five parts at their lengths (R117). -/
def Sounding.wf (x : Sounding) : Bool :=
  decide (x.loss.length = 64 ∧ x.noise.length = 64 ∧ x.cir.length ≤ 2048 ∧ x.echo.length ≤ 2048)

/-- A block has the payload of one of the two block lengths (R192). -/
def Blk.wf (b : Blk) : Bool := decide (b.payload.length = 442 ∨ b.payload.length = 402)

/-- A table message is 1,034 bytes long (R184). -/
def tableWf (m : List Byte) : Bool := decide (m.length = 1034)

/-- A DMT symbol gives its values for carriers 4 to 2047 (R171). -/
def DmtSymbol.wf (x : DmtSymbol) : Bool :=
  decide (x.y.length = 2044 ∧ x.x.length = 2044 ∧ x.own.length = 2044)

/-- A received symbol gives the echo canceller and the crosstalk paths their inputs (R147, R152). -/
def RxSymbol.wf (x : RxSymbol) : Bool :=
  decide (x.t.length = 544 ∧ x.codes ≠ []) && x.x.all (fun k => decide (k.1 < 12 ∧ k.2.length = 64))

/-- A calibration measure judges 72 cells and 34 slices and selects 64 and 32 of them (R129, R145, R321). -/
def CalMeasure.wf (m : CalMeasure) : Bool :=
  decide (m.cells.length = 72 ∧ m.slices.length = 34 ∧ m.cells.count true = 64 ∧ m.slices.count true = 32)

/-- The measured calibration cells of a command and the other operands whose lengths the types leave open. -/
def Instr.wf : Instr → Bool
  | .soundingBurst _ x _ | .soundingRefresh _ x | .watchCaptureDone _ x => x.wf
  | .data _ b | .fill _ b | .sync _ b | .blockOtherType _ b => b.wf
  | .tableMessage _ m => tableWf m
  | .ladderUpdate _ m => m.symbols.all RxSymbol.wf
  | .calSliceDone _ m | .calPortRunDone _ m => m.wf
  | .dmtSnrUpdate _ l => l.all DmtSymbol.wf
  | .block _ seg bytes => decide (seg < 32 ∧ bytes.length = 24)
  | .monInvoke _ words => decide (words.length ≤ 64)
  | .hello _ r | .portSetPolicy _ r | .portEnable _ r | .portDisable _ r | .portForceMode _ r | .streamOpen _ r
  | .streamModify _ r | .streamClose _ r | .cadenceSet _ r | .cadenceLearn _ r | .timeSet _ r | .timeAdjustRate _ r
  | .timeAdjustSlew _ r | .timeAdjustStep _ r | .scheduleEventAdd _ r | .scheduleEventCancel _ r | .snapshotAt _ r
  | .commitAt _ r | .calRun _ r | .calRead _ r | .diagTdr _ r | .diagWatchRead _ r | .diagWatchCapture _ r
  | .diagWatchDiscard _ r | .keyLoad _ r _ | .keyErase _ r | .journalCommit _ r | .journalRead _ r _
  | .bistRunMarch _ r | .bistRunPortTest _ r _ | .bistRunLoopback _ r | .bistRunLbist _ r _ | .eventFetch _ r
  | .remoteCmdRequest _ r | .remoteCmdAnswer _ r | .fwStage _ r _ | .fwActivate _ r _ _ _ | .unknownCmd _ _ r => r.wf
  | _ => true

end Sys2Proof
end

