-- ==== Sys2Proof/Tests/Slice0.lean ====
section
/-! SUPPORT. The model's own tests: an ill-formed operand for each check of WellFormed, which the check refuses; the check values and
worked cases that the spec prints; and one step of a command at a time. Expected values stand in the spec, not in the model. -/

set_option linter.unusedSimpArgs false

open Sys2Proof Sys2Proof.Machine

namespace Sys2Proof.Tests

set_option Elab.async false

/-! ### Well-formed commands: an ill-formed term for each check -/

/-- A sounding with the bins it must have, or one too few. -/
def tSnd (n : Nat) : Sounding :=
  { wide := true, cir := [], echo := [], delay := 0, loss := List.replicate n 0, noise := List.replicate 64 0, a := 0, b := 0, c := 0 }

/-- A block with a payload of n bytes. -/
def tBlk (n : Nat) : Blk :=
  { gate := 0, slotKind := 0, seg := 0, resent := false, seq := 0, ack := 0, slot := 0, ffp := 0, payload := List.replicate n 0 }

theorem test_wf_request : (Instr.hello 0 ⟨1, 16, List.replicate 61 0⟩).wf = false ∧ (Instr.hello 0 ⟨1, 16, List.replicate 60 0⟩).wf = true
    ∧ (Instr.unknownCmd 0 0x7F ⟨1, 16, List.replicate 61 0⟩).wf = false := by decide

theorem test_wf_sounding : (Instr.soundingRefresh 0 (tSnd 63)).wf = false ∧ (Instr.soundingRefresh 0 (tSnd 64)).wf = true := by decide +kernel

theorem test_wf_impulse : (Instr.soundingBurst 0 { tSnd 64 with cir := List.replicate 2049 0 } 0).wf = false
    ∧ (Instr.soundingBurst 0 { tSnd 64 with echo := List.replicate 2049 0 } 0).wf = false := by decide +kernel

theorem test_wf_block : (Instr.data 0 (tBlk 441)).wf = false ∧ (Instr.data 0 (tBlk 442)).wf = true ∧ (Instr.fill 0 (tBlk 402)).wf = true := by
  decide +kernel

theorem test_wf_table : (Instr.tableMessage 0 (List.replicate 1033 0)).wf = false ∧ (Instr.tableMessage 0 (List.replicate 1034 0)).wf = true := by decide +kernel

theorem test_wf_dmt_symbol : (Instr.dmtSnrUpdate 0 [wSymbol 2043]).wf = false ∧ (Instr.dmtSnrUpdate 0 [wSymbol 2044]).wf = true := by decide +kernel

theorem test_wf_symbol : (Instr.ladderUpdate 0 { snrDb10 := 0, symbols := [{ codes := [], y := 0, t := List.replicate 544 0 }] }).wf = false
    ∧ (Instr.ladderUpdate 0 { snrDb10 := 0, symbols := [{ codes := [64], y := 0, t := List.replicate 543 0 }] }).wf = false
    ∧ (Instr.ladderUpdate 0 { snrDb10 := 0, symbols := [{ codes := [64], y := 0, t := List.replicate 544 0, x := [(12, List.replicate 64 0)] }] }).wf = false
    ∧ (Instr.ladderUpdate 0 { snrDb10 := 0, symbols := [{ codes := [64], y := 0, t := List.replicate 544 0 }] }).wf = true := by decide +kernel

theorem test_wf_measure : (Instr.calSliceDone 0 { wMeasure true with cells := [] }).wf = false ∧ (Instr.calPortRunDone 0 { wMeasure true with slices := [] }).wf = false
    ∧ (Instr.calPortRunDone 0 { wMeasure true with cells := List.replicate 72 true }).wf = false
    ∧ (Instr.calPortRunDone 0 { wMeasure true with slices := List.replicate 34 true }).wf = false
    ∧ (Instr.calPortRunDone 0 (wMeasure true)).wf = true := by decide +kernel

theorem test_wf_segment : (Instr.block 0 32 (List.replicate 24 0)).wf = false ∧ (Instr.block 0 31 (List.replicate 23 0)).wf = false := by decide

theorem test_wf_words : (Instr.monInvoke 0 (List.replicate 65 0)).wf = false := by decide

/-! ### Check values and worked cases of the spec -/

/-- The nine ASCII bytes "123456789". -/
def nineBytes : List Byte := [0x31, 0x32, 0x33, 0x34, 0x35, 0x36, 0x37, 0x38, 0x39]

/-- R103. -/
theorem test_crc16_check : crc16 nineBytes = 0x29B1 := by decide +kernel

/-- R200. -/
theorem test_crc32_check : crc32 nineBytes = 0xCBF43926 := by decide +kernel

/-- R345. -/
theorem test_crc8_check : crc8 nineBytes = 0xDF := by decide +kernel

/-- R109: AES-CMAC over the 16-byte message of the examples of SP 800-38B, the algorithm that the rule names. -/
theorem test_cmac : cmacWord 0x2B7E151628AED2A6ABF7158809CF4F3C
    [0x6B, 0xC1, 0xBE, 0xE2, 0x2E, 0x40, 0x9F, 0x96, 0xE9, 0x3D, 0x7E, 0x11, 0x73, 0x93, 0x17, 0x2A] = 0x070A16B4 := by decide +kernel

/-- R349, the worked case of 0x00BB_4C00: host lane 3, the set access, the complement window, index 0. -/
theorem test_address_case : decodeAddr 0xBB4C00 = { block := 0x23, way := .setBits, comp := true, index := 0 } := by decide +kernel

/-- R348: the ignored address bits of each row of the table. -/
theorem test_block_spellings : canonBlock 0x07 = 0x06 ∧ canonBlock 0x0E = 0x0A ∧ canonBlock 0x1F = 0x1F ∧ canonBlock 0x3B = 0x23 ∧ canonBlock 0x7F = 0x4F := by
  decide

/-- R235, R237: the worked basin sizing. -/
theorem test_reservations :
    Queue.ownResv { wQueue 1 false .hop with rB := 1560996, fMin := 1200 } = (1301, 7399, 1560996)
    ∧ Queue.ownResv { wQueue 1 false .through with rB := 1507236, fMin := 1200 } = (1257, 7145, 1507236)
    ∧ Queue.ownResv { wQueue 1 true .none with rB := 375000, fMin := 1200 } = (313, 1778, 375000) := by decide +kernel

/-- R166: the worked mode choice on 12 m. -/
theorem test_predicted_figures :
    let x : Sounding := { wide := true, cir := [], echo := [], delay := 0, loss := [], noise := List.replicate 64 4000, a := 4200, b := 1900, c := 800 }
    predicted .l50a false x = 63 ∧ predicted .l25s false x = 201 ∧ predicted .l10x true x = 378 := by decide +kernel

/-- R177, R178: the first bits of the worked loading at 120 m, at the ends of its bands. -/
theorem test_loading_bands :
    let first : Nat → Int → Nat := fun mg x => largestB (fun b => decide ((tThr b : Int) + mg ≤ x)) 10
    let snr : Nat → Int := fun i => (44600 - 43 * ((i : Int) - 4)) / 10
    [4, 108, 109, 167, 168, 248, 249, 307, 308, 390, 391, 450, 451, 535, 536, 600, 601, 697].map (fun i => first (marginAct 6) (snr i))
      = [10, 10, 9, 9, 8, 8, 7, 7, 6, 6, 5, 5, 4, 4, 3, 3, 2, 2] := by decide +kernel

/-- The cadence entry of the worked quiet window. -/
def tCad : Cadence :=
  { queue := 259, pf := 30000000 * 65536, pl := 20000 * 65536, nl := 1500, a0 := 40, na := 1400, ta := (7200 * 10 ^ 9 + 250000) * 65536,
    govern := true, track := false }

/-- The state of the worked quiet window: time 7,210 s 412,000,000 ns and cadence entry 5. -/
def tTime : State := { wRun with time := { wRun.time with now := vehicleTime 7210 412000000 0, cads := [(5, tCad)] } }

/-- R285, R288: the reference frame, the start and the stop instant of the worked quiet window. -/
theorem test_quiet_window_instants :
    tCad.frameAt (t16 tTime.time.now) = 347
    ∧ tTime.time.instant ⟨false, 5, 347, 1440, 16384⟩ = vehicleTime 7210 439055000 0
    ∧ tTime.time.instant ⟨false, 5, 348, 39, 49152⟩ = vehicleTime 7210 441045000 0 := by decide +kernel

/-- R289: the start tick and the stop tick. -/
theorem test_quiet_window_ticks :
    tTime.ticksTo (vehicleTime 7210 439055000 0) = 4227344 ∧ tTime.ticksTo (vehicleTime 7210 441045000 0) = 4538282 := by decide +kernel

/-- R332, R333: the worked trailer harness, a step up at 18.2 m and an open at 25.0 m. -/
theorem test_reflectometry_distance :
    let t : Tdr := { vf := 700, dly := 150 }
    t.distance (t.delay3 ⟨260600, 61, false, true⟩).toNat = 182 ∧ t.distance (t.delay3 ⟨357850, 550, false, true⟩).toNat = 250 := by decide +kernel

/-- R68, R96: the data symbols of a cell at each spreading factor of the worked rates. -/
theorem test_cell_symbols : cellSymbols 11 = 24 ∧ cellSymbols 12 = 22 ∧ cellSymbols 7 = 37 ∧ symbolPs true 12 = 2730666 ∧ symbolPs false 7 = 2048000 := by
  decide

/-! ### One step of a command -/

/-- What an outcome's next state satisfies; false for a stop. -/
def nextHas (o : Host.Outcome State Fault Refusal) (P : State → Bool) : Bool :=
  match o with
  | .next t => P t
  | .fault _ => false
  | .refused _ => false

/-- An empty queue idles; a queue's front command runs. -/
theorem test_step_idles : nextHas (step wRun) (fun t => t.pending.isEmpty && t.time.now == 0) = true := by decide +kernel

theorem test_step_front : nextHas (step (wRun.withFront .timeTick)) (fun t => t.pending.isEmpty && decide (0 < t.time.now)) = true := by decide +kernel

/-- R275: one tick adds 6.4 ns. -/
theorem test_time_tick : nextHas (exec .timeTick wRun) (fun t => t.time.now == 32 * 2 ^ 40 / 5) = true := by decide +kernel

/-- The state after reset: a part whose supplies are not good keeps still at a tick. -/
theorem test_reset_tick : nextHas (exec .timeTick State.reset) (fun t => t.time.now == 0) = true := by decide +kernel

/-- R386: HELLO is served at once. -/
theorem test_hello : nextHas (exec (.hello 0 ⟨0x1234, 1, []⟩) wRun) (fun t => (t.chan 0).done && !(t.chan 0).busy) = true := by decide +kernel

/-- The worked case of opening a camera stream on queue 513 through channel 2. -/
def tOpen : Request := { tag := 7, len := 3, args := [0xFF062201, 0x5DC0, 0x1F4, 0x17D1A4, 0x4B0, 0, 0, 0] }

/-- The running part with every host lane up. -/
def tLanes : State := { wRun with lanes := Vector.ofFn (fun n => { wRun.lane n with state := .up }) }

/-- Its response is 0x0007_0220 and status 0; B0 begins 0x4E: open, inbound, hop, priority 6. -/
theorem test_stream_open :
    nextHas (exec (.streamOpen 2 tOpen) tLanes) (fun t => (t.chan 2).resp.get 0 == 0x00070220 && fld ((t.chan 2).resp.get 1) 0 16 == 0
      && fld ((t.chan 2).resp.get 4) 24 8 == 0x4E) = true := by decide +kernel

/-- R350: a plain, a set and a clear write of `HL_CTRL` of host lane 2. -/
theorem test_register_ways :
    nextHas (exec (.registerWrite .spi (plainAddr 0x22 0) 0x10) wRun) (fun t => bit (t.laneReg 2 0) 4) = true
    ∧ nextHas (exec (.registerWrite .spi (plainAddr 0x22 0 ||| 0x4000) 0x10) wRun) (fun t => bit (t.laneReg 2 0) 4) = true
    ∧ nextHas (exec (.registerWrite .spi (plainAddr 0x22 0 ||| 0x8000) 0x10) (wRun.setReg (regKey 0x22 0) 0x10)) (fun t => !bit (t.laneReg 2 0) 4) = true := by
  decide +kernel

/-- The worked reset of port 5 over SPI: the key arms the guard, the value is held, the complement carries it out. -/
theorem test_guard_key : nextHas (exec (.gdKeyWrite .spi) wRun) (fun t => t.spi.guard == .armed) = true := by decide +kernel

theorem test_guard_value :
    nextHas (exec (.guardedValueWrite .spi 0x00002C 0x00200000) { wRun with spi := { wRun.spi with guard := .armed } })
      (fun t => t.spi.guard == .holding 0x00002C 0x00200000) = true := by decide +kernel

theorem test_guard_complement :
    nextHas (exec (.guardComplementWrite .spi 0x00042C 0xFFDFFFFF) { wRun with spi := { wRun.spi with guard := .holding 0x00002C 0x00200000 } })
      (fun t => t.spi.guard == .idle && !t.spi.badGuard && !t.spi.noChange) = true := by decide +kernel

/-- R346: a bad CRC is counted and reported. -/
theorem test_spi_crc : nextHas (exec (.spiTransactionError .badCrc) wRun) (fun t => t.spi.badCrc && !t.spi.badFrame) = true := by
  decide +kernel

/-- R383, R417: two KEY_LOADs of one index that waited for a zeroising are served in the order of their doorbells. -/
theorem test_key_turns :
    (((({ wRun with otp := { wRun.otp with kek := true } }.modChan 5 (fun h => { h with busy := true, work := some (.keyLoad 1 (some 7) 0) })).modChan 3
      (fun h => { h with busy := true, work := some (.keyLoad 1 (some 9) 1) })).waitingKeys).keys.key? 1) = some 9 := by decide +kernel

/-- R259, R264: a host frame for no open queue leaves no ticket. -/
theorem test_host_frame_closed :
    nextHas (exec (.outboundFrame 0 true true (wTag 0x201 false 0) wFrame) (wUp true)) (fun t => t.basin.tickets.isEmpty) = true := by decide +kernel

end Sys2Proof.Tests
end

section
/-! PROOFS. No command changes the waiting queue, the die or the OTP (R6, R51, R435): the closing forms of a command carry the
root of its effect, and every effect keeps the root. -/

namespace Sys2Proof.Machine

/-- A next state that the outcome `o` answers has the root of `s`. -/
def KeepsRoot (s : State) (o : Host.Outcome State Fault Refusal) : Prop := ∀ t, o = .next t → t.frame.root = s.frame.root

/-! ### The closing forms -/

section
variable {s u : State} (h : u.frame.root = s.frame.root)
include h

theorem State.gated_root : (s.gated u).frame.root = s.frame.root := by
  unfold State.gated
  split
  · exact h
  · rfl

theorem State.done_keepsRoot : KeepsRoot s (s.done u) := by
  intro t ht
  rw [State.done_eq, Host.Outcome.next.injEq] at ht
  rw [← ht, settle_frame, h]

theorem State.runs_keepsRoot : KeepsRoot s (s.runs u) := State.done_keepsRoot (State.gated_root h)

theorem State.runsPort_keepsRoot (p : Fin 16) : KeepsRoot s (s.runsPort p u) :=
  State.done_keepsRoot (State.gated_root (by rw [State.followPort_frame, h]))

theorem State.actsAll_keepsRoot : KeepsRoot s (s.actsAll u) := State.done_keepsRoot (by rw [State.followAll_frame, h])

theorem State.runsAll_keepsRoot : KeepsRoot s (s.runsAll u) :=
  State.done_keepsRoot (State.gated_root (by rw [State.followAll_frame, h]))

end

/-! ### The commands -/

/-- Requests and register accesses go through one shared operation each. The effect of any other row is an operation of its own,
whose law `simp` finds: that it keeps the whole frame (Laws/Frame.lean) or, where it resets or accesses registers, the root
(Laws/Root.lean). -/
theorem exec_keepsRoot (c : Instr) (s : State) : KeepsRoot s (exec c s) := by
  cases c with
  -- Requests to a mailbox channel.
  | hello | streamOpen | streamModify | streamClose | cadenceSet | cadenceLearn | timeSet | timeAdjustRate |
  timeAdjustSlew | timeAdjustStep | scheduleEventAdd | scheduleEventCancel | snapshotAt | commitAt | calRun | calRead |
  diagWatchRead | diagWatchCapture | diagWatchDiscard | keyLoad | keyErase | journalCommit | journalRead | bistRunMarch |
  bistRunPortTest | bistRunLoopback | eventFetch | remoteCmdRequest | remoteCmdAnswer | fwStage | fwActivate =>
    exact State.runs_keepsRoot (State.issueCmd_root _ _ _ _ _)
  | portSetPolicy | portEnable | portDisable | portForceMode | diagTdr | bistRunLbist | unknownCmd =>
    exact State.runsAll_keepsRoot (State.issueCmd_root _ _ _ _ _)
  -- Register accesses.
  | gdKeyWrite | indDataWrite | ckCtrlWrite | pcSeedWrite | tpCtrlWrite | lnTxWrite | lnRxWrite | rhXtWrite |
  lnBlkCtrlWrite | lnQuietWrite | basinRegWrite | hlRegWrite | tmRegWrite | calRegWrite | dgRegWrite =>
    exact State.done_keepsRoot (State.wr_root _ _ _ _ _ _)
  | lnModeWrite | lnPolicyWrite =>
    exact State.actsAll_keepsRoot (State.wr_root _ _ _ _ _ _)
  | tdrStart =>
    exact State.actsAll_keepsRoot (State.wrBit_root _ _ _ _ _)
  | watchCapture | watchClearRef | mbTake | counterClear | pcSelNow | lnQuietWake | plRebal =>
    exact State.done_keepsRoot (State.wrBit_root _ _ _ _ _)
  | pdForceOffWrite | ckResetPort | stLbistStart | ksZeroise =>
    exact State.actsAll_keepsRoot (State.guardedWrite_root _ _ _ _ _ _)
  | ckResetSoft | ckResetKeeper | ckResetLane | lnTxTestWrite | calOvrWrite | stLoopbackStart =>
    exact State.done_keepsRoot (State.guardedWrite_root _ _ _ _ _ _)
  | registerWrite | guardedValueWrite | guardComplementWrite =>
    exact State.actsAll_keepsRoot (State.addrWrite_root _ _ _ _)
  | indDataRead | tmNowNsRead | counterLowRead =>
    exact State.done_keepsRoot (State.busRead_root _ _ _ _ _)
  -- Blocks and frames of the standard modes.
  | blockSend | data | fill | sync | blockOtherType | syncTimeout => exact State.runsPort_keepsRoot (by simp) _
  | blockFailed | nackRepeat | blockResendTimeout | stdFrameReceived | stdFrameSent => exact State.runs_keepsRoot (by simp)
  -- Temperature, calibration and diagnostics.
  | tempSample | thermalDownshiftStep => exact State.runsAll_keepsRoot (by simp)
  | calSliceDone | calPortRunDone | calRetry | calMaxWait | watchEvaluation | watchAutoCapture | watchCaptureDone =>
    exact State.runs_keepsRoot (by simp)
  | tdrListenEnd | tdrComplete => exact State.runsPort_keepsRoot (by simp) _
  -- Time-outs and ends of Auzer commands.
  | streamCloseComplete | cadenceLearnDone | cadenceLearnTimeout | timeSetTsyncTimeout | diagWatchCaptureTimeout |
  bistPortTestTimeout | remoteAnswerTimeout | remoteInHostTimeout | fwActivateReset => exact State.runs_keepsRoot (by simp)
  -- Host lanes, the basin and placement.
  | hostFrameSent | outboundFrame | receipt | controlFrameInvalid | receiptTimeout | releaseRepeat | pauseFrame |
  pauseExpiry | pauseStuck | laneUp | laneStartRetry | laneLoss | moveLaneStart | rebalanceCheck | basinScrub |
  bankCopyDone | cellMigrationDone => exact State.runs_keepsRoot (by simp)
  -- Link start, the ladder, shifts and cells.
  | clause98Resolved | anPageTimeout | stdTrainingDone | stdLinkFail | beaconListenEnd | beaconAnswer | cap |
  discoverTimeout | soundingBurst | mode | soundTimeout | echoLearnPhaseEnd | fullDuplexEnd | go | goCountReached |
  trainingTimeout | holdEnd | towpathLoss | ladderUpdate | shift | shiftReq | shiftRetrainEnd | shiftNotConverged | cack |
  cellResendTimeout | macFail | block | startMarkerReceived | soundingBurstMissing => exact State.runsPort_keepsRoot (by simp) _
  | upBarExpiry | tpsf | sfChange | tpsfRenew | nonceRefreshStart | nonce | nonceOldDrop | idle | unknownCell |
  towpathCellSlot | pilot | cellCrcFail | streamStop | streamStart | ping | remoteApplication | remoteUnknownOp |
  remoteAnswer => exact State.runs_keepsRoot (by simp)
  -- Quiet and low-power idle.
  | quietEnterSend | quietEnter | quietExit | quietAbort | lpiIdleTimeout | partnerLpi => exact State.runs_keepsRoot (by simp)
  | quietEntryPoint | quietExitPoint | deepQuietEarlyWake | deepQuietEnd | deepQuietMarkerTimeout =>
    exact State.runsPort_keepsRoot (by simp) _
  -- Receive processing and LDMT.
  | soundingRefresh | agcStep | floatClusterCheck | xtAllocation | dmtSnrUpdate | tableMessage | dmtTableRepeat |
  bitswapSwitch | symbolSlip => exact State.runs_keepsRoot (by simp)
  -- Register interfaces, scrubber and monitor.
  | spiTransactionError | guardTimeout | mdioAddress | mdioRead | mdioReadInc | mdioLatchTimeout | monRead |
  monInvokeResponse | monTrace | monCounters | monBaud | monBadLine => exact State.done_keepsRoot (by simp)
  | parityScrub | keeperRestoreOwned => exact State.runsAll_keepsRoot (by simp)
  | counterWrap => exact State.runs_keepsRoot (by simp)
  | mdioWrite | monWrite | monInvoke => exact State.actsAll_keepsRoot (by simp)
  -- Self-test, the journal and boundary scan.
  | marchInterval | marchDone | portTestInterval | loopbackDone | journalAutoCommit | journalCommitDone | engineSliceRetry =>
    exact State.runs_keepsRoot (by simp)
  | lbistDone | safeStateComplete | boundaryScan => exact State.done_keepsRoot (by simp)
  -- Supplies, clocks, resets and the keeper.
  | supplyMonitorTrip | suppliesGood | resetNFall | resetNRise | refclkWindowEnd | pllHoldoverEntry | pllLockTimeout |
  watchOscCheck | sscChangeApply | basinInitDone | pfailNRise | testEnFall | domainSequencerTurn | domainUsable =>
    exact State.done_keepsRoot (by simp)
  | pllLockWindowEnd | pllNoFeedback | forcedSwitch | clockMuxBothAbsent | pfailNFall | pfailRelease | testEnRise =>
    exact State.actsAll_keepsRoot (by simp)
  | firmwareStart | keeperRestartDone | keeperWatchdogExpiry | lockstepMismatch | keeperSramUncorrectable =>
    exact State.runs_keepsRoot (by simp)
  -- Vehicle time and the calendar.
  | timeTick => exact State.done_keepsRoot (by simp)
  | slewDone | tsyncEdge | tmarkRise | tmarkFall | windowStart | windowStop | snapshotTake | hostEventInstant |
  tmarkPulseInstant | snapshotCopyDone | timeReqTimer | timeReq | timeSync | xferNoSource => exact State.runs_keepsRoot (by simp)
  | commitAct => exact State.runsAll_keepsRoot (by simp)
  -- The second zeroising attempt.
  | zeroiseRetry => exact State.runsAll_keepsRoot (by simp)

/-- Settles O5: every command's effect keeps the root, and so does what closes it. -/
theorem rootKept : Obligations.RootKept := fun c s => exec_keepsRoot c s

end Sys2Proof.Machine
end

section
/-! PROOFS. Supplies, pins and start-up (R16, R32, R34, R51, R55, R377): what the end of hard reset, a halted start-up and the
boot ROM's choice leave, and the statements on them. -/

namespace Sys2Proof.Machine

/-! ### The end of hard reset and of a halt, in a cold part -/

/-- The end of hard reset in a cold part leaves the supervisor but for the stage, SAFE_N and what waited for REFCLK. -/
theorem State.beginStart_sup_of_cold {s : State} (h : s.cold) :
    ∃ a b c, s.beginStart.sup = { s.sup with stage := a, safeN := b, softAfterRef := c } := by
  by_cases hs : s.sup.stage = .hardReset
  · exact s.beginStart_keep (h (.inl hs))
  · exact ⟨_, _, _, by rw [s.beginStart_not (.inl hs)]⟩

/-- The end of a halt in a cold part leaves the supervisor but for the stage. -/
theorem State.unhalt_sup_of_cold {s : State} (h : s.cold) : ∃ a, s.unhalt.sup = { s.sup with stage := a } := by
  unfold State.unhalt
  split
  · rename_i hc
    have hs : s.sup.stage = .halted := by simp_all
    exact ⟨_, s.stepTwo_sup (h (.inr hs))⟩
  · exact ⟨_, rfl⟩

/-- A halted start-up that TEST_EN does not hold goes where the end of hard reset would. -/
theorem State.unhalt_stage {s : State} (h : s.cold) (hs : s.sup.stage = .halted) (ht : s.sup.testEn = false) :
    s.unhalt.sup.stage = s.startStage := by
  unfold State.startStage
  by_cases hp : s.sup.pfailN = true
  · rw [s.unhalt_sup hs hp ht (h (.inr hs))]; simp [hp, ht]
  · rw [s.unhalt_not (.inr (.inl (by simpa using hp)))]; simp [hp, hs]

/-! ### Supplies and RESET_N -/

/-- TEST_EN low again, on the state that the command's effect starts from. -/
def State.testLow (s : State) : State := { s with sup := { s.sup with testEn := false, testHeld := false } }

theorem State.testLow_cold {s : State} (h : s.cold) : s.testLow.cold := h

theorem State.testFalls_eq (s : State) : s.testFalls = s.testLow.beginStart.unhalt := rfl

theorem State.testFalls_low {s : State} (h : s.cold) : s.testFalls.sup.testEn = false ∧ s.testFalls.sup.testHeld = false := by
  obtain ⟨a, b, c, hb⟩ := State.beginStart_sup_of_cold (State.testLow_cold h)
  obtain ⟨d, hu⟩ := State.unhalt_sup_of_cold (s := s.testLow.beginStart) (s.testLow.beginStart_cold h)
  rw [s.testFalls_eq, hu, hb]
  exact ⟨rfl, rfl⟩

/-- A start-up that ends hard reset is not halted by a TEST_EN that has fallen; where PFAIL_N halts it, it stays so. -/
theorem State.testFalls_stage_of_hardReset {s : State} (h : s.cold) (hs : s.sup.stage = .hardReset) (hr : s.sup.resetN = true)
    (hg : s.sup.suppliesGood = true) : s.testFalls.sup.stage = s.testLow.startStage := by
  have hb : s.testLow.beginStart.sup.stage = s.testLow.startStage := s.testLow.beginStart_stage hs hr hg rfl (h (.inl hs))
  obtain ⟨a, b, c, hk⟩ := State.beginStart_sup_of_cold (State.testLow_cold h)
  rw [s.testFalls_eq, State.unhalt_not, hb]
  by_cases hp : s.sup.pfailN = true
  · left; rw [hb]; unfold State.startStage State.testLow; cases s.sup.refclkOk <;> simp [hp]
  · right; left; rw [hk]; simpa [State.testLow] using hp

theorem State.testFalls_stage_of_halted {s : State} (h : s.cold) (hs : s.sup.stage = .halted) : s.testFalls.sup.stage = s.testLow.startStage := by
  have hb : s.testLow.beginStart = s.testLow := s.testLow.beginStart_not (.inl (by simp [State.testLow, hs]))
  rw [s.testFalls_eq, hb]
  exact State.unhalt_stage (State.testLow_cold h) hs rfl

theorem supplyMonitorTrip_does (s : State) (rail : Fin 8) : Does (.supplyMonitorTrip rail) s (fun t => t.sup.stage = .hardReset
    ∧ t.sup.safeN = false ∧ t.sup.suppliesGood = false ∧ t.sup.tripped.getLsbD rail.val = true ∧ t.sup.cause = some (2, t.sup.tripped)
    ∧ t.regs = [] ∧ t.keys = {} ∧ t.basin = {} ∧ ∀ p, (t.port p).link = {}) := by
  refine ⟨_, rfl, ?_⟩
  simp only [settle_sup, settle_regs, settle_keys, settle_basin, settle_port_link]
  have hmark : (s.railTrips rail).sup.tripped.getLsbD rail.val = true := by
    show (setBit _ rail.val true).getLsbD rail.val = true
    have := rail.isLt
    simp [setBit]
  exact ⟨rfl, rfl, rfl, hmark, rfl, rfl, rfl, rfl, reset_port_link⟩

theorem resetNFall_does (s : State) : Does .resetNFall s (fun t => t.sup.stage = .hardReset ∧ t.sup.safeN = false ∧ t.sup.resetN = false
    ∧ t.sup.cause = some (1, 0) ∧ t.sup.bootSel = s.sup.bootSel ∧ t.sup.mdioAddr = s.sup.mdioAddr
    ∧ t.regs = [] ∧ t.keys = {} ∧ t.basin = {} ∧ ∀ p, (t.port p).link = {}) := by
  refine ⟨_, rfl, ?_⟩
  simp only [settle_sup, settle_regs, settle_keys, settle_basin, settle_port_link]
  exact ⟨rfl, rfl, rfl, rfl, rfl, rfl, rfl, rfl, rfl, reset_port_link⟩

theorem resetNRise_does (s : State) (b : BitVec 2) (a : BitVec 5) (h : s.cold) (hn : s.sup.resetN = false) :
    Does (.resetNRise b a) s (fun t => t.sup.resetN = true ∧ t.sup.bootSel = b ∧ t.sup.mdioAddr = a
      ∧ (s.sup.stage = .hardReset → s.sup.suppliesGood = true → s.sup.testHeld = false → t.sup.stage = s.startStage)
      ∧ (s.sup.stage ≠ .hardReset ∨ s.sup.suppliesGood = false ∨ s.sup.testHeld = true → t.sup.stage = s.sup.stage)) := by
  have he : s.resetRises b a = ({ s with sup := { s.sup with resetN := true, bootSel := b, mdioAddr := a } } : State).beginStart := by
    unfold State.resetRises; rw [if_neg (by simp [hn])]
  generalize hu : ({ s with sup := { s.sup with resetN := true, bootSel := b, mdioAddr := a } } : State) = u at he
  have hsup : u.sup = { s.sup with resetN := true, bootSel := b, mdioAddr := a } := by rw [← hu]
  have hcold : u.cold := by rw [← hu]; exact h
  obtain ⟨x, y, z, hk⟩ := State.beginStart_sup_of_cold hcold
  refine done_does (t := s.resetRises b a) rfl (fun w _ hw _ => ?_)
  rw [held_sup hw, he]
  refine ⟨by rw [hk, hsup], by rw [hk, hsup], by rw [hk, hsup], fun h1 h2 h3 => ?_, fun h1 => ?_⟩
  · rw [u.beginStart_stage (by rw [hsup]; exact h1) (by rw [hsup]) (by rw [hsup]; exact h2) (by rw [hsup]; exact h3)
      (hcold (.inl (by rw [hsup]; exact h1)))]
    unfold State.startStage; rw [hsup]
  · rw [u.beginStart_not (by rw [hsup]; exact h1), hsup]

theorem suppliesGood_does (s : State) (h : s.cold) : Does .suppliesGood s (fun t => t.sup.suppliesGood = true ∧ t.sup.tripped = 0
    ∧ (s.sup.stage = .hardReset → s.sup.resetN = true → s.sup.testHeld = false → t.sup.stage = s.startStage)) := by
  obtain ⟨x, y, z, hk⟩ := State.beginStart_sup_of_cold (s := { s with sup := { s.sup with suppliesGood := true, tripped := 0 } }) h
  refine done_does (t := s.railsGood) rfl (fun w _ hw _ => ?_)
  rw [held_sup hw]
  refine ⟨congrArg Supervisor.suppliesGood hk, congrArg Supervisor.tripped hk, fun h1 h2 h3 => ?_⟩
  exact State.beginStart_stage { s with sup := { s.sup with suppliesGood := true, tripped := 0 } } h1 h2 rfl h3 (h (.inl h1))

theorem testEnFall_does (s : State) (h : s.cold) : Does .testEnFall s (fun t => t.sup.testEn = false ∧ t.sup.testHeld = false
    ∧ (s.sup.stage = .hardReset → s.sup.resetN = true → s.sup.suppliesGood = true →
        t.sup.stage = ({ s with sup := { s.sup with testEn := false } }).startStage)
    ∧ (s.sup.stage = .halted → t.sup.stage = ({ s with sup := { s.sup with testEn := false } }).startStage)) := by
  obtain ⟨hl, hh⟩ := State.testFalls_low h
  refine done_does (t := s.testFalls) rfl (fun w _ hw _ => ?_)
  rw [held_sup hw]
  exact ⟨hl, hh, State.testFalls_stage_of_hardReset h, State.testFalls_stage_of_halted h⟩

/-! ### TEST_EN rising -/

/-- The hard reset of R34, before start-up may go on: the store empty, TEST_EN holding the part while it is high. -/
def State.testReset (s : State) : State :=
  let s1 := (s.safeState).hardReset 3 0
  { s1 with keys := { zeroOk := s.keys.zeroOk }, sup := { s1.sup with testHeld := s.sup.testEn } }

theorem State.testHold_eq (s : State) : s.testHold = s.testReset.beginStart := rfl

theorem State.testReset_sup (s : State) : s.testReset.sup = { s.sup.hard 3 0 with testHeld := s.sup.testEn } := by
  have h : s.testReset.sup = { s.safeState.sup.hard 3 0 with testHeld := s.sup.testEn } := rfl
  rw [h, s.safeState_sup]
  rfl

/-- While TEST_EN is high, the part stays in that hard reset. -/
theorem State.testHold_of_high {s : State} (h : s.sup.testEn = true) : s.testHold = s.testReset :=
  s.testReset.beginStart_not (.inr (.inr (by rw [s.testReset_sup]; exact h)))

theorem State.halt_regs (s : State) : s.halt.regs = s.regs.filter (fun e => decide (e.1 / 256 = 0)) := rfl
theorem State.halt_keys (s : State) : s.halt.keys = { zeroOk := s.keys.zeroOk } := rfl

/-- A start-up that begins with nothing stored, REFCLK not qualified and no PLL running still has nothing stored, and a store
that was verified is so still. -/
theorem State.beginStart_empty {s : State} {ok : Bool} (hr : s.regs = []) (hk : s.keys = { zeroOk := ok }) (hf : s.sup.refclkOk = false) :
    s.beginStart.regs = [] ∧ s.beginStart.keys = { zeroOk := ok } := by
  unfold State.beginStart State.stepTwo
  split
  · split
    · rw [hf]; exact ⟨hr, hk⟩
    · rw [s.halt_regs, s.halt_keys, hr, hk]; exact ⟨rfl, rfl⟩
  · exact ⟨hr, hk⟩

/-- What R34 leaves, whether TEST_EN is high still or not. -/
theorem State.testHold_leaves (s : State) :
    s.testHold.sup.cause = some (3, 0) ∧ s.testHold.keys = { zeroOk := s.keys.zeroOk } ∧ s.testHold.regs = [] := by
  obtain ⟨a, b, c, hk⟩ := s.testReset.beginStart_keep rfl
  obtain ⟨hr, hy⟩ := State.beginStart_empty (s := s.testReset) rfl rfl (by rw [s.testReset_sup]; rfl)
  rw [s.testHold_eq]
  exact ⟨by rw [hk, s.testReset_sup]; rfl, hy, hr⟩

/-- A TEST_EN that has fallen meanwhile lets start-up run again from step 2. -/
theorem State.testHold_stage_of_low {s : State} (h : s.sup.testEn = false) (hr : s.sup.resetN = true) (hg : s.sup.suppliesGood = true) :
    s.testHold.sup.stage = if s.sup.pfailN then .qualifying else .halted := by
  have hs := s.testReset_sup
  rw [s.testHold_eq, s.testReset.beginStart_stage (by rw [hs]; rfl) (by rw [hs]; exact hr) (by rw [hs]; exact hg) (by rw [hs]; exact h) rfl]
  unfold State.startStage
  rw [hs]
  simp [Supervisor.hard, h]

/-- A zeroising that starts (R417): an empty store, counted. -/
def KeyStore.emptied (k : KeyStore) (cause : Nat) : KeyStore :=
  { k with keys := [], identity := false, zeroOk := false, zeroising := some cause, zeroCnt := satAdd 0xFFFF k.zeroCnt 1 }

/-- A part whose zeroising has emptied the store and not yet read it back. -/
def State.keysEmptied (s : State) (cause : Nat) : State := { s with keys := s.keys.emptied cause }

theorem State.zeroise_true {s : State} (h : s.keys.zeroising = none) (cause : Nat) :
    s.zeroise cause true = (s.keysEmptied cause).zeroDone true cause false := by
  unfold State.zeroise; rw [if_neg (by simp [h])]; rfl

theorem State.zeroise_false {s : State} (h : s.keys.zeroising = none) (cause : Nat) :
    s.zeroise cause false = s.keysEmptied cause := by
  unfold State.zeroise; rw [if_neg (by simp [h])]; rfl

/-- TEST_EN high, on the state that the command's effect starts from. -/
def State.testHigh (s : State) : State := { s with sup := { s.sup with testEn := true } }

theorem State.testRises_true {s : State} (h : s.sup.stage ≠ .hardReset) (hz : s.keys.zeroising = none) :
    s.testRises true = (s.testHigh.zeroise 2 true).testHold := by
  have hd : (s.testHigh.zeroise 2 true).keys.zeroising = none := by
    rw [State.zeroise_true (s := s.testHigh) hz, State.zeroDone_zeroising]
  show (if s.sup.stage == .hardReset then s.testHigh
    else if (s.testHigh.zeroise 2 true).keys.zeroising.isSome then _ else (s.testHigh.zeroise 2 true).testHold) = _
  rw [if_neg (by simpa using h), if_neg (by simp [hd])]

theorem State.testRises_false {s : State} (h : s.sup.stage ≠ .hardReset) (hz : s.keys.zeroising = none) :
    s.testRises false = { s with keys := s.keys.emptied 2, sup := { s.sup with testEn := true, testEnWaits := true } } := by
  have he := State.zeroise_false (s := s.testHigh) hz 2
  show (if s.sup.stage == .hardReset then s.testHigh
    else if (s.testHigh.zeroise 2 false).keys.zeroising.isSome then
      ({ s.testHigh.zeroise 2 false with sup := { (s.testHigh.zeroise 2 false).sup with testEnWaits := true } } : State) else _) = _
  rw [if_neg (by simpa using h), he]
  rfl

theorem testEnRise_true_does (s : State) (h : s.sup.stage ≠ .hardReset) (hz : s.keys.zeroising = none) :
    Does (.testEnRise true) s (fun t => t.sup.testEn = true ∧ t.sup.stage = .hardReset ∧ t.sup.safeN = false
      ∧ t.sup.cause = some (3, 0) ∧ t.keys.keys = [] ∧ t.keys.identity = false ∧ t.regs = []) := by
  have ht : (s.testHigh.zeroise 2 true).sup.testEn = true := by rw [State.zeroise_sup]; rfl
  refine acts_does (t := s.testRises true) rfl (fun u hf hu => ?_)
  rw [held_sup hu, held_keys hu, frame_regs hf, State.testRises_true h hz, State.testHold_of_high ht, State.testReset_sup]
  exact ⟨ht, rfl, rfl, rfl, rfl, rfl, rfl⟩

theorem testEnRise_false_does (s : State) (h : s.sup.stage ≠ .hardReset) (hz : s.keys.zeroising = none) :
    Does (.testEnRise false) s (fun t => t.sup.testEn = true ∧ t.keys.keys = [] ∧ t.keys.identity = false
      ∧ t.keys.zeroising = some 2 ∧ t.sup.stage = s.sup.stage) := by
  refine acts_does (t := s.testRises false) rfl (fun u hf hu => ?_)
  rw [held_sup hu, held_keys hu, State.testRises_false h hz]
  exact ⟨rfl, rfl, rfl, rfl, rfl⟩

theorem testEnRise_hardReset_does (s : State) (ok : Bool) (h : s.sup.stage = .hardReset) :
    Does (.testEnRise ok) s (fun t => t.sup = { s.sup with testEn := true }) := by
  have he : s.testRises ok = s.testHigh := if_pos (by simp [h])
  refine acts_does (t := s.testRises ok) rfl (fun u hf hu => ?_)
  rw [held_sup hu, he]
  rfl

/-- Settles O12, clause by clause: each command's effect on the supervisor follows from how hard reset ends. -/
theorem suppliesAndResetPins : Obligations.SuppliesAndResetPins :=
  ⟨supplyMonitorTrip_does, resetNFall_does, resetNRise_does, suppliesGood_does, testEnFall_does,
    fun s h hz => ⟨testEnRise_true_does s h hz, testEnRise_false_does s h hz⟩, testEnRise_hardReset_does⟩

/-! ### From the basin to running firmware -/

theorem State.basinReady_eq {s : State} (h : s.sup.stage = .basinInit) :
    s.basinReady = (({ s with sup := { s.sup with stage := .released } } : State).loadIdentity).releaseKeeper := by
  unfold State.basinReady; rw [if_pos (by simp [h])]

/-- A programmed identity key stands in a store without fault once it has been loaded. -/
theorem State.loadIdentity_identity {s : State} (ho : s.otp.identity = true) (hf : s.keys.fault = false) : s.loadIdentity.keys.identity = true := by
  unfold State.loadIdentity
  split
  · rfl
  · simp_all

theorem basinInitDone_does (s : State) (h : s.sup.stage = .basinInit) : Does .basinInitDone s (fun t => t.sup.stage = .released
    ∧ t.keeper.mode = (if s.sup.bootSel = 3 then .boardTest else if s.sup.bootSel = 2 then .romWait else .loading)
    ∧ (s.otp.identity = true → s.keys.fault = false → t.keys.identity = true)) := by
  refine done_far (t := s.basinReady) rfl (fun u _ hu hk => ?_)
  rw [held_sup hu, held_keys hu, far_keeper hk, State.basinReady_eq h, held_sup (State.releaseKeeper_held _), held_keys (State.releaseKeeper_held _)]
  unfold State.releaseKeeper
  dsimp only
  rw [State.loadIdentity_sup]
  exact ⟨rfl, rfl, fun ho hf => State.loadIdentity_identity ho hf⟩

/-- The boot ROM's choice, as the validity of the two slots gives it (R377). -/
theorem State.bootChoose_eq {s : State} (h : s.keeper.mode = .loading) (a b : ImageReport) (j : JournalReport) :
    s.bootChoose a b j = match s.imageOk a, s.imageOk b with
      | true, true => if a.version.toNat < b.version.toNat then s.startImage 1 b j.campion j.yarrow else s.startImage 0 a j.campion j.yarrow
      | true, false => s.startImage 0 a j.campion j.yarrow
      | false, true => s.startImage 1 b j.campion j.yarrow
      | false, false => { s with keeper := { s.keeper with mode := .romWait, bootErr := s.bootErrOf a b } } := by
  unfold State.bootChoose
  exact if_neg (by simp [h])

theorem firmwareStart_does (s : State) (a b : ImageReport) (j : JournalReport) (hc : s.clocked = true) (hl : s.keeper.mode = .loading) :
    Does (.firmwareStart a b j) s (fun t =>
      (s.imageOk a = true → s.imageOk b = true → t.keeper.mode = .running ∧ t.sup.safeN = true
        ∧ t.keeper.slot = (if a.version.toNat < b.version.toNat then 1 else 0)
        ∧ t.keeper.version = (if a.version.toNat < b.version.toNat then b.version else a.version))
      ∧ (s.imageOk a = true → s.imageOk b = false → t.keeper.mode = .running ∧ t.sup.safeN = true ∧ t.keeper.slot = 0 ∧ t.keeper.version = a.version)
      ∧ (s.imageOk a = false → s.imageOk b = true → t.keeper.mode = .running ∧ t.sup.safeN = true ∧ t.keeper.slot = 1 ∧ t.keeper.version = b.version)
      ∧ (s.imageOk a = false → s.imageOk b = false → t.keeper.mode = .romWait ∧ t.sup.safeN = s.sup.safeN)) := by
  refine runs_does (t := s.bootChoose a b j) hc rfl ?_
  rw [settle_keeper, settle_sup, State.bootChoose_eq hl]
  refine ⟨fun ha hb => ?_, fun ha hb => ?_, fun ha hb => ?_, fun ha hb => ?_⟩ <;> rw [ha, hb] <;> dsimp only
  · split <;> (rw [State.startImage_keeper, State.startImage_sup]; exact ⟨rfl, rfl, rfl, rfl⟩)
  · rw [State.startImage_keeper, State.startImage_sup]; exact ⟨rfl, rfl, rfl, rfl⟩
  · rw [State.startImage_keeper, State.startImage_sup]; exact ⟨rfl, rfl, rfl, rfl⟩
  · exact ⟨rfl, rfl⟩

/-- Settles O15: the release of the part, and the boot ROM's choice by the validity of the two slots. -/
theorem startUp : Obligations.StartUp := ⟨basinInitDone_does, firmwareStart_does⟩

end Sys2Proof.Machine
end

section
/-! PROOFS. Early power-fail (R16, R428, R429): the freeze, the halt of start-up, and the release of both. -/

namespace Sys2Proof.Machine

/-! ### Ports that nothing can follow on -/

/-- A port that is disabled and has no calibration run: no forced-off domain and no change of its link takes it anywhere. -/
def Port.idle (x : Port) : Prop := x.link.state = .disabled ∧ x.cal.running = false

theorem State.forceSync_disabled {s : State} {p : Fin 16} (h : (s.port p).link.state = .disabled) : s.forceSync p = s := by
  unfold State.forceSync
  split
  · rfl
  · rw [h]

theorem State.abandonRun_idle {s : State} {p : Fin 16} (h : (s.port p).cal.running = false) : s.abandonRun p = s := by
  unfold State.abandonRun
  rw [if_neg (by simp [h])]

/-- Withdrawing a calibration request changes no link and no run. -/
theorem State.modCal_waits (s : State) (p q : Fin 16) :
    ((s.modCal p (fun c => { c with waits := false, retry := false })).port q).link = (s.port q).link
      ∧ ((s.modCal p (fun c => { c with waits := false, retry := false })).port q).cal.running = (s.port q).cal.running := by
  unfold State.modCal
  by_cases h : q = p
  · subst h; rw [State.port_modPort_same]; exact ⟨rfl, rfl⟩
  · rw [State.port_modPort_ne _ h]; exact ⟨rfl, rfl⟩

theorem followPort_idle {old s : State} {p : Fin 16} (h : (s.port p).idle) (q : Fin 16) :
    ((State.followPort old s p).port q).link = (s.port q).link ∧ ((State.followPort old s p).port q).cal.running = (s.port q).cal.running := by
  obtain ⟨hd, hr⟩ := h
  have hw := s.modCal_waits p
  unfold State.followPort
  rw [State.forceSync_disabled hd, ite_self]
  unfold State.calFollow
  dsimp only
  split
  · rw [State.abandonRun_idle ((hw p).2.trans hr)]; exact hw q
  · rw [if_pos (by simp [hr])]; exact ⟨rfl, rfl⟩

/-- Where every port is idle, what follows a command changes no link. -/
theorem followAll_idle {old s : State} (h : ∀ p, (s.port p).idle) (q : Fin 16) : ((State.followAll old s).port q).link = (s.port q).link := by
  unfold State.followAll
  generalize allPorts = l
  induction l generalizing s with
  | nil => rfl
  | cons p l ih =>
    have hp := followPort_idle (old := old) (h p)
    rw [List.foldl_cons, ih (fun r => ?_), (hp q).1]
    exact ⟨by rw [(hp r).1]; exact (h r).1, by rw [(hp r).2]; exact (h r).2⟩

/-! ### The freeze -/

/-- The frozen part that has told of the loss, before its ports go down. -/
def State.lossTold (s : State) : State :=
  ({ s with sup := { s.sup with pfailFrozen := true } } : State).raise 0x0061 0 0 0 (wd (s.hopHeld / 256))

theorem State.lossTold_port (s : State) (q : Fin 16) : s.lossTold.port q = s.port q := State.raise_port _ _ _ _ _ _ _ _ q

theorem State.powerLoss_eq (s : State) : s.powerLoss = allPorts.foldl (fun (t : State) p => t.holdDown p 8 true) s.lossTold := rfl

theorem State.powerLoss_held (s : State) : s.powerLoss.held = ({ s with sup := { s.sup with pfailFrozen := true } } : State).held := by
  simp [State.powerLoss]

theorem State.powerLoss_sup (s : State) : s.powerLoss.sup = { s.sup with pfailFrozen := true } := held_sup s.powerLoss_held

theorem State.powerLoss_side (s : State) : s.powerLoss.side = s.side := by
  rw [s.powerLoss_eq, foldl_keep State.side _ _ _ (fun t p => t.holdDown_side p 8 true)]
  exact State.raise_side _ _ _ _ _ _ _ _

theorem State.powerLoss_cal (s : State) (q : Fin 16) : (s.powerLoss.port q).cal = (s.port q).cal := by
  rw [s.powerLoss_eq, foldl_keep (fun t : State => (t.port q).cal) _ _ _ (fun t p => t.holdDown_calOf p q 8 true), s.lossTold_port]

theorem State.powerLoss_link (s : State) (q : Fin 16) (h1 : (s.port q).link.state ≠ .disabled) (h2 : (s.port q).link.state ≠ .diag) :
    (s.powerLoss.port q).link.state = .hold ∧ (s.powerLoss.port q).link.downCause = 8 := by
  rw [← s.lossTold_port] at h1 h2
  exact s.powerLoss_eq ▸ s.lossTold.holdAll_link allPorts (List.nodup_finRange 16) 8 true q h1 h2 (List.mem_finRange q)

/-- Nothing follows on a port that the freeze takes down, with no domain forced off and no calibration run. -/
theorem State.followAll_powerLoss {old s : State} (hf : s.frame = old.frame) (hp : s.parity = old.parity) (hs : s.side = old.side)
    (hports : ∀ p, s.port p = old.port p) (hu : old.unforced) (hc : ∀ p, (old.port p).cal.running = false) :
    State.followAll old s.powerLoss = s.powerLoss := by
  have hf' : s.powerLoss.frame = old.frame := (State.powerLoss_frame s).trans hf
  have hp' : s.powerLoss.parity = old.parity := (held_parity s.powerLoss_held).trans hp
  have hs' : s.powerLoss.side = old.side := s.powerLoss_side.trans hs
  refine followAll_free (State.unforced_of hf' hs' hu) (fun p => ?_) (fun p => (State.enabled_of hf' hp' hs' p).symm)
  rw [s.powerLoss_cal, hports]
  exact hc p

/-- PFAIL_N low, on the state that the command's effect starts from. -/
def State.pfailLow (s : State) : State := { s with sup := { s.sup with pfailN := false } }

/-- What a falling PFAIL_N does in each stage, with RESET_N high (R16, R425, R428). -/
theorem State.pfailFalls_eq {s : State} (hr : s.sup.resetN = true) : s.pfailFalls = match s.sup.stage with
    | .qualifying | .basinInit => s.pfailLow.halt
    | .locking | .coreFailed => if s.sup.softAfterRef then s.pfailLow.powerLoss else s.pfailLow.halt
    | .released => s.pfailLow.powerLoss
    | _ => s.pfailLow := by
  unfold State.pfailFalls
  exact if_neg (by simp [hr])

/-- From the end of start-up on, and while the PLLs lock again after a REFCLK loss, a falling PFAIL_N freezes the part. -/
theorem State.pfailFalls_freezes {s : State} (hr : s.sup.resetN = true)
    (hs : s.sup.stage = .released ∨ (s.sup.stage = .locking ∨ s.sup.stage = .coreFailed) ∧ s.sup.softAfterRef = true) :
    s.pfailFalls = s.pfailLow.powerLoss := by
  rw [State.pfailFalls_eq hr]
  obtain hs | ⟨hs | hs, ha⟩ := hs
  · rw [hs]
  · rw [hs]; exact if_pos ha
  · rw [hs]; exact if_pos ha

/-- During start-up a falling PFAIL_N halts the part. -/
theorem State.pfailFalls_halts {s : State} (hr : s.sup.resetN = true)
    (hs : s.sup.stage = .qualifying ∨ s.sup.stage = .basinInit
      ∨ (s.sup.stage = .locking ∨ s.sup.stage = .coreFailed) ∧ s.sup.softAfterRef = false) :
    s.pfailFalls = s.pfailLow.halt := by
  rw [State.pfailFalls_eq hr]
  obtain hs | hs | ⟨hs | hs, ha⟩ := hs
  · rw [hs]
  · rw [hs]
  · rw [hs]; exact if_neg (by rw [ha]; decide)
  · rw [hs]; exact if_neg (by rw [ha]; decide)

theorem pfailNFall_released_does (s : State) (hr : s.sup.resetN = true) (hs : s.sup.stage = .released) (hu : s.unforced)
    (hc : ∀ p, (s.port p).cal.running = false) : Does .pfailNFall s (fun t => t.sup.pfailN = false
      ∧ t.sup.pfailFrozen = true ∧ t.sup.stage = .released
      ∧ ∀ p, (s.port p).link.state ≠ .disabled → (s.port p).link.state ≠ .diag →
          (t.port p).link.state = .hold ∧ (t.port p).link.downCause = 8) := by
  have he : exec .pfailNFall s = .next (settle s s.pfailLow.powerLoss) := by
    show s.actsAll s.pfailFalls = _
    rw [State.pfailFalls_freezes hr (.inl hs), State.actsAll_eq, State.followAll_powerLoss (s := s.pfailLow) (old := s) rfl rfl rfl (fun _ => rfl) hu hc]
  refine ⟨_, he, ?_⟩
  dsimp only
  rw [settle_sup, State.powerLoss_sup]
  exact ⟨rfl, rfl, hs, fun p h1 h2 => by rw [settle_port_link]; exact s.pfailLow.powerLoss_link p h1 h2⟩

/-! ### The halt of start-up -/

theorem State.halt_idle (s : State) (p : Fin 16) : (s.halt.port p).link = {} ∧ (s.halt.port p).idle := by
  have h : s.halt.port p = {} := by
    show (Vector.replicate 16 ({} : Port))[p.val] = {}
    exact Vector.getElem_replicate _
  rw [h]
  exact ⟨rfl, rfl, rfl⟩

theorem pfailNFall_startUp_does (s : State) (hr : s.sup.resetN = true)
    (hs : s.sup.stage = .qualifying ∨ s.sup.stage = .basinInit
      ∨ (s.sup.stage = .locking ∨ s.sup.stage = .coreFailed) ∧ s.sup.softAfterRef = false) :
    Does .pfailNFall s (fun t => t.sup.pfailN = false ∧ t.sup.stage = .halted ∧ t.clk = {} ∧ t.sup.safeN = false
      ∧ ∀ p : Fin 16, (t.port p).link = {}) := by
  have he : exec .pfailNFall s = .next (settle s (State.followAll s s.pfailLow.halt)) := by
    show s.actsAll s.pfailFalls = _
    rw [State.pfailFalls_halts hr hs, State.actsAll_eq]
  have hh := State.followAll_held s s.pfailLow.halt
  refine ⟨_, he, ?_⟩
  dsimp only
  rw [settle_sup, settle_clk, held_sup hh, held_clk hh]
  refine ⟨rfl, rfl, rfl, rfl, fun p => ?_⟩
  rw [settle_port_link, followAll_idle (fun q => (s.pfailLow.halt_idle q).2), (s.pfailLow.halt_idle p).1]

theorem pfailNFall_relocking_does (s : State) (hr : s.sup.resetN = true) (hs : s.sup.stage = .locking ∨ s.sup.stage = .coreFailed)
    (ha : s.sup.softAfterRef = true) :
    Does .pfailNFall s (fun t => t.sup.pfailN = false ∧ t.sup.pfailFrozen = true ∧ t.sup.stage = s.sup.stage) := by
  refine acts_does (t := s.pfailFalls) rfl (fun u _ hu => ?_)
  rw [held_sup hu, State.pfailFalls_freezes hr (.inr ⟨hs, ha⟩), State.powerLoss_sup]
  exact ⟨rfl, rfl, rfl⟩

/-! ### The release -/

/-- PFAIL_N high, on the state that the command's effect starts from. -/
def State.pfailHigh (s : State) : State := { s with sup := { s.sup with pfailN := true } }

theorem State.pfailRises_eq (s : State) : s.pfailRises = s.pfailHigh.unhalt := rfl

theorem pfailNRise_does (s : State) (h : s.cold) (hs : s.sup.stage = .halted) : Does .pfailNRise s (fun t => t.sup.pfailN = true
    ∧ t.sup.stage = if s.sup.testEn then .halted else if s.sup.refclkOk then .locking else .qualifying) := by
  have hu : s.pfailRises.sup = { s.sup with pfailN := true
                                            stage := if s.sup.testEn then .halted else if s.sup.refclkOk then .locking else .qualifying } := by
    rw [s.pfailRises_eq]
    by_cases ht : s.sup.testEn = true
    · rw [s.pfailHigh.unhalt_not (.inr (.inr ht)), if_pos ht, ← hs]; rfl
    · rw [s.pfailHigh.unhalt_sup hs rfl (Bool.eq_false_of_not_eq_true ht) (h (.inr hs)), if_neg ht]; rfl
  refine done_does (t := s.pfailRises) rfl (fun w _ hw _ => ?_)
  rw [held_sup hw, hu]
  exact ⟨rfl, rfl⟩

/-- The release changes nothing of the supervisor but the freeze. -/
theorem State.pfailOver_sup {s : State} (h1 : s.sup.pfailFrozen = true) (h2 : s.sup.pfailN = true) (h3 : s.sup.suppliesGood = true) :
    s.pfailOver.sup = { s.sup with pfailFrozen := false } := by
  unfold State.pfailOver
  rw [if_pos (by simp [h1, h2, h3])]
  dsimp only
  rw [held_sup ((State.nextCommit_held _).trans (State.restartHeld_held _ _ _)), held_sup (foldl_held _ _ _ (by simp)),
    held_sup (foldl_held _ _ _ (by simp)), State.raise_sup]

theorem pfailRelease_does (s : State) (h1 : s.sup.pfailFrozen = true) (h2 : s.sup.pfailN = true) (h3 : s.sup.suppliesGood = true) :
    Does .pfailRelease s (fun t => t.sup.pfailFrozen = false) := by
  refine acts_does (t := s.pfailOver) rfl (fun u _ hu => ?_)
  rw [held_sup hu, State.pfailOver_sup h1 h2 h3]

/-- Settles O13: PFAIL_N falling freezes or halts by the stage of start-up, and each release ends one of the two. -/
theorem powerFail : Obligations.PowerFail :=
  ⟨pfailNFall_released_does, pfailNFall_startUp_does, pfailNFall_relocking_does, pfailNRise_does, pfailRelease_does⟩

end Sys2Proof.Machine
end

section
/-! PROOFS. Zeroising the key store (R417, R418): the command that starts it, and the second attempt with what waited for it
(R34, R413). -/

namespace Sys2Proof.Machine

/-! ### KS_ZERO -/

/-- A zeroising of a store that none runs on, with no KEY_LOAD waiting. -/
theorem State.zeroise_keys {s : State} (hz : s.keys.zeroising = none) (hw : ∀ c, (s.chan c).work = none) (cause : Nat) (ok : Bool) :
    (s.zeroise cause ok).keys = { s.keys.emptied cause with zeroising := if ok then none else some cause, zeroOk := ok } := by
  cases ok with
  | true =>
    rw [State.zeroise_true hz, ((s.keysEmptied cause).zeroDone_keys true cause false hw).1]
    simp [State.keysEmptied, KeyStore.emptied]
  | false => rw [State.zeroise_false hz]; rfl

theorem State.pack_keys (s : State) (i : Iface) (t : Tally) (g : IfaceRec) : (s.pack i t g).keys = s.keys := by cases i <;> rfl
theorem State.pack_chan (s : State) (i : Iface) (t : Tally) (g : IfaceRec) (c : Fin 16) : (s.pack i t g).chan c = s.chan c := by cases i <;> rfl

/-- A guarded write of KS_ZERO starts a zeroising of cause 1. -/
theorem State.applyWrite_zeroise (s : State) (i : Iface) (ok : Bool) :
    (s.applyWrite i 0 0x40 true .plain 1 (some (supZero ok))).held
      = ((s.setReg (regKey 0 0x40) (s.imageOf 0 0x40 true .plain 1)).zeroise 1 ok).held := by
  have hst : s.storeReg 0 0x40 true .plain 1 (some (supZero ok)) = (s.setReg (regKey 0 0x40) (s.imageOf 0 0x40 true .plain 1)).zeroise 1 ok := by
    have hb : bit (actedBits (keyFields (regKey 0 0x40)) true .plain 1) 0 = true := by decide
    unfold State.storeReg
    dsimp only
    rw [if_neg (by decide)]
    unfold State.regEffect
    rw [if_neg (by decide)]
    show State.chipEffect _ 0x40 _ _ _ = _
    unfold State.chipEffect
    rw [if_neg (by decide), if_neg (by decide), if_pos ⟨rfl, hb⟩]
    rfl
  unfold State.applyWrite
  dsimp only
  rw [if_neg (show ¬ (0 / 16 = 4 ∧ 0x40 = 0x80) by decide), hst]
  split
  · exact State.noteCopy_held _ _
  · rfl

theorem State.guardedWrite_zeroise_keys {s : State} {i : Iface} (h : s.opens i 0) (hz : s.keys.zeroising = none)
    (hw : ∀ c, (s.chan c).work = none) (ok : Bool) :
    (s.guardedWrite i 0 0x40 1 (some (supZero ok))).keys
      = { s.keys.emptied 1 with zeroising := if ok then none else some 1, zeroOk := ok } := by
  obtain ⟨t, g, -, he⟩ := State.guardedWrite_acts h (ix := 0x40) (by decide) (by decide) 1 (some (supZero ok))
  rw [he, held_keys (State.said_held _ _ _ _ _ _), held_keys (State.applyWrite_zeroise _ i ok), State.zeroise_keys, State.setReg_keys,
    State.pack_keys]
  · rw [State.setReg_keys, State.pack_keys]; exact hz
  · intro c
    show ((s.pack i t g).chan c).work = none
    rw [State.pack_chan]; exact hw c

theorem ksZeroise_does (s : State) (i : Iface) (ok : Bool) (h : s.opens i 0) (hz : s.keys.zeroising = none) (hw : ∀ c, (s.chan c).work = none) :
    Does (.ksZeroise i ok) s (fun t => t.keys.keys = [] ∧ t.keys.identity = false ∧ t.keys.zeroOk = ok
      ∧ t.keys.zeroCnt = satAdd 0xFFFF s.keys.zeroCnt 1 ∧ t.keys.zeroising = (if ok then none else some 1) ∧ t.keys.fault = s.keys.fault) := by
  refine acts_does (t := s.guardedWrite i 0 0x40 1 (some (supZero ok))) rfl (fun u _ hu => ?_)
  rw [held_keys hu, State.guardedWrite_zeroise_keys h hz hw]
  exact ⟨rfl, rfl, rfl, rfl, rfl, rfl⟩

/-! ### The second attempt -/

/-- A key store whose zeroising has ended. -/
def KeyStore.ended (k : KeyStore) (ok : Bool) : KeyStore := { k with zeroising := none, zeroOk := ok, fault := k.fault || !ok }

theorem State.zeroDone_sup (s : State) (ok : Bool) (c : Nat) (cy : Bool) : (s.zeroDone ok c cy).sup = s.sup := by
  unfold State.zeroDone
  dsimp only
  rw [State.waitingKeys_sup, held_sup (State.dropKeyed_held _)]
  split <;> rw [State.raise_sup]

theorem State.zeroiseAgain_eq {s : State} {n : Nat} (h : s.keys.zeroising = some n) (ok : Bool) : s.zeroiseAgain ok = s.zeroDone ok n true := by
  unfold State.zeroiseAgain; rw [h]

/-- The second attempt ends the zeroising, with no KEY_LOAD waiting; the supervisor and the keeper stay. -/
theorem State.zeroiseAgain_leaves {s : State} {n : Nat} (h : s.keys.zeroising = some n) (ok : Bool) (hw : ∀ c, (s.chan c).work = none) :
    (s.zeroiseAgain ok).keys = s.keys.ended ok ∧ (s.zeroiseAgain ok).keeper = s.keeper ∧ (s.zeroiseAgain ok).sup = s.sup := by
  rw [State.zeroiseAgain_eq h]
  obtain ⟨hk, hp⟩ := s.zeroDone_keys ok n true hw
  exact ⟨hk, hp, s.zeroDone_sup ok n true⟩

theorem State.zeroiseResult_alone {s : State} {n : Nat} (h : s.keys.zeroising = some n) (ok : Bool) (hn : n ≠ 3) :
    s.zeroiseResult ok = s.zeroiseEnds ok := by
  unfold State.zeroiseResult
  dsimp only
  rw [if_neg (by simp [h, hn])]

theorem State.zeroiseResult_lbist {s : State} (h : s.keys.zeroising = some 3) (ok : Bool) :
    s.zeroiseResult ok = (s.zeroiseEnds ok).lbistHold := by
  unfold State.zeroiseResult
  dsimp only
  rw [if_pos h]

/-- What an effect of the clocked part that may change links leaves, up to what its consequences touch. -/
theorem runsAll_far {c : Instr} {s t : State} {P : State → Prop} (hc : s.clocked = true) (he : exec c s = s.runsAll t)
    (h : ∀ u : State, u.frame = t.frame → u.held = t.held → u.far = t.far → P u) : Does c s P :=
  ⟨_, by rw [he, State.runsAll_eq hc], h _ (by simp) (by simp) (by rw [settle_far, State.followAll_far])⟩

theorem zeroiseRetry_does (s : State) (n : Nat) (ok : Bool) (hc : s.clocked = true) (hz : s.keys.zeroising = some n)
    (ht : s.sup.testEnWaits = false) (hw : ∀ c, (s.chan c).work = none) :
    Does (.zeroiseRetry ok) s (fun t => t.keys = { s.keys with zeroising := none, zeroOk := ok, fault := s.keys.fault || !ok }
      ∧ (n = 3 → ok = true → t.keeper.mode = .lbist) ∧ (n ≠ 3 → t.keeper = s.keeper)) := by
  obtain ⟨hk, hp, hs⟩ := State.zeroiseAgain_leaves hz ok hw
  have he : s.zeroiseEnds ok = s.zeroiseAgain ok := if_neg (by rw [hs, ht]; decide)
  refine runsAll_far (t := s.zeroiseResult ok) hc rfl (fun u _ hu hf => ?_)
  rw [held_keys hu, far_keeper hf]
  by_cases hn : n = 3
  · subst hn
    rw [State.zeroiseResult_lbist hz, he, held_keys (State.lbistHold_held _), hk]
    refine ⟨rfl, fun _ hok => ?_, fun h => absurd rfl h⟩
    unfold State.lbistHold
    rw [if_pos (by rw [hk]; exact hok)]
  · rw [State.zeroiseResult_alone hz ok hn, he, hk, hp]
    exact ⟨rfl, fun h => absurd h hn, fun _ => rfl⟩

theorem zeroiseRetry_testEn_does (s : State) (n : Nat) (ok : Bool) (hc : s.clocked = true) (hz : s.keys.zeroising = some n)
    (ht : s.sup.testEnWaits = true) (hn : n ≠ 3) (hw : ∀ c, (s.chan c).work = none) :
    Does (.zeroiseRetry ok) s (fun t => t.sup.cause = some (3, 0) ∧ t.keys = { zeroOk := ok } ∧ t.regs = []
      ∧ (s.sup.testEn = true → t.sup.stage = .hardReset)
      ∧ (s.sup.testEn = false → s.sup.resetN = true → s.sup.suppliesGood = true → t.sup.stage = if s.sup.pfailN then .qualifying else .halted)) := by
  obtain ⟨hk, -, hs⟩ := State.zeroiseAgain_leaves hz ok hw
  have he : s.zeroiseEnds ok = (s.zeroiseAgain ok).testHold := if_pos (by rw [hs]; exact ht)
  obtain ⟨h1, h2, h3⟩ := (s.zeroiseAgain ok).testHold_leaves
  refine runsAll_far (t := s.zeroiseResult ok) hc rfl (fun u hf hu _ => ?_)
  rw [held_sup hu, held_keys hu, frame_regs hf, State.zeroiseResult_alone hz ok hn, he]
  refine ⟨h1, by rw [h2, hk]; rfl, h3, fun hh => ?_, fun hl hr hg => ?_⟩
  · rw [State.testHold_of_high (by rw [hs]; exact hh), State.testReset_sup]; rfl
  · rw [State.testHold_stage_of_low (by rw [hs]; exact hl) (by rw [hs]; exact hr) (by rw [hs]; exact hg), hs]

/-- Settles O26: KS_ZERO through the guarded write, and the second attempt without and with a TEST_EN that waits for it. -/
theorem zeroise : Obligations.Zeroise := ⟨ksZeroise_does, zeroiseRetry_does, zeroiseRetry_testEn_does⟩

end Sys2Proof.Machine
end

section
/-! PROOFS. What the supervisor, clock, reset, key and register commands alone change (R51, R359, R417, R42, R45): the closing
forms of a command carry that part of its effect, and every other effect leaves it. -/

namespace Sys2Proof.Machine

/-- A next state that the outcome `o` answers has the held part of `s` or of the effect `u`. -/
def EndsHeld (s u : State) (o : Host.Outcome State Fault Refusal) : Prop := ∀ t, o = .next t → t.held = u.held ∨ t.held = s.held

/-! ### The closing forms -/

section
variable (s u : State)

theorem State.gated_heldEither : (s.gated u).held = u.held ∨ (s.gated u).held = s.held := by
  unfold State.gated
  split
  · exact .inl rfl
  · exact .inr rfl

theorem State.done_held {v t : State} (h : v.held = u.held ∨ v.held = s.held) (ht : s.done v = .next t) : t.held = u.held ∨ t.held = s.held := by
  rw [State.done_eq, Host.Outcome.next.injEq] at ht
  rw [← ht, settle_held]
  exact h

theorem State.done_endsHeld : EndsHeld s u (s.done u) := fun _ => State.done_held s u (.inl rfl)

theorem State.runs_endsHeld : EndsHeld s u (s.runs u) := fun _ => State.done_held s u (s.gated_heldEither u)

theorem State.runsPort_endsHeld (p : Fin 16) : EndsHeld s u (s.runsPort p u) := by
  have h := s.gated_heldEither (State.followPort s u p)
  rw [State.followPort_held] at h
  exact fun _ => State.done_held s u h

theorem State.actsAll_endsHeld : EndsHeld s u (s.actsAll u) := fun _ => State.done_held s u (.inl (State.followAll_held s u))

theorem State.runsAll_endsHeld : EndsHeld s u (s.runsAll u) := by
  have h := s.gated_heldEither (State.followAll s u)
  rw [State.followAll_held] at h
  exact fun _ => State.done_held s u h

end

/-- A command whose effect leaves the held part leaves it. -/
theorem EndsHeld.same {s u : State} {o : Host.Outcome State Fault Refusal} (h : EndsHeld s u o) (hu : u.held = s.held) :
    ∀ t, o = .next t → t.held = s.held := fun t ht => (h t ht).elim (fun e => e.trans hu) id

/-- A command whose effect keeps hard reset and halt cold keeps them cold. -/
theorem EndsHeld.cold {s u : State} {o : Host.Outcome State Fault Refusal} (h : EndsHeld s u o) (hs : s.held.cold) (hu : u.held.cold) :
    ∀ t, o = .next t → t.held.cold := fun t ht => (h t ht).elim (fun e => e ▸ hu) (fun e => e ▸ hs)

/-! ### The requests -/

/-- The command codes that may change the held part: HELLO, the port commands, the key commands, BIST_RUN and FW_ACTIVATE. -/
def heldCodes : List Nat := [0x01, 0x10, 0x11, 0x12, 0x13, 0x60, 0x61, 0x80, 0xF1]

theorem State.serveCode_held {code : Nat} (h : code ∉ heldCodes) (s : State) (c : Fin 16) (sup : Option Supplied) :
    (s.serveCode c code sup).held = s.held := by
  unfold State.serveCode
  split <;> first | exact absurd (by decide) h | simp

/-- A request of a code that does not touch the held part leaves it. -/
theorem State.issueCmd_held_of {code : Nat} (hc : code < 256) (h : code ∉ heldCodes) (s : State) (c : Fin 16) (r : Request) (sup : Option Supplied) :
    (s.issueCmd c code r sup).held = s.held := State.issueCmd_held' s c code r sup hc (fun t => t.serveCode_held h c sup)

/-! ### The commands -/

/-- Requests go through one shared operation; the effect of any other row is an operation of its own, whose law in
Laws/Held.lean `simp` finds. -/
theorem exec_keepsHeld {c : Instr} (hw : writesHeld c = false) (s : State) : ∀ t, exec c s = .next t → t.held = s.held := by
  cases c with
  -- Requests to a mailbox channel.
  | streamOpen | streamModify | streamClose | cadenceSet | cadenceLearn | timeSet | timeAdjustRate |
  timeAdjustSlew | timeAdjustStep | scheduleEventAdd | scheduleEventCancel | snapshotAt | commitAt | calRun | calRead |
  diagWatchRead | diagWatchCapture | diagWatchDiscard | journalCommit | journalRead | eventFetch | remoteCmdRequest |
  remoteCmdAnswer | fwStage =>
    exact (State.runs_endsHeld _ _).same (State.issueCmd_held_of (by decide) (by decide) _ _ _ _)
  | diagTdr => exact (State.runsAll_endsHeld _ _).same (State.issueCmd_held_of (by decide) (by decide) _ _ _ _)
  -- Blocks and frames of the standard modes.
  | blockSend | data | fill | sync | blockOtherType | syncTimeout => exact (State.runsPort_endsHeld _ _ _).same (by simp)
  | blockFailed | nackRepeat | blockResendTimeout | stdFrameReceived | stdFrameSent => exact (State.runs_endsHeld _ _).same (by simp)
  -- Temperature, calibration and diagnostics.
  | tempSample | thermalDownshiftStep => exact (State.runsAll_endsHeld _ _).same (by simp)
  | calSliceDone | calPortRunDone | calRetry | calMaxWait | watchEvaluation | watchAutoCapture | watchCaptureDone =>
    exact (State.runs_endsHeld _ _).same (by simp)
  | tdrListenEnd | tdrComplete => exact (State.runsPort_endsHeld _ _ _).same (by simp)
  -- Time-outs and ends of Auzer commands.
  | streamCloseComplete | cadenceLearnDone | cadenceLearnTimeout | timeSetTsyncTimeout | diagWatchCaptureTimeout |
  bistPortTestTimeout | remoteAnswerTimeout | remoteInHostTimeout => exact (State.runs_endsHeld _ _).same (by simp)
  -- Host lanes, the basin and placement.
  | hostFrameSent | outboundFrame | receipt | controlFrameInvalid | receiptTimeout | releaseRepeat | pauseFrame |
  pauseExpiry | pauseStuck | laneUp | laneStartRetry | laneLoss | moveLaneStart | rebalanceCheck | basinScrub |
  bankCopyDone | cellMigrationDone => exact (State.runs_endsHeld _ _).same (by simp)
  -- Link start, the ladder, shifts and cells.
  | clause98Resolved | anPageTimeout | stdTrainingDone | stdLinkFail | beaconListenEnd | beaconAnswer | cap |
  discoverTimeout | soundingBurst | mode | soundTimeout | echoLearnPhaseEnd | fullDuplexEnd | go | goCountReached |
  trainingTimeout | holdEnd | towpathLoss | ladderUpdate | shift | shiftReq | shiftRetrainEnd | shiftNotConverged | cack |
  cellResendTimeout | macFail | block | startMarkerReceived | soundingBurstMissing =>
    exact (State.runsPort_endsHeld _ _ _).same (by simp)
  | upBarExpiry | tpsf | sfChange | tpsfRenew | nonceRefreshStart | nonce | nonceOldDrop | idle | unknownCell |
  towpathCellSlot | pilot | cellCrcFail | streamStop | streamStart | ping | remoteApplication | remoteUnknownOp |
  remoteAnswer => exact (State.runs_endsHeld _ _).same (by simp)
  -- Quiet and low-power idle.
  | quietEnterSend | quietEnter | quietExit | quietAbort | lpiIdleTimeout | partnerLpi =>
    exact (State.runs_endsHeld _ _).same (by simp)
  | quietEntryPoint | quietExitPoint | deepQuietEarlyWake | deepQuietEnd | deepQuietMarkerTimeout =>
    exact (State.runsPort_endsHeld _ _ _).same (by simp)
  -- Receive processing and LDMT.
  | soundingRefresh | agcStep | floatClusterCheck | xtAllocation | dmtSnrUpdate | tableMessage | dmtTableRepeat |
  bitswapSwitch | symbolSlip => exact (State.runs_endsHeld _ _).same (by simp)
  -- Register interfaces and monitor.
  | spiTransactionError | guardTimeout | mdioAddress | mdioRead | mdioReadInc | mdioLatchTimeout | monRead |
  monInvokeResponse | monTrace | monCounters | monBaud | monBadLine | indDataRead | tmNowNsRead | counterLowRead =>
    exact (State.done_endsHeld _ _).same (by simp)
  | counterWrap => exact (State.runs_endsHeld _ _).same (by simp)
  -- Self-test, the journal, boundary scan, the sequencer and the keeper's faults.
  | marchInterval | marchDone | portTestInterval | loopbackDone | journalAutoCommit | journalCommitDone | engineSliceRetry =>
    exact (State.runs_endsHeld _ _).same (by simp)
  | boundaryScan | domainSequencerTurn | domainUsable => exact (State.done_endsHeld _ _).same (by simp)
  | keeperWatchdogExpiry | lockstepMismatch | keeperSramUncorrectable => exact (State.runs_endsHeld _ _).same (by simp)
  -- Vehicle time and the calendar.
  | timeTick => exact (State.done_endsHeld _ _).same (by simp)
  | slewDone | tsyncEdge | tmarkRise | tmarkFall | windowStart | windowStop | snapshotTake | hostEventInstant |
  tmarkPulseInstant | snapshotCopyDone | timeReqTimer | timeReq | timeSync | xferNoSource =>
    exact (State.runs_endsHeld _ _).same (by simp)
  -- The commands that writesHeld lists.
  | _ => cases hw

/-- Settles O7: the effect of every command outside writesHeld leaves the held part, and so does what closes it. -/
theorem heldKept : Obligations.HeldKept := fun _ s t hw ht => exec_keepsHeld hw s t ht

end Sys2Proof.Machine
end

section
/-! PROOFS. The two invariants of a step: the power domains stay fed and in line (R57 to R61), because what closes every command
brings them in line; and a part in hard reset, or whose start-up is halted, keeps its core PLL off (R16, R42, R55). -/

namespace Sys2Proof.Machine

/-- Every command ends in the closing that brings the domains in line. -/
theorem exec_settles (c : Instr) (s : State) : ∃ u, exec c s = .next (settle s u) := by
  cases c <;> exact ⟨_, rfl⟩

/-- A step from a state whose domains are fed and in line leaves them so. -/
theorem step_powered_inLine {s t : State} (hp : s.powered) (hl : s.inLine) (ht : step s = .next t) : t.powered ∧ t.inLine := by
  unfold step at ht
  split at ht
  · cases ht
    exact ⟨hp, hl⟩
  · next c rest _ =>
    obtain ⟨u, hu⟩ := exec_settles c { s with pending := rest }
    rw [hu, Host.Outcome.next.injEq] at ht
    exact ht ▸ ⟨settle_powered _ u, settle_inLine _ u⟩

/-! ### Cold parts -/

/-- The commands of writesHeld: each keeps a cold part cold by the law of its effect in Laws/Cold.lean. -/
theorem exec_keepsCold_of_writes {c : Instr} (hw : writesHeld c = true) {s : State} (h : s.held.cold) :
    ∀ t, exec c s = .next t → t.held.cold := by
  cases c with
  -- Supplies, pins, clocks, start-up and the domains.
  | supplyMonitorTrip => exact (State.done_endsHeld _ _).cold h (State.railTrips_cold _ _)
  | suppliesGood => exact (State.done_endsHeld _ _).cold h (State.railsGood_cold _ h)
  | resetNFall => exact (State.done_endsHeld _ _).cold h (State.resetFalls_cold _)
  | resetNRise => exact (State.done_endsHeld _ _).cold h (State.resetRises_cold _ _ _ h)
  | refclkWindowEnd => exact (State.done_endsHeld _ _).cold h (State.refWindow_cold _ _ h)
  | pllLockWindowEnd => exact (State.actsAll_endsHeld _ _).cold h (State.pllWindow_cold _ _ _ h)
  | pllNoFeedback => exact (State.actsAll_endsHeld _ _).cold h (State.pllNoFeedback_cold _ _ h)
  | pllHoldoverEntry => exact (State.done_endsHeld _ _).cold h (State.pllHoldover_cold _ _ h)
  | pllLockTimeout => exact (State.done_endsHeld _ _).cold h (State.pllTimeout_cold _ _ h)
  | forcedSwitch => exact (State.actsAll_endsHeld _ _).cold h (State.forcedSwitch_cold _ _ _ h)
  | clockMuxBothAbsent => exact (State.actsAll_endsHeld _ _).cold h (State.bothAbsent_cold _ _ h)
  | watchOscCheck => exact (State.done_endsHeld _ _).cold h (State.watchOsc_cold _ _ h)
  | sscChangeApply => exact (State.done_endsHeld _ _).cold h (cold_same h rfl rfl)
  | basinInitDone => exact (State.done_endsHeld _ _).cold h (State.basinReady_cold _ h)
  | pfailNFall => exact (State.actsAll_endsHeld _ _).cold h (State.pfailFalls_cold _ h)
  | pfailNRise => exact (State.done_endsHeld _ _).cold h (State.pfailRises_cold _ h)
  | pfailRelease => exact (State.actsAll_endsHeld _ _).cold h (State.pfailOver_cold _ h)
  | testEnRise => exact (State.actsAll_endsHeld _ _).cold h (State.testRises_cold _ _ h)
  | testEnFall => exact (State.done_endsHeld _ _).cold h (State.testFalls_cold _ h)
  | safeStateComplete => exact (State.done_endsHeld _ _).cold h (State.safeDone_cold _ h)
  -- The keeper, the scrubber, self-test and the key store.
  | firmwareStart => exact (State.runs_endsHeld _ _).cold h (State.bootChoose_cold _ _ _ _ h)
  | keeperRestartDone => exact (State.runs_endsHeld _ _).cold h (State.restartDone_cold _ h)
  | fwActivateReset => exact (State.runs_endsHeld _ _).cold h (State.activateReset_cold _ h)
  | parityScrub => exact (State.runsAll_endsHeld _ _).cold h (State.parityPass_cold _ _ h)
  | keeperRestoreOwned => exact (State.runsAll_endsHeld _ _).cold h (State.restoreOwned_cold _ _ h)
  | commitAct => exact (State.runsAll_endsHeld _ _).cold h (State.commitActs_cold _ _ h)
  | lbistDone => exact (State.done_endsHeld _ _).cold h (State.lbistEnds_cold _ _ h)
  | zeroiseRetry => exact (State.runsAll_endsHeld _ _).cold h (State.zeroiseResult_cold _ _ h)
  -- Requests to a mailbox channel.
  | hello | keyLoad | keyErase | bistRunMarch | bistRunPortTest | bistRunLoopback | fwActivate =>
    exact (State.runs_endsHeld _ _).cold h (State.issueCmd_cold _ _ _ _ _ h)
  | portSetPolicy | portEnable | portDisable | portForceMode | bistRunLbist | unknownCmd =>
    exact (State.runsAll_endsHeld _ _).cold h (State.issueCmd_cold _ _ _ _ _ h)
  -- Register accesses.
  | gdKeyWrite | indDataWrite | ckCtrlWrite | pcSeedWrite | tpCtrlWrite | lnTxWrite | lnRxWrite | rhXtWrite |
  lnBlkCtrlWrite | lnQuietWrite | basinRegWrite | hlRegWrite | tmRegWrite | calRegWrite | dgRegWrite =>
    exact (State.done_endsHeld _ _).cold h (State.wr_cold _ _ _ _ _ _ h)
  | lnModeWrite | lnPolicyWrite => exact (State.actsAll_endsHeld _ _).cold h (State.wr_cold _ _ _ _ _ _ h)
  | tdrStart => exact (State.actsAll_endsHeld _ _).cold h (State.wrBit_cold _ _ _ _ _ h)
  | watchCapture | watchClearRef | mbTake | counterClear | pcSelNow | lnQuietWake | plRebal =>
    exact (State.done_endsHeld _ _).cold h (State.wrBit_cold _ _ _ _ _ h)
  | pdForceOffWrite | ckResetPort | stLbistStart | ksZeroise =>
    exact (State.actsAll_endsHeld _ _).cold h (State.guardedWrite_cold _ _ _ _ _ _ h)
  | ckResetSoft | ckResetKeeper | ckResetLane | lnTxTestWrite | calOvrWrite | stLoopbackStart =>
    exact (State.done_endsHeld _ _).cold h (State.guardedWrite_cold _ _ _ _ _ _ h)
  | registerWrite | guardedValueWrite | guardComplementWrite =>
    exact (State.actsAll_endsHeld _ _).cold h (State.addrWrite_cold _ _ _ _ h)
  | mdioWrite => exact (State.actsAll_endsHeld _ _).cold h (State.mdioPut_cold _ _ _ _ h)
  | monWrite => exact (State.actsAll_endsHeld _ _).cold h (State.monPut_cold _ _ _ h)
  | monInvoke => exact (State.actsAll_endsHeld _ _).cold h (State.monCall_cold _ _ _ h)
  -- The commands outside writesHeld.
  | _ => cases hw

/-- A command run on a cold part leaves it cold. -/
theorem exec_keepsCold (c : Instr) {s : State} (h : s.held.cold) : ∀ t, exec c s = .next t → t.held.cold := by
  cases hw : writesHeld c with
  | true => exact exec_keepsCold_of_writes hw h
  | false => exact fun t ht => exec_keepsHeld hw s t ht ▸ h

/-- A step from a cold part leaves it cold. -/
theorem step_cold {s t : State} (h : s.cold) (ht : step s = .next t) : t.cold := by
  unfold step at ht
  split at ht
  · cases ht
    exact h
  · next c rest _ => exact exec_keepsCold c (s := { s with pending := rest }) h t ht

/-- Settles O9: `settle` brings the domains in line after every command, and every command keeps a cold part cold. -/
theorem stepDomains : Obligations.StepDomains := ⟨fun _ _ => step_powered_inLine, fun _ _ => step_cold⟩

/-! ### Reset -/

/-- After reset no domain is on, switching or requested. -/
theorem reset_notAsked (d : Nat) : State.reset.asked d = false := by
  show ((0 : BitVec 256).getLsbD d || (0 : BitVec 256).getLsbD d || (0 : BitVec 256).getLsbD d) = false
  simp

/-- Settles O10: after reset no register is listed, nothing is asked of the domains, and no PLL runs. -/
theorem resetInvariants : Obligations.ResetInvariants := by
  refine ⟨⟨keysRise_nil, fun e he => absurd he List.not_mem_nil⟩, fun d _ h => ?_, ?_, fun _ => rfl⟩
  · rw [reset_notAsked] at h
    cases h
  · show State.reset.syncDomains.dom = State.reset.dom
    decide +kernel

end Sys2Proof.Machine
end

section
/-! PROOFS. The field tables of the blocks (R63, R70, R138, R167, R454): the writable fields of a register share no bit and fit
it, reset values and limits fit the field. And what reset leaves (R51, R55, R350). -/

namespace Sys2Proof.Machine

/-- The writable fields of a register lie apart and inside it, each with a reset value and a storing rule that fit. -/
abbrev fieldsFit (fs : List Fld) : Prop :=
  fs.Pairwise (fun f g => f.lo + f.w ≤ g.lo ∨ g.lo + g.w ≤ f.lo)
    ∧ ∀ f ∈ fs, 0 < f.w ∧ f.lo + f.w ≤ 32 ∧ f.rst < 2 ^ f.w ∧ f.rule.fits f.w f.rst = true

/-! ### The blocks' tables -/

theorem commonFields_fit (ix : Nat) : fieldsFit (commonFields ix) := by
  unfold commonFields; (repeat' split) <;> decide
theorem chipFields_fit (ix : Nat) : fieldsFit (chipFields ix) := by
  unfold chipFields; split <;> decide
theorem timeFields_fit (ix : Nat) : fieldsFit (timeFields ix) := by
  unfold timeFields; split <;> decide
theorem basinFields_fit (ix : Nat) : fieldsFit (basinFields ix) := by
  unfold basinFields; split <;> decide
theorem tallyFields_fit (ix : Nat) : fieldsFit (tallyFields ix) := by
  unfold tallyFields; split <;> decide
theorem selfTestFields_fit (ix : Nat) : fieldsFit (selfTestFields ix) := by
  unfold selfTestFields; split <;> decide
theorem calFields_fit (ix : Nat) : fieldsFit (calFields ix) := by
  unfold calFields; split <;> decide
theorem reachFields_fit (ix : Nat) : fieldsFit (reachFields ix) := by
  unfold reachFields; (repeat' split) <;> decide
theorem portFields_fit (ix : Nat) : fieldsFit (portFields ix) := by
  unfold portFields; split <;> decide
theorem laneFields_fit (ix : Nat) : fieldsFit (laneFields ix) := by
  unfold laneFields; split <;> decide
theorem mboxFields_fit (ix : Nat) : fieldsFit (mboxFields ix) := by
  unfold mboxFields; split <;> decide

/-- Indices from 0xE0 on are common to every block; below them each kind of block has a table of its own. -/
theorem fieldsOf_fit (k : BlockKind) (ix : Nat) : fieldsFit (fieldsOf k ix) := by
  unfold fieldsOf
  split
  · exact commonFields_fit ix
  · cases k with
    | chip => exact chipFields_fit ix
    | keeper => exact ⟨.nil, fun f hf => absurd hf List.not_mem_nil⟩
    | time => exact timeFields_fit ix
    | basin => exact basinFields_fit ix
    | tally => exact tallyFields_fit ix
    | selfTest => exact selfTestFields_fit ix
    | cal => exact calFields_fit ix
    | reach => exact reachFields_fit ix
    | port => exact portFields_fit ix
    | lane => exact laneFields_fit ix
    | mbox => exact mboxFields_fit ix

/-- Settles O19: every register's fields are those of its block's table. -/
theorem fieldTable : Obligations.FieldTable := fun key => fieldsOf_fit (blockKind (key / 256)) (key % 256)

/-! ### What reset leaves -/

theorem reset_pll_off (k : Pll) : (State.reset.clk.pll k).mode = .off := by
  cases k with
  | core | host => rfl
  | reach r => revert r; decide

theorem reset_port (p : Fin 16) : State.reset.port p = {} := Vector.getElem_replicate _
theorem reset_lane (n : Fin 8) : State.reset.lane n = {} := Vector.getElem_replicate _
theorem reset_chan (c : Fin 16) : State.reset.chan c = {} := Vector.getElem_replicate _

theorem reset_bank (b : Fin 68) : State.reset.bank b = if b.val < 64 then .inService b.val else .spare := by
  revert b; decide

/-- Settles O3: reset is the structure of the defaults. -/
theorem resetValues : Obligations.ResetValues :=
  ⟨rfl, rfl, rfl, fun _ => rfl, reset_pll_off, rfl, fun p => by rw [reset_port p]; exact ⟨rfl, rfl⟩,
    fun n => by rw [reset_lane n], rfl, rfl, reset_bank, rfl, rfl, fun c => by rw [reset_chan c]; exact ⟨rfl, rfl⟩, rfl, rfl, rfl, rfl⟩

end Sys2Proof.Machine
end

section
/-! PROOFS. The power sequencer (R58 to R60): in a part whose domains are in line, which every step keeps, a turn moves exactly
the requests of its list and a domain that completes its order moves alone. -/

namespace Sys2Proof.Machine

/-- What is on, switching or requested in a part in line is what the state asks for. -/
theorem State.inLine_want {s : State} (h : s.inLine) {d : Nat} (hd : d < 256)
    (ha : s.dom.on.getLsbD d = true ∨ s.dom.switching.getLsbD d = true ∨ s.dom.pending.getLsbD d = true) : (depClose s.wantMask).getLsbD d = true := by
  obtain ⟨h1, h2, h3⟩ := State.inLine_bits h d hd
  obtain ha | ha | ha := ha
  · exact h1 ha
  · exact h2 ha
  · rw [h3] at ha
    simp only [Bool.and_eq_true] at ha
    exact ha.1.1

/-! ### A turn of the sequencer -/

theorem State.sequence_wantMask (s : State) : s.sequence.wantMask = s.wantMask := State.wantMask_dom s _

theorem State.sequence_switching (s : State) {d : Nat} (hd : d < 256) :
    s.sequence.dom.switching.getLsbD d = (s.dom.switching.getLsbD d || decide (d ∈ s.turnList)) := by
  show (s.turnList.foldl (fun m i => setBit m i true) s.dom.switching).getLsbD d = _
  rw [foldl_setBit_bit _ _ _ _ hd]
  by_cases h : d ∈ s.turnList <;> simp [h]

/-- After a turn the domains in its list, all requested before, are switching, and every other domain is as it was. -/
theorem State.sequence_dom {s : State} (h : s.inLine) : s.sequence.syncDomains.dom.on = s.dom.on
    ∧ ∀ d < 256, s.sequence.syncDomains.dom.switching.getLsbD d = (s.dom.switching.getLsbD d || decide (d ∈ s.turnList))
      ∧ s.sequence.syncDomains.dom.pending.getLsbD d = (s.dom.pending.getLsbD d && !decide (d ∈ s.turnList)) := by
  have hon : s.syncDomains.dom.on = s.dom.on := congrArg Domains.on h
  refine ⟨hon, fun d hd => ?_⟩
  obtain ⟨-, h2, h3⟩ := s.sequence.sync_bits d hd
  obtain ⟨i1, i2, i3⟩ := State.inLine_bits h d hd
  have hl : d ∈ s.turnList → (depClose s.wantMask).getLsbD d = true := fun hm =>
    State.inLine_want h hd (.inr (.inr (s.turnList_mem d hm).1))
  have ho : s.sequence.dom.on = s.dom.on := rfl
  rw [h2, h3, s.sequence_wantMask, s.sequence_switching hd, ho, i3]
  by_cases hm : d ∈ s.turnList
  · simp [hl hm, hm]
  · revert i1 i2
    cases s.dom.on.getLsbD d <;> cases s.dom.switching.getLsbD d <;> cases (depClose s.wantMask).getLsbD d <;> simp [hm]

theorem domainSequencerTurn_does (s : State) (h : s.inLine) : Does .domainSequencerTurn s (fun t => t.dom.on = s.dom.on ∧ s.turnList.length ≤ 8
    ∧ (∀ d ∈ s.turnList, s.dom.pending.getLsbD d = true ∧ ∀ e ∈ domainDeps d, s.dom.on.getLsbD e = true)
    ∧ ∀ d < 256, t.dom.switching.getLsbD d = (s.dom.switching.getLsbD d || decide (d ∈ s.turnList))
        ∧ t.dom.pending.getLsbD d = (s.dom.pending.getLsbD d && !decide (d ∈ s.turnList))) := by
  obtain ⟨h1, h2⟩ := State.sequence_dom h
  refine ⟨settle s s.sequence, rfl, ?_⟩
  dsimp only
  rw [settle_dom]
  exact ⟨h1, List.length_take_le _ _, s.turnList_mem, h2⟩

/-! ### A domain completes its order -/

/-- A bank that comes back from force-off was not being copied or moved, and is not. -/
theorem State.setBank_spare_busy {s : State} {b : Fin 68} (h : s.bank b = .forcedOff) (d : Nat) : (s.setBank b .spare).bankBusy d = s.bankBusy d := by
  have hb : s.basin.banks.toList[b.val]? = some .forcedOff := by
    rw [← h, List.getElem?_eq_getElem (by simp)]
    rfl
  unfold State.bankBusy State.setBank
  dsimp only
  rw [Vector.toList_set, List.getD_eq_getElem?_getD, List.getD_eq_getElem?_getD, List.getElem?_set]
  by_cases he : b.val = d - 156
  · rw [if_pos he, ← he, hb]
    simp
  · rw [if_neg he]

theorem State.bankBack_forcedOff (s : State) (d e : Nat) : (s.bankBack d).forcedOff e = s.forcedOff e := by
  unfold State.bankBack
  split
  · next h =>
    unfold State.forcedOff State.offWaits
    rw [State.setBank_spare_busy h.2.2]
    rfl
  · rfl

theorem State.bankBack_wantMask (s : State) (d : Nat) : (s.bankBack d).wantMask = s.wantMask := by
  have hl : (s.bankBack d).wantList = s.wantList := by
    unfold State.bankBack
    split <;> rfl
  unfold State.wantMask
  rw [hl]
  simp only [State.bankBack_forcedOff]

theorem State.bankBack_dom (s : State) (d : Nat) : (s.bankBack d).dom = s.dom := by
  unfold State.bankBack
  split <;> rfl

theorem State.usable_not {s : State} {d : Nat} (h : s.mayServe d = false) : s.usable d = s := by
  unfold State.usable
  rw [if_neg (by simp [h])]

/-- A domain that completes its order leaves the switching ones for those that are on; what the state asks for is as before. -/
theorem State.usable_serves {s : State} {d : Nat} (h1 : s.dom.switching.getLsbD d = true) (h2 : s.mayServe d = true) :
    (s.usable d).dom = { s.dom with switching := setBit s.dom.switching d false, on := setBit s.dom.on d true }
      ∧ (s.usable d).wantMask = s.wantMask := by
  unfold State.usable
  rw [if_pos (by simp [h1, h2]), State.bankBack_dom, State.bankBack_wantMask]
  exact ⟨rfl, State.wantMask_dom s _⟩

/-- Of the domains in line, only the one that completes its order moves. -/
theorem State.usable_dom {s : State} {d : Nat} (h : s.inLine) (hd : d < 256) (h1 : s.dom.switching.getLsbD d = true) (h2 : s.mayServe d = true) :
    ∀ e < 256, (s.usable d).syncDomains.dom.on.getLsbD e = (decide (e = d) || s.dom.on.getLsbD e)
      ∧ (s.usable d).syncDomains.dom.switching.getLsbD e = (!decide (e = d) && s.dom.switching.getLsbD e)
      ∧ (s.usable d).syncDomains.dom.pending.getLsbD e = s.dom.pending.getLsbD e := by
  intro e he
  obtain ⟨b1, b2, b3⟩ := (s.usable d).sync_bits e he
  obtain ⟨i1, i2, i3⟩ := State.inLine_bits h e he
  obtain ⟨hu, hw⟩ := State.usable_serves h1 h2
  rw [b1, b2, b3, hu, hw, i3]
  dsimp only
  rw [setBit_bit _ _ _ _ he, setBit_bit _ _ _ _ he]
  by_cases hed : e = d
  · subst hed
    have hwant := State.inLine_want h hd (.inr (.inl h1))
    simp [hwant, h1]
  · revert i1 i2
    cases s.dom.on.getLsbD e <;> cases s.dom.switching.getLsbD e <;> cases (depClose s.wantMask).getLsbD e <;> simp [hed]

theorem domainUsable_does (s : State) (d : Fin 245) (h : s.inLine) (h1 : s.dom.switching.getLsbD d.val = true) (h2 : s.mayServe d.val = true) :
    Does (.domainUsable d) s (fun t => t.dom.on.getLsbD d.val = true ∧ t.dom.switching.getLsbD d.val = false ∧ t.dom.pending = s.dom.pending
      ∧ ∀ e < 256, e ≠ d.val → t.dom.on.getLsbD e = s.dom.on.getLsbD e ∧ t.dom.switching.getLsbD e = s.dom.switching.getLsbD e) := by
  have hd : d.val < 256 := by omega
  have hb := State.usable_dom h hd h1 h2
  refine ⟨settle s (s.usable d.val), rfl, ?_⟩
  dsimp only
  rw [settle_dom]
  obtain ⟨o1, o2, -⟩ := hb d.val hd
  refine ⟨by simp [o1], by simp [o2], BitVec.eq_of_getLsbD_eq (fun e he => (hb e he).2.2), fun e he hne => ?_⟩
  obtain ⟨e1, e2, -⟩ := hb e he
  simp [e1, e2, hne]

theorem domainUsable_waits (s : State) (d : Fin 245) (h : s.inLine) (h2 : s.mayServe d.val = false) :
    Does (.domainUsable d) s (fun t => t.dom = s.dom) := by
  refine ⟨settle s (s.usable d.val), rfl, ?_⟩
  dsimp only
  rw [settle_dom, State.usable_not h2]
  exact h

/-- Settles O17: a turn by its list, a switching domain by its order and its PLL's lock. -/
theorem powerDomains : Obligations.PowerDomains := ⟨domainSequencerTurn_does, domainUsable_does, domainUsable_waits⟩

end Sys2Proof.Machine
end

section
/-! PROOFS. REFCLK and the PLLs (R41 to R50, R56, R456): the judging windows, lock, holdover and time-out, forced switches, the
safe state's clocks, and the watch oscillator. -/

namespace Sys2Proof.Machine

/-! ### What counts REFCLK windows -/

/-- The supervisor's count of REFCLK windows (R42, R43): the last count, the good ones in a row, and whether REFCLK is qualified. -/
def Supervisor.windows (u : Supervisor) : Nat × Nat × Bool := (u.lastCount, u.goodRun, u.refclkOk)

/-- A window of 400 watch-oscillator cycles is good from 2,100 to 3,000 counts (R42). -/
abbrev goodWindow (n : Nat) : Prop := 2100 ≤ n ∧ n ≤ 3000

/-- The good windows in a row once a window of n counts has ended (R42). -/
def State.runAfter (s : State) (n : Nat) : Nat := if goodWindow n then min 8 (s.sup.goodRun + 1) else 0

/-- The part with a window of n counts noted, before anything follows from it: a good one keeps REFCLK qualified, and the
eighth in a row qualifies it. -/
def State.windowNoted (s : State) (n : Nat) : State :=
  { s with sup := { s.sup with
      goodRun := s.runAfter n
      lastCount := min 4095 n
      refclkOk := decide (goodWindow n ∧ (s.sup.refclkOk = true ∨ 7 ≤ s.sup.goodRun)) } }

theorem State.runAfter_full {s : State} {n : Nat} (h : goodWindow n) : s.runAfter n = 8 ↔ 7 ≤ s.sup.goodRun := by
  unfold State.runAfter
  rw [if_pos h]
  omega

theorem State.softReset_windows (s : State) (cause : Nat) (wipe : Bool) : (s.softReset cause wipe).sup.windows = s.sup.windows := by
  have h : (allPorts.foldl (fun (t : State) p => t.silence p false) s).sup = s.sup := held_sup (foldl_held _ _ _ (fun t p => t.silence_held p false))
  unfold State.softReset
  generalize allPorts.foldl (fun (t : State) p => t.silence p false) s = u at h ⊢
  have hl : (u.softLeft cause wipe).sup.windows = s.sup.windows := by
    rw [← h]
    rfl
  dsimp only
  split
  · rw [State.restartKeeper_sup]; exact hl
  · exact hl

theorem State.stepThree_windows (s : State) : s.stepThree.sup.windows = s.sup.windows := by
  unfold State.stepThree
  split
  · split
    · rw [State.softReset_windows]; rfl
    · rfl
  · rfl

theorem State.goLock_windows (s : State) : s.goLock.sup.windows = s.sup.windows := by
  unfold State.goLock
  rw [State.stepThree_windows]
  rfl

theorem State.refQualified_windows (s : State) : s.refQualified.sup.windows = s.sup.windows := by
  unfold State.refQualified
  split
  · exact s.goLock_windows
  · rw [State.goLock_windows]; rfl
  · rfl

theorem State.refLost_windows (s : State) : s.refLost.sup.windows = s.sup.windows := by
  unfold State.refLost
  split
  · rfl
  · rfl
  · rw [State.safeState_sup]; rfl
  · rw [State.safeState_sup]; rfl
  · rfl

/-- A window while windows are judged: noted, and then REFCLK qualified by the eighth good one in a row, or lost by a bad one. -/
theorem State.refWindow_eq {s : State} (h1 : s.sup.stage ≠ .hardReset) (h2 : s.sup.stage = .halted → s.sup.testEn = false) (n : Nat) :
    s.refWindow n = if s.sup.refclkOk = false ∧ goodWindow n ∧ 7 ≤ s.sup.goodRun then (s.windowNoted n).refQualified
      else if s.sup.refclkOk = true ∧ ¬ goodWindow n then (s.windowNoted n).refLost else s.windowNoted n := by
  have hj : ¬ (s.sup.stage == .hardReset || (s.sup.stage == .halted && s.sup.testEn)) = true := by
    simp only [Bool.or_eq_true, Bool.and_eq_true, beq_iff_eq, not_or, not_and]
    exact ⟨h1, fun h => by simp [h2 h]⟩
  have hn : ({ s with sup := { s.sup with
      goodRun := s.runAfter n, lastCount := min 4095 n
      refclkOk := if decide (goodWindow n) then s.sup.refclkOk || decide (s.runAfter n = 8) else false } } : State) = s.windowNoted n := by
    unfold State.windowNoted
    by_cases hg : goodWindow n
    · simp [hg, State.runAfter_full hg, Bool.decide_or]
    · simp [hg]
  unfold State.refWindow
  rw [if_neg hj, ← hn]
  simp only [State.runAfter, decide_eq_true_eq]
  refine if_congr ?_ rfl (if_congr ?_ rfl rfl)
  · by_cases hg : goodWindow n
    · simp [hg, ← State.runAfter_full hg, State.runAfter, and_assoc]
    · simp [hg]
  · rw [Bool.and_eq_true, Bool.not_eq_true', decide_eq_false_iff_not]

theorem State.refWindow_windows {s : State} (h1 : s.sup.stage ≠ .hardReset) (h2 : s.sup.stage = .halted → s.sup.testEn = false) (n : Nat) :
    (s.refWindow n).sup.windows = (s.windowNoted n).sup.windows := by
  rw [State.refWindow_eq h1 h2]
  split
  · exact (s.windowNoted n).refQualified_windows
  · split
    · exact (s.windowNoted n).refLost_windows
    · rfl

/-! ### REFCLK qualified and lost -/

/-- With the core PLL not locked, the start of locking changes the stage and makes the PLLs that are off and may run lock. -/
theorem State.goLock_eq {s : State} (h : s.clk.core.mode ≠ .locked) : s.goLock =
    { s with sup := { s.sup with stage := .locking }
             clk := { s.clk with
               core := s.clk.core.begin false
               host := s.clk.host.begin (s.forcedOff 233)
               reach := Vector.ofFn (fun r => (s.clk.reach.get r).begin (s.forcedOff (reachDomain r 0))) } } := by
  unfold State.goLock State.stepThree
  rw [if_neg]
  have hb : (s.clk.core.begin false).mode ≠ .locked := by
    unfold PllRec.begin
    split
    · decide
    · exact h
  simp [hb]

theorem PllRec.begin_on {r : PllRec} (h : r.mode ≠ .off) (b : Bool) : r.begin b = r := by
  unfold PllRec.begin
  rw [if_neg (by simp [h])]

theorem PllRec.begin_off {r : PllRec} (h : r.mode = .off) (b : Bool) : (r.begin b).mode = if b then .off else .locking := by
  unfold PllRec.begin
  cases b <;> simp [h]

/-- The PLLs when locking starts: one that runs goes on, one that is off locks unless it is forced off. -/
theorem State.goLock_plls {s : State} (h : s.clk.core.mode ≠ .locked) :
    (∀ k : Pll, (s.clk.pll k).mode ≠ .off → s.goLock.clk.pll k = s.clk.pll k)
      ∧ (s.clk.core.mode = .off → s.goLock.clk.core.mode = .locking)
      ∧ (s.clk.host.mode = .off → s.goLock.clk.host.mode = if s.forcedOff 233 then .off else .locking)
      ∧ ∀ r : Fin 4, (s.clk.reach.get r).mode = .off → (s.goLock.clk.reach.get r).mode = if s.forcedOff (144 + 3 * r.val) then .off else .locking := by
  rw [State.goLock_eq h]
  refine ⟨fun k hk => ?_, fun ho => PllRec.begin_off ho false, fun ho => PllRec.begin_off ho _, fun r ho => ?_⟩
  · cases k with
    | core => exact PllRec.begin_on hk _
    | host => exact PllRec.begin_on hk _
    | reach r =>
      show (Vector.ofFn _).get r = _
      rw [Vector.get_ofFn]
      exact PllRec.begin_on hk _
  · dsimp only
    rw [Vector.get_ofFn]
    exact PllRec.begin_off ho _

theorem Clocks.unlocked_mode (c : Clocks) (k : Pll) : (c.unlocked.pll k).mode = if (c.pll k).mode = .locked then .locked else .off := by
  have h : c.unlocked.pll k = (c.pll k).ifLocked := by
    unfold Clocks.unlocked
    rw [Clocks.pll_sync]
    cases k with
    | core | host => rfl
    | reach r => exact Vector.get_map _ _ _
  rw [h]
  unfold PllRec.ifLocked
  by_cases hm : (c.pll k).mode = .locked <;> simp [hm]

theorem refclkWindowEnd_does (s : State) (n : Nat) (h1 : s.sup.stage ≠ .hardReset) (h2 : s.sup.stage = .halted → s.sup.testEn = false) :
    Does (.refclkWindowEnd n) s (fun t =>
      t.sup.lastCount = min 4095 n
      ∧ t.sup.goodRun = (if 2100 ≤ n ∧ n ≤ 3000 then min 8 (s.sup.goodRun + 1) else 0)
      ∧ t.sup.refclkOk = decide ((2100 ≤ n ∧ n ≤ 3000) ∧ (s.sup.refclkOk = true ∨ 7 ≤ s.sup.goodRun))
      ∧ (s.sup.stage = .qualifying → s.sup.refclkOk = false → 7 ≤ s.sup.goodRun → 2100 ≤ n → n ≤ 3000 → s.clk.core.mode ≠ .locked →
          t.sup.stage = .locking ∧ (∀ k : Pll, (s.clk.pll k).mode ≠ .off → t.clk.pll k = s.clk.pll k)
          ∧ (s.clk.core.mode = .off → t.clk.core.mode = .locking)
          ∧ (s.clk.host.mode = .off → t.clk.host.mode = if s.forcedOff 233 then .off else .locking)
          ∧ ∀ r : Fin 4, (s.clk.reach.get r).mode = .off → (t.clk.reach.get r).mode = if s.forcedOff (144 + 3 * r.val) then .off else .locking)
      ∧ (s.sup.stage = .released → s.sup.refclkOk = true → ¬ (2100 ≤ n ∧ n ≤ 3000) → t.sup.stage = .refclkLost ∧ t.sup.safeSeq = true)
      ∧ (s.sup.stage = .locking → s.sup.softAfterRef = false → s.sup.refclkOk = true → ¬ (2100 ≤ n ∧ n ≤ 3000) →
          t.sup.stage = .qualifying ∧ ∀ k : Pll, (t.clk.pll k).mode = if (s.clk.pll k).mode = .locked then .locked else .off)) := by
  refine done_does (t := s.refWindow n) rfl (fun u _ hu _ => ?_)
  have hw := State.refWindow_windows h1 h2 n
  rw [← held_sup hu] at hw
  simp only [Supervisor.windows, Prod.mk.injEq] at hw
  obtain ⟨w1, w2, w3⟩ := hw
  have he := State.refWindow_eq h1 h2 n
  refine ⟨w1, w2, w3, fun hs hr hg l1 l2 hc => ?_, fun hs hr hb => ?_, fun hs ha hr hb => ?_⟩
  · have hq : s.refWindow n = (s.windowNoted n).goLock := by
      rw [he, if_pos ⟨hr, ⟨l1, l2⟩, hg⟩]
      unfold State.refQualified
      rw [show (s.windowNoted n).sup.stage = .qualifying from hs]
    rw [held_sup hu, held_clk hu, hq]
    exact ⟨by rw [State.goLock_eq (s := s.windowNoted n) hc], State.goLock_plls (s := s.windowNoted n) hc⟩
  · have hl : s.refWindow n = (s.windowNoted n).safeState := by
      rw [he, if_neg (fun x => hb x.2.1), if_pos ⟨hr, hb⟩]
      unfold State.refLost
      rw [show (s.windowNoted n).sup.stage = .released from hs]
    rw [held_sup hu, hl, State.safeState_sup]
    exact ⟨rfl, rfl⟩
  · have hl : s.refWindow n = { s.windowNoted n with sup := { (s.windowNoted n).sup with stage := .qualifying }, clk := s.clk.unlocked } := by
      rw [he, if_neg (fun x => hb x.2.1), if_pos ⟨hr, hb⟩]
      unfold State.refLost
      rw [show (s.windowNoted n).sup.stage = .locking from hs]
      dsimp only
      rw [if_neg (by rw [show (s.windowNoted n).sup.softAfterRef = false from ha]; decide)]
      rfl
    rw [held_sup hu, held_clk hu, hl]
    exact ⟨rfl, s.clk.unlocked_mode⟩

/-! ### The PLLs' windows -/

/-- A PLL that leaves lock locks again, on direct REFCLK. -/
theorem State.pllLost_clk (s : State) (k : Pll) (v : PllRec) :
    (s.pllLost k v).clk.pll k = v ∧ ((s.pllLost k v).clk.mux (muxOf k)) = {} := by
  rw [held_clk (s.pllLost_held k v)]
  simp

theorem pllLockWindowEnd_does (s : State) (k : Pll) (n : Nat) : Does (.pllLockWindowEnd k n) s (fun t =>
    (32765 ≤ n → n ≤ 32771 → (s.clk.pll k).mode = .locking → (s.clk.pll k).good = 0 → (t.clk.pll k) = ⟨.locking, 1⟩)
    ∧ (32765 ≤ n → n ≤ 32771 → (s.clk.pll k).mode = .locking → (s.clk.pll k).good = 1 →
        (t.clk.pll k).mode = .locked ∧ (t.clk.mux (muxOf k)).onPll = true)
    ∧ (¬ (32765 ≤ n ∧ n ≤ 32771) → (s.clk.pll k).mode = .locking → (t.clk.pll k) = ⟨.locking, 0⟩)
    ∧ (¬ (32765 ≤ n ∧ n ≤ 32771) → (s.clk.pll k).mode = .locked →
        (t.clk.pll k) = ⟨.locking, 0⟩ ∧ (t.clk.mux (muxOf k)).onPll = false)) := by
  refine acts_does (t := s.pllWindow k n) rfl (fun u _ hu => ?_)
  rw [held_clk hu]
  unfold State.pllWindow
  refine ⟨fun l1 l2 hm hg => ?_, fun l1 l2 hm hg => ?_, fun hb hm => ?_, fun hb hm => ?_⟩
  · simp [hm, hg, l1, l2]
  · simp [hm, hg, l1, l2, State.pllLocked_clk]
  · simp only [hm, hb, decide_false, Bool.not_false, if_true, Clocks.pll_setPll]
  · simp only [hm, hb, decide_false, Bool.false_eq_true, if_false, (s.pllLost_clk k _).1, (s.pllLost_clk k _).2, and_self]

theorem pllNoFeedback_does (s : State) (k : Pll) (h : (s.clk.pll k).mode = .locked) :
    Does (.pllNoFeedback k) s (fun t => (t.clk.pll k).mode = .locking ∧ (t.clk.mux (muxOf k)).onPll = false) := by
  refine acts_does (t := s.pllNoFeedback k) rfl (fun u _ hu => ?_)
  rw [held_clk hu]
  unfold State.pllNoFeedback
  rw [h]
  obtain ⟨h1, h2⟩ := s.pllLost_clk k ⟨.locking, 0⟩
  exact ⟨congrArg PllRec.mode h1, congrArg MuxRec.onPll h2⟩

theorem pllHoldoverEntry_does (s : State) (k : Pll) (h : (s.clk.pll k).mode ≠ .off) :
    Does (.pllHoldoverEntry k) s (fun t => (t.clk.pll k).mode = .holdover ∧ t.clk.holdover = true) := by
  refine done_does (t := s.pllHoldover k) rfl (fun u _ hu _ => ?_)
  rw [held_clk hu]
  unfold State.pllHoldover
  split
  · next ho => exact absurd ho h
  · exact ⟨by simp, rfl⟩

theorem pllLockTimeout_does (s : State) (k : Pll) (hs : s.sup.stage = .locking)
    (h : (s.clk.pll k).mode = .locking ∨ (s.clk.pll k).mode = .holdover) :
    Does (.pllLockTimeout k) s (fun t => (t.clk.pll k).mode = .off ∧ (k = .core → t.sup.stage = .coreFailed)) := by
  refine done_does (t := s.pllTimeout k) rfl (fun u _ hu _ => ?_)
  have hn : (s.clk.pll k).settled = false := by
    unfold PllRec.settled
    obtain h | h := h <;> rw [h] <;> rfl
  rw [held_sup hu, held_clk hu]
  unfold State.pllTimeout
  rw [if_pos (by simp [hs, hn])]
  by_cases hk : k = .core
  · rw [if_pos hk]
    exact ⟨by simp, fun _ => rfl⟩
  · rw [if_neg hk, State.stepThree_clk]
    exact ⟨by simp, fun e => absurd e hk⟩

/-! ### Switches, absent clocks and the safe state -/

theorem State.raise_calm (s : State) (c b u : Nat) (w x y z : Word) : (s.raise c b u w x y z).calm = s.calm :=
  calm_of (by simp) (stored_of_frame (by simp)) (by simp) (by simp)

/-- A forced switch of the core multiplexer takes no port down. -/
theorem forcedSwitch_core_does (s : State) (toPll : Bool) : Does (.forcedSwitch .core toPll) s (fun t =>
    (t.clk.mux .core).onPll = (toPll && decide ((s.clk.pll (pllOf .core)).mode = .locked)) ∧ (s.ringRoom → t.told 0x0003 0 0 0)) := by
  refine acts_calm (t := s.forcedSwitch .core toPll) rfl ((State.count_calm _ _ _ _).trans (State.raise_calm _ _ _ _ _ _ _ _)) ⟨?_, fun hr => ?_⟩
  · rw [settle_clk]
    unfold State.forcedSwitch
    simp [beq_eq_decide]
  · refine told_of (settle_ring _ _) (told_of (State.count_ring _ _ _ _) ?_)
    exact State.raise_told { s with clk := _ } 0x0003 0 0 0 0 0 0 hr

theorem State.forcedSwitch_mux (s : State) (m : Mux) (toPll : Bool) :
    ((s.forcedSwitch m toPll).clk.mux m).onPll = (toPll && decide ((s.clk.pll (pllOf m)).mode = .locked)) := by
  unfold State.forcedSwitch
  cases m with
  | core => simp [beq_eq_decide]
  | spine r => simp [held_clk (State.reachDown_held _ r), beq_eq_decide]
  | host => simp [held_clk (State.lanesDown_held _ 6), beq_eq_decide]

theorem forcedSwitch_does (s : State) (m : Mux) (toPll : Bool) : Does (.forcedSwitch m toPll) s (fun t =>
    (t.clk.mux m).onPll = (toPll && decide ((s.clk.pll (pllOf m)).mode = .locked)) ∧ (m = .core → s.ringRoom → t.told 0x0003 0 0 0)) := by
  by_cases hm : m = .core
  · subst hm
    obtain ⟨t, ht, h1, h2⟩ := forcedSwitch_core_does s toPll
    exact ⟨t, ht, h1, fun _ => h2⟩
  · refine acts_does (t := s.forcedSwitch m toPll) rfl (fun u _ hu => ?_)
    rw [held_clk hu]
    exact ⟨s.forcedSwitch_mux m toPll, fun e => absurd e hm⟩

theorem clockMuxBothAbsent_does (s : State) :
    Does (.clockMuxBothAbsent .core) s (fun t => s.sup.stage = .released → t.sup.stage = .refclkLost ∧ t.sup.safeSeq = true)
      ∧ Does (.clockMuxBothAbsent .host) s (fun t => t.clk.muxHost.failed = true)
      ∧ ∀ r, Does (.clockMuxBothAbsent (.spine r)) s (fun t => (t.clk.mux (.spine r)).failed = true) := by
  refine ⟨acts_does (t := s.bothAbsent .core) rfl (fun u _ hu hs => ?_), acts_does (t := s.bothAbsent .host) rfl (fun u _ hu => ?_),
    fun r => acts_does (t := s.bothAbsent (.spine r)) rfl (fun u _ hu => ?_)⟩
  · have he : s.bothAbsent .core = s.safeState := if_pos (by rw [hs]; rfl)
    rw [held_sup hu, he, State.safeState_sup]
    exact ⟨rfl, rfl⟩
  · rw [held_clk hu]
    unfold State.bothAbsent
    rw [held_clk (State.lanesDown_held _ 3)]
    rfl
  · rw [held_clk hu]
    unfold State.bothAbsent
    rw [held_clk (State.reachDown_held _ r)]
    simp

/-- A PLL's record with a PLL that is in holdover switched off (R46, R47). -/
theorem State.safeDone_pll {s : State} (h : s.sup.safeSeq = true) (k : Pll) :
    (s.safeDone.clk.pll k).mode = if (s.clk.pll k).mode = .holdover then .off else (s.clk.pll k).mode := by
  have hoff : s.safeDone.clk.pll k = if (s.clk.pll k).mode == .holdover then {} else s.clk.pll k := by
    unfold State.safeDone
    rw [if_neg (by simp [h])]
    cases k with
    | core | host => rfl
    | reach r => exact Vector.get_map _ _ _
  rw [hoff]
  by_cases hm : (s.clk.pll k).mode = .holdover <;> simp [hm]

theorem safeStateComplete_does (s : State) (h : s.sup.safeSeq = true) : Does .safeStateComplete s (fun t => t.sup.safeSeq = false ∧ t.sup.safeN = false
    ∧ t.clk.holdover = false ∧ ∀ k : Pll, (t.clk.pll k).mode = if (s.clk.pll k).mode = .holdover then .off else (s.clk.pll k).mode) := by
  refine done_does (t := s.safeDone) rfl (fun u _ hu _ => ?_)
  rw [held_sup hu, held_clk hu]
  have hp := State.safeDone_pll h
  unfold State.safeDone at hp ⊢
  rw [if_neg (by simp [h])] at hp ⊢
  exact ⟨rfl, rfl, rfl, hp⟩

/-! ### The watch oscillator and the spread -/

theorem watchOscCheck_does (s : State) (kHz : Nat) (h : s.clk.core.mode = .locked) : Does (.watchOscCheck kHz) s (fun t =>
    t.sup.watchOk = decide (20000 ≤ kHz ∧ kHz ≤ 30000)
    ∧ (s.sup.watchOk = true → ¬ (20000 ≤ kHz ∧ kHz ≤ 30000) → s.ringRoom → t.told 0x0004 0 0 0)) := by
  refine done_does (t := s.watchOsc kHz) rfl (fun u _ hu hr => ?_)
  rw [held_sup hu]
  have he : s.watchOsc kHz = if s.sup.watchOk && !decide (20000 ≤ kHz ∧ kHz ≤ 30000)
      then State.raise { s with sup := { s.sup with watchOk := decide (20000 ≤ kHz ∧ kHz ≤ 30000) } } 0x0004 0 0
      else { s with sup := { s.sup with watchOk := decide (20000 ≤ kHz ∧ kHz ≤ 30000) } } := if_neg (not_not.mpr h)
  refine ⟨?_, fun hw hb hroom => told_of hr ?_⟩
  · rw [he]
    split <;> simp
  · rw [he, if_pos (by rw [hw, decide_eq_false hb]; rfl)]
    exact State.raise_told { s with sup := _ } 0x0004 0 0 0 0 0 0 hroom

/-- Settles O14: the windows of REFCLK and of a PLL, the PLLs' other events, the multiplexers, the safe state's end, the watch
oscillator, and the spread, whose row stores what CK_CTRL says. -/
theorem referenceClock : Obligations.ReferenceClock :=
  ⟨refclkWindowEnd_does, pllLockWindowEnd_does, pllNoFeedback_does, pllHoldoverEntry_does, pllLockTimeout_does, forcedSwitch_does,
    clockMuxBothAbsent_does, safeStateComplete_does, watchOscCheck_does,
    fun _ => done_does rfl (fun _ _ hu _ => by rw [held_sup hu])⟩

end Sys2Proof.Machine
end

section
/-! PROOFS. The register rows of the operation table (R63, R70, R120, R138, R167, R169, R253, R272, R297, R328, R341, R403): each
writes a register in use of its block through one shared access, which leaves it at the image the write makes. -/

namespace Sys2Proof.Machine

/-! ### The rows' blocks and registers -/

theorem blockKind_portBlock (p : Fin 16) : blockKind (portBlock p.val) = .port := by revert p; decide
theorem blockKind_reachBlock (r : Fin 4) : blockKind (reachBlock r.val) = .reach := by revert r; decide
theorem blockKind_laneBlock (n : Fin 8) : blockKind (laneBlock n.val) = .lane := by revert n; decide

theorem portBlock_range (p : Fin 16) : 0 < portBlock p.val ∧ portBlock p.val < 0x40 := by unfold portBlock; omega
theorem reachBlock_range (r : Fin 4) : 0 < reachBlock r.val ∧ reachBlock r.val < 0x40 := by unfold reachBlock; omega
theorem laneBlock_range (n : Fin 8) : 0 < laneBlock n.val ∧ laneBlock n.val < 0x40 := by unfold laneBlock; omega

/-- Between block 0x00 and the mailbox, a register below the common ones is one that a plain transaction stores. -/
theorem plainReg_of {b ix : Nat} (hb : 0 < b ∧ b < 0x40) (hi : ix < 0xE0) : plainReg b ix := by unfold plainReg; omega

theorem usedIndex_tx (r : TxReg) : usedIndex .port (txIx r) = true ∧ txIx r < 0xE0 := by cases r <;> decide
theorem usedIndex_rx (r : RxReg) : usedIndex .port (rxIx r) = true ∧ rxIx r < 0xE0 := by cases r <;> decide
theorem usedIndex_quiet (r : QuietReg) : usedIndex .port (quietIx r) = true ∧ quietIx r < 0xE0 := by cases r <;> decide
theorem usedIndex_dg (r : DgReg) : usedIndex .port (dgIx r) = true ∧ dgIx r < 0xE0 := by cases r <;> decide
theorem usedIndex_hl (r : HlReg) : usedIndex .lane (hlIx r) = true ∧ hlIx r < 0xE0 := by cases r <;> decide
theorem usedIndex_basin (r : BasinReg) : usedIndex .basin (basinIx r) = true ∧ basinIx r < 0xE0 := by cases r <;> decide
theorem usedIndex_tm (r : TmReg) : usedIndex .time (tmIx r) = true ∧ tmIx r < 0xE0 := by cases r <;> decide
theorem usedIndex_cal (r : CalReg) : usedIndex .cal (calIx r) = true ∧ calIx r < 0xE0 := by cases r <;> decide
theorem usedIndex_xt (r : XtReg) : usedIndex .reach (xtIx r) = true ∧ xtIx r < 0xE0 := by
  cases r with
  | ctrl => decide
  | path k => revert k; decide

/-! ### One row -/

section
variable {c : Instr} {s : State} {i : Iface} {b ix : Nat} {w : Way} {v : Word}

/-- A row that no link follows stores its register. -/
theorem wr_done_does (he : exec c s = s.done (s.wr i b ix w v)) (h : s.opens i b) (hu : usedIndex (blockKind b) ix = true)
    (hp : plainReg b ix) : Does c s (s.wrote b ix false w v) :=
  done_does he (fun _ hf _ _ => State.busWrite_wrote h w v none hu hp hf)

/-- A row that links may follow stores its register. -/
theorem wr_acts_does (he : exec c s = s.actsAll (s.wr i b ix w v)) (h : s.opens i b) (hu : usedIndex (blockKind b) ix = true)
    (hp : plainReg b ix) : Does c s (s.wrote b ix false w v) :=
  acts_does he (fun _ hf _ => State.busWrite_wrote h w v none hu hp hf)

/-- A row of a port's block. -/
theorem portWr_done_does {p : Fin 16} (he : exec c s = s.done (s.wr i (portBlock p.val) ix w v)) (h : s.opens i (portBlock p.val))
    (hu : usedIndex .port ix = true ∧ ix < 0xE0) : Does c s (s.wrote (portBlock p.val) ix false w v) :=
  wr_done_does he h (by rw [blockKind_portBlock]; exact hu.1) (plainReg_of (portBlock_range p) hu.2)

/-- A row of a port's block that links may follow. -/
theorem portWr_acts_does {p : Fin 16} (he : exec c s = s.actsAll (s.wr i (portBlock p.val) ix w v)) (h : s.opens i (portBlock p.val))
    (hu : usedIndex .port ix = true ∧ ix < 0xE0) : Does c s (s.wrote (portBlock p.val) ix false w v) :=
  wr_acts_does he h (by rw [blockKind_portBlock]; exact hu.1) (plainReg_of (portBlock_range p) hu.2)

end

theorem rhXtWrite_does (s : State) (i : Iface) (w : Way) (v : Word) (r : Fin 4) (reg : XtReg) (h : s.opens i (reachBlock r.val)) :
    Does (.rhXtWrite i r reg w v) s (s.wrote (reachBlock r.val) (xtIx reg) false w v) :=
  wr_done_does rfl h (by rw [blockKind_reachBlock]; exact (usedIndex_xt reg).1) (plainReg_of (reachBlock_range r) (usedIndex_xt reg).2)

theorem hlRegWrite_does (s : State) (i : Iface) (w : Way) (v : Word) (n : Fin 8) (reg : HlReg) (h : s.opens i (laneBlock n.val)) :
    Does (.hlRegWrite i n reg w v) s (s.wrote (laneBlock n.val) (hlIx reg) false w v) :=
  wr_done_does rfl h (by rw [blockKind_laneBlock]; exact (usedIndex_hl reg).1) (plainReg_of (laneBlock_range n) (usedIndex_hl reg).2)

theorem basinRegWrite_does (s : State) (i : Iface) (w : Way) (v : Word) (reg : BasinReg) (h : s.opens i 3) :
    Does (.basinRegWrite i reg w v) s (s.wrote 3 (basinIx reg) false w v) :=
  wr_done_does rfl h (usedIndex_basin reg).1 (plainReg_of (by decide) (usedIndex_basin reg).2)

theorem tmRegWrite_does (s : State) (i : Iface) (w : Way) (v : Word) (reg : TmReg) (h : s.opens i 2) :
    Does (.tmRegWrite i reg w v) s (s.wrote 2 (tmIx reg) false w v) :=
  wr_done_does rfl h (usedIndex_tm reg).1 (plainReg_of (by decide) (usedIndex_tm reg).2)

theorem calRegWrite_does (s : State) (i : Iface) (w : Way) (v : Word) (reg : CalReg) (h : s.opens i 6) :
    Does (.calRegWrite i reg w v) s (s.wrote 6 (calIx reg) false w v) :=
  wr_done_does rfl h (usedIndex_cal reg).1 (plainReg_of (by decide) (usedIndex_cal reg).2)

/-! ### PC_SEED -/

/-- PC_SEED reads as it acts: no scrub finding replaces it (R360). -/
theorem State.seedWritten_lfsr (s : State) : s.seedWritten.tally.lfsr = if s.reg (regKey 4 0x05) = 0 then 1 else s.reg (regKey 4 0x05) := by
  rw [← s.act_plain 4 0x05 (by decide) (by decide) (by decide) (by decide)]
  rfl

theorem pcSeedWrite_does (s : State) (i : Iface) (w : Way) (v : Word) (h : s.opens i 4) : Does (.pcSeedWrite i w v) s (fun t =>
    s.wrote 4 0x05 false w v t ∧ t.tally.lfsr = if t.reg (regKey 4 0x05) = 0 then 1 else t.reg (regKey 4 0x05)) := by
  have hp : plainReg 4 0x05 := plainReg_of (by decide) (by decide)
  refine ⟨settle s (s.busWrite i 4 0x05 w false v), rfl, State.busWrite_wrote h w v none rfl hp (settle_frame _ _), ?_⟩
  obtain ⟨base, u, x, y, z, kp, -, hu, he, -⟩ := State.wr_acts h w v (ix := 0x05) rfl hp (by decide)
  rw [settle_lfsr, settle_reg, he]
  show u.tally.lfsr = if u.reg (regKey 4 0x05) = 0 then 1 else u.reg (regKey 4 0x05)
  have hs : u = base.seedWritten := hu
  rw [hs, State.seedWritten_lfsr]
  rfl

/-- Settles O21: every row writes a register in use of its block through `busWrite`; PC_SEED also loads the LFSR. -/
theorem blockRegisterWrites : Obligations.BlockRegisterWrites := fun s i w v =>
  ⟨fun h => wr_done_does rfl h rfl (by unfold plainReg; decide),
    fun _ h => portWr_acts_does rfl h (by decide), fun _ h => portWr_acts_does rfl h (by decide), fun _ h => portWr_done_does rfl h (by decide),
    fun _ reg h => portWr_done_does rfl h (usedIndex_tx reg), fun _ reg h => portWr_done_does rfl h (usedIndex_rx reg),
    rhXtWrite_does s i w v, fun _ h => portWr_done_does rfl h (by decide), fun _ reg h => portWr_done_does rfl h (usedIndex_quiet reg),
    basinRegWrite_does s i w v, hlRegWrite_does s i w v, tmRegWrite_does s i w v, calRegWrite_does s i w v,
    fun _ reg h => portWr_done_does rfl h (usedIndex_dg reg), pcSeedWrite_does s i w v⟩

end Sys2Proof.Machine
end

section
/-! PROOFS. The guarded registers outside CK_RESET (R61, R63, R138, R328, R355, R356). A PD_FORCE_OFF write may let the recovery
from a REFCLK loss end in its chip soft reset, which leaves the CK_ and PD_ registers (R51, R425). -/

namespace Sys2Proof.Machine

/-! ### The registers that a chip soft reset keeps -/

/-- The CK_ and PD_ registers read the same in two states. -/
def State.sameKept (s t : State) : Prop := ∀ k, keptKey k = true → t.reg k = s.reg k

theorem State.sameKept_of_frame {s t : State} (h : t.frame = s.frame) : s.sameKept t :=
  fun k _ => stored_reg (stored_of_frame h) k

theorem State.sameKept.trans {s t u : State} (h1 : s.sameKept t) (h2 : t.sameKept u) : s.sameKept u :=
  fun k hk => (h2 k hk).trans (h1 k hk)

theorem foldl_sameKept {α : Type} (l : List α) (f : State → α → State) (s : State) (h : ∀ (t : State) x, t.sameKept (f t x)) :
    s.sameKept (l.foldl f s) := by
  induction l generalizing s with
  | nil => exact fun k _ => rfl
  | cons a l ih => exact (h s a).trans (ih _)

/-- The stored registers after a chip soft reset (R51). -/
theorem State.softReset_regs (s : State) (c : Nat) (w : Bool) : (s.softReset c w).regs = s.regs.filter (fun e => keptKey e.1) := by
  have hr := frame_regs (silence_all_frame s)
  unfold State.softReset
  generalize allPorts.foldl (fun (t : State) p => t.silence p false) s = u at hr
  rw [← hr]
  dsimp only
  split
  · exact frame_regs (State.restartKeeper_frame _)
  · rfl

theorem otp_of_root {a b : State} (h : a.frame.root = b.frame.root) : a.otp = b.otp := congrArg Root.otp h

/-- What the registers read after a chip soft reset (R51, R350). -/
theorem State.softReset_reg (s : State) (c : Nat) (w : Bool) (k : Nat) :
    (s.softReset c w).reg k = if keptKey k = true then s.reg k else rstWord s.otp k := by
  unfold State.reg
  rw [State.softReset_regs, tabGet_filter, otp_of_root (s.softReset_root c w)]

theorem State.softReset_sameKept (s : State) (c : Nat) (w : Bool) : s.sameKept (s.softReset c w) :=
  fun k hk => by rw [State.softReset_reg, if_pos hk]

/-! ### A domain's force-off bit -/

theorem State.stepThree_sameKept (s : State) : s.sameKept s.stepThree := by
  unfold State.stepThree
  split
  · split
    · exact State.softReset_sameKept { s with sup := { s.sup with stage := .released, softAfterRef := false } } 4 false
    · exact State.sameKept_of_frame rfl
  · exact State.sameKept_of_frame rfl

theorem State.forcePll_sameKept (s : State) (k : Pll) (off : Bool) : s.sameKept (s.forcePll k off) := by
  unfold State.forcePll
  split
  · exact (State.sameKept_of_frame (State.pllLost_frame s k {})).trans (State.stepThree_sameKept _)
  · split <;> exact State.sameKept_of_frame rfl

/-- Only the bit of a PLL's domain can let the recovery from a REFCLK loss end; any other one leaves the frame. -/
theorem State.forceOne_frame_or (s : State) (zeroOk : Bool) (d : Nat) :
    (s.forceOne zeroOk d).frame = s.frame ∨ ∃ k off, s.forceOne zeroOk d = s.forcePll k off := by
  unfold State.forceOne
  dsimp only
  split
  · left
    split <;> simp
  split
  · exact Or.inl (State.forceBank_frame _ _ _)
  split
  · left
    split
    · exact State.loseLane_frame _ _ _
    · rfl
  split
  · left
    split
    · exact State.abandonAll_frame _ _
    · exact State.startPending_frame _
  split
  · left
    split
    · exact State.dropRotation_frame _
    · rfl
  split
  · left
    split
    · exact State.zeroise_frame _ _ _
    · exact State.waitingKeys_frame _
  split
  · exact Or.inr ⟨_, _, rfl⟩
  · left
    split
    · exact foldl_frame _ _ _ (fun t p => by split <;> simp)
    · rfl

theorem State.forceOne_sameKept (s : State) (zeroOk : Bool) (d : Nat) : s.sameKept (s.forceOne zeroOk d) := by
  rcases s.forceOne_frame_or zeroOk d with h | ⟨k, off, h⟩
  · exact State.sameKept_of_frame h
  · rw [h]
    exact State.forcePll_sameKept _ _ _

theorem State.forceWritten_sameKept (s : State) (n : Fin 8) (old : Word) (zeroOk : Bool) : s.sameKept (s.forceWritten n old zeroOk) := by
  unfold State.forceWritten
  exact foldl_sameKept _ _ _ (fun t j => t.forceOne_sameKept zeroOk _)

/-! ### PD_FORCE_OFF -/

theorem forceOff_inUse (n : Fin 8) : usedIndex (blockKind 0) (0x10 + n.val) = true ∧ hasGuarded (keyFields (regKey 0 (0x10 + n.val))) = true := by
  revert n; decide

theorem portTxTest_guarded (p : Fin 16) : hasGuarded (keyFields (regKey (portBlock p.val) 0x17)) = true := by
  revert p; decide

/-- The access to PD_FORCE_OFFn stores its image; what it starts leaves the CK_ and PD_ registers. -/
theorem State.storeForceOff_sameKept (s : State) (n : Fin 8) (v : Word) (sup : Option Supplied) :
    (s.setReg (regKey 0 (0x10 + n.val)) (s.imageOf 0 (0x10 + n.val) true .plain v)).sameKept (s.storeReg 0 (0x10 + n.val) true .plain v sup) := by
  unfold State.storeReg State.regEffect
  dsimp only
  rw [if_neg (by omega), if_neg (by omega)]
  show State.sameKept _ (State.chipEffect _ _ _ _ _)
  unfold State.chipEffect
  rw [if_neg (by omega), if_pos (by omega)]
  exact (State.sameKept_of_frame (State.supply_frame _ _)).trans (State.forceWritten_sameKept _ _ _ _)

/-- The whole guard procedure on PD_FORCE_OFFn writes it and leaves every other CK_ and PD_ register. -/
theorem State.guardedForceOff_kept {s : State} {i : Iface} (h : s.opens i 0) (n : Fin 8) (v : Word) (sup : Option Supplied) (k : Nat) (hk : keptKey k = true) :
    (s.guardedWrite i 0 (0x10 + n.val) v sup).reg k
      = if k = regKey 0 (0x10 + n.val) then s.imageOf 0 (0x10 + n.val) true .plain v else s.reg k := by
  obtain ⟨t, g, -, he⟩ := State.guardedWrite_acts h (forceOff_inUse n).1 (forceOff_inUse n).2 v sup
  have hi : (s.pack i t g).imageOf 0 (0x10 + n.val) true .plain v = s.imageOf 0 (0x10 + n.val) true .plain v := by cases i <;> rfl
  have hs : ∀ u : State, ((if i = .keeper then u.noteCopy (regKey 0 (0x10 + n.val)) else u)).reg k = u.reg k := by
    intro u
    split
    · exact stored_reg (u.noteCopy_stored _) k
    · rfl
  rw [he, stored_reg (State.said_stored _ _ _ _ _ _)]
  unfold State.applyWrite
  dsimp only
  rw [hs, if_neg (by omega), State.storeForceOff_sameKept _ n v sup k hk, State.setReg_reg, hi, stored_reg (s.pack_stored i t g)]

/-- A state whose domains are fed holds no forced-off domain asked for. -/
theorem State.powered.unasked {s : State} (h : s.powered) {d : Nat} (hd : d < 256) (hf : s.forcedOff d = true) : s.asked d = false := by
  by_contra ha
  have := (h d hd (by simpa using ha)).1
  rw [hf] at this
  cases this

theorem pdForceOffWrite_does {s : State} {i : Iface} (h : s.opens i 0) (n : Fin 8) (v : Word) (ok : Bool) :
    Does (.pdForceOffWrite i n v ok) s (fun t => (s.sup.softAfterRef = false → s.wrote 0 (0x10 + n.val) true .plain v t)
      ∧ (∀ k, keptKey k = true → t.reg k = if k = regKey 0 (0x10 + n.val) then s.imageOf 0 (0x10 + n.val) true .plain v else s.reg k)
      ∧ ∀ d < 256, t.forcedOff d = true → t.asked d = false) := by
  have hf : ∀ u : State, (settle s (State.followAll s u)).frame = u.frame := fun u => by rw [settle_frame, State.followAll_frame]
  refine ⟨settle s (State.followAll s (s.guardedWrite i 0 (0x10 + n.val) v (some (supZero ok)))), rfl, fun hr => ?_, fun k hk => ?_, fun d hd => ?_⟩
  · exact State.guardedWrite_wrote h (forceOff_inUse n).1 (forceOff_inUse n).2 v _ (by omega) (by omega) (fun _ _ _ => hr) (hf _)
  · rw [stored_reg (stored_of_frame (hf _)), State.guardedForceOff_kept h n v _ k hk]
  · exact (settle_powered _ _).unasked hd

/-- Settles O23: the guard procedure stores the image; after PD_FORCE_OFF the command's closing brings the domains in line. -/
theorem guardedRegisters : Obligations.GuardedRegisters := fun s i v =>
  ⟨fun n ok h => pdForceOffWrite_does h n v ok,
    fun p h => done_does rfl (fun _ hf _ _ => State.guardedWrite_wrote h (by rw [blockKind_portBlock]; rfl) (portTxTest_guarded p) v none
      (by unfold portBlock; omega) (by unfold portBlock; omega) (by unfold portBlock; omega) hf),
    fun h => done_does rfl (fun _ hf _ _ => State.guardedWrite_wrote h (by decide) (by decide) v none (by omega) (by omega) (by omega) hf)⟩

end Sys2Proof.Machine
end

section
/-! PROOFS. The chip soft reset by CK_RESET.SOFT (R51 to R54, R366): what it leaves of a part whose start-up is complete. -/

namespace Sys2Proof.Machine

/-! ### What a chip soft reset leaves -/

/-- The transmitters that ramp down first (R134) change ports alone, and of each its transmit path alone. -/
theorem silence_ports_eq (l : List (Fin 16)) (s : State) :
    ∃ ps : Vector Port 16, l.foldl (fun (t : State) p => t.silence p false) s = { s with ports := ps } ∧ ∀ p, (ps.get p).snd = (s.port p).snd := by
  induction l generalizing s with
  | nil => exact ⟨s.ports, rfl, fun _ => rfl⟩
  | cons a l ih =>
    have ha : ∃ ps, s.silence a false = { s with ports := ps } := by
      unfold State.silence
      split <;> exact ⟨_, rfl⟩
    have hs : ∀ p, ((s.silence a false).port p).snd = (s.port p).snd := fun p => by
      by_cases h : p = a
      · obtain ⟨t, ht⟩ := s.silence_port a false
        rw [h, ht]
      · rw [s.silence_port_ne h]
    obtain ⟨qs, hq⟩ := ha
    obtain ⟨ps, hp, hw⟩ := ih (s.silence a false)
    refine ⟨ps, ?_, fun p => (hw p).trans (hs p)⟩
    rw [List.foldl_cons, hp, hq]

/-- Loading the identity key into the store changes that key and ZERO_OK alone. -/
theorem State.loadIdentity_eq (s : State) : ∃ ks : KeyStore, s.loadIdentity = { s with keys := ks } ∧ ks.keys = s.keys.keys := by
  unfold State.loadIdentity
  split <;> exact ⟨_, rfl, rfl⟩

/-- Where the straps send a keeper that leaves reset (R52, R55). -/
def Supervisor.bootMode (u : Supervisor) : KeeperMode :=
  if u.bootSel = 3 then .boardTest else if u.bootSel = 2 then .romWait else .loading

/-- The restart of the keeper from boot ROM changes the keeper and the key store alone. -/
theorem State.restartKeeper_eq (s : State) :
    ∃ (ks : KeyStore) (kp : Keeper), s.restartKeeper = { s with keys := ks, keeper := kp } ∧ ks.keys = s.keys.keys ∧ kp.mode = s.sup.bootMode := by
  unfold State.restartKeeper
  split
  · obtain ⟨ks, he, hk⟩ := s.loadIdentity_eq
    rw [he]
    exact ⟨ks, _, rfl, hk, rfl⟩
  · exact ⟨s.keys, _, rfl, rfl, rfl⟩

/-- What the supervisor notes of a chip soft reset (R51). -/
def Supervisor.softly (u : Supervisor) (cause : Nat) : Supervisor :=
  { u with cause := some (cause, 0), softLock := true, safeN := false, lbistDone := none }

/-- A chip soft reset that keeps the basin, once start-up is complete: the ports ramp down, `softLeft` clears, the keeper leaves
reset with a store of the same keys. -/
theorem State.softReset_eq {s : State} (h : s.sup.stage = .released) (c : Nat) :
    ∃ (ps : Vector Port 16) (ks : KeyStore) (kp : Keeper),
      s.softReset c false = { ({ s with ports := ps } : State).softLeft c false with keys := ks, keeper := kp }
        ∧ (∀ p, (ps.get p).snd = (s.port p).snd) ∧ ks.keys = s.keys.keys ∧ kp.mode = s.sup.bootMode := by
  obtain ⟨ps, he, hs⟩ := silence_ports_eq allPorts s
  obtain ⟨ks, kp, hr, hk, hm⟩ := (({ s with ports := ps } : State).softLeft c false).restartKeeper_eq
  refine ⟨ps, ks, kp, ?_, hs, hk, hm⟩
  unfold State.softReset
  rw [he]
  exact (if_pos (by rw [State.softLeft_stage]; exact beq_iff_eq.mpr h)).trans hr

section
variable {s : State} (h : s.sup.stage = .released) (c : Nat)
include h

theorem State.softReset_sup : (s.softReset c false).sup = s.sup.softly c := by
  obtain ⟨ps, ks, kp, he, -, -, -⟩ := State.softReset_eq h c
  rw [he]
  rfl

theorem State.softReset_now : (s.softReset c false).time.now = s.time.now := by
  obtain ⟨ps, ks, kp, he, -, -, -⟩ := State.softReset_eq h c
  rw [he]
  rfl

theorem State.softReset_mode : (s.softReset c false).keeper.mode = s.sup.bootMode := by
  obtain ⟨ps, ks, kp, he, -, -, hm⟩ := State.softReset_eq h c
  rw [he]
  exact hm

theorem State.softReset_keys : (s.softReset c false).keys.keys = s.keys.keys := by
  obtain ⟨ps, ks, kp, he, -, hk, -⟩ := State.softReset_eq h c
  rw [he]
  exact hk

/-- The queues with their tickets stay. -/
theorem State.softReset_basin : (s.softReset c false).basin.queues.map (·.num) = s.basin.queues.map (·.num)
    ∧ (s.softReset c false).basin.tickets.map (fun x => (x.id, x.queue, x.cells)) = s.basin.tickets.map (fun x => (x.id, x.queue, x.cells)) := by
  obtain ⟨ps, ks, kp, he, -, -, -⟩ := State.softReset_eq h c
  rw [he]
  simp only [State.softLeft, Bool.false_eq_true, if_false, List.map_map]
  exact ⟨rfl, List.map_congr_left (fun x _ => by dsimp only [Function.comp]; split <;> rfl)⟩

theorem State.softReset_untaken : (s.softReset c false).ring.untaken = [] := by
  obtain ⟨ps, ks, kp, he, -, -, -⟩ := State.softReset_eq h c
  rw [he]
  rfl

/-- Every port is DISABLED and keeps its retry window. -/
theorem State.softReset_port (p : Fin 16) : ((s.softReset c false).port p).link.state = .disabled
    ∧ ((s.softReset c false).port p).snd.w = (s.port p).snd.w := by
  obtain ⟨ps, ks, kp, he, hs, -, -⟩ := State.softReset_eq h c
  have hp : (s.softReset c false).port p = (ps.get p).soft := by
    rw [he]
    show (ps.map Port.soft).get p = _
    simp [Vector.get]
  rw [hp]
  refine ⟨rfl, ?_⟩
  rw [← hs]
  rfl

end

/-! ### The guarded write of CK_RESET.SOFT -/

theorem State.resetActed_soft (s : State) : s.resetActed (actedBits (keyFields (regKey 0 0x0B)) true .plain 1) = s.softReset 5 false := by
  unfold State.resetActed
  rw [resetActs_bit _ _ (Or.inl (by decide))]
  exact if_pos rfl

/-- The state on which a guarded write of CK_RESET acts differs in what counts, mends and records the access alone. -/
theorem State.resetBase_eq (s : State) (i : Iface) (t : Tally) (g : IfaceRec) :
    ∃ (x y z : IfaceRec) (rs : List (Nat × Word)) (me : List Nat),
      s.resetBase i t g = { s with tally := t, spi := x, mon := y, kpi := z, regs := rs, mended := me } := by
  cases i <;> exact ⟨_, _, _, _, _, rfl⟩

/-- Settles O24: the write acts as a chip soft reset with cause 5 on a state that differs from `s` in the record of the access. -/
theorem softReset : Obligations.SoftReset := by
  intro s i ho h
  obtain ⟨ta, g, u, x, y, z, kp, hu, he, hk⟩ := State.resetWrite_eq ho 1
  rw [State.resetActed_soft] at hu
  obtain ⟨x1, y1, z1, rs, me, hb⟩ := s.resetBase_eq i ta g
  have hreg := State.resetBase_reg s i ta g
  generalize s.resetBase i ta g = b at hu hb hreg
  have hs : b.sup.stage = .released := by rw [hb]; exact h
  obtain ⟨hq, ht⟩ := State.softReset_basin hs 5
  refine ⟨settle s (s.guardedWrite i 0 0x0B 1), rfl, ?_⟩
  simp only [settle_sup, settle_clk, settle_keys, settle_time, settle_otp, settle_reg, settle_keeper, settle_basin, settle_ring, settle_port_link, settle_port_snd]
  have hg : ∀ k, (s.guardedWrite i 0 0x0B 1).reg k = u.reg k := fun k => by rw [he]; rfl
  have hp : ∀ p, (s.guardedWrite i 0 0x0B 1).port p = u.port p := fun p => by rw [he]; rfl
  have hm : (s.guardedWrite i 0 0x0B 1).keeper.mode = u.keeper.mode := by
    rw [he, hk]
  have hbs : b.port = s.port := by rw [hb]; rfl
  simp only [hg, hp, hm, hu, State.softReset_reg, hreg]
  rw [he]
  dsimp only
  rw [hu, State.softReset_sup hs, State.softReset_clk, State.softReset_keys hs, State.softReset_now hs, otp_of_root (State.softReset_root _ _ _),
    State.softReset_mode hs, hq, ht, State.softReset_untaken hs]
  have hw := State.softReset_port hs 5
  rw [hbs] at hw
  subst hb
  exact ⟨rfl, rfl, rfl, rfl, rfl, fun _ => rfl, rfl, rfl, rfl, rfl, hw⟩

end Sys2Proof.Machine
end

section
/-! PROOFS. CK_RESET.KEEPER, .PORT and .LANE (R51 to R54, R270, R374): each bit of the write starts its own reset, and the resets
of one mask leave one another's ports and lanes as they were. -/

namespace Sys2Proof.Machine

/-! ### Which resets a write starts -/

/-- A guarded write of CK_RESET without SOFT: the keeper, then the masked lanes, then the masked ports. -/
theorem State.resetActed_units (s : State) (v : Word) (h : v.getLsbD 0 = false) :
    s.resetActed (actedBits (keyFields (regKey 0 0x0B)) true .plain v)
      = allPorts.foldl (fun (t : State) p => if v.getLsbD (16 + p.val) = true then t.portReset p else t)
          (allLanes.foldl (fun (t : State) n => if v.getLsbD (8 + n.val) = true then t.laneReset n else t)
            (if v.getLsbD 1 = true then s.controlPlane 5 else s)) := by
  have hl := fun n : Fin 8 => resetActs_bit v (8 + n.val) (by omega)
  have hp := fun p : Fin 16 => resetActs_bit v (16 + p.val) (by omega)
  unfold State.resetActed
  simp only [resetActs_bit v 0 (by omega), resetActs_bit v 1 (by omega), h, hl, hp, Bool.false_eq_true, if_false]

/-- A fold whose every step does nothing. -/
theorem foldl_never {α : Type} (l : List α) (f : State → α → State) (g : α → Bool) (s : State) (h : ∀ a, g a = false) :
    l.foldl (fun (t : State) a => if g a = true then f t a else t) s = s := by
  simp only [h, Bool.false_eq_true, if_false, List.foldl_fixed]

/-- The bits of a mask placed in a register. -/
theorem put_mask (lo w j : Nat) (m : BitVec w) (hj : j < 32) :
    (put lo w m.toNat).getLsbD j = (decide (lo ≤ j) && m.getLsbD (j - lo)) := by
  rw [put_bit, ← BitVec.testBit_toNat]
  by_cases h1 : lo ≤ j
  · by_cases h2 : j < lo + w
    · simp [hj, h1, h2]
    · have : m.toNat.testBit (j - lo) = false := by
        rw [BitVec.testBit_toNat]
        exact BitVec.getLsbD_of_ge m _ (by omega)
      simp [this]
  · simp [h1]

/-- CK_RESET.KEEPER alone is a control-plane reset. -/
theorem State.resetActed_keeper (s : State) : s.resetActed (actedBits (keyFields (regKey 0 0x0B)) true .plain 2) = s.controlPlane 5 := by
  rw [State.resetActed_units _ _ (by decide), foldl_never _ _ (fun p : Fin 16 => (2 : Word).getLsbD (16 + p.val)) _ (by decide),
    foldl_never _ _ (fun n : Fin 8 => (2 : Word).getLsbD (8 + n.val)) _ (by decide)]
  rfl

/-- CK_RESET.PORT alone resets the ports of its mask. -/
theorem State.resetActed_ports (s : State) (m : BitVec 16) :
    s.resetActed (actedBits (keyFields (regKey 0 0x0B)) true .plain (put 16 16 m.toNat))
      = allPorts.foldl (fun (t : State) p => if m.getLsbD p.val = true then t.portReset p else t) s := by
  have hp : ∀ p : Fin 16, (put 16 16 m.toNat).getLsbD (16 + p.val) = m.getLsbD p.val := fun p => by
    simp only [put_mask 16 16 (16 + p.val) m (by omega), Nat.le_add_right, decide_true, Bool.true_and, Nat.add_sub_cancel_left]
  have hl : ∀ n : Fin 8, (put 16 16 m.toNat).getLsbD (8 + n.val) = false := fun n => by
    rw [put_mask 16 16 _ m (by omega), decide_eq_false (by omega), Bool.false_and]
  rw [State.resetActed_units _ _ (put_mask 16 16 0 m (by omega)), foldl_never _ _ (fun n : Fin 8 => (put 16 16 m.toNat).getLsbD (8 + n.val)) _ hl,
    put_mask 16 16 1 m (by omega)]
  simp only [hp]
  rfl

/-- CK_RESET.LANE alone resets the lanes of its mask. -/
theorem State.resetActed_lanes (s : State) (m : BitVec 8) :
    s.resetActed (actedBits (keyFields (regKey 0 0x0B)) true .plain (put 8 8 m.toNat))
      = allLanes.foldl (fun (t : State) n => if m.getLsbD n.val = true then t.laneReset n else t) s := by
  have hp : ∀ p : Fin 16, (put 8 8 m.toNat).getLsbD (16 + p.val) = false := fun p => by
    rw [put_mask 8 8 _ m (by omega), BitVec.getLsbD_of_ge m _ (by omega), Bool.and_false]
  have hl : ∀ n : Fin 8, (put 8 8 m.toNat).getLsbD (8 + n.val) = m.getLsbD n.val := fun n => by
    simp only [put_mask 8 8 (8 + n.val) m (by omega), Nat.le_add_right, decide_true, Bool.true_and, Nat.add_sub_cancel_left]
  rw [State.resetActed_units _ _ (put_mask 8 8 0 m (by omega)), foldl_never _ _ (fun p : Fin 16 => (put 8 8 m.toNat).getLsbD (16 + p.val)) _ hp,
    put_mask 8 8 1 m (by omega)]
  simp only [hl]
  rfl

/-! ### The keeper -/

/-- A control-plane reset leaves the basin, the calendar, the lanes and the registers (R374). -/
theorem State.controlPlane_keeps (s : State) (c : Nat) : (s.controlPlane c).basin = s.basin ∧ (s.controlPlane c).time.cal = s.time.cal
    ∧ (s.controlPlane c).lanes = s.lanes ∧ ∀ k, (s.controlPlane c).reg k = s.reg k := by
  refine ⟨?_, ?_, ?_, fun k => stored_reg (stored_of_frame (s.controlPlane_frame c)) k⟩
  all_goals
    unfold State.controlPlane
    obtain ⟨v, t, h⟩ := State.restartAll_eq allChans s
    rw [h]
    dsimp only
    split
    · rfl
    · split
      · simp
      · split <;> simp

theorem ckResetKeeper_does {s : State} {i : Iface} (ho : s.opens i 0) (h : s.keeper.out = true) : Does (.ckResetKeeper i) s (s.restarted 5) := by
  obtain ⟨ta, g, u, x, y, z, kp, hu, he, hk⟩ := State.resetWrite_eq ho 2
  rw [State.resetActed_keeper] at hu
  obtain ⟨x1, y1, z1, rs, me, hb⟩ := s.resetBase_eq i ta g
  have hreg := State.resetBase_reg s i ta g
  generalize s.resetBase i ta g = b at hu hb hreg
  obtain ⟨h1, h2, h3, h4⟩ := b.controlPlane_keeps 5
  rw [← hu] at h1 h2 h3 h4
  have hr : b.restarted 5 (settle s (s.guardedWrite i 0 0x0B 2)) := by
    rw [he]
    refine b.controlPlane_restarted s _ 5 (by rw [hb]; exact h) ?_ (by rw [← hu]) h1 h2 h3 (fun k => h4 k) (by rw [← hu])
    rw [← hu]
    dsimp only
    rw [hk]
    exact ⟨rfl, rfl, rfl⟩
  refine ⟨_, rfl, ?_⟩
  unfold State.restarted at hr ⊢
  simp only [hreg] at hr
  subst hb
  exact hr

end Sys2Proof.Machine
end

section
/-! PROOFS. The port and lane resets of a mask (R51, R270), and with them the unit resets of CK_RESET. -/

namespace Sys2Proof.Machine

/-! ### Masked ports -/

/-- The ports of a mask reset in number order. -/
def State.portResets (s : State) (m : BitVec 16) : State :=
  allPorts.foldl (fun (t : State) p => if m.getLsbD p.val = true then t.portReset p else t) s

theorem State.portResets_frame (s : State) (m : BitVec 16) : (s.portResets m).frame = s.frame :=
  foldl_frame _ _ _ (fun t p => by
    split
    · exact t.portReset_frame p
    · rfl)

theorem State.portResets_held (s : State) (m : BitVec 16) : (s.portResets m).held = s.held :=
  foldl_held _ _ _ (fun t p => by
    split
    · exact t.portReset_held p
    · rfl)

theorem State.portResets_far (s : State) (m : BitVec 16) : (s.portResets m).far = s.far :=
  foldl_keep State.far _ _ _ (fun t p => by
    split
    · exact t.portReset_far p
    · rfl)

section
variable {s : State} (ht : ∀ p, (s.port p).tdr.running = false) {m : BitVec 16} {p : Fin 16}
include ht

/-- A port outside the mask stays. -/
theorem State.portResets_unmasked (h : m.getLsbD p.val = false) : ((s.portResets m).port p).mask = (s.port p).mask :=
  State.portResets_ne allPorts (fun q => m.getLsbD q.val) s p (fun _ => h) (List.nodup_finRange 16) (fun q => Or.inl (ht q))

/-- A masked port goes down with cause 13 unless it is DISABLED or in a diagnostic run, and keeps its window. -/
theorem State.portResets_masked (h : m.getLsbD p.val = true) :
    ((s.port p).link.state ≠ .disabled → (s.port p).link.state ≠ .diag →
        ((s.portResets m).port p).link.state = .hold ∧ ((s.portResets m).port p).link.downCause = 13)
      ∧ ((s.portResets m).port p).snd.w = (s.port p).snd.w ∧ ((s.portResets m).port p).cal = (s.port p).cal := by
  obtain ⟨u, hu, hr, he⟩ := State.portResets_self allPorts (fun q => m.getLsbD q.val) s p (List.mem_finRange p) h (List.nodup_finRange 16) ht
  have hs := u.portReset_self p hr
  rw [← mask_link hu, ← mask_snd hu, ← mask_cal hu]
  unfold State.portResets
  rw [mask_link he, mask_snd he, mask_cal he]
  exact hs

theorem State.portResets_cal : ((s.portResets m).port p).cal = (s.port p).cal := by
  cases h : m.getLsbD p.val with
  | false => exact mask_cal (State.portResets_unmasked ht h)
  | true => exact (State.portResets_masked ht h).2.2

end

theorem ckResetPort_does {s : State} {i : Iface} (ho : s.opens i 0) (m : BitVec 16) (hf : s.unforced)
    (hr : ∀ p, (s.port p).cal.running = false ∧ (s.port p).tdr.running = false) : Does (.ckResetPort i m) s (fun t => ∀ p : Fin 16,
      (m.getLsbD p.val = true → (s.port p).link.state ≠ .disabled → (s.port p).link.state ≠ .diag →
        (t.port p).link.state = .hold ∧ (t.port p).link.downCause = 13 ∧ (t.port p).snd.w = (s.port p).snd.w)
      ∧ (m.getLsbD p.val = false → (t.port p).link = (s.port p).link)) := by
  obtain ⟨ta, g, u, x, y, z, kp, hu, he, -⟩ := State.resetWrite_eq ho (put 16 16 m.toNat)
  rw [State.resetActed_ports] at hu
  change u = (s.resetBase i ta g).portResets m at hu
  obtain ⟨x1, y1, z1, rs, me, hb⟩ := s.resetBase_eq i ta g
  have hreg := State.resetBase_reg s i ta g
  have hact := State.resetBase_act s i ta g
  generalize s.resetBase i ta g = b at hu hb hreg hact
  have hbp : b.port = s.port := by rw [hb]; rfl
  have ht : ∀ p, (b.port p).tdr.running = false := fun p => by rw [hbp]; exact (hr p).2
  have hlev : b.cal.level = s.cal.level := by rw [hb]
  have hur : ∀ k, u.reg k = b.reg k := fun k => by rw [hu, stored_reg (stored_of_frame (b.portResets_frame m))]
  have hul : u.cal.level = b.cal.level := by rw [hu, far_level (b.portResets_far m)]
  have hw : State.followAll s (s.guardedWrite i 0 0x0B (put 16 16 m.toNat)) = s.guardedWrite i 0 0x0B (put 16 16 m.toNat) := by
    rw [he]
    refine followAll_free (State.unforced_read (fun k => ?_) ?_ hf) (fun p => ?_) (fun p => ?_)
    · exact (hur k).trans (hreg k)
    · exact hul.trans hlev
    · show (u.port p).cal.running = false
      rw [hu, State.portResets_cal ht, hbp]
      exact (hr p).1
    · have ha : u.act (regKey (portBlock p.val) 1) = s.act (regKey (portBlock p.val) 1) := by
        rw [hu, State.act_frame (b.portResets_frame m) (b.portResets_held m) (far_mended (b.portResets_far m))]
        exact hact _ (by unfold regKey portBlock; omega)
      exact congrArg (fun w => bit w 8) ha.symm
  refine ⟨settle s (State.followAll s (s.guardedWrite i 0 0x0B (put 16 16 m.toNat))), rfl, fun p => ?_⟩
  rw [hw, settle_port_link, settle_port_snd, he]
  show (_ → _ → _ → (u.port p).link.state = _ ∧ (u.port p).link.downCause = _ ∧ (u.port p).snd.w = _) ∧ (_ → (u.port p).link = _)
  rw [hu, ← hbp]
  refine ⟨fun h h1 h2 => ?_, fun h => mask_link (State.portResets_unmasked ht h)⟩
  obtain ⟨hd, hs, -⟩ := State.portResets_masked ht h
  exact ⟨(hd h1 h2).1, (hd h1 h2).2, hs⟩

/-! ### Masked lanes -/

/-- What a reset does to its own lane. -/
def Lane.wasReset (l : Lane) (enabled : Bool) (t : Lane) : Prop :=
  (l.state = .up → t.state = (if enabled then .lost else .off) ∧ t.cause = 6 ∧ t.sendRf = true ∧ t.blockLock = false) ∧ t.fecCorr = 0 ∧ t.fecUncorr = 0

theorem State.laneReset_self (s : State) (n : Fin 8) : (s.lane n).wasReset (bit (s.laneReg n.val 0) 0) ((s.laneReset n).lane n) := by
  obtain ⟨l, hl, hu⟩ := s.loseLane_lanes n 6
  have he : (s.loseLane n 6).lane n = l := by
    unfold State.lane
    rw [hl]
    exact get_set_same _ _ _
  unfold State.laneReset State.laneCleared
  rw [State.lane_modLane_same, he]
  refine ⟨fun h => ?_, rfl, rfl⟩
  rw [hu h]
  exact ⟨rfl, rfl, rfl, rfl⟩

theorem State.laneReset_ne (s : State) {n q : Fin 8} (h : q ≠ n) : (s.laneReset n).lane q = s.lane q := by
  obtain ⟨l, hl, -⟩ := s.loseLane_lanes n 6
  unfold State.laneReset State.laneCleared
  rw [State.lane_modLane_ne _ h]
  unfold State.lane
  rw [hl]
  show (s.lanes.set n.val l n.isLt)[q.val] = s.lanes[q.val]
  exact Vector.getElem_set_ne _ _ (fun e => h (Fin.ext e.symm))

theorem State.laneReset_mended (s : State) (n : Fin 8) : (s.laneReset n).mended = s.mended := by
  unfold State.laneReset State.laneCleared
  show (s.loseLane n 6).mended = s.mended
  unfold State.loseLane
  dsimp only
  split
  · rfl
  · rw [far_mended (State.replaceAll_far _ _ _ State.retarget_far), far_mended (State.replaceAll_far _ _ _ State.restartOn_far),
      far_mended (foldl_keep State.far _ _ _ (fun t q => by split; exact t.restartOn_far _ _; rfl)), far_mended (State.raise_far _ _ _ _ _ _ _ _)]
    rfl

/-- A lane reset leaves every register as it acts. -/
theorem State.laneReset_act (s : State) (n : Fin 8) (k : Nat) : (s.laneReset n).act k = s.act k :=
  State.act_frame (s.laneReset_frame n) (s.laneReset_held n) (s.laneReset_mended n) k

/-- Lanes reset in turn: a lane outside the mask stays, one of the mask is reset once. -/
theorem State.laneResets_lane (l : List (Fin 8)) (f : Fin 8 → Bool) (s : State) (q : Fin 8) (hl : l.Nodup) :
    (q ∈ l → f q = true → (s.lane q).wasReset (bit (s.laneReg q.val 0) 0) ((l.foldl (fun (t : State) n => if f n = true then t.laneReset n else t) s).lane q))
      ∧ ((q ∈ l → f q = false) → (l.foldl (fun (t : State) n => if f n = true then t.laneReset n else t) s).lane q = s.lane q) := by
  induction l generalizing s with
  | nil => exact ⟨fun h => absurd h List.not_mem_nil, fun _ => rfl⟩
  | cons a l ih =>
    obtain ⟨ha, hl⟩ := List.nodup_cons.mp hl
    rw [List.foldl_cons]
    cases hf : f a with
    | false =>
      rw [if_neg (by decide)]
      obtain ⟨h1, h2⟩ := ih s hl
      refine ⟨fun hm hq => h1 ?_ hq, fun h => h2 (fun hm => h (List.mem_cons_of_mem a hm))⟩
      refine (List.mem_cons.mp hm).resolve_left (fun e => ?_)
      rw [e, hf] at hq
      cases hq
    | true =>
      rw [if_pos rfl]
      obtain ⟨h1, h2⟩ := ih (s.laneReset a) hl
      by_cases e : q = a
      · subst e
        refine ⟨fun _ _ => ?_, fun h => ?_⟩
        · rw [h2 (fun hm => absurd hm ha)]
          exact s.laneReset_self q
        · rw [h List.mem_cons_self] at hf
          cases hf
      · have hr : (s.laneReset a).laneReg q.val 0 = s.laneReg q.val 0 := s.laneReset_act a _
        rw [s.laneReset_ne e, hr] at h1
        rw [s.laneReset_ne e] at h2
        exact ⟨fun hm => h1 ((List.mem_cons.mp hm).resolve_left e), fun h => h2 (fun hm => h (List.mem_cons_of_mem a hm))⟩

theorem ckResetLane_does {s : State} {i : Iface} (ho : s.opens i 0) (m : BitVec 8) : Does (.ckResetLane i m) s (fun t => ∀ n : Fin 8,
      (m.getLsbD n.val = true → (s.lane n).state = .up → (t.lane n).state = (if bit (s.laneReg n.val 0) 0 then .lost else .off)
        ∧ (t.lane n).cause = 6 ∧ (t.lane n).sendRf = true ∧ (t.lane n).blockLock = false)
      ∧ (m.getLsbD n.val = true → (t.lane n).fecCorr = 0 ∧ (t.lane n).fecUncorr = 0)
      ∧ (m.getLsbD n.val = false → t.lane n = s.lane n)) := by
  obtain ⟨ta, g, u, x, y, z, kp, hu, he, -⟩ := State.resetWrite_eq ho (put 8 8 m.toNat)
  rw [State.resetActed_lanes] at hu
  obtain ⟨x1, y1, z1, rs, me, hb⟩ := s.resetBase_eq i ta g
  have hact := State.resetBase_act s i ta g
  generalize s.resetBase i ta g = b at hu hb hact
  refine ⟨settle s (s.guardedWrite i 0 0x0B (put 8 8 m.toNat)), rfl, fun n => ?_⟩
  have hn : (settle s (s.guardedWrite i 0 0x0B (put 8 8 m.toNat))).lane n = u.lane n := by
    unfold State.lane
    rw [settle_lanes, he]
  have hbl : b.lane n = s.lane n := by rw [hb]; rfl
  have hbr : b.laneReg n.val 0 = s.laneReg n.val 0 := hact _ (by unfold regKey laneBlock; omega)
  have hl := b.laneResets_lane allLanes (fun q => m.getLsbD q.val) n (List.nodup_finRange 8)
  rw [← hu, hbl, hbr] at hl
  obtain ⟨h1, h2⟩ := hl
  rw [hn]
  exact ⟨fun h hs => (h1 (List.mem_finRange n) h).1 hs, fun h => (h1 (List.mem_finRange n) h).2, fun h => h2 (fun _ => h)⟩

/-- Settles O25: each bit field of CK_RESET starts its own unit's resets. -/
theorem unitResets : Obligations.UnitResets := fun _ _ ho => ⟨ckResetKeeper_does ho, ckResetPort_does ho, ckResetLane_does ho⟩

end Sys2Proof.Machine
end

section
/-! PROOFS. EVENT_FETCH, REMOTE_CMD, FW_STAGE and FW_ACTIVATE (R51, R222, R377, R379, R390, R391): each request is served on the
state that its doorbell leaves, and its answer stands in the channel's response cells (R380). -/

namespace Sys2Proof.Machine

/-! ### Response cells (R380) -/

theorem respCells_head (code tag st d : Nat) (ws : List Word) (hc : code < 256) (ht : tag < 65536) (hw : ws.length ≤ 60) :
    fld ((respCells code tag st d ws).get 0) 0 8 = code ∧ fld ((respCells code tag st d ws).get 0) 16 16 = tag := by
  have e : (respCells code tag st d ws).get 0 = wd (tag * 65536 + (1 + ceilDiv ws.length 4) * 256 + code) := by
    unfold respCells
    exact Vector.get_ofFn _ _
  rw [e]
  unfold fld wd ceilDiv
  rw [BitVec.toNat_ofNat]
  omega

theorem respCells_word (code tag st d : Nat) (ws : List Word) {k : Nat} (hk : k < 60) :
    (respCells code tag st d ws).toList.getD (4 + k) 0 = ws.getD k 0 := by
  unfold respCells
  simp only [Vector.toList_ofFn, List.getD_eq_getElem?_getD, List.getElem?_ofFn, show 4 + k < 64 by omega, dite_true, Option.getD_some]
  rw [List.getElem?_append_right (by simp)]
  simp

/-- The channel of a request, once answered, holds the request's answer with its result words. -/
theorem State.gives_of {s t : State} {c : Fin 16} {code : Nat} {r : Request} (hb : (s.chan c).busy = false) (hc : code < 256) {st d : Nat} {ws : List Word}
    (hs : st < 65536) (hd : d < 65536) (hw : ws.length ≤ 60) (ht : t.chan c = ((s.rung c code r).chan c).answered st d ws) :
    t.answered c code r st ∧ ∀ k < ws.length, t.result c k = ws.getD k 0 := by
  have hcode := s.rung_code c code r hc hb
  have htag := s.rung_tag c code r hb
  unfold State.answered State.result
  rw [ht]
  unfold Channel.answered
  dsimp only
  rw [hcode, htag]
  obtain ⟨h1, h2⟩ := respCells_head code r.tag.toNat st d ws hc r.tag.isLt hw
  exact ⟨⟨rfl, rfl, h1, h2, respCells_status _ _ _ _ _ hs hd⟩, fun k hk => respCells_word _ _ _ _ _ (by omega)⟩

theorem State.answered_of {s t : State} {c : Fin 16} {code : Nat} {r : Request} (hb : (s.chan c).busy = false) (hc : code < 256) {st d : Nat}
    (hs : st < 65536) (hd : d < 65536) (ht : t.chan c = ((s.rung c code r).chan c).answered st d []) : t.answered c code r st :=
  (State.gives_of hb hc hs hd (by simp) ht).1

/-- What ends a command leaves an answered channel. -/
theorem settle_answered (old s : State) (c : Fin 16) (st : Nat) (ws : List Word) (d : Nat) :
    (settle old (s.answer c st ws d)).chan c = (s.chan c).answered st d ws := by
  rw [settle_chan _ _ _ (by rw [State.answer_chan_same]; exact fun _ _ _ => nofun), State.answer_chan_same]

/-! ### A request taken -/

/-- The doorbell changes channels and counts alone (R381, R382). -/
theorem State.rung_eq (s : State) (c : Fin 16) (code : Nat) (r : Request) : ∃ v t, s.rung c code r = { s with chans := v, tally := t } := by
  unfold State.rung State.count
  obtain ⟨t, h⟩ := State.countCode_eq ((s.putRequest c code r).modChan c (fun ch => { ch with reject := 0, busy := true, done := false, work := none })) (mboxBlock c.val) (0x200 + 0) 1
  rw [h]
  unfold State.putRequest
  dsimp only
  split
  · exact ⟨_, t, rfl⟩
  · exact ⟨_, t, rfl⟩

theorem State.rung_busy (s : State) (c : Fin 16) (code : Nat) (r : Request) : ((s.rung c code r).chan c).busy = true := by
  simp [State.rung]

section
variable {s : State} {c : Fin 16} {r : Request} {n : Nat} (ht : s.takes c r n)
include ht

theorem State.takes.idle : (s.chan c).busy = false := by
  obtain ⟨⟨-, -, -, h, -⟩, -⟩ := ht
  exact h

theorem State.takes.running : s.keeper.mode = .running := by
  obtain ⟨⟨-, h, -⟩, -⟩ := ht
  exact h

/-- The argument words as the request gives them. -/
theorem State.takes.arg (code k : Nat) : (s.rung c code r).arg c k = argWord r k := by
  have hb := ht.idle
  obtain ⟨-, -, hr, -⟩ := ht
  exact s.rung_arg c code r hb hr k

/-- A command whose request is taken is served. -/
theorem State.takes.does {i : Instr} {code : Nat} {sup : Option Supplied} {P : State → Prop} (he : exec i s = s.runs (s.issueCmd c code r sup))
    (hc : code < 256) (hn : ((s.rung c code r).chan c).need code = some n) (h : P (settle s ((s.rung c code r).serveCode c code sup))) : Does i s P := by
  obtain ⟨hs, hw, hr, hl⟩ := ht
  refine runs_does (State.clocked_released ?_) he ?_
  · obtain ⟨h, -⟩ := hs
    exact h
  · rw [State.issueCmd_serves hs hw code r hr sup hc n hn hl]
    exact h

end

/-! ### EVENT_FETCH (R391) -/

theorem flatMap_words_length (l : List EventRec) : (l.flatMap (fun e => e.words.take 8)).length = 8 * l.length := by
  induction l with
  | nil => rfl
  | cons e l ih =>
    rw [List.flatMap_cons, List.length_append, ih, List.length_cons]
    have : (e.words.take 8).length = 8 := rfl
    omega

/-- The sequence of the oldest record that the ring still holds; the next one where it holds none. -/
def EventRing.oldest (r : EventRing) : Word :=
  match r.kept with
  | e :: _ => e.seq
  | [] => r.nextSeq

/-- The first n of the held records from a sequence on. -/
def EventRing.fetched (r : EventRing) (from_ : Word) (n : Nat) : List EventRec :=
  (r.kept.filter (fun e => decide ((e.seq - from_).toNat < 2 ^ 31))).take n

theorem State.serveFetch_eq (s : State) (c : Fin 16) : s.serveFetch c = if fld (s.arg c 1) 0 3 = 0 then s.answer c stBadArg [] 1
    else s.answer c stOk (wd (s.ring.fetched (s.arg c 0) (fld (s.arg c 1) 0 3)).length :: s.ring.oldest
      :: (s.ring.fetched (s.arg c 0) (fld (s.arg c 1) 0 3)).flatMap (fun e => e.words.take 8)) := rfl

section
variable {s : State} {c : Fin 16} {r : Request} (ht : s.takes c r 2)
include ht

theorem eventFetch_none (h : fld (argWord r 1) 0 3 = 0) : Does (.eventFetch c r) s (fun t => t.answered c 0x90 r 4) := by
  refine ht.does rfl (by decide) rfl (State.answered_of (d := 1) ht.idle (by decide) (by decide) (by decide) ?_)
  show (settle s ((s.rung c 0x90 r).serveFetch c)).chan c = _
  rw [State.serveFetch_eq, ht.arg, if_pos h]
  exact settle_answered _ _ _ _ _ _

theorem eventFetch_some (h : 1 ≤ fld (argWord r 1) 0 3) : Does (.eventFetch c r) s (fun t => t.ring = s.ring ∧ t.gives c 0x90 r
    (wd (s.ring.fetched (argWord r 0) (fld (argWord r 1) 0 3)).length :: s.ring.oldest
      :: (s.ring.fetched (argWord r 0) (fld (argWord r 1) 0 3)).flatMap (fun e => e.words.take 8))) := by
  have hring : (s.rung c 0x90 r).ring = s.ring := by
    obtain ⟨v, t, h⟩ := s.rung_eq c 0x90 r
    rw [h]
  have h8 : fld (argWord r 1) 0 3 < 8 := Nat.mod_lt _ (by decide)
  refine ht.does rfl (by decide) rfl ?_
  show (settle s ((s.rung c 0x90 r).serveFetch c)).ring = s.ring ∧ (settle s ((s.rung c 0x90 r).serveFetch c)).gives c 0x90 r _
  rw [State.serveFetch_eq, ht.arg, ht.arg, if_neg (by omega), hring]
  refine ⟨?_, State.gives_of ht.idle (by decide) (by decide) (by decide) ?_ (settle_answered _ _ _ _ _ _)⟩
  · rw [settle_ring, State.answer_ring, hring]
  · rw [List.length_cons, List.length_cons, flatMap_words_length]
    have := List.length_take_le (fld (argWord r 1) 0 3) (s.ring.kept.filter (fun e => decide ((e.seq - argWord r 0).toNat < 2 ^ 31)))
    unfold EventRing.fetched
    omega

end

end Sys2Proof.Machine
end

section
/-! PROOFS. REMOTE_CMD and its two time-outs (R222, R385, R390): what closes a command leaves alone the operations of a port
whose line still carries REMOTE cells. -/

namespace Sys2Proof.Machine

/-! ### REMOTE operations when a command closes -/

theorem portNo_val (p : Fin 16) : portNo p.val = p := by revert p; decide

/-- A channel that waits for no REMOTE operation of a fallen link keeps its record through one sweep. -/
theorem State.remoteSweep_keeps (s : State) (c d : Fin 16) (h : ∀ p r a, (s.chan d).work = some (.remote p r a) → (s.port (portNo p)).remoteRuns = true) :
    (s.remoteSweep c).chan d = s.chan d := by
  unfold State.remoteSweep
  split
  · next p r a hw =>
    split
    · rfl
    · next hr =>
      refine s.answer_chan_ne (fun e => hr ?_) _ _ _
      exact h p r a (e ▸ hw)
  · rfl

theorem State.remoteSweep_port (s : State) (c p : Fin 16) : (s.remoteSweep c).port p = s.port p := by
  obtain ⟨v, t, h⟩ := s.remoteSweep_eq c
  rw [h]
  rfl

theorem State.remoteSweeps_keep (l : List (Fin 16)) (s : State) (d : Fin 16)
    (h : ∀ p r a, (s.chan d).work = some (.remote p r a) → (s.port (portNo p)).remoteRuns = true) :
    (l.foldl State.remoteSweep s).chan d = s.chan d := by
  induction l generalizing s with
  | nil => rfl
  | cons c l ih =>
    have hc := s.remoteSweep_keeps c d h
    rw [List.foldl_cons, ih (s.remoteSweep c) (fun p r a hw => ?_), hc]
    rw [State.remoteSweep_port]
    exact h p r a (hc ▸ hw)

/-- What closes a command leaves a channel whose REMOTE operation, if it waits for one, is of a link that is up. -/
theorem settle_chan_remote (old s : State) (d : Fin 16) (h : ∀ p r a, (s.chan d).work = some (.remote p r a) → (s.port (portNo p)).remoteRuns = true) :
    (settle old s).chan d = s.chan d := by
  obtain ⟨t, ht⟩ := State.countRises_eq old s.regs s
  have hs := State.remoteSweeps_keep allChans { s with tally := t } d h
  unfold settle
  rw [ht]
  generalize allChans.foldl State.remoteSweep { s with tally := t } = u at hs
  obtain ⟨v, hv, -⟩ := u.remoteDrop_eq
  obtain ⟨b, hb⟩ := State.journalNotice_eq u.remoteDrop old
  obtain ⟨m, hm⟩ := State.syncDomains_eq (u.remoteDrop.journalNotice old)
  rw [hm, hb, hv]
  exact hs

theorem State.remoteDrop_remIn (s : State) (p : Fin 16) : (s.remoteDrop.port p).remIn = (s.port p).remIn ∨ (s.remoteDrop.port p).remIn = [] := by
  unfold State.remoteDrop
  split
  · have e : State.port { s with ports := s.ports.map (fun (x : Port) => if x.remoteRuns then x else { x with remIn := [] }) } p
        = if (s.port p).remoteRuns then s.port p else { s.port p with remIn := [] } := by
      show (s.ports.map _)[p.val] = _
      rw [Vector.getElem_map]
      rfl
    rw [e]
    split
    · exact Or.inl rfl
    · exact Or.inr rfl
  · exact Or.inl rfl

/-- What closes a command adds no operation to those that wait for the host's answer. -/
theorem settle_remIn (old s : State) (p : Fin 16) : ((settle old s).port p).remIn = (s.port p).remIn ∨ ((settle old s).port p).remIn = [] := by
  obtain ⟨t, ht⟩ := State.countRises_eq old s.regs s
  obtain ⟨v, t2, hv⟩ := State.remoteSweeps_eq allChans { s with tally := t }
  unfold settle
  rw [ht, hv]
  obtain ⟨b, hb⟩ := State.journalNotice_eq (State.remoteDrop { s with chans := v, tally := t2 }) old
  obtain ⟨m, hm⟩ := State.syncDomains_eq (State.journalNotice (State.remoteDrop { s with chans := v, tally := t2 }) old)
  rw [hm, hb]
  exact State.remoteDrop_remIn { s with chans := v, tally := t2 } p

/-! ### REMOTE_CMD (R390) -/

/-- The argument of a REMOTE_CMD in its request. -/
def remoteArg (r : Request) : BitVec 128 := argOf [argWord r 1, argWord r 2, argWord r 3, argWord r 4]

/-- The cell that a REMOTE_CMD queues. -/
def remoteCell (r : Request) (answer : Bool) (id : BitVec 16) (status : Byte) : TxCell :=
  ⟨7, 0, remotePayload (BitVec.ofNat 8 (fld (argWord r 0) 8 8)) answer id (BitVec.ofNat 8 (fld (argWord r 0) 16 8)) status (remoteArg r)⟩

/-- A state without a port's incoming operation of a REQ_ID. -/
def State.without (s : State) (p : Fin 16) (id : BitVec 16) : State :=
  s.modPort p (fun x => { x with remIn := x.remIn.filter (fun e => e.1 != id) })

/-- An operation that was taken out stays out when the command closes. -/
theorem settle_without {old u : State} (l : List (BitVec 16 × Byte × Byte)) {p : Fin 16} {id : BitVec 16}
    (h : (u.port p).remIn = l.filter (fun e => e.1 != id)) : ∀ e ∈ ((settle old u).port p).remIn, e.1 ≠ id := by
  intro e he
  rcases settle_remIn old u p with hs | hs
  · rw [hs, h, List.mem_filter] at he
    simpa using he.2
  · rw [hs] at he
    cases he

theorem State.answer_port (s : State) (c : Fin 16) (st : Nat) (ws : List Word) (d : Nat) (p : Fin 16) : (s.answer c st ws d).port p = s.port p := by
  simp [State.port]

/-- The state in which a REMOTE_CMD waits, its cell made ready. -/
def State.remoteSent (s : State) (c p : Fin 16) (id : BitVec 16) (answer : Bool) (cell : TxCell) : State :=
  (s.waitFor c (.remote p.val id answer)).modTow p (fun t => { t with ready := t.ready ++ [cell] })

theorem State.remoteSent_closes {old s : State} {c p : Fin 16} (id : BitVec 16) (answer : Bool) (cell : TxCell)
    (hb : (s.chan c).busy = true) (hu : (s.port p).link.state = .loconUp) :
    (settle old (s.remoteSent c p id answer cell)).waitsFor c (.remote p.val id answer)
      ∧ ((settle old (s.remoteSent c p id answer cell)).port p).tow.ready = (s.port p).tow.ready ++ [cell] := by
  have hc : (s.remoteSent c p id answer cell).chan c = { s.chan c with work := some (.remote p.val id answer) } :=
    State.chan_modChan_same s c (fun ch => { ch with work := some (.remote p.val id answer) })
  have hp : (s.remoteSent c p id answer cell).port p = { s.port p with tow := { (s.port p).tow with ready := (s.port p).tow.ready ++ [cell] } } :=
    State.port_modTow _ _ _
  unfold State.waitsFor
  rw [settle_chan_remote, hc, settle_port_tow, hp]
  · exact ⟨⟨hb, rfl⟩, rfl⟩
  · intro q r a hw
    rw [hc] at hw
    obtain ⟨rfl, -, -⟩ := LongCmd.remote.inj (Option.some.inj hw)
    rw [portNo_val, hp]
    unfold Port.remoteRuns
    dsimp only
    rw [hu]
    rfl

/-- The words that a REMOTE_CMD needs. -/
theorem State.takes.need_remote {s : State} {c : Fin 16} {r : Request} {n : Nat} (ht : s.takes c r n) :
    ((s.rung c 0xA0 r).chan c).need 0xA0 = some (if bit (argWord r 0) 24 = true then 6 else 5) := by
  rw [← ht.arg 0xA0 0]
  rfl

section
variable {s : State} {c p : Fin 16} {r : Request} (hp : fld (argWord r 0) 0 4 = p.val)
include hp

/-- The port that a served REMOTE_CMD names, with its argument words as the request gives them. -/
theorem State.takes.remote {n : Nat} (ht : s.takes c r n) : (s.rung c 0xA0 r).argPort c = p ∧ (s.rung c 0xA0 r).port = s.port
    ∧ argOf ((List.range 4).map (fun k => (s.rung c 0xA0 r).arg c (1 + k))) = remoteArg r := by
  refine ⟨?_, ?_, ?_⟩
  · unfold State.argPort
    rw [ht.arg, hp, portNo_val]
  · obtain ⟨v, t, h⟩ := s.rung_eq c 0xA0 r
    rw [h]
    rfl
  · simp only [ht.arg]
    rfl

/-- REMOTE_CMD without ANSWER is refused while the link is not up. -/
theorem remoteCmdRequest_down (ht : s.takes c r 5) (ha : bit (argWord r 0) 24 = false) (hu : (s.port p).link.state ≠ .loconUp) :
    Does (.remoteCmdRequest c r) s (fun t => t.answered c 0xA0 r 0x0302 ∧ (t.port p).tow = (s.port p).tow) := by
  obtain ⟨h1, h2, -⟩ := ht.remote hp
  refine ht.does rfl (by decide) (ht.need_remote.trans (by rw [ha]; rfl)) ?_
  have he : (s.rung c 0xA0 r).serveCode c 0xA0 none = (s.rung c 0xA0 r).answer c 0x0302 [] := by
    show (s.rung c 0xA0 r).serveRemote c = _
    unfold State.serveRemote
    dsimp only
    rw [h1, h2, if_pos hu]
  rw [he]
  refine ⟨State.answered_of ht.idle (by decide) (by decide) (by decide) (settle_answered _ _ _ _ _ _), ?_⟩
  rw [settle_port_tow, ← h2, State.answer_port]

/-- A request over a link that is up takes a REQ_ID of the part, and waits. -/
theorem remoteCmdRequest_up (ht : s.takes c r 5) (ha : bit (argWord r 0) 24 = false) (hu : (s.port p).link.state = .loconUp) :
    Does (.remoteCmdRequest c r) s (fun t => ∃ id, t.waitsFor c (.remote p.val id false)
      ∧ (t.port p).tow.ready = (s.port p).tow.ready ++ [remoteCell r false id 0]) := by
  obtain ⟨h1, h2, h3⟩ := ht.remote hp
  refine ht.does rfl (by decide) (ht.need_remote.trans (by rw [ha]; rfl)) ?_
  have he : (s.rung c 0xA0 r).serveCode c 0xA0 none = ({ s.rung c 0xA0 r with draws := (s.rung c 0xA0 r).draws + 1 } : State).remoteSent c p
      (Config.freeReqId (s.rung c 0xA0 r).draws) false (remoteCell r false (Config.freeReqId (s.rung c 0xA0 r).draws) 0) := by
    show (s.rung c 0xA0 r).serveRemote c = _
    unfold State.serveRemote
    dsimp only
    rw [h1, h2, h3, ht.arg, if_neg (not_not_intro hu), ha, if_neg (by decide)]
    rfl
  rw [he, ← h2]
  exact ⟨_, State.remoteSent_closes (s := { s.rung c 0xA0 r with draws := (s.rung c 0xA0 r).draws + 1 }) _ _ _
    (s.rung_busy c 0xA0 r) ((congrArg (fun f : Fin 16 → Port => (f p).link.state) h2).trans hu)⟩

/-- An answer must name an operation that waits for it. -/
theorem remoteCmdAnswer_unknown (ht : s.takes c r 6) (ha : bit (argWord r 0) 24 = true) (hu : (s.port p).link.state = .loconUp)
    (hi : ∀ e ∈ (s.port p).remIn, e.1 ≠ BitVec.ofNat 16 (fld (argWord r 5) 0 16)) :
    Does (.remoteCmdAnswer c r) s (fun t => t.answered c 0xA0 r 4 ∧ (t.port p).tow = (s.port p).tow) := by
  obtain ⟨h1, h2, -⟩ := ht.remote hp
  refine ht.does rfl (by decide) (ht.need_remote.trans (by rw [ha]; rfl)) ?_
  have he : (s.rung c 0xA0 r).serveCode c 0xA0 none = (s.rung c 0xA0 r).answer c stBadArg [] 5 := by
    show (s.rung c 0xA0 r).serveRemote c = _
    unfold State.serveRemote
    dsimp only
    rw [h1, h2, ht.arg, ht.arg, if_neg (not_not_intro hu), if_pos ha, if_neg (fun h => ?_)]
    obtain ⟨e, he, hk⟩ := List.any_eq_true.mp h
    exact hi e he (eq_of_beq hk)
  rw [he]
  refine ⟨State.answered_of ht.idle (by decide) (by decide) (by decide) (settle_answered _ _ _ _ _ _), ?_⟩
  rw [settle_port_tow, ← h2, State.answer_port]

/-- The answer to a waiting operation takes it out, and waits for its cell. -/
theorem remoteCmdAnswer_known (ht : s.takes c r 6) (ha : bit (argWord r 0) 24 = true) (hu : (s.port p).link.state = .loconUp)
    {id : BitVec 16} (hid : id = BitVec.ofNat 16 (fld (argWord r 5) 0 16)) (hi : ∃ e ∈ (s.port p).remIn, e.1 = id) :
    Does (.remoteCmdAnswer c r) s (fun t => t.waitsFor c (.remote p.val id true) ∧ (∀ e ∈ (t.port p).remIn, e.1 ≠ id)
      ∧ (t.port p).tow.ready = (s.port p).tow.ready ++ [remoteCell r true id (BitVec.ofNat 8 (fld (argWord r 5) 16 8))]) := by
  obtain ⟨h1, h2, h3⟩ := ht.remote hp
  refine ht.does rfl (by decide) (ht.need_remote.trans (by rw [ha]; rfl)) ?_
  have he : (s.rung c 0xA0 r).serveCode c 0xA0 none = ((s.rung c 0xA0 r).without p id).remoteSent c p id true
      (remoteCell r true id (BitVec.ofNat 8 (fld (argWord r 5) 16 8))) := by
    show (s.rung c 0xA0 r).serveRemote c = _
    unfold State.serveRemote
    dsimp only
    rw [h1, h2, h3, ht.arg, ht.arg, if_neg (not_not_intro hu), if_pos ha, ← hid, if_pos (by simpa using hi)]
    rfl
  have hw : (((s.rung c 0xA0 r).without p id).port p) = { s.port p with remIn := (s.port p).remIn.filter (fun e => e.1 != id) } := by
    rw [← h2]
    exact State.port_modPort_same _ _ _
  obtain ⟨ha, hb⟩ := State.remoteSent_closes (old := s) (s := (s.rung c 0xA0 r).without p id) (p := p) id true (remoteCell r true id (BitVec.ofNat 8 (fld (argWord r 5) 16 8)))
    (s.rung_busy c 0xA0 r) (by rw [hw]; exact hu)
  rw [he]
  refine ⟨ha, settle_without (s.port p).remIn ?_, by rw [hb, hw]⟩
  unfold State.remoteSent
  rw [State.port_modTow]
  exact congrArg Port.remIn hw

end

/-! ### Time-outs (R385, R390) -/

/-- 100 ms without an answer end a REMOTE_CMD. -/
theorem remoteAnswerTimeout_does {s : State} (hc : s.clocked = true) (p : Fin 16) (id : BitVec 16) {d : Fin 16} (hd : s.waiting (isRemote p id false) = some d) :
    Does (.remoteAnswerTimeout p id) s (fun t => s.ended t d 0x0301 []) := by
  refine runs_does hc rfl ?_
  unfold State.remLate State.answerWait
  rw [hd]
  exact settle_answered _ _ _ _ _ _

/-- 90 ms without the host make the keeper answer in its place. -/
theorem remoteInHostTimeout_does {s : State} (hc : s.clocked = true) (p : Fin 16) (id : BitVec 16) {op tag : Byte}
    (hf : (s.port p).remIn.find? (fun e => e.1 == id) = some (id, op, tag)) : Does (.remoteInHostTimeout p id) s (fun t =>
      (∀ e ∈ (t.port p).remIn, e.1 ≠ id) ∧ (t.port p).tow.ready = (s.port p).tow.ready ++ [(⟨7, 0, remotePayload op true id tag 3 0⟩ : TxCell)]) := by
  have he : s.remHostLate p id = (s.without p id).queueCell p 7 (remotePayload op true id tag 3 0) := by
    unfold State.remHostLate
    rw [hf]
    rfl
  have hw : (s.without p id).port p = { s.port p with remIn := (s.port p).remIn.filter (fun e => e.1 != id) } := State.port_modPort_same _ _ _
  refine runs_does hc rfl ?_
  rw [he]
  unfold State.queueCell
  refine ⟨settle_without (s.port p).remIn ?_, ?_⟩
  · rw [State.port_modTow, hw]
  · rw [settle_port_tow, State.port_modTow, hw]
    rfl

end Sys2Proof.Machine
end

section
/-! PROOFS. FW_STAGE, FW_ACTIVATE and the chip soft reset that follows the latter with NOW (R51, R377, R379), and with them the
commands of EventRemoteFirmwareCommands. -/

namespace Sys2Proof.Machine

/-! ### FW_STAGE -/

/-- The keeper with another record of its image staging. -/
def State.withStaging (s : State) (f : Staging) : State := { s with keeper := { s.keeper with fw := f } }

/-- A command answered leaves the keeper as its effect left it. -/
theorem settle_answer_keeper (old s : State) (c : Fin 16) (st : Nat) (ws : List Word) (d : Nat) :
    (settle old (s.answer c st ws d)).keeper = s.keeper := by
  rw [settle_keeper, State.answer_keeper]

theorem State.rung_keeper (s : State) (c : Fin 16) (code : Nat) (r : Request) : (s.rung c code r).keeper = s.keeper := by
  obtain ⟨v, t, h⟩ := s.rung_eq c code r
  rw [h]

section
variable {s : State} {c : Fin 16} {r : Request} {n : Nat} {code : Nat}

/-- A command refused with a status leaves the keeper as it was. -/
theorem State.takes.refused {i : Instr} {sup : Option Supplied} {st d : Nat} (ht : s.takes c r n) (he : exec i s = s.runs (s.issueCmd c code r sup)) (hc : code < 256)
    (hn : ((s.rung c code r).chan c).need code = some n) (hs : st < 65536) (hd : d < 65536)
    (h : (s.rung c code r).serveCode c code sup = (s.rung c code r).answer c st [] d) : Does i s (fun t => t.answered c code r st ∧ t.keeper = s.keeper) := by
  refine ht.does he hc hn ?_
  rw [h]
  exact ⟨State.answered_of ht.idle hc hs hd (settle_answered _ _ _ _ _ _), (settle_answer_keeper _ _ _ _ _ _).trans (s.rung_keeper c code r)⟩

end

/-- The staging after a chunk of FW_STAGE: the next offset, and a staged image unless the chunk begins another. -/
def Staging.chunk (f : Staging) (first : Bool) (next : Option Nat) : Staging := { f with next := next, staged := f.staged && !first }

theorem State.serveStage_eq (s : State) (c : Fin 16) (x : Supplied) : s.serveStage c (some x) =
    if fld (s.arg c 0) 0 24 % 16 ≠ 0 then s.answer c stBadArg [] 0
    else if fld (s.arg c 1) 0 4 = 0 ∨ fld (s.arg c 1) 0 4 = 15 then s.answer c stBadArg [] 1
    else if (!bit (s.arg c 0) 31 && s.keeper.fw.next != some (fld (s.arg c 0) 0 24)) = true then s.answer c 0x0402 []
    else if (!x.flashOk && s.keeper.mode == .running) = true then (s.withStaging (s.keeper.fw.chunk (bit (s.arg c 0) 31) none)).answer c 0x0404 []
    else (s.withStaging (s.keeper.fw.chunk (bit (s.arg c 0) 31) (some (fld (s.arg c 0) 0 24 + 16 * fld (s.arg c 1) 0 4)))).answer c stOk [] := rfl

section
variable {s : State} {c : Fin 16} {r : Request} {off n : Nat} (hn : n = fld (argWord r 1) 0 4) (ht : s.takes c r (4 + 4 * min 14 n))
include hn ht

/-- The words that FW_STAGE needs. -/
theorem State.takes.need_stage : ((s.rung c 0xF0 r).chan c).need 0xF0 = some (4 + 4 * min 14 n) := by
  rw [hn, ← ht.arg 0xF0 1]
  rfl

variable (hoff : off = fld (argWord r 0) 0 24) (ok : Bool)
include hoff

/-- FW_STAGE as its request gives the arguments. -/
theorem State.takes.stage : (s.rung c 0xF0 r).serveCode c 0xF0 (some (supFlash ok)) =
    if off % 16 ≠ 0 then (s.rung c 0xF0 r).answer c stBadArg [] 0
    else if n = 0 ∨ n = 15 then (s.rung c 0xF0 r).answer c stBadArg [] 1
    else if (!bit (argWord r 0) 31 && s.keeper.fw.next != some off) = true then (s.rung c 0xF0 r).answer c 0x0402 []
    else if (!ok) = true then ((s.rung c 0xF0 r).withStaging (s.keeper.fw.chunk (bit (argWord r 0) 31) none)).answer c 0x0404 []
    else ((s.rung c 0xF0 r).withStaging (s.keeper.fw.chunk (bit (argWord r 0) 31) (some (off + 16 * n)))).answer c stOk [] := by
  have hs := (s.rung c 0xF0 r).serveStage_eq c (supFlash ok)
  rw [ht.arg, ht.arg, ← hoff, ← hn, s.rung_keeper, ht.running, show (supFlash ok).flashOk = ok from rfl,
    show ((!ok) && (KeeperMode.running == KeeperMode.running)) = !ok by cases ok <;> rfl] at hs
  exact hs

theorem fwStage_badArg (h : off % 16 ≠ 0 ∨ n = 0 ∨ n = 15) : Does (.fwStage c r ok) s (fun t => t.answered c 0xF0 r 4 ∧ t.keeper = s.keeper) := by
  have he := State.takes.stage hn ht hoff ok
  have hneed := State.takes.need_stage hn ht
  by_cases h0 : off % 16 ≠ 0
  · exact ht.refused (st := stBadArg) (d := 0) rfl (by decide) hneed (by decide) (by decide) (he.trans (if_pos h0))
  · exact ht.refused (st := stBadArg) (d := 1) rfl (by decide) hneed (by decide) (by decide)
      (he.trans ((if_neg h0).trans (if_pos (h.resolve_left h0))))

theorem fwStage_outOfOrder (h0 : off % 16 = 0) (h1 : 1 ≤ n) (h2 : n ≤ 14) (hf : bit (argWord r 0) 31 = false) (hx : s.keeper.fw.next ≠ some off) :
    Does (.fwStage c r ok) s (fun t => t.answered c 0xF0 r 0x0402 ∧ t.keeper = s.keeper) := by
  refine ht.refused (st := 0x0402) (d := 0xFFFF) rfl (by decide) (State.takes.need_stage hn ht) (by decide) (by decide) ((State.takes.stage hn ht hoff ok).trans ?_)
  rw [if_neg (not_not_intro h0), if_neg (by omega), if_pos (by simp [hf, hx])]

theorem fwStage_taken (h0 : off % 16 = 0) (h1 : 1 ≤ n) (h2 : n ≤ 14) (hx : bit (argWord r 0) 31 = true ∨ s.keeper.fw.next = some off) :
    Does (.fwStage c r ok) s (fun t => t.answered c 0xF0 r (if ok then 0 else 0x0404) ∧ t.keeper.fw.next = if ok then some (off + 16 * n) else none) := by
  refine ht.does rfl (by decide) (State.takes.need_stage hn ht) ?_
  rw [State.takes.stage hn ht hoff ok, if_neg (not_not_intro h0), if_neg (by omega), if_neg (by rcases hx with h | h <;> simp [h])]
  cases ok with
  | true =>
    rw [if_neg (by decide), if_pos rfl, if_pos rfl, settle_answer_keeper]
    exact ⟨State.answered_of (st := stOk) ht.idle (by decide) (by decide) (by decide) (settle_answered _ _ _ _ _ _), rfl⟩
  | false =>
    rw [if_pos (by decide), if_neg (by decide), if_neg (by decide), settle_answer_keeper]
    exact ⟨State.answered_of (st := 0x0404) ht.idle (by decide) (by decide) (by decide) (settle_answered _ _ _ _ _ _), rfl⟩

end

/-! ### FW_ACTIVATE -/

theorem State.imageErr_lt (s : State) (m : ImageReport) : s.imageErr m < 65536 := by
  unfold State.imageErr
  (repeat' split) <;> decide

theorem State.serveActivate_eq {s : State} (h : s.keeper.mode = .running) (c : Fin 16) (x : Supplied) : s.serveActivate c (some x) =
    if (!s.imageOk { x.image with magicOk := true }) = true then s.answer c 0x0401 [] (s.imageErr { x.image with magicOk := true })
    else if x.image.version.toNat ≤ s.keeper.version.toNat then s.answer c 0x0403 []
    else if (!x.flashOk) = true then s.answer c 0x0404 []
    else (s.withStaging { next := none, staged := true, resetDue := bit (s.arg c 0) 0 }).answer c stOk [x.image.version] :=
  if_neg (show ¬ s.keeper.mode = .romWait by rw [h]; decide)

section
variable {s : State} {c : Fin 16} {r : Request} (ht : s.takes c r 0) (m : ImageReport) (ok : Bool) (j : JournalReport)
include ht

/-- FW_ACTIVATE while firmware runs, as its request gives the arguments. -/
theorem State.takes.activate : (s.rung c 0xF1 r).serveCode c 0xF1 (some (supImage m ok j)) =
    if (!s.imageOk { m with magicOk := true }) = true then (s.rung c 0xF1 r).answer c 0x0401 [] (s.imageErr { m with magicOk := true })
    else if m.version.toNat ≤ s.keeper.version.toNat then (s.rung c 0xF1 r).answer c 0x0403 []
    else if (!ok) = true then (s.rung c 0xF1 r).answer c 0x0404 []
    else ((s.rung c 0xF1 r).withStaging { next := none, staged := true, resetDue := bit (argWord r 0) 0 }).answer c stOk [m.version] := by
  obtain ⟨v, t, h⟩ := s.rung_eq c 0xF1 r
  have hi : (s.rung c 0xF1 r).imageOk = s.imageOk := by rw [h]; rfl
  have he : (s.rung c 0xF1 r).imageErr = s.imageErr := by rw [h]; rfl
  have hs := State.serveActivate_eq (s := s.rung c 0xF1 r) (by rw [s.rung_keeper]; exact ht.running) c (supImage m ok j)
  rw [hi, he, ht.arg, s.rung_keeper] at hs
  exact hs

theorem fwActivate_invalid (hi : s.imageOk { m with magicOk := true } = false) :
    Does (.fwActivate c r m ok j) s (fun t => t.answered c 0xF1 r 0x0401 ∧ t.keeper = s.keeper) :=
  ht.refused (st := 0x0401) rfl (by decide) rfl (by decide) (State.imageErr_lt s _) ((ht.activate m ok j).trans (if_pos (by rw [hi]; rfl)))

theorem fwActivate_older (hi : s.imageOk { m with magicOk := true } = true) (hv : m.version.toNat ≤ s.keeper.version.toNat) :
    Does (.fwActivate c r m ok j) s (fun t => t.answered c 0xF1 r 0x0403 ∧ t.keeper = s.keeper) := by
  refine ht.refused (st := 0x0403) (d := 0xFFFF) rfl (by decide) rfl (by decide) (by decide) ((ht.activate m ok j).trans ?_)
  rw [if_neg (by rw [hi]; decide), if_pos hv]

theorem fwActivate_unwritten (hi : s.imageOk { m with magicOk := true } = true) (hv : s.keeper.version.toNat < m.version.toNat) (hk : ok = false) :
    Does (.fwActivate c r m ok j) s (fun t => t.answered c 0xF1 r 0x0404 ∧ t.keeper = s.keeper) := by
  refine ht.refused (st := 0x0404) (d := 0xFFFF) rfl (by decide) rfl (by decide) (by decide) ((ht.activate m ok j).trans ?_)
  rw [if_neg (by rw [hi]; decide), if_neg (by omega), if_pos (by rw [hk]; rfl)]

theorem fwActivate_taken (hi : s.imageOk { m with magicOk := true } = true) (hv : s.keeper.version.toNat < m.version.toNat) (hk : ok = true) :
    Does (.fwActivate c r m ok j) s (fun t => t.gives c 0xF1 r [m.version]
      ∧ t.keeper.fw = { next := none, staged := true, resetDue := bit (argWord r 0) 0 } ∧ t.keeper.version = s.keeper.version) := by
  have hv' : ((s.rung c 0xF1 r).withStaging { next := none, staged := true, resetDue := bit (argWord r 0) 0 }).keeper.version = s.keeper.version := by
    rw [← s.rung_keeper c 0xF1 r]
    rfl
  refine ht.does rfl (by decide) rfl ?_
  rw [ht.activate m ok j, if_neg (by rw [hi]; decide), if_neg (by omega), if_neg (by rw [hk]; decide), settle_answer_keeper]
  exact ⟨State.gives_of (st := stOk) ht.idle (by decide) (by decide) (by decide) (by simp) (settle_answered _ _ _ _ _ _), rfl, hv'⟩

end

/-! ### The soft reset after FW_ACTIVATE with NOW -/

theorem fwActivateReset_none {s : State} (hc : s.clocked = true) (h : s.keeper.fw.resetDue = false) :
    Does .fwActivateReset s (fun t => t.regs = s.regs ∧ t.keeper = s.keeper) := by
  refine runs_does hc rfl ?_
  unfold State.activateReset
  rw [if_neg (by rw [h]; decide), settle_regs, settle_keeper]
  exact ⟨rfl, rfl⟩

theorem fwActivateReset_due {s : State} (hc : s.clocked = true) (h : s.keeper.fw.resetDue = true) (hs : s.sup.stage = .released) :
    Does .fwActivateReset s (fun t => t.sup.softLock = true ∧ t.sup.safeN = false ∧ t.clk = s.clk ∧ t.time.now = s.time.now
      ∧ (∀ k, t.reg k = if keptKey k then s.reg k else rstWord s.otp k)
      ∧ t.keeper.mode = (if s.sup.bootSel = 3 then .boardTest else if s.sup.bootSel = 2 then .romWait else .loading)) := by
  have hd : ({ s with draws := s.draws + 1 } : State).sup.stage = .released := hs
  have he : s.activateReset = ({ s with draws := s.draws + 1 } : State).softReset (Config.freeWord s.draws).toNat false := if_pos h
  refine runs_does hc rfl ?_
  simp only [settle_sup, settle_clk, settle_time, settle_reg, settle_keeper]
  rw [he, State.softReset_sup hd, State.softReset_clk, State.softReset_now hd, State.softReset_mode hd]
  exact ⟨rfl, rfl, rfl, rfl, State.softReset_reg { s with draws := s.draws + 1 } _ false, rfl⟩

/-- Settles O41: each command's clauses follow from the state in which its request is served. -/
theorem eventRemoteFirmwareCommands : Obligations.EventRemoteFirmwareCommands := by
  refine ⟨fun s c r n l ht hn hl => ?_, fun s c r p arg hp harg => ⟨fun ha ht => ⟨remoteCmdRequest_down hp ht ha, ?_⟩, fun ha ht id hid hu => ⟨?_, ?_⟩⟩,
    fun s p id hc => ⟨fun d => remoteAnswerTimeout_does hc p id, fun op tag => remoteInHostTimeout_does hc p id⟩,
    fun s c r off n ok hoff hn ht => ⟨fwStage_badArg hn ht hoff ok, fwStage_outOfOrder hn ht hoff ok, fwStage_taken hn ht hoff ok⟩,
    fun s c r m ok j ht => ⟨fwActivate_invalid ht m ok j, fwActivate_older ht m ok j, fwActivate_unwritten ht m ok j, fwActivate_taken ht m ok j⟩,
    fun s hc => ⟨fwActivateReset_none hc, fwActivateReset_due hc⟩⟩
  · subst hn hl
    exact ⟨eventFetch_none ht, eventFetch_some ht⟩
  · subst harg
    exact remoteCmdRequest_up hp ht ha
  · subst hid
    exact remoteCmdAnswer_unknown hp ht ha hu
  · subst harg
    exact remoteCmdAnswer_known hp ht ha hu hid

end Sys2Proof.Machine
end

section
/-! PROOFS. The surroundings of a port's line operations: the frame, the held part, the clocks and counters that links never touch,
the calibration run of the port and every other port's link. No operation of Machine/Link.lean, Cells.lean and LinkOps.lean
changes them: one lemma for each, in the order of their definitions. On a steady port nothing then follows from one. -/

namespace Sys2Proof.Machine

/-- What an operation on the line of port p leaves as it was. -/
structure Around (p : Fin 16) where
  frame : Frame
  held : Held
  far : Nat × List Nat × Vector Lane 8 × Keeper × SelfTest × MdioRec × IfaceRec × Nat × Nat × Nat
  run : Bool
  links : { q : Fin 16 // q ≠ p } → Link

def State.around (s : State) (p : Fin 16) : Around p := ⟨s.frame, s.held, s.far, (s.port p).cal.running, fun q => (s.port q).link⟩

section
variable {s t : State} {p : Fin 16} (h : t.around p = s.around p)
include h

theorem around_frame : t.frame = s.frame := congrArg Around.frame h
theorem around_held : t.held = s.held := congrArg Around.held h
theorem around_far : t.far = s.far := congrArg Around.far h
theorem around_run : (t.port p).cal.running = (s.port p).cal.running := congrArg Around.run h
theorem around_link {q : Fin 16} (hq : q ≠ p) : (t.port q).link = (s.port q).link := congrFun (congrArg Around.links h) ⟨q, hq⟩
theorem around_act (k : Nat) : t.act k = s.act k := State.act_frame (around_frame h) (around_held h) (far_mended (around_far h)) k
theorem around_portReg (n k : Nat) : t.portReg n k = s.portReg n k := around_act h _
theorem around_policy (q : Fin 16) : t.policy q = s.policy q := around_act h _
theorem around_enabled (q : Fin 16) : t.enabled q = s.enabled q := by
  unfold State.enabled State.lnMode
  rw [around_portReg h]
theorem around_unforced (hs : s.unforced) : t.unforced := fun d hd =>
  (State.gone_of (s := s) (t := t) (fun k => by unfold State.reg; rw [frame_regs (around_frame h), frame_otp (around_frame h)])
    (far_level (around_far h)) hd).trans (hs d hd)

/-- On a steady port nothing follows from a line operation. -/
theorem followPort_around (hs : s.steady p) : State.followPort s t p = t :=
  followPort_free (around_unforced h hs.2.1) ((around_run h).trans hs.2.2) (around_enabled h p).symm

theorem runsPort_does {c : Instr} {P : State → Prop} (hs : s.steady p) (he : exec c s = s.runsPort p t) (hP : P (settle s t)) : Does c s P :=
  ⟨_, by rw [he, State.runsPort_eq hs.1, followPort_around h hs], hP⟩

end

/-! ### The shared operations -/

section
variable (s : State) (p : Fin 16)

theorem around_of {t : State} (h1 : t.frame = s.frame) (h2 : t.held = s.held) (h3 : t.far = s.far)
    (h4 : (t.port p).cal.running = (s.port p).cal.running) (h5 : ∀ q ≠ p, (t.port q).link = (s.port q).link) : t.around p = s.around p := by
  unfold State.around
  rw [h1, h2, h3, h4, funext (fun q : { q : Fin 16 // q ≠ p } => h5 q q.2)]

theorem State.modPort_around {f : Port → Port} (hf : ∀ x, (f x).cal.running = x.cal.running) : (s.modPort p f).around p = s.around p :=
  around_of s p (s.modPort_frame p f) (s.modPort_held p f) rfl (by rw [State.port_modPort_same, hf]) fun _ hq => by rw [State.port_modPort_ne _ hq]

theorem State.modPort_around_of {s u : State} {p : Fin 16} (hu : u.around p = s.around p) {f : Port → Port}
    (hf : ∀ x, (f x).cal.running = x.cal.running) : (u.modPort p f).around p = s.around p := (u.modPort_around p hf).trans hu

/-- A change of any port's record, its link and calibration apart. -/
theorem State.modPort_around_any {q : Fin 16} {f : Port → Port} (hf : ∀ x, (f x).cal = x.cal) (hl : ∀ x, (f x).link = x.link) :
    (s.modPort q f).around p = s.around p := by
  refine around_of s p (s.modPort_frame q f) (s.modPort_held q f) rfl ?_ fun r _ => ?_
  · by_cases e : p = q
    · subst e
      rw [State.port_modPort_same, hf]
    · rw [State.port_modPort_ne _ e]
  · by_cases e : r = q
    · subst e
      rw [State.port_modPort_same, hl]
    · rw [State.port_modPort_ne _ e]

@[simp] theorem State.modLink_around (f : Link → Link) : (s.modLink p f).around p = s.around p := s.modPort_around p fun _ => rfl
@[simp] theorem State.modTow_around (f : Towpath → Towpath) : (s.modTow p f).around p = s.around p := s.modPort_around p fun _ => rfl
@[simp] theorem State.modTx_around (f : TxPath → TxPath) : (s.modTx p f).around p = s.around p := s.modPort_around p fun _ => rfl
@[simp] theorem State.modRx_around (q : Fin 16) (f : RxPath → RxPath) : (s.modRx q f).around p = s.around p :=
  s.modPort_around_any p (fun _ => rfl) fun _ => rfl
@[simp] theorem State.modDmt_around (f : Dmt → Dmt) : (s.modDmt p f).around p = s.around p := s.modPort_around p fun _ => rfl
@[simp] theorem State.modSnd_around (f : Sender → Sender) : (s.modSnd p f).around p = s.around p := s.modPort_around p fun _ => rfl
@[simp] theorem State.modRcv_around (q : Fin 16) (f : Receiver → Receiver) : (s.modRcv q f).around p = s.around p :=
  s.modPort_around_any p (fun _ => rfl) fun _ => rfl
@[simp] theorem State.modQuiet_around (f : Quiet → Quiet) : (s.modQuiet p f).around p = s.around p := s.modPort_around p fun _ => rfl
@[simp] theorem State.modReach_around (r : Fin 4) (f : Reach → Reach) : (s.modReach r f).around p = s.around p :=
  around_of s p (s.modReach_frame r f) (s.modReach_held r f) rfl rfl fun _ _ => rfl
@[simp] theorem State.draw_around : s.draw.2.around p = s.around p := rfl
@[simp] theorem State.draws_around (n : Nat) : State.around { s with draws := n } p = s.around p := rfl
@[simp] theorem State.journal_around (j : Journal) : State.around { s with journal := j } p = s.around p := rfl
@[simp] theorem State.basin_around (b : Basin) : State.around { s with basin := b } p = s.around p := rfl
@[simp] theorem State.count_around (b k n : Nat) : (s.count b k n).around p = s.around p :=
  around_of s p (s.count_frame b k n) (s.count_held b k n) (s.count_far b k n) (by rw [State.count_port]) fun _ _ => by rw [State.count_port]
@[simp] theorem State.raise_around (c b u : Nat) (w x y z : Word) : (s.raise c b u w x y z).around p = s.around p :=
  around_of s p (s.raise_frame ..) (s.raise_held ..) (s.raise_far ..) (by rw [State.raise_port]) fun _ _ => by rw [State.raise_port]
@[simp] theorem State.lineOne_around (q : Fin 16) (b : Bool) : (s.lineOne q b).around p = s.around p := by
  unfold State.lineOne
  exact ite_keep (State.around · p) (State.raise_around _ p _ _ _ _ _ _ _) rfl
@[simp] theorem State.lineSync_around (q : Fin 16) : (s.lineSync q).around p = s.around p := by simp [State.lineSync]

/-- The crosstalk bookkeeping changes receive paths alone of the ports. -/
@[simp] theorem State.xtSync_around (r : Fin 4) : (s.xtSync r).around p = s.around p :=
  around_of s p (s.xtSync_frame r) (s.xtSync_held r) (far_of_side (s.xtSync_side r)) (by rw [mask_cal (s.xtSync_mask r p)])
    fun q _ => mask_link (s.xtSync_mask r q)
@[simp] theorem State.goLink_around (f : Link → Link) : (s.goLink p f).around p = s.around p := by simp [State.goLink]

/-! ### Cells -/

@[simp] theorem State.queueCell_around (n : Nat) (b : List Byte) : (s.queueCell p n b).around p = s.around p := s.modTow_around p _
@[simp] theorem State.ackCell_around (v : Word) (n : Nat) : (s.ackCell p v n).around p = s.around p := s.modTow_around p _
@[simp] theorem State.modRecord_around (h : CellHdr) (f : RxCtr → RxCtr) : (s.modRecord p h f).around p = s.around p := s.modTow_around p _
@[simp] theorem State.takeCell_around (h : CellHdr) : (s.takeCell p h).2.2.around p = s.around p := by
  unfold State.takeCell
  dsimp only
  split <;> simp

/-! ### Ramps and settings -/

@[simp] theorem State.ramp_around (a b : Bool) : (s.ramp p a b).around p = s.around p := s.modTx_around p _
@[simp] theorem State.txStart_around : (s.txStart p).around p = s.around p := s.ramp_around p _ _
@[simp] theorem State.txStop_around : (s.txStop p).around p = s.around p := s.ramp_around p _ _
@[simp] theorem State.txBurst_around (n : Nat) : (s.txBurst p n).around p = s.around p := by simp [State.txBurst]
@[simp] theorem State.txResume_around : (s.txResume p).around p = s.around p := by
  unfold State.txResume
  (repeat' split) <;> simp
@[simp] theorem State.silence_around (b : Bool) : (s.silence p b).around p = s.around p := by
  unfold State.silence
  split <;> simp
@[simp] theorem State.setSwing_around (n : Nat) : (s.setSwing p n).around p = s.around p := s.modTx_around p _
@[simp] theorem State.stdSettings_around (w : Word × Word) : (s.stdSettings p w).around p = s.around p := by simp [State.stdSettings]
@[simp] theorem State.modeSettings_around (m : LineMode) (a b : Bool) : (s.modeSettings p m a b).around p = s.around p := by
  simp [State.modeSettings]

/-! ### Going down and starting -/

@[simp] theorem State.fall_around (to_ : LinkState) (c : Nat) (b : Bool) : (s.fall p to_ c b).around p = s.around p := by
  unfold State.fall
  dsimp only
  rw [State.lineSync_around, State.raise_around, State.journal_around, State.goLink_around]
  exact State.modPort_around_of (s.silence_around p _) fun _ => rfl
@[simp] theorem State.linkDown_around (c : Nat) : (s.linkDown p c).around p = s.around p := by
  unfold State.linkDown
  split <;> simp [State.draw]
@[simp] theorem State.enterAn_around : (s.enterAn p).around p = s.around p := by simp [State.enterAn]
@[simp] theorem State.enterStd_around (m : LineMode) (b : Bool) : (s.enterStd p m b).around p = s.around p := by simp [State.enterStd]
@[simp] theorem State.sendBeacon_around (b : Bool) : (s.sendBeacon p b).around p = s.around p := by simp [State.sendBeacon]
@[simp] theorem State.enterDiscover_around (b : Bool) : (s.enterDiscover p b).around p = s.around p := by simp [State.enterDiscover]
@[simp] theorem State.firstState_around : (s.firstState p).around p = s.around p := by
  unfold State.firstState
  dsimp only
  (repeat' split) <;> simp
@[simp] theorem State.startPort_around : (s.startPort p).around p = s.around p := by
  unfold State.startPort
  (repeat' split) <;> simp

/-! ### SOUND and training -/

@[simp] theorem State.newSounding_around (x : Sounding) : (s.newSounding p x).around p = s.around p := by simp [State.newSounding]
@[simp] theorem State.sendSounding_around : (s.sendSounding p).around p = s.around p := by simp [State.sendSounding]
@[simp] theorem State.narrowRun_around (n : Nat) : (s.narrowRun p n).around p = s.around p := by simp [State.narrowRun]
@[simp] theorem State.runDue_around : (s.runDue p).around p = s.around p := by
  unfold State.runDue
  split <;> simp
@[simp] theorem State.enterSound_around (b : Bool) : (s.enterSound p b).around p = s.around p := by
  unfold State.enterSound
  dsimp only
  split <;> simp
@[simp] theorem State.rxEnter_around (m : LineMode) (b : Bool) : (s.rxEnter p m b).around p = s.around p := by simp [State.rxEnter]
@[simp] theorem State.adaptRx_around (m : LineMode) : (s.adaptRx p m).around p = s.around p := by simp [State.adaptRx]
@[simp] theorem State.trainStart_around (b : Bool) : (s.trainStart p b).around p = s.around p := s.modTx_around p _
@[simp] theorem State.beginBlocks_around (m : LineMode) (n : Nat) : (s.beginBlocks p m n).around p = s.around p := by
  unfold State.beginBlocks
  dsimp only
  rw [State.lineSync_around]
  exact State.modPort_around_of (ite_keep (State.around · p) rfl (s.adaptRx_around p m)) fun _ => rfl
@[simp] theorem State.linkUp_around (m : LineMode) (st : LinkState) : (s.linkUp p m st).around p = s.around p := by
  unfold State.linkUp
  dsimp only
  rw [State.lineSync_around, State.raise_around, State.goLink_around]
  exact State.modPort_around _ p fun _ => rfl
@[simp] theorem State.enterTraining_around (m : LineMode) (c : ModeCell) : (s.enterTraining p m c).around p = s.around p := by
  unfold State.enterTraining
  dsimp only
  (repeat' split) <;> simp
@[simp] theorem State.trainFailed_around : (s.trainFailed p).around p = s.around p := by
  unfold State.trainFailed
  dsimp only
  (repeat' split) <;> simp
@[simp] theorem State.queueGo_around : (s.queueGo p).around p = s.around p := by simp [State.queueGo]

/-! ### Shifts -/

@[simp] theorem State.shiftBegin_around (m : LineMode) (k n : Nat) : (s.shiftBegin p m k n).around p = s.around p := by
  unfold State.shiftBegin
  dsimp only
  split
  · rfl
  · rw [State.goLink_around]
    have h (x : Port) (b : Bool) (m : LineMode) : (if b then x.storeSet m else x).cal = x.cal := by
      unfold Port.storeSet
      split_ifs <;> rfl
    have h1 (x : PortCal) : (if x.running then { x with item := 0 } else x).running = x.running := by split <;> rfl
    rw [ite_keep (State.around · p) (State.modTow_around _ p _) rfl, State.modTow_around, State.modPort_around _ _ fun x => h1 _]
@[simp] theorem State.leadShift_around (m : LineMode) (k : Nat) : (s.leadShift p m k).around p = s.around p := by simp [State.leadShift]
@[simp] theorem State.earlyExit_around : (s.earlyExit p).around p = s.around p := by
  unfold State.earlyExit
  split <;> simp
@[simp] theorem State.shiftProceed_around : (s.shiftProceed p).around p = s.around p := by
  unfold State.shiftProceed
  dsimp only
  split
  · rfl
  · have h (x : ShiftRec) (b : Bool) : ((s.txStop p).modPort p (fun y => { y with
        link := { y.link with shift := some { x with acked := true }, blocksOn := false, precode := b }
        snd := { y.snd with synced := false } })).around p = s.around p :=
      State.modPort_around_of (s.txStop_around p) fun _ => rfl
    (repeat' split) <;> simp [h]
@[simp] theorem State.shiftDone_around : (s.shiftDone p).around p = s.around p := by
  unfold State.shiftDone
  dsimp only
  split
  · rfl
  · rw [State.lineSync_around, State.raise_around, State.goLink_around]
    exact State.modPort_around _ p fun _ => rfl
@[simp] theorem State.shiftFailed_around : (s.shiftFailed p).around p = s.around p := by
  unfold State.shiftFailed
  dsimp only
  (repeat' split) <;> simp

end

end Sys2Proof.Machine
end

section
/-! PROOFS. What the operations of link start and of shifts make of the core of their own port: its link record, towpath, sender,
receiver and quiet record. One equation for each operation; transmit, receive and DMT paths stand apart. -/

namespace Sys2Proof.Machine

/-- The records of a port that the rules of link start, shifts and towpath cells speak of. -/
structure Core where
  link : Link
  tow : Towpath
  snd : Sender
  rcv : Receiver
  quiet : Quiet

def State.core (s : State) (p : Fin 16) : Core := ⟨(s.port p).link, (s.port p).tow, (s.port p).snd, (s.port p).rcv, (s.port p).quiet⟩

section
variable (s : State) (p : Fin 16)

@[simp] theorem State.core_link : (s.core p).link = (s.port p).link := rfl
@[simp] theorem State.core_tow : (s.core p).tow = (s.port p).tow := rfl
@[simp] theorem State.core_snd : (s.core p).snd = (s.port p).snd := rfl
@[simp] theorem State.core_rcv : (s.core p).rcv = (s.port p).rcv := rfl
@[simp] theorem State.core_quiet : (s.core p).quiet = (s.port p).quiet := rfl

end

section
variable {s : State} {p : Fin 16} {x : Core} (h : s.core p = x)
include h
theorem link_of_core : (s.port p).link = x.link := congrArg Core.link h
theorem tow_of_core : (s.port p).tow = x.tow := congrArg Core.tow h
theorem snd_of_core : (s.port p).snd = x.snd := congrArg Core.snd h
theorem rcv_of_core : (s.port p).rcv = x.rcv := congrArg Core.rcv h
theorem quiet_of_core : (s.port p).quiet = x.quiet := congrArg Core.quiet h
end

section
variable (s : State) (p : Fin 16)

/-! ### The shared operations -/

@[simp] theorem settle_core (old : State) : (settle old s).core p = s.core p := by simp [State.core]
theorem State.modPort_core (f : Port → Port) : (s.modPort p f).core p =
    ⟨(f (s.port p)).link, (f (s.port p)).tow, (f (s.port p)).snd, (f (s.port p)).rcv, (f (s.port p)).quiet⟩ := by
  unfold State.core
  rw [State.port_modPort_same]
theorem core_of_port {s t : State} (h : t.port p = s.port p) : t.core p = s.core p := by unfold State.core; rw [h]
theorem core_of_mask {s t : State} (h : (t.port p).mask = (s.port p).mask) : t.core p = s.core p := by
  unfold State.core
  rw [mask_link h, mask_tow h, mask_snd h, mask_rcv h, mask_quiet h]

@[simp] theorem State.modLink_core (f : Link → Link) : (s.modLink p f).core p = { s.core p with link := f (s.core p).link } := s.modPort_core p _
@[simp] theorem State.modTow_core (f : Towpath → Towpath) : (s.modTow p f).core p = { s.core p with tow := f (s.core p).tow } := s.modPort_core p _
@[simp] theorem State.modSnd_core (f : Sender → Sender) : (s.modSnd p f).core p = { s.core p with snd := f (s.core p).snd } := s.modPort_core p _
@[simp] theorem State.modRcv_core (f : Receiver → Receiver) : (s.modRcv p f).core p = { s.core p with rcv := f (s.core p).rcv } := s.modPort_core p _
@[simp] theorem State.modQuiet_core (f : Quiet → Quiet) : (s.modQuiet p f).core p = { s.core p with quiet := f (s.core p).quiet } := s.modPort_core p _
@[simp] theorem State.modTx_core (f : TxPath → TxPath) : (s.modTx p f).core p = s.core p := s.modPort_core p _
@[simp] theorem State.modRx_core (f : RxPath → RxPath) : (s.modRx p f).core p = s.core p := s.modPort_core p _
@[simp] theorem State.modDmt_core (f : Dmt → Dmt) : (s.modDmt p f).core p = s.core p := s.modPort_core p _
@[simp] theorem State.modReach_core (r : Fin 4) (f : Reach → Reach) : (s.modReach r f).core p = s.core p := rfl
@[simp] theorem State.draw_core : s.draw.2.core p = s.core p := rfl
@[simp] theorem State.draws_core (n : Nat) : State.core { s with draws := n } p = s.core p := rfl
@[simp] theorem State.journal_core (j : Journal) : State.core { s with journal := j } p = s.core p := rfl
@[simp] theorem State.basin_core (b : Basin) : State.core { s with basin := b } p = s.core p := rfl
@[simp] theorem State.count_core (b k n : Nat) : (s.count b k n).core p = s.core p := core_of_port p (s.count_port b k n p)
@[simp] theorem State.raise_core (c b u : Nat) (w x y z : Word) : (s.raise c b u w x y z).core p = s.core p :=
  core_of_port p (s.raise_port c b u w x y z p)
@[simp] theorem State.lineSync_core (q : Fin 16) : (s.lineSync q).core p = s.core p := core_of_port p (s.lineSync_port q p)
@[simp] theorem State.xtSync_core (r : Fin 4) : (s.xtSync r).core p = s.core p := core_of_mask p (s.xtSync_mask r p)
@[simp] theorem State.goLink_core (f : Link → Link) : (s.goLink p f).core p = { s.core p with link := f (s.core p).link } := by
  simp [State.goLink]

/-! ### Ramps and settings -/

@[simp] theorem State.ramp_core (a b : Bool) : (s.ramp p a b).core p = s.core p := s.modTx_core p _
@[simp] theorem State.txStart_core : (s.txStart p).core p = s.core p := s.ramp_core p _ _
@[simp] theorem State.txStop_core : (s.txStop p).core p = s.core p := s.ramp_core p _ _
@[simp] theorem State.txBurst_core (n : Nat) : (s.txBurst p n).core p = s.core p := by simp [State.txBurst]
@[simp] theorem State.txResume_core : (s.txResume p).core p = s.core p := by
  unfold State.txResume
  (repeat' split) <;> simp
@[simp] theorem State.silence_core (b : Bool) : (s.silence p b).core p = s.core p := by
  unfold State.silence
  split <;> simp
@[simp] theorem State.setSwing_core (n : Nat) : (s.setSwing p n).core p = s.core p := s.modTx_core p _
@[simp] theorem State.stdSettings_core (w : Word × Word) : (s.stdSettings p w).core p = s.core p := by simp [State.stdSettings]
@[simp] theorem State.modeSettings_core (m : LineMode) (a b : Bool) : (s.modeSettings p m a b).core p = s.core p := by
  simp [State.modeSettings]
@[simp] theorem State.rxEnter_core (m : LineMode) (b : Bool) : (s.rxEnter p m b).core p = s.core p := by simp [State.rxEnter]
@[simp] theorem State.adaptRx_core (m : LineMode) : (s.adaptRx p m).core p = s.core p := by simp [State.adaptRx]
@[simp] theorem State.trainStart_core (b : Bool) : (s.trainStart p b).core p = s.core p := s.modTx_core p _

/-! ### Cells -/

@[simp] theorem State.queueCell_core (n : Nat) (b : List Byte) : (s.queueCell p n b).core p =
    { s.core p with tow := { (s.core p).tow with ready := (s.core p).tow.ready ++ [⟨BitVec.ofNat 8 n, 0, b⟩] } } := s.modTow_core p _
@[simp] theorem State.ackCell_core (v : Word) (n : Nat) : (s.ackCell p v n).core p =
    { s.core p with tow := { (s.core p).tow with ready := (s.core p).tow.ready ++ [⟨6, 0, cackPayload v (BitVec.ofNat 8 n)⟩] } } :=
  s.queueCell_core p 6 _

/-! ### Going down and starting -/

/-- What a fall makes of the core of its port (R83). -/
def Core.fallen (x : Core) (to_ : LinkState) (cause : Nat) : Core :=
  { x with
    link := x.link.fallen to_ cause, tow := x.tow.fallen, snd := { x.snd with synced := false }
    quiet := { x.quiet with state := .active, pend := none, exit := none, window := none, lpiRx := false, lpiTx := false, eee := false, listening := false } }

@[simp] theorem State.fall_core (to_ : LinkState) (c : Nat) (b : Bool) : (s.fall p to_ c b).core p = (s.core p).fallen to_ c := by
  have h (u : State) (hu : u.core p = s.core p) (f : Port → Port)
      (hf : ∀ x, (f x).link = x.link ∧ (f x).tow = x.tow.fallen ∧ (f x).snd = { x.snd with synced := false } ∧ (f x).rcv = x.rcv
        ∧ (f x).quiet = { x.quiet with state := .active, pend := none, exit := none, window := none, lpiRx := false, lpiTx := false, eee := false, listening := false }) :
      ((u.modPort p f).goLink p (fun l => l.fallen to_ c)).core p = (s.core p).fallen to_ c := by
    obtain ⟨h1, h2, h3, h4, h5⟩ := hf (u.port p)
    rw [State.goLink_core, State.modPort_core, h1, h2, h3, h4, h5, link_of_core hu, tow_of_core hu,
      snd_of_core hu, rcv_of_core hu, quiet_of_core hu]
    rfl
  unfold State.fall
  dsimp only
  rw [State.lineSync_core, State.raise_core, State.journal_core]
  exact h _ (s.silence_core p b) _ fun x => ⟨rfl, rfl, rfl, rfl, rfl⟩

/-- The HOLD time of a cause (R83, R110). -/
def holdOf (c n : Nat) : Prop := if c = 5 then n = 1000000 else 10000 ≤ n ∧ n ≤ 20000

theorem State.linkDown_core (c : Nat) : ∃ n, holdOf c n ∧ (s.linkDown p c).core p =
    { (s.core p).fallen .hold c with link := { (s.core p).link.fallen .hold c with holdTime := n } } := by
  unfold State.linkDown holdOf
  have e := s.fall_core p .hold c false
  split
  · exact ⟨_, rfl, by rw [State.modLink_core, e]; rfl⟩
  · refine ⟨_, ⟨Nat.le_add_right _ _, ?_⟩, by dsimp only; rw [State.modLink_core, State.draw_core, e]; rfl⟩
    have := (Config.freeHold (s.fall p .hold c false).draw.1).isLt
    omega

@[simp] theorem State.enterAn_core : (s.enterAn p).core p =
    { s.core p with link := { (s.core p).link with state := .an, train := none, leader := false, pages := s.anPages p } } := by
  simp [State.enterAn]
@[simp] theorem State.enterStd_core (m : LineMode) (b : Bool) : (s.enterStd p m b).core p =
    { s.core p with link := { (s.core p).link with state := .stdTrain, train := some m, leader := b } } := by simp [State.enterStd]

end

end Sys2Proof.Machine
end

section
/-! PROOFS. What link start, training and blocks make of the core of their port, and what a link that goes down or comes up puts
into the event ring: an event raised while the ring has room stands whatever follows. -/

namespace Sys2Proof.Machine

section
variable (s : State) (p : Fin 16)

/-- A beacon moves the capability sequence on (R113); its SF and listening time follow from the sequence and a draw. -/
theorem State.sendBeacon_core (a : Bool) : ∃ f ch ms li, (s.sendBeacon p a).core p = { s.core p with tow := { (s.core p).tow with
    sf := f, lastCell := cellBytes (s.linkKey p) (s.core p).tow.nonce (s.core p).tow.peerNonce 0 { type := 1, payload := capPayload (s.ownCap p) }
    chirps := ch, sentModes := ms, capSeq := (s.core p).tow.capSeq + 1, ackSent := (s.core p).tow.ackSent || (s.core p).tow.partner.isSome
    beacons := (s.core p).tow.beacons + 1, listen := li } } := by
  unfold State.sendBeacon
  dsimp only
  refine ⟨?_, ?_, ?_, ?_, ?_⟩
  rotate_left 4
  rw [State.txBurst_core, State.setSwing_core, State.modTow_core]
  rfl

theorem State.enterDiscover_core (long : Bool) : ∃ w : Towpath, w.profile = .narrowBursts ∧ w.beaconSf = (if long then 12 else 7) ∧ w.txCtr = 0 ∧ w.partner = none ∧
    (s.enterDiscover p long).core p =
      { s.core p with link := { (s.core p).link with state := .discover, train := none, leader := false, dirPartner := 0 }, tow := w } := by
  unfold State.enterDiscover
  dsimp only
  generalize hu : State.goLink _ p _ = u
  obtain ⟨f, ch, ms, li, e⟩ := u.sendBeacon_core p false
  have hc := congrArg (State.core · p) hu.symm
  simp only [State.goLink_core, State.modTow_core, State.txStop_core, State.draw_core] at hc
  refine ⟨((u.sendBeacon p false).core p).tow, ?_, ?_, ?_, ?_, ?_⟩
  rotate_left 4
  · rw [e, hc]
  all_goals rw [e, hc]

/-- The first state of a link start (R66, R73, R87). -/
def State.firstOf (s : State) (p : Fin 16) : LinkState :=
  match s.forced p with
  | some .t100 | some .t1000 => .stdTrain
  | some m => if isLocon m && policyOf (s.policy p) == 1 then .discover else .an
  | none => if policyOf (s.policy p) = 1 then .discover else .an

theorem State.enterDiscover_link (long : Bool) : ((s.enterDiscover p long).port p).link =
    { (s.core p).link with state := .discover, train := none, leader := false, dirPartner := 0 } := by
  obtain ⟨w, _, _, _, _, e⟩ := s.enterDiscover_core p long
  exact link_of_core e

theorem State.discoverOrAn_link (c : Prop) [Decidable c] {t : State} (ht : (if c then s.enterDiscover p false else s.enterAn p) = t) :
    (t.port p).link.state = (if c then .discover else .an) ∧ ((t.port p).link.state = .an → (t.port p).link.pages = s.anPages p) := by
  subst ht
  split
  · rw [State.enterDiscover_link]
    exact ⟨rfl, nofun⟩
  · rw [link_of_core (s.enterAn_core p)]
    exact ⟨rfl, fun _ => rfl⟩
theorem State.enterStd_first (m : LineMode) (b : Bool) {t : State} (ht : s.enterStd p m b = t) :
    (t.port p).link.state = .stdTrain ∧ ((t.port p).link.state = .an → (t.port p).link.pages = s.anPages p) := by
  subst ht
  rw [link_of_core (s.enterStd_core p m b)]
  exact ⟨rfl, nofun⟩

theorem State.firstState_link : ((s.firstState p).port p).link.state = s.firstOf p ∧
    (((s.firstState p).port p).link.state = .an → ((s.firstState p).port p).link.pages = s.anPages p) := by
  generalize ht : s.firstState p = t
  unfold State.firstState at ht
  unfold State.firstOf
  generalize s.forced p = f at ht ⊢
  dsimp only at ht
  split at ht
  · exact s.enterStd_first p _ _ ht
  · exact s.enterStd_first p _ _ ht
  · next m h1 h2 =>
    have e := s.discoverOrAn_link p _ ht
    cases m
    case t100 => exact absurd rfl h1
    case t1000 => exact absurd rfl h2
    all_goals exact e
  · exact s.discoverOrAn_link p _ ht

/-! ### SOUND and training -/

@[simp] theorem State.newSounding_core (x : Sounding) : (s.newSounding p x).core p =
    { s.core p with tow := { (s.core p).tow with snd := some x, sndSeq := (s.core p).tow.sndSeq + 1 } } := by simp [State.newSounding]
@[simp] theorem State.sendSounding_core : (s.sendSounding p).core p =
    { s.core p with tow := { (s.core p).tow with chirps := soundingChirps, soundSent := true } } := by simp [State.sendSounding]
@[simp] theorem State.narrowRun_core (f : Nat) : (s.narrowRun p f).core p =
    { s.core p with tow := { (s.core p).tow with profile := .narrowRun, sf := f, symCount := 0, chirps := startMarker .run f } } := by simp [State.narrowRun]

/-- The run due in SOUND changes profile, SF, count and chirps alone. -/
theorem State.runDue_core : ∃ pr f n ch, (s.runDue p).core p =
    { s.core p with tow := { (s.core p).tow with profile := pr, sf := f, symCount := n, chirps := ch } } := by
  unfold State.runDue
  split
  · exact ⟨_, _, _, _, s.narrowRun_core p _⟩
  · exact ⟨_, _, _, _, rfl⟩

/-- SOUND entered (R115): the record with the role; the pairing, the SF adopted and the cell counters of DISCOVER stay. -/
theorem State.enterSound_core (b : Bool) : ∃ n w, w.partner = (s.core p).tow.partner ∧ w.adopted = (s.core p).tow.adopted ∧ w.rx = (s.core p).tow.rx ∧
    (s.enterSound p b).core p =
      { s.core p with link := { (s.core p).link with state := .sound, leader := b }, snd := { (s.core p).snd with w := n }, tow := w } := by
  unfold State.enterSound
  dsimp only
  cases b with
  | true =>
    refine ⟨?_, ?_, ?_, ?_, ?_, ?_⟩
    rotate_left 5
    rw [if_pos rfl, State.sendSounding_core, State.goLink_core, State.modSnd_core, State.modTow_core]
    all_goals rfl
  | false =>
    refine ⟨?_, ?_, ?_, ?_, ?_, ?_⟩
    rotate_left 5
    rw [if_neg nofun, State.goLink_core, State.modSnd_core, State.modTow_core]
    all_goals rfl

@[simp] theorem State.beginBlocks_core (m : LineMode) (n : Nat) : (s.beginBlocks p m n).core p =
    { s.core p with
      link := { (s.core p).link with blocksOn := true, blocksTick := n }, snd := { (s.core p).snd with synced := false }
      rcv := { (s.core p).rcv with highest := none } } := by
  have h : (if m == .lchirp then s else s.adaptRx p m).core p = s.core p := ite_keep (State.core · p) rfl (s.adaptRx_core p m)
  unfold State.beginBlocks
  dsimp only
  rw [State.lineSync_core, State.modPort_core]
  dsimp only
  rw [link_of_core h, tow_of_core h, snd_of_core h, rcv_of_core h, quiet_of_core h]

@[simp] theorem State.linkUp_core (m : LineMode) (st : LinkState) : (s.linkUp p m st).core p =
    { s.core p with link := { (s.core p).link with
        state := st, modeAct := some m, train := none, lastFail := none, upTick := some s.ticks, ladder := {} } } := by
  unfold State.linkUp
  dsimp only
  rw [State.lineSync_core, State.raise_core, State.goLink_core, State.modPort_core]
  rfl

/-- A seed from a draw is neither 0 nor changed by R126's replacement. -/
theorem seedOf_draw (d : Fin 2147483647) : BitVec.ofNat 31 (d.val + 1) ≠ 0 ∧ seedOf (BitVec.ofNat 31 (d.val + 1)) = BitVec.ofNat 31 (d.val + 1) := by
  have h : BitVec.ofNat 31 (d.val + 1) ≠ 0 := fun e => by
    have := congrArg BitVec.toNat e
    simp at this
    omega
  exact ⟨h, if_neg h⟩

/-- The leader's GO (R81, R106, R126): two seeds, neither of them 0, kept and sent; GO cells that wait for their CACK are forgotten. -/
theorem State.queueGo_core : ∃ a b, a ≠ 0 ∧ b ≠ 0 ∧ ((s.queueGo p).port p).tx.seedL = a ∧ ((s.queueGo p).port p).tx.seedF = b ∧ (s.queueGo p).core p =
    { s.core p with tow := { (s.core p).tow with
        await := (s.core p).tow.await.filter (fun e => e.cell.type != 3), goCount := none, ready := (s.core p).tow.ready ++ [⟨3, 0, goPayload 0 a b⟩] } } := by
  obtain ⟨h1, e1⟩ := seedOf_draw (Config.freeSeed s.draw.1)
  obtain ⟨h2, e2⟩ := seedOf_draw (Config.freeSeed s.draw.2.draw.1)
  refine ⟨_, _, h1, h2, ?_, ?_, ?_⟩
  · unfold State.queueGo
    dsimp only
    simp only [State.queueCell, State.port_modTow, State.port_modTx]
    exact e1
  · unfold State.queueGo
    dsimp only
    simp only [State.queueCell, State.port_modTow, State.port_modTx]
    exact e2
  · unfold State.queueGo
    dsimp only
    rw [State.queueCell_core, State.modTow_core, State.modTx_core, State.draw_core, State.draw_core]
    rfl

end

/-! ### The event ring -/

/-- A ring after at most n more events: what it held stands. -/
def EventRing.heard (a : EventRing) (n : Nat) (b : EventRing) : Prop := ∃ l, b.untaken = a.untaken ++ l ∧ l.length ≤ n

theorem heard_refl (a : EventRing) (n : Nat) : a.heard n a := ⟨[], (List.append_nil _).symm, Nat.zero_le n⟩
theorem heard_of_eq {a b : EventRing} (h : b = a) (n : Nat) : a.heard n b := h ▸ heard_refl a n
theorem heard_trans {a b c : EventRing} {i j n : Nat} (h : a.heard i b) (k : b.heard j c) (hn : i + j ≤ n) : a.heard n c := by
  obtain ⟨l, hl, hi⟩ := h
  obtain ⟨m, hm, hj⟩ := k
  exact ⟨l ++ m, by rw [hm, hl, List.append_assoc], by rw [List.length_append]; omega⟩
theorem heard_length {a b : EventRing} {n : Nat} (h : a.heard n b) : b.untaken.length ≤ a.untaken.length + n := by
  obtain ⟨l, hl, hn⟩ := h
  rw [hl, List.length_append]
  omega
theorem noted_heard {s t : State} {n c u : Nat} {e : Word} (k : s.noted c u e) (h : s.ring.heard n t.ring) : t.noted c u e := by
  obtain ⟨l, hl, _⟩ := h
  obtain ⟨x, hx, k⟩ := k
  exact ⟨x, hl ▸ List.mem_append_left l hx, k⟩
theorem noted_ring {s t : State} {c u : Nat} {e : Word} (k : s.noted c u e) (h : t.ring = s.ring) : t.noted c u e := noted_heard k (heard_of_eq h 0)
theorem EventRing.push_heard (r : EventRing) (e : EventRec) : r.heard 1 (r.push e) := by
  unfold EventRing.push
  split
  · exact ⟨[e], rfl, Nat.le_refl 1⟩
  · exact ⟨[], (List.append_nil _).symm, Nat.zero_le 1⟩
theorem State.raise_heard (s : State) (c b u : Nat) (w x y z : Word) : s.ring.heard 1 (s.raise c b u w x y z).ring := by
  have e : (s.raise c b u w x y z).ring = s.ring.push (s.record c b u w x y z) := by simp [State.raise]
  rw [e]
  exact EventRing.push_heard _ _
theorem raise_heard_of {s t : State} (h : t.ring = s.ring) (c b u : Nat) (w x y z : Word) : s.ring.heard 1 (t.raise c b u w x y z).ring :=
  h ▸ t.raise_heard c b u w x y z
theorem State.raise_noted (s : State) (c b u : Nat) (w x y z : Word) (h : s.ringRoom) : (s.raise c b u w x y z).noted c u w := by
  obtain ⟨e, h1, h2, _, h3, h4⟩ := s.raise_told c b u w x y z h
  exact ⟨e, List.mem_of_getLast? h1, h2, h3, h4⟩
theorem heard_ite {c : Prop} [Decidable c] {r : EventRing} {n : Nat} {a b : State} (ha : r.heard n a.ring) (hb : r.heard n b.ring) :
    r.heard n (if c then a else b).ring := by split <;> assumption
theorem foldl_heard {α : Type} (l : List α) (f : State → α → State) (h : ∀ (t : State) x, t.ring.heard 1 (f t x).ring) (s : State) :
    s.ring.heard l.length (l.foldl f s).ring := by
  induction l generalizing s with
  | nil => exact heard_refl _ 0
  | cons a l ih => exact heard_trans (h s a) (ih _) (by rw [List.length_cons]; omega)

section
variable (s : State) (p : Fin 16)

theorem State.modLink_ring (f : Link → Link) : (s.modLink p f).ring = s.ring := rfl
theorem State.silence_ring (b : Bool) : (s.silence p b).ring = s.ring := by
  unfold State.silence
  split <;> rfl
theorem State.xtOne_heard (r : Fin 4) (i : Fin 12) : s.ring.heard 1 (s.xtOne r i).ring := by
  unfold State.xtOne
  dsimp only
  split
  · exact heard_refl _ 1
  · split
    · rw [State.count_ring]
      exact raise_heard_of rfl _ _ _ _ _ _ _
    · exact heard_refl _ 1
theorem State.xtSync_heard (r : Fin 4) : s.ring.heard 12 (s.xtSync r).ring := foldl_heard (List.finRange 12) _ (fun t i => t.xtOne_heard r i) s
theorem State.lineOne_heard (b : Bool) : s.ring.heard 1 (s.lineOne p b).ring := by
  unfold State.lineOne
  exact heard_ite (raise_heard_of rfl _ _ _ _ _ _ _) (heard_of_eq rfl 1)
theorem State.lineSync_heard : s.ring.heard 2 (s.lineSync p).ring :=
  heard_trans (s.lineOne_heard p false) ((s.lineOne p false).lineOne_heard p true) (Nat.le_refl 2)
theorem heard_lineSync_of {s t : State} (p : Fin 16) (h : t.ring = s.ring) : s.ring.heard 2 (t.lineSync p).ring := h ▸ t.lineSync_heard p
theorem noted_lineSync {c u : Nat} {e : Word} (h : s.noted c u e) : (s.lineSync p).noted c u e := noted_heard h (s.lineSync_heard p)
theorem noted_modLink (f : Link → Link) {c u : Nat} {e : Word} (h : s.noted c u e) : (s.modLink p f).noted c u e := h
theorem noted_draw {c u : Nat} {e : Word} (h : s.noted c u e) : s.draw.2.noted c u e := h
theorem State.goLink_heard (f : Link → Link) : s.ring.heard 12 (s.goLink p f).ring := by
  have h := (s.modLink p f).xtSync_heard (reachOf p)
  rwa [State.modLink_ring] at h

/-- What a change of the link record raises by itself leaves room for its own event. -/
theorem State.goLink_room (f : Link → Link) (h : s.ring.untaken.length < 244) : (s.goLink p f).ringRoom := by
  have := heard_length (s.goLink_heard p f)
  unfold State.ringRoom
  omega

/-- An event raised after a change of the link record, with what follows it. -/
theorem State.noted_after (j : Journal) (c b u : Nat) (w x y z : Word) (h : s.ringRoom) :
    ((State.raise { s with journal := j } c b u w x y z).lineSync p).noted c u w :=
  noted_lineSync _ p (State.raise_noted _ c b u w x y z h)
theorem State.fall_noted (to_ : LinkState) (c : Nat) (b : Bool) (h : s.ring.untaken.length < 244) : (s.fall p to_ c b).noted 0x0011 p.val (wd c) := by
  unfold State.fall
  dsimp only
  refine State.noted_after _ p _ _ _ _ _ _ _ _ (State.goLink_room _ p _ ?_)
  rwa [State.modPort_ring, s.silence_ring]
theorem State.linkDown_noted (c : Nat) (h : s.ring.untaken.length < 244) : (s.linkDown p c).noted 0x0011 p.val (wd c) := by
  have e := s.fall_noted p .hold c false h
  unfold State.linkDown
  split
  · exact noted_modLink _ p _ e
  · exact noted_modLink _ p _ (noted_draw _ e)
theorem State.linkUp_noted (m : LineMode) (st : LinkState) (h : s.ring.untaken.length < 244) : (s.linkUp p m st).noted 0x0010 p.val (wd (modeCode m)) := by
  unfold State.linkUp
  dsimp only
  refine noted_lineSync _ p (State.raise_noted _ _ _ _ _ _ _ _ (State.goLink_room _ p _ ?_))
  rwa [State.modPort_ring]

end

/-! ### Going down and coming up -/

section
variable {s u : State} {p : Fin 16}

/-- A link taken down after operations on its port that left the count of falls (R83, R110). -/
theorem fellWith_linkDown (ha : u.around p = s.around p) (hd : (u.port p).link.downs16 = (s.port p).link.downs16)
    (hr : s.ringSpace → u.ring.untaken.length < 244) (c : Nat) (old : State) : s.fellWith p c (settle old (u.linkDown p c)) := by
  obtain ⟨n, hn, e⟩ := u.linkDown_core p c
  have e' := (settle_core _ p old).trans e
  refine ⟨?_, ?_, ?_, ?_, ?_, ?_, fun h => ?_, fun q hq => ?_⟩
  · rw [link_of_core e']; rfl
  · rw [link_of_core e']; rfl
  · rw [link_of_core e']; rfl
  · rw [tow_of_core e']; rfl
  · rw [link_of_core e', ← hd]; rfl
  · rw [link_of_core e']; exact hn
  · exact noted_ring (u.linkDown_noted p c (hr h)) (settle_ring _ _)
  · rw [settle_port_link, around_link ((u.linkDown_around p c).trans ha) hq]

theorem cameUp_linkUp (ha : u.around p = s.around p) (hr : s.ringSpace → u.ring.untaken.length < 244) (m : LineMode) (st : LinkState)
    (old : State) : s.cameUp p m st (settle old (u.linkUp p m st)) := by
  have e' := (settle_core _ p old).trans (u.linkUp_core p m st)
  rw [State.cameUp, link_of_core e', ← far_ticks (around_far ha)]
  exact ⟨rfl, rfl, rfl, rfl, fun h => noted_ring (u.linkUp_noted p m st (hr h)) (settle_ring _ _),
    fun q hq => by rw [settle_port_link, around_link ((u.linkUp_around p m st).trans ha) hq]⟩

end

end Sys2Proof.Machine
end

section
/-! PROOFS. Clause 98, standard training and DISCOVER (R64, R73 to R79, R83, R112 to R114). -/

namespace Sys2Proof.Machine

section
variable {s u : State} {p : Fin 16}

/-- A command of a steady port that takes its link down. -/
theorem linkDown_does {c : Instr} (hs : s.steady p) (hu : u.around p = s.around p) (hd : (u.port p).link.downs16 = (s.port p).link.downs16)
    (hr : s.ringSpace → u.ring.untaken.length < 244) (n : Nat) (he : exec c s = s.runsPort p (u.linkDown p n)) : Does c s (s.fellWith p n) :=
  runsPort_does ((u.linkDown_around p n).trans hu) hs he (fellWith_linkDown hu hd hr n s)
theorem ringSpace_room (h : s.ringSpace) : s.ring.untaken.length < 244 := Nat.lt_trans h (by decide)
/-- A command of a steady port that takes its link down and does nothing else. -/
theorem linkDown_alone {c : Instr} (hs : s.steady p) (n : Nat) (he : exec c s = s.runsPort p (s.linkDown p n)) : Does c s (s.fellWith p n) :=
  linkDown_does hs rfl rfl ringSpace_room n he

/-- A command of a steady port of which the core of its result says everything asked for. -/
theorem core_does {c : Instr} {P : State → Prop} {t : State} {x : Core} (hs : s.steady p) (he : exec c s = s.runsPort p t) (e : t = u)
    (ha : u.around p = s.around p) (hk : u.core p = x) (hP : ∀ v, v.core p = x → P v) : Does c s P := by
  subst e
  exact runsPort_does ha hs he (hP _ ((settle_core t p s).trans hk))
/-- A command that leaves its port as it was. -/
theorem still_does {c : Instr} {P : State → Prop} {t : State} (hs : s.steady p) (he : exec c s = s.runsPort p t) (e : t = s)
    (hP : ∀ v, v.core p = s.core p → P v) : Does c s P := core_does hs he e rfl rfl hP
theorem still_of_core (h : u.core p = s.core p) : s.still p u := ⟨link_of_core h, tow_of_core h⟩

/-! ### Clause 98 -/

theorem sentBase_nulls (l : Link) (a b : AnPage) (ha : a = .null) (hb : b = .null) : ({ l with pages := l.pages ++ [a, b] } : Link).sentBase = l.sentBase := by
  subst ha hb
  simp [Link.sentBase, List.findSome?_append]

/-- Without extended next pages of one OUI at both ends the base pages decide (R64, R73). -/
theorem State.anResolved_standard {r : AnPages} (hl : (s.port p).link.state = .an)
    (hx : ∀ e, r.ext = some e → e.oui ≠ s.oui p ∨ (s.port p).link.sentOui ≠ some e.oui) :
    ∃ u : State, s.anResolved p r = u.anStandard p r ∧ u.around p = s.around p ∧ u.ring = s.ring
      ∧ (u.port p).link.sentBase = (s.port p).link.sentBase ∧ (u.port p).link.downs16 = (s.port p).link.downs16 := by
  unfold State.anResolved
  rw [if_neg (fun h => h hl)]
  cases hr : r.ext with
  | none => exact ⟨s, rfl, rfl, rfl, rfl, rfl⟩
  | some e =>
    dsimp only
    split
    · refine ⟨_, rfl, s.modLink_around p _, rfl, ?_, ?_⟩
      · rw [State.port_modLink]
        exact sentBase_nulls _ _ _ rfl rfl
      · rw [State.port_modLink]
    · next ho =>
      rw [if_neg ((hx e hr).resolve_left ho)]
      refine ⟨_, rfl, s.modLink_around p _, rfl, ?_, ?_⟩
      · rw [State.port_modLink]
        rfl
      · rw [State.port_modLink]

theorem clause98_standard (hs : s.steady p) (hl : (s.port p).link.state = .an) {r : AnPages}
    (hx : ∀ e, r.ext = some e → e.oui ≠ s.oui p ∨ (s.port p).link.sentOui ≠ some e.oui) {m : LineMode}
    (hm : (if r.msFault then none else highestStd ((s.port p).link.sentBase.1 &&& r.std)) = some m) :
    Does (.clause98Resolved p r) s (fun t => (t.port p).link.state = .stdTrain ∧ (t.port p).link.train = some m ∧ (t.port p).link.leader = r.master
      ∧ (t.port p).quiet.eee = (r.eee && (s.port p).link.sentBase.2 && m != .t100)) := by
  obtain ⟨u, hu, ha, _, hb, _⟩ := State.anResolved_standard hl hx
  have e : s.anResolved p r = (u.enterStd p m r.master).modQuiet p (fun q => { q with eee := r.eee && (s.port p).link.sentBase.2 && m != .t100 }) := by
    rw [hu, State.anStandard, hb]
    dsimp only
    rw [hm]
  refine core_does hs rfl e (by simpa using ha) (State.modQuiet_core ..) fun v hv => ?_
  rw [link_of_core hv, quiet_of_core hv, State.enterStd_core]
  exact ⟨rfl, rfl, rfl, rfl⟩

theorem clause98_fault (hs : s.steady p) (hl : (s.port p).link.state = .an) {r : AnPages}
    (hx : ∀ e, r.ext = some e → e.oui ≠ s.oui p ∨ (s.port p).link.sentOui ≠ some e.oui)
    (hm : (if r.msFault then none else highestStd ((s.port p).link.sentBase.1 &&& r.std)) = none) :
    Does (.clause98Resolved p r) s (s.fellWith p 2) := by
  obtain ⟨u, hu, ha, hr, hb, hd⟩ := State.anResolved_standard hl hx
  refine linkDown_does hs ha hd (fun h => hr ▸ ringSpace_room h) 2 ?_
  show s.runsPort p (s.anResolved p r) = _
  rw [hu, State.anStandard, hb]
  dsimp only
  rw [hm]

/-- Extended next pages of one OUI at both ends lead to DISCOVER (R73, R74). -/
theorem clause98_discover (hs : s.steady p) (hl : (s.port p).link.state = .an) {r : AnPages} {e : ExtPage} (he : r.ext = some e) (ho : e.oui = s.oui p)
    (hx : (s.port p).link.sentOui = some e.oui) : Does (.clause98Resolved p r) s (fun t => (t.port p).link.state = .discover ∧ (t.port p).link.partnerLocon = true
      ∧ (t.port p).tow.profile = .narrowBursts ∧ (t.port p).tow.beaconSf = 7 ∧ (t.port p).tow.txCtr = 0 ∧ (t.port p).tow.partner = none) := by
  have e1 : s.anResolved p r = (s.modLink p (fun l => { l with partnerLocon := true })).enterDiscover p false := by
    unfold State.anResolved
    rw [if_neg (fun h => h hl), he]
    dsimp only
    rw [if_neg (fun h => h ho), if_pos hx]
  obtain ⟨w, h1, h2, h3, h4, hc⟩ := (s.modLink p (fun l => { l with partnerLocon := true })).enterDiscover_core p false
  rw [State.modLink_core] at hc
  refine core_does hs rfl e1 (by simp) hc fun v hv => ?_
  rw [link_of_core hv, tow_of_core hv]
  exact ⟨rfl, rfl, h1, h2, h3, h4⟩

theorem anPageTimeout_search (hs : s.steady p) (hl : (s.port p).link.state = .an) (hp : policyOf (s.policy p) = 2) (hx : s.sendsExt p = true) :
    Does (.anPageTimeout p) s (fun t => (t.port p).link.state = .discover ∧ (t.port p).tow.beaconSf = 12) := by
  have e1 : s.anTimeout p = s.enterDiscover p true := if_pos ⟨hl, hp, hx⟩
  obtain ⟨w, _, h2, _, _, hc⟩ := s.enterDiscover_core p true
  refine core_does hs rfl e1 (by simp) hc fun v hv => ?_
  rw [link_of_core hv, tow_of_core hv]
  exact ⟨rfl, h2⟩

theorem anPageTimeout_stays (hs : s.steady p) (h : policyOf (s.policy p) ≠ 2 ∨ s.sendsExt p = false) :
    Does (.anPageTimeout p) s (fun t => (t.port p).link = (s.port p).link) :=
  still_does hs rfl (if_neg (fun ⟨_, h1, h2⟩ => h.elim (· h1) (by simp [h2]))) fun _ hv => link_of_core hv

/-! ### Standard links -/

theorem stdTrainingDone_up (hs : s.steady p) {m : LineMode} (hl : (s.port p).link.state = .stdTrain) (ht : (s.port p).link.train = some m) :
    Does (.stdTrainingDone p) s (s.cameUp p m .stdUp) := by
  have e : s.stdTrained p = s.linkUp p m .stdUp := by
    unfold State.stdTrained
    rw [hl, ht]
  refine runsPort_does (t := s.stdTrained p) (by rw [e]; simp) hs rfl ?_
  rw [e]
  exact cameUp_linkUp rfl ringSpace_room m .stdUp s

theorem stdLinkFail_down (hs : s.steady p) (hl : (s.port p).link.state = .stdUp) : Does (.stdLinkFail p) s (s.fellWith p 9) :=
  linkDown_alone hs 9 (congrArg (s.runsPort p) (if_pos hl))

end

end Sys2Proof.Machine
end

section
/-! PROOFS. DISCOVER and SOUND (R75 to R79, R83, R112 to R115), and with them link start. -/

namespace Sys2Proof.Machine

section
variable {s : State} {p : Fin 16}

/-! ### DISCOVER -/

/-- A beacon sent by a command (R113). -/
theorem sendBeacon_does {c : Instr} (hs : s.steady p) {t : State} {a : Bool} (he : exec c s = s.runsPort p t) (e : t = s.sendBeacon p a) :
    Does c s (fun t => (t.port p).tow.capSeq = (s.port p).tow.capSeq + 1 ∧ (t.port p).tow.beacons = (s.port p).tow.beacons + 1
      ∧ (t.port p).tow.ackSent = ((s.port p).tow.ackSent || (s.port p).tow.partner.isSome) ∧ (t.port p).link = (s.port p).link
      ∧ (t.port p).tow.lastCell = cellBytes (s.linkKey p) (s.port p).tow.nonce (s.port p).tow.peerNonce 0 { type := 1, payload := capPayload (s.ownCap p) }) := by
  obtain ⟨_, _, _, _, hc⟩ := s.sendBeacon_core p a
  refine core_does hs he e (s.sendBeacon_around p a) hc fun v hv => ?_
  rw [tow_of_core hv, link_of_core hv]
  exact ⟨rfl, rfl, rfl, rfl, rfl⟩

theorem beaconListenEnd_moves (hs : s.steady p) (hl : (s.port p).link.state = .discover) :
    Does (.beaconListenEnd p) s (fun t => (t.port p).tow.capSeq = (s.port p).tow.capSeq + 1 ∧ (t.port p).tow.beacons = (s.port p).tow.beacons + 1
      ∧ (t.port p).tow.ackSent = ((s.port p).tow.ackSent || (s.port p).tow.partner.isSome) ∧ (t.port p).link = (s.port p).link
      ∧ (t.port p).tow.lastCell = cellBytes (s.linkKey p) (s.port p).tow.nonce (s.port p).tow.peerNonce 0 { type := 1, payload := capPayload (s.ownCap p) }) :=
  sendBeacon_does hs rfl (if_pos hl)

theorem Does.mono {c : Instr} {P Q : State → Prop} (h : Does c s P) (hPQ : ∀ t, P t → Q t) : Does c s Q := by
  obtain ⟨t, he, ht⟩ := h
  exact ⟨t, he, hPQ t ht⟩

theorem beaconAnswer_held (hs : s.steady p) (hl : (s.port p).link.state = .discover) (hp : (s.port p).tow.partner ≠ none) :
    Does (.beaconAnswer p) s (fun t => (t.port p).tow.capSeq = (s.port p).tow.capSeq + 1 ∧ (t.port p).tow.ackSent = true ∧ (t.port p).link = (s.port p).link) := by
  have hp' := Option.isSome_iff_ne_none.mpr hp
  refine (sendBeacon_does hs rfl (if_pos ⟨hp', .inl hl⟩)).mono fun t ht => ?_
  obtain ⟨h1, _, h3, h4, _⟩ := ht
  exact ⟨h1, by rw [h3, hp', Bool.or_true], h4⟩
theorem beaconAnswer_none (hs : s.steady p) (hp : (s.port p).tow.partner = none) : Does (.beaconAnswer p) s (s.still p) :=
  still_does hs rfl (if_neg (fun h => by rw [hp] at h; exact absurd h.1 (by decide))) fun _ => still_of_core

/-- What the end of DISCOVER does by policy (R83). -/
theorem State.discoverLate_eq (hl : (s.port p).link.state = .discover) {n : Nat} : policyOf (s.policy p) = n → s.discoverLate p =
    (match n with | 1 => s | 2 => (s.modTow p Towpath.fallen).enterAn p | _ => s.linkDown p 3) := by
  rintro rfl
  exact if_pos hl

theorem discoverTimeout_stays (hs : s.steady p) (hl : (s.port p).link.state = .discover) (hp : policyOf (s.policy p) = 1) :
    Does (.discoverTimeout p) s (fun t => (t.port p).link = (s.port p).link) :=
  still_does hs rfl (State.discoverLate_eq (n := 1) hl hp) fun _ hv => link_of_core hv
theorem discoverTimeout_an (hs : s.steady p) (hl : (s.port p).link.state = .discover) (hp : policyOf (s.policy p) = 2) :
    Does (.discoverTimeout p) s (fun t => (t.port p).link.state = .an ∧ (t.port p).link.pages = s.anPages p) := by
  refine core_does hs rfl (State.discoverLate_eq (n := 2) hl hp) (by simp) (State.enterAn_core ..) fun v hv => ?_
  rw [link_of_core hv]
  exact ⟨rfl, rfl⟩
theorem discoverTimeout_down (hs : s.steady p) (hl : (s.port p).link.state = .discover) (hp : policyOf (s.policy p) = 0) :
    Does (.discoverTimeout p) s (s.fellWith p 3) :=
  linkDown_alone hs 3 (congrArg (s.runsPort p) (State.discoverLate_eq (n := 0) hl hp))

/-! ### CAP cells (R75 to R79) -/

section
variable {c : CapCell} {mac : Word} {sf : Nat}

theorem cap_otherOui (hs : s.steady p) (ho : c.oui ≠ s.oui p) :
    Does (.cap p c mac sf) s (fun t => (t.port p).link = (s.port p).link ∧ (t.port p).tow = (s.port p).tow) :=
  still_does hs rfl (if_pos (.inr ho)) fun _ => still_of_core

variable (hs : s.steady p) (hl : (s.port p).link.state = .discover) (ho : c.oui = s.oui p)
include hs hl ho

theorem cap_unpaired (ha : s.capAuth p c mac = false) : Does (.cap p c mac sf) s (s.fellWith p 5) := by
  refine linkDown_alone hs 5 (congrArg (s.runsPort p) ?_)
  unfold State.takeCap
  rw [if_neg (not_or.mpr ⟨not_not.mpr hl, not_not.mpr ho⟩), ha]
  rfl

variable (ha : s.capAuth p c mac = true)
include ha

theorem cap_noCommon (hc : (commonSet (s.policy p) c c.dir.toNat).isEmpty = true) : Does (.cap p c mac sf) s (s.fellWith p 4) := by
  refine linkDown_alone hs 4 (congrArg (s.runsPort p) ?_)
  unfold State.takeCap
  rw [if_neg (not_or.mpr ⟨not_not.mpr hl, not_not.mpr ho⟩), ha, hc]
  rfl

omit hs in
/-- Past the first checks the roles decide (R75, R78). -/
theorem State.takeCap_roles (hc : (commonSet (s.policy p) c c.dir.toNat).isEmpty = false) : s.takeCap p c mac sf =
    (match resolveRole (roleOf (s.policy p)) c.role.toNat (s.port p).tow.nonce c.nonce with
    | .conflict => s.linkDown p 6
    | .tie => s.draw.2.modTow p (fun t => { t with nonce := Config.freeNonce s.draw.1 })
    | r => (((s.modTow p (fun t => { t with partner := some c, adopted := some (clampN 7 12 sf), rx := { t.rx with nonce := c.nonce } })).modLink p
        (fun l => { l with leader := decide (r = .leader), partnerLocon := true, dirPartner := c.dir })).count (portBlock p.val) 9 1).soundIfAcked p) := by
  unfold State.takeCap
  rw [if_neg (not_or.mpr ⟨not_not.mpr hl, not_not.mpr ho⟩), ha, hc]
  rfl

variable (hc : (commonSet (s.policy p) c c.dir.toNat).isEmpty = false)
include hc

theorem cap_conflict (hr : resolveRole (roleOf (s.policy p)) c.role.toNat (s.port p).tow.nonce c.nonce = .conflict) :
    Does (.cap p c mac sf) s (s.fellWith p 6) :=
  linkDown_alone hs 6 (congrArg (s.runsPort p) (by rw [State.takeCap_roles hl ho ha hc, hr]))

theorem cap_tie (hr : resolveRole (roleOf (s.policy p)) c.role.toNat (s.port p).tow.nonce c.nonce = .tie) :
    Does (.cap p c mac sf) s (fun t => (t.port p).link = (s.port p).link ∧ (t.port p).tow.partner = (s.port p).tow.partner) := by
  have e := State.takeCap_roles (mac := mac) (sf := sf) hl ho ha hc
  rw [hr] at e
  refine core_does hs rfl e (by simp) (State.modTow_core ..) fun v hv => ?_
  rw [link_of_core hv, tow_of_core hv]
  exact ⟨rfl, rfl⟩

/-- A valid cell is held with its SF, nonce and roles; SOUND follows where it carries ACK (R79, R114). -/
theorem cap_held {r : RoleResult} (hr : resolveRole (roleOf (s.policy p)) c.role.toNat (s.port p).tow.nonce c.nonce = r) (h : r = .leader ∨ r = .follower) :
    Does (.cap p c mac sf) s (fun t => (t.port p).tow.partner = some c ∧ (t.port p).tow.adopted = some (clampN 7 12 sf) ∧ (t.port p).tow.rx.nonce = c.nonce
      ∧ (t.port p).link.leader = decide (r = .leader) ∧ (t.port p).link.dirPartner = c.dir ∧ (t.port p).link.state = if c.ack then .sound else .discover) := by
  generalize hu : ((s.modTow p (fun t => { t with partner := some c, adopted := some (clampN 7 12 sf), rx := { t.rx with nonce := c.nonce } })).modLink p
    (fun l => { l with leader := decide (r = .leader), partnerLocon := true, dirPartner := c.dir })).count (portBlock p.val) 9 1 = u
  have e : s.takeCap p c mac sf = u.soundIfAcked p := by
    rw [State.takeCap_roles hl ho ha hc, hr, ← hu]
    rcases h with rfl | rfl <;> rfl
  have hk := congrArg (State.core · p) hu.symm
  simp only [State.count_core, State.modLink_core, State.modTow_core] at hk
  have hua : u.around p = s.around p := by rw [← hu]; simp
  have e2 : u.soundIfAcked p = if c.ack then u.enterSound p (decide (r = .leader)) else u := by
    unfold State.soundIfAcked
    rw [tow_of_core hk, link_of_core hk]
  cases hack : c.ack with
  | true =>
    obtain ⟨n, w, h1, h2, h3, hw⟩ := u.enterSound_core p (decide (r = .leader))
    refine core_does hs rfl (e.trans (e2.trans (if_pos hack))) ((State.enterSound_around _ p _).trans hua) hw fun v hv => ?_
    rw [link_of_core hv, tow_of_core hv]
    rw [hk] at h1 h2 h3 ⊢
    exact ⟨h1, h2, congrArg RxCtr.nonce h3, rfl, rfl, rfl⟩
  | false =>
    refine core_does hs rfl (e.trans (e2.trans (if_neg (by rw [hack]; nofun)))) hua hk fun v hv => ?_
    rw [link_of_core hv, tow_of_core hv]
    exact ⟨rfl, rfl, rfl, rfl, rfl, hl⟩

end

/-! ### SOUND (R79, R83, R115) -/

theorem State.txResume_ring (s : State) (p : Fin 16) : (s.txResume p).ring = s.ring := by
  unfold State.txResume
  (repeat' split) <;> rfl
theorem State.runDue_ring (s : State) (p : Fin 16) : (s.runDue p).ring = s.ring := by
  unfold State.runDue State.narrowRun
  exact ite_keep State.ring (State.txResume_ring _ p) rfl

/-- What a fall says of the link record stands when other fields of it change. -/
theorem fellWith_modLink {t old : State} {c : Nat} (h : s.fellWith p c (settle old t)) {f : Link → Link}
    (hf : ∀ l, (f l).state = l.state ∧ (f l).downCause = l.downCause ∧ (f l).modeAct = l.modeAct ∧ (f l).downs16 = l.downs16 ∧ (f l).holdTime = l.holdTime) :
    s.fellWith p c (settle old (t.modLink p f)) := by
  obtain ⟨e1, e2, e3, e4, e5⟩ := hf (t.port p).link
  unfold State.fellWith at h ⊢
  simp only [settle_port_link, settle_port_tow] at h ⊢
  obtain ⟨h1, h2, h3, h4, h5, h6, h7, h8⟩ := h
  rw [State.port_modLink, e1, e2, e3, e4, e5]
  refine ⟨h1, h2, h3, h4, h5, h6, fun h => noted_ring (h7 h) (by rw [settle_ring, settle_ring]; rfl), fun q hq => ?_⟩
  rw [around_link (t.modLink_around p f) hq]
  exact h8 q hq

theorem State.announceMode_some (u : State) {m : LineMode} {f : Bool} (hm : u.choose p = (some m, f)) : u.announceMode p =
    (u.modLink p (fun l => { l with train := some m, forceFail := f, forceOff := f })).queueCell p 2 (modePayload (u.modeCell p m)) := by
  unfold State.announceMode
  rw [hm]
theorem State.announceMode_none (u : State) {f : Bool} (hm : u.choose p = (none, f)) :
    u.announceMode p = (u.linkDown p 7).modLink p (fun l => { l with excluded := [], lastFail := none }) := by
  unfold State.announceMode
  rw [hm]

section
variable (hs : s.steady p) (hl : (s.port p).link.state = .sound)
include hs hl

omit hs in
/-- A burst taken in SOUND is measured (R115, R116). -/
theorem State.takeBurst_sound (x : Sounding) (snr : Nat) {v : State} (hv : v = (s.newSounding p x).modTow p (fun w => { w with soundGot := true, snrDb10 := min 600 snr })) :
    s.takeBurst p x snr = if (s.port p).link.leader then (if (s.port p).link.train.isNone then (v.runDue p).announceMode p else v) else v.sendSounding p := by
  have h0 : ¬((s.port p).link.state = .discover ∧ (s.port p).tow.ackSent = true ∧ (s.port p).tow.partner.isSome = true) := fun h => by
    rw [hl] at h
    exact absurd h.1 (by decide)
  have hc := (congrArg (State.core · p) hv).trans (State.modTow_core ..)
  have hk : (v.port p).link = (s.port p).link := by
    rw [link_of_core hc, State.newSounding_core]
    rfl
  unfold State.takeBurst
  dsimp only
  rw [if_neg h0, if_neg (not_not.mpr hl), ← hv, hk]

theorem soundingBurst_follower (x : Sounding) (snr : Nat) (hf : (s.port p).link.leader = false) :
    Does (.soundingBurst p x snr) s (fun t => (t.port p).tow.snd = some x ∧ (t.port p).tow.sndSeq = (s.port p).tow.sndSeq + 1
      ∧ (t.port p).tow.soundGot = true ∧ (t.port p).tow.soundSent = true ∧ (t.port p).tow.snrDb10 = min 600 snr) := by
  have e := State.takeBurst_sound hl x snr rfl
  rw [if_neg (by rw [hf]; nofun)] at e
  refine core_does hs rfl e (by simp) (State.sendSounding_core ..) fun v hv => ?_
  rw [tow_of_core hv, State.modTow_core, State.newSounding_core]
  exact ⟨rfl, rfl, rfl, rfl, rfl⟩

section
variable {x : Sounding} {snr : Nat} {u : State} (hd : (s.port p).link.leader = true) (ht : (s.port p).link.train = none)
  (hu : u = ((s.newSounding p x).modTow p (fun w => { w with soundGot := true, snrDb10 := min 600 snr })).runDue p)
include hd ht hu

omit hs in
/-- The leader measures the burst, begins its run where that is due, and announces its choice. -/
theorem soundingBurst_announces : s.takeBurst p x snr = u.announceMode p := by
  rw [State.takeBurst_sound hl x snr rfl, if_pos hd, if_pos (by rw [ht]; rfl), hu]

omit hs hl hd ht in
theorem soundingBurst_core : ∃ pr f n ch, u.core p = { s.core p with tow := { (s.core p).tow with
    snd := some x, sndSeq := (s.core p).tow.sndSeq + 1, soundGot := true, snrDb10 := min 600 snr, profile := pr, sf := f, symCount := n, chirps := ch } } := by
  obtain ⟨pr, f, n, ch, e⟩ := State.runDue_core ((s.newSounding p x).modTow p (fun w => { w with soundGot := true, snrDb10 := min 600 snr })) p
  rw [State.modTow_core, State.newSounding_core, ← hu] at e
  exact ⟨pr, f, n, ch, e⟩
omit hs hl hd ht in
theorem soundingBurst_around : u.around p = s.around p := by rw [hu]; simp

theorem soundingBurst_leader {m : LineMode} {f : Bool} (hm : u.choose p = (some m, f)) :
    Does (.soundingBurst p x snr) s (fun t => (t.port p).tow.snd = some x ∧ (t.port p).link.train = some m ∧ (t.port p).link.forceFail = f ∧ (t.port p).link.forceOff = f
      ∧ (t.port p).tow.ready = (s.port p).tow.ready ++ [⟨2, 0, modePayload (u.modeCell p m)⟩]) := by
  obtain ⟨pr, g, n, ch, hk⟩ := soundingBurst_core hu
  refine core_does hs rfl ((soundingBurst_announces hl hd ht hu).trans (State.announceMode_some u hm)) (by simpa using soundingBurst_around hu)
    (State.queueCell_core ..) fun v hv => ?_
  rw [tow_of_core hv, link_of_core hv, State.modLink_core, hk]
  exact ⟨rfl, rfl, rfl, rfl, rfl⟩

theorem soundingBurst_noMode {f : Bool} (hm : u.choose p = (none, f)) :
    Does (.soundingBurst p x snr) s (fun t => s.fellWith p 7 t ∧ (t.port p).link.excluded = []) := by
  obtain ⟨pr, g, n, ch, hk⟩ := soundingBurst_core hu
  have ha := soundingBurst_around hu
  have hr : u.ring = s.ring := by
    rw [hu, State.runDue_ring]
    rfl
  have hd2 : (u.port p).link.downs16 = (s.port p).link.downs16 := by rw [link_of_core hk]; rfl
  have hf := fellWith_linkDown ha hd2 (fun h => hr ▸ ringSpace_room h) 7 s
  refine runsPort_does (by simpa using ha) hs (congrArg (s.runsPort p) ((soundingBurst_announces hl hd ht hu).trans (State.announceMode_none u hm)))
    ⟨fellWith_modLink hf fun l => ⟨rfl, rfl, rfl, rfl, rfl⟩, ?_⟩
  rw [settle_port_link, State.port_modLink]

end

omit hs in
theorem State.burstMissing_eq : s.burstMissing p = if (s.port p).tow.soundMiss = 0 then
    (if (s.port p).link.leader then (s.modTow p (fun t => { t with soundMiss := 1 })).sendSounding p else s.modTow p (fun t => { t with soundMiss := 1 }))
    else s.linkDown p 7 := if_neg (not_not.mpr hl)

theorem soundingBurstMissing_once (hm : (s.port p).tow.soundMiss = 0) :
    Does (.soundingBurstMissing p) s (fun t => (t.port p).tow.soundMiss = 1 ∧ (t.port p).link = (s.port p).link) := by
  have e : s.burstMissing p = _ := (State.burstMissing_eq hl).trans (if_pos hm)
  cases hd : (s.port p).link.leader with
  | true =>
    refine core_does hs rfl (e.trans (if_pos hd)) (by simp) (State.sendSounding_core ..) fun v hv => ?_
    rw [tow_of_core hv, link_of_core hv, State.modTow_core]
    exact ⟨rfl, rfl⟩
  | false =>
    refine core_does hs rfl (e.trans (if_neg (by rw [hd]; nofun))) (by simp) (State.modTow_core ..) fun v hv => ?_
    rw [tow_of_core hv, link_of_core hv]
    exact ⟨rfl, rfl⟩
theorem soundingBurstMissing_again (hm : (s.port p).tow.soundMiss ≠ 0) : Does (.soundingBurstMissing p) s (s.fellWith p 7) :=
  linkDown_alone hs 7 (congrArg (s.runsPort p) ((State.burstMissing_eq hl).trans (if_neg hm)))
theorem soundTimeout_down : Does (.soundTimeout p) s (s.fellWith p 7) := linkDown_alone hs 7 (congrArg (s.runsPort p) (if_pos hl))

end

end

/-- Settles O44, clause by clause: each event's effect is one operation on the port, which leaves its surroundings. -/
theorem linkStart : Obligations.LinkStart := by
  intro s p hs
  refine ⟨fun hl => ⟨fun r hx => ⟨fun m hm => clause98_standard hs hl hx hm, fun hm => clause98_fault hs hl hx hm⟩,
      fun r e he ho hx => clause98_discover hs hl he ho hx, fun hp hx => anPageTimeout_search hs hl hp hx⟩,
    fun h => anPageTimeout_stays hs h, fun m hl ht => stdTrainingDone_up hs hl ht, fun hl => stdLinkFail_down hs hl,
    fun hl => ⟨beaconListenEnd_moves hs hl, beaconAnswer_held hs hl, beaconAnswer_none hs, discoverTimeout_stays hs hl, discoverTimeout_an hs hl,
      discoverTimeout_down hs hl, fun c mac sf ho => ⟨cap_unpaired hs hl ho, cap_noCommon hs hl ho,
        fun ha hc => ⟨cap_conflict hs hl ho ha hc, cap_tie hs hl ho ha hc, fun r hr h => cap_held hs hl ho ha hc hr h⟩⟩⟩,
    fun c mac sf ho => cap_otherOui hs ho, fun hl => ⟨fun x snr hf => soundingBurst_follower hs hl x snr hf, fun x snr u hd ht hu =>
      ⟨fun m f hm => soundingBurst_leader hs hl hd ht hu hm, fun f hm => soundingBurst_noMode hs hl hd ht hu hm⟩,
      soundingBurstMissing_once hs hl, soundingBurstMissing_again hs hl, soundTimeout_down hs hl⟩⟩

end Sys2Proof.Machine
end

section
/-! PROOFS. Cells that act at their receiver (R104, R107), and the transmit path under the operations of training (R80, R81, R124,
R126). -/

namespace Sys2Proof.Machine

section
variable (s : State) (p : Fin 16)

/-! ### A cell that acts -/

/-- The state in which a cell that acts takes effect: its counter recorded, its CACK ready. -/
def State.heardCell (h : CellHdr) (n : Nat) : State := (s.takeCell p h).2.2.ackCell p (s.takeCell p h).2.1 n

/-- The record of a cell taken changes receive counters alone of its port. -/
theorem State.takeCell_port (h : CellHdr) : ∃ a b, (s.takeCell p h).2.2.port p = { s.port p with tow := { (s.port p).tow with rx := a, rxOld := b } } := by
  unfold State.takeCell
  dsimp only
  split
  · exact ⟨(s.port p).tow.rx, _, by rw [State.count_port, State.port_modTow]⟩
  · exact ⟨_, (s.port p).tow.rxOld, by rw [State.count_port, State.port_modTow]⟩
theorem State.takeCell_ring (h : CellHdr) : (s.takeCell p h).2.2.ring = s.ring := by
  unfold State.takeCell
  dsimp only
  split <;> exact State.count_ring _ _ _ _
theorem State.takeCell_core (h : CellHdr) : ∃ a b, (s.takeCell p h).2.2.core p = { s.core p with tow := { (s.core p).tow with rx := a, rxOld := b } } := by
  obtain ⟨a, b, e⟩ := s.takeCell_port p h
  exact ⟨a, b, by unfold State.core; rw [e]⟩

theorem State.heardCell_port (h : CellHdr) (n : Nat) : ∃ a b, (s.heardCell p h n).port p = { s.port p with tow := { (s.port p).tow with
    rx := a, rxOld := b, ready := (s.port p).tow.ready ++ [⟨6, 0, cackPayload (s.takeCell p h).2.1 (BitVec.ofNat 8 n)⟩] } } := by
  obtain ⟨a, b, e⟩ := s.takeCell_port p h
  exact ⟨a, b, by unfold State.heardCell State.ackCell State.queueCell; rw [State.port_modTow, e]; rfl⟩
theorem State.heardCell_core (h : CellHdr) (n : Nat) : ∃ a b, (s.heardCell p h n).core p = { s.core p with tow := { (s.core p).tow with
    rx := a, rxOld := b, ready := (s.core p).tow.ready ++ [⟨6, 0, cackPayload (s.takeCell p h).2.1 (BitVec.ofNat 8 n)⟩] } } := by
  obtain ⟨a, b, e⟩ := s.heardCell_port p h n
  exact ⟨a, b, by unfold State.core; rw [e]⟩
@[simp] theorem State.heardCell_around (h : CellHdr) (n : Nat) : (s.heardCell p h n).around p = s.around p := by simp [State.heardCell]
theorem State.heardCell_ring (h : CellHdr) (n : Nat) : (s.heardCell p h n).ring = s.ring := s.takeCell_ring p h

variable {s p}

/-- A cell that its receiver may decline acts where it takes it, and is recorded otherwise (R107). -/
theorem State.withCellIf_eq {h : CellHdr} (ha : s.actsOn p h) (n : Nat) (ok : Bool) (act : State → State) : s.withCellIf p h n ok act =
    if ok then act (s.heardCell p h n) else (s.takeCell p h).2.2.modRecord p h (fun r => r.decline (s.takeCell p h).2.1) := by
  have h1 := ha.2
  unfold State.withCellIf State.heardCell
  generalize s.takeCell p h = x at h1 ⊢
  obtain ⟨k, v, u⟩ := x
  cases h1
  rfl
theorem State.withCellIf_acts {h : CellHdr} (ha : s.actsOn p h) (n : Nat) (act : State → State) {ok : Bool} (hk : ok = true) :
    s.withCellIf p h n ok act = act (s.heardCell p h n) := (State.withCellIf_eq ha n ok act).trans (if_pos hk)
theorem State.withCellIf_declines {h : CellHdr} (ha : s.actsOn p h) (n : Nat) (act : State → State) {ok : Bool} (hk : ok = false) :
    s.withCellIf p h n ok act = (s.takeCell p h).2.2.modRecord p h (fun r => r.decline (s.takeCell p h).2.1) :=
  (State.withCellIf_eq ha n ok act).trans (if_neg (by rw [hk]; nofun))

/-- A cell that its receiver declines is recorded and no more (R107). -/
theorem State.declined_port (h : CellHdr) (f : RxCtr → RxCtr) : ∃ a b, ((s.takeCell p h).2.2.modRecord p h f).port p =
    { s.port p with tow := { (s.port p).tow with rx := a, rxOld := b } } := by
  obtain ⟨a, b, e⟩ := s.takeCell_port p h
  unfold State.modRecord
  rw [State.port_modTow, e]
  split
  · exact ⟨a, _, rfl⟩
  · exact ⟨_, b, rfl⟩
theorem declines_does {c : Instr} (hs : s.steady p) {h : CellHdr} (ha : s.actsOn p h) {t : State} (he : exec c s = s.runsPort p t)
    {n : Nat} {act : State → State} {ok : Bool} (e : t = s.withCellIf p h n ok act) (hk : ok = false) :
    Does c s (fun t => s.declines p h t ∧ (t.port p).tx = (s.port p).tx) := by
  subst e
  obtain ⟨a, b, e⟩ := s.declined_port (p := p) h (fun r => r.decline (s.takeCell p h).2.1)
  refine runsPort_does (by rw [State.withCellIf_declines ha n act hk]; simp) hs he ?_
  rw [State.withCellIf_declines ha n act hk]
  refine ⟨⟨?_, settle_port_tow _ _ p⟩, ?_⟩
  · rw [settle_port_link, e]
  · rw [settle_port_tx, e]

end

/-! ### The transmit path -/

/-- The transmit path of a port. -/
def State.txp (s : State) (p : Fin 16) : TxPath := (s.port p).tx

section
variable (s : State) (p : Fin 16)

@[simp] theorem settle_txp (old : State) : (settle old s).txp p = s.txp p := settle_port_tx old s p
@[simp] theorem State.modLink_txp (f : Link → Link) : (s.modLink p f).txp p = s.txp p := by unfold State.txp; rw [State.port_modLink]
@[simp] theorem State.modTow_txp (f : Towpath → Towpath) : (s.modTow p f).txp p = s.txp p := by unfold State.txp; rw [State.port_modTow]
@[simp] theorem State.modRx_txp (f : RxPath → RxPath) : (s.modRx p f).txp p = s.txp p := by unfold State.txp; rw [State.port_modRx]
@[simp] theorem State.modDmt_txp (f : Dmt → Dmt) : (s.modDmt p f).txp p = s.txp p := by unfold State.txp; rw [State.port_modDmt]
@[simp] theorem State.modTx_txp (f : TxPath → TxPath) : (s.modTx p f).txp p = f (s.txp p) := by unfold State.txp; rw [State.port_modTx]
@[simp] theorem State.goLink_txp (f : Link → Link) : (s.goLink p f).txp p = s.txp p :=
  (mask_tx (s.goLink_mask p f)).trans rfl
@[simp] theorem State.lineSync_txp (q : Fin 16) : (s.lineSync q).txp p = s.txp p := by unfold State.txp; rw [State.lineSync_port]
@[simp] theorem State.draw_txp : s.draw.2.txp p = s.txp p := rfl
@[simp] theorem State.modReach_txp (r : Fin 4) (f : Reach → Reach) : (s.modReach r f).txp p = s.txp p := rfl
@[simp] theorem State.rxEnter_txp (m : LineMode) (b : Bool) : (s.rxEnter p m b).txp p = s.txp p := by simp [State.rxEnter]
@[simp] theorem State.adaptRx_txp (m : LineMode) : (s.adaptRx p m).txp p = s.txp p := by simp [State.adaptRx]

/-- A ramp leaves the precoder as it is. -/
theorem TxPath.ramped_precode (t : TxPath) (u : Bool) (n : Nat) (r : Ramp) : (t.ramped u n r).precode = t.precode := by
  unfold TxPath.ramped
  (repeat' split) <;> rfl
@[simp] theorem State.txStop_precode : ((s.txStop p).txp p).precode = (s.txp p).precode := by
  unfold State.txStop State.ramp
  rw [State.modTx_txp, TxPath.ramped_precode]
@[simp] theorem State.modeSettings_precode (m : LineMode) (a b : Bool) : ((s.modeSettings p m a b).txp p).precode = precodeAct m a (fwdOut (s.policy p)) := by
  simp [State.modeSettings, State.setSwing]

/-- What the beginning of blocks makes of the transmit path (R123, R126): the precoder memory at 0, the seeds by role. -/
theorem State.beginBlocks_txp (m : LineMode) (n : Nat) : ((s.beginBlocks p m n).txp p).memory = 0 ∧ ((s.beginBlocks p m n).txp p).train = (s.txp p).train
    ∧ (m ≠ .lchirp → ((s.beginBlocks p m n).txp p).scr = (if (s.port p).link.leader then (s.txp p).seedL else (s.txp p).seedF)
      ∧ ((s.beginBlocks p m n).txp p).descr = (if (s.port p).link.leader then (s.txp p).seedF else (s.txp p).seedL)) := by
  have h : (if m == .lchirp then s else s.adaptRx p m).txp p = s.txp p := ite_keep (State.txp · p) rfl (s.adaptRx_txp p m)
  unfold State.beginBlocks
  dsimp only
  rw [State.lineSync_txp]
  unfold State.txp at h ⊢
  rw [State.port_modPort_same]
  dsimp only
  rw [h]
  exact ⟨rfl, rfl, fun hm => ⟨by rw [if_neg (by simpa using hm)], by rw [if_neg (by simpa using hm)]⟩⟩

end

end Sys2Proof.Machine
end

section
/-! PROOFS. Training (R66, R73, R79 to R81, R83, R105, R106, R118, R126): MODE and GO cells, the turns of ECHO_LEARN, FULL_DUPLEX and
what ends a training. -/

namespace Sys2Proof.Machine

section
variable {s : State} {p : Fin 16}

/-! ### MODE cells -/

/-- FORCE_FAIL and its reason, of a follower's own request, are all that a MODE cell changes before the training. -/
theorem State.forcedBy_core (u : State) (p : Fin 16) (m : LineMode) : ∃ a b, (u.forcedBy p m).core p =
    { u.core p with link := { (u.core p).link with forceFail := a, forceOff := b } } := by
  unfold State.forcedBy
  split
  · split
    · exact ⟨_, _, u.modLink_core p _⟩
    · exact ⟨_, _, rfl⟩
  · exact ⟨_, _, rfl⟩
@[simp] theorem State.forcedBy_around (u : State) (p : Fin 16) (m : LineMode) : (u.forcedBy p m).around p = u.around p := by
  unfold State.forcedBy
  (repeat' split) <;> simp
theorem State.forcedBy_ring (u : State) (p : Fin 16) (m : LineMode) : (u.forcedBy p m).ring = u.ring := by
  unfold State.forcedBy
  (repeat' split) <;> rfl

/-- A training's own settings (R101, R124, R137): its record and the line settings of its mode, before any transmission. -/
def State.trainSet (u : State) (p : Fin 16) (m : LineMode) (c : ModeCell) : State :=
  ((u.modLink p (fun l => { l with precode := c.precode, mayspread := c.followerMay, train := some m, echoTurns := 0 })).modTow p
    (fun t => { t with wideSf := clampN 11 12 c.wideSf.toNat, farSpread := !(u.port p).link.leader && c.leaderSpread })).modeSettings p m c.precode
      (u.ownSpread p (u.port p).link.leader c.followerMay)

/-- The settings with the wide run begun at the training level, in ECHO_LEARN (R80, R81, R89). -/
def State.trainWide (u : State) (p : Fin 16) (m : LineMode) (c : ModeCell) : State :=
  ((((((u.trainSet p m c).txStop p).modTow p (fun t => { t.wide (clampN 11 12 c.wideSf.toNat) with level := 24 })).rxEnter p m false).goLink p
    (fun l => { l with state := .echoLearn })).modDmt p (fun d => { d with sent := none, got := none, validGot := false, forced := [] }))

section
variable (u : State) (p : Fin 16) {m : LineMode} (c : ModeCell)

theorem State.enterTraining_lchirp : u.enterTraining p .lchirp c =
    (((((u.trainSet p .lchirp c).txStop p).modTow p (fun t => { t with sf := clampN 7 12 c.lchirpSf.toNat })).linkUp p .lchirp .loconUp).narrowRun p
      (clampN 7 12 c.lchirpSf.toNat)).beginBlocks p .lchirp u.ticks := by
  unfold State.enterTraining State.trainSet
  dsimp only
  rw [if_pos (show (LineMode.lchirp == LineMode.lchirp) = true from rfl)]
theorem State.enterTraining_wide (hm : m ≠ .lchirp) : u.enterTraining p m c =
    if (u.port p).link.leader then ((u.trainWide p m c).trainStart p false).txResume p else u.trainWide p m c := by
  unfold State.enterTraining State.trainWide State.trainSet
  dsimp only
  rw [if_neg (show ¬ (m == LineMode.lchirp) = true by simpa using hm)]

@[simp] theorem State.trainSet_around : (u.trainSet p m c).around p = u.around p := by simp [State.trainSet]
@[simp] theorem State.trainSet_core : (u.trainSet p m c).core p = { u.core p with
    link := { (u.core p).link with precode := c.precode, mayspread := c.followerMay, train := some m, echoTurns := 0 }
    tow := { (u.core p).tow with wideSf := clampN 11 12 c.wideSf.toNat, farSpread := !(u.core p).link.leader && c.leaderSpread } } := by
  rw [State.trainSet, State.modeSettings_core, State.modTow_core, State.modLink_core]
  rfl
@[simp] theorem State.trainWide_core : (u.trainWide p m c).core p = { u.core p with
    link := { (u.core p).link with precode := c.precode, mayspread := c.followerMay, train := some m, echoTurns := 0, state := .echoLearn }
    tow := { ({ (u.core p).tow with wideSf := clampN 11 12 c.wideSf.toNat, farSpread := !(u.core p).link.leader && c.leaderSpread } : Towpath).wide
      (clampN 11 12 c.wideSf.toNat) with level := 24 } } := by
  rw [State.trainWide, State.modDmt_core, State.goLink_core, State.rxEnter_core, State.modTow_core, State.txStop_core, State.trainSet_core]
theorem State.enterTraining_wide_core (hm : m ≠ .lchirp) : (u.enterTraining p m c).core p = (u.trainWide p m c).core p := by
  rw [State.enterTraining_wide u p c hm]
  exact ite_keep (State.core · p) (by simp) rfl
theorem State.trainWide_precode : ((u.trainWide p m c).txp p).precode = precodeAct m c.precode (fwdOut (u.policy p)) := by
  rw [State.trainWide, State.modDmt_txp, State.goLink_txp, State.rxEnter_txp, State.modTow_txp, State.txStop_precode, State.trainSet, State.modeSettings_precode,
    around_policy ((State.modTow_around _ p _).trans (u.modLink_around p _))]
theorem State.enterTraining_precode (hm : m ≠ .lchirp) (hd : (u.port p).link.leader = false) :
    ((u.enterTraining p m c).txp p).precode = precodeAct m c.precode (fwdOut (u.policy p)) := by
  rw [State.enterTraining_wide u p c hm, if_neg (by rw [hd]; nofun), State.trainWide_precode]
theorem State.narrowRun_ring (f : Nat) : (u.narrowRun p f).ring = u.ring := State.txResume_ring _ p
theorem State.beginBlocks_heard (n : Nat) : u.ring.heard 2 (u.beginBlocks p m n).ring := by
  have h : (if m == .lchirp then u else u.adaptRx p m).ring = u.ring := ite_keep State.ring rfl rfl
  unfold State.beginBlocks
  dsimp only
  exact heard_lineSync_of p h

/-- A training in LCHIRP brings the link up on its narrow run with blocks on (R118). -/
theorem State.enterTraining_lchirp_core : (u.enterTraining p .lchirp c).core p = { u.core p with
    link := { (u.core p).link with precode := c.precode, mayspread := c.followerMay, train := none, echoTurns := 0, state := .loconUp, modeAct := some .lchirp
                                   lastFail := none, upTick := some u.ticks, ladder := {}, blocksOn := true, blocksTick := u.ticks }
    tow := { (u.core p).tow with wideSf := clampN 11 12 c.wideSf.toNat, farSpread := !(u.core p).link.leader && c.leaderSpread, profile := .narrowRun
                                 sf := clampN 7 12 c.lchirpSf.toNat, symCount := 0, chirps := startMarker .run (clampN 7 12 c.lchirpSf.toNat) }
    snd := { (u.core p).snd with synced := false }, rcv := { (u.core p).rcv with highest := none } } := by
  rw [State.enterTraining_lchirp, State.beginBlocks_core, State.narrowRun_core, State.linkUp_core, State.modTow_core, State.txStop_core, State.trainSet_core]
  have ht (v : State) (h : v.around p = u.around p) : v.ticks = u.ticks := far_ticks (around_far h)
  rw [ht _ (by simp)]
theorem State.enterTraining_lchirp_noted (h : u.ring.untaken.length < 244) :
    (u.enterTraining p .lchirp c).noted 0x0010 p.val (wd (modeCode .lchirp)) := by
  rw [State.enterTraining_lchirp]
  refine noted_heard (noted_ring (State.linkUp_noted _ p .lchirp .loconUp ?_) (State.narrowRun_ring _ p _)) (State.beginBlocks_heard _ p _)
  exact h

end

theorem State.takeMode_eq {c : ModeCell} {m : LineMode} (h : CellHdr) (hm : modeOf c.code.toNat = some m) : s.takeMode p h c =
    s.withCellIf p h 2 ((s.port p).link.state == .sound && !(s.port p).link.leader && isLocon m) (fun t => (t.forcedBy p m).enterTraining p m c) := by
  unfold State.takeMode
  rw [hm]

section
variable {h : CellHdr} {c : ModeCell} {m : LineMode} (hs : s.steady p) (ha : s.actsOn p h) (hm : modeOf c.code.toNat = some m)
include hs ha hm

theorem mode_declined (hx : (s.port p).link.state ≠ .sound ∨ (s.port p).link.leader = true ∨ isLocon m = false) : Does (.mode p h c) s (s.declines p h) := by
  refine (declines_does hs ha rfl (State.takeMode_eq h hm) ?_).mono fun t ht => ht.1
  rcases hx with hx | hx | hx
  · simp [hx]
  · simp [hx]
  · simp [hx]

variable (hl : (s.port p).link.state = .sound) (hd : (s.port p).link.leader = false) (hi : isLocon m = true)
include hl hd hi

omit hs in
/-- A follower in SOUND takes the cell (R79, R105). -/
theorem mode_taken : s.takeMode p h c = ((s.heardCell p h 2).forcedBy p m).enterTraining p m c :=
  (State.takeMode_eq h hm).trans (State.withCellIf_acts ha 2 _ (by rw [hl, hd, hi]; rfl))
omit hs ha hm hl hd hi in
theorem mode_core (h : CellHdr) (m : LineMode) : ∃ x y a b, ((s.heardCell p h 2).forcedBy p m).core p = { s.core p with
    link := { (s.core p).link with forceFail := a, forceOff := b }
    tow := { (s.core p).tow with rx := x, rxOld := y, ready := (s.core p).tow.ready ++ [⟨6, 0, cackPayload (s.takeCell p h).2.1 2⟩] } } := by
  obtain ⟨x, y, e⟩ := s.heardCell_core p h 2
  obtain ⟨a, b, e2⟩ := (s.heardCell p h 2).forcedBy_core p m
  rw [e] at e2
  exact ⟨x, y, a, b, e2⟩

theorem mode_lchirp (hc : m = .lchirp) : Does (.mode p h c) s (fun t => s.cameUp p .lchirp .loconUp t ∧ (t.port p).tow.profile = .narrowRun
    ∧ (t.port p).tow.sf = clampN 7 12 c.lchirpSf.toNat ∧ (t.port p).link.blocksOn = true ∧ s.acked p h 2 [] t) := by
  subst hc
  obtain ⟨x, y, a, b, e⟩ := mode_core (s := s) (p := p) h .lchirp
  generalize hu : (s.heardCell p h 2).forcedBy p .lchirp = u at e
  have hua : u.around p = s.around p := by rw [← hu]; simp
  have hur : u.ring = s.ring := by rw [← hu, State.forcedBy_ring, State.heardCell_ring]
  have hk := u.enterTraining_lchirp_core p c
  rw [e] at hk
  refine runsPort_does ((u.enterTraining_around p .lchirp c).trans hua) hs
    (congrArg (s.runsPort p) ((mode_taken ha hm hl hd hi).trans (by rw [hu]))) ?_
  have hv := (settle_core _ p s).trans hk
  unfold State.cameUp State.acked
  rw [link_of_core hv, tow_of_core hv]
  refine ⟨⟨rfl, rfl, rfl, congrArg some (far_ticks (around_far hua)), fun hr => noted_ring (u.enterTraining_lchirp_noted p c ?_) (settle_ring _ _), fun q hq => ?_⟩,
    rfl, rfl, rfl, rfl⟩
  · rw [hur]
    exact ringSpace_room hr
  · rw [settle_port_link, around_link ((u.enterTraining_around p .lchirp c).trans hua) hq]

theorem mode_wide (hc : m ≠ .lchirp) : Does (.mode p h c) s (fun t => (t.port p).link.state = .echoLearn ∧ (t.port p).link.train = some m ∧ (t.port p).link.echoTurns = 0
    ∧ (t.port p).tow.profile = .wideRun ∧ (t.port p).tow.sf = clampN 11 12 c.wideSf.toNat ∧ (t.port p).tow.level = 24
    ∧ (t.port p).tx.precode = precodeAct m c.precode (fwdOut (s.policy p)) ∧ s.acked p h 2 [] t) := by
  obtain ⟨x, y, a, b, e⟩ := mode_core (s := s) (p := p) h m
  generalize hu : (s.heardCell p h 2).forcedBy p m = u at e
  have hua : u.around p = s.around p := by rw [← hu]; simp
  have hk := (u.enterTraining_wide_core p c hc).trans (u.trainWide_core p c)
  rw [e] at hk
  have hp := u.enterTraining_precode p c hc (by rw [link_of_core e]; exact hd)
  rw [around_policy hua] at hp
  refine runsPort_does ((u.enterTraining_around p m c).trans hua) hs (congrArg (s.runsPort p) ((mode_taken ha hm hl hd hi).trans (by rw [hu]))) ?_
  have hv := (settle_core _ p s).trans hk
  unfold State.acked
  rw [link_of_core hv, tow_of_core hv, settle_port_tx]
  exact ⟨rfl, rfl, rfl, rfl, rfl, rfl, hp, rfl⟩

end

end

end Sys2Proof.Machine
end

section
/-! PROOFS. The turns of a training and its ends (R81, R83, R89, R106, R126), and with them O45. -/

namespace Sys2Proof.Machine

section
variable {s : State} {p : Fin 16}

/-! ### ECHO_LEARN and FULL_DUPLEX (R81) -/

section
variable (hs : s.steady p) (hl : (s.port p).link.state = .echoLearn)
include hs hl

theorem echoLearnPhaseEnd_first (h0 : (s.port p).link.echoTurns = 0) :
    Does (.echoLearnPhaseEnd p) s (fun t => (t.port p).link.state = .echoLearn ∧ (t.port p).link.echoTurns = 1) := by
  have e : s.echoTurn p = if (s.port p).link.leader then ((s.modLink p (fun l => { l with echoTurns := 1 })).txStop p).modTx p (fun t => { t with train := none })
      else ((s.modLink p (fun l => { l with echoTurns := 1 })).trainStart p false).txResume p := by
    unfold State.echoTurn
    dsimp only
    rw [if_neg (not_not.mpr hl), if_pos h0]
  refine core_does hs rfl e (ite_keep (State.around · p) (by simp) (by simp)) (ite_keep (State.core · p) (by rw [State.modTx_core, State.txStop_core])
    (by rw [State.txResume_core, State.trainStart_core])) fun v hv => ?_
  rw [link_of_core hv, State.modLink_core]
  exact ⟨hl, rfl⟩
theorem echoLearnPhaseEnd_second (h0 : (s.port p).link.echoTurns ≠ 0) :
    Does (.echoLearnPhaseEnd p) s (fun t => (t.port p).link.state = .fullDuplex ∧ (t.port p).link.echoTurns = 2) := by
  have e : s.echoTurn p = (((s.txStop p).goLink p (fun l => { l with state := .fullDuplex, echoTurns := 2 })).trainStart p true).txResume p := by
    unfold State.echoTurn
    dsimp only
    rw [if_neg (not_not.mpr hl), if_neg h0]
  refine core_does hs rfl e (by simp) (by rw [State.txResume_core, State.trainStart_core, State.goLink_core]) fun v hv => ?_
  rw [link_of_core hv]
  exact ⟨rfl, rfl⟩
end

/-- As `still_does`, for statements about the whole port. -/
theorem same_does {c : Instr} {P : State → Prop} {t : State} (hs : s.steady p) (he : exec c s = s.runsPort p t) (e : t = s) (hP : P (settle s s)) : Does c s P := by
  subst e
  exact runsPort_does rfl hs he hP

section
variable {m : LineMode} (hs : s.steady p) (hl : (s.port p).link.state = .fullDuplex) (ht : (s.port p).link.train = some m)
include hs hl ht

omit hs in
theorem State.duplexEnd_eq : s.duplexEnd p = if (!(s.port p).link.leader || (s.port p).link.blocksOn) = true then s
    else if (s.port p).tablesReady m = true then s.queueGo p else s.modLink p (fun l => { l with echoTurns := 3 }) := by
  unfold State.duplexEnd
  dsimp only
  rw [hl, ht]

theorem fullDuplexEnd_go (hd : (s.port p).link.leader = true) (hb : (s.port p).link.blocksOn = false) (hr : (s.port p).tablesReady m = true) :
    Does (.fullDuplexEnd p) s (fun t => ∃ a b, a ≠ 0 ∧ b ≠ 0 ∧ (t.port p).tx.seedL = a ∧ (t.port p).tx.seedF = b
      ∧ (t.port p).tow.ready = (s.port p).tow.ready ++ [⟨3, 0, goPayload 0 a b⟩]) := by
  obtain ⟨a, b, ha, hb2, e1, e2, hk⟩ := s.queueGo_core p
  refine runsPort_does (s.queueGo_around p) hs (congrArg (s.runsPort p) ((State.duplexEnd_eq hl ht).trans ?_)) ⟨a, b, ha, hb2, ?_, ?_, ?_⟩
  · rw [if_neg (by rw [hd, hb]; nofun), if_pos hr]
  · rw [settle_port_tx, e1]
  · rw [settle_port_tx, e2]
  · rw [settle_port_tow, tow_of_core hk]
    rfl
theorem fullDuplexEnd_tables (hd : (s.port p).link.leader = true) (hb : (s.port p).link.blocksOn = false) (hr : (s.port p).tablesReady m = false) :
    Does (.fullDuplexEnd p) s (fun t => (t.port p).link.echoTurns = 3 ∧ (t.port p).tow = (s.port p).tow ∧ (t.port p).tx = (s.port p).tx) := by
  have e : s.duplexEnd p = s.modLink p (fun l => { l with echoTurns := 3 }) := by
    rw [State.duplexEnd_eq hl ht, if_neg (by rw [hd, hb]; nofun), if_neg (by rw [hr]; nofun)]
  refine runsPort_does (s.modLink_around p _) hs (congrArg (s.runsPort p) e) ?_
  rw [settle_port_link, settle_port_tow, settle_port_tx, State.port_modLink]
  exact ⟨rfl, rfl, rfl⟩
theorem fullDuplexEnd_follower (h : (s.port p).link.leader = false ∨ (s.port p).link.blocksOn = true) :
    Does (.fullDuplexEnd p) s (fun t => (t.port p).link = (s.port p).link ∧ (t.port p).tow = (s.port p).tow ∧ (t.port p).tx = (s.port p).tx) :=
  same_does hs rfl ((State.duplexEnd_eq hl ht).trans (if_pos (by rcases h with h | h <;> simp [h])))
    ⟨settle_port_link s s p, settle_port_tow s s p, settle_port_tx s s p⟩

/-! ### GO's count (R81, R106, R126) -/

omit hs hl ht in
@[simp] theorem State.negate_around : (s.negate p).around p = s.around p := s.modTx_around p _

omit hs in
theorem State.goReached_eq {g : Word × Bool} (hg : (s.port p).tow.goCount = some g) (hb : (s.port p).link.blocksOn = false) : s.goReached p =
    if g.2 then (s.negate p).beginBlocks p m (s.ticks + negTicks m (fwdOut (s.policy p))) else s.queueGo p := by
  unfold State.goReached
  dsimp only
  rw [hl, ht, hg]
  dsimp only
  rw [if_neg (by rw [hb]; nofun)]

/-- The negated symbols begin, and blocks follow the last of them with each end's own seeds. -/
theorem goCountReached_begins {w : Word} (hg : (s.port p).tow.goCount = some (w, true)) (hb : (s.port p).link.blocksOn = false) :
    Does (.goCountReached p) s (fun t => (t.port p).link.blocksOn = true ∧ (t.port p).link.blocksTick = s.ticks + negTicks m (fwdOut (s.policy p))
      ∧ (t.port p).snd.synced = false ∧ (∀ r, (s.port p).tx.train = some r → (t.port p).tx.train = some { r with neg := some s.ticks })
      ∧ (t.port p).tx.memory = 0 ∧ (m ≠ .lchirp → (t.port p).tx.scr = (if (s.port p).link.leader then (s.port p).tx.seedL else (s.port p).tx.seedF)
        ∧ (t.port p).tx.descr = (if (s.port p).link.leader then (s.port p).tx.seedF else (s.port p).tx.seedL))) := by
  have hn : (s.negate p).port p = { s.port p with tx := { (s.port p).tx with train := (s.port p).tx.train.map (fun r => { r with neg := some s.ticks }) } } :=
    s.port_modTx p _
  obtain ⟨h1, h2, h3⟩ := (s.negate p).beginBlocks_txp p m (s.ticks + negTicks m (fwdOut (s.policy p)))
  have hk := (s.negate p).beginBlocks_core p m (s.ticks + negTicks m (fwdOut (s.policy p)))
  refine runsPort_does (t := (s.negate p).beginBlocks p m (s.ticks + negTicks m (fwdOut (s.policy p)))) (by simp) hs
    (congrArg (s.runsPort p) ((State.goReached_eq hl ht hg hb).trans (if_pos rfl))) ?_
  have hv := (settle_core _ p s).trans hk
  rw [link_of_core hv, snd_of_core hv, settle_port_tx]
  unfold State.txp at h1 h2 h3
  rw [hn] at h2 h3
  exact ⟨rfl, rfl, rfl, fun r hr => by rw [h2, hr]; rfl, h1, h3⟩
/-- A leader without the CACK sends another GO. -/
theorem goCountReached_again {w : Word} (hg : (s.port p).tow.goCount = some (w, false)) (hb : (s.port p).link.blocksOn = false) :
    Does (.goCountReached p) s (fun t => (t.port p).link.blocksOn = false ∧ ∃ a b, a ≠ 0 ∧ b ≠ 0
      ∧ (t.port p).tow.ready = (s.port p).tow.ready ++ [⟨3, 0, goPayload 0 a b⟩]) := by
  obtain ⟨a, b, ha, hb2, _, _, hk⟩ := s.queueGo_core p
  refine core_does hs rfl ((State.goReached_eq hl ht hg hb).trans (if_neg nofun)) (s.queueGo_around p) hk fun v hv => ?_
  rw [link_of_core hv, tow_of_core hv]
  exact ⟨hb, a, b, ha, hb2, rfl⟩
theorem goCountReached_stays (h : (s.port p).tow.goCount = none ∨ (s.port p).link.blocksOn = true) : Does (.goCountReached p) s (s.still p) := by
  refine still_does hs rfl ?_ fun _ => still_of_core
  unfold State.goReached
  dsimp only
  rw [hl, ht]
  rcases h with h | h
  · rw [h]
  · cases (s.port p).tow.goCount with
    | none => rfl
    | some g => exact if_pos h

end

/-! ### GO cells (R105, R106) -/

theorem go_taken (hs : s.steady p) {h : CellHdr} (ha : s.actsOn p h) {c : GoCell} (hk : s.goOk p c = true) :
    Does (.go p h c) s (fun t => (t.port p).tow.goCount = some (c.count, true) ∧ (t.port p).tx.seedL = (if c.seedL = 0 then 1 else c.seedL)
      ∧ (t.port p).tx.seedF = (if c.seedF = 0 then 1 else c.seedF) ∧ s.acked p h 3 [] t) := by
  obtain ⟨a, b, e⟩ := s.heardCell_core p h 3
  refine runsPort_does (by simp) hs (congrArg (s.runsPort p) (State.withCellIf_acts ha 3 _ hk)) ?_
  unfold State.acked
  rw [settle_port_tow, settle_port_tx, tow_of_core (State.modTx_core ..), State.modTow_core, State.port_modTx, e]
  exact ⟨rfl, rfl, rfl, rfl⟩
theorem go_declined (hs : s.steady p) {h : CellHdr} (ha : s.actsOn p h) {c : GoCell} (hk : s.goOk p c = false) :
    Does (.go p h c) s (fun t => s.declines p h t ∧ (t.port p).tx = (s.port p).tx) := declines_does hs ha rfl rfl hk

/-! ### Ends (R83) -/

/-- The count of a mode's failures in a row, this one with them. -/
def failsOf (l : Link) (m : LineMode) : Nat := match l.lastFail with | some (x, k) => if x == m then k + 1 else 1 | none => 1

/-- A training that fails counts for its mode, which three failures in a row exclude. -/
def Link.trainLost (l : Link) (m : LineMode) : Link :=
  { l with
    lastFail := some (m, failsOf l m)
    excluded := if 3 ≤ failsOf l m && !l.excluded.contains m then l.excluded ++ [m] else l.excluded }

theorem State.trainFailed_eq {m : LineMode} (hl : (s.port p).link.state = .echoLearn ∨ (s.port p).link.state = .fullDuplex) (ht : (s.port p).link.train = some m) :
    s.trainFailed p = (s.modLink p (fun l => l.trainLost m)).linkDown p 7 := by
  unfold State.trainFailed
  dsimp only
  rcases hl with hl | hl <;> rw [hl, ht] <;> rfl

theorem failsOf_again {l : Link} {m : LineMode} {k : Nat} (h : l.lastFail = some (m, k)) : failsOf l m = k + 1 := by
  unfold failsOf
  rw [h]
  exact if_pos (beq_self_eq_true m)
theorem failsOf_first {l : Link} {m : LineMode} (h : ∀ k, l.lastFail ≠ some (m, k)) : failsOf l m = 1 := by
  unfold failsOf
  split
  · next x k e =>
    rw [if_neg]
    intro hx
    exact h k (by rw [e, eq_of_beq hx])
  · rfl

theorem Link.fallen_fails {l : Link} (hr : l.state.reached = false) (c : Nat) :
    (l.fallen .hold c).lastFail = l.lastFail ∧ (l.fallen .hold c).excluded = l.excluded := by
  unfold Link.fallen
  rw [hr]
  exact ⟨rfl, rfl⟩
theorem trainLost_excludes {l : Link} {m : LineMode} (h : 3 ≤ failsOf l m) : (l.trainLost m).excluded.contains m = true := by
  show List.contains (if _ then _ else _) m = true
  split
  · simp
  · next hn => simpa [h] using hn
theorem trainLost_keeps {l : Link} {m : LineMode} (h : failsOf l m = 1) : (l.trainLost m).excluded = l.excluded := by
  show (if _ then _ else _) = _
  rw [if_neg (by simp [h])]

/-- A training in a mode that times out (R83). -/
theorem trainingTimeout_counts (hs : s.steady p) {m : LineMode} (hl : (s.port p).link.state = .echoLearn ∨ (s.port p).link.state = .fullDuplex)
    (ht : (s.port p).link.train = some m) : Does (.trainingTimeout p) s (fun t => s.fellWith p 7 t
      ∧ (∀ k, (s.port p).link.lastFail = some (m, k) → (t.port p).link.lastFail = some (m, k + 1) ∧ (3 ≤ k + 1 → (t.port p).link.excluded.contains m = true))
      ∧ ((∀ k, (s.port p).link.lastFail ≠ some (m, k)) → (t.port p).link.lastFail = some (m, 1) ∧ (t.port p).link.excluded = (s.port p).link.excluded)) := by
  have e : s.trainLate p = (s.modLink p (fun l => l.trainLost m)).linkDown p 7 := by
    rw [← State.trainFailed_eq hl ht]
    unfold State.trainLate
    rcases hl with hl | hl <;> rw [hl]
  have ha : (s.modLink p (fun l => l.trainLost m)).around p = s.around p := s.modLink_around p _
  have hf := fellWith_linkDown (c := 7) ha (by rw [State.port_modLink]; rfl) ringSpace_room s
  obtain ⟨n, _, hk⟩ := (s.modLink p (fun l => l.trainLost m)).linkDown_core p 7
  rw [State.modLink_core] at hk
  refine runsPort_does ((State.linkDown_around _ p 7).trans ha) hs (congrArg (s.runsPort p) e) ⟨hf, ?_⟩
  have hr : ((s.port p).link.trainLost m).state.reached = false := by
    show (s.port p).link.state.reached = false
    rcases hl with hl | hl <;> rw [hl] <;> rfl
  obtain ⟨h1, h2⟩ := Link.fallen_fails hr 7
  rw [settle_port_link, link_of_core hk]
  exact ⟨fun k h => ⟨h1.trans (by rw [← failsOf_again h]; rfl), fun h3 =>
      (congrArg (List.contains · m) h2).trans (trainLost_excludes (by rwa [failsOf_again h]))⟩,
    fun h => ⟨h1.trans (by rw [← failsOf_first h]; rfl), h2.trans (trainLost_keeps (failsOf_first h))⟩⟩

theorem trainingTimeout_standard (hs : s.steady p) (hl : (s.port p).link.state = .stdTrain) : Does (.trainingTimeout p) s (s.fellWith p 7) := by
  refine linkDown_alone hs 7 (congrArg (s.runsPort p) ?_)
  unfold State.trainLate
  rw [hl]

/-! ### The end of HOLD, and a towpath lost (R66, R73, R83) -/

section
variable (hs : s.steady p) (hl : (s.port p).link.state = .hold)
include hs hl

theorem holdEnd_starts (hb : s.blocker p = none) (he : s.enabled p = true) (hp : s.patternAct p = 0) : Does (.holdEnd p) s (fun t =>
    (t.port p).link.state = s.firstOf p ∧ ((t.port p).link.state = .an → (t.port p).link.pages = s.anPages p)) := by
  have e : s.holdOver p = s.firstState p := by
    unfold State.holdOver State.startPort
    rw [if_pos ⟨hl, by rw [hb]; rfl⟩, if_neg (by rw [he, hp]; decide), hb]
  refine runsPort_does (s.firstState_around p) hs (congrArg (s.runsPort p) e) ?_
  rw [settle_port_link]
  exact s.firstState_link p
theorem holdEnd_off (hb : s.blocker p = none) (h : s.enabled p = false ∨ s.patternAct p ≠ 0) : Does (.holdEnd p) s (fun t => (t.port p).link = (s.port p).link) := by
  refine still_does hs rfl ?_ fun _ hv => link_of_core hv
  unfold State.holdOver State.startPort
  rw [if_pos ⟨hl, by rw [hb]; rfl⟩, if_pos (by rcases h with h | h <;> simp [h])]
omit hl in
theorem holdEnd_blocked (hb : s.blocker p ≠ none) : Does (.holdEnd p) s (fun t => (t.port p).link = (s.port p).link) :=
  still_does hs rfl (if_neg (fun h => hb (Option.isNone_iff_eq_none.mp h.2))) fun _ hv => link_of_core hv
end

theorem State.towpathLost_eq (hl : (s.port p).link.state = .loconUp ∨ (s.port p).link.state = .shift) :
    s.towpathLost p = if (s.port p).quiet.state = .deep then s else s.linkDown p 8 := by
  unfold State.towpathLost
  rcases hl with hl | hl <;> rw [hl]
theorem towpathLoss_down (hs : s.steady p) (hl : (s.port p).link.state = .loconUp ∨ (s.port p).link.state = .shift) (hq : (s.port p).quiet.state ≠ .deep) :
    Does (.towpathLoss p) s (s.fellWith p 8) := linkDown_alone hs 8 (congrArg (s.runsPort p) ((State.towpathLost_eq hl).trans (if_neg hq)))
theorem towpathLoss_deep (hs : s.steady p) (hl : (s.port p).link.state = .loconUp ∨ (s.port p).link.state = .shift) (hq : (s.port p).quiet.state = .deep) :
    Does (.towpathLoss p) s (fun t => (t.port p).link = (s.port p).link) :=
  still_does hs rfl ((State.towpathLost_eq hl).trans (if_pos hq)) fun _ hv => link_of_core hv

end

/-- Settles O45, clause by clause. -/
theorem linkTraining : Obligations.LinkTraining := by
  intro s p hs
  refine ⟨fun h c m ha hm => ⟨fun hl hd hi => ⟨mode_lchirp hs ha hm hl hd hi, mode_wide hs ha hm hl hd hi⟩, mode_declined hs ha hm⟩,
    fun hl => ⟨echoLearnPhaseEnd_first hs hl, echoLearnPhaseEnd_second hs hl⟩,
    fun m hl ht => ⟨fullDuplexEnd_go hs hl ht, fullDuplexEnd_tables hs hl ht, fullDuplexEnd_follower hs hl ht,
      fun w hg hb => goCountReached_begins hs hl ht hg hb, fun w hg hb => goCountReached_again hs hl ht hg hb, goCountReached_stays hs hl ht⟩,
    fun h c ha => ⟨go_taken hs ha, go_declined hs ha⟩, fun m hl ht => trainingTimeout_counts hs hl ht, trainingTimeout_standard hs,
    fun hl => ⟨holdEnd_starts hs hl, holdEnd_off hs hl, holdEnd_blocked hs⟩, fun hl => ⟨towpathLoss_down hs hl, towpathLoss_deep hs hl⟩⟩

end Sys2Proof.Machine
end

section
/-! PROOFS. The refutation of O46: a downshift that has no lower mode to go to retrains the mode in use (R84, R455), and a retrain is
no downshift that R86 counts, so the third within 60 s bars nothing. -/

namespace Sys2Proof.Machine

/-- Port 0 up as the leader in a mode with no lower one in common, one low update before the dwell ends, after two downshifts out of
the mode at tick 0. -/
def loneMode : State :=
  ({ sup := { stage := .released, resetN := true, refclkOk := true, safeN := true } } : State).modPort 0 (fun x => { x with
    link := { x.link with state := .loconUp, modeAct := some .l25s, leader := true, downs := [(.l25s, 0), (.l25s, 0)], ladder := { below := 7 } }
    tow := { x.tow with profile := .wideRun, sf := 11 } })

/-- A millisecond in which no symbol was received. -/
def noSymbols : LineMeasure := { snrDb10 := 170, symbols := [] }

/-- The update retrains the mode, and the mode is not barred. -/
theorem loneMode_update : ∀ t, exec (.ladderUpdate 0 noSymbols) loneMode = .next t → (t.port 0).link.upBars.contains .l25s = false := by
  have e : (match exec (.ladderUpdate 0 noSymbols) loneMode with
    | .next t => (t.port 0).link.upBars.contains .l25s | .fault _ => true | .refused _ => true) = false := by decide +kernel
  intro t ht
  rw [ht] at e
  exact e

/-- Refutes O46: its third downshift out of a mode within 60 s bars the mode, but where the R84 target is the mode itself the update
begins a retrain, which counts as no downshift and leaves the bars as they are. -/
theorem not_ladderAndShifts : ¬ Obligations.LadderAndShifts := by
  intro h
  have hs : loneMode.steady 0 := by
    simp only [State.steady, State.freePort, State.unforced]
    decide +kernel
  obtain ⟨ladder, -⟩ := h loneMode 0 hs
  obtain ⟨-, -, low⟩ := ladder .l25s noSymbols _ rfl (by decide +kernel) (by decide +kernel) (by decide +kernel) (by decide +kernel)
  obtain ⟨dwell, -⟩ := low (by decide +kernel) rfl (by decide +kernel) (by decide +kernel) (by decide +kernel)
  obtain ⟨leads, -⟩ := dwell (by decide +kernel) (by decide +kernel) (by decide +kernel)
  obtain ⟨t, ht, -, -, bars⟩ := leads (by decide +kernel)
  exact absurd (bars (by decide +kernel)) (by rw [loneMode_update t ht]; nofun)

end Sys2Proof.Machine
end

section
/-! PROOFS. A shift that begins (R85), and no valid SYNC in time (R83, R85, R217): a training fails, LCHIRP goes down, and a shift
goes on to the next rung below. -/

namespace Sys2Proof.Machine

section
variable {s : State} {p : Fin 16}

theorem Port.storeSet_link (x : Port) (m : LineMode) : (x.storeSet m).link = x.link := by
  unfold Port.storeSet
  split <;> rfl

/-- A shift that begins or goes on at a port with a mode in use (R85). -/
theorem State.shiftBegin_link (u : State) (p : Fin 16) {a : LineMode} (ha : (u.port p).link.modeAct = some a) (m : LineMode) (k f : Nat) :
    ((u.shiftBegin p m k f).port p).link.state = .shift ∧ ((u.shiftBegin p m k f).port p).link.train = some m
      ∧ ((u.shiftBegin p m k f).port p).link.shift = some ((u.port p).link.shiftTo a m k u.ticks) := by
  have hk (v : State) (g : Towpath → Towpath) (c : Prop) [Decidable c] : ((if c then v.modTow p g else v).port p).link = (v.port p).link := by
    split
    · rw [State.port_modTow]
    · rfl
  have hx (x : Port) (c : Prop) [Decidable c] : (if c then x.storeSet a else x).link = x.link := by
    split
    · exact x.storeSet_link a
    · rfl
  unfold State.shiftBegin
  dsimp only
  rw [ha]
  dsimp only
  rw [State.goLink_link]
  refine ⟨rfl, rfl, ?_⟩
  dsimp only
  rw [hk, State.port_modTow, State.port_modPort_same]
  dsimp only
  rw [hx]

/-- The record of a shift has the target and kind asked for, not yet acknowledged. -/
theorem Link.shiftTo_target (l : Link) (a m : LineMode) (k n : Nat) : (l.shiftTo a m k n).target = m ∧ (l.shiftTo a m k n).kind = k
    ∧ (l.shiftTo a m k n).acked = false := by
  unfold Link.shiftTo
  split <;> exact ⟨rfl, rfl, rfl⟩

/-- The leader's shift (R85 steps 1 and 2). -/
theorem leadShift_shifts (u : State) {a : LineMode} (ha : (u.port p).link.modeAct = some a) (m : LineMode) (k : Nat) (old : State) :
    State.shifts p m k false (settle old (u.leadShift p m k)) := by
  unfold State.shifts State.leadShift State.queueCell
  rw [settle_port_link, State.port_modTow]
  obtain ⟨h1, h2, h3⟩ := u.shiftBegin_link p ha m k (if m == .lchirp then u.lchirpSfFor p else 0)
  exact ⟨h1, h2, _, h3, Link.shiftTo_target _ a m k _⟩

/-- A failure of a training takes the link down with cause 7, whatever it counts. -/
theorem State.trainFailed_down (s : State) (p : Fin 16) : ∃ u : State, s.trainFailed p = u.linkDown p 7 ∧ u.around p = s.around p ∧ u.ring = s.ring
    ∧ (u.port p).link.downs16 = (s.port p).link.downs16 := by
  unfold State.trainFailed
  dsimp only
  split
  · exact ⟨_, rfl, s.modLink_around p _, rfl, by rw [State.port_modLink]⟩
  · exact ⟨_, rfl, s.modLink_around p _, rfl, by rw [State.port_modLink]⟩
  · exact ⟨s, rfl, rfl, rfl, rfl⟩

section
variable (hs : s.steady p) (hb : (s.port p).link.blocksOn = true) (hy : (s.port p).snd.synced = false)
include hs hb hy

omit hs in
theorem State.syncLate_eq : s.syncLate p = (match (s.port p).link.state with
    | .shift => s.shiftFailed p
    | .loconUp => if (s.port p).inLchirp then s.linkDown p 8 else s
    | .fullDuplex => s.trainFailed p
    | _ => s) := by
  unfold State.syncLate
  dsimp only
  rw [if_neg (by rw [hb, hy]; nofun)] <;> rfl

theorem syncTimeout_lchirp (hl : (s.port p).link.state = .loconUp) (hi : (s.port p).inLchirp = true) : Does (.syncTimeout p) s (s.fellWith p 8) :=
  linkDown_alone hs 8 (congrArg (s.runsPort p) (by rw [State.syncLate_eq hb hy, hl]; exact if_pos hi))

theorem syncTimeout_training (hl : (s.port p).link.state = .fullDuplex) : Does (.syncTimeout p) s (s.fellWith p 7) := by
  obtain ⟨u, e, ha, hr, hd⟩ := s.trainFailed_down p
  exact linkDown_does hs ha hd (fun h => hr ▸ ringSpace_room h) 7 (congrArg (s.runsPort p) (by rw [State.syncLate_eq hb hy, hl]; exact e))

section
variable {sh : ShiftRec} (hl : (s.port p).link.state = .shift) (hh : (s.port p).link.shift = some sh)
include hl hh

theorem syncTimeout_shiftLchirp (ht : sh.target = .lchirp) : Does (.syncTimeout p) s (s.fellWith p 8) := by
  refine linkDown_alone hs 8 (congrArg (s.runsPort p) ?_)
  rw [State.syncLate_eq hb hy, hl]
  dsimp only
  unfold State.shiftFailed
  dsimp only
  rw [hh]
  exact if_pos (by rw [ht]; rfl)

omit hs hb hy hl in
/-- The leader repeats a shift that has not converged to the next rung below (R85, R87). -/
theorem shiftFailed_below {m : LineMode} {l : List LineMode} (ht : sh.target ≠ .lchirp) (hk : sh.kind = 2 → rung sh.left < rung sh.target)
    (hm : below (s.common p) sh.target = m :: l) (hd : (s.port p).link.leader = true) : s.shiftFailed p =
    (if sh.kind = 2 then s.modLink p (fun l => { l with forceFail := true }) else s).leadShift p m (if sh.kind = 1 then 0 else sh.kind) := by
  have h1 : ¬ (decide (sh.kind = 2) && sh.left == sh.target) = true := by
    simp only [Bool.and_eq_true, decide_eq_true_eq, beq_iff_eq, not_and]
    intro h2 h3
    have := hk h2
    rw [h3] at this
    exact absurd this (Nat.lt_irrefl _)
  have h2 : ¬ (decide (sh.kind = 2) && decide (rung sh.target < rung sh.left)) = true := by
    simp only [Bool.and_eq_true, decide_eq_true_eq, not_and]
    intro h2 h3
    exact absurd (Nat.lt_trans h3 (hk h2)) (Nat.lt_irrefl _)
  unfold State.shiftFailed
  dsimp only
  rw [hh]
  dsimp only
  rw [if_neg (by simpa using ht), if_neg h1, if_neg h2, hm]
  exact if_pos hd

theorem syncTimeout_shiftBelow {m : LineMode} {l : List LineMode} (ht : sh.target ≠ .lchirp) (hk : sh.kind = 2 → rung sh.left < rung sh.target)
    (hm : below (s.common p) sh.target = m :: l) (ha : (s.port p).link.modeAct ≠ none) (hd : (s.port p).link.leader = true) :
    Does (.syncTimeout p) s (State.shifts p m (if sh.kind = 1 then 0 else sh.kind) false) := by
  obtain ⟨a, ha⟩ := Option.ne_none_iff_exists'.mp ha
  generalize hu : (if sh.kind = 2 then s.modLink p (fun l => { l with forceFail := true }) else s) = u
  have hua : u.around p = s.around p := by rw [← hu]; exact ite_keep (State.around · p) (s.modLink_around p _) rfl
  have hul : (u.port p).link.modeAct = some a := by
    rw [← hu, ← ha]
    exact ite_keep (fun t => (t.port p).link.modeAct) (by rw [State.port_modLink]) rfl
  have e : s.syncLate p = u.leadShift p m (if sh.kind = 1 then 0 else sh.kind) := by
    rw [State.syncLate_eq hb hy, hl, ← hu]
    exact shiftFailed_below hh ht hk hm hd
  exact runsPort_does ((u.leadShift_around p m _).trans hua) hs (congrArg (s.runsPort p) e) (leadShift_shifts u hul m _ s)

end
end

theorem syncTimeout_stays (hs : s.steady p)
    (h : (s.port p).snd.synced = true ∨ (s.port p).link.blocksOn = false ∨ ((s.port p).link.state = .loconUp ∧ (s.port p).inLchirp = false)) :
    Does (.syncTimeout p) s (s.still p) := by
  refine still_does hs rfl ?_ fun _ => still_of_core
  unfold State.syncLate
  dsimp only
  split
  · rfl
  · next hn =>
    rcases h with h | h | ⟨h1, h2⟩
    · exact absurd (by rw [h]; simp) hn
    · exact absurd (by rw [h]; rfl) hn
    · rw [h1]
      exact if_neg (by rw [h2]; nofun)

end

end Sys2Proof.Machine
end

section
/-! PROOFS. The tally's counters (R396 to R401): a counter that receives no carries moves only with its own event code; one occurrence
of that code moves it by one, and what closes a command moves none that selects a block-specific event of a port or of the basin. -/

namespace Sys2Proof.Machine

/-- No counter of a block that selects a code and receives no carries has moved, and every register acts as it did. -/
def State.keepsCount (s : State) (b code : Nat) (t : State) : Prop :=
  (∀ k, t.act k = s.act k) ∧ ∀ i < 8, fld (s.csel b i) 0 16 = code → s.receives b i = false → t.tally.counter b i = s.tally.counter b i

theorem csel_same {s t : State} (h : ∀ k, t.act k = s.act k) (b i : Nat) : t.csel b i = s.csel b i := h _
theorem receives_same {s t : State} (h : ∀ k, t.act k = s.act k) (b i : Nat) : t.receives b i = s.receives b i := by
  induction i with
  | zero => rfl
  | succ i ih => rw [State.receives, State.receives, ih, csel_same h]

theorem keepsCount_refl (s : State) (b code : Nat) : s.keepsCount b code s := ⟨fun _ => rfl, fun _ _ _ _ => rfl⟩
theorem keepsCount_trans {s t u : State} {b code : Nat} (h : s.keepsCount b code t) (k : t.keepsCount b code u) : s.keepsCount b code u :=
  ⟨fun n => (k.1 n).trans (h.1 n), fun i hi hc hr =>
    (k.2 i hi (by rw [csel_same h.1]; exact hc) (by rw [receives_same h.1]; exact hr)).trans (h.2 i hi hc hr)⟩
/-- What leaves the registers' acting values and the counters keeps every count. -/
theorem keepsCount_of {s t : State} (h1 : t.frame = s.frame) (h2 : t.held = s.held) (h3 : t.mended = s.mended) (hc : t.tally.counters = s.tally.counters)
    (b code : Nat) : s.keepsCount b code t :=
  ⟨State.act_frame h1 h2 h3, fun i _ _ _ => by unfold Tally.counter; rw [hc]⟩
theorem foldl_keepsCount {α : Type} {b code : Nat} (l : List α) (f : State → α → State) (h : ∀ (t : State) x, t.keepsCount b code (f t x)) (s : State) :
    s.keepsCount b code (l.foldl f s) := by
  induction l generalizing s with
  | nil => exact keepsCount_refl s b code
  | cons a l ih => exact keepsCount_trans (h s a) (ih _)

/-! ### One addition -/

/-- An addition to a counter moves that one, and by a carry the next where it is chained. -/
theorem Tally.add_counter_ne (t : Tally) (c : Bool) (b j n : Nat) {b' i : Nat} (hi : i < 8) (hj : j < 8) (h : b' ≠ b ∨ i ≠ j)
    (hc : c = true → j + 1 < 8 ∧ ¬ (b' = b ∧ i = j + 1)) : (t.add c b j n).counter b' i = t.counter b' i := by
  have hk : ctrKey b' i ≠ ctrKey b j := by unfold ctrKey; omega
  have e (u : Tally) (v : BitVec 48) : (u.setCounter b j v).counter b' i = u.counter b' i := tabGet_put_ne _ _ _ _ hk
  unfold Tally.add
  dsimp only
  split
  · exact e t _
  · split
    · next hcc =>
      obtain ⟨h8, hne⟩ := hc hcc
      have hk2 : ctrKey b' i ≠ ctrKey b (j + 1) := by unfold ctrKey; omega
      exact (tabGet_put_ne _ _ _ _ hk2).trans (e t _)
    · exact e t _
theorem Tally.add_counter_same (t : Tally) (c : Bool) (b j : Nat) : (t.add c b j 1).counter b j = t.counter b j + 1 := by
  have hv : BitVec.ofNat 48 ((t.counter b j).toNat + 1) = t.counter b j + 1 := by
    rw [BitVec.ofNat_add, BitVec.ofNat_toNat, BitVec.setWidth_eq]
    rfl
  have e (v : BitVec 48) : (t.setCounter b j v).counter b j = v := tabGet_put_same _ _ _ _
  have hk : ctrKey b j ≠ ctrKey b (j + 1) := by unfold ctrKey; omega
  unfold Tally.add
  dsimp only
  split
  · rw [e, hv]
  · split
    · exact (tabGet_put_ne _ _ _ _ hk).trans ((e _).trans hv)
    · exact (e _).trans hv

/-- A counter that receives no carries is no chained counter's next. -/
theorem State.not_chained {s : State} {b i j : Nat} (h : s.receives b i = false) (hc : s.chains b j = true) : j + 1 < 8 ∧ i ≠ j + 1 := by
  unfold State.chains at hc
  refine ⟨?_, fun e => ?_⟩
  · rw [State.receives] at hc
    simp only [Bool.and_eq_true, decide_eq_true_eq] at hc
    exact hc.2
  · rw [e, hc] at h
    exact absurd h (by decide)

/-- One counter's part in an event moves no other counter that receives no carries. -/
theorem State.countOne_ne (s : State) (b code n j : Nat) (t : Tally) {b' i : Nat} (hi : i < 8) (hj : j < 8) (hr : s.receives b' i = false)
    (h : b' ≠ b ∨ i ≠ j ∨ fld (s.csel b i) 0 16 ≠ code) : (s.countOne b code n t j).counter b' i = t.counter b' i := by
  unfold State.countOne
  dsimp only
  split
  · next hs =>
    obtain ⟨h1, h2⟩ := hs
    by_cases hb : b' = b
    · subst hb
      have hij : i ≠ j := by
        rintro rfl
        rcases h with h | h | h
        · exact h rfl
        · exact h rfl
        · exact h h1
      exact Tally.add_counter_ne t _ _ j _ hi hj (.inr hij) fun hc => ⟨(State.not_chained hr hc).1, fun e => (State.not_chained hr hc).2 e.2⟩
    · refine Tally.add_counter_ne t _ _ j _ hi hj (.inl hb) fun hc => ⟨?_, fun e => hb e.1⟩
      unfold State.chains at hc
      rw [State.receives] at hc
      simp only [Bool.and_eq_true, decide_eq_true_eq] at hc
      exact hc.2
  · rfl

theorem foldl_countOne_ne (s : State) (b code n : Nat) {b' i : Nat} (hi : i < 8) (hr : s.receives b' i = false) (l : List Nat) (hl : ∀ j ∈ l, j < 8)
    (h : b' ≠ b ∨ i ∉ l ∨ fld (s.csel b i) 0 16 ≠ code) (t : Tally) : (l.foldl (s.countOne b code n) t).counter b' i = t.counter b' i := by
  induction l generalizing t with
  | nil => rfl
  | cons j l ih =>
    rw [List.foldl_cons, ih (fun x hx => hl x (List.mem_cons_of_mem _ hx)) (h.imp_right (Or.imp_left fun hn hm => hn (List.mem_cons_of_mem _ hm)))]
    exact s.countOne_ne b code n j t hi (hl j List.mem_cons_self) hr (h.imp_right (Or.imp_left fun hn e => hn (e ▸ List.mem_cons_self)))

theorem State.countCode_tally (s : State) (b code n : Nat) : (s.countCode b code n).tally = if n = 0 then s.tally else (List.range 8).foldl (s.countOne b code n) s.tally := by
  unfold State.countCode
  split <;> rfl

/-- An event counted under another block or code keeps the count. -/
theorem State.count_keeps (s : State) (b' k n : Nat) {b code : Nat} (h : b' ≠ b ∨ 0x200 + k ≠ code) : s.keepsCount b code (s.count b' k n) := by
  refine ⟨State.act_frame (s.count_frame b' k n) (s.count_held b' k n) (s.count_mended b' k n), fun i hi hc hr => ?_⟩
  unfold State.count
  rw [State.countCode_tally]
  split
  · rfl
  · refine foldl_countOne_ne s b' _ n hi hr _ (fun j hj => List.mem_range.mp hj) ?_ _
    rcases h with h | h
    · exact .inl (Ne.symm h)
    · by_cases hb : b = b'
      · subst hb
        exact .inr (.inr (by rw [hc]; exact Ne.symm h))
      · exact .inl hb

/-- One occurrence of an event moves every counter that selects it by one (R397). -/
theorem State.count_counts (s : State) (b k : Nat) : s.counts b k (s.count b k 1) := by
  intro i hi hc hr
  have hsplit : List.range 8 = List.range i ++ i :: List.range' (i + 1) (7 - i) := by
    interval_cases i <;> rfl
  unfold State.count
  rw [State.countCode_tally, if_neg (by decide), hsplit, List.foldl_append, List.foldl_cons]
  have hd (j : Nat) (hj : j ∈ List.range' (i + 1) (7 - i)) : j < 8 ∧ i ≠ j := by
    rw [List.mem_range'_1] at hj
    omega
  rw [foldl_countOne_ne s b _ 1 hi hr _ (fun j hj => (hd j hj).1) (.inr (.inl fun hm => (hd i hm).2 rfl))]
  have hone (t : Tally) : (s.countOne b (0x200 + k) 1 t i).counter b i = t.counter b i + 1 := by
    unfold State.countOne
    dsimp only
    rw [if_pos ⟨hc, hr⟩, ite_self]
    exact Tally.add_counter_same t _ b i
  rw [hone, foldl_countOne_ne s b _ 1 hi hr _ (fun j hj => Nat.lt_trans (List.mem_range.mp hj) hi) (.inr (.inl (by simp)))]

/-- An occurrence counted among steps that keep the count. -/
theorem counts_of {s u t : State} {b k : Nat} (h : s.keepsCount b (0x200 + k) u) (g : (u.count b k 1).keepsCount b (0x200 + k) t) : s.counts b k t := by
  intro i hi hc hr
  have hc' : fld (u.csel b i) 0 16 = 0x200 + k := by rw [csel_same h.1]; exact hc
  have hr' : u.receives b i = false := by rw [receives_same h.1]; exact hr
  have ha : ∀ k', (u.count b k 1).act k' = u.act k' := State.act_frame (u.count_frame b k 1) (u.count_held b k 1) (u.count_mended b k 1)
  rw [g.2 i hi (by rw [csel_same ha]; exact hc') (by rw [receives_same ha]; exact hr'), u.count_counts b k i hi hc' hr', h.2 i hi hc hr]

theorem State.raise_keeps (s : State) (c b' u : Nat) (w x y z : Word) {b code : Nat} (hb : 0 < b) : s.keepsCount b code (s.raise c b' u w x y z) := by
  have h : s.keepsCount b code { s with ring := s.ring.push (s.record c b' u w x y z) } :=
    keepsCount_of (s := s) (t := { s with ring := s.ring.push (s.record c b' u w x y z) }) rfl rfl rfl rfl b code
  exact keepsCount_trans h (State.count_keeps _ 0 _ 1 (.inl (Nat.ne_of_lt hb)))

/-! ### What closes a command -/

theorem State.countRise_keeps (old s : State) (e : Nat × Word) {b code : Nat} (hc : 0x200 ≤ code) : s.keepsCount b code (State.countRise old s e) := by
  unfold State.countRise
  dsimp only
  split
  · next hk =>
    split
    · next k hl =>
      split
      · refine ⟨State.act_frame rfl rfl rfl, fun i hi hs hr => ?_⟩
        have hcode : fld (s.csel (e.1 / 256) (e.1 % 256 - 0xE0)) 0 16 < 0x140 := by
          unfold liveSelected at hl
          split at hl
          · next h => exact h.2.2
          · cases hl
        refine Tally.add_counter_ne _ _ _ _ _ hi (by omega) ?_ fun hch => ?_
        · by_cases hb : b = e.1 / 256
          · refine .inr fun hj => ?_
            rw [← hb, ← hj] at hcode
            omega
          · exact .inl hb
        · have h8 : e.1 % 256 - 0xE0 + 1 < 8 := by
            unfold State.chains at hch
            rw [State.receives] at hch
            simp only [Bool.and_eq_true, decide_eq_true_eq] at hch
            exact hch.2
          refine ⟨h8, fun h => ?_⟩
          obtain ⟨h1, h2⟩ := h
          rw [← h1] at hch
          exact (State.not_chained hr hch).2 h2
      · exact keepsCount_refl s b code
    · exact keepsCount_refl s b code
  · exact keepsCount_refl s b code

/-- An answer counts in the chip's block and the channel's alone. -/
theorem State.answer_keepsCount (s : State) (c : Fin 16) (st : Nat) (ws : List Word) (d : Nat) {b code : Nat} (h1 : b ≠ 1) (h2 : b < 0x40) :
    s.keepsCount b code (s.answer c st ws d) := by
  unfold State.answer mboxBlock
  have h : s.keepsCount b code (s.modChan c (fun ch => ch.answered st d ws)) := keepsCount_of (s := s) (t := s.modChan c _) rfl rfl rfl rfl b code
  exact keepsCount_trans h
    (keepsCount_trans (State.count_keeps _ 1 0 1 (.inl h1.symm)) (State.count_keeps _ _ 2 _ (.inl (by omega))))
theorem State.remoteSweep_keepsCount (s : State) (c : Fin 16) {b code : Nat} (h1 : b ≠ 1) (h2 : b < 0x40) : s.keepsCount b code (s.remoteSweep c) := by
  unfold State.remoteSweep
  split
  · split
    · exact keepsCount_refl s b code
    · exact s.answer_keepsCount c _ _ _ h1 h2
  · exact keepsCount_refl s b code

/-- What closes a command keeps the counts of the block-specific events of the basin, the reaches, the ports and the lanes. -/
theorem settle_keeps (old s : State) {b code : Nat} (h1 : b ≠ 1) (h2 : b < 0x40) (hc : 0x200 ≤ code) : s.keepsCount b code (settle old s) := by
  have e := keepsCount_trans (foldl_keepsCount s.regs (State.countRise old) (fun t x => State.countRise_keeps old t x hc) s)
    (foldl_keepsCount allChans State.remoteSweep (fun t c => State.remoteSweep_keepsCount t c h1 h2) _)
  unfold settle
  obtain ⟨w, h3, _⟩ := State.remoteDrop_eq (allChans.foldl State.remoteSweep (s.regs.foldl (State.countRise old) s))
  rw [h3]
  refine keepsCount_trans e ?_
  generalize allChans.foldl State.remoteSweep (s.regs.foldl (State.countRise old) s) = u
  obtain ⟨j, h4⟩ := State.journalNotice_eq { u with ports := w } old
  rw [h4]
  exact keepsCount_of (s := u) (t := { u with ports := w, journal := { u.journal with changed := j } }) rfl rfl rfl rfl b code

end Sys2Proof.Machine
end

section
/-! PROOFS. What frames, gates, acknowledgements and release marks leave of a port's session and link (R206, R212, R214, R230): one
relation, kept by every such operation. A full log is reported once, so the event ring grows by no more than the log has left to say. -/

namespace Sys2Proof.Machine

/-- The events that a state holds, with the report of a full log where that still stands out (R409). -/
def State.ringLoad (s : State) : Nat := s.ring.untaken.length + (if s.tally.logFull then 0 else 1)
/-- Events are only added, and only on the full log's account. -/
def State.logs (s t : State) : Prop := (∃ n, s.ring.heard n t.ring) ∧ t.ringLoad ≤ s.ringLoad

theorem logs_refl (s : State) : s.logs s := ⟨⟨0, heard_refl _ 0⟩, Nat.le_refl _⟩
theorem logs_trans {s t u : State} (h : s.logs t) (k : t.logs u) : s.logs u := by
  obtain ⟨⟨i, hi⟩, h⟩ := h
  obtain ⟨⟨j, hj⟩, k⟩ := k
  exact ⟨⟨i + j, heard_trans hi hj (Nat.le_refl _)⟩, Nat.le_trans k h⟩
theorem logs_of {s t : State} (h1 : t.ring = s.ring) (h2 : t.tally.logFull = s.tally.logFull) : s.logs t :=
  ⟨⟨0, heard_of_eq h1 0⟩, by unfold State.ringLoad; rw [h1, h2]⟩
theorem logs_noted {s t : State} (h : s.logs t) {c u : Nat} {e : Word} (k : s.noted c u e) : t.noted c u e := by
  obtain ⟨⟨n, hn⟩, _⟩ := h
  exact noted_heard k hn
theorem count_logFull (s : State) (b k n : Nat) : (s.count b k n).tally.logFull = s.tally.logFull := by
  have h := congrArg Tally.logFull (s.count_rest b k n)
  exact h
theorem raise_logFull (s : State) (c b u : Nat) (w x y z : Word) : (s.raise c b u w x y z).tally.logFull = s.tally.logFull :=
  count_logFull { s with ring := s.ring.push (s.record c b u w x y z) } 0 _ 1
/-- A log that fills up says so once. -/
theorem logs_full {s t : State} (h1 : t.ring = s.ring) (h2 : s.tally.logFull = false) (h3 : t.tally.logFull = true) (c b u : Nat) (w x y z : Word) :
    s.logs (t.raise c b u w x y z) := by
  refine ⟨⟨1, raise_heard_of h1 c b u w x y z⟩, ?_⟩
  have hr := heard_length (raise_heard_of h1 c b u w x y z)
  have hf : (t.raise c b u w x y z).tally.logFull = true := (raise_logFull t c b u w x y z).trans h3
  unfold State.ringLoad
  rw [h2, hf]
  exact hr
theorem count_logs (s : State) (b k n : Nat) : s.logs (s.count b k n) :=
  logs_of (s.count_ring b k n) (count_logFull s b k n)

/-- The session of a port with its link: what only a SYNC, a new session or the link's own steps change. -/
structure State.keepsSession (p : Fin 16) (s t : State) : Prop where
  around : t.around p = s.around p
  link : (t.port p).link = (s.port p).link
  a : (t.port p).rcv.a = (s.port p).rcv.a
  partner : (t.port p).rcv.partner = (s.port p).rcv.partner
  session : (t.port p).rcv.session = (s.port p).rcv.session
  held : (t.port p).rcv.held = (s.port p).rcv.held
  seq : (t.port p).snd.s = (s.port p).snd.s
  synced : (t.port p).snd.synced = (s.port p).snd.synced
  unacked : (s.port p).snd.unacked = [] → (t.port p).snd.unacked = []
  asm : (t.port p).tow.blkAsm = (s.port p).tow.blkAsm
  logs : s.logs t

open State (keepsSession)

section
variable {p : Fin 16} {s t u : State}

theorem keepsSession_refl (p : Fin 16) (s : State) : keepsSession p s s := ⟨rfl, rfl, rfl, rfl, rfl, rfl, rfl, rfl, id, rfl, logs_refl s⟩
theorem keepsSession_trans (h : keepsSession p s t) (k : keepsSession p t u) : keepsSession p s u where
  around := k.around.trans h.around
  link := k.link.trans h.link
  a := k.a.trans h.a
  partner := k.partner.trans h.partner
  session := k.session.trans h.session
  held := k.held.trans h.held
  seq := k.seq.trans h.seq
  synced := k.synced.trans h.synced
  unacked := k.unacked ∘ h.unacked
  asm := k.asm.trans h.asm
  logs := logs_trans h.logs k.logs
theorem keepsSession_foldl {α : Type} (l : List α) (f : State → α → State) (h : ∀ t x, keepsSession p t (f t x)) (s : State) :
    keepsSession p s (l.foldl f s) := by
  induction l generalizing s with
  | nil => exact keepsSession_refl p s
  | cons a l ih => exact keepsSession_trans (h s a) (ih _)
/-- What leaves every port as it was. -/
theorem keepsSession_of (h1 : t.around p = s.around p) (h2 : t.port p = s.port p) (h3 : s.logs t) : keepsSession p s t :=
  ⟨h1, by rw [h2], by rw [h2], by rw [h2], by rw [h2], by rw [h2], by rw [h2], by rw [h2], fun h => by rw [h2]; exact h, by rw [h2], h3⟩

section
variable (p : Fin 16) (s : State)

theorem keepsSession_basin (b : Basin) : keepsSession p s { s with basin := b } := keepsSession_of rfl rfl (logs_of rfl rfl)
theorem keepsSession_tally (y : Tally) (h : y.logFull = s.tally.logFull) : keepsSession p s { s with tally := y } :=
  keepsSession_of rfl rfl (logs_of rfl h)
theorem State.modTickets_session (f : List Ticket → List Ticket) : keepsSession p s (s.modTickets f) := keepsSession_basin p s _
theorem State.modTicket_session (i : Nat) (f : Ticket → Ticket) : keepsSession p s (s.modTicket i f) := keepsSession_basin p s _
theorem State.modQueue_session (q : Nat) (f : Queue → Queue) : keepsSession p s (s.modQueue q f) := keepsSession_basin p s _
theorem State.pushCtrl_session (k : Nat) (x : Bool) (q : Nat) (n : Seq16) : keepsSession p s (s.pushCtrl k x q n) := keepsSession_basin p s _
theorem State.stage_session (i k : Nat) : keepsSession p s (s.stage i k) := s.modTicket_session p i _
theorem State.count_session (b k n : Nat) : keepsSession p s (s.count b k n) :=
  keepsSession_of (s.count_around p b k n) (s.count_port b k n p) (count_logs s b k n)

/-- A change of a receiver that leaves its sequence, sessions and held blocks. -/
theorem State.modRcv_session (q : Fin 16) (f : Receiver → Receiver)
    (hf : ∀ r, (f r).a = r.a ∧ (f r).partner = r.partner ∧ (f r).session = r.session ∧ (f r).held = r.held) : keepsSession p s (s.modRcv q f) := by
  have hp (g : Port → Receiver → Prop) (h1 : g (s.port p) (s.port p).rcv) (h2 : g (s.port p) (f (s.port p).rcv)) :
      g (s.port p) ((s.modRcv q f).port p).rcv := by
    by_cases e : p = q
    · subst e; rw [State.port_modRcv]; exact h2
    · rw [State.modRcv, State.port_modPort_ne _ e]; exact h1
  have hm : ((s.modRcv q f).port p).link = (s.port p).link ∧ ((s.modRcv q f).port p).snd = (s.port p).snd
      ∧ ((s.modRcv q f).port p).tow = (s.port p).tow := by
    by_cases e : p = q
    · subst e; rw [State.port_modRcv]; exact ⟨rfl, rfl, rfl⟩
    · rw [State.modRcv, State.port_modPort_ne _ e]; exact ⟨rfl, rfl, rfl⟩
  obtain ⟨ha, hb, hc, hd⟩ := hf (s.port p).rcv
  exact ⟨s.modRcv_around p q f, hm.1, hp (fun x r => r.a = x.rcv.a) rfl ha, hp (fun x r => r.partner = x.rcv.partner) rfl hb,
    hp (fun x r => r.session = x.rcv.session) rfl hc, hp (fun x r => r.held = x.rcv.held) rfl hd,
    by rw [hm.2.1], by rw [hm.2.1], fun h => by rw [hm.2.1]; exact h, by rw [hm.2.2], logs_of rfl rfl⟩
/-- A change of the sender that leaves its sequence and what it has settled, and sends nothing new. -/
theorem State.modSnd_session (f : Sender → Sender)
    (hf : (f (s.port p).snd).s = (s.port p).snd.s ∧ (f (s.port p).snd).synced = (s.port p).snd.synced
      ∧ ((s.port p).snd.unacked = [] → (f (s.port p).snd).unacked = [])) : keepsSession p s (s.modSnd p f) := by
  obtain ⟨h1, h2, h3⟩ := hf
  have hm : (s.modSnd p f).port p = { s.port p with snd := f (s.port p).snd } := s.port_modPort_same p _
  refine ⟨s.modSnd_around p f, ?_, ?_, ?_, ?_, ?_, ?_, ?_, ?_, ?_, logs_of rfl rfl⟩ <;> rw [hm]
  · exact h1
  · exact h2
  · exact h3
theorem State.modTx_session (f : TxPath → TxPath) : keepsSession p s (s.modTx p f) := by
  have hm : (s.modTx p f).port p = { s.port p with tx := f (s.port p).tx } := s.port_modPort_same p _
  refine ⟨s.modTx_around p f, ?_, ?_, ?_, ?_, ?_, ?_, ?_, ?_, ?_, logs_of rfl rfl⟩ <;> rw [hm]
  exact id
theorem State.modTow_session (f : Towpath → Towpath) (hf : (f (s.port p).tow).blkAsm = (s.port p).tow.blkAsm) : keepsSession p s (s.modTow p f) := by
  have hm : (s.modTow p f).port p = { s.port p with tow := f (s.port p).tow } := s.port_modPort_same p _
  refine ⟨s.modTow_around p f, ?_, ?_, ?_, ?_, ?_, ?_, ?_, ?_, ?_, logs_of rfl rfl⟩ <;> rw [hm]
  · exact id
  · exact hf

/-! ### Gates, credit and releases -/

theorem State.gateOne_session (q : Fin 16) (k : Nat) (c : Custody) : keepsSession p s (s.gateOne q k c) := by
  unfold State.gateOne
  dsimp only
  split
  · exact s.modRcv_session p q _ fun _ => ⟨rfl, rfl, rfl, rfl⟩
  · split
    · exact s.modRcv_session p q _ fun _ => ⟨rfl, rfl, rfl, rfl⟩
    · exact keepsSession_refl p s
theorem State.gateSync_session (q : Fin 16) : keepsSession p s (s.gateSync q) := by
  unfold State.gateSync
  split
  · exact keepsSession_trans (s.gateOne_session p q _ _) (keepsSession_trans (State.gateOne_session p _ q _ _) (State.gateOne_session p _ q _ _))
  · exact keepsSession_refl p s
theorem State.hopSync_session : keepsSession p s s.hopSync := by
  unfold State.hopSync
  dsimp only
  split
  · split
    · exact keepsSession_basin p s _
    · exact keepsSession_refl p s
  · split
    · exact keepsSession_basin p s _
    · exact keepsSession_refl p s
theorem State.qflowSync_session (q : Nat) : keepsSession p s (s.qflowSync q) := by
  unfold State.qflowSync
  dsimp only
  split
  · exact keepsSession_refl p s
  · split
    · exact keepsSession_refl p s
    · split
      · exact keepsSession_trans (s.pushCtrl_session p _ _ q _) (State.modQueue_session p _ q _)
      · split
        · exact keepsSession_trans (s.pushCtrl_session p _ _ q _) (State.modQueue_session p _ q _)
        · exact keepsSession_refl p s
theorem State.flowSync_session (q : Nat) : keepsSession p s (s.flowSync q) :=
  keepsSession_trans (s.gateSync_session p _) (keepsSession_trans (State.hopSync_session p _) (State.qflowSync_session p _ q))
theorem State.sendRelease_session (q : Nat) : keepsSession p s (s.sendRelease q) := by
  unfold State.sendRelease
  split
  · exact keepsSession_refl p s
  · split
    · exact keepsSession_refl p s
    · split
      · exact s.modQueue_session p q _
      · exact keepsSession_trans (s.pushCtrl_session p _ _ q _) (State.modQueue_session p _ q _)

/-! ### Tickets freed -/

/-- The report of a log that is full (R409). -/
theorem State.logFull_session (hf : s.tally.logFull = false) (n : Word) :
    keepsSession p s (State.raise { s with tally := { s.tally with logFull := true } } 0x0052 4 0 n) := by
  generalize hu : ({ s with tally := { s.tally with logFull := true } } : State) = u
  have h1 : u.around p = s.around p := by rw [← hu]; rfl
  have h2 : u.port p = s.port p := by rw [← hu]; rfl
  have h3 : u.ring = s.ring := by rw [← hu]
  have h4 : u.tally.logFull = true := by rw [← hu]
  exact keepsSession_of ((State.raise_around u p _ _ _ _ _ _ _).trans h1) ((State.raise_port ..).trans h2) (logs_full h3 hf h4 _ _ _ _ _ _ _)
theorem State.logTicket_session (t : Ticket) (d : Bool) : keepsSession p s (s.logTicket t d) := by
  unfold State.logTicket
  split
  · exact keepsSession_refl p s
  · next tr _ =>
    split
    · exact keepsSession_refl p s
    · next hf =>
      dsimp only
      generalize hy : ({ s.tally with log := _, logNext := _, logSeq := _ } : Tally) = y
      have hl : y.logFull = s.tally.logFull := by rw [← hy]
      have hk := keepsSession_trans (keepsSession_tally p s y hl) (State.count_session p _ 4 3 1)
      have hn : (State.count { s with tally := y } 4 3 1).tally.logFull = false :=
        (count_logFull _ 4 3 1).trans (hl.trans (Bool.eq_false_iff.mpr hf))
      generalize State.count { s with tally := y } 4 3 1 = u at hk hn ⊢
      split
      · exact keepsSession_trans hk (u.logFull_session p hn _)
      · exact hk
theorem State.freeTicket_session (i : Nat) (d : Bool) : keepsSession p s (s.freeTicket i d) := by
  unfold State.freeTicket
  split
  · exact keepsSession_refl p s
  · exact keepsSession_trans (s.modTickets_session p _) (keepsSession_trans (State.logTicket_session p _ _ _)
      (keepsSession_trans (State.count_session p _ _ _ _) (State.flowSync_session p _ _)))
theorem State.freeAll_session (l : List Nat) (d : Bool) : keepsSession p s (s.freeAll l d) :=
  keepsSession_foldl l _ (fun t i => t.freeTicket_session p i d) s

/-! ### The fields of a block's head (R206, R212) -/

theorem State.ackTo_session (a : Seq24) : keepsSession p s (s.ackTo p a) := by
  unfold State.ackTo
  dsimp only
  split
  · exact s.count_session p _ _ _
  · exact keepsSession_trans (s.modSnd_session p _ ⟨rfl, rfl, fun h => by dsimp only; rw [h]; rfl⟩)
      (keepsSession_trans (keepsSession_foldl _ _ (fun t x => t.stage_session p _ _) _) (State.freeAll_session p _ _ _))
theorem State.relTo_session (a : Seq24) : keepsSession p s (s.relTo p a) := by
  unfold State.relTo
  dsimp only
  split
  · exact s.count_session p _ _ _
  · exact keepsSession_trans (s.modSnd_session p _ ⟨rfl, rfl, id⟩)
      (keepsSession_trans (keepsSession_foldl _ _ (fun t x => keepsSession_trans (t.stage_session p _ _) (State.stage_session p _ _ _)) _)
        (keepsSession_trans (State.freeAll_session p _ _ _) (keepsSession_foldl _ _ (fun t x => t.sendRelease_session p x) _)))
theorem State.nackSync_session : keepsSession p s (s.nackSync p) := by
  unfold State.nackSync
  exact s.modRcv_session p p _ fun _ => ⟨rfl, rfl, rfl, rfl⟩
theorem State.rcvSync_session : keepsSession p s (s.rcvSync p) := by
  have h : keepsSession p s (s.relSync p) := by
    unfold State.relSync
    split
    · exact keepsSession_refl p s
    · exact s.modRcv_session p p _ fun _ => ⟨rfl, rfl, rfl, rfl⟩
  exact keepsSession_trans h (keepsSession_trans (State.nackSync_session p _)
    (keepsSession_trans (State.gateSync_session p _ p) (State.hopSync_session p _)))
theorem State.descrBlock_session : keepsSession p s (s.descrBlock p) := by
  unfold State.descrBlock
  split
  · exact keepsSession_refl p s
  · exact s.modTx_session p _

theorem State.nackTo_session (f : Seq24) (n : Nat) (r : Bool) : keepsSession p s (s.nackTo p f n r) := by
  unfold State.nackTo
  refine s.modSnd_session p _ ?_
  dsimp only
  split <;> exact ⟨rfl, rfl, id⟩

/-- The head of a block whose slot holds no cell segment (R193, R195, R206, R221): no cell, and the session stays. -/
theorem State.blockHead_session (b : Blk) (hb : b.slotKind = 2 → (s.port p).inLchirp = true) :
    keepsSession p s (s.blockHead p b).1 ∧ (s.blockHead p b).2 = none := by
  have hg : keepsSession p s ((s.descrBlock p).modSnd p (fun x => x.takeGate b.gate)) :=
    keepsSession_trans (s.descrBlock_session p) (State.modSnd_session p _ _ (by unfold Sender.takeGate; split <;> exact ⟨rfl, rfl, id⟩))
  have hseg : (b.slotKind == 2 && !(s.port p).inLchirp) = false := by
    by_cases h : b.slotKind = 2
    · rw [hb h, Bool.not_true, Bool.and_false]
    · rw [beq_eq_false_iff_ne.mpr h, Bool.false_and]
  unfold State.blockHead
  dsimp only
  rw [hseg]
  simp only [Bool.false_eq_true, if_false]
  split
  · exact ⟨hg, rfl⟩
  · refine ⟨keepsSession_trans hg (keepsSession_trans (State.ackTo_session p _ b.ack) ?_), rfl⟩
    split
    · exact State.nackTo_session p _ _ _ _
    · split
      · exact State.relTo_session p _ _
      · exact keepsSession_refl p _

/-- What TP_CTRL.SF asks of the towpath leaves the session (R101). -/
theorem State.sfSync_session : keepsSession p s (s.sfSync p) := by
  unfold State.sfSync
  dsimp only
  split
  · unfold State.startTpsf State.queueCell
    exact keepsSession_trans (s.modTow_session p _ rfl) (State.modTow_session p _ _ rfl)
  · exact keepsSession_refl p s
/-- After a shift without writes that wait, the SF alone is brought in line (R87, R101). -/
theorem State.afterShift_session (h : (s.port p).link.wrOld = none) : keepsSession p s (s.afterShift p) := by
  have e : s.afterShift p = if (s.port p).link.state = .loconUp then s.sfSync p else s := by
    unfold State.afterShift
    rw [h]
    cases (s.port p).link.state <;> rfl
  rw [e]
  split
  · exact s.sfSync_session p
  · exact keepsSession_refl p s

end
end

end Sys2Proof.Machine
end

section
/-! PROOFS. SYNC blocks (R82, R85, R216 to R218): the session decision, and with it full duplex or a shift that ends. -/

namespace Sys2Proof.Machine

open State (keepsSession)

section
variable {p : Fin 16} {s : State}

/-! ### The session decision (R218) -/

/-- A resumed session changes what the sender sends again and what the receiver still holds, apart from releases. -/
theorem State.resume_eq (s : State) (p : Fin 16) (m : LineMode) (a r : Seq24) : ∃ u f g, keepsSession p s u
    ∧ s.resume p m a r = (u.modSnd p f).modRcv p g ∧ ∀ x, (g x).a = x.a ∧ (g x).partner = x.partner ∧ (g x).session = x.session := by
  have h := keepsSession_trans (s.ackTo_session p a) (State.relTo_session p _ r)
  unfold State.resume
  dsimp only
  split
  · exact ⟨_, Sender.recut, _, keepsSession_trans h (State.modTickets_session p _ _), rfl, fun _ => ⟨rfl, rfl, rfl⟩⟩
  · exact ⟨_, _, _, h, rfl, fun _ => ⟨rfl, rfl, rfl⟩⟩

/-- The receiver and the sender of a new session (R218). -/
theorem State.freshReceiver_eq (s : State) (p : Fin 16) (w : Word) : ∃ u, keepsSession p s u ∧ s.freshReceiver p w = u.modRcv p (fun r => { r with
    a := 0, r := 0, held := [], highest := none, nacks := [], parser := {}, refused := none, partner := w }) := by
  unfold State.freshReceiver
  dsimp only
  refine ⟨_, keepsSession_trans ?_ (State.modTickets_session p _ _), rfl⟩
  split
  · exact s.freeTicket_session p _ _
  · exact keepsSession_refl p s
theorem State.freshSender_eq (s : State) (p : Fin 16) : ∃ u, keepsSession p s u ∧ s.freshSender p = u.modSnd p (fun x => { x with
    s := 0, aKnown := 0, rKnown := 0, unacked := [], resend := [], roomWait := [], packing := none, redo := [], relSent := 0, sinceRel := 0 }) := by
  unfold State.freshSender
  dsimp only
  exact ⟨_, keepsSession_trans (s.freeAll_session p _ _) (keepsSession_trans (State.count_session p _ _ _ _) (State.modTickets_session p _ _)), rfl⟩

variable {m : LineMode} {b : Blk}

/-- What a session decision leaves: the link, this end's SESSION, and at most one event of its own. -/
structure State.settled (p : Fin 16) (s t : State) : Prop where
  around : t.around p = s.around p
  link : (t.port p).link = (s.port p).link
  session : (t.port p).rcv.session = (s.port p).rcv.session
  synced : (t.port p).snd.synced = true
  asm : (t.port p).tow.blkAsm = (s.port p).tow.blkAsm
  heard : ∃ n, s.ring.heard n t.ring
  load : t.ringLoad ≤ s.ringLoad + 1

/-- The SYNC names both sessions: the session resumes (R218). -/
theorem settleSession_resumes (h1 : BitVec.ofNat 32 (beAt b.payload 4 4) = (s.port p).rcv.session)
    (h2 : (s.port p).rcv.partner = BitVec.ofNat 32 (beAt b.payload 0 4)) : State.settled p s (s.settleSession p m b)
      ∧ ((s.settleSession p m b).port p).rcv.partner = (s.port p).rcv.partner ∧ ((s.settleSession p m b).port p).rcv.a = (s.port p).rcv.a := by
  obtain ⟨u, f, g, hu, e, hg⟩ := s.resume_eq p m (BitVec.ofNat 24 (beAt b.payload 8 3)) (BitVec.ofNat 24 (beAt b.payload 11 3))
  have ev : s.settleSession p m b = ((u.modSnd p f).modRcv p g).modSnd p (fun x => { x with synced := true }) := by
    unfold State.settleSession
    dsimp only
    rw [if_pos ⟨h1, h2⟩, e]
  have hk : (s.settleSession p m b).core p =
      { u.core p with snd := { f (u.core p).snd with synced := true }, rcv := g (u.core p).rcv } := by
    rw [ev, State.modSnd_core, State.modRcv_core, State.modSnd_core]
  obtain ⟨ha, hp, hs⟩ := hg (u.port p).rcv
  have hr : (s.settleSession p m b).ring = u.ring := by rw [ev]; rfl
  have hl : (s.settleSession p m b).tally = u.tally := by rw [ev]; rfl
  obtain ⟨hh, hn⟩ := hu.logs
  refine ⟨⟨?_, (link_of_core hk).trans hu.link, ?_, ?_, by rw [tow_of_core hk]; exact hu.asm, by rw [hr]; exact hh, ?_⟩, ?_, ?_⟩
  · rw [ev, State.modSnd_around, State.modRcv_around, State.modSnd_around]
    exact hu.around
  · rw [rcv_of_core hk]
    exact hs.trans hu.session
  · rw [snd_of_core hk]
  · unfold State.ringLoad at hn ⊢
    rw [hr, hl]
    exact Nat.le_succ_of_le hn
  · rw [rcv_of_core hk]
    exact hp.trans hu.partner
  · rw [rcv_of_core hk]
    exact ha.trans hu.a

/-- Any other SYNC starts a new session, and says so (R218). -/
theorem settleSession_starts (h : BitVec.ofNat 32 (beAt b.payload 4 4) ≠ (s.port p).rcv.session ∨ (s.port p).rcv.partner ≠ BitVec.ofNat 32 (beAt b.payload 0 4)) :
    State.settled p s (s.settleSession p m b) ∧ ((s.settleSession p m b).port p).rcv.partner = BitVec.ofNat 32 (beAt b.payload 0 4)
      ∧ ((s.settleSession p m b).port p).rcv.a = 0 ∧ ((s.settleSession p m b).port p).rcv.held = []
      ∧ ((s.settleSession p m b).port p).snd.s = 0 ∧ ((s.settleSession p m b).port p).snd.unacked = []
      ∧ (s.ringSpace → (s.settleSession p m b).noted 0x0018 p.val (s.port p).rcv.session) := by
  obtain ⟨u, hu, e1⟩ := s.freshReceiver_eq p (BitVec.ofNat 32 (beAt b.payload 0 4))
  generalize hx : u.modRcv p _ = x at e1
  obtain ⟨v, hv, e2⟩ := x.freshSender_eq p
  generalize hy : v.modSnd p _ = y at e2
  have ev : s.settleSession p m b =
      (y.raise 0x0018 (portBlock p.val) p.val (s.port p).rcv.session (BitVec.ofNat 32 (beAt b.payload 0 4))).modSnd p (fun x => { x with synced := true }) := by
    unfold State.settleSession
    dsimp only
    rw [if_neg (not_and_or.mpr h), e1, e2]
  have hkx := (congrArg (State.core · p) hx).symm.trans (State.modRcv_core ..)
  have hky := (congrArg (State.core · p) hy).symm.trans (State.modSnd_core ..)
  have hk : (s.settleSession p m b).core p = { y.core p with snd := { (y.core p).snd with synced := true } } := by
    rw [ev, State.modSnd_core, State.raise_core]
  have hl : (y.port p).link = (s.port p).link := (link_of_core hky).trans (hv.link.trans ((link_of_core hkx).trans hu.link))
  have hyr : (y.port p).rcv = (v.port p).rcv := rcv_of_core hky
  have ha : y.around p = s.around p := by
    rw [← hy, State.modSnd_around, hv.around, ← hx, State.modRcv_around, hu.around]
  have hlg : s.logs y := by
    have h1 : s.logs x := hx ▸ logs_trans hu.logs (logs_of rfl rfl)
    exact hy ▸ logs_trans (logs_trans h1 hv.logs) (logs_of rfl rfl)
  obtain ⟨⟨n, hn⟩, hload⟩ := hlg
  have hraise := y.raise_heard 0x0018 (portBlock p.val) p.val (s.port p).rcv.session (BitVec.ofNat 32 (beAt b.payload 0 4)) 0 0
  have hr : (s.settleSession p m b).ring = (y.raise 0x0018 (portBlock p.val) p.val (s.port p).rcv.session (BitVec.ofNat 32 (beAt b.payload 0 4))).ring := by
    rw [ev]; rfl
  refine ⟨⟨?_, (link_of_core hk).trans hl, ?_, ?_, ?_, ⟨n + 1, hr ▸ heard_trans hn hraise (Nat.le_refl _)⟩, ?_⟩, ?_, ?_, ?_, ?_, ?_, fun hsp => ?_⟩
  · rw [ev, State.modSnd_around, State.raise_around, ha]
  · rw [rcv_of_core hk]
    exact (congrArg Receiver.session hyr).trans (hv.session.trans ((congrArg Receiver.session (rcv_of_core hkx)).trans hu.session))
  · rw [snd_of_core hk]
  · rw [tow_of_core hk]
    exact (congrArg Towpath.blkAsm (tow_of_core hky)).trans (hv.asm.trans ((congrArg Towpath.blkAsm (tow_of_core hkx)).trans hu.asm))
  · have hlen := heard_length hraise
    have hf : (s.settleSession p m b).tally.logFull = y.tally.logFull := by
      rw [ev]
      exact raise_logFull y _ _ _ _ _ _ _
    unfold State.ringLoad at hload ⊢
    rw [hr, hf]
    omega
  · rw [rcv_of_core hk]
    exact (congrArg Receiver.partner hyr).trans (hv.partner.trans (congrArg Receiver.partner (rcv_of_core hkx)))
  · rw [rcv_of_core hk]
    exact (congrArg Receiver.a hyr).trans (hv.a.trans (congrArg Receiver.a (rcv_of_core hkx)))
  · rw [rcv_of_core hk]
    exact (congrArg Receiver.held hyr).trans (hv.held.trans (congrArg Receiver.held (rcv_of_core hkx)))
  · rw [snd_of_core hk]
    exact congrArg Sender.s (snd_of_core hky)
  · rw [snd_of_core hk]
    exact congrArg Sender.unacked (snd_of_core hky)
  · have hroom : y.ringRoom := by
      unfold State.ringLoad at hload
      unfold State.ringSpace at hsp
      unfold State.ringRoom
      split at hload <;> split at hload <;> omega
    exact noted_ring (State.raise_noted y _ _ _ _ _ _ _ hroom) hr

/-- What every session decision leaves. -/
theorem settleSession_settled (s : State) (p : Fin 16) (m : LineMode) (b : Blk) : State.settled p s (s.settleSession p m b) := by
  by_cases h1 : BitVec.ofNat 32 (beAt b.payload 4 4) = (s.port p).rcv.session
  · by_cases h2 : (s.port p).rcv.partner = BitVec.ofNat 32 (beAt b.payload 0 4)
    · exact (settleSession_resumes h1 h2).1
    · exact (settleSession_starts (.inr h2)).1
  · exact (settleSession_starts (.inl h1)).1

/-! ### What the first valid SYNC ends (R82, R85) -/

/-- Full duplex comes up, an acknowledged shift is done. -/
def State.syncEnds (s : State) (p : Fin 16) (m : LineMode) : State :=
  match (s.port p).link.state with
  | .fullDuplex => s.linkUp p m .loconUp
  | .shift => if (s.port p).link.shift.any (fun (r : ShiftRec) => r.acked) then s.shiftDone p else s
  | _ => s

theorem State.shiftDone_core (s : State) (p : Fin 16) {sh : ShiftRec} (h : (s.port p).link.shift = some sh) : (s.shiftDone p).core p =
    { s.core p with link := { (s.core p).link with
        state := .loconUp, modeAct := some sh.target, train := none, shift := none, forceFail := s.stillFails p sh.target
        shifts16 := satAdd 0xFFFF (s.core p).link.shifts16 1
        ladder := { (s.core p).link.ladder with below := 0, above := 0, settle := 2 }
        upNow := (s.core p).link.upNow && sh.target != .l50a } } := by
  unfold State.shiftDone
  dsimp only
  rw [h]
  dsimp only
  rw [State.lineSync_core, State.raise_core, State.goLink_core, State.modPort_core]
  rfl

theorem State.goLink_raise_heard {s u : State} (p : Fin 16) (hu : u.ring = s.ring) (f : Link → Link) (c b n : Nat) (w x y z : Word) :
    s.ring.heard 15 (((u.goLink p f).raise c b n w x y z).lineSync p).ring := by
  have h := heard_trans (u.goLink_heard p f) (State.raise_heard _ c b n w x y z) (Nat.le_refl 13)
  rw [hu] at h
  exact heard_trans h (State.lineSync_heard _ p) (Nat.le_refl 15)
theorem State.linkUp_heard (s : State) (p : Fin 16) (m : LineMode) (st : LinkState) : s.ring.heard 15 (s.linkUp p m st).ring := by
  unfold State.linkUp
  dsimp only
  refine State.goLink_raise_heard p ?_ _ _ _ _ _ _ _ _
  exact State.modPort_ring ..
theorem State.shiftDone_heard (s : State) (p : Fin 16) : s.ring.heard 15 (s.shiftDone p).ring := by
  unfold State.shiftDone
  dsimp only
  split
  · exact heard_refl _ 15
  · refine State.goLink_raise_heard p ?_ _ _ _ _ _ _ _ _
    exact State.modPort_ring ..
theorem State.shiftDone_noted (s : State) (p : Fin 16) {sh : ShiftRec} (h : (s.port p).link.shift = some sh) (hr : s.ring.untaken.length < 244) :
    (s.shiftDone p).noted 0x0012 p.val (wd (modeCode sh.left + 256 * modeCode sh.target + 65536 * sh.kind)) := by
  unfold State.shiftDone
  dsimp only
  rw [h]
  exact noted_lineSync _ p (State.raise_noted _ _ _ _ _ _ _ _ (State.goLink_room _ p _ hr))

/-- What ends with the first SYNC leaves the session and the writes that wait. -/
structure State.syncEnded (p : Fin 16) (s t : State) : Prop where
  around : t.around p = s.around p
  rcv : (t.port p).rcv = (s.port p).rcv
  snd : (t.port p).snd = (s.port p).snd
  wrOld : (t.port p).link.wrOld = (s.port p).link.wrOld
  tow : (t.port p).tow = (s.port p).tow
  heard : s.ring.heard 15 t.ring
theorem syncEnded_refl (s : State) : State.syncEnded p s s := ⟨rfl, rfl, rfl, rfl, rfl, heard_refl _ 15⟩
theorem syncEnds_ended (s : State) (p : Fin 16) (m : LineMode) : State.syncEnded p s (s.syncEnds p m) := by
  unfold State.syncEnds
  split
  · have e := s.linkUp_core p m .loconUp
    exact ⟨s.linkUp_around p m _, rcv_of_core e, snd_of_core e, by rw [link_of_core e]; rfl, tow_of_core e, s.linkUp_heard p m _⟩
  · split
    · next h =>
      obtain ⟨sh, hs, _⟩ := Option.any_eq_true _ _ |>.mp h
      have e := s.shiftDone_core p hs
      exact ⟨s.shiftDone_around p, rcv_of_core e, snd_of_core e, by rw [link_of_core e]; rfl, tow_of_core e, s.shiftDone_heard p⟩
    · exact syncEnded_refl s
  · exact syncEnded_refl s

/-! ### The first valid SYNC -/

section
variable (hs : s.steady p) (hr : (s.port p).blocksRun = true) (hb : b.payload.length = (s.port p).blkPay) (hk : b.slotKind = 0)
  (hm : (s.port p).blockMode = some m) (hy : (s.port p).snd.synced = false) (hv : syncValid m b = true) (hw : (s.port p).link.wrOld = none)
include hs hr hb hk hm hy hv hw

/-- The first valid SYNC: the session decision, the block's head, what ends with it, and what follows at the receiver. -/
theorem sync_does {P : State → Prop}
    (hP : ∀ w z, keepsSession p (s.settleSession p m b) w → keepsSession p (w.syncEnds p m) z → P (settle s z)) : Does (.sync p b) s P := by
  have hset := settleSession_settled s p m b
  obtain ⟨hkw, hc⟩ := (s.settleSession p m b).blockHead_session p b (fun h => absurd (hk.symm.trans h) (by decide))
  have htake : s.takeSync p b = (((((s.settleSession p m b).blockHead p b).1.syncEnds p m).rcvSync p), none) := by
    rw [← hc]
    unfold State.takeSync State.syncEnds
    rw [hm]
    dsimp only
    rw [hy, hv]
    rfl
  generalize ((s.settleSession p m b).blockHead p b).1 = w at hkw htake
  have he := syncEnds_ended w p m
  have hz := (w.syncEnds p m).rcvSync_session p
  have hwr : (((w.syncEnds p m).rcvSync p).port p).link.wrOld = none := by
    rw [hz.link, he.wrOld, hkw.link, hset.link, hw]
  have ha := State.afterShift_session p _ hwr
  have e : s.onSync p b = ((w.syncEnds p m).rcvSync p).afterShift p := by
    unfold State.onSync State.blockFits
    rw [hr, hb, htake]
    simp only [beq_self_eq_true, Bool.and_self, Bool.not_true, Bool.false_eq_true, if_false]
    rfl
  have hzz := keepsSession_trans hz ha
  refine runsPort_does ?_ hs (congrArg (s.runsPort p) e) (hP w _ hkw hzz)
  rw [hzz.around, he.around, hkw.around, hset.around]

theorem sync_resumes (h1 : BitVec.ofNat 32 (beAt b.payload 4 4) = (s.port p).rcv.session)
    (h2 : (s.port p).rcv.partner = BitVec.ofNat 32 (beAt b.payload 0 4)) :
    Does (.sync p b) s (fun t => (t.port p).snd.synced = true ∧ (t.port p).rcv.partner = (s.port p).rcv.partner ∧ (t.port p).rcv.a = (s.port p).rcv.a
      ∧ (t.port p).rcv.session = (s.port p).rcv.session) := by
  refine sync_does hs hr hb hk hm hy hv hw fun w z hkw hz => ?_
  obtain ⟨hset, hp, ha⟩ := settleSession_resumes (m := m) h1 h2
  have he := syncEnds_ended w p m
  have hc := settle_core z p s
  rw [snd_of_core hc, rcv_of_core hc]
  exact ⟨hz.synced.trans ((congrArg Sender.synced he.snd).trans (hkw.synced.trans hset.synced)),
    hz.partner.trans ((congrArg Receiver.partner he.rcv).trans (hkw.partner.trans hp)),
    hz.a.trans ((congrArg Receiver.a he.rcv).trans (hkw.a.trans ha)),
    hz.session.trans ((congrArg Receiver.session he.rcv).trans (hkw.session.trans hset.session))⟩

theorem sync_starts (h : BitVec.ofNat 32 (beAt b.payload 4 4) ≠ (s.port p).rcv.session ∨ (s.port p).rcv.partner ≠ BitVec.ofNat 32 (beAt b.payload 0 4)) :
    Does (.sync p b) s (fun t => (t.port p).snd.synced = true ∧ (t.port p).rcv.partner = BitVec.ofNat 32 (beAt b.payload 0 4) ∧ (t.port p).rcv.a = 0
      ∧ (t.port p).rcv.held = [] ∧ (t.port p).snd.s = 0 ∧ (t.port p).snd.unacked = [] ∧ (t.port p).rcv.session = (s.port p).rcv.session
      ∧ (s.ringSpace → t.noted 0x0018 p.val (s.port p).rcv.session)) := by
  refine sync_does hs hr hb hk hm hy hv hw fun w z hkw hz => ?_
  obtain ⟨hset, hp, ha, hh, hq, hu, hn⟩ := settleSession_starts (m := m) h
  have he := syncEnds_ended w p m
  have hc := settle_core z p s
  rw [snd_of_core hc, rcv_of_core hc]
  exact ⟨hz.synced.trans ((congrArg Sender.synced he.snd).trans (hkw.synced.trans hset.synced)),
    hz.partner.trans ((congrArg Receiver.partner he.rcv).trans (hkw.partner.trans hp)),
    hz.a.trans ((congrArg Receiver.a he.rcv).trans (hkw.a.trans ha)),
    hz.held.trans ((congrArg Receiver.held he.rcv).trans (hkw.held.trans hh)),
    hz.seq.trans ((congrArg Sender.s he.snd).trans (hkw.seq.trans hq)),
    hz.unacked ((congrArg Sender.unacked he.snd).trans (hkw.unacked hu)),
    hz.session.trans ((congrArg Receiver.session he.rcv).trans (hkw.session.trans hset.session)),
    fun hsp => noted_ring (logs_noted hz.logs (noted_heard (logs_noted hkw.logs (hn hsp)) he.heard)) (settle_ring _ _)⟩

omit hs hr hb hk hm hy hv hw in
/-- After the session decision the ring still has room for what ends with it. -/
theorem room_settled {w : State} (hkw : keepsSession p (s.settleSession p m b) w) (h : s.ringSpace) : w.ring.untaken.length < 244 := by
  have h1 := (settleSession_settled s p m b).load
  have h2 := hkw.logs.2
  unfold State.ringLoad at h1 h2
  unfold State.ringSpace at h
  have h3 : (if s.tally.logFull then 0 else 1) ≤ 1 := by split <;> decide
  omega

theorem sync_fullDuplex (hl : (s.port p).link.state = .fullDuplex) : Does (.sync p b) s (s.cameUp p m .loconUp) := by
  refine sync_does hs hr hb hk hm hy hv hw fun w z hkw hz => ?_
  have hset := settleSession_settled s p m b
  have hwl : (w.port p).link.state = .fullDuplex := by rw [hkw.link, hset.link, hl]
  have hx : w.syncEnds p m = w.linkUp p m .loconUp := by
    unfold State.syncEnds
    rw [hwl]
  rw [hx] at hz
  have e := (link_of_core (settle_core z p s)).trans (hz.link.trans (link_of_core (w.linkUp_core p m .loconUp)))
  have haw : w.around p = s.around p := hkw.around.trans hset.around
  rw [State.cameUp, e, ← far_ticks (around_far haw)]
  refine ⟨rfl, rfl, rfl, rfl, fun h => ?_, fun q hq => ?_⟩
  · exact noted_ring (logs_noted hz.logs (w.linkUp_noted p m .loconUp (room_settled hkw h))) (settle_ring _ _)
  · rw [settle_port_link]
    exact around_link (hz.around.trans ((w.linkUp_around p m .loconUp).trans haw)) hq

theorem sync_shift {sh : ShiftRec} (hl : (s.port p).link.state = .shift) (hh : (s.port p).link.shift = some sh) (hd : sh.acked = true) :
    Does (.sync p b) s (fun t => (t.port p).link.state = .loconUp ∧ (t.port p).link.modeAct = some sh.target ∧ (t.port p).link.shift = none
      ∧ (t.port p).link.ladder.settle = 2
      ∧ (s.ringSpace → t.noted 0x0012 p.val (wd (modeCode sh.left + 256 * modeCode sh.target + 65536 * sh.kind)))) := by
  refine sync_does hs hr hb hk hm hy hv hw fun w z hkw hz => ?_
  have hset := settleSession_settled s p m b
  have hwl : (w.port p).link = (s.port p).link := hkw.link.trans hset.link
  have hws : (w.port p).link.shift = some sh := by rw [hwl, hh]
  have hx : w.syncEnds p m = w.shiftDone p := by
    unfold State.syncEnds
    rw [hwl, hl, hh]
    exact if_pos hd
  rw [hx] at hz
  rw [(link_of_core (settle_core z p s)).trans (hz.link.trans (link_of_core (w.shiftDone_core p hws)))]
  exact ⟨rfl, rfl, rfl, rfl, fun h =>
    noted_ring (logs_noted hz.logs (w.shiftDone_noted p hws (room_settled hkw h))) (settle_ring _ _)⟩

end
end

end Sys2Proof.Machine
end

section
/-! PROOFS. Frames of the standard modes (R230, R280, R286), and with them sessions and standard frames. -/

namespace Sys2Proof.Machine

/-! ### The tickets that flow control, logging and cadences leave -/

section
variable (s : State)

theorem State.gateOne_basin (p : Fin 16) (k : Nat) (c : Custody) : (s.gateOne p k c).basin = s.basin := by
  unfold State.gateOne
  exact ite_keep State.basin rfl (ite_keep State.basin rfl rfl)
theorem State.gateSync_basin (p : Fin 16) : (s.gateSync p).basin = s.basin := by
  unfold State.gateSync
  split
  · rw [State.gateOne_basin, State.gateOne_basin, State.gateOne_basin]
  · rfl
theorem State.hopSync_tickets : s.hopSync.basin.tickets = s.basin.tickets := by
  unfold State.hopSync
  dsimp only
  (repeat' split) <;> rfl
theorem State.qflowSync_tickets (q : Nat) : (s.qflowSync q).basin.tickets = s.basin.tickets := by
  unfold State.qflowSync
  dsimp only
  (repeat' split) <;> rfl
theorem State.flowSync_tickets (q : Nat) : (s.flowSync q).basin.tickets = s.basin.tickets := by
  unfold State.flowSync
  rw [State.qflowSync_tickets, State.hopSync_tickets, State.gateSync_basin]
theorem State.sendRelease_tickets (q : Nat) : (s.sendRelease q).basin.tickets = s.basin.tickets := by
  unfold State.sendRelease
  (repeat' split) <;> rfl
theorem State.logTicket_basin (t : Ticket) (d : Bool) : (s.logTicket t d).basin = s.basin := by
  unfold State.logTicket
  dsimp only
  (repeat' split) <;> simp
theorem State.tagPick_kept (q : Nat) (out : Bool) : (s.tagPick q out).2.basin = s.basin ∧ (s.tagPick q out).2.time = s.time := by
  unfold State.tagPick
  dsimp only
  (repeat' split) <;> exact ⟨by simp, by simp⟩

/-- A ticket freed is the only one that goes. -/
theorem State.freeTicket_tickets (i : Nat) (d : Bool) : (s.freeTicket i d).basin.tickets = s.basin.tickets.filter (fun x => x.id != i) := by
  unfold State.freeTicket
  split
  · next h =>
    refine (List.filter_eq_self.mpr fun x hx => ?_).symm
    have := List.find?_eq_none.mp h x hx
    simpa using this
  · rw [State.flowSync_tickets, State.count_basin, State.logTicket_basin]
    rfl

/-! ### The count of discarded frames -/

/-- Any state of the same frame, held part and clocks with the same counters keeps every count. -/
theorem keepsCount_around {s t : State} {p : Fin 16} (h : t.around p = s.around p) (hc : t.tally.counters = s.tally.counters) (b code : Nat) :
    s.keepsCount b code t := keepsCount_of (around_frame h) (around_held h) (far_mended (around_far h)) hc b code

theorem keepsCount_basin (x : Basin) (b code : Nat) : s.keepsCount b code { s with basin := x } :=
  keepsCount_of (s := s) (t := { s with basin := x }) rfl rfl rfl rfl b code

theorem State.flowSync_tally (q : Nat) : (s.flowSync q).tally = s.tally := by
  have hg (t : State) (p : Fin 16) : (t.gateSync p).tally = t.tally := by
    have h1 (u : State) (k : Nat) (c : Custody) : (u.gateOne p k c).tally = u.tally := by
      unfold State.gateOne
      exact ite_keep State.tally rfl (ite_keep State.tally rfl rfl)
    unfold State.gateSync
    split
    · rw [h1, h1, h1]
    · rfl
  have hh (t : State) : t.hopSync.tally = t.tally := by
    unfold State.hopSync
    dsimp only
    (repeat' split) <;> rfl
  have hq (t : State) (q : Nat) : (t.qflowSync q).tally = t.tally := by
    unfold State.qflowSync
    dsimp only
    (repeat' split) <;> rfl
  unfold State.flowSync
  rw [hq, hh, hg]

theorem State.logTicket_keepsCount (t : Ticket) (d : Bool) : s.keepsCount 3 0x202 (s.logTicket t d) := by
  unfold State.logTicket
  split
  · exact keepsCount_refl s 3 _
  · next tr _ =>
    split
    · exact keepsCount_refl s 3 _
    · dsimp only
      generalize hy : ({ s.tally with log := _, logNext := _, logSeq := _ } : Tally) = y
      have h1 : s.keepsCount 3 0x202 { s with tally := y } := keepsCount_of (s := s) (t := { s with tally := y }) rfl rfl rfl (by rw [← hy]) 3 _
      have h2 := keepsCount_trans h1 (State.count_keeps _ 4 3 1 (.inl (by decide)))
      generalize State.count { s with tally := y } 4 3 1 = u at h2 ⊢
      split
      · have h3 : u.keepsCount 3 0x202 { u with tally := { u.tally with logFull := true } } :=
          keepsCount_of (s := u) (t := { u with tally := { u.tally with logFull := true } }) rfl rfl rfl rfl 3 _
        exact keepsCount_trans h2 (keepsCount_trans h3 (State.raise_keeps _ _ _ _ _ _ _ _ (by decide)))
      · exact h2
theorem State.freeTicket_keepsCount (i : Nat) (d : Bool) : s.keepsCount 3 0x202 (s.freeTicket i d) := by
  unfold State.freeTicket
  split
  · exact keepsCount_refl s 3 _
  · next t _ =>
    have h1 : s.keepsCount 3 0x202 (s.modTickets (fun l => l.filter (fun x => x.id != i))) :=
      keepsCount_of (s := s) (t := s.modTickets (fun l => l.filter (fun x => x.id != i))) rfl rfl rfl rfl 3 _
    refine keepsCount_trans h1 (keepsCount_trans (State.logTicket_keepsCount _ t d) (keepsCount_trans (State.count_keeps _ 3 1 1 (.inr (by decide))) ?_))
    exact keepsCount_around (p := 0) (State.flowSync_session 0 _ _).around (congrArg Tally.counters (State.flowSync_tally _ _)) 3 _

/-- An arrival's part in a cadence is its own record, and an event at a cadence newly lost (R286). -/
theorem State.trackEntry_kept (q a : Nat) (e : Nat × Cadence) : (s.trackEntry q a e).basin = s.basin ∧ (s.trackEntry q a e).time.now = s.time.now
    ∧ s.keepsCount 3 0x202 (s.trackEntry q a e) := by
  unfold State.trackEntry
  dsimp only
  split
  · generalize hu : (s.putCad e.1 (trackOne e.2 a).1).reanchor e.1 = u
    have hk : u.basin = s.basin ∧ u.time.now = s.time.now ∧ s.keepsCount 3 0x202 u := by
      subst hu
      exact ⟨rfl, rfl, keepsCount_of (s := s) (t := (s.putCad e.1 (trackOne e.2 a).1).reanchor e.1) rfl rfl rfl rfl 3 _⟩
    split
    · refine ⟨(State.raise_basin ..).trans hk.1, ?_, keepsCount_trans hk.2.2 (State.raise_keeps _ _ _ _ _ _ _ _ (by decide))⟩
      rw [State.raise_time]
      exact hk.2.1
    · exact hk
  · exact ⟨rfl, rfl, keepsCount_refl s 3 _⟩
theorem State.cadArrive_kept (q a : Nat) : (s.cadArrive q a).basin = s.basin ∧ (s.cadArrive q a).time.now = s.time.now
    ∧ s.keepsCount 3 0x202 (s.cadArrive q a) :=
  ⟨foldl_keep State.basin _ _ s fun t e => (t.trackEntry_kept q _ e).1, foldl_keep (fun t => t.time.now) _ _ s fun t e => (t.trackEntry_kept q _ e).2.1,
    foldl_keepsCount _ _ (fun t e => (t.trackEntry_kept q _ e).2.2) s⟩

/-- A ticket issued (R227, R230): one more, of the next number. -/
theorem State.issue_kept (q : Queue) (len : Nat) (r : Bool) : (s.issue q len r).1 = s.basin.nextId
    ∧ (∃ x : Ticket, (s.issue q len r).2.basin.tickets = s.basin.tickets ++ [x] ∧ x.id = s.basin.nextId ∧ x.queue = q.num ∧ x.ts = tsOf s.time.now)
    ∧ (s.issue q len r).2.basin.queues = s.basin.queues ∧ (s.issue q len r).2.time = s.time ∧ s.keepsCount 3 0x202 (s.issue q len r).2 := by
  obtain ⟨hb, ht⟩ := s.tagPick_kept q.num q.outbound
  have hk : s.keepsCount 3 0x202 (s.tagPick q.num q.outbound).2 := by
    have hl (l : Word) : s.keepsCount 3 0x202 { s with tally := { s.tally with lfsr := l } } :=
      keepsCount_of (s := s) (t := { s with tally := { s.tally with lfsr := l } }) rfl rfl rfl rfl 3 _
    unfold State.tagPick
    dsimp only
    split
    · split
      · split
        · exact hl _
        · split
          · exact keepsCount_trans (hl _) (State.count_keeps _ 4 1 1 (.inl (by decide)))
          · exact keepsCount_trans (hl _) (State.count_keeps _ 4 2 1 (.inl (by decide)))
      · exact hl _
    · exact keepsCount_refl s 3 _
  unfold State.issue
  dsimp only
  generalize s.tagPick q.num q.outbound = tr at hb ht hk ⊢
  obtain ⟨tr, u⟩ := tr
  dsimp only at hb ht hk ⊢
  refine ⟨by rw [hb], ?_, ?_, ?_, ?_⟩
  · simp only [State.count_basin]
    rw [hb, ht]
    exact ⟨_, rfl, rfl, rfl, rfl⟩
  · rw [State.count_basin, State.count_basin, hb]
  · rw [State.count_time, State.count_time, ht]
  · refine keepsCount_trans hk (keepsCount_trans ?_ (keepsCount_trans (State.count_keeps _ 3 0 1 (.inr (by decide))) (State.count_keeps _ 3 7 _ (.inr (by decide)))))
    exact keepsCount_basin u _ 3 _

end

/-! ### Frames of a standard link -/

section
variable {s : State} {p : Fin 16}

/-- A frame for no queue that takes one is discarded and counted (R230). -/
theorem count_discards {c : Instr} (hc : s.clocked = true) {t : State} (he : exec c s = s.runs t) {u : State} (ht : t.basin.tickets = s.basin.tickets)
    (h : s.keepsCount 3 0x202 u) (g : (u.count 3 2 1).keepsCount 3 0x202 t) : Does c s (fun t => t.basin.tickets = s.basin.tickets ∧ s.counts 3 2 t) := by
  have k : (u.count 3 2 1).keepsCount 3 (0x200 + 2) (settle s t) := keepsCount_trans g (settle_keeps s t (by decide) (by decide) (by decide))
  refine runs_does hc he ⟨?_, counts_of h k⟩
  rw [settle_basin, ht]

theorem stdFrame_down (hc : s.clocked = true) (hl : (s.port p).link.state ≠ .stdUp) : Does (.stdFrameSent p) s (fun t => t.basin = s.basin)
    ∧ ∀ tag ok f, Does (.stdFrameReceived p tag ok f) s (fun t => t.basin = s.basin) := by
  have h {c : Instr} {t : State} (he : exec c s = s.runs t) (e : t = s) : Does c s (fun t => t.basin = s.basin) := by
    rw [e] at he
    exact runs_does hc he (settle_basin s s)
  exact ⟨h rfl (if_pos hl), fun tag ok f => h rfl (if_pos hl)⟩

section
variable (hc : s.clocked = true) (hl : (s.port p).link.state = .stdUp)
include hc hl

theorem stdFrameReceived_unopened (tag : Byte) (ok : Bool) (f : List Byte)
    (h : s.queue? (tagQueue p tag) = none ∨ ∃ q, s.queue? (tagQueue p tag) = some q ∧ (q.outbound = true ∨ q.closing ≠ none)) :
    Does (.stdFrameReceived p tag ok f) s (fun t => t.basin.tickets = s.basin.tickets ∧ s.counts 3 2 t) := by
  have e : s.stdArrives p tag ok f = s.count 3 2 1 := by
    unfold State.stdArrives
    rw [if_neg (not_not.mpr hl)]
    dsimp only
    rcases h with h | ⟨q, h, hq⟩
    · rw [show s.queue? (p.val * 256 + tag.toNat) = none from h]
    · rw [show s.queue? (p.val * 256 + tag.toNat) = some q from h]
      refine if_pos ?_
      rcases hq with hq | hq
      · rw [hq, Bool.true_or]
      · rw [Option.isSome_iff_ne_none.mpr hq, Bool.or_true]
  exact count_discards hc (congrArg s.runs e) (by rw [State.count_basin]) (keepsCount_refl s 3 _) (keepsCount_refl _ 3 _)

section
variable {tag : Byte} {f : List Byte} {q : Queue} (hq : s.queue? (tagQueue p tag) = some q) (ho : q.outbound = false) (hd : q.closing = none)
include hq ho hd

theorem stdFrameReceived_full (hr : s.hasRoom q f.length = false) (ok : Bool) :
    Does (.stdFrameReceived p tag ok f) s (fun t => t.basin.tickets = s.basin.tickets ∧ s.counts 3 2 t) := by
  have e : s.stdArrives p tag ok f = (s.count 3 2 1).count (portBlock p.val) 16 (if q.cls == .none then 1 else 0) := by
    unfold State.stdArrives
    rw [if_neg (not_not.mpr hl)]
    dsimp only
    rw [show s.queue? (p.val * 256 + tag.toNat) = some q from hq]
    dsimp only
    rw [ho, hd, hr]
    rfl
  exact count_discards hc (congrArg s.runs e) (by rw [State.count_basin, State.count_basin]) (keepsCount_refl s 3 _)
    (State.count_keeps _ _ 16 _ (.inr (by decide)))

omit hc in
/-- A frame for an open queue with room gets a ticket (R230, R280): the next number, its bytes and its stamp. -/
theorem stdArrives_issues (hr : s.hasRoom q f.length = true) (ok : Bool) (hn : ∀ x ∈ s.basin.tickets, x.id ≠ s.basin.nextId) : ∃ (u : State) (x : Ticket),
    s.stdArrives p tag ok f = (if ok then (u.queueTicket s.basin.nextId).gateSync p else (u.freeTicket s.basin.nextId true).count 3 2 1)
      ∧ u.basin.tickets = s.basin.tickets ++ [x] ∧ x.id = s.basin.nextId ∧ x.queue = q.num ∧ x.bytes = f ∧ x.ts = tsOf s.time.now
      ∧ u.basin.queues = s.basin.queues ∧ s.keepsCount 3 0x202 u := by
  obtain ⟨hid, ⟨x, hx, hxi, hxq, hxt⟩, hqs, ht, hk⟩ := s.issue_kept q f.length false
  generalize hv : (s.issue q f.length false).2 = v at hx hqs ht hk
  generalize hw : v.modTicket s.basin.nextId (fun t => { t with bytes := f }) = w
  have hwt : w.basin.tickets = s.basin.tickets ++ [{ x with bytes := f }] := by
    rw [← hw]
    show v.basin.tickets.map _ = _
    rw [hx, List.map_append, List.map_cons, List.map_nil, if_pos (by rw [hxi]; exact beq_self_eq_true _)]
    congr 1
    conv_rhs => rw [← List.map_id s.basin.tickets]
    exact List.map_congr_left fun y hy => if_neg (by simpa using hn y hy)
  have hwk : v.keepsCount 3 0x202 w := by
    rw [← hw]
    exact keepsCount_of (s := v) (t := v.modTicket s.basin.nextId _) rfl rfl rfl rfl 3 _
  have hwq : w.basin.queues = s.basin.queues := by rw [← hw]; exact hqs
  obtain ⟨h1, _, h3⟩ := w.cadArrive_kept (p.val * 256 + tag.toNat) s.time.now
  refine ⟨w.cadArrive (p.val * 256 + tag.toNat) s.time.now, { x with bytes := f }, ?_, by rw [h1, hwt], hxi, hxq, rfl, hxt, by rw [h1, hwq],
    keepsCount_trans hk (keepsCount_trans hwk h3)⟩
  unfold State.stdArrives
  rw [if_neg (not_not.mpr hl)]
  dsimp only
  rw [show s.queue? (p.val * 256 + tag.toNat) = some q from hq]
  dsimp only
  rw [ho, hd, hr, hid, hv, hw]
  rfl

theorem stdFrameReceived_bad (hr : s.hasRoom q f.length = true) (hn : ∀ x ∈ s.basin.tickets, x.id ≠ s.basin.nextId) :
    Does (.stdFrameReceived p tag false f) s (fun t => t.basin.tickets = s.basin.tickets ∧ s.counts 3 2 t) := by
  obtain ⟨u, x, e, hx, hxi, _, _, _, _, hk⟩ := stdArrives_issues hl hq ho hd hr false hn
  refine count_discards hc (congrArg s.runs e) ?_ (keepsCount_trans hk (u.freeTicket_keepsCount s.basin.nextId true)) (keepsCount_refl _ 3 _)
  rw [if_neg nofun, State.count_basin, State.freeTicket_tickets, hx, List.filter_append, List.filter_cons_of_neg (by rw [hxi]; simp),
    List.filter_nil, List.append_nil]
  exact List.filter_eq_self.mpr fun y hy => by simpa using hn y hy

theorem stdFrameReceived_good (hr : s.hasRoom q f.length = true) (hn : ∀ x ∈ s.basin.tickets, x.id ≠ s.basin.nextId) :
    Does (.stdFrameReceived p tag true f) s (fun t => ∃ x ∈ t.basin.tickets, x.id = s.basin.nextId ∧ x.queue = q.num ∧ x.state = .queued ∧ x.bytes = f
      ∧ x.seq = q.nextSeq ∧ x.ts = tsOf s.time.now) := by
  obtain ⟨u, x, e, hx, hxi, hxq, hxb, hxt, huq, _⟩ := stdArrives_issues hl hq ho hd hr true hn
  have hfind : u.ticket? s.basin.nextId = some x := by
    unfold State.ticket?
    rw [hx, List.find?_append, List.find?_eq_none.mpr fun y hy => by simpa using hn y hy]
    simp [hxi]
  have hnum : q.num = tagQueue p tag := by simpa using List.find?_some hq
  have hqu : u.queue? x.queue = some q := by
    unfold State.queue?
    rw [huq, hxq, hnum]
    exact hq
  have eq : u.queueTicket s.basin.nextId = ((u.modTicket s.basin.nextId (fun t => { t.stage 2 (tsOf u.time.now) with state := .queued, seq := q.nextSeq })).modQueue
      q.num (fun q => { q with nextSeq := q.nextSeq + 1 })).flowSync q.num := by
    unfold State.queueTicket
    rw [hfind]
    dsimp only
    rw [hqu]
  refine runs_does hc (congrArg s.runs (e.trans (if_pos rfl))) ⟨{ x.stage 2 (tsOf u.time.now) with state := .queued, seq := q.nextSeq }, ?_, hxi, hxq, rfl, hxb, rfl, hxt⟩
  rw [settle_basin, State.gateSync_basin, eq, State.flowSync_tickets]
  show _ ∈ u.basin.tickets.map _
  exact List.mem_map.mpr ⟨x, by rw [hx]; simp, if_pos (by rw [hxi]; exact beq_self_eq_true _)⟩

end

section
variable (hk : ∀ x ∈ s.basin.tickets, x.corrupt = false) {heads : List (Queue × Ticket)}
  (hh : heads = (s.basin.queues.filter (fun q => q.outbound && q.num / 256 == p.val)).filterMap (fun q =>
    ((s.ticketsOf q.num).find? (fun x => x.state == .queued)).map (fun x => (q, x))))
include hk hh

omit hc hl hh in
theorem dropCorrupt_none : s.dropCorrupt p = s := by
  unfold State.dropCorrupt
  dsimp only
  rw [List.filter_eq_nil_iff.mpr fun x hx => by rw [hk x hx]; simp]
  rfl

theorem stdFrameSent_leaves {c : Bool} {num id : Nat} (hp : pickHead heads (s.port p).snd.rr = some (c, num, id)) :
    Does (.stdFrameSent p) s (fun t => t.basin.tickets = s.basin.tickets.filter (fun x => x.id != id)) := by
  refine runs_does hc rfl ?_
  rw [settle_basin]
  unfold State.stdDeparts
  rw [if_neg (not_not.mpr hl)]
  dsimp only
  rw [dropCorrupt_none hk, ← hh, hp]
  dsimp only
  have hstage (u : State) (hu : u.basin.tickets = s.basin.tickets) (b : Bool) :
      ((if b then u.stage id 7 else u).freeTicket id false).basin.tickets = s.basin.tickets.filter (fun x => x.id != id) := by
    rw [State.freeTicket_tickets, ← hu]
    cases b with
    | false => rfl
    | true =>
      show (u.basin.tickets.map _).filter _ = _
      induction u.basin.tickets with
      | nil => rfl
      | cons y l ih =>
        rw [List.map_cons]
        by_cases hy : y.id = id
        · have h1 : (y.id == id) = true := beq_iff_eq.mpr hy
          rw [if_pos h1, List.filter_cons_of_neg (by rw [bne_iff_ne]; exact not_not.mpr hy), List.filter_cons_of_neg (by rw [bne_iff_ne]; exact not_not.mpr hy), ih]
        · rw [if_neg (by rw [beq_iff_eq]; exact hy), List.filter_cons_of_pos (by rw [bne_iff_ne]; exact hy),
            List.filter_cons_of_pos (by rw [bne_iff_ne]; exact hy), ih]
  refine ite_keep (fun t => t.basin.tickets) ((State.sendRelease_tickets _ num).trans (hstage _ ?_ _)) (hstage _ ?_ _) <;> rfl

theorem stdFrameSent_idle (hp : pickHead heads (s.port p).snd.rr = none) : Does (.stdFrameSent p) s (fun t => t.basin = s.basin) := by
  have e : s.stdDeparts p = s := by
    unfold State.stdDeparts
    rw [if_neg (not_not.mpr hl)]
    dsimp only
    rw [dropCorrupt_none hk, ← hh, hp]
  exact runs_does hc (congrArg s.runs e) (settle_basin s s)

end
end
end

/-- Settles O53: the session by what a SYNC decides and ends, a missing SYNC by the link's state, the frames of a standard link by
the ticket issued. -/
theorem sessionsAndStandardFrames : Obligations.SessionsAndStandardFrames := by
  unfold Obligations.SessionsAndStandardFrames
  intro s p hs
  refine ⟨fun b m hr hb hk hm hy hv hw => ⟨fun h1 h2 => sync_resumes hs hr hb hk hm hy hv hw h1 h2, fun h => sync_starts hs hr hb hk hm hy hv hw h,
      fun h => sync_fullDuplex hs hr hb hk hm hy hv hw h, fun sh h1 h2 h3 => sync_shift hs hr hb hk hm hy hv hw h1 h2 h3⟩,
    fun hb hy => ⟨fun h1 h2 => syncTimeout_lchirp hs hb hy h1 h2, fun h => syncTimeout_training hs hb hy h, fun sh h1 h2 =>
      ⟨fun h => syncTimeout_shiftLchirp hs hb hy h1 h2 h, fun m l h3 h4 h5 h6 h7 => syncTimeout_shiftBelow hs hb hy h1 h2 h3 h4 h5 h6 h7⟩⟩,
    fun h => syncTimeout_stays hs h, fun h => stdFrame_down hs.1 h, fun hl => ⟨fun tag ok f h => stdFrameReceived_unopened hs.1 hl tag ok f h, ?_, ?_⟩⟩
  · exact fun tag f q hq ho hd => ⟨fun hr ok => stdFrameReceived_full hs.1 hl hq ho hd hr ok, fun hr hn =>
      ⟨stdFrameReceived_good hs.1 hl hq ho hd hr hn, stdFrameReceived_bad hs.1 hl hq ho hd hr hn⟩⟩
  · exact fun hk heads hh => ⟨fun c num id hp => stdFrameSent_leaves hs.1 hl hk hh hp, fun hp => stdFrameSent_idle hs.1 hl hk hh hp⟩

end Sys2Proof.Machine
end

section
/-! PROOFS. Cells of the towpath (R97, R101, R103, R104, R107 to R110): resends, MAC failures, the SF, nonces, the cell slot and
pilots. -/

namespace Sys2Proof.Machine

section
variable {s : State} {p : Fin 16}

/-! ### Waiting commands answered -/

theorem answer_kept (u : State) (p : Fin 16) (c : Fin 16) (st : Nat) (ws : List Word) (d : Nat) :
    (u.answer c st ws d).around p = u.around p ∧ (u.answer c st ws d).core p = u.core p := by
  have h (q : Fin 16) : (u.answer c st ws d).port q = u.port q := by
    unfold State.port
    rw [State.answer_ports]
  exact ⟨around_of u p (u.answer_frame c st ws d) (u.answer_held c st ws d) (u.answer_far c st ws d) (by rw [h]) fun q _ => by rw [h], core_of_port p (h p)⟩
theorem answerWait_kept (u : State) (p : Fin 16) (f : LongCmd → Bool) (st : Nat) (ws : List Word) (d : Nat) :
    (u.answerWait f st ws d).around p = u.around p ∧ (u.answerWait f st ws d).core p = u.core p ∧ (u.answerWait f st ws d).ring = u.ring := by
  unfold State.answerWait
  split
  · obtain ⟨h1, h2⟩ := answer_kept u p _ st ws d
    exact ⟨h1, h2, u.answer_ring _ st ws d⟩
  · exact ⟨rfl, rfl, rfl⟩
/-- The channel that waited stands answered when its command closes (R382, R385). -/
theorem answerWait_ended {u : State} {f : LongCmd → Bool} {c : Fin 16} (hc : u.chans = s.chans) (h : s.waiting f = some c) (st : Nat) (old : State) :
    s.ended (settle old (u.answerWait f st [])) c st [] := by
  have hw : u.waiting f = some c := by
    unfold State.waiting State.chan
    rw [hc]
    exact h
  have ha : (u.answer c st []).chan c = (s.chan c).answered st 0xFFFF [] := by
    rw [State.answer_chan_same]
    unfold State.chan
    rw [hc]
  unfold State.ended State.answerWait
  rw [hw]
  dsimp only
  rw [settle_chan, ha]
  intro p r a
  rw [ha]
  nofun

/-! ### Resends (R107, R390) -/

section
variable (hs : s.steady p)
include hs

theorem cellResendTimeout_stays {ctr : Word} (h : ((s.port p).tow.await.find? (fun a => a.counter == ctr)).all (fun e => e.due) = true) :
    Does (.cellResendTimeout p ctr) s (s.still p) := by
  refine still_does hs rfl ?_ fun _ => still_of_core
  unfold State.resendLate
  cases hf : (s.port p).tow.await.find? (fun e => e.counter == ctr) with
  | none => rfl
  | some e =>
    rw [hf] at h
    exact if_pos h

section
variable {ctr : Word} {e : AwaitCell} (hf : (s.port p).tow.await.find? (fun a => a.counter == ctr) = some e) (hd : e.due = false)
include hf hd

/-- An EXIT whose point has passed is given up; the leader in quiet sends another (R107, R308). -/
theorem cellResendTimeout_exit (ht : e.cell.type = 9) (hk : beAt e.cell.payload 0 1 / 16 = 1)
    (ha : ahead (BitVec.ofNat 32 (beAt e.cell.payload 5 4)) (s.port p).tow.symCount = false) :
    Does (.cellResendTimeout p ctr) s (fun t => (t.port p).link = (s.port p).link ∧ (t.port p).tow.await = (s.port p).tow.await.filter (fun a => a.counter != ctr)
      ∧ ((s.port p).quiet.state = .quiet → (s.port p).link.leader = true → ∃ c, s.readied p ⟨9, 0, quietPayload 1 c⟩ t)) := by
  have he : s.resendLate p ctr = (s.modTow p (fun t => t.acked ctr)).earlyExit p := by
    unfold State.resendLate
    rw [hf]
    dsimp only
    rw [if_neg (by rw [hd]; nofun), if_pos ⟨ht, hk, ha⟩]
  generalize hu : s.modTow p (fun t => t.acked ctr) = u at he
  have hua : u.around p = s.around p := by rw [← hu]; simp
  have huk := (congrArg (State.core · p) hu).symm.trans (State.modTow_core ..)
  by_cases h : (u.port p).quiet.state = .quiet ∧ (u.port p).link.leader = true
  · have e2 : u.earlyExit p = u.queueCell p 9 (quietPayload 1 { deep := false, entry := 0, xq := 0, xchip := 0, dur := 0, qsf := BitVec.ofNat 8 (u.port p).tow.sf }) := by
      unfold State.earlyExit
      rw [h.1, h.2]
      rfl
    refine core_does hs rfl (he.trans e2) (by simp [hua]) (State.queueCell_core ..) fun v hv => ?_
    unfold State.readied
    rw [link_of_core hv, tow_of_core hv, huk]
    exact ⟨rfl, rfl, fun _ _ => ⟨_, rfl⟩⟩
  · have e2 : u.earlyExit p = u := by
      unfold State.earlyExit
      refine if_neg fun hc => h ?_
      simpa using hc
    refine core_does hs rfl (he.trans e2) hua huk fun v hv => ?_
    rw [link_of_core hv, tow_of_core hv]
    rw [quiet_of_core huk, link_of_core huk] at h
    exact ⟨rfl, rfl, fun h1 h2 => absurd ⟨h1, h2⟩ h⟩

variable (hx : e.cell.type = 9 → beAt e.cell.payload 0 1 / 16 ≠ 1 ∨ ahead (BitVec.ofNat 32 (beAt e.cell.payload 5 4)) (s.port p).tow.symCount = true)
include hx

omit hs in
/-- Any other cell without its CACK is due again, or given up after eight sends (R107). -/
theorem State.resendLate_eq : s.resendLate p ctr =
    if e.sends < 8 then s.modTow p (fun t => { t with await := t.await.map (fun (a : AwaitCell) => if a.counter = ctr then { a with due := true } else a) })
    else if e.cell.type = 7 then ((s.modTow p (fun t => t.acked ctr)).raise 0x0014 (portBlock p.val) p.val (wd e.cell.type.toNat) ctr).answerWait
      (isRemote p (BitVec.ofNat 16 (beAt e.cell.payload 2 2)) ((e.cell.payload.getD 1 0).getLsbD 0)) 0x0301 []
    else (s.modTow p (fun t => t.acked ctr)).raise 0x0014 (portBlock p.val) p.val (wd e.cell.type.toNat) ctr := by
  unfold State.resendLate
  rw [hf]
  dsimp only
  rw [if_neg (by rw [hd]; nofun), if_neg]
  rintro ⟨h1, h2, h3⟩
  rcases hx h1 with h | h
  · exact h h2
  · rw [h] at h3
    cases h3

theorem cellResendTimeout_due (hn : e.sends < 8) : Does (.cellResendTimeout p ctr) s (fun t => (t.port p).link = (s.port p).link
    ∧ (t.port p).tow.await = (s.port p).tow.await.map (fun a => if a.counter = ctr then { a with due := true } else a)) := by
  refine core_does hs rfl ((State.resendLate_eq hf hd hx).trans (if_pos hn)) (by simp) (State.modTow_core ..) fun v hv => ?_
  rw [link_of_core hv, tow_of_core hv]
  exact ⟨rfl, rfl⟩

theorem cellResendTimeout_ends (hn : 8 ≤ e.sends) : Does (.cellResendTimeout p ctr) s (fun t => (t.port p).link = (s.port p).link
    ∧ (t.port p).tow.await = (s.port p).tow.await.filter (fun a => a.counter != ctr)
    ∧ (s.ringSpace → t.noted 0x0014 p.val (wd e.cell.type.toNat))
    ∧ (e.cell.type = 7 → ∀ c, s.waiting (isRemote p (BitVec.ofNat 16 (beAt e.cell.payload 2 2)) ((e.cell.payload.getD 1 0).getLsbD 0)) = some c →
        s.ended t c 0x0301 [])) := by
  have he := (State.resendLate_eq hf hd hx).trans (if_neg (Nat.not_lt.mpr hn))
  generalize hu : (s.modTow p (fun t => t.acked ctr)).raise 0x0014 (portBlock p.val) p.val (wd e.cell.type.toNat) ctr = u at he
  have hua : u.around p = s.around p := by rw [← hu]; simp
  have huk : u.core p = { s.core p with tow := (s.core p).tow.acked ctr } := by rw [← hu, State.raise_core, State.modTow_core]
  have huc : u.chans = s.chans := by rw [← hu, State.raise_chans]; rfl
  have hun (h : s.ringSpace) : u.noted 0x0014 p.val (wd e.cell.type.toNat) := by
    rw [← hu]
    exact State.raise_noted _ _ _ _ _ _ _ _ (Nat.lt_trans h (by decide))
  have hend (v : State) (hv : v.core p = u.core p) (hr : v.ring = u.ring) : (v.port p).link = (s.port p).link
      ∧ (v.port p).tow.await = (s.port p).tow.await.filter (fun a => a.counter != ctr) ∧ (s.ringSpace → v.noted 0x0014 p.val (wd e.cell.type.toNat)) := by
    rw [huk] at hv
    rw [link_of_core hv, tow_of_core hv]
    exact ⟨rfl, rfl, fun h => noted_ring (hun h) hr⟩
  by_cases h7 : e.cell.type = 7
  · rw [if_pos h7] at he
    obtain ⟨h1, h2, h3⟩ := answerWait_kept u p (isRemote p (BitVec.ofNat 16 (beAt e.cell.payload 2 2)) ((e.cell.payload.getD 1 0).getLsbD 0)) 0x0301 [] 0xFFFF
    refine runsPort_does (h1.trans hua) hs (congrArg (s.runsPort p) he) ?_
    obtain ⟨g1, g2, g3⟩ := hend _ ((settle_core _ p s).trans h2) ((settle_ring _ _).trans h3)
    exact ⟨g1, g2, g3, fun _ c hc => answerWait_ended huc hc 0x0301 s⟩
  · rw [if_neg h7] at he
    refine runsPort_does hua hs (congrArg (s.runsPort p) he) ?_
    obtain ⟨g1, g2, g3⟩ := hend _ (settle_core u p s) (settle_ring _ _)
    exact ⟨g1, g2, g3, fun h => absurd h h7⟩

end

/-! ### MAC failures (R110) -/

section
variable {type : Byte} {l : List Nat} (hh : (s.port p).hears = true)
  (hl : l = (s.port p).tow.macFails.filter (fun t => decide (s.ticks < t + secTicks 1)) ++ [s.ticks])
include hh hl

omit hs in
/-- A failure counted and reported, before what eight of them ask for. -/
theorem State.macFailed_eq : ∃ u : State, s.macFailed p type = (if 8 ≤ l.length then u.linkDown p 5 else u) ∧ u.around p = s.around p
    ∧ u.core p = { s.core p with tow := { (s.core p).tow with macFails := l } } ∧ s.ring.heard 1 u.ring ∧ (s.ringSpace → u.noted 0x0013 p.val (wd type.toNat))
    ∧ ∃ v, s.keepsCount (portBlock p.val) (0x200 + 11) v ∧ (v.count (portBlock p.val) 11 1).keepsCount (portBlock p.val) (0x200 + 11) u := by
  have hp : 0 < portBlock p.val := by unfold portBlock; omega
  refine ⟨((s.modTow p (fun t => { t with macFails := l })).count (portBlock p.val) 11 1).raise 0x0013 (portBlock p.val) p.val (wd type.toNat), ?_, ?_, ?_,
    raise_heard_of (by rw [State.count_ring]; rfl) _ _ _ _ _ _ _, fun h => State.raise_noted _ _ _ _ _ _ _ _ ?_,
    s.modTow p (fun t => { t with macFails := l }), ?_, State.raise_keeps _ _ _ _ _ _ _ _ hp⟩
  · unfold State.macFailed
    rw [if_neg (by rw [hh]; nofun), ← hl]
  · simp
  · rw [State.raise_core, State.count_core, State.modTow_core]
  · unfold State.ringRoom
    rw [State.count_ring]
    exact Nat.lt_trans h (by decide)
  · exact keepsCount_around (s.modTow_around p _) rfl _ _

theorem macFail_counts (hn : l.length < 8) : Does (.macFail p type) s (fun t => (t.port p).tow.macFails = l ∧ (t.port p).link = (s.port p).link
    ∧ s.counts (portBlock p.val) 11 t ∧ (s.ringSpace → t.noted 0x0013 p.val (wd type.toNat))) := by
  obtain ⟨u, e, ha, hk, _, hn', v, h1, h2⟩ := State.macFailed_eq (type := type) hh hl
  refine runsPort_does ha hs (congrArg (s.runsPort p) (e.trans (if_neg (Nat.not_le.mpr hn)))) ?_
  have hv := (settle_core u p s).trans hk
  rw [link_of_core hv, tow_of_core hv]
  have hb : portBlock p.val ≠ 1 ∧ portBlock p.val < 0x40 := by
    have := p.isLt
    unfold portBlock
    omega
  exact ⟨rfl, rfl, counts_of h1 (keepsCount_trans h2 (settle_keeps s u hb.1 hb.2 (by decide))), fun h => noted_ring (hn' h) (settle_ring _ _)⟩

omit hs hh hl in
theorem State.heard_after (s : State) (p : Fin 16) (j : Journal) (c b u : Nat) (w x y z : Word) {r : EventRing} (h : r.heard 12 s.ring) :
    r.heard 15 ((State.raise { s with journal := j } c b u w x y z).lineSync p).ring :=
  heard_trans (heard_trans h (State.raise_heard { s with journal := j } c b u w x y z) (Nat.le_refl 13)) (State.lineSync_heard _ p) (Nat.le_refl 15)
omit hs hh hl in
theorem State.fall_heard (u : State) (p : Fin 16) (to_ : LinkState) (c : Nat) (b : Bool) : u.ring.heard 15 (u.fall p to_ c b).ring := by
  unfold State.fall
  dsimp only
  refine State.heard_after _ p _ _ _ _ _ _ _ _ ?_
  generalize hx : (u.silence p b).modPort p _ = x
  have hr : x.ring = u.ring := by rw [← hx, State.modPort_ring, u.silence_ring]
  rw [← hr]
  exact x.goLink_heard p _
omit hs hh hl in
theorem State.linkDown_heard (u : State) (p : Fin 16) (c : Nat) : u.ring.heard 15 (u.linkDown p c).ring := by
  have h := u.fall_heard p .hold c false
  unfold State.linkDown
  split
  · rw [State.modLink_ring]
    exact h
  · have hd (x : State) : x.draw.2.ring = x.ring := rfl
    dsimp only
    rw [State.modLink_ring, hd]
    exact h

theorem macFail_ends (hn : 8 ≤ l.length) : Does (.macFail p type) s (fun t => s.fellWith p 5 t ∧ (t.port p).tow.macFails = l
    ∧ (s.ringSpace → t.noted 0x0013 p.val (wd type.toNat))) := by
  obtain ⟨u, e, ha, hk, hr, hn', _⟩ := State.macFailed_eq (type := type) hh hl
  refine runsPort_does ((u.linkDown_around p 5).trans ha) hs (congrArg (s.runsPort p) (e.trans (if_pos hn))) ⟨?_, ?_, fun h => ?_⟩
  · refine fellWith_linkDown ha (by rw [link_of_core hk]; rfl) (fun h => ?_) 5 s
    have := heard_length hr
    unfold State.ringSpace at h
    omega
  · obtain ⟨n, _, e5⟩ := u.linkDown_core p 5
    rw [tow_of_core ((settle_core _ p s).trans e5)]
    exact congrArg (fun x : Core => x.tow.macFails) hk
  · exact noted_ring (noted_heard (hn' h) (u.linkDown_heard p 5)) (settle_ring _ _)

end
end

/-! ### Commands of the clocked part that ask for nothing of the link -/

/-- A command of the clocked part of which the core of its port says everything asked for. -/
theorem runs_core {c : Instr} {P : State → Prop} {t u : State} {x : Core} (hc : s.clocked = true) (he : exec c s = s.runs t) (e : t = u)
    (hk : u.core p = x) (hP : ∀ v, v.core p = x → P v) : Does c s P := by
  subst e
  exact runs_does hc he (hP _ ((settle_core t p s).trans hk))
theorem runs_still {c : Instr} {t : State} (hc : s.clocked = true) (he : exec c s = s.runs t) (e : t = s) : Does c s (s.still p) :=
  runs_core hc he e rfl fun _ => still_of_core

/-- A cell that is only counted (R103, R104). -/
theorem cell_counted {c : Instr} (hc : s.clocked = true) (k : Nat) (he : exec c s = s.runs (s.count (portBlock p.val) k 1)) :
    Does c s (fun t => s.still p t ∧ s.counts (portBlock p.val) k t) := by
  have hb : portBlock p.val ≠ 1 ∧ portBlock p.val < 0x40 := by
    have := p.isLt
    unfold portBlock
    omega
  refine runs_does hc he ⟨still_of_core ((settle_core _ p s).trans (s.count_core p _ _ _)), ?_⟩
  exact counts_of (keepsCount_refl s _ _) (settle_keeps s _ hb.1 hb.2 (by omega))

/-! ### The SF (R101) -/

section
variable (hs : s.steady p)
include hs

theorem tpsf_taken {h : CellHdr} {c : TpsfCell} (ha : s.actsOn p h) (hl : (s.port p).link.leader = false) :
    Does (.tpsf p h c) s (fun t => (t.port p).tow.tpsf = some ⟨c.sf.toNat, c.lchirp, c.count, true⟩ ∧ s.acked p h 10 [] t) := by
  obtain ⟨a, b, e⟩ := s.heardCell_core p h 10
  refine runs_core hs.1 rfl (State.withCellIf_acts ha 10 _ (by rw [hl]; rfl)) (State.modTow_core ..) fun v hv => ?_
  rw [State.acked, tow_of_core hv, e]
  exact ⟨rfl, rfl⟩
theorem tpsf_declined {h : CellHdr} {c : TpsfCell} (ha : s.actsOn p h) (hl : (s.port p).link.leader = true) : Does (.tpsf p h c) s (s.declines p h) := by
  refine runs_does hs.1 rfl ?_
  have e : s.takeTpsf p h c = _ := State.withCellIf_declines ha 10 _ (by rw [hl]; rfl)
  obtain ⟨a, b, e2⟩ := s.declined_port (p := p) h (fun r => r.decline (s.takeCell p h).2.1)
  rw [e]
  exact ⟨by rw [settle_port_link, e2], settle_port_tow _ _ p⟩

section
variable {r : TpsfRec} (hr : (s.port p).tow.tpsf = some r)
include hr

theorem sfChange_acts (ha : r.acked = true) : Does (.sfChange p) s (fun t => (t.port p).tow.sf = r.sf ∧ (t.port p).tow.symCount = r.count
    ∧ (t.port p).rx.duSf = (s.port p).rx.duSf
    ∧ (t.port p).tow.tpsf = (if (s.port p).link.leader && (s.port p).link.state != .shift && (s.port p).tow.profile == .wideRun
        && r.sf != fld (s.portReg p 0x20) 12 4 then some ⟨fld (s.portReg p 0x20) 12 4, false, 0, false⟩ else none)) := by
  generalize hu : (s.modTow p (fun t => { t with
    sf := r.sf, wideSf := if r.lchirp then t.wideSf else r.sf, symCount := r.count, tpsf := none, lchirpLow := 0, lchirpUp := 0 })).lineSync p = u
  have e : s.sfReached p = u.sfSync p := by
    unfold State.sfReached
    rw [hr, ← hu]
    exact if_pos ha
  have huk := (congrArg (State.core · p) hu).symm.trans ((State.lineSync_core _ p p).trans (State.modTow_core ..))
  have hux : (u.port p).rx = (s.port p).rx := by rw [← hu, State.lineSync_port, State.port_modTow]
  have hw : u.portReg p 0x20 = s.portReg p 0x20 := around_portReg (p := p) (by rw [← hu]; simp) _ _
  have es : u.sfSync p = if (s.port p).link.leader && (s.port p).link.state != .shift && (s.port p).tow.profile == .wideRun
      && r.sf != fld (s.portReg p 0x20) 12 4 then u.startTpsf p (fld (s.portReg p 0x20) 12 4) false else u := by
    unfold State.sfSync
    dsimp only
    rw [hw, link_of_core huk, tow_of_core huk]
    simp only [State.core_link, State.core_tow, Option.isNone_none, Bool.and_true]
  refine runs_does hs.1 (congrArg s.runs (e.trans es)) ?_
  rw [settle_port_tow, settle_port_rx]
  split
  · have ht : (u.startTpsf p (fld (s.portReg p 0x20) 12 4) false).port p = { u.port p with tow := { (u.port p).tow with
        tpsf := some ⟨fld (s.portReg p 0x20) 12 4, false, 0, false⟩
        ready := (u.port p).tow.ready ++ [⟨10, 0, tpsfPayload (fld (s.portReg p 0x20) 12 4) false 0⟩] } } := by
      unfold State.startTpsf State.queueCell
      rw [State.port_modTow, State.port_modTow]
      rfl
    rw [ht]
    dsimp only
    rw [tow_of_core huk, hux]
    exact ⟨rfl, rfl, rfl, rfl⟩
  · rw [tow_of_core huk, hux]
    exact ⟨rfl, rfl, rfl, rfl⟩

theorem sfChange_waits (ha : r.acked = false) : Does (.sfChange p) s (s.still p) := by
  refine runs_still hs.1 rfl ?_
  unfold State.sfReached
  rw [hr]
  exact if_neg (by rw [ha]; nofun)

theorem tpsfRenew_sends (ha : r.acked = false) (hl : (s.port p).link.leader = true) : Does (.tpsfRenew p) s (fun t =>
    (t.port p).tow.tpsf = some ⟨r.sf, r.lchirp, 0, false⟩
    ∧ (t.port p).tow.await = (s.port p).tow.await.filter (fun e => e.cell.type != 10) ∧ s.readied p ⟨10, 0, tpsfPayload r.sf r.lchirp 0⟩ t) := by
  have e : s.tpsfAgain p = (s.modTow p (fun t => { t with await := t.await.filter (fun e => e.cell.type != 10) })).startTpsf p r.sf r.lchirp := by
    unfold State.tpsfAgain
    rw [hr]
    exact if_neg (by rw [ha, hl]; nofun)
  unfold State.startTpsf at e
  refine runs_core hs.1 rfl e (State.queueCell_core ..) fun v hv => ?_
  rw [State.readied, tow_of_core hv, State.modTow_core, State.modTow_core]
  exact ⟨rfl, rfl, rfl⟩
theorem tpsfRenew_waits (h : r.acked = true ∨ (s.port p).link.leader = false) : Does (.tpsfRenew p) s (s.still p) := by
  refine runs_still hs.1 rfl ?_
  unfold State.tpsfAgain
  rw [hr]
  refine if_pos ?_
  rcases h with h | h
  · rw [h, Bool.true_or]
  · rw [h, Bool.not_false, Bool.or_true]

end

theorem tpsf_none (hr : (s.port p).tow.tpsf = none) : Does (.sfChange p) s (s.still p) ∧ Does (.tpsfRenew p) s (s.still p) :=
  ⟨runs_still hs.1 rfl (by unfold State.sfReached; rw [hr]), runs_still hs.1 rfl (by unfold State.tpsfAgain; rw [hr])⟩

/-! ### Nonces (R109) -/

theorem nonceRefreshStart_sends (hk : (s.port p).tow.keyInUse ≠ none) (hn : 0xFFFF0000 ≤ (s.port p).tow.txCtr.toNat) (hw : (s.port p).tow.newNonce = none)
    (hh : (s.port p).hears = true) : Does (.nonceRefreshStart p) s (fun t => ∃ n, (t.port p).tow.newNonce = some n ∧ (t.port p).tow.nonce = (s.port p).tow.nonce
      ∧ s.readied p ⟨11, 0, noncePayload n⟩ t) := by
  have e : s.nonceStart p = (s.draw.2.modTow p (fun t => { t with newNonce := some (Config.freeNonce s.draw.1) })).queueCell p 11
      (noncePayload (Config.freeNonce s.draw.1)) := by
    unfold State.nonceStart
    dsimp only
    exact if_pos (by rw [Option.isSome_iff_ne_none.mpr hk, decide_eq_true hn, hw, hh]; rfl)
  refine runs_core hs.1 rfl e (State.queueCell_core ..) fun v hv => ⟨Config.freeNonce s.draw.1, ?_⟩
  rw [State.readied, tow_of_core hv, State.modTow_core, State.draw_core]
  exact ⟨rfl, rfl, rfl⟩
theorem nonceRefreshStart_waits (h : (s.port p).tow.keyInUse = none ∨ (s.port p).tow.txCtr.toNat < 0xFFFF0000 ∨ (s.port p).tow.newNonce ≠ none
    ∨ (s.port p).hears = false) : Does (.nonceRefreshStart p) s (s.still p) := by
  refine runs_still hs.1 rfl ?_
  unfold State.nonceStart
  dsimp only
  refine if_neg fun hc => ?_
  simp only [Bool.and_eq_true, decide_eq_true_eq, Option.isNone_iff_eq_none] at hc
  obtain ⟨⟨⟨h1, h2⟩, h3⟩, h4⟩ := hc
  rcases h with h | h | h | h
  · rw [h] at h1
    cases h1
  · omega
  · exact h h3
  · rw [h] at h4
    cases h4

omit hs in
/-- The receive counters' nonces stand whatever cell is taken (R107, R109). -/
theorem State.takeCell_nonce (h : CellHdr) : ((s.takeCell p h).2.2.port p).tow.rx.nonce = (s.port p).tow.rx.nonce := by
  have ht (r : RxCtr) (c : Byte) : (r.take c).2.1.nonce = r.nonce := by
    unfold RxCtr.take
    dsimp only
    (repeat' split) <;> rfl
  unfold State.takeCell
  dsimp only
  split
  · rw [State.count_port, State.port_modTow]
  · rw [State.count_port, State.port_modTow]
    exact ht _ _
theorem nonce_taken {h : CellHdr} (n : BitVec 48) (ha : s.actsOn p h) : Does (.nonce p h n) s (fun t => (t.port p).tow.rx = { nonce := n }
    ∧ (t.port p).tow.peerHeld = some (s.port p).tow.rx.nonce ∧ (t.port p).tow.rxOld = some ((s.takeCell p h).2.2.port p).tow.rx ∧ s.acked p h 11 [] t) := by
  have hx : ((s.heardCell p h 11).port p).tow.rx = ((s.takeCell p h).2.2.port p).tow.rx := by
    unfold State.heardCell State.ackCell State.queueCell
    rw [State.port_modTow]
  obtain ⟨a, b, e⟩ := s.heardCell_core p h 11
  refine runs_core hs.1 rfl (State.withCellIf_acts ha 11 _ ha.1) (State.modTow_core ..) fun v hv => ?_
  rw [State.acked, tow_of_core hv]
  refine ⟨rfl, ?_, congrArg some hx, ?_⟩
  · exact congrArg some ((congrArg RxCtr.nonce hx).trans (State.takeCell_nonce h))
  · rw [e]
    rfl
theorem nonceOldDrop_drops : Does (.nonceOldDrop p) s (fun t => (t.port p).tow = { (s.port p).tow with rxOld := none, oldNonce := none }) :=
  runs_core hs.1 rfl rfl (State.modTow_core ..) fun v hv => by rw [tow_of_core hv]; rfl

/-! ### The cell slot (R96, R107, R108, R115) and pilots (R97) -/

theorem towpathCellSlot_unheard (hh : (s.port p).hears = false) : Does (.towpathCellSlot p) s (s.still p) ∧ ∀ a b c, Does (.pilot p a b c) s (s.still p) :=
  ⟨runs_still hs.1 rfl (if_neg (by rw [hh]; nofun)), fun a b c => runs_still hs.1 rfl (if_neg (by rw [hh]; nofun))⟩

section
variable (hh : (s.port p).hears = true)
include hh

omit hs hh in
/-- A symbol boundary changes the receive path alone (R149, R170). -/
theorem State.wideBoundary_kept (s : State) (p : Fin 16) : (s.wideBoundary p).core p = s.core p ∧ (s.wideBoundary p).txp p = s.txp p ∧ (s.wideBoundary p).keys = s.keys := by
  unfold State.wideBoundary
  dsimp only
  split
  · exact ⟨s.modRx_core p _, s.modRx_txp p _, rfl⟩
  · exact ⟨rfl, rfl, rfl⟩
omit hs hh in
theorem State.runDue_keys (s : State) (p : Fin 16) : (s.runDue p).keys = s.keys := by
  have h (u : State) : (u.txResume p).keys = u.keys := by
    unfold State.txResume
    (repeat' split) <;> rfl
  unfold State.runDue State.narrowRun
  exact ite_keep State.keys (h _) rfl
omit hs hh in
/-- What the run due in SOUND makes of the core depends on the core and the swing alone. -/
theorem State.runDue_core_same {s u : State} (hk : u.core p = s.core p) (hx : u.txp p = s.txp p) : (u.runDue p).core p = (s.runDue p).core p := by
  have hl : (u.port p).link = (s.port p).link := link_of_core hk
  have ht : (u.port p).tow = (s.port p).tow := tow_of_core hk
  unfold State.txp at hx
  unfold State.runDue
  rw [hl, ht, hx]
  by_cases h : ((s.port p).link.state == .sound && (s.port p).tow.soundSent && (s.port p).tx.swing == burstSwing) = true
  · rw [if_pos h, if_pos h, State.narrowRun_core, State.narrowRun_core, hk]
  · rw [if_neg h, if_neg h]
    exact hk

/-- The slot's sending (R107, R108), in the state that the boundary and the run due leave. -/
theorem towpathCellSlot_sends {w : Towpath} (hw : w = ((s.runDue p).port p).tow) {P : Towpath → Prop}
    (h : ∀ u : State, (u.port p).tow = w → (u.port p).inLchirp = (s.port p).inLchirp → u.linkKey p = s.linkKey p → P ((u.cellSlot p).port p).tow) :
    Does (.towpathCellSlot p) s (fun t => P (t.port p).tow) := by
  obtain ⟨hk, hx, hq⟩ := s.wideBoundary_kept p
  have hc := State.runDue_core_same hk hx
  obtain ⟨_, _, _, _, he⟩ := s.runDue_core p
  refine runs_does hs.1 (congrArg s.runs (if_pos hh)) ?_
  rw [settle_port_tow]
  refine h _ ((tow_of_core hc).trans hw.symm) ?_ ?_
  · unfold Port.inLchirp
    rw [link_of_core hc, he]
    rfl
  · unfold State.linkKey
    rw [State.runDue_keys, hq, tow_of_core hc, he]
    rfl

section
variable {w : Towpath} (hw : w = ((s.runDue p).port p).tow)
include hw

theorem towpathCellSlot_idle (hp : w.pick (s.port p).inLchirp = .idle) : Does (.towpathCellSlot p) s (fun t => (t.port p).tow.lastCell = cellBytes none 0 0 0 ⟨0, 0, []⟩
    ∧ (t.port p).tow.symCount = advanceCount w.symCount w.perCell ∧ (t.port p).tow.ready = w.ready ∧ (t.port p).tow.rowCells = 0
    ∧ (t.port p).tow.chirps = runChirps w.symCount.toNat (cellShifts (max 7 w.sf) (t.port p).tow.lastCell)) := by
  refine towpathCellSlot_sends hs hh hw (P := fun x => x.lastCell = cellBytes none 0 0 0 ⟨0, 0, []⟩ ∧ x.symCount = advanceCount w.symCount w.perCell ∧ x.ready = w.ready
    ∧ x.rowCells = 0 ∧ x.chirps = runChirps w.symCount.toNat (cellShifts (max 7 w.sf) x.lastCell)) fun u h1 h2 h3 => ?_
  unfold State.cellSlot
  dsimp only
  rw [h1, h2, hp]
  dsimp only
  rw [State.port_modTow]
  dsimp only
  rw [h1]
  refine ⟨rfl, rfl, rfl, ?_, rfl⟩
  exact if_neg (by rw [show decide (cellClass 0 ≤ 5) = false from rfl, Bool.and_false]; nofun)

theorem towpathCellSlot_again {a : AwaitCell} (hp : w.pick (s.port p).inLchirp = .again a) : Does (.towpathCellSlot p) s (fun t => (t.port p).tow.lastCell = a.bytes
    ∧ (t.port p).tow.symCount = advanceCount w.symCount w.perCell ∧ (t.port p).tow.txCtr = w.txCtr
    ∧ (t.port p).tow.chirps = runChirps w.symCount.toNat (cellShifts (max 7 w.sf) a.bytes)) := by
  refine towpathCellSlot_sends hs hh hw (P := fun x => x.lastCell = a.bytes ∧ x.symCount = advanceCount w.symCount w.perCell ∧ x.txCtr = w.txCtr
    ∧ x.chirps = runChirps w.symCount.toNat (cellShifts (max 7 w.sf) a.bytes)) fun u h1 h2 h3 => ?_
  unfold State.cellSlot
  dsimp only
  rw [h1, h2, hp]
  unfold State.sendAgain
  dsimp only
  rw [State.port_modTow, h1]
  exact ⟨rfl, rfl, rfl, rfl⟩

omit hs hh hw in
/-- A count fixed as a cell is sent leaves its TYPE. -/
theorem fixCount_type (w : Towpath) (c : TxCell) : (fixCount w c).type = c.type := by
  unfold fixCount
  dsimp only
  (repeat' split) <;> rfl

theorem towpathCellSlot_fresh {i : Nat} {c : TxCell} {n : Word} {b : List Byte} (hp : w.pick (s.port p).inLchirp = .fresh i c)
    (hn : n = (if cellAuth c.type && c.type != 1 then w.txCtr + 1 else w.txCtr))
    (hb : b = cellBytes (s.linkKey p) w.nonce w.peerNonce (if (fixCount w c).type = 1 then 0 else n) (fixCount w c)) :
    Does (.towpathCellSlot p) s (fun t => (t.port p).tow.lastCell = b ∧ (t.port p).tow.txCtr = n ∧ (t.port p).tow.ready = w.ready.eraseIdx i
      ∧ (t.port p).tow.symCount = advanceCount w.symCount w.perCell
      ∧ (t.port p).tow.chirps = runChirps w.symCount.toNat (cellShifts (max 7 w.sf) b)
      ∧ (c.type ≠ 1 → (t.port p).tow.await = if cellWantsAck c.type then w.await ++ [⟨n, fixCount w c, b, 1, false⟩] else w.await)) := by
  refine towpathCellSlot_sends hs hh hw (P := fun x => x.lastCell = b ∧ x.txCtr = n ∧ x.ready = w.ready.eraseIdx i
    ∧ x.symCount = advanceCount w.symCount w.perCell ∧ x.chirps = runChirps w.symCount.toNat (cellShifts (max 7 w.sf) b)
    ∧ (c.type ≠ 1 → x.await = if cellWantsAck c.type then w.await ++ [⟨n, fixCount w c, b, 1, false⟩] else w.await)) fun u h1 h2 h3 => ?_
  have hb' : cellBytes (u.linkKey p) w.nonce w.peerNonce (if (fixCount w c).type == 1 then 0 else n) (fixCount w c) = b := by
    rw [hb, h3]
    simp only [beq_iff_eq]
  unfold State.cellSlot
  dsimp only
  rw [h1, h2, hp]
  unfold State.sendFresh
  dsimp only
  rw [State.port_modTow, h1]
  rw [fixCount_type] at hb' ⊢
  rw [← hn, hb']
  refine ⟨rfl, rfl, rfl, rfl, rfl, fun h => ?_⟩
  show (if cellWantsAck c.type then _ else _) = _
  rw [if_neg (show ¬ (c.type == 1) = true by simpa using h)]

end

theorem pilot_joins (u v pr : Int) : Does (.pilot p u v pr) s (fun t => (t.port p).tow.pilots = (decide ((v - pr).natAbs ≤ 64) :: (s.port p).tow.pilots).take 4
    ∧ (t.port p).tow.foff = foffOf ((s.port p).tow.profile == .wideRun) (s.port p).tow.sf u v ∧ (t.port p).tow.toff = toffOf u v) := by
  obtain ⟨hk, _, _⟩ := s.wideBoundary_kept p
  refine runs_core hs.1 rfl (if_pos hh) ((State.modRx_core ..).trans (State.modTow_core ..)) fun x hx => ?_
  rw [tow_of_core hx, hk]
  exact ⟨rfl, rfl, rfl⟩

end
end
end

end Sys2Proof.Machine
end

section
/-! PROOFS. CACK cells (R79, R85, R101, R104, R106, R107, R109, R308, R390): the acknowledged cell leaves the waiting list and brings
about what it asked for. -/

namespace Sys2Proof.Machine

section
variable (u : State) (p : Fin 16)

/-! ### What an acknowledged cell brings about -/

/-- A shift goes on at its end with blocks off (R85 steps 3 to 6); the cells that wait stay. -/
theorem State.shiftProceed_core {sh : ShiftRec} (h : (u.port p).link.shift = some sh) : ∃ b w, w.await = (u.core p).tow.await
    ∧ w.slotQueue = (u.core p).tow.slotQueue ∧ (u.shiftProceed p).core p = { u.core p with
      link := { (u.core p).link with shift := some { sh with acked := true }, blocksOn := false, precode := b }
      snd := { (u.core p).snd with synced := false }, tow := w } := by
  have hk (b : Bool) : ((u.txStop p).modPort p (fun x => { x with
      link := { x.link with shift := some { sh with acked := true }, blocksOn := false, precode := b }, snd := { x.snd with synced := false } })).core p =
      { u.core p with link := { (u.core p).link with shift := some { sh with acked := true }, blocksOn := false, precode := b }
                      snd := { (u.core p).snd with synced := false } } := by
    have e := u.txStop_core p
    rw [State.modPort_core, link_of_core e, tow_of_core e, snd_of_core e, rcv_of_core e, quiet_of_core e]
  unfold State.shiftProceed
  dsimp only
  rw [h]
  dsimp only
  split
  · refine ⟨u.shiftPrecode p, ?_, ?_, ?_, ?_⟩
    rotate_left 3
    rw [State.narrowRun_core, State.modeSettings_core, hk]
    all_goals rfl
  · have hw (t : Towpath) : (if t.profile == .narrowRun then t.wide t.wideSf else { t with profile := .wideRun }).await = t.await
        ∧ (if t.profile == .narrowRun then t.wide t.wideSf else { t with profile := .wideRun }).slotQueue = t.slotQueue := by
      split <;> exact ⟨rfl, rfl⟩
    refine ⟨u.shiftPrecode p, (if (u.core p).tow.profile == .narrowRun then (u.core p).tow.wide (u.core p).tow.wideSf
      else { (u.core p).tow with profile := .wideRun }), (hw _).1, (hw _).2, ?_⟩
    refine ite_keep (State.core · p) ?_ ?_
    · rw [State.modDmt_core, State.txResume_core, State.trainStart_core, State.rxEnter_core, State.modTow_core, State.modeSettings_core, hk]
    · rw [State.txResume_core, State.trainStart_core, State.rxEnter_core, State.modTow_core, State.modeSettings_core, hk]

/-- A training begins with the cells that wait as they were. -/
theorem State.enterTraining_waits (m : LineMode) (c : ModeCell) : ((u.enterTraining p m c).port p).tow.await = (u.port p).tow.await
    ∧ ((u.enterTraining p m c).port p).tow.slotQueue = (u.port p).tow.slotQueue
    ∧ ((u.enterTraining p m c).port p).link.state = if m = .lchirp then .loconUp else .echoLearn := by
  by_cases hm : m = .lchirp
  · subst hm
    have e := u.enterTraining_lchirp_core p c
    rw [tow_of_core e, link_of_core e]
    exact ⟨rfl, rfl, rfl⟩
  · have e := (u.enterTraining_wide_core p c hm).trans (u.trainWide_core p c)
    rw [tow_of_core e, link_of_core e, if_neg hm]
    exact ⟨rfl, rfl, rfl⟩
theorem State.earlyExit_waits : (u.earlyExit p).around p = u.around p ∧ ((u.earlyExit p).port p).tow.await = (u.port p).tow.await
    ∧ ((u.earlyExit p).port p).tow.slotQueue = (u.port p).tow.slotQueue ∧ ((u.earlyExit p).port p).tow.blkAsm = (u.port p).tow.blkAsm := by
  unfold State.earlyExit
  split
  · rw [tow_of_core (u.queueCell_core p 9 _)]
    exact ⟨u.queueCell_around p 9 _, rfl, rfl, rfl⟩
  · exact ⟨rfl, rfl, rfl, rfl⟩

/-- Whatever an acknowledged cell asked for, the surroundings and the cells that wait stay. -/
theorem State.ackedCell_waits (e : AwaitCell) : (u.ackedCell p e).around p = u.around p ∧ ((u.ackedCell p e).port p).tow.await = (u.port p).tow.await
    ∧ ((u.ackedCell p e).port p).tow.slotQueue = (u.port p).tow.slotQueue := by
  have hsame : u.around p = u.around p ∧ (u.port p).tow.await = (u.port p).tow.await ∧ (u.port p).tow.slotQueue = (u.port p).tow.slotQueue := ⟨rfl, rfl, rfl⟩
  have htow (f : Towpath → Towpath) (hf : ∀ t, (f t).await = t.await ∧ (f t).slotQueue = t.slotQueue) :
      (u.modTow p f).around p = u.around p ∧ ((u.modTow p f).port p).tow.await = (u.port p).tow.await
        ∧ ((u.modTow p f).port p).tow.slotQueue = (u.port p).tow.slotQueue := by
    rw [tow_of_core (u.modTow_core p f)]
    exact ⟨u.modTow_around p f, (hf _).1, (hf _).2⟩
  have hq (f : Quiet → Quiet) : (u.modQuiet p f).around p = u.around p ∧ ((u.modQuiet p f).port p).tow.await = (u.port p).tow.await
        ∧ ((u.modQuiet p f).port p).tow.slotQueue = (u.port p).tow.slotQueue := by
    rw [tow_of_core (u.modQuiet_core p f)]
    exact ⟨u.modQuiet_around p f, rfl, rfl⟩
  unfold State.ackedCell
  dsimp only
  split
  · split
    · obtain ⟨h1, h2, _⟩ := u.enterTraining_waits p (by assumption) (modeOfPayload e.cell.payload)
      exact ⟨u.enterTraining_around p _ _, h1, h2⟩
    · exact hsame
  · exact htow _ fun _ => ⟨rfl, rfl⟩
  · split
    · next sh hsh =>
      split
      · exact hsame
      · obtain ⟨_, w, h1, h2, hk⟩ := u.shiftProceed_core p hsh
        rw [tow_of_core hk]
        exact ⟨u.shiftProceed_around p, h1, h2⟩
    · exact hsame
  · split
    · obtain ⟨h1, h2, _⟩ := answerWait_kept u p (isRemote p (BitVec.ofNat 16 (beAt e.cell.payload 2 2)) true) stOk [] 0xFFFF
      rw [tow_of_core h2]
      exact ⟨h1, rfl, rfl⟩
    · exact hsame
  · split
    · exact hq _
    · unfold State.exitAcked
      dsimp only
      split
      · exact hsame
      · split
        · exact hq _
        · obtain ⟨h1, h2, h3, _⟩ := u.earlyExit_waits p
          exact ⟨h1, h2, h3⟩
  · exact htow _ fun _ => ⟨rfl, rfl⟩
  · exact htow _ fun t => by split <;> exact ⟨rfl, rfl⟩
  · exact hsame

/-! What the acknowledgement of each TYPE asks for. -/

section
variable {u p} {e : AwaitCell}

theorem State.ackedCell_mode (ht : e.cell.type = 2) {m : LineMode} (hl : (u.port p).link.state = .sound) (hm : (u.port p).link.train = some m) :
    u.ackedCell p e = u.enterTraining p m (modeOfPayload e.cell.payload) := by
  unfold State.ackedCell
  dsimp only
  rw [ht, hl, hm]
  rfl
theorem State.ackedCell_go (ht : e.cell.type = 3) : u.ackedCell p e = u.modTow p (fun t => { t with goCount := t.goCount.map (fun g => (g.1, true)) }) := by
  unfold State.ackedCell
  rw [ht]
  rfl
theorem State.ackedCell_shift (ht : e.cell.type = 4) {sh : ShiftRec} (hs : (u.port p).link.shift = some sh)
    (hn : (sh.acked || (u.port p).tow.await.any (fun a => a.cell.type == 4) || (u.port p).tow.ready.any (fun c => c.type == 4)) = false) :
    u.ackedCell p e = u.shiftProceed p := by
  unfold State.ackedCell
  dsimp only
  rw [ht, hs]
  exact if_neg (by rw [hn]; nofun)
theorem State.ackedCell_remote (ht : e.cell.type = 7) (hb : (e.cell.payload.getD 1 0).getLsbD 0 = true) :
    u.ackedCell p e = u.answerWait (isRemote p (BitVec.ofNat 16 (beAt e.cell.payload 2 2)) true) stOk [] := by
  unfold State.ackedCell
  dsimp only
  rw [ht]
  exact if_pos hb
theorem State.ackedCell_tpsf (ht : e.cell.type = 10) :
    u.ackedCell p e = u.modTow p (fun t => { t with tpsf := t.tpsf.map (fun (r : TpsfRec) => { r with acked := true }) }) := by
  unfold State.ackedCell
  rw [ht]
  rfl
theorem State.ackedCell_nonce (ht : e.cell.type = 11) {n : BitVec 48} (hn : (u.port p).tow.newNonce = some n) : (u.ackedCell p e).core p = { u.core p with
    tow := { (u.core p).tow with oldNonce := some (u.core p).tow.nonce, nonce := n, newNonce := none, txCtr := 0 } } := by
  have ec : u.ackedCell p e = u.modTow p (fun t => match t.newNonce with
      | some n => { t with oldNonce := some t.nonce, nonce := n, newNonce := none, txCtr := 0 }
      | none => t) := by
    unfold State.ackedCell
    rw [ht]
    rfl
  rw [ec, State.modTow_core]
  dsimp only
  rw [State.core_tow, hn]

end

end

/-! ### The acknowledgement -/

section
variable {s : State} {p : Fin 16} {h : CellHdr} {ctr : Word} {type : Byte}

theorem State.takeCack_eq (ha : s.actsOn p h) : s.takeCack p h ctr type =
    match (s.port p).tow.await.find? (fun e => e.counter == ctr && e.cell.type == type) with
    | some e => ((s.takeCell p h).2.2.modTow p (fun t => t.acked ctr)).ackedCell p e
    | none => (s.takeCell p h).2.2 := by
  obtain ⟨a, b, hk⟩ := s.takeCell_core p h
  have hw : ((s.takeCell p h).2.2.port p).tow.await = (s.port p).tow.await := by rw [tow_of_core hk]; rfl
  obtain ⟨h1, h2⟩ := ha
  unfold State.takeCack
  rw [if_neg (by rw [h1]; nofun)]
  generalize s.takeCell p h = x at h2 hw ⊢
  obtain ⟨k, v, u⟩ := x
  cases h2
  dsimp only at hw ⊢
  rw [hw] <;> rfl

theorem cack_unknown (hs : s.steady p) (ha : s.actsOn p h)
    (hf : (s.port p).tow.await.find? (fun a => a.counter == ctr && a.cell.type == type) = none) :
    Does (.cack p h ctr type) s (fun t => (t.port p).link = (s.port p).link ∧ (t.port p).tow.await = (s.port p).tow.await
      ∧ (t.port p).tow.ready = (s.port p).tow.ready) := by
  obtain ⟨a, b, hk⟩ := s.takeCell_core p h
  refine core_does hs rfl ((State.takeCack_eq ha).trans (by rw [hf])) (s.takeCell_around p h) hk fun v hv => ?_
  rw [link_of_core hv, tow_of_core hv]
  exact ⟨rfl, rfl, rfl⟩

theorem cack_known (hs : s.steady p) (ha : s.actsOn p h) {e : AwaitCell}
    (hf : (s.port p).tow.await.find? (fun a => a.counter == ctr && a.cell.type == type) = some e) :
    Does (.cack p h ctr type) s (fun t => (t.port p).tow.await = (s.port p).tow.await.filter (fun a => a.counter != ctr)
          ∧ (t.port p).tow.slotQueue = (s.port p).tow.slotQueue.filter (fun a => a.1 != ctr)
        ∧ (e.cell.type = 2 → (s.port p).link.state = .sound → ∀ m, (s.port p).link.train = some m →
            (t.port p).link.state = if m = .lchirp then .loconUp else .echoLearn)
        ∧ (e.cell.type = 3 → ∀ w b, (s.port p).tow.goCount = some (w, b) → (t.port p).tow.goCount = some (w, true))
        ∧ (e.cell.type = 4 → ∀ sh, (s.port p).link.shift = some sh → sh.acked = false →
            (∀ a ∈ (s.port p).tow.await, a.cell.type = 4 → a.counter = ctr) → (∀ c ∈ (s.port p).tow.ready, c.type ≠ 4) →
            (t.port p).link.shift = some { sh with acked := true } ∧ (t.port p).link.blocksOn = false)
        ∧ (e.cell.type = 7 → (e.cell.payload.getD 1 0).getLsbD 0 = true → ∀ c, s.waiting (isRemote p (BitVec.ofNat 16 (beAt e.cell.payload 2 2)) true) = some c →
            s.ended t c 0 [])
        ∧ (e.cell.type = 10 → ∀ r, (s.port p).tow.tpsf = some r → (t.port p).tow.tpsf = some { r with acked := true })
        ∧ (e.cell.type = 11 → ∀ n, (s.port p).tow.newNonce = some n → (t.port p).tow.nonce = n ∧ (t.port p).tow.oldNonce = some (s.port p).tow.nonce
            ∧ (t.port p).tow.newNonce = none ∧ (t.port p).tow.txCtr = 0)) := by
  obtain ⟨a, b, hk⟩ := s.takeCell_core p h
  have he : s.takeCack p h ctr type = _ := (State.takeCack_eq (ctr := ctr) (type := type) ha).trans (by rw [hf])
  have hch : ((s.takeCell p h).2.2.modTow p (fun t => t.acked ctr)).chans = s.chans := by
    show (s.takeCell p h).2.2.chans = s.chans
    unfold State.takeCell
    dsimp only
    split <;> exact State.count_chans _ _ _ _
  generalize hu : (s.takeCell p h).2.2.modTow p (fun t => t.acked ctr) = u at he hch
  have hua : u.around p = s.around p := by rw [← hu]; simp
  have huk : u.core p = { s.core p with tow := { (s.core p).tow with
      rx := a, rxOld := b, await := (s.core p).tow.await.filter (fun e => e.counter != ctr), slotQueue := (s.core p).tow.slotQueue.filter (fun e => e.1 != ctr) } } := by
    rw [← hu, State.modTow_core, hk]
    rfl
  have hul : (u.port p).link = (s.port p).link := link_of_core huk
  have hut := tow_of_core huk
  obtain ⟨h1, h2, h3⟩ := u.ackedCell_waits p e
  refine runsPort_does (h1.trans hua) hs (congrArg (s.runsPort p) he) ⟨?_, ?_, ?_, ?_, ?_, ?_, ?_, ?_⟩
  · rw [settle_port_tow, h2, hut]
    rfl
  · rw [settle_port_tow, h3, hut]
    rfl
  · intro ht hl m hm
    rw [settle_port_link, State.ackedCell_mode ht (by rw [hul, hl]) (by rw [hul, hm])]
    exact (u.enterTraining_waits p m _).2.2
  · intro ht w b hg
    rw [settle_port_tow, State.ackedCell_go ht, tow_of_core (State.modTow_core ..), huk]
    show ((s.port p).tow.goCount.map _) = _
    rw [hg]
    rfl
  · intro ht sh hsh hack hwait hready
    have hno : (sh.acked || (u.port p).tow.await.any (fun a => a.cell.type == 4) || (u.port p).tow.ready.any (fun c => c.type == 4)) = false := by
      rw [hut, hack, Bool.false_or, Bool.or_eq_false_iff, List.any_eq_false, List.any_eq_false]
      refine ⟨fun x hx hx4 => ?_, fun x hx hx4 => hready x hx (eq_of_beq hx4)⟩
      obtain ⟨hx1, hx2⟩ := List.mem_filter.mp hx
      have := hwait x hx1 (eq_of_beq hx4)
      simp [this] at hx2
    have hus : (u.port p).link.shift = some sh := by rw [hul, hsh]
    obtain ⟨_, w, _, _, hp⟩ := u.shiftProceed_core p hus
    rw [settle_port_link, State.ackedCell_shift ht hus hno, link_of_core hp]
    exact ⟨rfl, rfl⟩
  · intro ht hb c hc
    rw [State.ackedCell_remote ht hb]
    exact answerWait_ended hch hc stOk s
  · intro ht r hr
    rw [settle_port_tow, State.ackedCell_tpsf ht, tow_of_core (State.modTow_core ..), huk]
    show ((s.port p).tow.tpsf.map _) = _
    rw [hr]
    rfl
  · intro ht n hn
    rw [settle_port_tow, tow_of_core (State.ackedCell_nonce ht (by rw [hut]; exact hn)), huk]
    exact ⟨rfl, rfl, rfl, rfl⟩

end

end Sys2Proof.Machine
end

section
/-! PROOFS. BLOCK cells (R119): segments are gathered in order, and the last of them leaves nothing gathered, whatever its block does. One
relation says so, with the surroundings of the port: each operation that a block in LCHIRP can bring about keeps it. -/

namespace Sys2Proof.Machine

open State (keepsSession)

/-- The surroundings stay, and where no block was being gathered none is. -/
structure State.noAsm (p : Fin 16) (s t : State) : Prop where
  around : t.around p = s.around p
  none_ : (s.port p).tow.blkAsm = none → (t.port p).tow.blkAsm = none

open State (noAsm)

section
variable {p : Fin 16} {s t u : State}

theorem noAsm_refl (p : Fin 16) (s : State) : noAsm p s s := ⟨rfl, id⟩
theorem noAsm_trans (h : noAsm p s t) (k : noAsm p t u) : noAsm p s u := ⟨k.around.trans h.around, k.none_ ∘ h.none_⟩
theorem noAsm_session (h : keepsSession p s t) : noAsm p s t := ⟨h.around, fun h1 => h.asm.trans h1⟩
/-- What keeps the segments gathered in the core of its port. -/
theorem noAsm_core {x : Core} (ha : t.around p = s.around p) (h : t.core p = x) (hx : x.tow.blkAsm = (s.core p).tow.blkAsm) : noAsm p s t :=
  ⟨ha, fun h1 => by rw [tow_of_core h, hx]; exact h1⟩
theorem noAsm_ite {c : Prop} [Decidable c] (h : noAsm p s t) (k : noAsm p s u) : noAsm p s (if c then t else u) := by split <;> assumption

section
variable (p : Fin 16) (s : State)

theorem State.modRcv_noAsm (f : Receiver → Receiver) : noAsm p s (s.modRcv p f) := noAsm_core (s.modRcv_around p p f) (s.modRcv_core p f) rfl
theorem State.modLink_noAsm (f : Link → Link) : noAsm p s (s.modLink p f) := noAsm_core (s.modLink_around p f) (s.modLink_core p f) rfl
theorem State.goLink_noAsm (f : Link → Link) : noAsm p s (s.goLink p f) := noAsm_core (s.goLink_around p f) (s.goLink_core p f) rfl
theorem State.queueCell_noAsm (n : Nat) (b : List Byte) : noAsm p s (s.queueCell p n b) :=
  noAsm_core (s.queueCell_around p n b) (s.queueCell_core p n b) rfl
theorem State.raise_noAsm (c b n : Nat) (w x y z : Word) : noAsm p s (s.raise c b n w x y z) :=
  noAsm_core (s.raise_around p c b n w x y z) (s.raise_core p c b n w x y z) rfl
theorem State.count_noAsm (b k n : Nat) : noAsm p s (s.count b k n) := noAsm_session (s.count_session p b k n)

/-! ### Frames extracted from a block (R197 to R199, R207, R215) -/

theorem State.issue_noAsm (q : Queue) (n : Nat) (r : Bool) : noAsm p s (s.issue q n r).2 := by
  have ht (y : Tally) : noAsm p s { s with tally := y } := ⟨rfl, id⟩
  have hp : noAsm p s (s.tagPick q.num q.outbound).2 := by
    unfold State.tagPick
    dsimp only
    split
    · split
      · split
        · exact ht _
        · split
          · exact noAsm_trans (ht _) (State.count_noAsm p _ 4 1 1)
          · exact noAsm_trans (ht _) (State.count_noAsm p _ 4 2 1)
      · exact ht _
    · exact noAsm_refl p s
  unfold State.issue
  dsimp only
  refine noAsm_trans hp (noAsm_trans ?_ (noAsm_trans (State.count_noAsm p _ 3 0 1) (State.count_noAsm p _ 3 7 _)))
  exact noAsm_session (keepsSession_basin p _ _)
theorem State.cadArrive_noAsm (q a : Nat) : noAsm p s (s.cadArrive q a) := by
  have h1 (t : State) (e : Nat × Cadence) (n : Nat) : noAsm p t (t.trackEntry q n e) := by
    unfold State.trackEntry
    dsimp only
    have hk : noAsm p t ((t.putCad e.1 (trackOne e.2 n).1).reanchor e.1) := ⟨rfl, id⟩
    split
    · exact noAsm_ite (noAsm_trans hk (State.raise_noAsm p _ _ _ _ _ _ _ _)) hk
    · exact noAsm_refl p t
  unfold State.cadArrive
  generalize t16 a = n
  generalize s.time.cads = l
  induction l generalizing s with
  | nil => exact noAsm_refl p s
  | cons e l ih => exact noAsm_trans (h1 s e n) (ih _)
theorem State.queueTicket_noAsm (i : Nat) : noAsm p s (s.queueTicket i) := by
  unfold State.queueTicket
  split
  · exact noAsm_refl p s
  · split
    · exact noAsm_session (s.freeTicket_session p i true)
    · exact noAsm_session (keepsSession_trans (s.modTicket_session p _ _) (keepsSession_trans (State.modQueue_session p _ _ _) (State.flowSync_session p _ _)))
theorem State.endFrame_noAsm (b : HeldBlk) : noAsm p s (s.endFrame p b) := by
  unfold State.endFrame
  dsimp only
  have h := noAsm_trans (s.modRcv_noAsm p (fun r => { r with parser := { r.parser with busy := false, ticket := none } })) (State.count_noAsm p _ (portBlock p.val) 7 1)
  split
  · exact h
  · split
    · exact h
    · refine noAsm_trans h (noAsm_ite ?_ ?_)
      · exact noAsm_trans (noAsm_session (State.modTicket_session p _ _ _)) (noAsm_trans (State.queueTicket_noAsm p _ _) (noAsm_session (State.stage_session p _ _ _)))
      · exact noAsm_trans (noAsm_session (State.freeTicket_session p _ _ _)) (State.count_noAsm p _ 3 2 1)
theorem State.frameBytes_noAsm (l : List Byte) : noAsm p s (s.frameBytes p l) := by
  unfold State.frameBytes
  dsimp only
  split
  · exact noAsm_trans (noAsm_session (s.modTicket_session p _ _)) (State.modRcv_noAsm p _ _)
  · exact s.modRcv_noAsm p _
theorem State.framingError_noAsm (q : Seq24) : noAsm p s (s.framingError p q) := by
  unfold State.framingError
  dsimp only
  refine noAsm_trans ?_ (noAsm_trans (State.modRcv_noAsm p _ (fun r => { r with parser := { resync := true } }))
    (noAsm_trans (State.count_noAsm p _ (portBlock p.val) 6 1) (State.raise_noAsm p _ _ _ _ _ _ _ _)))
  split
  · exact noAsm_session (s.freeTicket_session p _ _)
  · exact noAsm_refl p s

/-- The same of a walk over a block that runs to its end. -/
def Walk.noAsm (p : Fin 16) (s : State) : Walk → Prop
  | .done t => State.noAsm p s t
  | .refuse _ _ => True

variable {p s} in
theorem Walk.noAsm_trans {t : State} {w : Walk} (h : State.noAsm p s t) (k : w.noAsm p t) : w.noAsm p s := by
  cases w with
  | done _ => exact Machine.noAsm_trans h k
  | refuse _ _ => trivial

theorem State.startFrame_noAsm (b : HeldBlk) (tag : Byte) (r : Bool) (n : Nat) : (s.startFrame p b tag r n).noAsm p s := by
  have hd (t : State) (f : Receiver → Receiver) : State.noAsm p t ((t.modRcv p f).count 3 2 1) :=
    noAsm_trans (t.modRcv_noAsm p f) (State.count_noAsm p _ 3 2 1)
  unfold State.startFrame
  dsimp only
  split
  · exact hd s _
  · split
    · exact hd s _
    · split
      · exact noAsm_trans (s.issue_noAsm p _ n r) (noAsm_trans (noAsm_session (State.modTicket_session p _ _ _))
          (noAsm_trans (State.modRcv_noAsm p _ _) (State.cadArrive_noAsm p _ _ _)))
      · split
        · exact noAsm_trans (hd s _) (State.count_noAsm p _ _ 16 1)
        · trivial

theorem State.walk_noAsm (b : HeldBlk) (n : Nat) (pos : Nat) (c r : Bool) : (State.walk p b n s pos c r).noAsm p s := by
  induction n generalizing s pos c r with
  | zero => exact noAsm_refl p s
  | succ n ih =>
    have hfail : (if r && ffpLegal b.payload.length b.ffp && decide (pos < b.ffp.toNat) then
        State.walk p b n ((s.framingError p b.seq).modRcv p (fun r => { r with parser := {} })) b.ffp.toNat false false
      else .done (s.framingError p b.seq)).noAsm p s := by
      have h := s.framingError_noAsm p b.seq
      split
      · exact Walk.noAsm_trans (noAsm_trans h (State.modRcv_noAsm p _ _)) (ih _ _ _ _)
      · exact h
    unfold State.walk
    dsimp only
    split
    · split
      · exact hfail
      · exact noAsm_refl p s
    · split
      · refine Walk.noAsm_trans ?_ (ih _ _ _ _)
        exact noAsm_ite (noAsm_trans (s.frameBytes_noAsm p _) (State.endFrame_noAsm p _ b)) (s.frameBytes_noAsm p _)
      · split
        · exact ih _ _ _ _
        · split
          · exact hfail
          · split
            · exact noAsm_refl p s
            · split
              · exact hfail
              · have hs := s.startFrame_noAsm p b (b.payload.getD pos 0) ((b.payload.getD (pos + 1) 0).getLsbD 7) (beAt b.payload (pos + 1) 2 % 2 ^ 14)
                split
                · trivial
                · next heq =>
                  rw [heq] at hs
                  exact Walk.noAsm_trans hs (ih _ _ _ _)
theorem State.extract_noAsm (b : HeldBlk) : (s.extract p b).noAsm p s := by
  unfold State.extract
  dsimp only
  split
  · split
    · exact Walk.noAsm_trans (s.modRcv_noAsm p _) (State.walk_noAsm p _ b _ _ _ _)
    · exact noAsm_ite (noAsm_refl p s) (s.framingError_noAsm p b.seq)
  · split
    · exact s.framingError_noAsm p b.seq
    · exact s.walk_noAsm p b _ _ _ _
theorem State.advance_noAsm (n : Nat) : noAsm p s (State.advance p n s) := by
  induction n generalizing s with
  | zero => exact noAsm_refl p s
  | succ n ih =>
    unfold State.advance
    dsimp only
    split
    · exact noAsm_refl p s
    · next b _ =>
      have h := s.extract_noAsm p b
      split
      · next heq =>
        rw [heq] at h
        exact noAsm_trans h (noAsm_trans (State.modRcv_noAsm p _ _) (ih _))
      · exact s.modRcv_noAsm p _
theorem State.takeData_noAsm (b : Blk) : noAsm p s (s.takeData p b) := by
  unfold State.takeData
  dsimp only
  generalize hu : s.modRcv p _ = u
  have h1 : noAsm p s u := hu ▸ s.modRcv_noAsm p _
  refine noAsm_ite h1 (noAsm_ite ?_ (noAsm_ite ?_ ?_))
  · exact noAsm_trans h1 (noAsm_trans (State.count_noAsm p _ _ _ _) (noAsm_session (State.nackSync_session p _)))
  · generalize hv : State.count (u.modRcv p _) (portBlock p.val) 0 1 = v
    have h2 : noAsm p u v := hv ▸ noAsm_trans (u.modRcv_noAsm p _) (State.count_noAsm p _ (portBlock p.val) 0 1)
    have h3 : noAsm p s v := noAsm_trans h1 h2
    refine noAsm_trans ?_ (noAsm_session (State.rcvSync_session p _))
    exact noAsm_ite h3 (noAsm_trans h3 (State.advance_noAsm p _ _))
  · exact noAsm_trans h1 (noAsm_trans (State.modRcv_noAsm p _ _) (noAsm_session (State.nackSync_session p _)))
theorem State.takeFill_noAsm (b : Blk) : noAsm p s (s.takeFill p b) :=
  noAsm_trans (s.modRcv_noAsm p _) (noAsm_session (State.nackSync_session p _))

/-! ### Shifts and writes that waited (R84, R87, R310) -/

theorem State.linkDown_noAsm (c : Nat) : noAsm p s (s.linkDown p c) := by
  obtain ⟨n, _, e⟩ := s.linkDown_core p c
  exact ⟨s.linkDown_around p c, fun _ => by rw [tow_of_core e]; rfl⟩
theorem State.earlyExit_noAsm : noAsm p s (s.earlyExit p) := by
  obtain ⟨h1, _, _, h2⟩ := s.earlyExit_waits p
  exact ⟨h1, h2.trans⟩
theorem State.skipWindow_noAsm (c : Nat) : noAsm p s (s.skipWindow p c) := by
  unfold State.skipWindow
  exact noAsm_trans (noAsm_core (s.modQuiet_around p _) (s.modQuiet_core p _) rfl) (State.raise_noAsm p _ _ _ _ _ _ _ _)
theorem State.shiftBegin_noAsm (m : LineMode) (k f : Nat) : noAsm p s (s.shiftBegin p m k f) := by
  refine ⟨s.shiftBegin_around p m k f, fun h => ?_⟩
  have hx (x : Port) (c : Prop) [Decidable c] (a : LineMode) : (if c then x.storeSet a else x).tow = x.tow := by
    unfold Port.storeSet
    split_ifs <;> rfl
  unfold State.shiftBegin
  dsimp only
  split
  · exact h
  · rw [tow_of_core (State.goLink_core ..)]
    have hv (v : State) (hv : (v.port p).tow.blkAsm = none) (g : Towpath → Towpath) (hg : ∀ t, (g t).blkAsm = t.blkAsm) (c : Bool) :
        ((if c then v.modTow p g else v).port p).tow.blkAsm = none := by
      split
      · rw [State.port_modTow]
        exact (hg _).trans hv
      · exact hv
    refine hv _ ?_ _ ?_ (m == .lchirp)
    rotate_left
    · exact fun _ => rfl
    rw [State.port_modTow, State.port_modPort_same]
    dsimp only
    rw [hx]
    exact h
theorem State.leadShift_noAsm (m : LineMode) (k : Nat) : noAsm p s (s.leadShift p m k) :=
  noAsm_trans (s.shiftBegin_noAsm p m k _) (State.queueCell_noAsm p _ 4 _)
theorem State.trigger_noAsm (m : LineMode) (k : Nat) : noAsm p s (s.trigger p m k) := by
  have hask (t : State) : noAsm p t (t.askShift p m k) := t.queueCell_noAsm p 5 _
  unfold State.trigger
  dsimp only
  split
  · split
    · exact noAsm_ite (noAsm_trans (s.modLink_noAsm p _) (State.earlyExit_noAsm p _)) (hask s)
    · exact s.modLink_noAsm p _
    · exact s.modLink_noAsm p _
    · suffices hp : noAsm p s _ from noAsm_ite (noAsm_trans hp (State.leadShift_noAsm p _ m k)) (noAsm_trans hp (hask _))
      split
      · exact noAsm_trans (noAsm_ite (s.queueCell_noAsm p 9 _) (noAsm_refl p s)) (State.skipWindow_noAsm p _ 5)
      · exact noAsm_refl p s
  · exact noAsm_refl p s
theorem State.runDeferred_noAsm : noAsm p s (s.runDeferred p) := by
  unfold State.runDeferred
  split
  · exact noAsm_trans (s.modLink_noAsm p _) (State.trigger_noAsm p _ _ _)
  · exact noAsm_refl p s

theorem State.enterDiscover_noAsm : noAsm p s (s.enterDiscover p false) := by
  refine ⟨s.enterDiscover_around p false, fun _ => ?_⟩
  unfold State.enterDiscover
  dsimp only
  generalize hv : State.modTow _ p _ = v
  have h1 : (v.port p).tow.blkAsm = none := by rw [← hv, State.port_modTow]; rfl
  obtain ⟨_, _, _, _, e⟩ := State.sendBeacon_core (v.goLink p (fun l => { l with state := .discover, train := none, leader := false, dirPartner := 0 })) p false
  rw [tow_of_core e, State.goLink_core]
  exact h1
theorem State.startPort_noAsm : noAsm p s (s.startPort p) := by
  have hstd (m : LineMode) (b : Bool) : noAsm p s (s.enterStd p m b) := noAsm_core (s.enterStd_around p m b) (s.enterStd_core p m b) rfl
  have han : noAsm p s (s.enterAn p) := noAsm_core (s.enterAn_around p) (s.enterAn_core p) rfl
  have hdisc := s.enterDiscover_noAsm p
  unfold State.startPort
  split
  · exact noAsm_refl p s
  · split
    · exact s.goLink_noAsm p _
    · exact s.goLink_noAsm p _
    · unfold State.firstState
      dsimp only
      split
      · exact hstd _ _
      · exact hstd _ _
      · exact noAsm_ite hdisc han
      · exact noAsm_ite hdisc han
theorem State.restartPort_noAsm : noAsm p s (s.restartPort p) := by
  have h : noAsm p s ((s.txStop p).modTow p Towpath.fallen) :=
    ⟨(State.modTow_around _ p _).trans (s.txStop_around p), fun _ => by rw [State.port_modTow]; rfl⟩
  exact noAsm_trans h (State.startPort_noAsm p _)
theorem State.reqChanged_noAsm : noAsm p s (s.reqChanged p) := by
  unfold State.reqChanged
  dsimp only
  split
  · exact s.modLink_noAsm p _
  · refine noAsm_ite (noAsm_refl p s) (noAsm_ite (s.modLink_noAsm p _) (noAsm_ite (noAsm_ite ?_ (s.modLink_noAsm p _)) (s.linkDown_noAsm p 15)))
    exact noAsm_trans (s.modLink_noAsm p _) (State.trigger_noAsm p _ _ 2)
  · exact noAsm_refl p s
theorem State.polChanged_noAsm (w : Word) : noAsm p s (s.polChanged p w) := by
  have hex (m : LineMode) : noAsm p s (s.excludeMode p m) := by
    unfold State.excludeMode
    split
    · exact s.trigger_noAsm p _ 0
    · exact s.linkDown_noAsm p 15
  unfold State.polChanged
  dsimp only
  split
  · exact noAsm_refl p s
  · refine noAsm_ite (noAsm_ite (hex _) (s.linkDown_noAsm p 15)) (noAsm_ite (noAsm_ite ?_ (noAsm_ite (noAsm_refl p s) (s.queueCell_noAsm p 5 _))) (noAsm_refl p s))
    split
    · exact noAsm_trans (s.modLink_noAsm p _) (State.trigger_noAsm p _ _ 0)
    · exact noAsm_refl p s
theorem State.writesAct_noAsm (v w : Word) : noAsm p s (s.writesAct p v w) := by
  have hreq : noAsm p s (if fld w 0 4 ≠ fld (s.lnMode p) 0 4 then s.reqChanged p else s) := noAsm_ite (s.reqChanged_noAsm p) (noAsm_refl p s)
  have hpol : noAsm p s (match ((if fld w 0 4 ≠ fld (s.lnMode p) 0 4 then s.reqChanged p else s).port p).link.state with
      | .loconUp | .stdUp => (if fld w 0 4 ≠ fld (s.lnMode p) 0 4 then s.reqChanged p else s).polChanged p v
      | _ => if fld w 0 4 ≠ fld (s.lnMode p) 0 4 then s.reqChanged p else s) := by
    split
    · exact noAsm_trans hreq (State.polChanged_noAsm p _ v)
    · exact noAsm_trans hreq (State.polChanged_noAsm p _ v)
    · exact hreq
  unfold State.writesAct
  dsimp only
  refine noAsm_ite (noAsm_refl p s) (noAsm_ite (s.restartPort_noAsm p) ?_)
  split
  · exact s.modLink_noAsm p _
  · exact hpol
  · exact hpol
  · exact noAsm_refl p s
theorem State.afterShift_noAsm : noAsm p s (s.afterShift p) := by
  cases h : (s.port p).link.wrOld with
  | none => exact noAsm_session (s.afterShift_session p h)
  | some w =>
    have e : s.afterShift p = if (s.port p).link.state = .loconUp then
        ((s.modLink p (fun l => { l with wrOld := none })).writesAct p w.1 w.2).sfSync p else s := by
      unfold State.afterShift
      rw [h]
      cases (s.port p).link.state <;> rfl
    rw [e]
    exact noAsm_ite (noAsm_trans (s.modLink_noAsm p _) (noAsm_trans (State.writesAct_noAsm p _ _ _) (noAsm_session (State.sfSync_session p _))))
      (noAsm_refl p s)

/-! ### A whole block in LCHIRP (R119, R193) -/

section
variable (hl : (s.port p).inLchirp = true) (b : Blk)

theorem State.onFailed_noAsm : noAsm p s (s.onFailed p) := by
  unfold State.onFailed State.failBlock
  exact noAsm_ite (noAsm_trans (noAsm_session (s.descrBlock_session p)) (State.count_noAsm p _ _ _ _)) (noAsm_refl p s)

include hl

theorem State.onData_noAsm : noAsm p s (s.onData p b) := by
  obtain ⟨h1, h2⟩ := s.blockHead_session p b fun _ => hl
  unfold State.onData
  dsimp only
  rw [h2]
  refine noAsm_ite (s.onFailed_noAsm p) (noAsm_trans (noAsm_session h1) (noAsm_trans ?_ (State.runDeferred_noAsm p _)))
  exact noAsm_ite (State.takeData_noAsm p _ b) (noAsm_refl p _)
theorem State.onFill_noAsm : noAsm p s (s.onFill p b) := by
  obtain ⟨h1, h2⟩ := s.blockHead_session p b fun _ => hl
  unfold State.onFill
  dsimp only
  rw [h2]
  refine noAsm_ite (noAsm_refl p s) (noAsm_trans (noAsm_session h1) (noAsm_trans ?_ (State.runDeferred_noAsm p _)))
  exact noAsm_ite (noAsm_trans (State.takeFill_noAsm p _ b) (noAsm_session (State.rcvSync_session p _))) (noAsm_refl p _)
theorem State.onOther_noAsm : noAsm p s (s.onOther p b) := by
  obtain ⟨h1, h2⟩ := s.blockHead_session p b fun _ => hl
  unfold State.onOther
  dsimp only
  rw [h2]
  exact noAsm_ite (noAsm_refl p s) (noAsm_trans (noAsm_session h1) (State.count_noAsm p _ _ 15 1))

/-- A SYNC and what it ends, with no cell from its slot. -/
theorem State.takeSync_noAsm : noAsm p s (s.takeSync p b).1 ∧ (s.takeSync p b).2 = none := by
  obtain ⟨h1, h2⟩ := s.blockHead_session p b fun _ => hl
  unfold State.takeSync
  split
  · exact ⟨noAsm_refl p s, rfl⟩
  · next m _ =>
    split
    · exact ⟨noAsm_session h1, h2⟩
    · have hset := settleSession_settled s p m b
      obtain ⟨h3, h4⟩ := (s.settleSession p m b).blockHead_session p b fun _ => by
        unfold Port.inLchirp at hl ⊢
        rw [hset.link]
        exact hl
      have hw : noAsm p s ((s.settleSession p m b).blockHead p b).1 :=
        noAsm_trans ⟨hset.around, fun h => hset.asm.trans h⟩ (noAsm_session h3)
      have he := syncEnds_ended ((s.settleSession p m b).blockHead p b).1 p m
      have hx : noAsm p ((s.settleSession p m b).blockHead p b).1 (((s.settleSession p m b).blockHead p b).1.syncEnds p m) :=
        ⟨he.around, fun h => by rw [he.tow]; exact h⟩
      exact ⟨noAsm_trans hw (noAsm_trans hx (noAsm_session (State.rcvSync_session p _))), h4⟩
theorem State.onSync_noAsm : noAsm p s (s.onSync p b) := by
  obtain ⟨h1, h2⟩ := s.takeSync_noAsm p hl b
  unfold State.onSync
  dsimp only
  rw [h2]
  exact noAsm_ite (noAsm_refl p s) (noAsm_trans h1 (State.afterShift_noAsm p _))

theorem State.lchirpBlock_noAsm (l : List Byte) : noAsm p s (s.lchirpBlock p l) := by
  unfold State.lchirpBlock
  dsimp only
  split
  · exact s.onFailed_noAsm p
  · split
    · exact s.onData_noAsm p hl _
    · exact s.onFill_noAsm p hl _
    · exact s.onSync_noAsm p hl _
    · exact s.onOther_noAsm p hl _

end
end

/-! ### Segments (R119) -/

section
variable (hs : s.steady p)
include hs

theorem block_unheard (hl : (s.port p).inLchirp = false) (k : Nat) (b : List Byte) : Does (.block p k b) s (s.still p) :=
  still_does hs rfl (if_pos (by rw [hl]; rfl)) fun _ => still_of_core

section
variable (hl : (s.port p).inLchirp = true)
include hl

theorem block_first (b : List Byte) : Does (.block p 0 b) s (fun t => (t.port p).tow.blkAsm = some (b.take 24, 1)) := by
  have e : s.takeSegment p 0 b = s.modTow p (fun t => { t with blkAsm := some (b.take 24, 1) }) := by
    unfold State.takeSegment
    dsimp only
    rw [if_neg (by rw [hl]; nofun)]
    exact if_pos rfl
  exact core_does hs rfl e (s.modTow_around p _) (State.modTow_core ..) fun v hv => by rw [tow_of_core hv]

omit hs in
/-- A later segment that follows on the ones gathered. -/
theorem State.takeSegment_next {k : Nat} {acc : List Byte} (hk : k ≠ 0) (ha : (s.port p).tow.blkAsm = some (acc, k)) (b : List Byte) : s.takeSegment p k b =
    if k = 19 then (s.modTow p (fun t => { t with blkAsm := none })).lchirpBlock p (acc ++ b.take 4)
    else s.modTow p (fun t => { t with blkAsm := some (acc ++ b.take 24, k + 1) }) := by
  unfold State.takeSegment
  dsimp only
  rw [if_neg (by rw [hl]; nofun), if_neg hk, ha]
  exact if_neg (not_not.mpr rfl)

theorem block_next {k : Nat} {acc : List Byte} (b : List Byte) (ha : (s.port p).tow.blkAsm = some (acc, k)) (hk : k ≠ 0) (hn : k ≠ 19) :
    Does (.block p k b) s (fun t => (t.port p).tow.blkAsm = some (acc ++ b.take 24, k + 1)) :=
  core_does hs rfl ((State.takeSegment_next hl hk ha b).trans (if_neg hn)) (s.modTow_around p _) (State.modTow_core ..) fun v hv => by
    rw [tow_of_core hv]
theorem block_last {acc : List Byte} (b : List Byte) (ha : (s.port p).tow.blkAsm = some (acc, 19)) :
    Does (.block p 19 b) s (fun t => (t.port p).tow.blkAsm = none) := by
  generalize hu : s.modTow p (fun t => { t with blkAsm := none }) = u
  have e : s.takeSegment p 19 b = u.lchirpBlock p (acc ++ b.take 4) := by
    rw [← hu]
    exact (State.takeSegment_next hl (by decide) ha b).trans (if_pos rfl)
  have huk := (congrArg (State.core · p) hu).symm.trans (State.modTow_core ..)
  have hua : u.around p = s.around p := by rw [← hu]; exact s.modTow_around p _
  have hul : (u.port p).inLchirp = true := by
    unfold Port.inLchirp at hl ⊢
    rw [link_of_core huk]
    exact hl
  have h := u.lchirpBlock_noAsm p hul (acc ++ b.take 4)
  refine runsPort_does (h.around.trans hua) hs (congrArg (s.runsPort p) e) ?_
  rw [settle_port_tow]
  exact h.none_ (by rw [tow_of_core huk])
theorem block_astray {k : Nat} (b : List Byte) (hk : k ≠ 0) (ha : ((s.port p).tow.blkAsm.all (fun e => e.2 != k)) = true) :
    Does (.block p k b) s (s.still p) := by
  refine still_does hs rfl ?_ fun _ => still_of_core
  unfold State.takeSegment
  dsimp only
  rw [if_neg (by rw [hl]; nofun), if_neg hk]
  cases h : (s.port p).tow.blkAsm with
  | none => rfl
  | some e =>
    rw [h] at ha
    exact if_pos (bne_iff_ne.mp ha)

end
end
end

/-- Settles O47: CACK cells by what the acknowledged cell asked for, the other cells by their own rules, BLOCK segments by the relation
that every operation of a block keeps. -/
theorem towpathCells : Obligations.TowpathCells := by
  unfold Obligations.TowpathCells
  intro s p hs
  refine ⟨fun h ctr type e ha hf => cack_known hs ha hf, fun h ctr type ha hf => cack_unknown hs ha hf, fun ctr e hf hd => ⟨fun h1 h2 h3 =>
      cellResendTimeout_exit hs hf hd h1 h2 h3, fun hx => ⟨fun hn => cellResendTimeout_due hs hf hd hx hn, fun hn => cellResendTimeout_ends hs hf hd hx hn⟩⟩,
    fun ctr h => cellResendTimeout_stays hs h, fun type l hh hl => ⟨fun hn => macFail_counts hs hh hl hn, fun hn => macFail_ends hs hh hl hn⟩,
    fun h c ha hl => tpsf_taken hs ha hl, fun h c ha hl => tpsf_declined hs ha hl, fun r hr => ⟨fun h => sfChange_acts hs hr h, fun h => sfChange_waits hs hr h,
      fun h1 h2 => tpsfRenew_sends hs hr h1 h2, fun h => tpsfRenew_waits hs hr h⟩, fun h => tpsf_none hs h,
    fun h1 h2 h3 h4 => nonceRefreshStart_sends hs h1 h2 h3 h4, fun h => nonceRefreshStart_waits hs h, fun h n ha => nonce_taken hs n ha, nonceOldDrop_drops hs,
    runs_still hs.1 rfl rfl, fun _ => cell_counted hs.1 15 rfl, fun _ => cell_counted hs.1 10 rfl, fun h => towpathCellSlot_unheard hs h,
    fun hh => ⟨fun w hw => ⟨fun h => towpathCellSlot_idle hs hh hw h, fun a h => towpathCellSlot_again hs hh hw h,
      fun i c n b hp hn hb => towpathCellSlot_fresh hs hh hw hp hn hb⟩, fun u v pr => pilot_joins hs hh u v pr⟩,
    fun hl k bs => block_unheard hs hl k bs, fun hl => ⟨fun bs => block_first hs hl bs, fun k bs acc ha hk hn => block_next hs hl bs ha hk hn,
      fun bs acc ha => block_last hs hl bs ha, fun k bs hk ha => block_astray hs hl bs hk ha⟩⟩

end Sys2Proof.Machine
end

section
/-! PROOFS. Time transfer over a Locon hop (R104, R107, R281 to R284): REQs and their SYNCs, the sink's discipline, and a REQ that
nothing answers. -/

namespace Sys2Proof.Machine

section
variable {s : State} {p : Fin 16}

/-! ### Cells that the receiver always takes (R107) -/

theorem State.withCell_acts {h : CellHdr} (ha : s.actsOn p h) (n : Nat) (act : State → State) : s.withCell p h n act = act (s.heardCell p h n) := by
  have h1 := ha.2
  unfold State.withCell State.heardCell
  generalize s.takeCell p h = x at h1 ⊢
  obtain ⟨k, v, u⟩ := x
  cases h1
  rfl

/-- A cell heard changes ports and the tally alone. -/
theorem State.heardCell_eq (s : State) (p : Fin 16) (h : CellHdr) (n : Nat) : ∃ v t, s.heardCell p h n = { s with ports := v, tally := t } := by
  unfold State.heardCell State.takeCell
  dsimp only
  split
  · obtain ⟨t, e⟩ := State.countCode_eq (s.modTow p fun t => { t with rxOld := _ }) (portBlock p.val) (0x200 + _) 1
    exact ⟨_, t, by rw [State.count, e]; rfl⟩
  · obtain ⟨t, e⟩ := State.countCode_eq (s.modTow p fun t => { t with rx := _ }) (portBlock p.val) (0x200 + _) 1
    exact ⟨_, t, by rw [State.count, e]; rfl⟩

@[simp] theorem State.heardCell_time (h : CellHdr) (n : Nat) : (s.heardCell p h n).time = s.time := by
  obtain ⟨v, t, e⟩ := s.heardCell_eq p h n
  rw [e]
@[simp] theorem State.heardCell_basin (h : CellHdr) (n : Nat) : (s.heardCell p h n).basin = s.basin := by
  obtain ⟨v, t, e⟩ := s.heardCell_eq p h n
  rw [e]
@[simp] theorem State.heardCell_chans (h : CellHdr) (n : Nat) : (s.heardCell p h n).chans = s.chans := by
  obtain ⟨v, t, e⟩ := s.heardCell_eq p h n
  rw [e]

theorem isSource_around {u : State} (h : u.around p = s.around p) (q : Fin 16) : u.isSource q = s.isSource q := by
  unfold State.isSource State.fldOf
  rw [around_act h]

/-! ### REQs (R281, R282) -/

section
variable (hc : s.clocked = true)
include hc

theorem timeReqTimer_sink (hx : s.isSource p = false) (hr : (s.port p).loconRuns = true) : Does (.timeReqTimer p) s (fun t =>
    (t.port p).tow.ready = (s.port p).tow.ready ++ [⟨8, 0, List.replicate 24 0⟩] ∧ (t.port p).xferStep = false) := by
  have e : s.timeReqDue p = (s.modPort p (fun x => { x with xferStep := false })).queueCell p 8 (padTo 24 []) :=
    if_neg (by rw [hx, hr]; nofun)
  refine runs_does hc rfl ?_
  rw [e, settle_port_tow, settle_port_xferStep, State.queueCell, State.port_modTow, State.port_modPort_same]
  exact ⟨rfl, rfl⟩
theorem timeReqTimer_source (hx : s.isSource p = true) : Does (.timeReqTimer p) s (fun t => (t.port p).tow = (s.port p).tow) := by
  refine runs_does hc rfl ?_
  rw [settle_port_tow, show s.timeReqDue p = s from if_pos (by rw [hx]; rfl)]

end

section
variable {h : CellHdr} (ha : s.actsOn p h) {t1 : Nat} (ht : t1 = s.time.now / 2 ^ 32
  - ((s.port p).tow.symCount - pilotBefore (s.port p).tow.symCount).toNat
    * symbolPs ((s.port p).tow.profile == .wideRun) (max 7 (s.port p).tow.sf) * 256 / 1000) (s2 : Word) (t4 : Nat)
include ha ht

/-- A REQ that its receiver takes: a source answers it (R282). -/
theorem State.takeTimeReq_eq : s.takeTimeReq p h s2 t4 = if s.isSource p then
      (s.heardCell p h 8).queueCell p 8 (timeSyncPayload false (pilotBefore (s.port p).tow.symCount) t1 s2 ((t4 : Int) - t1))
    else s.heardCell p h 8 := by
  obtain ⟨a, b, e⟩ := s.heardCell_port p h 8
  unfold State.takeTimeReq
  rw [if_neg (by rw [ha.1]; nofun), State.withCell_acts ha, isSource_around (s.heardCell_around p h 8)]
  dsimp only
  rw [e, State.heardCell_time, ht]
  cases s.isSource p <;> rfl
theorem timeReq_source (hc : s.clocked = true) (hx : s.isSource p = true) : Does (.timeReq p h s2 t4) s
    (s.acked p h 8 [⟨8, 0, timeSyncPayload false (pilotBefore (s.port p).tow.symCount) t1 s2 ((t4 : Int) - t1)⟩]) := by
  obtain ⟨a, b, e⟩ := s.heardCell_core p h 8
  refine runs_core hc rfl ((State.takeTimeReq_eq ha ht s2 t4).trans (if_pos hx)) (State.modTow_core ..) fun v hv => ?_
  rw [State.acked, tow_of_core hv, e]
  exact List.append_assoc ..

end

theorem timeReq_sink (hc : s.clocked = true) {h : CellHdr} (ha : s.actsOn p h) (s2 : Word) (t4 : Nat) (hx : s.isSource p = false) :
    Does (.timeReq p h s2 t4) s (s.acked p h 8 []) := by
  obtain ⟨a, b, e⟩ := s.heardCell_core p h 8
  refine runs_core hc rfl ((State.takeTimeReq_eq ha rfl s2 t4).trans (if_neg (by rw [hx]; nofun))) e fun v hv => ?_
  rw [State.acked, tow_of_core hv]
  rfl

/-! ### A step of vehicle time (R277, R293) -/

/-- What a step's part in the calendar leaves: the time, its slew and the ports. -/
def State.stepped (s : State) : Nat × Option Int × Vector Port 16 := (s.time.now, s.time.slew, s.ports)

section
variable (s : State)

theorem State.noteLate_stepped (e : Nat) : (s.noteLate e).stepped = s.stepped := by simp [State.stepped, State.noteLate]
theorem State.noteDropped_stepped (e : Nat) : (s.noteDropped e).stepped = s.stepped := by simp [State.stepped, State.noteDropped]
theorem State.rearm_stepped (e n : Nat) (x : CalEntry) : (State.rearm e n s x).stepped = s.stepped := by
  induction n generalizing s x with
  | zero => rfl
  | succ n ih =>
    unfold State.rearm
    dsimp only
    refine ite_keep State.stepped rfl ?_
    split
    · rfl
    · exact ih s _
    · exact (ih _ _).trans (s.noteDropped_stepped e)
    · exact State.noteLate_stepped _ e
    · rfl
theorem State.stepEntry_stepped (old : Nat) (e : Nat × CalEntry) : (State.stepEntry old s e).stepped = s.stepped := by
  unfold State.stepEntry
  dsimp only
  refine ite_keep State.stepped ?_ (ite_keep State.stepped ?_ rfl)
  · split <;> rfl
  · split
    · exact ite_keep State.stepped ((State.rearm_stepped _ _ _ _).trans (s.noteDropped_stepped e.1)) (State.noteLate_stepped _ e.1)
    · exact State.noteLate_stepped _ e.1

/-- A load sets the time, ends a slew and marks every exchange under way. -/
theorem State.loadTime_stepped (new : Nat) :
    (s.loadTime new).stepped = (new, none, s.ports.map (fun (x : Port) => { x with xferStep := true })) := by
  unfold State.loadTime
  dsimp only
  generalize hu : ({ s with time := { s.time with now := new, fifths := 0, slew := none }, ports := s.ports.map _ } : State) = u
  have hk (l : List (Nat × CalEntry)) := foldl_keep State.stepped l (State.stepEntry s.time.now) u fun t e => t.stepEntry_stepped _ e
  have e (t : State) (w x y z : Word) : (t.raise 0x0030 2 0 w x y z).stepped = t.stepped := by simp [State.stepped]
  rw [e, hk, ← hu]
  rfl
theorem State.loadTime_tow (new : Nat) (p : Fin 16) : ((s.loadTime new).port p).tow = (s.port p).tow := by
  have h : (s.loadTime new).ports = _ := congrArg (fun x : Nat × Option Int × Vector Port 16 => x.2.2) (s.loadTime_stepped new)
  unfold State.port
  rw [h]
  show Port.tow ((s.ports.map _)[p.val]) = _
  rw [Vector.getElem_map]
  rfl

/-! ### Discipline (R284) -/

theorem State.discipline_beyond {th : Int} (h : 256000 < th.natAbs) :
    (s.discipline th).time.now = ((s.time.now : Int) - th * 2 ^ 32).toNat ∧ (s.discipline th).time.slew = none := by
  unfold State.discipline
  dsimp only
  rw [if_pos h]
  have e := State.loadTime_stepped { s with time := { s.time with
    ofs := wdI (satI 32 th), lockRun := if th.natAbs ≤ 512 then s.time.lockRun + 1 else 0, discHold := false } } ((s.time.now : Int) - th * 2 ^ 32).toNat
  exact ⟨congrArg Prod.fst e, congrArg (fun x : Nat × Option Int × Vector Port 16 => x.2.1) e⟩
theorem State.discipline_within {th : Int} (h : th.natAbs ≤ 256000) : (s.discipline th).time.now = s.time.now
    ∧ (s.discipline th).time.slew = some (-th * 2 ^ 32 * 5) ∧ (s.discipline th).time.lockRun = if th.natAbs ≤ 512 then s.time.lockRun + 1 else 0 := by
  unfold State.discipline
  dsimp only
  rw [if_neg (Nat.not_lt.mpr h)]
  exact ⟨rfl, rfl, rfl⟩
theorem State.discipline_tow (th : Int) (p : Fin 16) : ((s.discipline th).port p).tow = (s.port p).tow := by
  unfold State.discipline
  dsimp only
  exact ite_keep (fun t => (t.port p).tow) (State.loadTime_tow _ _ p) rfl

end

/-! ### SYNCs (R283, R284) -/

/-- The state of a sink that takes a SYNC: its exchange is over (R283). -/
def State.syncHeard (s : State) (p : Fin 16) (h : CellHdr) : State := (s.heardCell p h 8).modTow p (fun w => { w with reqS2 := none })

theorem State.syncHeard_time (h : CellHdr) : (s.syncHeard p h).time = s.time := State.heardCell_time h 8
theorem State.syncHeard_reqS2 (h : CellHdr) : ((s.syncHeard p h).port p).tow.reqS2 = none := by
  unfold State.syncHeard
  rw [State.port_modTow]

/-- A SYNC that a sink takes: of its last REQ or not, of an exchange stepped or not, at the port that disciplines or not. -/
theorem State.takeTimeSync_eq {h : CellHdr} (ha : s.actsOn p h) (hx : s.isSource p = false) (c : TimeSyncCell) (t2 t3 : Nat) :
    s.takeTimeSync p h c t2 t3 = if (s.port p).tow.reqS2 ≠ some c.s2 then s.heardCell p h 8
      else if c.stepped = true ∨ (s.port p).xferStep = true then s.syncHeard p h
      else if fld (s.act (regKey 2 0x09)) 8 5 = p.val then (s.syncHeard p h).discipline (xferTheta c.t1 t2 t3 c.t4t1)
      else s.syncHeard p h := by
  have hu := s.heardCell_around p h 8
  have hv : (s.syncHeard p h).around p = s.around p := (State.modTow_around _ p _).trans hu
  obtain ⟨a, b, e⟩ := s.heardCell_port p h 8
  unfold State.takeTimeSync
  rw [if_neg (by rw [ha.1]; nofun), State.withCell_acts ha, isSource_around hu, hx]
  dsimp only
  rw [e]
  dsimp only
  have hf : (s.syncHeard p h).fldOf (regKey 2 0x09) 8 5 = fld (s.act (regKey 2 0x09)) 8 5 := by
    unfold State.fldOf
    rw [around_act hv]
  unfold State.syncHeard at hf ⊢
  simp only [hf, Bool.false_or, bne_iff_ne, Bool.or_eq_true]

section
variable (hc : s.clocked = true) {h : CellHdr} (ha : s.actsOn p h) (hx : s.isSource p = false) (c : TimeSyncCell) (t2 t3 : Nat)
include hc ha hx

theorem timeSync_other (hr : (s.port p).tow.reqS2 ≠ some c.s2) : Does (.timeSync p h c t2 t3) s (fun t => t.time = s.time ∧ s.acked p h 8 [] t) := by
  obtain ⟨a, b, e⟩ := s.heardCell_port p h 8
  refine runs_does hc rfl ?_
  rw [State.takeTimeSync_eq ha hx, if_pos hr, settle_time, State.heardCell_time, State.acked, settle_port_tow, e]
  exact ⟨rfl, rfl⟩

section
variable (hr : (s.port p).tow.reqS2 = some c.s2)
include hr

theorem timeSync_stepped (hs : c.stepped = true ∨ (s.port p).xferStep = true) :
    Does (.timeSync p h c t2 t3) s (fun t => t.time = s.time ∧ (t.port p).tow.reqS2 = none) := by
  refine runs_does hc rfl ?_
  rw [State.takeTimeSync_eq ha hx, if_neg (not_not.mpr hr), if_pos hs, settle_time, State.syncHeard_time, settle_port_tow]
  exact ⟨rfl, State.syncHeard_reqS2 h⟩
theorem timeSync_disciplines (h1 : c.stepped = false) (h2 : (s.port p).xferStep = false) (hd : fld (s.act (regKey 2 0x09)) 8 5 = p.val) {th : Int}
    (ht : xferTheta c.t1 t2 t3 c.t4t1 = th) : Does (.timeSync p h c t2 t3) s (fun t => (t.port p).tow.reqS2 = none
      ∧ (256000 < th.natAbs → t.time.now = ((s.time.now : Int) - th * 2 ^ 32).toNat ∧ t.time.slew = none)
      ∧ (th.natAbs ≤ 256000 → t.time.now = s.time.now ∧ t.time.slew = some (-th * 2 ^ 32 * 5)
        ∧ t.time.lockRun = if th.natAbs ≤ 512 then s.time.lockRun + 1 else 0)) := by
  have hs : ¬ (c.stepped = true ∨ (s.port p).xferStep = true) := by
    rw [h1, h2]
    decide
  refine runs_does hc rfl ?_
  rw [State.takeTimeSync_eq ha hx, if_neg (not_not.mpr hr), if_neg hs, if_pos hd, ht, settle_time, settle_port_tow, State.discipline_tow,
    ← State.syncHeard_time (s := s) (p := p) h]
  exact ⟨State.syncHeard_reqS2 h, fun hb => State.discipline_beyond _ hb, fun hb => State.discipline_within _ hb⟩

end
end

/-! ### A REQ unanswered (R281) -/

theorem xferNoSource_tells (hc : s.clocked = true) (hr : (s.port p).tow.reqS2.isSome = true) (hg : s.ringRoom) :
    Does (.xferNoSource p) s (fun t => (t.port p).tow.reqS2 = none ∧ t.told 0x0033 (portBlock p.val) p.val 0) := by
  obtain ⟨w, hw⟩ := Option.isSome_iff_exists.mp hr
  have e : s.noSource p = (s.modTow p (fun w => { w with reqS2 := none })).raise 0x0033 (portBlock p.val) p.val := by
    unfold State.noSource
    rw [hw]
  refine runs_does hc rfl ?_
  rw [e]
  refine ⟨?_, told_of (settle_ring _ _) (State.raise_told _ _ _ _ _ _ _ _ hg)⟩
  rw [settle_port_tow, State.raise_port, State.port_modTow]

end

/-- Settles O43: REQs by the port's role, SYNCs by the exchange they belong to, and the time-out of a REQ. -/
theorem timeTransfer : Obligations.TimeTransfer := by
  unfold Obligations.TimeTransfer
  intro s p hc
  refine ⟨fun hx hr => timeReqTimer_sink hc hx hr, fun hx => timeReqTimer_source hc hx,
    fun h s2 t4 t1 ha ht => ⟨fun hx => timeReq_source ha ht s2 t4 hc hx, fun hx => timeReq_sink hc ha s2 t4 hx⟩,
    fun h c t2 t3 th ha hx ht => ⟨fun hr => timeSync_other hc ha hx c t2 t3 hr, fun hr hs => timeSync_stepped hc ha hx c t2 t3 hr hs,
      fun hr h1 h2 hd => timeSync_disciplines hc ha hx c t2 t3 hr h1 h2 hd ht.symm⟩, fun hr hg => xferNoSource_tells hc hr hg⟩

end Sys2Proof.Machine
end

section
/-! PROOFS. REMOTE requests and answers from the line (R107, R222, R385, R390). -/

namespace Sys2Proof.Machine

/-! ### What closes a command at a port whose line carries REMOTE cells -/

theorem State.remoteDrop_runs {s : State} {p : Fin 16} (h : (s.port p).remoteRuns = true) : s.remoteDrop.port p = s.port p := by
  unfold State.remoteDrop
  split
  · show (s.ports.map _)[p.val] = _
    rw [Vector.getElem_map]
    exact if_pos h
  · rfl
theorem settle_port_runs (old : State) {s : State} {p : Fin 16} (h : (s.port p).remoteRuns = true) : (settle old s).port p = s.port p := by
  obtain ⟨t, ht⟩ := State.countRises_eq old s.regs s
  obtain ⟨v, t2, hv⟩ := State.remoteSweeps_eq allChans { s with tally := t }
  unfold settle
  rw [ht, hv]
  have hd := State.remoteDrop_runs (s := { s with chans := v, tally := t2 }) h
  obtain ⟨b, hb⟩ := State.journalNotice_eq (State.remoteDrop { s with chans := v, tally := t2 }) old
  obtain ⟨m, hm⟩ := State.syncDomains_eq (State.journalNotice (State.remoteDrop { s with chans := v, tally := t2 }) old)
  rw [hm, hb]
  exact hd

/-! ### Frames discarded -/

/-- What frames freed leave of a port: its towpath and its stopped tags. -/
def State.sends (s : State) (p : Fin 16) : Towpath × List Byte := ((s.port p).tow, (s.port p).stopped)

section
variable (s : State) (p : Fin 16)

theorem sends_of_ports {s t : State} (h : t.ports = s.ports) : t.sends p = s.sends p := by
  unfold State.sends State.port
  rw [h]
theorem State.gateOne_sends (q : Fin 16) (k : Nat) (c : Custody) : (s.gateOne q k c).sends p = s.sends p := by
  have h (f : Receiver → Receiver) : (s.modRcv q f).sends p = s.sends p := by
    unfold State.sends
    by_cases e : p = q
    · subst e
      rw [State.port_modRcv]
    · rw [State.modRcv, State.port_modPort_ne _ e]
  unfold State.gateOne
  exact ite_keep (State.sends · p) (h _) (ite_keep (State.sends · p) (h _) rfl)
theorem State.gateSync_sends (q : Fin 16) : (s.gateSync q).sends p = s.sends p := by
  unfold State.gateSync
  split
  · rw [State.gateOne_sends, State.gateOne_sends, State.gateOne_sends]
  · rfl
theorem State.flowSync_sends (q : Nat) : (s.flowSync q).sends p = s.sends p := by
  have hh (t : State) : t.hopSync.ports = t.ports := by
    unfold State.hopSync
    dsimp only
    (repeat' split) <;> rfl
  have hq (t : State) : (t.qflowSync q).ports = t.ports := by
    unfold State.qflowSync
    dsimp only
    (repeat' split) <;> rfl
  unfold State.flowSync
  rw [sends_of_ports p (hq _), sends_of_ports p (hh _), State.gateSync_sends]
theorem State.logTicket_ports (t : Ticket) (d : Bool) : (s.logTicket t d).ports = s.ports := by
  unfold State.logTicket
  dsimp only
  (repeat' split) <;> simp
theorem State.freeTicket_sends (i : Nat) (d : Bool) : (s.freeTicket i d).sends p = s.sends p := by
  unfold State.freeTicket
  split
  · rfl
  · rw [State.flowSync_sends]
    exact sends_of_ports p ((State.count_ports ..).trans (State.logTicket_ports _ _ _))
theorem State.freeAll_sends (l : List Nat) (d : Bool) : (s.freeAll l d).sends p = s.sends p :=
  foldl_keep (State.sends · p) l _ s fun t i => t.freeTicket_sends p i d

/-- Tickets freed are the only ones that go. -/
theorem State.freeAll_tickets (l : List Nat) (d : Bool) : (s.freeAll l d).basin.tickets = s.basin.tickets.filter (fun x => !l.contains x.id) := by
  unfold State.freeAll
  induction l generalizing s with
  | nil => simp
  | cons i l ih =>
    rw [List.foldl_cons, ih, State.freeTicket_tickets, List.filter_filter]
    refine List.filter_congr fun x _ => ?_
    rw [List.contains_cons, Bool.not_or, Bool.and_comm]
    rfl

end

/-! ### The operations (R222) -/

theorem tagOpen_of_basin {s t : State} (h : t.basin = s.basin) (p : Fin 16) (tag : Byte) : t.tagOpen p tag = s.tagOpen p tag := by
  unfold State.tagOpen State.queue?
  rw [h]
theorem unpacked_of_basin {s t : State} (h : t.basin = s.basin) (q : Nat) : t.unpacked q = s.unpacked q := by
  unfold State.unpacked State.queue? State.ticketsOf
  rw [h]

section
variable (u : State) (p : Fin 16) (c : RemoteCell)

theorem State.remAnswer_sends (n : Nat) (a : BitVec 128) : (u.remAnswer p c n a).sends p = ({ (u.port p).tow with
    ready := (u.port p).tow.ready ++ [⟨7, 0, remotePayload c.op true c.reqId c.tag (BitVec.ofNat 8 n) a⟩] }, (u.port p).stopped) := by
  unfold State.sends State.remAnswer State.queueCell
  rw [State.port_modTow]
  rfl

/-- The frames that a STREAM_STOP discards (R222). -/
def State.stopDrops (s : State) (p : Fin 16) (c : RemoteCell) : List Nat :=
  if argByte0 c.arg % 2 = 1 then s.unpacked (tagQueue p c.tag) else []

/-- The tag that a STREAM_STOP stops. -/
def State.stopTag (s : State) (p : Fin 16) (tag : Byte) : State :=
  s.modPort p (fun x => { x with stopped := if x.stopped.contains tag then x.stopped else x.stopped ++ [tag] })

variable {u p c}

theorem State.remStop_open (h : u.tagOpen p c.tag = true) : u.remStop p c =
    (((u.stopTag p c.tag).freeAll (u.stopDrops p c) true).count 3 2 (u.stopDrops p c).length).remAnswer p c 0 0 := if_pos h
theorem State.remStop_sends (h : u.tagOpen p c.tag = true) : (u.remStop p c).sends p = ({ (u.port p).tow with
    ready := (u.port p).tow.ready ++ [⟨7, 0, remotePayload c.op true c.reqId c.tag 0 0⟩] },
    if (u.port p).stopped.contains c.tag then (u.port p).stopped else (u.port p).stopped ++ [c.tag]) := by
  have e := (u.stopTag p c.tag).freeAll_sends p (u.stopDrops p c) true
  unfold State.sends State.stopTag at e
  rw [State.port_modPort_same] at e
  rw [State.remStop_open h, State.remAnswer_sends, State.count_port]
  exact congrArg (fun x : Towpath × List Byte => (({ x.1 with ready := x.1.ready ++ [⟨7, 0, remotePayload c.op true c.reqId c.tag 0 0⟩] } : Towpath), x.2)) e
theorem State.remStop_basin (h : u.tagOpen p c.tag = true) (hd : argByte0 c.arg % 2 = 0) : (u.remStop p c).basin = u.basin := by
  have e : u.stopDrops p c = [] := if_neg (by omega)
  rw [State.remStop_open h, e]
  exact State.count_basin ..
theorem State.remStop_tickets (h : u.tagOpen p c.tag = true) (hd : argByte0 c.arg % 2 = 1) :
    (u.remStop p c).basin.tickets = u.basin.tickets.filter (fun x => !(u.unpacked (tagQueue p c.tag)).contains x.id) := by
  have e : u.stopDrops p c = u.unpacked (tagQueue p c.tag) := if_pos hd
  rw [State.remStop_open h, e]
  show (State.count _ _ _ _).basin.tickets = _
  rw [State.count_basin, State.freeAll_tickets]
  rfl
theorem State.remStart_sends (h : u.tagOpen p c.tag = true) : (u.remStart p c).sends p = ({ (u.port p).tow with
    ready := (u.port p).tow.ready ++ [⟨7, 0, remotePayload c.op true c.reqId c.tag 0 0⟩] }, (u.port p).stopped.filter (· != c.tag)) := by
  unfold State.remStart
  rw [if_pos h, State.remAnswer_sends, State.port_modPort_same]
  rfl

end

/-! ### REMOTE cells -/

section
variable {s : State} {p : Fin 16} (hc : s.clocked = true) {h : CellHdr} (ha : s.actsOn p h) {i : Instr} {act : State → State}
  (he : exec i s = s.runs (s.takeRemote p h act))
include hc ha he

/-- A REMOTE cell that acts (R107). -/
theorem remote_does {P : State → Prop} (hP : P (settle s (act (s.heardCell p h 7)))) : Does i s P := by
  refine runs_does hc he ?_
  unfold State.takeRemote
  rw [if_pos ha.1, State.withCell_acts ha]
  exact hP

/-- A REMOTE cell with what it makes ready and the stopped tags that it leaves. -/
theorem remote_sends {P : State → Prop} {more : List TxCell} {l : List Byte}
    (hs : (act (s.heardCell p h 7)).sends p = ({ ((s.heardCell p h 7).port p).tow with ready := ((s.heardCell p h 7).port p).tow.ready ++ more }, l))
    (hP : P (settle s (act (s.heardCell p h 7)))) : Does i s (fun t => (t.port p).stopped = l ∧ s.acked p h 7 more t ∧ P t) := by
  obtain ⟨a, b, e⟩ := s.heardCell_port p h 7
  have hr := congrArg (fun x : Towpath × List Byte => x.1.ready) hs
  have hl := congrArg Prod.snd hs
  refine remote_does hc ha he ⟨(settle_port_stopped _ _ p).trans hl, ?_, hP⟩
  rw [State.acked, settle_port_tow]
  refine hr.trans ?_
  rw [e]
  exact List.append_assoc ..

end

section
variable {s : State} {p : Fin 16} (hc : s.clocked = true) {h : CellHdr} (ha : s.actsOn p h) (c : RemoteCell)

theorem heardCell_tagOpen (h : CellHdr) (tag : Byte) : (s.heardCell p h 7).tagOpen p tag = s.tagOpen p tag :=
  tagOpen_of_basin (State.heardCell_basin h 7) p tag
theorem heardCell_stopped (h : CellHdr) : ((s.heardCell p h 7).port p).stopped = (s.port p).stopped := by
  obtain ⟨a, b, e⟩ := s.heardCell_port p h 7
  rw [e]

include hc ha

/-- An operation that only answers (R222). -/
theorem remAnswer_does {i : Instr} {n : Nat} {a : BitVec 128} {act : State → State} (he : exec i s = s.runs (s.takeRemote p h act))
    (hx : act (s.heardCell p h 7) = (s.heardCell p h 7).remAnswer p c n a) : Does i s (fun t => (t.port p).stopped = (s.port p).stopped
      ∧ s.acked p h 7 [⟨7, 0, remotePayload c.op true c.reqId c.tag (BitVec.ofNat 8 n) a⟩] t) := by
  refine (remote_sends (P := fun _ => True) hc ha he (by rw [hx]; exact State.remAnswer_sends _ p c n a) trivial).mono fun t ht => ?_
  rw [← heardCell_stopped (s := s) (p := p) h]
  exact ⟨ht.1, ht.2.1⟩

section
variable (ho : s.tagOpen p c.tag = true)
include ho

/-- A STREAM_STOP of an open queue with what it leaves of the basin (R222). -/
theorem streamStop_open {P : Basin → Prop} (hP : P ((s.heardCell p h 7).remStop p c).basin) :
    Does (.streamStop p h c) s (fun t => (t.port p).stopped.contains c.tag = true
      ∧ s.acked p h 7 [⟨7, 0, remotePayload c.op true c.reqId c.tag 0 0⟩] t ∧ P t.basin) := by
  have hu := (heardCell_tagOpen h c.tag).trans ho
  refine (remote_sends (P := fun t => P t.basin) hc ha rfl (State.remStop_sends hu) (by rw [settle_basin]; exact hP)).mono fun t ht => ?_
  obtain ⟨h1, h2, h3⟩ := ht
  refine ⟨?_, h2, h3⟩
  rw [h1]
  split
  · assumption
  · simp
theorem streamStop_keeps (hd : argByte0 c.arg % 2 = 0) : Does (.streamStop p h c) s (fun t => (t.port p).stopped.contains c.tag = true
    ∧ s.acked p h 7 [⟨7, 0, remotePayload c.op true c.reqId c.tag 0 0⟩] t ∧ t.basin = s.basin) :=
  streamStop_open (P := fun b => b = s.basin) hc ha c ho
    ((State.remStop_basin ((heardCell_tagOpen h c.tag).trans ho) hd).trans (State.heardCell_basin h 7))
theorem streamStop_discards (hd : argByte0 c.arg % 2 = 1) : Does (.streamStop p h c) s (fun t => (t.port p).stopped.contains c.tag = true
    ∧ s.acked p h 7 [⟨7, 0, remotePayload c.op true c.reqId c.tag 0 0⟩] t
    ∧ t.basin.tickets = s.basin.tickets.filter (fun x => !(s.unpacked (tagQueue p c.tag)).contains x.id)) := by
  refine streamStop_open (P := fun b => b.tickets = _) hc ha c ho ?_
  rw [State.remStop_tickets ((heardCell_tagOpen h c.tag).trans ho) hd, unpacked_of_basin (State.heardCell_basin h 7), State.heardCell_basin]
theorem streamStart_open : Does (.streamStart p h c) s (fun t => (t.port p).stopped = (s.port p).stopped.filter (· != c.tag)
    ∧ s.acked p h 7 [⟨7, 0, remotePayload c.op true c.reqId c.tag 0 0⟩] t) := by
  refine (remote_sends (P := fun _ => True) hc ha rfl (State.remStart_sends ((heardCell_tagOpen h c.tag).trans ho)) trivial).mono fun t ht => ?_
  rw [← heardCell_stopped (s := s) (p := p) h]
  exact ⟨ht.1, ht.2.1⟩

end

section
variable (ho : s.tagOpen p c.tag = false)
include ho

theorem streamStop_unknown : Does (.streamStop p h c) s (fun t => (t.port p).stopped = (s.port p).stopped
    ∧ s.acked p h 7 [⟨7, 0, remotePayload c.op true c.reqId c.tag 2 0⟩] t) :=
  remAnswer_does hc ha c rfl (if_neg (by rw [heardCell_tagOpen, ho]; nofun))
theorem streamStart_unknown : Does (.streamStart p h c) s (fun t => (t.port p).stopped = (s.port p).stopped
    ∧ s.acked p h 7 [⟨7, 0, remotePayload c.op true c.reqId c.tag 2 0⟩] t) :=
  remAnswer_does hc ha c rfl (if_neg (by rw [heardCell_tagOpen, ho]; nofun))

end

/-- An application OP waits for the host and tells it in two records (R222, R390). -/
theorem remoteApplication_waits : Does (.remoteApplication p h c) s (fun t => s.acked p h 7 [] t
    ∧ ((s.port p).remoteRuns = true → (t.port p).remIn = (s.port p).remIn.filter (fun e => e.1 != c.reqId) ++ [(c.reqId, c.op, c.tag)])
    ∧ (s.ringSpace → t.noted 0x001A p.val (wd (c.op.toNat + 256 * c.reqId.toNat + 2 ^ 24 * c.tag.toNat))
      ∧ t.told 0x001A (portBlock p.val) p.val ((argWords c.arg).getD 3 0))) := by
  obtain ⟨a, b, e⟩ := s.heardCell_port p h 7
  refine remote_does hc ha rfl ?_
  have hp : ((s.heardCell p h 7).remApp p c).port p = { (s.heardCell p h 7).port p with
      remIn := ((s.heardCell p h 7).port p).remIn.filter (fun e => e.1 != c.reqId) ++ [(c.reqId, c.op, c.tag)] } := by
    unfold State.remApp
    rw [State.raise_port, State.raise_port, State.port_modPort_same]
  rw [e] at hp
  refine ⟨?_, fun hr => ?_, fun hg => ?_⟩
  · rw [State.acked, settle_port_tow, hp]
    rfl
  · rw [settle_port_runs s (by rw [hp]; exact hr), hp]
  · unfold State.remApp
    dsimp only
    generalize hu : State.modPort _ p _ = u
    have hl : u.ring = s.ring := by rw [← hu]; exact State.heardCell_ring s p h 7
    have h1 : u.ringRoom := by
      unfold State.ringRoom
      rw [hl]
      exact Nat.lt_trans hg (by decide)
    have h2 (w x y z : Word) : (u.raise 0x001A (portBlock p.val) p.val w x y z).ringRoom := by
      have := heard_length (u.raise_heard 0x001A (portBlock p.val) p.val w x y z)
      unfold State.ringSpace at hg
      unfold State.ringRoom
      rw [hl] at this
      omega
    exact ⟨noted_ring (noted_heard (State.raise_noted _ _ _ _ _ _ _ _ h1) (State.raise_heard ..)) (settle_ring _ _),
      told_of (settle_ring _ _) (State.raise_told _ _ _ _ _ _ _ _ (h2 _ _ _ _))⟩

/-- An answer ends the REMOTE_CMD that waits for it (R385, R390). -/
theorem remoteAnswer_ends {ch : Fin 16} (hw : s.waiting (isRemote p c.reqId false) = some ch) : Does (.remoteAnswer p h c) s (fun t => s.acked p h 7 [] t
    ∧ s.ended t ch (remStatus c.status) (wd c.status.toNat :: argWords c.arg)) := by
  obtain ⟨a, b, e⟩ := s.heardCell_port p h 7
  have hq : (s.heardCell p h 7).chan = s.chan := by
    unfold State.chan
    rw [State.heardCell_chans]
  have hx : (s.heardCell p h 7).remDone p c = (s.heardCell p h 7).answer ch (remStatus c.status) (wd c.status.toNat :: argWords c.arg) := by
    unfold State.remDone State.answerWait State.waiting
    unfold State.waiting at hw
    rw [hq, hw]
  refine remote_does hc ha rfl ⟨?_, ?_⟩
  · rw [State.acked, settle_port_tow, hx, tow_of_core (answer_kept _ p ch _ _ _).2, State.core_tow, e]
    rfl
  · rw [State.ended, hx, settle_answered, hq]

end

/-- Settles O48: each operation acts on the state in which its cell is heard. -/
theorem remoteCells : Obligations.RemoteCells := by
  unfold Obligations.RemoteCells
  intro s p h c hc ha
  refine ⟨fun ho => ⟨fun hd => streamStop_keeps hc ha c ho hd, fun hd => streamStop_discards hc ha c ho hd, streamStart_open hc ha c ho⟩,
    fun ho => ⟨streamStop_unknown hc ha c ho, streamStart_unknown hc ha c ho⟩,
    (remAnswer_does hc ha c (n := 0) (a := c.arg) rfl rfl).mono fun _ ht => ht.2, (remAnswer_does hc ha c (n := 1) (a := 0) rfl rfl).mono fun _ ht => ht.2,
    remoteApplication_waits hc ha c, fun ch hw => remoteAnswer_ends hc ha c hw⟩

end Sys2Proof.Machine
end

section
/-! PROOFS. Soundings, gain, floating clusters and symbol slips (R116, R144, R148, R162, R166, R398): rows that change one port's
receive path. -/

namespace Sys2Proof.Machine

section
variable {s : State} {p : Fin 16}

/-! ### Soundings (R116, R166) -/

/-- The figure that a sounding newly in force predicts for a mode (R166). -/
theorem predFig_new (x : Sounding) (m : LineMode) {f : Towpath → Towpath} (hf : (f (s.port p).tow).snd = some x)
    (hp : (f (s.port p).tow).partner = (s.port p).tow.partner) :
    (s.modTow p f).predFig p m = if x.wide then predicted m (s.wouldPrecode p m) x else 0 := by
  have hw : (s.modTow p f).wouldPrecode p m = s.wouldPrecode p m := by
    unfold State.wouldPrecode
    rw [around_portReg (s.modTow_around p f), State.port_modTow]
    dsimp only
    rw [hp]
  unfold State.predFig
  rw [State.port_modTow]
  dsimp only
  rw [hf, hw]

theorem State.newSounding_port (x : Sounding) : (s.newSounding p x).port p = { s.port p with
    tow := { (s.port p).tow with snd := some x, sndSeq := (s.port p).tow.sndSeq + 1 }
    rx := { (s.port p).rx with
      pred50 := if x.wide then predicted .l50a (s.wouldPrecode p .l50a) x else 0
      pred25 := if x.wide then predicted .l25s (s.wouldPrecode p .l25s) x else 0
      pred10 := if x.wide then predicted .l10x true x else 0 } } := by
  unfold State.newSounding
  dsimp only
  rw [State.port_modRx, predFig_new x .l50a rfl rfl, predFig_new x .l25s rfl rfl, predFig_new x .l10x rfl rfl, State.port_modTow]
  rfl

/-! ### Floating clusters (R148) -/

/-- The check of the clusters of a running link, with its weakest cluster and its strongest free window. -/
theorem State.checkClusters_eq {m : LineMode} {x : Sounding} {i e w f : Nat} (hl : (s.port p).link.state = .loconUp) (hm : (s.port p).link.modeAct = some m)
    (hk : isPam m = true ∨ m = .ldmt) (hx : (s.port p).tow.snd = some x) (hw : x.wide = true) (hq : (s.port p).quiet.state = .active)
    (hb : bit (s.portReg p 0x30) 4 = true) (hf : s.frozen p 4 = false) (h1 : (s.port p).rx.weakest m x.echo = some (i, e))
    (h2 : (s.port p).rx.strongestFree m x.echo = some (w, f)) : s.checkClusters p = if e * 39810717056 ≤ f * 10 ^ 10 ∧ e < f then
      s.modRx p (fun r => { r with
        clusters := r.clusters.set i (BitVec.ofNat 16 w), moved := some (i, s.ticks)
        float := (List.range 4).foldl (fun (l : List (BitVec 16)) k => l.set (4 * i + k) (Config.echoSeed x m (w + k))) r.float })
      else s := by
  have hok : (bit (s.portReg p 0x30) 4 && !s.frozen p 4 && (isPam m || m == .ldmt) && x.wide && (s.port p).quiet.state == .active) = true := by
    rw [hb, hf, hw, hq]
    rcases hk with hk | hk
    · rw [hk]; rfl
    · rw [hk]; rfl
  unfold State.checkClusters
  dsimp only
  rw [hl, hm, hx]
  dsimp only
  rw [if_pos hok, h1, h2]

theorem State.checkClusters_idle (h : (s.port p).link.state ≠ .loconUp ∨ (s.port p).tow.snd = none ∨ bit (s.portReg p 0x30) 4 = false
    ∨ s.frozen p 4 = true) : s.checkClusters p = s := by
  unfold State.checkClusters
  dsimp only
  split
  · next m x hl hm hx =>
    refine if_neg fun hok => ?_
    simp only [Bool.and_eq_true, Bool.not_eq_true'] at hok
    obtain ⟨⟨⟨⟨hb, hf⟩, -⟩, -⟩, -⟩ := hok
    rcases h with h | h | h | h
    · exact h hl
    · rw [h] at hx
      cases hx
    · rw [hb] at h
      cases h
    · rw [hf] at h
      cases h
  · rfl

/-! ### Rows of the clocked part -/

section
variable (hc : s.clocked = true)
include hc

/-- A row that leaves its port as it was. -/
theorem runs_port_kept {c : Instr} {t : State} (he : exec c s = s.runs t) (e : t = s) : Does c s (fun t => s.still p t ∧ (t.port p).rx = (s.port p).rx) := by
  subst e
  exact runs_does hc he ⟨⟨settle_port_link _ _ p, settle_port_tow _ _ p⟩, settle_port_rx _ _ p⟩
theorem runs_rx_kept {c : Instr} {t : State} (he : exec c s = s.runs t) (e : t = s) : Does c s (fun t => (t.port p).rx = (s.port p).rx) :=
  (runs_port_kept hc he e).mono fun _ ht => ht.2
/-- A row that changes its port's receive path alone. -/
theorem runs_modRx {c : Instr} {t : State} {f : RxPath → RxPath} (he : exec c s = s.runs t) (e : t = s.modRx p f) :
    Does c s (fun t => (t.port p).rx = f (s.port p).rx) := by
  subst e
  refine runs_does hc he ?_
  rw [settle_port_rx, State.port_modRx]

theorem soundingRefresh_keeps (hl : (s.port p).link.state = .loconUp ∨ (s.port p).link.state = .shift) (x : Sounding) (hh : (s.port p).hears = true) :
    Does (.soundingRefresh p x) s (fun t => (t.port p).tow = { (s.port p).tow with snd := some x, sndSeq := (s.port p).tow.sndSeq + 1 }
      ∧ (t.port p).rx.pred50 = (if x.wide then predicted .l50a (s.wouldPrecode p .l50a) x else 0)
      ∧ (t.port p).rx.pred25 = (if x.wide then predicted .l25s (s.wouldPrecode p .l25s) x else 0)
      ∧ (t.port p).rx.pred10 = (if x.wide then predicted .l10x true x else 0)) := by
  have e : s.refreshSounding p x = s.newSounding p x := by
    unfold State.refreshSounding
    rcases hl with hl | hl <;> rw [hl] <;> exact if_pos hh
  refine runs_does hc rfl ?_
  rw [e, settle_port_tow, settle_port_rx, State.newSounding_port]
  exact ⟨rfl, rfl, rfl, rfl⟩
theorem soundingRefresh_unheard (hl : (s.port p).link.state = .loconUp ∨ (s.port p).link.state = .shift) (x : Sounding) (hh : (s.port p).hears = false) :
    Does (.soundingRefresh p x) s (fun t => s.still p t ∧ (t.port p).rx = (s.port p).rx) := by
  refine runs_port_kept hc rfl ?_
  unfold State.refreshSounding
  rcases hl with hl | hl <;> rw [hl] <;> exact if_neg (by rw [hh]; nofun)
theorem soundingRefresh_idle (h1 : (s.port p).link.state ≠ .loconUp) (h2 : (s.port p).link.state ≠ .shift) (x : Sounding) :
    Does (.soundingRefresh p x) s (fun t => s.still p t ∧ (t.port p).rx = (s.port p).rx) := by
  refine runs_port_kept hc rfl ?_
  unfold State.refreshSounding
  split
  · exact absurd ‹_› h1
  · exact absurd ‹_› h2
  · rfl

/-! ### Symbol slips (R162) -/

theorem symbolSlip_counts (hl : (s.port p).link.state = .loconUp ∨ (s.port p).link.state = .shift ∨ (s.port p).link.state = .stdUp) (f : Bool) :
    Does (.symbolSlip p f) s (fun t => (t.port p).rx.slips = satAdd 0xFFFF (s.port p).rx.slips 1 ∧ (t.port p).rx.slipTick = some s.ticks
      ∧ (t.port p).rx.dataPh = 0 ∧ (t.port p).rx.symIdx = (if f then (s.port p).rx.symIdx + 1 else (s.port p).rx.symIdx - 1)
      ∧ s.counts (portBlock p.val) 13 t ∧ s.still p t) := by
  have hb : portBlock p.val ≠ 1 ∧ portBlock p.val < 0x40 := by
    have := p.isLt
    unfold portBlock
    omega
  generalize hu : s.modRx p (fun r => { r with slips := satAdd 0xFFFF r.slips 1, slipTick := some s.ticks, dataPh := 0
                                               symIdx := if f then r.symIdx + 1 else r.symIdx - 1 }) = u
  have hp := (congrArg (State.port · p) hu.symm).trans (State.port_modRx ..)
  have hk : s.keepsCount (portBlock p.val) (0x200 + 13) u := by
    rw [← hu]
    exact keepsCount_of (s := s) (t := s.modRx p _) (s.modPort_frame p _) (s.modPort_held p _) rfl rfl _ _
  have e : s.symbolSlipped p f = u.count (portBlock p.val) 13 1 := by
    unfold State.symbolSlipped
    rw [← hu]
    rcases hl with hl | hl | hl <;> rw [hl]
  refine runs_does hc rfl ?_
  rw [e, State.still, settle_port_rx, settle_port_link, settle_port_tow, State.count_port, hp]
  exact ⟨rfl, rfl, rfl, rfl, counts_of hk (settle_keeps s _ hb.1 hb.2 (by decide)), rfl, rfl⟩
theorem symbolSlip_idle (h1 : (s.port p).link.state ≠ .loconUp) (h2 : (s.port p).link.state ≠ .shift) (h3 : (s.port p).link.state ≠ .stdUp) (f : Bool) :
    Does (.symbolSlip p f) s (fun t => s.still p t ∧ (t.port p).rx = (s.port p).rx) := by
  refine runs_port_kept hc rfl ?_
  unfold State.symbolSlipped
  split
  · exact absurd ‹_› h1
  · exact absurd ‹_› h3
  · exact absurd ‹_› h2
  · rfl

/-! ### Gain (R144) -/

section
variable (ha : bit (s.portReg p 0x30) 8 = true) (hg : (s.port p).learnsGain = true) {n : Nat}
include ha hg

theorem agcStep_learns : Does (.agcStep p n) s (fun t => (t.port p).rx = { (s.port p).rx with
    pga := if 80 < n then (s.port p).rx.pga - 1 else if n < 70 then min 48 ((s.port p).rx.pga + 1) else (s.port p).rx.pga }) := by
  have e : s.stepAgc p n = s.modRx p (fun r => { r with pga := if 80 < n then r.pga - 1 else if n < 70 then min 48 (r.pga + 1) else r.pga }) :=
    if_pos (by rw [ha, hg]; rfl)
  exact runs_modRx hc rfl e
theorem agcStep_down (h : 80 < n) : Does (.agcStep p n) s (fun t => (t.port p).rx = { (s.port p).rx with pga := (s.port p).rx.pga - 1 }) := by
  have k := agcStep_learns hc ha hg (n := n)
  rwa [if_pos h] at k
theorem agcStep_up (h : n < 70) : Does (.agcStep p n) s (fun t => (t.port p).rx = { (s.port p).rx with pga := min 48 ((s.port p).rx.pga + 1) }) := by
  have k := agcStep_learns hc ha hg (n := n)
  rwa [if_neg (by omega), if_pos h] at k
theorem agcStep_keeps (h1 : 70 ≤ n) (h2 : n ≤ 80) : Does (.agcStep p n) s (fun t => (t.port p).rx = (s.port p).rx) := by
  have k := agcStep_learns hc ha hg (n := n)
  rwa [if_neg (by omega), if_neg (by omega)] at k

end

theorem agcStep_manual (h : bit (s.portReg p 0x30) 8 = false ∨ (s.port p).learnsGain = false) (n : Nat) :
    Does (.agcStep p n) s (fun t => (t.port p).rx = (s.port p).rx) :=
  runs_rx_kept hc rfl (if_neg (by rcases h with h | h <;> rw [h] <;> simp))

end
end

end Sys2Proof.Machine
end

section
/-! PROOFS. Crosstalk allocation (R152 to R154), and with it the receive rows. -/

namespace Sys2Proof.Machine

/-! ### Paths of a reach -/

section
variable (s : State) (r : Fin 4)

theorem State.modPath_same (k : Fin 12) (f : XtPath → XtPath) : ((s.modPath r k f).reach r).paths.get k = f ((s.reach r).paths.get k) := by
  unfold State.modPath
  rw [State.reach_modReach_same]
  exact vec_get_set_same _ _ _

/-- A path that a change leaves alone leaves the part as it was. -/
theorem State.modPath_id {k : Fin 12} {f : XtPath → XtPath} (h : f ((s.reach r).paths.get k) = (s.reach r).paths.get k) : s.modPath r k f = s := by
  have hv {α : Type} {n : Nat} (v : Vector α n) (i : Fin n) : v.set i.val (v.get i) i.isLt = v := Vector.set_getElem_self i.isLt
  unfold State.modPath State.modReach
  dsimp only
  rw [h, hv]
  show ({ s with reaches := s.reaches.set r.val (s.reaches.get r) r.isLt } : State) = s
  rw [hv]

/-- A path whatever its suspension. -/
def XtPath.unsuspended (x : XtPath) : XtPath := { x with susp := false }

/-- A path of a reach whatever its suspension. -/
def State.xtPath (s : State) (r : Fin 4) (j : Fin 12) : XtPath := ((s.reach r).paths.get j).unsuspended

theorem State.xtOne_path (i j : Fin 12) : (s.xtOne r i).xtPath r j = s.xtPath r j := by
  have h (b : Bool) : (s.modReach r (fun x => { x with paths := x.paths.set i.val { (s.reach r).paths.get i with susp := b } i.isLt })).xtPath r j
      = s.xtPath r j := by
    unfold State.xtPath
    rw [State.reach_modReach_same]
    dsimp only
    by_cases e : j = i
    · subst e
      rw [vec_get_set_same]
      rfl
    · rw [vec_get_set_ne _ e]
  unfold State.xtOne
  dsimp only
  refine ite_keep (State.xtPath · r j) rfl (ite_keep (State.xtPath · r j) ?_ (h _))
  unfold State.xtPath at h ⊢
  rw [State.count_reach, State.raise_reach]
  exact h _

/-- The bookkeeping of R153 suspends and resumes paths, and no more. -/
theorem State.xtSync_path (j : Fin 12) : (s.xtSync r).xtPath r j = s.xtPath r j :=
  foldl_keep (State.xtPath · r j) _ _ s fun t i => t.xtOne_path r i j

/-- A suspension is counted as event 0 of its reach. -/
theorem State.xtOne_keepsCount (i : Fin 12) : s.keepsCount (reachBlock r.val) 0x201 (s.xtOne r i) := by
  have hb : 0 < reachBlock r.val := by
    unfold reachBlock
    omega
  have h (q : Fin 16) (f : Reach → Reach) (g : RxPath → RxPath) : s.keepsCount (reachBlock r.val) 0x201 ((s.modReach r f).modRx q g) :=
    keepsCount_of ((State.modRx_frame _ q g).trans (s.modReach_frame r f)) ((State.modRx_held _ q g).trans (s.modReach_held r f)) rfl rfl _ _
  unfold State.xtOne
  dsimp only
  split
  · exact keepsCount_refl s _ _
  · split
    · exact keepsCount_trans (h _ _ _) (keepsCount_trans (State.raise_keeps _ _ _ _ _ _ _ _ hb) (State.count_keeps _ _ 0 1 (.inr (by decide))))
    · exact keepsCount_of (s.modReach_frame r _) (s.modReach_held r _) rfl rfl _ _
theorem State.xtSync_keepsCount : s.keepsCount (reachBlock r.val) 0x201 (s.xtSync r) :=
  foldl_keepsCount _ _ (fun t i => t.xtOne_keepsCount r i) s

end

section
variable {x y : XtPath} (h : x.unsuspended = y.unsuspended)
include h
theorem carries_unsuspended (c : XtCand) : x.carries c = y.carries c := by
  have e := congrArg (fun z : XtPath => z.carries c) h
  exact e
theorem coupling_unsuspended : x.coupling = y.coupling := by
  have e := congrArg XtPath.coupling h
  exact e
theorem taps_unsuspended : x.taps = y.taps := by
  have e := congrArg XtPath.taps h
  exact e
theorem same_unsuspended : x.same y = true := by
  have h1 := congrArg XtPath.used h
  have h2 := congrArg XtPath.fext h
  have h3 := congrArg XtPath.victim h
  have h4 := congrArg XtPath.aggr h
  simp only [XtPath.unsuspended] at h1 h2 h3 h4
  simp [XtPath.same, h1, h2, h3, h4]
end

/-! ### One candidate (R154) -/

/-- A path given to a candidate: counted, and brought in line. -/
def State.xtGiven (s : State) (r : Fin 4) (c : XtCand) (k : Fin 12) : State :=
  ((s.modPath r k (fun _ => xtNew c s.ticks)).count (reachBlock r.val) 1 1).xtSync r

section
variable {s : State} {r : Fin 4} {c : XtCand}

/-- Nothing is brought up to date when no path carries the only candidate. -/
theorem State.recouple_new (hn : ∀ k, ((s.reach r).paths.get k).carries c = false) : s.recouple r [c] = s := by
  unfold State.recouple
  refine List.foldl_fixed' (fun k => State.modPath_id s r ?_) _
  have e : [c].find? ((s.reach r).paths.get k).carries = none := by simp [hn k]
  rw [e]

theorem State.allocOne_free (hn : ∀ k, ((s.reach r).paths.get k).carries c = false) {k : Fin 12} (hk : s.freePath r = some k) :
    (s.allocOne r c).xtSync r = s.xtGiven r c k := by
  unfold State.allocOne
  rw [if_neg (by simp [hn]), hk]
  rfl
theorem State.allocOne_full (hn : ∀ k, ((s.reach r).paths.get k).carries c = false) {k : Fin 12} (hf : s.freePath r = none)
    (hk : s.weakestPath r = some k) : s.allocOne r c = if c.2.2.2 + 6 ≤ ((s.reach r).paths.get k).coupling.toNat then
      (s.modPath r k (fun _ => xtNew c s.ticks)).count (reachBlock r.val) 1 1 else s := by
  unfold State.allocOne
  rw [if_neg (by simp [hn]), hf, hk]

theorem xtAllocation_held (hc : s.clocked = true) (l : List XtCand)
    (h : bit (s.xtCtrl r) 8 = false ∨ ((portsOf r).any (fun q => (s.port q).link.state == .shift)) = true) :
    Does (.xtAllocation r l) s (fun t => t.reach r = s.reach r) := by
  have e : s.allocate r l = s := if_pos (by rcases h with h | h <;> rw [h] <;> simp)
  refine runs_does hc rfl ?_
  rw [e, settle_reach]

section
variable (ha : bit (s.xtCtrl r) 8 = true) (hi : ((portsOf r).any (fun q => (s.port q).link.state == .shift)) = false)
  (hx : xtAllowed (s.xtCtrl r) c.1 c.2.1 c.2.2.1 = true) (hd : c.2.2.2 ≤ 100) (hn : ∀ k, ((s.reach r).paths.get k).carries c = false)
include ha hi hx hd hn

/-- The allocation of a single candidate that is new to its reach (R154). -/
theorem State.allocate_one : s.allocate r [c] = (s.allocOne r c).xtSync r := by
  have hok : [c].filter (fun c => xtAllowed (s.xtCtrl r) c.1 c.2.1 c.2.2.1 && decide (c.2.2.2 ≤ 100)) = [c] := by
    simp [hx, hd]
  unfold State.allocate
  dsimp only
  rw [if_neg (by rw [ha, hi]; nofun), hok, State.recouple_new hn]
  rfl

variable (hc : s.clocked = true)
include hc

/-- A candidate that is given a path: zero coefficients, its coupling, one allocation counted. -/
theorem xtAllocation_given {k : Fin 12} (hg : (s.allocOne r c).xtSync r = s.xtGiven r c k) : Does (.xtAllocation r [c]) s (fun t =>
    ((t.reach r).paths.get k).carries c = true ∧ ((t.reach r).paths.get k).coupling = BitVec.ofNat 8 c.2.2.2
      ∧ ((t.reach r).paths.get k).taps = [] ∧ s.counts (reachBlock r.val) 1 t) := by
  have hb : reachBlock r.val ≠ 1 ∧ reachBlock r.val < 0x40 := by
    have := r.isLt
    unfold reachBlock
    omega
  have hp : (((s.xtGiven r c k).reach r).paths.get k).unsuspended = (xtNew c s.ticks).unsuspended := by
    refine (State.xtSync_path _ r k).trans ?_
    unfold State.xtPath
    rw [State.count_reach, State.modPath_same]
  have hk : s.keepsCount (reachBlock r.val) (0x200 + 1) (s.modPath r k (fun _ => xtNew c s.ticks)) :=
    keepsCount_of (State.modPath_frame s r k _) (State.modPath_held s r k _) rfl rfl _ _
  refine runs_does hc rfl ?_
  rw [State.allocate_one ha hi hx hd hn, hg, settle_reach]
  refine ⟨?_, ?_, taps_unsuspended hp, counts_of hk (keepsCount_trans (State.xtSync_keepsCount _ r) (settle_keeps s _ hb.1 hb.2 (by decide)))⟩
  · rw [carries_unsuspended hp]
    simp [xtNew, XtPath.carries]
  · rw [coupling_unsuspended hp]
    show BitVec.ofNat 8 (min 254 c.2.2.2) = _
    rw [Nat.min_eq_right (by omega)]

/-- A candidate that is not strong enough for a full reach. -/
theorem xtAllocation_weak {k : Fin 12} (hf : s.freePath r = none) (hk : s.weakestPath r = some k)
    (hw : ((s.reach r).paths.get k).coupling.toNat < c.2.2.2 + 6) : Does (.xtAllocation r [c]) s (fun t =>
      ∀ j, ((t.reach r).paths.get j).same ((s.reach r).paths.get j) = true) := by
  refine runs_does hc rfl fun j => ?_
  rw [State.allocate_one ha hi hx hd hn, State.allocOne_full hn hf hk, if_neg (by omega), settle_reach]
  exact same_unsuspended (s.xtSync_path r j)

end
end

/-- Settles O50: the rows of one port's receive path, and the allocation of a reach's crosstalk paths. -/
theorem receiveRows : Obligations.ReceiveRows := by
  unfold Obligations.ReceiveRows
  intro s p hc
  refine ⟨fun hl => ⟨fun x hh => soundingRefresh_keeps hc hl x hh, fun x hh => soundingRefresh_unheard hc hl x hh⟩, fun hl f => symbolSlip_counts hc hl f,
    fun h1 h2 => ⟨fun x => soundingRefresh_idle hc h1 h2 x, fun h3 f => symbolSlip_idle hc h1 h2 h3 f⟩,
    fun ha hg n => ⟨fun h => agcStep_down hc ha hg h, fun h => agcStep_up hc ha hg h, fun h1 h2 => agcStep_keeps hc ha hg h1 h2⟩,
    fun h n => agcStep_manual hc h n, fun m x i e w f hl hm hk hx hw hq hb hf h1 h2 => ⟨fun hg he => ?_, fun hg => ?_⟩,
    fun h => runs_rx_kept hc rfl (State.checkClusters_idle h), fun r c ha hi hx hd hn => ⟨fun k hk => ?_, fun k hf hk => ⟨fun hg => ?_, fun hg => ?_⟩⟩,
    fun r l h => xtAllocation_held hc l h⟩
  · refine (runs_modRx hc rfl ((State.checkClusters_eq hl hm hk hx hw hq hb hf h1 h2).trans (if_pos ⟨hg, he⟩))).mono fun t ht => ?_
    rw [ht]
    exact ⟨rfl, rfl⟩
  · exact runs_rx_kept hc rfl ((State.checkClusters_eq hl hm hk hx hw hq hb hf h1 h2).trans (if_neg (by omega)))
  · exact xtAllocation_given ha hi hx hd hn hc (State.allocOne_free hn hk)
  · refine (xtAllocation_given ha hi hx hd hn hc (k := k) ?_).mono fun t ht => ?_
    · rw [State.allocOne_full hn hf hk, if_pos hg]
      rfl
    · obtain ⟨h1, -, -, h2⟩ := ht
      exact ⟨h1, h2⟩
  · exact xtAllocation_weak ha hi hx hd hn hc hf hk hg

end Sys2Proof.Machine
end

section
/-! PROOFS. The rows of vehicle time and of the tally's snapshots: the tick (R133, R210, R242, R275), the slew's end (R277), TSYNC and
TMARK (R278, R279), calendar windows and instants (R289, R291), snapshots (R402). -/

namespace Sys2Proof.Machine

/-! ### The parts of a tick -/

/-- A tick of vehicle time with no slew under way: exactly the increment of R275, in fifths of a unit. -/
theorem TimeUnit.tick_exact {t : TimeUnit} (rate : Nat) (hs : t.slew = none) (hr : 0 ≤ (2 ^ 40 : Int) + t.rho) :
    ((t.tick rate).now : Int) * 5 + (t.tick rate).fifths = t.now * 5 + t.fifths + 32 * ((2 ^ 40 : Int) + t.rho) ∧ (t.tick rate).fifths < 5 := by
  unfold TimeUnit.tick
  rw [hs]
  dsimp only
  omega

/-- The counts of a port that turn over with a completed millisecond (R210). -/
def Port.turned (x : Port) : Port :=
  { x with snd := { x.snd with resentLast := x.snd.resent, resent := 0, nacksInLast := x.snd.nacksIn, nacksIn := 0 } }

/-- What counters, slots and their wraps leave of a tick. -/
def State.paced (s : State) : Nat × TimeUnit × Vector Port 16 × List Queue := (s.ticks, s.time, s.ports, s.basin.queues)

section
variable (s : State)

theorem State.tickCounters_paced : s.tickCounters.paced = s.paced := by
  have h : s.coreCycles.2.paced = s.paced := by
    unfold State.coreCycles
    split_ifs <;> rfl
  exact h
theorem State.laneTick_paced (n : Fin 8) : (s.laneTick n).paced = s.paced := rfl
theorem State.wrapsTold_paced (f : Nat × Nat → Bool) : (s.wrapsTold f).paced = s.paced := by
  have h (t : State) (w : Nat × Nat) : (t.wrapEvent w).paced = t.paced := by simp [State.wrapEvent, State.paced]
  exact foldl_keep State.paced _ _ _ h
theorem State.rollOver_paced : s.rollOver.paced =
    (s.ticks, s.time, if s.ticks % msTicks 1 = 0 then s.ports.map Port.turned else s.ports, s.basin.queues) := by
  unfold State.rollOver
  dsimp only
  split_ifs <;> rfl

/-- A tick of the clocked part: time moves on, buckets fill (R242), the 1 ms counts turn over. -/
theorem State.runTick_paced : s.runTick.paced =
    (s.ticks, s.time.tick s.slewRate, if s.ticks % msTicks 1 = 0 then s.ports.map Port.turned else s.ports, s.basin.queues.map Queue.fill) := by
  have hl (u : State) : (allLanes.foldl State.laneTick u.tickCounters).paced = u.paced :=
    (foldl_keep State.paced _ _ _ State.laneTick_paced).trans u.tickCounters_paced
  have hu := hl { s with time := s.time.tick s.slewRate }
  unfold State.runTick
  dsimp only
  generalize allLanes.foldl State.laneTick (State.tickCounters { s with time := s.time.tick s.slewRate }) = u at hu ⊢
  obtain ⟨h1, h2, h3, h4⟩ : u.ticks = s.ticks ∧ u.time = s.time.tick s.slewRate ∧ u.ports = s.ports ∧ u.basin.queues = s.basin.queues := by
    simpa [State.paced] using hu
  rw [State.wrapsTold_paced, State.rollOver_paced]
  dsimp only
  rw [h1, h2, h3, h4]

/-- What every tick does, the clocks running or not. -/
def State.ticked (s : State) : State := State.rampTick { s with ticks := s.ticks + 1 }

theorem State.tick_stopped (h : s.clocked = false) : s.tick = s.ticked := if_neg (ne_true_of_eq_false h)
theorem State.tick_clocked (h : s.clocked = true) : s.tick = s.ticked.runTick := if_pos h
theorem State.ticked_tx (p : Fin 16) : (s.ticked.port p).tx = ((((s.port p).tx.ended (s.ticks + 1)).next (s.ticks + 1)).swingStep (s.ticks + 1)
    (State.txRate { s with ticks := s.ticks + 1 } p) (State.swingWanted { s with ticks := s.ticks + 1 } p)) := by
  show Port.tx (Vector.get (Vector.ofFn _) p) = _
  rw [Vector.get_ofFn]
  rfl
theorem State.ticked_snd (p : Fin 16) : (s.ticked.port p).snd = (s.port p).snd := by
  show Port.snd (Vector.get (Vector.ofFn _) p) = _
  rw [Vector.get_ofFn]
  rfl

end

/-! ### Ramps (R133, R134) -/

section
variable (t : TxPath) (now : Nat)

theorem TxPath.swingStep_gate (rate : Nat) (want : Int) : (t.swingStep now rate want).ramp = t.ramp ∧ (t.swingStep now rate want).on = t.on := by
  unfold TxPath.swingStep
  split_ifs <;> exact ⟨rfl, rfl⟩

/-- A ramp whose last step is over, with none to follow. -/
theorem TxPath.ended_next {a : Ramp} (ha : t.ramp = some a) (ho : a.start + a.len ≤ now) (hn : t.nextRamp = none) :
    ((t.ended now).next now).ramp = none ∧ ((t.ended now).next now).on = a.up := by
  have e : t.ended now = { t with ramp := none, on := a.up } := by
    unfold TxPath.ended
    rw [ha]
    exact if_pos ho
  rw [e]
  unfold TxPath.next
  rw [hn]
  exact ⟨rfl, rfl⟩

/-- A ramp that is due, with none under way. -/
theorem TxPath.ended_begins {a : Ramp} (hr : t.ramp = none) (hn : t.nextRamp = some a) (hd : a.start ≤ now) (hu : a.up ≠ t.on) :
    ((t.ended now).next now).ramp = some a ∧ ((t.ended now).next now).on = true := by
  have e : t.ended now = t := by
    unfold TxPath.ended
    rw [hr]
  have e2 : t.next now = { t with on := true, ramp := some a, nextRamp := none } := by
    unfold TxPath.next TxPath.ramped
    rw [hn, hr]
    exact (if_pos hd).trans (if_neg (Ne.symm hu))
  rw [e, e2]
  exact ⟨rfl, rfl⟩

end

/-! ### The tick (R275) -/

section
variable {s : State}

theorem timeTick_does {P : State → Prop} (hP : P (settle s s.tick)) : Does .timeTick s P := ⟨_, rfl, hP⟩
theorem timeTick_stopped (h : s.clocked = false) : Does .timeTick s (fun t => t.ticks = s.ticks + 1 ∧ t.time = s.time) := by
  refine timeTick_does ?_
  rw [s.tick_stopped h, settle_ticks, settle_time]
  exact ⟨rfl, rfl⟩

section
variable (h : s.clocked = true)
include h

theorem State.tick_paced : s.tick.paced = (s.ticks + 1, s.time.tick s.slewRate,
    if (s.ticks + 1) % 156250 = 0 then s.ticked.ports.map Port.turned else s.ticked.ports, s.basin.queues.map Queue.fill) := by
  rw [s.tick_clocked h, State.runTick_paced]
  rfl
theorem State.tick_port (p : Fin 16) : s.tick.port p = if (s.ticks + 1) % 156250 = 0 then (s.ticked.port p).turned else s.ticked.port p := by
  have hp : s.tick.ports = _ := congrArg (fun x => x.2.2.1) (State.tick_paced h)
  unfold State.port
  rw [hp]
  dsimp only
  split_ifs
  · exact Vector.getElem_map ..
  · rfl
theorem State.tick_tx (p : Fin 16) : (s.tick.port p).tx = (s.ticked.port p).tx := by
  rw [State.tick_port h]
  generalize s.ticked.port p = x
  split_ifs <;> rfl

/-- Every bucket fills, and no queue changes otherwise. -/
theorem State.tick_queue {q : Nat} {x : Queue} (hq : s.queue? q = some x) : s.tick.queue? q = some x.fill := by
  have hb : s.tick.basin.queues = _ := congrArg (fun x => x.2.2.2) (State.tick_paced h)
  unfold State.queue? at hq ⊢
  rw [hb, List.find?_map]
  exact congrArg (Option.map Queue.fill) hq

theorem State.tick_rampOver {p : Fin 16} {a : Ramp} (ha : (s.port p).tx.ramp = some a) (ho : a.start + a.len ≤ s.ticks + 1)
    (hn : (s.port p).tx.nextRamp = none) : (s.tick.port p).tx.ramp = none ∧ (s.tick.port p).tx.on = a.up := by
  rw [State.tick_tx h, s.ticked_tx, (TxPath.swingStep_gate ..).1, (TxPath.swingStep_gate ..).2]
  exact TxPath.ended_next _ _ ha ho hn
theorem State.tick_rampDue {p : Fin 16} {a : Ramp} (hr : (s.port p).tx.ramp = none) (hn : (s.port p).tx.nextRamp = some a)
    (hd : a.start ≤ s.ticks + 1) (hu : a.up ≠ (s.port p).tx.on) : (s.tick.port p).tx.ramp = some a ∧ (s.tick.port p).tx.on = true := by
  rw [State.tick_tx h, s.ticked_tx, (TxPath.swingStep_gate ..).1, (TxPath.swingStep_gate ..).2]
  exact TxPath.ended_begins _ _ hr hn hd hu
theorem State.tick_turns (p : Fin 16) (hm : (s.ticks + 1) % 156250 = 0) :
    (s.tick.port p).snd.resentLast = (s.port p).snd.resent ∧ (s.tick.port p).snd.nacksInLast = (s.port p).snd.nacksIn := by
  rw [State.tick_port h, if_pos hm, ← s.ticked_snd]
  generalize s.ticked.port p = x
  exact ⟨rfl, rfl⟩

theorem timeTick_runs : Does .timeTick s (fun t => t.ticks = s.ticks + 1 ∧ t.time = s.time.tick s.slewRate
    ∧ (∀ q x, s.queue? q = some x → t.queue? q = some x.fill)
    ∧ ∀ p : Fin 16, (∀ a, (s.port p).tx.ramp = some a → a.start + a.len ≤ s.ticks + 1 → (s.port p).tx.nextRamp = none → (t.port p).tx.ramp = none ∧ (t.port p).tx.on = a.up)
      ∧ (∀ a, (s.port p).tx.ramp = none → (s.port p).tx.nextRamp = some a → a.start ≤ s.ticks + 1 → a.up ≠ (s.port p).tx.on →
          (t.port p).tx.ramp = some a ∧ (t.port p).tx.on = true)
      ∧ ((s.ticks + 1) % 156250 = 0 → (t.port p).snd.resentLast = (s.port p).snd.resent ∧ (t.port p).snd.nacksInLast = (s.port p).snd.nacksIn)) := by
  have hp := State.tick_paced h
  refine timeTick_does ⟨?_, ?_, fun q x hq => ?_, fun p => ?_⟩
  · exact (settle_ticks _ _).trans (congrArg Prod.fst hp)
  · exact (settle_time _ _).trans (congrArg (fun x => x.2.1) hp)
  · have hb : (settle s s.tick).queue? q = s.tick.queue? q := by
      unfold State.queue?
      rw [settle_basin]
    exact hb.trans (State.tick_queue h hq)
  · rw [settle_port_tx, settle_port_snd]
    exact ⟨fun _ => State.tick_rampOver h, fun _ => State.tick_rampDue h, State.tick_turns h p⟩

/-! ### Slews, TSYNC and TMARK (R277 to R279) -/

theorem slewDone_ends : Does .slewDone s (fun t => t.time = if s.time.slew = some 0 then { s.time with slew := none } else s.time) := by
  refine runs_does h rfl ?_
  rw [settle_time]
  unfold State.endSlew
  split_ifs <;> rfl

theorem tmarkRise_at {per : Nat} (hp : s.markPeriod = some per) : Does .tmarkRise s (fun t =>
    t.time = if s.time.now % (per * subNs) < 7 * subNs then { s.time with tmark := true, tmarkUp := s.ticks } else s.time) := by
  refine runs_does h rfl ?_
  rw [settle_time]
  unfold State.markRise
  rw [hp]
  dsimp only
  split_ifs <;> rfl

theorem tmarkFall_at : Does .tmarkFall s (fun t => t.time.tmark = (s.time.tmark && !decide (s.markWidth ≤ (s.ticks - s.time.tmarkUp) * 64))) := by
  refine runs_does h rfl ?_
  rw [settle_time]
  unfold State.markFall
  cases hm : s.time.tmark <;> cases hw : decide (s.markWidth ≤ (s.ticks - s.time.tmarkUp) * 64) <;> simp [hm]

end

/-! #### The edge (R278) -/

/-- The part once an edge `ago` before the present is captured, before any waiting TIME_SET loads. -/
def State.captured (s : State) (k ago : Nat) : State :=
  let u := State.count { s with time := { s.time with capS := s.time.now - ago, capSeq := s.time.capSeq + 1, capTick := some (s.ticks * 64 - k) } } 2 0 1
  { u with time := { u.time with setWait := [] } }

section
variable (s : State)

theorem State.captured_time (k ago : Nat) : (s.captured k ago).time =
    { s.time with capS := s.time.now - ago, capSeq := s.time.capSeq + 1, capTick := some (s.ticks * 64 - k), setWait := [] } := by
  unfold State.captured
  dsimp only
  rw [State.count_time]

theorem State.tsync_soon {k : Nat} (h : s.edgeSoon k = true) : s.tsync k = s.count 2 1 1 := if_pos h
theorem State.tsync_late {k ago : Nat} (ha : k * tenthNs + 22 * subNs = ago) (h : s.edgeSoon k = false) :
    s.tsync k = s.time.setWait.foldl (fun (t : State) e => t.loadAnswered (Fin.ofNat 16 e.2) (e.1 + ago)) (s.captured k ago) := by
  unfold State.tsync
  dsimp only
  rw [if_neg (ne_true_of_eq_false h), ha, State.count_time]
  rfl

/-! #### A load keeps what waits for the edge -/

theorem State.rearm_setWait (e n : Nat) (x : CalEntry) : (State.rearm e n s x).time.setWait = s.time.setWait := by
  induction n generalizing s x with
  | zero => rfl
  | succ n ih =>
    unfold State.rearm
    dsimp only
    refine ite_keep (·.time.setWait) rfl ?_
    split
    · rfl
    · exact ih s _
    · exact (ih _ _).trans (by simp [State.noteDropped])
    · simp [State.noteLate, State.putCal]
    · rfl
theorem State.stepEntry_setWait (old : Nat) (e : Nat × CalEntry) : (State.stepEntry old s e).time.setWait = s.time.setWait := by
  have hl (x : CalEntry) : ((s.putCal e.1 x).noteLate e.1).time.setWait = s.time.setWait := by simp [State.noteLate, State.putCal]
  have hd : (s.noteDropped e.1).time.setWait = s.time.setWait := by simp [State.noteDropped]
  unfold State.stepEntry
  dsimp only
  refine ite_keep (·.time.setWait) ?_ (ite_keep (·.time.setWait) ?_ rfl)
  · split <;> rfl
  · split
    · exact ite_keep (·.time.setWait) ((State.rearm_setWait _ _ _ _).trans hd) (hl _)
    · exact hl _
theorem State.loadTime_setWait (new : Nat) : (s.loadTime new).time.setWait = s.time.setWait := by
  unfold State.loadTime
  dsimp only
  rw [State.raise_time]
  exact foldl_keep (·.time.setWait) _ _ _ fun t e => t.stepEntry_setWait _ e

end

section
variable (h : s.clocked = true) (k : Fin 64)
include h

theorem tsyncEdge_soon (hk : s.edgeSoon k.val = true) : Does (.tsyncEdge k) s (fun t => t.time = s.time) := by
  refine runs_does h rfl ?_
  rw [s.tsync_soon hk, settle_time, State.count_time]

section
variable {ago : Nat} (ha : k.val * tenthNs + 22 * subNs = ago) (hk : s.edgeSoon k.val = false)
include ha hk

theorem tsyncEdge_captures (hw : s.time.setWait = []) : Does (.tsyncEdge k) s (fun t => t.time = { s.time with
    capS := s.time.now - ago, capSeq := s.time.capSeq + 1, capTick := some (s.ticks * 64 - k.val) }) := by
  refine runs_does h rfl ?_
  rw [s.tsync_late ha hk, hw, List.foldl_nil, settle_time, s.captured_time, ← hw]
theorem tsyncEdge_loads {v : Nat} {c : Fin 16} (hw : s.time.setWait = [(v, c.val)]) : Does (.tsyncEdge k) s (fun t =>
    t.time.now = v + ago ∧ t.time.setWait = [] ∧ (t.chan c).done = true ∧ fld ((t.chan c).resp.get 1) 0 16 = 0) := by
  refine runs_does h rfl ?_
  rw [s.tsync_late ha hk, hw, List.foldl_cons, List.foldl_nil]
  dsimp only
  rw [Fin.ofNat_val_eq_self, settle_time]
  unfold State.loadAnswered
  rw [State.answer_time, settle_answered]
  refine ⟨congrArg Prod.fst (State.loadTime_stepped _ _), ?_, rfl, respCells_status _ _ _ _ _ (by decide) (by decide)⟩
  rw [State.loadTime_setWait, s.captured_time]

end
end
end

/-! ### The calendar table (R289) -/

section
variable {α : Type} (t : List (Nat × α)) (n : Nat)

theorem find?_tabIns_same (v : α) : (tabIns t n v).find? (fun x => x.1 == n) = some (n, v) := by
  induction t with
  | nil => simp [tabIns]
  | cons a t ih =>
    unfold tabIns
    split_ifs with h1 h2
    · simp
    · simp
    · rw [List.find?_cons_of_neg (by simpa using Ne.symm h2), ih]
theorem find?_tabIns_ne (v : α) {m : Nat} (h : m ≠ n) : (tabIns t n v).find? (fun x => x.1 == m) = t.find? (fun x => x.1 == m) := by
  have hn (l : List (Nat × α)) : ((n, v) :: l).find? (fun x => x.1 == m) = l.find? (fun x => x.1 == m) :=
    List.find?_cons_of_neg (by simpa using Ne.symm h)
  induction t with
  | nil => exact hn []
  | cons a t ih =>
    unfold tabIns
    split_ifs with h1 h2
    · exact hn _
    · rw [hn, List.find?_cons_of_neg (by simpa [← h2] using Ne.symm h)]
    · rw [List.find?_cons, List.find?_cons, ih]
theorem find?_tabDel_same : (tabDel t n).find? (fun x => x.1 == n) = none := by
  simp [tabDel, List.find?_eq_none]

end

section
variable {s : State}

theorem State.cal?_of_time {a b : State} (h : a.time = b.time) (j : Nat) : a.cal? j = b.cal? j := by
  unfold State.cal?
  rw [h]
theorem State.cal?_putCal_same (s : State) (e : Nat) (x : CalEntry) : (s.putCal e x).cal? e = some x :=
  congrArg (Option.map Prod.snd) (find?_tabIns_same ..)
theorem State.cal?_putCal_ne (s : State) {e j : Nat} (h : j ≠ e) (x : CalEntry) : (s.putCal e x).cal? j = s.cal? j :=
  congrArg (Option.map Prod.snd) (find?_tabIns_ne _ _ _ h)
theorem State.cal?_delCal (s : State) (e : Nat) : (s.delCal e).cal? e = none := congrArg (Option.map Prod.snd) (find?_tabDel_same ..)

/-- An entry leaves after its last occurrence. -/
theorem State.rearm_last (s : State) (e n : Nat) {x : CalEntry} (h : x.repeatK = 0 ∨ x.left = 1) : State.rearm e n s x = s.delCal e := by
  cases n with
  | zero => rfl
  | succ n => exact if_pos (h.imp_right .inl)
theorem State.instantActs_last (s : State) (e : Nat) {x : CalEntry} (h : x.repeatK = 0) : s.instantActs e x = (s.count 2 2 1).delCal e :=
  State.rearm_last _ _ _ (.inl h)

/-! ### Windows (R291, R292) -/

section
variable (s : State) (p : Fin 16)

theorem State.earlyExit_time : (s.earlyExit p).time = s.time := ite_keep State.time rfl rfl
theorem State.skipWindow_time (c : Nat) : (s.skipWindow p c).time = s.time := State.raise_time ..
theorem State.quietOpens_time (x : CalEntry) : (s.quietOpens p x).time = s.time := by
  unfold State.quietOpens
  dsimp only
  refine ite_keep State.time rfl ?_
  split
  · split
    · refine ite_keep State.time ?_ rfl
      split
      · exact ite_keep State.time rfl rfl
      · rfl
    · rfl
  · rfl
  · rfl
  · refine ite_keep State.time rfl ?_
    split
    · exact s.skipWindow_time p _
    · rfl
theorem State.quietResumes_time : (s.quietResumes p).time = s.time := by
  unfold State.quietResumes
  split
  · exact s.quietOpens_time p _
  · rfl

end

section
variable {e : Nat} {x : CalEntry} (hx : s.cal? e = some x)
include hx

theorem State.windowStarts_early (hd : s.calDue x = false) : s.windowStarts e = s := by
  unfold State.windowStarts
  simp only [hx, hd, Bool.not_false, Bool.or_true, if_true]

section
variable (hk : x.kind.window = true) (hd : s.calDue x = true)
include hk hd

theorem State.windowStarts_empty (he : x.empty = true) : s.windowStarts e = State.rearm e rearmFuel s x := by
  unfold State.windowStarts
  simp [hx, hk, hd, he]
theorem State.windowStarts_time (he : x.empty = false) : (s.windowStarts e).time = (s.putCal e { x with isOpen := true, acted := x.acted + 1 }).time := by
  have ho : (s.windowOpens e x).time = (s.putCal e { x with isOpen := true, acted := x.acted + 1 }).time := State.count_time ..
  unfold State.windowStarts
  simp only [hx, hk, hd, Bool.not_true, Bool.or_false, Bool.false_eq_true, if_false]
  rw [if_neg (ne_true_of_eq_false he)]
  split
  · exact (State.quietOpens_time _ _ _).trans ho
  · exact (State.earlyExit_time _ _).trans ho
  · exact (State.earlyExit_time _ _).trans ho
  · exact ho

end

theorem State.windowStops_early (f : List Element) (hs : s.calStops x = false) : s.windowStops e f = s := by
  unfold State.windowStops
  simp only [hx, hs, Bool.not_false, if_true]
theorem State.windowStops_time (f : List Element) (hs : s.calStops x = true) (hk : x.kind ≠ .testSlice) (hl : x.repeatK = 0 ∨ x.left = 1) :
    (s.windowStops e f).time = (s.delCal e).time := by
  unfold State.windowStops
  simp only [hx, hs, Bool.not_true, Bool.false_eq_true, if_false]
  rw [State.rearm_last (x := { x with isOpen := false }) _ _ _ hl]
  split
  · exact State.quietResumes_time _ _
  · exact absurd ‹_› hk
  · rfl

/-- An entry of its kind that is due. -/
theorem State.dueInstant_due (hd : s.calDue x = true) : s.dueInstant e x.kind = some x := by
  unfold State.dueInstant
  simp [hx, hd]

end

section
variable (h : s.clocked = true) {e : Fin 1024} {x : CalEntry} (hx : s.cal? e.val = some x)
include h hx

theorem windowStart_early (hd : s.calDue x = false) : Does (.windowStart e) s (fun t => t.time = s.time) := by
  refine runs_does h rfl ?_
  rw [State.windowStarts_early hx hd, settle_time]
theorem windowStart_opens (hk : x.kind.window = true) (hd : s.calDue x = true) (he : x.empty = false) : Does (.windowStart e) s (fun t =>
    t.cal? e.val = some { x with isOpen := true, acted := x.acted + 1 } ∧ ∀ j ≠ e.val, t.cal? j = s.cal? j) := by
  have ht := (settle_time s (s.windowStarts e)).trans (State.windowStarts_time hx hk hd he)
  exact runs_does h rfl ⟨(State.cal?_of_time ht _).trans (s.cal?_putCal_same _ _), fun j hj => (State.cal?_of_time ht j).trans (s.cal?_putCal_ne hj _)⟩
theorem windowStart_empty (hk : x.kind.window = true) (hd : s.calDue x = true) (he : x.empty = true) (hr : x.repeatK = 0) :
    Does (.windowStart e) s (fun t => t.cal? e.val = none) := by
  refine runs_does h rfl ?_
  rw [State.windowStarts_empty hx hk hd he, State.rearm_last _ _ _ (.inl hr), State.cal?_of_time (settle_time _ _), State.cal?_delCal]
theorem windowStop_early (f : List Element) (hs : s.calStops x = false) : Does (.windowStop e f) s (fun t => t.time = s.time) := by
  refine runs_does h rfl ?_
  rw [State.windowStops_early hx f hs, settle_time]
theorem windowStop_leaves (f : List Element) (hs : s.calStops x = true) (hk : x.kind ≠ .testSlice) (hl : x.repeatK = 0 ∨ x.left = 1) :
    Does (.windowStop e f) s (fun t => t.cal? e.val = none) :=
  runs_does h rfl ((State.cal?_of_time ((settle_time _ _).trans (State.windowStops_time hx f hs hk hl)) _).trans (s.cal?_delCal _))

/-! ### Instants (R289, R291) -/

theorem hostEventInstant_acts (hk : x.kind = .hostEvent) (hd : s.calDue x = true) (hg : s.ringRoom) (hr : x.repeatK = 0) :
    Does (.hostEventInstant e) s (fun t => t.cal? e.val = none ∧ t.told 0x0034 2 0 (wd e.val)) := by
  have he : s.hostEvent e.val = ((s.count 2 2 1).delCal e.val).raise 0x0034 2 0 (wd e.val) := by
    unfold State.hostEvent
    rw [← hk, State.dueInstant_due hx hd]
    dsimp only
    rw [State.instantActs_last _ _ hr]
  have hg2 : ((s.count 2 2 1).delCal e.val).ringRoom := by
    show (s.count 2 2 1).ringRoom
    unfold State.ringRoom
    rwa [State.count_ring]
  refine runs_does h rfl ?_
  rw [he]
  refine ⟨?_, told_of (settle_ring _ _) (State.raise_told _ _ _ _ _ _ _ _ hg2)⟩
  rw [State.cal?_of_time ((settle_time _ _).trans (State.raise_time ..)), State.cal?_delCal]
theorem tmarkPulseInstant_acts (hk : x.kind = .tmark) (hd : s.calDue x = true) (hr : x.repeatK = 0) :
    Does (.tmarkPulseInstant e) s (fun t => t.cal? e.val = none ∧ t.time.tmark = true ∧ t.time.tmarkUp = s.ticks) := by
  refine runs_does h rfl ?_
  unfold State.tmarkPulse
  rw [← hk, State.dueInstant_due hx hd]
  dsimp only
  rw [State.instantActs_last _ _ hr, settle_time, State.cal?_of_time (settle_time _ _)]
  exact ⟨State.cal?_delCal _ _, rfl, State.count_ticks _ _ _ _⟩

end

/-! ### Snapshots (R402) -/

/-- Counting leaves a tally's snapshots as they were. -/
theorem shots_of_rest {a b : Tally} (h : a.rest = b.rest) : (a.due = b.due ∧ a.seq = b.seq ∧ a.missed = b.missed ∧ a.copying = b.copying)
    ∧ a.buf = b.buf ∧ a.buf0 = b.buf0 ∧ a.buf1 = b.buf1 := by
  unfold Tally.rest at h
  injection h with _ _ h1 h2 h3 h4 h5 h6 _ h7
  exact ⟨⟨h1, h2, h3, h4⟩, h7, h5, h6⟩

/-- The record of a capture: the counters as they stand, under the next number. -/
def State.shot (s : State) : Snapshot :=
  { seq := s.tally.seq + 1, time := s.time.now, missed := s.tally.missed, counters := s.tally.counters, slots := s.tally.slots }

/-- A tally whose copy is done: the buffer that is not selected holds it, and a selection that waited acts. -/
def Tally.filled (t : Tally) (k : Snapshot) : Tally :=
  { (if t.buf then { t with buf0 := some k } else { t with buf1 := some k }) with copying := none, buf := t.bufWant.getD t.buf, bufWant := none }

section
variable (s : State)

theorem State.capture48_idle (hb : s.safeBlock 4 = false) (hc : s.tally.copying = none) :
    s.capture48.tally.rest = { s.tally with seq := s.tally.seq + 1, missed := 0, copying := some s.shot }.rest := by
  unfold State.capture48
  rw [if_neg (ne_true_of_eq_false hb), hc]
  exact State.count_rest ..
theorem State.capture48_copying (hb : s.safeBlock 4 = false) {k : Snapshot} (hc : s.tally.copying = some k) :
    s.capture48.tally = { s.tally with missed := s.tally.missed + 1 } := by
  unfold State.capture48
  rw [if_neg (ne_true_of_eq_false hb), hc]

/-- Everything due in one tick is one capture. -/
theorem State.takeSnapshot_due (hd : s.tally.due = true) (hn : s.dueSnapshots = []) :
    s.takeSnapshot = State.capture48 { s with tally := { s.tally with due := false } } := by
  unfold State.takeSnapshot
  simp only [hd, hn, Bool.not_true, Bool.false_and, Bool.false_eq_true, if_false, List.foldl_nil]

theorem State.snapshotDone_copying {k : Snapshot} (hc : s.tally.copying = some k) :
    s.snapshotDone = State.raise { s with tally := s.tally.filled k } 0x0051 4 0 (wd k.seq) (if s.tally.buf then 0 else 1) (wd s.tally.missed) := by
  unfold State.snapshotDone
  rw [hc]
  rfl
theorem State.snapshotDone_rest {k : Snapshot} (hc : s.tally.copying = some k) : s.snapshotDone.tally.rest = (s.tally.filled k).rest := by
  rw [s.snapshotDone_copying hc]
  exact State.count_rest ..

end

theorem Tally.filled_buffers (t : Tally) (k : Snapshot) :
    if t.buf then (t.filled k).buf0 = some k ∧ (t.filled k).buf1 = t.buf1 else (t.filled k).buf1 = some k ∧ (t.filled k).buf0 = t.buf0 := by
  unfold Tally.filled
  split_ifs <;> exact ⟨rfl, rfl⟩

section
variable (h : s.clocked = true)
include h

section
variable (hd : s.tally.due = true) (hn : s.dueSnapshots = []) (hb : s.safeBlock 4 = false)
include hd hn hb

theorem snapshotTake_captures (hc : s.tally.copying = none) :
    Does .snapshotTake s (fun t => t.tally.due = false ∧ t.tally.seq = s.tally.seq + 1 ∧ t.tally.missed = 0 ∧ t.tally.copying = some s.shot) := by
  have e : s.takeSnapshot.tally.rest = Tally.rest { s.tally with due := false, seq := s.tally.seq + 1, missed := 0, copying := some s.shot } := by
    rw [s.takeSnapshot_due hd hn]
    exact State.capture48_idle _ hb hc
  exact runs_does h rfl (shots_of_rest ((settle_rest s s.takeSnapshot).trans e)).1
theorem snapshotTake_misses {k : Snapshot} (hc : s.tally.copying = some k) : Does .snapshotTake s (fun t => t.tally.seq = s.tally.seq
    ∧ t.tally.missed = s.tally.missed + 1 ∧ t.tally.copying = some k) := by
  have e : s.takeSnapshot.tally = { s.tally with due := false, missed := s.tally.missed + 1 } := by
    rw [s.takeSnapshot_due hd hn]
    exact State.capture48_copying _ hb hc
  obtain ⟨-, hq, hm, hk⟩ := (shots_of_rest (settle_rest s s.takeSnapshot)).1
  rw [e] at hq hm hk
  exact runs_does h rfl ⟨hq, hm, hk.trans hc⟩

end

theorem snapshotCopyDone_fills {k : Snapshot} (hc : s.tally.copying = some k) (hg : s.ringRoom) : Does .snapshotCopyDone s (fun t =>
    t.tally.copying = none ∧ t.tally.buf = s.tally.bufWant.getD s.tally.buf
      ∧ (if s.tally.buf then t.tally.buf0 = some k ∧ t.tally.buf1 = s.tally.buf1 else t.tally.buf1 = some k ∧ t.tally.buf0 = s.tally.buf0)
      ∧ t.told 0x0051 4 0 (wd k.seq)) := by
  obtain ⟨⟨-, -, -, h1⟩, h2, h3, h4⟩ := shots_of_rest ((settle_rest s s.snapshotDone).trans (s.snapshotDone_rest hc))
  refine runs_does h rfl ⟨h1, h2, ?_, told_of (settle_ring ..) ?_⟩
  · rw [h3, h4]
    exact s.tally.filled_buffers k
  · rw [s.snapshotDone_copying hc]
    exact State.raise_told _ _ _ _ _ _ _ _ hg

end
end

/-- Settles O42: the tick by its parts, the other rows of vehicle time one by one, the calendar by its table, snapshots by the capture. -/
theorem timeRows : Obligations.TimeRows := by
  unfold Obligations.TimeRows
  refine ⟨fun s => ⟨timeTick_stopped, fun h => (timeTick_runs h).mono fun t ht => ?_, slewDone_ends,
      fun k h => ⟨tsyncEdge_soon h k, tsyncEdge_captures h k rfl, fun v c hk hw => tsyncEdge_loads h k rfl hk hw⟩,
      fun per h hp => ⟨tmarkRise_at h hp, tmarkFall_at h⟩⟩,
    fun s e x h hx => ⟨fun _ => windowStart_early h hx, windowStart_opens h hx, windowStart_empty h hx, fun hs f => windowStop_early h hx f hs,
      fun hs hk f hl => windowStop_leaves h hx f hs hk hl, hostEventInstant_acts h hx, tmarkPulseInstant_acts h hx⟩,
    fun s h => ⟨fun hd hn hb => ⟨snapshotTake_captures h hd hn hb, fun k hc => snapshotTake_misses h hd hn hb hc⟩,
      fun k hc hg => snapshotCopyDone_fills h hc hg⟩⟩
  obtain ⟨h1, h2, h3⟩ := ht
  refine ⟨h1, h2, fun hs hr => ?_, h3⟩
  rw [h2]
  exact TimeUnit.tick_exact _ hs hr

end Sys2Proof.Machine
end

section
/-! PROOFS. What calibration work leaves alone (R294, R318, R320 to R326, R386): placing slices, starting runs and answering what waits
for them change no reading, no event and no link. -/

namespace Sys2Proof.Machine

/-! ### What placing slices and telling of completed runs leave -/

/-- The readings and the thermal levels of the sensors. -/
def CalUnit.sensed (c : CalUnit) : Vector Int 5 × List (List Int) × Nat × Vector (Nat × List Int) 5 := (c.temp, c.samples, c.level, c.levels)

/-- What slices, reaches and waiting commands leave as it was (R294, R318, R386): every port, the journal, the event ring and the
sensors. -/
def State.bench (s : State) : Vector Port 16 × Journal × EventRing
    × (Vector Int 5 × List (List Int) × Nat × Vector (Nat × List Int) 5) := (s.ports, s.journal, s.ring, s.cal.sensed)

section
variable {s t : State} (h : t.bench = s.bench)
include h
theorem bench_port (p : Fin 16) : t.port p = s.port p := congrArg (fun x => x.1.get p) h
theorem bench_journal : t.journal = s.journal := congrArg (fun x => x.2.1) h
theorem bench_ring : t.ring = s.ring := congrArg (fun x => x.2.2.1) h
theorem bench_sensed : t.cal.sensed = s.cal.sensed := congrArg (fun x => x.2.2.2) h
end

section
variable (s : State) (p : Fin 16) (r : Fin 4)

theorem State.count_bench (b k n : Nat) : (s.count b k n).bench = s.bench := by simp [State.bench]
theorem State.answer_bench (c : Fin 16) (st : Nat) (ws : List Word) (d : Nat) : (s.answer c st ws d).bench = s.bench := by simp [State.bench]
theorem State.answerWait_bench (f : LongCmd → Bool) (st : Nat) (ws : List Word) (d : Nat) : (s.answerWait f st ws d).bench = s.bench := by
  unfold State.answerWait
  split
  · exact s.answer_bench _ st ws d
  · rfl
theorem State.placeSlice_bench (a w : Bool) (us : Nat) : (s.placeSlice p a w us).bench = s.bench := by
  unfold State.placeSlice
  dsimp only
  split
  · rfl
  · split <;> rfl
theorem State.calAnswer_bench : s.calAnswer.bench = s.bench := by
  refine foldl_keep State.bench _ _ _ fun t c => ?_
  split
  · exact ite_keep State.bench (t.answer_bench _ _ _ _) rfl
  · rfl
theorem State.calTell_bench (q : Option (Fin 16)) (k : Option (Fin 4)) (b : Bool) : (s.calTell q k b).bench = s.bench :=
  (State.calAnswer_bench _).trans (foldl_keep State.bench _ _ _ fun _ _ => rfl)
theorem State.reachDone_bench : (s.reachDone r).bench = s.bench :=
  ite_keep State.bench ((State.calTell_bench ..).trans (State.count_bench ..)) rfl

/-! ### What calibration work leaves -/

/-- What calibration runs leave as it was: the sensors, the event ring and every port's link. -/
def State.warm (s : State) : (Vector Int 5 × List (List Int) × Nat × Vector (Nat × List Int) 5) × EventRing × (Fin 16 → Link) :=
  (s.cal.sensed, s.ring, fun q => (s.port q).link)

theorem warm_link {s t : State} (h : t.warm = s.warm) (q : Fin 16) : (t.port q).link = (s.port q).link := congrArg (fun x => x.2.2 q) h
theorem warm_of_bench {s t : State} (h : t.bench = s.bench) : t.warm = s.warm := by
  unfold State.warm
  rw [bench_sensed h, bench_ring h, funext fun q => congrArg Port.link (bench_port h q)]
theorem State.modPort_warm {f : Port → Port} (hf : ∀ x, (f x).link = x.link) : (s.modPort p f).warm = s.warm := by
  have hl (q : Fin 16) : ((s.modPort p f).port q).link = (s.port q).link := by
    by_cases e : q = p
    · subst e
      rw [State.port_modPort_same, hf]
    · rw [State.port_modPort_ne _ e]
  unfold State.warm
  rw [funext hl]
  rfl
theorem State.modCal_warm (f : PortCal → PortCal) : (s.modCal p f).warm = s.warm := s.modPort_warm p fun _ => rfl
theorem State.placeSlice_warm (a w : Bool) (us : Nat) : (s.placeSlice p a w us).warm = s.warm := warm_of_bench (s.placeSlice_bench p a w us)
theorem State.modReach_warm (f : Reach → Reach) : (s.modReach r f).warm = s.warm := rfl
theorem State.dropSlices_warm (b : Bool) : (s.dropSlices p b).warm = s.warm := rfl
theorem State.startItems_warm (b : Bool) : (s.startItems p b).warm = s.warm := by
  have h (t : State) (f : Reach → Reach) (ht : t.warm = s.warm) : (if b then t else t.modReach (reachOf p) f).warm = s.warm :=
    ite_keep State.warm ht ((State.modReach_warm ..).trans ht)
  exact ite_keep State.warm ((State.placeSlice_warm ..).trans (h _ _ (s.modCal_warm p _))) (h _ _ (s.modCal_warm p _))
theorem State.runPort_warm : (s.runPort p).warm = s.warm :=
  ite_keep State.warm rfl (ite_keep State.warm (s.modCal_warm p _) ((State.startItems_warm ..).trans (s.modCal_warm p _)))
theorem State.reachDone_warm : (s.reachDone r).warm = s.warm := warm_of_bench (s.reachDone_bench r)
theorem State.startReach_warm : (s.startReach r).warm = s.warm := by
  refine ite_keep State.warm rfl ((State.reachDone_warm ..).trans ((foldl_keep State.warm _ _ _ fun t p => ?_).trans ?_))
  · exact ite_keep State.warm (t.modCal_warm p _) (t.startItems_warm p _)
  · exact ite_keep State.warm rfl (warm_of_bench (State.count_bench ..))
theorem State.requestReach_warm : (s.requestReach r).warm = s.warm := ite_keep State.warm rfl (State.startReach_warm ..)
theorem State.startPending_warm : s.startPending.warm = s.warm :=
  (foldl_keep State.warm _ _ _ fun t p => ite_keep State.warm (t.runPort_warm p) rfl).trans (foldl_keep State.warm _ _ _ State.startReach_warm)
theorem State.tempTrigger_warm : (s.tempTrigger r).warm = s.warm := by
  unfold State.tempTrigger
  split
  · exact ite_keep State.warm (s.requestReach_warm r) rfl
  · rfl
theorem State.abandonRun_warm : (s.abandonRun p).warm = s.warm :=
  ite_keep State.warm ((State.reachDone_warm ..).trans ((warm_of_bench (State.calTell_bench ..)).trans ((State.dropSlices_warm ..).trans (s.modCal_warm p _)))) rfl
theorem State.calFollow_warm (old : State) : (State.calFollow old s p).warm = s.warm :=
  ite_keep State.warm ((State.abandonRun_warm ..).trans (s.modCal_warm p _))
    (ite_keep State.warm rfl (ite_keep State.warm rfl (ite_keep State.warm (s.placeSlice_warm ..) rfl)))

end

end Sys2Proof.Machine
end

section
/-! PROOFS. What ports that start or go down, and what follows a command, leave of the sensors and of the event ring (R62, R73, R326,
R391); a port in HOLD stays as it is. -/

namespace Sys2Proof.Machine

/-! ### Events that stand -/

/-- The sensors are as they were, and every event of the ring still stands in it. -/
def State.keepsSensed (s t : State) : Prop := t.cal.sensed = s.cal.sensed ∧ s.ring.untaken <+: t.ring.untaken

theorem keepsSensed_refl (s : State) : s.keepsSensed s := ⟨rfl, [], List.append_nil _⟩
theorem keepsSensed_trans {s t u : State} (h : s.keepsSensed t) (k : t.keepsSensed u) : s.keepsSensed u := ⟨k.1.trans h.1, h.2.trans k.2⟩
theorem keepsSensed_of_warm {s t : State} (h : t.warm = s.warm) : s.keepsSensed t := by
  have hr : t.ring = s.ring := congrArg (fun x => x.2.1) h
  exact ⟨congrArg (fun x => x.1) h, by rw [hr]⟩
theorem keepsSensed_of_heard {s t : State} {n : Nat} (h : t.side = s.side) (k : s.ring.heard n t.ring) : s.keepsSensed t := by
  obtain ⟨l, hl, -⟩ := k
  exact ⟨by rw [side_cal h], l, hl.symm⟩
theorem noted_keepsSensed {s t : State} {c u : Nat} {e : Word} (k : s.noted c u e) (h : s.keepsSensed t) : t.noted c u e := by
  obtain ⟨x, hx, k⟩ := k
  exact ⟨x, h.2.subset hx, k⟩
theorem foldl_keepsSensed {α : Type} (l : List α) (f : State → α → State) (h : ∀ (t : State) x, t.keepsSensed (f t x)) (s : State) :
    s.keepsSensed (l.foldl f s) := List.foldlRecOn l f (keepsSensed_refl s) fun t ht x _ => keepsSensed_trans ht (h t x)
theorem ite_keepsSensed {c : Prop} [Decidable c] {s a b : State} (ha : s.keepsSensed a) (hb : s.keepsSensed b) :
    s.keepsSensed (if c then a else b) := by split <;> assumption

section
variable (s : State) (p : Fin 16)

theorem State.raise_keepsSensed (c b u : Nat) (w x y z : Word) : s.keepsSensed (s.raise c b u w x y z) :=
  keepsSensed_of_heard (s.raise_side ..) (s.raise_heard ..)
theorem State.goLink_keepsSensed (f : Link → Link) : s.keepsSensed (s.goLink p f) := keepsSensed_of_heard (s.goLink_side p f) (s.goLink_heard p f)
theorem State.holdDown_keepsSensed (c : Nat) (b : Bool) : s.keepsSensed (s.holdDown p c b) := by
  have h : s.ring.heard 15 (s.holdDown p c b).ring := by
    unfold State.holdDown
    split
    · exact heard_refl _ _
    · exact heard_refl _ _
    · exact heard_refl _ _
    · exact s.fall_heard p _ _ _
  exact keepsSensed_of_heard (s.holdDown_side p c b) h

/-! ### Ports that start -/

theorem State.modTx_warm (f : TxPath → TxPath) : (s.modTx p f).warm = s.warm := s.modPort_warm p fun _ => rfl
theorem State.modTow_warm (f : Towpath → Towpath) : (s.modTow p f).warm = s.warm := s.modPort_warm p fun _ => rfl
theorem State.txStop_warm : (s.txStop p).warm = s.warm := s.modTx_warm p _
theorem State.startTx_warm (w : Word × Word) : ((s.stdSettings p w).txStart p).warm = s.warm :=
  (State.modTx_warm _ p _).trans ((State.modTx_warm _ p _).trans (s.modTx_warm p _))
theorem State.sendBeacon_warm (b : Bool) : (s.sendBeacon p b).warm = s.warm := by
  have h (t u : State) (f : Towpath → Towpath) (g : TxPath → TxPath) (n : Nat) (hu : u.warm = t.warm) :
      (((u.modTow p f).modTx p g).txBurst p n).warm = t.warm :=
    (State.modTx_warm _ p _).trans ((State.modTx_warm _ p _).trans ((State.modTx_warm _ p _).trans ((u.modTow_warm p f).trans hu)))
  exact h s s.draw.2 _ _ _ rfl

theorem State.enterAn_keepsSensed : s.keepsSensed (s.enterAn p) :=
  keepsSensed_trans (s.goLink_keepsSensed p _) (keepsSensed_of_warm (State.startTx_warm ..))
theorem State.enterStd_keepsSensed (m : LineMode) (b : Bool) : s.keepsSensed (s.enterStd p m b) :=
  keepsSensed_trans (s.goLink_keepsSensed p _) (keepsSensed_of_warm (State.startTx_warm ..))
theorem State.enterDiscover_keepsSensed (b : Bool) : s.keepsSensed (s.enterDiscover p b) := by
  have hd : s.draw.2.warm = s.warm := rfl
  unfold State.enterDiscover
  exact keepsSensed_trans (keepsSensed_of_warm ((State.modTow_warm _ p _).trans ((State.txStop_warm _ p).trans hd)))
    (keepsSensed_trans (State.goLink_keepsSensed _ p _) (keepsSensed_of_warm (State.sendBeacon_warm ..)))
theorem State.firstState_keepsSensed : s.keepsSensed (s.firstState p) := by
  unfold State.firstState
  dsimp only
  split
  · exact s.enterStd_keepsSensed p _ _
  · exact s.enterStd_keepsSensed p _ _
  · exact ite_keepsSensed (s.enterDiscover_keepsSensed p _) (s.enterAn_keepsSensed p)
  · exact ite_keepsSensed (s.enterDiscover_keepsSensed p _) (s.enterAn_keepsSensed p)
theorem State.startPort_keepsSensed : s.keepsSensed (s.startPort p) := by
  refine ite_keepsSensed (keepsSensed_refl s) ?_
  split
  · exact s.goLink_keepsSensed p _
  · exact s.goLink_keepsSensed p _
  · exact s.firstState_keepsSensed p

/-! ### What follows a link's change -/

theorem State.modTdr_warm (f : Tdr → Tdr) : (s.modTdr p f).warm = s.warm := s.modPort_warm p fun _ => rfl
theorem State.tdrOver_keepsSensed : s.keepsSensed (s.tdrOver p) := by
  have h (f : Tdr → Tdr) (g : Link → Link) : s.keepsSensed (((s.modTdr p f).txStop p).goLink p g) :=
    keepsSensed_trans (keepsSensed_of_warm ((State.txStop_warm _ p).trans (s.modTdr_warm p f))) (State.goLink_keepsSensed _ p g)
  exact ite_keepsSensed (keepsSensed_trans (h _ _) (keepsSensed_of_warm (State.runPort_warm ..))) (h _ _)
theorem State.tdrAbandon_keepsSensed (n : Nat) : s.keepsSensed (s.tdrAbandon p n) :=
  ite_keepsSensed (keepsSensed_trans (keepsSensed_of_warm (s.modTdr_warm p _)) (keepsSensed_trans (State.tdrOver_keepsSensed _ p)
    (keepsSensed_of_warm (warm_of_bench (State.answerWait_bench ..))))) (keepsSensed_refl s)
theorem State.forceSync_keepsSensed : s.keepsSensed (s.forceSync p) := by
  unfold State.forceSync
  split
  · exact keepsSensed_refl s
  · split
    · exact s.tdrAbandon_keepsSensed p 5
    · exact keepsSensed_refl s
    · exact s.holdDown_keepsSensed p 11 false
theorem followPort_keepsSensed (old : State) : s.keepsSensed (State.followPort old s p) :=
  keepsSensed_trans (ite_keepsSensed (keepsSensed_refl s) (s.forceSync_keepsSensed p)) (keepsSensed_of_warm (State.calFollow_warm ..))
theorem followAll_keepsSensed (old : State) : s.keepsSensed (State.followAll old s) :=
  foldl_keepsSensed _ _ (fun t p => followPort_keepsSensed t p old) s
theorem settle_keepsSensed (old : State) : s.keepsSensed (settle old s) := ⟨by rw [settle_cal], by rw [settle_ring]⟩

theorem State.tdrOver_link_ne {q : Fin 16} (h : q ≠ p) : ((s.tdrOver p).port q).link = (s.port q).link := by
  have hg (f : Tdr → Tdr) (g : Link → Link) : ((((s.modTdr p f).txStop p).goLink p g).port q).link = (s.port q).link :=
    (mask_link (State.goLink_mask_ne _ h g)).trans ((warm_link (State.txStop_warm _ p) q).trans (warm_link (s.modTdr_warm p f) q))
  exact ite_keep (fun t : State => (t.port q).link) ((warm_link (State.runPort_warm ..) q).trans (hg _ _)) (hg _ _)
theorem State.tdrAbandon_link_ne {q : Fin 16} (h : q ≠ p) (n : Nat) : ((s.tdrAbandon p n).port q).link = (s.port q).link :=
  ite_keep (fun t : State => (t.port q).link) ((congrArg Port.link (bench_port (State.answerWait_bench ..) q)).trans
    ((State.tdrOver_link_ne _ p h).trans (warm_link (s.modTdr_warm p _) q))) rfl
/-- The domain check of a port leaves the links of the others. -/
theorem State.forceSync_link_ne {q : Fin 16} (h : q ≠ p) : ((s.forceSync p).port q).link = (s.port q).link := by
  unfold State.forceSync
  split
  · rfl
  · split
    · exact s.tdrAbandon_link_ne p h 5
    · rfl
    · rw [State.modLink, State.port_modPort_ne _ h, mask_link (s.holdDown_mask_ne h 11 false)]
/-- A port in HOLD needs no domain, so none that is forced off takes it down (R62). -/
theorem State.forceSync_hold (h : (s.port p).link.state = .hold) : s.forceSync p = s := by
  have hm : s.missing? p = none := by
    unfold State.missing? State.portNeeds Port.needs
    rw [h]
    rfl
  unfold State.forceSync
  rw [hm]
theorem State.forceSync_keepsHold (q : Fin 16) (h : (s.port q).link.state = .hold) : ((s.forceSync p).port q).link = (s.port q).link := by
  by_cases e : q = p
  · subst e
    rw [s.forceSync_hold q h]
  · exact s.forceSync_link_ne p e
/-- What follows a command leaves a port in HOLD as it is. -/
theorem followPort_keepsHold (old : State) (q : Fin 16) (h : (s.port q).link.state = .hold) :
    ((State.followPort old s p).port q).link = (s.port q).link :=
  (warm_link (State.calFollow_warm ..) q).trans (ite_keep (fun t : State => (t.port q).link) rfl (s.forceSync_keepsHold p q h))
theorem followAll_keepsHold (old : State) (q : Fin 16) (h : (s.port q).link.state = .hold) :
    ((State.followAll old s).port q).link = (s.port q).link :=
  List.foldlRecOn allPorts (State.followPort old) (motive := fun t : State => (t.port q).link = (s.port q).link) rfl fun t ht p _ =>
    (followPort_keepsHold t p old q (by rw [ht]; exact h)).trans ht

end

end Sys2Proof.Machine
end

section
/-! PROOFS. The 1 ms temperature sample (R317, R431) and the downshift of thermal level 2 (R431). -/

namespace Sys2Proof.Machine

/-! ### The 1 ms sample (R317, R431) -/

/-- The last 16 samples with one more (R317). -/
def CalUnit.sampled (c : CalUnit) (v : Vector Int 5) : List (List Int) := (v.toList :: c.samples).take 16

/-- The sensors' levels, each with its last four readings, after new readings (R431). -/
def State.nextLevels (s : State) : Vector (Nat × List Int) 5 := Vector.ofFn fun i =>
  let last := (s.sensorTemp i :: (s.cal.levels.get i).2).take 4
  (levelOfSensor (s.cal.levels.get i).1 last, last)

/-- The part with its levels moved, before it acts on them. -/
def State.leveled (s : State) : State :=
  { s with cal := { s.cal with levels := s.nextLevels, level := (s.nextLevels.toList.map (·.1)).foldl max 0 } }

section
variable (s : State)

theorem State.readTemps_parts (v : Vector Int 5) : (s.readTemps v).ports = s.ports ∧ (s.readTemps v).ring = s.ring ∧ (s.readTemps v).cal = { s.cal with
    samples := s.cal.sampled v, temp := Vector.ofFn fun i => meanOf ((s.cal.sampled v).map (fun l => l.getD i.val 0)) } := by
  have h (l : List (Fin 4)) (t : State) (f : State → Fin 4 → Reach → Reach) :
      ((l.foldl (fun (t : State) r => t.modReach r (f t r)) t).ports, (l.foldl (fun (t : State) r => t.modReach r (f t r)) t).ring,
        (l.foldl (fun (t : State) r => t.modReach r (f t r)) t).cal) = (t.ports, t.ring, t.cal) :=
    foldl_keep (fun t : State => (t.ports, t.ring, t.cal)) l _ t fun _ _ => rfl
  have e := h allReaches { s with cal := { s.cal with
    samples := s.cal.sampled v, temp := Vector.ofFn fun i => meanOf ((s.cal.sampled v).map (fun l => l.getD i.val 0)) } }
    (fun t r x => { x with subst := substNow x.subst (t.cal.reading (r.castLE (by omega))) t.cal.central })
  exact ⟨congrArg (·.1) e, congrArg (·.2.1) e, congrArg (·.2.2) e⟩

/-- The central sensor's level follows its own readings. -/
theorem State.nextLevels_central : s.nextLevels.get 4 =
    (levelOfSensor (s.cal.levels.get 4).1 ((s.cal.temp.get 4 :: (s.cal.levels.get 4).2).take 4), (s.cal.temp.get 4 :: (s.cal.levels.get 4).2).take 4) := by
  unfold State.nextLevels
  rw [Vector.get_ofFn]
  rfl

theorem State.moveLevels_eq : ∃ i : Fin 5, s.moveLevels = s.leveled.thermalMove s.cal.level i := ⟨_, rfl⟩

/-- A level that moves is told first; what follows at the ports lets the event stand (R62, R431). -/
theorem State.thermalMove_tells (old : Nat) (i : Fin 5) (h : s.cal.level ≠ old) :
    (s.raise 0x0064 6 0 (wd (s.cal.level + 16 * i.val)) (wdI (s.sensorTemp i))).keepsSensed (s.thermalMove old i) := by
  unfold State.thermalMove
  dsimp only
  rw [if_neg h]
  refine ite_keepsSensed (foldl_keepsSensed _ _ (fun t p => t.holdDown_keepsSensed p 11 false) _) (ite_keepsSensed ?_ (keepsSensed_refl _))
  exact foldl_keepsSensed _ _ (fun t p => ite_keepsSensed (t.startPort_keepsSensed p) (keepsSensed_refl t)) _
theorem State.thermalMove_keepsSensed (old : Nat) (i : Fin 5) : s.keepsSensed (s.thermalMove old i) := by
  by_cases h : s.cal.level = old
  · rw [show s.thermalMove old i = s from if_pos h]
    exact keepsSensed_refl s
  · exact keepsSensed_trans (s.raise_keepsSensed ..) (s.thermalMove_tells old i h)
/-- At level 3 every port that may go down is held with cause 11 (R62, R431). -/
theorem State.thermalMove_holds {old : Nat} (i : Fin 5) (h : s.cal.level = 3) (ho : old ≠ 3) (p : Fin 16)
    (h1 : (s.port p).link.state ≠ .disabled) (h2 : (s.port p).link.state ≠ .diag) :
    ((s.thermalMove old i).port p).link.state = .hold ∧ ((s.thermalMove old i).port p).link.downCause = 11 := by
  unfold State.thermalMove
  dsimp only
  rw [if_neg (by omega), if_pos h]
  exact State.holdAll_link allPorts (List.nodup_finRange 16) _ 11 false p (by rwa [State.raise_port]) (by rwa [State.raise_port]) (List.mem_finRange p)

theorem State.sampleTemp_warm (v : Vector Int 5) : (s.sampleTemp v).warm = (s.readTemps v).moveLevels.warm :=
  (foldl_keep State.warm _ _ _ fun t r => t.tempTrigger_warm r).trans (State.startPending_warm _)

end

/-- What the sensors hold after a sample: readings, the central sensor's level and the part's level (R317, R431). -/
def CalUnit.senses (o : CalUnit) (v : Vector Int 5) (c : CalUnit) : Prop :=
  c.samples = (v.toList :: o.samples).take 16
    ∧ (∀ i, c.temp.get i = meanOf (((v.toList :: o.samples).take 16).map (fun l => l.getD i.val 0)))
    ∧ (c.levels.get 4).2 = (c.temp.get 4 :: (o.levels.get 4).2).take 4
    ∧ (c.levels.get 4).1 = levelOfSensor (o.levels.get 4).1 (c.levels.get 4).2
    ∧ c.level = (c.levels.toList.map (·.1)).foldl max 0

theorem State.leveled_senses {s : State} (v : Vector Int 5) {c : CalUnit} (h : c.sensed = (s.readTemps v).leveled.cal.sensed) : s.cal.senses v c := by
  obtain ⟨-, -, hc⟩ := s.readTemps_parts v
  obtain ⟨ht, hs, hl, hv⟩ : c.temp = (s.readTemps v).cal.temp ∧ c.samples = (s.readTemps v).cal.samples
      ∧ c.level = ((s.readTemps v).nextLevels.toList.map (·.1)).foldl max 0 ∧ c.levels = (s.readTemps v).nextLevels := by
    simpa [CalUnit.sensed, State.leveled] using h
  have h4 := (s.readTemps v).nextLevels_central
  have ho : (s.readTemps v).cal.levels = s.cal.levels := by rw [hc]
  rw [← hv, ← ht, ho] at h4
  refine ⟨by rw [hs, hc]; rfl, fun i => ?_, by rw [h4], by rw [h4], by rw [hl, hv]⟩
  rw [ht, hc]
  exact Vector.get_ofFn ..

/-- The 1 ms sample: what the sensors hold, THERMAL when the part's level moves, and the ports held at level 3. -/
theorem tempSample_does {s : State} (v : Vector Int 5) (hc : s.clocked = true) : Does (.tempSample v) s (fun t => s.cal.senses v t.cal
    ∧ (t.cal.level ≠ s.cal.level → s.ringRoom → ∃ i < 5, t.noted 0x0064 0 (wd (t.cal.level + 16 * i)))
    ∧ (t.cal.level = 3 → s.cal.level ≠ 3 → ∀ p, (s.port p).link.state ≠ .disabled → (s.port p).link.state ≠ .diag →
        (t.port p).link.state = .hold ∧ (t.port p).link.downCause = 11)) := by
  obtain ⟨hp, hr, hu⟩ := s.readTemps_parts v
  obtain ⟨i, hi⟩ := (s.readTemps v).moveLevels_eq
  rw [show (s.readTemps v).cal.level = s.cal.level by rw [hu]] at hi
  have hw := s.sampleTemp_warm v
  rw [hi] at hw
  generalize hx : (s.readTemps v).leveled = x at hi hw
  have hxr : x.ring = s.ring := by rw [← hx]; exact hr
  have hxp (p : Fin 16) : x.port p = s.port p := by rw [← hx]; exact congrArg (·.get p) hp
  have hk : (x.thermalMove s.cal.level i).keepsSensed (settle s (State.followAll s (s.sampleTemp v))) :=
    keepsSensed_trans (keepsSensed_of_warm hw) (keepsSensed_trans (followAll_keepsSensed _ s) (settle_keepsSensed _ s))
  have hs := (keepsSensed_trans (x.thermalMove_keepsSensed s.cal.level i) hk).1
  have hl : (settle s (State.followAll s (s.sampleTemp v))).cal.level = x.cal.level := congrArg (fun y => y.2.2.1) hs
  refine ⟨_, State.runsAll_eq hc _, State.leveled_senses v (hx ▸ hs), fun hne hroom => ⟨i.val, i.isLt, ?_⟩, fun h hne p hd hg => ?_⟩
  · rw [hl] at hne ⊢
    exact noted_keepsSensed (State.raise_noted _ _ 6 _ _ _ _ _ (by unfold State.ringRoom; rwa [hxr])) (keepsSensed_trans (x.thermalMove_tells _ i hne) hk)
  · rw [← hxp] at hd hg
    have hh := x.thermalMove_holds i (hl.symm.trans h) hne p hd hg
    rw [← warm_link hw p] at hh
    rw [settle_port_link, followAll_keepsHold _ s p hh.1]
    exact hh

/-! ### Thermal level 2 (R431) -/

/-- Nothing follows on a port whose link state and ENABLE are as before, with no domain forced off. -/
theorem followPort_unmoved {old s : State} {p : Fin 16} (hf : s.unforced) (hl : (old.port p).link.state = (s.port p).link.state)
    (he : old.enabled p = s.enabled p) : State.followPort old s p = s := by
  unfold State.followPort State.calFollow
  simp [State.forceSync_free p hf, hl, he]

section
variable {s t : State} {p : Fin 16} (hs : s.steady p)
include hs

/-- Nothing follows a line operation of a steady port anywhere. -/
theorem followAll_around (h : t.around p = s.around p) : State.followAll s t = t := by
  refine List.foldl_fixed' (fun q => ?_) _
  by_cases e : q = p
  · subst e
    exact followPort_around h hs
  · exact followPort_unmoved (around_unforced h hs.2.1) (by rw [around_link h e]) (around_enabled h q).symm
theorem runsAll_does {c : Instr} {P : State → Prop} (h : t.around p = s.around p) (he : exec c s = s.runsAll t) (hP : P (settle s t)) : Does c s P :=
  ⟨_, by rw [he, State.runsAll_eq hs.1, followAll_around hs h], hP⟩

end

theorem thermalStep_cool {s : State} (hc : s.clocked = true) (hl : s.cal.level < 2) :
    Does .thermalDownshiftStep s (fun t => ∀ p, (t.port p).link = (s.port p).link) := by
  have e : s.thermalStep = s := if_pos (.inl hl)
  refine ⟨_, State.runsAll_eq hc _, fun p => ?_⟩
  rw [e, followAll_same (fun _ => rfl) (fun _ => rfl) fun _ => rfl, settle_port_link]

section
variable {s : State} {p : Fin 16} {m : LineMode} {l : List LineMode} (hs : s.steady p) (hl : 2 ≤ s.cal.level) (hf : s.sup.pfailFrozen = false)
  (hp : allPorts.reverse.find? (fun q => (s.port q).link.state == .loconUp && (s.port q).link.modeAct == some .l50a) = some p)
  (hm : below (s.common p) .l50a = m :: l) (hq : (s.port p).quiet.state = .active) (hn : (s.port p).quiet.pend = none)
include hl hf hp hm hq hn

/-- The port that steps down shifts, or asks to. -/
theorem State.thermalStep_eq : s.thermalStep = if (s.port p).link.leader then s.leadShift p m 0 else s.askShift p m 0 := by
  have hu : (s.port p).link.state = .loconUp := by
    have := List.find?_some hp
    simp only [Bool.and_eq_true, beq_iff_eq] at this
    exact this.1
  unfold State.thermalStep
  rw [if_neg (by simp [hf]; omega), hp]
  dsimp only
  rw [hm]
  dsimp only
  unfold State.trigger
  dsimp only
  rw [hu, hq, hn]

include hs
theorem thermalStep_leads (h : (s.port p).link.leader = true) : Does .thermalDownshiftStep s (State.shifts p m 0 false) := by
  have ha : (s.port p).link.modeAct = some .l50a := by
    have := List.find?_some hp
    simp only [Bool.and_eq_true, beq_iff_eq] at this
    exact this.2
  refine runsAll_does hs (s.leadShift_around p m 0) (congrArg s.runsAll ?_) (leadShift_shifts s ha m 0 s)
  rw [State.thermalStep_eq hl hf hp hm hq hn, if_pos h]
theorem thermalStep_asks (h : (s.port p).link.leader = false) :
    Does .thermalDownshiftStep s (s.readied p ⟨5, 0, shiftPayload (modeCode m) 0 (ownDir (s.policy p)) 0⟩) := by
  refine runsAll_does hs (s.queueCell_around p 5 _) (congrArg s.runsAll ((State.thermalStep_eq hl hf hp hm hq hn).trans (if_neg (ne_true_of_eq_false h)))) ?_
  unfold State.readied
  rw [settle_port_tow, State.queueCell, State.port_modTow]
  rfl

end

end Sys2Proof.Machine
end

section
/-! PROOFS. A port's calibration run (R321 to R325): its slices, its end, MAX_WAIT and the retry; and with it the calibration rows. -/

namespace Sys2Proof.Machine

/-! ### Calibration runs that end (R323 to R325) -/

/-- The part that has judged the anchor of a port's run and dropped the port's slices (R325, R424). -/
def State.judged (s : State) (p : Fin 16) (m : CalMeasure) : State := (s.judgeAnchor (anchorOk m)).dropSlices p false

/-- The set that a run measured. -/
def State.runSet (s : State) (p : Fin 16) (m : CalMeasure) : CalSet :=
  { cells := m.cells, slices := m.slices, trims := [Config.freeWord (s.judged p m).draws] }

/-- The record of a port whose run has passed. -/
def PortCal.passes (x : PortCal) (c : CalSet) (m : CalMeasure) : PortCal :=
  { x with running := false, passed := some c, fails := 0, fault := false, retry := false
           dacRes := min 1023 m.dacRes, skewRes := min 1023 m.skewRes, eye := min 1000 m.eye }

/-- The part with a passed run's set kept, before it is put in force. -/
def State.setKept (s : State) (p : Fin 16) (m : CalMeasure) : State := (s.judged p m).draw.2.modCal p (·.passes (s.runSet p m) m)

/-- What a run that passed makes of its port and the journal (R323, R327). -/
def State.passRun (s : State) (p : Fin 16) (m : CalMeasure) : State :=
  let t := if (s.setKept p m).factoryOn then s.setKept p m else (s.setKept p m).applySet p (s.runSet p m)
  { t with journal := { t.journal with changed := true } }

/-- The record of a port whose run has failed (R325). -/
def PortCal.failed (x : PortCal) (n : Nat) : PortCal := { x with running := false, fails := n, fault := decide (3 ≤ n), retry := decide (n < 3) }

/-- What a run that failed makes of its port (R325). -/
def State.failRun (s : State) (p : Fin 16) (m : CalMeasure) : State :=
  let n := min 3 ((s.port p).cal.fails + 1)
  let t := ((s.judged p m).modCal p (·.failed n)).count 6 1 1
  if n = 3 ∧ (s.port p).cal.fails < 3 then t.raise 0x0040 6 p.val 0 else t

/-- What a run that passed shows of its port and the journal: a new set kept, and in force unless the factory override of s stands. -/
def State.runPassed (s : State) (p : Fin 16) (m : CalMeasure) (t : State) : Prop :=
  (t.port p).cal.running = false ∧ (t.port p).cal.fails = 0 ∧ (t.port p).cal.fault = false ∧ t.journal.changed = true
    ∧ ∃ c, (t.port p).cal.passed = some c ∧ c.cells = m.cells ∧ c.slices = m.slices
      ∧ (s.factoryOn = false → (t.port p).cal.inForce = some c ∧ (t.port p).tx.spares = spareCells m.cells ∧ (t.port p).rx.adcSpare = spareSlices m.slices)

section
variable (s : State) (p : Fin 16) (m : CalMeasure)

theorem State.port_modCal (f : PortCal → PortCal) : (s.modCal p f).port p = { s.port p with cal := f (s.port p).cal } := State.port_modPort_same ..

theorem State.judgeAnchor_kept (b : Bool) : (s.judgeAnchor b).ports = s.ports ∧ (s.judgeAnchor b).mended = s.mended := by
  unfold State.judgeAnchor
  dsimp only
  split_ifs
  · exact ⟨rfl, rfl⟩
  · exact ⟨State.raise_ports .., State.raise_mended ..⟩
  · exact ⟨rfl, rfl⟩
theorem State.judged_port (q : Fin 16) : (s.judged p m).port q = s.port q := congrArg (·.get q) (s.judgeAnchor_kept (anchorOk m)).1
theorem State.setKept_factoryOn : (s.setKept p m).factoryOn = s.factoryOn := by
  have h : (s.judged p m).act (regKey 6 0x20) = s.act (regKey 6 0x20) :=
    State.act_frame ((State.dropSlices_frame ..).trans (s.judgeAnchor_frame _)) ((State.dropSlices_held ..).trans (s.judgeAnchor_held _))
      (s.judgeAnchor_kept (anchorOk m)).2 _
  exact congrArg (bit · 1) h
theorem State.setKept_port : (s.setKept p m).port p = { s.port p with cal := (s.port p).cal.passes (s.runSet p m) m } := by
  rw [← s.judged_port p m]
  exact State.port_modCal ..
theorem State.passRun_port : (s.passRun p m).port p = (if s.factoryOn then s.setKept p m else (s.setKept p m).applySet p (s.runSet p m)).port p := by
  rw [← s.setKept_factoryOn p m]
  rfl
theorem State.failRun_cal : ((s.failRun p m).port p).cal = (s.port p).cal.failed (min 3 ((s.port p).cal.fails + 1)) := by
  have h : ((((s.judged p m).modCal p (·.failed (min 3 ((s.port p).cal.fails + 1)))).count 6 1 1).port p).cal
      = (s.port p).cal.failed (min 3 ((s.port p).cal.fails + 1)) := by
    rw [State.count_port, State.port_modCal, s.judged_port]
  exact ite_keep (fun t : State => (t.port p).cal) ((congrArg Port.cal (State.raise_port ..)).trans h) h

/-- The end of a run, but for what reaches and waiting commands make of it. -/
theorem State.finishRun_bench : (s.finishRun p m).bench = (if calPasses m then s.passRun p m else s.failRun p m).bench :=
  (State.reachDone_bench ..).trans ((State.calTell_bench ..).trans (ite_keep State.bench rfl rfl))

/-- A change that waits for the journal still waits when the command closes. -/
theorem settle_changed (old : State) (h : s.journal.changed = true) : (settle old s).journal.changed = true := by
  obtain ⟨t1, h1⟩ := State.countRises_eq old s.regs s
  obtain ⟨v, t2, h2⟩ := State.remoteSweeps_eq allChans { s with tally := t1 }
  obtain ⟨w, h3, -⟩ := State.remoteDrop_eq { s with chans := v, tally := t2 }
  unfold settle State.journalNotice
  rw [h1, h2, h3]
  exact ite_keep (fun t : State => t.syncDomains.journal.changed) rfl h

end

section
variable {s : State} {p : Fin 16} {m : CalMeasure} (hc : s.clocked = true)
include hc

/-- A run that ends with every check passed: its set is kept, and in force unless the factory override stands. -/
theorem finishRun_passes {c : Instr} (he : exec c s = s.runs (s.finishRun p m)) (hm : calPasses m = true) : Does c s (s.runPassed p m) := by
  have hb := s.finishRun_bench p m
  rw [if_pos hm] at hb
  refine runs_does hc he ?_
  unfold State.runPassed
  rw [settle_port_cal, settle_port_tx, settle_port_rx, bench_port hb, s.passRun_port]
  have hj : (settle s (s.finishRun p m)).journal.changed = true := settle_changed _ s (by rw [bench_journal hb]; rfl)
  have ha : ((s.setKept p m).applySet p (s.runSet p m)).port p = _ := State.port_modPort_same ..
  rw [s.setKept_port] at ha
  by_cases hf : s.factoryOn = true
  · rw [if_pos hf, s.setKept_port]
    exact ⟨rfl, rfl, rfl, hj, _, rfl, rfl, rfl, fun h => absurd hf (ne_true_of_eq_false h)⟩
  · rw [if_neg hf, ha]
    exact ⟨rfl, rfl, rfl, hj, _, rfl, rfl, rfl, fun _ => ⟨rfl, rfl, rfl⟩⟩

/-- A run that fails keeps the sets and counts (R325). -/
theorem finishRun_fails {c : Instr} (he : exec c s = s.runs (s.finishRun p m)) (hm : calPasses m = false) : Does c s (fun t =>
    (t.port p).cal = (s.port p).cal.failed (min 3 ((s.port p).cal.fails + 1))) := by
  have hb := s.finishRun_bench p m
  rw [if_neg (ne_true_of_eq_false hm)] at hb
  refine runs_does hc he ?_
  rw [settle_port_cal, bench_port hb, s.failRun_cal]

end

/-! ### Slices, MAX_WAIT and retries (R321, R322, R325) -/

section
variable (s : State) (p : Fin 16)

/-- Items placed as a slice or run at once, their temperature summed for a reach run or not: no port is touched (R318, R322). -/
theorem State.placed_port (n b a w : Bool) (r : Fin 4) (f : Reach → Reach) (us : Nat) :
    (if n then (if b then s else s.modReach r f).placeSlice p a w us else if b then s else s.modReach r f).port p = s.port p := by
  have h : (if b then s else s.modReach r f).port p = s.port p := ite_keep (State.port · p) rfl rfl
  exact ite_keep (State.port · p) ((bench_port (State.placeSlice_bench ..) p).trans h) h
theorem State.startItems_cal (b : Bool) : ((s.startItems p b).port p).cal =
    { (s.port p).cal with running := true, item := 0, single := b, retry := false, startTemp := s.reachTemp (reachOf p) } := by
  unfold State.startItems
  dsimp only
  rw [State.placed_port, State.port_modCal]

theorem State.sliceDone_ends {m : CalMeasure} (hr : (s.port p).cal.running = true) (hi : calItems ≤ fitItems calItems (s.port p).cal.item (s.sliceUs * 10)) :
    s.sliceDone p m = s.finishRun p m := by
  unfold State.sliceDone
  dsimp only
  rw [if_neg (by simp [hr]), if_pos hi]
theorem State.portRunDone_ends {m : CalMeasure} (hr : (s.port p).cal.running = true) : s.portRunDone p m = s.finishRun p m := if_pos hr
theorem State.sliceDone_cal {m : CalMeasure} (hr : (s.port p).cal.running = true)
    (hi : fitItems calItems (s.port p).cal.item (s.sliceUs * 10) < calItems) :
    ((s.sliceDone p m).port p).cal = { (s.port p).cal with item := fitItems calItems (s.port p).cal.item (s.sliceUs * 10) } := by
  unfold State.sliceDone
  dsimp only
  rw [if_neg (by simp [hr]), if_neg (by omega), State.placed_port, State.port_modCal]

theorem State.retryRun_none (h : (s.port p).cal.retry = false) : s.retryRun p = s := if_neg (by simp [h])
/-- A retry is a single-port run of the port with its retry taken (R325). -/
theorem State.retryRun_runs (h : (s.port p).cal.retry = true) (hf : (s.port p).cal.fault = false) : ∃ u : State, s.retryRun p = u.runPort p
    ∧ u.port p = { s.port p with cal := { (s.port p).cal with retry := false } } ∧ u.calHeld = s.calHeld :=
  ⟨_, if_pos (by simp [h, hf]), s.port_modCal p _, rfl⟩
theorem State.runPort_starts (hr : (s.port p).cal.running = false) (hh : s.calHeld = false) (ht : (s.port p).tdr.running = false) :
    s.runPort p = (s.modCal p (fun c => { c with waits := false })).startItems p true := by
  unfold State.runPort
  rw [if_neg (by simp [hr]), if_neg (by simp [hh, ht])]
theorem State.runPort_waits (hr : (s.port p).cal.running = false) (h : s.calHeld = true ∨ (s.port p).tdr.running = true) :
    s.runPort p = s.modCal p (fun c => { c with waits := true }) := by
  unfold State.runPort
  rw [if_neg (by simp [hr]), if_pos (by simpa using h)]

end

section
variable {s : State} {p : Fin 16} (hc : s.clocked = true)
include hc

theorem calSliceDone_goesOn (m : CalMeasure) (hr : (s.port p).cal.running = true) (hi : fitItems calItems (s.port p).cal.item (s.sliceUs * 10) < calItems) :
    Does (.calSliceDone p m) s (fun t => (t.port p).cal.running = true
      ∧ (t.port p).cal.item = fitItems calItems (s.port p).cal.item (s.sliceUs * 10) ∧ (t.port p).cal.inForce = (s.port p).cal.inForce) := by
  refine runs_does hc rfl ?_
  rw [settle_port_cal, s.sliceDone_cal p hr hi]
  exact ⟨hr, rfl, rfl⟩
theorem calSliceDone_passes {m : CalMeasure} (hr : (s.port p).cal.running = true) (hi : calItems ≤ fitItems calItems (s.port p).cal.item (s.sliceUs * 10))
    (hm : calPasses m = true) : Does (.calSliceDone p m) s (s.runPassed p m) :=
  finishRun_passes hc (congrArg s.runs (s.sliceDone_ends p hr hi)) hm
theorem calPortRunDone_passes {m : CalMeasure} (hr : (s.port p).cal.running = true) (hm : calPasses m = true) :
    Does (.calPortRunDone p m) s (s.runPassed p m) :=
  finishRun_passes hc (congrArg s.runs (s.portRunDone_ends p hr)) hm
theorem calPortRunDone_fails {m : CalMeasure} (hr : (s.port p).cal.running = true) (hm : calPasses m = false) :
    Does (.calPortRunDone p m) s (fun t => (t.port p).cal.running = false ∧ (t.port p).cal.fails = min 3 ((s.port p).cal.fails + 1)
      ∧ (t.port p).cal.fault = decide (3 ≤ (s.port p).cal.fails + 1) ∧ (t.port p).cal.retry = decide ((s.port p).cal.fails + 1 < 3)
      ∧ (t.port p).cal.inForce = (s.port p).cal.inForce ∧ (t.port p).cal.passed = (s.port p).cal.passed) := by
  refine (finishRun_fails hc (c := .calPortRunDone p m) (congrArg s.runs (s.portRunDone_ends p hr)) hm).mono fun t ht => ?_
  rw [ht]
  exact ⟨rfl, rfl, decide_eq_decide.mpr (by omega), decide_eq_decide.mpr (by omega), rfl, rfl⟩

theorem calMaxWait_drops (hr : (s.port p).cal.running = true) (hw : 0 < fld (s.act (regKey 6 0x00)) 16 16) :
    Does (.calMaxWait p) s (fun t => (t.port p).cal.running = true
      ∧ t.time.cal = s.time.cal.filter (fun e => !(e.2.kind == .calSlice && e.2.target == p.val)) ∧ (s.ringRoom → t.told 0x0041 6 p.val 0)) := by
  have e : s.maxWait p = (s.dropSlices p false).raise 0x0041 6 p.val := if_pos (by simp [hr, hw])
  refine runs_does hc rfl ?_
  rw [e, settle_port_cal, settle_time, State.raise_port, State.raise_time]
  exact ⟨hr, rfl, fun h => told_of (settle_ring ..) (State.raise_told _ _ _ _ _ _ _ _ h)⟩
theorem calMaxWait_off (hw : fld (s.act (regKey 6 0x00)) 16 16 = 0) : Does (.calMaxWait p) s (fun t => t.time.cal = s.time.cal) := by
  have e : s.maxWait p = s := if_neg (by simp [hw])
  refine runs_does hc rfl ?_
  rw [e, settle_time]

theorem calRetry_none (h : (s.port p).cal.retry = false) : Does (.calRetry p) s (fun t => (t.port p).cal = (s.port p).cal) := by
  refine runs_does hc rfl ?_
  rw [s.retryRun_none p h, settle_port_cal]

section
variable (hr : (s.port p).cal.running = false) (h : (s.port p).cal.retry = true) (hf : (s.port p).cal.fault = false)
include hr h hf

theorem calRetry_starts (hh : s.calHeld = false) (ht : (s.port p).tdr.running = false) : Does (.calRetry p) s (fun t =>
    (t.port p).cal.running = true ∧ (t.port p).cal.item = 0 ∧ (t.port p).cal.single = true ∧ (t.port p).cal.retry = false) := by
  obtain ⟨u, e, hp, hu⟩ := s.retryRun_runs p h hf
  refine runs_does hc rfl ?_
  rw [e, u.runPort_starts p (by rw [hp]; exact hr) (hu.trans hh) (by rw [hp]; exact ht), settle_port_cal, State.startItems_cal]
  exact ⟨rfl, rfl, rfl, rfl⟩
theorem calRetry_waits (hw : s.calHeld = true ∨ (s.port p).tdr.running = true) : Does (.calRetry p) s (fun t =>
    (t.port p).cal = { (s.port p).cal with retry := false, waits := true }) := by
  obtain ⟨u, e, hp, hu⟩ := s.retryRun_runs p h hf
  refine runs_does hc rfl ?_
  rw [e, u.runPort_waits p (by rw [hp]; exact hr) (by rw [hp, hu]; exact hw), settle_port_cal, State.port_modCal, hp]

end
end

/-- Settles O56: the sample, the downshift of thermal level 2, and a port's calibration run by what ends, delays or repeats it. -/
theorem calibrationRows : Obligations.CalibrationRows := by
  unfold Obligations.CalibrationRows
  refine ⟨fun _ v hc => (tempSample_does v hc).mono fun _ ⟨⟨h1, h2, h3, h4, h5⟩, h6, h7⟩ => ⟨h1, h2, h3, h4, h5, h6, h7⟩, fun _ hc hl => thermalStep_cool hc hl,
    fun _ _ _ _ hs hl hf hp hm hq hn => ⟨thermalStep_leads hs hl hf hp hm hq hn, thermalStep_asks hs hl hf hp hm hq hn⟩,
    fun s p m hc => ⟨fun hr => ⟨calSliceDone_goesOn hc m hr, fun hm => ⟨fun hi => ?_, calPortRunDone_passes hc hr hm⟩, calPortRunDone_fails hc hr,
      calMaxWait_drops hc hr, calMaxWait_off hc⟩,
    fun hr => ⟨fun h hf => calRetry_starts hc hr h hf, fun h hf => calRetry_waits hc hr h hf, calRetry_none hc⟩⟩⟩
  obtain ⟨t, he, h1, h2, h3, -, c, h4, h5, h6, h7⟩ := calSliceDone_passes hc hr hi hm
  exact ⟨t, he, h1, h2, h3, c, h4, h5, h6, fun hf => (h7 hf).1⟩

end Sys2Proof.Machine
end

section
/-! PROOFS. LDMT in training and in use (R174, R178, R179, R184, R185, R187, R188): the SNR update, table messages and the switch at
A change the DMT record of their port, and what they send or raise leaves that record alone. -/

namespace Sys2Proof.Machine

section
variable (s : State) (p : Fin 16)

/-! ### The DMT record under the shared operations -/

theorem State.sendMessage_dmt (g : Loading) (a : Word) : ((s.sendMessage p g a).port p).dmt =
    { (s.port p).dmt with sent := some (g, a), message := tableBytes g a, msgSends := (s.port p).dmt.msgSends + 1, resendDue := false } := by
  unfold State.sendMessage
  rw [State.port_modDmt]

/-- A GO goes to the towpath and its seeds to the transmit path (R105, R126). -/
theorem State.queueGo_dmt : ((s.queueGo p).port p).dmt = (s.port p).dmt := by
  unfold State.queueGo State.queueCell
  dsimp only
  rw [State.port_modTow, State.port_modTow, State.port_modTx]
  rfl
theorem State.goDue_dmt : ((s.goDue p).port p).dmt = (s.port p).dmt := by
  unfold State.goDue
  dsimp only
  split
  · exact s.queueGo_dmt p
  · rfl

/-- A completed swap is reported, and its port stays as it was (R187, R241). -/
theorem State.swapDone_port : (s.swapDone p).port p = s.port p := by
  unfold State.swapDone
  rw [State.lineSync_port, State.raise_port]
theorem State.swapDone_noted (h : s.ringRoom) : (s.swapDone p).noted 0x0016 p.val (s.port p).dmtPay :=
  noted_lineSync _ p (State.raise_noted _ _ _ _ _ _ _ _ h)

/-! ### Measuring (R173, R179, R181, R182) -/

/-- An update puts the measured SNRs in tenths of a dB into the DMT record; besides them it moves coefficients, pilots and the figures
of the receive path only. -/
theorem State.dmtMeasure_port (q : List DmtSymbol) : ∃ w fd low mp me r, (s.dmtMeasure p q).port p = { s.port p with
    rx := r
    dmt := { (s.port p).dmt with
      w := w, fd := fd, pilotLow := low, meanP := mp, meanE := me, snr := ((s.port p).dmt.snrs q).map (fun v => (v + 5) / 10) } } := by
  unfold State.dmtMeasure
  dsimp only
  rw [State.port_modRx, State.port_modDmt]
  exact ⟨_, _, _, _, _, _, rfl⟩

/-- The part after an update in LDMT has measured and has judged the margins and the loading (R187). -/
def State.dmtJudged (s : State) (p : Fin 16) (q : List DmtSymbol) : State :=
  let ctrl := s.portReg p 0x40
  let d := (s.port p).dmt
  let g := nextLoading ctrl d (d.snrs q)
  (s.dmtMeasure p q).modDmt p (fun e => { e with
    lowRuns := lowRunsOf (marginAct ctrl) d (d.snrs q), upRun := if d.rx.b * 105 ≤ g.b * 100 then d.upRun + 1 else 0, lowB := !bUsable g.b })

/-- The cause that an update has to send a new loading (R187): a carrier short for four updates, or 5 % more for 100. -/
def State.swapCause (s : State) (p : Fin 16) (q : List DmtSymbol) (g : Loading) : Prop :=
  (lowRunsOf (marginAct (s.portReg p 0x40)) (s.port p).dmt ((s.port p).dmt.snrs q)).any (fun n => decide (4 ≤ n)) = true
    ∨ ((s.port p).dmt.rx.b * 105 ≤ g.b * 100 ∧ 100 ≤ (s.port p).dmt.upRun + 1)

/-- What judging leaves of the port that a switch count and a message rest on (R174, R187). -/
theorem State.dmtJudged_port (q : List DmtSymbol) : ((s.dmtJudged p q).port p).quiet = (s.port p).quiet
    ∧ ((s.dmtJudged p q).port p).dmt.dTick = (s.port p).dmt.dTick ∧ ((s.dmtJudged p q).port p).dmt.dRx = (s.port p).dmt.dRx
    ∧ ((s.dmtJudged p q).port p).dmt.sent = (s.port p).dmt.sent
    ∧ ((s.dmtJudged p q).port p).dmt.snr = ((s.port p).dmt.snrs q).map (fun v => (v + 5) / 10) := by
  obtain ⟨w, fd, low, mp, me, r, e⟩ := s.dmtMeasure_port p q
  unfold State.dmtJudged
  dsimp only
  rw [State.port_modDmt, e]
  exact ⟨rfl, rfl, rfl, rfl, rfl⟩

end

section
variable {s : State} {p : Fin 16}

/-- The switch count of a message depends on the ticks, on quiet and on the receive count (R174, R187). -/
theorem switchAt_of {t : State} (ht : t.ticks = s.ticks) (hq : (t.port p).quiet = (s.port p).quiet)
    (hd : (t.port p).dmt.dTick = (s.port p).dmt.dTick) (hr : (t.port p).dmt.dRx = (s.port p).dmt.dRx) : t.switchAt p = s.switchAt p := by
  unfold State.switchAt State.dmtNow
  dsimp only
  rw [ht, hq, hd, hr]

theorem State.dmtJudged_switchAt (q : List DmtSymbol) : (s.dmtJudged p q).switchAt p = s.switchAt p := by
  obtain ⟨hq, hd, hr, -, -⟩ := s.dmtJudged_port p q
  exact switchAt_of rfl hq hd hr

theorem dmtRuns_link {x : Port} (h : x.dmtRuns = true) : x.link.state = .loconUp ∧ x.link.modeAct = some .ldmt ∧ x.quiet.state = .active := by
  unfold Port.dmtRuns at h
  simpa [and_assoc] using h
/-- A port that runs LDMT does not train for it (R185). -/
theorem dmtTrains_of_runs {x : Port} (h : x.dmtRuns = true) : x.dmtTrains = false := by
  unfold Port.dmtTrains
  rw [(dmtRuns_link h).1]

/-! ### The SNR update (R178, R179, R185, R187, R188) -/

theorem State.dmtUpdate_trains {q : List DmtSymbol} (ht : (s.port p).dmtTrains = true) :
    s.dmtUpdate p q = if bUsable (computeLoading (s.portReg p 0x40) ((s.port p).dmt.snrs q)).b then
        ((s.dmtMeasure p q).sendMessage p (computeLoading (s.portReg p 0x40) ((s.port p).dmt.snrs q)) 0).goDue p
      else (s.dmtMeasure p q).modDmt p (fun d => { d with sent := none }) := if_pos ht
theorem State.dmtUpdate_idle (q : List DmtSymbol) (ht : (s.port p).dmtTrains = false) (hr : (s.port p).dmtRuns = false) : s.dmtUpdate p q = s := by
  unfold State.dmtUpdate
  dsimp only
  rw [ht, hr]
  rfl
theorem State.dmtUpdate_holds (q : List DmtSymbol) (hr : (s.port p).dmtRuns = true) (hh : s.holdsTables p = true) :
    s.dmtUpdate p q = s.dmtJudged p q := by
  unfold State.dmtUpdate
  dsimp only
  rw [dmtTrains_of_runs hr, hr, hh]
  rfl

/-- With swaps enabled, none under way and a loading in use, an update that finds cause sends the new table (R187). -/
theorem State.dmtUpdate_swaps {q : List DmtSymbol} {g : Loading} (hg : g = computeLoading (s.portReg p 0x40) ((s.port p).dmt.snrs q))
    (hr : (s.port p).dmtRuns = true) (hs : (s.port p).dmt.sent = none) (hh : s.holdsTables p = false) (hb : bit (s.portReg p 0x40) 12 = true)
    (hu : bUsable g.b = true) (hd : s.swapCause p q g) :
    s.dmtUpdate p q = (s.dmtJudged p q).sendTable p g := by
  have hn : nextLoading (s.portReg p 0x40) (s.port p).dmt ((s.port p).dmt.snrs q) = g := by
    unfold nextLoading
    rw [hb, hg]
    rfl
  have hdue : ((lowRunsOf (marginAct (s.portReg p 0x40)) (s.port p).dmt ((s.port p).dmt.snrs q)).any (fun n => decide (4 ≤ n))
      || decide (100 ≤ if (s.port p).dmt.rx.b * 105 ≤ g.b * 100 then (s.port p).dmt.upRun + 1 else 0)) = true := by
    rcases hd with h | ⟨h1, h2⟩
    · rw [h, Bool.true_or]
    · rw [if_pos h1, decide_eq_true h2, Bool.or_true]
  unfold State.dmtUpdate State.dmtJudged
  dsimp only
  rw [dmtTrains_of_runs hr, hr, hh, hs, hn, hb, hu, hdue]
  rfl

/-! ### Rows that change the DMT record -/

section
variable (hc : s.clocked = true)
include hc

/-- A row that changes the DMT record alone. -/
theorem runs_modDmt {c : Instr} {t : State} {f : Dmt → Dmt} (he : exec c s = s.runs t) (e : t = s.modDmt p f) :
    Does c s (fun t => (t.port p).dmt = f (s.port p).dmt ∧ s.still p t) := by
  subst e
  refine runs_does hc he ?_
  rw [State.still, settle_port_dmt, settle_port_link, settle_port_tow, State.port_modDmt]
  exact ⟨rfl, rfl, rfl⟩
theorem runs_dmt_kept {c : Instr} {t : State} (he : exec c s = s.runs t) (e : t = s) : Does c s (fun t => (t.port p).dmt = (s.port p).dmt ∧ s.still p t) := by
  subst e
  exact runs_does hc he ⟨settle_port_dmt _ _ p, settle_port_link _ _ p, settle_port_tow _ _ p⟩

/-! ### DMT_SNR_UPDATE -/

theorem dmtSnrUpdate_sends {q : List DmtSymbol} {g : Loading} (hg : g = computeLoading (s.portReg p 0x40) ((s.port p).dmt.snrs q))
    (ht : (s.port p).dmtTrains = true) (hu : bUsable g.b = true) : Does (.dmtSnrUpdate p q) s (fun t =>
      (t.port p).dmt.snr = ((s.port p).dmt.snrs q).map (fun v => (v + 5) / 10) ∧ (t.port p).dmt.sent = some (g, 0)
      ∧ (t.port p).dmt.message = tableBytes g 0 ∧ (t.port p).dmt.msgSends = (s.port p).dmt.msgSends + 1) := by
  subst hg
  obtain ⟨w, fd, low, mp, me, r, e⟩ := s.dmtMeasure_port p q
  refine runs_does hc rfl ?_
  rw [settle_port_dmt, State.dmtUpdate_trains ht, if_pos hu, State.goDue_dmt, State.sendMessage_dmt, e]
  exact ⟨rfl, rfl, rfl, rfl⟩
theorem dmtSnrUpdate_drops {q : List DmtSymbol} {g : Loading} (hg : g = computeLoading (s.portReg p 0x40) ((s.port p).dmt.snrs q))
    (ht : (s.port p).dmtTrains = true) (hu : bUsable g.b = false) : Does (.dmtSnrUpdate p q) s (fun t =>
      (t.port p).dmt.snr = ((s.port p).dmt.snrs q).map (fun v => (v + 5) / 10) ∧ (t.port p).dmt.sent = none) := by
  subst hg
  obtain ⟨w, fd, low, mp, me, r, e⟩ := s.dmtMeasure_port p q
  refine runs_does hc rfl ?_
  rw [settle_port_dmt, State.dmtUpdate_trains ht, hu, if_neg nofun, State.port_modDmt, e]
  exact ⟨rfl, rfl⟩
theorem dmtSnrUpdate_swaps {q : List DmtSymbol} {g : Loading} (hg : g = computeLoading (s.portReg p 0x40) ((s.port p).dmt.snrs q))
    (hr : (s.port p).dmtRuns = true) (hs : (s.port p).dmt.sent = none) (hh : s.holdsTables p = false) (hb : bit (s.portReg p 0x40) 12 = true)
    (hu : bUsable g.b = true) (hd : s.swapCause p q g) :
    Does (.dmtSnrUpdate p q) s (fun t => (t.port p).dmt.sent = some (g, s.switchAt p) ∧ (t.port p).dmt.message = tableBytes g (s.switchAt p)
      ∧ (t.port p).dmt.msgSends = 1) := by
  refine runs_does hc rfl ?_
  rw [settle_port_dmt, State.dmtUpdate_swaps hg hr hs hh hb hu hd, State.sendTable, State.dmtJudged_switchAt, State.sendMessage_dmt, State.port_modDmt]
  exact ⟨rfl, rfl, rfl⟩
theorem dmtSnrUpdate_holds (q : List DmtSymbol) (hr : (s.port p).dmtRuns = true) (hh : s.holdsTables p = true) : Does (.dmtSnrUpdate p q) s (fun t =>
    (t.port p).dmt.snr = ((s.port p).dmt.snrs q).map (fun v => (v + 5) / 10) ∧ (t.port p).dmt.sent = (s.port p).dmt.sent) := by
  obtain ⟨-, -, -, hs, hn⟩ := s.dmtJudged_port p q
  refine runs_does hc rfl ?_
  rw [settle_port_dmt, State.dmtUpdate_holds q hr hh]
  exact ⟨hn, hs⟩
theorem dmtSnrUpdate_idle (q : List DmtSymbol) (ht : (s.port p).dmtTrains = false) (hr : (s.port p).dmtRuns = false) :
    Does (.dmtSnrUpdate p q) s (fun t => (t.port p).dmt = (s.port p).dmt ∧ s.still p t) := runs_dmt_kept hc rfl (State.dmtUpdate_idle q ht hr)

/-! ### Table messages (R184, R185, R187) -/

theorem tableMessage_idle (m : List Byte) (ht : (s.port p).dmtTrains = false) (hr : (s.port p).dmtRuns = false) :
    Does (.tableMessage p m) s (fun t => (t.port p).dmt = (s.port p).dmt ∧ s.still p t) := by
  refine runs_dmt_kept hc rfl (if_pos ?_)
  rw [ht, hr]
  rfl

section
variable {m : List Byte}

theorem tableMessage_bad (hv : tableValid m = false) (h : (s.port p).dmtTrains = true ∨ (s.port p).dmtRuns = true) : Does (.tableMessage p m) s (fun t =>
    (t.port p).dmt = { (s.port p).dmt with tablesBad := (s.port p).dmt.tablesBad + 1 } ∧ s.still p t) := by
  have hn : (!((s.port p).dmtTrains || (s.port p).dmtRuns)) = false := by rcases h with h | h <;> simp [h]
  have e : s.takeTable p m = s.modDmt p (fun d => { d with tablesBad := d.tablesBad + 1 }) := by
    unfold State.takeTable
    dsimp only
    rw [hn, hv]
    rfl
  exact runs_modDmt hc rfl e

section
variable (hv : tableValid m = true) {g : Loading}
  (hg : g = { bits := (tableOf m).bits.map (·.toNat), b := (tableOf m).b.toNat, i := (tableOf m).i.toNat })
include hv

include hg in
theorem tableMessage_trains (ht : (s.port p).dmtTrains = true) : Does (.tableMessage p m) s (fun t =>
    (t.port p).dmt.got = some (g, 0) ∧ (t.port p).dmt.validGot = true) := by
  have e : s.takeTable p m = (s.modDmt p (fun d => { d with got := some (g, 0), validGot := true })).goDue p := by
    unfold State.takeTable
    dsimp only
    rw [ht, hv, hg]
    rfl
  refine runs_does hc rfl ?_
  rw [settle_port_dmt, e, State.goDue_dmt, State.port_modDmt]
  exact ⟨rfl, rfl⟩

variable (hr : (s.port p).dmtRuns = true)
include hr

omit hc in
theorem State.takeTable_runs : s.takeTable p m = if ahead (tableOf m).a (s.dmtNow p (s.port p).dmt.dTx) then
      s.modDmt p (fun d => { d with
        got := some ({ bits := (tableOf m).bits.map (·.toNat), b := (tableOf m).b.toNat, i := (tableOf m).i.toNat }, (tableOf m).a) })
    else s := by
  unfold State.takeTable
  dsimp only
  rw [dmtTrains_of_runs hr, hr, hv]
  rfl
include hg in
theorem tableMessage_ahead (ha : ahead (tableOf m).a (s.dmtNow p (s.port p).dmt.dTx) = true) : Does (.tableMessage p m) s (fun t =>
    (t.port p).dmt = { (s.port p).dmt with got := some (g, (tableOf m).a) }) := by
  subst hg
  exact (runs_modDmt hc rfl ((State.takeTable_runs hv hr).trans (if_pos ha))).mono fun _ h => h.1
theorem tableMessage_late (ha : ahead (tableOf m).a (s.dmtNow p (s.port p).dmt.dTx) = false) : Does (.tableMessage p m) s (fun t =>
    (t.port p).dmt = (s.port p).dmt) :=
  (runs_dmt_kept hc rfl ((State.takeTable_runs hv hr).trans (if_neg (by rw [ha]; nofun)))).mono fun _ h => h.1

end
end

theorem dmtTableRepeat_sends (ht : (s.port p).dmtTrains = true) (hs : (s.port p).dmt.sent ≠ none) : Does (.dmtTableRepeat p) s (fun t =>
    (t.port p).dmt = { (s.port p).dmt with msgSends := (s.port p).dmt.msgSends + 1 }) := by
  refine (runs_modDmt hc rfl (if_pos ?_)).mono fun _ h => h.1
  rw [ht, Option.isSome_iff_ne_none.mpr hs]
  rfl
theorem dmtTableRepeat_idle (h : (s.port p).dmtTrains = false ∨ (s.port p).dmt.sent = none) : Does (.dmtTableRepeat p) s (fun t =>
    (t.port p).dmt = (s.port p).dmt) := by
  refine (runs_dmt_kept hc rfl (if_neg ?_)).mono fun _ h => h.1
  rcases h with h | h <;> simp [h]

/-! ### The switch at A (R187, R188) -/

/-- A swap that completes changes the DMT record and is reported with the payloads that it leaves (R187, R190). -/
theorem bitswapSwitch_done {b : Bool} {l : List (Int × Int)} {f : Dmt → Dmt} (e : s.bitswap p b l = (s.modDmt p f).swapDone p) :
    Does (.bitswapSwitch p b l) s (fun t => (t.port p).dmt = f (s.port p).dmt ∧ (s.ringSpace → t.noted 0x0016 p.val (t.port p).dmtPay)) := by
  generalize hu : s.modDmt p f = u at e
  have hd : (u.port p).dmt = f (s.port p).dmt := by rw [← hu, State.port_modDmt]
  have hr : u.ring = s.ring := by rw [← hu]; rfl
  have hp : ((settle s (u.swapDone p)).port p).dmtPay = (u.port p).dmtPay := by
    unfold Port.dmtPay
    rw [settle_port_link, settle_port_dmt, State.swapDone_port]
  refine runs_does hc rfl ?_
  rw [e, settle_port_dmt, hp, State.swapDone_port]
  exact ⟨hd, fun h => noted_ring (u.swapDone_noted p (by unfold State.ringRoom; rw [hr]; exact Nat.lt_trans h (by decide))) (settle_ring _ _)⟩

variable (hr : (s.port p).dmtRuns = true)
include hr

theorem bitswapSwitch_sender {f : List (Int × Int)} {g : Loading} {a : Word} (hg : (s.port p).dmt.got = some (g, a)) :
    Does (.bitswapSwitch p true f) s (fun t => (t.port p).dmt.tx = g ∧ (t.port p).dmt.got = none
      ∧ (t.port p).dmt.symbols = [flagB (s.port p).link.leader] ∧ (s.ringSpace → t.noted 0x0016 p.val (t.port p).dmtPay)) := by
  obtain ⟨hl, hm, hq⟩ := dmtRuns_link hr
  have e : s.bitswap p true f =
      (s.modDmt p (fun d => { d with tx := g, got := none, symbols := [flagB (s.port p).link.leader] })).swapDone p := by
    unfold State.bitswap
    dsimp only
    rw [hl, hm, hq, hg]
    rfl
  refine (bitswapSwitch_done hc e).mono fun t ⟨hd, hn⟩ => ?_
  rw [hd]
  exact ⟨rfl, rfl, rfl, hn⟩
theorem bitswapSwitch_sender_none (hg : (s.port p).dmt.got = none) (f : List (Int × Int)) :
    Does (.bitswapSwitch p true f) s (fun t => (t.port p).dmt = (s.port p).dmt) := by
  obtain ⟨hl, hm, -⟩ := dmtRuns_link hr
  refine (runs_dmt_kept hc rfl ?_).mono fun _ h => h.1
  unfold State.bitswap
  dsimp only
  rw [hl, hm, hg]
  rfl
theorem bitswapSwitch_receiver_none (hs : (s.port p).dmt.sent = none) (f : List (Int × Int)) :
    Does (.bitswapSwitch p false f) s (fun t => (t.port p).dmt = (s.port p).dmt) := by
  obtain ⟨hl, hm, -⟩ := dmtRuns_link hr
  refine (runs_dmt_kept hc rfl ?_).mono fun _ h => h.1
  unfold State.bitswap
  dsimp only
  rw [hl, hm, hs]
  rfl

section
variable {f : List (Int × Int)} {g : Loading} {a : Word} (hs : (s.port p).dmt.sent = some (g, a))
include hs

omit hc in
/-- A receiver at A with its own message out. -/
theorem State.bitswap_receives : s.bitswap p false f = if (s.port p).flagFound f then
      (s.modDmt p (fun d => { d with rx := g, sent := none, msgSends := 0, resendDue := false })).swapDone p
    else if s.holdsTables p then s.modDmt p (fun d => { d with resendDue := true })
    else s.sendMessage p g (s.switchAt p) := by
  obtain ⟨hl, hm, hq⟩ := dmtRuns_link hr
  unfold State.bitswap
  dsimp only
  rw [hl, hm, hq, hs, beq_self_eq_true, Bool.true_and]
  exact (if_neg nofun).trans (if_neg nofun)
theorem bitswapSwitch_found (hf : (s.port p).flagFound f = true) : Does (.bitswapSwitch p false f) s (fun t =>
    (t.port p).dmt.rx = g ∧ (t.port p).dmt.sent = none ∧ (s.ringSpace → t.noted 0x0016 p.val (t.port p).dmtPay)) := by
  refine (bitswapSwitch_done hc ((State.bitswap_receives hr hs).trans (if_pos hf))).mono fun t ⟨hd, hn⟩ => ?_
  rw [hd]
  exact ⟨rfl, rfl, hn⟩

variable (hf : (s.port p).flagFound f = false)
include hf

theorem bitswapSwitch_resends (hh : s.holdsTables p = false) : Does (.bitswapSwitch p false f) s (fun t =>
    (t.port p).dmt.rx = (s.port p).dmt.rx ∧ (t.port p).dmt.sent = some (g, s.switchAt p) ∧ (t.port p).dmt.msgSends = (s.port p).dmt.msgSends + 1) := by
  refine runs_does hc rfl ?_
  rw [settle_port_dmt, State.bitswap_receives hr hs, hf, hh, if_neg nofun, if_neg nofun, State.sendMessage_dmt]
  exact ⟨rfl, rfl, rfl⟩
theorem bitswapSwitch_waits (hh : s.holdsTables p = true) : Does (.bitswapSwitch p false f) s (fun t =>
    (t.port p).dmt = { (s.port p).dmt with resendDue := true }) :=
  (runs_modDmt hc rfl ((State.bitswap_receives hr hs).trans ((if_neg (by rw [hf]; nofun)).trans (if_pos hh)))).mono fun _ h => h.1

end
end
end

/-- Settles O51: the SNR update by training and LDMT, table messages by their checks, the repetition, and the switch by its end. -/
theorem ldmtRows : Obligations.LdmtRows := by
  unfold Obligations.LdmtRows
  refine fun s p hc => ⟨?_, ?_, fun q hr hh => dmtSnrUpdate_holds hc q hr hh,
    fun ht hr q m => ⟨dmtSnrUpdate_idle hc q ht hr, tableMessage_idle hc m ht hr⟩,
    fun m g hg => ⟨tableMessage_bad hc, fun hv => tableMessage_trains hc hv hg,
      fun hv hr => ⟨tableMessage_ahead hc hv hg hr, tableMessage_late hc hv hr⟩⟩,
    dmtTableRepeat_sends hc, dmtTableRepeat_idle hc,
    fun hr => ⟨fun f g a => bitswapSwitch_sender hc hr,
      fun g a f hs => ⟨bitswapSwitch_found hc hr hs, bitswapSwitch_resends hc hr hs, bitswapSwitch_waits hc hr hs⟩,
      bitswapSwitch_sender_none hc hr, bitswapSwitch_receiver_none hc hr⟩⟩
  · rintro q snrs g rfl hg ht
    exact ⟨dmtSnrUpdate_sends hc hg ht, dmtSnrUpdate_drops hc hg ht⟩
  · rintro q snrs g rfl hr hs hh hb hg hu hd
    exact dmtSnrUpdate_swaps hc hg hr hs hh hb hu hd

end Sys2Proof.Machine
end

section
/-! PROOFS. The refutation of O52: a block takes its two cells of the reorder store (R207) before its frames are extracted, so a frame
that had room when the block came may find none (R215, R226). -/

namespace Sys2Proof.Machine

/-- A stream of port 0 from the line: queue 1, class hop. -/
def hopStream : Queue :=
  { num := 1, outbound := false, cls := .hop, prio := 0, bRes := 10, lat := 1000, rB := 1000000, fMin := 64, laneMask := 0xFF }

/-- Blocks that a receiver holds ahead of its A. -/
def heldAhead (n : Nat) : List HeldBlk := (List.range n).map fun i => ⟨BitVec.ofNat 24 (i + 1), 0xFFFF, [], 0, 0⟩

/-- A frame of 64 bytes with its FCS. -/
def shortFrame : List Byte := List.replicate 60 0 ++ crcBytes (crc32 (List.replicate 60 0))

/-- The next block of port 0, whose payload is that frame for queue 1. -/
def frameBlock : Blk :=
  { gate := 0, slotKind := 0, seg := 0, resent := false, seq := 0, ack := 0, slot := 0, ffp := 0
    payload := padTo 402 ([1, BitVec.ofNat 8 (shortFrame.length / 256), BitVec.ofNat 8 shortFrame.length] ++ shortFrame) }

/-- Port 0 up in L10X with its session settled, queue 1 open and empty; one bank of 2,048 cells in service, of which the 1,023 blocks
that port 1 holds take all but two. -/
def twoCellsLeft : State :=
  let s : State := {
    sup := { stage := .released, resetN := true, refclkOk := true, safeN := true }
    basin := { banks := Vector.ofFn fun i => if i.val = 0 then .inService 0 else .failed, queues := [hopStream] } }
  (s.modPort 0 (fun x => { x with
    link := { x.link with state := .loconUp, modeAct := some .l10x, blocksOn := true }
    snd := { x.snd with synced := true } })).modRcv 1 (fun r => { r with held := heldAhead 1023 })

theorem twoCellsLeft_steady : twoCellsLeft.steady 0 := by
  simp only [State.steady, State.freePort, State.unforced]
  decide +kernel

/-- The frame has room when the block comes, and none once port 0 holds the block (R207, R226). -/
theorem twoCellsLeft_hasRoom : twoCellsLeft.hasRoom hopStream shortFrame.length = true
    ∧ (twoCellsLeft.modRcv 0 (fun r => { r with held := [⟨0, 0, frameBlock.payload, 0, 0⟩] })).hasRoom hopStream shortFrame.length = false :=
  ⟨by decide +kernel, by decide +kernel⟩

/-- Bytes followed by their CRC-32 make a good frame (R230). -/
theorem fcsGood_append_crc (d : List Byte) : fcsGood (d ++ crcBytes (crc32 d)) = true := by
  have h : (crcBytes (crc32 d)).length = 4 := rfl
  simp [fcsGood, h]

theorem frameBlock_length : frameBlock.payload.length = 402 := by decide +kernel

/-- The block is refused for room: A stays. -/
theorem twoCellsLeft_data : ∀ t, exec (.data 0 frameBlock) twoCellsLeft = .next t → (t.port 0).rcv.a = 0 := by
  have e : (match exec (.data 0 frameBlock) twoCellsLeft with
    | .next t => decide ((t.port 0).rcv.a = 0) | .fault _ => false | .refused _ => false) = true := by decide +kernel
  intro t ht
  rw [ht] at e
  exact of_decide_eq_true e

/-- Refutes O52: its last clause has the next block extracted where its frame has room in the state that the block meets, but the
block itself takes two cells of the reorder store first. With two cells free the frame of 64 bytes then finds none: the block is
refused for room and A stays. -/
theorem not_blockExchange : ¬ Obligations.BlockExchange := by
  intro h
  obtain ⟨-, -, -, -, -, -, -, blocks⟩ := h twoCellsLeft 0 twoCellsLeft_steady (by decide +kernel)
  obtain ⟨-, -, settled⟩ := blocks frameBlock (by decide +kernel) (by decide)
  obtain ⟨-, -, -, -, -, extracted⟩ := settled (by decide +kernel) rfl
  obtain ⟨t, ht, a, -⟩ := extracted 1 shortFrame hopStream (by decide +kernel) rfl rfl rfl rfl rfl (by decide) (by decide +kernel)
    (fcsGood_append_crc _) (by rw [frameBlock_length]; rfl) rfl rfl rfl twoCellsLeft_hasRoom.1
  rw [twoCellsLeft_data t ht] at a
  exact absurd a (by decide)

end Sys2Proof.Machine
end

section
/-! PROOFS. What flow control, placement, demotion and freed tickets leave (R214, R230, R238 to R241, R246, R247, R250, R266, R268):
lanes, channels, keeper and tests, the banks, and of every queue all but where it stands and what it has told the host. Events are
only added. -/

namespace Sys2Proof.Machine

/-- A queue without what placement, demotion and notices to the host change of it. -/
def Queue.fixed (q : Queue) : Queue :=
  { q with demoted := false, lane := none, move := none, qflow := false, resendAt := none, relRepeat := false, relHeld := false, movedAt := none }

/-- Nothing but the standing of queues, tickets, ports' gates, counters and new events has changed. -/
structure State.steered (s t : State) : Prop where
  side : t.side = s.side
  told : s.ring.untaken <+: t.ring.untaken
  banks : t.basin.banks = s.basin.banks
  order : t.basin.nextOrder = s.basin.nextOrder
  queues : t.basin.queues.map Queue.fixed = s.basin.queues.map Queue.fixed

open State (steered)

section
variable {s t u : State}

theorem steered_refl (s : State) : steered s s := ⟨rfl, List.prefix_rfl, rfl, rfl, rfl⟩
theorem steered_trans (h : steered s t) (k : steered t u) : steered s u :=
  ⟨k.side.trans h.side, h.told.trans k.told, k.banks.trans h.banks, k.order.trans h.order, k.queues.trans h.queues⟩
theorem steered_foldl {α : Type} (l : List α) (f : State → α → State) (h : ∀ t x, steered t (f t x)) (s : State) : steered s (l.foldl f s) :=
  List.foldlRecOn l f (steered_refl s) fun t ht x _ => steered_trans ht (h t x)
theorem steered_ite {c : Prop} [Decidable c] (h : steered s t) (k : steered s u) : steered s (if c then t else u) := by split <;> assumption

/-! ### What the relation says of lanes, channels, banks, queues and events -/

theorem steered_lane (h : steered s t) (n : Fin 8) : t.lane n = s.lane n := congrArg (fun v => v.get n) (side_lanes h.side)
theorem steered_chan (h : steered s t) (c : Fin 16) : t.chan c = s.chan c := congrArg (fun v => v.get c) (side_chans h.side)
theorem steered_bank (h : steered s t) (b : Fin 68) : t.bank b = s.bank b := congrArg (fun v => v.get b) h.banks
theorem steered_noted (h : steered s t) {c v : Nat} {e : Word} (k : s.noted c v e) : t.noted c v e := by
  obtain ⟨x, hx, k⟩ := k
  exact ⟨x, h.told.subset hx, k⟩
theorem queue?_fixed (s : State) (q : Nat) : (s.queue? q).map Queue.fixed = (s.basin.queues.map Queue.fixed).find? (fun x => x.num == q) := by
  rw [List.find?_map]
  rfl
/-- A queue is still there, with all that is fixed of it. -/
theorem steered_queue (h : steered s t) {q : Nat} {x : Queue} (hx : s.queue? q = some x) : ∃ y, t.queue? q = some y ∧ y.fixed = x.fixed := by
  have e := queue?_fixed t q
  rw [h.queues, ← queue?_fixed s q, hx] at e
  exact Option.map_eq_some_iff.mp e
theorem steered_queue_none (h : steered s t) {q : Nat} (hx : s.queue? q = none) : t.queue? q = none := by
  have e := queue?_fixed t q
  rw [h.queues, ← queue?_fixed s q, hx] at e
  exact Option.map_eq_none_iff.mp e

end

/-! ### The operations -/

section
variable (s : State)

theorem State.modPort_steered (p : Fin 16) (f : Port → Port) : steered s (s.modPort p f) := ⟨rfl, List.prefix_rfl, rfl, rfl, rfl⟩
theorem State.modTickets_steered (f : List Ticket → List Ticket) : steered s (s.modTickets f) := ⟨rfl, List.prefix_rfl, rfl, rfl, rfl⟩
theorem State.modTicket_steered (i : Nat) (f : Ticket → Ticket) : steered s (s.modTicket i f) := s.modTickets_steered _
theorem State.stage_steered (i k : Nat) : steered s (s.stage i k) := s.modTickets_steered _
theorem State.tally_steered (y : Tally) : steered s { s with tally := y } := ⟨rfl, List.prefix_rfl, rfl, rfl, rfl⟩
theorem State.pushCtrl_steered (k : Nat) (x : Bool) (q : Nat) (n : Seq16) : steered s (s.pushCtrl k x q n) := ⟨rfl, List.prefix_rfl, rfl, rfl, rfl⟩
theorem State.modQueue_steered (q : Nat) {f : Queue → Queue} (hf : ∀ x, (f x).fixed = x.fixed := by intro x; rfl) :
    steered s (s.modQueue q f) := by
  refine ⟨rfl, List.prefix_rfl, rfl, rfl, ?_⟩
  show (s.basin.queues.map _).map _ = _
  rw [List.map_map]
  refine List.map_congr_left fun x _ => ?_
  show Queue.fixed (if x.num == q then f x else x) = _
  split
  · exact hf x
  · rfl
theorem State.count_steered (b k n : Nat) : steered s (s.count b k n) :=
  ⟨s.count_side b k n, by rw [State.count_ring], by rw [State.count_basin], by rw [State.count_basin], by rw [State.count_basin]⟩
theorem State.raise_steered (c b v : Nat) (w x y z : Word) : steered s (s.raise c b v w x y z) := by
  obtain ⟨l, hl, -⟩ := s.raise_heard c b v w x y z
  exact ⟨s.raise_side .., ⟨l, hl.symm⟩, by rw [State.raise_basin], by rw [State.raise_basin], by rw [State.raise_basin]⟩

/-! #### Gates, the hop cap and QFLOW (R214, R250, R268) -/

theorem State.gateOne_steered (p : Fin 16) (k : Nat) (c : Custody) : steered s (s.gateOne p k c) :=
  steered_ite (s.modPort_steered p _) (steered_ite (s.modPort_steered p _) (steered_refl s))
theorem State.gateSync_steered (p : Fin 16) : steered s (s.gateSync p) := by
  unfold State.gateSync
  split
  · exact steered_trans (s.gateOne_steered p _ _) (steered_trans (State.gateOne_steered _ p _ _) (State.gateOne_steered _ p _ _))
  · exact steered_refl s
theorem State.hopSync_steered : steered s s.hopSync := by
  have h (x : Option Nat) : steered s { s with basin := { s.basin with hopGate := x } } := ⟨rfl, List.prefix_rfl, rfl, rfl, rfl⟩
  unfold State.hopSync
  dsimp only
  split
  · exact steered_ite (h _) (steered_refl s)
  · exact steered_ite (h _) (steered_refl s)
theorem State.qflowSync_steered (q : Nat) : steered s (s.qflowSync q) := by
  have h (x b : Bool) : steered s ((s.pushCtrl 4 x q 0).modQueue q (fun y => { y with qflow := b })) :=
    steered_trans (s.pushCtrl_steered 4 x q 0) (State.modQueue_steered _ q)
  unfold State.qflowSync
  split
  · exact steered_refl s
  · exact steered_ite (steered_refl s) (steered_ite (h _ _) (steered_ite (h _ _) (steered_refl s)))
theorem State.flowSync_steered (q : Nat) : steered s (s.flowSync q) :=
  steered_trans (s.gateSync_steered _) (steered_trans (State.hopSync_steered _) (State.qflowSync_steered _ q))
theorem State.lineOne_steered (p : Fin 16) (b : Bool) : steered s (s.lineOne p b) := by
  have h (x : BitVec 32) : steered s { s with basin := { s.basin with lineShort := x } } := ⟨rfl, List.prefix_rfl, rfl, rfl, rfl⟩
  exact steered_ite (steered_trans (h _) (State.raise_steered ..)) (h _)
theorem State.lineSync_steered (p : Fin 16) : steered s (s.lineSync p) := steered_trans (s.lineOne_steered p _) (State.lineOne_steered _ p _)
theorem State.relSync_steered (p : Fin 16) : steered s (s.relSync p) := steered_ite (steered_refl s) (s.modPort_steered p _)

/-! #### Notices to the host (R248, R266) -/

theorem State.announce_steered (q : Queue) (n : Nat) : steered s (s.announce q n) := steered_ite (s.pushCtrl_steered ..) (steered_refl s)
theorem State.sendRelease_steered (q : Nat) : steered s (s.sendRelease q) := by
  unfold State.sendRelease
  split
  · exact steered_refl s
  · exact steered_ite (steered_refl s) (steered_ite (s.modQueue_steered q)
      (steered_trans (s.pushCtrl_steered ..) (State.modQueue_steered _ q)))
theorem State.resendFrom_steered (q : Nat) : steered s (s.resendFrom q) := by
  unfold State.resendFrom
  split
  · exact steered_refl s
  · exact steered_ite (steered_trans (s.pushCtrl_steered ..) (State.modQueue_steered _ q)) (steered_refl s)

/-! #### Tickets (R230, R409) -/

theorem State.logTicket_steered (t : Ticket) (d : Bool) : steered s (s.logTicket t d) := by
  unfold State.logTicket
  split
  · exact steered_refl s
  · have h (y : Tally) := steered_trans (s.tally_steered y) (State.count_steered _ 4 3 1)
    exact steered_ite (steered_refl s) (steered_ite (steered_trans (h _) (steered_trans (State.tally_steered _ _) (State.raise_steered ..))) (h _))
theorem State.freeTicket_steered (i : Nat) (d : Bool) : steered s (s.freeTicket i d) := by
  unfold State.freeTicket
  split
  · exact steered_refl s
  · exact steered_trans (s.modTickets_steered _) (steered_trans (State.logTicket_steered _ _ d)
      (steered_trans (State.count_steered _ 3 1 1) (State.flowSync_steered _ _)))
theorem State.freeAll_steered (l : List Nat) (d : Bool) : steered s (s.freeAll l d) := steered_foldl l _ (fun t i => t.freeTicket_steered i d) s
theorem State.rehome_steered (l : Nat) (x : Ticket) : steered s (s.rehome l x) := steered_ite (steered_refl s) (s.modTicket_steered ..)

/-! #### Moves (R245 to R247) -/

theorem State.startMove_steered (q : Nat) (n : Fin 8) : steered s (s.startMove q n) := by
  unfold State.startMove
  split
  · exact steered_refl s
  · exact steered_ite (steered_refl s) (steered_ite (steered_trans (s.modQueue_steered q) (State.announce_steered ..))
      (steered_ite (s.modQueue_steered q) (s.modQueue_steered q)))
theorem State.applyPlan_steered (q : Nat) (pl : Plan) : steered s (s.applyPlan q pl) := by
  unfold State.applyPlan
  split
  · exact steered_trans (s.startMove_steered ..) (State.startMove_steered ..)
  · exact s.startMove_steered ..
theorem State.restartOn_steered (q : Nat) (n : Option (Fin 8)) : steered s (s.restartOn q n) := by
  unfold State.restartOn
  split
  · exact steered_refl s
  · next x _ =>
    dsimp only
    have h (f : Queue → Queue) (g : List Ticket → List Ticket) (hf : ∀ x, (f x).fixed = x.fixed) :
        steered s (if x.cls == .none then s.modQueue q f else (s.modQueue q f).modTickets g) :=
      steered_ite (s.modQueue_steered q hf) (steered_trans (s.modQueue_steered q hf) (State.modTickets_steered ..))
    split
    · exact steered_trans (h _ _ (by intro x; rfl)) (State.announce_steered ..)
    · exact h _ _ (by intro x; rfl)
theorem State.retarget_steered (q : Nat) (n : Option (Fin 8)) : steered s (s.retarget q n) := s.modQueue_steered q
theorem State.endMove_steered (q : Nat) : steered s (s.endMove q) := s.modQueue_steered q fun x => by split <;> rfl

/-! #### Demotion and re-admission (R238 to R240) -/

theorem State.demote_steered (q n : Nat) : steered s (s.demote q n) := by
  unfold State.demote
  exact steered_trans (s.modQueue_steered q) (steered_trans (State.raise_steered ..) (steered_trans (State.count_steered ..) (State.flowSync_steered ..)))
theorem State.shrink_steered (n : Nat) : steered s (State.shrink n s) := by
  induction n generalizing s with
  | zero => exact steered_refl s
  | succ n ih =>
    unfold State.shrink
    split
    · exact steered_trans (s.demote_steered _ _) (ih _)
    · exact steered_refl s
theorem State.shrinkAll_steered : steered s s.shrinkAll := s.shrink_steered _
theorem State.replaceStreams_steered (n : Nat) (l : List Nat) {go : State → Nat → Option (Fin 8) → State} (h : ∀ t q m, steered t (go t q m)) :
    steered s (State.replaceStreams n s l go) := by
  induction n generalizing s with
  | zero => exact steered_refl s
  | succ n ih =>
    unfold State.replaceStreams
    dsimp only
    split
    · exact steered_trans (steered_foldl _ _ (fun t e => h t _ _) s) (steered_foldl _ _ (fun t q => h t _ _) _)
    · split
      · exact steered_trans (s.demote_steered _ _) (ih _)
      · exact steered_refl s
theorem State.replaceAll_steered (l : List Nat) {go : State → Nat → Option (Fin 8) → State} (h : ∀ t q m, steered t (go t q m)) :
    steered s (s.replaceAll l go) := s.replaceStreams_steered _ l h
theorem State.restoreGo_steered (n : Nat) : steered s (State.restoreGo n s) := by
  induction n generalizing s with
  | zero => exact steered_refl s
  | succ n ih =>
    unfold State.restoreGo
    split
    · exact steered_refl s
    · dsimp only
      split
      · exact steered_refl s
      · exact steered_trans (s.modQueue_steered _) (steered_trans (State.applyPlan_steered ..)
          (steered_trans (State.raise_steered ..) (steered_trans (State.flowSync_steered ..) (ih _))))
theorem State.restore_steered : steered s s.restore := s.restoreGo_steered _

end

end Sys2Proof.Machine
end

section
/-! PROOFS. Lanes that start, are lost and are paused (R245, R267, R269 to R271). -/

namespace Sys2Proof.Machine

section
variable {s : State} {n : Fin 8} (hc : s.clocked = true)
include hc

/-- A lane event without effect. -/
theorem lane_idles {c : Instr} {t : State} (he : exec c s = s.runs t) (e : t = s) : Does c s (fun t => t.lane n = s.lane n ∧ t.basin = s.basin) := by
  rw [e] at he
  exact runs_does hc he ⟨settle_lane s s n, settle_basin s s⟩

/-! ### Start (R269) -/

theorem laneUp_ready (h : s.laneReady n = true) : Does (.laneUp n) s (fun t => (t.lane n).state = .up ∧ (t.lane n).amLock = true
    ∧ (t.lane n).blockLock = true ∧ (t.lane n).paused = none) := by
  have e : s.laneUp n = s.raiseLane n := if_pos h
  refine runs_does hc (congrArg s.runs e) ?_
  unfold State.raiseLane
  rw [settle_lane, steered_lane (State.restore_steered _), State.lane_modLane_same]
  exact ⟨rfl, rfl, rfl, rfl⟩

theorem laneUp_notReady (h : s.laneReady n = false) : Does (.laneUp n) s (fun t => t.lane n = s.lane n ∧ t.basin = s.basin) :=
  lane_idles hc rfl (if_neg (by rw [h]; decide))

theorem laneStartRetry_restarts (hb : bit (s.laneReg n.val 0) 0 = true) (hl : (s.lane n).state = .starting ∨ (s.lane n).state = .lost) :
    Does (.laneStartRetry n) s (fun t => t.lane n = (s.lane n).restart (s.lane n).state) := by
  have e : s.laneRetry n = s.modLane n (fun l => l.restart l.state) := if_pos (by rw [hb]; rcases hl with h | h <;> rw [h] <;> rfl)
  refine runs_does hc (congrArg s.runs e) ?_
  rw [settle_lane, State.lane_modLane_same]

/-! ### Loss (R245, R270, R271) -/

omit hc in
/-- The lane itself of one that is lost, and the event; its streams follow. -/
theorem State.loseLane_up (hl : (s.lane n).state = .up) (c : Nat) : steered ((s.modLane n (fun l =>
      { l.restart (if bit (s.laneReg n.val 0) 0 then .lost else .off) with cause := c, sendRf := true })).raise 0x0023 (laneBlock n.val) n.val (wd c))
    (s.loseLane n c) := by
  unfold State.loseLane
  dsimp only
  rw [if_neg (not_not.mpr hl)]
  refine steered_trans (steered_foldl _ _ (fun t q => ?_) _) (steered_trans (State.replaceAll_steered _ _ State.restartOn_steered)
    (State.replaceAll_steered _ _ State.retarget_steered))
  split
  · exact t.restartOn_steered _ _
  · exact steered_refl t

theorem loseLane_does {i : Instr} (c : Nat) (he : exec i s = s.runs (s.loseLane n c)) (hl : (s.lane n).state = .up) :
    Does i s (fun t => (t.lane n).state = (if bit (s.laneReg n.val 0) 0 then .lost else .off) ∧ (t.lane n).cause = c
      ∧ (t.lane n).sendRf = true ∧ (s.ringRoom → t.noted 0x0023 n.val (wd c)) ∧ ∀ m ≠ n, t.lane m = s.lane m) := by
  have h := State.loseLane_up hl c
  refine runs_does hc he ?_
  rw [settle_lane, steered_lane h, State.raise_lane, State.lane_modLane_same]
  refine ⟨rfl, rfl, rfl, fun hr => ?_, fun m hm => ?_⟩
  case refine_2 => rw [settle_lane, steered_lane h, State.raise_lane, State.lane_modLane_ne s hm]
  exact noted_ring (steered_noted h (State.raise_noted _ _ _ _ _ _ _ _ hr)) (settle_ring _ _)

theorem laneLoss_up (hl : (s.lane n).state = .up) {c : Fin 7} (h : c ≠ 0) : Does (.laneLoss n c) s (fun t =>
    (t.lane n).state = (if bit (s.laneReg n.val 0) 0 then .lost else .off) ∧ (t.lane n).cause = c.val
      ∧ (t.lane n).sendRf = true ∧ (s.ringRoom → t.noted 0x0023 n.val (wd c.val)) ∧ ∀ m ≠ n, t.lane m = s.lane m) :=
  loseLane_does hc c.val (congrArg s.runs (if_pos ⟨hl, h⟩)) hl

theorem laneLoss_notUp (hl : (s.lane n).state ≠ .up) (c : Fin 7) : Does (.laneLoss n c) s (fun t => t.lane n = s.lane n ∧ t.basin = s.basin) :=
  lane_idles hc rfl (if_neg fun h => hl h.1)

/-! ### Pause (R267) -/

theorem pauseStuck_paused (hl : (s.lane n).state = .up) (hp : (s.lane n).paused ≠ none) : Does (.pauseStuck n) s (fun t =>
    (t.lane n).state = (if bit (s.laneReg n.val 0) 0 then .lost else .off) ∧ (t.lane n).cause = 5 ∧ (s.ringRoom → t.noted 0x0023 n.val 5)) := by
  have e : s.pausedLong n = s.loseLane n 5 := if_pos ⟨hl, Option.isSome_iff_ne_none.mpr hp⟩
  obtain ⟨t, ht, h1, h2, -, h3, -⟩ := loseLane_does (i := .pauseStuck n) hc 5 (congrArg s.runs e) hl
  exact ⟨t, ht, h1, h2, h3⟩

theorem pauseStuck_unpaused (hp : (s.lane n).paused = none) : Does (.pauseStuck n) s (fun t => t.lane n = s.lane n) := by
  have e : s.pausedLong n = s := if_neg (by rw [hp]; exact fun h => absurd h.2 (by decide))
  exact runs_does hc (congrArg s.runs e) (settle_lane s s n)

theorem pauseFrame_on (hl : (s.lane n).state = .up) (hb : bit (s.laneReg n.val 0) 8 = true) (v : BitVec 16) : Does (.pauseFrame n v) s (fun t =>
    (v = 0 → (t.lane n).paused = none) ∧ (v ≠ 0 → (s.lane n).paused = none → (t.lane n).paused = some s.ticks)
      ∧ (∀ k, v ≠ 0 → (s.lane n).paused = some k → (t.lane n).paused = some k)) := by
  refine runs_does hc (congrArg s.runs (if_pos ⟨hl, hb⟩)) ?_
  rw [settle_lane, State.lane_modLane_same]
  refine ⟨fun h => if_pos h, fun h hp => ?_, fun k h hp => ?_⟩
  · dsimp only
    rw [if_neg h, hp]
  · dsimp only
    rw [if_neg h, hp]

theorem pauseFrame_off (hb : bit (s.laneReg n.val 0) 8 = false) (v : BitVec 16) : Does (.pauseFrame n v) s (fun t => t.lane n = s.lane n) := by
  have e : s.pauseHeard n v = s := if_neg (by rw [hb]; exact fun h => absurd h.2 (by decide))
  exact runs_does hc (congrArg s.runs e) (settle_lane s s n)

theorem pauseExpiry_does : Does (.pauseExpiry n) s (fun t => t.lane n = { s.lane n with paused := none }) := by
  refine runs_does hc rfl ?_
  rw [settle_lane]
  exact State.lane_modLane_same ..

end

end Sys2Proof.Machine
end

section
/-! PROOFS. Moves and rebalancing (R246, R247), the scrubber and the repair of banks (R228, R229, R411, R427), and with them lanes and
basin. -/

namespace Sys2Proof.Machine

/-! ### Queues and banks after a change -/

theorem State.queue?_modQueue (s : State) {q : Nat} {x : Queue} (hx : s.queue? q = some x) {f : Queue → Queue} (hf : ∀ y, (f y).num = y.num) :
    (s.modQueue q f).queue? q = some (f x) := by
  have hn := List.find?_some hx
  show (s.basin.queues.map _).find? _ = _
  rw [List.find?_map]
  have hp : ((fun y : Queue => y.num == q) ∘ fun y => if y.num == q then f y else y) = fun y => y.num == q := by
    funext y
    simp only [Function.comp_apply]
    split
    · rw [hf]
    · rfl
  rw [hp, show s.basin.queues.find? (fun y => y.num == q) = some x from hx, Option.map_some, if_pos hn]

/-- A move that ends leaves the queue on its new lane. -/
theorem State.queue?_endMove (s : State) {q : Nat} {x : Queue} (hx : s.queue? q = some x) {m : MoveRec} (hm : x.move = some m) :
    (s.endMove q).queue? q = some { x with lane := some m.dest, move := none } := by
  unfold State.endMove
  rw [State.queue?_modQueue s hx (by intro y; split <;> rfl), hm]
theorem settle_queue? (old s : State) (q : Nat) : (settle old s).queue? q = s.queue? q := by
  unfold State.queue?
  rw [settle_basin]
theorem settle_bank (old s : State) (b : Fin 68) : (settle old s).bank b = s.bank b := by
  unfold State.bank
  rw [settle_basin]

theorem State.bank_setBank_same (s : State) (b : Fin 68) (u : BankUse) : (s.setBank b u).bank b = u := vec_get_set_same _ _ _
theorem State.bank_setBank_ne (s : State) {b c : Fin 68} (h : c ≠ b) (u : BankUse) : (s.setBank b u).bank c = s.bank c := vec_get_set_ne _ h _

theorem State.raise_bank (s : State) (c v w : Nat) (e0 e1 e2 e3 : Word) (b : Fin 68) : (s.raise c v w e0 e1 e2 e3).bank b = s.bank b := by
  unfold State.bank
  rw [State.raise_basin]

/-- An event raised while the ring has room is its last record, arguments and all. -/
theorem State.raise_last {s : State} (h : s.ringRoom) (c b v : Nat) (w x y z : Word) :
    (s.raise c b v w x y z).ring.untaken.getLast? = some (s.record c b v w x y z) := by
  rw [State.raise_ring]
  unfold EventRing.push
  unfold State.ringRoom at h
  rw [if_pos h, List.getLast?_concat]

section
variable {s : State} (hc : s.clocked = true)
include hc

theorem basin_idles {c : Instr} {t : State} (he : exec c s = s.runs t) (e : t = s) : Does c s (fun t => t.basin = s.basin) := by
  rw [e] at he
  exact runs_does hc he (settle_basin s s)

/-! ### Moves (R246, R247) -/

section
variable {q : Fin 4096} {x : Queue} (hq : s.queue? q.val = some x)
include hq

theorem moveLaneStart_marked {m : MoveRec} {k : Seq16} (hm : x.move = some m) (hk : m.marker = some k) :
    Does (.moveLaneStart q) s (fun t => t.queue? q.val = some { x with lane := some m.dest, move := none }) := by
  have e : s.moveStarts q.val = s.endMove q.val := by
    unfold State.moveStarts
    rw [hq]
    dsimp only
    rw [hm]
    exact if_pos (by rw [Option.bind_some, hk]; rfl)
  refine runs_does hc (congrArg s.runs e) ?_
  rw [settle_queue?, State.queue?_endMove s hq hm]

theorem moveLaneStart_unmarked (h : ∀ m k, x.move = some m → m.marker ≠ some k) : Does (.moveLaneStart q) s (fun t => t.basin = s.basin) := by
  refine basin_idles hc rfl ?_
  unfold State.moveStarts
  rw [hq]
  dsimp only
  refine if_neg ?_
  rw [Option.isSome_iff_exists]
  intro ⟨k, hk⟩
  obtain ⟨m, hm, hk⟩ := Option.bind_eq_some_iff.mp hk
  exact h m k hm hk

end

omit hc in
/-- A queue that stands on a lane waits for its marker (R247). -/
theorem State.startMove_inbound {q : Nat} {n : Fin 8} {x : Queue} {k : Nat} (hx : s.queue? q = some x) (ho : x.outbound = false) (hm : x.move = none)
    (hl : x.lane = some k) (hk : k ≠ n.val) :
    s.startMove q n = s.modQueue q (fun y => { y with move := some ⟨n.val, none⟩, movedAt := some s.ticks }) := by
  have hne : x.lane ≠ some n.val := by rw [hl]; exact fun h => hk (Option.some.inj h)
  have hp : x.placed ≠ some n.val := by
    unfold Queue.placed
    rw [hm]
    exact hne
  unfold State.startMove
  rw [hx]
  dsimp only
  rw [if_neg hp, if_neg (by rw [ho, hl]; exact Bool.false_ne_true), if_neg hne, hm]
  rfl

section
variable (hb : bit (s.act (regKey 3 0x20)) 1 = true) (hs : s.safeBlock 3 = false)
include hb hs

theorem rebalanceCheck_moves {q : Nat} {n : Fin 8} {x : Queue} {k : Nat} (hr : s.rebalanceMove false = some (q, n)) (hx : s.queue? q = some x)
    (ho : x.outbound = false) (hm : x.move = none) (hl : x.lane = some k) (hk : k ≠ n.val) :
    Does .rebalanceCheck s (fun t => t.queue? q = some { x with move := some ⟨n.val, none⟩, movedAt := some s.ticks }) := by
  have e : s.rebalanceDue = s.startMove q n := by
    refine (if_pos hb).trans ((if_neg (by rw [hs]; decide)).trans ?_)
    rw [hr]
  refine runs_does hc (congrArg s.runs e) ?_
  rw [settle_queue?, State.startMove_inbound hx ho hm hl hk, State.queue?_modQueue s hx (by intro y; rfl)]

theorem rebalanceCheck_still (h1 : s.rebalanceMove false = none) (h2 : s.rebalanceMove true = none) :
    Does .rebalanceCheck s (fun t => t.basin = s.basin) := by
  refine basin_idles hc rfl ((if_pos hb).trans ((if_neg (by rw [hs]; decide)).trans ?_))
  rw [h1, h2]

end

theorem rebalanceCheck_disabled (hb : bit (s.act (regKey 3 0x20)) 1 = false) : Does .rebalanceCheck s (fun t => t.basin = s.basin) :=
  basin_idles hc rfl (if_neg (by rw [hb]; decide))

end

/-! ### Banks (R228, R229) -/

/-- What the repair of a bank leaves: the tickets and the counts of errors. -/
def State.stock (s : State) : List Ticket × Nat × Nat := (s.basin.tickets, s.basin.corrNow, s.basin.uncorr)

section
variable (s : State)

theorem State.test_stock (x : SelfTest) : State.stock { s with test := x } = s.stock := rfl
theorem State.dropRotation_stock : s.dropRotation.stock = s.stock := by
  unfold State.dropRotation
  split
  · refine ite_keep State.stock rfl ((State.test_stock _ _).trans (foldl_keep State.stock _ _ _ fun t b => ?_))
    split
    · refine ite_keep State.stock ((foldl_keep State.stock _ _ _ fun y c => ?_).trans ?_) rfl
      · exact ite_keep State.stock rfl rfl
      · rfl
    · rfl
  · rfl
theorem State.repairBank_stock (b : Fin 68) : (s.repairBank b).stock = s.stock := by
  have h (t : State) (b : Fin 68) (l : Nat) (ht : t.stock = s.stock) : (match t.lowestSpare with
      | some k => (t.setBank b (.copying k.val l)).setBank k (.receiving l)
      | none => (t.setBank b (.migrating l)).raise 0x0024 3 0 (wd l) 1).stock = s.stock := by
    split
    · exact ht
    · refine Eq.trans ?_ ht
      unfold State.stock
      rw [State.raise_basin]
      rfl
  unfold State.repairBank
  split
  · exact h _ _ _ s.dropRotation_stock
  · exact ite_keep State.stock (h _ _ _ s.dropRotation_stock) rfl
  · rfl

variable {s}

theorem State.dropRotation_none (ht : s.test.bank = none) : s.dropRotation = s := by
  unfold State.dropRotation
  rw [ht]
theorem State.repairBank_copies {b k : Fin 68} {l : Nat} (hb : s.bank b = .inService l) (ht : s.test.bank = none) (hk : s.lowestSpare = some k) :
    s.repairBank b = (s.setBank b (.copying k.val l)).setBank k (.receiving l) := by
  unfold State.repairBank
  rw [hb]
  dsimp only
  rw [State.dropRotation_none ht, hk]
theorem State.repairBank_retires {b : Fin 68} {l : Nat} (hb : s.bank b = .inService l) (ht : s.test.bank = none) (hk : s.lowestSpare = none) :
    s.repairBank b = (s.setBank b (.migrating l)).raise 0x0024 3 0 (wd l) 1 := by
  unfold State.repairBank
  rw [hb]
  dsimp only
  rw [State.dropRotation_none ht, hk]
theorem State.lowestSpare_spare {k : Fin 68} (h : s.lowestSpare = some k) : s.bank k = .spare := by
  simpa using List.find?_some h

end

/-! ### The scrubber (R228, R427) -/

/-- What the scrubber records before a repair: the counts, and the frame that it found damaged. -/
def State.scrubbed (s : State) (b : Fin 68) (c u : Nat) (hit : Option (Fin 4096 × Seq16)) : State :=
  let t := (s.count 3 4 c).count 3 5 u
  let t := { t with basin := { t.basin with
    corrNow := satAdd 0xFFFF t.basin.corrNow c, uncorr := satAdd 0xFFFF t.basin.uncorr u
    corrList := s.basin.corrList.filter (fun e => decide (s.ticks < e.2 + secTicks 1)) ++ List.replicate (min 17 c) (b.val, s.ticks) } }
  match hit with
  | some (q, seq) => if u = 0 then t else t.modTickets (List.map (fun (x : Ticket) =>
      if x.queue = q.val ∧ x.seq = seq ∧ x.state ≠ .filling then { x with corrupt := true } else x))
  | none => t

section
variable {s : State} (b : Fin 68) (c u : Nat) (hit : Option (Fin 4096 × Seq16))

theorem State.scrubbed_counts : (s.scrubbed b c u hit).basin.corrNow = satAdd 0xFFFF s.basin.corrNow c
    ∧ (s.scrubbed b c u hit).basin.uncorr = satAdd 0xFFFF s.basin.uncorr u := by
  unfold State.scrubbed
  dsimp only
  split
  · split <;> exact ⟨by simp [State.modTickets], by simp [State.modTickets]⟩
  · exact ⟨by simp, by simp⟩
theorem State.scrubbed_kept : (s.scrubbed b c u hit).basin.banks = s.basin.banks ∧ (s.scrubbed b c u hit).test = s.test
    ∧ (s.scrubbed b c u hit).ring = s.ring := by
  unfold State.scrubbed
  dsimp only
  split
  · split <;> exact ⟨by simp [State.modTickets], by simp [State.modTickets], by simp [State.modTickets]⟩
  · exact ⟨by simp, by simp, by simp⟩
theorem State.scrubbed_marks {q : Fin 4096} {seq : Seq16} (hu : 0 < u) : ∀ x ∈ (s.scrubbed b c u (some (q, seq))).basin.tickets,
    x.queue = q.val → x.seq = seq → x.state ≠ .filling → x.corrupt = true := by
  intro x hx h1 h2 h3
  unfold State.scrubbed at hx
  dsimp only at hx
  rw [if_neg (Nat.ne_of_gt hu)] at hx
  obtain ⟨y, -, rfl⟩ := List.mem_map.mp hx
  by_cases hy : y.queue = q.val ∧ y.seq = seq ∧ y.state ≠ .filling
  · rw [if_pos hy]
  · rw [if_neg hy] at h1 h2 h3
    exact absurd ⟨h1, h2, h3⟩ hy

theorem State.scrub_eq (h : (s.bank b).logical ≠ none) : s.scrub b c u hit =
    if 0 < u ∨ 16 < (s.scrubbed b c u hit).basin.recent b.val s.ticks then (s.scrubbed b c u hit).repairBank b else s.scrubbed b c u hit :=
  if_neg (by rw [Option.isNone_iff_eq_none]; exact h)

theorem State.scrub_stock (h : (s.bank b).logical ≠ none) : (s.scrub b c u hit).stock = (s.scrubbed b c u hit).stock := by
  rw [State.scrub_eq b c u hit h]
  exact ite_keep State.stock (State.repairBank_stock _ b) rfl

section
variable (hc : s.clocked = true)
include hc

theorem basinScrub_unserved (h : (s.bank b).logical = none) : Does (.basinScrub b c u hit) s (fun t => t.basin = s.basin) :=
  basin_idles hc rfl (if_pos (by rw [h]; rfl))

theorem basinScrub_counts (h : (s.bank b).logical ≠ none) : Does (.basinScrub b c u hit) s (fun t => t.basin.corrNow = satAdd 0xFFFF s.basin.corrNow c
    ∧ t.basin.uncorr = satAdd 0xFFFF s.basin.uncorr u
    ∧ (∀ q seq, hit = some (q, seq) → 0 < u → ∀ x ∈ t.basin.tickets, x.queue = q.val → x.seq = seq → x.state ≠ .filling → x.corrupt = true)) := by
  have hk := State.scrub_stock b c u hit h
  obtain ⟨h1, h2⟩ := State.scrubbed_counts (s := s) b c u hit
  refine runs_does hc rfl ?_
  rw [settle_basin]
  refine ⟨(congrArg (fun x => x.2.1) hk).trans h1, (congrArg (fun x => x.2.2) hk).trans h2, ?_⟩
  intro q seq hh hu
  rw [show (s.scrub b c u hit).basin.tickets = _ from congrArg Prod.fst hk, hh]
  exact State.scrubbed_marks b c u hu

section
variable {l : Nat} (hb : s.bank b = .inService l) (hu : 0 < u) (ht : s.test.bank = none)
include hb hu ht

omit hc in
/-- An uncorrectable error asks for the repair of its bank. -/
theorem State.scrub_repairs : ∃ t : State, s.scrub b c u hit = t.repairBank b ∧ t.bank b = .inService l ∧ t.test.bank = none
    ∧ t.lowestSpare = s.lowestSpare ∧ t.ring = s.ring := by
  obtain ⟨h1, h2, h3⟩ := State.scrubbed_kept (s := s) b c u hit
  have hk (k : Fin 68) : (s.scrubbed b c u hit).bank k = s.bank k := congrArg (fun v => v.get k) h1
  refine ⟨_, (State.scrub_eq b c u hit (by rw [hb]; nofun)).trans (if_pos (.inl hu)), (hk b).trans hb, by rw [h2, ht], ?_, h3⟩
  unfold State.lowestSpare
  simp only [hk]

theorem basinScrub_copies {k : Fin 68} (hk : s.lowestSpare = some k) :
    Does (.basinScrub b c u hit) s (fun t => t.bank b = .copying k.val l ∧ t.bank k = .receiving l) := by
  obtain ⟨t, e, h1, h2, h3, -⟩ := State.scrub_repairs b c u hit hb hu ht
  have hne : b ≠ k := by
    rintro rfl
    rw [State.lowestSpare_spare hk] at hb
    cases hb
  rw [State.repairBank_copies h1 h2 (h3.trans hk)] at e
  refine runs_does hc (congrArg s.runs e) ?_
  rw [settle_bank, settle_bank]
  exact ⟨(State.bank_setBank_ne _ hne _).trans (State.bank_setBank_same _ _ _), State.bank_setBank_same _ _ _⟩

theorem basinScrub_retires (hk : s.lowestSpare = none) : Does (.basinScrub b c u hit) s (fun t => t.bank b = .migrating l
    ∧ (s.ringRoom → ∃ e, t.ring.untaken.getLast? = some e ∧ e.code = 0x0024 ∧ e.e0 = wd l ∧ e.e1 = 1)) := by
  obtain ⟨t, e, h1, h2, h3, h4⟩ := State.scrub_repairs b c u hit hb hu ht
  rw [State.repairBank_retires h1 h2 (h3.trans hk)] at e
  refine runs_does hc (congrArg s.runs e) ⟨?_, fun hr => ?_⟩
  · rw [settle_bank, State.raise_bank]
    exact State.bank_setBank_same _ _ _
  · rw [settle_ring]
    exact ⟨_, State.raise_last (by unfold State.ringRoom at hr ⊢; rw [← h4] at hr; exact hr) .., rfl, rfl, rfl⟩

end
end
end

/-! ### A copy that ends, and a retired bank (R228, R229, R411) -/

/-- A bank of a number put to a use, as a finished copy finds it. -/
def State.putBank (s : State) (k : Nat) (u : BankUse) : State := (List.finRange 68).foldl (fun (t : State) c => if c.val = k then t.setBank c u else t) s

section
variable (s : State)

theorem State.putBank_bank (k c : Fin 68) (u : BankUse) : (s.putBank k.val u).bank c = if c = k then u else s.bank c := by
  have step (s : State) (a : Fin 68) : (if a.val = k.val then s.setBank a u else s).bank c = if c = a ∧ c = k then u else s.bank c := by
    by_cases ha : a = k
    · subst ha
      by_cases hc : c = a
      · rw [if_pos rfl, if_pos ⟨hc, hc⟩, hc, State.bank_setBank_same]
      · rw [if_pos rfl, if_neg fun h => hc h.1, State.bank_setBank_ne s hc]
    · rw [if_neg fun h => ha (Fin.ext h), if_neg fun h => ha (h.1.symm.trans h.2)]
  have fold (l : List (Fin 68)) (s : State) : (l.foldl (fun (t : State) c => if c.val = k.val then t.setBank c u else t) s).bank c
      = if c ∈ l ∧ c = k then u else s.bank c := by
    induction l generalizing s with
    | nil => simp
    | cons a l ih =>
      rw [List.foldl_cons, ih, step]
      by_cases hk : c = k
      · subst hk
        by_cases hc : c ∈ l <;> simp [hc]
      · simp [hk]
  rw [State.putBank, fold]
  simp [List.mem_finRange]
theorem State.putBank_test (k : Nat) (u : BankUse) : (s.putBank k u).test = s.test := foldl_keep State.test _ _ _ fun _ _ => ite_keep State.test rfl rfl
theorem State.putBank_ring (k : Nat) (u : BankUse) : (s.putBank k u).ring = s.ring := foldl_keep State.ring _ _ _ fun _ _ => ite_keep State.ring rfl rfl
theorem State.putBank_reg (k : Nat) (u : BankUse) (r : Nat) : (s.putBank k u).reg r = s.reg r :=
  foldl_keep (State.reg · r) _ _ _ fun _ _ => ite_keep (State.reg · r) rfl rfl

end

section
variable {s : State} {b k : Fin 68} {l : Nat} (hc : s.clocked = true)
include hc

section
variable (hb : s.bank b = .copying k.val l) (hk : k ≠ b)
include hb hk

theorem bankCopyDone_repaired (ht : s.test.bank ≠ some b.val) (hw : s.test.waiting = false) : Does (.bankCopyDone b) s (fun t =>
    t.bank k = .inService l ∧ t.bank b = (if s.bankHeldOff b then .forcedOff else .failed)
      ∧ (s.ringRoom → ∃ e, t.ring.untaken.getLast? = some e ∧ e.code = 0x0024 ∧ e.e0 = wd l ∧ e.e1 = 0)) := by
  have e : s.copyDone b = ((s.putBank k.val (.inService l)).setBank b (if s.bankHeldOff b then .forcedOff else .failed)).raise 0x0024 3 0 (wd l) 0 := by
    unfold State.copyDone
    rw [hb]
    dsimp only
    rw [if_neg ht]
    refine Eq.trans (if_neg ?_) ?_
    · rw [State.raise_test]
      show ¬ ((s.putBank k.val (.inService l)).test.waiting && _) = true
      rw [State.putBank_test, hw]
      exact Bool.false_ne_true
    · unfold State.bankHeldOff
      rw [← State.putBank_reg s k.val (.inService l)]
      rfl
  refine runs_does hc (congrArg s.runs e) ?_
  rw [settle_bank, settle_bank, settle_ring, State.raise_bank, State.raise_bank]
  refine ⟨(State.bank_setBank_ne _ hk _).trans ((State.putBank_bank s k k _).trans (if_pos rfl)), State.bank_setBank_same _ _ _, fun hr => ?_⟩
  exact ⟨_, State.raise_last (by show (s.putBank _ _).ring.untaken.length < 256; rw [State.putBank_ring]; exact hr) .., rfl, rfl, rfl⟩

theorem bankCopyDone_tests (ht : s.test.bank = some b.val) : Does (.bankCopyDone b) s (fun t =>
    t.bank k = .inService l ∧ t.bank b = .underTest ∧ t.test.marching = true) := by
  have e : s.copyDone b = { (s.putBank k.val (.inService l)).setBank b .underTest with
      test := { ((s.putBank k.val (.inService l)).setBank b .underTest).test with marching := true } } := by
    unfold State.copyDone
    rw [hb]
    exact if_pos ht
  refine runs_does hc (congrArg s.runs e) ?_
  rw [settle_bank, settle_bank, settle_test]
  exact ⟨(State.bank_setBank_ne _ hk _).trans ((State.putBank_bank s k k _).trans (if_pos rfl)), State.bank_setBank_same _ _ _, rfl⟩

end

theorem cellMigrationDone_does (hb : s.bank b = .migrating l) :
    Does (.cellMigrationDone b) s (fun t => t.bank b = if s.bankHeldOff b then .forcedOff else .failed) := by
  refine runs_does hc rfl ?_
  rw [settle_bank]
  unfold State.migrated
  rw [hb]
  exact (steered_bank (State.shrinkAll_steered _) b).trans (State.bank_setBank_same _ _ _)

end

/-- Settles O55: lanes by their events, moves and rebalancing by the queue, banks by their use. -/
theorem lanesAndBasin : Obligations.LanesAndBasin := by
  unfold Obligations.LanesAndBasin
  intro s hc
  refine ⟨fun n => ⟨laneUp_ready hc, laneUp_notReady hc, laneStartRetry_restarts hc, fun hl => ⟨fun c h => laneLoss_up hc hl h, pauseStuck_paused hc hl,
      pauseStuck_unpaused hc, pauseFrame_on hc hl, pauseFrame_off hc⟩, laneLoss_notUp hc, pauseExpiry_does hc⟩,
    fun q x hq => ⟨fun m k => moveLaneStart_marked hc hq, moveLaneStart_unmarked hc hq⟩,
    fun hb hs => ⟨fun q n x k => rebalanceCheck_moves hc hb hs, rebalanceCheck_still hc hb hs⟩, rebalanceCheck_disabled hc,
    fun b c u hit => ⟨basinScrub_unserved b c u hit hc, basinScrub_counts b c u hit hc,
      fun l hb hu ht => ⟨fun k => basinScrub_copies b c u hit hc hb hu ht, basinScrub_retires b c u hit hc hb hu ht⟩,
      fun k l hb hk => bankCopyDone_repaired hc hb hk, fun k l hb hk => bankCopyDone_tests hc hb hk, fun l => cellMigrationDone_does hc⟩⟩

end Sys2Proof.Machine
end

section
/-! PROOFS. Frames that a host lane sends (R230, R242, R247, R259 to R266, R427): control entries, move markers and data frames. -/

namespace Sys2Proof.Machine

/-! ### Tickets and queues after a change -/

section
variable (s : State)

theorem State.ticket?_modTicket {id : Nat} {x : Ticket} (hx : s.ticket? id = some x) {f : Ticket → Ticket} (hf : ∀ y, (f y).id = y.id) :
    (s.modTicket id f).ticket? id = some (f x) := by
  have hn := List.find?_some hx
  show (s.basin.tickets.map _).find? _ = _
  rw [List.find?_map]
  have hp : ((fun y : Ticket => y.id == id) ∘ fun y => if y.id == id then f y else y) = fun y => y.id == id := by
    funext y
    simp only [Function.comp_apply]
    split
    · rw [hf]
    · rfl
  rw [hp, show s.basin.tickets.find? (fun y => y.id == id) = some x from hx, Option.map_some, if_pos hn]
theorem State.freeTicket_gone (id : Nat) (d : Bool) : (s.freeTicket id d).ticket? id = none := by
  unfold State.ticket?
  rw [State.freeTicket_tickets]
  exact List.find?_eq_none.mpr fun x hx => by simpa using (List.mem_filter.mp hx).2
theorem settle_ticket? (old : State) (id : Nat) : (settle old s).ticket? id = s.ticket? id := by
  unfold State.ticket?
  rw [settle_basin]
theorem State.relSync_basin (p : Fin 16) : (s.relSync p).basin = s.basin := ite_keep State.basin rfl rfl
theorem State.relSync_ticket? (p : Fin 16) (id : Nat) : (s.relSync p).ticket? id = s.ticket? id := by
  unfold State.ticket?
  rw [State.relSync_basin]
theorem State.queue?_count (b k n q : Nat) : (s.count b k n).queue? q = s.queue? q := by
  unfold State.queue?
  rw [State.count_basin]
theorem State.queue?_modLane (n : Fin 8) (f : Lane → Lane) (q : Nat) : (s.modLane n f).queue? q = s.queue? q := rfl
theorem queue?_num {s : State} {n : Nat} {q : Queue} (h : s.queue? n = some q) : q.num = n := by simpa using List.find?_some h

end

/-! ### What lane service sends (R242) -/

/-- The service that a lane gives once it has picked what to send. -/
def State.sendPick (s : State) (n : Fin 8) : Service → State
  | .ctrl k => s.sendCtrl n k
  | .resend id => s.sendData n id false
  | .marker q => s.sendMarker n q
  | .admitted id => s.sendData n id true
  | .excess id => s.sendData n id false
  | .idle => s

section
variable {s : State} {n : Fin 8}

theorem State.serveLane_up (hl : (s.lane n).state = .up) (hp : (s.lane n).paused = none) {v : Service} (hv : s.pickService n = v) :
    s.serveLane n = s.sendPick n v := by
  subst hv
  unfold State.serveLane
  dsimp only
  rw [if_neg (by rw [hl, hp]; decide)]
  rfl

theorem hostFrameSent_held (hc : s.clocked = true) (h : (s.lane n).state ≠ .up ∨ (s.lane n).paused ≠ none) :
    Does (.hostFrameSent n) s (fun t => t.lane n = s.lane n ∧ t.basin = s.basin) :=
  lane_idles hc rfl (if_pos (h.imp id Option.isSome_iff_ne_none.mpr))

/-! ### Data frames (R230, R259, R263, R427) -/

/-- The tag word of a ticket's frame (R259). -/
def Ticket.tag (x : Ticket) : TagWord :=
  { qid := BitVec.ofNat 12 x.queue, ctrl := false, resend := x.resend, rsnd := x.rsnd, move := false, seq := x.seq, ts := x.ts }

/-- A ticket y once the frame of x has left on a lane (R230, R408). -/
def Ticket.leaves (x : Ticket) (now : Word) (at_ : Nat) (y : Ticket) : Ticket :=
  { ((y.stage 4 now).stage 5 now).stage 6 now with
    state := .sent, resend := false, resent := x.resent || x.resend, late := x.late || decide (x.deadline < at_) }

/-- A queue y of a frame's class once that frame has left: its credit, and the receipt timer that runs (R242, R249). -/
def Ticket.charges (x : Ticket) (c : Custody) (credit : Bool) (at_ : Nat) (y : Queue) : Queue :=
  { y with
    credit := if credit then y.credit - (x.len * 80000 : Nat) else y.credit
    timer := if c == .none || x.corrupt then y.timer else match y.timer with | some k => some k | none => some at_ }

/-- A data frame on a lane, and counted. -/
def State.laneCarries (s : State) (n : Fin 8) (x : Ticket) : State :=
  ((((s.laneSend n ⟨x.tag, x.corrupt, wireFrame (s.laneForm n) x.tag x.bytes x.corrupt⟩ (!x.resend && !x.corrupt) x.len).count
    (laneBlock n.val) 0 1).count (laneBlock n.val) 7 (if x.resend then 1 else 0)).count (laneBlock n.val) 9
    (if x.corrupt then 1 else 0)).count 3 3 (if decide (x.deadline < s.ticks) && !x.late then 1 else 0)

/-- The state in which a data frame has left, before what follows for its ticket. -/
def State.sentOn (s : State) (n : Fin 8) (id : Nat) (x : Ticket) (q : Queue) (credit : Bool) : State :=
  (((s.laneCarries n x).modTicket id (x.leaves (tsOf s.time.now) s.ticks)).modQueue q.num (x.charges q.cls credit s.ticks)).modLane n
    (fun l => { l with rr := if credit || x.resend then l.rr else q.num })

section
variable {id : Nat} {x : Ticket} {q : Queue} (credit : Bool)

theorem State.laneCarries_last : ((s.laneCarries n x).lane n).last = some ⟨x.tag, x.corrupt, wireFrame (s.laneForm n) x.tag x.bytes x.corrupt⟩ := by
  simp only [State.laneCarries, State.laneSend, State.count_lane, State.lane_modLane_same]
theorem State.laneCarries_basin : (s.laneCarries n x).basin = s.basin := by
  simp only [State.laneCarries, State.laneSend, State.count_basin, State.modLane_basin]
theorem State.laneCarries_ring : (s.laneCarries n x).ring = s.ring := by
  simp only [State.laneCarries, State.laneSend, State.count_ring, State.modLane_ring]

theorem State.sentOn_last : ((s.sentOn n id x q credit).lane n).last = some ⟨x.tag, x.corrupt, wireFrame (s.laneForm n) x.tag x.bytes x.corrupt⟩ := by
  have h := State.laneCarries_last (s := s) (n := n) (x := x)
  unfold State.sentOn
  rw [State.lane_modLane_same]
  generalize s.laneCarries n x = u at h ⊢
  exact h
theorem State.sentOn_ring : (s.sentOn n id x q credit).ring = s.ring := by
  have h := State.laneCarries_ring (s := s) (n := n) (x := x)
  unfold State.sentOn
  generalize s.laneCarries n x = u at h ⊢
  exact h

variable (hx : s.ticket? id = some x) (hq : s.queue? x.queue = some q)

include hx in
theorem State.sentOn_ticket : (s.sentOn n id x q credit).ticket? id = some (x.leaves (tsOf s.time.now) s.ticks x) := by
  have h := State.laneCarries_basin (s := s) (n := n) (x := x)
  unfold State.sentOn
  generalize s.laneCarries n x = u at h ⊢
  exact State.ticket?_modTicket u (by unfold State.ticket?; rw [h]; exact hx) fun _ => rfl
include hq in
theorem State.sentOn_queue : (s.sentOn n id x q credit).queue? x.queue = some (x.charges q.cls credit s.ticks q) := by
  have h := State.laneCarries_basin (s := s) (n := n) (x := x)
  unfold State.sentOn
  rw [queue?_num hq]
  generalize s.laneCarries n x = u at h ⊢
  exact State.queue?_modQueue (u.modTicket id _) (by show u.basin.queues.find? _ = _; rw [h]; exact hq) fun _ => rfl

include hx hq

theorem State.sendData_eq : s.sendData n id credit = if x.corrupt then
      (((s.sentOn n id x q credit).raise 0x0063 3 0 (wd x.queue) (wd x.seq.toNat)).freeTicket id false).relSync (queuePort x.queue)
    else if q.cls == .none then (s.sentOn n id x q credit).freeTicket id false else s.sentOn n id x q credit := by
  unfold State.sendData
  rw [hx]
  dsimp only
  rw [hq]
  rfl

/-- What follows for the ticket of a frame that has left: flow control, the log and the release mark, and an event if it was corrupt. -/
theorem State.sendData_steered : steered (s.sentOn n id x q credit) (s.sendData n id credit) := by
  rw [State.sendData_eq credit hx hq]
  exact steered_ite (steered_trans (State.raise_steered ..) (steered_trans (State.freeTicket_steered ..) (State.relSync_steered ..)))
    (steered_ite (State.freeTicket_steered ..) (steered_refl _))

section
variable (hc : s.clocked = true) {i : Instr} (he : exec i s = s.runs (s.sendData n id credit))
include hc he

theorem sendData_frame : Does i s (fun t => ∃ f, (t.lane n).last = some f ∧ f.invFcs = x.corrupt ∧ f.tag.qid = BitVec.ofNat 12 x.queue ∧ f.tag.ctrl = false
    ∧ f.tag.resend = x.resend ∧ f.tag.rsnd = x.rsnd ∧ f.tag.seq = x.seq ∧ f.tag.ts = x.ts ∧ f.bytes = wireFrame (s.laneForm n) f.tag x.bytes x.corrupt) := by
  refine runs_does hc he ⟨⟨x.tag, x.corrupt, wireFrame (s.laneForm n) x.tag x.bytes x.corrupt⟩, ?_, rfl, rfl, rfl, rfl, rfl, rfl, rfl, rfl⟩
  rw [settle_lane, steered_lane (State.sendData_steered credit hx hq)]
  exact State.sentOn_last credit

theorem sendData_corrupt (h : x.corrupt = true) : Does i s (fun t => t.ticket? id = none ∧ (s.ringRoom → t.noted 0x0063 0 (wd x.queue))) := by
  refine runs_does hc he ⟨?_, fun hr => noted_ring ?_ (settle_ring _ _)⟩
  · rw [settle_ticket?, State.sendData_eq credit hx hq, if_pos h, State.relSync_ticket?]
    exact State.freeTicket_gone ..
  · rw [State.sendData_eq credit hx hq, if_pos h]
    refine steered_noted (steered_trans (State.freeTicket_steered ..) (State.relSync_steered ..)) (State.raise_noted _ _ _ _ _ _ _ _ ?_)
    unfold State.ringRoom
    rw [State.sentOn_ring]
    exact hr

theorem sendData_unkept (h : x.corrupt = false) (hn : q.cls = .none) : Does i s (fun t => t.ticket? id = none) := by
  refine runs_does hc he ?_
  rw [settle_ticket?, State.sendData_eq credit hx hq, if_neg (by rw [h]; decide), if_pos (by rw [hn]; rfl)]
  exact State.freeTicket_gone ..

theorem sendData_kept (h : x.corrupt = false) (hn : q.cls ≠ .none) : Does i s (fun t => (∃ y, t.ticket? id = some y ∧ y.state = .sent ∧ y.resend = false
    ∧ y.seq = x.seq ∧ y.bytes = x.bytes) ∧ ∃ y, t.queue? x.queue = some y ∧ y.timer ≠ none) := by
  refine runs_does hc he ?_
  rw [settle_ticket?, settle_queue?, State.sendData_eq credit hx hq, if_neg (by rw [h]; decide), if_neg (by rw [beq_iff_eq]; exact hn),
    State.sentOn_ticket credit hx, State.sentOn_queue credit hq]
  refine ⟨⟨_, rfl, rfl, rfl, rfl, rfl⟩, _, rfl, ?_⟩
  unfold Ticket.charges
  dsimp only
  rw [h, beq_eq_false_iff_ne.mpr hn, if_neg (by decide)]
  split <;> nofun

end
end

/-! ### A lane that is up and not paused -/

section
variable (hc : s.clocked = true) (hl : (s.lane n).state = .up) (hp : (s.lane n).paused = none)
include hc hl hp

theorem hostFrameSent_idle (hv : s.pickService n = .idle) : Does (.hostFrameSent n) s (fun t => t.lane n = s.lane n ∧ t.basin = s.basin) :=
  lane_idles hc rfl (State.serveLane_up hl hp hv)

theorem hostFrameSent_ctrl {k : Nat} {es : List CtrlOut} (hv : s.pickService n = .ctrl k) (he : es = (s.basin.ctrlOut.filter (fun c => c.kind == k)).take 64) :
    Does (.hostFrameSent n) s (fun t => (t.lane n).ctrlCount = (s.lane n).ctrlCount + 1
      ∧ t.basin.ctrlOut = s.basin.ctrlOut.filter (fun c => !es.contains c)
      ∧ ∃ f, (t.lane n).last = some f ∧ f.tag.ctrl = true ∧ f.tag.move = false ∧ f.tag.seq = (s.lane n).ctrlCount ∧ f.invFcs = false
        ∧ f.bytes = ctrlFrame (s.laneForm n) f.tag k (es.map (·.entry))) := by
  subst he
  have e : s.serveLane n = s.sendCtrl n k := State.serveLane_up hl hp hv
  refine runs_does hc (congrArg s.runs e) ?_
  unfold State.sendCtrl State.laneSend
  dsimp only
  rw [settle_lane, settle_basin, State.count_lane, State.count_basin, State.lane_modLane_same, State.lane_modLane_same]
  exact ⟨rfl, rfl, _, rfl, rfl, rfl, rfl, rfl, rfl⟩

theorem hostFrameSent_marker {q : Nat} {x : Queue} (hv : s.pickService n = .marker q) (hq : s.queue? q = some x) (hm : x.move ≠ none) :
    Does (.hostFrameSent n) s (fun t => ∃ f y m, (t.lane n).last = some f ∧ f.tag.ctrl = true ∧ f.tag.move = true ∧ f.tag.qid = BitVec.ofNat 12 q
      ∧ t.queue? q = some y ∧ y.move = some m ∧ m.marker = some f.tag.seq) := by
  obtain ⟨m, hm⟩ := Option.ne_none_iff_exists'.mp hm
  have e : s.serveLane n = s.sendMarker n q := State.serveLane_up hl hp hv
  refine runs_does hc (congrArg s.runs e) ?_
  unfold State.sendMarker State.laneSend
  rw [hq]
  dsimp only
  rw [settle_lane, settle_queue?, State.count_lane, State.count_lane, State.lane_modLane_same, State.queue?_count, State.queue?_count,
    State.queue?_modLane, State.queue?_modQueue s hq (by intro y; rfl), hm]
  exact ⟨_, _, _, rfl, rfl, rfl, rfl, rfl, rfl, rfl⟩

section
variable {id : Nat} {x : Ticket} {q : Queue} (hv : s.pickService n = .resend id ∨ s.pickService n = .admitted id ∨ s.pickService n = .excess id)
include hv

omit hc in
/-- The three picks that send a data frame. -/
theorem State.serveLane_data : ∃ b, s.serveLane n = s.sendData n id b := by
  rcases hv with h | h | h
  · exact ⟨false, State.serveLane_up hl hp h⟩
  · exact ⟨true, State.serveLane_up hl hp h⟩
  · exact ⟨false, State.serveLane_up hl hp h⟩

theorem hostFrameSent_data (hx : s.ticket? id = some x) (hq : s.queue? x.queue = some q) :
    Does (.hostFrameSent n) s (fun t => ∃ f, (t.lane n).last = some f ∧ f.invFcs = x.corrupt ∧ f.tag.qid = BitVec.ofNat 12 x.queue ∧ f.tag.ctrl = false
        ∧ f.tag.resend = x.resend ∧ f.tag.rsnd = x.rsnd ∧ f.tag.seq = x.seq ∧ f.tag.ts = x.ts ∧ f.bytes = wireFrame (s.laneForm n) f.tag x.bytes x.corrupt)
      ∧ (x.corrupt = true → Does (.hostFrameSent n) s (fun t => t.ticket? id = none ∧ (s.ringRoom → t.noted 0x0063 0 (wd x.queue))))
      ∧ (x.corrupt = false → q.cls = .none → Does (.hostFrameSent n) s (fun t => t.ticket? id = none))
      ∧ (x.corrupt = false → q.cls ≠ .none → Does (.hostFrameSent n) s (fun t => (∃ y, t.ticket? id = some y ∧ y.state = .sent ∧ y.resend = false
          ∧ y.seq = x.seq ∧ y.bytes = x.bytes) ∧ ∃ y, t.queue? x.queue = some y ∧ y.timer ≠ none)) := by
  obtain ⟨b, e⟩ := State.serveLane_data hl hp hv
  have he : exec (.hostFrameSent n) s = s.runs (s.sendData n id b) := congrArg s.runs e
  exact ⟨sendData_frame b hx hq hc he, sendData_corrupt b hx hq hc he, sendData_unkept b hx hq hc he, sendData_kept b hx hq hc he⟩

end
end
end

end Sys2Proof.Machine
end

section
/-! PROOFS. Frames from the host (R230, R248, R261, R264): what a lane counts, what it discards, and what an open queue takes. -/

namespace Sys2Proof.Machine

/-! ### A lane's counts (R230, R265) -/

theorem laneBlock_bounds (n : Fin 8) : 0 < laneBlock n.val ∧ laneBlock n.val ≠ 1 ∧ laneBlock n.val ≠ 3 ∧ laneBlock n.val < 0x40 := by
  unfold laneBlock
  omega
theorem modLane_keepsCount (s : State) (n : Fin 8) (f : Lane → Lane) (b code : Nat) : s.keepsCount b code (s.modLane n f) :=
  keepsCount_of (s := s) (t := s.modLane n f) rfl rfl rfl rfl b code

/-- What closes a command keeps the counts of a lane's block. -/
theorem settle_keepsLane (old s : State) (n : Fin 8) (k : Nat) : s.keepsCount (laneBlock n.val) (0x200 + k) (settle old s) := by
  obtain ⟨-, h1, -, h2⟩ := laneBlock_bounds n
  exact settle_keeps old s h1 h2 (by omega)

section
variable (s : State) (n : Fin 8)

theorem State.discardHost_lane : ((s.discardHost n).lane n).disc = satAdd 0xFFFF (s.lane n).disc 1 := by
  unfold State.discardHost
  rw [State.count_lane, State.count_lane, State.lane_modLane_same]
theorem State.discardHost_basin : (s.discardHost n).basin = s.basin := by
  unfold State.discardHost
  rw [State.count_basin, State.count_basin, State.modLane_basin]
theorem State.ignoreReceipt_lane : ((s.ignoreReceipt n).lane n).ign = satAdd 0xFFFF (s.lane n).ign 1 := by
  unfold State.ignoreReceipt
  rw [State.count_lane, State.lane_modLane_same]
theorem State.ignoreReceipt_basin : (s.ignoreReceipt n).basin = s.basin := by
  unfold State.ignoreReceipt
  rw [State.count_basin, State.modLane_basin]

theorem State.count_hasRoom (b k m : Nat) (q : Queue) (len : Nat) : (s.count b k m).hasRoom q len = s.hasRoom q len := by
  obtain ⟨y, h⟩ := s.countCode_eq b (0x200 + k) m
  unfold State.count
  rw [h]
  rfl

/-- A discarded frame leaves the counts of its lane's block but for that of discarded frames. -/
theorem State.discardHost_keepsCount {k : Nat} (hk : k ≠ 5) : s.keepsCount (laneBlock n.val) (0x200 + k) (s.discardHost n) :=
  keepsCount_trans (modLane_keepsCount s n _ _ _) (keepsCount_trans (State.count_keeps _ _ 5 1 (.inr (by omega)))
    (State.count_keeps _ 3 2 1 (.inl (laneBlock_bounds n).2.2.1.symm)))
/-- A discarded frame is counted on its lane, whatever its lane counted before. -/
theorem discardHost_counts {u : State} {old : State} (h : s.keepsCount (laneBlock n.val) 0x205 u) :
    s.counts (laneBlock n.val) 5 (settle old (u.discardHost n)) :=
  counts_of (keepsCount_trans h (modLane_keepsCount u n _ _ _))
    (keepsCount_trans (State.count_keeps _ 3 2 1 (.inl (laneBlock_bounds n).2.2.1.symm)) (settle_keepsLane old _ n 5))

end

/-! ### Frames discarded (R230, R261, R264) -/

section
variable {s : State} {n : Fin 8} (hc : s.clocked = true)
include hc

/-- A frame that is counted as heard and discarded. -/
theorem discards_heard {i : Instr} (he : exec i s = s.runs ((s.count (laneBlock n.val) 1 1).discardHost n)) :
    Does i s (fun t => (t.lane n).disc = satAdd 0xFFFF (s.lane n).disc 1 ∧ t.basin.tickets = s.basin.tickets
      ∧ s.counts (laneBlock n.val) 1 t ∧ s.counts (laneBlock n.val) 5 t) := by
  refine runs_does hc he ⟨?_, ?_, ?_, discardHost_counts s n (State.count_keeps s _ 1 1 (.inr (by decide)))⟩
  · rw [settle_lane, State.discardHost_lane, State.count_lane]
  · rw [settle_basin, State.discardHost_basin, State.count_basin]
  · exact counts_of (keepsCount_refl s _ _) (keepsCount_trans (State.discardHost_keepsCount _ n (by decide)) (settle_keepsLane s _ n 1))

variable (hl : (s.lane n).state = .up)
include hl

theorem outboundFrame_discards {tagged ok : Bool} {tag : TagWord} (f : List Byte) (h : tagged = false ∨ (tag.ctrl = false ∧ (ok = false
      ∨ s.queue? tag.qid.toNat = none ∨ ∃ q, s.queue? tag.qid.toNat = some q ∧ (q.outbound = false ∨ q.closing ≠ none)))) :
    Does (.outboundFrame n tagged ok tag f) s (fun t => (t.lane n).disc = satAdd 0xFFFF (s.lane n).disc 1 ∧ t.basin.tickets = s.basin.tickets
      ∧ s.counts (laneBlock n.val) 1 t ∧ s.counts (laneBlock n.val) 5 t) := by
  refine discards_heard hc (congrArg s.runs ?_)
  unfold State.hostFrame
  rw [if_neg (not_not.mpr hl)]
  dsimp only
  cases tagged with
  | false => rfl
  | true =>
    obtain ⟨hctrl, h⟩ := h.resolve_left nofun
    rw [hctrl, State.queue?_count]
    cases ok with
    | false => rfl
    | true =>
      rcases h.resolve_left nofun with hq | ⟨q, hq, h⟩
      · rw [hq]; rfl
      · rw [hq]
        refine (if_neg (by decide)).trans ((if_neg (by decide)).trans ((if_neg (by decide)).trans (if_pos ?_)))
        rcases h with h | h
        · rw [h]; rfl
        · rw [Option.isSome_iff_ne_none.mpr h, Bool.or_true]

theorem controlFrameInvalid_does : Does (.controlFrameInvalid n) s (fun t => (t.lane n).disc = satAdd 0xFFFF (s.lane n).disc 1 ∧ t.basin = s.basin
    ∧ s.counts (laneBlock n.val) 5 t) := by
  have e : s.badCtrlHeard n = ((s.count (laneBlock n.val) 1 1).count (laneBlock n.val) 4 1).discardHost n := by
    refine (if_pos hl).trans (if_pos ?_)
    rw [State.count_lane]
    exact hl
  refine runs_does hc (congrArg s.runs e) ⟨?_, ?_, discardHost_counts s n (keepsCount_trans (State.count_keeps s _ 1 1 (.inr (by decide)))
    (State.count_keeps _ _ 4 1 (.inr (by decide))))⟩
  · rw [settle_lane, State.discardHost_lane, State.count_lane, State.count_lane]
  · rw [settle_basin, State.discardHost_basin, State.count_basin, State.count_basin]

/-! ### Frames for an open queue (R230, R248) -/

section
variable {tag : TagWord} {f : List Byte} {q : Queue} (ht : tag.ctrl = false) (hq : s.queue? tag.qid.toNat = some q) (ho : q.outbound = true)
  (hd : q.closing = none)
include ht hq ho hd

/-- The lanes and the basin that a frame for an open queue leaves. -/
theorem outboundFrame_open {P : State → Prop} (h : ∀ t : State, t.lanes = ((s.count (laneBlock n.val) 1 1).takeOutbound n q tag.seq (ownFrame (s.laneForm n) f)).lanes →
    t.basin = ((s.count (laneBlock n.val) 1 1).takeOutbound n q tag.seq (ownFrame (s.laneForm n) f)).basin → P t) :
    Does (.outboundFrame n true true tag f) s P := by
  have e : s.hostFrame n true true tag f =
      if ((s.count (laneBlock n.val) 1 1).takeOutbound n q tag.seq (ownFrame (s.laneForm n) f)).outWaiting (queuePort q.num)
      then ((s.count (laneBlock n.val) 1 1).takeOutbound n q tag.seq (ownFrame (s.laneForm n) f)).lpiLeave (queuePort q.num)
      else (s.count (laneBlock n.val) 1 1).takeOutbound n q tag.seq (ownFrame (s.laneForm n) f) := by
    unfold State.hostFrame
    rw [if_neg (not_not.mpr hl)]
    dsimp only
    rw [ht, State.queue?_count, hq]
    dsimp only
    rw [ho, hd]
    rfl
  refine runs_does hc (congrArg s.runs e) (h _ ?_ ?_)
  · rw [settle_lanes]
    exact ite_keep State.lanes rfl rfl
  · rw [settle_basin]
    exact ite_keep State.basin rfl rfl

omit hc hl ht hq ho hd in
theorem State.resendFrom_tickets (q : Nat) : (s.resendFrom q).basin.tickets = s.basin.tickets := by
  unfold State.resendFrom
  dsimp only
  (repeat' split) <;> rfl

omit hc hl ht hq ho hd in
theorem qDiff_eq_zero {a b : Seq16} : qDiff a b = 0 ↔ a = b := by
  unfold qDiff
  rw [show (0 : Int) = (0 : Seq16).toInt from rfl, BitVec.toInt_inj, BitVec.sub_eq_iff_eq_add, zero_add]

omit hc hl ht hq ho hd in
/-- A frame that an open queue does not take: out of sequence, or without room (R248). -/
theorem State.takeOutbound_discards {u : State} {seq : Seq16} {b : List Byte} (h : seq ≠ q.nextSeq ∨ u.hasRoom q b.length = false) :
    ((u.takeOutbound n q seq b).lane n).disc = satAdd 0xFFFF (u.lane n).disc 1 ∧ (u.takeOutbound n q seq b).basin.tickets = u.basin.tickets := by
  have release : (((u.discardHost n).sendRelease q.num).lane n).disc = satAdd 0xFFFF (u.lane n).disc 1
      ∧ ((u.discardHost n).sendRelease q.num).basin.tickets = u.basin.tickets :=
    ⟨by rw [steered_lane (State.sendRelease_steered ..), State.discardHost_lane], by rw [State.sendRelease_tickets, State.discardHost_basin]⟩
  have resend : (((u.discardHost n).resendFrom q.num).lane n).disc = satAdd 0xFFFF (u.lane n).disc 1
      ∧ ((u.discardHost n).resendFrom q.num).basin.tickets = u.basin.tickets :=
    ⟨by rw [steered_lane (State.resendFrom_steered ..), State.discardHost_lane], by rw [State.resendFrom_tickets, State.discardHost_basin]⟩
  unfold State.takeOutbound
  dsimp only
  split
  · exact release
  · split
    · exact resend
    · next h1 h2 =>
      have hz : seq = q.nextSeq := qDiff_eq_zero.mp (by omega)
      rw [if_pos (by rw [h.resolve_left fun hn => hn hz]; rfl)]
      exact resend

theorem outboundFrame_refused (h : tag.seq ≠ q.nextSeq ∨ s.hasRoom q (ownFrame (s.laneForm n) f).length = false) :
    Does (.outboundFrame n true true tag f) s (fun t => (t.lane n).disc = satAdd 0xFFFF (s.lane n).disc 1 ∧ t.basin.tickets = s.basin.tickets) := by
  have hr : (s.count (laneBlock n.val) 1 1).hasRoom q (ownFrame (s.laneForm n) f).length = s.hasRoom q (ownFrame (s.laneForm n) f).length :=
    State.count_hasRoom ..
  obtain ⟨h1, h2⟩ := State.takeOutbound_discards (n := n) (u := s.count (laneBlock n.val) 1 1) (h.imp id hr.trans)
  refine outboundFrame_open hc hl ht hq ho hd fun t hlanes hbasin => ⟨?_, ?_⟩
  · rw [show t.lane n = _ from congrArg (fun v => v.get n) hlanes]
    exact h1.trans (by rw [State.count_lane])
  · rw [hbasin, h2, State.count_basin]

omit hc hl ht hq ho hd in
theorem State.issue_outbound (u : State) (len : Nat) (r : Bool) : ∀ x ∈ (u.issue q len r).2.basin.tickets, x ∈ u.basin.tickets ∨ x.outbound = q.outbound := by
  obtain ⟨hb, -⟩ := u.tagPick_kept q.num q.outbound
  unfold State.issue
  dsimp only
  rw [State.count_basin, State.count_basin]
  dsimp only
  rw [hb]
  intro x hx
  rcases List.mem_append.mp hx with hx | hx
  · exact .inl hx
  · exact .inr (by rw [List.mem_singleton.mp hx])

omit hc hl ht hq hd in
/-- The next frame in sequence gets a ticket, and the queue awaits the one after it (R230, R248). -/
theorem State.takeOutbound_takes {u : State} {b : List Byte} (hu : u.queue? q.num = some q) (hr : u.hasRoom q b.length = true)
    (hn : ∀ x ∈ u.basin.tickets, x.id ≠ u.basin.nextId) :
    (∃ x ∈ (u.takeOutbound n q q.nextSeq b).basin.tickets, x.id = u.basin.nextId ∧ x.queue = q.num ∧ x.outbound = true ∧ x.state = .queued
        ∧ x.seq = q.nextSeq ∧ x.bytes = b)
      ∧ ∃ y, (u.takeOutbound n q q.nextSeq b).queue? q.num = some y ∧ y.nextSeq = q.nextSeq + 1 := by
  obtain ⟨hid, ⟨x, hx, hxi, hxq, -⟩, hqs, -, -⟩ := u.issue_kept q b.length false
  have hxm : x ∈ (u.issue q b.length false).2.basin.tickets := by rw [hx]; simp
  have hxo : x.outbound = true := (State.issue_outbound u b.length false x hxm).elim (fun h => absurd hxi (hn x h)) (·.trans ho)
  have hd0 : qDiff q.nextSeq q.nextSeq = 0 := qDiff_eq_zero.mpr rfl
  unfold State.takeOutbound
  dsimp only
  rw [hd0, if_neg (by decide), if_neg (by decide), hr, if_neg (by decide), hid]
  generalize (u.issue q b.length false).2 = v at hxm hqs ⊢
  generalize hy : ({ x.stage 2 (tsOf u.time.now) with state := .queued, seq := q.nextSeq, bytes := b, lane := some n.val } : Ticket) = y
  generalize hw : v.modTicket u.basin.nextId (fun t => { t.stage 2 (tsOf u.time.now) with
    state := .queued, seq := q.nextSeq, bytes := b, lane := some n.val }) = w
  have hyw : y ∈ w.basin.tickets := by
    rw [← hw]
    exact List.mem_map.mpr ⟨x, hxm, by rw [if_pos (by rw [hxi]; exact beq_self_eq_true _)]; exact hy⟩
  have hwq : w.queue? q.num = some q := by
    rw [← hw]
    show v.basin.queues.find? _ = _
    rw [hqs]
    exact hu
  have hyf : y.id = u.basin.nextId ∧ y.queue = q.num ∧ y.outbound = true ∧ y.state = .queued ∧ y.seq = q.nextSeq ∧ y.bytes = b := by
    subst hy
    exact ⟨hxi, hxq, hxo, rfl, rfl, rfl⟩
  have hkq := State.queue?_modQueue w hwq (f := fun y => { y with nextSeq := y.nextSeq + 1, resendAt := none }) fun _ => rfl
  generalize hm : w.modQueue q.num (fun y => { y with nextSeq := y.nextSeq + 1, resendAt := none }) = m at hkq ⊢
  have hym : y ∈ (m.flowSync q.num).basin.tickets := by
    rw [State.flowSync_tickets, ← hm]
    exact hyw
  refine ⟨?_, ?_⟩
  · split
    · exact ⟨y.stage 7 (tsOf (m.flowSync q.num).time.now), by
        rw [State.sendRelease_tickets]
        exact List.mem_map.mpr ⟨y, hym, if_pos (by rw [hyf.1]; exact beq_self_eq_true _)⟩, hyf⟩
    · exact ⟨y, hym, hyf⟩
  · have hst : steered m (if q.cls == .hop then ((m.flowSync q.num).stage u.basin.nextId 7).sendRelease q.num else m.flowSync q.num) :=
      steered_ite (steered_trans (State.flowSync_steered ..) (steered_trans (State.stage_steered ..) (State.sendRelease_steered ..))) (State.flowSync_steered ..)
    obtain ⟨z, hz, he⟩ := steered_queue hst hkq
    exact ⟨z, hz, congrArg Queue.nextSeq he⟩

theorem outboundFrame_taken (hs : tag.seq = q.nextSeq) (hr : s.hasRoom q (ownFrame (s.laneForm n) f).length = true)
    (hn : ∀ x ∈ s.basin.tickets, x.id ≠ s.basin.nextId) : Does (.outboundFrame n true true tag f) s (fun t =>
      (∃ x ∈ t.basin.tickets, x.id = s.basin.nextId ∧ x.queue = q.num ∧ x.outbound = true ∧ x.state = .queued ∧ x.seq = tag.seq
        ∧ x.bytes = ownFrame (s.laneForm n) f) ∧ ∃ y, t.queue? q.num = some y ∧ y.nextSeq = q.nextSeq + 1) := by
  have hu : (s.count (laneBlock n.val) 1 1).queue? q.num = some q := by
    rw [State.queue?_count, queue?_num hq]
    exact hq
  have h := State.takeOutbound_takes (n := n) ho hu ((State.count_hasRoom ..).trans hr) (by rw [State.count_basin]; exact hn)
  rw [State.count_basin] at h
  refine outboundFrame_open hc hl ht hq ho hd fun t _ hbasin => ?_
  unfold State.queue?
  rw [hbasin, hs]
  exact h

end
end

end Sys2Proof.Machine
end

section
/-! PROOFS. Receipts, their absence, and the repeated RELEASE (R249, R265, R266), and with them the frames of a host lane. -/

namespace Sys2Proof.Machine

/-! ### Tickets that a receipt frees (R265) -/

/-- A change of elements that the filter drops does not show after it. -/
theorem filter_map_dropped {α : Type} (p : α → Bool) (f : α → α) (h1 : ∀ x, p (f x) = p x) (h2 : ∀ x, p x = true → f x = x) (l : List α) :
    (l.map f).filter p = l.filter p := by
  rw [List.filter_map, show p ∘ f = p from funext h1]
  exact (List.map_congr_left fun x hx => h2 x (List.mem_filter.mp hx).2).trans (List.map_id _)

/-- A stage of tickets that are freed does not show. -/
theorem stages_freed (l ids : List Nat) (k : Nat) (hl : ∀ i ∈ l, i ∈ ids) (s : State) :
    (l.foldl (fun (t : State) i => t.stage i k) s).basin.tickets.filter (fun x => !ids.contains x.id) = s.basin.tickets.filter (fun x => !ids.contains x.id) := by
  induction l generalizing s with
  | nil => rfl
  | cons a l ih =>
    rw [List.foldl_cons, ih (fun i hi => hl i (List.mem_cons_of_mem a hi))]
    refine filter_map_dropped _ _ (fun x => ?_) (fun x hx => if_neg fun hxa => ?_) _
    · split <;> rfl
    · have ha := hl a List.mem_cons_self
      rw [beq_iff_eq.mp hxa, List.contains_iff_mem.mpr ha] at hx
      exact absurd hx (by decide)

/-- The numbers of the tickets below a receipt. -/
def State.receipted (s : State) (q : Queue) (seq : Seq16) : List Nat :=
  ((s.ticketsOf q.num).filter (fun t => t.state != .filling && decide (qDiff t.seq seq < 0))).map (·.id)

theorem State.receipted_contains (s : State) (q : Queue) (seq : Seq16) (x : Ticket) : (s.receipted q seq).contains x.id =
    (s.ticketsOf q.num).any (fun y => y.id == x.id && y.state != .filling && decide (qDiff y.seq seq < 0)) := by
  unfold State.receipted
  rw [Bool.eq_iff_iff, List.contains_iff_mem, List.any_eq_true]
  simp only [List.mem_map, List.mem_filter, Bool.and_eq_true, beq_iff_eq]
  exact ⟨fun ⟨y, ⟨h1, h2, h3⟩, h4⟩ => ⟨y, h1, ⟨h4, h2⟩, h3⟩, fun ⟨y, h1, ⟨h4, h2⟩, h3⟩ => ⟨y, ⟨h1, h2, h3⟩, h4⟩⟩

section
variable {s : State} {n : Fin 8}

/-- The queue that a receipt in range leaves, its tickets freed. -/
theorem State.receiptOne_tickets {e : CtrlEntry} {q : Queue} (hq : s.queue? e.qid.toNat = some q) (ho : q.outbound = false) (hk : q.cls ≠ .none)
    (h1 : 0 ≤ qDiff e.seq (s.lowSeq q)) (h2 : qDiff e.seq (s.lowSeq q) ≤ qDiff q.nextSeq (s.lowSeq q)) :
    (s.receiptOne n e).basin.tickets = s.basin.tickets.filter (fun x => !(s.receipted q e.seq).contains x.id) := by
  unfold State.receiptOne
  rw [hq]
  dsimp only
  rw [ho, if_neg (by decide), if_neg (by rw [beq_iff_eq]; exact hk), if_pos ⟨h1, h2⟩, State.relSync_basin]
  have moved (u : State) (b : Bool) (f : Queue → Queue) : ((if b then u.endMove q.num else u).modQueue q.num f).basin.tickets = u.basin.tickets := by
    cases b <;> rfl
  refine (moved _ _ _).trans ?_
  rw [State.freeAll_tickets]
  exact stages_freed _ _ 7 (fun _ h => h) s

theorem State.receiptOne_outside {e : CtrlEntry} {q : Queue} (hq : s.queue? e.qid.toNat = some q) (ho : q.outbound = false) (hk : q.cls ≠ .none)
    (h : qDiff e.seq (s.lowSeq q) < 0 ∨ qDiff q.nextSeq (s.lowSeq q) < qDiff e.seq (s.lowSeq q)) : s.receiptOne n e = s.ignoreReceipt n := by
  unfold State.receiptOne
  rw [hq]
  dsimp only
  rw [ho, if_neg (by decide), if_neg (by rw [beq_iff_eq]; exact hk), if_neg (by omega)]

/-! ### Receipts (R265) -/

section
variable (hc : s.clocked = true)
include hc

section
variable (hl : (s.lane n).state = .up)
include hl

/-- A RECEIPT of one entry acts on the counted state. -/
theorem receipt_does (e : CtrlEntry) {P : State → Prop}
    (h : P (settle s (((s.count (laneBlock n.val) 1 1).count (laneBlock n.val) 4 1).receiptOne n e))) : Does (.receipt n [e]) s P := by
  have he : s.receiptHeard n [e] = ((s.count (laneBlock n.val) 1 1).count (laneBlock n.val) 4 1).receiptOne n e := by
    refine (if_pos hl).trans (if_pos ?_)
    rw [State.count_lane]
    exact hl
  exact runs_does hc (congrArg s.runs he) h

theorem receipt_ignored {e : CtrlEntry} (h : ((s.count (laneBlock n.val) 1 1).count (laneBlock n.val) 4 1).receiptOne n e
      = ((s.count (laneBlock n.val) 1 1).count (laneBlock n.val) 4 1).ignoreReceipt n) : Does (.receipt n [e]) s (fun t =>
    t.basin.tickets = s.basin.tickets ∧ (t.lane n).ign = satAdd 0xFFFF (s.lane n).ign 1 ∧ s.counts (laneBlock n.val) 6 t) := by
  refine receipt_does hc hl e ?_
  rw [h]
  refine ⟨?_, ?_, ?_⟩
  · rw [settle_basin, State.ignoreReceipt_basin, State.count_basin, State.count_basin]
  · rw [settle_lane, State.ignoreReceipt_lane, State.count_lane, State.count_lane]
  · exact counts_of (keepsCount_trans (State.count_keeps s _ 1 1 (.inr (by decide))) (keepsCount_trans (State.count_keeps _ _ 4 1 (.inr (by decide)))
      (modLane_keepsCount _ n _ _ _))) (settle_keepsLane s _ n 6)

section
variable {e : CtrlEntry} {q : Queue} (hq : s.queue? e.qid.toNat = some q) (ho : q.outbound = false) (hk : q.cls ≠ .none)
include hq ho hk

theorem receipt_frees (h1 : 0 ≤ qDiff e.seq (s.lowSeq q)) (h2 : qDiff e.seq (s.lowSeq q) ≤ qDiff q.nextSeq (s.lowSeq q)) :
    Does (.receipt n [e]) s (fun t => t.basin.tickets = s.basin.tickets.filter (fun x =>
      !(s.ticketsOf q.num).any (fun y => y.id == x.id && y.state != .filling && decide (qDiff y.seq e.seq < 0)))) := by
  refine receipt_does hc hl e ?_
  have hb : ((s.count (laneBlock n.val) 1 1).count (laneBlock n.val) 4 1).basin = s.basin := by rw [State.count_basin, State.count_basin]
  generalize (s.count (laneBlock n.val) 1 1).count (laneBlock n.val) 4 1 = u at hb ⊢
  have hlow : u.lowSeq q = s.lowSeq q := by unfold State.lowSeq State.ticketsOf; rw [hb]
  rw [settle_basin, State.receiptOne_tickets (by unfold State.queue?; rw [hb]; exact hq) ho hk (by rw [hlow]; exact h1) (by rw [hlow]; exact h2), hb]
  refine List.filter_congr fun x _ => ?_
  rw [State.receipted_contains]
  unfold State.ticketsOf
  rw [hb]

theorem receipt_outside (h : qDiff e.seq (s.lowSeq q) < 0 ∨ qDiff q.nextSeq (s.lowSeq q) < qDiff e.seq (s.lowSeq q)) :
    Does (.receipt n [e]) s (fun t => t.basin.tickets = s.basin.tickets ∧ (t.lane n).ign = satAdd 0xFFFF (s.lane n).ign 1
      ∧ s.counts (laneBlock n.val) 6 t) := by
  refine receipt_ignored hc hl ?_
  have hb : ((s.count (laneBlock n.val) 1 1).count (laneBlock n.val) 4 1).basin = s.basin := by rw [State.count_basin, State.count_basin]
  generalize (s.count (laneBlock n.val) 1 1).count (laneBlock n.val) 4 1 = u at hb ⊢
  have hlow : u.lowSeq q = s.lowSeq q := by unfold State.lowSeq State.ticketsOf; rw [hb]
  exact State.receiptOne_outside (by unfold State.queue?; rw [hb]; exact hq) ho hk (by rw [hlow]; exact h)

end

theorem receipt_unknown {e : CtrlEntry} (hq : s.queue? e.qid.toNat = none) : Does (.receipt n [e]) s (fun t =>
    t.basin.tickets = s.basin.tickets ∧ (t.lane n).ign = satAdd 0xFFFF (s.lane n).ign 1) := by
  obtain ⟨t, ht, h1, h2, -⟩ := receipt_ignored (e := e) hc hl (by
    unfold State.receiptOne
    rw [State.queue?_count, State.queue?_count, hq])
  exact ⟨t, ht, h1, h2⟩

end

/-! ### No receipt in time, and the repeated RELEASE (R249, R266) -/

section
variable {q : Fin 4096} {x : Queue} (hq : s.queue? q.val = some x)
include hq

theorem receiptTimeout_resends (ho : x.outbound = false) (hk : x.cls ≠ .none) (ht : x.timer ≠ none) : Does (.receiptTimeout q) s (fun t =>
    t.basin.tickets = s.basin.tickets.map (fun y => if y.queue = q.val ∧ y.state = .sent then { y with resend := true } else y)) := by
  refine runs_does hc rfl ?_
  rw [settle_basin]
  unfold State.receiptTimeout
  rw [hq]
  dsimp only
  rw [if_neg (by rw [ho, beq_eq_false_iff_ne.mpr hk, Option.isNone_eq_false_iff.mpr (Option.isSome_iff_ne_none.mpr ht)]; decide)]
  rfl

theorem receiptTimeout_stopped (ht : x.timer = none) : Does (.receiptTimeout q) s (fun t => t.basin = s.basin) := by
  refine basin_idles hc rfl ?_
  unfold State.receiptTimeout
  rw [hq]
  exact if_pos (by rw [ht]; exact Bool.or_true _)

theorem releaseRepeat_repeats (hr : x.relRepeat = true) (hf : s.sup.pfailFrozen = false) : Does (.releaseRepeat q) s (fun t =>
    t.basin.ctrlOut.getLast? = some ⟨2, ⟨false, BitVec.ofNat 12 q.val, s.releasePoint x⟩⟩ ∧ ∃ y, t.queue? q.val = some y ∧ y.relRepeat = false) := by
  have e : s.releaseAgain q.val = (s.pushCtrl 2 false q.val (s.releasePoint x)).modQueue q.val (fun y => { y with relRepeat := false }) := by
    unfold State.releaseAgain
    rw [hq]
    dsimp only
    rw [hr, hf]
    rfl
  refine runs_does hc (congrArg s.runs e) ⟨?_, { x with relRepeat := false }, ?_, rfl⟩
  · rw [settle_basin]
    exact List.getLast?_concat ..
  · rw [settle_queue?]
    exact State.queue?_modQueue (s.pushCtrl 2 false q.val (s.releasePoint x)) hq fun _ => rfl

theorem releaseRepeat_done (hr : x.relRepeat = false) : Does (.releaseRepeat q) s (fun t => t.basin = s.basin) := by
  refine basin_idles hc rfl ?_
  unfold State.releaseAgain
  rw [hq]
  exact if_pos (by rw [hr]; rfl)

end
end
end

/-- Settles O54: what a lane sends by what it picks, what it hears by the tag and the queue, receipts by their range. -/
theorem hostFrames : Obligations.HostFrames := by
  unfold Obligations.HostFrames
  intro s n hc
  refine ⟨fun hl hp => ⟨fun k es => hostFrameSent_ctrl hc hl hp, fun q x => hostFrameSent_marker hc hl hp,
      fun id x q hv hx hq => hostFrameSent_data hc hl hp hv hx hq, hostFrameSent_idle hc hl hp⟩,
    hostFrameSent_held hc,
    fun hl => ⟨fun tagged ok tag f h => outboundFrame_discards hc hl f h,
      fun tag f q ht hq ho hd => ⟨fun h => outboundFrame_refused hc hl ht hq ho hd (.inl h), fun _ h => outboundFrame_refused hc hl ht hq ho hd (.inr h),
        outboundFrame_taken hc hl ht hq ho hd⟩,
      fun e q hq ho hk => ⟨receipt_frees hc hl hq ho hk, receipt_outside hc hl hq ho hk⟩,
      fun e => receipt_unknown hc hl, controlFrameInvalid_does hc hl⟩,
    fun q x hq => ⟨receiptTimeout_resends hc hq, receiptTimeout_stopped hc hq, releaseRepeat_repeats hc hq, releaseRepeat_done hc hq⟩⟩

end Sys2Proof.Machine
end

section
/-! PROOFS. STREAM_OPEN and STREAM_MODIFY (R232, R233, R237, R387): admission reads neither channels, counts nor the keeper, so what it
answers stands when the request has been taken; what it puts in force is steered from the queue as opened or changed. -/

namespace Sys2Proof.Machine

/-! ### What admission reads (R235 to R244) -/

section
variable (s : State) (v : Vector Channel 16) (y : Tally) (k : Keeper)

theorem State.placeAll_kept (lanes : List (Fin 8)) (l qs : List Queue) :
    State.placeAll { s with chans := v, tally := y, keeper := k } lanes qs l = s.placeAll lanes qs l := by
  induction l generalizing qs with
  | nil => rfl
  | cons q l ih =>
    unfold State.placeAll
    simp only [ih]
    rfl
theorem State.protects_kept (qs : List Queue) : State.protects { s with chans := v, tally := y, keeper := k } qs = s.protects qs := by
  unfold State.protects
  simp only [State.placeAll_kept]
  rfl
theorem State.admitted_kept (q : Queue) (l : List Queue) : State.admitted { s with chans := v, tally := y, keeper := k } q l = s.admitted q l := by
  unfold State.admitted
  simp only [State.protects_kept]
  rfl

end

/-! ### The conditions of R237, and what follows when they hold -/

/-- What STREAM_OPEN answers: the plan, or the status of the condition that failed. -/
def State.openGate (s : State) (q : Queue) (classOk : Bool) : Except Nat Plan :=
  if (s.queue? q.num).isSome then .error (admStatus 1)
  else if !classOk || !s.attrsOk q then .error (admStatus 2)
  else if !s.skidOk q then .error (admStatus 3)
  else s.admitted q s.basin.queues

/-- What STREAM_MODIFY answers. -/
def State.modifyGate (s : State) (q : Queue) (classOk : Bool) : Except Nat Plan :=
  match s.queue? q.num with
  | none => .error (admStatus 2)
  | some old =>
    if old.closing.isSome || !classOk || old.outbound != q.outbound || old.cls != q.cls || !s.attrsOk q then .error (admStatus 2)
    else if !s.skidOk q then .error (admStatus 3)
    else s.admitted (old.modified q) (s.others q.num)

/-- A queue put behind those open before, in its home region. -/
def State.joined (s : State) (q : Queue) : State :=
  { s with basin := { s.basin with
    queues := s.basin.queues ++ [{ q with region := homeRegion s.basin.queues, order := s.basin.nextOrder }], nextOrder := s.basin.nextOrder + 1 } }

/-- A plan put in force for a queue, with the flow control that follows. -/
def State.putInForce (s : State) (q : Nat) (pl : Plan) : State := ((s.applyPlan q pl).flowSync q).lineSync (queuePort q)

section
variable (s : State) (q : Queue) (ok : Bool)

theorem State.putInForce_steered (n : Nat) (pl : Plan) : steered s (s.putInForce n pl) :=
  steered_trans (s.applyPlan_steered n pl) (steered_trans (State.flowSync_steered ..) (State.lineSync_steered ..))

theorem State.openStream_eq : s.openStream q ok = (s.openGate q ok).map ((s.joined q).putInForce q.num) := by
  unfold State.openStream State.openGate
  split_ifs
  · rfl
  · rfl
  · rfl
  · cases s.admitted q s.basin.queues <;> rfl
theorem State.modifyStream_eq : s.modifyStream q ok = (s.modifyGate q ok).map ((s.modQueue q.num (fun x => x.modified q)).putInForce q.num) := by
  unfold State.modifyStream State.modifyGate
  cases s.queue? q.num with
  | none => rfl
  | some old =>
    dsimp only
    split_ifs
    · rfl
    · rfl
    · cases s.admitted (old.modified q) (s.others q.num) <;> rfl

theorem State.openGate_kept (v : Vector Channel 16) (y : Tally) (k : Keeper) :
    State.openGate { s with chans := v, tally := y, keeper := k } q ok = s.openGate q ok := by
  unfold State.openGate
  rw [State.admitted_kept]
  rfl
theorem State.modifyGate_kept (v : Vector Channel 16) (y : Tally) (k : Keeper) :
    State.modifyGate { s with chans := v, tally := y, keeper := k } q ok = s.modifyGate q ok := by
  unfold State.modifyGate
  simp only [State.admitted_kept]
  rfl

variable {s q ok}

theorem except_map_error {α β : Type} {x : Except Nat α} {f : α → β} {e : Nat} (h : x.map f = .error e) : x = .error e := by
  cases x with
  | error a => exact congrArg Except.error (Except.error.inj h)
  | ok a => cases h

/-! ### Statuses (R385) -/

theorem State.admitSums_small {l : List Queue} {e : Nat} (h : s.admitSums q l = some e) : e < 65536 := by
  unfold State.admitSums at h
  dsimp only at h
  split_ifs at h <;> (cases h; decide)
theorem State.admitted_small {l : List Queue} {e : Nat} (h : s.admitted q l = .error e) : e < 65536 := by
  unfold State.admitted at h
  split at h
  · next hs =>
    cases h
    exact State.admitSums_small hs
  · split at h
    · cases h; decide
    · split at h
      · cases h; decide
      · cases h
theorem State.openGate_small {e : Nat} (h : s.openGate q ok = .error e) : e < 65536 := by
  unfold State.openGate at h
  split_ifs at h
  · cases h; decide
  · cases h; decide
  · cases h; decide
  · exact State.admitted_small h
theorem State.modifyGate_small {e : Nat} (h : s.modifyGate q ok = .error e) : e < 65536 := by
  unfold State.modifyGate at h
  split at h
  · cases h; decide
  · split_ifs at h
    · cases h; decide
    · cases h; decide
    · exact State.admitted_small h

end

/-! ### Blocks that the keeper takes (R362, R384) -/

section
variable (s : State)

theorem State.own_eq (l : List Nat) : ∃ k, s.own l = { s with keeper := k } := by
  unfold State.own
  induction l generalizing s with
  | nil => exact ⟨s.keeper, rfl⟩
  | cons b l ih =>
    have h1 : ∃ k, s.ownOne b = { s with keeper := k } := by
      unfold State.ownOne
      split
      · exact ⟨s.keeper, rfl⟩
      · exact ⟨_, rfl⟩
    obtain ⟨k, h1⟩ := h1
    obtain ⟨k2, h2⟩ := ih (s.ownOne b)
    exact ⟨k2, by rw [List.foldl_cons, h2, h1]⟩
/-- The basin's block is the keeper's once taken. -/
theorem State.own_basin : (s.own [3]).keeper.owns 3 = true := by
  show (s.ownOne 3).keeper.owns 3 = true
  unfold State.ownOne
  split
  · next h => exact h
  · show (setBit s.keeper.owner 3 true).getLsbD 3 = true
    rw [setBit_bit _ _ _ _ (by decide)]
    rfl
/-- Taking a lane's block leaves the basin's. -/
theorem State.own_lane (n : Nat) (h : s.keeper.owns 3 = true) : (s.own [laneBlock n]).keeper.owns 3 = true := by
  have hm : (s.keeper.mark (laneBlock n)).owns 3 = s.keeper.owns 3 := by
    unfold Keeper.mark
    rw [if_pos (by unfold laneBlock; omega)]
    rfl
  show (s.ownOne (laneBlock n)).keeper.owns 3 = true
  unfold State.ownOne
  split
  · exact h
  · exact hm.trans h

/-- Neither the doorbell nor the taking of blocks changes more than channels, counts and the keeper. -/
theorem State.rung_own (c : Fin 16) (code : Nat) (r : Request) (l : List Nat) : ∃ v y k, (s.rung c code r).own l = { s with chans := v, tally := y, keeper := k } := by
  obtain ⟨v, y, h⟩ := s.rung_eq c code r
  obtain ⟨k, h2⟩ := (s.rung c code r).own_eq l
  exact ⟨v, y, k, by rw [h2, h]⟩

end

/-! ### The two requests (R387) -/

section
variable {s : State} {c : Fin 16} {r : Request} {q : Queue} (ht : s.takes c r 5) (hs : s.safeBlock 3 = false)
  (hq : ∀ code, (s.rung c code r).argQueue c = q)

section
variable {i : Instr} {code : Nat} {m : Bool} (he : exec i s = s.runs (s.issueCmd c code r)) (hc : code < 256)
  (hn : ((s.rung c code r).chan c).need code = some 5) (hv : (s.rung c code r).serveCode c code none = (s.rung c code r).serveStream c m)
include ht hs hq

omit hs in
/-- The state in which a stream's request is judged: rung, and block 0x03 taken. -/
theorem State.takes.serveStream (hs : s.safeBlock 3 = false) (code : Nat) (m : Bool) : (s.rung c code r).serveStream c m =
    ((s.rung c code r).own [3]).streamAnswer c q.num (if m then ((s.rung c code r).own [3]).modifyStream q (fld (argWord r 0) 13 2 != 3)
      else ((s.rung c code r).own [3]).openStream q (fld (argWord r 0) 13 2 != 3)) := by
  have hp : (s.rung c code r).safeBlock 3 = s.safeBlock 3 := by
    obtain ⟨v, y, h⟩ := s.rung_eq c code r
    rw [h]
    rfl
  unfold State.serveStream
  dsimp only
  rw [hq, ht.arg, if_neg (by rw [hp, hs]; decide)]

include he hc hn hv

theorem stream_refused {e : Nat} (hsm : e < 65536) (h : (if m then ((s.rung c code r).own [3]).modifyStream q (fld (argWord r 0) 13 2 != 3)
      else ((s.rung c code r).own [3]).openStream q (fld (argWord r 0) 13 2 != 3)) = .error e) :
    Does i s (fun t => t.answered c code r e ∧ t.basin = s.basin) := by
  obtain ⟨v, y, k, hu⟩ := s.rung_own c code r [3]
  obtain ⟨k2, hk⟩ := (s.rung c code r).own_eq [3]
  refine ht.does he hc hn ?_
  rw [hv, ht.serveStream hq hs, h]
  refine ⟨State.answered_of ht.idle hc (d := 0xFFFF) hsm (by decide) ((settle_answered ..).trans ?_), ?_⟩
  · rw [hk]
    rfl
  · rw [settle_basin]
    refine (State.answer_basin ..).trans ?_
    rw [hu]

theorem stream_passes {w : State} {x : Queue} (h : (if m then ((s.rung c code r).own [3]).modifyStream q (fld (argWord r 0) 13 2 != 3)
      else ((s.rung c code r).own [3]).openStream q (fld (argWord r 0) 13 2 != 3)) = .ok w) (hw : w.side = ((s.rung c code r).own [3]).side)
    (hx : w.queue? q.num = some x) : Does i s (fun t => t.answered c code r 0 ∧ t.keeper.owns 3 = true ∧ t.basin = w.basin) := by
  obtain ⟨k2, hk⟩ := (s.rung c code r).own_eq [3]
  have how : w.keeper.owns 3 = true := by rw [side_keeper hw]; exact State.own_basin _
  have hch : w.chan c = (s.rung c code r).chan c := by
    refine (congrArg (fun v => v.get c) (side_chans hw)).trans ?_
    rw [hk]
    rfl
  obtain ⟨z, hz, hzk⟩ : ∃ z : State, (∃ k, z = { w with keeper := k }) ∧ z.keeper.owns 3 = true
      ∧ ((s.rung c code r).own [3]).streamAnswer c q.num (.ok w) = z.answer c stOk [(z.queueWords x).getD 0 0] := by
    unfold State.streamAnswer
    dsimp only
    rw [hx]
    dsimp only
    cases x.lane with
    | none => exact ⟨w, ⟨w.keeper, rfl⟩, how, rfl⟩
    | some n => exact ⟨w.own [laneBlock n], w.own_eq _, State.own_lane w n how, rfl⟩
  obtain ⟨k, hz⟩ := hz
  obtain ⟨hzo, hza⟩ := hzk
  refine ht.does he hc hn ?_
  rw [hv, ht.serveStream hq hs, h, hza]
  refine ⟨(State.gives_of ht.idle hc (st := stOk) (d := 0xFFFF) (ws := [(z.queueWords x).getD 0 0]) (by decide) (by decide) (by simp)
    ((settle_answered ..).trans ?_)).1, ?_, ?_⟩
  · rw [hz]
    exact congrArg (fun ch => Channel.answered ch _ _ _) hch
  · rw [settle_keeper, State.answer_keeper]
    exact hzo
  · rw [settle_basin, State.answer_basin, hz]

end

/-- What is fixed of a queue carries its attributes (R232). -/
theorem fixed_attrs {a b : Queue} (h : a.fixed = b.fixed) : a.outbound = b.outbound ∧ a.cls = b.cls ∧ a.prio = b.prio ∧ a.bRes = b.bRes ∧ a.lat = b.lat
    ∧ a.rB = b.rB ∧ a.fMin = b.fMin ∧ a.laneMask = b.laneMask ∧ a.closing = b.closing ∧ a.order = b.order :=
by
  have h' := h
  unfold Queue.fixed at h'
  rw [Queue.mk.injEq] at h'
  simp only [true_and, and_true] at h'
  tauto

include ht hs hq

/-! ### STREAM_OPEN -/

omit ht hs hq in
theorem State.openGate_rung (c : Fin 16) (code : Nat) (r : Request) (l : List Nat) (q : Queue) (ok : Bool) :
    ((s.rung c code r).own l).openGate q ok = s.openGate q ok := by
  obtain ⟨v, y, k, hu⟩ := s.rung_own c code r l
  rw [hu, State.openGate_kept]
omit ht hs hq in
theorem State.modifyGate_rung (c : Fin 16) (code : Nat) (r : Request) (l : List Nat) (q : Queue) (ok : Bool) :
    ((s.rung c code r).own l).modifyGate q ok = s.modifyGate q ok := by
  obtain ⟨v, y, k, hu⟩ := s.rung_own c code r l
  rw [hu, State.modifyGate_kept]

theorem streamOpen_fails {e : Nat} (h : s.openGate q (fld (argWord r 0) 13 2 != 3) = .error e) :
    Does (.streamOpen c r) s (fun t => t.answered c 0x20 r e ∧ t.basin = s.basin) := by
  refine stream_refused ht hs hq (m := false) rfl (by decide) rfl rfl (State.openGate_small h) ?_
  rw [if_neg (by decide), State.openStream_eq, State.openGate_rung, h]
  rfl

theorem streamOpen_refused {e : Nat} (h : (s.rung c 0x20 r).openStream q (fld (argWord r 0) 13 2 != 3) = .error e) :
    Does (.streamOpen c r) s (fun t => t.answered c 0x20 r e ∧ t.basin = s.basin) := by
  rw [State.openStream_eq] at h
  exact streamOpen_fails ht hs hq ((State.openGate_rung c 0x20 r [] q _).symm.trans (except_map_error h))

theorem streamOpen_open (h : (s.queue? q.num).isSome = true) : Does (.streamOpen c r) s (fun t => t.answered c 0x20 r 0x0101 ∧ t.basin = s.basin) :=
  streamOpen_fails ht hs hq (if_pos h)

theorem streamOpen_passes (hcl : q.closing = none) {pl : Plan} (hx : s.queue? q.num = none) (hok : fld (argWord r 0) 13 2 ≠ 3) (ha : s.attrsOk q = true)
    (hk : s.skidOk q = true) (hp : s.admitted q s.basin.queues = .ok pl) : Does (.streamOpen c r) s (fun t => t.answered c 0x20 r 0
      ∧ t.keeper.owns 3 = true ∧ t.basin.nextOrder = s.basin.nextOrder + 1
      ∧ ∃ x, t.queue? q.num = some x ∧ x.outbound = q.outbound ∧ x.cls = q.cls ∧ x.prio = q.prio ∧ x.bRes = q.bRes ∧ x.lat = q.lat ∧ x.rB = q.rB
        ∧ x.fMin = q.fMin ∧ x.laneMask = q.laneMask ∧ x.closing = none ∧ x.order = s.basin.nextOrder) := by
  have hb : ((s.rung c 0x20 r).own [3]).basin = s.basin := by
    obtain ⟨v, y, k, hu⟩ := s.rung_own c 0x20 r [3]
    rw [hu]
  have hg : s.openGate q (fld (argWord r 0) 13 2 != 3) = .ok pl := by
    unfold State.openGate
    rw [hx, ha, hk, bne_iff_ne.mpr hok, hp]
    rfl
  have hst := ((((s.rung c 0x20 r).own [3]).joined q)).putInForce_steered q.num pl
  have hj : (((s.rung c 0x20 r).own [3]).joined q).queue? q.num
      = some { q with region := homeRegion s.basin.queues, order := s.basin.nextOrder } := by
    unfold State.joined State.queue?
    dsimp only
    rw [hb, List.find?_append, show s.basin.queues.find? (fun x => x.num == q.num) = none from hx, Option.none_or,
      List.find?_cons_of_pos (by simp)]
  obtain ⟨x, hxq, hxf⟩ := steered_queue hst hj
  obtain ⟨h1, h2, h3, h4, h5, h6, h7, h8, h9, h10⟩ := fixed_attrs hxf
  obtain ⟨t, hte, hta, hto, htb⟩ := stream_passes (i := .streamOpen c r) (m := false) ht hs hq rfl (by decide) rfl rfl
    (w := (((s.rung c 0x20 r).own [3]).joined q).putInForce q.num pl)
    (by rw [if_neg (by decide), State.openStream_eq, State.openGate_rung, hg]; rfl) hst.side hxq
  refine ⟨t, hte, hta, hto, ?_, x, ?_, h1, h2, h3, h4, h5, h6, h7, h8, h9.trans hcl, h10⟩
  · rw [htb, hst.order]
    exact congrArg (fun b : Basin => b.nextOrder + 1) hb
  · unfold State.queue? at hxq ⊢
    rw [htb]
    exact hxq

/-! ### STREAM_MODIFY -/

theorem streamModify_refused {e : Nat} (h : (s.rung c 0x22 r).modifyStream q (fld (argWord r 0) 13 2 != 3) = .error e) :
    Does (.streamModify c r) s (fun t => t.answered c 0x22 r e ∧ t.basin = s.basin) := by
  rw [State.modifyStream_eq] at h
  have hg := (State.modifyGate_rung c 0x22 r [] q _).symm.trans (except_map_error h)
  refine stream_refused ht hs hq (m := true) rfl (by decide) rfl rfl (State.modifyGate_small hg) ?_
  rw [if_pos rfl, State.modifyStream_eq, State.modifyGate_rung, hg]
  rfl

theorem streamModify_passes {old : Queue} {pl : Plan} (hx : s.queue? q.num = some old) (hcl : old.closing = none) (hok : fld (argWord r 0) 13 2 ≠ 3)
    (ho : old.outbound = q.outbound) (hcs : old.cls = q.cls) (ha : s.attrsOk q = true) (hk : s.skidOk q = true)
    (hp : s.admitted (old.modified q) (s.others q.num) = .ok pl) : Does (.streamModify c r) s (fun t => t.answered c 0x22 r 0
      ∧ ∃ x, t.queue? q.num = some x ∧ x.outbound = old.outbound ∧ x.cls = old.cls ∧ x.prio = q.prio ∧ x.bRes = q.bRes ∧ x.lat = q.lat ∧ x.rB = q.rB
        ∧ x.fMin = q.fMin ∧ x.laneMask = q.laneMask ∧ x.order = old.order) := by
  have hb : ((s.rung c 0x22 r).own [3]).basin = s.basin := by
    obtain ⟨v, y, k, hu⟩ := s.rung_own c 0x22 r [3]
    rw [hu]
  have hg : s.modifyGate q (fld (argWord r 0) 13 2 != 3) = .ok pl := by
    unfold State.modifyGate
    rw [hx]
    dsimp only
    rw [hcl, ha, hk, bne_iff_ne.mpr hok, ho, hcs, bne_self_eq_false, bne_self_eq_false]
    exact hp
  have hst := (((s.rung c 0x22 r).own [3]).modQueue q.num (fun x => x.modified q)).putInForce_steered q.num pl
  have hj : (((s.rung c 0x22 r).own [3]).modQueue q.num (fun x => x.modified q)).queue? q.num = some (old.modified q) :=
    State.queue?_modQueue _ (by unfold State.queue?; rw [hb]; exact hx) fun _ => rfl
  obtain ⟨x, hxq, hxf⟩ := steered_queue hst hj
  obtain ⟨h1, h2, h3, h4, h5, h6, h7, h8, -, h10⟩ := fixed_attrs hxf
  obtain ⟨t, hte, hta, -, htb⟩ := stream_passes (i := .streamModify c r) (m := true) ht hs hq rfl (by decide) rfl rfl
    (w := (((s.rung c 0x22 r).own [3]).modQueue q.num (fun x => x.modified q)).putInForce q.num pl)
    (by rw [if_pos rfl, State.modifyStream_eq, State.modifyGate_rung, hg]; rfl) hst.side hxq
  refine ⟨t, hte, hta, x, ?_, h1, h2, h3, h4, h5, h6, h7, h8, h10⟩
  unfold State.queue? at hxq ⊢
  rw [htb]
  exact hxq

end

end Sys2Proof.Machine
end

section
/-! PROOFS. STREAM_CLOSE and the end of a closing queue (R234, R387), and with them the stream commands. -/

namespace Sys2Proof.Machine

open State (steered)

/-! ### Tickets that stay -/

section
variable (s : State) {q : Nat} {c : Fin 16} {purge : Bool}

theorem State.lineOne_tickets (p : Fin 16) (b : Bool) : (s.lineOne p b).basin.tickets = s.basin.tickets := by
  unfold State.lineOne
  exact ite_keep (fun t => t.basin.tickets) (by rw [State.raise_basin]) rfl
theorem State.lineSync_tickets (p : Fin 16) : (s.lineSync p).basin.tickets = s.basin.tickets := by
  unfold State.lineSync
  rw [State.lineOne_tickets, State.lineOne_tickets]

/-- A queue without tickets has none that a purge discards. -/
theorem State.unpacked_empty (h : s.ticketsOf q = []) : s.unpacked q = [] := by
  unfold State.unpacked
  split
  · rw [h]
    exact ite_self _
  · rfl

/-! ### A queue that stops taking frames -/

/-- The queue marked as closing for the channel that waits. -/
def State.closing (s : State) (q : Nat) (c : Fin 16) : State := s.modQueue q (fun x => { x with closing := some c.val })

theorem State.closeStream_steered : steered (s.closing q c) (s.closeStream q purge c) := by
  unfold State.closeStream
  exact steered_trans (State.freeAll_steered ..) (steered_trans (State.count_steered ..)
    (steered_trans (State.flowSync_steered ..) (State.lineSync_steered ..)))
theorem State.closeStream_tickets (h : s.ticketsOf q = [] ∨ purge = false) : (s.closeStream q purge c).basin.tickets = s.basin.tickets := by
  have hids : (if purge then (s.closing q c).unpacked q else []) = [] := by
    obtain h | h := h
    · rw [State.unpacked_empty (s.closing q c) h]
      exact ite_self _
    · rw [if_neg (by simp [h])]
  unfold State.closeStream
  dsimp only
  unfold State.closing at hids
  rw [hids, State.lineSync_tickets, State.flowSync_tickets, State.count_basin]
  rfl
theorem State.closeStream_chan (d : Fin 16) : (s.closeStream q purge c).chan d = s.chan d := steered_chan s.closeStream_steered d
theorem State.closeStream_queue {x : Queue} (hx : s.queue? q = some x) : ∃ y, (s.closeStream q purge c).queue? q = some y ∧ y.closing = some c.val := by
  obtain ⟨y, hy, hf⟩ := steered_queue (s.closeStream_steered (purge := purge) (c := c)) (State.queue?_modQueue s hx fun _ => rfl)
  obtain ⟨-, -, -, -, -, -, -, -, hcl, -⟩ := fixed_attrs hf
  exact ⟨y, hy, hcl⟩

/-! ### The last ticket of a closing queue (R234) -/

theorem State.answer_queue? (d : Fin 16) (st : Nat) (ws : List Word) (e : Nat) : (s.answer d st ws e).queue? q = s.queue? q := by
  unfold State.queue?
  rw [State.answer_basin]
theorem State.closeDone_waits (h : s.ticketsOf q ≠ []) : s.closeDone q = s := by
  unfold State.closeDone
  split
  · rfl
  · rw [List.isEmpty_eq_false_iff.mpr h, Bool.not_false, Bool.or_true, if_pos rfl]

/-- A queue taken out, its port no longer stopped by it. -/
def State.evicted (s : State) (q : Nat) : State :=
  ({ s with basin := { s.basin with queues := s.others q } } : State).modPort (queuePort q)
    (fun y => { y with stopped := y.stopped.filter (· != BitVec.ofNat 8 q) })

/-- The queue taken out, with the flow control that follows. -/
def State.vacated (s : State) (q : Nat) : State := (((s.evicted q).gateSync (queuePort q)).hopSync).lineSync (queuePort q)

theorem State.evicted_vacated : steered (s.evicted q) (s.vacated q) :=
  steered_trans (State.gateSync_steered ..) (steered_trans (State.hopSync_steered _) (State.lineSync_steered ..))
theorem State.vacated_side : (s.vacated q).side = s.side := (State.evicted_vacated s).side
theorem State.vacated_queue : (s.vacated q).queue? q = none := by
  refine steered_queue_none s.evicted_vacated (List.find?_eq_none.mpr fun y hy => ?_)
  obtain ⟨-, hy⟩ := List.mem_filter.mp hy
  simpa using hy
theorem State.vacated_tickets : (s.vacated q).basin.tickets = s.basin.tickets := by
  unfold State.vacated
  rw [State.lineSync_tickets, State.hopSync_tickets, State.gateSync_basin]
  rfl

/-- Who waits is told by the channels alone. -/
theorem State.waiting_congr {t : State} (h : t.chans = s.chans) (f : LongCmd → Bool) : t.waiting f = s.waiting f := by
  unfold State.waiting State.chan
  rw [h]

/-- The queue is gone, then the waiting channel is answered. -/
theorem State.closeDone_ends {x : Queue} {d : Fin 16} (hx : s.queue? q = some x) (hcl : x.closing.isSome = true) (hk : s.ticketsOf q = [])
    (hw : s.waiting (isClose q) = some d) : s.closeDone q = (s.vacated q).answer d stOk [wd (65536 - s.basin.tickets.length)] := by
  have hww : (s.vacated q).waiting (isClose q) = some d := (s.waiting_congr (side_chans s.vacated_side) _).trans hw
  unfold State.closeDone
  rw [hx]
  dsimp only
  rw [hk, Option.isNone_eq_false_iff.mpr hcl, if_neg (by decide)]
  show (s.vacated q).answerWait (isClose q) stOk [wd (s.evicted q).freeTickets] = _
  unfold State.answerWait
  rw [hww]
  rfl

end

/-! ### The end of a closing queue as an event -/

section
variable {s : State} {k : Fin 4096} {d : Fin 16}

theorem State.waiting_holds {f : LongCmd → Bool} (h : s.waiting f = some d) : ∃ w, (s.chan d).work = some w ∧ f w = true := by
  have h := List.find?_some h
  rw [Bool.and_eq_true] at h
  obtain ⟨-, h⟩ := h
  split at h
  · next w hw => exact ⟨w, hw, h⟩
  · exact absurd h Bool.false_ne_true
theorem isClose_not_remote {q : Nat} {w : LongCmd} (h : isClose q w = true) (p : Nat) (r : BitVec 16) (a : Bool) : some w ≠ some (.remote p r a) := by
  rintro ⟨⟩
  cases h

variable (hc : s.clocked = true) (hw : s.waiting (isClose k.val) = some d)
include hc hw

theorem closeComplete_ends {x : Queue} (hx : s.queue? k.val = some x) (hcl : x.closing.isSome = true) (hk : s.ticketsOf k.val = []) :
    Does (.streamCloseComplete k) s (fun t => t.queue? k.val = none ∧ s.ended t d 0 [wd (65536 - s.basin.tickets.length)]) := by
  refine runs_does (t := s.closeDone k.val) hc rfl ?_
  rw [s.closeDone_ends hx hcl hk hw]
  refine ⟨?_, ?_⟩
  · rw [settle_queue?, State.answer_queue?]
    exact s.vacated_queue
  · refine (settle_answered ..).trans ?_
    exact congrArg (fun v : Vector Channel 16 => (v.get d).answered 0 0xFFFF [wd (65536 - s.basin.tickets.length)]) (side_chans s.vacated_side)
theorem closeComplete_waits (hk : s.ticketsOf k.val ≠ []) : Does (.streamCloseComplete k) s (fun t => t.basin = s.basin ∧ t.chan d = s.chan d) := by
  obtain ⟨w, hwk, hf⟩ := State.waiting_holds hw
  refine runs_does (t := s.closeDone k.val) hc rfl ?_
  rw [s.closeDone_waits hk]
  exact ⟨settle_basin .., settle_chan _ _ _ fun p r a => hwk ▸ isClose_not_remote hf p r a⟩

end

/-! ### STREAM_CLOSE (R234, R387) -/

section
variable {s : State} {c : Fin 16} {r : Request} {n : Nat} (ht : s.takes c r 1) (hn : n = fld (argWord r 0) 0 12)

/-- The state in which a queue is closed: rung, block 0x03 taken, and the channel waiting. -/
def State.closer (s : State) (c : Fin 16) (r : Request) (n : Nat) : State := ((s.rung c 0x21 r).own [3]).waitFor c (.streamClose n)

theorem State.closer_basin : (s.closer c r n).basin = s.basin := by
  obtain ⟨v, y, k, hu⟩ := s.rung_own c 0x21 r [3]
  unfold State.closer
  rw [hu]
  rfl
theorem State.closer_chan : (s.closer c r n).chan c = { (s.rung c 0x21 r).chan c with work := some (.streamClose n) } := by
  obtain ⟨k, hk⟩ := (s.rung c 0x21 r).own_eq [3]
  unfold State.closer State.waitFor
  rw [State.chan_modChan_same, hk]
  rfl

theorem State.closer_chan_ne {d : Fin 16} (h : d ≠ c) : (s.closer c r n).chan d = s.chan d := by
  obtain ⟨k, hk⟩ := (s.rung c 0x21 r).own_eq [3]
  have hr : (s.rung c 0x21 r).chan d = s.chan d := by
    simp only [State.rung, State.count_chan, State.chan_modChan_ne _ h]
    exact ite_keep (fun t => t.chan d) rfl (State.chan_modChan_ne s h _)
  unfold State.closer State.waitFor
  rw [State.chan_modChan_ne _ h, hk]
  exact hr

include ht

/-- The channel of the request is the one that waits: no other has a long-running command. -/
theorem State.takes.closer_waiting {t : State} (h : t.chans = (s.closer c r n).chans) : t.waiting (isClose n) = some c := by
  have hc : (s.closer c r n).waiting (isClose n) ≠ none := by
    intro hn
    have := List.find?_eq_none.mp hn c (List.mem_finRange c)
    rw [State.closer_chan] at this
    simp [s.rung_busy c 0x21 r, isClose] at this
  obtain ⟨⟨-, -, -, -, -, hw⟩, -⟩ := ht
  obtain ⟨d, hd⟩ := Option.ne_none_iff_exists'.mp hc
  obtain ⟨w, hdw, -⟩ := State.waiting_holds hd
  have hdc : d = c := by
    by_contra hne
    rw [State.closer_chan_ne hne, hw d] at hdw
    cases hdw
  rw [State.waiting_congr _ h, hd, hdc]

include hn

theorem State.takes.serveClose {x : Queue} (hx : s.queue? n = some x) :
    (s.rung c 0x21 r).serveClose c = ((s.closer c r n).closeStream n (bit (argWord r 0) 16) c).closeDone n := by
  obtain ⟨v, y, k, hu⟩ := s.rung_own c 0x21 r [3]
  have hq : ((s.rung c 0x21 r).own [3]).queue? n = some x := by
    rw [hu]
    exact hx
  unfold State.serveClose
  dsimp only
  rw [ht.arg, ← hn, hq]
  rfl

theorem streamClose_absent (hx : s.queue? n = none) : Does (.streamClose c r) s (fun t => t.answered c 0x21 r 4 ∧ t.basin = s.basin) := by
  obtain ⟨v, y, k, hu⟩ := s.rung_own c 0x21 r [3]
  obtain ⟨k2, hk⟩ := (s.rung c 0x21 r).own_eq [3]
  have he : (s.rung c 0x21 r).serveClose c = ((s.rung c 0x21 r).own [3]).answer c stBadArg [] 0 := by
    have hq : ((s.rung c 0x21 r).own [3]).queue? n = none := by
      rw [hu]
      exact hx
    unfold State.serveClose
    dsimp only
    rw [ht.arg, ← hn, hq]
  refine ht.does (code := 0x21) (sup := none) rfl (by decide) rfl ?_
  rw [show (s.rung c 0x21 r).serveCode c 0x21 none = _ from he]
  refine ⟨State.answered_of ht.idle (by decide) (d := 0) (by decide) (by decide) ((settle_answered ..).trans ?_), ?_⟩
  · rw [hk]
    rfl
  · rw [settle_basin]
    refine (State.answer_basin ..).trans ?_
    rw [hu]

theorem streamClose_empty (hx : (s.queue? n).isSome = true) (hk : s.ticketsOf n = []) :
    Does (.streamClose c r) s (fun t => t.gives c 0x21 r [wd (65536 - s.basin.tickets.length)] ∧ t.queue? n = none ∧ t.basin.tickets = s.basin.tickets) := by
  obtain ⟨x, hx⟩ := Option.isSome_iff_exists.mp hx
  let v := (s.closer c r n).closeStream n (bit (argWord r 0) 16) c
  have hxu : (s.closer c r n).queue? n = some x := by
    unfold State.queue?
    rw [State.closer_basin]
    exact hx
  have hvt : v.basin.tickets = s.basin.tickets := by
    refine (State.closeStream_tickets _ (.inl ?_)).trans (by rw [State.closer_basin])
    unfold State.ticketsOf
    rw [State.closer_basin]
    exact hk
  have hvk : v.ticketsOf n = [] := by
    unfold State.ticketsOf
    rw [hvt]
    exact hk
  obtain ⟨y, hy, hcl⟩ := (s.closer c r n).closeStream_queue (purge := bit (argWord r 0) 16) (c := c) hxu
  have hvw : v.waiting (isClose n) = some c := ht.closer_waiting (side_chans (State.closeStream_steered (s.closer c r n)).side)
  have hwc : (v.vacated n).chan c = { (s.rung c 0x21 r).chan c with work := some (.streamClose n) } := by
    refine (congrArg (fun v : Vector Channel 16 => v.get c) (side_chans v.vacated_side)).trans ?_
    exact (State.closeStream_chan _ c).trans State.closer_chan
  refine ht.does (code := 0x21) (sup := none) rfl (by decide) rfl ?_
  rw [show (s.rung c 0x21 r).serveCode c 0x21 none = _ from ht.serveClose hn hx, v.closeDone_ends hy (by rw [hcl]; rfl) hvk hvw, hvt]
  refine ⟨State.gives_of ht.idle (by decide) (st := stOk) (d := 0xFFFF) (by decide) (by decide) (by simp) ((settle_answered ..).trans ?_), ?_, ?_⟩
  · rw [hwc]
    rfl
  · rw [settle_queue?, State.answer_queue?]
    exact v.vacated_queue
  · rw [settle_basin, State.answer_basin]
    exact v.vacated_tickets.trans hvt

theorem streamClose_waits (hx : (s.queue? n).isSome = true) (hk : s.ticketsOf n ≠ []) (hp : bit (argWord r 0) 16 = false) :
    Does (.streamClose c r) s (fun t => t.waitsFor c (.streamClose n) ∧ t.basin.tickets = s.basin.tickets
      ∧ ∃ x, t.queue? n = some x ∧ x.closing = some c.val) := by
  obtain ⟨x, hx⟩ := Option.isSome_iff_exists.mp hx
  let v := (s.closer c r n).closeStream n (bit (argWord r 0) 16) c
  have hxu : (s.closer c r n).queue? n = some x := by
    unfold State.queue?
    rw [State.closer_basin]
    exact hx
  have hvt : v.basin.tickets = s.basin.tickets := (State.closeStream_tickets _ (.inr hp)).trans (by rw [State.closer_basin])
  have hvk : v.ticketsOf n ≠ [] := by
    unfold State.ticketsOf
    rw [hvt]
    exact hk
  have hvc : v.chan c = { (s.rung c 0x21 r).chan c with work := some (.streamClose n) } := (State.closeStream_chan _ c).trans State.closer_chan
  have hset (old : State) : (settle old v).chan c = v.chan c := settle_chan _ _ _ (by rw [hvc]; exact fun _ _ _ => nofun)
  obtain ⟨y, hy⟩ := (s.closer c r n).closeStream_queue (purge := bit (argWord r 0) 16) (c := c) hxu
  refine ht.does (code := 0x21) (sup := none) rfl (by decide) rfl ?_
  rw [show (s.rung c 0x21 r).serveCode c 0x21 none = _ from ht.serveClose hn hx, v.closeDone_waits hvk]
  refine ⟨⟨?_, ?_⟩, ?_, y, ?_⟩
  · rw [hset, hvc]
    exact s.rung_busy c 0x21 r
  · rw [hset, hvc]
  · rw [settle_basin]
    exact hvt
  · rw [settle_queue?]
    exact hy

end

/-! ### The statement -/

/-- Settles O35, by what admission answers, what a queue keeps while its plan is put in force, and what is left of it when it is closed. -/
theorem streamCommands : Obligations.StreamCommands := by
  unfold Obligations.StreamCommands
  intro s c r q hq
  have hnum : q.num = fld (argWord r 0) 0 12 := by rw [hq]
  refine ⟨fun ht hs => ?_, fun ht => ?_, fun k x d hc hx hcl => ?_⟩
  · have ha (code : Nat) : (s.rung c code r).argQueue c = q := by
      unfold State.argQueue
      dsimp only
      simp only [ht.arg]
      exact hq.symm
    have hcl : q.closing = none := by rw [hq]
    exact ⟨fun _ h => streamOpen_refused ht hs ha h, fun h => streamOpen_open ht hs ha h,
      fun _ hx hok hat hk hp => streamOpen_passes ht hs ha hcl hx hok hat hk hp, fun _ h => streamModify_refused ht hs ha h,
      fun _ _ hx hcl hok ho hcs hat hk hp => streamModify_passes ht hs ha hx hcl hok ho hcs hat hk hp⟩
  · exact ⟨streamClose_absent ht hnum, streamClose_empty ht hnum, streamClose_waits ht hnum⟩
  · exact ⟨fun hk hw => closeComplete_ends hc hw hx hcl hk, fun hk hw => closeComplete_waits hc hw hk⟩

end Sys2Proof.Machine
end

section
/-! PROOFS. TIME_SET and TIME_ADJUST (R276, R277, R386), with what every command of block 0x02 shares: it is served once the doorbell
is rung and the block taken, and what closes it leaves vehicle time, the registers and the keeper as its effect left them. -/

namespace Sys2Proof.Machine

/-! ### How a command of block 0x02 is served and closed (R382 to R384) -/

/-- The state in which a command of block 0x02 is served: rung, and the block taken. -/
def State.timekeeper (s : State) (c : Fin 16) (code : Nat) (r : Request) : State := (s.rung c code r).own [2]

section
variable (s : State) (c : Fin 16) (code : Nat) (r : Request)

theorem State.timekeeper_eq : ∃ v y k, s.timekeeper c code r = { s with chans := v, tally := y, keeper := k } := s.rung_own c code r [2]
theorem State.timekeeper_time : (s.timekeeper c code r).time = s.time := by
  obtain ⟨v, y, k, h⟩ := s.timekeeper_eq c code r
  rw [h]
theorem State.timekeeper_regs : (s.timekeeper c code r).regs = s.regs := by
  obtain ⟨v, y, k, h⟩ := s.timekeeper_eq c code r
  rw [h]
theorem State.timekeeper_chan : (s.timekeeper c code r).chan c = (s.rung c code r).chan c := by
  obtain ⟨k, h⟩ := (s.rung c code r).own_eq [2]
  unfold State.timekeeper
  rw [h]
  rfl
theorem State.timekeeper_owns : (s.timekeeper c code r).keeper.owns 2 = true := by
  show ((s.rung c code r).ownOne 2).keeper.owns 2 = true
  unfold State.ownOne
  split
  · next h => exact h
  · show (setBit (s.rung c code r).keeper.owner 2 true).getLsbD 2 = true
    rw [setBit_bit _ _ _ _ (by decide)]
    rfl

end

/-- What the close of a command leaves of its effect, as far as the commands of block 0x02 tell. -/
structure State.ClosesTo (u t : State) : Prop where
  time : t.time = u.time
  regs : t.regs = u.regs
  keeper : t.keeper = u.keeper
  xferStep : ∀ p, (t.port p).xferStep = (u.port p).xferStep

theorem settle_closesTo (old u : State) : u.ClosesTo (settle old u) :=
  ⟨settle_time .., settle_regs .., settle_keeper .., settle_port_xferStep old u⟩
theorem settle_answer_closesTo (old u : State) (c : Fin 16) (st : Nat) (ws : List Word) (d : Nat) : u.ClosesTo (settle old (u.answer c st ws d)) := by
  obtain ⟨h1, h2, h3, h4⟩ := settle_closesTo old (u.answer c st ws d)
  exact ⟨h1.trans (State.answer_time ..), h2.trans (State.answer_regs ..), h3.trans (State.answer_keeper ..),
    fun p => (h4 p).trans (by rw [State.answer_port])⟩

section
variable {s u : State} {c : Fin 16} {r : Request} {n code : Nat} (ht : s.takes c r n) {i : Instr} (he : exec i s = s.runs (s.issueCmd c code r)) (hc : code < 256)
  (hn : ((s.rung c code r).chan c).need code = some n)
include ht he hc hn

/-- A command that ends with its answer. -/
theorem State.takes.answers {st d : Nat} {ws : List Word} (hv : (s.rung c code r).serveCode c code none = u.answer c st ws d)
    (hu : u.chan c = (s.rung c code r).chan c) (hs : st < 65536) (hd : d < 65536) (hw : ws.length ≤ 60) :
    Does i s (fun t => (t.answered c code r st ∧ ∀ k < ws.length, t.result c k = ws.getD k 0) ∧ u.ClosesTo t) := by
  refine ht.does he hc hn ?_
  rw [hv]
  exact ⟨State.gives_of ht.idle hc hs hd hw ((settle_answered ..).trans (by rw [hu])), settle_answer_closesTo ..⟩

/-- A command of block 0x02 refused with a status leaves vehicle time as it was. -/
theorem State.takes.refusedTime {st d : Nat} (hv : (s.rung c code r).serveCode c code none = (s.timekeeper c code r).answer c st [] d)
    (hs : st < 65536) (hd : d < 65536) : Does i s (fun t => t.answered c code r st ∧ t.time = s.time) :=
  (ht.answers he hc hn hv (s.timekeeper_chan c code r) hs hd (by decide)).mono fun _ ⟨⟨ha, _⟩, hk⟩ => ⟨ha, hk.time.trans (s.timekeeper_time c code r)⟩

/-- A command that waits on its channel, for no REMOTE operation. -/
theorem State.takes.waits {w : LongCmd} (hv : (s.rung c code r).serveCode c code none = u.waitFor c w)
    (hu : u.chan c = (s.rung c code r).chan c) (hw : ∀ p r a, w ≠ .remote p r a) : Does i s (fun t => t.waitsFor c w ∧ u.ClosesTo t) := by
  have hk : (u.waitFor c w).chan c = { (s.rung c code r).chan c with work := some w } := (State.chan_modChan_same ..).trans (by rw [hu])
  refine ht.does he hc hn ?_
  rw [hv]
  refine ⟨?_, ?_⟩
  · unfold State.waitsFor
    rw [settle_chan _ _ _ (by rw [hk]; exact fun p r a h => hw p r a (Option.some.inj h)), hk]
    exact ⟨s.rung_busy c code r, rfl⟩
  · obtain ⟨h1, h2, h3, h4⟩ := settle_closesTo s (u.waitFor c w)
    exact ⟨h1, h2, h3, h4⟩

end

/-! ### What a step of vehicle time changes beside the time (R290, R293) -/

/-- A change of the calendar's entries and its two counts, of the event ring and of the tally alone. -/
def calWork (s t : State) : Prop := ∃ l a b g y, t = { s with time := { s.time with cal := l, lateCnt := a, dropped := b }, ring := g, tally := y }

section
variable {s t u : State}

theorem calWork_refl (s : State) : calWork s s := ⟨s.time.cal, s.time.lateCnt, s.time.dropped, s.ring, s.tally, rfl⟩
theorem calWork_trans (h : calWork s t) (k : calWork t u) : calWork s u := by
  obtain ⟨_, _, _, _, _, rfl⟩ := h
  obtain ⟨l, a, b, g, y, rfl⟩ := k
  exact ⟨l, a, b, g, y, rfl⟩
theorem calWork_ite {c : Prop} [Decidable c] (h : calWork s t) (k : calWork s u) : calWork s (if c then t else u) := by split <;> assumption
theorem calWork_chan (h : calWork s t) (c : Fin 16) : t.chan c = s.chan c := by
  obtain ⟨_, _, _, _, _, rfl⟩ := h
  rfl

variable (s)

theorem State.count_calWork (b k n : Nat) : calWork s (s.count b k n) := by
  obtain ⟨y, h⟩ := s.countCode_eq b (0x200 + k) n
  exact ⟨_, _, _, _, y, h⟩
theorem State.raise_calWork (k b v : Nat) (w x y z : Word) : calWork s (s.raise k b v w x y z) :=
  calWork_trans ⟨_, _, _, s.ring.push (s.record k b v w x y z), _, rfl⟩ (State.count_calWork _ 0 _ 1)
theorem State.putCal_calWork (e : Nat) (x : CalEntry) : calWork s (s.putCal e x) := ⟨_, _, _, _, _, rfl⟩
theorem State.delCal_calWork (e : Nat) : calWork s (s.delCal e) := ⟨_, _, _, _, _, rfl⟩
theorem State.noteLate_calWork (e : Nat) : calWork s (s.noteLate e) :=
  calWork_trans (calWork_trans ⟨_, satAdd 0xFFFF s.time.lateCnt 1, _, _, _, rfl⟩ (State.raise_calWork ..)) (State.count_calWork ..)
theorem State.noteDropped_calWork (e : Nat) : calWork s (s.noteDropped e) :=
  calWork_trans (calWork_trans ⟨_, _, satAdd 0xFFFF s.time.dropped 1, _, _, rfl⟩ (State.raise_calWork ..)) (State.count_calWork ..)
theorem State.heldLate_calWork (e : Nat) (x : CalEntry) : calWork s ((s.putCal e x).noteLate e) := calWork_trans (s.putCal_calWork e x) (State.noteLate_calWork _ e)
theorem State.rearm_calWork (e n : Nat) (x : CalEntry) : calWork s (State.rearm e n s x) := by
  induction n generalizing s x with
  | zero => exact s.delCal_calWork e
  | succ n ih =>
    unfold State.rearm
    dsimp only
    refine calWork_ite (s.delCal_calWork e) ?_
    split
    · exact s.putCal_calWork e _
    · exact ih s _
    · exact calWork_trans (s.noteDropped_calWork e) (ih _ _)
    · exact s.heldLate_calWork e _
    · exact s.putCal_calWork e _
theorem State.stepEntry_calWork (old : Nat) (e : Nat × CalEntry) : calWork s (State.stepEntry old s e) := by
  unfold State.stepEntry
  dsimp only
  refine calWork_ite ?_ (calWork_ite ?_ (calWork_refl s))
  · split
    · exact s.putCal_calWork e.1 _
    · exact calWork_refl s
  · split
    · exact calWork_ite (calWork_trans (s.noteDropped_calWork e.1) (State.rearm_calWork ..)) (s.heldLate_calWork e.1 _)
    · exact s.heldLate_calWork e.1 _

/-- Vehicle time set, a slew cancelled, every exchange of time transfer marked as stepped: a load before its part in the calendar. -/
def State.loaded (new : Nat) : State :=
  { s with time := { s.time with now := new, fifths := 0, slew := none }, ports := s.ports.map (fun (x : Port) => { x with xferStep := true }) }

theorem State.loadTime_calWork (new : Nat) : calWork (s.loaded new) (s.loadTime new) :=
  calWork_trans (List.foldlRecOn _ _ (calWork_refl _) fun _ ht e _ => calWork_trans ht (State.stepEntry_calWork _ s.time.now e)) (State.raise_calWork ..)

/-- A load (R276): the time is the one given, with no fraction and no slew, the rate stays, every exchange starts anew. -/
theorem State.loadTime_sets (new : Nat) : (s.loadTime new).time.now = new ∧ (s.loadTime new).time.fifths = 0 ∧ (s.loadTime new).time.slew = none
    ∧ (s.loadTime new).time.rho = s.time.rho ∧ ∀ p, ((s.loadTime new).port p).xferStep = true := by
  obtain ⟨l, a, b, g, y, h⟩ := s.loadTime_calWork new
  rw [h]
  refine ⟨rfl, rfl, rfl, rfl, fun p => ?_⟩
  show Port.xferStep ((s.ports.map _)[p.val]) = true
  rw [Vector.getElem_map]
theorem State.loadTime_chan (new : Nat) (c : Fin 16) : (s.loadTime new).chan c = s.chan c := calWork_chan (s.loadTime_calWork new) c

end

/-! ### TIME_SET (R276, R386) -/

section
variable {s : State} {c : Fin 16} {r : Request} {v : Nat} (ht : s.takes c r 4)
  (hv : v = vehicleTime ((argWord r 2).toNat + fld (argWord r 3) 0 16 * 2 ^ 32) (argWord r 1).toNat (fld (argWord r 3) 16 16))
include ht hv

/-- TIME_SET as its request gives the arguments. -/
theorem State.takes.serveTimeSet : (s.rung c 0x30 r).serveCode c 0x30 none =
    if 10 ^ 9 ≤ (argWord r 1).toNat then (s.timekeeper c 0x30 r).answer c stBadArg [] 1
    else if bit (argWord r 0) 0 then
      ({ s.timekeeper c 0x30 r with time := { s.time with setWait := s.time.setWait ++ [(v, c.val)] } } : State).waitFor c .timeSetTsync
    else (s.timekeeper c 0x30 r).loadAnswered c v := by
  rw [← s.timekeeper_time c 0x30 r, hv]
  show (s.rung c 0x30 r).serveTimeSet c = _
  unfold State.serveTimeSet
  dsimp only
  simp only [ht.arg]
  rfl

theorem timeSet_badNanoseconds (h : 10 ^ 9 ≤ (argWord r 1).toNat) : Does (.timeSet c r) s (fun t => t.answered c 0x30 r 4 ∧ t.time = s.time) :=
  ht.refusedTime rfl (by decide) rfl ((ht.serveTimeSet hv).trans (if_pos h)) (by decide) (by decide)

section
variable (h : (argWord r 1).toNat < 10 ^ 9)
include h

theorem timeSet_waits (hb : bit (argWord r 0) 0 = true) : Does (.timeSet c r) s (fun t =>
    t.waitsFor c .timeSetTsync ∧ t.time = { s.time with setWait := s.time.setWait ++ [(v, c.val)] }) :=
  (ht.waits rfl (by decide) rfl ((ht.serveTimeSet hv).trans ((if_neg (Nat.not_le.mpr h)).trans (if_pos hb))) (s.timekeeper_chan c 0x30 r)
    fun _ _ _ => nofun).mono fun _ ⟨hw, hk⟩ => ⟨hw, hk.time⟩

theorem timeSet_loads (hb : bit (argWord r 0) 0 = false) : Does (.timeSet c r) s (fun t =>
    t.gives c 0x30 r [wdI (satI 32 (((v : Int) - s.time.now) / (subNs : Int)))] ∧ t.time.now = v ∧ t.time.fifths = 0 ∧ t.time.slew = none
      ∧ t.time.rho = s.time.rho ∧ ∀ p, (t.port p).xferStep = true) := by
  have he := (ht.serveTimeSet hv).trans ((if_neg (Nat.not_le.mpr h)).trans (if_neg (ne_true_of_eq_false hb)))
  unfold State.loadAnswered at he
  rw [State.timekeeper_time] at he
  refine (ht.answers rfl (by decide) rfl he ((State.loadTime_chan ..).trans (s.timekeeper_chan c 0x30 r)) (by decide) (by decide) (by simp)).mono
    fun t ⟨ha, hk⟩ => ⟨ha, ?_⟩
  obtain ⟨h1, h2, h3, h4, h5⟩ := (s.timekeeper c 0x30 r).loadTime_sets v
  rw [hk.time]
  exact ⟨h1, h2, h3, h4.trans (by rw [State.timekeeper_time]), fun p => (hk.xferStep p).trans (h5 p)⟩

end
end

theorem timeSetTsyncTimeout_ends {s : State} {c : Fin 16} (hc : s.clocked = true) (hw : ∃ v, (v, c.val) ∈ s.time.setWait) :
    Does (.timeSetTsyncTimeout c) s (fun t => s.ended t c 7 [] ∧ t.time.now = s.time.now ∧ ∀ e ∈ t.time.setWait, e.2 ≠ c.val) := by
  obtain ⟨v, hm⟩ := hw
  have hany : s.time.setWait.any (fun e => e.2 == c.val) = true := List.any_eq_true.mpr ⟨_, hm, by simp⟩
  refine runs_does hc (t := s.timeSetLate c) rfl ?_
  unfold State.timeSetLate
  rw [if_pos hany]
  refine ⟨settle_answered .., ?_, fun e he => ?_⟩
  · rw [settle_time, State.answer_time]
  · rw [settle_time, State.answer_time] at he
    simpa using (List.mem_filter.mp he).2

/-! ### TIME_ADJUST (R277) -/

section
variable {s : State} {c : Fin 16} {r : Request} {v : Int} (ht : s.takes c r 2) (hv : v = (argWord r 1).toInt)
include ht hv

/-- TIME_ADJUST as its request gives the arguments. -/
theorem State.takes.serveAdjust : (s.rung c 0x31 r).serveCode c 0x31 none =
    match fld (argWord r 0) 0 2 with
    | 0 =>
      if rateLimit < v.natAbs then (s.timekeeper c 0x31 r).answer c stBadArg [] 1
      else ({ s.timekeeper c 0x31 r with time := { s.time with rho := v } } : State).answer c stOk []
    | 1 => if 10 ^ 6 < v.natAbs then (s.timekeeper c 0x31 r).answer c stBadArg [] 1 else ((s.timekeeper c 0x31 r).startSlew v).answer c stOk []
    | 2 => ((s.timekeeper c 0x31 r).stepTime v).answer c stOk []
    | _ => (s.timekeeper c 0x31 r).answer c stBadArg [] 0 := by
  rw [← s.timekeeper_time c 0x31 r, hv]
  show (s.rung c 0x31 r).serveAdjust c = _
  unfold State.serveAdjust
  dsimp only
  simp only [ht.arg]
  rfl

section
variable (hf : fld (argWord r 0) 0 2 = 0)
include hf

theorem timeAdjust_rate (h : v.natAbs ≤ 2 ^ 40 / 1000) :
    Does (.timeAdjustRate c r) s (fun t => t.answered c 0x31 r 0 ∧ t.time = { s.time with rho := v }) := by
  have he := ht.serveAdjust hv
  rw [hf] at he
  exact (ht.answers rfl (by decide) rfl (he.trans (if_neg (Nat.not_lt.mpr h))) (s.timekeeper_chan c 0x31 r) (by decide) (by decide) (by decide)).mono
    fun t ⟨⟨ha, _⟩, hk⟩ => ⟨ha, hk.time⟩
theorem timeAdjust_rateTooLarge (h : 2 ^ 40 / 1000 < v.natAbs) : Does (.timeAdjustRate c r) s (fun t => t.answered c 0x31 r 4 ∧ t.time = s.time) := by
  have he := ht.serveAdjust hv
  rw [hf] at he
  exact ht.refusedTime rfl (by decide) rfl (he.trans (if_pos h)) (by decide) (by decide)

end

section
variable (hf : fld (argWord r 0) 0 2 = 1)
include hf

theorem timeAdjust_slew (h : v.natAbs ≤ 10 ^ 6) :
    Does (.timeAdjustSlew c r) s (fun t => t.answered c 0x31 r 0 ∧ t.time = { s.time with slew := some (v * subNs * 5) }) := by
  have he := ht.serveAdjust hv
  rw [hf] at he
  refine (ht.answers rfl (by decide) rfl (he.trans (if_neg (Nat.not_lt.mpr h))) (s.timekeeper_chan c 0x31 r) (by decide) (by decide) (by decide)).mono
    fun t ⟨⟨ha, _⟩, hk⟩ => ⟨ha, hk.time.trans ?_⟩
  unfold State.startSlew
  rw [State.timekeeper_time]
theorem timeAdjust_slewTooLarge (h : 10 ^ 6 < v.natAbs) : Does (.timeAdjustSlew c r) s (fun t => t.answered c 0x31 r 4 ∧ t.time = s.time) := by
  have he := ht.serveAdjust hv
  rw [hf] at he
  exact ht.refusedTime rfl (by decide) rfl (he.trans (if_pos h)) (by decide) (by decide)

end

theorem timeAdjust_step (hf : fld (argWord r 0) 0 2 = 2) : Does (.timeAdjustStep c r) s (fun t => t.answered c 0x31 r 0
    ∧ t.time.now = ((s.time.now : Int) + v * subNs).toNat ∧ t.time.slew = none ∧ t.time.rho = s.time.rho ∧ ∀ p, (t.port p).xferStep = true) := by
  have he := ht.serveAdjust hv
  rw [hf] at he
  unfold State.stepTime at he
  rw [State.timekeeper_time] at he
  refine (ht.answers rfl (by decide) rfl he ((State.loadTime_chan ..).trans (s.timekeeper_chan c 0x31 r)) (by decide) (by decide) (by decide)).mono
    fun t ⟨⟨ha, _⟩, hk⟩ => ⟨ha, ?_⟩
  obtain ⟨h1, -, h3, h4, h5⟩ := (s.timekeeper c 0x31 r).loadTime_sets ((s.time.now : Int) + v * subNs).toNat
  rw [hk.time]
  exact ⟨h1, h3, h4.trans (by rw [State.timekeeper_time]), fun p => (hk.xferStep p).trans (h5 p)⟩

end

/-! ### The statement -/

/-- Settles O37: TIME_SET by its arguments and its time-out, TIME_ADJUST by its form. -/
theorem timeCommands : Obligations.TimeCommands := by
  unfold Obligations.TimeCommands
  refine ⟨fun s c r v ht hv => ⟨timeSet_badNanoseconds ht hv, timeSet_waits ht hv, timeSet_loads ht hv⟩,
    fun s c hc hw => timeSetTsyncTimeout_ends hc hw,
    fun s c r v ht hv => ⟨fun hf => ⟨timeAdjust_rate ht hv hf, timeAdjust_rateTooLarge ht hv hf⟩,
      fun hf => ⟨timeAdjust_slew ht hv hf, timeAdjust_slewTooLarge ht hv hf⟩, timeAdjust_step ht hv⟩⟩

end Sys2Proof.Machine
end

section
/-! PROOFS. CADENCE_SET and CADENCE_LEARN (R285, R287, R288, R388): what they leave of the table of cadence entries, and what the
learnt cadence is. -/

namespace Sys2Proof.Machine

/-! ### The table of cadence entries (R285) -/

theorem find?_tabDel_ne {α : Type} (t : List (Nat × α)) {n m : Nat} (h : m ≠ n) : (tabDel t n).find? (fun x => x.1 == m) = t.find? (fun x => x.1 == m) := by
  unfold tabDel
  rw [List.find?_filter]
  refine congrArg (fun p => t.find? p) (funext fun a => ?_)
  by_cases ha : a.1 = m
  · simp [ha, h]
  · simp [ha]

/-- An entry that loses the governance of a port to another entry (R285). -/
def Cadence.cedes (k x : Cadence) : Cadence := if k.govern && x.queue / 256 == k.queue / 256 then { x with govern := false } else x

section
variable (s : State) {e j : Nat}

theorem State.cad?_freeCad (e : Nat) : (s.freeCad e).time.cad? e = none := congrArg (Option.map Prod.snd) (find?_tabDel_same ..)
theorem State.cad?_freeCad_ne (h : j ≠ e) : (s.freeCad e).time.cad? j = s.time.cad? j := congrArg (Option.map Prod.snd) (find?_tabDel_ne _ h)
theorem State.cad?_putCad (e : Nat) (k : Cadence) : (s.putCad e k).time.cad? e = some k := congrArg (Option.map Prod.snd) (find?_tabIns_same ..)
theorem State.cad?_putCad_ne (h : j ≠ e) (k : Cadence) : (s.putCad e k).time.cad? j = s.time.cad? j :=
  congrArg (Option.map Prod.snd) (find?_tabIns_ne _ _ _ h)

/-- Governance is taken from the other entries of the port, in the table alone. -/
theorem State.takeGovern_eq {k : Cadence} (hk : s.time.cad? e = some k) :
    s.takeGovern e = { s with time := { s.time with cads := s.time.cads.map (fun x => (x.1, if x.1 = e then x.2 else k.cedes x.2)) } } := by
  unfold State.takeGovern
  rw [hk]
  dsimp only
  split
  · next hg =>
    refine congrArg (fun l => ({ s with time := { s.time with cads := l } } : State)) (List.map_congr_left fun ⟨i, x⟩ _ => ?_)
    by_cases hi : i = e <;> by_cases hq : x.queue / 256 = k.queue / 256 <;> simp [Cadence.cedes, hg, hi, hq]
  · next hg =>
    have hid : s.time.cads.map (fun x => (x.1, if x.1 = e then x.2 else k.cedes x.2)) = s.time.cads :=
      (List.map_congr_left fun x _ => by simp [Cadence.cedes, hg]).trans (List.map_id _)
    rw [hid]
theorem State.cad?_takeGovern {k : Cadence} (hk : s.time.cad? e = some k) :
    (s.takeGovern e).time.cad? e = some k ∧ ∀ j ≠ e, (s.takeGovern e).time.cad? j = (s.time.cad? j).map k.cedes := by
  have hf (j : Nat) : (s.takeGovern e).time.cad? j = (s.time.cads.find? (fun x => x.1 == j)).map (fun x => if x.1 = e then x.2 else k.cedes x.2) := by
    rw [s.takeGovern_eq hk]
    unfold TimeUnit.cad?
    rw [List.find?_map, Option.map_map]
    rfl
  refine ⟨?_, fun j hj => ?_⟩
  · unfold TimeUnit.cad? at hk
    obtain ⟨x, hx, hxk⟩ := Option.map_eq_some_iff.mp hk
    have he : x.1 = e := by simpa using List.find?_some hx
    rw [hf, hx, Option.map_some, if_pos he, hxk]
  · rw [hf]
    unfold TimeUnit.cad?
    cases hx : s.time.cads.find? (fun x => x.1 == j) with
    | none => rfl
    | some x =>
      have he : x.1 = j := by simpa using List.find?_some hx
      rw [Option.map_some, if_neg (by rw [he]; exact hj)]
      rfl

/-- An entry stored as CADENCE_SET stores it: put into the table, its governance taken, and what hangs on it computed anew (R288). -/
def State.storeCad (s : State) (e : Nat) (k : Cadence) : State :=
  if k.track then ((s.putCad e k).takeGovern e).reanchor e else (s.putCad e k).takeGovern e

theorem State.storeCad_chan (e : Nat) (k : Cadence) (c : Fin 16) : (s.storeCad e k).chan c = s.chan c := by
  have h : ((s.putCad e k).takeGovern e).chan c = s.chan c := by
    rw [State.takeGovern_eq _ (s.cad?_putCad e k)]
    rfl
  exact ite_keep (fun t => t.chan c) h h
theorem State.cad?_storeCad (e : Nat) (k : Cadence) :
    (s.storeCad e k).time.cad? e = some k ∧ ∀ j ≠ e, (s.storeCad e k).time.cad? j = (s.time.cad? j).map k.cedes := by
  obtain ⟨h1, h2⟩ := State.cad?_takeGovern _ (s.cad?_putCad e k)
  have h3 (j : Nat) : (s.storeCad e k).time.cad? j = ((s.putCad e k).takeGovern e).time.cad? j := ite_keep (fun t => t.time.cad? j) rfl rfl
  exact ⟨(h3 e).trans h1, fun j hj => (h3 j).trans ((h2 j hj).trans (by rw [s.cad?_putCad_ne hj]))⟩

end

/-! ### CADENCE_SET (R285, R388) -/

/-- The fields of a cadence entry as a request gives them (R388). -/
def reqCadence (r : Request) : Cadence :=
  { queue := fld (argWord r 0) 16 12, pf := (argWord r 1).toNat + (argWord r 2).toNat * 2 ^ 32, pl := (argWord r 3).toNat + (argWord r 4).toNat * 2 ^ 32
    nl := fld (argWord r 5) 0 14, a0 := fld (argWord r 6) 0 14, na := fld (argWord r 6) 16 14
    ta := (((argWord r 8).toNat + fld (argWord r 9) 0 16 * 2 ^ 32) * 10 ^ 9 + fld (argWord r 7) 0 30) * 65536 + fld (argWord r 9) 16 16
    govern := bit (argWord r 0) 28, track := bit (argWord r 0) 29 }

section
variable {s : State} {c : Fin 16} {r : Request} {n e : Nat} (ht : s.takes c r n)
include ht

/-- The words that CADENCE_SET needs. -/
theorem State.takes.need_cadence (hn : n = if bit (argWord r 0) 30 then 1 else 10) : ((s.rung c 0x23 r).chan c).need 0x23 = some n := by
  rw [hn, ← ht.arg 0x23 0]
  rfl

variable (he : e = fld (argWord r 0) 0 8)
include he

/-- CADENCE_SET as its request gives the arguments. -/
theorem State.takes.serveCadence : (s.rung c 0x23 r).serveCode c 0x23 none =
    if bit (argWord r 0) 30 then ((s.timekeeper c 0x23 r).freeCad e).answer c stOk []
    else if !(reqCadence r).ok then (s.timekeeper c 0x23 r).answer c 0x0102 []
    else ((s.timekeeper c 0x23 r).storeCad e (reqCadence r)).answer c stOk [] := by
  have hk : (s.rung c 0x23 r).argCadence c = reqCadence r := by
    unfold State.argCadence
    dsimp only
    simp only [ht.arg]
    rfl
  show (s.rung c 0x23 r).serveCadence c = _
  unfold State.serveCadence
  dsimp only
  rw [hk, ht.arg, ← he]
  rfl

theorem cadenceSet_clears (hn : n = 1) (hb : bit (argWord r 0) 30 = true) : Does (.cadenceSet c r) s (fun t => t.answered c 0x23 r 0
    ∧ t.time.cad? e = none ∧ t.keeper.owns 2 = true ∧ ∀ j ≠ e, t.time.cad? j = s.time.cad? j) := by
  refine (ht.answers rfl (by decide) (ht.need_cadence (by rw [hb, hn]; rfl)) ((ht.serveCadence he).trans (if_pos hb)) (s.timekeeper_chan c 0x23 r)
    (by decide) (by decide) (by decide)).mono fun t ⟨⟨ha, _⟩, hk⟩ => ⟨ha, ?_, ?_, fun j hj => ?_⟩
  · rw [hk.time]
    exact State.cad?_freeCad _ e
  · rw [hk.keeper]
    exact s.timekeeper_owns c 0x23 r
  · rw [hk.time, State.cad?_freeCad_ne _ hj, s.timekeeper_time]

section
variable (hn : n = 10) (hb : bit (argWord r 0) 30 = false)
include hn hb

theorem cadenceSet_stores (hok : (reqCadence r).ok = true) : Does (.cadenceSet c r) s (fun t => t.answered c 0x23 r 0 ∧ t.time.cad? e = some (reqCadence r)
    ∧ ∀ j ≠ e, ∀ x, s.time.cad? j = some x → t.time.cad? j = some ((reqCadence r).cedes x)) := by
  obtain ⟨h1, h2⟩ := (s.timekeeper c 0x23 r).cad?_storeCad e (reqCadence r)
  refine (ht.answers rfl (by decide) (ht.need_cadence (by rw [hb, hn]; rfl))
    ((ht.serveCadence he).trans ((if_neg (ne_true_of_eq_false hb)).trans (if_neg (by rw [hok]; decide))))
    ((State.storeCad_chan ..).trans (s.timekeeper_chan c 0x23 r)) (by decide) (by decide) (by decide)).mono
    fun t ⟨⟨ha, _⟩, hk⟩ => ⟨ha, hk.time ▸ h1, fun j hj x hx => ?_⟩
  rw [hk.time, h2 j hj, s.timekeeper_time, hx]
  rfl
theorem cadenceSet_refuses (hok : (reqCadence r).ok = false) : Does (.cadenceSet c r) s (fun t => t.answered c 0x23 r 0x0102 ∧ t.time = s.time) :=
  ht.refusedTime rfl (by decide) (ht.need_cadence (by rw [hb, hn]; rfl))
    ((ht.serveCadence he).trans ((if_neg (ne_true_of_eq_false hb)).trans (if_pos (by rw [hok]; rfl)))) (by decide) (by decide)

end
end

/-! ### CADENCE_LEARN (R287, R388) -/

section
variable {s : State} {c : Fin 16} {r : Request} {nl a0 na : Nat} (ht : s.takes c r 3) (hl : nl = fld (argWord r 1) 0 14) (h0 : a0 = fld (argWord r 2) 0 14)
  (hna : na = fld (argWord r 2) 16 14)
include ht hl h0 hna

/-- CADENCE_LEARN as its request gives the arguments. -/
theorem State.takes.serveLearn : (s.rung c 0x24 r).serveCode c 0x24 none =
    if nl < 2 ∨ 8192 < nl then (s.timekeeper c 0x24 r).answer c stBadArg [] 1
    else if na < 1 ∨ nl < a0 + na then (s.timekeeper c 0x24 r).answer c stBadArg [] 2
    else ({ s.timekeeper c 0x24 r with time := { s.time with learns := s.time.learns ++
      [⟨fld (argWord r 0) 0 8, fld (argWord r 0) 16 12, bit (argWord r 0) 28, nl, a0, na, c.val⟩] } } : State).waitFor c
        (.cadenceLearn (fld (argWord r 0) 0 8)) := by
  rw [← s.timekeeper_time c 0x24 r, hl, h0, hna]
  show (s.rung c 0x24 r).serveLearn c = _
  unfold State.serveLearn
  dsimp only
  simp only [ht.arg]
  rfl

theorem cadenceLearn_refuses (h : nl < 2 ∨ 8192 < nl ∨ na < 1 ∨ nl < a0 + na) :
    Does (.cadenceLearn c r) s (fun t => t.answered c 0x24 r 4 ∧ t.time = s.time) := by
  have hs := ht.serveLearn hl h0 hna
  by_cases hn : nl < 2 ∨ 8192 < nl
  · exact ht.refusedTime rfl (by decide) rfl (hs.trans (if_pos hn)) (by decide) (by decide)
  · exact ht.refusedTime rfl (by decide) rfl (hs.trans ((if_neg hn).trans (if_pos (by omega)))) (by decide) (by decide)
theorem cadenceLearn_waits (h2 : 2 ≤ nl) (h3 : nl ≤ 8192) (h4 : 1 ≤ na) (h5 : a0 + na ≤ nl) : Does (.cadenceLearn c r) s (fun t =>
    t.waitsFor c (.cadenceLearn (fld (argWord r 0) 0 8)) ∧ t.time = { s.time with learns := s.time.learns ++
      [⟨fld (argWord r 0) 0 8, fld (argWord r 0) 16 12, bit (argWord r 0) 28, nl, a0, na, c.val⟩] }) :=
  (ht.waits rfl (by decide) rfl ((ht.serveLearn hl h0 hna).trans ((if_neg (by omega)).trans (if_neg (by omega)))) (s.timekeeper_chan c 0x24 r)
    fun _ _ _ => nofun).mono fun _ ⟨hw, hk⟩ => ⟨hw, hk.time⟩

end

/-! ### What seventeen burst starts give (R287) -/

theorem learnt_fields {l : LearnRec} {b : List Nat} {k : Cadence} (h : learnt l b = some k) :
    k.pf = (b.getD 16 0 - b.getD 0 0) / 16 ∧ k.pl = k.pf / max 1 l.nl ∧ k.ta = b.getD 16 0 - l.a0 * k.pl
      ∧ ∀ i < 16, 100 * (((b.getD (i + 1) 0 : Int) - b.getD i 0 - k.pf).natAbs) ≤ k.pf := by
  unfold learnt at h
  dsimp only at h
  split at h
  · cases h
  · next hany =>
    cases h
    refine ⟨rfl, rfl, rfl, fun i hi => ?_⟩
    simp only [List.any_eq_true, List.mem_range, decide_eq_true_eq, not_exists, not_and, Nat.not_lt] at hany
    exact hany i hi

section
variable {s : State} {e : Fin 256} {d : Fin 16} (hc : s.clocked = true) (hw : s.waiting (fun w => w == .cadenceLearn e.val) = some d)
include hc hw

/-- Learning that ends answers the channel that waits and drops what was being learnt of the entry. -/
theorem endLearn_does {i : Instr} {u : State} {st : Nat} {ws : List Word} (he : exec i s = s.runs (u.endLearn e.val st ws)) (hu : u.chans = s.chans) :
    Does i s (fun t => s.ended t d st ws ∧ t.time = { u.time with learns := u.time.learns.filter (fun l => l.entry != e.val) }) := by
  let u1 : State := { u with time := { u.time with learns := u.time.learns.filter (fun l => l.entry != e.val) } }
  have ha : u.endLearn e.val st ws = u1.answer d st ws := by
    show u1.answerWait (fun w => w == .cadenceLearn e.val) st ws = _
    unfold State.answerWait
    rw [s.waiting_congr (t := u1) hu, hw]
  refine runs_does hc he ?_
  rw [ha]
  refine ⟨(settle_answered ..).trans ?_, (settle_time ..).trans (State.answer_time ..)⟩
  exact congrArg (fun v : Vector Channel 16 => (v.get d).answered st 0xFFFF ws) hu

variable {l : LearnRec} (hl : s.time.learns.find? (fun l => l.entry == e.val) = some l)
include hl

theorem cadenceLearnTimeout_ends : Does (.cadenceLearnTimeout e) s (fun t => s.ended t d 0x0207 [] ∧ t.time.cads = s.time.cads
    ∧ ∀ x ∈ t.time.learns, x.entry ≠ e.val) := by
  have hany : s.time.learns.any (fun l => l.entry == e.val) = true :=
    List.any_eq_true.mpr ⟨l, List.mem_of_find?_eq_some hl, List.find?_some (p := fun l : LearnRec => l.entry == e.val) hl⟩
  refine (endLearn_does hc hw (u := s) (i := .cadenceLearnTimeout e) (congrArg s.runs (if_pos hany)) rfl).mono fun t ⟨ha, hk⟩ => ⟨ha, ?_, fun x hx => ?_⟩
  · rw [hk]
  · rw [hk] at hx
    simpa using (List.mem_filter.mp hx).2

variable {b : List Nat} (hb : b.length = 17)
include hb

omit hc hw in
/-- Seventeen burst starts of an entry that is being learnt. -/
theorem State.learnDone_eq : s.learnDone e.val b = match learnt l b with
    | none => s.endLearn e.val 0x0206 []
    | some k => if !k.ok then s.endLearn e.val 0x0207 [] else (if l.install then s.putCad e.val k else s).endLearn e.val stOk (k.word0 e.val :: k.words) := by
  unfold State.learnDone
  rw [hl]
  dsimp only
  rw [if_neg (not_not_intro hb)] <;> rfl

theorem cadenceLearnDone_jitter (hk : learnt l b = none) : Does (.cadenceLearnDone e b) s (fun t => s.ended t d 0x0206 [] ∧ t.time.cads = s.time.cads) := by
  have he := State.learnDone_eq hl hb
  rw [hk] at he
  exact (endLearn_does hc hw (i := .cadenceLearnDone e b) (congrArg s.runs he) rfl).mono fun t ⟨ha, hk⟩ => ⟨ha, by rw [hk]⟩

variable {k : Cadence} (hk : learnt l b = some k)
include hk

theorem cadenceLearnDone_outside (hok : k.ok = false) : Does (.cadenceLearnDone e b) s (fun t => s.ended t d 0x0207 [] ∧ t.time.cads = s.time.cads) := by
  have he := State.learnDone_eq hl hb
  rw [hk] at he
  exact (endLearn_does hc hw (i := .cadenceLearnDone e b) (congrArg s.runs (he.trans (if_pos (by rw [hok]; rfl)))) rfl).mono fun t ⟨ha, hk⟩ => ⟨ha, by rw [hk]⟩
theorem cadenceLearnDone_learns (hok : k.ok = true) : Does (.cadenceLearnDone e b) s (fun t => s.ended t d 0 (k.word0 e.val :: k.words)
    ∧ (l.install = true → t.time.cad? e.val = some k) ∧ (l.install = false → t.time.cads = s.time.cads)) := by
  have he := State.learnDone_eq hl hb
  rw [hk] at he
  refine (endLearn_does hc hw (i := .cadenceLearnDone e b) (congrArg s.runs (he.trans (if_neg (by rw [hok]; decide)))) (ite_keep State.chans rfl rfl)).mono
    fun t ⟨ha, hk⟩ => ⟨ha, fun hi => ?_, fun hi => ?_⟩
  · rw [hk, if_pos hi]
    exact s.cad?_putCad e.val k
  · rw [hk, if_neg (ne_true_of_eq_false hi)]

end

/-! ### The statement -/

/-- Settles O36: CADENCE_SET by CLEAR and its limits, CADENCE_LEARN by its line counts, its burst starts and its time-out. -/
theorem cadenceCommands : Obligations.CadenceCommands := by
  unfold Obligations.CadenceCommands
  refine ⟨fun s c r e k he hk => ?_, fun s c r nl a0 na ht hl h0 hna => ⟨cadenceLearn_refuses ht hl h0 hna, cadenceLearn_waits ht hl h0 hna⟩,
    fun s e l b d hc hl hw => ⟨cadenceLearnTimeout_ends hc hw hl, fun hb => ⟨cadenceLearnDone_jitter hc hw hl hb, fun k hk => ?_⟩⟩⟩
  · obtain rfl : k = reqCadence r := hk
    exact ⟨fun hb ht => cadenceSet_clears ht he rfl hb, fun hb ht => ⟨cadenceSet_stores ht he rfl hb, cadenceSet_refuses ht he rfl hb⟩⟩
  · obtain ⟨h1, h2, h3, h4⟩ := learnt_fields hk
    exact ⟨h1, h2, h3, h4, cadenceLearnDone_outside hc hw hl hb hk, cadenceLearnDone_learns hc hw hl hb hk⟩

end Sys2Proof.Machine
end

section
/-! PROOFS. SCHEDULE_EVENT, SNAPSHOT_AT and COMMIT_AT (R288 to R290, R295, R389): what an offered entry meets in the calendar, and what
a cancel leaves of it. -/

namespace Sys2Proof.Machine

/-! ### Positions, outcomes and free numbers read no channel, count or keeper -/

section
variable (s : State) (c : Fin 16) (code : Nat) (r : Request)

theorem State.position_of_time {a b : State} (h : a.time = b.time) (w0 w1 w2 : Word) : a.position w0 w1 w2 = b.position w0 w1 w2 := by
  unfold State.position
  rw [h]
theorem State.rung_time : (s.rung c code r).time = s.time := by
  obtain ⟨v, y, h⟩ := s.rung_eq c code r
  rw [h]
theorem State.timekeeper_freeCal : (s.timekeeper c code r).freeCal = s.freeCal := by
  unfold State.freeCal
  rw [State.timekeeper_time]
theorem State.timekeeper_judge (start : Nat) (stop : Option Nat) : (s.timekeeper c code r).judge start stop = s.judge start stop := by
  obtain ⟨v, y, k, h⟩ := s.timekeeper_eq c code r
  rw [h]
  rfl
theorem State.timekeeper_cal? (j : Nat) : (s.timekeeper c code r).cal? j = s.cal? j := State.cal?_of_time (s.timekeeper_time c code r) j

variable {s c code r} {n : Nat} (ht : s.takes c r n)
include ht

theorem State.takes.timekeeper_arg (k : Nat) : (s.timekeeper c code r).arg c k = argWord r k := by
  unfold State.arg
  rw [State.timekeeper_chan]
  exact ht.arg code k
theorem State.takes.timekeeper_argPosition (k : Nat) :
    (s.timekeeper c code r).argPosition c k = s.position (argWord r k) (argWord r (k + 1)) (argWord r (k + 2)) := by
  unfold State.argPosition
  simp only [ht.timekeeper_arg]
  exact State.position_of_time (s.timekeeper_time c code r) ..
theorem State.takes.rung_argPosition (k : Nat) :
    (s.rung c code r).argPosition c k = s.position (argWord r k) (argWord r (k + 1)) (argWord r (k + 2)) := by
  unfold State.argPosition
  simp only [ht.arg]
  exact State.position_of_time (s.rung_time c code r) ..

end

/-! ### An entry offered to the calendar (R289, R290) -/

section
variable (s : State)

theorem State.noteLate_time (e : Nat) : (s.noteLate e).time = { s.time with lateCnt := satAdd 0xFFFF s.time.lateCnt 1 } := by simp [State.noteLate]
theorem State.noteDropped_time (e : Nat) : (s.noteDropped e).time = { s.time with dropped := satAdd 0xFFFF s.time.dropped 1 } := by
  simp [State.noteDropped]

/-- An instant is in time or late. -/
theorem State.judge_instant (start : Nat) : s.judge start none = if s.time.now < start then .ok else .late := by
  show (if start ≤ s.time.now then CalOutcome.late else .ok) = _
  by_cases h : start ≤ s.time.now
  · rw [if_pos h, if_neg (Nat.not_lt.mpr h)]
  · rw [if_neg h, if_pos (Nat.lt_of_not_le h)]

/-- An entry held under a number, the next order counted on. -/
def State.entered (s : State) (e : Nat) (x : CalEntry) : State := State.putCal { s with time := { s.time with nextOrder := s.time.nextOrder + 1 } } e x

theorem State.cal?_entered (e : Nat) (x : CalEntry) : (s.entered e x).cal? e = some x := State.cal?_putCal_same ..
theorem State.cal?_entered_ne {e j : Nat} (h : j ≠ e) (x : CalEntry) : (s.entered e x).cal? j = s.cal? j := State.cal?_putCal_ne _ h x

variable (c : Fin 16) (x : CalEntry) (long : Bool)

/-- What becomes of an offered entry whose outcome holds it or drops it for good. -/
theorem State.offer_eq {e : Nat} (he : s.freeCal = some e) {y : CalEntry} (hy : y = { x with order := s.time.nextOrder }) :
    (s.judge x.start x.stop = .ok → s.offer c x long = (s.entered e y).answer c stOk (acceptWords x long (some e)))
    ∧ (s.judge x.start x.stop = .late → s.offer c x long = ((s.entered e { y with late := true }).noteLate e).answer c 0x0204 (acceptWords x long (some e)))
    ∧ (s.judge x.start x.stop = .emptyHeld → s.offer c x long = (s.entered e { y with empty := true }).answer c 0x0202 (acceptWords x long (some e)))
    ∧ (s.judge x.start x.stop = .dropped → x.repeatK = 0 → s.offer c x long = (s.noteDropped e).answer c 0x0203 []) := by
  subst hy
  unfold State.offer State.accept
  simp only [he]
  refine ⟨fun h => ?_, fun h => ?_, fun h => ?_, fun h hr => ?_⟩
  · rw [h]
    rfl
  · rw [h]
    rfl
  · rw [h]
    rfl
  · rw [h]
    dsimp only
    rw [if_pos hr]
    rfl
theorem State.offer_full (he : s.freeCal = none) (hh : (s.judge x.start x.stop).holds = true) : s.offer c x long = s.answer c 0x0201 [] := by
  unfold State.offer State.accept
  simp only [he]
  rw [if_pos (by rw [hh]; rfl)]
  rfl

end

/-! ### A command that offers an entry -/

theorem acceptWords_length (x : CalEntry) (long : Bool) (e : Nat) : (acceptWords x long (some e)).length ≤ 60 := by
  cases long
  · exact Nat.le_of_ble_eq_true rfl
  · exact Nat.le_of_ble_eq_true rfl

section
variable {s : State} {c : Fin 16} {r : Request} {n code : Nat} (ht : s.takes c r n) {i : Instr} (he : exec i s = s.runs (s.issueCmd c code r)) (hc : code < 256)
  (hn : ((s.rung c code r).chan c).need code = some n) {x : CalEntry} {long : Bool}
  (hv : (s.rung c code r).serveCode c code none = (s.timekeeper c code r).offer c x long)
include ht he hc hn hv

section
variable {e : Nat} (hf : s.freeCal = some e) {y : CalEntry} (hy : y = { x with order := s.time.nextOrder })
include hf hy

theorem offer_inTime (hj : s.judge x.start x.stop = .ok) : Does i s (fun t => t.gives c code r (acceptWords x long (some e)) ∧ t.regs = s.regs
    ∧ t.cal? e = some y ∧ ∀ j ≠ e, t.cal? j = s.cal? j) := by
  obtain ⟨h, -⟩ := (s.timekeeper c code r).offer_eq c x long ((s.timekeeper_freeCal ..).trans hf) (hy.trans (by rw [State.timekeeper_time]))
  refine (ht.answers he hc hn (hv.trans (h ((s.timekeeper_judge ..).trans hj))) (s.timekeeper_chan c code r) (by decide) (by decide)
    (acceptWords_length x long e)).mono fun t ⟨ha, hk⟩ => ⟨ha, hk.regs.trans (s.timekeeper_regs c code r), ?_, fun j hj => ?_⟩
  · rw [State.cal?_of_time hk.time, State.cal?_entered]
  · rw [State.cal?_of_time hk.time, State.cal?_entered_ne _ hj, State.timekeeper_cal?]
theorem offer_late (hj : s.judge x.start x.stop = .late) : Does i s (fun t => t.answered c code r 0x0204 ∧ t.result c 0 = wd e
    ∧ t.cal? e = some { y with late := true } ∧ t.time.lateCnt = satAdd 0xFFFF s.time.lateCnt 1) := by
  obtain ⟨-, h, -⟩ := (s.timekeeper c code r).offer_eq c x long ((s.timekeeper_freeCal ..).trans hf) (hy.trans (by rw [State.timekeeper_time]))
  refine (ht.answers he hc hn (hv.trans (h ((s.timekeeper_judge ..).trans hj))) ((calWork_chan (State.noteLate_calWork _ e) c).trans (s.timekeeper_chan c code r))
    (by decide) (by decide) (acceptWords_length x long e)).mono fun t ⟨⟨ha, hw⟩, hk⟩ => ⟨ha, hw 0 (Nat.succ_pos _), ?_, ?_⟩
  · unfold State.cal?
    rw [hk.time, State.noteLate_time]
    exact State.cal?_entered _ e _
  · rw [hk.time, State.noteLate_time]
    show satAdd 0xFFFF (s.timekeeper c code r).time.lateCnt 1 = _
    rw [State.timekeeper_time]
theorem offer_empty (hj : s.judge x.start x.stop = .emptyHeld) : Does i s (fun t => t.answered c code r 0x0202 ∧ t.result c 0 = wd e
    ∧ t.cal? e = some { y with empty := true }) := by
  obtain ⟨-, -, h, -⟩ := (s.timekeeper c code r).offer_eq c x long ((s.timekeeper_freeCal ..).trans hf) (hy.trans (by rw [State.timekeeper_time]))
  refine (ht.answers he hc hn (hv.trans (h ((s.timekeeper_judge ..).trans hj))) (s.timekeeper_chan c code r) (by decide) (by decide)
    (acceptWords_length x long e)).mono fun t ⟨⟨ha, hw⟩, hk⟩ => ⟨ha, hw 0 (Nat.succ_pos _), ?_⟩
  rw [State.cal?_of_time hk.time, State.cal?_entered]
omit hy in
theorem offer_drops (hj : s.judge x.start x.stop = .dropped) (hr : x.repeatK = 0) : Does i s (fun t => t.answered c code r 0x0203
    ∧ t.time.cal = s.time.cal ∧ t.time.dropped = satAdd 0xFFFF s.time.dropped 1) := by
  obtain ⟨-, -, -, h⟩ := (s.timekeeper c code r).offer_eq c x long ((s.timekeeper_freeCal ..).trans hf) rfl
  refine (ht.answers he hc hn (hv.trans (h ((s.timekeeper_judge ..).trans hj) hr))
    ((calWork_chan (State.noteDropped_calWork _ e) c).trans (s.timekeeper_chan c code r)) (by decide) (by decide) (by decide)).mono
    fun t ⟨⟨ha, _⟩, hk⟩ => ⟨ha, ?_⟩
  rw [hk.time, State.noteDropped_time, State.timekeeper_time]
  exact ⟨rfl, rfl⟩

end

theorem offer_refused (hf : s.freeCal = none) (hj : (s.judge x.start x.stop).holds = true) :
    Does i s (fun t => t.answered c code r 0x0201 ∧ t.time = s.time) :=
  ht.refusedTime he hc hn (hv.trans (State.offer_full _ c x long ((s.timekeeper_freeCal ..).trans hf) (by rw [State.timekeeper_judge]; exact hj)))
    (by decide) (by decide)

end

/-! ### SCHEDULE_EVENT (R389) -/

section
variable {s : State} {c : Fin 16} {r : Request} (ht : s.takes c r 8)
include ht

/-- SCHEDULE_EVENT by its form. -/
theorem State.takes.schedule : (s.rung c 0x32 r).serveCode c 0x32 none =
    match fld (argWord r 0) 0 2 with
    | 0 => (s.timekeeper c 0x32 r).serveAdd c
    | 1 => (s.timekeeper c 0x32 r).serveCancel c
    | _ => (s.timekeeper c 0x32 r).answer c stBadArg [] 0 := by
  show (s.rung c 0x32 r).serveSchedule c = _
  unfold State.serveSchedule
  dsimp only
  rw [ht.arg]
  rfl

/-- The entry of a SCHEDULE_EVENT whose words name a kind and two positions. -/
theorem State.takes.serveAdd {kind : CalKind} {sp tp : Position} (hf : fld (argWord r 0) 0 2 = 0) (hk : schedKind (fld (argWord r 0) 8 4) = some kind)
    (hsp : s.position (argWord r 1) (argWord r 2) (argWord r 3) = .ok sp)
    (htp : if kind.window then s.position (argWord r 4) (argWord r 5) (argWord r 6) = .ok tp else tp = sp)
    (hrep : fld (argWord r 0) 24 8 = 0 ∨ (sp.abs = false ∧ tp.abs = false)) : (s.rung c 0x32 r).serveCode c 0x32 none =
    (s.timekeeper c 0x32 r).offer c { kind := kind, source := 0, target := fld (argWord r 0) 16 4, startP := sp, stopP := tp, start := s.time.instant sp
                                      stop := if kind.window then some (s.time.instant tp) else none, repeatK := fld (argWord r 0) 24 8
                                      left := if fld (argWord r 0) 24 8 = 0 then 1 else fld (argWord r 7) 0 16, chan := c.val } true := by
  have htp' : (if kind.window then s.position (argWord r 4) (argWord r 5) (argWord r 6) else .ok sp) = .ok tp := by
    split at htp
    · next h => rw [if_pos h, htp]
    · next h => rw [if_neg h, htp]
  have hrep' : ¬ (0 < fld (argWord r 0) 24 8 ∧ (sp.abs || tp.abs) = true) := by
    rintro ⟨h1, h2⟩
    obtain h | ⟨h3, h4⟩ := hrep
    · omega
    · rw [h3, h4] at h2
      cases h2
  have hv := ht.schedule
  rw [hf] at hv
  refine hv.trans ?_
  show (s.timekeeper c 0x32 r).serveAdd c = _
  unfold State.serveAdd
  dsimp only
  simp only [ht.timekeeper_arg, ht.timekeeper_argPosition, hk, hsp, htp', if_neg hrep', State.timekeeper_time]

theorem State.takes.serveCancel (hf : fld (argWord r 0) 0 2 = 1) : (s.rung c 0x32 r).serveCode c 0x32 none =
    match s.cal? (fld (argWord r 7) 16 10) with
    | some x => (((s.timekeeper c 0x32 r).delCal (fld (argWord r 7) 16 10)).cancelled x).answer c stOk [wd (fld (argWord r 7) 16 10)]
    | none => (s.timekeeper c 0x32 r).answer c 0x0205 [] := by
  have hv := ht.schedule
  rw [hf] at hv
  refine hv.trans ?_
  show (s.timekeeper c 0x32 r).serveCancel c = _
  unfold State.serveCancel
  dsimp only
  rw [ht.timekeeper_arg, State.timekeeper_cal?] <;> rfl

end

/-- What a cancel leaves of a port or of an engine's slice touches neither vehicle time nor the channels (R294, R308). -/
theorem State.cancelled_kept (s : State) (x : CalEntry) : (s.cancelled x).time = s.time ∧ (s.cancelled x).chans = s.chans := by
  have h : ((s.cancelled x).time, (s.cancelled x).chans) = (s.time, s.chans) := by
    unfold State.cancelled
    dsimp only
    split
    · refine ite_keep (fun t => (t.time, t.chans)) rfl ?_
      split
      · exact ite_keep (fun t => (t.time, t.chans)) rfl rfl
      · exact ite_keep (fun t => (t.time, t.chans)) rfl rfl
    · rfl
    · rfl
    · rfl
  exact Prod.mk.inj h

theorem State.cal?_delCal_ne (s : State) {e j : Nat} (h : j ≠ e) : (s.delCal e).cal? j = s.cal? j := congrArg (Option.map Prod.snd) (find?_tabDel_ne _ h)

section
variable {s : State} {c : Fin 16} {r : Request} (ht : s.takes c r 8) (hf : fld (argWord r 0) 0 2 = 1)
include ht hf

theorem scheduleEventCancel_removes {x : CalEntry} (hx : s.cal? (fld (argWord r 7) 16 10) = some x) : Does (.scheduleEventCancel c r) s (fun t =>
    t.gives c 0x32 r [wd (fld (argWord r 7) 16 10)] ∧ t.cal? (fld (argWord r 7) 16 10) = none
      ∧ ∀ j ≠ fld (argWord r 7) 16 10, t.cal? j = s.cal? j) := by
  have hv := ht.serveCancel hf
  rw [hx] at hv
  obtain ⟨h1, h2⟩ := ((s.timekeeper c 0x32 r).delCal (fld (argWord r 7) 16 10)).cancelled_kept x
  refine (ht.answers rfl (by decide) rfl hv ((congrArg (fun v : Vector Channel 16 => v.get c) h2).trans (s.timekeeper_chan c 0x32 r))
    (by decide) (by decide) (by simp)).mono fun t ⟨ha, hk⟩ => ⟨ha, ?_, fun j hj => ?_⟩
  · rw [State.cal?_of_time (hk.time.trans h1), State.cal?_delCal]
  · rw [State.cal?_of_time (hk.time.trans h1), State.cal?_delCal_ne _ hj, State.timekeeper_cal?]
theorem scheduleEventCancel_absent (hx : s.cal? (fld (argWord r 7) 16 10) = none) :
    Does (.scheduleEventCancel c r) s (fun t => t.answered c 0x32 r 0x0205 ∧ t.time = s.time) := by
  have hv := ht.serveCancel hf
  rw [hx] at hv
  exact ht.refusedTime rfl (by decide) rfl hv (by decide) (by decide)

end

/-! ### SNAPSHOT_AT (R386) -/

section
variable {s : State} {c : Fin 16} {r : Request}

theorem State.judge_instant_holds (s : State) (start : Nat) : (s.judge start none).holds = true := by
  rw [s.judge_instant]
  split <;> rfl

theorem State.takes.serveSnapshot (ht : s.takes c r 3) {sp : Position} (hsp : s.position (argWord r 0) (argWord r 1) (argWord r 2) = .ok sp) :
    (s.rung c 0x33 r).serveCode c 0x33 none = (s.timekeeper c 0x33 r).offer c (s.instantEntry c .snapshot 1 sp []) false := by
  show (s.rung c 0x33 r).serveSnapshot c = _
  unfold State.serveSnapshot
  dsimp only
  rw [ht.rung_argPosition, hsp]
  dsimp only
  unfold State.instantEntry
  rw [State.rung_time]
  rfl

/-! ### COMMIT_AT (R295) -/

variable {n : Nat} {ws : List (Addr × Word)} (hn : n = fld (argWord r 3) 0 5) (ht : s.takes c r (4 + 2 * min 24 n))
  (hws : ws = (List.range n).map (fun i => ((argWord r (4 + 2 * i)).setWidth 24, argWord r (5 + 2 * i))))
include hn ht

/-- The words that COMMIT_AT needs. -/
theorem State.takes.need_commit : ((s.rung c 0x34 r).chan c).need 0x34 = some (4 + 2 * min 24 n) := by
  rw [hn, ← ht.arg 0x34 3]
  rfl

include hws

/-- COMMIT_AT as its request gives the arguments. -/
theorem State.takes.serveCommitAt : (s.rung c 0x34 r).serveCode c 0x34 none =
    if n = 0 ∨ 24 < n then (s.timekeeper c 0x34 r).answer c stBadArg [] 3
    else if ws.any (fun w => commitRefuses w.1) then (s.timekeeper c 0x34 r).answer c 0x0102 []
    else
      match s.position (argWord r 0) (argWord r 1) (argWord r 2) with
      | .error k => (s.timekeeper c 0x34 r).answer c stBadArg [] k
      | .ok sp => (s.timekeeper c 0x34 r).offer c (s.instantEntry c .commit 2 sp ws) false := by
  have ha : (s.rung c 0x34 r).argWrites c n = ws := by
    rw [hws]
    unfold State.argWrites
    simp only [ht.arg]
  have hi (sp : Position) : (s.rung c 0x34 r).instantEntry c .commit 2 sp ws = s.instantEntry c .commit 2 sp ws := by
    unfold State.instantEntry
    rw [State.rung_time]
  show (s.rung c 0x34 r).serveCommitAt c = _
  unfold State.serveCommitAt
  dsimp only
  rw [ht.arg, ← hn, ha, ht.rung_argPosition]
  simp only [hi]
  rfl

theorem commitAt_badCount (h : n = 0 ∨ 24 < n) : Does (.commitAt c r) s (fun t => t.answered c 0x34 r 4 ∧ t.time = s.time) :=
  ht.refusedTime rfl (by decide) (State.takes.need_commit hn ht) ((State.takes.serveCommitAt hn ht hws).trans (if_pos h)) (by decide) (by decide)

section
variable (h1 : 1 ≤ n) (h2 : n ≤ 24)
include h1 h2

theorem commitAt_refuses (h : ∃ w ∈ ws, commitRefuses w.1 = true) : Does (.commitAt c r) s (fun t => t.answered c 0x34 r 0x0102 ∧ t.time = s.time) :=
  ht.refusedTime rfl (by decide) (State.takes.need_commit hn ht)
    ((State.takes.serveCommitAt hn ht hws).trans ((if_neg (by omega)).trans (if_pos (List.any_eq_true.mpr h)))) (by decide) (by decide)
theorem commitAt_enters (h : ∀ w ∈ ws, commitRefuses w.1 = false) {sp : Position} {e : Nat}
    (hsp : s.position (argWord r 0) (argWord r 1) (argWord r 2) = .ok sp) (he : s.freeCal = some e) (hnow : s.time.now < s.time.instant sp) :
    Does (.commitAt c r) s (fun t => t.gives c 0x34 r [wd e] ∧ t.regs = s.regs
      ∧ t.cal? e = some { s.instantEntry c .commit 2 sp ws with order := s.time.nextOrder }) := by
  have hno : ¬ ws.any (fun w => commitRefuses w.1) = true := by simpa using h
  have hv := (State.takes.serveCommitAt hn ht hws).trans ((if_neg (by omega)).trans (if_neg hno))
  rw [hsp] at hv
  exact (offer_inTime ht rfl (by decide) (State.takes.need_commit hn ht) hv he rfl ((s.judge_instant _).trans (if_pos hnow))).mono
    fun t ⟨ha, hr, hc, _⟩ => ⟨ha, hr, hc⟩

end
end

/-! ### The statement -/

/-- Settles O38: an offered entry by its outcome, a cancel by the entry it names, COMMIT_AT also by its writes. -/
theorem calendarCommands : Obligations.CalendarCommands := by
  unfold Obligations.CalendarCommands
  refine ⟨fun s c r kind sp tp x ht hf hk hsp htp hrep hx => ?_, fun s c r ht hf => ⟨fun x hx => scheduleEventCancel_removes ht hf hx, fun hx => ?_⟩,
    fun s c r sp ht hsp => ?_,
    fun s c r n ws hn ht hws => ⟨commitAt_badCount hn ht hws, commitAt_refuses hn ht hws,
      fun h1 h2 h sp e hsp he hnow => commitAt_enters hn ht hws h1 h2 h hsp he hnow⟩⟩
  · have hv := ht.serveAdd hf hk hsp htp hrep
    subst hx
    refine ⟨fun e he => ⟨fun hj => ?_, fun hj => offer_late ht rfl (by decide) rfl hv he rfl hj, fun hj => offer_empty ht rfl (by decide) rfl hv he rfl hj,
      fun hj hr => offer_drops ht rfl (by decide) rfl hv he hj hr⟩, fun he hj => ?_, fun hw => ?_⟩
    · exact (offer_inTime ht rfl (by decide) rfl hv he rfl hj).mono fun t ⟨ha, _, hc⟩ => ⟨ha, hc⟩
    · exact (offer_refused ht rfl (by decide) rfl hv he hj).mono fun t ⟨ha, hk⟩ => ⟨ha, by rw [hk]⟩
    · rw [if_neg (ne_true_of_eq_false hw)]
      exact s.judge_instant _
  · exact (scheduleEventCancel_absent ht hf hx).mono fun t ⟨ha, hk⟩ => ⟨ha, by rw [hk]⟩
  · have hv := ht.serveSnapshot hsp
    refine ⟨fun e he hnow => ?_, fun he => ?_⟩
    · exact (offer_inTime ht rfl (by decide) rfl hv he rfl ((s.judge_instant _).trans (if_pos hnow))).mono fun t ⟨ha, _, hc, _⟩ => ⟨ha, hc⟩
    · exact (offer_refused ht rfl (by decide) rfl hv he (s.judge_instant_holds _)).mono fun t ⟨ha, hk⟩ => ⟨ha, by rw [hk]⟩

end Sys2Proof.Machine
end

section
/-! PROOFS. Reads that latch, the indirect window and a counter's wrap (R297, R367, R400, R401, R406): what one read, and one write of
IND_DATA, do at an open block. -/

namespace Sys2Proof.Machine

/-! ### An access at an open block (R347, R350) -/

section
variable (s : State) (i : Iface)

theorem State.began_eq : ∃ y, s.began i = { s with tally := y } := by
  unfold State.began
  split
  · obtain ⟨y, h⟩ := s.countCode_eq 0 (0x200 + 0) 1
    exact ⟨y, h⟩
  · exact ⟨s.tally, rfl⟩
theorem usedIndex_common (k : BlockKind) {ix : Nat} (h : 0xE0 ≤ ix) : usedIndex k ix = true := by
  unfold usedIndex
  rw [decide_eq_true h]
  rfl

/-- A read that leaves a state, its answer noted with the interface. -/
def State.tells (v : Word) : State := (s.modIface i (fun x => { x with rdata := v })).said i false false false false

theorem State.tells_iface (v : Word) : 
    ∃ g c, (s.tells i v).iface i = { s.iface i with rdata := v, badGuard := false, badCrc := false, badFrame := false, guardOn := g, noChange := c } := by
  unfold State.tells
  rw [State.said_iface, State.iface_modIface_same]
  exact ⟨_, _, rfl⟩
theorem State.tells_regs (v : Word) : (s.tells i v).regs = s.regs := stored_regs ((State.said_stored ..).trans (State.modIface_stored ..))
theorem State.tells_time (v : Word) : (s.tells i v).time = s.time := (State.modIface_time ..).trans (State.modIface_time ..)

variable {s i}

/-- A read of a register in use, at an open block and an idle guard. -/
theorem State.busRead_open {b : Nat} (h : s.opens i b) {ix : Nat} (hu : usedIndex (blockKind b) ix = true) :
    s.busRead i b ix false = ((s.began i).readAct i b ix).tells i ((s.began i).peek i b ix) := by
  obtain ⟨-, hg, hc⟩ := State.opens_began h
  obtain ⟨hd, -⟩ := h
  have hdrop : (s.began i).guardDrop i = s.began i := if_pos hg
  have hcl : ¬ (i ≠ Iface.keeper ∧ (s.began i).closedTo b = true) := by rcases hc with e | e <;> simp [e]
  unfold State.busRead
  dsimp only
  rw [if_neg (ne_true_of_eq_false hd), hdrop, if_neg hcl, if_neg (by rw [hu]; decide)]
  rfl

/-- A row that reads closes with what the read leaves. -/
theorem read_does {c : Instr} {b ix : Nat} {P : State → Prop} (he : exec c s = s.done (s.busRead i b ix false)) (h : s.opens i b)
    (hu : usedIndex (blockKind b) ix = true) (hP : P (settle s (((s.began i).readAct i b ix).tells i ((s.began i).peek i b ix)))) : Does c s P :=
  ⟨_, he, by rw [State.busRead_open h hu]; exact hP⟩

end

/-! ### TM_NOW_NS and the low counters (R297, R400) -/

section
variable {s : State} {i : Iface}

theorem tmNowNsRead_latches (h : s.opens i 2) : Does (.tmNowNsRead i) s (fun t => (t.iface i).rdata = (s.reg (regKey 2 0) ||| put 0 30 (nsInSec s.time.now))
    ∧ (t.iface i).nowLatch = s.time.now ∧ t.regs = s.regs ∧ t.time = s.time) := by
  refine read_does rfl h (by decide) ?_
  obtain ⟨y, hy⟩ := s.began_eq i
  rw [hy, settle_iface, settle_regs, settle_time, State.tells_regs, State.tells_time]
  let u : State := { s with tally := y }
  have hr : u.readAct i 2 0 = u.modIface i (fun x => { x with nowLatch := u.time.now }) := if_pos ⟨rfl, rfl⟩
  obtain ⟨g, k, hg⟩ := (u.readAct i 2 0).tells_iface i (u.peek i 2 0)
  rw [hg, hr, State.iface_modIface_same]
  exact ⟨rfl, rfl, stored_regs (u.modIface_stored i _), u.modIface_time i _⟩

theorem counterLowRead_latches {b : Nat} {n : Fin 8} {c : Instr} (he : exec c s = s.done (s.busRead i b (0xE8 + n.val) false)) (h : s.opens i b) :
    Does c s (fun t => t.regs = s.regs ∧ (t.iface i).rdata = (s.began i).ctrLo i b n.val ∧ (t.iface i).chiLatch = (s.began i).ctrLatch b n.val) := by
  refine read_does he h (usedIndex_common _ (by omega)) ?_
  have hn : 0xE8 + n.val - 0xE8 = n.val := Nat.add_sub_cancel_left ..
  have hr : (s.began i).readAct i b (0xE8 + n.val) = (s.began i).modIface i (fun x => { x with chiLatch := (s.began i).ctrLatch b n.val }) := by
    unfold State.readAct
    rw [if_neg (by omega), if_pos (by omega), hn]
  have hp : (s.began i).peek i b (0xE8 + n.val) = (s.began i).ctrLo i b n.val := by
    unfold State.peek State.commonRead
    rw [if_pos (by omega), if_neg (by omega), if_pos (by omega), hn]
  rw [hp, settle_iface, settle_regs, State.tells_regs, hr]
  obtain ⟨g, k, hg⟩ := ((s.began i).modIface i (fun x => { x with chiLatch := (s.began i).ctrLatch b n.val })).tells_iface i ((s.began i).ctrLo i b n.val)
  rw [hg, State.iface_modIface_same]
  exact ⟨stored_regs ((State.modIface_stored ..).trans (s.began_stored i)), rfl, rfl⟩

end

/-! ### The indirect window (R367) -/

/-- IND_ADDR after an access of IND_DATA: one further with AUTO_INC. -/
def nextInd (w : Word) : Word := if bit w 31 then setFld w 0 24 (fld w 0 24 + 1) else w

theorem portNo_portBlock (p : Fin 16) : portNo (portBlock p.val) = p := by
  revert p
  decide

section
variable {s a b : State} {i : Iface}

theorem State.indAddr_congr (hs : a.stored = b.stored) (hk : a.keeperInd = b.keeperInd) (n : Nat) : a.indAddr i n = b.indAddr i n := by
  unfold State.indAddr
  rw [hk, stored_reg hs]
theorem State.modIface_indAddr (s : State) (j : Iface) (f : IfaceRec → IfaceRec) (n : Nat) : (s.modIface j f).indAddr i n = s.indAddr i n :=
  State.indAddr_congr (s.modIface_stored j f) (s.modIface_keeperInd j f) n
theorem settle_indAddr (old u : State) (n : Nat) : (settle old u).indAddr i n = u.indAddr i n :=
  State.indAddr_congr (stored_of_frame (settle_frame ..)) (settle_keeperInd ..) n
theorem State.began_indAddr (s : State) (n : Nat) : (s.began i).indAddr i n = s.indAddr i n := by
  obtain ⟨y, h⟩ := s.began_eq i
  rw [h]
  rfl
theorem State.indNext_indAddr (s : State) (n : Nat) : (s.indNext i n).indAddr i n = nextInd (s.indAddr i n) := by
  unfold State.indNext nextInd
  dsimp only
  split
  · cases i with
    | keeper => exact tabGet_put_same ..
    | spi => exact (State.setReg_reg ..).trans (if_pos rfl)
    | monitor => exact (State.setReg_reg ..).trans (if_pos rfl)
  · rfl
theorem State.indNext_ports (s : State) (n : Nat) : (s.indNext i n).ports = s.ports := by
  unfold State.indNext
  dsimp only
  refine ite_keep State.ports ?_ rfl
  cases i <;> rfl

theorem indDataRead_reads {n : Nat} {c : Instr} (he : exec c s = s.done (s.busRead i n 0xFF false)) (h : s.opens i n) : Does c s (fun t =>
    (t.iface i).rdata = (s.began i).ind i n (fld (s.indAddr i n) 0 24) ∧ t.indAddr i n = nextInd (s.indAddr i n)) := by
  refine read_does he h (usedIndex_common _ (by decide)) ?_
  have hp : (s.began i).peek i n 0xFF = (s.began i).ind i n (fld (s.indAddr i n) 0 24) := by
    rw [← s.began_indAddr]
    rfl
  have hr : (s.began i).readAct i n 0xFF = ((s.began i).modIface i (fun x => { x with indLatch := (s.began i).slotLatch i n })).indNext i n := by
    unfold State.readAct
    rw [if_neg (by omega), if_neg (by omega), if_pos rfl]
  obtain ⟨g, k, hg⟩ := ((s.began i).readAct i n 0xFF).tells_iface i ((s.began i).ind i n (fld (s.indAddr i n) 0 24))
  rw [hp, settle_iface, settle_indAddr, hg]
  refine ⟨rfl, ?_⟩
  unfold State.tells State.said
  rw [State.modIface_indAddr, State.modIface_indAddr, hr, State.indNext_indAddr, State.modIface_indAddr, State.began_indAddr]

/-- A plain write of IND_DATA at an open block: the entry is written, the address moves on. -/
theorem State.indWrite_open {n : Nat} (h : s.opens i n) (v : Word) : ∃ leaves, s.wr i n 0xFF .plain v
    = (((s.began i).indPut n (fld (s.indAddr i n) 0 24) v).indNext i n).said i false false false leaves := by
  refine ⟨(s.began i).indLeaves i n v, ?_⟩
  unfold State.wr
  rw [State.busWrite_open h]
  unfold State.writeFree State.writeInd
  rw [if_neg (by rw [usedIndex_common _ (by decide)]; decide), if_neg (by decide), if_neg (by omega), if_pos rfl, if_pos rfl, State.began_indAddr]

theorem indDataWrite_writes {n : Nat} {c : Instr} {v : Word} (he : exec c s = s.done (s.wr i n 0xFF .plain v)) (h : s.opens i n) : Does c s (fun t =>
    t.indAddr i n = nextInd (s.indAddr i n) ∧ ∀ (p : Fin 16) (k : Fin 24), n = portBlock p.val → fld (s.indAddr i n) 0 24 = 0x3000 + k.val →
      (t.port p).rx.ffe = putEntry (s.port p).rx.ffe 24 k.val v) := by
  obtain ⟨leaves, hw⟩ := State.indWrite_open h v
  refine ⟨_, he, ?_⟩
  beta_reduce
  rw [hw, settle_indAddr]
  unfold State.said
  refine ⟨?_, fun p k hn hk => ?_⟩
  · have hf := State.indPut_frame (s.began i) n (fld (s.indAddr i n) 0 24) v
    rw [State.modIface_indAddr, State.indNext_indAddr, State.indAddr_congr (stored_of_frame hf) (congrArg Frame.keeperInd hf), State.began_indAddr]
  · have hput : (s.began i).indPut n (fld (s.indAddr i n) 0 24) v = (s.began i).modRx p (fun r => { r with ffe := putEntry r.ffe 24 k.val v }) := by
      have hpn : portNo (portBlock p.val) = p := portNo_portBlock p
      unfold State.indPut State.portIndPut
      rw [hn, blockKind_portBlock]
      dsimp only
      rw [← hn, hk, if_pos (by omega), hn, hpn, Nat.add_sub_cancel_left]
    have hpt : (s.began i).port p = s.port p := by
      obtain ⟨y, hy⟩ := s.began_eq i
      rw [hy]
      rfl
    rw [settle_port_rx]
    unfold State.port
    rw [State.modIface_ports, State.indNext_ports, hput]
    refine (congrArg (fun x : Port => x.rx.ffe) (State.port_modPort_same (s.began i) p _)).trans ?_
    rw [hpt]
    rfl

end

/-! ### A counter's wrap (R401, R406) -/

/-- One wrap that waits is told in one record. -/
theorem counterWrap_tells {s : State} {b n : Nat} {c : Instr} (hc : s.clocked = true) (he : exec c s = s.runs (s.wrapTold b n)) (hw : s.tally.wraps = [(b, n)])
    (hg : s.ringRoom) : Does c s (fun t => t.told 0x0050 b (unitOf b) (wd n)) := by
  have hf : [(b, n)].filter (fun w : Nat × Nat => w.1 == b && (w.2 == n || w.2 == 0x10 + 4 * n)) = [(b, n)] := by simp
  have h : ∃ y, s.wrapTold b n = State.raise { s with tally := y } 0x0050 b (unitOf b) (wd n) := by
    unfold State.wrapTold State.wrapsTold
    rw [hw, hf]
    exact ⟨_, rfl⟩
  obtain ⟨y, h⟩ := h
  refine runs_does hc he ?_
  rw [h]
  exact told_of (settle_ring ..) (State.raise_told { s with tally := y } _ _ _ _ _ _ _ hg)

/-! ### The statement -/

/-- Settles O29: each read by its latch and its answer, a write of IND_DATA by the entry it names, a wrap by its record. -/
theorem registerReads : Obligations.RegisterReads := by
  unfold Obligations.RegisterReads
  exact ⟨fun s i h => tmNowNsRead_latches h, fun s i b n h => counterLowRead_latches rfl h, fun s i b h => indDataRead_reads rfl h,
    fun s i b v h => indDataWrite_writes rfl h, fun s b n hc hw hg => counterWrap_tells hc rfl hw hg⟩

end Sys2Proof.Machine
end

section
/-! PROOFS. What a register does when it is written (R350, R364), with no self-clearing bit set, leaves the keeper as it is: so a rewrite from
the keeper's copy (R363) does not change the copy. -/

namespace Sys2Proof.Machine

open State (steered)

section
variable {s t : State} {p : Fin 16}

theorem around_keeper (h : t.around p = s.around p) : t.keeper = s.keeper := far_keeper (around_far h)

/-! ### Time, the basin, measuring and the reaches (R170, R255, R298, R402) -/

section
variable (s) (old : Word)

theorem State.timeEffect_keeper (ix : Nat) : (s.timeEffect ix old).keeper = s.keeper := by
  unfold State.timeEffect
  split
  · rfl
  · rfl
  · exact ite_keep State.keeper rfl rfl
  · rfl
theorem State.moveOff_steered (q : Nat) (n : Option (Fin 8)) : steered s (s.moveOff q n) := by
  cases n with
  | some n => exact steered_ite (steered_refl s) (s.startMove_steered q n)
  | none => exact steered_ite (steered_refl s) (s.modQueue_steered q)
theorem State.maskWritten_steered : steered s (s.maskWritten old) := by
  unfold State.maskWritten
  dsimp only
  generalize allLanes.filter (fun n => bit old n.val && !bit (s.act (regKey 3 0x21)) n.val) = gone
  generalize (s.basin.queues.filter (fun q => gone.any (fun n => q.placed == some n.val))).map (·.num) = nums
  have h : steered s (if nums.isEmpty then s else s.replaceAll nums State.moveOff) :=
    steered_ite (steered_refl s) (s.replaceAll_steered _ State.moveOff_steered)
  exact steered_ite (steered_trans h (State.restore_steered _)) h
theorem State.basinWritten_keeper (r : BasinReg) : (s.basinWritten r old).keeper = s.keeper := by
  cases r with
  | bsCtrl => exact ite_keep State.keeper (side_keeper s.shrinkAll_steered.side) (ite_keep State.keeper (side_keeper s.restore_steered.side) rfl)
  | hopCap => exact side_keeper s.hopSync_steered.side
  | plCtrl => rfl
  | laneMask => exact side_keeper (s.maskWritten_steered old).side
  | compat => rfl
theorem State.basinEffect_keeper (ix : Nat) : (s.basinEffect ix old 0).keeper = s.keeper := by
  unfold State.basinEffect
  split
  · exact s.basinWritten_keeper old _
  · exact s.basinWritten_keeper old _
  · rfl
  · exact s.basinWritten_keeper old _
  · exact s.basinWritten_keeper old _
  · rfl
theorem State.tallyEffect_keeper (ix : Nat) : (s.tallyEffect ix old 0).keeper = s.keeper := by
  unfold State.tallyEffect
  split
  · rfl
  · exact ite_keep State.keeper rfl rfl
  · rfl
  · rfl
theorem State.testEffect_none (ix : Nat) : s.testEffect ix 0 none = s := by
  unfold State.testEffect
  refine ite_eq_right_iff.2 fun _ => ?_
  rw [List.foldl_fixed' (fun p => if_neg (by simp [bit]))]
  exact if_neg (by decide)
theorem State.xtWritten_keeper (r : Fin 4) (g : XtReg) : (s.xtWritten r g old).keeper = s.keeper := by
  have hx (t : State) : (t.xtSync r).keeper = t.keeper := side_keeper (t.xtSync_side r)
  cases g with
  | ctrl =>
    unfold State.xtWritten State.xtCtrlWritten
    dsimp only
    rw [hx]
    refine (foldl_keep State.keeper _ _ _ fun t k => ?_).trans (ite_keep State.keeper (foldl_keep State.keeper _ _ s fun t k => ?_) rfl)
    · rfl
    · rfl
  | path k =>
    unfold State.xtWritten State.xtPathWritten
    exact ite_keep State.keeper rfl (hx _)
theorem State.reachEffect_keeper (r : Fin 4) (ix : Nat) : (s.reachEffect r ix old).keeper = s.keeper := by
  unfold State.reachEffect
  split
  · exact s.xtWritten_keeper old r _
  · split
    · exact s.xtWritten_keeper old r _
    · rfl

/-! ### Calibration (R328, R329) -/

theorem State.startReach_keeper (r : Fin 4) : (s.startReach r).keeper = s.keeper := by
  refine ite_keep State.keeper rfl ((far_keeper (State.reachDone_far ..)).trans ((foldl_keep State.keeper _ _ _ fun t p => ?_).trans ?_))
  · exact ite_keep State.keeper rfl (far_keeper (t.startItems_far p _))
  · exact ite_keep State.keeper rfl (State.count_keeper ..)
theorem State.startPending_keeper : s.startPending.keeper = s.keeper :=
  (foldl_keep State.keeper _ _ _ fun t p => ite_keep State.keeper (far_keeper (t.runPort_far p)) rfl).trans
    (foldl_keep State.keeper _ _ _ State.startReach_keeper)
theorem State.abandonAll_keeper (keep : Bool) : (s.abandonAll keep).keeper = s.keeper := by
  unfold State.abandonAll
  dsimp only
  refine (foldl_keep State.keeper _ _ _ fun t r => ?_).trans (foldl_keep State.keeper _ _ s fun t p => ?_)
  · rfl
  · rfl
theorem State.calOvrWritten_keeper : (s.calOvrWritten old).keeper = s.keeper := by
  unfold State.calOvrWritten
  dsimp only
  rw [State.startPending_keeper]
  refine (foldl_keep State.keeper _ _ _ fun t p => ?_).trans (s.abandonAll_keeper true)
  exact ite_keep State.keeper rfl (ite_keep State.keeper rfl (ite_keep State.keeper rfl rfl))
theorem State.calEffect_keeper (ix : Nat) : (s.calEffect ix old).keeper = s.keeper := by
  unfold State.calEffect
  split
  · exact ite_keep State.keeper rfl (foldl_keep State.keeper _ _ _ fun _ _ => rfl)
  · exact s.calOvrWritten_keeper old
  · rfl

/-! ### Host lanes (R270, R273) -/

theorem State.loseLane_keeper (n : Fin 8) (c : Nat) : (s.loseLane n c).keeper = s.keeper := by
  refine ite_keep State.keeper rfl ?_
  rw [far_keeper (State.replaceAll_far _ _ _ State.retarget_far), far_keeper (State.replaceAll_far _ _ _ State.restartOn_far)]
  refine (foldl_keep State.keeper _ _ _ fun t q => ?_).trans (State.raise_keeper ..)
  split
  · exact far_keeper (t.restartOn_far _ _)
  · rfl
theorem State.laneWritten_keeper (n : Fin 8) (r : HlReg) : (s.laneWritten n r old).keeper = s.keeper := by
  cases r with
  | ctrl =>
    unfold State.laneWritten
    dsimp only
    have h : (if bit old 8 && !bit (s.laneReg n.val 0) 8 then s.modLane n (fun l => { l with paused := none }) else s).keeper = s.keeper :=
      ite_keep State.keeper rfl rfl
    have hl := (State.loseLane_keeper _ n 6).trans h
    exact ite_keep State.keeper hl (ite_keep State.keeper h (ite_keep State.keeper hl h))
  | txEq => rfl
theorem State.laneEffect_keeper (n : Fin 8) (ix : Nat) : (s.laneEffect n ix old).keeper = s.keeper := by
  unfold State.laneEffect
  split
  · exact s.laneWritten_keeper old n _
  · exact s.laneWritten_keeper old n _
  · rfl

end

/-! ### Ports (R83, R87, R139, R225, R312, R343) -/

section
variable (s) (p) (old : Word)

theorem State.startPort_keeper : (s.startPort p).keeper = s.keeper := around_keeper (s.startPort_around p)
theorem State.loopOff_keeper : (s.loopOff p).keeper = s.keeper := ite_keep State.keeper (far_keeper (State.answerWait_far ..)) rfl
theorem State.patternSync_keeper : (s.patternSync p).keeper = s.keeper :=
  ite_keep State.keeper rfl (ite_keep State.keeper rfl (State.loopOff_keeper _ p))
theorem State.drawSession_keeper : (s.drawSession p).keeper = s.keeper := ite_keep State.keeper rfl rfl
theorem State.enablePort_keeper : (s.enablePort p).keeper = s.keeper := by
  have hr (t : State) : (t.enableRun p).keeper = t.keeper := ite_keep State.keeper rfl (far_keeper (t.runPort_far p))
  unfold State.enablePort
  rw [State.startPort_keeper, hr, State.patternSync_keeper, State.loopOff_keeper, far_keeper (State.tdrAbandon_far ..), State.drawSession_keeper]
theorem State.disable_keeper : (s.disable p).keeper = s.keeper := by
  unfold State.disable
  split
  · rfl
  · rfl
  · exact side_keeper (s.fall_side p _ _ _)
theorem State.disablePort_keeper : (s.disablePort p).keeper = s.keeper := (State.patternSync_keeper _ p).trans (s.disable_keeper p)
theorem State.writesAct_keeper (v w : Word) : (s.writesAct p v w).keeper = s.keeper := around_keeper (s.writesAct_noAsm p v w).around
theorem State.modeWritten_keeper : (s.modeWritten p old).keeper = s.keeper := by
  unfold State.modeWritten
  split
  · exact s.enablePort_keeper p
  · exact s.disablePort_keeper p
  · exact s.writesAct_keeper p _ _
  · exact s.patternSync_keeper p
theorem State.policyWritten_keeper : (s.policyWritten p old).keeper = s.keeper := ite_keep State.keeper (s.writesAct_keeper p _ _) rfl
theorem State.txWritten_keeper (r : TxReg) : (s.txWritten p r).keeper = s.keeper := by
  cases r with
  | ctrl => exact side_keeper (State.xtSync_side _ _)
  | rampLen => rfl
  | ffeA => exact ite_keep State.keeper rfl rfl
  | ffeB => exact ite_keep State.keeper rfl rfl
theorem State.txTestWritten_keeper : (s.txTestWritten p).keeper = s.keeper := by
  have h := s.patternSync_keeper p
  unfold State.txTestWritten
  dsimp only
  split
  · exact ite_keep State.keeper h h
  · exact h
theorem State.sfSync_keeper : (s.sfSync p).keeper = s.keeper := around_keeper (s.sfSync_session (p := p)).around
theorem State.rxWritten_keeper (r : RxReg) : (s.rxWritten p r).keeper = s.keeper := by
  cases r with
  | ctrl => exact ite_keep State.keeper rfl rfl
  | mu => rfl
  | frz => rfl
  | tim => rfl
theorem State.blkCtrlWritten_keeper : (s.blkCtrlWritten p old).keeper = s.keeper := by
  unfold State.blkCtrlWritten
  dsimp only
  have h : (if s.reord p < max 4 (fld old 8 8) then s.reordCut p else s).keeper = s.keeper := ite_keep State.keeper rfl rfl
  refine ite_keep State.keeper ?_ h
  exact (around_keeper (State.rcvSync_session (p := p) _).around).trans ((around_keeper (State.advance_noAsm p _ _).around).trans h)
theorem State.quietWritten_keeper : (s.quietWritten p old).keeper = s.keeper := by
  refine ite_keep State.keeper ?_ rfl
  unfold State.quietOff
  dsimp only
  split
  · exact ite_keep State.keeper (State.raise_keeper ..) rfl
  · exact ite_keep State.keeper rfl rfl
theorem State.watchCtrlWritten_keeper : (s.watchCtrlWritten p old).keeper = s.keeper := by
  have h (t : State) (f : Nat) (a b : WatchCount) (v d : Nat) : (t.watchEvent p f a b v d).keeper = t.keeper := by
    have h1 := ite_keep State.keeper (c := a.warn != b.warn) (t.raise_keeper 0x0042 (portBlock p.val) p.val (wd (f + 256 * b.state)) (wd v)
      (if f = 0 then wd d else 0) 0) rfl
    exact ite_keep State.keeper ((State.raise_keeper ..).trans h1) h1
  refine ite_keep State.keeper rfl ?_
  unfold State.watchEvents
  rw [h, h, h, h]
  rfl
theorem State.portEffect_keeper (ix : Nat) : (s.portEffect p ix old 0).keeper = s.keeper := by
  unfold State.portEffect
  split
  · exact s.policyWritten_keeper p old
  · exact s.modeWritten_keeper p old
  · exact s.txWritten_keeper p _
  · exact s.txWritten_keeper p _
  · exact s.txWritten_keeper p _
  · exact s.txWritten_keeper p _
  · exact s.txTestWritten_keeper p
  · exact s.sfSync_keeper p
  · exact s.rxWritten_keeper p _
  · exact s.rxWritten_keeper p _
  · exact s.rxWritten_keeper p _
  · exact s.rxWritten_keeper p _
  · exact ite_keep State.keeper rfl rfl
  · exact s.blkCtrlWritten_keeper p old
  · exact s.quietWritten_keeper p old
  · rfl
  · rfl
  · rfl
  · exact s.watchCtrlWritten_keeper p old
  · rfl
  · rfl
  · rfl

end

theorem block_of_chip {b : Nat} (h : blockKind b = .chip) : b = 0 := by
  by_contra hb
  unfold blockKind at h
  rw [if_neg hb] at h
  (repeat' split at h) <;> cases h

/-- What a register of any block but 0 does, with no self-clearing bit set, leaves the keeper as it is. -/
theorem State.regEffect_keeper (s : State) {b : Nat} (hb : b ≠ 0) (ix : Nat) (old : Word) : (s.regEffect b ix old 0 none).keeper = s.keeper := by
  refine ite_keep State.keeper (ite_keep State.keeper rfl rfl) ?_
  cases hk : blockKind b with
  | chip => exact absurd (block_of_chip hk) hb
  | keeper => rfl
  | mbox => rfl
  | time => exact s.timeEffect_keeper old ix
  | basin => exact s.basinEffect_keeper old ix
  | tally => exact s.tallyEffect_keeper old ix
  | selfTest => exact congrArg State.keeper (s.testEffect_none ix)
  | cal => exact s.calEffect_keeper old ix
  | reach => exact s.reachEffect_keeper old _ ix
  | port => exact s.portEffect_keeper _ old ix
  | lane => exact s.laneEffect_keeper old _ ix

end

end Sys2Proof.Machine
end

section
/-! PROOFS. The scrubber's marks, the keeper's rewrites and the write of a commit (R295, R359, R360, R363). -/

namespace Sys2Proof.Machine

/-! ### The scrubber (R359, R360) -/

/-- The registers that store a field among those that a pass found, each once. -/
def foundKeys (bad : List Addr) : List Nat :=
  (bad.map (fun a => regKey (decodeAddr a).block (decodeAddr a).index)).eraseDups.filter (fun k => hasStored (keyFields k))

theorem mem_foundKeys {bad : List Addr} {k : Nat} :
    k ∈ foundKeys bad ↔ hasStored (keyFields k) = true ∧ ∃ a ∈ bad, regKey (decodeAddr a).block (decodeAddr a).index = k := by
  unfold foundKeys
  rw [List.mem_filter, List.mem_eraseDups, List.mem_map, and_comm]

/-- What stays marked and what is marked anew are together what was found. -/
theorem mem_keep_append_fresh {old found : List Nat} {k : Nat} :
    k ∈ old.filter (fun k => found.contains k) ++ found.filter (fun k => !old.contains k) ↔ k ∈ found := by
  rw [List.mem_append, List.mem_filter, List.mem_filter, List.contains_iff_mem, Bool.not_eq_true', ← Bool.not_eq_true, List.contains_iff_mem]
  tauto

theorem State.parityPass_parity {s : State} (hc : s.clocked = true) (bad : List Addr) :
    (s.parityPass bad).parity = s.parity.filter (fun k => (foundKeys bad).contains k) ++ (foundKeys bad).filter (fun k => !s.parity.contains k) := by
  unfold State.parityPass
  rw [if_neg (by rw [hc]; decide)]
  dsimp only
  rw [held_parity (foldl_held _ _ _ State.leaveSafe_held), held_parity (foldl_held _ _ _ State.enterSafe_held)]
  exact held_parity (foldl_held _ _ _ fun t _ => by simp)

theorem parityScrub_marks {s : State} (bad : List Addr) (hc : s.clocked = true) : Does (.parityScrub bad) s (fun t => t.regs = s.regs
    ∧ ∀ k, k ∈ t.parity ↔ hasStored (keyFields k) = true ∧ ∃ a ∈ bad, regKey (decodeAddr a).block (decodeAddr a).index = k) := by
  refine runsAll_far hc rfl fun u hf hu _ => ⟨frame_regs (hf.trans (s.parityPass_frame bad)), fun k => ?_⟩
  rw [held_parity hu, State.parityPass_parity hc, mem_keep_append_fresh, mem_foundKeys]

/-! ### The keeper's rewrites (R363) -/

/-- The registers of a block at the indices listed are as the keeper's copy, the others as they were, and the copy stays. -/
structure State.restored (s : State) (b : Nat) (l : List Nat) (t : State) : Prop where
  otp : t.otp = s.otp
  copy : t.keeper.copy = s.keeper.copy
  regs : ∀ k, t.reg k = if k ∈ l.map (regKey b) then s.keeperCopy k else s.reg k

section
variable {s : State} {b : Nat} (hb : b ≠ 0)
include hb

theorem State.restoreOne_restored (ix : Nat) : s.restored b [ix] (s.restoreOne b ix) := by
  have hk := congrArg Keeper.copy ((s.setReg (regKey b ix) (s.keeperCopy (regKey b ix))).regEffect_keeper hb ix (s.reg (regKey b ix)))
  have hf : (s.restoreOne b ix).stored = (s.setReg (regKey b ix) (s.keeperCopy (regKey b ix))).stored :=
    (State.count_stored _ 1 3 1).trans (State.regEffect_stored _ b ix _ 0 none (.inl hb))
  have hc : (s.restoreOne b ix).keeper.copy = s.keeper.copy := by
    unfold State.restoreOne
    dsimp only
    rw [State.count_keeper]
    exact hk
  refine ⟨(stored_otp hf :), hc, fun k => ?_⟩
  rw [stored_reg hf, State.setReg_reg]
  by_cases h : k = regKey b ix <;> simp [h]

theorem State.restoreAll_restored (l : List Nat) : s.restored b l (l.foldl (fun t ix => t.restoreOne b ix) s) := by
  induction l using List.reverseRecOn with
  | nil => exact ⟨rfl, rfl, fun k => rfl⟩
  | append_singleton l ix ih =>
    rw [List.foldl_append]
    obtain ⟨ho, hc, hr⟩ := ih
    obtain ⟨ho1, hc1, hr1⟩ := State.restoreOne_restored (s := l.foldl (fun t ix => t.restoreOne b ix) s) hb ix
    refine ⟨ho1.trans ho, hc1.trans hc, fun k => ?_⟩
    have hcopy : (l.foldl (fun t ix => t.restoreOne b ix) s).keeperCopy k = s.keeperCopy k := by
      unfold State.keeperCopy
      rw [ho, hc]
    refine (hr1 k).trans ?_
    rw [hcopy, hr, List.map_append, List.map_singleton]
    by_cases h : k = regKey b ix <;> simp [h]

end

theorem regKey_block {b ix : Nat} (h : ix < 256) : regKey b ix / 256 = b := by
  unfold regKey
  omega
theorem mem_differing {s : State} {b ix : Nat} : ix ∈ s.differing b ↔ ix < 0xFE ∧ s.reg (regKey b ix) ≠ s.keeperCopy (regKey b ix) := by
  unfold State.differing
  rw [List.mem_filter, List.mem_range, bne_iff_ne]

theorem owns_ne_zero {k : Keeper} {b : Nat} (h : k.owns b = true) : b ≠ 0 := by
  rintro rfl
  cases h

section
variable {s : State} {b : Fin 128} (hc : s.clocked = true)
include hc

theorem keeperRestore_restores (hm : s.keeper.mode = .running) (ho : s.keeper.owns (canonBlock b.val) = true) : Does (.keeperRestoreOwned b) s (fun t =>
    (∀ ix < 0xFE, t.reg (regKey (canonBlock b.val) ix) = s.keeperCopy (regKey (canonBlock b.val) ix))
    ∧ ∀ k, k / 256 ≠ canonBlock b.val → t.reg k = s.reg k) := by
  generalize hn : canonBlock b.val = n at ho
  have he : s.restoreOwned n = (s.differing n).foldl (fun t ix => t.restoreOne n ix) s := if_pos (by rw [hm, ho]; rfl)
  obtain ⟨-, -, hr⟩ := State.restoreAll_restored (owns_ne_zero ho) (s.differing n)
  rw [← he] at hr
  refine runsAll_far (t := s.restoreOwned n) hc (by rw [← hn]; rfl) fun u hf _ _ => ⟨fun ix hi => ?_, fun k hk => ?_⟩
  · rw [stored_reg (stored_of_frame hf), hr]
    refine ite_eq_left_iff.2 fun h => ?_
    by_contra hne
    exact h (List.mem_map_of_mem (mem_differing.2 ⟨hi, hne⟩))
  · rw [stored_reg (stored_of_frame hf), hr]
    refine if_neg fun h => ?_
    obtain ⟨ix, hi, rfl⟩ := List.mem_map.1 h
    exact hk (regKey_block (by have := (mem_differing.1 hi).1; omega))

theorem keeperRestore_leaves (ho : s.keeper.owns (canonBlock b.val) = false) : Does (.keeperRestoreOwned b) s (fun t => t.regs = s.regs) := by
  have he : s.restoreOwned (canonBlock b.val) = s := if_neg (by rw [ho, Bool.and_false]; decide)
  exact runsAll_far (t := s.restoreOwned (canonBlock b.val)) hc rfl fun u hf _ _ => frame_regs (hf.trans (congrArg State.frame he))

end

/-! ### The write of a commit (R295) -/

/-- A write that is no doorbell, request cell or reset only stores. -/
theorem plainReg_onlyStores {b ix : Nat} (h : plainReg b ix) (s : State) (w : Way) (v : Word) : s.onlyStores b ix false w v := by
  obtain ⟨-, -, h0, -⟩ := h
  by_cases hb : b = 0
  · exact .inr ⟨.inl fun e => h0 ⟨hb, .inr e⟩, .inr (.inl rfl)⟩
  · exact .inl hb

theorem State.commitWrite_stored (s : State) {a : Addr} (hcomp : (decodeAddr a).comp = false)
    (hu : usedIndex (blockKind (decodeAddr a).block) (decodeAddr a).index = true) (hp : plainReg (decodeAddr a).block (decodeAddr a).index) (v : Word) :
    (s.commitWrite (a, v)).stored = (s.setReg (regKey (decodeAddr a).block (decodeAddr a).index)
      (s.imageOf (decodeAddr a).block (decodeAddr a).index false (decodeAddr a).way v)).stored := by
  unfold State.commitWrite
  dsimp only
  rw [if_neg (by rw [hcomp, hu]; decide), State.noteCopy_stored]
  exact State.applyWrite_stored _ _ _ _ _ _ _ _ hp.2.2.2 (plainReg_onlyStores hp s _ v)

theorem commitAct_writes {s : State} {e : Fin 1024} {x : CalEntry} {a : Addr} {v : Word} (hc : s.clocked = true)
    (hx : s.dueInstant e.val .commit = some x) (hw : x.writes = [(a, v)]) (hcomp : (decodeAddr a).comp = false)
    (hu : usedIndex (blockKind (decodeAddr a).block) (decodeAddr a).index = true) (hp : plainReg (decodeAddr a).block (decodeAddr a).index) :
    Does (.commitAct e) s (s.wrote (decodeAddr a).block (decodeAddr a).index false (decodeAddr a).way v) := by
  have he : s.commitActs e.val = (s.commitWrite (a, v)).instantActs e.val x := by
    unfold State.commitActs
    rw [hx]
    dsimp only
    rw [hw]
    rfl
  refine runsAll_far (t := s.commitActs e.val) hc rfl fun u hf _ _ => State.wrote_of ((stored_of_frame hf).trans ?_)
  rw [he]
  exact (stored_of_frame (State.instantActs_frame ..)).trans (s.commitWrite_stored hcomp hu hp v)

/-! ### The statement -/

/-- Settles O33: the scrubber by what stays marked and what is marked anew, the keeper by the fold of its rewrites, the commit by its one write. -/
theorem parityRestoreCommit : Obligations.ParityRestoreCommit := by
  unfold Obligations.ParityRestoreCommit
  exact ⟨fun s bad hc => parityScrub_marks bad hc, fun s b hc hm _ => ⟨keeperRestore_restores hc hm, keeperRestore_leaves hc⟩,
    fun s e x a v hc hx hw hcomp hu hp => commitAct_writes hc hx hw hcomp hu hp⟩

end Sys2Proof.Machine
end

section
/-! PROOFS. Steps and their commands (R346), the table of stored registers (R349, R350), and addresses (R348, R349). -/

namespace Sys2Proof.Machine

/-! ### Steps -/

/-- Settles O1: both are the unfolding of `step` at a queue that is not empty. -/
theorem stepRunsFront : Obligations.StepRunsFront := by
  intro c s
  refine ⟨rfl, fun rest hq => ?_⟩
  unfold step
  rw [hq]

/-- Settles O2: `step` at an empty queue. -/
theorem idleKeeps : Obligations.IdleKeeps := by
  intro s hq
  unfold step
  rw [hq]

/-- Settles O4: every command ends in the closing that brings the part in line. -/
theorem everyCommandAnswers : Obligations.EveryCommandAnswers := fun c s =>
  (exec_settles c s).imp' (settle s) fun _ h => h

/-! ### The table of stored registers -/

/-- Settles O11: the table of stored registers reads back what was put and nothing else. -/
theorem registerTable : Obligations.RegisterTable := fun _ _ v =>
  ⟨tabGet_put_same _ _ _ v, fun _ hk => tabGet_put_ne _ _ _ v hk⟩

/-! ### Addresses -/

theorem addr_field (a : Addr) (lo w : Nat) : a.toNat / 2 ^ lo % 2 ^ w = (a.extractLsb' lo w).toNat := by
  rw [BitVec.extractLsb'_toNat, Nat.shiftRight_eq_div_pow]

/-- Address decoding by the fields of the address. -/
theorem decodeAddr_fields (a : Addr) : decodeAddr a =
    ⟨canonBlock (a.extractLsb' 16 7).toNat, wayOf (a.extractLsb' 14 2).toNat, a.getLsbD 10, (a.extractLsb' 2 8).toNat⟩ := by
  simp only [decodeAddr, ← addr_field]
  rfl

/-- Bits of an address that a mask clear of a field turns leave the field. -/
theorem addr_field_xor (a : Addr) {m k : Addr} (hm : m &&& k = m) {lo w : Nat} (hk : k.extractLsb' lo w = 0) :
    (a ^^^ m).extractLsb' lo w = a.extractLsb' lo w := by
  rw [BitVec.extractLsb'_xor, ← hm, BitVec.extractLsb'_and, hk]
  simp

/-- Address bits outside the block number, the access way, the complement bit and the index are ignored. -/
theorem decodeAddr_ignores (a : Addr) {m k : Addr} (hm : m &&& k = m) (hb : k.extractLsb' 16 7 = 0) (hw : k.extractLsb' 14 2 = 0)
    (hc : k.extractLsb' 10 1 = 0) (hi : k.extractLsb' 2 8 = 0) : decodeAddr (a ^^^ m) = decodeAddr a := by
  have hcomp : (a ^^^ m).getLsbD 10 = a.getLsbD 10 := by
    have h := congrArg (·.getLsbD 0) (addr_field_xor a hm hc)
    simpa using h
  rw [decodeAddr_fields, decodeAddr_fields, addr_field_xor a hm hb, addr_field_xor a hm hw, addr_field_xor a hm hi, hcomp]

theorem plainAddr_toNat {b ix : Nat} (hb : b < 128) (hi : ix < 256) : (plainAddr b ix).toNat = 0x10000 * b + 4 * ix := by
  unfold plainAddr
  rw [BitVec.toNat_ofNat]
  omega

theorem canonBlock_lt {n : Nat} (h : n < 128) : canonBlock n < 128 := by
  unfold canonBlock
  (repeat' split) <;> omega

/-- Settles O59: the block number is folded by cases on its range; bit 23 is outside every field. -/
theorem addressBlocks : Obligations.AddressBlocks := by
  intro a n hn
  have hlt : n < 128 := hn ▸ Nat.mod_lt _ (by decide)
  have hblock : (decodeAddr a).block = canonBlock n := by rw [hn]; rfl
  have hbase : ∀ b < 128, (plainAddr b 0).toNat = 0x10000 * b := fun b hb => plainAddr_toNat hb (by decide)
  rw [hblock]
  refine ⟨(decodeAddr_ignores a (k := 0x800000) (by decide) (by decide) (by decide) (by decide) (by decide)).symm,
    ?_, ?_, ?_, ?_, ?_, ?_, hbase _ (canonBlock_lt hlt), ?_, ?_, ?_, ?_⟩
  case refine_1 | refine_2 | refine_3 | refine_4 | refine_5 | refine_6 =>
    intros
    simp only [canonBlock, reachBlock, portBlock, laneBlock, mboxBlock]
    split_ifs <;> omega
  case refine_7 | refine_8 | refine_9 | refine_10 =>
    intro k hk
    simp only [reachBlock, portBlock, laneBlock, mboxBlock]
    rw [hbase _ (by omega)]
    omega

/-- The two bits of the access way as a number. -/
theorem addr_alias (a : Addr) : (a.extractLsb' 14 2).toNat = 2 * (a.getLsbD 15).toNat + (a.getLsbD 14).toNat := by
  have h : a.extractLsb' 14 2 = BitVec.ofBool (a.getLsbD 15) ++ BitVec.ofBool (a.getLsbD 14) := by
    refine BitVec.eq_of_getLsbD_eq fun i hi => ?_
    obtain rfl | rfl : i = 0 ∨ i = 1 := by omega
    all_goals rw [BitVec.getLsbD_append]; simp
  rw [h]
  cases a.getLsbD 15 <;> cases a.getLsbD 14 <;> rfl

/-- Settles O60: the fields of the decoded address. -/
theorem addressWithinBlock : Obligations.AddressWithinBlock := by
  intro a
  have hway : ∀ x y, a.getLsbD 15 = x ∧ a.getLsbD 14 = y → (decodeAddr a).way = wayOf (2 * x.toNat + y.toNat) := by
    rintro x y ⟨rfl, rfl⟩
    rw [decodeAddr_fields, ← addr_alias]
  exact ⟨hway _ _, hway _ _, hway _ _, hway _ _, rfl, by rw [decodeAddr_fields],
    fun m hm => decodeAddr_ignores a (k := 0x3803) hm (by decide) (by decide) (by decide) (by decide), fun b ix => plainAddr_toNat⟩

end Sys2Proof.Machine
end

section
/-! PROOFS. The registers' canonical form (R350, R352, R51), which every command keeps, and the frame (R349, R356), which only the
commands that writesFrame lists change. -/

namespace Sys2Proof.Machine

/-- A next state that the outcome `o` answers has the frame of `s` or of the effect `u`. -/
def EndsFrame (s u : State) (o : Host.Outcome State Fault Refusal) : Prop := ∀ t, o = .next t → t.frame = u.frame ∨ t.frame = s.frame

/-! ### The closing forms -/

section
variable (s u : State)

theorem State.gated_frameEither : (s.gated u).frame = u.frame ∨ (s.gated u).frame = s.frame := by
  unfold State.gated
  split
  · exact .inl rfl
  · exact .inr rfl

theorem State.done_frame {v t : State} (h : v.frame = u.frame ∨ v.frame = s.frame) (ht : s.done v = .next t) :
    t.frame = u.frame ∨ t.frame = s.frame := by
  rw [State.done_eq, Host.Outcome.next.injEq] at ht
  rw [← ht, settle_frame]
  exact h

theorem State.done_endsFrame : EndsFrame s u (s.done u) := fun _ => State.done_frame s u (.inl rfl)

theorem State.runs_endsFrame : EndsFrame s u (s.runs u) := fun _ => State.done_frame s u (s.gated_frameEither u)

theorem State.runsPort_endsFrame (p : Fin 16) : EndsFrame s u (s.runsPort p u) := by
  have h := s.gated_frameEither (State.followPort s u p)
  rw [State.followPort_frame] at h
  exact fun _ => State.done_frame s u h

theorem State.actsAll_endsFrame : EndsFrame s u (s.actsAll u) := fun _ => State.done_frame s u (.inl (State.followAll_frame s u))

theorem State.runsAll_endsFrame : EndsFrame s u (s.runsAll u) := by
  have h := s.gated_frameEither (State.followAll s u)
  rw [State.followAll_frame] at h
  exact fun _ => State.done_frame s u h

end

/-- A command whose effect leaves the frame leaves it. -/
theorem EndsFrame.same {s u : State} {o : Host.Outcome State Fault Refusal} (h : EndsFrame s u o) (hu : u.frame = s.frame) :
    ∀ t, o = .next t → t.frame = s.frame := fun t ht => (h t ht).elim (fun e => e.trans hu) id

/-- A command whose effect keeps the registers canonical keeps them so. -/
theorem EndsFrame.canon {s u : State} {o : Host.Outcome State Fault Refusal} (h : EndsFrame s u o) (hs : s.frame.canon) (hu : u.frame.canon) :
    ∀ t, o = .next t → t.frame.canon := fun t ht => (h t ht).elim (fun e => e ▸ hu) (fun e => e ▸ hs)

/-! ### The requests -/

/-- The command codes that write registers: the four port commands. -/
def frameCodes : List Nat := [0x10, 0x11, 0x12, 0x13]

theorem State.serveCode_frame {code : Nat} (h : code ∉ frameCodes) (s : State) (c : Fin 16) (sup : Option Supplied) :
    (s.serveCode c code sup).frame = s.frame := by
  unfold State.serveCode
  split <;> first | exact absurd (by decide) h | simp

/-- A request of a code that writes no register leaves the frame. -/
theorem State.issueCmd_frame_of {code : Nat} (hc : code < 256) (h : code ∉ frameCodes) (s : State) (c : Fin 16) (r : Request) (sup : Option Supplied) :
    (s.issueCmd c code r sup).frame = s.frame := State.issueCmd_frame' s c code r sup hc (fun t => t.serveCode_frame h c sup)

/-! ### The commands that leave the frame -/

/-- Requests go through one shared operation; the effect of any other row is an operation of its own, whose law in
Laws/Frame.lean `simp` finds. -/
theorem exec_keepsFrame {c : Instr} (hw : writesFrame c = false) (s : State) : ∀ t, exec c s = .next t → t.frame = s.frame := by
  cases c with
  -- Requests to a mailbox channel.
  | hello | streamOpen | streamModify | streamClose | cadenceSet | cadenceLearn | timeSet | timeAdjustRate |
  timeAdjustSlew | timeAdjustStep | scheduleEventAdd | scheduleEventCancel | snapshotAt | commitAt | calRun | calRead |
  diagWatchRead | diagWatchCapture | diagWatchDiscard | keyLoad | keyErase | journalCommit | journalRead | bistRunMarch |
  bistRunPortTest | bistRunLoopback | eventFetch | remoteCmdRequest | remoteCmdAnswer | fwStage | fwActivate =>
    exact (State.runs_endsFrame _ _).same (State.issueCmd_frame_of (by decide) (by decide) _ _ _ _)
  | diagTdr | bistRunLbist => exact (State.runsAll_endsFrame _ _).same (State.issueCmd_frame_of (by decide) (by decide) _ _ _ _)
  -- Blocks and frames of the standard modes.
  | blockSend | data | fill | sync | blockOtherType | syncTimeout => exact (State.runsPort_endsFrame _ _ _).same (by simp)
  | blockFailed | nackRepeat | blockResendTimeout | stdFrameReceived | stdFrameSent => exact (State.runs_endsFrame _ _).same (by simp)
  -- Temperature, calibration and diagnostics.
  | tempSample | thermalDownshiftStep => exact (State.runsAll_endsFrame _ _).same (by simp)
  | calSliceDone | calPortRunDone | calRetry | calMaxWait | watchEvaluation | watchAutoCapture | watchCaptureDone =>
    exact (State.runs_endsFrame _ _).same (by simp)
  | tdrListenEnd | tdrComplete => exact (State.runsPort_endsFrame _ _ _).same (by simp)
  -- Time-outs and ends of Auzer commands.
  | streamCloseComplete | cadenceLearnDone | cadenceLearnTimeout | timeSetTsyncTimeout | diagWatchCaptureTimeout |
  bistPortTestTimeout | remoteAnswerTimeout | remoteInHostTimeout => exact (State.runs_endsFrame _ _).same (by simp)
  -- Host lanes, the basin and placement.
  | hostFrameSent | outboundFrame | receipt | controlFrameInvalid | receiptTimeout | releaseRepeat | pauseFrame |
  pauseExpiry | pauseStuck | laneUp | laneStartRetry | laneLoss | moveLaneStart | rebalanceCheck | basinScrub |
  bankCopyDone | cellMigrationDone => exact (State.runs_endsFrame _ _).same (by simp)
  -- Link start, the ladder, shifts and cells.
  | clause98Resolved | anPageTimeout | stdTrainingDone | stdLinkFail | beaconListenEnd | beaconAnswer | cap |
  discoverTimeout | soundingBurst | mode | soundTimeout | echoLearnPhaseEnd | fullDuplexEnd | go | goCountReached |
  trainingTimeout | holdEnd | towpathLoss | ladderUpdate | shift | shiftReq | shiftRetrainEnd | shiftNotConverged | cack |
  cellResendTimeout | macFail | block | startMarkerReceived | soundingBurstMissing =>
    exact (State.runsPort_endsFrame _ _ _).same (by simp)
  | upBarExpiry | tpsf | sfChange | tpsfRenew | nonceRefreshStart | nonce | nonceOldDrop | idle | unknownCell |
  towpathCellSlot | pilot | cellCrcFail | streamStop | streamStart | ping | remoteApplication | remoteUnknownOp |
  remoteAnswer => exact (State.runs_endsFrame _ _).same (by simp)
  -- Quiet and low-power idle.
  | quietEnterSend | quietEnter | quietExit | quietAbort | lpiIdleTimeout | partnerLpi =>
    exact (State.runs_endsFrame _ _).same (by simp)
  | quietEntryPoint | quietExitPoint | deepQuietEarlyWake | deepQuietEnd | deepQuietMarkerTimeout =>
    exact (State.runsPort_endsFrame _ _ _).same (by simp)
  -- Receive processing and LDMT.
  | soundingRefresh | agcStep | floatClusterCheck | xtAllocation | dmtSnrUpdate | tableMessage | dmtTableRepeat |
  bitswapSwitch | symbolSlip => exact (State.runs_endsFrame _ _).same (by simp)
  -- The scrubber, counters and the MDIO window.
  | mdioAddress | mdioRead | mdioReadInc | mdioLatchTimeout => exact (State.done_endsFrame _ _).same (by simp)
  | parityScrub => exact (State.runsAll_endsFrame _ _).same (by simp)
  | counterWrap => exact (State.runs_endsFrame _ _).same (by simp)
  -- Self-test and the journal.
  | marchInterval | marchDone | portTestInterval | loopbackDone | journalAutoCommit | journalCommitDone | engineSliceRetry =>
    exact (State.runs_endsFrame _ _).same (by simp)
  -- Clocks, start-up, domains and the keeper.
  | pllHoldoverEntry | watchOscCheck | sscChangeApply | basinInitDone | domainSequencerTurn | domainUsable | safeStateComplete =>
    exact (State.done_endsFrame _ _).same (by simp)
  | pllNoFeedback | forcedSwitch | clockMuxBothAbsent | pfailRelease => exact (State.actsAll_endsFrame _ _).same (by simp)
  | firmwareStart | keeperRestartDone | keeperWatchdogExpiry | lockstepMismatch | keeperSramUncorrectable =>
    exact (State.runs_endsFrame _ _).same (by simp)
  -- Vehicle time and the calendar.
  | timeTick => exact (State.done_endsFrame _ _).same (by simp)
  | slewDone | tsyncEdge | tmarkRise | tmarkFall | windowStart | windowStop | snapshotTake | hostEventInstant |
  tmarkPulseInstant | snapshotCopyDone | timeReqTimer | timeReq | timeSync | xferNoSource =>
    exact (State.runs_endsFrame _ _).same (by simp)
  -- The commands that writesFrame lists.
  | _ => cases hw

/-- Settles O6: the effect of every command outside writesFrame leaves the frame, and so does what closes it. -/
theorem frameKept : Obligations.FrameKept := fun _ s t hw ht => exec_keepsFrame hw s t ht

/-! ### The commands that write the frame -/

/-- The commands of writesFrame: each keeps the registers canonical by the law of its effect in Laws/Root.lean. -/
theorem exec_keepsCanon_of_writes {c : Instr} (hw : writesFrame c = true) {s : State} (h : s.frame.canon) :
    ∀ t, exec c s = .next t → t.frame.canon := by
  cases c with
  -- Supplies, pins, clocks and start-up.
  | supplyMonitorTrip => exact (State.done_endsFrame _ _).canon h (State.railTrips_canon _ _ h)
  | suppliesGood => exact (State.done_endsFrame _ _).canon h (State.railsGood_canon _ h)
  | resetNFall => exact (State.done_endsFrame _ _).canon h (State.resetFalls_canon _ h)
  | resetNRise => exact (State.done_endsFrame _ _).canon h (State.resetRises_canon _ _ _ h)
  | refclkWindowEnd => exact (State.done_endsFrame _ _).canon h (State.refWindow_canon _ _ h)
  | pllLockWindowEnd => exact (State.actsAll_endsFrame _ _).canon h (State.pllWindow_canon _ _ _ h)
  | pllLockTimeout => exact (State.done_endsFrame _ _).canon h (State.pllTimeout_canon _ _ h)
  | pfailNFall => exact (State.actsAll_endsFrame _ _).canon h (State.pfailFalls_canon _ h)
  | pfailNRise => exact (State.done_endsFrame _ _).canon h (State.pfailRises_canon _ h)
  | testEnRise => exact (State.actsAll_endsFrame _ _).canon h (State.testRises_canon _ _ h)
  | testEnFall => exact (State.done_endsFrame _ _).canon h (State.testFalls_canon _ h)
  -- The keeper, self-test, the key store and boundary scan.
  | fwActivateReset => exact (State.runs_endsFrame _ _).canon h (State.activateReset_canon _ h)
  | keeperRestoreOwned => exact (State.runsAll_endsFrame _ _).canon h (State.restoreOwned_canon _ _ h)
  | commitAct => exact (State.runsAll_endsFrame _ _).canon h (State.commitActs_canon _ _ h)
  | lbistDone => exact (State.done_endsFrame _ _).canon h (State.lbistEnds_canon _ _ h)
  | zeroiseRetry => exact (State.runsAll_endsFrame _ _).canon h (State.zeroiseResult_canon _ _ h)
  | boundaryScan => exact (State.done_endsFrame _ _).canon h (State.tapEdge_canon _ _ _ _ h)
  -- Requests to a mailbox channel.
  | portSetPolicy | portEnable | portDisable | portForceMode | unknownCmd =>
    exact (State.runsAll_endsFrame _ _).canon h (State.issueCmd_canon _ _ _ _ _ h)
  -- Register accesses.
  | gdKeyWrite | indDataWrite | ckCtrlWrite | pcSeedWrite | tpCtrlWrite | lnTxWrite | lnRxWrite | rhXtWrite |
  lnBlkCtrlWrite | lnQuietWrite | basinRegWrite | hlRegWrite | tmRegWrite | calRegWrite | dgRegWrite =>
    exact (State.done_endsFrame _ _).canon h (State.wr_canon _ _ _ _ _ _ h)
  | lnModeWrite | lnPolicyWrite => exact (State.actsAll_endsFrame _ _).canon h (State.wr_canon _ _ _ _ _ _ h)
  | tdrStart => exact (State.actsAll_endsFrame _ _).canon h (State.wrBit_canon _ _ _ _ _ h)
  | watchCapture | watchClearRef | mbTake | counterClear | pcSelNow | lnQuietWake | plRebal =>
    exact (State.done_endsFrame _ _).canon h (State.wrBit_canon _ _ _ _ _ h)
  | pdForceOffWrite | ckResetPort | stLbistStart | ksZeroise =>
    exact (State.actsAll_endsFrame _ _).canon h (State.guardedWrite_canon _ _ _ _ _ _ h)
  | ckResetSoft | ckResetKeeper | ckResetLane | lnTxTestWrite | calOvrWrite | stLoopbackStart =>
    exact (State.done_endsFrame _ _).canon h (State.guardedWrite_canon _ _ _ _ _ _ h)
  | registerWrite | guardedValueWrite | guardComplementWrite =>
    exact (State.actsAll_endsFrame _ _).canon h (State.addrWrite_canon _ _ _ _ h)
  | indDataRead | tmNowNsRead | counterLowRead => exact (State.done_endsFrame _ _).canon h (State.busRead_canon _ _ _ _ _ h)
  | spiTransactionError => exact (State.done_endsFrame _ _).canon h (State.spiIgnored_canon _ _ h)
  | guardTimeout => exact (State.done_endsFrame _ _).canon h (State.guardLate_canon _ _ h)
  | mdioWrite => exact (State.actsAll_endsFrame _ _).canon h (State.mdioPut_canon _ _ _ _ h)
  -- The monitor.
  | monRead => exact (State.done_endsFrame _ _).canon h (State.monGet_canon _ _ h)
  | monWrite => exact (State.actsAll_endsFrame _ _).canon h (State.monPut_canon _ _ _ h)
  | monInvoke => exact (State.actsAll_endsFrame _ _).canon h (State.monCall_canon _ _ _ h)
  | monInvokeResponse => exact (State.done_endsFrame _ _).canon h (State.monDone_canon _ _ h)
  | monTrace => exact (State.done_endsFrame _ _).canon h (State.monTraceSet_canon _ _ h)
  | monCounters => exact (State.done_endsFrame _ _).canon h (State.monDump_canon _ _ h)
  | monBaud => exact (State.done_endsFrame _ _).canon h (State.monRate_canon _ _ h)
  | monBadLine => exact (State.done_endsFrame _ _).canon h (State.monBad_canon _ h)
  -- The commands outside writesFrame.
  | _ => cases hw

/-- A command run on canonical registers leaves them canonical. -/
theorem exec_keepsCanon (c : Instr) {s : State} (h : s.frame.canon) : ∀ t, exec c s = .next t → t.frame.canon := by
  cases hw : writesFrame c with
  | true => exact exec_keepsCanon_of_writes hw h
  | false => exact fun t ht => exec_keepsFrame hw s t ht ▸ h

/-- Settles O8: an idle step changes nothing, and every command keeps the canonical form. -/
theorem stepCanon : Obligations.StepCanon := by
  intro s t h ht
  unfold step at ht
  split at ht
  · cases ht
    exact h
  · next c rest _ => exact exec_keepsCanon c (s := { s with pending := rest }) h t ht

end Sys2Proof.Machine
end

section
/-! PROOFS. The image that a write makes, field by field (R350, R355, R356, R454). -/

namespace Sys2Proof.Machine

theorem fld_lt (v : Word) (lo w : Nat) : fld v lo w < 2 ^ w := Nat.mod_lt _ (Nat.two_pow_pos w)

/-- What an access way computes fits the field. -/
theorem wayValue_lt (way : Way) {w old data : Nat} (ho : old < 2 ^ w) (hd : data < 2 ^ w) : wayValue way w old data < 2 ^ w := by
  cases way with
  | plain => exact hd
  | setBits => exact Nat.or_lt_two_pow ho hd
  | clearBits => exact Nat.lt_of_le_of_lt Nat.and_le_left ho
  | toggle => exact Nat.xor_lt_two_pow ho hd

theorem ofInt_lt (w : Nat) (i : Int) : ofInt w i < 2 ^ w := by
  have hp : (0 : Int) < (2 ^ w : Nat) := by exact_mod_cast Nat.two_pow_pos w
  have h0 := Int.emod_nonneg i hp.ne'
  have h1 := Int.emod_lt_of_pos i hp
  unfold ofInt
  omega

/-- A rule that fits a field stores values that fit it. -/
theorem Rule.store_lt {r : Rule} {w rst : Nat} (hr : r.fits w rst = true) {old new : Nat} (ho : old < 2 ^ w) (hn : new < 2 ^ w) :
    r.store w old new < 2 ^ w := by
  cases r with
  | any => exact hn
  | clamp lo hi =>
    obtain ⟨h1, h2, h3⟩ := of_decide_eq_true hr
    show max lo (min hi new) < 2 ^ w
    omega
  | clampS lo hi => exact ofInt_lt _ _
  | only l =>
    show (if l.contains new then new else old) < 2 ^ w
    split
    · exact hn
    · exact ho

/-- Whether a write reaches a field (R350, R355). -/
def Fld.reached (f : Fld) (g : Bool) : Prop := f.acc = .rw ∨ (g = true ∧ f.acc = .wg)

section
variable {f : Fld} {g : Bool} (w : Way) (old v : Word)

theorem writeField_of_reached (h : f.reached g) :
    writeField g w v old f = setFld old f.lo f.w (f.rule.store f.w (fld old f.lo f.w) (wayValue w f.w (fld old f.lo f.w) (fld v f.lo f.w))) := by
  unfold writeField
  rw [if_pos (by rcases h with h | ⟨rfl, h⟩ <;> rw [h] <;> rfl)]

theorem writeField_of_unreached (h : ¬ f.reached g) : writeField g w v old f = old := by
  unfold writeField
  refine if_neg fun hc => h ?_
  simpa [Fld.reached] using hc

/-- A field that a write reaches holds what its rule stores. -/
theorem fld_writeField_of_reached (h : f.reached g) (hw : f.lo + f.w ≤ 32) (hr : f.rule.fits f.w f.rst = true) :
    fld (writeField g w v old f) f.lo f.w = f.rule.store f.w (fld old f.lo f.w) (wayValue w f.w (fld old f.lo f.w) (fld v f.lo f.w)) := by
  rw [writeField_of_reached w old v h, setFld_fld _ _ _ _ hw]
  exact Nat.mod_eq_of_lt (Rule.store_lt hr (fld_lt ..) (wayValue_lt w (fld_lt ..) (fld_lt ..)))

end

/-- Settles O20: the writable fields of a register lie apart, so each holds what its own write makes of it. -/
theorem fieldWrites : Obligations.FieldWrites := by
  intro key g w old v
  obtain ⟨hapart, hfit⟩ : fieldsFit (keyFields key) := fieldsOf_fit _ _
  refine ⟨fun f hf hreach => ?_, fun f hf hreach => ?_, fun j hj => writeFields_bit _ _ _ _ _ _ hj⟩
  · obtain ⟨-, hw, -, hr⟩ := hfit f hf
    rw [writeFields_fld _ hapart g w old v f hf, fld_writeField_of_reached w old v hreach hw hr]
    cases hrule : f.rule with
    | any | clamp | clampS => rfl
    | only l => simp only [Rule.store, List.contains_iff_mem]
  · rw [writeFields_fld _ hapart g w old v f hf, writeField_of_unreached w old v hreach]

end Sys2Proof.Machine
end

section
/-! PROOFS. A register write by address (R348 to R351, R382, R56), and the guard procedure with the ways of breaking it
(R346, R347, R355 to R358). -/

namespace Sys2Proof.Machine

/-! ### What the small operations of an access leave -/

theorem stored_regs_of_calm {a b : State} (h : a.calm = b.calm) : a.regs = b.regs := stored_regs (calm_stored h)

theorem State.noteCopy_calm (s : State) (k : Nat) : (s.noteCopy k).calm = s.calm := by
  unfold State.noteCopy
  split <;> rfl

theorem State.cellWritten_calm (s : State) (c : Fin 16) (k : Nat) (w : Way) (v : Word) : (s.cellWritten c k w v).calm = s.calm := by
  unfold State.cellWritten
  split <;> rfl

theorem State.began_gdBare (s : State) (i : Iface) : (s.began i).gdBare = s.gdBare := by
  unfold State.began
  split <;> simp

theorem State.said_gdBare (s : State) (i : Iface) (a b c d : Bool) : (s.said i a b c d).gdBare = s.gdBare := State.modIface_gdBare _ _ _

theorem State.began_chan (s : State) (i : Iface) (c : Fin 16) : (s.began i).chan c = s.chan c := by
  unfold State.began
  split <;> simp

theorem State.said_chan (s : State) (i : Iface) (a b c d : Bool) (k : Fin 16) : (s.said i a b c d).chan k = s.chan k := by
  cases i <;> rfl

theorem State.noteCopy_chan (s : State) (k : Nat) (c : Fin 16) : (s.noteCopy k).chan c = s.chan c := by
  unfold State.noteCopy
  split <;> rfl

section
variable {s : State} {i : Iface} {a : Addr} (v : Word)

theorem State.addrWrite_open (h : s.opens i (decodeAddr a).block) :
    s.addrWrite i a v = (s.began i).writeFree i (decodeAddr a).block (decodeAddr a).index (decodeAddr a).way (decodeAddr a).comp v none :=
  State.busWrite_open h _ _ _ _ _

/-! ### A write at an open block -/

theorem registerWrite_stores (h : s.opens i (decodeAddr a).block) (hc : (decodeAddr a).comp = false)
    (hu : usedIndex (blockKind (decodeAddr a).block) (decodeAddr a).index = true) (hp : plainReg (decodeAddr a).block (decodeAddr a).index) :
    Does (.registerWrite i a v) s (s.wrote (decodeAddr a).block (decodeAddr a).index false (decodeAddr a).way v) := by
  have he : s.addrWrite i a v = s.busWrite i (decodeAddr a).block (decodeAddr a).index (decodeAddr a).way false v := by
    rw [← hc]
    rfl
  exact acts_does (t := s.addrWrite i a v) rfl fun u hf _ => State.busWrite_wrote h _ v none hu hp (hf.trans (congrArg State.frame he))

theorem registerWrite_unused (h : s.opens i (decodeAddr a).block) (hu : usedIndex (blockKind (decodeAddr a).block) (decodeAddr a).index = false) :
    Does (.registerWrite i a v) s (fun t => t.regs = s.regs ∧ t.gdBare = s.gdBare ∧ (t.iface i).noChange = true) := by
  have he : s.addrWrite i a v = (s.began i).said i false false false true := by
    rw [State.addrWrite_open v h]
    exact if_pos (by rw [hu]; rfl)
  have hcalm : ((s.began i).said i false false false true).calm = s.calm := by rw [State.said_calm, State.began_calm]
  refine acts_calm (t := (s.began i).said i false false false true) (congrArg s.actsAll he) hcalm ⟨?_, ?_, ?_⟩
  · rw [settle_regs, stored_regs_of_calm hcalm]
  · rw [settle_gdBare, State.said_gdBare, State.began_gdBare]
  · rw [settle_iface, State.said_iface]

theorem registerWrite_complement (h : s.opens i (decodeAddr a).block)
    (hu : usedIndex (blockKind (decodeAddr a).block) (decodeAddr a).index = true) (hc : (decodeAddr a).comp = true) :
    Does (.registerWrite i a v) s (fun t => t.regs = s.regs ∧ t.gdBare = satAdd 0xFF s.gdBare 1 ∧ (t.iface i).badGuard = true) := by
  have he : s.addrWrite i a v = (s.began i).bare.said i true false false true := by
    rw [State.addrWrite_open v h, hc]
    unfold State.writeFree
    rw [if_neg (by rw [hu]; decide), if_pos rfl]
  have hcalm : ((s.began i).bare.said i true false false true).calm = s.calm := by rw [State.said_calm, State.bare_calm, State.began_calm]
  refine acts_calm (t := (s.began i).bare.said i true false false true) (congrArg s.actsAll he) hcalm ⟨?_, ?_, ?_⟩
  · rw [settle_regs, stored_regs_of_calm hcalm]
  · rw [settle_gdBare, State.said_gdBare]
    show satAdd 0xFF (s.began i).gdBare 1 = _
    rw [State.began_gdBare]
  · rw [settle_iface, State.said_iface]

end

/-! ### A request cell -/

theorem blockKind_mboxBlock (c : Fin 16) : blockKind (mboxBlock c.val) = .mbox := by revert c; decide

theorem mboxBlock_channel (c : Fin 16) : Fin.ofNat 16 (mboxBlock c.val) = c := by revert c; decide

/-- The cells of a channel after a plain write of one (R382). -/
theorem State.cellWritten_req (s : State) (c : Fin 16) (k : Fin 64) (v : Word) (j : Fin 64) :
    ((s.cellWritten c k.val .plain v).chan c).req.get j = if (s.chan c).busy = false ∧ j = k then v else (s.chan c).req.get j := by
  unfold State.cellWritten
  split
  · next hb => rw [if_neg (by rw [hb]; simp)]
  · next hb =>
    rw [State.chan_modChan_same]
    have hv : BitVec.ofNat 32 (wayValue .plain 32 ((s.chan c).req.get (Fin.ofNat 64 k.val)).toNat v.toNat) = v := BitVec.ofNat_toNat 32 v
    have hk : k.val % 64 = k.val := Nat.mod_eq_of_lt k.isLt
    dsimp only
    rw [hv]
    simp only [hk]
    by_cases hj : j = k
    · subst hj
      rw [vec_get_set_same, if_pos ⟨by simpa using hb, rfl⟩]
    · rw [vec_get_set_ne _ hj, if_neg (fun h => hj h.2)]

/-- The state that a plain write of a request cell leaves, but for what the keeper and the interface note of it. -/
theorem State.writeFree_cell (s : State) (i : Iface) (c : Fin 16) (k : Fin 64) (v : Word) :
    (s.writeFree i (mboxBlock c.val) k.val .plain false v none).calm = s.calm
      ∧ (s.writeFree i (mboxBlock c.val) k.val .plain false v none).chan c = (s.cellWritten c k.val .plain v).chan c := by
  have hk := k.isLt
  have hb : mboxBlock c.val / 16 = 4 := by unfold mboxBlock; omega
  have hu : usedIndex (blockKind (mboxBlock c.val)) k.val = true := by
    rw [blockKind_mboxBlock]
    simp [usedIndex]
    omega
  have hs : s.storeReg (mboxBlock c.val) k.val false .plain v none = s.cellWritten c k.val .plain v := by
    unfold State.storeReg
    dsimp only
    rw [if_pos ⟨hb, hk⟩, mboxBlock_channel]
  have ha : (s.applyWrite i (mboxBlock c.val) k.val false .plain v none).calm = s.calm
      ∧ (s.applyWrite i (mboxBlock c.val) k.val false .plain v none).chan c = (s.cellWritten c k.val .plain v).chan c := by
    unfold State.applyWrite
    dsimp only
    rw [if_neg (show ¬ (mboxBlock c.val / 16 = 4 ∧ k.val = 0x80) by omega), hs]
    split
    · exact ⟨(State.noteCopy_calm _ _).trans (State.cellWritten_calm ..), State.noteCopy_chan _ _ _⟩
    · exact ⟨State.cellWritten_calm .., rfl⟩
  rw [State.writeFree_plain _ _ _ _ _ _ _ hu (by unfold mboxBlock; omega) (by omega) (by omega), State.said_calm, State.said_chan]
  split
  · exact ⟨(State.bare_calm _).trans ha.1, ha.2⟩
  · exact ha

theorem registerWrite_cell {s : State} {i : Iface} {a : Addr} (v : Word) {c : Fin 16} {k : Fin 64} (h : s.opens i (mboxBlock c.val))
    (ha : decodeAddr a = ⟨mboxBlock c.val, .plain, false, k.val⟩) :
    Does (.registerWrite i a v) s (fun t => t.regs = s.regs ∧ ∀ j : Fin 64, (t.chan c).req.get j =
      if (s.chan c).busy = false ∧ j = k then v else (s.chan c).req.get j) := by
  obtain ⟨hcalm, hchan⟩ := (s.began i).writeFree_cell i c k v
  rw [State.began_calm] at hcalm
  have he : s.addrWrite i a v = (s.began i).writeFree i (mboxBlock c.val) k.val .plain false v none := by
    rw [State.addrWrite_open v (by rw [ha]; exact h), ha]
  refine acts_calm (congrArg s.actsAll he) hcalm ⟨?_, fun j => ?_⟩
  · rw [settle_regs, stored_regs_of_calm hcalm]
  · rw [settle_req, hchan, State.cellWritten_req, State.began_chan]

/-! ### A block that is still closed -/

theorem State.began_frameErr (s : State) (i : Iface) : (s.began i).frameErr = s.frameErr := by
  unfold State.began
  split <;> simp

theorem State.began_sup (s : State) (i : Iface) : (s.began i).sup = s.sup := by
  unfold State.began
  split <;> simp

theorem State.began_closedTo (s : State) (i : Iface) (b : Nat) : (s.began i).closedTo b = s.closedTo b := by
  unfold State.closedTo State.early
  rw [State.began_sup]

theorem registerWrite_closed {s : State} {i : Iface} {a : Addr} (v : Word) (hi : i ≠ .keeper) (hd : s.deaf i = false)
    (hc : s.closedTo (decodeAddr a).block = true) :
    Does (.registerWrite i a v) s (fun t => t.regs = s.regs ∧ t.frameErr = satAdd 0xFFFF s.frameErr 1 ∧ (t.iface i).badFrame = true) := by
  generalize hu : ({ (s.began i).guardDrop i with frameErr := satAdd 0xFFFF (s.began i).frameErr 1 } : State) = u
  have he : s.addrWrite i a v = u.said i false false true false := by
    rw [← hu]
    unfold State.addrWrite State.busWrite
    dsimp only
    rw [if_neg (by rw [hd]; decide), if_pos ⟨hi, by rw [State.began_closedTo]; exact hc⟩]
  have hcalm : (u.said i false false true false).calm = s.calm := by
    rw [State.said_calm, ← hu]
    exact (State.guardDrop_calm _ _).trans (State.began_calm _ _)
  refine acts_calm (congrArg s.actsAll he) hcalm ⟨?_, ?_, ?_⟩
  · rw [settle_regs, stored_regs_of_calm hcalm]
  · rw [settle_frameErr, ← hu, ← s.began_frameErr i]
    exact State.modIface_frameErr _ _ _
  · rw [settle_iface, State.said_iface]

/-- Settles O18: at an open block by the cases of a write outside the guard procedure, at a closed one by its answer. -/
theorem registerWrite : Obligations.RegisterWrite :=
  ⟨fun _ _ _ v h => ⟨registerWrite_stores v h, registerWrite_unused v h, registerWrite_complement v h⟩,
    fun _ _ _ v _ _ => registerWrite_cell v, fun _ _ _ v => registerWrite_closed v⟩

end Sys2Proof.Machine
end

section
/-! PROOFS. The guard procedure (R355 to R358): the key, the value, the complement, and what breaks it. -/

namespace Sys2Proof.Machine

/-! ### What breaking a guard off and noting a transaction leave -/

theorem State.began_gdAbort (s : State) (i : Iface) : (s.began i).gdAbort = s.gdAbort := by
  unfold State.began
  split <;> simp

theorem State.began_gdMismatch (s : State) (i : Iface) : (s.began i).gdMismatch = s.gdMismatch := by
  unfold State.began
  split <;> simp

theorem State.began_crcErr (s : State) (i : Iface) : (s.began i).crcErr = s.crcErr := by
  unfold State.began
  split <;> simp

theorem State.began_iface (s : State) (i j : Iface) : (s.began i).iface j = s.iface j := by
  unfold State.began
  cases j <;> split <;> simp [State.iface]

theorem State.said_gdAbort (s : State) (i : Iface) (a b c d : Bool) : (s.said i a b c d).gdAbort = s.gdAbort := State.modIface_gdAbort _ _ _

theorem State.said_gdMismatch (s : State) (i : Iface) (a b c d : Bool) : (s.said i a b c d).gdMismatch = s.gdMismatch :=
  State.modIface_gdMismatch _ _ _

/-- A guard procedure broken off (R357). -/
theorem State.guardAbort_leaves (s : State) (i : Iface) :
    ((s.guardAbort i).iface i).guard = .idle ∧ (s.guardAbort i).gdAbort = satAdd 0xFFFF s.gdAbort 1 := by
  constructor
  · unfold State.guardAbort
    cases i <;> simp [State.iface, State.modIface]
  · unfold State.guardAbort
    rw [State.count_gdAbort, State.modIface_gdAbort]

theorem State.guardAbort_keeps (s : State) (i : Iface) :
    (s.guardAbort i).crcErr = s.crcErr ∧ (s.guardAbort i).frameErr = s.frameErr := by
  unfold State.guardAbort
  rw [State.count_crcErr, State.modIface_crcErr, State.count_frameErr, State.modIface_frameErr]
  exact ⟨rfl, rfl⟩

/-- An open guard dropped, an idle one left. -/
theorem State.guardDrop_leaves (s : State) (i : Iface) : ((s.guardDrop i).iface i).guard = .idle
    ∧ (s.guardDrop i).gdAbort = (if (s.iface i).guard = .idle then s.gdAbort else satAdd 0xFFFF s.gdAbort 1)
    ∧ (s.guardDrop i).crcErr = s.crcErr ∧ (s.guardDrop i).frameErr = s.frameErr := by
  unfold State.guardDrop
  split
  · next h => exact ⟨h, rfl, rfl, rfl⟩
  · obtain ⟨hg, ha⟩ := s.guardAbort_leaves i
    exact ⟨hg, ha, s.guardAbort_keeps i⟩

theorem State.pack_calm (s : State) (i : Iface) (t : Tally) (g : IfaceRec) : (s.pack i t g).calm = s.calm := by cases i <;> rfl

theorem State.pack_gd (s : State) (i : Iface) (t : Tally) (g : IfaceRec) :
    (s.pack i t g).gdAbort = s.gdAbort ∧ (s.pack i t g).gdMismatch = s.gdMismatch := by cases i <;> exact ⟨rfl, rfl⟩

/-! ### The key, and the time-out -/

theorem State.closedTo_chip (s : State) : s.closedTo 0 = false := by simp [State.closedTo]

theorem gdKey_unguarded : hasGuarded (keyFields (regKey 0 0x30)) = false := by decide

/-- The key written outside the procedure arms the guard. -/
theorem State.writeFree_key (s : State) (i : Iface) : ((s.writeFree i 0 0x30 .plain false guardKey none).iface i).guard = .armed
    ∧ (s.writeFree i 0 0x30 .plain false guardKey none).regs = s.regs ∧ (s.writeFree i 0 0x30 .plain false guardKey none).gdAbort = s.gdAbort := by
  have he : s.writeFree i 0 0x30 .plain false guardKey none = (s.modIface i (fun x => { x with guard := .armed })).said i false false false false := by
    unfold State.writeFree
    rw [if_neg (by decide), if_neg (by decide), if_pos ⟨rfl, rfl⟩, if_pos ⟨rfl, rfl⟩]
  rw [he, State.said_iface, State.iface_modIface_same, State.said_gdAbort, State.modIface_gdAbort]
  exact ⟨rfl, (State.modIface_regs _ _ _).trans (State.modIface_regs _ _ _), rfl⟩

/-- A key at an open guard breaks the procedure off and is written outside it. -/
theorem State.busWrite_key_open {s : State} {i : Iface} (hd : s.deaf i = false) (hg : (s.iface i).guard ≠ .idle) :
    s.busWrite i 0 0x30 .plain false guardKey = ((s.began i).guardAbort i).writeFree i 0 0x30 .plain false guardKey none := by
  unfold State.busWrite
  dsimp only
  rw [if_neg (by rw [hd]; decide), if_neg (by rw [State.closedTo_chip]; simp), State.began_iface]
  split
  · next h => exact absurd h hg
  · rw [if_neg (by rw [gdKey_unguarded]; decide)]
  · rw [if_neg (by simp)]

section
variable {s : State} {i : Iface}

theorem gdKeyWrite_arms (h : s.opens i 0) :
    Does (.gdKeyWrite i) s (fun t => (t.iface i).guard = .armed ∧ t.regs = s.regs ∧ t.gdAbort = s.gdAbort) := by
  obtain ⟨hg, hr, ha⟩ := (s.began i).writeFree_key i
  have he : s.wr i 0 0x30 .plain guardKey = (s.began i).writeFree i 0 0x30 .plain false guardKey none := State.busWrite_open h _ _ _ _ _
  refine ⟨_, congrArg s.done he, ?_, ?_, ?_⟩
  · rw [settle_iface, hg]
  · rw [settle_regs, hr, stored_regs (State.began_stored _ _)]
  · rw [settle_gdAbort, ha, State.began_gdAbort]

theorem gdKeyWrite_aborts (hd : s.deaf i = false) (hn : (s.iface i).guard ≠ .idle) :
    Does (.gdKeyWrite i) s (fun t => (t.iface i).guard = .armed ∧ t.regs = s.regs ∧ t.gdAbort = satAdd 0xFFFF s.gdAbort 1) := by
  obtain ⟨hg, hr, ha⟩ := ((s.began i).guardAbort i).writeFree_key i
  refine ⟨_, congrArg s.done (State.busWrite_key_open hd hn), ?_, ?_, ?_⟩
  · rw [settle_iface, hg]
  · rw [settle_regs, hr, stored_regs (State.guardAbort_stored _ _), stored_regs (State.began_stored _ _)]
  · rw [settle_gdAbort, ha, ((s.began i).guardAbort_leaves i).2, State.began_gdAbort]

theorem guardTimeout_drops (hn : (s.iface i).guard ≠ .idle) :
    Does (.guardTimeout i) s (fun t => (t.iface i).guard = .idle ∧ t.regs = s.regs ∧ t.gdAbort = satAdd 0xFFFF s.gdAbort 1) := by
  have he : s.guardLate i = s.guardAbort i := if_neg hn
  obtain ⟨hg, ha⟩ := s.guardAbort_leaves i
  refine ⟨_, congrArg s.done he, ?_, ?_, ?_⟩
  · rw [settle_iface, hg]
  · rw [settle_regs, stored_regs (State.guardAbort_stored _ _)]
  · rw [settle_gdAbort, ha]

/-! ### The value and its complement -/

section
variable {a : Addr} {b ix : Nat} (hd : s.deaf i = false) (hc : i = .keeper ∨ s.closedTo b = false)
include hd hc

theorem guardedValueWrite_holds (v : Word) (hu : usedIndex (blockKind b) ix = true) (hf : hasGuarded (keyFields (regKey b ix)) = true)
    (hg : (s.iface i).guard = .armed) (ha : decodeAddr a = ⟨b, .plain, false, ix⟩) :
    Does (.guardedValueWrite i a v) s (fun t => (t.iface i).guard = .holding (plainAddr b ix) v ∧ t.regs = s.regs) := by
  obtain ⟨t, g, hh, he⟩ := s.valueWrite_pack hd hc hu hf s.tally (s.iface i) hg v none
  rw [State.pack_self] at he
  have hw : s.addrWrite i a v = s.pack i t g := by
    unfold State.addrWrite
    rw [ha]
    exact he
  have hcalm := s.pack_calm i t g
  refine acts_calm (t := s.pack i t g) (congrArg s.actsAll hw) hcalm ⟨?_, ?_⟩
  · rw [settle_iface, State.pack_iface, hh]
  · rw [settle_regs, stored_regs_of_calm hcalm]

/-- The accepted write of a guarded register stores its image and leaves the guard idle. -/
theorem guardComplementWrite_acts (v0 : Word) (hf : hasGuarded (keyFields (regKey b ix)) = true)
    (hg : (s.iface i).guard = .holding (plainAddr b ix) v0) (ha : decodeAddr a = ⟨b, .plain, true, ix⟩) (hck : ¬ (b = 0 ∧ ix = 0x0B))
    (hoff : b = 0 ∧ 0x10 ≤ ix ∧ ix ≤ 0x17 → s.sup.softAfterRef = false) :
    Does (.guardComplementWrite i a (~~~v0)) s (fun t => s.wrote b ix true .plain v0 t
      ∧ (i ≠ .keeper → (t.iface i).guard = .idle) ∧ t.gdMismatch = s.gdMismatch) := by
  obtain ⟨t, g, hh, he⟩ := s.complementWrite_pack hd hc s.tally (s.iface i) v0 hg none
  rw [State.pack_self] at he
  generalize hb : (s.pack i t g).leaves b ix true .plain v0 = nc at he
  have hw : s.addrWrite i a (~~~v0) = ((s.pack i t g).applyWrite i b ix true .plain v0 none).said i false false false nc := by
    unfold State.addrWrite
    rw [ha]
    exact he
  have hix : ix < 256 := by
    have : (decodeAddr a).index < 256 := Nat.mod_lt _ (by decide)
    rwa [ha] at this
  have hsup : (s.pack i t g).sup = s.sup := by cases i <;> rfl
  have himg : (s.pack i t g).imageOf b ix true .plain v0 = s.imageOf b ix true .plain v0 := by cases i <;> rfl
  have hkept := (s.pack i t g).applyWrite_kept i b ix true .plain v0 none (fun h => guarded_plain hf hix h.1) (by
    unfold State.onlyStores
    rw [hsup]
    by_cases h0 : b = 0
    · exact .inr ⟨.inl fun e => hck ⟨h0, e⟩, (em _).elim (fun h => .inr (.inr (hoff ⟨h0, h⟩))) .inl⟩
    · exact .inl h0)
  rw [himg] at hkept
  refine acts_does (congrArg s.actsAll hw) fun u hu _ => ⟨State.wrote_of ?_, fun hi => ?_, ?_⟩
  · rw [stored_of_frame hu, State.said_stored, stored_of_frame hkept]
    exact State.setReg_stored_congr (s.pack_stored i t g) _ _
  · cases i with
    | keeper => exact absurd rfl hi
    | spi =>
      show u.spi.guard = .idle
      rw [frame_spi hu]
      show ((s.pack .spi t g).applyWrite .spi b ix true .plain v0 none).spi.guard = .idle
      rw [frame_spi hkept]
      exact hh
    | monitor =>
      show u.mon.guard = .idle
      rw [frame_mon hu]
      show ((s.pack .monitor t g).applyWrite .monitor b ix true .plain v0 none).mon.guard = .idle
      rw [frame_mon hkept]
      exact hh
  · rw [frame_mismatch hu, State.said_gdMismatch, frame_mismatch hkept]
    exact (s.pack_gd i t g).2

/-- Another value than the complement of the one held writes nothing (R357). -/
theorem guardComplementWrite_mismatches {v v0 : Word} (hg : (s.iface i).guard = .holding (plainAddr b ix) v0)
    (ha : decodeAddr a = ⟨b, .plain, true, ix⟩) (hv : v ≠ ~~~v0) :
    Does (.guardComplementWrite i a v) s (fun t => t.regs = s.regs ∧ (t.iface i).guard = .idle ∧ t.gdMismatch = satAdd 0xFF s.gdMismatch 1) := by
  have hw : s.addrWrite i a v = (s.began i).mismatch i := by
    unfold State.addrWrite State.busWrite
    rw [ha]
    dsimp only
    rw [if_neg (by rw [hd]; decide), if_neg (by rw [State.began_closedTo]; rcases hc with h | h <;> simp [h]), State.began_iface, hg]
    dsimp only
    rw [if_pos (by simp), if_neg hv]
  have hcalm : ((s.began i).mismatch i).calm = s.calm := by
    refine (State.said_calm _ _ _ _ _ _).trans ((State.modIface_calm _ _ _).trans ?_)
    exact s.began_calm i
  refine acts_calm (congrArg s.actsAll hw) hcalm ⟨?_, ?_, ?_⟩
  · rw [settle_regs, stored_regs_of_calm hcalm]
  · rw [settle_iface]
    unfold State.mismatch
    rw [State.said_iface, State.iface_modIface_same]
  · rw [settle_gdMismatch]
    unfold State.mismatch
    rw [State.said_gdMismatch, State.modIface_gdMismatch]
    show satAdd 0xFF (s.began i).gdMismatch 1 = _
    rw [State.began_gdMismatch]

end

end

/-! ### Transactions that SPI ignores -/

/-- A transaction that SPI ignores (R346, R347): what it counts, and what STATUS will say of it. -/
theorem spiIgnored_leaves {s : State} (e : SpiError) (hd : s.deaf .spi = false) : (s.spiIgnored e).regs = s.regs
    ∧ (s.spiIgnored e).spi.guard = .idle
    ∧ (s.spiIgnored e).gdAbort = (if s.spi.guard = .idle then s.gdAbort else satAdd 0xFFFF s.gdAbort 1)
    ∧ (s.spiIgnored e).crcErr = (if e = .badCrc then satAdd 0xFFFF s.crcErr 1 else s.crcErr)
    ∧ (s.spiIgnored e).frameErr = (if e = .badCrc then s.frameErr else satAdd 0xFFFF s.frameErr 1)
    ∧ (s.spiIgnored e).spi.badCrc = decide (e = .badCrc) ∧ (s.spiIgnored e).spi.badFrame = decide (e ≠ .badCrc) := by
  obtain ⟨hg, ha, hcrc, hfr⟩ := (s.began .spi).guardDrop_leaves .spi
  have hregs : ((s.began .spi).guardDrop .spi).regs = s.regs :=
    (stored_regs (State.guardDrop_stored _ _)).trans (stored_regs (State.began_stored _ _))
  rw [State.began_gdAbort, State.began_iface] at ha
  rw [State.began_crcErr] at hcrc
  rw [State.began_frameErr] at hfr
  change (State.spi _).guard = .idle at hg
  change State.gdAbort _ = if s.spi.guard = .idle then _ else _ at ha
  generalize hu : (s.began .spi).guardDrop .spi = u at hg ha hcrc hfr hregs
  unfold State.spiIgnored
  rw [if_neg (by rw [hd]; decide), hu]
  cases e with
  | badCrc => simp [State.said, State.modIface, hregs, hg, ha, hcrc, hfr]
  | badClockCount | unknownCommand => simp [State.said, State.modIface, hregs, hg, ha, hcrc, hfr]

/-- Settles O22: each step of the procedure by what it leaves of the interface, the counts and the registers. -/
theorem guardProcedure : Obligations.GuardProcedure := by
  refine ⟨fun s i hd => ⟨gdKeyWrite_arms, gdKeyWrite_aborts hd, guardTimeout_drops⟩, fun s i a v b ix hd hc hu hf =>
    ⟨guardedValueWrite_holds hd hc v hu hf, fun v0 hg ha => ⟨?_, guardComplementWrite_mismatches hd hc hg ha⟩⟩, fun s e hd => ?_⟩
  · rintro rfl hck hoff
    exact guardComplementWrite_acts hd hc v0 hf hg ha hck hoff
  · obtain ⟨hr, hrest⟩ := spiIgnored_leaves e hd
    refine ⟨_, rfl, (settle_regs _ _).trans hr, ?_⟩
    rw [settle_spi, settle_gdAbort, settle_crcErr, settle_frameErr]
    exact hrest

end Sys2Proof.Machine
end

section
/-! PROOFS. Faults of the keeper (O16). -/

namespace Sys2Proof.Machine

/-- Served again: the mode by the slot that runs, the cause of the restart kept. -/
theorem State.restartDone_keeper {s : State} (h : s.keeper.mode = .restarting) :
    s.restartDone.keeper.mode = (if s.keeper.slot = 3 then .romWait else .running)
      ∧ s.restartDone.keeper.lastCause = s.keeper.cause := by
  unfold State.restartDone
  simp [h]

/-- Served again, the firmware reports the cause of the restart. -/
theorem State.restartDone_told {s : State} (h : s.keeper.mode = .restarting) (hr : s.ringRoom) :
    s.restartDone.told 0x0002 1 0 (wd s.keeper.cause) := by
  unfold State.restartDone
  rw [if_neg (by simp [h])]
  exact State.raise_told _ _ _ _ _ _ _ _ hr

/-- Settles O16: each fault is the control-plane reset of its cause; the restarted firmware serves and reports. -/
theorem keeperFaults : Obligations.KeeperFaults := by
  unfold Obligations.KeeperFaults
  refine ⟨fun s hc ho => ⟨?watchdog, ?lockstep, ?sram⟩, fun s hc hm => runs_does hc rfl ?served⟩
  case watchdog => exact State.keeperFault_does hc ho rfl
  case lockstep => exact State.keeperFault_does hc ho rfl
  case sram => exact State.keeperFault_does hc ho rfl
  case served =>
    rw [settle_keeper]
    obtain ⟨hmode, hcause⟩ := State.restartDone_keeper hm
    exact ⟨hmode, hcause, fun hr => told_of (settle_ring ..) (State.restartDone_told hm hr)⟩

end Sys2Proof.Machine
end

section
/-! PROOFS. What leaves the channels alone (R380 to R385): the operations on a link, a run or a slice reach a channel only through
a command that waits there, so a part whose channels wait for nothing keeps them. -/

namespace Sys2Proof.Machine

/-! ### Operations that name no channel -/

section
variable (s : State) (p : Fin 16)

@[simp] theorem State.modLink_chans (f : Link → Link) : (s.modLink p f).chans = s.chans := rfl
@[simp] theorem State.modTow_chans (f : Towpath → Towpath) : (s.modTow p f).chans = s.chans := rfl
@[simp] theorem State.modTx_chans (f : TxPath → TxPath) : (s.modTx p f).chans = s.chans := rfl
@[simp] theorem State.modQuiet_chans (f : Quiet → Quiet) : (s.modQuiet p f).chans = s.chans := rfl
@[simp] theorem State.modRcv_chans (f : Receiver → Receiver) : (s.modRcv p f).chans = s.chans := rfl
@[simp] theorem State.modTdr_chans (f : Tdr → Tdr) : (s.modTdr p f).chans = s.chans := rfl
@[simp] theorem State.modTest_chans (f : PortTest → PortTest) : (s.modTest p f).chans = s.chans := rfl
@[simp] theorem State.modCal_chans (f : PortCal → PortCal) : (s.modCal p f).chans = s.chans := rfl
@[simp] theorem State.draw_chans : s.draw.2.chans = s.chans := rfl
@[simp] theorem State.queueCell_chans (n : Nat) (b : List Byte) : (s.queueCell p n b).chans = s.chans := rfl
@[simp] theorem State.ramp_chans (a b : Bool) : (s.ramp p a b).chans = s.chans := rfl
@[simp] theorem State.txStart_chans : (s.txStart p).chans = s.chans := rfl
@[simp] theorem State.txStop_chans : (s.txStop p).chans = s.chans := rfl
@[simp] theorem State.txBurst_chans (n : Nat) : (s.txBurst p n).chans = s.chans := rfl
@[simp] theorem State.setSwing_chans (n : Nat) : (s.setSwing p n).chans = s.chans := rfl
@[simp] theorem State.slotWaits_chans (a b : Bool) : (s.slotWaits p a b).chans = s.chans := rfl
@[simp] theorem State.putCal_chans (e : Nat) (x : CalEntry) : (s.putCal e x).chans = s.chans := rfl
@[simp] theorem State.dropSlices_chans (b : Bool) : (s.dropSlices p b).chans = s.chans := rfl
@[simp] theorem State.goLink_chans (f : Link → Link) : (s.goLink p f).chans = s.chans := side_chans (s.goLink_side p f)
@[simp] theorem State.fall_chans (k : LinkState) (c : Nat) (b : Bool) : (s.fall p k c b).chans = s.chans := side_chans (s.fall_side p k c b)
@[simp] theorem State.linkDown_chans (c : Nat) : (s.linkDown p c).chans = s.chans := side_chans (s.linkDown_side p c)
@[simp] theorem State.holdDown_chans (c : Nat) (b : Bool) : (s.holdDown p c b).chans = s.chans := side_chans (s.holdDown_side p c b)
@[simp] theorem State.noteCopy_chans (k : Nat) : (s.noteCopy k).chans = s.chans := by
  unfold State.noteCopy
  split <;> rfl

/-! ### A link that starts or shifts -/

@[simp] theorem State.stdSettings_chans (w : Word × Word) : (s.stdSettings p w).chans = s.chans := by simp [State.stdSettings]
@[simp] theorem State.enterStd_chans (m : LineMode) (b : Bool) : (s.enterStd p m b).chans = s.chans := by simp [State.enterStd]
@[simp] theorem State.enterAn_chans : (s.enterAn p).chans = s.chans := by simp [State.enterAn]
@[simp] theorem State.sendBeacon_chans (b : Bool) : (s.sendBeacon p b).chans = s.chans := by simp [State.sendBeacon]
@[simp] theorem State.enterDiscover_chans (b : Bool) : (s.enterDiscover p b).chans = s.chans := by simp [State.enterDiscover]
@[simp] theorem State.firstState_chans : (s.firstState p).chans = s.chans := by
  unfold State.firstState
  dsimp only
  (repeat' split) <;> simp
@[simp] theorem State.startPort_chans : (s.startPort p).chans = s.chans := by
  unfold State.startPort
  (repeat' split) <;> simp
@[simp] theorem State.restartPort_chans : (s.restartPort p).chans = s.chans := by simp [State.restartPort]
@[simp] theorem State.disable_chans : (s.disable p).chans = s.chans := by
  unfold State.disable
  split <;> simp
@[simp] theorem State.drawSession_chans : (s.drawSession p).chans = s.chans := by
  unfold State.drawSession
  split <;> simp
@[simp] theorem State.shiftBegin_chans (m : LineMode) (k sf : Nat) : (s.shiftBegin p m k sf).chans = s.chans := by
  unfold State.shiftBegin
  dsimp only
  split
  · rfl
  · rw [State.goLink_chans]
    exact ite_keep State.chans rfl rfl
@[simp] theorem State.leadShift_chans (m : LineMode) (k : Nat) : (s.leadShift p m k).chans = s.chans := by simp [State.leadShift]
@[simp] theorem State.askShift_chans (m : LineMode) (k : Nat) : (s.askShift p m k).chans = s.chans := rfl
@[simp] theorem State.earlyExit_chans : (s.earlyExit p).chans = s.chans := by
  unfold State.earlyExit
  split <;> rfl
@[simp] theorem State.skipWindow_chans (c : Nat) : (s.skipWindow p c).chans = s.chans := by simp [State.skipWindow]
@[simp] theorem State.trigger_chans (m : LineMode) (k : Nat) : (s.trigger p m k).chans = s.chans := by
  unfold State.trigger
  dsimp only
  (repeat' split) <;> simp
@[simp] theorem State.excludeMode_chans (m : LineMode) : (s.excludeMode p m).chans = s.chans := by
  unfold State.excludeMode
  split <;> simp
@[simp] theorem State.reqChanged_chans : (s.reqChanged p).chans = s.chans := by
  unfold State.reqChanged
  dsimp only
  (repeat' split) <;> simp
@[simp] theorem State.polChanged_chans (w : Word) : (s.polChanged p w).chans = s.chans := by
  unfold State.polChanged
  dsimp only
  (repeat' split) <;> simp
@[simp] theorem State.writesAct_chans (v w : Word) : (s.writesAct p v w).chans = s.chans := by
  unfold State.writesAct
  dsimp only
  (repeat' split) <;> simp
@[simp] theorem State.placeSlice_chans (t w : Bool) (u : Nat) : (s.placeSlice p t w u).chans = s.chans := by
  unfold State.placeSlice
  dsimp only
  (repeat' split) <;> simp
@[simp] theorem State.startItems_chans (b : Bool) : (s.startItems p b).chans = s.chans := by
  unfold State.startItems
  dsimp only
  (repeat' split) <;> simp
@[simp] theorem State.runPort_chans : (s.runPort p).chans = s.chans := by
  unfold State.runPort
  (repeat' split) <;> simp
@[simp] theorem State.tdrOver_chans : (s.tdrOver p).chans = s.chans := by
  unfold State.tdrOver
  dsimp only
  (repeat' split) <;> simp

end

/-! ### Operations that answer a command that waits -/

/-- A part whose channels wait for nothing keeps its channels. -/
structure keepsChans (s t : State) : Prop where
  chans : (∀ c, (s.chan c).work = none) → t.chans = s.chans

section
variable {s t u : State}

theorem keepsChans_of (h : t.chans = s.chans) : keepsChans s t := ⟨fun _ => h⟩
theorem keepsChans_refl (s : State) : keepsChans s s := keepsChans_of rfl
theorem keepsChans_trans (h : keepsChans s t) (k : keepsChans t u) : keepsChans s u :=
  ⟨fun hs => (k.chans fun c => by unfold State.chan; rw [h.chans hs]; exact hs c).trans (h.chans hs)⟩
theorem keepsChans_same (h : keepsChans s t) (k : u.chans = t.chans) : keepsChans s u := keepsChans_trans h (keepsChans_of k)
theorem keepsChans_after (k : keepsChans t u) (h : t.chans = s.chans) : keepsChans s u := keepsChans_trans (keepsChans_of h) k
theorem keepsChans_ite {c : Prop} [Decidable c] (h : keepsChans s t) (k : keepsChans s u) : keepsChans s (if c then t else u) := by split <;> assumption
theorem keepsChans_foldl {α : Type} (l : List α) (f : State → α → State) (h : ∀ t a, keepsChans t (f t a)) (s : State) : keepsChans s (l.foldl f s) := by
  induction l generalizing s with
  | nil => exact keepsChans_refl s
  | cons a l ih => exact keepsChans_trans (h s a) (ih (f s a))

end

section
variable (s : State) (p : Fin 16)

theorem State.answerWait_keepsChans (f : LongCmd → Bool) (st : Nat) (ws : List Word) (d : Nat) : keepsChans s (s.answerWait f st ws d) :=
  ⟨fun h => by rw [State.answerWait, State.waiting_none h]⟩
theorem State.calAnswer_keepsChans : keepsChans s s.calAnswer :=
  keepsChans_foldl allChans _ (fun t c => ⟨fun h => by rw [h c]⟩) s
theorem State.calTell_keepsChans (q : Option (Fin 16)) (r : Option (Fin 4)) (b : Bool) : keepsChans s (s.calTell q r b) := by
  refine keepsChans_trans (keepsChans_foldl allChans _ (fun t c => ⟨fun h => ?_⟩) s) (State.calAnswer_keepsChans _)
  refine Vector.ext fun i hi => ?_
  show ((t.modChan c _).chan ⟨i, hi⟩) = t.chan ⟨i, hi⟩
  by_cases e : (⟨i, hi⟩ : Fin 16) = c
  · subst e
    rw [State.chan_modChan_same, h, Option.map_none, ← h]
  · exact t.chan_modChan_ne e _
theorem State.reachDone_keepsChans (r : Fin 4) : keepsChans s (s.reachDone r) := by
  unfold State.reachDone
  refine keepsChans_ite (keepsChans_after (State.calTell_keepsChans _ _ _ _) ?_) (keepsChans_refl s)
  simp
theorem State.abandonRun_keepsChans : keepsChans s (s.abandonRun p) := by
  unfold State.abandonRun
  refine keepsChans_ite (keepsChans_trans (keepsChans_after (State.calTell_keepsChans _ _ _ _) ?_) (State.reachDone_keepsChans _ _)) (keepsChans_refl s)
  simp
theorem State.tdrAbandon_keepsChans (n : Nat) : keepsChans s (s.tdrAbandon p n) := by
  unfold State.tdrAbandon
  refine keepsChans_ite (keepsChans_after (State.answerWait_keepsChans _ _ _ _ _) ?_) (keepsChans_refl s)
  simp
theorem State.loopOff_keepsChans : keepsChans s (s.loopOff p) := by
  unfold State.loopOff
  refine keepsChans_ite (keepsChans_after (State.answerWait_keepsChans _ _ _ _ _) ?_) (keepsChans_refl s)
  simp
theorem State.patternSync_keepsChans : keepsChans s (s.patternSync p) := by
  unfold State.patternSync
  have hoff (v : Nat) : keepsChans s ((s.modTx p (fun t => { t with pattern := v })).loopOff p) :=
    keepsChans_after (State.loopOff_keepsChans _ p) (s.modTx_chans p _)
  refine keepsChans_ite (keepsChans_refl s) (keepsChans_ite (keepsChans_of ?_) (keepsChans_same (hoff (if s.enabled p then 0 else s.patternAct p)) ?_))
  · simp
  · simp
theorem State.enablePort_keepsChans : keepsChans s (s.enablePort p) := by
  have hrun (t : State) : (t.enableRun p).chans = t.chans := ite_keep State.chans rfl (t.runPort_chans p)
  have hstop : keepsChans s (((s.drawSession p).tdrAbandon p 4).loopOff p) :=
    keepsChans_trans (keepsChans_after (State.tdrAbandon_keepsChans _ p 4) (s.drawSession_chans p)) (State.loopOff_keepsChans _ p)
  exact keepsChans_same (keepsChans_trans hstop (State.patternSync_keepsChans _ p)) ((State.startPort_chans _ p).trans (hrun _))
theorem State.disablePort_keepsChans : keepsChans s (s.disablePort p) := by
  unfold State.disablePort
  refine keepsChans_after (State.patternSync_keepsChans _ p) ?_
  simp
theorem State.modeWritten_keepsChans (w : Word) : keepsChans s (s.modeWritten p w) := by
  unfold State.modeWritten
  split
  · exact s.enablePort_keepsChans p
  · exact s.disablePort_keepsChans p
  · exact keepsChans_of (s.writesAct_chans p _ _)
  · exact s.patternSync_keepsChans p
theorem State.policyWritten_keepsChans (w : Word) : keepsChans s (s.policyWritten p w) :=
  keepsChans_ite (keepsChans_of (s.writesAct_chans p _ _)) (keepsChans_refl s)

/-! ### What follows a change of a link -/

theorem State.forceSync_keepsChans : keepsChans s (s.forceSync p) := by
  unfold State.forceSync
  split
  · exact keepsChans_refl s
  · split
    · exact s.tdrAbandon_keepsChans p 5
    · exact keepsChans_refl s
    · exact keepsChans_of (s.holdDown_chans p 11 false)
theorem State.calFollow_keepsChans (old : State) : keepsChans s (State.calFollow old s p) := by
  unfold State.calFollow
  refine keepsChans_ite (keepsChans_after (State.abandonRun_keepsChans _ p) (s.modCal_chans p _)) (keepsChans_ite (keepsChans_refl s)
    (keepsChans_ite (keepsChans_of (s.dropSlices_chans p false)) (keepsChans_ite ?_ (keepsChans_refl s))))
  exact keepsChans_of (s.placeSlice_chans p _ _ _)
theorem State.followAll_keepsChans (old : State) : keepsChans s (State.followAll old s) :=
  keepsChans_foldl allPorts _ (fun t p => keepsChans_trans (keepsChans_ite (keepsChans_refl t) (t.forceSync_keepsChans p)) (State.calFollow_keepsChans ..)) s

end

end Sys2Proof.Machine
end

section
/-! PROOFS. HELLO and the port commands (O34): what the keeper takes, writes and answers (R362, R363, R384, R386). -/

namespace Sys2Proof.Machine

/-! ### Blocks that the keeper takes -/

theorem takeAll_ranges : ∀ b ∈ takeAll, (2 ≤ b ∧ b ≤ 6) ∨ (8 ≤ b ∧ b ≤ 0x0B) ∨ (0x10 ≤ b ∧ b ≤ 0x1F) ∨ (0x20 ≤ b ∧ b ≤ 0x27) := by decide

theorem portBlock_takeAll (p : Fin 16) : portBlock p.val ∈ takeAll := by revert p; decide
theorem reachBlock_takeAll (r : Fin 4) : reachBlock r.val ∈ takeAll := by revert r; decide

/-- A block marked is owned, and none that was owned is lost. -/
theorem Keeper.mark_owns (k : Keeper) {b : Nat} (hb : b ∈ takeAll) (d : Nat) : (k.mark b).owns d = true ↔ k.owns d = true ∨ d = b := by
  have hr := takeAll_ranges b hb
  unfold Keeper.mark
  split
  · have hbit (h : d < 0x28) : (setBit k.ownerHl (b - 0x20) true).getLsbD (d - 0x20) = true ↔ k.ownerHl.getLsbD (d - 0x20) = true ∨ d - 0x20 = b - 0x20 := by
      rw [setBit_bit _ _ _ _ (by omega)]
      split <;> simp_all
    unfold Keeper.owns
    dsimp only
    split
    · simp; omega
    split
    · simp; omega
    split
    · simp; omega
    split
    · rw [hbit (by omega)]; exact or_congr_right (by omega)
    · simp; omega
  · have hbit (h : d < 0x20) : (setBit k.owner b true).getLsbD d = true ↔ k.owner.getLsbD d = true ∨ d = b := by
      rw [setBit_bit _ _ _ _ (by omega)]
      split <;> simp_all
    unfold Keeper.owns
    dsimp only
    split
    · exact hbit (by omega)
    split
    · exact hbit (by omega)
    split
    · exact hbit (by omega)
    split
    · simp; omega
    · simp; omega

theorem State.ownOne_owns (s : State) {b : Nat} (hb : b ∈ takeAll) (d : Nat) : (s.ownOne b).keeper.owns d = true ↔ s.keeper.owns d = true ∨ d = b := by
  unfold State.ownOne
  split
  · next h => exact ⟨.inl, fun e => e.elim id fun e => e ▸ h⟩
  · exact s.keeper.mark_owns hb d

theorem State.own_owns (s : State) {l : List Nat} (hl : ∀ b ∈ l, b ∈ takeAll) (d : Nat) : (s.own l).keeper.owns d = true ↔ s.keeper.owns d = true ∨ d ∈ l := by
  unfold State.own
  induction l generalizing s with
  | nil => simp
  | cons b l ih =>
    rw [List.foldl_cons, ih _ fun x hx => hl x (List.mem_cons_of_mem b hx), s.ownOne_owns (hl b List.mem_cons_self), List.mem_cons, or_assoc]

theorem State.own_chans (s : State) (l : List Nat) : (s.own l).chans = s.chans := by
  obtain ⟨k, h⟩ := s.own_eq l
  rw [h]
theorem State.own_reg (s : State) (l : List Nat) (k : Nat) : (s.own l).reg k = s.reg k := by
  obtain ⟨x, h⟩ := s.own_eq l
  rw [h]
  rfl

theorem State.ownPort_owns (s : State) (p : Fin 16) (d : Nat) :
    (s.ownPort p).keeper.owns d = true ↔ s.keeper.owns d = true ∨ d = portBlock p.val ∨ d = reachBlock (reachOf p).val := by
  unfold State.ownPort
  rw [s.own_owns (by simp [portBlock_takeAll, reachBlock_takeAll])]
  simp

/-! ### HELLO (R384, R429) -/

section
variable (s : State)

theorem State.reportReset_sup : s.reportReset.sup.cause = none ∧ s.reportReset.sup.softLock = s.sup.softLock := by
  unfold State.reportReset
  cases h : s.sup.cause with
  | none => exact ⟨h, rfl⟩
  | some k =>
    dsimp only
    split
    · exact ⟨by rw [State.raise_sup]; simp, by rw [State.raise_sup]; simp⟩
    · exact ⟨by rw [State.raise_sup], by rw [State.raise_sup]⟩

theorem State.reportReset_keeper : s.reportReset.keeper = s.keeper := by
  unfold State.reportReset
  split
  · rfl
  · dsimp only
    split <;> simp

theorem State.reportReset_chans : s.reportReset.chans = s.chans := by
  unfold State.reportReset
  split
  · rfl
  · dsimp only
    split <;> simp

/-- With a reset to report and no logic BIST, the reset's record is the last. -/
theorem State.reportReset_told {k : Nat} {v : BitVec 8} (hc : s.sup.cause = some (k, v)) (hl : s.sup.lbistDone = none) (hr : s.ringRoom) :
    s.reportReset.told 0x0060 0 0 (wd k) := by
  have e : s.reportReset = ({ s with sup := { s.sup with cause := none } } : State).raise 0x0060 0 0 (wd k) (v.setWidth 32) := by
    unfold State.reportReset
    rw [hc]
    dsimp only
    rw [State.raise_sup]
    dsimp only
    rw [hl]
  rw [e]
  exact State.raise_told _ _ _ _ _ _ _ _ hr

end

/-! ### HELLO's answer -/

/-- The result words of HELLO: the ID registers, VERSION, and what the keeper runs. -/
def State.helloWords (s : State) : List Word := (List.range 8).map s.chipStatus ++ [s.keeper.version, put 0 8 3 ||| put 8 8 Config.romVersion.toNat ||| flag 16 false]

/-- The keeper after HELLO: with TAKE_ALL it has taken every configuration block. -/
def State.helloOwn (s : State) (all : Bool) : State := if all then s.own takeAll else s

/-- HELLO served, its answer given: what is left is the report of the reset. -/
def State.helloed (s : State) (c : Fin 16) (all : Bool) : State :=
  let t := (s.helloOwn all).answer c stOk s.helloWords
  { t with sup := { t.sup with softLock := false } }

theorem State.serveHello_eq {s : State} (c : Fin 16) (hm : s.keeper.mode = .running) :
    s.serveHello c = (s.helloed c (bit (s.arg c 0) 0)).reportReset := by
  unfold State.serveHello State.helloed State.helloOwn State.helloWords
  simp [hm]

section
variable (s : State) (c : Fin 16) (r : Request) (all : Bool)

theorem State.helloOwn_rung : ∃ v y k, (s.rung c 0x01 r).helloOwn all = { s with chans := v, tally := y, keeper := k } := by
  unfold State.helloOwn
  split
  · exact s.rung_own c 0x01 r takeAll
  · exact s.rung_own c 0x01 r []

theorem State.helloed_sup : ((s.rung c 0x01 r).helloed c all).sup = { s.sup with softLock := false } := by
  obtain ⟨v, y, k, h⟩ := s.helloOwn_rung c r all
  show { (((s.rung c 0x01 r).helloOwn all).answer c stOk (s.rung c 0x01 r).helloWords).sup with softLock := false } = _
  rw [State.answer_sup, h]

theorem State.helloed_regs : ((s.rung c 0x01 r).helloed c all).regs = s.regs := by
  obtain ⟨v, y, k, h⟩ := s.helloOwn_rung c r all
  show (((s.rung c 0x01 r).helloOwn all).answer c stOk (s.rung c 0x01 r).helloWords).regs = _
  rw [State.answer_regs, h]

theorem State.helloed_ring : ((s.rung c 0x01 r).helloed c all).ring = s.ring := by
  obtain ⟨v, y, k, h⟩ := s.helloOwn_rung c r all
  show (((s.rung c 0x01 r).helloOwn all).answer c stOk (s.rung c 0x01 r).helloWords).ring = _
  rw [State.answer_ring, h]

theorem State.helloed_keeper : ((s.rung c 0x01 r).helloed c all).keeper = ((s.rung c 0x01 r).helloOwn all).keeper :=
  State.answer_keeper ..

theorem State.helloed_chan : ((s.rung c 0x01 r).helloed c all).chan c = ((s.rung c 0x01 r).chan c).answered stOk 0xFFFF (s.rung c 0x01 r).helloWords := by
  have ho : ((s.rung c 0x01 r).helloOwn all).chan c = (s.rung c 0x01 r).chan c := by
    unfold State.helloOwn
    split
    · exact congrArg (fun v => v.get c) (State.own_chans ..)
    · rfl
  show (((s.rung c 0x01 r).helloOwn all).answer c stOk (s.rung c 0x01 r).helloWords).chan c = _
  rw [State.answer_chan_same, ho]

end

theorem State.helloOwn_owns {s : State} {all : Bool} (h : all = true) : ∀ b ∈ takeAll, (s.helloOwn all).keeper.owns b = true := by
  intro b hb
  rw [State.helloOwn, if_pos h, s.own_owns fun _ h => h]
  exact .inr hb

/-- HELLO answers, ends the closing of a soft reset, reports the reset and takes what it is told to take. -/
theorem hello_does {s : State} {c : Fin 16} {r : Request} (ht : s.takes c r 0) : Does (.hello c r) s (fun t =>
      t.gives c 0x01 r ((List.range 8).map (s.rung c 0x01 r).chipStatus ++ [s.keeper.version])
      ∧ t.sup.softLock = false ∧ t.sup.cause = none ∧ t.regs = s.regs
      ∧ (bit (argWord r 0) 0 = true → ∀ b ∈ takeAll, t.keeper.owns b = true)
      ∧ (bit (argWord r 0) 0 = false → t.keeper.owner = s.keeper.owner ∧ t.keeper.ownerHl = s.keeper.ownerHl)
      ∧ (∀ k rails, s.sup.cause = some (k, rails) → s.sup.lbistDone = none → s.ringRoom → t.told 0x0060 0 0 (wd k))) := by
  have hm : (s.rung c 0x01 r).keeper.mode = .running := by rw [State.rung_keeper, ht.running]
  have hv : (s.rung c 0x01 r).serveCode c 0x01 none = ((s.rung c 0x01 r).helloed c (bit (argWord r 0) 0)).reportReset := by
    rw [← ht.arg 0x01 0]
    exact State.serveHello_eq c hm
  refine ht.does rfl (by decide) rfl ?_
  rw [hv]
  generalize hw : (s.rung c 0x01 r).helloed c (bit (argWord r 0) 0) = w
  have hsup : w.sup = { s.sup with softLock := false } := hw ▸ s.helloed_sup c r _
  obtain ⟨hcause, hlock⟩ := w.reportReset_sup
  have hkeeper : (settle s w.reportReset).keeper = ((s.rung c 0x01 r).helloOwn (bit (argWord r 0) 0)).keeper := by
    rw [settle_keeper, w.reportReset_keeper, ← hw, State.helloed_keeper]
  have hchan : (settle s w.reportReset).chan c = ((s.rung c 0x01 r).chan c).answered stOk 0xFFFF (s.rung c 0x01 r).helloWords := by
    have hc : w.reportReset.chan c = ((s.rung c 0x01 r).chan c).answered stOk 0xFFFF (s.rung c 0x01 r).helloWords :=
      (congrArg (fun v => v.get c) w.reportReset_chans).trans (hw ▸ s.helloed_chan c r _)
    rw [settle_chan _ _ _ (by rw [hc]; exact fun _ _ _ => nofun), hc]
  obtain ⟨hans, hres⟩ := State.gives_of ht.idle (by decide) (by decide) (by decide) (by simp [State.helloWords]) hchan
  refine ⟨⟨hans, fun k hk => ?words⟩, ?lock, ?cause, ?regs, ?taken, ?kept, ?told⟩
  case words =>
    have hk9 : k < 9 := by simpa using hk
    rw [hres k (by simp [State.helloWords]; omega)]
    have hver : (s.rung c 0x01 r).helloWords = ((List.range 8).map (s.rung c 0x01 r).chipStatus ++ [s.keeper.version]) ++
        [put 0 8 3 ||| put 8 8 Config.romVersion.toNat ||| flag 16 false] := by
      simp [State.helloWords, State.rung_keeper]
    rw [hver, List.getD_append _ _ _ _ (by simpa using hk9)]
  case lock => rw [settle_sup, hlock, hsup]
  case cause => rw [settle_sup, hcause]
  case regs => rw [settle_regs, frame_regs (State.reportReset_frame w), ← hw, State.helloed_regs]
  case taken =>
    rw [hkeeper]
    exact fun h => State.helloOwn_owns h
  case kept =>
    intro h
    rw [hkeeper, h]
    exact ⟨congrArg Keeper.owner (s.rung_keeper c 0x01 r), congrArg Keeper.ownerHl (s.rung_keeper c 0x01 r)⟩
  case told =>
    intro k rails hk hl hr
    have hring : w.ringRoom := by
      unfold State.ringRoom
      rw [← hw, State.helloed_ring]
      exact hr
    exact told_of (settle_ring ..) (w.reportReset_told (by rw [hsup]; exact hk) (by rw [hsup]; exact hl) hring)

end Sys2Proof.Machine
end

section
/-! PROOFS. The port commands (O34): the registers that the keeper writes, and how a command that may change every port's link
closes (R362, R384, R386). -/

namespace Sys2Proof.Machine

/-! ### A command that may change every port's link -/

/-- While a command is served no channel waits for anything. -/
theorem State.takes.resting {s : State} {c : Fin 16} {r : Request} {n : Nat} (ht : s.takes c r n) (code : Nat) (d : Fin 16) :
    ((s.rung c code r).chan d).work = none := by
  obtain ⟨⟨-, -, -, hb, -, hw⟩, -⟩ := ht
  have hput : ((s.putRequest c code r).chan d).work = none := by
    unfold State.putRequest
    rw [if_neg (by simp [hb])]
    by_cases e : d = c
    · subst e; simp [hw]
    · rw [State.chan_modChan_ne _ e, hw]
  by_cases e : d = c
  · subst e; simp [State.rung]
  · simp [State.rung, State.chan_modChan_ne _ e, hput]

/-- What closes a command leaves the channels of a part at rest. -/
theorem followAll_resting {old u : State} (hu : ∀ d, (u.chan d).work = none) (c : Fin 16) : (settle old (State.followAll old u)).chan c = u.chan c := by
  have hc : (State.followAll old u).chan c = u.chan c := congrArg (fun v => v.get c) ((State.followAll_keepsChans _ old).chans hu)
  rw [settle_chan _ _ _ (by rw [hc, hu]; exact fun _ _ _ => nofun), hc]

/-- An answered channel of a part at rest is as answered once the command has closed. -/
theorem followAll_answered {old u : State} (hu : ∀ d, (u.chan d).work = none) (c : Fin 16) (st d : Nat) (ws : List Word) :
    (settle old (State.followAll old (u.answer c st ws d))).chan c = (u.chan c).answered st d ws := by
  rw [followAll_resting fun e => ?_, State.answer_chan_same]
  by_cases h : e = c
  · subst h
    rw [State.answer_chan_same]
    rfl
  · rw [State.answer_chan_ne _ h, hu]

/-- A command that may change every port's link and ends with its answer: what it gives, and the keeper and the registers it leaves. -/
theorem State.takes.answersAll {s u : State} {c : Fin 16} {r : Request} {n code : Nat} {i : Instr} (ht : s.takes c r n)
    (he : exec i s = s.runsAll (s.issueCmd c code r)) (hc : code < 256) (hn : ((s.rung c code r).chan c).need code = some n) {ws : List Word}
    (hv : (s.rung c code r).serveCode c code none = u.answer c stOk ws) (hu : keepsChans (s.rung c code r) u) (hw : ws.length ≤ 60) :
    Does i s (fun t => t.gives c code r ws ∧ t.keeper = u.keeper ∧ ∀ k, t.reg k = u.reg k) := by
  have hrest := ht.resting code
  have hchans := hu.chans hrest
  have hus : ∀ d, (u.chan d).work = none := fun d => (congrArg (fun v => (v.get d).work) hchans).trans (hrest d)
  have huc : u.chan c = (s.rung c code r).chan c := congrArg (fun v => v.get c) hchans
  have hserve : s.issueCmd c code r = u.answer c stOk ws := by
    obtain ⟨hs, hj, hr, hl⟩ := ht
    rw [State.issueCmd_serves hs hj code r hr none hc n hn hl, hv]
  have hclk : s.clocked = true := by
    obtain ⟨⟨h, -⟩, -⟩ := ht
    exact State.clocked_released h
  have hstored : (settle s (State.followAll s (u.answer c stOk ws))).stored = u.stored := stored_of_frame (by simp)
  refine ⟨_, by rw [he, hserve, State.runsAll_eq hclk], ?_, ?_, stored_reg hstored⟩
  · exact State.gives_of (st := stOk) (d := 0xFFFF) ht.idle hc (by decide) (by decide) hw ((followAll_answered hus c stOk 0xFFFF ws).trans (by rw [huc]))
  · rw [settle_keeper, far_keeper (State.followAll_far ..), State.answer_keeper]

/-! ### A port's register that the keeper writes (R384) -/

/-- The registers that port commands write: LN_POLICY, LN_MODE and the one at 0x05. -/
def commandReg (ix : Nat) : Prop := ix = 0x00 ∨ ix = 0x01 ∨ ix = 0x05

section
variable (s : State) (p : Fin 16) {ix : Nat} (hix : commandReg ix)
include hix

theorem State.regEffect_commandReg (old acted : Word) : s.regEffect (portBlock p.val) ix old acted none = s.portEffect p ix old 0 := by
  unfold State.regEffect
  rw [blockKind_portBlock, portNo_portBlock]
  obtain rfl | rfl | rfl := hix <;> rfl

/-- Beside its register such a write reaches a channel only through what waits there. -/
theorem State.portEffect_keepsChans (old : Word) : keepsChans s (s.portEffect p ix old 0) := by
  obtain rfl | rfl | rfl := hix
  · exact s.policyWritten_keepsChans p old
  · exact s.modeWritten_keepsChans p old
  · exact keepsChans_refl s

theorem State.keeperWrite_keepsChans (way : Way) (v : Word) : keepsChans s (s.keeperWrite (portBlock p.val) ix way v) := by
  have hne : ¬ (portBlock p.val / 16 = 4 ∧ ix < 0x40) := by unfold portBlock; omega
  refine keepsChans_same (t := s.storeReg (portBlock p.val) ix false way v none) ?_ (State.noteCopy_chans ..)
  unfold State.storeReg
  dsimp only
  rw [if_neg hne, State.regEffect_commandReg _ p hix]
  exact keepsChans_after (State.portEffect_keepsChans _ p hix _) (State.setReg_chans ..)

theorem State.keeperWrite_owns (way : Way) (v : Word) (b : Nat) : (s.keeperWrite (portBlock p.val) ix way v).keeper.owns b = s.keeper.owns b := by
  have hne : ¬ (portBlock p.val / 16 = 4 ∧ ix < 0x40) := by unfold portBlock; omega
  have hstore : (s.storeReg (portBlock p.val) ix false way v none).keeper = s.keeper := by
    unfold State.storeReg
    dsimp only
    rw [if_neg hne, State.regEffect_commandReg _ p hix, State.portEffect_keeper]
    rfl
  have hcopy (t : State) (k : Nat) : (t.noteCopy k).keeper.owns b = t.keeper.owns b := by
    unfold State.noteCopy
    split <;> rfl
  exact (hcopy _ _).trans (by rw [hstore])

end

theorem State.keeperWrite_reg (s : State) (p : Fin 16) (ix : Nat) (way : Way) (v : Word) (k : Nat) : (s.keeperWrite (portBlock p.val) ix way v).reg k =
    if k = regKey (portBlock p.val) ix then s.imageOf (portBlock p.val) ix false way v else s.reg k := by
  have hp := portBlock_range p
  have hstored : (s.keeperWrite (portBlock p.val) ix way v).stored
      = (s.setReg (regKey (portBlock p.val) ix) (s.imageOf (portBlock p.val) ix false way v)).stored :=
    (State.noteCopy_stored ..).trans (s.storeReg_stored _ ix false way v none (by unfold portBlock; omega) (.inl (by omega)))
  rw [stored_reg hstored, State.setReg_reg]

/-- The image of a port's register is that of the register alone. -/
theorem State.imageOf_port {s t : State} (p : Fin 16) (ix : Nat) (h : t.reg (regKey (portBlock p.val) ix) = s.reg (regKey (portBlock p.val) ix))
    (way : Way) (v : Word) : t.imageOf (portBlock p.val) ix false way v = s.imageOf (portBlock p.val) ix false way v := by
  unfold State.imageOf State.takesWrite State.hidesStored
  rw [blockKind_portBlock]
  dsimp only
  rw [h]
  rfl

/-- The keeper's writes on a state: blocks owned before stay owned, and channels at rest stay. -/
structure State.keeperActs (s t : State) : Prop where
  owns : ∀ b, s.keeper.owns b = true → t.keeper.owns b = true
  chans : keepsChans s t

theorem keeperActs_trans {s t u : State} (h : s.keeperActs t) (k : t.keeperActs u) : s.keeperActs u :=
  ⟨fun b hb => k.owns b (h.owns b hb), keepsChans_trans h.chans k.chans⟩

theorem State.ownPort_acts (s : State) (p : Fin 16) : s.keeperActs (s.ownPort p) :=
  ⟨fun b hb => (s.ownPort_owns p b).2 (.inl hb), keepsChans_of (s.own_chans _)⟩

theorem State.keeperWrite_acts (s : State) (p : Fin 16) {ix : Nat} (hix : commandReg ix) (way : Way) (v : Word) :
    s.keeperActs (s.keeperWrite (portBlock p.val) ix way v) :=
  ⟨fun b hb => (s.keeperWrite_owns p hix way v b).trans hb, s.keeperWrite_keepsChans p hix way v⟩

theorem State.ownPort_reg (s : State) (p : Fin 16) (k : Nat) : (s.ownPort p).reg k = s.reg k := s.own_reg _ k

theorem State.rung_reg (s : State) (c : Fin 16) (code : Nat) (r : Request) (k : Nat) : (s.rung c code r).reg k = s.reg k := by
  obtain ⟨v, y, h⟩ := s.rung_eq c code r
  rw [h]
  rfl

/-! ### PORT_SET_POLICY and PORT_FORCE_MODE (R386) -/

/-- A port taken and one of its registers written. -/
def State.takenWrite (s : State) (p : Fin 16) (ix : Nat) (way : Way) (v : Word) : State := (s.ownPort p).keeperWrite (portBlock p.val) ix way v

section
variable (s : State) (p : Fin 16) {ix : Nat} (way : Way) (v : Word)

theorem State.takenWrite_acts (hix : commandReg ix) : s.keeperActs (s.takenWrite p ix way v) :=
  keeperActs_trans (s.ownPort_acts p) (State.keeperWrite_acts _ p hix way v)

theorem State.takenWrite_owns (hix : commandReg ix) :
    (s.takenWrite p ix way v).keeper.owns (portBlock p.val) = true ∧ (s.takenWrite p ix way v).keeper.owns (reachBlock (reachOf p).val) = true := by
  unfold State.takenWrite
  rw [State.keeperWrite_owns _ p hix, State.keeperWrite_owns _ p hix]
  exact ⟨(s.ownPort_owns p _).2 (.inr (.inl rfl)), (s.ownPort_owns p _).2 (.inr (.inr rfl))⟩

theorem State.takenWrite_reg (k : Nat) : (s.takenWrite p ix way v).reg k =
    if k = regKey (portBlock p.val) ix then s.imageOf (portBlock p.val) ix false way v else s.reg k := by
  unfold State.takenWrite
  rw [State.keeperWrite_reg, State.ownPort_reg, State.imageOf_port (s := s) p ix (s.ownPort_reg p _)]

end

/-- The state in which PORT_SET_POLICY is answered. -/
def State.policySet (s : State) (p : Fin 16) (two : Bool) (a b : Word) : State :=
  if two then (s.takenWrite p 0x00 .plain a).keeperWrite (portBlock p.val) 0x05 .plain b else s.takenWrite p 0x00 .plain a

theorem State.policySet_acts (s : State) (p : Fin 16) (two : Bool) (a b : Word) :
    (s.takenWrite p 0x00 .plain a).keeperActs (s.policySet p two a b) := by
  unfold State.policySet
  split
  · exact State.keeperWrite_acts _ p (.inr (.inr rfl)) _ _
  · exact ⟨fun _ => id, keepsChans_refl _⟩

theorem State.policySet_reg (s : State) (p : Fin 16) (two : Bool) (a b : Word) (k : Nat) : (s.policySet p two a b).reg k =
    if k = regKey (portBlock p.val) 0x00 then s.imageOf (portBlock p.val) 0x00 false .plain a
    else if k = regKey (portBlock p.val) 0x05 ∧ two = true then s.imageOf (portBlock p.val) 0x05 false .plain b
    else s.reg k := by
  have hne : regKey (portBlock p.val) 0x05 ≠ regKey (portBlock p.val) 0x00 := by unfold regKey; omega
  have hold : (s.takenWrite p 0x00 .plain a).reg (regKey (portBlock p.val) 0x05) = s.reg (regKey (portBlock p.val) 0x05) := by
    rw [State.takenWrite_reg, if_neg hne]
  unfold State.policySet
  cases two with
  | false => simp [State.takenWrite_reg]
  | true =>
    rw [if_pos rfl, State.keeperWrite_reg, State.imageOf_port p 0x05 hold, State.takenWrite_reg]
    by_cases h : k = regKey (portBlock p.val) 0x05
    · subst h; simp [hne]
    · simp [h]

section
variable {s : State} {c : Fin 16} {r : Request} {p : Fin 16} (hp : fld (argWord r 0) 0 4 = p.val)
include hp

theorem State.takes.argPort {n : Nat} (ht : s.takes c r n) (code : Nat) : (s.rung c code r).argPort c = p := by
  unfold State.argPort
  rw [ht.arg, hp, portNo_val]

theorem portSetPolicy_does (ht : s.takes c r (if bit (argWord r 0) 8 then 3 else 2)) : Does (.portSetPolicy c r) s (fun t =>
    t.answered c 0x10 r 0 ∧ t.keeper.owns (portBlock p.val) = true ∧ t.keeper.owns (reachBlock (reachOf p).val) = true
    ∧ ∀ k, t.reg k = if k = regKey (portBlock p.val) 0x00 then s.imageOf (portBlock p.val) 0x00 false .plain (argWord r 1)
        else if k = regKey (portBlock p.val) 0x05 ∧ bit (argWord r 0) 8 = true then s.imageOf (portBlock p.val) 0x05 false .plain (argWord r 2)
        else s.reg k) := by
  let u := (s.rung c 0x10 r).policySet p (bit (argWord r 0) 8) (argWord r 1) (argWord r 2)
  have hserve : (s.rung c 0x10 r).serveCode c 0x10 none = u.answer c stOk [u.lnState p] := by
    show (s.rung c 0x10 r).servePolicy c = _
    unfold State.servePolicy
    rw [ht.argPort hp, ht.arg, ht.arg, ht.arg]
    rfl
  have hneed : ((s.rung c 0x10 r).chan c).need 0x10 = some (if bit (argWord r 0) 8 then 3 else 2) := by
    show some (if bit ((s.rung c 0x10 r).arg c 0) 8 then 3 else 2) = _
    rw [ht.arg]
  have hacts := State.policySet_acts (s.rung c 0x10 r) p (bit (argWord r 0) 8) (argWord r 1) (argWord r 2)
  have htaken := State.takenWrite_acts (s.rung c 0x10 r) p .plain (argWord r 1) (ix := 0x00) (.inl rfl)
  obtain ⟨hport, hreach⟩ := State.takenWrite_owns (s.rung c 0x10 r) p .plain (argWord r 1) (ix := 0x00) (.inl rfl)
  refine (ht.answersAll rfl (by decide) hneed hserve (keepsChans_trans htaken.chans hacts.chans) (by simp)).mono fun t ⟨⟨hans, _⟩, hkeeper, hreg⟩ =>
    ⟨hans, ?_, ?_, fun k => ?_⟩
  · rw [hkeeper]
    exact hacts.owns _ hport
  · rw [hkeeper]
    exact hacts.owns _ hreach
  · rw [hreg, State.policySet_reg, s.rung_reg, State.imageOf_port (s := s) p 0x00 (s.rung_reg ..), State.imageOf_port (s := s) p 0x05 (s.rung_reg ..)]

theorem portForceMode_does (ht : s.takes c r 1) : Does (.portForceMode c r) s (fun t =>
    t.answered c 0x13 r 0 ∧ t.keeper.owns (portBlock p.val) = true ∧ t.keeper.owns (reachBlock (reachOf p).val) = true
    ∧ ∀ k, t.reg k = if k = regKey (portBlock p.val) 0x01 then
        s.imageOf (portBlock p.val) 0x01 false .plain (setFld (s.reg (regKey (portBlock p.val) 0x01)) 0 4 (fld (argWord r 0) 8 4)) else s.reg k) := by
  generalize hv : setFld (s.reg (regKey (portBlock p.val) 0x01)) 0 4 (fld (argWord r 0) 8 4) = v
  let u := (s.rung c 0x13 r).takenWrite p 0x01 .plain v
  have hserve : (s.rung c 0x13 r).serveCode c 0x13 none = u.answer c stOk [u.lnState p] := by
    show (s.rung c 0x13 r).serveForce c = _
    unfold State.serveForce
    dsimp only
    rw [ht.argPort hp, ht.arg, State.ownPort_reg, s.rung_reg, hv]
    rfl
  have hacts := State.takenWrite_acts (s.rung c 0x13 r) p .plain v (ix := 0x01) (.inr (.inl rfl))
  obtain ⟨hport, hreach⟩ := State.takenWrite_owns (s.rung c 0x13 r) p .plain v (ix := 0x01) (.inr (.inl rfl))
  refine (ht.answersAll rfl (by decide) rfl hserve hacts.chans (by simp)).mono fun t ⟨⟨hans, _⟩, hkeeper, hreg⟩ =>
    ⟨hans, ?_, ?_, fun k => ?_⟩
  · rw [hkeeper]
    exact hport
  · rw [hkeeper]
    exact hreach
  · rw [hreg, State.takenWrite_reg, s.rung_reg, State.imageOf_port (s := s) p 0x01 (s.rung_reg ..)]

end

/-! ### PORT_ENABLE and PORT_DISABLE (R386) -/

theorem foldl_or_bit (l : List Word) (a : Word) (i : Nat) : (l.foldl (· ||| ·) a).getLsbD i = (a.getLsbD i || l.any (·.getLsbD i)) := by
  induction l generalizing a with
  | nil => simp
  | cons b l ih => rw [List.foldl_cons, ih, BitVec.getLsbD_or, List.any_cons, Bool.or_assoc]

theorem flag_bit (lo : Nat) (b : Bool) (i : Nat) (h : i < 32) : (flag lo b).getLsbD i = (b && decide (i = lo)) := by
  unfold flag
  cases b with
  | false => simp
  | true =>
    rw [if_pos rfl, put_bit]
    by_cases e : i = lo
    · subst e; simp [h]
    · simp [e]
      omega

/-- A word of flags, one for each port. -/
theorem portFlags_bit (f : Fin 16 → Bool) (p : Fin 16) : (boolsAt 0 (allPorts.map f)).getLsbD p.val = f p := by
  have hmem (b : Bool) (i : Nat) : (b, i) ∈ (allPorts.map f).zipIdx ↔ ∃ q : Fin 16, q.val = i ∧ f q = b := by
    rw [List.mem_zipIdx_iff_getElem?, List.getElem?_eq_some_iff]
    constructor
    · rintro ⟨h, e⟩
      have hi : i < 16 := by simpa [allPorts] using h
      exact ⟨⟨i, hi⟩, rfl, by simpa [allPorts] using e⟩
    · rintro ⟨q, rfl, e⟩
      exact ⟨by simp [allPorts], by simpa [allPorts] using e⟩
  unfold boolsAt flagsFrom
  rw [foldl_or_bit, show (0 : Word).getLsbD p.val = false from BitVec.getLsbD_zero, Bool.false_or, Bool.eq_iff_iff, List.any_eq_true]
  constructor
  · rintro ⟨w, hw, hb⟩
    obtain ⟨⟨b, i⟩, hi, rfl⟩ := List.mem_map.1 hw
    obtain ⟨q, rfl, rfl⟩ := (hmem b i).1 hi
    rw [flag_bit _ _ _ (by omega)] at hb
    simp at hb
    rw [Fin.ext hb.2, hb.1]
  · intro h
    refine ⟨_, List.mem_map_of_mem ((hmem (f p) p.val).2 ⟨p, rfl, rfl⟩), ?_⟩
    rw [flag_bit _ _ _ (by omega)]
    simp [h]

/-- The state in which PORT_ENABLE and PORT_DISABLE are answered: LN_MODE.ENABLE written on each of the ports. -/
def State.enableSet (s : State) (ps : List (Fin 16)) (way : Way) : State :=
  ps.foldl (fun (t : State) p => t.takenWrite p 0x01 way 0x100) s

theorem State.enableSet_acts (ps : List (Fin 16)) (s : State) (way : Way) :
    s.keeperActs (s.enableSet ps way) ∧ ∀ p ∈ ps, (s.enableSet ps way).keeper.owns (portBlock p.val) = true := by
  induction ps generalizing s with
  | nil => exact ⟨⟨fun _ => id, keepsChans_refl s⟩, nofun⟩
  | cons p ps ih =>
    obtain ⟨hacts, howns⟩ := ih (s.takenWrite p 0x01 way 0x100)
    refine ⟨keeperActs_trans (s.takenWrite_acts p way _ (.inr (.inl rfl))) hacts, fun q hq => ?_⟩
    obtain rfl | hq := List.mem_cons.1 hq
    · exact hacts.owns _ (s.takenWrite_owns q way _ (.inr (.inl rfl))).1
    · exact howns q hq

theorem portKey_inj {p q : Fin 16} (ix : Nat) (h : regKey (portBlock p.val) ix = regKey (portBlock q.val) ix) : p = q := by
  unfold regKey portBlock at h
  omega

theorem State.enableSet_reg (ps : List (Fin 16)) (s : State) (way : Way) (hn : ps.Nodup) :
    (∀ p, (s.enableSet ps way).reg (regKey (portBlock p.val) 0x01) =
      if p ∈ ps then s.imageOf (portBlock p.val) 0x01 false way 0x100 else s.reg (regKey (portBlock p.val) 0x01))
    ∧ ∀ k, (∀ p : Fin 16, k ≠ regKey (portBlock p.val) 0x01) → (s.enableSet ps way).reg k = s.reg k := by
  induction ps generalizing s with
  | nil => exact ⟨fun p => rfl, fun _ _ => rfl⟩
  | cons q ps ih =>
    obtain ⟨hq, hn⟩ := List.nodup_cons.1 hn
    obtain ⟨hports, hrest⟩ := ih (s.takenWrite q 0x01 way 0x100) hn
    have hother {p : Fin 16} (h : p ≠ q) : (s.takenWrite q 0x01 way 0x100).reg (regKey (portBlock p.val) 0x01) = s.reg (regKey (portBlock p.val) 0x01) := by
      rw [State.takenWrite_reg, if_neg fun e => h (portKey_inj 0x01 e)]
    refine ⟨fun p => (hports p).trans ?_, fun k hk => (hrest k hk).trans ?_⟩
    · by_cases h : p = q
      · subst h
        rw [if_neg hq, if_pos List.mem_cons_self, State.takenWrite_reg, if_pos rfl]
      · rw [hother h, State.imageOf_port p 0x01 (hother h)]
        simp [h]
    · rw [State.takenWrite_reg, if_neg (hk q)]

theorem mem_argPorts (s : State) (c : Fin 16) (p : Fin 16) : (s.argPorts c).contains p = bit (s.arg c 0) p.val := by
  rw [Bool.eq_iff_iff, List.contains_iff_mem]
  simp [State.argPorts, allPorts]

/-- The masked ports whose ENABLE differs from what a command asks for, one flag for each. -/
def State.enableDiffers (s : State) (mask : Word) (on : Bool) : Word :=
  boolsAt 0 (allPorts.map (fun p => bit mask p.val && bit (s.reg (regKey (portBlock p.val) 0x01)) 8 != on))

theorem State.serveEnable_eq (s : State) (c : Fin 16) (on : Bool) : s.serveEnable c on =
    (s.enableSet (s.argPorts c) (if on then .setBits else .clearBits)).answer c stOk [s.enableDiffers (s.arg c 0) on] := by
  have hd : s.enableDiffers (s.arg c 0) on
      = boolsAt 0 (allPorts.map (fun p => (s.argPorts c).contains p && bit (s.reg (regKey (portBlock p.val) 1)) 8 != on)) := by
    unfold State.enableDiffers
    refine congrArg (boolsAt 0) (List.map_congr_left fun p _ => ?_)
    rw [mem_argPorts]
  rw [hd]
  rfl

/-- What PORT_ENABLE and PORT_DISABLE do, `on` telling them apart. -/
theorem portOnOff_does {s : State} {c : Fin 16} {r : Request} {i : Instr} {code : Nat} {on : Bool} (ht : s.takes c r 1)
    (he : exec i s = s.runsAll (s.issueCmd c code r)) (hc : code < 256) (hn : ((s.rung c code r).chan c).need code = some 1)
    (hv : (s.rung c code r).serveCode c code none = (s.rung c code r).serveEnable c on) : Does i s (fun t =>
      t.answered c code r 0
      ∧ (∀ p : Fin 16, (t.result c 0).getLsbD p.val = (bit (argWord r 0) p.val && bit (s.reg (regKey (portBlock p.val) 0x01)) 8 != on))
      ∧ (∀ p : Fin 16, t.reg (regKey (portBlock p.val) 0x01) = if bit (argWord r 0) p.val then
          s.imageOf (portBlock p.val) 0x01 false (if on then .setBits else .clearBits) 0x100 else s.reg (regKey (portBlock p.val) 0x01))
      ∧ (∀ k, (∀ p : Fin 16, k ≠ regKey (portBlock p.val) 0x01) → t.reg k = s.reg k)
      ∧ ∀ p : Fin 16, bit (argWord r 0) p.val = true → t.keeper.owns (portBlock p.val) = true) := by
  have hmem (p : Fin 16) : p ∈ (s.rung c code r).argPorts c ↔ bit (argWord r 0) p.val = true := by
    rw [← List.contains_iff_mem, mem_argPorts, ht.arg]
  obtain ⟨hacts, howns⟩ := State.enableSet_acts ((s.rung c code r).argPorts c) (s.rung c code r) (if on then .setBits else .clearBits)
  obtain ⟨hports, hrest⟩ := State.enableSet_reg ((s.rung c code r).argPorts c) (s.rung c code r) (if on then .setBits else .clearBits)
    ((List.nodup_finRange 16).filter _)
  refine (ht.answersAll he hc hn (hv.trans (State.serveEnable_eq ..)) hacts.chans (by simp)).mono fun t ⟨⟨hans, hres⟩, hkeeper, hreg⟩ =>
    ⟨hans, fun p => ?_, fun p => ?_, fun k hk => ?_, fun p hp => ?_⟩
  · rw [hres 0 (by simp), List.getD_cons_zero, ht.arg, State.enableDiffers, portFlags_bit, s.rung_reg]
  · rw [hreg, hports, s.rung_reg, State.imageOf_port (s := s) p 0x01 (s.rung_reg ..)]
    exact if_congr (hmem p) rfl rfl
  · rw [hreg, hrest k hk, s.rung_reg]
  · rw [hkeeper]
    exact howns p ((hmem p).2 hp)

/-- Settles O34: HELLO by its parts, the port commands by the registers that the keeper writes one after another. -/
theorem helloAndPorts : Obligations.HelloAndPorts := by
  unfold Obligations.HelloAndPorts
  refine ⟨fun s c r ht => hello_does ht, fun s c r p hp ht => portSetPolicy_does hp ht, fun s c r p hp ht => portForceMode_does hp ht,
    fun s c r ht on => ?_⟩
  cases on with
  | false => exact portOnOff_does (on := false) ht rfl (by decide) rfl rfl
  | true => exact portOnOff_does (on := true) ht rfl (by decide) rfl rfl

end Sys2Proof.Machine
end

section
/-! PROOFS. The offline tests (O28): a guarded write of ST_OFFLINE, the loopbacks and the logic BIST that it starts (R413, R414, R417). -/

namespace Sys2Proof.Machine

/-! ### The guarded write of ST_OFFLINE (R414) -/

/-- The state on which a guarded write of ST_OFFLINE acts. -/
def State.offlineBase (s : State) (i : Iface) (t : Tally) (g : IfaceRec) : State := (s.pack i t g).setReg (regKey 5 0x02) (s.reg (regKey 5 0x02))

section
variable (s : State) (i : Iface) (t : Tally) (g : IfaceRec)

/-- It differs in what counts, mends and records the access alone. -/
theorem State.offlineBase_eq : ∃ (x y z : IfaceRec) (rs : List (Nat × Word)) (me : List Nat),
    s.offlineBase i t g = { s with tally := t, spi := x, mon := y, kpi := z, regs := rs, mended := me } := by
  cases i <;> exact ⟨_, _, _, _, _, rfl⟩

theorem State.offlineBase_reg (k : Nat) : (s.offlineBase i t g).reg k = s.reg k := by
  unfold State.offlineBase
  rw [State.setReg_reg]
  split
  · next h => rw [h]
  · exact stored_reg (s.pack_stored i t g) k

theorem State.offlineBase_act (k : Nat) (h : k ≠ regKey 5 0x02) : (s.offlineBase i t g).act k = s.act k := by
  have hbad : (s.offlineBase i t g).badParity k = s.badParity k := by
    unfold State.offlineBase
    rw [State.setReg_badParity _ _ _ _ h]
    cases i <;> rfl
  have hotp : (s.offlineBase i t g).otp = s.otp := by cases i <;> rfl
  unfold State.act
  rw [s.offlineBase_reg i t g k, hbad, hotp]

end

/-- What the write starts, with what the keeper and the interface note of the access. -/
theorem State.offlineWrite_eq {s : State} {i : Iface} (h : s.opens i 5) (v : Word) (sup : Option Supplied) :
    ∃ (t : Tally) (g : IfaceRec) (u : State) (x y z : IfaceRec) (kp : Keeper),
      u = (s.offlineBase i t g).testEffect 0x02 (actedBits (keyFields (regKey 5 0x02)) true .plain v) sup
      ∧ s.guardedWrite i 5 0x02 v sup = { u with spi := x, mon := y, kpi := z, keeper := kp } ∧ kp = { u.keeper with copy := kp.copy } := by
  obtain ⟨t, g, -, he⟩ := State.guardedWrite_acts h (ix := 0x02) (by decide) (by decide) v sup
  have himage (u : State) : u.imageOf 5 0x02 true .plain v = u.reg (regKey 5 0x02) := by
    unfold State.imageOf
    dsimp only
    split <;> rfl
  have hstore : (s.pack i t g).storeReg 5 0x02 true .plain v sup
      = (s.offlineBase i t g).testEffect 0x02 (actedBits (keyFields (regKey 5 0x02)) true .plain v) sup := by
    unfold State.storeReg
    dsimp only
    rw [if_neg (by decide), himage, stored_reg (s.pack_stored i t g)]
    rfl
  generalize hu : (s.offlineBase i t g).testEffect 0x02 (actedBits (keyFields (regKey 5 0x02)) true .plain v) sup = u at hstore
  have happly : (s.pack i t g).applyWrite i 5 0x02 true .plain v sup = if i = .keeper then u.noteCopy (regKey 5 0x02) else u := by
    rw [← hstore]
    rfl
  rw [happly] at he
  rw [he]
  refine ⟨t, g, u, ?_⟩
  split
  · obtain ⟨kp, e1, e2⟩ := u.noteCopy_eq (regKey 5 0x02)
    rw [e1]
    obtain ⟨x, y, z, e3⟩ := State.said_eq { u with keeper := kp } i false false false ((s.pack i t g).leaves 5 0x02 true .plain v)
    exact ⟨x, y, z, kp, hu.symm, e3, e2⟩
  · obtain ⟨x, y, z, e3⟩ := State.said_eq u i false false false ((s.pack i t g).leaves 5 0x02 true .plain v)
    exact ⟨x, y, z, _, hu.symm, e3, rfl⟩

theorem offlineActs_bit (v : Word) (j : Nat) (h : j = 0 ∨ (16 ≤ j ∧ j < 32)) :
    bit (actedBits (keyFields (regKey 5 0x02)) true .plain v) j = v.getLsbD j := by
  have e : actedBits (keyFields (regKey 5 0x02)) true .plain v = (0 ||| put 16 16 (fld v 16 16)) ||| put 0 1 (fld v 0 1) := rfl
  unfold bit
  rw [e]
  simp only [BitVec.getLsbD_or, put_bit, fld_bits]
  rcases h with rfl | ⟨h1, h2⟩
  · simp
  · have : 16 + (j - 16) = j := by omega
    simp [this, h1, h2, show j - 16 < 16 by omega, show ¬ j = 0 by omega]

/-! ### Loopbacks (R413) -/

/-- The masked ports' loopbacks started, one after another. -/
def State.startLoops (s : State) (l : List (Fin 16)) (m : BitVec 16) : State :=
  l.foldl (fun (t : State) p => if m.getLsbD p.val then t.startLoop p else t) s

theorem State.startLoop_port (s : State) (q p : Fin 16) : ((s.startLoop q).port p).test =
    (if p = q ∧ s.loopOk p = true then { (s.port p).test with loop := true } else (s.port p).test) ∧ (s.startLoop q).loopOk p = s.loopOk p := by
  have hok (f : PortTest → PortTest) : (s.modTest q f).loopOk p = s.loopOk p := by
    have htdr : ((s.modTest q f).port p).tdr = (s.port p).tdr := by
      by_cases e : p = q
      · subst e; rw [State.modTest, State.port_modPort_same]
      · rw [State.modTest, State.port_modPort_ne _ e]
    unfold State.loopOk
    rw [htdr]
    rfl
  unfold State.startLoop
  split
  · next h =>
    refine ⟨?_, hok _⟩
    by_cases e : p = q
    · subst e
      rw [State.modTest, State.port_modPort_same, if_pos ⟨rfl, h⟩]
    · rw [State.modTest, State.port_modPort_ne _ e, if_neg fun c => e c.1]
  · next h => exact ⟨by rw [if_neg]; rintro ⟨rfl, c⟩; exact h c, rfl⟩

theorem State.startLoops_port (l : List (Fin 16)) (s : State) (m : BitVec 16) (p : Fin 16) : ((s.startLoops l m).port p).test =
    if p ∈ l ∧ m.getLsbD p.val = true ∧ s.loopOk p = true then { (s.port p).test with loop := true } else (s.port p).test := by
  induction l generalizing s with
  | nil => simp [State.startLoops]
  | cons q l ih =>
    obtain ⟨htest, hok⟩ := s.startLoop_port q p
    refine (ih (if m.getLsbD q.val then s.startLoop q else s)).trans ?_
    cases hm : m.getLsbD q.val with
    | false =>
      have hne : m.getLsbD p.val = true → p ≠ q := fun h e => by rw [e, hm] at h; cases h
      refine if_congr (Iff.symm ?_) rfl rfl
      rw [List.mem_cons]
      tauto
    | true =>
      rw [if_pos rfl, hok, htest]
      by_cases e : p = q
      · subst e
        cases s.loopOk p <;> simp [hm]
      · simp [e]

theorem stLoopbackStart_does {s : State} {i : Iface} (mask : BitVec 16) (ho : s.opens i 5) : Does (.stLoopbackStart i mask) s (fun t => (∀ k, t.reg k = s.reg k)
    ∧ ∀ p : Fin 16, (t.port p).test = if mask.getLsbD p.val = true ∧ s.loopOk p = true then { (s.port p).test with loop := true } else (s.port p).test) := by
  obtain ⟨ta, g, u, x, y, z, kp, hu, he, -⟩ := State.offlineWrite_eq ho (put 16 16 mask.toNat) none
  have hmask (p : Fin 16) : bit (actedBits (keyFields (regKey 5 0x02)) true .plain (put 16 16 mask.toNat)) (16 + p.val) = mask.getLsbD p.val := by
    rw [offlineActs_bit _ _ (.inr (by omega)), put_mask _ _ _ _ (by omega)]
    simp
  have hlbist : bit (actedBits (keyFields (regKey 5 0x02)) true .plain (put 16 16 mask.toNat)) 0 = false := by
    rw [offlineActs_bit _ _ (.inl rfl), put_mask _ _ _ _ (by omega)]
    rfl
  have hloops : u = (s.offlineBase i ta g).startLoops allPorts mask := by
    rw [hu]
    unfold State.testEffect State.startLoops
    rw [if_pos rfl]
    dsimp only
    rw [hlbist, if_neg (by decide)]
    simp only [hmask]
  have hbase : (s.offlineBase i ta g).port = s.port := by
    obtain ⟨x, y, z, rs, me, h⟩ := s.offlineBase_eq i ta g
    rw [h]
    rfl
  have hok (p : Fin 16) : (s.offlineBase i ta g).loopOk p = s.loopOk p := by
    unfold State.loopOk State.enabled State.lnMode State.portReg
    rw [s.offlineBase_act i ta g _ (by unfold regKey portBlock; omega), s.offlineBase_act i ta g _ (by unfold regKey portBlock; omega), hbase]
  refine ⟨_, rfl, fun k => ?_, fun p => ?_⟩
  · have hstay (t : State) (l : List (Fin 16)) : (t.startLoops l mask).frame = t.frame :=
      foldl_frame_of (fun t p => by split <;> simp) rfl
    rw [settle_reg, he]
    show u.reg k = s.reg k
    rw [hloops, stored_reg (stored_of_frame (hstay _ _)), State.offlineBase_reg]
  · rw [settle_port_test, he]
    show (u.port p).test = _
    rw [hloops, State.startLoops_port, hok, hbase]
    simp [allPorts]

/-! ### Logic BIST (R413, R417) -/

section
variable {s : State} {i : Iface} (ho : s.opens i 5) (ok : Bool)

/-- What the write of ST_OFFLINE.LBIST starts. -/
theorem State.lbistActed (s : State) : s.testEffect 0x02 (actedBits (keyFields (regKey 5 0x02)) true .plain 1) (some (supZero ok)) = s.startLbist ok := by
  have hport (p : Fin 16) : bit (actedBits (keyFields (regKey 5 0x02)) true .plain 1) (16 + p.val) = false := by
    rw [offlineActs_bit _ _ (.inr (by omega))]
    revert p
    decide
  unfold State.testEffect
  rw [if_pos rfl, foldl_never _ _ (fun p : Fin 16 => bit (actedBits (keyFields (regKey 5 0x02)) true .plain 1) (16 + p.val)) _ hport]
  rfl

/-- Zeroising leaves the keeper. -/
theorem State.zeroise_keeper {s : State} (hz : s.keys.zeroising = none) (hw : ∀ c, (s.chan c).work = none) (cause : Nat) (ok : Bool) :
    (s.zeroise cause ok).keeper = s.keeper := by
  cases ok with
  | true =>
    rw [State.zeroise_true hz]
    exact ((s.keysEmptied cause).zeroDone_keys true cause false hw).2
  | false =>
    rw [State.zeroise_false hz]
    rfl

/-- Logic BIST, once it may run, zeroises the key store and holds the keeper if the store reads back zero. -/
theorem State.startLbist_runs {s : State} (hz : s.keys.zeroising = none) (hw : ∀ c, (s.chan c).work = none) (hl : s.lbistOk = true) :
    (s.startLbist ok).keys = { s.keys.emptied 3 with zeroising := if ok then none else some 3, zeroOk := ok }
    ∧ (s.startLbist ok).keeper.mode = (if ok then .lbist else s.keeper.mode) := by
  have hkeys := State.zeroise_keys hz hw 3 ok
  have hkeeper := State.zeroise_keeper hz hw 3 ok
  unfold State.startLbist
  rw [if_pos hl]
  generalize s.zeroise 3 ok = u at hkeys hkeeper
  cases ok with
  | false =>
    rw [if_pos (by rw [hkeys]; rfl)]
    exact ⟨hkeys, congrArg Keeper.mode hkeeper⟩
  | true =>
    rw [if_neg (by rw [hkeys]; simp), State.lbistHold, if_pos (by rw [hkeys])]
    exact ⟨hkeys, rfl⟩

include ho in
theorem stLbistStart_does (hz : s.keys.zeroising = none) (hw : ∀ c, (s.chan c).work = none) : Does (.stLbistStart i ok) s (fun t =>
    (s.lbistOk = true → t.keys.keys = [] ∧ t.keys.identity = false ∧ t.keys.zeroOk = ok ∧ t.keys.zeroising = (if ok then none else some 3)
      ∧ t.keeper.mode = (if ok then .lbist else s.keeper.mode))
    ∧ (s.lbistOk = false → t.keys = s.keys ∧ t.keeper.mode = s.keeper.mode)) := by
  obtain ⟨ta, g, u, x, y, z, kp, hu, he, hk⟩ := State.offlineWrite_eq ho 1 (some (supZero ok))
  rw [State.lbistActed] at hu
  have hact := s.offlineBase_act i ta g
  obtain ⟨x1, y1, z1, rs, me, hb⟩ := s.offlineBase_eq i ta g
  generalize s.offlineBase i ta g = b at hu hact hb
  have hkeys : b.keys = s.keys := by rw [hb]
  have hmode : b.keeper = s.keeper := by rw [hb]
  have hchan (c : Fin 16) : b.chan c = s.chan c := by rw [hb]; rfl
  have hlbist : b.lbistOk = s.lbistOk := by
    have hen (p : Fin 16) : b.enabled p = s.enabled p := by
      unfold State.enabled State.lnMode State.portReg
      rw [hact _ (by unfold regKey portBlock; omega)]
    have hlane (n : Fin 8) : b.laneReg n.val 0 = s.laneReg n.val 0 := hact _ (by unfold regKey laneBlock; omega)
    have hqueues : b.basin = s.basin := by rw [hb]
    unfold State.lbistOk
    simp only [hen, hlane, hqueues]
  refine acts_far (t := s.guardedWrite i 5 0x02 1 (some (supZero ok))) rfl fun w _ hheld hfar => ?_
  rw [held_keys hheld, far_keeper hfar, he]
  dsimp only
  rw [hk]
  dsimp only
  rw [← hlbist]
  refine ⟨fun h => ?_, fun h => ?_⟩
  · obtain ⟨h1, h2⟩ := State.startLbist_runs ok (by rw [hkeys]; exact hz) (fun c => by rw [hchan]; exact hw c) h
    rw [hu, h1, h2, hmode]
    exact ⟨rfl, rfl, rfl, rfl, rfl⟩
  · have hstay : u = b := hu.trans (if_neg (by rw [h]; decide))
    rw [hstay, hkeys, hmode]
    exact ⟨rfl, rfl⟩

end

/-- Settles O28: a guarded write of ST_OFFLINE acts on a state that differs from `s` in the record of the access. -/
theorem offlineTests : Obligations.OfflineTests := by
  unfold Obligations.OfflineTests
  exact ⟨fun s i mask ho => stLoopbackStart_does mask ho, fun s i ok ho hz hw => stLbistStart_does ho ok hz hw⟩

end Sys2Proof.Machine
end

section
/-! PROOFS. The Iblen monitor (O32): its lines, their replies, and the channel that it rings (R394, R395). -/

namespace Sys2Proof.Machine

/-! ### What an access leaves of the monitor -/

section
variable (s : State) (i : Iface)

theorem State.began_monitor : (s.began i).monitor = s.monitor := by
  unfold State.began
  split <;> simp
theorem State.guardDrop_monitor : (s.guardDrop i).monitor = s.monitor := by
  unfold State.guardDrop State.guardAbort
  split <;> simp
theorem State.indNext_monitor (b : Nat) : (s.indNext i b).monitor = s.monitor := by
  unfold State.indNext
  cases i <;> exact ite_keep State.monitor rfl rfl
theorem State.readAct_monitor (b ix : Nat) : (s.readAct i b ix).monitor = s.monitor := by
  unfold State.readAct
  (repeat' split) <;> simp [State.indNext_monitor]
theorem State.said_monitor (a b c d : Bool) : (s.said i a b c d).monitor = s.monitor := s.modIface_monitor i _

theorem State.readAct_regs (b : Nat) {ix : Nat} (h : ix ≠ 0xFF) : (s.readAct i b ix).regs = s.regs := by
  unfold State.readAct
  rw [if_neg h]
  (repeat' split) <;> simp

theorem State.guardDrop_closedTo (b : Nat) : (s.guardDrop i).closedTo b = s.closedTo b := by
  unfold State.closedTo State.early
  rw [held_sup (s.guardDrop_held i)]

theorem State.busRead_monitor (b ix : Nat) (comp : Bool) : (s.busRead i b ix comp).monitor = s.monitor := by
  have h0 : ((s.began i).guardDrop i).monitor = s.monitor := (State.guardDrop_monitor ..).trans (s.began_monitor i)
  unfold State.busRead
  dsimp only
  split
  · rfl
  · split
    · rw [State.said_monitor, State.modIface_monitor, h0]
    · split
      · rw [State.said_monitor, State.modIface_monitor, h0]
      · rw [State.said_monitor, State.modIface_monitor, State.readAct_monitor, h0]

theorem State.busRead_regs (b : Nat) {ix : Nat} (comp : Bool) (h : ix ≠ 0xFF) : (s.busRead i b ix comp).regs = s.regs := by
  have h0 : ((s.began i).guardDrop i).regs = s.regs := stored_regs ((State.guardDrop_stored ..).trans (s.began_stored i))
  have hsaid (t : State) (a b c d : Bool) : (t.said i a b c d).regs = t.regs := t.modIface_regs i _
  unfold State.busRead
  dsimp only
  split
  · rfl
  · split
    · rw [hsaid, State.modIface_regs, h0]
    · split
      · rw [hsaid, State.modIface_regs, h0]
      · rw [hsaid, State.modIface_regs, State.readAct_regs _ i b h, h0]

end

theorem frame_monitor {a b : State} (h : a.frame = b.frame) : a.monitor = b.monitor := congrArg Frame.monitor h

theorem State.doorbell_rejected {u : State} {c : Fin 16} (h : u.doorReject c ≠ 0) (sup : Option Supplied) : (u.doorbell c sup).monitor = u.monitor := by
  unfold State.doorbell
  dsimp only
  rw [if_pos h]
  simp

/-! ### Lines (R394) -/

/-- The part that takes a line of the monitor: ACTIVE follows. -/
def State.lined (s : State) : State := { s with monitor := { s.monitor with active := some s.ticks } }

section
variable {s : State} (hd : s.deaf .monitor = false)

/-- A dead monitor takes no line. -/
theorem State.monLine_deaf (h : s.deaf .monitor = true) (f : State → State) : s.monLine f = s := if_pos h

include hd

theorem State.monLine_live (f : State → State) : s.monLine f = f s.lined := if_neg (ne_true_of_eq_false hd)

/-- What the monitor reads at an address. -/
theorem State.monRead_rdata (a : Addr) :
    (s.closedTo (decodeAddr a).block = true ∨ usedIndex (blockKind (decodeAddr a).block) (decodeAddr a).index = false → (s.lined.addrRead .monitor a).mon.rdata = 0)
    ∧ (s.closedTo (decodeAddr a).block = false → usedIndex (blockKind (decodeAddr a).block) (decodeAddr a).index = true →
        (s.lined.addrRead .monitor a).mon.rdata = if (decodeAddr a).comp then ~~~(s.lined.guardDrop .monitor).peek .monitor (decodeAddr a).block (decodeAddr a).index
          else (s.lined.guardDrop .monitor).peek .monitor (decodeAddr a).block (decodeAddr a).index) := by
  have hlive : s.lined.deaf .monitor = false := hd
  have hopen : (s.lined.guardDrop .monitor).closedTo (decodeAddr a).block = s.closedTo (decodeAddr a).block := s.lined.guardDrop_closedTo .monitor _
  have hbegan : s.lined.began .monitor = s.lined := if_neg (by decide)
  unfold State.addrRead State.busRead
  dsimp only
  rw [if_neg (ne_true_of_eq_false hlive), hbegan, hopen]
  refine ⟨fun h => ?_, fun hc hu => ?_⟩
  · split
    · rfl
    · next hc =>
      have hu := h.resolve_left fun e => hc ⟨by decide, e⟩
      rw [if_pos (by rw [hu]; rfl)]
      rfl
  · rw [if_neg (by rw [hc]; simp), if_neg (by rw [hu]; simp)]
    rfl

theorem monRead_does (a : Addr) : ∃ t, exec (.monRead a) s = .next t ∧ t.monitor.active = some s.ticks
    ∧ ((decodeAddr a).index ≠ 0xFF → t.regs = s.regs)
    ∧ (s.closedTo (decodeAddr a).block = true ∨ usedIndex (blockKind (decodeAddr a).block) (decodeAddr a).index = false → t.monitor.reply = some (true, [0]))
    ∧ (s.closedTo (decodeAddr a).block = false → usedIndex (blockKind (decodeAddr a).block) (decodeAddr a).index = true →
        ∀ w, w = (s.lined.guardDrop .monitor).peek .monitor (decodeAddr a).block (decodeAddr a).index →
        t.monitor.reply = some (true, [if (decodeAddr a).comp then ~~~w else w])) := by
  obtain ⟨hzero, hword⟩ := State.monRead_rdata hd a
  have he : s.monGet a = (s.lined.addrRead .monitor a).monSay true [(s.lined.addrRead .monitor a).mon.rdata] := State.monLine_live hd _
  have hreply : (settle s (s.monGet a)).monitor = { s.lined.monitor with reply := some (true, [(s.lined.addrRead .monitor a).mon.rdata]) } := by
    rw [settle_monitor, he]
    have hm : (s.lined.addrRead .monitor a).monitor = s.lined.monitor := State.busRead_monitor ..
    rw [← hm]
    rfl
  refine ⟨settle s (s.monGet a), rfl, ?_, fun h => ?_, fun h => ?_, fun hc hu w hw => ?_⟩
  · rw [hreply]
    rfl
  · rw [settle_regs, he]
    exact s.lined.busRead_regs .monitor _ _ h
  · rw [hreply, hzero h]
  · rw [hreply, hword hc hu, hw]

omit hd in
/-- A row whose line says something closes with that reply. -/
theorem monSay_does {i : Instr} {u w : State} {ok : Bool} {ws : List Word} (he : exec i s = s.done w) (hw : w = u.monSay ok ws) :
    Does i s (fun t => t.monitor = { u.monitor with reply := some (ok, ws) }) := by
  refine ⟨_, he, ?_⟩
  beta_reduce
  rw [hw, settle_monitor]
  rfl

omit hd in
/-- The same for a line whose effect may change links; the registers are those of the effect. -/
theorem monSay_doesAll {i : Instr} {u w : State} {ok : Bool} {ws : List Word} (he : exec i s = s.actsAll w) (hw : w = u.monSay ok ws) :
    Does i s (fun t => t.monitor = { u.monitor with reply := some (ok, ws) } ∧ ∀ k, t.reg k = u.reg k) := by
  refine acts_does he fun t ht _ => ?_
  rw [hw] at ht
  exact ⟨frame_monitor ht, fun k => stored_reg (stored_of_frame ht) k⟩

theorem monWrite_does (a : Addr) (v : Word) : ∃ t, exec (.monWrite a v) s = .next t ∧ t.monitor.reply = some (true, []) :=
  (monSay_doesAll (u := s.lined.addrWrite .monitor a v) rfl (State.monLine_live hd _)).mono fun t ⟨hm, _⟩ => by rw [hm]

theorem monWrite_stores {a : Addr} (v : Word) (ho : s.opens .monitor (decodeAddr a).block) (hc : (decodeAddr a).comp = false)
    (hu : usedIndex (blockKind (decodeAddr a).block) (decodeAddr a).index = true) (hp : plainReg (decodeAddr a).block (decodeAddr a).index) :
    Does (.monWrite a v) s (fun t => t.monitor.reply = some (true, []) ∧ s.wrote (decodeAddr a).block (decodeAddr a).index false (decodeAddr a).way v t) := by
  have he : s.lined.addrWrite .monitor a v = s.lined.busWrite .monitor (decodeAddr a).block (decodeAddr a).index (decodeAddr a).way false v := by
    rw [State.addrWrite, hc]
  have hlined : s.lined.opens .monitor (decodeAddr a).block := ho
  have hw := State.busWrite_wrote hlined (decodeAddr a).way v none hu hp rfl
  rw [← he] at hw
  exact (monSay_doesAll (u := s.lined.addrWrite .monitor a v) rfl (State.monLine_live hd _)).mono fun t ⟨hm, hr⟩ =>
    ⟨by rw [hm], fun k => (hr k).trans (hw k)⟩

theorem monTrace_does (on : Bool) : Does (.monTrace on) s (fun t => t.monitor.trace = on ∧ t.monitor.reply = some (true, [])) :=
  (monSay_does (u := { s.lined with monitor := { s.lined.monitor with trace := on } }) rfl (State.monLine_live hd _)).mono fun t hm => by
    rw [hm]
    exact ⟨rfl, rfl⟩

theorem monCounters_does (b : Fin 128) : Does (.monCounters b) s (fun t => t.monitor.reply = some (true, (List.range 8).flatMap (fun n =>
    [half48 (s.tally.counter (canonBlock b.val) n) true, half48 (s.tally.counter (canonBlock b.val) n) false]))) :=
  (monSay_does (u := s.lined) rfl (State.monLine_live hd _)).mono fun t hm => by
    rw [hm]
    rfl

theorem monBaud_does (code : Nat) : Does (.monBaud code) s (fun t => (code ≤ 4 → t.monitor.baud = code ∧ t.monitor.reply = some (true, []))
    ∧ (4 < code → t.monitor.baud = s.monitor.baud ∧ t.monitor.reply = some (false, [4]))) := by
  have he : s.monRate code = if code ≤ 4 then ({ s.lined with monitor := { s.lined.monitor with baud := code } } : State).monSay true []
      else s.lined.monSay false [wd stBadArg] := State.monLine_live hd _
  by_cases h : code ≤ 4
  · rw [if_pos h] at he
    refine (monSay_does rfl he).mono fun t hm => ?_
    rw [hm]
    exact ⟨fun _ => ⟨rfl, rfl⟩, fun hn => absurd h (by omega)⟩
  · rw [if_neg h] at he
    refine (monSay_does rfl he).mono fun t hm => ?_
    rw [hm]
    exact ⟨fun hn => absurd hn h, fun _ => ⟨rfl, rfl⟩⟩

theorem monBadLine_does : Does .monBadLine s (fun t => t.monitor.reply = some (false, [1])) :=
  (monSay_does (u := s.lined) rfl (State.monLine_live hd _)).mono fun t hm => by
    rw [hm]
    rfl

/-! ### The channel that the monitor rings -/

omit hd in
theorem Channel.filled_busy (ch : Channel) (ws : List Word) : (ch.filled ws).busy = ch.busy := by unfold Channel.filled; dsimp only

omit hd in
theorem Channel.filled_work (ch : Channel) (ws : List Word) : (ch.filled ws).work = ch.work := by unfold Channel.filled; dsimp only

omit hd in
theorem Channel.filled_req (ch : Channel) (ws : List Word) (k : Fin 64) : (ch.filled ws).req.get k = (ws[k.val]?).getD (ch.req.get k) := by
  unfold Channel.filled
  exact Vector.get_ofFn _ _

theorem monInvoke_busy (c : Fin 16) (ws : List Word) (h : c.val = 15 ∨ (s.chan c).busy = true) :
    Does (.monInvoke c ws) s (fun t => t.monitor.reply = some (false, [5])) := by
  have hheld : c.val = 15 ∨ (s.lined.chan c).busy = true := h
  have he : s.monCall c ws = s.lined.monSay false [5] := by
    unfold State.monCall
    rw [State.monLine_live hd, if_pos hheld]
  exact (monSay_doesAll rfl he).mono fun t ⟨hm, _⟩ => by rw [hm]

/-- The channel that a line fills. -/
def State.lineFills (s : State) (c : Fin 16) (ws : List Word) : State := s.lined.modChan c (fun ch => ch.filled ws)

/-- The same with the channel noted as the one that the monitor rings. -/
def State.lineRings (s : State) (c : Fin 16) (ws : List Word) : State :=
  { s.lineFills c ws with monitor := { s.lined.monitor with rang := some c.val, reply := none } }

omit hd in
theorem State.lineRings_chan (s : State) (c : Fin 16) (ws : List Word) (d : Fin 16) :
    (s.lineRings c ws).chan d = if d = c then (s.chan c).filled ws else s.chan d := by
  have h : (s.lineRings c ws).chan d = (s.lineFills c ws).chan d := rfl
  rw [h]
  unfold State.lineFills
  split
  · next e =>
    subst e
    rw [State.chan_modChan_same]
    rfl
  · next e =>
    rw [State.chan_modChan_ne _ e]
    rfl

omit hd in
/-- A serving channel takes the doorbell that a line rings. -/
theorem State.lineFills_doorReject {s : State} {c : Fin 16} (hs : s.serves c) (ws : List Word) : (s.lineFills c ws).doorReject c = 0 := by
  obtain ⟨hst, hm, hne, hb, hsafe, -⟩ := hs
  have hbusy : ((s.lineFills c ws).chan c).busy = false := by
    unfold State.lineFills
    rw [State.chan_modChan_same, Channel.filled_busy]
    exact hb
  have hblock : (s.lineFills c ws).safeBlock (mboxBlock c.val) = false := hsafe
  have hstage : (s.lineFills c ws).sup.stage = .released := hst
  have hmode : (s.lineFills c ws).keeper.mode = .running := hm
  simp [State.doorReject, hne, hbusy, hblock, hstage, hmode]

theorem State.monCall_free {c : Fin 16} (hc : c.val ≠ 15) (hb : (s.chan c).busy = false) (ws : List Word) : s.monCall c ws =
    if (s.lineFills c ws).doorReject c ≠ 0 then
      ((s.lineFills c ws).draw.2.doorbell c none).monSay false [wd ((Config.refusalCode (s.lineFills c ws).draw.1).val + 1)]
    else (s.lineRings c ws).doorbell c none := by
  have hfree : ¬ (c.val = 15 ∨ (s.lined.chan c).busy = true) := fun h => h.elim hc (by rw [show s.lined.chan c = s.chan c from rfl, hb]; decide)
  unfold State.monCall
  rw [State.monLine_live hd, if_neg hfree]
  rfl

theorem monInvoke_rejected {c : Fin 16} {ws : List Word} (hc : c.val ≠ 15) (hb : (s.chan c).busy = false) (hr : (s.modChan c (fun ch => ch.filled ws)).doorReject c ≠ 0) :
    Does (.monInvoke c ws) s (fun t => ∃ w, t.monitor.reply = some (false, [w]) ∧ t.monitor.rang = s.monitor.rang) := by
  have hreject : (s.lineFills c ws).doorReject c ≠ 0 := hr
  have he := State.monCall_free hd hc hb ws
  rw [if_pos hreject] at he
  refine (monSay_doesAll rfl he).mono fun t ⟨hm, _⟩ => ?_
  have hdraw : (s.lineFills c ws).draw.2.doorReject c ≠ 0 := hreject
  rw [hm, State.doorbell_rejected hdraw]
  exact ⟨_, rfl, rfl⟩

omit hd in
/-- A code outside the command set needs no argument words: it is served as unknown. -/
theorem knownCode_need {ch : Channel} {code : Nat} (h : knownCode code = false) : ch.need code = none := by
  unfold Channel.need
  split <;> first | rfl | exact absurd h (by decide)

omit hd in
/-- A doorbell of a serving channel whose request has a length and a code that is unknown is answered UNKNOWN. -/
theorem State.doorbell_unknown {u : State} {c : Fin 16} (hr : u.doorReject c = 0) (hm : u.keeper.mode = .running) (hc : knownCode (fld ((u.chan c).req.get 0) 0 8) = false)
    (h1 : 1 ≤ (u.chan c).len) (h2 : (u.chan c).len ≤ 16) : u.doorbell c none =
      ((u.modChan c (fun ch => { ch with reject := 0, busy := true, done := false, work := none })).count (mboxBlock c.val) 0 1).answer c stUnknown [] := by
  have hreq : ((((u.modChan c (fun ch => { ch with reject := 0, busy := true, done := false, work := none })).count (mboxBlock c.val) 0 1).chan c)).req = (u.chan c).req := by
    simp
  have hlen : ¬ ((u.chan c).len = 0 ∨ 16 < (u.chan c).len) := by omega
  have hrun : ¬ (u.keeper.mode = .romWait ∧ fld ((u.chan c).req.get 0) 0 8 ≠ 0x01 ∧ fld ((u.chan c).req.get 0) 0 8 ≠ 0xF0 ∧ fld ((u.chan c).req.get 0) 0 8 ≠ 0xF1) := by
    rw [hm]
    exact fun h => nomatch h.1
  unfold State.doorbell
  dsimp only
  rw [if_neg (by rw [hr]; decide)]
  unfold State.serve
  dsimp only
  unfold Channel.len at hlen ⊢
  rw [hreq, if_neg hlen, State.count_keeper, State.modChan_keeper, if_neg hrun, knownCode_need hc]

theorem monInvoke_unknown {c : Fin 16} {w : Word} {ws : List Word} (hs : s.serves c) (hc : knownCode (fld w 0 8) = false)
    (h1 : 1 ≤ fld w 8 8) (h2 : fld w 8 8 ≤ 16) : Does (.monInvoke c (w :: ws)) s (fun t =>
      t.monitor.rang = some c.val ∧ (t.chan c).done = true ∧ ∀ k : Fin 64, k.val ≤ ws.length → (t.chan c).req.get k = (w :: ws).getD k.val 0) := by
  have hreject := State.lineFills_doorReject hs (w :: ws)
  obtain ⟨-, hm, hne, hb, -, hwork⟩ := hs
  have he := State.monCall_free hd hne hb (w :: ws)
  rw [if_neg (by rw [hreject]; decide)] at he
  have hring : (s.lineRings c (w :: ws)).doorReject c = 0 := hreject
  have hmode : (s.lineRings c (w :: ws)).keeper.mode = .running := hm
  have hmonitor : (s.lineRings c (w :: ws)).monitor.rang = some c.val := rfl
  have hchan := s.lineRings_chan c (w :: ws)
  generalize s.lineRings c (w :: ws) = u at he hring hmode hmonitor hchan
  have hfill (k : Fin 64) (hk : k.val ≤ ws.length) : (u.chan c).req.get k = (w :: ws).getD k.val 0 := by
    rw [hchan, if_pos rfl, Channel.filled_req, List.getD_eq_getElem?_getD, List.getElem?_eq_getElem (by simp; omega)]
    rfl
  have hhead : (u.chan c).req.get 0 = w := hfill 0 (Nat.zero_le _)
  have hwaits (d : Fin 16) : (u.chan d).work = none := by
    rw [hchan]
    split
    · rw [Channel.filled_work, hwork]
    · exact hwork d
  rw [State.doorbell_unknown hring hmode (by rw [hhead]; exact hc) (by unfold Channel.len; rw [hhead]; exact h1) (by unfold Channel.len; rw [hhead]; exact h2)] at he
  generalize hv : (u.modChan c (fun ch => { ch with reject := 0, busy := true, done := false, work := none })).count (mboxBlock c.val) 0 1 = v at he
  have hrest (d : Fin 16) : (v.chan d).work = none := by
    rw [← hv, State.count_chan]
    by_cases e : d = c
    · subst e
      rw [State.chan_modChan_same]
    · rw [State.chan_modChan_ne _ e, hwaits]
  have hcells : (v.chan c).req = (u.chan c).req := by
    rw [← hv, State.count_chan, State.chan_modChan_same]
  have hend := followAll_answered (old := s) hrest c stUnknown 0xFFFF []
  rw [← he] at hend
  refine ⟨settle s (State.followAll s (s.monCall c (w :: ws))), rfl, ?_, ?_, fun k hk => ?_⟩
  · rw [settle_monitor, frame_monitor (State.followAll_frame ..), he, State.answer_monitor, ← hv, State.count_monitor, State.modChan_monitor, hmonitor]
  · rw [hend]
    rfl
  · rw [hend, ← hfill k hk, ← hcells, Channel.answered_req]

end

/-! ### The response of the channel rung -/

theorem monInvokeResponse_does {s : State} {c : Fin 16} (hc : c.val ≠ 15) (hr : s.monitor.rang = some c.val) (hd : (s.chan c).done = true) (hw : (s.chan c).work = none) :
    Does (.monInvokeResponse c) s (fun t => t.monitor.rang = none ∧ (t.chan c).done = false
      ∧ t.monitor.reply = some (true, (s.chan c).resp.toList.take (4 * max 1 (fld ((s.chan c).resp.get 0) 8 8)))) := by
  generalize hws : (s.chan c).resp.toList.take (4 * max 1 (fld ((s.chan c).resp.get 0) 8 8)) = ws
  have he : s.monDone c = ({ s with monitor := { s.monitor with reply := some (true, ws), rang := none } } : State).modChan c (fun ch => { ch with done := false }) := by
    unfold State.monDone
    rw [if_pos ⟨hr, hd⟩]
    dsimp only
    unfold State.takeDone
    rw [if_neg hc, hws]
    rfl
  have hchan : (s.monDone c).chan c = { s.chan c with done := false } := by
    rw [he]
    exact State.chan_modChan_same ..
  refine ⟨settle s (s.monDone c), rfl, ?_, ?_, ?_⟩
  · rw [settle_monitor, he]
    rfl
  · rw [settle_chan _ _ _ (by rw [hchan]; intro p r a; simp [hw]), hchan]
  · rw [settle_monitor, he]
    rfl

/-- Settles O32: each line by what it says, the channel that a line rings by its answer, the response by the channel taken. -/
theorem monitorCommands : Obligations.MonitorCommands := by
  unfold Obligations.MonitorCommands
  refine ⟨fun s hd => ⟨fun a => monRead_does hd a, fun a v => monWrite_does hd a v, fun a v ho hc hu hp => monWrite_stores hd v ho hc hu hp,
    fun c ws h => monInvoke_busy hd c ws h, fun c ws hc hb hr => monInvoke_rejected hd hc hb hr,
    fun c w ws hs _ hc h1 h2 => monInvoke_unknown hd hs hc h1 h2, fun on => monTrace_does hd on, fun b => monCounters_does hd b,
    fun code => monBaud_does hd code, monBadLine_does hd⟩, fun s c hc hr hd hw => monInvokeResponse_does hc hr hd hw, fun s hd => ⟨?_, fun on => ?_⟩⟩
  · exact ⟨_, rfl, (settle_monitor ..).trans (congrArg State.monitor (State.monLine_deaf hd _))⟩
  · exact ⟨_, rfl, (settle_monitor ..).trans (congrArg State.monitor (State.monLine_deaf hd _))⟩

end Sys2Proof.Machine
end

section
/-! PROOFS. KEY_LOAD, KEY_ERASE, JOURNAL_COMMIT and JOURNAL_READ (O40): what a command on a channel leaves beside its answer (R383, R385, R386). -/

namespace Sys2Proof.Machine

/-! ### What a command leaves beside channels, counts and the order of the domains -/

/-- The units as a command's effect left them, once the command has closed. -/
structure State.LeftAs (u t : State) : Prop where
  keys : t.keys = u.keys
  basin : t.basin = u.basin
  test : t.test = u.test
  cal : t.cal = u.cal
  keeper : t.keeper = u.keeper
  ring : t.ring = u.ring
  reaches : t.reaches = u.reaches
  port : ∀ p, ∃ l, t.port p = { u.port p with remIn := l }
  journal : ∃ b, t.journal = { u.journal with changed := b }

theorem settle_leftAs (old u : State) : u.LeftAs (settle old u) := by
  obtain ⟨v, w, y, b, d, h, hw, -⟩ := settle_eq old u
  rw [h]
  exact ⟨rfl, rfl, rfl, rfl, rfl, rfl, rfl, hw, b, rfl⟩

/-- An answer changes channels and counts alone. -/
theorem State.answer_eq (u : State) (c : Fin 16) (st : Nat) (ws : List Word) (d : Nat) : ∃ v y, u.answer c st ws d = { u with chans := v, tally := y } := by
  unfold State.answer State.count
  obtain ⟨t1, h1⟩ := State.countCode_eq (u.modChan c (fun ch => ch.answered st d ws)) 1 (0x200 + 0) 1
  rw [h1]
  obtain ⟨t2, h2⟩ := State.countCode_eq ({ (u.modChan c (fun ch => ch.answered st d ws)) with tally := t1 } : State) (mboxBlock c.val) (0x200 + 2) (if st = 0 then 0 else 1)
  rw [h2]
  exact ⟨_, _, rfl⟩

theorem settle_answer_leftAs (old u : State) (c : Fin 16) (st : Nat) (ws : List Word) (d : Nat) : u.LeftAs (settle old (u.answer c st ws d)) := by
  obtain ⟨hkeys, hbasin, htest, hcal, hkeeper, hring, hreaches, hport, hjournal⟩ := settle_leftAs old (u.answer c st ws d)
  exact ⟨hkeys.trans (State.answer_keys ..), hbasin.trans (State.answer_basin ..), htest.trans (State.answer_test ..), hcal.trans (State.answer_cal ..),
    hkeeper.trans (State.answer_keeper ..), hring.trans (State.answer_ring ..), hreaches.trans (State.answer_reaches ..),
    fun p => (State.answer_port u c st ws d p) ▸ hport p, (State.answer_journal u c st ws d) ▸ hjournal⟩

section
variable {s u t : State} {c : Fin 16} {r : Request} {n code : Nat} {sup : Option Supplied} (ht : s.takes c r n) {i : Instr}
  (he : exec i s = s.runs (s.issueCmd c code r sup)) (hc : code < 256) (hn : ((s.rung c code r).chan c).need code = some n)
include ht he hc hn

/-- A command, with what is supplied to it, that ends with its answer. -/
theorem State.takes.replies {st d : Nat} {ws : List Word} (hv : (s.rung c code r).serveCode c code sup = u.answer c st ws d)
    (hu : u.chan c = (s.rung c code r).chan c) (hs : st < 65536) (hd : d < 65536) (hw : ws.length ≤ 60) :
    Does i s (fun t => (t.answered c code r st ∧ ∀ k < ws.length, t.result c k = ws.getD k 0) ∧ u.LeftAs t) := by
  refine ht.does he hc hn ?_
  rw [hv]
  exact ⟨State.gives_of ht.idle hc hs hd hw ((settle_answered ..).trans (by rw [hu])), settle_answer_leftAs ..⟩

/-- A command, with what is supplied to it, that waits on its channel. -/
theorem State.takes.holds {w : LongCmd} (hv : (s.rung c code r).serveCode c code sup = u)
    (hu : u.chan c = { (s.rung c code r).chan c with work := some w }) (hw : ∀ p r a, w ≠ .remote p r a) : Does i s (fun t => t.waitsFor c w ∧ u.LeftAs t) := by
  refine ht.does he hc hn ?_
  rw [hv]
  refine ⟨?_, settle_leftAs ..⟩
  unfold State.waitsFor
  rw [settle_chan _ _ _ (by rw [hu]; exact fun p r a h => hw p r a (Option.some.inj h)), hu]
  exact ⟨s.rung_busy c code r, rfl⟩

end

theorem State.waitFor_chan (s : State) (c : Fin 16) (w : LongCmd) (d : Fin 16) :
    (s.waitFor c w).chan d = if d = c then { s.chan c with work := some w } else s.chan d := by
  split
  · next e =>
    subst e
    exact State.chan_modChan_same ..
  · next e => exact State.chan_modChan_ne _ e _

/-- Where one channel alone waits, it is the one that a search finds. -/
theorem State.waiting_one {s : State} {c : Fin 16} {w : LongCmd} {f : LongCmd → Bool} (hb : (s.chan c).busy = true) (hw : (s.chan c).work = some w)
    (hne : ∀ d ≠ c, (s.chan d).work = none) (hf : f w = true) : s.waiting f = some c := by
  unfold State.waiting
  generalize hp : (fun e : Fin 16 => (s.chan e).busy && (match (s.chan e).work with | some w => f w | none => false)) = p
  have hpc : p c = true := by
    rw [← hp]
    dsimp only
    rw [hb, hw]
    exact hf
  cases h : allChans.find? p with
  | none => exact absurd hpc (List.find?_eq_none.1 h c (List.mem_finRange c))
  | some d =>
    have hpd := List.find?_some h
    by_cases e : d = c
    · rw [e]
    · rw [← hp] at hpd
      dsimp only at hpd
      rw [hne d e, Bool.and_false] at hpd
      cases hpd

/-! ### The key store (R417) -/

section
variable {s : State} {c : Fin 16} {r : Request}

/-- With no command waiting there is no KEY_LOAD to wait behind. -/
theorem State.takes.keyTurns {n : Nat} (ht : s.takes c r n) (code : Nat) : (s.rung c code r).keyTurns = [] := by
  unfold State.keyTurns
  rw [List.filterMap_eq_nil_iff]
  intro d _
  rw [ht.resting]

theorem State.rung_keys (s : State) (c : Fin 16) (code : Nat) (r : Request) : (s.rung c code r).keys = s.keys := by
  obtain ⟨v, y, h⟩ := s.rung_eq c code r
  rw [h]
theorem State.rung_otp (s : State) (c : Fin 16) (code : Nat) (r : Request) : (s.rung c code r).otp = s.otp := by
  obtain ⟨v, y, h⟩ := s.rung_eq c code r
  rw [h]
theorem State.rung_forcedOff (s : State) (c : Fin 16) (code : Nat) (r : Request) (d : Nat) : (s.rung c code r).forcedOff d = s.forcedOff d := by
  obtain ⟨v, y, h⟩ := s.rung_eq c code r
  rw [h]
  rfl
theorem State.rung_keyInUse (s : State) (c : Fin 16) (code : Nat) (r : Request) (i : Nat) : (s.rung c code r).keyInUse i = s.keyInUse i := by
  obtain ⟨v, y, h⟩ := s.rung_eq c code r
  rw [h]
  rfl

end

section
variable {s : State} {c : Fin 16} {r : Request} (ht : s.takes c r 7) (u : Option (BitVec 128))
include ht

theorem keyLoad_serves : (s.rung c 0x60 r).serveCode c 0x60 (some (supKey u)) =
    if s.keys.zeroising.isSome || s.forcedOff 243 then (s.rung c 0x60 r).waitFor c (.keyLoad (fld (argWord r 0) 0 6) u 0)
    else (s.rung c 0x60 r).putKey c (fld (argWord r 0) 0 6) u := by
  show (s.rung c 0x60 r).serveKeyLoad c (some (supKey u)) = _
  unfold State.serveKeyLoad
  dsimp only [State.supply]
  rw [ht.arg, s.rung_keys, s.rung_forcedOff, ht.keyTurns]
  rfl

theorem keyLoad_waits (h : s.keys.zeroising.isSome = true ∨ s.forcedOff 243 = true) :
    Does (.keyLoad c r u) s (fun t => t.waitsFor c (.keyLoad (fld (argWord r 0) 0 6) u 0) ∧ t.keys = s.keys) := by
  have hv := keyLoad_serves ht u
  rw [if_pos (by rw [Bool.or_eq_true]; exact h)] at hv
  exact (ht.holds rfl (by decide) rfl hv ((State.waitFor_chan ..).trans (if_pos rfl)) (fun _ _ _ => nofun)).mono fun t ⟨hw, hl⟩ =>
    ⟨hw, hl.keys.trans (s.rung_keys c 0x60 r)⟩

variable (hz : s.keys.zeroising = none) (hf : s.forcedOff 243 = false)
include hz hf

theorem keyLoad_puts : (s.rung c 0x60 r).serveCode c 0x60 (some (supKey u)) = (s.rung c 0x60 r).putKey c (fld (argWord r 0) 0 6) u := by
  rw [keyLoad_serves ht u, if_neg (by rw [hz, hf]; decide)]

theorem keyLoad_inUse (hi : s.keyInUse (fld (argWord r 0) 0 6) = true) :
    Does (.keyLoad c r u) s (fun t => t.answered c 0x60 r 0x0502 ∧ t.keys = s.keys) := by
  have hv := keyLoad_puts ht u hz hf
  rw [State.putKey, if_pos (by rw [s.rung_keyInUse, hi])] at hv
  exact (ht.replies rfl (by decide) rfl hv rfl (by decide) (by decide) (by decide)).mono fun t ⟨⟨ha, _⟩, hl⟩ => ⟨ha, hl.keys.trans (s.rung_keys c 0x60 r)⟩

theorem keyLoad_fails (hi : s.keyInUse (fld (argWord r 0) 0 6) = false) (hu : s.otp.kek = false ∨ u = none) :
    Does (.keyLoad c r u) s (fun t => t.answered c 0x60 r 0x0501 ∧ t.keys = { s.keys with unwrapFail := satAdd 0xFFFF s.keys.unwrapFail 1 }) := by
  have hv := keyLoad_puts ht u hz hf
  have hnone : (if (s.rung c 0x60 r).otp.kek then u else none) = none := by
    rw [s.rung_otp]
    rcases hu with h | h
    · rw [h]; rfl
    · rw [h]; exact ite_self _
  rw [State.putKey, if_neg (by rw [s.rung_keyInUse, hi]; decide), hnone] at hv
  refine (ht.replies rfl (by decide) rfl hv rfl (by decide) (by decide) (by decide)).mono fun t ⟨⟨ha, _⟩, hl⟩ => ⟨ha, hl.keys.trans ?_⟩
  dsimp only
  rw [s.rung_keys]

theorem keyLoad_loads {v : BitVec 128} (hi : s.keyInUse (fld (argWord r 0) 0 6) = false) (hk : s.otp.kek = true) :
    Does (.keyLoad c r (some v)) s (fun t => t.answered c 0x60 r 0 ∧ t.keys.key? (fld (argWord r 0) 0 6) = some v ∧ t.keys.zeroOk = false
      ∧ ∀ j ≠ fld (argWord r 0) 0 6, t.keys.key? j = s.keys.key? j) := by
  have hv := keyLoad_puts ht (some v) hz hf
  have hsome : (if (s.rung c 0x60 r).otp.kek then some v else none) = some v := by
    rw [s.rung_otp, hk]
    rfl
  rw [State.putKey, if_neg (by rw [s.rung_keyInUse, hi]; decide), hsome] at hv
  refine (ht.replies rfl (by decide) rfl hv rfl (by decide) (by decide) (by decide)).mono fun t ⟨⟨ha, _⟩, hl⟩ => ⟨ha, ?_⟩
  rw [hl.keys]
  dsimp only
  rw [s.rung_keys]
  exact ⟨congrArg (Option.map Prod.snd) (find?_tabIns_same ..), rfl, fun j hj => congrArg (Option.map Prod.snd) (find?_tabIns_ne _ _ _ hj)⟩

end

/-! ### KEY_ERASE (R417) -/

section
variable {s : State} {c : Fin 16} {r : Request} (ht : s.takes c r 1)
include ht

theorem keyErase_badIndex (h1 : 64 ≤ fld (argWord r 0) 0 8) (h2 : fld (argWord r 0) 0 8 < 255) :
    Does (.keyErase c r) s (fun t => t.answered c 0x61 r 4 ∧ t.keys = s.keys) := by
  have hv : (s.rung c 0x61 r).serveCode c 0x61 none = (s.rung c 0x61 r).answer c stBadArg [] 0 := by
    show (s.rung c 0x61 r).serveKeyErase c = _
    unfold State.serveKeyErase
    rw [ht.arg]
    exact if_pos ⟨h1, h2⟩
  exact (ht.replies rfl (by decide) rfl hv rfl (by decide) (by decide) (by decide)).mono fun t ⟨⟨ha, _⟩, hl⟩ => ⟨ha, hl.keys.trans (s.rung_keys c 0x61 r)⟩

theorem keyErase_serves (h : fld (argWord r 0) 0 8 < 64 ∨ fld (argWord r 0) 0 8 = 255) :
    (s.rung c 0x61 r).serveCode c 0x61 none = (s.rung c 0x61 r).eraseKey c (fld (argWord r 0) 0 8) := by
  show (s.rung c 0x61 r).serveKeyErase c = _
  unfold State.serveKeyErase
  rw [ht.arg]
  exact if_neg (by omega)

theorem keyErase_one (h : fld (argWord r 0) 0 8 < 64) : (s.rung c 0x61 r).serveCode c 0x61 none =
    if s.keyInUse (fld (argWord r 0) 0 8) then (s.rung c 0x61 r).answer c 0x0502 []
    else if (s.keys.key? (fld (argWord r 0) 0 8)).isNone then (s.rung c 0x61 r).answer c 0x0503 []
    else ({ s.rung c 0x61 r with keys := { s.keys with keys := tabDel s.keys.keys (fld (argWord r 0) 0 8) } } : State).answer c stOk [] := by
  rw [keyErase_serves ht (.inl h), State.eraseKey, if_neg (by omega), s.rung_keyInUse, s.rung_keys]

theorem keyErase_inUse (h : fld (argWord r 0) 0 8 < 64) (hi : s.keyInUse (fld (argWord r 0) 0 8) = true) :
    Does (.keyErase c r) s (fun t => t.answered c 0x61 r 0x0502 ∧ t.keys = s.keys) := by
  have hv := keyErase_one ht h
  rw [if_pos hi] at hv
  exact (ht.replies rfl (by decide) rfl hv rfl (by decide) (by decide) (by decide)).mono fun t ⟨⟨ha, _⟩, hl⟩ => ⟨ha, hl.keys.trans (s.rung_keys c 0x61 r)⟩

theorem keyErase_empty (h : fld (argWord r 0) 0 8 < 64) (hi : s.keyInUse (fld (argWord r 0) 0 8) = false) (hk : s.keys.key? (fld (argWord r 0) 0 8) = none) :
    Does (.keyErase c r) s (fun t => t.answered c 0x61 r 0x0503 ∧ t.keys = s.keys) := by
  have hv := keyErase_one ht h
  rw [if_neg (by rw [hi]; decide), if_pos (by rw [hk]; rfl)] at hv
  exact (ht.replies rfl (by decide) rfl hv rfl (by decide) (by decide) (by decide)).mono fun t ⟨⟨ha, _⟩, hl⟩ => ⟨ha, hl.keys.trans (s.rung_keys c 0x61 r)⟩

theorem keyErase_erases (h : fld (argWord r 0) 0 8 < 64) (hi : s.keyInUse (fld (argWord r 0) 0 8) = false)
    (hk : (s.keys.key? (fld (argWord r 0) 0 8)).isSome = true) : Does (.keyErase c r) s (fun t => t.answered c 0x61 r 0
      ∧ t.keys.key? (fld (argWord r 0) 0 8) = none ∧ ∀ j ≠ fld (argWord r 0) 0 8, t.keys.key? j = s.keys.key? j) := by
  have hv := keyErase_one ht h
  rw [if_neg (by rw [hi]; decide), if_neg (by rw [Option.isNone_iff_eq_none]; exact fun e => by rw [e] at hk; cases hk)] at hv
  refine (ht.replies rfl (by decide) rfl hv rfl (by decide) (by decide) (by decide)).mono fun t ⟨⟨ha, _⟩, hl⟩ => ⟨ha, ?_⟩
  rw [hl.keys]
  exact ⟨congrArg (Option.map Prod.snd) (find?_tabDel_same ..), fun j hj => congrArg (Option.map Prod.snd) (find?_tabDel_ne _ hj)⟩

theorem keyErase_all (h : fld (argWord r 0) 0 8 = 255) (hi : ∀ j < 64, s.keyInUse j = false) :
    Does (.keyErase c r) s (fun t => t.answered c 0x61 r 0 ∧ t.keys.keys = []) := by
  have hv := keyErase_serves ht (.inr h)
  have hfree : (List.range 64).any (s.rung c 0x61 r).keyInUse = false := by
    rw [List.any_eq_false]
    intro j hj
    rw [s.rung_keyInUse, hi j (List.mem_range.1 hj)]
    decide
  rw [State.eraseKey, if_pos h, hfree, if_neg (by decide)] at hv
  exact (ht.replies rfl (by decide) rfl hv rfl (by decide) (by decide) (by decide)).mono fun t ⟨⟨ha, _⟩, hl⟩ => ⟨ha, by rw [hl.keys]⟩

end

/-! ### The journal (R432 to R434) -/

section
variable {s : State} {c : Fin 16} {r : Request}

theorem State.rung_journal (s : State) (c : Fin 16) (code : Nat) (r : Request) : (s.rung c code r).journal = s.journal := by
  obtain ⟨v, y, h⟩ := s.rung_eq c code r
  rw [h]

/-- What JOURNAL_COMMIT does once it holds its channel. -/
theorem journalCommit_serves (ht : s.takes c r 0) : (s.rung c 0x70 r).serveCode c 0x70 none =
    if s.sup.pfailFrozen then (s.rung c 0x70 r).waitFor c .journalCommit else ((s.rung c 0x70 r).waitFor c .journalCommit).startCommit false := by
  have hchan (d : Fin 16) := (s.rung c 0x70 r).waitFor_chan c .journalCommit d
  have hone : ((s.rung c 0x70 r).waitFor c .journalCommit).waiting isCommit = some c := by
    refine State.waiting_one (w := .journalCommit) ?_ ?_ (fun d hd => ?_) rfl
    · rw [hchan, if_pos rfl]
      exact s.rung_busy c 0x70 r
    · rw [hchan, if_pos rfl]
    · rw [hchan, if_neg hd, ht.resting]
  have hidle : ((s.rung c 0x70 r).waitFor c .journalCommit).journal.writing = none := by
    obtain ⟨-, hw, -⟩ := ht
    exact (congrArg Journal.writing (s.rung_journal c 0x70 r)).trans hw
  have hfrozen : ((s.rung c 0x70 r).waitFor c .journalCommit).sup.pfailFrozen = s.sup.pfailFrozen := by
    obtain ⟨v, y, h⟩ := s.rung_eq c 0x70 r
    rw [h]
    rfl
  show ((s.rung c 0x70 r).waitFor c .journalCommit).nextCommit = _
  unfold State.nextCommit
  rw [hone, hidle, hfrozen]
  cases s.sup.pfailFrozen <;> rfl

theorem journalCommit_frozen (ht : s.takes c r 0) (h : s.sup.pfailFrozen = true) :
    Does (.journalCommit c r) s (fun t => t.waitsFor c .journalCommit ∧ t.journal.writing = none) := by
  have hv := journalCommit_serves ht
  rw [if_pos h] at hv
  refine (ht.holds rfl (by decide) rfl hv ((State.waitFor_chan ..).trans (if_pos rfl)) (fun _ _ _ => nofun)).mono fun t ⟨hw, hl⟩ => ⟨hw, ?_⟩
  obtain ⟨b, hj⟩ := hl.journal
  obtain ⟨-, hwr, -⟩ := ht
  rw [hj]
  exact (congrArg Journal.writing (s.rung_journal c 0x70 r)).trans hwr

theorem journalCommit_starts (ht : s.takes c r 0) {y : Bool} {q : Word} (h : s.sup.pfailFrozen = false) (hj : s.journal.taken = some (y, q)) :
    Does (.journalCommit c r) s (fun t => t.waitsFor c .journalCommit ∧ t.journal.writing = some false ∧ t.journal.target = (!y, q + 1)
      ∧ t.journal.body = s.journalBody ∧ t.journal.taken = some (y, q)) := by
  have hv := journalCommit_serves ht
  rw [if_neg (by rw [h]; decide)] at hv
  generalize hu : (s.rung c 0x70 r).waitFor c .journalCommit = u at hv
  have hchan : u.chan c = { (s.rung c 0x70 r).chan c with work := some .journalCommit } := by
    rw [← hu]
    exact (State.waitFor_chan ..).trans (if_pos rfl)
  have htaken : u.journal.taken = some (y, q) := by
    rw [← hu, ← hj]
    exact congrArg Journal.taken (s.rung_journal c 0x70 r)
  have hbody : u.journalBody = s.journalBody := by
    rw [← hu]
    obtain ⟨v, t, h⟩ := s.rung_eq c 0x70 r
    rw [h]
    rfl
  have htarget : u.journalTarget = ((!y, q + 1), u) := by
    unfold State.journalTarget
    rw [htaken]
  unfold State.startCommit at hv
  rw [htarget] at hv
  refine (ht.holds rfl (by decide) rfl hv hchan (fun _ _ _ => nofun)).mono fun t ⟨hw, hl⟩ => ⟨hw, ?_⟩
  obtain ⟨b, hjournal⟩ := hl.journal
  rw [hjournal]
  exact ⟨rfl, rfl, hbody, htaken⟩

theorem journalRead_none {l : List Byte} (ht : s.takes c r 2) (hj : s.journal.taken = none) :
    Does (.journalRead c r l) s (fun t => t.answered c 0x71 r 0x0602) := by
  have hv : (s.rung c 0x71 r).serveCode c 0x71 (some (supSection l)) = (s.rung c 0x71 r).answer c 0x0602 [] := by
    show (s.rung c 0x71 r).serveJournalRead c (some (supSection l)) = _
    unfold State.serveJournalRead
    rw [s.rung_journal, hj]
  exact (ht.replies rfl (by decide) rfl hv rfl (by decide) (by decide) (by decide)).mono fun t ⟨⟨ha, _⟩, _⟩ => ha

theorem dataWords_length (bs : List Byte) : (dataWords bs).length = ceilDiv bs.length 4 := by
  simp [dataWords]

theorem journalRead_reads {l : List Byte} (ht : s.takes c r 2) {y : Bool} {q : Word} (hj : s.journal.taken = some (y, q)) :
    Does (.journalRead c r l) s (fun t => t.gives c 0x71 r
      (wd (min 224 (l.length - (argWord r 1).toNat)) :: q :: dataWords ((l.drop (argWord r 1).toNat).take 224))) := by
  have hlen : ((l.drop (argWord r 1).toNat).take 224).length = min 224 (l.length - (argWord r 1).toNat) := by
    rw [List.length_take, List.length_drop]
  have hv : (s.rung c 0x71 r).serveCode c 0x71 (some (supSection l)) = (s.rung c 0x71 r).answer c stOk
      (wd (min 224 (l.length - (argWord r 1).toNat)) :: q :: dataWords ((l.drop (argWord r 1).toNat).take 224)) := by
    show (s.rung c 0x71 r).serveJournalRead c (some (supSection l)) = _
    unfold State.serveJournalRead
    rw [s.rung_journal, hj]
    dsimp only [State.supply]
    rw [ht.arg, ← hlen]
    rfl
  refine (ht.replies rfl (by decide) rfl hv rfl (by decide) (by decide) ?_).mono fun t ⟨ha, _⟩ => ha
  rw [List.length_cons, List.length_cons, dataWords_length, hlen]
  unfold ceilDiv
  omega

end

end Sys2Proof.Machine
end

section
/-! PROOFS. BIST_RUN (O40): a march, a port test, a loopback and logic BIST started by a command (R410 to R415). -/

namespace Sys2Proof.Machine

/-! ### The state in which BIST_RUN is served -/

/-- Rung, and block 0x05 taken. -/
def State.bister (s : State) (c : Fin 16) (r : Request) : State := (s.rung c 0x80 r).own [5]

section
variable {s : State} {c : Fin 16} {r : Request}

theorem State.bister_eq (s : State) (c : Fin 16) (r : Request) : ∃ v y k, s.bister c r = { s with chans := v, tally := y, keeper := k } := s.rung_own c 0x80 r [5]

theorem State.bister_chan (s : State) (c : Fin 16) (r : Request) (d : Fin 16) : (s.bister c r).chan d = (s.rung c 0x80 r).chan d :=
  congrArg (fun v => v.get d) (State.own_chans ..)

theorem State.bister_owns (s : State) (c : Fin 16) (r : Request) : (s.bister c r).keeper.owns 5 = true :=
  (State.own_owns _ (by decide) 5).2 (.inr List.mem_cons_self)

theorem State.bister_port (s : State) (c : Fin 16) (r : Request) (p : Fin 16) : (s.bister c r).port p = s.port p := by
  obtain ⟨v, y, k, h⟩ := s.bister_eq c r
  rw [h]
  rfl

theorem State.takes.holding {n : Nat} (ht : s.takes c r n) (code : Nat) (f : LongCmd → Bool) : (s.rung c code r).holding f = false := by
  unfold State.holding
  rw [State.waiting_none (ht.resting code)]
  rfl

theorem State.own_mode (u : State) (l : List Nat) : (u.own l).keeper.mode = u.keeper.mode := by
  unfold State.own
  refine foldl_keep (fun t => t.keeper.mode) _ _ _ fun t b => ?_
  unfold State.ownOne Keeper.mark
  split
  · rfl
  · split <;> rfl

/-! ### A march (R411) -/

theorem State.bister_arg {n : Nat} (ht : s.takes c r n) (k : Nat) : (s.bister c r).arg c k = argWord r k := by
  rw [← ht.arg 0x80 k]
  unfold State.arg
  rw [s.bister_chan]

theorem State.bister_bank (s : State) (c : Fin 16) (r : Request) (b : Fin 68) : (s.bister c r).bank b = s.bank b := by
  obtain ⟨v, y, k, h⟩ := s.bister_eq c r
  rw [h]
  rfl

theorem State.bister_mayRotate (s : State) (c : Fin 16) (r : Request) : (s.bister c r).mayRotate = s.mayRotate := by
  obtain ⟨v, y, k, h⟩ := s.bister_eq c r
  rw [h]
  rfl

section
variable (ht : s.takes c r 2) (hk : fld (argWord r 0) 0 4 = 0)
include ht hk

theorem march_serves : (s.rung c 0x80 r).serveCode c 0x80 none = (s.bister c r).serveMarch c := by
  show (s.rung c 0x80 r).serveBist c none = _
  unfold State.serveBist
  rw [ht.arg, hk]
  rfl

theorem march_badBank (h : 68 ≤ (argWord r 1).toNat) : Does (.bistRunMarch c r) s (fun t => t.answered c 0x80 r 4 ∧ t.test = s.test) := by
  have hv := march_serves ht hk
  rw [State.serveMarch, State.bister_arg ht, dif_neg (by omega)] at hv
  have htest : (s.bister c r).test = s.test := by
    obtain ⟨v, y, k, h⟩ := s.bister_eq c r
    rw [h]
  exact (ht.replies rfl (by decide) rfl hv (s.bister_chan c r c) (by decide) (by decide) (by decide)).mono fun t ⟨⟨ha, _⟩, hl⟩ =>
    ⟨ha, hl.test.trans htest⟩

theorem march_refused {b : Fin 68} (hb : b.val = (argWord r 1).toNat) (h : s.mayRotate = false ∨ ∀ l, s.bank b ≠ .inService l) :
    Does (.bistRunMarch c r) s (fun t => t.answered c 0x80 r 5 ∧ t.basin = s.basin) := by
  have hv : (s.rung c 0x80 r).serveCode c 0x80 none = (s.bister c r).answer c stObjBusy [] 0 := by
    rw [march_serves ht hk, State.serveMarch, State.bister_arg ht, dif_pos (by omega), show (⟨(argWord r 1).toNat, _⟩ : Fin 68) = b from Fin.ext hb.symm]
    dsimp only
    rw [s.bister_bank, s.bister_mayRotate]
    split
    · next l hbank hmay =>
      rcases h with h | h
      · rw [h] at hmay; cases hmay
      · exact absurd hbank (h l)
    · rfl
  have hbasin : (s.bister c r).basin = s.basin := by
    obtain ⟨v, y, k, h⟩ := s.bister_eq c r
    rw [h]
  exact (ht.replies rfl (by decide) rfl hv (s.bister_chan c r c) (by decide) (by decide) (by decide)).mono fun t ⟨⟨ha, _⟩, hl⟩ =>
    ⟨ha, hl.basin.trans hbasin⟩

theorem march_starts {b tg : Fin 68} {l : Nat} (hb : b.val = (argWord r 1).toNat) (hbank : s.bank b = .inService l) (hmay : s.mayRotate = true)
    (hspare : s.lowestSpare = some tg) : Does (.bistRunMarch c r) s (fun t => t.waitsFor c .bistMarch ∧ t.keeper.owns 5 = true ∧ t.bank b = .copying tg.val l
      ∧ t.bank tg = .receiving l ∧ t.test.bank = some (argWord r 1).toNat ∧ t.test.marchChan = some c.val) := by
  generalize hu : (s.bister c r).waitFor c .bistMarch = u
  have hchan : u.chan c = { (s.rung c 0x80 r).chan c with work := some .bistMarch } := by
    rw [← hu, State.waitFor_chan, if_pos rfl, s.bister_chan]
  have howns : u.keeper.owns 5 = true := by
    rw [← hu]
    exact s.bister_owns c r
  have hub : u.bank b = .inService l := by
    rw [← hu, ← hbank]
    exact s.bister_bank c r b
  have hut : u.lowestSpare = some tg := by
    rw [← hu, ← hspare]
    obtain ⟨v, y, k, h⟩ := s.bister_eq c r
    rw [h]
    rfl
  have hne : b ≠ tg := by
    rintro rfl
    have hsp := List.find?_some hspare
    rw [hbank] at hsp
    cases hsp
  have hv : (s.rung c 0x80 r).serveCode c 0x80 none = u.rotate b (some c) := by
    rw [march_serves ht hk, State.serveMarch, State.bister_arg ht, dif_pos (by omega), show (⟨(argWord r 1).toNat, _⟩ : Fin 68) = b from Fin.ext hb.symm]
    dsimp only
    rw [s.bister_bank, s.bister_mayRotate, hbank, hmay, ← hu]
  unfold State.rotate at hv
  rw [hub, hut] at hv
  refine (ht.holds rfl (by decide) rfl hv hchan (fun _ _ _ => nofun)).mono fun t ⟨hw, hl⟩ => ⟨hw, ?_, ?_, ?_, ?_, ?_⟩
  · rw [hl.keeper]
    exact howns
  · unfold State.bank
    rw [hl.basin]
    exact (State.bank_setBank_ne _ hne _).trans (State.bank_setBank_same ..)
  · unfold State.bank
    rw [hl.basin]
    exact State.bank_setBank_same ..
  · rw [hl.test, ← hb]
  · rw [hl.test]

end

/-! ### A loopback (R413) -/

section
variable (ht : s.takes c r 2) (hk : fld (argWord r 0) 0 4 = 2) {p : Fin 16} (hp : p.val = (argWord r 1).toNat)
include ht hk hp

theorem loopback_serves : (s.rung c 0x80 r).serveCode c 0x80 none =
    if s.loopOk p then ((s.bister c r).waitFor c (.bistLoopback p.val)).startLoop p else (s.bister c r).answer c stObjBusy [] 0 := by
  have hloop : (s.rung c 0x80 r).loopOk p = s.loopOk p := by
    obtain ⟨v, y, h⟩ := s.rung_eq c 0x80 r
    rw [h]
    rfl
  show (s.rung c 0x80 r).serveBist c none = _
  unfold State.serveBist
  rw [ht.arg, ht.arg, hk, ← hp]
  refine (if_neg (show ¬ 16 ≤ p.val by omega)).trans ?_
  rw [portNo_val, ht.holding, if_neg (by decide), hloop]
  rfl

theorem loopback_starts (h : s.loopOk p = true) : Does (.bistRunLoopback c r) s (fun t => t.waitsFor c (.bistLoopback p.val) ∧ (t.port p).test.loop = true) := by
  have hv := loopback_serves ht hk hp
  rw [if_pos h] at hv
  generalize hu : (s.bister c r).waitFor c (.bistLoopback p.val) = u at hv
  have hchan : u.chan c = { (s.rung c 0x80 r).chan c with work := some (.bistLoopback p.val) } := by
    rw [← hu, State.waitFor_chan, if_pos rfl, s.bister_chan]
  have hloop : u.loopOk p = true := by
    rw [← hu, ← h]
    obtain ⟨v, y, k, h⟩ := s.bister_eq c r
    rw [h]
    rfl
  rw [State.startLoop, if_pos hloop] at hv
  refine (ht.holds rfl (by decide) rfl hv hchan (fun _ _ _ => nofun)).mono fun t ⟨hw, hl⟩ => ⟨hw, ?_⟩
  obtain ⟨l, hport⟩ := hl.port p
  rw [hport, State.modTest, State.port_modPort_same]

theorem loopback_refused (h : s.loopOk p = false) :
    Does (.bistRunLoopback c r) s (fun t => t.answered c 0x80 r 5 ∧ ∀ q, (t.port q).test = (s.port q).test) := by
  have hv := loopback_serves ht hk hp
  rw [if_neg (by rw [h]; decide)] at hv
  refine (ht.replies rfl (by decide) rfl hv (s.bister_chan c r c) (by decide) (by decide) (by decide)).mono fun t ⟨⟨ha, _⟩, hl⟩ => ⟨ha, fun q => ?_⟩
  obtain ⟨l, hport⟩ := hl.port q
  rw [hport, s.bister_port]

end

/-! ### Logic BIST (R413, R415, R417) -/

theorem State.zeroDone_keepsChans (u : State) (ok : Bool) (n : Nat) (cy : Bool) : keepsChans u (u.zeroDone ok n cy) := by
  have hraise (t : State) : keepsChans t t.dropKeyed.waitingKeys := by
    refine ⟨fun h => ?_⟩
    have hdrop : t.dropKeyed.chans = t.chans := side_chans t.dropKeyed_side
    rw [State.waitingKeys_none fun c => (congrArg (fun v => (v.get c).work) hdrop).trans (h c), hdrop]
  unfold State.zeroDone
  dsimp only
  refine keepsChans_after (hraise _) ?_
  split <;> simp

theorem State.startLbist_keepsChans (u : State) (ok : Bool) : keepsChans u (u.startLbist ok) := by
  have hzero : keepsChans u (u.zeroise 3 ok) := by
    unfold State.zeroise
    dsimp only
    exact keepsChans_ite (keepsChans_refl u) (keepsChans_ite (keepsChans_after (State.zeroDone_keepsChans _ true 3 false) rfl) (keepsChans_of rfl))
  have hhold (t : State) : t.lbistHold.chans = t.chans := ite_keep State.chans rfl rfl
  unfold State.startLbist
  dsimp only
  exact keepsChans_ite (keepsChans_ite hzero (keepsChans_same hzero (hhold _))) (keepsChans_refl u)

/-- A command, with what is supplied to it, that may change every port's link. -/
theorem State.takes.doesAll {n code : Nat} {i : Instr} {sup : Option Supplied} {P : State → Prop} (ht : s.takes c r n) (he : exec i s = s.runsAll (s.issueCmd c code r sup))
    (hc : code < 256) (hn : ((s.rung c code r).chan c).need code = some n) (h : P (settle s (State.followAll s ((s.rung c code r).serveCode c code sup)))) : Does i s P := by
  obtain ⟨hs, hj, hr, hl⟩ := ht
  have hclk : s.clocked = true := by
    obtain ⟨hst, -⟩ := hs
    exact State.clocked_released hst
  refine ⟨_, by rw [he, State.runsAll_eq hclk], ?_⟩
  rw [State.issueCmd_serves hs hj code r hr sup hc n hn hl]
  exact h

theorem State.takes.bister_resting {n : Nat} (ht : s.takes c r n) (d : Fin 16) : ((s.bister c r).chan d).work = none := by
  rw [s.bister_chan, ht.resting]

section
variable (ht : s.takes c r 2) (hk : fld (argWord r 0) 0 4 = 3) (ok : Bool)
include ht hk

theorem lbist_serves : (s.rung c 0x80 r).serveCode c 0x80 (some (supZero ok)) =
    if s.lbistOk then ((s.bister c r).bistAnswer c 3 false 0).startLbist ok else (s.bister c r).answer c stObjBusy [] 0 := by
  have hl : (s.rung c 0x80 r).lbistOk = s.lbistOk := by
    obtain ⟨v, y, h⟩ := s.rung_eq c 0x80 r
    rw [h]
    rfl
  show (s.rung c 0x80 r).serveBist c (some (supZero ok)) = _
  unfold State.serveBist
  rw [ht.arg, hk]
  dsimp only
  rw [hl]
  rfl

theorem lbist_refused (h : s.lbistOk = false) : Does (.bistRunLbist c r ok) s (fun t => t.answered c 0x80 r 5 ∧ t.keys = s.keys ∧ t.keeper.mode = .running) := by
  have hv := lbist_serves ht hk ok
  rw [if_neg (by rw [h]; decide)] at hv
  refine ht.doesAll rfl (by decide) rfl ?_
  rw [hv]
  refine ⟨State.answered_of (st := stObjBusy) (d := 0) ht.idle (by decide) (by decide) (by decide) ?_, ?_, ?_⟩
  · rw [followAll_answered ht.bister_resting, s.bister_chan]
  · obtain ⟨v, y, k, hb⟩ := s.bister_eq c r
    rw [settle_keys, held_keys (State.followAll_held ..), State.answer_keys, hb]
  · rw [settle_keeper, far_keeper (State.followAll_far ..), State.answer_keeper, ← ht.running, ← s.rung_keeper c 0x80 r]
    exact State.own_mode _ _

/-- Logic BIST answered and started: its answer, the emptied key store, and the keeper. -/
theorem lbist_starts (h : s.lbistOk = true) (hz : s.keys.zeroising = none) : Does (.bistRunLbist c r ok) s (fun t => t.gives c 0x80 r [3, 0]
    ∧ t.keys = { s.keys.emptied 3 with zeroising := if ok then none else some 3, zeroOk := ok } ∧ t.keeper.mode = if ok then .lbist else .running) := by
  have hv := lbist_serves ht hk ok
  rw [if_pos h] at hv
  generalize hu : (s.bister c r).bistAnswer c 3 false 0 = u at hv
  have hchan : u.chan c = ((s.rung c 0x80 r).chan c).answered stOk 0xFFFF [3, 0] := by
    rw [← hu, ← s.bister_chan]
    exact State.answer_chan_same ..
  have hrest (d : Fin 16) : (u.chan d).work = none := by
    by_cases e : d = c
    · rw [e, hchan]
      rfl
    · rw [← hu]
      exact (congrArg Channel.work (State.answer_chan_ne _ e _ _ _)).trans (ht.bister_resting d)
  have hkeys : u.keys = s.keys := by
    obtain ⟨v, y, k, hb⟩ := s.bister_eq c r
    rw [← hu, State.bistAnswer, State.answer_keys, hb]
  have hmode : u.keeper.mode = .running := by
    rw [← hu, State.bistAnswer, State.answer_keeper, ← ht.running, ← s.rung_keeper c 0x80 r]
    exact State.own_mode _ _
  have hlbist : u.lbistOk = true := by
    rw [← h, ← hu]
    obtain ⟨v, y, k, hb⟩ := s.bister_eq c r
    obtain ⟨v2, y2, ha⟩ := (s.bister c r).answer_eq c stOk [wd 3, 0] 0xFFFF
    show ((s.bister c r).answer c stOk [wd 3, 0] 0xFFFF).lbistOk = s.lbistOk
    rw [ha, hb]
    rfl
  obtain ⟨hk1, hk2⟩ := State.startLbist_runs ok (by rw [hkeys]; exact hz) hrest hlbist
  have hchans := (u.startLbist_keepsChans ok).chans hrest
  have hrest2 (d : Fin 16) : ((u.startLbist ok).chan d).work = none := (congrArg (fun v => (v.get d).work) hchans).trans (hrest d)
  refine ht.doesAll rfl (by decide) rfl ?_
  rw [hv]
  refine ⟨State.gives_of (st := stOk) (d := 0xFFFF) ht.idle (by decide) (by decide) (by decide) (by decide) ?_, ?_, ?_⟩
  · rw [followAll_resting hrest2]
    exact (congrArg (fun v => v.get c) hchans).trans hchan
  · rw [settle_keys, held_keys (State.followAll_held ..), hk1, hkeys]
  · rw [settle_keeper, far_keeper (State.followAll_far ..), hk2, hmode]

end

/-! ### A port test (R412) -/

/-- Whether an element is marked faulty. -/
def PortTest.marked (x : PortTest) (e : Element) : Bool := if e.cell then x.badCells.getLsbD e.index else x.badSlices.getLsbD e.index

/-- The elements that a test knows. -/
def knownElement (e : Element) : Prop := if e.cell then e.index < 72 else e.index < 34

theorem elementOf_known {i : Nat} (h : i < 106) : knownElement (elementOf i) := by
  unfold elementOf knownElement
  split
  · simpa
  · show i - 34 < 72
    omega

/-- A test record with one more element marked. -/
def PortTest.mark (x : PortTest) (e : Element) : PortTest :=
  let u := { x with
    badSlices := if e.cell then x.badSlices else setBit x.badSlices e.index true
    badCells := if e.cell then setBit x.badCells e.index true else x.badCells
    firstBad := x.firstBad.or (some e) }
  { u with fault := u.short }

theorem PortTest.mark_marked (x : PortTest) {e : Element} (he : knownElement e) : (x.mark e).marked e = true := by
  unfold PortTest.mark PortTest.marked
  unfold knownElement at he
  cases hc : e.cell with
  | false =>
    rw [hc] at he
    simp [setBit_bit _ _ _ _ (show e.index < 34 from he)]
  | true =>
    rw [hc] at he
    simp [setBit_bit _ _ _ _ (show e.index < 72 from he)]

/-- A bit that is set stays set when another is set. -/
theorem setBit_keeps {n : Nat} (m : BitVec n) (i d : Nat) (h : m.getLsbD d = true) : (setBit m i true).getLsbD d = true := by
  unfold setBit
  rw [if_pos rfl, BitVec.getLsbD_or, h, Bool.true_or]

theorem PortTest.mark_keeps (x : PortTest) (d e : Element) (h : x.marked e = true) : (x.mark d).marked e = true := by
  unfold PortTest.mark PortTest.marked at *
  dsimp only
  split
  · next hc =>
    rw [if_pos hc] at h
    split
    · exact setBit_keeps _ _ _ h
    · exact h
  · next hc =>
    rw [if_neg hc] at h
    split
    · exact h
    · exact setBit_keeps _ _ _ h

theorem State.markElement_test (s : State) (p : Fin 16) (e : Element) : ((s.markElement p e).port p).test = (s.port p).test.mark e := by
  unfold State.markElement
  rw [State.count_port, State.raise_port, State.modTest, State.port_modPort_same]
  rfl

/-- One item tested. -/
theorem State.testItems_succ (s : State) (p : Fin 16) (n : Nat) (f : List Element) : s.testItems p 0 (n + 1) f =
    if f.contains (elementOf n) then (s.testItems p 0 n f).markElement p (elementOf n) else (s.testItems p 0 n f).count 5 1 1 := by
  unfold State.testItems
  rw [Nat.sub_zero, Nat.sub_zero, List.range_succ, List.foldl_append, List.foldl_cons, List.foldl_nil, Nat.zero_add]

theorem State.testItems_chans (s : State) (p : Fin 16) (n : Nat) (f : List Element) : (s.testItems p 0 n f).chans = s.chans := by
  induction n with
  | zero => rfl
  | succ n ih =>
    rw [State.testItems_succ]
    split
    · unfold State.markElement
      rw [State.count_chans, State.raise_chans, State.modTest_chans, ih]
    · rw [State.count_chans, ih]

/-- Items none of which fails leave the test record. -/
theorem State.testItems_pass (s : State) (p : Fin 16) (f : List Element) {n : Nat} (h : ∀ i < n, elementOf i ∉ f) :
    ((s.testItems p 0 n f).port p).test = (s.port p).test := by
  induction n with
  | zero => rfl
  | succ n ih =>
    rw [State.testItems_succ, if_neg (by rw [List.contains_iff_mem]; exact h n (by omega)), State.count_port]
    exact ih fun i hi => h i (by omega)

/-- The first item that fails is noted, and marked faulty. -/
theorem State.testItems_fail (s : State) (p : Fin 16) (f : List Element) {i n : Nat} (hi : i < n) (hk : i < 106) (hf : elementOf i ∈ f) (hfirst : ∀ j < i, elementOf j ∉ f)
    (hnone : (s.port p).test.firstBad = none) : ((s.testItems p 0 n f).port p).test.firstBad = some (elementOf i)
      ∧ ((s.testItems p 0 n f).port p).test.marked (elementOf i) = true := by
  induction n with
  | zero => omega
  | succ n ih =>
    rw [State.testItems_succ]
    obtain rfl | hlt : i = n ∨ i < n := by omega
    · rw [if_pos (List.contains_iff_mem.2 hf), State.markElement_test, s.testItems_pass p f hfirst]
      refine ⟨?_, PortTest.mark_marked _ (elementOf_known hk)⟩
      unfold PortTest.mark
      dsimp only
      rw [hnone]
      rfl
    · obtain ⟨h1, h2⟩ := ih hlt
      split
      · rw [State.markElement_test]
        refine ⟨?_, PortTest.mark_keeps _ _ _ h2⟩
        unfold PortTest.mark
        dsimp only
        rw [h1]
        rfl
      · rw [State.count_port]
        exact ⟨h1, h2⟩

/-- A port whose 106 items have been tested. -/
def State.tested (s : State) (p : Fin 16) (f : List Element) : State :=
  (((s.testItems p 0 106 f).count 5 0 1).modTest p (fun t => { t with item := 106 })).modTest p (fun t => { t with running := false, item := 0 })

theorem State.tested_test (s : State) (p : Fin 16) (f : List Element) :
    ((s.tested p f).port p).test = { ((s.testItems p 0 106 f).port p).test with running := false, item := 0 } := by
  unfold State.tested
  rw [State.modTest, State.port_modPort_same, State.modTest, State.port_modPort_same, State.count_port]

theorem State.tested_chans (s : State) (p : Fin 16) (f : List Element) : (s.tested p f).chans = s.chans := by
  unfold State.tested
  rw [State.modTest_chans, State.modTest_chans, State.count_chans, State.testItems_chans]

/-- A whole test at once answers the command that waits for it. -/
theorem State.testRun_all {s : State} {p c : Fin 16} (f : List Element) (hi : (s.port p).test.item = 0) (hw : (s.tested p f).waiting (isPortTest p) = some c) :
    s.testRun p 106 f = (s.tested p f).bistAnswer c 1 (((s.testItems p 0 106 f).port p).test.firstBad).isSome (elementWord (((s.testItems p 0 106 f).port p).test.firstBad)) := by
  have hbad : (((((s.testItems p 0 106 f).count 5 0 1).modTest p (fun t => { t with item := 106 }))).port p).test.firstBad = ((s.testItems p 0 106 f).port p).test.firstBad := by
    rw [State.modTest, State.port_modPort_same, State.count_port]
  unfold State.tested at hw ⊢
  unfold State.testRun
  dsimp only
  rw [hi, if_neg (by decide), hbad, hw]

/-- The port test of a command, begun. -/
def State.testBegun (s : State) (c : Fin 16) (r : Request) (p : Fin 16) : State :=
  ((s.bister c r).waitFor c (.bistPortTest p.val)).modTest p (fun t => { t with running := true, item := 0, firstBad := none })

section
variable (s : State) (c : Fin 16) (r : Request) (p : Fin 16)

theorem State.testBegun_chan (d : Fin 16) : (s.testBegun c r p).chan d =
    if d = c then { (s.rung c 0x80 r).chan c with work := some (.bistPortTest p.val) } else (s.rung c 0x80 r).chan d := by
  have h : (s.testBegun c r p).chan d = ((s.bister c r).waitFor c (.bistPortTest p.val)).chan d := congrArg (fun v => v.get d) (State.modTest_chans ..)
  rw [h, State.waitFor_chan, s.bister_chan, s.bister_chan]

theorem State.testBegun_test : ((s.testBegun c r p).port p).test = { (s.port p).test with running := true, item := 0, firstBad := none } := by
  unfold State.testBegun
  rw [State.modTest, State.port_modPort_same]
  have h : ((s.bister c r).waitFor c (.bistPortTest p.val)).port p = s.port p := s.bister_port c r p
  rw [h]

end

section
variable (ht : s.takes c r 2) (hk : fld (argWord r 0) 0 4 = 1) (f : List Element)
include ht hk

theorem portTest_badPort (h : 16 ≤ (argWord r 1).toNat) :
    Does (.bistRunPortTest c r f) s (fun t => t.answered c 0x80 r 4 ∧ ∀ q, (t.port q).test = (s.port q).test) := by
  have hv : (s.rung c 0x80 r).serveCode c 0x80 (some (supFailing f)) = (s.bister c r).answer c stBadArg [] 1 := by
    show (s.rung c 0x80 r).serveBist c (some (supFailing f)) = _
    unfold State.serveBist
    rw [ht.arg, ht.arg, hk]
    exact if_pos h
  refine (ht.replies rfl (by decide) rfl hv (s.bister_chan c r c) (by decide) (by decide) (by decide)).mono fun t ⟨⟨ha, _⟩, hl⟩ => ⟨ha, fun q => ?_⟩
  obtain ⟨l, hport⟩ := hl.port q
  rw [hport, s.bister_port]

variable {p : Fin 16} (hp : p.val = (argWord r 1).toNat) (hrun : (s.port p).test.running = false)
include hp hrun

theorem portTest_serves : (s.rung c 0x80 r).serveCode c 0x80 (some (supFailing f)) = (s.testBegun c r p).testNext p f := by
  have hidle : (((s.bister c r).waitFor c (.bistPortTest p.val)).port p).test.running = false :=
    (congrArg (fun x : Port => x.test.running) (s.bister_port c r p)).trans hrun
  show (s.rung c 0x80 r).serveBist c (some (supFailing f)) = _
  unfold State.serveBist
  rw [ht.arg, ht.arg, hk, ← hp]
  dsimp only
  rw [portNo_val, if_neg (by omega), ht.holding, if_neg (by decide)]
  exact if_neg (ne_true_of_eq_false hidle)

theorem portTest_held (hheld : s.testHeld = true) : Does (.bistRunPortTest c r f) s (fun t =>
    t.waitsFor c (.bistPortTest p.val) ∧ (t.port p).test.running = true ∧ (t.port p).test.item = 0) := by
  have hv := portTest_serves ht hk f hp hrun
  have htest := s.testBegun_test c r p
  have hheld2 : (s.testBegun c r p).testHeld = true := by
    rw [← hheld]
    unfold State.testBegun
    obtain ⟨v, y, k, h⟩ := s.bister_eq c r
    rw [h]
    rfl
  rw [State.testNext, if_neg (by rw [htest]; simp), if_pos hheld2] at hv
  refine (ht.holds rfl (by decide) rfl hv ((s.testBegun_chan c r p c).trans (if_pos rfl)) (fun _ _ _ => nofun)).mono fun t ⟨hw, hl⟩ => ⟨hw, ?_⟩
  obtain ⟨l, hport⟩ := hl.port p
  have hslot : ((s.testBegun c r p).slotWaits p true true).port p = (s.testBegun c r p).port p := rfl
  rw [hport, hslot, htest]
  exact ⟨rfl, rfl⟩

/-- With no slices withheld and no cadence to keep clear of, the whole test runs at once: `x` is the test record after its items. -/
theorem portTest_runs (hfree : s.testHeld = false) (hgov : s.governor p = none) : Does (.bistRunPortTest c r f) s (fun t => ∃ x : PortTest,
    (t.answered c 0x80 r (if x.firstBad.isSome then 0x0704 else 0) ∧ ∀ k < 2, t.result c k = [wd (1 + if x.firstBad.isSome then 256 else 0), elementWord x.firstBad].getD k 0)
    ∧ (t.port p).test = { x with running := false, item := 0 }
    ∧ ((∀ i < 106, elementOf i ∉ f) → x = { (s.port p).test with running := true, item := 0, firstBad := none })
    ∧ (∀ i < 106, elementOf i ∈ f → (∀ j < i, elementOf j ∉ f) → x.firstBad = some (elementOf i) ∧ x.marked (elementOf i) = true)) := by
  have hv := portTest_serves ht hk f hp hrun
  have htest := s.testBegun_test c r p
  have hfree2 : (s.testBegun c r p).testHeld = false ∧ (s.testBegun c r p).governor p = none := by
    rw [← hfree, ← hgov]
    unfold State.testBegun
    obtain ⟨v, y, k, h⟩ := s.bister_eq c r
    rw [h]
    exact ⟨rfl, rfl⟩
  rw [State.testNext, if_neg (by rw [htest]; simp), if_neg (by rw [hfree2.1]; decide), hfree2.2] at hv
  have hutest : (((s.testBegun c r p).slotWaits p true false).port p).test = { (s.port p).test with running := true, item := 0, firstBad := none } := htest
  have hchan (d : Fin 16) : ((s.testBegun c r p).slotWaits p true false).chan d =
      if d = c then { (s.rung c 0x80 r).chan c with work := some (.bistPortTest p.val) } else (s.rung c 0x80 r).chan d := s.testBegun_chan c r p d
  dsimp only at hv
  generalize (s.testBegun c r p).slotWaits p true false = u at hv hutest hchan
  have hdone (d : Fin 16) : (u.tested p f).chan d = u.chan d := congrArg (fun v => v.get d) (u.tested_chans p f)
  have hrest (d : Fin 16) (hd : d ≠ c) : ((u.tested p f).chan d).work = none := by rw [hdone, hchan, if_neg hd, ht.resting]
  have hwait : (u.tested p f).waiting (isPortTest p) = some c := by
    refine State.waiting_one (w := .bistPortTest p.val) ?_ ?_ hrest (beq_self_eq_true _)
    · rw [hdone, hchan, if_pos rfl]
      exact s.rung_busy c 0x80 r
    · rw [hdone, hchan, if_pos rfl]
  rw [State.testRun_all f (by rw [hutest]) hwait] at hv
  have hanswer (st d : Nat) (ws : List Word) : ((u.tested p f).chan c).answered st d ws = ((s.rung c 0x80 r).chan c).answered st d ws := by
    rw [hdone, hchan, if_pos rfl]
    rfl
  generalize hx : ((u.testItems p 0 106 f).port p).test = x at hv
  have hend : (u.tested p f).LeftAs (settle s ((s.rung c 0x80 r).serveCode c 0x80 (some (supFailing f)))) := by
    rw [hv]
    exact settle_answer_leftAs ..
  obtain ⟨l, hport⟩ := hend.port p
  refine ht.does rfl (by decide) rfl ⟨x, ?_, ?_, fun h => ?_, fun i hi hf hfirst => ?_⟩
  · rw [hv]
    refine State.gives_of (d := 0xFFFF) ht.idle (by decide) ?_ (by decide) (by simp) ((settle_answered ..).trans (hanswer ..))
    split <;> decide
  · rw [hport]
    dsimp only
    rw [State.tested_test, hx]
  · rw [← hx, u.testItems_pass p f h, hutest]
  · rw [← hx]
    exact u.testItems_fail p f hi hi hf hfirst (by rw [hutest])

theorem portTest_free (hfree : s.testHeld = false) (hgov : s.governor p = none) : Does (.bistRunPortTest c r f) s (fun t => (t.port p).test.running = false
    ∧ ((∀ i < 106, elementOf i ∉ f) → t.gives c 0x80 r [1, 0] ∧ (t.port p).test.badSlices = (s.port p).test.badSlices ∧ (t.port p).test.badCells = (s.port p).test.badCells)
    ∧ (∀ i < 106, elementOf i ∈ f → (∀ j < i, elementOf j ∉ f) → t.answered c 0x80 r 0x0704 ∧ t.result c 0 = 257
        ∧ t.result c 1 = elementWord (some (elementOf i))
        ∧ (if i < 34 then (t.port p).test.badSlices.getLsbD i else (t.port p).test.badCells.getLsbD (i - 34)) = true)) := by
  refine (portTest_runs ht hk f hp hrun hfree hgov).mono fun t ⟨x, ⟨hans, hres⟩, htest, hpass, hfail⟩ => ⟨by rw [htest], fun h => ?_, fun i hi hf hfirst => ?_⟩
  · have hx := hpass h
    rw [hx] at hans hres
    rw [htest, hx]
    exact ⟨⟨hans, hres⟩, rfl, rfl⟩
  · obtain ⟨hbad, hmark⟩ := hfail i hi hf hfirst
    rw [hbad] at hans hres
    refine ⟨hans, hres 0 (by decide), hres 1 (by decide), ?_⟩
    rw [htest]
    unfold PortTest.marked elementOf at hmark
    by_cases h : i < 34
    · simpa [h] using hmark
    · simpa [h] using hmark

end

/-- A port test that takes too long answers TIMEOUT. -/
theorem bistPortTestTimeout_ends {s : State} {p d : Fin 16} (hc : s.clocked = true) (hw : s.waiting (isPortTest p) = some d) :
    Does (.bistPortTestTimeout p) s (fun t => s.ended t d 7 []) := by
  have he : s.portTestLate p = s.answer d stTimeout [] := by
    unfold State.portTestLate State.answerWait
    rw [hw]
  refine runs_does hc rfl ?_
  rw [he]
  exact settle_answered ..

end

/-- Settles O40: each command by the state in which it is served, the port test by the fold of its items. -/
theorem keyJournalAndTestCommands : Obligations.KeyJournalAndTestCommands := by
  unfold Obligations.KeyJournalAndTestCommands
  refine ⟨?keyLoad, ?keyErase, ?commit, fun s c r l ht => ⟨fun h => journalRead_none ht h, fun y q h => journalRead_reads ht h⟩, ?bist,
    fun s p d hc hw => bistPortTestTimeout_ends hc hw⟩
  case keyLoad =>
    rintro s c r i u ht rfl
    refine ⟨fun h => keyLoad_waits ht u h, fun hz hf => ⟨fun hi => keyLoad_inUse ht u hz hf hi, fun hi hu => keyLoad_fails ht u hz hf hi hu, ?_⟩⟩
    rintro v hi hk rfl
    exact keyLoad_loads ht hz hf hi hk
  case keyErase =>
    rintro s c r i ht rfl
    exact ⟨fun h1 h2 => keyErase_badIndex ht h1 h2, fun h hi => keyErase_inUse ht h hi, fun h hi hk => keyErase_empty ht h hi hk,
      fun h hi hk => keyErase_erases ht h hi hk, fun h hi => keyErase_all ht h hi⟩
  case commit => exact fun s c r ht => ⟨fun h => journalCommit_frozen ht h, fun y q h hj => journalCommit_starts ht h hj⟩
  case bist =>
    rintro s c r n ht rfl
    refine ⟨fun hk => ?march, fun hk f => ?portTest, fun hk p hp => ?loopback, fun hk ok => ?lbist⟩
    case march => exact ⟨fun h => march_badBank ht hk h, fun b hb h => march_refused ht hk hb h, fun b tg l hb h1 h2 h3 => march_starts ht hk hb h1 h2 h3⟩
    case portTest => exact ⟨fun h => portTest_badPort ht hk f h, fun p hp hr h1 h2 => portTest_free ht hk f hp hr h1 h2, fun p hp hr h => portTest_held ht hk f hp hr h⟩
    case loopback => exact ⟨fun h => loopback_starts ht hk hp h, fun h => loopback_refused ht hk hp h⟩
    case lbist =>
      refine ⟨fun h => lbist_refused ht hk ok h, ?_, ?_⟩
      · rintro h hz rfl
        exact (lbist_starts ht hk true h hz).mono fun t ⟨hg, hkeys, hm⟩ => ⟨hg, by rw [hkeys]; rfl, by rw [hkeys]; rfl, by rw [hkeys], hm⟩
      · rintro h hz rfl
        exact (lbist_starts ht hk false h hz).mono fun t ⟨_, hkeys, hm⟩ => ⟨by rw [hkeys]; rfl, by rw [hkeys]; rfl, hm⟩

end Sys2Proof.Machine
end

section
/-! PROOFS. CAL_RUN and CAL_READ (O39): the runs that a command begins, reach by reach and port by port (R320, R325, R326, R386). -/

namespace Sys2Proof.Machine

/-! ### What a reach's work leaves another reach -/

/-- Whether calibration is held, and which ports are enabled. -/
def State.calGate (s : State) : Bool × (Fin 16 → Bool) := (s.calHeld, s.enabled)

/-- A channel that waits for a reach's run. -/
def State.awaitsReach (s : State) (c : Fin 16) (q : Fin 4) : Prop :=
  (s.chan c).busy = true ∧ ∃ rs ps g b, (s.chan c).work = some (.calRun rs ps g b) ∧ rs.getLsbD q.val = true

/-- What leaves reach q, its ports and the commands that wait for its run. -/
structure State.spares (q : Fin 4) (s t : State) : Prop where
  gate : t.calGate = s.calGate
  reach : t.reach q = s.reach q
  port : ∀ p, reachOf p = q → t.port p = s.port p
  awaits : ∀ c, s.awaitsReach c q → t.awaitsReach c q

section
variable {s t u : State} {q : Fin 4}

theorem spares_refl (q : Fin 4) (s : State) : s.spares q s := ⟨rfl, rfl, fun _ _ => rfl, fun _ => id⟩
theorem spares_trans (h : s.spares q t) (k : t.spares q u) : s.spares q u :=
  ⟨k.gate.trans h.gate, k.reach.trans h.reach, fun p hp => (k.port p hp).trans (h.port p hp), fun c hc => k.awaits c (h.awaits c hc)⟩
theorem spares_ite {c : Prop} [Decidable c] (h : s.spares q t) (k : s.spares q u) : s.spares q (if c then t else u) := by split <;> assumption
theorem spares_foldl {α : Type} (f : State → α → State) (l : List α) (h : ∀ (t : State), ∀ a ∈ l, t.spares q (f t a)) (s : State) : s.spares q (l.foldl f s) := by
  induction l generalizing s with
  | nil => exact spares_refl q s
  | cons a l ih => exact spares_trans (h s a List.mem_cons_self) (ih (fun t b hb => h t b (List.mem_cons_of_mem a hb)) _)
theorem awaitsReach_of {c : Fin 16} (h : t.chans = s.chans) (hc : s.awaitsReach c q) : t.awaitsReach c q := by
  have e : t.chan c = s.chan c := congrArg (fun v => v.get c) h
  unfold State.awaitsReach
  rw [e]
  exact hc
theorem spares_counted (h : s.spares q u) (b k n : Nat) : s.spares q (u.count b k n) := by
  refine spares_trans h ⟨?_, by simp [State.reach], fun p _ => by simp [State.port], fun c => awaitsReach_of (by simp)⟩
  unfold State.count
  obtain ⟨t, h⟩ := u.countCode_eq b (0x200 + k) n
  rw [h]
  rfl
/-- Whatever leaves the reaches, the ports and the channels. -/
theorem spares_of (hg : t.calGate = s.calGate) (hr : t.reaches = s.reaches) (hp : t.ports = s.ports) (hc : t.chans = s.chans) : s.spares q t :=
  ⟨hg, congrArg (fun v => v.get q) hr, fun p _ => congrArg (fun v => v.get p) hp, fun _ => awaitsReach_of hc⟩

end

section
variable (s : State) {q r : Fin 4} {p : Fin 16}

theorem State.modReach_spares (h : r ≠ q) (f : Reach → Reach) : s.spares q (s.modReach r f) :=
  ⟨rfl, s.reach_modReach_ne h.symm f, fun _ _ => rfl, fun _ => awaitsReach_of rfl⟩
theorem State.modCal_spares (h : reachOf p ≠ q) (f : PortCal → PortCal) : s.spares q (s.modCal p f) :=
  ⟨rfl, rfl, fun k hk => s.port_modPort_ne (fun e : k = p => h (by rw [← e, hk])) _, fun _ => awaitsReach_of rfl⟩
theorem State.placeSlice_calGate (a w : Bool) (us : Nat) : (s.placeSlice p a w us).calGate = s.calGate := by
  unfold State.placeSlice
  dsimp only
  split
  · rfl
  · split <;> rfl
theorem State.placeSlice_reaches (a w : Bool) (us : Nat) : (s.placeSlice p a w us).reaches = s.reaches := by
  unfold State.placeSlice
  dsimp only
  split
  · rfl
  · split <;> rfl
theorem State.placeSlice_spares (a w : Bool) (us : Nat) : s.spares q (s.placeSlice p a w us) :=
  spares_of (s.placeSlice_calGate a w us) (s.placeSlice_reaches a w us) (congrArg Prod.fst (s.placeSlice_bench p a w us)) (by simp)

/-- A port whose items start, before its slice is placed. -/
def State.opened (s : State) (p : Fin 16) (b : Bool) : State :=
  let s1 := s.modCal p (fun c => { c with running := true, item := 0, single := b, retry := false, startTemp := s.reachTemp (reachOf p) })
  if b then s1 else s1.modReach (reachOf p) (fun x => { x with tempSum := x.tempSum + s.reachTemp (reachOf p), tempN := x.tempN + 1 })
theorem State.startItems_eq (s : State) (p : Fin 16) (b : Bool) :
    s.startItems p b = if (s.port p).needsSlices then (s.opened p b).placeSlice p false (!b) s.sliceUs else s.opened p b := rfl
theorem State.opened_spares (h : reachOf p ≠ q) (b : Bool) : s.spares q (s.opened p b) :=
  spares_ite (s.modCal_spares h _) (spares_trans (s.modCal_spares h _) (State.modReach_spares _ h _))

/-- Items that start at a port spare every other reach. -/
theorem State.startItems_spares (h : reachOf p ≠ q) (b : Bool) : s.spares q (s.startItems p b) := by
  rw [s.startItems_eq p b]
  exact spares_ite (spares_trans (s.opened_spares h b) (State.placeSlice_spares _ _ _ _)) (s.opened_spares h b)
theorem State.runPort_spares (h : reachOf p ≠ q) : s.spares q (s.runPort p) := by
  unfold State.runPort
  exact spares_ite (spares_refl q s) (spares_ite (s.modCal_spares h _) (spares_trans (s.modCal_spares h _) (State.startItems_spares _ h true)))

/-- An answer to a command whose runs are all done spares one that waits. -/
theorem State.calAnswer_spares : s.spares q s.calAnswer := by
  unfold State.calAnswer
  refine spares_foldl _ _ (fun t d _ => ?_) s
  split
  · next rs ps g b hw =>
    split
    · next h0 =>
      have hgate (st : Nat) (ws : List Word) : (t.answer d st ws).calGate = t.calGate := by
        obtain ⟨v, y, h⟩ := t.answer_eq d st ws 0xFFFF
        rw [h]
        rfl
      refine ⟨hgate _ _, by simp [State.reach], fun p _ => State.answer_port .., fun c hc => ?_⟩
      obtain ⟨hb, rs', ps', g', b', hw', hq⟩ := hc
      have hne : c ≠ d := by
        rintro rfl
        rw [hw] at hw'
        cases hw'
        obtain ⟨rfl, -⟩ := h0
        exact absurd hq (by simp)
      unfold State.awaitsReach
      rw [State.answer_chan_ne _ hne]
      exact ⟨hb, rs', ps', g', b', hw', hq⟩
    · exact spares_refl q t
  · exact spares_refl q t

theorem State.modChan_spares {d : Fin 16} {f : Channel → Channel} (h : ∀ c, s.awaitsReach c q → (s.modChan d f).awaitsReach c q) : s.spares q (s.modChan d f) :=
  ⟨rfl, rfl, fun _ _ => rfl, h⟩
/-- A channel that learns of another reach's run waits on. -/
theorem awaitsReach_noted {c : Fin 16} (h : r ≠ q) (d : Fin 16) (b : Bool) (hc : s.awaitsReach c q) :
    (s.modChan d (fun ch => { ch with work := ch.work.map (calNoted none (some r) b) })).awaitsReach c q := by
  obtain ⟨hb, rs, ps, g, b', hw, hq⟩ := hc
  unfold State.awaitsReach
  by_cases e : c = d
  · subst e
    rw [State.chan_modChan_same]
    refine ⟨hb, setBit rs r.val false, ps, g, b', ?_, ?_⟩
    · dsimp only
      rw [hw]
      rfl
    · rw [setBit_bit _ _ _ _ q.isLt, if_neg (fun e => h (Fin.ext e.symm)), hq]
  · rw [State.chan_modChan_ne _ e]
    exact ⟨hb, rs, ps, g, b', hw, hq⟩
theorem State.calTell_spares (h : r ≠ q) (b : Bool) : s.spares q (s.calTell none (some r) b) := by
  unfold State.calTell
  exact spares_trans (spares_foldl _ _ (fun t d _ => t.modChan_spares fun c => awaitsReach_noted t h d b) s) (State.calAnswer_spares _)
theorem State.reachDone_spares (h : r ≠ q) : s.spares q (s.reachDone r) := by
  unfold State.reachDone
  exact spares_ite (spares_trans (spares_counted (s.modReach_spares h _) _ _ _) (State.calTell_spares _ h true)) (spares_refl q s)

end

/-! ### A reach that starts -/

theorem mem_portsOf {p : Fin 16} {r : Fin 4} : p ∈ portsOf r ↔ reachOf p = r := by
  unfold portsOf
  rw [List.mem_filter, beq_iff_eq]
  exact and_iff_right (List.mem_finRange p)

/-- A port that joins its reach's run. -/
def State.joinRun (s : State) (p : Fin 16) : State :=
  if (s.port p).cal.running then s.modCal p (fun c => { c with single := false }) else s.startItems p false

/-- The tick of the last anchor run noted. -/
def State.anchorNoted (s : State) (n : Nat) : State := { s with cal := { s.cal with anchorRun := some n } }

/-- A reach marked as running, as startReach leaves it before its ports join. -/
def State.openReach (s : State) (r : Fin 4) : State :=
  let fresh := match s.cal.anchorTick with | some t => decide (s.ticks < t + secTicks 1) | none => false
  let s1 := s.modReach r (fun x => { x with calPend := false, calRun := true, tempSum := 0, tempN := 0 })
  if fresh then s1 else (s1.anchorNoted s.ticks).count 6 2 1

section
variable (s : State) {q r : Fin 4} {p : Fin 16}

theorem State.startReach_eq (r : Fin 4) : s.startReach r = if !(s.reach r).calPend || (s.reach r).calRun || s.calHeld then s
    else ((s.calPorts r).foldl State.joinRun (s.openReach r)).reachDone r := rfl

theorem State.anchorNoted_spares (n : Nat) : s.spares q (s.anchorNoted n) := spares_of rfl rfl rfl rfl
theorem State.openReach_spares (h : r ≠ q) : s.spares q (s.openReach r) := by
  unfold State.openReach
  dsimp only
  exact spares_ite (s.modReach_spares h _) (spares_counted (spares_trans (s.modReach_spares h _) (State.anchorNoted_spares _ _)) _ _ _)
theorem State.joinRun_spares (h : reachOf p ≠ q) : s.spares q (s.joinRun p) := by
  unfold State.joinRun
  exact spares_ite (s.modCal_spares h _) (s.startItems_spares h false)
theorem State.startReach_spares (h : r ≠ q) : s.spares q (s.startReach r) := by
  rw [s.startReach_eq r]
  refine spares_ite (spares_refl q s) (spares_trans (spares_trans (s.openReach_spares h) (spares_foldl _ _ (fun t p hp => t.joinRun_spares ?_) _))
    (State.reachDone_spares _ h))
  have hm : p ∈ portsOf r := List.mem_of_mem_filter hp
  rw [mem_portsOf.1 hm]
  exact h
theorem State.requestReach_spares (h : r ≠ q) : s.spares q (s.requestReach r) := by
  unfold State.requestReach
  exact spares_ite (spares_refl q s) (spares_trans (s.modReach_spares h _) (State.startReach_spares _ h))

end

/-! ### A reach that runs -/

/-- The reach runs, and each of its enabled ports with it. -/
structure State.runsReach (s : State) (q : Fin 4) : Prop where
  running : (s.reach q).calRun = true
  started : (s.reach q).calPend = false
  ports : ∀ p, reachOf p = q → s.enabled p = true → (s.port p).cal.running = true ∧ (s.port p).cal.single = false

section
variable {s t : State} {q r : Fin 4}

theorem spares_held (h : s.spares q t) : t.calHeld = s.calHeld := congrArg Prod.fst h.gate
theorem spares_enabled (h : s.spares q t) (p : Fin 16) : t.enabled p = s.enabled p := congrFun (congrArg Prod.snd h.gate) p

theorem runsReach_spared (h : s.spares q t) (k : s.runsReach q) : t.runsReach q := by
  refine ⟨by rw [h.reach]; exact k.running, by rw [h.reach]; exact k.started, fun p hp he => ?_⟩
  rw [h.port p hp]
  exact k.ports p hp (by rw [← spares_enabled h p]; exact he)

theorem State.joinRun_chans (s : State) (p : Fin 16) : (s.joinRun p).chans = s.chans := ite_keep State.chans rfl (State.startItems_chans ..)
theorem State.startItems_calGate (s : State) (p : Fin 16) (b : Bool) : (s.startItems p b).calGate = s.calGate := by
  have h : (s.opened p b).calGate = s.calGate := ite_keep State.calGate rfl rfl
  rw [s.startItems_eq p b]
  exact ite_keep State.calGate ((State.placeSlice_calGate ..).trans h) h
theorem State.joinRun_calGate (s : State) (p : Fin 16) : (s.joinRun p).calGate = s.calGate := ite_keep State.calGate rfl (s.startItems_calGate p false)
theorem State.modReach_port (s : State) (r : Fin 4) (f : Reach → Reach) (k : Fin 16) : (s.modReach r f).port k = s.port k := rfl
theorem State.startItems_port_ne (s : State) {p k : Fin 16} (b : Bool) (h : k ≠ p) : (s.startItems p b).port k = s.port k := by
  have h1 : (s.opened p b).port k = s.port k := ite_keep (State.port · k) (s.port_modPort_ne h _) ((State.modReach_port ..).trans (s.port_modPort_ne h _))
  rw [s.startItems_eq p b]
  exact ite_keep (State.port · k) ((bench_port (State.placeSlice_bench ..) k).trans h1) h1
theorem State.joinRun_port_ne (s : State) {p k : Fin 16} (h : k ≠ p) : (s.joinRun p).port k = s.port k :=
  ite_keep (State.port · k) (s.port_modPort_ne h _) (s.startItems_port_ne false h)
theorem State.joinRun_joins (s : State) (p : Fin 16) : ((s.joinRun p).port p).cal.running = true ∧ ((s.joinRun p).port p).cal.single = false := by
  unfold State.joinRun
  split
  · next h =>
    rw [State.port_modCal]
    exact ⟨h, rfl⟩
  · rw [State.startItems_cal]
    exact ⟨rfl, rfl⟩
/-- The marks of a reach's run. -/
def State.marks (s : State) (q : Fin 4) : Bool × Bool := ((s.reach q).calRun, (s.reach q).calPend)

/-- Ports that join leave the marks of every reach. -/
theorem State.startItems_marks (s : State) (p : Fin 16) (q : Fin 4) (b : Bool) : (s.startItems p b).marks q = s.marks q := by
  have hmod (t : State) (x : Int) : (t.modReach (reachOf p) (fun k => { k with tempSum := k.tempSum + x, tempN := k.tempN + 1 })).marks q = t.marks q := by
    unfold State.marks
    by_cases e : q = reachOf p
    · rw [e, State.reach_modReach_same]
    · rw [State.reach_modReach_ne _ e]
  have h1 : (s.opened p b).marks q = s.marks q := ite_keep (State.marks · q) rfl (hmod _ _)
  have h2 : ((s.opened p b).placeSlice p false (!b) s.sliceUs).marks q = (s.opened p b).marks q :=
    congrArg (fun v : Vector Reach 4 => ((v.get q).calRun, (v.get q).calPend)) (State.placeSlice_reaches ..)
  rw [s.startItems_eq p b]
  exact ite_keep (State.marks · q) (h2.trans h1) h1
theorem State.joinRun_marks (s : State) (p : Fin 16) (q : Fin 4) : (s.joinRun p).marks q = s.marks q :=
  ite_keep (State.marks · q) rfl (s.startItems_marks p q false)

/-- After its ports have joined, each of them runs with the reach. -/
theorem foldl_joinRun (l : List (Fin 16)) (s : State) (p : Fin 16) (h : p ∈ l ∨ ((s.port p).cal.running = true ∧ (s.port p).cal.single = false)) :
    ((l.foldl State.joinRun s).port p).cal.running = true ∧ ((l.foldl State.joinRun s).port p).cal.single = false := by
  induction l generalizing s with
  | nil => exact h.resolve_left (List.not_mem_nil)
  | cons a l ih =>
    refine ih _ ?_
    by_cases e : p = a
    · subst e
      exact .inr (s.joinRun_joins p)
    · rw [s.joinRun_port_ne e]
      exact h.imp_left fun hm => (List.mem_cons.1 hm).resolve_left e

theorem State.openReach_chans (s : State) (r : Fin 4) : (s.openReach r).chans = s.chans := ite_keep State.chans rfl (State.count_chans ..)
theorem State.openReach_calGate (s : State) (r : Fin 4) : (s.openReach r).calGate = s.calGate :=
  ite_keep State.calGate rfl (spares_counted (q := r) (spares_refl r _) 6 2 1).gate
theorem State.openReach_marks (s : State) (r : Fin 4) : (s.openReach r).marks r = (true, false) := by
  have h (t : State) (ht : t.reaches = (s.modReach r (fun x => { x with calPend := false, calRun := true, tempSum := 0, tempN := 0 })).reaches) :
      t.marks r = (true, false) := by
    unfold State.marks State.reach
    rw [ht]
    exact congrArg (fun x : Reach => (x.calRun, x.calPend)) (s.reach_modReach_same r _)
  exact ite_keep (State.marks · r) (h _ rfl) (h _ (State.count_reaches ..))

/-- A reach that is asked to run and may: it runs, and so does each of its ports that take part. -/
theorem State.startReach_runs (s : State) {q : Fin 4} (hp : (s.reach q).calPend = true) (hr : (s.reach q).calRun = false) (hh : s.calHeld = false)
    (hb : (s.reach q).byCmd = true) {p : Fin 16} (hq : reachOf p = q) (he : s.enabled p = true) :
    (s.startReach q).runsReach q ∧ (s.startReach q).chans = s.chans ∧ (s.startReach q).calGate = s.calGate := by
  have hports : ∀ k, reachOf k = q → s.enabled k = true → k ∈ s.calPorts q := fun k hk hke =>
    List.mem_filter.2 ⟨mem_portsOf.2 hk, by rw [hke, hb, Bool.or_true]; rfl⟩
  generalize hv : (s.calPorts q).foldl State.joinRun (s.openReach q) = v
  have hmarks : v.marks q = (true, false) := by
    rw [← hv, foldl_keep (State.marks · q) _ _ _ fun t k => t.joinRun_marks k q, s.openReach_marks]
  have hgate : v.calGate = s.calGate := by
    rw [← hv, foldl_keep State.calGate _ _ _ State.joinRun_calGate, s.openReach_calGate]
  have hchans : v.chans = s.chans := by
    rw [← hv, foldl_keep State.chans _ _ _ State.joinRun_chans, s.openReach_chans]
  have hjoin : ∀ k, reachOf k = q → s.enabled k = true → (v.port k).cal.running = true ∧ (v.port k).cal.single = false := fun k hk hke => by
    rw [← hv]
    exact foldl_joinRun _ _ k (.inl (hports k hk hke))
  have hdone : v.reachDone q = v := by
    refine if_neg ?_
    obtain ⟨h1, h2⟩ := hjoin p hq he
    have : (portsOf q).any (fun k => (v.port k).cal.running && !(v.port k).cal.single) = true :=
      List.any_eq_true.2 ⟨p, mem_portsOf.2 hq, by rw [h1, h2]; rfl⟩
    rw [this, Bool.not_true, Bool.and_false]
    decide
  rw [s.startReach_eq q, if_neg (by rw [hp, hr, hh]; decide), hv, hdone]
  refine ⟨⟨congrArg Prod.fst hmarks, congrArg Prod.snd hmarks, fun k hk hke => hjoin k hk ?_⟩, hchans, hgate⟩
  rw [← hke]
  exact (congrFun (congrArg Prod.snd hgate) k).symm

/-- A reach asked by a command to run. -/
def State.askReach (s : State) (rs : BitVec 4) (r : Fin 4) : State :=
  if rs.getLsbD r.val then (s.modReach r (fun x => { x with byCmd := true })).requestReach r else s
/-- A port asked by a command to run. -/
def State.askPort (s : State) (ps : BitVec 16) (p : Fin 16) : State := if ps.getLsbD p.val then s.runPort p else s

theorem State.askReach_spares (s : State) (rs : BitVec 4) {r : Fin 4} (h : r ≠ q) : s.spares q (s.askReach rs r) :=
  spares_ite (spares_trans (s.modReach_spares h _) (State.requestReach_spares _ h)) (spares_refl q s)

/-- A command that asks reach q to run starts it. -/
theorem State.askReach_runs (s : State) {rs : BitVec 4} (hq : rs.getLsbD q.val = true) (hr : (s.reach q).calRun = false) (hh : s.calHeld = false)
    {p : Fin 16} (hp : reachOf p = q) (he : s.enabled p = true) :
    (s.askReach rs q).runsReach q ∧ (s.askReach rs q).chans = s.chans ∧ (s.askReach rs q).calGate = s.calGate := by
  unfold State.askReach
  rw [if_pos hq]
  unfold State.requestReach
  rw [State.reach_modReach_same, if_neg (by simp [hr])]
  refine State.startReach_runs _ (p := p) ?_ ?_ hh ?_ hp he
  · rw [State.reach_modReach_same]
  · rw [State.reach_modReach_same, State.reach_modReach_same]
    exact hr
  · rw [State.reach_modReach_same, State.reach_modReach_same]

/-- One that runs goes on. -/
theorem State.askReach_goesOn (s : State) (rs : BitVec 4) (h : s.runsReach q) :
    (s.askReach rs q).runsReach q ∧ (s.askReach rs q).chans = s.chans ∧ (s.askReach rs q).calGate = s.calGate := by
  unfold State.askReach
  split
  · unfold State.requestReach
    rw [State.reach_modReach_same, if_pos h.running]
    refine ⟨⟨?_, ?_, fun p hp he => h.ports p hp he⟩, rfl, rfl⟩
    · rw [State.reach_modReach_same]
      exact h.running
    · rw [State.reach_modReach_same]
      exact h.started
  · exact ⟨h, rfl, rfl⟩

theorem State.runPort_calGate (s : State) (p : Fin 16) : (s.runPort p).calGate = s.calGate :=
  ite_keep State.calGate rfl (ite_keep State.calGate rfl ((State.startItems_calGate ..).trans rfl))
theorem State.runPort_port_ne (s : State) {p k : Fin 16} (h : k ≠ p) : (s.runPort p).port k = s.port k :=
  ite_keep (State.port · k) rfl (ite_keep (State.port · k) (s.port_modPort_ne h _) ((State.startItems_port_ne _ _ h).trans (s.port_modPort_ne h _)))

/-- A single-port run leaves a reach that runs, and its ports. -/
theorem State.runPort_goesOn (s : State) (p : Fin 16) (h : s.runsReach q) : (s.runPort p).runsReach q := by
  by_cases hp : reachOf p = q
  · have hgate := s.runPort_calGate p
    have hmarks : (s.runPort p).marks q = s.marks q :=
      ite_keep (State.marks · q) rfl (ite_keep (State.marks · q) rfl ((State.startItems_marks ..).trans rfl))
    refine ⟨(congrArg Prod.fst hmarks).trans h.running, (congrArg Prod.snd hmarks).trans h.started, fun k hk he => ?_⟩
    have he' : s.enabled k = true := (congrFun (congrArg Prod.snd hgate) k).symm.trans he
    by_cases e : k = p
    · subst e
      rw [State.runPort, if_pos (h.ports k hk he').1]
      exact h.ports k hk he'
    · rw [s.runPort_port_ne e]
      exact h.ports k hk he'
  · exact runsReach_spared (s.runPort_spares hp) h

/-- Every reach asked in turn: reach q runs, and whoever waits for it waits on. -/
theorem foldl_askReach {rs : BitVec 4} {c p : Fin 16} (hq : rs.getLsbD q.val = true) (hp : reachOf p = q) (l : List (Fin 4)) (s : State)
    (h : s.runsReach q ∨ (q ∈ l ∧ (s.reach q).calRun = false ∧ s.calHeld = false ∧ s.enabled p = true)) (hw : s.awaitsReach c q) :
    (l.foldl (State.askReach · rs ·) s).runsReach q ∧ (l.foldl (State.askReach · rs ·) s).awaitsReach c q
      ∧ (l.foldl (State.askReach · rs ·) s).calGate = s.calGate := by
  induction l generalizing s with
  | nil => exact ⟨h.resolve_right fun e => List.not_mem_nil e.1, hw, rfl⟩
  | cons r l ih =>
    by_cases e : r = q
    · subst e
      have hrun : (s.askReach rs r).runsReach r ∧ (s.askReach rs r).chans = s.chans ∧ (s.askReach rs r).calGate = s.calGate :=
        h.elim (s.askReach_goesOn rs) fun ⟨_, hr, hh, he⟩ => s.askReach_runs hq hr hh hp he
      obtain ⟨hrun, hchans, hgate⟩ := hrun
      obtain ⟨h1, h2, h3⟩ := ih _ (.inl hrun) (awaitsReach_of hchans hw)
      exact ⟨h1, h2, h3.trans hgate⟩
    · have hs := s.askReach_spares rs e
      obtain ⟨h1, h2, h3⟩ := ih _ (h.imp (runsReach_spared hs) fun ⟨hm, hr, hh, he⟩ => ⟨(List.mem_cons.1 hm).resolve_left (Ne.symm e), by rw [hs.reach, hr],
        by rw [spares_held hs, hh], by rw [spares_enabled hs, he]⟩) (hs.awaits c hw)
      exact ⟨h1, h2, h3.trans hs.gate⟩

theorem State.askPort_chans (s : State) (ps : BitVec 16) (p : Fin 16) : (s.askPort ps p).chans = s.chans := ite_keep State.chans (s.runPort_chans p) rfl
theorem State.askPort_calGate (s : State) (ps : BitVec 16) (p : Fin 16) : (s.askPort ps p).calGate = s.calGate := ite_keep State.calGate (s.runPort_calGate p) rfl
theorem State.askPort_goesOn (s : State) (ps : BitVec 16) (p : Fin 16) (h : s.runsReach q) : (s.askPort ps p).runsReach q := by
  unfold State.askPort
  split
  · exact s.runPort_goesOn p h
  · exact h
theorem foldl_askPort (ps : BitVec 16) (l : List (Fin 16)) (s : State) (h : s.runsReach q) : (l.foldl (State.askPort · ps ·) s).runsReach q := by
  induction l generalizing s with
  | nil => exact h
  | cons p l ih => exact ih _ (s.askPort_goesOn ps p h)

/-- Every port asked in turn: a masked port that is idle begins a run of its own, and one that is not masked stays as it was. -/
theorem foldl_askPort_cal (ps : BitVec 16) (p : Fin 16) (l : List (Fin 16)) (s : State) :
    (ps.getLsbD p.val = false → ((l.foldl (State.askPort · ps ·) s).port p).cal = (s.port p).cal)
    ∧ (ps.getLsbD p.val = true →
        ((s.port p).cal.running = true ∧ (s.port p).cal.single = true ∧ (s.port p).cal.item = 0)
          ∨ (p ∈ l ∧ s.calHeld = false ∧ (s.port p).cal.running = false ∧ (s.port p).tdr.running = false) →
        ((l.foldl (State.askPort · ps ·) s).port p).cal.running = true ∧ ((l.foldl (State.askPort · ps ·) s).port p).cal.single = true
          ∧ ((l.foldl (State.askPort · ps ·) s).port p).cal.item = 0) := by
  induction l generalizing s with
  | nil => exact ⟨fun _ => rfl, fun _ h => h.resolve_right fun e => List.not_mem_nil e.1⟩
  | cons k l ih =>
    obtain ⟨ih1, ih2⟩ := ih (s.askPort ps k)
    by_cases e : p = k
    · subst e
      refine ⟨fun hm => (ih1 hm).trans ?_, fun hm h => ih2 hm (.inl ?_)⟩
      · rw [State.askPort, if_neg (by rw [hm]; decide)]
      · rw [State.askPort, if_pos hm]
        rcases h with h | ⟨-, hh, hr, ht⟩
        · rw [State.runPort, if_pos h.1]
          exact h
        · rw [s.runPort_starts p hr hh ht, State.startItems_cal]
          exact ⟨rfl, rfl, rfl⟩
    · have hport : (s.askPort ps k).port p = s.port p := ite_keep (State.port · p) (s.runPort_port_ne e) rfl
      have hheld : (s.askPort ps k).calHeld = s.calHeld := congrArg Prod.fst (s.askPort_calGate ps k)
      rw [hport, hheld] at ih2
      rw [hport] at ih1
      exact ⟨ih1, fun hm h => ih2 hm (h.imp_right fun ⟨hl, hx⟩ => ⟨(List.mem_cons.1 hl).resolve_left e, hx⟩)⟩

end

/-! ### CAL_RUN (R320, R325, R386) -/

/-- Rung, and block 0x06 taken. -/
def State.calCaller (s : State) (c : Fin 16) (r : Request) : State := (s.rung c 0x40 r).own [6]

/-- The command that waits for the reaches and ports of its masks. -/
def State.calWaits (s : State) (c : Fin 16) (r : Request) (rs : BitVec 4) (ps : BitVec 16) : State := (s.calCaller c r).waitFor c (.calRun rs ps 0 0)

/-- Every reach and port of the masks asked to run. -/
def State.calAsked (s : State) (c : Fin 16) (r : Request) (rs : BitVec 4) (ps : BitVec 16) : State :=
  allPorts.foldl (State.askPort · ps ·) (allReaches.foldl (State.askReach · rs ·) (s.calWaits c r rs ps))

section
variable {s : State} {c : Fin 16} {r : Request}

theorem State.calWaits_eq (s : State) (c : Fin 16) (r : Request) (rs : BitVec 4) (ps : BitVec 16) :
    ∃ v y k, s.calWaits c r rs ps = { s with chans := v, tally := y, keeper := k } := by
  obtain ⟨v, y, k, h⟩ := s.rung_own c 0x40 r [6]
  unfold State.calWaits State.calCaller
  rw [h]
  exact ⟨_, _, _, rfl⟩
theorem State.calWaits_chan (s : State) (c : Fin 16) (r : Request) (rs : BitVec 4) (ps : BitVec 16) (d : Fin 16) : (s.calWaits c r rs ps).chan d =
    if d = c then { (s.rung c 0x40 r).chan c with work := some (.calRun rs ps 0 0) } else (s.rung c 0x40 r).chan d := by
  unfold State.calWaits
  rw [State.waitFor_chan]
  unfold State.chan State.calCaller
  rw [State.own_chans]
theorem State.calWaits_owns (s : State) (c : Fin 16) (r : Request) (rs : BitVec 4) (ps : BitVec 16) : (s.calWaits c r rs ps).keeper.owns 6 = true :=
  (State.own_owns _ (by decide) 6).2 (.inr List.mem_cons_self)

/-- The masks of a request, bit by bit. -/
theorem mask_bit (a : Word) {lo w i : Nat} (h : i < w) : (BitVec.ofNat w (fld a lo w)).getLsbD i = bit a (lo + i) := by
  rw [BitVec.getLsbD_ofNat, fld_bits]
  simp [h, bit]

theorem State.takes.calRun_serves (ht : s.takes c r 1) : (s.rung c 0x40 r).serveCode c 0x40 none =
    (s.calAsked c r (BitVec.ofNat 4 (fld (argWord r 0) 0 4)) (BitVec.ofNat 16 (fld (argWord r 0) 16 16))).calAnswer := by
  show (s.rung c 0x40 r).serveCalRun c = _
  unfold State.serveCalRun
  rw [ht.arg]
  rfl

theorem foldl_askReach_none (l : List (Fin 4)) (t : State) : l.foldl (State.askReach · 0 ·) t = t :=
  List.foldl_fixed' (fun q => if_neg (by simp)) l
theorem foldl_askPort_none (l : List (Fin 16)) (t : State) : l.foldl (State.askPort · 0 ·) t = t :=
  List.foldl_fixed' (fun q => if_neg (by simp)) l

/-- What the end of calibration work makes of one channel. -/
def State.calReply (t : State) (c : Fin 16) : State :=
  match (t.chan c).work with
  | some (.calRun rs ps good bad) => if rs = 0 ∧ ps = 0 then t.answer c (if bad = 0 then stOk else 0x0701) [put 0 16 good.toNat ||| put 16 16 bad.toNat] else t
  | _ => t
theorem State.calAnswer_eq (t : State) : t.calAnswer = allChans.foldl State.calReply t := rfl
theorem State.calReply_idle {t : State} {d : Fin 16} (h : (t.chan d).work = none) : t.calReply d = t := by
  unfold State.calReply
  rw [h]

/-- A command with nothing to wait for is answered, and it alone. -/
theorem State.calAnswer_done {t : State} (hw : (t.chan c).work = some (.calRun 0 0 0 0)) (hne : ∀ d ≠ c, (t.chan d).work = none) :
    t.calAnswer = t.answer c stOk [0] := by
  have hturn : t.calReply c = t.answer c stOk [0] := by
    unfold State.calReply
    rw [hw]
    rfl
  have hrest (d : Fin 16) : (t.answer c stOk [0]).calReply d = t.answer c stOk [0] := by
    refine State.calReply_idle ?_
    by_cases e : d = c
    · subst e
      rw [State.answer_chan_same]
      rfl
    · rw [State.answer_chan_ne _ e, hne d e]
  have hfold (l : List (Fin 16)) (h : c ∈ l) : l.foldl State.calReply t = t.answer c stOk [0] := by
    induction l with
    | nil => cases h
    | cons d l ih =>
      by_cases e : d = c
      · rw [List.foldl_cons, e, hturn]
        exact List.foldl_fixed' hrest l
      · rw [List.foldl_cons, State.calReply_idle (hne d e)]
        exact ih ((List.mem_cons.1 h).resolve_left (Ne.symm e))
  rw [t.calAnswer_eq]
  exact hfold _ (List.mem_finRange c)

/-- A command that still waits for a run is left waiting. -/
theorem State.calAnswer_waits {t : State} {rs : BitVec 4} {ps g b : BitVec 16} (hw : (t.chan c).work = some (.calRun rs ps g b)) (h : ¬ (rs = 0 ∧ ps = 0)) :
    t.calAnswer.chan c = t.chan c := by
  rw [t.calAnswer_eq]
  refine List.foldlRecOn (motive := fun u => State.chan u c = t.chan c) _ _ rfl fun u hu d _ => ?_
  by_cases e : d = c
  · subst e
    unfold State.calReply
    rw [hu, hw]
    dsimp only
    rw [if_neg h, hu]
  · refine Eq.trans ?_ hu
    unfold State.calReply
    split
    · split
      · exact State.answer_chan_ne _ (Ne.symm e) ..
      · rfl
    · rfl

section
variable (ht : s.takes c r 1)
include ht

theorem calRun_empty (h1 : fld (argWord r 0) 0 4 = 0) (h2 : fld (argWord r 0) 16 16 = 0) :
    Does (.calRun c r) s (fun t => t.gives c 0x40 r [0] ∧ t.keeper.owns 6 = true) := by
  have hv := ht.calRun_serves
  rw [h1, h2] at hv
  have hasked : s.calAsked c r (BitVec.ofNat 4 0) (BitVec.ofNat 16 0) = s.calWaits c r 0 0 :=
    (foldl_askPort_none allPorts _).trans (foldl_askReach_none allReaches _)
  rw [hasked, State.calAnswer_done ((congrArg Channel.work (s.calWaits_chan c r 0 0 c)).trans (by rw [if_pos rfl]))
    (fun d hd => by rw [State.calWaits_chan, if_neg hd, ht.resting])] at hv
  refine ht.does rfl (by decide) rfl ?_
  rw [hv]
  refine ⟨State.gives_of (st := stOk) (d := 0xFFFF) ht.idle (by decide) (by decide) (by decide) (by decide) ((settle_answered ..).trans ?_), ?_⟩
  · rw [State.calWaits_chan, if_pos rfl]
    rfl
  · rw [settle_keeper, State.answer_keeper, s.calWaits_owns]

theorem calRun_ports (h1 : fld (argWord r 0) 0 4 = 0) (hh : s.calHeld = false) : Does (.calRun c r) s (fun t => t.keeper.owns 6 = true ∧ ∀ p : Fin 16,
    (bit (argWord r 0) (16 + p.val) = true → (s.port p).cal.running = false → (s.port p).tdr.running = false →
      (t.port p).cal.running = true ∧ (t.port p).cal.single = true ∧ (t.port p).cal.item = 0
      ∧ t.waitsFor c (.calRun 0 (BitVec.ofNat 16 (fld (argWord r 0) 16 16)) 0 0))
    ∧ (bit (argWord r 0) (16 + p.val) = false → (t.port p).cal = (s.port p).cal)) := by
  have hv := ht.calRun_serves
  rw [h1] at hv
  generalize hps : BitVec.ofNat 16 (fld (argWord r 0) 16 16) = ps at hv ⊢
  have hbit (p : Fin 16) : ps.getLsbD p.val = bit (argWord r 0) (16 + p.val) := by rw [← hps, mask_bit _ p.isLt]
  have hasked : s.calAsked c r (BitVec.ofNat 4 0) ps = allPorts.foldl (State.askPort · ps ·) (s.calWaits c r 0 ps) :=
    congrArg (allPorts.foldl (State.askPort · ps ·)) (foldl_askReach_none allReaches _)
  have hport (p : Fin 16) : (s.calWaits c r 0 ps).port p = s.port p := by
    obtain ⟨v, y, k, h⟩ := s.calWaits_eq c r 0 ps
    rw [h]
    rfl
  have hheld : (s.calWaits c r 0 ps).calHeld = false := by
    obtain ⟨v, y, k, h⟩ := s.calWaits_eq c r 0 ps
    rw [h]
    exact hh
  have hfold := fun p => foldl_askPort_cal ps p allPorts (s.calWaits c r 0 ps)
  have hchan : (allPorts.foldl (State.askPort · ps ·) (s.calWaits c r 0 ps)).chan c = { (s.rung c 0x40 r).chan c with work := some (.calRun 0 ps 0 0) } := by
    rw [← (s.calWaits_chan c r 0 ps c).trans (if_pos rfl)]
    exact congrArg (fun v => v.get c) (foldl_keep State.chans _ _ _ fun t p => t.askPort_chans ps p)
  have hkeeper : (allPorts.foldl (State.askPort · ps ·) (s.calWaits c r 0 ps)).keeper = (s.calWaits c r 0 ps).keeper :=
    far_keeper (foldl_keep State.far _ _ _ fun t p => ite_keep State.far (t.runPort_far p) rfl)
  rw [hasked] at hv
  refine ht.does rfl (by decide) rfl ?_
  rw [hv]
  generalize allPorts.foldl (State.askPort · ps ·) (s.calWaits c r 0 ps) = u at hfold hchan hkeeper
  have hcal (p : Fin 16) : ((settle s u.calAnswer).port p).cal = (u.port p).cal := by
    rw [settle_port_cal, bench_port u.calAnswer_bench]
  refine ⟨?_, fun p => ⟨fun hm hr htdr => ?_, fun hm => ?_⟩⟩
  · rw [settle_keeper, far_keeper u.calAnswer_far, hkeeper, s.calWaits_owns]
  · obtain ⟨-, h⟩ := hfold p
    rw [hport] at h
    obtain ⟨h1, h2, h3⟩ := h ((hbit p).trans hm) (.inr ⟨List.mem_finRange p, hheld, hr, htdr⟩)
    rw [hcal]
    have hne : ¬ ((0 : BitVec 4) = 0 ∧ ps = 0) := by
      rintro ⟨-, e⟩
      have := (hbit p).trans hm
      rw [e] at this
      simp at this
    have hwaits : u.calAnswer.chan c = { (s.rung c 0x40 r).chan c with work := some (.calRun 0 ps 0 0) } :=
      (State.calAnswer_waits (by rw [hchan]) hne).trans hchan
    refine ⟨h1, h2, h3, ?_⟩
    unfold State.waitsFor
    rw [settle_chan _ _ _ (by rw [hwaits]; exact fun _ _ _ => nofun), hwaits]
    exact ⟨s.rung_busy c 0x40 r, rfl⟩
  · obtain ⟨h, -⟩ := hfold p
    rw [hcal, h ((hbit p).trans hm), hport]

theorem calRun_reaches (hh : s.calHeld = false) : Does (.calRun c r) s (fun t => ∀ q : Fin 4, bit (argWord r 0) q.val = true → (s.reach q).calRun = false →
    (∃ p, reachOf p = q ∧ s.enabled p = true) → (t.reach q).calRun = true ∧ (t.reach q).calPend = false ∧ (t.chan c).busy = true
      ∧ ∀ p, reachOf p = q → s.enabled p = true → (t.port p).cal.running = true ∧ (t.port p).cal.single = false) := by
  have hv := ht.calRun_serves
  refine ht.does rfl (by decide) rfl ?_
  rw [hv]
  generalize hrs : BitVec.ofNat 4 (fld (argWord r 0) 0 4) = rs
  generalize BitVec.ofNat 16 (fld (argWord r 0) 16 16) = ps
  rintro q hm hr ⟨p, hp, he⟩
  have hq : rs.getLsbD q.val = true := by
    rw [← hrs, mask_bit _ q.isLt, Nat.zero_add, hm]
  have hgate : (s.calWaits c r rs ps).calGate = s.calGate ∧ (s.calWaits c r rs ps).reach q = s.reach q := by
    obtain ⟨v, y, k, h⟩ := s.calWaits_eq c r rs ps
    rw [h]
    exact ⟨rfl, rfl⟩
  obtain ⟨hgate, hreach⟩ := hgate
  have hwait : (s.calWaits c r rs ps).awaitsReach c q := by
    unfold State.awaitsReach
    rw [State.calWaits_chan, if_pos rfl]
    exact ⟨s.rung_busy c 0x40 r, rs, ps, 0, 0, rfl, hq⟩
  obtain ⟨hruns, hwaits, hg⟩ := foldl_askReach hq hp allReaches (s.calWaits c r rs ps)
    (.inr ⟨List.mem_finRange q, by rw [hreach, hr], (congrArg Prod.fst hgate).trans hh, (congrFun (congrArg Prod.snd hgate) p).trans he⟩) hwait
  have hruns2 := foldl_askPort ps allPorts _ hruns
  have hwaits2 : (s.calAsked c r rs ps).awaitsReach c q := awaitsReach_of (foldl_keep State.chans _ _ _ fun t p => t.askPort_chans ps p) hwaits
  have hg2 : (s.calAsked c r rs ps).calGate = s.calGate := (foldl_keep State.calGate _ _ _ fun t p => t.askPort_calGate ps p).trans (hg.trans hgate)
  change (s.calAsked c r rs ps).runsReach q at hruns2
  generalize s.calAsked c r rs ps = u at hruns2 hwaits2 hg2
  have hspare := u.calAnswer_spares (q := q)
  have hend := runsReach_spared hspare hruns2
  obtain ⟨hb, _, _, _, _, hw, -⟩ := hspare.awaits c hwaits2
  refine ⟨(congrArg Reach.calRun (settle_reach ..)).trans hend.running, (congrArg Reach.calPend (settle_reach ..)).trans hend.started, ?_, fun k hk hke => ?_⟩
  · rw [settle_chan _ _ _ (by rw [hw]; exact fun _ _ _ => nofun), hb]
  · rw [settle_port_cal]
    refine hend.ports k hk ?_
    rw [spares_enabled hspare]
    exact (congrFun (congrArg Prod.snd hg2) k).trans hke

/-- CAL_READ answers the quality word of the port and the temperature words of its reach. -/
theorem calRead_reads {p : Fin 16} (hp : fld (argWord r 0) 0 4 = p.val) : Does (.calRead c r) s (fun t =>
    t.gives c 0x41 r [s.calStatus (0x10 + p.val), s.calStatus (0x04 + (reachOf p).val), s.calStatus (0x09 + (reachOf p).val)]) := by
  have hstat (k : Nat) : ((s.rung c 0x41 r).own [6]).calStatus k = s.calStatus k := by
    obtain ⟨v, y, x, h⟩ := s.rung_own c 0x41 r [6]
    rw [h]
    rfl
  have hv : (s.rung c 0x41 r).serveCode c 0x41 none = ((s.rung c 0x41 r).own [6]).answer c stOk
      [s.calStatus (0x10 + p.val), s.calStatus (0x04 + (reachOf p).val), s.calStatus (0x09 + (reachOf p).val)] := by
    show (s.rung c 0x41 r).serveCalRead c = _
    unfold State.serveCalRead
    rw [ht.argPort hp]
    dsimp only
    rw [hstat, hstat, hstat]
  refine (ht.replies rfl (by decide) rfl hv ?_ (by decide) (by decide) (by simp)).mono fun t ⟨ha, _⟩ => ha
  exact congrArg (fun v => v.get c) (State.own_chans ..)

end

end

end Sys2Proof.Machine
end

section
/-! PROOFS. DIAG_TDR and DIAG_WATCH (O39): a reflectometry run started or joined, the watch's words, its capture and its references
(R330, R339, R341, R386). -/

namespace Sys2Proof.Machine

section
variable {s : State} {c : Fin 16} {r : Request} {p : Fin 16}

/-! ### DIAG_WATCH (R339, R386) -/

theorem State.rung_port (s : State) (c : Fin 16) (code : Nat) (r : Request) (p : Fin 16) : (s.rung c code r).port p = s.port p := by
  obtain ⟨v, y, h⟩ := s.rung_eq c code r
  rw [h]
  rfl

theorem State.clearRef_port (t : State) (p : Fin 16) : (t.clearRef p).port p =
    { t.port p with watch := { (t.port p).watch with capturing := false, wantCapture := false, refWide := none, refNarrow := none } } := by
  show (t.modWatch p (fun w => { w with capturing := false, wantCapture := false, refWide := none, refNarrow := none })).port p = _
  exact State.port_modPort_same ..

section
variable (ht : s.takes c r 1) (hp : fld (argWord r 0) 0 4 = p.val)
include ht hp

theorem diagWatch_reads (hk : fld (argWord r 0) 8 2 = 0) : Does (.diagWatchRead c r) s (fun t =>
    t.gives c 0x51 r [(s.port p).watchStat, (s.port p).watch.val, (s.port p).watch.loc] ∧ (t.port p).watch = (s.port p).watch) := by
  have hv : (s.rung c 0x51 r).serveCode c 0x51 none = (s.rung c 0x51 r).answer c stOk (s.port p).watchWords := by
    show (s.rung c 0x51 r).serveWatch c = _
    unfold State.serveWatch
    rw [ht.arg, ht.argPort hp, hk]
    exact congrArg (fun x : Port => (s.rung c 0x51 r).answer c stOk x.watchWords) (s.rung_port c 0x51 r p)
  refine (ht.replies rfl (by decide) rfl hv rfl (by decide) (by decide) (by simp [Port.watchWords])).mono fun t ⟨ha, hl⟩ => ⟨ha, ?_⟩
  obtain ⟨l, hl⟩ := hl.port p
  rw [hl, s.rung_port]

theorem diagWatch_captures (hk : fld (argWord r 0) 8 2 = 1) : Does (.diagWatchCapture c r) s (fun t => t.waitsFor c (.diagWatch p.val)
    ∧ ((s.port p).link.state = .loconUp → (s.port p).quiet.state = .active → (t.port p).watch.capturing = true)
    ∧ ((s.port p).quiet.state ≠ .active → (t.port p).watch.wantCapture = !(s.port p).watch.capturing)) := by
  have hv : (s.rung c 0x51 r).serveCode c 0x51 none = ((s.rung c 0x51 r).waitFor c (.diagWatch p.val)).capture p := by
    show (s.rung c 0x51 r).serveWatch c = _
    unfold State.serveWatch
    rw [ht.arg, ht.argPort hp, hk]
    rfl
  refine (ht.holds rfl (by decide) rfl hv ((State.waitFor_chan ..).trans (if_pos rfl)) (fun _ _ _ => nofun)).mono fun t ⟨hw, hl⟩ => ⟨hw, ?_⟩
  obtain ⟨l, hl⟩ := hl.port p
  have hwait : ((s.rung c 0x51 r).waitFor c (.diagWatch p.val)).port p = s.port p := s.rung_port c 0x51 r p
  rw [hl, State.capture, State.modWatch, State.port_modPort_same, hwait]
  dsimp only
  exact ⟨fun h1 h2 => by rw [h1, h2]; rfl, fun h => by rw [beq_false_of_ne h, Bool.and_false]; rfl⟩

theorem diagWatch_discards (hk : fld (argWord r 0) 8 2 = 2) : Does (.diagWatchDiscard c r) s (fun t => t.answered c 0x51 r 0 ∧ t.result c 0 = (t.port p).watchStat
    ∧ (t.port p).watch.refWide = none ∧ (t.port p).watch.refNarrow = none ∧ (t.port p).watch.capturing = false) := by
  have hv : (s.rung c 0x51 r).serveCode c 0x51 none = ((s.rung c 0x51 r).clearRef p).answer c stOk (((s.rung c 0x51 r).clearRef p).port p).watchWords := by
    show (s.rung c 0x51 r).serveWatch c = _
    unfold State.serveWatch
    rw [ht.arg, ht.argPort hp, hk]
    rfl
  refine (ht.replies rfl (by decide) rfl hv rfl (by decide) (by decide) (by simp [Port.watchWords])).mono fun t ⟨⟨ha, hr⟩, hl⟩ => ?_
  obtain ⟨l, hl⟩ := hl.port p
  have hclear := (s.rung c 0x51 r).clearRef_port p
  rw [hclear] at hl hr
  refine ⟨ha, (hr 0 (by simp [Port.watchWords])).trans ?_, ?_⟩
  · rw [hl]
    rfl
  · rw [hl]
    exact ⟨rfl, rfl, rfl⟩

end

/-- A capture that takes too long answers TIMEOUT. -/
theorem diagWatchCaptureTimeout_ends {d : Fin 16} (hc : s.clocked = true) (hw : s.waiting (isWatch p) = some d) :
    Does (.diagWatchCaptureTimeout p) s (fun t => s.ended t d 7 []) := by
  have he : s.captureLate p = s.answer d stTimeout [] := by
    unfold State.captureLate State.answerWait
    rw [hw]
  refine runs_does hc rfl ?_
  rw [he]
  exact settle_answered ..

/-! ### DIAG_TDR (R330, R386) -/

/-- Where a link rests, only its calibration slices may go. -/
theorem followPort_rests {old u : State} {p : Fin 16} (hf : u.unforced) (he : old.enabled p = u.enabled p) (hl : (u.port p).link.state.reached = false) :
    State.followPort old u p = u ∨ State.followPort old u p = u.dropSlices p false := by
  unfold State.followPort State.calFollow
  rw [State.forceSync_free p hf, ite_self, he]
  dsimp only
  rw [if_neg (by simp), hl]
  split
  · exact .inl rfl
  · exact .inr (if_pos (by simp))

/-- Where a port takes the line for reflectometry and no domain is forced off, only its calibration slices may go. -/
theorem followAll_diag {u : State} (ha : u.around p = s.around p) (hs : s.unforced) (hl : (u.port p).link.state = .diag) :
    ∃ (x : List (Nat × CalEntry)) (k : List (Nat × Bool)), State.followAll s u = { u with time := { u.time with cal := x }, cal := { u.cal with slotWait := k } } := by
  unfold State.followAll
  refine List.foldlRecOn (motive := fun t => ∃ (x : List (Nat × CalEntry)) (k : List (Nat × Bool)), t = { u with time := { u.time with cal := x }, cal := { u.cal with slotWait := k } }) _ _ ⟨u.time.cal, u.cal.slotWait, rfl⟩
    fun t ⟨x, k, ht⟩ q _ => ?_
  have hat : t.around p = s.around p := by
    rw [ht]
    exact ha
  have hfree := around_unforced hat hs
  by_cases e : q = p
  · subst e
    have hto : (t.port q).link.state = .diag := by
      rw [ht]
      exact hl
    rcases followPort_rests hfree (around_enabled hat q).symm (by rw [hto]; rfl) with h | h
    · rw [h]
      exact ⟨x, k, ht⟩
    · rw [h, ht]
      exact ⟨_, _, rfl⟩
  · rw [followPort_unmoved hfree (by rw [around_link hat e]) (around_enabled hat q).symm]
    exact ⟨x, k, ht⟩

section
variable (ht : s.takes c r 1) (hp : fld (argWord r 0) 0 4 = p.val)
include ht hp

theorem diagTdr_serves : (s.rung c 0x50 r).serveCode c 0x50 none =
    if (s.port p).tdr.running then (s.rung c 0x50 r).waitFor c (.diagTdr p.val)
    else if s.enabled p then ((s.rung c 0x50 r).tdrStart p (fld (argWord r 0) 8 2) (fld (argWord r 0) 16 4) (fld (argWord r 0) 24 8)).answer c 0x0702 []
    else ((s.rung c 0x50 r).waitFor c (.diagTdr p.val)).tdrStart p (fld (argWord r 0) 8 2) (fld (argWord r 0) 16 4) (fld (argWord r 0) 24 8) := by
  have hen : (s.rung c 0x50 r).enabled p = s.enabled p := by
    obtain ⟨v, y, h⟩ := s.rung_eq c 0x50 r
    rw [h]
    rfl
  show (s.rung c 0x50 r).serveTdr c = _
  unfold State.serveTdr
  dsimp only
  rw [ht.arg, ht.argPort hp, s.rung_port, hen]

theorem diagTdr_joins (hr : (s.port p).tdr.running = true) : Does (.diagTdr c r) s (fun t => t.waitsFor c (.diagTdr p.val) ∧ (t.port p).tdr = (s.port p).tdr) := by
  have hv := diagTdr_serves ht hp
  rw [if_pos hr] at hv
  have hcalm : State.followAll s ((s.rung c 0x50 r).waitFor c (.diagTdr p.val)) = (s.rung c 0x50 r).waitFor c (.diagTdr p.val) := by
    refine State.followAll_calm ?_
    obtain ⟨v, y, h⟩ := s.rung_eq c 0x50 r
    rw [h]
    rfl
  have hchan : ((s.rung c 0x50 r).waitFor c (.diagTdr p.val)).chan c = { (s.rung c 0x50 r).chan c with work := some (.diagTdr p.val) } :=
    (State.waitFor_chan ..).trans (if_pos rfl)
  refine ht.doesAll rfl (by decide) rfl ?_
  rw [hv, hcalm, settle_port_tdr]
  refine ⟨?_, congrArg Port.tdr (s.rung_port c 0x50 r p)⟩
  unfold State.waitsFor
  rw [settle_chan _ _ _ (by rw [hchan]; exact fun _ _ _ => nofun), hchan]
  exact ⟨s.rung_busy c 0x50 r, rfl⟩

/-- A port that is enabled keeps its line (R330). -/
theorem diagTdr_refused (hr : (s.port p).tdr.running = false) (he : s.enabled p = true) : Does (.diagTdr c r) s (fun t => t.answered c 0x50 r 0x0702
    ∧ (t.port p).tdr = { (s.port p).tdr with result := 3 } ∧ (t.port p).link = (s.port p).link) := by
  have hv := diagTdr_serves ht hp
  rw [if_neg (by rw [hr]; decide), if_pos he] at hv
  obtain ⟨v, y, hrung⟩ := s.rung_eq c 0x50 r
  have hstart : (s.rung c 0x50 r).tdrStart p (fld (argWord r 0) 8 2) (fld (argWord r 0) 16 4) (fld (argWord r 0) 24 8)
      = (s.rung c 0x50 r).modTdr p (fun t => { t with result := 3 }) := by
    have hen : (s.rung c 0x50 r).enabled p = true := by
      rw [hrung]
      exact he
    unfold State.tdrStart
    rw [if_neg (by rw [s.rung_port, hr]; decide), if_pos hen]
  rw [hstart] at hv
  generalize hu : (s.rung c 0x50 r).modTdr p (fun t => { t with result := 3 }) = u at hv
  have hport : u.port p = { s.port p with tdr := { (s.port p).tdr with result := 3 } } := by
    rw [← hu, ← s.rung_port c 0x50 r p]
    exact State.port_modPort_same ..
  have hother (q : Fin 16) (h : q ≠ p) : u.port q = s.port q := by
    rw [← hu, ← s.rung_port c 0x50 r q]
    exact State.port_modPort_ne _ h _
  have hsame (q : Fin 16) : (s.port q).link.state = (u.port q).link.state ∧ (s.port q).needs = (u.port q).needs := by
    by_cases e : q = p
    · subst e
      rw [hport]
      exact ⟨rfl, rfl⟩
    · rw [hother q e]
      exact ⟨rfl, rfl⟩
  have hfollow : State.followAll s (u.answer c 0x0702 []) = u.answer c 0x0702 [] := by
    refine followAll_same (fun q => ?_) (fun q => ?_) (fun q => ?_)
    · rw [State.answer_port]
      exact (hsame q).1
    · rw [State.answer_port]
      exact (hsame q).2
    · obtain ⟨v', y', h⟩ := u.answer_eq c 0x0702 [] 0xFFFF
      rw [h, ← hu, hrung]
      rfl
  refine ht.doesAll rfl (by decide) rfl ?_
  rw [hv, hfollow, settle_port_tdr, settle_port_link, State.answer_port, hport]
  refine ⟨State.answered_of (st := 0x0702) (d := 0xFFFF) ht.idle (by decide) (by decide) (by decide) ((settle_answered ..).trans ?_), rfl, rfl⟩
  rw [← hu]
  rfl

omit ht hp in
theorem State.modTdr_around (u : State) (p : Fin 16) (f : Tdr → Tdr) : (u.modTdr p f).around p = u.around p := u.modPort_around p fun _ => rfl
/-- The record of a run as it starts (R330). -/
def Tdr.begun (t : Tdr) (cfg : Word) (prof avg thr : Nat) : Tdr :=
  { t with running := true, prof := prof, avg := clampN 4 8 avg, thr := clampN 2 100 thr, vf := fld cfg 16 10, dly := fld cfg 0 12
           wideNow := !tdrTakes prof false, listens := 0, busy := false, burst := false }

omit ht hp in
/-- A run that may start takes the line (R330). -/
theorem State.tdrStart_begins (u : State) {prof avg thr : Nat} (hr : (u.port p).tdr.running = false) (he : u.enabled p = false) (hf : u.unforced)
    (hb : u.safeBlock (portBlock p.val) = false) : u.tdrStart p prof avg thr =
      (u.modTdr p (·.begun (u.portReg p 0x71) prof avg thr)).goLink p (fun l => { l with state := .diag }) := by
  have hdom : (tdrDomains (tdrTakes prof true)).any (fun k => u.forcedOff (portDomain p k)) = false := by
    rw [List.any_eq_false]
    intro k hk
    have hlt : k < 9 := by
      unfold tdrDomains at hk
      split at hk <;> simp at hk <;> omega
    have hg := hf (portDomain p k) (by unfold portDomain; omega)
    unfold State.gone at hg
    rw [Bool.or_eq_false_iff] at hg
    rw [hg.1]
    decide
  unfold State.tdrStart
  rw [if_neg (by rw [hr]; decide), if_neg (by rw [he]; decide), hb, hdom]
  rfl

theorem diagTdr_starts (hr : (s.port p).tdr.running = false) (he : s.enabled p = false) (hf : s.unforced) (hb : s.safeBlock (portBlock p.val) = false) :
    Does (.diagTdr c r) s (fun t => t.waitsFor c (.diagTdr p.val) ∧ (t.port p).link.state = .diag ∧ (t.port p).tdr.running = true ∧ (t.port p).tdr.burst = false
      ∧ (t.port p).tdr.prof = fld (argWord r 0) 8 2 ∧ (t.port p).tdr.avg = clampN 4 8 (fld (argWord r 0) 16 4)
      ∧ (t.port p).tdr.thr = clampN 2 100 (fld (argWord r 0) 24 8)) := by
  have hv := diagTdr_serves ht hp
  rw [if_neg (by rw [hr]; decide), if_neg (by rw [he]; decide)] at hv
  generalize hw : (s.rung c 0x50 r).waitFor c (.diagTdr p.val) = w at hv
  have hwchan : w.chan c = { (s.rung c 0x50 r).chan c with work := some (.diagTdr p.val) } := by
    rw [← hw]
    exact (State.waitFor_chan ..).trans (if_pos rfl)
  obtain ⟨v, y, hweq⟩ : ∃ v y, w = { s with chans := v, tally := y } := by
    obtain ⟨v, y, h⟩ := s.rung_eq c 0x50 r
    rw [← hw, h]
    exact ⟨_, _, rfl⟩
  have hwport : w.port p = s.port p := by
    rw [hweq]
    rfl
  have hwaround : w.around p = s.around p := by
    rw [hweq]
    rfl
  have hwsafe : w.safeBlock (portBlock p.val) = false := by
    rw [hweq]
    exact hb
  rw [w.tdrStart_begins (by rw [hwport, hr]) ((around_enabled hwaround p).trans he) (around_unforced hwaround hf) hwsafe] at hv
  generalize hx : w.modTdr p (·.begun (w.portReg p 0x71) (fld (argWord r 0) 8 2) (fld (argWord r 0) 16 4) (fld (argWord r 0) 24 8)) = x at hv
  have hxport : (x.port p).tdr = (w.port p).tdr.begun (w.portReg p 0x71) (fld (argWord r 0) 8 2) (fld (argWord r 0) 16 4) (fld (argWord r 0) 24 8) := by
    rw [← hx]
    exact congrArg Port.tdr (State.port_modPort_same ..)
  have hxaround : x.around p = s.around p := by
    rw [← hx]
    exact (w.modTdr_around p _).trans hwaround
  have hxchans : x.chans = w.chans := by rw [← hx]; rfl
  generalize hu : x.goLink p (fun l => { l with state := .diag }) = u at hv
  have hulink : (u.port p).link.state = .diag := by
    rw [← hu]
    exact congrArg Link.state (x.goLink_link p _)
  have hutdr : (u.port p).tdr = (x.port p).tdr := by
    rw [← hu]
    rw [mask_tdr (x.goLink_mask p _)]
  have huchan : u.chan c = w.chan c := by
    rw [← hu]
    exact congrArg (fun v => v.get c) ((State.goLink_chans ..).trans hxchans)
  obtain ⟨l, k, hfollow⟩ := followAll_diag (u := u) (by rw [← hu, State.goLink_around, hxaround]) hf hulink
  refine ht.doesAll rfl (by decide) rfl ?_
  rw [hv, hfollow, settle_port_tdr, settle_port_link]
  show _ ∧ (u.port p).link.state = .diag ∧ (u.port p).tdr.running = true ∧ _
  refine ⟨?_, hulink, ?_⟩
  · unfold State.waitsFor
    rw [settle_chan _ _ _ (by show ∀ p r a, (u.chan c).work ≠ _; rw [huchan, hwchan]; exact fun _ _ _ => nofun)]
    show (u.chan c).busy = true ∧ (u.chan c).work = _
    rw [huchan, hwchan]
    exact ⟨s.rung_busy c 0x50 r, rfl⟩
  · show (u.port p).tdr.running = true ∧ (u.port p).tdr.burst = false ∧ (u.port p).tdr.prof = _ ∧ (u.port p).tdr.avg = _ ∧ (u.port p).tdr.thr = _
    rw [hutdr, hxport]
    exact ⟨rfl, rfl, rfl, rfl, rfl⟩

end

end

/-- Settles O39: CAL_RUN by the reaches and ports of its masks, DIAG_TDR by the state of its port, DIAG_WATCH by its function. -/
theorem calibrationAndDiagnosticCommands : Obligations.CalibrationAndDiagnosticCommands := by
  unfold Obligations.CalibrationAndDiagnosticCommands
  exact ⟨fun s c r ht => ⟨fun h1 h2 => calRun_empty ht h1 h2, fun h1 hh => calRun_ports ht h1 hh, fun hh => calRun_reaches ht hh, fun p hp => calRead_reads ht hp⟩,
    fun s c r p ht hp => ⟨fun hr he => diagTdr_refused ht hp hr he, fun hr he hf hb => diagTdr_starts ht hp hr he hf hb, fun hr => diagTdr_joins ht hp hr⟩,
    fun s c r p ht hp => ⟨fun hk => diagWatch_reads ht hp hk, fun hk => diagWatch_captures ht hp hk, fun hk => diagWatch_discards ht hp hk⟩,
    fun s p d hc hw => diagWatchCaptureTimeout_ends hc hw⟩

end Sys2Proof.Machine
end

section
/-! PROOFS. Reflectometry (O57): the listens of a run, the burst, and the results of a run that completes (R330 to R335, R386). -/

namespace Sys2Proof.Machine

/-! ### The record of a run -/

theorem State.port_modTdr (s : State) (p : Fin 16) (f : Tdr → Tdr) : (s.modTdr p f).port p = { s.port p with tdr := f (s.port p).tdr } :=
  State.port_modPort_same ..
theorem State.modTdr_modTdr (s : State) (p : Fin 16) (f : Tdr → Tdr) : ((s.modTdr p f).port p).tdr = f (s.port p).tdr := by rw [State.port_modTdr]

/-- A ramp leaves the swing and every record beside the transmit path. -/
theorem TxPath.ramped_swing (t : TxPath) (up : Bool) (n : Nat) (r : Ramp) : (t.ramped up n r).swing = t.swing := by
  unfold TxPath.ramped
  (repeat' split) <;> rfl
theorem State.txStop_tdr (s : State) (p : Fin 16) : ((s.txStop p).port p).tdr = (s.port p).tdr := by
  unfold State.txStop State.ramp
  rw [State.port_modTx]

section
variable (s : State) (p : Fin 16)

theorem State.tdrBurst_around (h : Bool) : (s.tdrBurst p h).around p = s.around p := by
  unfold State.tdrBurst
  dsimp only
  rw [State.txStart_around, State.setSwing_around, State.modTdr_around]
theorem State.tdrBurst_port (h : Bool) : ((s.tdrBurst p h).port p).tdr = { (s.port p).tdr with burst := true, busy := (s.port p).tdr.busy || h }
    ∧ ((s.tdrBurst p h).port p).tx.swing = if (s.port p).tdr.wideNow then 80 else 100 := by
  unfold State.tdrBurst
  dsimp only
  unfold State.txStart State.ramp State.setSwing
  rw [State.port_modTx, State.port_modTx, State.port_modTdr]
  exact ⟨rfl, TxPath.ramped_swing ..⟩

/-- A listen counted, and the burst where the line is quiet or the fourth listen is over. -/
def State.tdrHears (s : State) (p : Fin 16) (h : Bool) : State :=
  let s2 := s.modTdr p (fun x => { x with listens := (s.port p).tdr.listens + 1 })
  if !h || decide (4 ≤ (s.port p).tdr.listens + 1) then s2.tdrBurst p h else s2
/-- The wide profile's turn after the narrow burst. -/
def State.tdrWidens (s : State) (p : Fin 16) : State := (s.modTdr p (fun x => { x with burst := false, wideNow := true, listens := 0 })).txStop p

theorem State.tdrHears_around (h : Bool) : (s.tdrHears p h).around p = s.around p :=
  ite_keep (State.around · p) ((State.tdrBurst_around ..).trans (s.modTdr_around p _)) (s.modTdr_around p _)
theorem State.tdrWidens_around : (s.tdrWidens p).around p = s.around p := (State.txStop_around ..).trans (s.modTdr_around p _)
theorem State.tdrWidens_tdr : ((s.tdrWidens p).port p).tdr = { (s.port p).tdr with burst := false, wideNow := true, listens := 0 } :=
  (State.txStop_tdr ..).trans (s.modTdr_modTdr p _)
theorem State.tdrHears_bursts {h : Bool} (hh : h = false ∨ 4 ≤ (s.port p).tdr.listens + 1) : ((s.tdrHears p h).port p).tdr =
      { (s.port p).tdr with listens := (s.port p).tdr.listens + 1, burst := true, busy := (s.port p).tdr.busy || h }
    ∧ ((s.tdrHears p h).port p).tx.swing = if (s.port p).tdr.wideNow then 80 else 100 := by
  unfold State.tdrHears
  dsimp only
  rw [if_pos (by simpa using hh)]
  obtain ⟨h1, h2⟩ := State.tdrBurst_port (s.modTdr p (fun x => { x with listens := (s.port p).tdr.listens + 1 })) p h
  rw [h1, h2, State.modTdr_modTdr]
  exact ⟨rfl, rfl⟩
theorem State.tdrHears_listens {h : Bool} (hh : h = true) (hn : (s.port p).tdr.listens + 1 < 4) : ((s.tdrHears p h).port p).tdr =
    { (s.port p).tdr with listens := (s.port p).tdr.listens + 1 } := by
  unfold State.tdrHears
  dsimp only
  rw [if_neg (by simp [hh]; omega), State.modTdr_modTdr]

/-- Whether the listen that ends belongs to the wide profile after the narrow burst. -/
def Tdr.turns (t : Tdr) : Bool := t.burst && !t.wideNow && tdrTakes t.prof true

theorem State.tdrListen_eq (h : Bool) : s.tdrListen p h = if !(s.port p).tdr.running then s
    else if (s.port p).tdr.burst && !(s.port p).tdr.turns then s else (if (s.port p).tdr.turns then s.tdrWidens p else s).tdrHears p h := rfl

end

/-! ### A listen that ends (R331) -/

section
variable {s : State} {p : Fin 16} (hs : s.steady p)
include hs

/-- A command of a steady port that changes nothing. -/
theorem runsPort_keeps {c : Instr} {P : State → Prop} {t : State} (he : exec c s = s.runsPort p t) (ht : t = s) (hP : P (settle s s)) : Does c s P := by
  subst ht
  exact runsPort_does rfl hs he hP

theorem tdrListenEnd_idle (h : Bool) (hr : (s.port p).tdr.running = false) : Does (.tdrListenEnd p h) s (fun t => (t.port p).tdr = (s.port p).tdr) :=
  runsPort_keeps hs rfl ((s.tdrListen_eq p h).trans (if_pos (by rw [hr]; rfl))) (settle_port_tdr ..)

section
variable (hr : (s.port p).tdr.running = true)
include hr

omit hs in
theorem tdrListen_hears (h : Bool) (hb : (s.port p).tdr.burst = false) : s.tdrListen p h = s.tdrHears p h := by
  have ht : (s.port p).tdr.turns = false := by
    unfold Tdr.turns
    rw [hb]
    rfl
  rw [s.tdrListen_eq p h, hr, hb, ht]
  rfl
theorem tdrListenEnd_bursts (h : Bool) (hb : (s.port p).tdr.burst = false) (hh : h = false ∨ 4 ≤ (s.port p).tdr.listens + 1) :
    Does (.tdrListenEnd p h) s (fun t => (t.port p).tdr.burst = true ∧ (t.port p).tdr.busy = ((s.port p).tdr.busy || h)
      ∧ (t.port p).tx.swing = (if (s.port p).tdr.wideNow then 80 else 100)) := by
  refine runsPort_does (s.tdrHears_around p h) hs (congrArg (s.runsPort p) (tdrListen_hears hr h hb)) ?_
  obtain ⟨h1, h2⟩ := s.tdrHears_bursts p hh
  rw [settle_port_tdr, settle_port_tx, h1, h2]
  exact ⟨rfl, rfl, rfl⟩
theorem tdrListenEnd_listens (h : Bool) (hb : (s.port p).tdr.burst = false) (hh : h = true) (hn : (s.port p).tdr.listens + 1 < 4) :
    Does (.tdrListenEnd p h) s (fun t => (t.port p).tdr = { (s.port p).tdr with listens := (s.port p).tdr.listens + 1 }) := by
  refine runsPort_does (s.tdrHears_around p h) hs (congrArg (s.runsPort p) (tdrListen_hears hr h hb)) ?_
  rw [settle_port_tdr, s.tdrHears_listens p hh hn]

theorem tdrListenEnd_widens (h : Bool) (hb : (s.port p).tdr.burst = true) (hw : (s.port p).tdr.wideNow = false) (ht : tdrTakes (s.port p).tdr.prof true = true) :
    Does (.tdrListenEnd p h) s (fun t => (t.port p).tdr.wideNow = true ∧ (t.port p).tdr.listens = 1 ∧ (t.port p).tdr.burst = !h) := by
  have hturn : (s.port p).tdr.turns = true := by
    unfold Tdr.turns
    rw [hb, hw, ht]
    rfl
  have he : s.tdrListen p h = (s.tdrWidens p).tdrHears p h := by
    rw [s.tdrListen_eq p h, hr, hturn, Bool.not_true, Bool.and_false]
    rfl
  refine runsPort_does ((State.tdrHears_around ..).trans (s.tdrWidens_around p)) hs (congrArg (s.runsPort p) he) ?_
  rw [settle_port_tdr]
  have hl : ((s.tdrWidens p).port p).tdr.listens = 0 := by rw [s.tdrWidens_tdr]
  cases h with
  | false =>
    rw [(State.tdrHears_bursts _ p (.inl rfl)).1, s.tdrWidens_tdr]
    exact ⟨rfl, rfl, rfl⟩
  | true =>
    rw [State.tdrHears_listens _ p rfl (by rw [hl]; decide), s.tdrWidens_tdr]
    exact ⟨rfl, rfl, rfl⟩

theorem tdrListenEnd_ignored (h : Bool) (hb : (s.port p).tdr.burst = true) (hw : (s.port p).tdr.wideNow = true ∨ tdrTakes (s.port p).tdr.prof true = false) :
    Does (.tdrListenEnd p h) s (fun t => (t.port p).tdr = (s.port p).tdr) := by
  have hturn : (s.port p).tdr.turns = false := by
    unfold Tdr.turns
    rw [hb]
    rcases hw with hw | hw
    · rw [hw]; rfl
    · rw [hw]; exact Bool.and_false _
  refine runsPort_keeps hs rfl ?_ (settle_port_tdr ..)
  rw [s.tdrListen_eq p h, hr, hb, hturn]
  rfl

end
end

/-! ### A run that completes (R331 to R335) -/

/-- The record of a run that completes (R332 to R335, R342). -/
def Tdr.completed (x : Tdr) (all : List (TdrEvent × Nat)) (wide narrow : List (BitVec 16)) : Tdr :=
  { x with
    seq := x.seq + 1, result := if x.busy then 2 else 1, overflow := decide (8 < all.length)
    lenSrc := (cableLength all).1, len := BitVec.ofNat 16 (min 0xFFFF (cableLength all).2), events := (keepEight all).map eventWord
    wide := if tdrTakes x.prof true then wide.take 1024 else [], narrow := if tdrTakes x.prof false then narrow.take 1024 else [] }

theorem followPort_rests_port {old u : State} {p : Fin 16} (hf : u.unforced) (he : old.enabled p = u.enabled p) (hl : (u.port p).link.state.reached = false) :
    (State.followPort old u p).port p = u.port p ∧ (State.followPort old u p).chans = u.chans := by
  rcases followPort_rests hf he hl with h | h <;> rw [h] <;> exact ⟨rfl, rfl⟩

/-- The channel that waited stands answered with its words when its command closes (R382, R385). -/
theorem answerWait_gives {s u : State} {f : LongCmd → Bool} {c : Fin 16} (hc : u.chans = s.chans) (h : s.waiting f = some c) (st : Nat) (ws : List Word) :
    (u.answerWait f st ws).chan c = (s.chan c).answered st 0xFFFF ws := by
  have hu : u.chan c = s.chan c := congrArg (fun v => v.get c) hc
  unfold State.answerWait
  rw [State.waiting_congr s hc, h]
  dsimp only
  rw [State.answer_chan_same, hu]
theorem answerWait_port (u : State) (f : LongCmd → Bool) (st : Nat) (ws : List Word) (q : Fin 16) : (u.answerWait f st ws).port q = u.port q :=
  bench_port (u.answerWait_bench f st ws 0xFFFF) q
theorem settle_ended {s u old : State} {c : Fin 16} {st : Nat} {ws : List Word} (h : u.chan c = (s.chan c).answered st 0xFFFF ws) :
    s.ended (settle old u) c st ws := by
  unfold State.ended
  rw [settle_chan _ _ _ (by rw [h]; exact fun _ _ _ => nofun), h]

section
variable (s : State) (p : Fin 16)

theorem State.runPort_tdr : ((s.runPort p).port p).tdr = (s.port p).tdr := by
  have h (t : State) (b : Bool) : ((t.startItems p b).port p).tdr = (t.port p).tdr := by
    unfold State.startItems
    dsimp only
    rw [State.placed_port, State.port_modCal]
  have hmod (f : PortCal → PortCal) : ((s.modCal p f).port p).tdr = (s.port p).tdr := by rw [State.port_modCal]
  exact ite_keep (fun t => (t.port p).tdr) rfl (ite_keep (fun t => (t.port p).tdr) (hmod _) ((h _ _).trans (hmod _)))

/-- A run that is over: its record stands, its port is DISABLED. -/
theorem State.tdrOver_port : ((s.tdrOver p).port p).tdr = { (s.port p).tdr with running := false, burst := false }
    ∧ ((s.tdrOver p).port p).link.state = .disabled := by
  generalize hu : ((s.modTdr p (fun t => { t with running := false, burst := false })).txStop p).goLink p (fun l => { l with state := .disabled }) = u
  have hu1 : (u.port p).tdr = { (s.port p).tdr with running := false, burst := false } := by
    rw [← hu, mask_tdr (State.goLink_mask _ p _)]
    exact (State.txStop_tdr ..).trans (s.modTdr_modTdr p _)
  have hu2 : (u.port p).link.state = .disabled := by
    rw [← hu, State.goLink_link]
  have he : s.tdrOver p = if (s.port p).cal.waits then u.runPort p else u := by
    rw [← hu]
    rfl
  rw [he]
  split
  · exact ⟨(u.runPort_tdr p).trans hu1, (congrArg Link.state (warm_link (u.runPort_warm p) p)).trans hu2⟩
  · exact ⟨hu1, hu2⟩

end

section
variable {s : State} {p : Fin 16} (hs : s.steady p) (peaks : List TdrPeak) (wide narrow : List (BitVec 16))
include hs

theorem tdrComplete_idle (hr : (s.port p).tdr.running = false) : Does (.tdrComplete p peaks wide narrow) s (fun t => (t.port p).tdr = (s.port p).tdr) :=
  runsPort_keeps hs rfl (if_pos (by rw [hr]; rfl)) (settle_port_tdr ..)

omit hs in
theorem State.tdrDone_completes (hr : (s.port p).tdr.running = true) (hb : (s.port p).tdr.burst = true)
    (hw : tdrTakes (s.port p).tdr.prof true = true → (s.port p).tdr.wideNow = true) {w n : List TdrEvent} {all : List (TdrEvent × Nat)}
    (ew : w = (if tdrTakes (s.port p).tdr.prof true then mergeClose 3 ((s.port p).tdr.eventsOf false peaks) else []))
    (en : n = (if tdrTakes (s.port p).tdr.prof false then mergeClose 40 ((s.port p).tdr.eventsOf true peaks) else [])) (ea : all = typed (joinEvents w n)) :
    s.tdrDone p peaks wide narrow = ((s.modTdr p (·.completed all wide narrow)).tdrOver p).answerWait (isTdr p) stOk
      (((s.modTdr p (·.completed all wide narrow)).tdrOver p).port p).tdr.words := by
  have hgo : (!(s.port p).tdr.running || !(s.port p).tdr.burst || (tdrTakes (s.port p).tdr.prof true && !(s.port p).tdr.wideNow)) = false := by
    rw [hr, hb]
    cases h : tdrTakes (s.port p).tdr.prof true with
    | false => rfl
    | true => rw [hw h]; rfl
  subst ea en ew
  exact if_neg (by rw [hgo]; decide)

theorem tdrComplete_gives (hr : (s.port p).tdr.running = true) (hb : (s.port p).tdr.burst = true)
    (hw : tdrTakes (s.port p).tdr.prof true = true → (s.port p).tdr.wideNow = true) {w n : List TdrEvent} {all : List (TdrEvent × Nat)}
    (ew : w = (if tdrTakes (s.port p).tdr.prof true then mergeClose 3 ((s.port p).tdr.eventsOf false peaks) else []))
    (en : n = (if tdrTakes (s.port p).tdr.prof false then mergeClose 40 ((s.port p).tdr.eventsOf true peaks) else [])) (ea : all = typed (joinEvents w n)) :
    Does (.tdrComplete p peaks wide narrow) s (fun t => (t.port p).tdr.seq = (s.port p).tdr.seq + 1 ∧ (t.port p).tdr.result = (if (s.port p).tdr.busy then 2 else 1)
      ∧ (t.port p).tdr.running = false ∧ (t.port p).tdr.events = (keepEight all).map eventWord ∧ (t.port p).tdr.overflow = decide (8 < all.length)
      ∧ (t.port p).tdr.lenSrc = (cableLength all).1 ∧ (t.port p).tdr.len = BitVec.ofNat 16 (min 0xFFFF (cableLength all).2) ∧ (t.port p).link.state = .disabled
      ∧ ∀ c, s.waiting (isTdr p) = some c → s.ended t c 0 (t.port p).tdr.words) := by
  have he := s.tdrDone_completes peaks wide narrow hr hb hw ew en ea
  obtain ⟨htdr, hlink⟩ := State.tdrOver_port (s.modTdr p (·.completed all wide narrow)) p
  rw [State.modTdr_modTdr] at htdr
  generalize hu : (s.modTdr p (·.completed all wide narrow)).tdrOver p = u at he htdr hlink
  have hchans : u.chans = s.chans := by
    rw [← hu, State.tdrOver_chans, State.modTdr_chans]
  generalize hv : u.answerWait (isTdr p) stOk (u.port p).tdr.words = v at he
  have hvport : v.port p = u.port p := by
    rw [← hv]
    exact answerWait_port ..
  have hframe : v.frame = s.frame := by
    rw [← he]
    exact s.tdrDone_frame p peaks wide narrow
  have hheld : v.held = s.held := by
    rw [← he]
    exact s.tdrDone_held p peaks wide narrow
  have hfar : v.far = s.far := by
    rw [← hv, State.answerWait_far, ← hu, State.tdrOver_far]
    rfl
  have hfree : v.unforced := State.unforced_read (fun k => by unfold State.reg; rw [frame_regs hframe, frame_otp hframe]) (far_level hfar) hs.2.1
  have hen : s.enabled p = v.enabled p := by
    unfold State.enabled State.lnMode State.portReg
    rw [State.act_frame hframe hheld (far_mended hfar)]
  have hends (c : Fin 16) (h : s.waiting (isTdr p) = some c) : v.chan c = (s.chan c).answered 0 0xFFFF (u.port p).tdr.words := by
    rw [← hv]
    exact answerWait_gives hchans h stOk _
  refine ⟨_, by rw [show exec (.tdrComplete p peaks wide narrow) s = s.runsPort p (s.tdrDone p peaks wide narrow) from rfl, he, State.runsPort_eq hs.1], ?_⟩
  obtain ⟨hz, hc⟩ := followPort_rests_port hfree hen (by rw [hvport, hlink]; rfl)
  rw [settle_port_tdr, settle_port_link, hz, hvport, htdr]
  refine ⟨rfl, rfl, rfl, rfl, rfl, rfl, rfl, hlink, fun c h => ?_⟩
  rw [← htdr]
  exact settle_ended ((congrArg (fun x => x.get c) hc).trans (hends c h))

end

end Sys2Proof.Machine
end

section
/-! PROOFS. Cable watch (O57): the evaluation with its events, the capture and its end (R336 to R340, R386). -/

namespace Sys2Proof.Machine

/-! ### The watch record -/

section
variable (s : State) (p : Fin 16)

theorem State.port_modWatch (f : Watch → Watch) : (s.modWatch p f).port p = { s.port p with watch := f (s.port p).watch } := State.port_modPort_same ..

theorem State.modWatch_ring (f : Watch → Watch) : (s.modWatch p f).ring = s.ring := rfl

/-- A port whose link is up and active captures at once (R339). -/
theorem State.capture_port (hl : (s.port p).link.state = .loconUp) (hq : (s.port p).quiet.state = .active) :
    (s.capture p).port p = { s.port p with watch := { (s.port p).watch with capturing := true, wantCapture := false } } := by
  unfold State.capture
  rw [State.port_modWatch, hl, hq]
  rfl

/-- The check of the reference marks at most that it was reported (R339). -/
theorem State.refCheck_port : ∃ b, (s.refCheck p).port p = { s.port p with watch := { (s.port p).watch with refTold := b } } := by
  unfold State.refCheck
  dsimp only
  split
  · split
    · exact ⟨(s.port p).watch.refTold, rfl⟩
    · exact ⟨true, (State.raise_port ..).trans (s.port_modWatch p _)⟩
  · exact ⟨false, s.port_modWatch p _⟩
theorem State.refCheck_told (hr : (s.port p).refOk (s.port p).refNow = false) (hn : (s.port p).refNow ≠ none) (ht : (s.port p).watch.refTold = false)
    (h : s.ringRoom) : (s.refCheck p).told 0x0043 (portBlock p.val) p.val (wd ((if (s.port p).inLchirp then 1 else 0) + 2)) := by
  unfold State.refCheck
  dsimp only
  rw [if_pos (by rw [hr, Option.isSome_iff_ne_none.2 hn]; rfl), if_neg (by rw [ht]; decide)]
  exact State.raise_told _ _ _ _ _ _ _ _ h

/-! ### WATCH_STATE (R337) -/

variable (fig : Nat) (old new : WatchCount) (v dist : Nat)

theorem State.watchEvent_port (q : Fin 16) : (s.watchEvent p fig old new v dist).port q = s.port q := by
  unfold State.watchEvent
  dsimp only
  exact ite_keep (State.port · q) ((State.raise_port ..).trans (ite_keep (State.port · q) (State.raise_port ..) rfl)) (ite_keep (State.port · q) (State.raise_port ..) rfl)
theorem State.watchEvent_heard : s.ring.heard 2 (s.watchEvent p fig old new v dist).ring := by
  have h1 (t : State) (c : Bool) (x y : Word) : t.ring.heard 1 (if c then t.raise 0x0042 (portBlock p.val) p.val (wd (fig + 256 * new.state)) x y else t).ring :=
    heard_ite (t.raise_heard ..) (heard_refl _ 1)
  exact heard_trans (h1 s _ _ _) (h1 _ _ _ _) (Nat.le_refl 2)
theorem State.watchEvent_noted (h : old.alarm ≠ new.alarm ∨ old.warn ≠ new.warn) (hr : s.ring.untaken.length < 255) :
    (s.watchEvent p fig old new v dist).noted 0x0042 p.val (wd (fig + 256 * new.state)) := by
  have hone (t : State) (x y : Word) (ht : t.ringRoom) : (t.raise 0x0042 (portBlock p.val) p.val (wd (fig + 256 * new.state)) x y).noted 0x0042 p.val (wd (fig + 256 * new.state)) :=
    t.raise_noted _ _ _ _ _ _ _ ht
  unfold State.watchEvent
  dsimp only
  by_cases ha : old.alarm = new.alarm
  · have hw : old.warn ≠ new.warn := h.resolve_left (fun e => e ha)
    rw [if_neg (by simp [ha]), if_pos (by simpa using hw)]
    exact hone s _ _ (by unfold State.ringRoom; omega)
  · rw [if_pos (by simpa using ha)]
    refine hone _ _ _ ?_
    have hl := heard_length (heard_ite (c := (old.warn != new.warn) = true)
      (s.raise_heard 0x0042 (portBlock p.val) p.val (wd (fig + 256 * new.state)) (wd v) (if fig = 0 then wd dist else 0) 0) (heard_refl s.ring 1))
    unfold State.ringRoom
    omega

end

/-- The events of all four figures leave the ports, and each change of the first two is among them. -/
theorem State.watchEvents_port (s : State) (p : Fin 16) (o : Watch) (f : WatchFigures) (q : Fin 16) : (s.watchEvents p o f).port q = s.port q := by
  unfold State.watchEvents
  rw [State.watchEvent_port, State.watchEvent_port, State.watchEvent_port, State.watchEvent_port]
theorem State.watchEvents_noted (s : State) (p : Fin 16) (o : Watch) (f : WatchFigures) (hr : s.ring.untaken.length < 250) :
    ((o.refl.alarm ≠ (s.port p).watch.refl.alarm ∨ o.refl.warn ≠ (s.port p).watch.refl.warn) →
      (s.watchEvents p o f).noted 0x0042 p.val (wd (256 * (s.port p).watch.refl.state)))
    ∧ ((o.loss.alarm ≠ (s.port p).watch.loss.alarm ∨ o.loss.warn ≠ (s.port p).watch.loss.warn) →
      (s.watchEvents p o f).noted 0x0042 p.val (wd (1 + 256 * (s.port p).watch.loss.state))) := by
  generalize hw : (s.port p).watch = w
  have he : s.watchEvents p o f = (((s.watchEvent p 0 o.refl w.refl f.refl f.reflDist).watchEvent p 1 o.loss w.loss f.loss 0).watchEvent p 2 o.noise w.noise
      f.noise 0).watchEvent p 3 o.bulk w.bulk f.bulk 0 := by
    rw [← hw]
    rfl
  rw [he]
  have h0 := s.watchEvent_heard p 0 o.refl w.refl f.refl f.reflDist
  generalize ha : s.watchEvent p 0 o.refl w.refl f.refl f.reflDist = a at h0
  have h1 := a.watchEvent_heard p 1 o.loss w.loss f.loss 0
  generalize hb : a.watchEvent p 1 o.loss w.loss f.loss 0 = b at h1
  have h2 := heard_trans (b.watchEvent_heard p 2 o.noise w.noise f.noise 0)
    ((b.watchEvent p 2 o.noise w.noise f.noise 0).watchEvent_heard p 3 o.bulk w.bulk f.bulk 0) (Nat.le_refl 4)
  have hl := heard_length h0
  refine ⟨fun h => noted_heard ?_ (heard_trans h1 h2 (Nat.le_refl 6)), fun h => noted_heard ?_ h2⟩
  · rw [← ha, ← Nat.zero_add (256 * w.refl.state)]
    exact s.watchEvent_noted p 0 _ _ _ _ h (by omega)
  · rw [← hb]
    exact a.watchEvent_noted p 1 _ _ _ _ h (by omega)

/-! ### The evaluation (R336 to R338) -/

/-- The record once its reference is checked and a waiting capture has begun. -/
def Watch.opened (w : Watch) (b : Bool) : Watch := { w with refTold := b, capturing := w.capturing || w.wantCapture, wantCapture := false }
/-- The record once each figure is counted (R337). -/
def Watch.counted (w : Watch) (f : WatchFigures) (wn al : Word) : Watch :=
  { w with
    susp := false
    refl := w.refl.step f.refl (fld wn 24 8) (fld al 24 8)
    loss := w.loss.step f.loss (fld wn 16 8) (fld al 16 8)
    noise := w.noise.step f.noise (fld wn 8 8) (fld al 8 8)
    bulk := w.bulk.step f.bulk (fld wn 0 8) (fld al 0 8)
    val := put 24 8 (min 255 f.refl) ||| put 16 8 (min 255 f.loss) ||| put 8 8 (min 255 f.noise) ||| put 0 8 (min 255 f.bulk)
    dist := BitVec.ofNat 16 (min 0xFFFF f.reflDist), bin := f.lossBin }
/-- The state once its reference is checked and a waiting capture has begun. -/
def State.watchOpens (s : State) (p : Fin 16) : State := if ((s.refCheck p).port p).watch.wantCapture then (s.refCheck p).capture p else s.refCheck p

theorem State.watchEval_eq (s : State) (p : Fin 16) (seen : Bool) (f : WatchFigures) : s.watchEval p seen f = if !bit (s.portReg p 0x74) 0 then s
    else if s.watchIdle p seen then s.modWatch p (fun w => { w with susp := true })
    else if !((s.watchOpens p).port p).refOk ((s.watchOpens p).port p).refNow then (s.watchOpens p).modWatch p (fun w => { w with susp := true })
    else ((s.watchOpens p).modWatch p (·.counted f (s.portReg p 0x75) (s.portReg p 0x76))).watchEvents p ((s.watchOpens p).port p).watch f := rfl

/-- An evaluation that is not skipped finds its link up and active. -/
theorem State.watchIdle_active {s : State} {p : Fin 16} {seen : Bool} (h : s.watchIdle p seen = false) :
    (s.port p).link.state = .loconUp ∧ (s.port p).quiet.state = .active := by
  unfold State.watchIdle at h
  dsimp only at h
  rw [Bool.or_eq_false_iff, Bool.or_eq_false_iff, Bool.or_eq_false_iff] at h
  obtain ⟨⟨⟨-, h1⟩, h2⟩, -⟩ := h
  exact ⟨by simpa using h1, by simpa using h2⟩

theorem State.watchOpens_port {s : State} {p : Fin 16} {seen : Bool} (h : s.watchIdle p seen = false) :
    ∃ b, (s.watchOpens p).port p = { s.port p with watch := (s.port p).watch.opened b } := by
  obtain ⟨hl, hq⟩ := State.watchIdle_active h
  obtain ⟨b, hb⟩ := s.refCheck_port p
  refine ⟨b, ?_⟩
  unfold State.watchOpens
  split
  · next hw =>
    rw [hb] at hw
    rw [State.capture_port _ p (by rw [hb]; exact hl) (by rw [hb]; exact hq), hb]
    unfold Watch.opened
    rw [show (s.port p).watch.wantCapture = true from hw, Bool.or_true]
  · next hw =>
    rw [hb] at hw ⊢
    unfold Watch.opened
    have hw : (s.port p).watch.wantCapture = false := by simpa using hw
    rw [hw, Bool.or_false, ← hw]
theorem State.watchOpens_ring (s : State) (p : Fin 16) : (s.watchOpens p).ring = (s.refCheck p).ring := ite_keep State.ring rfl rfl

section
variable {s : State} {p : Fin 16} (hc : s.clocked = true) (seen : Bool) (f : WatchFigures)
include hc

theorem watchEvaluation_off (hb : bit (s.portReg p 0x74) 0 = false) : Does (.watchEvaluation p seen f) s (fun t => (t.port p).watch = (s.port p).watch) := by
  refine runs_does hc rfl ?_
  rw [s.watchEval_eq p seen f, if_pos (by rw [hb]; rfl), settle_port_watch]

section
variable (hb : bit (s.portReg p 0x74) 0 = true)
include hb

theorem watchEvaluation_skips (hi : s.watchIdle p seen = true) :
    Does (.watchEvaluation p seen f) s (fun t => (t.port p).watch = { (s.port p).watch with susp := true }) := by
  refine runs_does hc rfl ?_
  rw [s.watchEval_eq p seen f, if_neg (by rw [hb]; decide), if_pos hi, settle_port_watch, State.port_modWatch]

section
variable (hi : s.watchIdle p seen = false)
include hi

omit hc in
theorem watchEval_suspends (hr : (s.port p).refOk (s.port p).refNow = false) : s.watchEval p seen f = (s.watchOpens p).modWatch p (fun w => { w with susp := true }) := by
  obtain ⟨b, h⟩ := State.watchOpens_port hi
  have hr' : ((s.watchOpens p).port p).refOk ((s.watchOpens p).port p).refNow = false := by
    rw [h]
    exact hr
  rw [s.watchEval_eq p seen f, if_neg (by rw [hb]; decide), if_neg (by rw [hi]; decide), if_pos (by rw [hr']; rfl)]
omit hc in
theorem watchEval_counts (hr : (s.port p).refOk (s.port p).refNow = true) : s.watchEval p seen f =
    ((s.watchOpens p).modWatch p (·.counted f (s.portReg p 0x75) (s.portReg p 0x76))).watchEvents p ((s.watchOpens p).port p).watch f := by
  obtain ⟨b, h⟩ := State.watchOpens_port hi
  have hr' : ((s.watchOpens p).port p).refOk ((s.watchOpens p).port p).refNow = true := by
    rw [h]
    exact hr
  rw [s.watchEval_eq p seen f, if_neg (by rw [hb]; decide), if_neg (by rw [hi]; decide), if_neg (by rw [hr']; decide)]

theorem watchEvaluation_suspends (hr : (s.port p).refOk (s.port p).refNow = false) : Does (.watchEvaluation p seen f) s (fun t => (t.port p).watch.susp = true
    ∧ (t.port p).watch.refl = (s.port p).watch.refl ∧ ((s.port p).refNow ≠ none → (s.port p).watch.refTold = false → s.ringRoom →
        t.told 0x0043 (portBlock p.val) p.val (wd ((if (s.port p).inLchirp then 1 else 0) + 2)))) := by
  obtain ⟨b, h⟩ := State.watchOpens_port hi
  refine runs_does hc rfl ?_
  rw [watchEval_suspends seen f hb hi hr, settle_port_watch, State.port_modWatch, h]
  exact ⟨rfl, rfl, fun hn ht hroom => told_of ((settle_ring ..).trans ((State.modWatch_ring ..).trans (s.watchOpens_ring p))) (s.refCheck_told p hr hn ht hroom)⟩

theorem watchEvaluation_captures (hw : (s.port p).watch.wantCapture = true) :
    Does (.watchEvaluation p seen f) s (fun t => (t.port p).watch.capturing = true ∧ (t.port p).watch.wantCapture = false) := by
  obtain ⟨b, h⟩ := State.watchOpens_port hi
  refine runs_does hc rfl ?_
  rw [settle_port_watch]
  have hcap : ((s.port p).watch.opened b).capturing = true := by
    unfold Watch.opened
    rw [hw, Bool.or_true]
  cases hr : (s.port p).refOk (s.port p).refNow with
  | false =>
    rw [watchEval_suspends seen f hb hi hr, State.port_modWatch, h]
    exact ⟨hcap, rfl⟩
  | true =>
    rw [watchEval_counts seen f hb hi hr, State.watchEvents_port, State.port_modWatch, h]
    exact ⟨hcap, rfl⟩

theorem watchEvaluation_counts (hr : (s.port p).refOk (s.port p).refNow = true) : Does (.watchEvaluation p seen f) s (fun t => (t.port p).watch.susp = false
    ∧ (t.port p).watch.refl = (s.port p).watch.refl.step f.refl (fld (s.portReg p 0x75) 24 8) (fld (s.portReg p 0x76) 24 8)
    ∧ (t.port p).watch.loss = (s.port p).watch.loss.step f.loss (fld (s.portReg p 0x75) 16 8) (fld (s.portReg p 0x76) 16 8)
    ∧ (t.port p).watch.noise = (s.port p).watch.noise.step f.noise (fld (s.portReg p 0x75) 8 8) (fld (s.portReg p 0x76) 8 8)
    ∧ (t.port p).watch.bulk = (s.port p).watch.bulk.step f.bulk (fld (s.portReg p 0x75) 0 8) (fld (s.portReg p 0x76) 0 8)
    ∧ (((s.port p).watch.refl.alarm ≠ (t.port p).watch.refl.alarm ∨ (s.port p).watch.refl.warn ≠ (t.port p).watch.refl.warn) → s.ringSpace →
        t.noted 0x0042 p.val (wd (256 * (t.port p).watch.refl.state)))
    ∧ (((s.port p).watch.loss.alarm ≠ (t.port p).watch.loss.alarm ∨ (s.port p).watch.loss.warn ≠ (t.port p).watch.loss.warn) → s.ringSpace →
        t.noted 0x0042 p.val (wd (1 + 256 * (t.port p).watch.loss.state)))) := by
  obtain ⟨b, h⟩ := State.watchOpens_port hi
  have hring : s.ringSpace → (s.watchOpens p).ring.untaken.length < 250 := fun hs => by
    have hheard : s.ring.heard 1 (s.refCheck p).ring := by
      unfold State.refCheck
      exact heard_ite (heard_ite (heard_refl _ 1) (State.raise_heard ..)) (heard_refl _ 1)
    have hl := heard_length hheard
    unfold State.ringSpace at hs
    rw [s.watchOpens_ring p]
    omega
  refine runs_does hc rfl ?_
  rw [watchEval_counts seen f hb hi hr]
  generalize hu : (s.watchOpens p).modWatch p (·.counted f (s.portReg p 0x75) (s.portReg p 0x76)) = u
  have hport : u.port p = { s.port p with watch := ((s.port p).watch.opened b).counted f (s.portReg p 0x75) (s.portReg p 0x76) } := by
    rw [← hu, State.port_modWatch, h]
  have hur : s.ringSpace → u.ring.untaken.length < 250 := fun hs => by
    rw [← hu]
    exact hring hs
  rw [settle_port_watch, State.watchEvents_port, h]
  have hn := fun hs => u.watchEvents_noted p ((s.port p).watch.opened b) f (hur hs)
  rw [hport] at hn ⊢
  exact ⟨rfl, rfl, rfl, rfl, rfl, fun hch hs => noted_ring ((hn hs).1 hch) (settle_ring ..), fun hch hs => noted_ring ((hn hs).2 hch) (settle_ring ..)⟩

end
end
end

/-! ### Captures (R339, R386) -/

section
variable {s : State} {p : Fin 16} (hc : s.clocked = true)
include hc

theorem watchAutoCapture_starts (hb : bit (s.portReg p 0x74) 1 = true) (hl : (s.port p).link.state = .loconUp) (hr : (s.port p).refOk (s.port p).refNow = false)
    (hn : (s.port p).watch.capturing = false) (hq : (s.port p).quiet.state = .active) {k : Nat} (hk : (s.port p).watch.quietTick = some k)
    (ht : k + secTicks 10 ≤ s.ticks) : Does (.watchAutoCapture p) s (fun t => (t.port p).watch = { (s.port p).watch with capturing := true, wantCapture := false }) := by
  have he : s.autoCapture p = s.capture p := by
    unfold State.autoCapture
    dsimp only
    rw [hb, hl, hr, hn, hk]
    exact if_pos (by simpa using ht)
  refine runs_does hc rfl ?_
  rw [he, settle_port_watch, s.capture_port p hl hq]

theorem watchAutoCapture_none (h : bit (s.portReg p 0x74) 1 = false ∨ (s.port p).refOk (s.port p).refNow = true) :
    Does (.watchAutoCapture p) s (fun t => (t.port p).watch = (s.port p).watch) := by
  have he : s.autoCapture p = s := by
    unfold State.autoCapture
    dsimp only
    rcases h with h | h <;> rw [h] <;> exact if_neg (by simp)
  refine runs_does hc rfl ?_
  rw [he, settle_port_watch]

/-- The record once a capture has become the reference of its profile. -/
def Watch.kept (w : Watch) (wide : Bool) (r : WatchRef) : Watch :=
  if wide then { w with capturing := false, refWide := some r, refTold := false } else { w with capturing := false, refNarrow := some r, refTold := false }
/-- The state once a capture has become the reference of its profile and is reported. -/
def State.keepsRef (s : State) (p : Fin 16) (wide : Bool) (r : WatchRef) : State :=
  let s1 := s.modWatch p (·.kept wide r)
  { s1 with journal := { s1.journal with changed := true } }.raise 0x0043 (portBlock p.val) p.val (if wide then 0 else 1)

theorem watchCaptureDone_ends (x : Sounding) (r : WatchRef) (hn : (s.port p).watch.capturing = true) (hl : (s.port p).link.state = .loconUp)
    (hx : x.wide = !(s.port p).inLchirp) (h1 : r.snd = x) (h2 : r.swing = (s.port p).tx.swing)
    (h3 : r.keyIdx = (match (s.port p).tow.partner with | some c => c.keyIdx | none => 0xFF))
    (h4 : r.oui = (match (s.port p).tow.partner with | some c => c.oui | none => 0)) :
    Does (.watchCaptureDone p x) s (fun t => (t.port p).watch.capturing = false ∧ t.journal.changed = true
      ∧ (x.wide = true → (t.port p).watch.refWide = some r ∧ (t.port p).watch.refNarrow = (s.port p).watch.refNarrow)
      ∧ (x.wide = false → (t.port p).watch.refNarrow = some r ∧ (t.port p).watch.refWide = (s.port p).watch.refWide)
      ∧ (s.ringRoom → t.told 0x0043 (portBlock p.val) p.val (if x.wide then 0 else 1))
      ∧ ∀ c, s.waiting (isWatch p) = some c → s.ended t c 0 (t.port p).watchWords) := by
  have he : s.captureDone p x = (s.keepsRef p x.wide r).answerWait (isWatch p) stOk ((s.keepsRef p x.wide r).port p).watchWords := by
    obtain ⟨snd, swing, keyIdx, oui⟩ := r
    dsimp only at h1 h2 h3 h4
    subst h1 h2 h3 h4
    unfold State.captureDone
    dsimp only
    rw [if_neg (by rw [hn, hl, hx]; cases (s.port p).inLchirp <;> decide)]
    rfl
  have hport : (s.keepsRef p x.wide r).port p = { s.port p with watch := (s.port p).watch.kept x.wide r } :=
    (State.raise_port ..).trans (s.port_modWatch p (·.kept x.wide r))
  have hjournal : (s.keepsRef p x.wide r).journal.changed = true := congrArg Journal.changed (State.raise_journal ..)
  have htold : s.ringRoom → (s.keepsRef p x.wide r).told 0x0043 (portBlock p.val) p.val (if x.wide then 0 else 1) := fun h => State.raise_told _ _ _ _ _ _ _ _ h
  have hchans : (s.keepsRef p x.wide r).chans = s.chans := State.raise_chans ..
  generalize s.keepsRef p x.wide r = u at he hport hjournal htold hchans
  have hb := u.answerWait_bench (isWatch p) stOk (u.port p).watchWords 0xFFFF
  have hends (c : Fin 16) (h : s.waiting (isWatch p) = some c) := answerWait_gives hchans h stOk (u.port p).watchWords
  refine runs_does hc rfl ?_
  rw [he]
  generalize u.answerWait (isWatch p) stOk (u.port p).watchWords = v at hb hends
  have hvport : v.port p = _ := (bench_port hb p).trans hport
  have hwords : ((settle s v).port p).watchWords = (u.port p).watchWords := by
    obtain ⟨l, hl⟩ := (settle_leftAs s v).port p
    rw [hl, hvport, hport]
    rfl
  rw [settle_port_watch, hwords, hvport]
  refine ⟨?_, settle_changed _ _ (by rw [bench_journal hb]; exact hjournal), fun hw => ?_, fun hw => ?_,
    fun h => told_of ((settle_ring ..).trans (bench_ring hb)) (htold h), fun c h => settle_ended (hends c h)⟩
  · unfold Watch.kept
    split <;> rfl
  · rw [hw]
    exact ⟨rfl, rfl⟩
  · rw [hw]
    exact ⟨rfl, rfl⟩

end

/-- Settles O57: the listens by burst and profile, the run that completes, the evaluation by its reference, and the captures. -/
theorem diagnosticRows : Obligations.DiagnosticRows := by
  unfold Obligations.DiagnosticRows
  intro s p hs
  have hc : s.clocked = true := hs.1
  refine ⟨fun heard hr => ⟨fun hb => ⟨fun h => tdrListenEnd_bursts hs hr heard hb h, fun h hn => tdrListenEnd_listens hs hr heard hb h hn⟩,
      fun hb hw ht => tdrListenEnd_widens hs hr heard hb hw ht, fun hb hw => tdrListenEnd_ignored hs hr heard hb hw⟩,
    fun hr heard peaks wide narrow => ⟨tdrListenEnd_idle hs heard hr, tdrComplete_idle hs peaks wide narrow hr⟩,
    fun peaks wide narrow w n all hr hb hw ew en ea => tdrComplete_gives hs peaks wide narrow hr hb hw ew en ea,
    fun hb seen f => watchEvaluation_off hc seen f hb,
    fun hb seen f => ⟨fun hi => watchEvaluation_skips hc seen f hb hi, fun hi => ⟨fun hr => watchEvaluation_suspends hc seen f hb hi hr,
      fun hw => watchEvaluation_captures hc seen f hb hi hw, fun hr => watchEvaluation_counts hc seen f hb hi hr⟩⟩,
    fun hb hl hr hn hq k hk ht => watchAutoCapture_starts hc hb hl hr hn hq hk ht, fun h => watchAutoCapture_none hc h,
    fun x r hn hl hx h1 h2 h3 h4 => watchCaptureDone_ends hc x r hn hl hx h1 h2 h3 h4⟩

end Sys2Proof.Machine
end

section
/-! PROOFS. Quiet, deep quiet and low-power idle (O49): the cells, the entry, the exit and the wake (R300 to R310). -/

namespace Sys2Proof.Machine

/-! ### FILL blocks leave the link and the quiet record (R304) -/

/-- What a block sent leaves of its port: the surroundings, the link and the quiet record. -/
def State.poise (s : State) (p : Fin 16) : Around p × Link × Quiet := (s.around p, (s.port p).link, (s.port p).quiet)

section
variable (s : State) (p : Fin 16)

theorem State.modPort_poise {f : Port → Port} (hc : ∀ x, (f x).cal.running = x.cal.running) (hl : ∀ x, (f x).link = x.link) (hq : ∀ x, (f x).quiet = x.quiet) :
    (s.modPort p f).poise p = s.poise p := by
  unfold State.poise
  rw [s.modPort_around p hc, State.port_modPort_same, hl, hq]
@[simp] theorem State.modTow_poise (f : Towpath → Towpath) : (s.modTow p f).poise p = s.poise p := s.modPort_poise p (fun _ => rfl) (fun _ => rfl) fun _ => rfl
@[simp] theorem State.modTx_poise (f : TxPath → TxPath) : (s.modTx p f).poise p = s.poise p := s.modPort_poise p (fun _ => rfl) (fun _ => rfl) fun _ => rfl
@[simp] theorem State.modSnd_poise (f : Sender → Sender) : (s.modSnd p f).poise p = s.poise p := s.modPort_poise p (fun _ => rfl) (fun _ => rfl) fun _ => rfl
@[simp] theorem State.modRcv_poise (f : Receiver → Receiver) : (s.modRcv p f).poise p = s.poise p := s.modPort_poise p (fun _ => rfl) (fun _ => rfl) fun _ => rfl
@[simp] theorem State.modDmt_poise (f : Dmt → Dmt) : (s.modDmt p f).poise p = s.poise p := s.modPort_poise p (fun _ => rfl) (fun _ => rfl) fun _ => rfl
@[simp] theorem State.count_poise (b k n : Nat) : (s.count b k n).poise p = s.poise p := by
  unfold State.poise
  rw [State.count_around, State.count_port]

@[simp] theorem State.slotNack_poise (k : NackRun) : (s.slotNack p k).2.poise p = s.poise p := (State.count_poise ..).trans (s.modRcv_poise p _)
@[simp] theorem State.slotRelease_poise : (s.slotRelease p).2.poise p = s.poise p := s.modSnd_poise p _
@[simp] theorem State.slotSeg_poise (c : Word) (l : List Byte) (k : Nat) : (s.slotSeg p c l k).2.poise p = s.poise p := s.modTow_poise p _
@[simp] theorem State.fillSlot_poise : (s.fillSlot p).2.poise p = s.poise p := by
  unfold State.fillSlot
  dsimp only
  (repeat' split) <;> simp
@[simp] theorem State.lineBlock_poise (m : LineMode) (l : List Byte) : (s.lineBlock p m l).poise p = s.poise p := by
  have hpam (t : State) (w : List (BitVec 10)) : (t.pamLine p m w).poise p = t.poise p := t.modTx_poise p _
  have hdmt (t : State) (w : List (BitVec 10)) : (t.dmtLine p w).poise p = t.poise p := by
    unfold State.dmtLine
    exact ite_keep (State.poise · p) (t.modDmt_poise p _) ((State.modDmt_poise ..).trans (t.modTx_poise p _))
  unfold State.lineBlock
  dsimp only
  (repeat' split) <;> simp [hpam, hdmt]
@[simp] theorem State.emitBlock_poise (m : LineMode) (k : Nat) (q : Seq24) (f : BitVec 16) (l : List Byte) (b : Bool) :
    (s.emitBlock p m k q f l b).poise p = s.poise p := by
  unfold State.emitBlock
  dsimp only
  rw [State.lineBlock_poise, State.modSnd_poise, State.fillSlot_poise]
theorem State.fillGroup_poise (n : Nat) : (State.fillGroup p n s).poise p = s.poise p := by
  induction n generalizing s with
  | zero => rfl
  | succ n ih => exact (ih _).trans (State.emitBlock_poise ..)

end

section
variable {s : State} {p : Fin 16}

/-! ### ENTER, EXIT and ABORT (R303, R304, R308, R310) -/

/-- A cell that its receiver declines leaves the quiet record too. -/
theorem cell_declined {c : Instr} {h : CellHdr} {t : State} {n : Nat} {act : State → State} {ok : Bool} (hc : s.clocked = true) (ha : s.actsOn p h)
    (he : exec c s = s.runs t) (e : t = s.withCellIf p h n ok act) (hk : ok = false) : Does c s (fun t => s.declines p h t ∧ (t.port p).quiet = (s.port p).quiet) := by
  obtain ⟨a, b, e2⟩ := s.declined_port (p := p) h (fun r => r.decline (s.takeCell p h).2.1)
  refine runs_does hc he ?_
  rw [e, State.withCellIf_declines ha n act hk]
  refine ⟨⟨?_, settle_port_tow _ _ p⟩, ?_⟩
  · rw [settle_port_link, e2]
  · rw [settle_port_quiet, e2]

/-- A QUIET cell that acts changes the quiet record, and its CACK is ready. -/
theorem quietCell_acts {c : Instr} {h : CellHdr} {t : State} {f : Quiet → Quiet} {P : State → Prop} (hc : s.clocked = true)
    (he : exec c s = s.runs t) (e : t = (s.heardCell p h 9).modQuiet p f)
    (hP : ∀ v, (v.port p).quiet = f (s.port p).quiet → s.acked p h 9 [] v → P v) : Does c s P := by
  obtain ⟨a, b, e2⟩ := s.heardCell_core p h 9
  refine runs_core hc he e (State.modQuiet_core ..) fun v hv => hP v ?_ ?_
  · rw [quiet_of_core hv, e2]
    rfl
  · rw [State.acked, tow_of_core hv, e2]
    rfl

theorem State.takeExit_eq (s : State) (p : Fin 16) (h : CellHdr) (c : QuietCell) : s.takeExit p h c =
    s.withCellIf p h 9 ((s.port p).quiet.state == .quiet && !(s.port p).link.leader && ahead c.xq (s.port p).tow.symCount)
      (fun t => t.modQuiet p (fun q => { q with exit := some (c.xq, c.xchip) })) := rfl

section
variable (hc : s.clocked = true)
include hc

theorem quietEnter_acts {h : CellHdr} {c : QuietCell} (ha : s.actsOn p h) (ho : s.enterOk p c = true) :
    Does (.quietEnter p h c) s (fun t => (t.port p).quiet.pend = some (c, true) ∧ s.acked p h 9 [] t) :=
  quietCell_acts hc rfl (State.withCellIf_acts ha 9 _ ho) fun v hq hv => ⟨by rw [hq], hv⟩
theorem quietEnter_declined {h : CellHdr} {c : QuietCell} (ha : s.actsOn p h) (ho : s.enterOk p c = false) :
    Does (.quietEnter p h c) s (fun t => s.declines p h t ∧ (t.port p).quiet = (s.port p).quiet) :=
  cell_declined hc ha rfl rfl ho
theorem quietExit_acts {h : CellHdr} {c : QuietCell} (ha : s.actsOn p h) (hq : (s.port p).quiet.state = .quiet) (hl : (s.port p).link.leader = false)
    (hx : ahead c.xq (s.port p).tow.symCount = true) : Does (.quietExit p h c) s (fun t => (t.port p).quiet.exit = some (c.xq, c.xchip) ∧ s.acked p h 9 [] t) :=
  quietCell_acts hc rfl ((s.takeExit_eq p h c).trans (State.withCellIf_acts ha 9 _ (by rw [hq, hl, hx]; rfl))) fun v hq hv => ⟨by rw [hq], hv⟩
theorem quietExit_declined {h : CellHdr} {c : QuietCell} (ha : s.actsOn p h)
    (hx : (s.port p).quiet.state ≠ .quiet ∨ (s.port p).link.leader = true ∨ ahead c.xq (s.port p).tow.symCount = false) :
    Does (.quietExit p h c) s (fun t => s.declines p h t ∧ (t.port p).quiet = (s.port p).quiet) := by
  refine cell_declined hc ha rfl (s.takeExit_eq p h c) ?_
  rcases hx with hx | hx | hx
  · rw [beq_false_of_ne hx]; rfl
  · rw [hx, Bool.not_true, Bool.and_false]; rfl
  · rw [hx, Bool.and_false]
theorem quietAbort_drops {h : CellHdr} (ha : s.actsOn p h) : Does (.quietAbort p h) s (fun t => (t.port p).quiet.pend = none
    ∧ (t.port p).quiet.state = (s.port p).quiet.state ∧ s.acked p h 9 [] t) :=
  quietCell_acts hc rfl (State.withCell_acts ha 9 _) fun v hq hv => ⟨by rw [hq], by rw [hq], hv⟩

section
variable (hq : (s.port p).quiet.state = .active) (hp : (s.port p).quiet.pend = none)
include hq hp

theorem quietEnterSend_sends {c c1 : QuietCell} {n : Nat} {e : CalEntry} (he : s.quietEntry p = some (n, e)) (hk : s.skipCause p (e.lenPs.getD 0) = none)
    (hc1 : c1 = { c with deep := s.deepLen p (e.lenPs.getD 0), qsf := BitVec.ofNat 8 (qsfAct (s.portReg p 0x20)) }) :
    Does (.quietEnterSend p c) s (fun t => (t.port p).quiet.pend = some (c1, false) ∧ (t.port p).quiet.window = some n ∧ s.readied p ⟨9, 0, quietPayload 0 c1⟩ t) := by
  have hs : s.sendEnter p c = (s.modQuiet p (fun q => { q with pend := some (c1, false), window := some n })).queueCell p 9 (quietPayload 0 c1) := by
    unfold State.sendEnter
    dsimp only
    rw [hq, hp, he]
    dsimp only
    rw [hk, hc1]
    rfl
  refine runs_core hc rfl hs (State.queueCell_core ..) fun v hv => ?_
  rw [State.readied, tow_of_core hv, quiet_of_core hv, State.modQuiet_core]
  exact ⟨rfl, rfl, rfl⟩
theorem quietEnterSend_none {c : QuietCell} (he : s.quietEntry p = none) : Does (.quietEnterSend p c) s (fun t => s.still p t ∧ (t.port p).quiet = (s.port p).quiet) := by
  have hs : s.sendEnter p c = s := by
    unfold State.sendEnter
    dsimp only
    rw [hq, hp, he]
    rfl
  exact runs_core hc rfl hs rfl fun v hv => ⟨still_of_core hv, quiet_of_core hv⟩

end

/-! ### Standard low-power idle (R300) -/

section
variable (hl : (s.port p).link.state = .stdUp) (he : (s.port p).quiet.eee = true)
include hl he

theorem lpiIdleTimeout_enters (hw : s.outWaiting p = false) :
    Does (.lpiIdleTimeout p) s (fun t => (t.port p).quiet = { (s.port p).quiet with lpiTx := true } ∧ s.still p t) := by
  have hs : s.lpiEnter p = s.modQuiet p (fun q => { q with lpiTx := true }) := if_pos (by rw [hl, he, hw]; rfl)
  refine runs_core hc rfl hs (State.modQuiet_core ..) fun v hv => ⟨quiet_of_core hv, link_of_core hv, tow_of_core hv⟩
omit hl he in
theorem lpiIdleTimeout_waits (hw : s.outWaiting p = true) : Does (.lpiIdleTimeout p) s (fun t => (t.port p).quiet = (s.port p).quiet) := by
  have hs : s.lpiEnter p = s := if_neg (by rw [hw, Bool.not_true, Bool.and_false]; decide)
  exact runs_core hc rfl hs rfl fun v hv => quiet_of_core hv
theorem partnerLpi_follows (k : Fin 3) :
    Does (.partnerLpi p k) s (fun t => (t.port p).quiet = { (s.port p).quiet with lpiRx := decide (k ≠ 2) } ∧ s.still p t) := by
  have hk : decide (k.val ≠ 2) = decide (k ≠ 2) := decide_eq_decide.mpr (not_congr ⟨fun h => Fin.ext h, fun h => by rw [h]; rfl⟩)
  have hs : s.partnerLpi p k = s.modQuiet p (fun q => { q with lpiRx := decide (k ≠ 2) }) := by
    rw [← hk]
    exact if_pos (by rw [hl, he]; rfl)
  refine runs_core hc rfl hs (State.modQuiet_core ..) fun v hv => ⟨quiet_of_core hv, link_of_core hv, tow_of_core hv⟩

end
end

/-! ### Symbol E (R304, R309) -/

/-- The towpath of an end in quiet or in deep quiet. -/
def Towpath.rested (t : Towpath) (c : QuietCell) : Towpath :=
  if c.deep then { t with profile := .off, sf := 0, pilots := [] }
  else { t with profile := .narrowRun, sf := clampN 7 12 c.qsf.toNat, symCount := 0, pilots := [], chirps := startMarker .run (clampN 7 12 c.qsf.toNat) }
/-- The towpath without QUIET cells that wait. -/
def Towpath.withdrawn (t : Towpath) : Towpath :=
  { t with
    await := t.await.filter (fun e => e.cell.type != 9)
    ready := t.ready.filter (fun e => e.type != 9) }
/-- The quiet record of an end as its entry acts. -/
def Quiet.begun (q : Quiet) (c : QuietCell) (n : Nat) : Quiet :=
  { q with
    state := if c.deep then .deep else .quiet, pend := none, entered := satAdd 0xFFFF q.entered 1, listening := false
    exit := if c.deep then none else some (c.xq, c.xchip), wideAt := (n, c.entry) }

/-- An entry that acts, after its FILL blocks. -/
theorem State.goQuiet_eq (s : State) (p : Fin 16) (c : QuietCell) : s.goQuiet p c =
    ((((State.fillGroup p (s.port p).groupRest s).modQuiet p (·.begun c (State.fillGroup p (s.port p).groupRest s).ticks)).txStop p).modTow p
      (·.rested c)).xtSync (reachOf p) := rfl

theorem State.skipWindow_around (u : State) (p : Fin 16) (n : Nat) : (u.skipWindow p n).around p = u.around p :=
  (State.raise_around ..).trans (u.modQuiet_around p _)
theorem State.skipWindow_core (u : State) (p : Fin 16) (n : Nat) : (u.skipWindow p n).core p = { u.core p with
    quiet := { (u.core p).quiet with pend := none, window := none, skip := n, skipped := satAdd 0xFFFF (u.core p).quiet.skipped 1 } } :=
  (State.raise_core ..).trans (u.modQuiet_core p _)
theorem State.skipWindow_told (u : State) (p : Fin 16) (n : Nat) (h : u.ringRoom) : (u.skipWindow p n).told 0x0019 (portBlock p.val) p.val (wd n) :=
  State.raise_told _ _ _ _ _ _ _ _ h

section
variable (hs : s.steady p)
include hs

theorem quietEntryPoint_enters {c : QuietCell} (hp : (s.port p).quiet.pend = some (c, true)) : Does (.quietEntryPoint p) s (fun t => (t.port p).quiet.pend = none
    ∧ (t.port p).quiet.entered = satAdd 0xFFFF (s.port p).quiet.entered 1 ∧ (t.port p).link = (s.port p).link
    ∧ (c.deep = false → (t.port p).quiet.state = .quiet ∧ (t.port p).quiet.exit = some (c.xq, c.xchip) ∧ (t.port p).tow.profile = .narrowRun
        ∧ (t.port p).tow.sf = clampN 7 12 c.qsf.toNat ∧ (t.port p).tow.symCount = 0)
    ∧ (c.deep = true → (t.port p).quiet.state = .deep ∧ (t.port p).tow.profile = .off)) := by
  have he : s.entryPoint p = s.goQuiet p c := by
    unfold State.entryPoint
    rw [hp]
  have hpoise := s.fillGroup_poise p (s.port p).groupRest
  rw [s.goQuiet_eq p c] at he
  generalize State.fillGroup p (s.port p).groupRest s = u at he hpoise
  have haround : u.around p = s.around p := congrArg Prod.fst hpoise
  have hlink : (u.port p).link = (s.port p).link := congrArg (fun x => x.2.1) hpoise
  have hquiet : (u.port p).quiet = (s.port p).quiet := congrArg (fun x => x.2.2) hpoise
  refine core_does hs rfl he (x := { u.core p with quiet := (u.core p).quiet.begun c u.ticks, tow := (u.core p).tow.rested c }) ?_ ?_ fun v hv => ?_
  · rw [State.xtSync_around, State.modTow_around, State.txStop_around, State.modQuiet_around, haround]
  · rw [State.xtSync_core, State.modTow_core, State.txStop_core, State.modQuiet_core]
  · rw [quiet_of_core hv, link_of_core hv, tow_of_core hv]
    refine ⟨rfl, congrArg (fun q : Quiet => satAdd 0xFFFF q.entered 1) hquiet, hlink, fun hd => ?_, fun hd => ?_⟩
    · unfold Quiet.begun Towpath.rested
      rw [hd]
      exact ⟨rfl, rfl, rfl, rfl, rfl⟩
    · unfold Quiet.begun Towpath.rested
      rw [hd]
      exact ⟨rfl, rfl⟩

theorem quietEntryPoint_aborts {c : QuietCell} (hp : (s.port p).quiet.pend = some (c, false)) (hl : (s.port p).link.leader = true) :
    Does (.quietEntryPoint p) s (fun t => (t.port p).quiet.pend = none ∧ (t.port p).quiet.skip = 4
      ∧ (t.port p).quiet.skipped = satAdd 0xFFFF (s.port p).quiet.skipped 1 ∧ (t.port p).quiet.state = (s.port p).quiet.state
      ∧ (t.port p).tow.ready = (s.port p).tow.ready.filter (fun e => e.type != 9) ++ [⟨9, 0, quietPayload 2 c⟩]
      ∧ (s.ringRoom → t.told 0x0019 (portBlock p.val) p.val 4)) := by
  have he : s.entryPoint p = ((s.modTow p Towpath.withdrawn).queueCell p 9 (quietPayload 2 c)).skipWindow p 4 := by
    unfold State.entryPoint
    rw [hp]
    exact if_pos hl
  generalize hu : (s.modTow p Towpath.withdrawn).queueCell p 9 (quietPayload 2 c) = u at he
  have haround : u.around p = s.around p := by rw [← hu, State.queueCell_around, State.modTow_around]
  have hcore : u.core p = { s.core p with tow := { (s.core p).tow.withdrawn with ready := (s.core p).tow.withdrawn.ready ++ [⟨9, 0, quietPayload 2 c⟩] } } := by
    rw [← hu, State.queueCell_core, State.modTow_core]
    rfl
  have hring : u.ring = s.ring := by rw [← hu]; rfl
  refine runsPort_does ((u.skipWindow_around p 4).trans haround) hs (congrArg (s.runsPort p) he) ?_
  have hv := (settle_core (u.skipWindow p 4) p s).trans (u.skipWindow_core p 4)
  rw [hcore] at hv
  rw [quiet_of_core hv, tow_of_core hv]
  refine ⟨rfl, rfl, rfl, rfl, rfl, fun hroom => told_of (settle_ring ..) (u.skipWindow_told p 4 ?_)⟩
  unfold State.ringRoom at hroom ⊢
  rw [hring]
  exact hroom

theorem quietEntryPoint_drops {c : QuietCell} (hp : (s.port p).quiet.pend = some (c, false)) (hl : (s.port p).link.leader = false) :
    Does (.quietEntryPoint p) s (fun t => (t.port p).quiet.pend = none ∧ (t.port p).quiet.state = (s.port p).quiet.state ∧ s.still p t) := by
  have he : s.entryPoint p = s.modQuiet p (fun q => { q with pend := none }) := by
    unfold State.entryPoint
    rw [hp]
    dsimp only
    rw [if_neg (by rw [hl]; decide)]
  refine core_does hs rfl he (s.modQuiet_around p _) (State.modQuiet_core ..) fun v hv => ?_
  rw [quiet_of_core hv]
  exact ⟨rfl, rfl, link_of_core hv, tow_of_core hv⟩
theorem quietEntryPoint_none (hp : (s.port p).quiet.pend = none) : Does (.quietEntryPoint p) s (s.still p) := by
  refine still_does hs rfl ?_ fun _ => still_of_core
  unfold State.entryPoint
  rw [hp]

/-! ### The exit chip (R305, R306) -/

/-- The underlay on its wide run again, the count as if it had not stopped (R305). -/
def State.underlayBack (s : State) (p : Fin 16) : State :=
  (s.modTow p (fun t => { t with profile := .wideRun, sf := max 11 (s.port p).tow.wideSf, symCount := (s.port p).wideNow s.ticks, pilots := [] })).modQuiet p
    (fun q => { q with state := .active, exit := none, window := none })
/-- The up-ramp of the main signal that the exit chip schedules (R305). -/
def State.exitRamp (s : State) (p : Fin 16) : Ramp := (s.underlayBack p).rampAt p true false (s.ticks + wakeTicks)
/-- The main signal woken by the exit chip (R306). -/
def State.mainBack (s : State) (p : Fin 16) : State :=
  let x := s.port p
  ((s.underlayBack p).modTx p (fun t => { t.woken (x.link.modeAct.getD .l25s) x.link.leader with nextRamp := some (s.exitRamp p) })).modDmt p
    (fun d => { d with dTick := d.dTick + (s.ticks - x.quiet.wideAt.1), symbols := if x.link.modeAct.getD .l25s == .ldmt then [flagA x.link.leader] else d.symbols })
/-- The preamble's length before the first block (R306). -/
def State.preambleTicks (s : State) (p : Fin 16) : Nat :=
  stepTicks (if (s.port p).link.modeAct.getD .l25s == .ldmt then 4506 else 256) ((s.underlayBack p).txRate p)

omit hs in
theorem State.exitPoint_eq (hq : (s.port p).quiet.state = .quiet) : s.exitPoint p = ((s.mainBack p).modLink p (fun l => { l with
    blocksTick := (s.exitRamp p).start + (s.exitRamp p).len + s.preambleTicks p })).xtSync (reachOf p) := if_neg (by rw [hq]; decide)

theorem quietExitPoint_wakes (hq : (s.port p).quiet.state = .quiet) : Does (.quietExitPoint p) s (fun t => (t.port p).quiet.state = .active
    ∧ (t.port p).quiet.exit = none ∧ (t.port p).tow.profile = .wideRun ∧ (t.port p).tow.symCount = (s.port p).wideNow s.ticks
    ∧ (t.port p).tx.memory = ((s.port p).tx.woken ((s.port p).link.modeAct.getD .l25s) (s.port p).link.leader).memory
    ∧ (t.port p).link.state = (s.port p).link.state
    ∧ ∃ up, (t.port p).tx.nextRamp = some up ∧ up.up = true ∧ up.start = s.ticks + wakeTicks ∧ up.start + up.len ≤ (t.port p).link.blocksTick) := by
  have hback : (s.underlayBack p).port p = { s.port p with
      tow := { (s.port p).tow with profile := .wideRun, sf := max 11 (s.port p).tow.wideSf, symCount := (s.port p).wideNow s.ticks, pilots := [] }
      quiet := { (s.port p).quiet with state := .active, exit := none, window := none } } := by
    unfold State.underlayBack
    rw [State.port_modQuiet, State.port_modTow]
  have hmain : ((s.mainBack p).port p).tow = ((s.underlayBack p).port p).tow ∧ ((s.mainBack p).port p).quiet = ((s.underlayBack p).port p).quiet
      ∧ ((s.mainBack p).port p).link = ((s.underlayBack p).port p).link
      ∧ ((s.mainBack p).port p).tx = { ((s.underlayBack p).port p).tx.woken ((s.port p).link.modeAct.getD .l25s) (s.port p).link.leader with
          nextRamp := some (s.exitRamp p) } := by
    unfold State.mainBack
    dsimp only
    rw [State.port_modDmt, State.port_modTx]
    exact ⟨rfl, rfl, rfl, rfl⟩
  obtain ⟨htow, hquiet, hlink, htx⟩ := hmain
  rw [hback] at htow hquiet hlink htx
  have haround : (s.mainBack p).around p = s.around p := by
    unfold State.mainBack State.underlayBack
    dsimp only
    rw [State.modDmt_around, State.modTx_around, State.modQuiet_around, State.modTow_around]
  have he := State.exitPoint_eq hq
  generalize s.mainBack p = u at he htow hquiet hlink htx haround
  have hmask : (((u.modLink p (fun l => { l with blocksTick := (s.exitRamp p).start + (s.exitRamp p).len + s.preambleTicks p })).xtSync (reachOf p)).port p).mask
      = ({ u.port p with link := { (u.port p).link with blocksTick := (s.exitRamp p).start + (s.exitRamp p).len + s.preambleTicks p } } : Port).mask := by
    rw [State.xtSync_mask, State.port_modLink]
  refine runsPort_does (by rw [State.xtSync_around, State.modLink_around, haround]) hs (congrArg (s.runsPort p) he) ?_
  rw [settle_port_quiet, settle_port_tow, settle_port_tx, settle_port_link, mask_quiet hmask, mask_tow hmask, mask_tx hmask, mask_link hmask]
  dsimp only
  rw [hquiet, htow, hlink, htx]
  exact ⟨rfl, rfl, rfl, rfl, rfl, rfl, s.exitRamp p, rfl, rfl, rfl, Nat.le_add_right ..⟩
theorem quietExitPoint_none (hq : (s.port p).quiet.state ≠ .quiet) : Does (.quietExitPoint p) s (s.still p) :=
  still_does hs rfl (if_pos (by simpa using hq)) fun _ => still_of_core

/-! ### Deep quiet (R309) -/

theorem deepQuietEarlyWake_wakes (hq : (s.port p).quiet.state = .deep) (hl : (s.port p).link.leader = false) : Does (.deepQuietEarlyWake p) s (fun t =>
    (t.port p).quiet.state = .entering ∧ (t.port p).quiet.listening = true ∧ s.still p t) := by
  have he : s.earlyWake p = s.modQuiet p (fun q => { q with state := .entering, listening := true }) := if_pos (by rw [hq, hl]; rfl)
  refine core_does hs rfl he (s.modQuiet_around p _) (State.modQuiet_core ..) fun v hv => ?_
  rw [quiet_of_core hv]
  exact ⟨rfl, rfl, link_of_core hv, tow_of_core hv⟩
theorem deepQuietEarlyWake_none (h : (s.port p).quiet.state ≠ .deep ∨ (s.port p).link.leader = true) : Does (.deepQuietEarlyWake p) s (s.still p) := by
  refine still_does hs rfl (if_neg ?_) fun _ => still_of_core
  rcases h with h | h
  · rw [beq_false_of_ne h]; simp
  · rw [h]; simp
theorem deepQuietEnd_wakes (hq : (s.port p).quiet.state = .deep ∨ (s.port p).quiet.state = .entering) : Does (.deepQuietEnd p) s (fun t =>
    (t.port p).quiet.state = .entering ∧ (t.port p).quiet.listening = true ∧ (t.port p).tow.profile = .wideRun ∧ (t.port p).tow.symCount = 0
    ∧ (t.port p).link = (s.port p).link) := by
  have he : s.deepEnd p = ((s.modTow p (fun t => { t.wide (max 11 (s.port p).tow.wideSf) with pilots := [] })).modQuiet p
      (fun q => { q with state := .entering, listening := true, window := none })).txStart p := if_pos (by rcases hq with h | h <;> rw [h] <;> rfl)
  refine core_does hs rfl he (by rw [State.txStart_around, State.modQuiet_around, State.modTow_around]) (State.txStart_core ..) fun v hv => ?_
  rw [State.modQuiet_core, State.modTow_core] at hv
  rw [quiet_of_core hv, tow_of_core hv, link_of_core hv]
  exact ⟨rfl, rfl, rfl, rfl, rfl⟩
theorem deepQuietMarkerTimeout_down (hq : (s.port p).quiet.state = .entering) (hn : (s.port p).quiet.listening = true) (hl : (s.port p).link.leader = false) :
    Does (.deepQuietMarkerTimeout p) s (s.fellWith p 8) :=
  linkDown_alone hs 8 (congrArg (s.runsPort p) (if_pos (by rw [hq, hn, hl]; rfl)))
theorem deepQuietMarkerTimeout_none (h : (s.port p).quiet.state ≠ .entering ∨ (s.port p).quiet.listening = false ∨ (s.port p).link.leader = true) :
    Does (.deepQuietMarkerTimeout p) s (s.still p) := by
  refine still_does hs rfl (if_neg ?_) fun _ => still_of_core
  rcases h with h | h | h
  · rw [beq_false_of_ne h]; simp
  · rw [h]; simp
  · rw [h]; simp

end
end

/-- Settles O49: each event by the quiet record that meets it; the FILL blocks of an entry leave the link and that record. -/
theorem quietRows : Obligations.QuietRows := by
  unfold Obligations.QuietRows
  intro s p hs
  have hc : s.clocked = true := hs.1
  exact ⟨fun c hq hp => ⟨fun n e c1 he hk hc1 => quietEnterSend_sends hc hq hp he hk hc1, fun he => quietEnterSend_none hc hq hp he⟩,
    fun h c ha => ⟨fun ho => quietEnter_acts hc ha ho, fun ho => quietEnter_declined hc ha ho, fun hq hl hx => quietExit_acts hc ha hq hl hx,
      fun hx => quietExit_declined hc ha hx, quietAbort_drops hc ha⟩,
    fun c hp => quietEntryPoint_enters hs hp, fun c hp => ⟨fun hl => quietEntryPoint_aborts hs hp hl, fun hl => quietEntryPoint_drops hs hp hl⟩,
    fun hp => quietEntryPoint_none hs hp, fun hq => quietExitPoint_wakes hs hq, fun hq => quietExitPoint_none hs hq,
    fun hq hl => deepQuietEarlyWake_wakes hs hq hl, fun h => deepQuietEarlyWake_none hs h, fun hq => deepQuietEnd_wakes hs hq,
    fun hq hn hl => deepQuietMarkerTimeout_down hs hq hn hl, fun h => deepQuietMarkerTimeout_none hs h,
    fun hl he => ⟨fun hw => lpiIdleTimeout_enters hc hl he hw, fun hw => lpiIdleTimeout_waits hc hw, fun k => partnerLpi_follows hc hl he k⟩⟩

end Sys2Proof.Machine
end
